-- ==== Sys2Proof/Word.lean ====
section
/-!
DEFINITION. The byte, and the sorted sparse store the state is built from.
-/
namespace Sys2Proof

/-- An octet. -/
abbrev Byte := BitVec 8

/-- A sparse store: entries with strictly rising keys, none equal to what an unlisted key reads as.
The operations that keep this form are in Machine/Store.lean. -/
abbrev SMap (α : Type) := List (Nat × α)

/-- The value of one dictionary object: a number (BOOL, U8 to U64, S32, S64 as two's complement) or
an octet string (R135, R136). -/
inductive Val where
  | num (n : Nat)
  | oct (b : List Byte)
  deriving DecidableEq, Repr

/-- The number a value holds; an octet string holds none and counts as zero. -/
def Val.n : Val → Nat
  | .num n => n
  | .oct _ => 0

/-- The octets a value holds; a number holds none. -/
def Val.b : Val → List Byte
  | .num _ => []
  | .oct b => b

@[simp] theorem Val.n_num (n : Nat) : (Val.num n).n = n := rfl
@[simp] theorem Val.b_oct (b : List Byte) : (Val.oct b).b = b := rfl

end Sys2Proof
end

