-- ==== Sys2Proof/Syntax.lean ====
section
/-!
DEFINITION. The commands of the block: one constructor for each row of spec/opcode_table.json, with
its operands, and the operand types.
-/
namespace Sys2Proof

/-- The path a Umani request arrives on (Table 5.6): the mailbox of function `fn` of a link (0 the PF,
1 to 63 a VF), a Umani ring, the in-band route (and whether on stream 0) or the management band of a fibre channel (and the PHY
that carried the request), the local
serial port, or the security complex's internal path. -/
inductive UPath where
  | mailbox (link : Fin 4) (fn : Fin 64) (slot : Fin 16)
  | ring (r : Fin 4096)
  | inband (n : Fin 4) (stream0 : Bool)
  | mband (n : Fin 4) (comet : Bool)
  | serial
  | internal
  deriving DecidableEq, Repr

/-- Where a request comes from: its path and the REQUESTER and SEQUENCE fields of its header (Table 5.3). -/
structure Origin where
  path : UPath
  code : BitVec 16
  seq : BitVec 16
  deriving DecidableEq, Repr

/-- A Umani message as its transport delivers it (Table 5.3, R143). `delivered` is the number of bytes
the transport delivered and `checkOk` its transport check. `flags` are the reserved bits of OP_FLAGS; `pec` is the packet error code of the local
serial path (R150). -/
structure UMsg where
  o : Origin
  index : BitVec 16
  sub : BitVec 8
  op : BitVec 4
  response : Bool
  last : Bool
  abort : BitVec 16
  length : BitVec 16
  offset : BitVec 32
  data : List Byte
  delivered : Nat
  checkOk : Bool
  flags : BitVec 2
  pec : BitVec 8
  deriving DecidableEq, Repr

/-- A descriptor a host posts in a ring (Table 6.7), with what its buffer holds for rings the host
writes, and the outcome of the device's DMA: 0 done, 4 host error, 5 crossing closed (Table 6.9). -/
structure Desc where
  addr : BitVec 64
  len : BitVec 32
  ctrl : BitVec 16
  status : BitVec 16
  metaw : BitVec 64
  cookie : BitVec 32
  epoch : BitVec 32
  buf : List Byte
  dma : BitVec 16
  deriving DecidableEq, Repr

/-- A downstream Lemow message (Tables 12.1 and 12.2) as the management band or a management record delivers it: whether it came
in-band, the carrier's ADDRESS, SEQ, and its body. -/
structure Lemow where
  inband : Bool
  addr : BitVec 16
  seq : BitVec 16
  body : List Byte
  deriving DecidableEq, Repr

/-- A frame at a port's reference plane: the bytes received, FCS included, where in the present sub-tick (ns) its first bit crossed, and the
variable latency measured for it (ps, R391). -/
structure EthRx where
  data : List Byte
  off : Fin 1000
  lat : BitVec 16
  deriving DecidableEq, Repr

/-- What a lane's receiver measures over 64 µs (R375): the mean square of the ideal decision levels, and that of the slicer's error, in one unit. -/
structure Slicer where
  ps : BitVec 32
  pe : BitVec 32
  deriving DecidableEq, Repr

/-- A lane whose training ends: its receiver, and the partner's requests for this end's coefficients in order (R374), each a place of LN_TX_FFE (0 c(1),
1 c(0), 2 c(−1), 3 c(−2)) and whether it increments. -/
structure TrainLane where
  fom : Slicer
  asks : List (Fin 4 × Bool)
  deriving DecidableEq, Repr

/-- A lane of a fabric bundle (R398): the lane tags of its last four lane blocks that decoded, oldest first, and its receiver. -/
structure FabLane where
  tags : List (BitVec 20)
  fom : Slicer
  deriving DecidableEq, Repr

/-- What the steering of a port's partner meets at one coefficient (R376): the figures of merit of the port's lanes before, whether the partner's
reply to "increment" was neither "maximum" nor "minimum" and the figures after it, and the same for "decrement". -/
structure SteerStep where
  base : List Slicer
  incOk : Bool
  inc : List Slicer
  decOk : Bool
  dec : List Slicer
  deriving DecidableEq, Repr

/-- A lookaside job as the device fetches it (Table 19.6): its record, the bytes at SRC, and the outcome of the DMA:
0 done, another value a host error. -/
structure LaFetch where
  record : List Byte
  src : List Byte
  dma : BitVec 16
  deriving DecidableEq, Repr

/-- A message on the HV die's control link (R210): the acknowledgement of channel n's oldest command, the die's own
measurements (HVIN and boost in mV, junction in 0.001 °C), or a channel's (bias in mV, APD and monitor currents in nA). -/
inductive HvMsg where
  | ack (n : Fin 4)
  | die (vin boost temp : BitVec 32)
  | channel (n : Fin 4) (volts current mon : BitVec 32)
  deriving DecidableEq, Repr

/-- What a request's execution meets outside the device's own state, where it depends on it: whether the HV die acknowledges a command at its
first sending (R210), whether the cause of a rogue latch persists (R219), the transactions lost in the crossings of an instance (R96), the
jobs the lookaside engine fetches (R544), and the OTP bits that fail to program (R580). -/
structure Outcomes where
  acked : Bool
  persists : Bool
  lost : BitVec 32
  jobs : List LaFetch
  otpFails : List (BitVec 15)
  deriving DecidableEq, Repr

/-- What a channel's analog parts measured over a frame: receive RMS level in 0.1 dB above full scale (two's complement), clipped
samples (R204), burst interior in ns and average monitor current in nA (R221). -/
structure FrameMeas where
  level : BitVec 16
  clips : BitVec 32
  interior : BitVec 32
  mon : BitVec 32
  deriving DecidableEq, Repr

/-- A downstream frame as it reaches the DMT receiver (R226, R234): its 7,987,200 samples from the frame boundary, after the timing interpolator, where
a missing one counts as zero, and the period since the last training pair in 2⁻¹⁶ samples of the receiver's clock, when that was measured. -/
structure DmtFrame where
  x : List Int
  period : Option (BitVec 48)
  deriving DecidableEq, Repr

/-- What the framer sees beside the frame that the receiver passes it (R286, R290): whether the header came at the expected place and exact spacing,
and the number in the header of the group's lowest-numbered member in the same frame. -/
structure FrmFrame where
  atPlace : Bool
  lead : BitVec 51
  deriving DecidableEq, Repr

/-- Where a table command comes from (R138): an execute of a table's TABLEREF object, or a table command ring. -/
inductive TblSrc where
  | exec (o : Origin) (table : Fin 18) (c : List Byte)
  | ring (r : Fin 4096)
  deriving DecidableEq, Repr

/-- A packet as it arrives at an ingress point (R25, R415): its port, the traffic class that a bundle or a descriptor gives, its checksum
flags (R386), the stream and the configuration and table epochs of a fibre packet (R45), the circuit of a pseudowire packet, its start node (0
Ethernet, 1 IP, 2 pseudowire), its fabric class, and its bytes without FCS. -/
structure Arrival where
  port : Fin 118
  tc : Fin 8
  ipBad : Bool
  l4Bad : Bool
  stream : Option (BitVec 20)
  cfgEpoch : BitVec 32
  tblEpoch : BitVec 32
  circuit : Fin 2080
  start : Fin 3
  cls : Fin 16
  data : List Byte
  deriving DecidableEq, Repr

/-- An access to BAR0 (R179) or BAR4 (R194) of a function: a read of `size` bytes or a write of bytes. -/
inductive BarAcc where
  | read0 (off : BitVec 21) (size : Fin 17)
  | write0 (off : BitVec 21) (data : List Byte)
  | read4 (off : BitVec 16) (size : Fin 17)
  | write4 (off : BitVec 16) (data : List Byte)
  deriving DecidableEq, Repr

/-- A configuration request to a function (R174, R175): a read of a dword, a write of one, or the write that sets the Enable and Function Mask
bits of the MSI-X capability. -/
inductive CfgReq where
  | read (offset : BitVec 12)
  | write (offset : BitVec 12) (v : BitVec 32)
  | msix (enable mask : Bool)
  deriving DecidableEq, Repr

/-- The transaction that the far side of a crossing has not completed (R99, Table 3.9): a Umani request, a read or a write of a function's BAR, the
DMA of a ring, or the cells of a packet. -/
inductive XTimeout where
  | umani (o : Origin) (index : BitVec 16) (sub : BitVec 8) (op : BitVec 4)
  | barRead (link : Fin 4) (fn : Fin 64)
  | barWrite (link : Fin 4) (fn : Fin 64)
  | dma (r : Fin 4096)
  | cell (id : Nat)
  deriving DecidableEq, Repr

/-- The commands: one constructor for each row of spec/opcode_table.json. -/
inductive Instr where
  /-- POWER_ON_RESET (R91) -/
  | powerOnReset
  /-- PORST_RELEASE (R64) -/
  | porstRelease (hrefRunning : Bool) (pairs : List (BitVec 8 × BitVec 8))
  /-- STRAP_UNSTABLE (R64) -/
  | strapUnstable
  /-- SECURITY_ROM_START (R585) -/
  | securityRomStart (selfTest : Bool) (env : Outcomes)
  /-- SUPPLY_FAILURE (R72) -/
  | supplyFailure
  /-- SUPPLY_FAILURE_RELEASE (R72) -/
  | supplyFailureRelease
  /-- HREF_LOSS (R86) -/
  | hrefLoss
  /-- HREF_LOSS_RESET (R88) -/
  | hrefLossReset
  /-- RECOVERED_REF_LOSS (R86) -/
  | recoveredRefLoss (n : Fin 4)
  /-- PLL_LOCKED (R81) -/
  | pllLocked (n : Fin 5)
  /-- HREF_OFFSET_ALARM (R77) -/
  | hrefOffsetAlarm (offset : BitVec 32)
  /-- CLK_TIMING_CHANNEL_WRITE (R79) -/
  | clkTimingChannelWrite (o : Origin) (v : BitVec 8)
  /-- RST_CAUSE_STICKY_READ (R90) -/
  | rstCauseStickyRead (o : Origin)
  /-- RST_CAUSE_STICKY_WRITE (R90) -/
  | rstCauseStickyWrite (o : Origin) (v : BitVec 32)
  /-- RST_DEVICE (R93) -/
  | rstDevice (o : Origin)
  /-- DEVICE_COMMAND_RESET (R93) -/
  | deviceCommandReset
  /-- RST_INSTANCE (R94) -/
  | rstInstance (o : Origin) (arg : BitVec 16) (lost : BitVec 32)
  /-- INSTANCE_RESET_RELEASE (R95) -/
  | instanceResetRelease (kind : BitVec 8) (num : BitVec 8)
  /-- CORE_WATCHDOG_EXPIRY (R91) -/
  | coreWatchdogExpiry (lost : BitVec 32)
  /-- SEC_WATCHDOG_EXPIRY (R583) -/
  | secWatchdogExpiry
  /-- LIFECYCLE_VIOLATION (R583) -/
  | lifecycleViolation
  /-- TAP_RESET (R91) -/
  | tapReset (tck : Fin 50001)
  /-- CROSSING_OPEN (R98) -/
  | crossingOpen (kind : BitVec 8) (num : BitVec 8)
  /-- CROSSING_TIMEOUT (R99) -/
  | crossingTimeout (x : XTimeout)
  /-- XING_RESAMPLE_FAILURE (R101) -/
  | xingResampleFailure (x : BitVec 8) (pairs : List (BitVec 32 × BitVec 32))
  /-- GATE_DRAIN_COMPLETE (R102) -/
  | gateDrainComplete (domain : Fin 60)
  /-- GATE_DRAIN_TIMEOUT (R103) -/
  | gateDrainTimeout (domain : Fin 60)
  /-- GATE_HELD_ACCESS (R105) -/
  | gateHeldAccess (domain : Fin 60)
  /-- PWR_STATE_REQUEST (R113) -/
  | pwrStateRequest (o : Origin) (arg : BitVec 8)
  /-- DOZE_TIMEOUT (R115) -/
  | dozeTimeout
  /-- WAKE_N_ASSERT (R119) -/
  | wakeNAssert
  /-- RINGMASTER_PREWAKE (R120) -/
  | ringmasterPrewake
  /-- RAILS_RESTORED (R108) -/
  | railsRestored (fits selfTest : Bool) (env : Outcomes)
  /-- TR_OP_TARGET_WRITE (R128) -/
  | trOpTargetWrite (o : Origin) (v : BitVec 8)
  /-- REGULATOR_SETTLED (R128) -/
  | regulatorSettled (milliVolts : BitVec 16)
  /-- TR_SETTLE_TIMEOUT (R129) -/
  | trSettleTimeout (milliVolts : BitVec 16) (regulatorSettled : Bool)
  /-- THERMAL_LIMIT_EXCEEDED (R127) -/
  | thermalLimitExceeded
  /-- THERMAL_FLOOR_RAISE (R127) -/
  | thermalFloorRaise
  /-- THERMAL_FLOOR_LOWER (R127) -/
  | thermalFloorLower
  /-- UMANI_READ (R142) -/
  | umaniRead (m : UMsg)
  /-- UMANI_WRITE (R142) -/
  | umaniWrite (m : UMsg) (env : Outcomes)
  /-- UMANI_EXECUTE (R142) -/
  | umaniExecute (m : UMsg) (env : Outcomes)
  /-- UMANI_BLOCK_READ (R149) -/
  | umaniBlockRead (m : UMsg)
  /-- UMANI_BLOCK_WRITE (R147) -/
  | umaniBlockWrite (m : UMsg)
  /-- UMANI_RESERVED_OPERATION (R152) -/
  | umaniReservedOperation (m : UMsg)
  /-- BLOCK_WRITE_ABANDON (R148) -/
  | blockWriteAbandon (index : BitVec 16) (sub : BitVec 8)
  /-- BLOCK_READ_COPY_RELEASE (R149) -/
  | blockReadCopyRelease (index : BitVec 16) (sub : BitVec 8) (code : BitVec 16)
  /-- I2C_RESPONSE_READ (R150) -/
  | i2cResponseRead
  /-- DICT_GROUP_CLAIM (R157) -/
  | dictGroupClaim (o : Origin) (group : BitVec 8)
  /-- DICT_GROUP_RELEASE (R157) -/
  | dictGroupRelease (o : Origin) (group : BitVec 8)
  /-- DICT_OBJECT_WRITE (R139) -/
  | dictObjectWrite (o : Origin) (index : BitVec 16) (sub : BitVec 8) (v : Val) (acked : Bool)
  /-- CFG_STAGE_COMMIT (R164) -/
  | cfgStageCommit (o : Origin) (slot : BitVec 8)
  /-- CFG_APPLY (R167) -/
  | cfgApply (o : Origin) (arg : List Byte)
  /-- OVERLAY_APPLY (R168) -/
  | overlayApply (acked : Bool)
  /-- MBX_SUBMIT (R180) -/
  | mbxSubmit (link : Fin 4) (fn : Fin 64) (slot : Fin 16) (data : List Byte) (env : Outcomes)
  /-- MBX_DONE_CLEAR (R180) -/
  | mbxDoneClear (link : Fin 4) (fn : Fin 64) (mask : BitVec 32)
  /-- LEASE_RENEW (R197) -/
  | leaseRenew (link : Fin 4) (fn : Fin 64) (epoch : BitVec 32)
  /-- HOST_INDEX_WRITE (R184) -/
  | hostIndexWrite (link : Fin 4) (fn : Fin 64) (r : Fin 4096) (ix : BitVec 32) (descs : List Desc)
  /-- DMAP_SLOT_READ (R182) -/
  | dmapSlotRead (link : Fin 4) (fn : Fin 64) (slot : Fin 1024)
  /-- BAR_RESERVED_ACCESS (R179) -/
  | barReservedAccess (link : Fin 4) (fn : Fin 64) (acc : BarAcc)
  /-- BAR2_ACCESS (R177) -/
  | bar2Access (write : Bool) (addr : BitVec 28)
  /-- PCIE_CONFIG_REQUEST (R174) -/
  | pcieConfigRequest (link : Fin 4) (fn : Fin 64) (ready : Bool) (req : CfgReq)
  /-- PCIE_LINK_UP (R195) -/
  | pcieLinkUp (link : Fin 4) (speed : Fin 5) (width : Fin 17)
  /-- PCIE_LINK_DOWN (R647) -/
  | pcieLinkDown (link : Fin 4) (lost : BitVec 32)
  /-- PERST_LOW (R647) -/
  | perstLow (link : Fin 4) (lost : BitVec 32)
  /-- PERST_RISE (R119) -/
  | perstRise (link : Fin 4)
  /-- PCIE_HOT_RESET (R647) -/
  | pcieHotReset (link : Fin 4) (lost : BitVec 32)
  /-- FUNCTION_LEVEL_RESET (R199) -/
  | functionLevelReset (link : Fin 4) (fn : Fin 64) (lost : BitVec 32)
  /-- FUNCTION_D3_TO_D0 (R178) -/
  | functionD3ToD0 (link : Fin 4) (fn : Fin 64) (lost : BitVec 32)
  /-- VF_ENABLE_SET (R193) -/
  | vfEnableSet (link : Fin 4) (numVfs : Fin 64)
  /-- VF_ENABLE_CLEAR (R199) -/
  | vfEnableClear (link : Fin 4)
  /-- MSIX_VECTOR_UNMASK (R194) -/
  | msixVectorUnmask (link : Fin 4) (fn : Fin 64) (vector : Fin 2048)
  /-- HIF_RING_SETUP (R190) -/
  | hifRingSetup (o : Origin) (link : Fin 4) (arg : List Byte)
  /-- HIF_RING_TEARDOWN (R190) -/
  | hifRingTeardown (o : Origin) (link : Fin 4) (ring : BitVec 16)
  /-- HIF_RING_QUERY (R202) -/
  | hifRingQuery (o : Origin) (link : Fin 4) (ring : BitVec 16)
  /-- HIF_DMAP_SET (R182) -/
  | hifDmapSet (o : Origin) (link : Fin 4) (arg : BitVec 64)
  /-- HOST_TX_DESCRIPTOR (R187) -/
  | hostTxDescriptor (r : Fin 4096)
  /-- RING_ITR_EXPIRY (R191) -/
  | ringItrExpiry (r : Fin 4096)
  /-- LEASE_EXPIRY (R198) -/
  | leaseExpiry (link : Fin 4) (fn : Fin 64)
  /-- LEASE_QUARTER_WARNING (R195) -/
  | leaseQuarterWarning (link : Fin 4) (fn : Fin 64)
  /-- FE_ENABLE_WRITE (R214) -/
  | feEnableWrite (o : Origin) (n : Fin 4) (v : BitVec 8) (acked : Bool)
  /-- FE_APD_TARGET_WRITE (R214) -/
  | feApdTargetWrite (o : Origin) (n : Fin 4) (v : BitVec 32) (acked : Bool)
  /-- APD_BIAS_AT_TARGET (R214) -/
  | apdBiasAtTarget (n : Fin 4)
  /-- APD_CURRENT_LIMIT (R215) -/
  | apdCurrentLimit (n : Fin 4)
  /-- FE_TX_COEFF_WRITE (R207) -/
  | feTxCoeffWrite (o : Origin) (n : Fin 4) (b : List Byte)
  /-- HV_CONTROL_MESSAGE (R210) -/
  | hvControlMessage (crcOk : Bool) (m : HvMsg)
  /-- HV_COMMAND_RESEND (R210) -/
  | hvCommandResend (n : Fin 4) (acked : Bool)
  /-- HV_HEARTBEAT (R212) -/
  | hvHeartbeat (steady : Bool)
  /-- HV_WATCHDOG_EXPIRY (R212) -/
  | hvWatchdogExpiry
  /-- HV_REARM (R212) -/
  | hvRearm (o : Origin) (acked : Bool)
  /-- HVIN_UNDERVOLTAGE (R213) -/
  | hvinUndervoltage
  /-- HVIN_RECOVERY (R213) -/
  | hvinRecovery
  /-- BOOST_IN_REGULATION (R211) -/
  | boostInRegulation
  /-- BOOST_OUT_OF_RANGE (R211) -/
  | boostOutOfRange
  /-- HV_OVERTEMP (R211) -/
  | hvOvertemp
  /-- ROGUE_MONITOR_LATCH (R222) -/
  | rogueMonitorLatch (n : Fin 4)
  /-- ROGUE_ON_LIMIT_LATCH (R222) -/
  | rogueOnLimitLatch (n : Fin 4)
  /-- FE_LASER_RELEASE (R222) -/
  | feLaserRelease (o : Origin) (n : Fin 4) (persists : Bool) (acked : Bool)
  /-- SUB_TICK (R646) -/
  | subTick
  /-- FRAME_MARK (R44) -/
  | frameMark (n : Fin 4) (off : Fin 1000) (m : FrameMeas)
  /-- DMT_FRAME_DECODE (R245) -/
  | dmtFrameDecode (n : Fin 4) (f : DmtFrame)
  /-- TRAINING_PAIR_FOUND (R232) -/
  | trainingPairFound (n : Fin 4) (x : List Int)
  /-- DMT_LOCK_ACQUIRED (R232) -/
  | dmtLockAcquired (n : Fin 4)
  /-- DMT_TRAINING_LOSS (R233) -/
  | dmtTrainingLoss (n : Fin 4)
  /-- DMT_PROFILE_WRITE (R243) -/
  | dmtProfileWrite (o : Origin) (n : Fin 4) (p : Fin 8) (b : List Byte)
  /-- DMT_PROFILE_ENABLE_WRITE (R244) -/
  | dmtProfileEnableWrite (o : Origin) (n : Fin 4) (v : BitVec 8)
  /-- DMT_PROFILE_SWITCH (R246) -/
  | dmtProfileSwitch (o : Origin) (n : Fin 4) (arg : BitVec 64)
  /-- PROFILE_SWITCH_FIRE (R246) -/
  | profileSwitchFire (n : Fin 4)
  /-- SNR_PERIOD_END (R239) -/
  | snrPeriodEnd (n : Fin 4)
  /-- MGT_PREAMBLE_DETECT (R268) -/
  | mgtPreambleDetect (n : Fin 4) (p : Fin 3) (seen : List (BitVec 16 × BitVec 16)) (strength : BitVec 16)
  /-- MGT_DELIMITER_FOUND (R270) -/
  | mgtDelimiterFound (n : Fin 4) (p : Fin 3) (start : BitVec 8) (bits : BitVec 16) (refined : BitVec 16)
  /-- MGT_FALSE_START (R270) -/
  | mgtFalseStart (n : Fin 4) (p : Fin 3)
  /-- MGT_HEADER_RECEIVED (R272) -/
  | mgtHeaderReceived (n : Fin 4) (p : Fin 3) (standby : Bool) (bits : BitVec 48)
  /-- MGT_PACKET_RECEIVED (R277) -/
  | mgtPacketReceived (n : Fin 4) (p : Fin 3) (body : List Byte)
  /-- MGT_TX_START (R280) -/
  | mgtTxStart (n : Fin 4)
  /-- MGT_TX_COMPLETE (R280) -/
  | mgtTxComplete (n : Fin 4)
  /-- FRAMER_FRAME (R289) -/
  | framerFrame (n : Fin 4) (f : FrmFrame)
  /-- FRAME_SYNC_ENTRY (R291) -/
  | frameSyncEntry (n : Fin 4)
  /-- FRAME_SYNC_LOSS (R290) -/
  | frameSyncLoss (n : Fin 4)
  /-- LOF_DECLARE (R308) -/
  | lofDeclare (n : Fin 4)
  /-- LOS_DECLARE (R308) -/
  | losDeclare (n : Fin 4)
  /-- LOS_CLEAR (R308) -/
  | losClear (n : Fin 4)
  /-- AIS_DECLARE (R308) -/
  | aisDeclare (n : Fin 4)
  /-- AIS_CLEAR (R308) -/
  | aisClear (n : Fin 4)
  /-- FEC_DEG_WINDOW_END (R308) -/
  | fecDegWindowEnd (n : Fin 4)
  /-- ENCAP_FRAME (R298) -/
  | encapFrame (n : Fin 4) (fault : Bool)
  /-- CHAIN_TIMEOUT (R301) -/
  | chainTimeout (n : Fin 4)
  /-- PM_SECOND_COMMIT (R312) -/
  | pmSecondCommit (n : Fin 4)
  /-- TIMING_MESSAGE (R558) -/
  | timingMessage (n : Fin 4) (carried : BitVec 51) (b : List Byte)
  /-- CIRCUIT_CONTAINER (R318) -/
  | circuitContainer (n : Fin 4) (stream : BitVec 20) (errored : Bool) (data : List Byte)
  /-- PW_PACKET_FORM (R321) -/
  | pwPacketForm (c : Fin 2080)
  /-- PW_PACKET_RECEIVED (R322) -/
  | pwPacketReceived (c : Fin 2080) (data : List Byte)
  /-- PW_LOSS_TIMEOUT (R323) -/
  | pwLossTimeout (c : Fin 2080)
  /-- CIRC_CONFIG_WRITE (R328) -/
  | circConfigWrite (o : Origin) (c : Fin 2080) (b : List Byte)
  /-- WINDOW (R344) -/
  | window (n : Fin 4) (m : Lemow)
  /-- ASSIGN (R343) -/
  | assign (n : Fin 4) (m : Lemow)
  /-- OFFER (R350) -/
  | offer (n : Fin 4) (m : Lemow)
  /-- CONFIRM (R351) -/
  | confirm (n : Fin 4) (m : Lemow)
  /-- EQD (R335) -/
  | eqd (n : Fin 4) (m : Lemow)
  /-- ALLOC (R352) -/
  | alloc (n : Fin 4) (m : Lemow)
  /-- ACTIVATE (R343) -/
  | activate (n : Fin 4) (m : Lemow)
  /-- REFUSE (R346) -/
  | refuse (n : Fin 4) (m : Lemow)
  /-- DEACTIVATE (R343) -/
  | deactivate (n : Fin 4) (m : Lemow)
  /-- DISABLE (R343) -/
  | disable (n : Fin 4) (m : Lemow)
  /-- ENABLE (R343) -/
  | enable (n : Fin 4) (m : Lemow)
  /-- RDI (R338) -/
  | rdi (n : Fin 4) (m : Lemow)
  /-- DOZE_REPLY (R362) -/
  | dozeReply (n : Fin 4) (m : Lemow)
  /-- WAKE (R338) -/
  | wake (n : Fin 4) (m : Lemow)
  /-- QUALITY_REQUEST (R339) -/
  | qualityRequest (n : Fin 4) (m : Lemow)
  /-- ANNOUNCE (R345) -/
  | announce (n : Fin 4) (offset : BitVec 32) (backoff : BitVec 4)
  /-- RANGING_BURST (R631) -/
  | rangingBurst (n : Fin 4)
  /-- ANNOUNCE_TIMEOUT (R343) -/
  | announceTimeout (n : Fin 4)
  /-- RANGE_TIMEOUT (R343) -/
  | rangeTimeout (n : Fin 4)
  /-- HOLD_TIMEOUT (R343) -/
  | holdTimeout (n : Fin 4)
  /-- REFUSE_HOLDOFF_END (R346) -/
  | refuseHoldoffEnd (n : Fin 4)
  /-- ACT_RESTART (R343) -/
  | actRestart (o : Origin) (n : Fin 4)
  /-- ACT_EQD_WRITE (R335) -/
  | actEqdWrite (o : Origin) (n : Fin 4) (v : BitVec 32)
  /-- MODE_APPLY (R351) -/
  | modeApply (n : Fin 4)
  /-- GRANT_ENTRY (R354) -/
  | grantEntry (n : Fin 4) (frame : BitVec 51) (entry : BitVec 64)
  /-- BURST_START (R355) -/
  | burstStart (n : Fin 4) (fault : Bool) (read : Fin 3)
  /-- DOZE_START (R362) -/
  | dozeStart (n : Fin 4)
  /-- PORT_MODE_WRITE (R368) -/
  | portModeWrite (o : Origin) (p : Fin 96) (v : BitVec 8)
  /-- PORT_ENABLE_WRITE (R369) -/
  | portEnableWrite (o : Origin) (p : Fin 96) (v : BitVec 8)
  /-- PORT_RESTART (R394) -/
  | portRestart (o : Origin) (p : Fin 96)
  /-- AUTONEG_COMPLETE (R371) -/
  | autonegComplete (p : Fin 96) (modes : BitVec 16) (rs base eee : Bool)
  /-- LINK_TRAINING_COMPLETE (R374) -/
  | linkTrainingComplete (p : Fin 96) (lanes : List TrainLane) (steps : List SteerStep)
  /-- LINK_TRAINING_TIMEOUT (R374) -/
  | linkTrainingTimeout (p : Fin 96) (responded : Bool) (asks : List (List (Fin 4 × Bool))) (steps : List SteerStep)
  /-- PORT_LOCAL_FAULT (R370) -/
  | portLocalFault (p : Fin 96)
  /-- LOCAL_FAULT_TIMEOUT (R370) -/
  | localFaultTimeout (p : Fin 96)
  /-- PORT_REMOTE_FAULT (R370) -/
  | portRemoteFault (p : Fin 96)
  /-- PORT_FAULT_CLEAR (R370) -/
  | portFaultClear (p : Fin 96)
  /-- FOM_MARGIN_LOW (R377) -/
  | fomMarginLow (p : Fin 108) (lane : Fin 8) (fom : Slicer)
  /-- FOM_RETRAIN (R377) -/
  | fomRetrain (p : Fin 96) (fom : Slicer)
  /-- EEE_TX_ENTER (R380) -/
  | eeeTxEnter (p : Fin 96)
  /-- EEE_TX_WAKE (R380) -/
  | eeeTxWake (p : Fin 96)
  /-- EEE_RX_LPI (R379) -/
  | eeeRxLpi (p : Fin 96) (enter : Bool)
  /-- LLDP_TX (R381) -/
  | lldpTx (p : Fin 96)
  /-- ETH_RX_FRAME (R384) -/
  | ethRxFrame (p : Fin 96) (f : EthRx) (fault : Bool)
  /-- ETH_TX_FRAME (R383) -/
  | ethTxFrame (p : Fin 96) (off : Fin 1000) (lat : BitVec 16) (fault : Bool)
  /-- QUAD_PLL_UNLOCK (R396) -/
  | quadPllUnlock (g : Fin 12) (quad : Fin 2)
  /-- PORT_MAC_COUNTERS_READ (R393) -/
  | portMacCountersRead (o : Origin) (p : Fin 96)
  /-- FAB_ENABLE_WRITE (R408) -/
  | fabEnableWrite (o : Origin) (g : Fin 12) (v : BitVec 8)
  /-- FAB_RESTART (R408) -/
  | fabRestart (o : Origin) (g : Fin 12)
  /-- FAB_ALIGNED (R408) -/
  | fabAligned (g : Fin 12) (lanes : List FabLane)
  /-- FAB_ALIGN_TIMEOUT (R408) -/
  | fabAlignTimeout (g : Fin 12)
  /-- FAB_HELLO_TIMEOUT (R408) -/
  | fabHelloTimeout (g : Fin 12)
  /-- FAB_HELLO_TX (R409) -/
  | fabHelloTx (g : Fin 12)
  /-- FAB_HELLO_RX (R410) -/
  | fabHelloRx (g : Fin 12) (m : List Byte)
  /-- FAB_CONFIRM_RX (R410) -/
  | fabConfirmRx (g : Fin 12) (m : List Byte)
  /-- FAB_CREDIT_SYNC_TX (R406) -/
  | fabCreditSyncTx (g : Fin 12)
  /-- FAB_CREDIT_SYNC_RX (R406) -/
  | fabCreditSyncRx (g : Fin 12) (m : List Byte)
  /-- FAB_CELL_RX (R402) -/
  | fabCellRx (g : Fin 12) (b : List Byte)
  /-- FAB_LANE_LOSS (R411) -/
  | fabLaneLoss (g : Fin 12) (lane : Fin 8) (blocks : Bool)
  /-- FAB_CLOCK_LOSS (R411) -/
  | fabClockLoss (g : Fin 12)
  /-- FAB_REBUILD_TIMEOUT (R408) -/
  | fabRebuildTimeout (g : Fin 12)
  /-- PACKET_INGRESS (R25) -/
  | packetIngress (a : Arrival)
  /-- CAROUSEL_DISPATCH (R416) -/
  | carouselDispatch
  /-- PACKET_FORWARD (R436) -/
  | packetForward (id : Nat) (srcBad dstBad : Bool)
  /-- REORDER_TIMEOUT (R420) -/
  | reorderTimeout (dom : Fin 1024)
  /-- LEARN_INSERT (R458) -/
  | learnInsert
  /-- TABLE_SEARCH (R465) -/
  | tableSearch (src : TblSrc)
  /-- TABLE_NEXT (R465) -/
  | tableNext (src : TblSrc)
  /-- TABLE_INSERT (R455) -/
  | tableInsert (src : TblSrc)
  /-- TABLE_DELETE (R465) -/
  | tableDelete (src : TblSrc)
  /-- TABLE_FLUSH (R465) -/
  | tableFlush (src : TblSrc)
  /-- FLUSH_COMPLETE (R465) -/
  | flushComplete
  /-- TABLE_LOCK (R467) -/
  | tableLock (src : TblSrc)
  /-- TABLE_UNLOCK (R467) -/
  | tableUnlock (src : TblSrc)
  /-- AGE_TICK (R460) -/
  | ageTick
  /-- SCRUB_PASS (R448) -/
  | scrubPass (table : Fin 32) (place : BitVec 32)
  /-- FWD_CARVING_WRITE (R447) -/
  | fwdCarvingWrite (o : Origin) (v : BitVec 8)
  /-- CARVING_COMPLETE (R447) -/
  | carvingComplete
  /-- FWD_EPOCH_SWITCH (R469) -/
  | fwdEpochSwitch (o : Origin) (arg : List Byte)
  /-- TABLE_EPOCH_SWITCH_FIRE (R469) -/
  | tableEpochSwitchFire
  /-- EPOCH_DRAINED (R470) -/
  | epochDrained
  /-- SCHEDULER_DEQUEUE (R481) -/
  | schedulerDequeue (p : Fin 116) (read : Fin 3)
  /-- TM_QUEUE_CFG_WRITE (R475) -/
  | tmQueueCfgWrite (o : Origin) (q : Fin 131072) (b : List Byte)
  /-- TM_SUB_CFG_WRITE (R475) -/
  | tmSubCfgWrite (o : Origin) (n : Fin 32768) (b : List Byte)
  /-- TM_SVC_CFG_WRITE (R477) -/
  | tmSvcCfgWrite (o : Origin) (n : Fin 4096) (b : List Byte)
  /-- TM_PORT_CFG_WRITE (R478) -/
  | tmPortCfgWrite (o : Origin) (p : Fin 128) (b : List Byte)
  /-- TM_GATE_ADMIN_WRITE (R486) -/
  | tmGateAdminWrite (o : Origin) (p : Fin 108) (b : List Byte)
  /-- TM_GATE_SWITCH (R488) -/
  | tmGateSwitch (o : Origin) (arg : List Byte)
  /-- GATE_LIST_SWITCH_FIRE (R488) -/
  | gateListSwitchFire (p : Fin 108) (sending : Option (Fin 8))
  /-- GATE_INTERVAL_END (R487) -/
  | gateIntervalEnd (p : Fin 108)
  /-- TM_QUEUE_FLUSH (R498) -/
  | tmQueueFlush (o : Origin) (arg : BitVec 32)
  /-- TM_SNAP_REQUEST (R501) -/
  | tmSnapRequest (o : Origin) (arg : List Byte)
  /-- TM_SNAP_RELEASE (R502) -/
  | tmSnapRelease (o : Origin) (slot : BitVec 8)
  /-- SNAPSHOT_CAPTURE (R502) -/
  | snapshotCapture (slot : Fin 4)
  /-- SNAPSHOT_CAPTURE_COMPLETE (R502) -/
  | snapshotCaptureComplete (slot : Fin 4)
  /-- SNAPSHOT_RING_DELIVER (R502) -/
  | snapshotRingDeliver (slot : Fin 4)
  /-- DRAM_HEAD_REFILL (R497) -/
  | dramHeadRefill (q : Fin 131072)
  /-- DRAM_CFG_WRITE (R506) -/
  | dramCfgWrite (o : Origin) (c : Fin 8) (v : BitVec 8)
  /-- DRAM_SPEED_WRITE (R507) -/
  | dramSpeedWrite (o : Origin) (v : BitVec 16)
  /-- DRAM_ENABLE_WRITE (R510) -/
  | dramEnableWrite (o : Origin) (c : Fin 8) (v : BitVec 8)
  /-- DRAM_TRAINING_COMPLETE (R510) -/
  | dramTrainingComplete (c : Fin 8)
  /-- DRAM_TRAINING_FAIL (R511) -/
  | dramTrainingFail (c : Fin 8) (step : Fin 16) (lanesA lanesB : Fin 32)
  /-- DRAM_RETRAIN (R512) -/
  | dramRetrain (c : Fin 8)
  /-- DRAM_MR4_POLL (R518) -/
  | dramMr4Poll (c : Fin 8) (doubled above : Bool)
  /-- DRAM_REFRESH (R517) -/
  | dramRefresh (c : Fin 8) (sub : Fin 2) (bank : Fin 64) (postpone : Bool)
  /-- DRAM_ALERT (R520) -/
  | dramAlert (c : Fin 8) (sub : Fin 2)
  /-- DRAM_READ_COMPLETE (R519) -/
  | dramReadComplete (c : Fin 8) (sub : Fin 2) (outcome : Fin 3)
  /-- DRAM_DRAIN_COMPLETE (R523) -/
  | dramDrainComplete (c : Fin 8)
  /-- DRAM_REPAIR_COMPLETE (R625) -/
  | dramRepairComplete (c : Fin 8)
  /-- CIPH_FCH_KEY_LOAD (R532) -/
  | ciphFchKeyLoad (o : Origin) (n : Fin 4) (b : List Byte)
  /-- CIPH_FCH_US_KEY_SWITCH (R537) -/
  | ciphFchUsKeySwitch (o : Origin) (n : Fin 4) (arg : BitVec 64)
  /-- US_KEY_SWITCH_FIRE (R537) -/
  | usKeySwitchFire (n : Fin 4)
  /-- CIPH_FCH_KEY_LIMIT_WRITE (R533) -/
  | ciphFchKeyLimitWrite (o : Origin) (n : Fin 4) (v : BitVec 64)
  /-- CIPH_MS_SA_LOAD (R541) -/
  | ciphMsSaLoad (o : Origin) (b : List Byte)
  /-- CIPH_MS_CONTEXT_WRITE (R540) -/
  | ciphMsContextWrite (o : Origin) (c : Fin 4096) (b : List Byte)
  /-- CIPH_LA_OPEN (R543) -/
  | ciphLaOpen (o : Origin) (b : List Byte)
  /-- CIPH_LA_SUBMIT (R544) -/
  | ciphLaSubmit (o : Origin) (b : List Byte) (jobs : List LaFetch)
  /-- LA_JOB_COMPLETE (R545) -/
  | laJobComplete (fault : Bool)
  /-- CIPH_LA_CLOSE (R549) -/
  | ciphLaClose (o : Origin) (n : BitVec 16)
  /-- TIME_SET (R557) -/
  | timeSet (o : Origin) (b : List Byte)
  /-- TIME_ADJUST (R557) -/
  | timeAdjust (o : Origin) (ps : BitVec 64)
  /-- TIME_SOURCE_WRITE (R556) -/
  | timeSourceWrite (o : Origin) (v : BitVec 8)
  /-- SLEW_COMPLETE (R557) -/
  | slewComplete
  /-- SOURCE_VALID_TIMEOUT (R557) -/
  | sourceValidTimeout
  /-- TIME_TS_READ (R565) -/
  | timeTsRead (o : Origin) (k : BitVec 8)
  /-- TPI_CAPTURE_EDGE (R568) -/
  | tpiCaptureEdge (input : Fin 4) (rising : Bool) (off : Fin 1000)
  /-- TIME_TPO_CFG_WRITE (R566) -/
  | timeTpoCfgWrite (o : Origin) (out : Fin 16) (b : List Byte)
  /-- TIME_TPO_START (R567) -/
  | timeTpoStart (o : Origin) (b : List Byte)
  /-- TIME_TPO_STOP (R567) -/
  | timeTpoStop (o : Origin) (b : List Byte)
  /-- PULSE_TRAIN_START_FIRE (R567) -/
  | pulseTrainStartFire (out : Fin 16) (off : Fin 1000)
  /-- PULSE_TRAIN_STOP_FIRE (R567) -/
  | pulseTrainStopFire (out : Fin 16) (off : Fin 1000)
  /-- PULSE_EDGE (R567) -/
  | pulseEdge (out : Fin 16) (off : Fin 1000)
  /-- TIME_SYNCO_WRITE (R569) -/
  | timeSyncoWrite (o : Origin) (x : Fin 3) (v : BitVec 32)
  /-- RM_CANCEL (R572) -/
  | rmCancel (o : Origin) (slot : BitVec 8)
  /-- ACTION_COMMIT (R572) -/
  | actionCommit (slot : Fin 256)
  /-- BL_GO_WRITE (R588) -/
  | blGoWrite (addr : BitVec 64) (len : BitVec 32) (v : BitVec 32)
  /-- BOOT_LOAD_COMPLETE (R588) -/
  | bootLoadComplete (image : List Byte) (fetched : Bool) (env : Outcomes)
  /-- SEC_LIFECYCLE_ADVANCE (R582) -/
  | secLifecycleAdvance (o : Origin) (target : BitVec 8) (fails : List (BitVec 15))
  /-- SEC_ROLLBACK_COMMIT (R592) -/
  | secRollbackCommit (o : Origin) (v : BitVec 8) (fails : List (BitVec 15))
  /-- SEC_FLASH_PROGRAM (R593) -/
  | secFlashProgram (o : Origin) (arg : List Byte)
  /-- FLASH_PROGRAM_COMPLETE (R593) -/
  | flashProgramComplete (image : List Byte) (fetched : Bool)
  /-- SEC_KEK_AGREE (R597) -/
  | secKekAgree (o : Origin) (arg : List Byte)
  /-- SEC_KEK_CLEAR (R597) -/
  | secKekClear (o : Origin) (slot : BitVec 8)
  /-- SEC_ATTEST (R598) -/
  | secAttest (o : Origin) (nonce : List Byte) (fails : List (BitVec 15))
  /-- SEC_CHALLENGE_READ (R601) -/
  | secChallengeRead (o : Origin)
  /-- SEC_OWNER_ENROL (R604) -/
  | secOwnerEnrol (o : Origin) (fails : List (BitVec 15))
  /-- SEC_OWNER_LOCK (R605) -/
  | secOwnerLock (o : Origin) (fails : List (BitVec 15))
  /-- SEC_AUTH_ISSUE (R606) -/
  | secAuthIssue (o : Origin)
  /-- SEC_DEBUG_UNLOCK (R607) -/
  | secDebugUnlock (o : Origin)
  /-- SEC_DEBUG_END (R607) -/
  | secDebugEnd (o : Origin)
  /-- TRNG_HEALTH_FAIL (R608) -/
  | trngHealthFail
  /-- EVENT_RECORD (R616) -/
  | eventRecord (merged : BitVec 16)
  /-- EVR_READ (R618) -/
  | evrRead (o : Origin) (arg : List Byte)
  /-- EVR_FREEZE_START (R619) -/
  | evrFreezeStart (o : Origin)
  /-- EVR_FREEZE_END (R619) -/
  | evrFreezeEnd (o : Origin)
  /-- EVR_FREEZE_LIMIT (R619) -/
  | evrFreezeLimit
  /-- EVR_CLEAR (R621) -/
  | evrClear (o : Origin) (token : List Byte)
  /-- THERM_ASSERT (R624) -/
  | thermAssert
  /-- THERM_RELEASE (R624) -/
  | thermRelease
  /-- THERM_MONITOR_FAULT (R624) -/
  | thermMonitorFault
  /-- VCORE_OUT_OF_RANGE (R624) -/
  | vcoreOutOfRange
  /-- RAIL_OUT_OF_RANGE (R624) -/
  | railOutOfRange (rail : Fin 10) (outside : Bool)
  /-- LG_PERSONALITY_WRITE (R50) -/
  | lgPersonalityWrite (o : Origin) (g : Fin 12) (v : BitVec 8)
  /-- PCS_LOCK_ACQUIRED (R370) -/
  | pcsLockAcquired (p : Fin 96) (foms : List Slicer)
  /-- PCIE_L1_EXIT (R119) -/
  | pcieL1Exit (link : Fin 4)
  /-- AER_ERROR_LOGGED (R195) -/
  | aerErrorLogged (link : Fin 4) (uncorrectable : Bool)
  /-- CORE_WATCHDOG_RESET_RELEASE (R92) -/
  | coreWatchdogResetRelease
  /-- FE_LASER_FORCE_OFF_WRITE (R218) -/
  | feLaserForceOffWrite (o : Origin) (n : Fin 4) (v : BitVec 8)
  deriving DecidableEq, Repr

end Sys2Proof
end

