-- ==== Sys2Proof/Decode.lean ====
section
/-!
DEFINITION. The decoder of command words. No row of spec/opcode_table.json gives bits: a command of this block is
no word, so no word spells one.
-/
namespace Sys2Proof

/-- The command a word spells by the table's bits: none, since no row gives bits. -/
def decodeTableWord (nbits w : Nat) : Option Instr :=
  match nbits, w with
  | _, _ => none

end Sys2Proof
end

