-- ==== Sys2Proof/Config.lean ====
section
/-!
DEFINITION. What the manual names and does not give: cryptographic functions of other standards (R587 to R602, R518
to R526) and the values it leaves open. Each is a constant with no body, so that a claim holds whatever it is.
-/
namespace Sys2Proof.Config

/-- The n-th value the manual leaves open, drawn by the effect `draw`. -/
opaque freeValue : Nat → Nat

/-- SHA-384 of a byte string. -/
opaque sha384 : List Byte → List Byte

/-- Whether an ECDSA P-384 signature over a digest verifies under a public key. -/
opaque ecdsaVerifies : (key digest signature : List Byte) → Bool

/-- The ECDSA P-384 signature of a digest under a private key with the given fresh randomness. -/
opaque ecdsaSign : (key digest : List Byte) → Nat → List Byte

/-- The public key of a private key. -/
opaque ecdsaPublic : (key : List Byte) → List Byte

/-- The shared point of a private key and a public key. -/
opaque ecdh : (key point : List Byte) → List Byte

/-- Whether the two signatures of a message verify under the owner keys with the given digests. An image carries no key (Table 5.10). -/
opaque ownerSigned : (digests message ecdsa lms : List Byte) → Bool

/-- Whether 96 bytes, x then y, are a point of the curve P-384. -/
opaque onCurve : List Byte → Bool

/-- Whether an LMS signature (RFC 8554) of a message verifies under an encoded public key. -/
opaque lmsVerifies : (key message signature : List Byte) → Bool

/-- The root T[1] of the LMS key generated from a seed and an identifier I (NIST SP 800-208). -/
opaque lmsRoot : (seed ident : List Byte) → List Byte

/-- The LMS signature of a message at index q of that key. -/
opaque lmsSign : (seed ident : List Byte) → (q : Nat) → (message : List Byte) → List Byte

/-- The private identity key that stage 1 derives from DEVICE_SECRET (R594). -/
opaque identityKey : (secret : List Byte) → List Byte

/-- HKDF with SHA-384: key, salt, information string, length in bytes. -/
opaque hkdf : (key salt info : List Byte) → Nat → List Byte

/-- HMAC with SHA-384. -/
opaque hmac : (key data : List Byte) → List Byte

/-- AES key wrap under a key, and its inverse, which fails when its check fails. -/
opaque wrap : (kek key : List Byte) → List Byte
opaque unwrap : (kek wrapped : List Byte) → Option (List Byte)

/-- AES-GCM: key, initialisation vector, additional data, text; ciphertext and 16-byte tag. -/
opaque gcmSeal : (key iv aad text : List Byte) → List Byte × List Byte

/-- AES-GCM opening: key, initialisation vector, additional data, ciphertext, tag; none when the tag fails. -/
opaque gcmOpen : (key iv aad text tag : List Byte) → Option (List Byte)

/-- The normalised magnitude of a message of the layered normalised min-sum decoder, whose factor the manual does not give (R252). -/
opaque minSumNorm : (magnitude : Nat) → Nat

/-- The weight of a soft bit from the distances to the nearest level with a 0 and with a 1 (R252). -/
opaque softWeight : (toZero toOne : Nat) → Nat

/-- A received value through the tap of a subcarrier whose channel estimate is zero (R236), in units of 2⁻²⁴. -/
opaque zeroTap : (re im : Int) → Int × Int

/-- The rotation of a symbol whose pilots sum to zero, which have no argument (R237), in units of 2⁻²⁴. -/
opaque zeroPhase : Int × Int

/-- A modulation error ratio in 0.01 dB that is without error or lies outside what a U16 holds (R239). -/
opaque merOutside : (signal error : Nat) → Nat

/-- The 33 coefficients of a shaping preset, which Table 7.1 names by its response alone. -/
opaque presetCoeff : (preset : Nat) → List Byte

/-- The default low-power-idle wake time in µs of a port mode, which is IEEE 802.3's (R381). -/
opaque eeeWake : Nat → Nat

/-- The fixed latency in ps of a port's mode and FEC, for direction 0 receive and 1 transmit (R391). -/
opaque portLatency : (mode fec dir : Nat) → Nat

/-- The stream that the burst builder gives an ordinary packet of a queue, which the manual does not state (R356, R359). -/
opaque upstreamStream : (queue : Nat) → Nat

/-- The Gwynust vendor ID, which the manual does not give (Table 6.2). -/
opaque vendorId : Nat

/-- The dword that a function's configuration space holds at an offset, which the manual leaves to PCI Express Base 4.0 (R175). -/
opaque configDword : (physical : Bool) → (offset : Nat) → Nat

end Sys2Proof.Config
end

