-- ==== Sys2Proof/Machine/Store.lean ====
section
/-!
DEFINITION. Reading and writing a sparse store, and the bit-field, byte-order and sign helpers.
-/
namespace Sys2Proof.Machine

/-- What a store holds under a key; `d` is what an unlisted key reads as. -/
def SMap.get {α : Type} (d : α) : SMap α → Nat → α
  | [], _ => d
  | (k, v) :: r, i => if k = i then v else if i < k then d else SMap.get d r i

/-- The store with `v` under a key. Writing `d` removes the entry, so the form stays canonical. -/
def SMap.put {α : Type} [DecidableEq α] (d : α) (i : Nat) (v : α) : SMap α → SMap α
  | [] => if v = d then [] else [(i, v)]
  | (k, w) :: r =>
    if k < i then (k, w) :: SMap.put d i v r
    else if k = i then (if v = d then r else (i, v) :: r)
    else (if v = d then (k, w) :: r else (i, v) :: (k, w) :: r)

/-- Every key of a store lies above a bound and the keys rise strictly; no entry equals `d`. -/
def SMap.wfFrom {α : Type} [DecidableEq α] (d : α) : Nat → SMap α → Bool
  | _, [] => true
  | b, (k, v) :: r => decide (b ≤ k) && decide (v ≠ d) && SMap.wfFrom d (k + 1) r

/-- The canonical form of a store. -/
def SMap.wf {α : Type} [DecidableEq α] (d : α) (m : SMap α) : Bool := SMap.wfFrom d 0 m

/-- The store changed under one key. -/
def SMap.upd {α : Type} [DecidableEq α] (d : α) (i : Nat) (f : α → α) (m : SMap α) : SMap α :=
  SMap.put d i (f (SMap.get d m i)) m

/-- The store without the entries whose keys satisfy `p`: those keys read as `d` again. -/
def SMap.drop {α : Type} (p : Nat → Bool) (m : SMap α) : SMap α :=
  m.filter fun e => !p e.1

/-- Field of `w` bits of `v` from bit `lo` upward (R6). -/
def bitsOf (v lo w : Nat) : Nat := v / 2 ^ lo % 2 ^ w

/-- Bit `i` of `v`. -/
def bitOf (v i : Nat) : Bool := v / 2 ^ i % 2 == 1

/-- `v` with its field of `w` bits from bit `lo` upward replaced by `x`. -/
def putBits (v lo w x : Nat) : Nat := v - bitsOf v lo w * 2 ^ lo + x % 2 ^ w * 2 ^ lo

/-- `v` with bit `i` set to `b`. -/
def putBit (v i : Nat) (b : Bool) : Nat := putBits v i 1 (if b then 1 else 0)

/-- A Bool as a number. -/
def b2n (b : Bool) : Nat := if b then 1 else 0

/-- The number an octet string spells, most significant byte first (R7, R136). -/
def beNat (b : List Byte) : Nat := b.foldl (fun a x => a * 256 + x.toNat) 0

/-- A number as `n` octets, most significant first. -/
def beBytes : Nat → Nat → List Byte
  | 0, _ => []
  | n + 1, v => BitVec.ofNat 8 (v / 256 ^ n) :: beBytes n v

/-- The number an octet string spells, least significant byte first (R8). -/
def leNat (b : List Byte) : Nat := beNat b.reverse

/-- A number as `n` octets, least significant first. -/
def leBytes (n v : Nat) : List Byte := (beBytes n v).reverse

/-- `len` octets from offset `off`. -/
def slice (b : List Byte) (off len : Nat) : List Byte := (b.drop off).take len

/-- The number in `len` octets from offset `off`, most significant first. -/
def beAt (b : List Byte) (off len : Nat) : Nat := beNat (slice b off len)

/-- An octet string with the octets from offset `off` replaced by `x`; the length is kept. -/
def patch (b : List Byte) (off : Nat) (x : List Byte) : List Byte :=
  (b.take off ++ x ++ b.drop (off + x.length)).take b.length

/-- `n` zero octets. -/
def zeros (n : Nat) : List Byte := List.replicate n 0

/-- An octet string cut or zero-padded to `n` octets. -/
def padTo (n : Nat) (b : List Byte) : List Byte := (b ++ zeros (n - b.length)).take n

/-- The integer a `w`-bit two's complement number stands for. -/
def toInt (w v : Nat) : Int := if v < 2 ^ (w - 1) then (v : Int) else (v : Int) - (2 ^ w : Nat)

/-- An integer as a `w`-bit two's complement number. -/
def ofInt (w : Nat) (i : Int) : Nat := (i % ((2 ^ w : Nat) : Int)).toNat

/-- An integer kept inside the range of a `w`-bit two's complement number. -/
def clampInt (w : Nat) (i : Int) : Int :=
  max (-((2 ^ (w - 1) : Nat) : Int)) (min ((2 ^ (w - 1) : Nat) - 1 : Int) i)

/-- A counter of `w` bits moved on by `n`; it saturates (R4). -/
def satAdd (w v n : Nat) : Nat := min (2 ^ w - 1) (v + n)

/-- The quotient rounded up. -/
def ceilDiv (a b : Nat) : Nat := (a + (b - 1)) / b

/-- Which bits of a mask of `w` bits are set, in rising order. -/
def setBits (w v : Nat) : List Nat := (List.range w).filter (bitOf v)

/-- A list with the element at a position replaced. -/
def listSet {α : Type} (l : List α) (i : Nat) (v : α) : List α := l.set i v

/-- The element at a position, or `d`. -/
def nth {α : Type} (d : α) (l : List α) (i : Nat) : α := l.getD i d

/-- `n` steps of a reflected CRC register of 32 bits. -/
def crcSteps (poly : Nat) : Nat → Nat → Nat
  | 0, c => c
  | n + 1, c => crcSteps poly n (if c % 2 = 1 then (c / 2) ^^^ poly else c / 2)

/-- A reflected CRC of 32 bits over a byte string, starting at all ones, with final inversion (R454). -/
def crcReflected (poly : Nat) (b : List Byte) : Nat :=
  (b.foldl (fun c x => crcSteps poly 8 (c ^^^ x.toNat)) 0xFFFFFFFF) ^^^ 0xFFFFFFFF

/-- CRC-32C: polynomial 0x1EDC_6F41 (R454). -/
def crc32c (b : List Byte) : Nat := crcReflected 0x82F63B78 b

/-- The second table hash: polynomial 0x741B_8CD7 (R454). -/
def crcHalfB (b : List Byte) : Nat := crcReflected 0xEB31D82E b

/-- The FCS of IEEE 802.3. -/
def crcFcs (b : List Byte) : Nat := crcReflected 0xEDB88320 b

/-- `n` steps of an unreflected CRC register of `w` bits. -/
def crcMsbSteps (w poly : Nat) : Nat → Nat → Nat
  | 0, c => c
  | n + 1, c => crcMsbSteps w poly n (if bitOf c (w - 1) then ((c * 2) % 2 ^ w) ^^^ poly else (c * 2) % 2 ^ w)

/-- CRC-16: polynomial x¹⁶ + x¹² + x⁵ + 1, starting at 0xFFFF, no inversion (R265). -/
def crc16 (b : List Byte) : Nat :=
  b.foldl (fun c x => crcMsbSteps 16 0x1021 8 (c ^^^ (x.toNat * 256))) 0xFFFF

/-- The packet error code of the local serial path: CRC-8, polynomial x⁸ + x² + x + 1 (R150). -/
def crc8 (b : List Byte) : Nat :=
  b.foldl (fun c x => crcMsbSteps 8 7 8 (c ^^^ x.toNat)) 0

end Sys2Proof.Machine
end

