-- ==== Sys2Proof/Machine/Objects.lean ====
section
/-!
DEFINITION. The object dictionary as the object tables of spec/03 to spec/22 list it: one name for
each mnemonic, with its index, subindex, type, access, default and stated range (R133, R135, R15, R19).
-/
namespace Sys2Proof.Machine

/-- The objects of the dictionary, by their mnemonics (Tables 3.10 to 22.7). -/
inductive Obj where
  | clkTimingChannel | clkTimingFallback | clkTimingState | clkHrefOffset | clkFchState
  | clkDomainFreq | rstCause | rstCauseSticky | rstStraps | rstStrapUnstable | rstDevice
  | rstInstance | rstWatchdogPeriod | xingClosedDiscards | xingTimeouts | xingMergeSaturations
  | xingResampleFailures | gateDrainTimeouts | pwrState | pwrStateRequest | pwrDozeTimeout
  | pwrWakeMask | pwrWakeCause | pwrWakeSeverity | pwrElapsed | pwrSleepDiscards
  | pwrIdleGrantsIdled | trOpTarget | trOpActive | trState | trSettleTimeout | trVcoreMeasured
  | trThermalLimit | idPart | idStepping | idGrade | idTerminal | idBootProgress | idFwVersion
  | umaniSelf | umaniBlockTimeout | umaniDiscards | umaniDuplicates | umaniBlocksAbandoned
  | dictGroupOwner | dictGroupClaim | dictGroupRelease | cfgStage | cfgStageCommit | cfgApply
  | cfgApplyStatus | cfgLastError | cfgActiveMask | cfgBaseHash | cfgOwnerLocked | cfgLockGroups
  | cfgSlotVersion | hifLinkState | hifLinkSpeed | hifLinkWidth | hifNumVfs | hifRingFirst
  | hifRingCount | hifMsixShare | hifLeasePeriod | hifMsixPfVectors | hifMsixVfVectors
  | hifRingSetup | hifRingTeardown | hifRingQuery | hifDmapSet | hifVfRings | hifSlowpathMap
  | hifEvtMap | hifBadAccesses | hifSlowpathDrops | hifDirectDenied | hifEventRingOverflows
  | hifUndeliveredEvents | hifAbandonedCells | hifRevocations | feEnable | feState | feApdTarget
  | feApdIlimit | feApdVoltage | feApdCurrent | feRxCal | feRxPower | feLosThreshold | fePgaMode
  | fePgaGain | feAdcClips | feLdMode | feLdBiasOn | feLdBiasOff | feLdImax | feLdMonTarget
  | feLdMon | feLdBias | feLdLead | feLdLag | feLaserForceOff | feLaserStatus | feLaserRelease
  | feRogueOnLimit | feTxShape | feTxCoeff | feTxAmplitude | feApdLimitEvents | feRogueTrips
  | hvState | hvRearm | hvVin | hvBoost | hvTemp | hvWatchdogTrips | hvLinkErrors | dmtState
  | dmtFreqOffset | dmtAcqThreshold | dmtLossFrames | dmtWindowAdvance | dmtEqShift | dmtEqFreeze
  | dmtProfileActive | dmtProfileSwitch | dmtProfilePending | dmtProfileEnable
  | dmtProfileMismatches | dmtFramesSkipped | dmtLastError | dmtProfile | dmtProfileStatus
  | dmtSnrMap | dmtSnrFrames | dmtPilotMer | dmtMerAvg | dmtCwTotal | dmtCwCorrected
  | dmtCwUncorrectable | dmtBitsCorrected | dmtHdrUncorrectable | dmtLdpcMaxIter | dmtIterHist
  | mgtSlEnable | mgtCmEnable | mgtCmSfRx | mgtCmSfTx | mgtTxPhy | mgtTxLevel | mgtCaptureMargin
  | mgtSlThreshold | mgtCmThreshold | mgtTxLastAirtime | mgtTxPackets | mgtTxDrops | mgtSlRxDetects
  | mgtCmRxDetects | mgtSlRxPackets | mgtCmRxPackets | mgtSlRxFalseStarts | mgtCmRxFalseStarts
  | mgtSlRxHdrFails | mgtCmRxHdrFails | mgtSlRxReserved | mgtCmRxReserved | mgtSlRxOther
  | mgtCmRxOther | mgtSlRxCrcErrors | mgtCmRxCrcErrors | mgtSlRxCaptured | mgtCmRxCaptured
  | mgtSlRxIgnored | mgtCmRxIgnored | mgtSlRxProbes | mgtCmRxProbes | mgtSlRxLastStrength
  | mgtCmRxLastStrength | frmAlignState | frmFrame | frmDefects | frmFecDegThreshold | frmHdrFails
  | frmHdrReserved | frmSyncLosses | frmFrameJumps | frmMapErrored | frmMgmtDiscards
  | frmEncCrcFails | frmEncContradictions | frmChainDiscards | frmErroredDiscards
  | frmUnknownStream | frmLabelDiscards | frmKeyDiscards | frmFcsErrors | frmPayloads
  | frmTestPayloads | frmTestBytes | frmPmEs | frmPmSes | frmPmUas | frmPmSuppressed
  | frmPmErroredFrames | frmPmAvailable | frmStreamTable | circTimingSource | circTimingWindow
  | circTimingOffset | circLoadDs | circLoadUs | circRejects | circConfig | circStatus
  | circCounters | actState | actHandle | actEqd | actMode | actCapsAllowed | actPhyMargin
  | actUsPreamble | actAnnounceTimeout | actRangeTimeout | actHoldTimeout | actDozeCycle
  | actDozeAwake | actQualityAuto | actLastRefusal | actRestart | actDozeState | actMsgDiscards
  | actMsgIllegal | actAnnounces | actRefusals | actWindowSkips | actMgtRefused | actGrants
  | actGrantCheckFails | actGrantsIgnored | actGrantsInvalid | actGrantsClipped | actGrantsOverlap
  | actGrantsShort | actGrantsIdle | actBurstsEqdDropped | actInbandDrops | actAlloc | portEnable
  | portMode | portMedium | portAdvertise | portFecRequest | portMaxFrame | portState
  | portResolved | portRestart | portEeeEnable | portLldpMode | portEeeTxIdle | portEeeTwTx
  | portEeeState | portMacsecEnable | portMacsecContext | portMacsecBypass | portTsRxLatency
  | portTsTxLatency | portTsRxAdjust | portTsTxAdjust | portMacCounters | lgPersonality | lgQuads
  | lgFomUp | lgFomAlarm | lgFomRetrain | lnFom | lnPolarity | lnTxFfe | lnTraining | fabEnable
  | fabState | fabLanePolicy | fabMaxCellRate | fabResolved | fabPeerId | fabRebuildTimeout
  | fabRestart | fabRxCredits | fabTxCredits | fabTxClass | fabRxTc | fabCounters
  | carReorderTimeouts | carLateReleases | carPortWeight | carPortTc | carIngressOverruns
  | prsExcMap | prsExcCounts | prsTpidCustom | prsVxlanPort | prsGenevePort | prsMplsCwEth
  | prsHostLoopDrops | clsKeyProfile | clsProfileSelect | clsBlockProfile | clsTcam | clsRewrite
  | clsMplsTtl | clsRange | clsMirror | clsNoMatch | clsActionSkipped | clsNoDestination
  | fwdCarving | fwdCarveState | fwdRouterMac | fwdAgeTick | fwdAgeLimit | fwdAgeNow
  | fwdLearnNotify | fwdSubLearnLimit | fwdTableEpoch | fwdEpochSwitch | fwdEpochStatus | fwdEm
  | fwdRoute4 | fwdRoute6 | fwdNexthop | fwdEcmp | fwdPortCfg | fwdPortLearnLimit | fwdPortLearned
  | fwdBd | fwdEmValid | fwdStashUsed | fwdRoute4Valid | fwdRoute6Valid | fwdLearns | fwdLearnDrops
  | fwdMoves | fwdAged | fwdInsertFull | fwdNotifyDrops | fwdMemErrors | tmSharedFree
  | tmIresControl | tmSnapCells | tmDramCells | tmDramFree | tmGateOverruns | tmQueueFlush
  | tmDrops | tmMeters | tmCounters | tmPortCfg | tmIresShare | tmAdmProfile | tmSnapRequest
  | tmSnapRelease | tmSnapStatus | tmSnapData | tmGateSwitch | tmGateAdmin | tmGateOper
  | tmGateState | tmQueueCfg | tmSubCfg | tmSvcCfg | dramSpeed | dramRetrainPeriod | dramMr4Period
  | dramAgeLimit | dramFailThreshold | dramCeAlarm | dramCfg | dramAddrOrder | dramEnable
  | dramState | dramCapacity | dramFreeCells | dramRefreshRate | dramTrainResult
  | dramRepairPending | dramCounters | ciphCheckMode | ciphCheckFaults | ciphUnwrapFails
  | ciphMsPnAlarm | ciphMsSaLoad | ciphFchKeyLoad | ciphFchDsState | ciphFchUsState
  | ciphFchUsActive | ciphFchUsKeySwitch | ciphFchUsPending | ciphFchKeyLimit | ciphFchCounters
  | ciphMsContext | ciphMsSaState | ciphMsCounters | ciphLaOpen | ciphLaClose | ciphLaSubmit
  | ciphLaSessionsOpen | ciphLaCounters | timeNow | timeIncrement | timeSource | timeStatus
  | timeSet | timeAdjust | timeStepThreshold | timeSlewMax | timeRxAdjust | timeLastOffset
  | timeUtcOffset | timeHeClock | timeMsgAccepted | timeMsgDiscards | timeSteps | timeFrameTs
  | timeTsRead | timeTsPending | timeTsOverflows | timePortPtp | timeTpoCfg | timeTpoStart
  | timeTpoStop | timeTpoState | timeTpiCfg | timeTpiLast | timeTpiMerged | timeSyncoEnable
  | timeSyncoFreq | timeSyncoReference | rmPendingCount | rmList | rmCancel | rmLate | rmFailures
  | rmCancelled | secLifecycle | secLifecycleAdvance | secBootSlot | secRollback
  | secRollbackCommit | secStage1Hash | secStage2Hash | secFlashProgram | secIdPubkey | secIdChain
  | secLmsPubkey | secLmsNext | secLmsBlocksUsed | secAttest | secAttestReport | secKekAgree
  | secKekClear | secKekState | secChallenge | secAuthStage | secOwnerEnrol | secOwnerLock
  | secOwnerKeys | secAuthIssue | secDebugUnlock | secDebugEnd | secDebugState | secAuthFails
  | secOtpFails | evrCount | evrOldestSeq | evrNextSeq | evrRead | evrFreeze | evrFreezeState
  | evrFreezeLimit | evrRepeatWindow | evrClear | evrHoldUsed | evrLost | evrFrozenMissed
  | evrSrcCfg | fltBufCorrected | fltBufUncorrectable | fltTherm | fltRailStatus
  deriving DecidableEq, Repr

/-- Types of Table 5.2; `oct n` is OCTETS(n), `octMax n` is OCTETS(≤n). -/
inductive Ty where
  | bool | u (w : Nat) | s (w : Nat) | oct (n : Nat) | octMax (n : Nat) | command | table
  deriving DecidableEq, Repr

/-- The values an object admits beyond its type: a range, zero or a range, bits that are not
reserved, a signed range, or a check of the owning chapter (`own`). -/
inductive Rng where
  | any | range (lo hi : Nat) | orZero (lo hi : Nat) | mask (m : Nat) | srange (lo hi : Int) | own
  deriving DecidableEq, Repr

/-- One row of an object table. Instance `i` below `count` and element `j` below `num` lie at index
`base + stride * i + j / per`, subindex `sub + j % per`. `acc` holds the letters of H, H.v, E, L and
S, with r = 1, w = 2 and x = 4. -/
structure Row where
  base : Nat
  stride : Nat
  count : Nat
  per : Nat
  sub : Nat
  num : Nat
  ty : Ty
  acc : Nat × Nat × Nat × Nat × Nat
  dflt : Val
  rng : Rng
  deriving DecidableEq, Repr

/-- The row of each object. -/
def Obj.row : Obj → Row
  | .clkTimingChannel => ⟨0x2000, 0, 1, 1, 0x01, 1, .u 8, (3, 0, 1, 1, 3), .num 0, .range 0 3⟩
  | .clkTimingFallback => ⟨0x2000, 0, 1, 1, 0x02, 1, .bool, (3, 0, 1, 1, 3), .num 0, .any⟩
  | .clkTimingState => ⟨0x2000, 0, 1, 1, 0x03, 1, .u 8, (1, 0, 1, 1, 1), .num 0, .any⟩
  | .clkHrefOffset => ⟨0x2000, 0, 1, 1, 0x04, 1, .s 32, (1, 0, 1, 1, 1), .num 0x80000000, .any⟩
  | .clkFchState => ⟨0x2001, 0, 1, 4, 0x01, 4, .u 8, (1, 0, 1, 1, 1), .num 0, .any⟩
  | .clkDomainFreq => ⟨0x2002, 0, 1, 60, 0x01, 60, .u 32, (1, 0, 0, 1, 1), .num 0, .any⟩
  | .rstCause => ⟨0x2010, 0, 1, 1, 0x01, 1, .u 32, (1, 0, 1, 1, 1), .num 0x00000006, .any⟩
  | .rstCauseSticky => ⟨0x2010, 0, 1, 1, 0x02, 1, .u 32, (3, 0, 1, 3, 3), .num 0x00000006, .any⟩
  | .rstStraps => ⟨0x2010, 0, 1, 1, 0x03, 1, .u 8, (1, 0, 1, 1, 1), .num 0x40, .any⟩
  | .rstStrapUnstable => ⟨0x2010, 0, 1, 1, 0x04, 1, .bool, (1, 0, 0, 1, 1), .num 0, .any⟩
  | .rstDevice => ⟨0x2010, 0, 1, 1, 0x05, 1, .command, (4, 0, 0, 4, 4), .num 0, .any⟩
  | .rstInstance => ⟨0x2010, 0, 1, 1, 0x06, 1, .command, (4, 0, 0, 0, 4), .num 0, .any⟩
  | .rstWatchdogPeriod => ⟨0x2010, 0, 1, 1, 0x07, 1, .u 32, (3, 0, 0, 1, 3), .num 1000, .range 100 60000⟩
  | .xingClosedDiscards => ⟨0x2020, 0, 1, 1, 0x01, 1, .u 32, (1, 0, 0, 1, 1), .num 0, .any⟩
  | .xingTimeouts => ⟨0x2020, 0, 1, 1, 0x02, 1, .u 32, (1, 0, 0, 1, 1), .num 0, .any⟩
  | .xingMergeSaturations => ⟨0x2020, 0, 1, 1, 0x03, 1, .u 32, (1, 0, 0, 1, 1), .num 0, .any⟩
  | .xingResampleFailures => ⟨0x2020, 0, 1, 1, 0x04, 1, .u 32, (1, 0, 0, 1, 1), .num 0, .any⟩
  | .gateDrainTimeouts => ⟨0x2020, 0, 1, 1, 0x05, 1, .u 32, (1, 0, 0, 1, 1), .num 0, .any⟩
  | .pwrState => ⟨0x2100, 0, 1, 1, 0x01, 1, .u 8, (1, 0, 1, 1, 1), .num 0, .any⟩
  | .pwrStateRequest => ⟨0x2100, 0, 1, 1, 0x02, 1, .command, (4, 0, 0, 0, 0), .num 0, .any⟩
  | .pwrDozeTimeout => ⟨0x2100, 0, 1, 1, 0x03, 1, .u 32, (3, 0, 1, 1, 3), .num 1000, .range 1 1000⟩
  | .pwrWakeMask => ⟨0x2100, 0, 1, 1, 0x04, 1, .u 16, (3, 0, 0, 1, 3), .num 0x03FF, .mask 0x3FF⟩
  | .pwrWakeCause => ⟨0x2100, 0, 1, 1, 0x05, 1, .u 16, (1, 0, 1, 1, 1), .num 0, .any⟩
  | .pwrWakeSeverity => ⟨0x2100, 0, 1, 1, 0x06, 1, .u 8, (3, 0, 0, 1, 3), .num 6, .range 0 7⟩
  | .pwrElapsed => ⟨0x2100, 0, 1, 1, 0x07, 1, .u 64, (1, 0, 1, 1, 1), .num 0xFFFFFFFFFFFFFFFF, .any⟩
  | .pwrSleepDiscards => ⟨0x2100, 0, 1, 1, 0x08, 1, .u 32, (1, 0, 0, 1, 1), .num 0, .any⟩
  | .pwrIdleGrantsIdled => ⟨0x2100, 0, 1, 1, 0x09, 1, .u 32, (1, 0, 1, 1, 1), .num 0, .any⟩
  | .trOpTarget => ⟨0x2110, 0, 1, 1, 0x01, 1, .u 8, (3, 0, 0, 1, 3), .num 0, .range 0 3⟩
  | .trOpActive => ⟨0x2110, 0, 1, 1, 0x02, 1, .u 8, (1, 0, 1, 1, 1), .num 0, .any⟩
  | .trState => ⟨0x2110, 0, 1, 1, 0x03, 1, .u 8, (1, 0, 0, 1, 1), .num 0, .any⟩
  | .trSettleTimeout => ⟨0x2110, 0, 1, 1, 0x04, 1, .u 32, (3, 0, 0, 1, 3), .num 1000, .range 100 10000⟩
  | .trVcoreMeasured => ⟨0x2110, 0, 1, 1, 0x05, 1, .u 16, (1, 0, 0, 1, 1), .num 0, .any⟩
  | .trThermalLimit => ⟨0x2110, 0, 1, 1, 0x06, 1, .u 8, (3, 0, 0, 3, 3), .num 100, .own⟩
  | .idPart => ⟨0x1000, 0, 1, 1, 0x01, 1, .u 32, (1, 1, 1, 1, 1), .num 0x00009640, .any⟩
  | .idStepping => ⟨0x1000, 0, 1, 1, 0x02, 1, .u 8, (1, 1, 1, 1, 1), .num 0x21, .any⟩
  | .idGrade => ⟨0x1000, 0, 1, 1, 0x03, 1, .u 8, (1, 1, 1, 1, 1), .num 0, .any⟩
  | .idTerminal => ⟨0x1000, 0, 1, 1, 0x04, 1, .u 64, (1, 1, 1, 1, 1), .num 0, .any⟩
  | .idBootProgress => ⟨0x1000, 0, 1, 1, 0x05, 1, .u 8, (1, 0, 1, 1, 1), .num 0, .any⟩
  | .idFwVersion => ⟨0x1000, 0, 1, 1, 0x06, 1, .u 32, (1, 1, 1, 1, 1), .num 0, .any⟩
  | .umaniSelf => ⟨0x1010, 0, 1, 1, 0x01, 1, .u 16, (1, 1, 1, 1, 1), .num 0, .any⟩
  | .umaniBlockTimeout => ⟨0x1010, 0, 1, 1, 0x02, 1, .u 32, (3, 0, 1, 1, 3), .num 1000, .range 100 10000⟩
  | .umaniDiscards => ⟨0x1010, 0, 1, 1, 0x03, 1, .u 32, (1, 0, 1, 1, 1), .num 0, .any⟩
  | .umaniDuplicates => ⟨0x1010, 0, 1, 1, 0x04, 1, .u 32, (1, 0, 1, 1, 1), .num 0, .any⟩
  | .umaniBlocksAbandoned => ⟨0x1010, 0, 1, 1, 0x05, 1, .u 32, (1, 0, 1, 1, 1), .num 0, .any⟩
  | .dictGroupOwner => ⟨0x1100, 0, 1, 28, 0x01, 28, .u 16, (1, 1, 1, 1, 1), .num 0x0000, .any⟩
  | .dictGroupClaim => ⟨0x1101, 0, 1, 1, 0x01, 1, .command, (4, 0, 0, 0, 0), .num 0, .any⟩
  | .dictGroupRelease => ⟨0x1101, 0, 1, 1, 0x02, 1, .command, (4, 0, 0, 0, 0), .num 0, .any⟩
  | .cfgStage => ⟨0xB000, 0, 1, 1, 0x01, 1, .octMax 1048576, (2, 0, 0, 2, 2), .oct [], .any⟩
  | .cfgStageCommit => ⟨0xB000, 0, 1, 1, 0x02, 1, .command, (4, 0, 0, 4, 4), .num 0, .any⟩
  | .cfgApply => ⟨0xB000, 0, 1, 1, 0x03, 1, .command, (4, 0, 0, 4, 4), .num 0, .any⟩
  | .cfgApplyStatus => ⟨0xB000, 0, 1, 1, 0x04, 1, .u 32, (1, 0, 1, 1, 1), .num 0, .any⟩
  | .cfgLastError => ⟨0xB000, 0, 1, 1, 0x05, 1, .u 64, (1, 0, 1, 1, 1), .num 0, .any⟩
  | .cfgActiveMask => ⟨0xB000, 0, 1, 1, 0x06, 1, .u 64, (1, 0, 1, 1, 1), .num 0, .any⟩
  | .cfgBaseHash => ⟨0xB000, 0, 1, 1, 0x07, 1, .oct 48, (1, 0, 1, 1, 1), .oct (zeros 48), .any⟩
  | .cfgOwnerLocked => ⟨0xB000, 0, 1, 1, 0x08, 1, .bool, (1, 0, 1, 1, 1), .num 0, .any⟩
  | .cfgLockGroups => ⟨0xB000, 0, 1, 1, 0x09, 1, .u 32, (3, 0, 1, 3, 3), .num 0x0FFFFFFF, .mask 0x0FFFFFFF⟩
  | .cfgSlotVersion => ⟨0xB010, 0, 1, 66, 0x01, 66, .u 64, (1, 0, 1, 1, 1), .num 0, .any⟩
  | .hifLinkState => ⟨0x3000, 0x100, 4, 1, 0x01, 1, .u 8, (1, 1, 1, 1, 1), .num 0, .any⟩
  | .hifLinkSpeed => ⟨0x3000, 0x100, 4, 1, 0x02, 1, .u 8, (1, 1, 1, 1, 1), .num 0, .any⟩
  | .hifLinkWidth => ⟨0x3000, 0x100, 4, 1, 0x03, 1, .u 8, (1, 1, 1, 1, 1), .num 0, .any⟩
  | .hifNumVfs => ⟨0x3000, 0x100, 4, 1, 0x04, 1, .u 8, (1, 1, 0, 1, 1), .num 0, .any⟩
  | .hifRingFirst => ⟨0x3000, 0x100, 4, 1, 0x05, 1, .u 16, (1, 1, 0, 1, 1), .num 0, .any⟩
  | .hifRingCount => ⟨0x3000, 0x100, 4, 1, 0x06, 1, .u 16, (1, 1, 0, 1, 1), .num 4096, .any⟩
  | .hifMsixShare => ⟨0x3000, 0x100, 4, 1, 0x07, 1, .u 16, (1, 0, 0, 1, 1), .num 2048, .any⟩
  | .hifLeasePeriod => ⟨0x3000, 0x100, 4, 1, 0x08, 1, .u 32, (3, 1, 0, 1, 3), .num 1000, .range 10 60000⟩
  | .hifMsixPfVectors => ⟨0x3000, 0x100, 4, 1, 0x09, 1, .u 16, (3, 0, 0, 1, 3), .num 64, .own⟩
  | .hifMsixVfVectors => ⟨0x3000, 0x100, 4, 1, 0x0A, 1, .u 16, (3, 0, 0, 1, 3), .num 0, .orZero 1 2048⟩
  | .hifRingSetup => ⟨0x3001, 0x100, 4, 1, 0x01, 1, .command, (4, 4, 0, 0, 0), .num 0, .any⟩
  | .hifRingTeardown => ⟨0x3001, 0x100, 4, 1, 0x02, 1, .command, (4, 4, 0, 0, 0), .num 0, .any⟩
  | .hifRingQuery => ⟨0x3001, 0x100, 4, 1, 0x03, 1, .command, (4, 4, 0, 0, 4), .num 0, .any⟩
  | .hifDmapSet => ⟨0x3001, 0x100, 4, 1, 0x04, 1, .command, (4, 4, 0, 0, 0), .num 0, .any⟩
  | .hifVfRings => ⟨0x3002, 0x100, 4, 63, 0x01, 63, .u 32, (3, 1, 0, 1, 3), .num 0, .own⟩
  | .hifSlowpathMap => ⟨0x3003, 0x100, 4, 64, 0x01, 64, .u 32, (3, 0, 0, 1, 3), .num 0, .own⟩
  | .hifEvtMap => ⟨0x3010, 0x100, 4, 128, 0x01, 512, .u 32, (3, 0, 0, 1, 3), .num 0, .own⟩
  | .hifBadAccesses => ⟨0x3020, 0x100, 4, 1, 0x01, 1, .u 32, (1, 0, 0, 1, 1), .num 0, .any⟩
  | .hifSlowpathDrops => ⟨0x3020, 0x100, 4, 1, 0x02, 1, .u 32, (1, 0, 0, 1, 1), .num 0, .any⟩
  | .hifDirectDenied => ⟨0x3020, 0x100, 4, 1, 0x03, 1, .u 32, (1, 0, 0, 1, 1), .num 0, .any⟩
  | .hifEventRingOverflows => ⟨0x3020, 0x100, 4, 1, 0x04, 1, .u 32, (1, 0, 0, 1, 1), .num 0, .any⟩
  | .hifUndeliveredEvents => ⟨0x3020, 0x100, 4, 1, 0x05, 1, .u 32, (1, 0, 0, 1, 1), .num 0, .any⟩
  | .hifAbandonedCells => ⟨0x3020, 0x100, 4, 1, 0x06, 1, .u 32, (1, 0, 0, 1, 1), .num 0, .any⟩
  | .hifRevocations => ⟨0x3020, 0x100, 4, 1, 0x07, 1, .u 32, (1, 0, 1, 1, 1), .num 0, .any⟩
  | .feEnable => ⟨0x4000, 0x400, 4, 1, 0x01, 1, .bool, (3, 0, 1, 1, 3), .num 0, .any⟩
  | .feState => ⟨0x4000, 0x400, 4, 1, 0x02, 1, .u 8, (1, 0, 1, 1, 1), .num 0, .any⟩
  | .feApdTarget => ⟨0x4000, 0x400, 4, 1, 0x03, 1, .u 32, (3, 0, 1, 1, 3), .num 40000, .range 20000 80000⟩
  | .feApdIlimit => ⟨0x4000, 0x400, 4, 1, 0x04, 1, .u 16, (3, 0, 1, 1, 3), .num 2000, .range 100 2000⟩
  | .feApdVoltage => ⟨0x4000, 0x400, 4, 1, 0x05, 1, .u 32, (1, 0, 1, 1, 1), .num 0, .any⟩
  | .feApdCurrent => ⟨0x4000, 0x400, 4, 1, 0x06, 1, .u 32, (1, 0, 1, 1, 1), .num 0, .any⟩
  | .feRxCal => ⟨0x4000, 0x400, 4, 1, 0x07, 1, .u 32, (3, 0, 1, 1, 3), .num 0, .any⟩
  | .feRxPower => ⟨0x4000, 0x400, 4, 1, 0x08, 1, .s 32, (1, 0, 1, 1, 1), .num 0x80000000, .any⟩
  | .feLosThreshold => ⟨0x4000, 0x400, 4, 1, 0x09, 1, .u 32, (3, 0, 3, 1, 3), .num 100, .range 10 2000000⟩
  | .fePgaMode => ⟨0x4000, 0x400, 4, 1, 0x0A, 1, .u 8, (3, 0, 1, 1, 3), .num 0, .range 0 1⟩
  | .fePgaGain => ⟨0x4000, 0x400, 4, 1, 0x0B, 1, .u 8, (3, 0, 1, 1, 3), .num 0, .range 0 24⟩
  | .feAdcClips => ⟨0x4000, 0x400, 4, 1, 0x0C, 1, .u 32, (1, 0, 1, 1, 1), .num 0, .any⟩
  | .feLdMode => ⟨0x4000, 0x400, 4, 1, 0x0D, 1, .u 8, (3, 0, 1, 1, 3), .num 0, .range 0 1⟩
  | .feLdBiasOn => ⟨0x4000, 0x400, 4, 1, 0x0E, 1, .u 32, (3, 0, 1, 1, 3), .num 0, .own⟩
  | .feLdBiasOff => ⟨0x4000, 0x400, 4, 1, 0x0F, 1, .u 32, (3, 0, 1, 1, 3), .num 0, .range 0 10000⟩
  | .feLdImax => ⟨0x4000, 0x400, 4, 1, 0x10, 1, .u 32, (3, 0, 1, 1, 3), .num 60000, .range 1000 150000⟩
  | .feLdMonTarget => ⟨0x4000, 0x400, 4, 1, 0x11, 1, .u 32, (3, 0, 1, 1, 3), .num 100000, .range 1000 2000000⟩
  | .feLdMon => ⟨0x4000, 0x400, 4, 1, 0x12, 1, .u 32, (1, 0, 1, 1, 1), .num 0, .any⟩
  | .feLdBias => ⟨0x4000, 0x400, 4, 1, 0x13, 1, .u 32, (1, 0, 1, 1, 1), .num 0, .any⟩
  | .feLdLead => ⟨0x4000, 0x400, 4, 1, 0x14, 1, .u 8, (3, 0, 3, 1, 3), .num 4, .range 3 16⟩
  | .feLdLag => ⟨0x4000, 0x400, 4, 1, 0x15, 1, .u 8, (3, 0, 3, 1, 3), .num 2, .range 1 16⟩
  | .feLaserForceOff => ⟨0x4000, 0x400, 4, 1, 0x16, 1, .bool, (3, 0, 1, 3, 3), .num 0, .any⟩
  | .feLaserStatus => ⟨0x4000, 0x400, 4, 1, 0x17, 1, .u 16, (1, 0, 1, 1, 1), .num 0x0018, .any⟩
  | .feLaserRelease => ⟨0x4000, 0x400, 4, 1, 0x18, 1, .command, (4, 0, 4, 0, 4), .num 0, .any⟩
  | .feRogueOnLimit => ⟨0x4000, 0x400, 4, 1, 0x19, 1, .u 32, (3, 0, 3, 1, 3), .num 250, .orZero 125 65535⟩
  | .feTxShape => ⟨0x4000, 0x400, 4, 1, 0x1A, 1, .u 8, (3, 0, 3, 1, 3), .num 0, .own⟩
  | .feTxCoeff => ⟨0x4000, 0x400, 4, 1, 0x1B, 1, .oct 66, (3, 0, 3, 1, 3), .oct [], .own⟩
  | .feTxAmplitude => ⟨0x4000, 0x400, 4, 1, 0x1C, 1, .u 16, (3, 0, 1, 1, 3), .num 600, .range 300 900⟩
  | .feApdLimitEvents => ⟨0x4000, 0x400, 4, 1, 0x1D, 1, .u 32, (1, 0, 1, 1, 1), .num 0, .any⟩
  | .feRogueTrips => ⟨0x4000, 0x400, 4, 1, 0x1E, 1, .u 32, (1, 0, 1, 1, 1), .num 0, .any⟩
  | .hvState => ⟨0x4010, 0, 1, 1, 0x01, 1, .u 8, (1, 0, 1, 1, 1), .num 0, .any⟩
  | .hvRearm => ⟨0x4010, 0, 1, 1, 0x02, 1, .command, (4, 0, 0, 4, 4), .num 0, .any⟩
  | .hvVin => ⟨0x4010, 0, 1, 1, 0x03, 1, .u 32, (1, 0, 1, 1, 1), .num 0, .any⟩
  | .hvBoost => ⟨0x4010, 0, 1, 1, 0x04, 1, .u 32, (1, 0, 1, 1, 1), .num 0, .any⟩
  | .hvTemp => ⟨0x4010, 0, 1, 1, 0x05, 1, .s 32, (1, 0, 1, 1, 1), .num 0, .any⟩
  | .hvWatchdogTrips => ⟨0x4010, 0, 1, 1, 0x06, 1, .u 32, (1, 0, 1, 1, 1), .num 0, .any⟩
  | .hvLinkErrors => ⟨0x4010, 0, 1, 1, 0x07, 1, .u 32, (1, 0, 0, 1, 1), .num 0, .any⟩
  | .dmtState => ⟨0x4080, 0x400, 4, 1, 0x01, 1, .u 8, (1, 0, 1, 1, 1), .num 0, .any⟩
  | .dmtFreqOffset => ⟨0x4080, 0x400, 4, 1, 0x02, 1, .s 32, (1, 0, 1, 1, 1), .num 0x80000000, .any⟩
  | .dmtAcqThreshold => ⟨0x4080, 0x400, 4, 1, 0x03, 1, .u 8, (3, 0, 3, 1, 3), .num 205, .range 128 255⟩
  | .dmtLossFrames => ⟨0x4080, 0x400, 4, 1, 0x04, 1, .u 8, (3, 0, 3, 1, 3), .num 8, .range 2 64⟩
  | .dmtWindowAdvance => ⟨0x4080, 0x400, 4, 1, 0x05, 1, .u 8, (3, 0, 3, 1, 3), .num 8, .range 0 32⟩
  | .dmtEqShift => ⟨0x4081, 0x400, 4, 1, 0x01, 1, .u 8, (3, 0, 3, 1, 3), .num 3, .range 0 8⟩
  | .dmtEqFreeze => ⟨0x4081, 0x400, 4, 1, 0x02, 1, .bool, (3, 0, 3, 1, 3), .num 0, .any⟩
  | .dmtProfileActive => ⟨0x4082, 0x400, 4, 1, 0x01, 1, .u 8, (1, 0, 1, 1, 1), .num 0, .any⟩
  | .dmtProfileSwitch => ⟨0x4082, 0x400, 4, 1, 0x02, 1, .command, (4, 0, 4, 0, 4), .num 0, .any⟩
  | .dmtProfilePending => ⟨0x4082, 0x400, 4, 1, 0x03, 1, .u 64, (1, 0, 1, 1, 1), .num 0, .any⟩
  | .dmtProfileEnable => ⟨0x4082, 0x400, 4, 1, 0x04, 1, .u 8, (3, 0, 3, 1, 3), .num 0x01, .own⟩
  | .dmtProfileMismatches => ⟨0x4082, 0x400, 4, 1, 0x05, 1, .u 32, (1, 0, 1, 1, 1), .num 0, .any⟩
  | .dmtFramesSkipped => ⟨0x4082, 0x400, 4, 1, 0x06, 1, .u 32, (1, 0, 1, 1, 1), .num 0, .any⟩
  | .dmtLastError => ⟨0x4082, 0x400, 4, 1, 0x07, 1, .u 32, (1, 0, 1, 1, 1), .num 0, .any⟩
  | .dmtProfile => ⟨0x4090, 0x400, 4, 1, 0x01, 8, .oct 1952, (3, 0, 3, 1, 3), .oct [], .own⟩
  | .dmtProfileStatus => ⟨0x4090, 0x400, 4, 1, 0x02, 8, .u 32, (1, 0, 1, 1, 1), .num 0, .any⟩
  | .dmtSnrMap => ⟨0x40A0, 0x400, 4, 1, 0x01, 1, .oct 1936, (1, 0, 1, 1, 1), .oct (zeros 1936), .any⟩
  | .dmtSnrFrames => ⟨0x40A0, 0x400, 4, 1, 0x02, 1, .u 16, (3, 0, 3, 1, 3), .num 64, .range 1 8000⟩
  | .dmtPilotMer => ⟨0x40A0, 0x400, 4, 1, 0x03, 1, .u 16, (1, 0, 1, 1, 1), .num 0, .any⟩
  | .dmtMerAvg => ⟨0x40A0, 0x400, 4, 1, 0x04, 1, .u 16, (1, 0, 1, 1, 1), .num 0, .any⟩
  | .dmtCwTotal => ⟨0x40A1, 0x400, 4, 1, 0x01, 1, .u 64, (1, 0, 1, 1, 1), .num 0, .any⟩
  | .dmtCwCorrected => ⟨0x40A1, 0x400, 4, 1, 0x02, 1, .u 64, (1, 0, 1, 1, 1), .num 0, .any⟩
  | .dmtCwUncorrectable => ⟨0x40A1, 0x400, 4, 1, 0x03, 1, .u 32, (1, 0, 1, 1, 1), .num 0, .any⟩
  | .dmtBitsCorrected => ⟨0x40A1, 0x400, 4, 1, 0x04, 1, .u 64, (1, 0, 1, 1, 1), .num 0, .any⟩
  | .dmtHdrUncorrectable => ⟨0x40A1, 0x400, 4, 1, 0x05, 1, .u 32, (1, 0, 1, 1, 1), .num 0, .any⟩
  | .dmtLdpcMaxIter => ⟨0x40A1, 0x400, 4, 1, 0x06, 1, .u 8, (3, 0, 3, 1, 3), .num 12, .range 4 12⟩
  | .dmtIterHist => ⟨0x40A1, 0x400, 4, 1, 0x07, 1, .oct 48, (1, 0, 1, 1, 1), .oct (zeros 48), .any⟩
  | .mgtSlEnable => ⟨0x4180, 0x400, 4, 1, 0x01, 1, .bool, (3, 0, 3, 1, 3), .num 1, .any⟩
  | .mgtCmEnable => ⟨0x4180, 0x400, 4, 1, 0x02, 1, .bool, (3, 0, 3, 1, 3), .num 1, .any⟩
  | .mgtCmSfRx => ⟨0x4180, 0x400, 4, 1, 0x03, 1, .u 8, (3, 0, 3, 1, 3), .num 12, .range 7 12⟩
  | .mgtCmSfTx => ⟨0x4180, 0x400, 4, 1, 0x04, 1, .u 8, (3, 0, 3, 1, 3), .num 12, .range 7 12⟩
  | .mgtTxPhy => ⟨0x4180, 0x400, 4, 1, 0x05, 1, .u 8, (3, 0, 3, 1, 3), .num 1, .range 0 1⟩
  | .mgtTxLevel => ⟨0x4180, 0x400, 4, 1, 0x06, 1, .u 8, (3, 0, 3, 1, 3), .num 12, .range 6 30⟩
  | .mgtCaptureMargin => ⟨0x4180, 0x400, 4, 1, 0x07, 1, .u 8, (3, 0, 3, 1, 3), .num 6, .range 3 12⟩
  | .mgtSlThreshold => ⟨0x4180, 0x400, 4, 1, 0x08, 1, .u 8, (3, 0, 1, 1, 3), .num 90, .range 48 255⟩
  | .mgtCmThreshold => ⟨0x4180, 0x400, 4, 1, 0x09, 1, .u 8, (3, 0, 1, 1, 3), .num 48, .range 32 96⟩
  | .mgtTxLastAirtime => ⟨0x4180, 0x400, 4, 1, 0x0A, 1, .u 32, (1, 0, 1, 1, 1), .num 0, .any⟩
  | .mgtTxPackets => ⟨0x4180, 0x400, 4, 1, 0x0B, 1, .u 32, (1, 0, 1, 1, 1), .num 0, .any⟩
  | .mgtTxDrops => ⟨0x4180, 0x400, 4, 1, 0x0C, 1, .u 32, (1, 0, 1, 1, 1), .num 0, .any⟩
  | .mgtSlRxDetects => ⟨0x4181, 0x400, 4, 1, 0x01, 1, .u 32, (1, 0, 1, 1, 1), .num 0, .any⟩
  | .mgtCmRxDetects => ⟨0x4182, 0x400, 4, 1, 0x01, 1, .u 32, (1, 0, 1, 1, 1), .num 0, .any⟩
  | .mgtSlRxPackets => ⟨0x4181, 0x400, 4, 1, 0x02, 1, .u 32, (1, 0, 1, 1, 1), .num 0, .any⟩
  | .mgtCmRxPackets => ⟨0x4182, 0x400, 4, 1, 0x02, 1, .u 32, (1, 0, 1, 1, 1), .num 0, .any⟩
  | .mgtSlRxFalseStarts => ⟨0x4181, 0x400, 4, 1, 0x03, 1, .u 32, (1, 0, 1, 1, 1), .num 0, .any⟩
  | .mgtCmRxFalseStarts => ⟨0x4182, 0x400, 4, 1, 0x03, 1, .u 32, (1, 0, 1, 1, 1), .num 0, .any⟩
  | .mgtSlRxHdrFails => ⟨0x4181, 0x400, 4, 1, 0x04, 1, .u 32, (1, 0, 1, 1, 1), .num 0, .any⟩
  | .mgtCmRxHdrFails => ⟨0x4182, 0x400, 4, 1, 0x04, 1, .u 32, (1, 0, 1, 1, 1), .num 0, .any⟩
  | .mgtSlRxReserved => ⟨0x4181, 0x400, 4, 1, 0x05, 1, .u 32, (1, 0, 1, 1, 1), .num 0, .any⟩
  | .mgtCmRxReserved => ⟨0x4182, 0x400, 4, 1, 0x05, 1, .u 32, (1, 0, 1, 1, 1), .num 0, .any⟩
  | .mgtSlRxOther => ⟨0x4181, 0x400, 4, 1, 0x06, 1, .u 32, (1, 0, 1, 1, 1), .num 0, .any⟩
  | .mgtCmRxOther => ⟨0x4182, 0x400, 4, 1, 0x06, 1, .u 32, (1, 0, 1, 1, 1), .num 0, .any⟩
  | .mgtSlRxCrcErrors => ⟨0x4181, 0x400, 4, 1, 0x07, 1, .u 32, (1, 0, 1, 1, 1), .num 0, .any⟩
  | .mgtCmRxCrcErrors => ⟨0x4182, 0x400, 4, 1, 0x07, 1, .u 32, (1, 0, 1, 1, 1), .num 0, .any⟩
  | .mgtSlRxCaptured => ⟨0x4181, 0x400, 4, 1, 0x08, 1, .u 32, (1, 0, 1, 1, 1), .num 0, .any⟩
  | .mgtCmRxCaptured => ⟨0x4182, 0x400, 4, 1, 0x08, 1, .u 32, (1, 0, 1, 1, 1), .num 0, .any⟩
  | .mgtSlRxIgnored => ⟨0x4181, 0x400, 4, 1, 0x09, 1, .u 32, (1, 0, 1, 1, 1), .num 0, .any⟩
  | .mgtCmRxIgnored => ⟨0x4182, 0x400, 4, 1, 0x09, 1, .u 32, (1, 0, 1, 1, 1), .num 0, .any⟩
  | .mgtSlRxProbes => ⟨0x4181, 0x400, 4, 1, 0x0A, 1, .u 32, (1, 0, 1, 1, 1), .num 0, .any⟩
  | .mgtCmRxProbes => ⟨0x4182, 0x400, 4, 1, 0x0A, 1, .u 32, (1, 0, 1, 1, 1), .num 0, .any⟩
  | .mgtSlRxLastStrength => ⟨0x4181, 0x400, 4, 1, 0x0B, 1, .u 16, (1, 0, 1, 1, 1), .num 0, .any⟩
  | .mgtCmRxLastStrength => ⟨0x4182, 0x400, 4, 1, 0x0B, 1, .u 16, (1, 0, 1, 1, 1), .num 0, .any⟩
  | .frmAlignState => ⟨0x4200, 0x400, 4, 1, 0x01, 1, .u 8, (1, 0, 1, 1, 1), .num 0, .any⟩
  | .frmFrame => ⟨0x4200, 0x400, 4, 1, 0x02, 1, .u 64, (1, 0, 1, 1, 1), .num 0, .any⟩
  | .frmDefects => ⟨0x4200, 0x400, 4, 1, 0x03, 1, .u 16, (1, 0, 1, 1, 1), .num 0, .any⟩
  | .frmFecDegThreshold => ⟨0x4200, 0x400, 4, 1, 0x04, 1, .u 16, (3, 0, 3, 1, 3), .num 8, .range 1 65535⟩
  | .frmHdrFails => ⟨0x4201, 0x400, 4, 1, 0x01, 1, .u 32, (1, 0, 1, 1, 1), .num 0, .any⟩
  | .frmHdrReserved => ⟨0x4201, 0x400, 4, 1, 0x02, 1, .u 32, (1, 0, 1, 1, 1), .num 0, .any⟩
  | .frmSyncLosses => ⟨0x4201, 0x400, 4, 1, 0x03, 1, .u 32, (1, 0, 1, 1, 1), .num 0, .any⟩
  | .frmFrameJumps => ⟨0x4201, 0x400, 4, 1, 0x04, 1, .u 32, (1, 0, 1, 1, 1), .num 0, .any⟩
  | .frmMapErrored => ⟨0x4201, 0x400, 4, 1, 0x05, 1, .u 32, (1, 0, 1, 1, 1), .num 0, .any⟩
  | .frmMgmtDiscards => ⟨0x4201, 0x400, 4, 1, 0x06, 1, .u 32, (1, 0, 1, 1, 1), .num 0, .any⟩
  | .frmEncCrcFails => ⟨0x4201, 0x400, 4, 1, 0x07, 1, .u 32, (1, 0, 1, 1, 1), .num 0, .any⟩
  | .frmEncContradictions => ⟨0x4201, 0x400, 4, 1, 0x08, 1, .u 32, (1, 0, 1, 1, 1), .num 0, .any⟩
  | .frmChainDiscards => ⟨0x4201, 0x400, 4, 1, 0x09, 1, .u 32, (1, 0, 1, 1, 1), .num 0, .any⟩
  | .frmErroredDiscards => ⟨0x4201, 0x400, 4, 1, 0x0A, 1, .u 32, (1, 0, 1, 1, 1), .num 0, .any⟩
  | .frmUnknownStream => ⟨0x4201, 0x400, 4, 1, 0x0B, 1, .u 32, (1, 0, 1, 1, 1), .num 0, .any⟩
  | .frmLabelDiscards => ⟨0x4201, 0x400, 4, 1, 0x0C, 1, .u 32, (1, 0, 1, 1, 1), .num 0, .any⟩
  | .frmKeyDiscards => ⟨0x4201, 0x400, 4, 1, 0x0D, 1, .u 32, (1, 0, 1, 1, 1), .num 0, .any⟩
  | .frmFcsErrors => ⟨0x4201, 0x400, 4, 1, 0x0E, 1, .u 32, (1, 0, 1, 1, 1), .num 0, .any⟩
  | .frmPayloads => ⟨0x4201, 0x400, 4, 1, 0x0F, 1, .u 64, (1, 0, 1, 1, 1), .num 0, .any⟩
  | .frmTestPayloads => ⟨0x4201, 0x400, 4, 1, 0x10, 1, .u 32, (1, 0, 1, 1, 1), .num 0, .any⟩
  | .frmTestBytes => ⟨0x4201, 0x400, 4, 1, 0x11, 1, .u 64, (1, 0, 1, 1, 1), .num 0, .any⟩
  | .frmPmEs => ⟨0x4202, 0x400, 4, 1, 0x01, 1, .u 32, (1, 0, 1, 1, 1), .num 0, .any⟩
  | .frmPmSes => ⟨0x4202, 0x400, 4, 1, 0x02, 1, .u 32, (1, 0, 1, 1, 1), .num 0, .any⟩
  | .frmPmUas => ⟨0x4202, 0x400, 4, 1, 0x03, 1, .u 32, (1, 0, 1, 1, 1), .num 0, .any⟩
  | .frmPmSuppressed => ⟨0x4202, 0x400, 4, 1, 0x04, 1, .u 32, (1, 0, 1, 1, 1), .num 0, .any⟩
  | .frmPmErroredFrames => ⟨0x4202, 0x400, 4, 1, 0x05, 1, .u 64, (1, 0, 1, 1, 1), .num 0, .any⟩
  | .frmPmAvailable => ⟨0x4202, 0x400, 4, 1, 0x06, 1, .bool, (1, 0, 1, 1, 1), .num 1, .any⟩
  | .frmStreamTable => ⟨0x4210, 0x400, 4, 1, 0x01, 1, .table, (5, 0, 5, 1, 5), .num 0, .any⟩
  | .circTimingSource => ⟨0x5000, 0, 1, 1, 0x01, 1, .u 16, (3, 0, 3, 1, 3), .num 0xFFFF, .own⟩
  | .circTimingWindow => ⟨0x5000, 0, 1, 1, 0x02, 1, .u 16, (3, 0, 3, 1, 3), .num 800, .range 8 8000⟩
  | .circTimingOffset => ⟨0x5000, 0, 1, 1, 0x03, 1, .s 32, (1, 0, 1, 1, 1), .num 0x80000000, .any⟩
  | .circLoadDs => ⟨0x5000, 0, 1, 1, 0x04, 1, .u 32, (1, 0, 1, 1, 1), .num 0, .any⟩
  | .circLoadUs => ⟨0x5000, 0, 1, 1, 0x05, 1, .u 32, (1, 0, 1, 1, 1), .num 0, .any⟩
  | .circRejects => ⟨0x5000, 0, 1, 1, 0x06, 1, .u 32, (1, 0, 1, 1, 1), .num 0, .any⟩
  | .circConfig => ⟨0x5100, 0, 1, 128, 0x01, 2080, .oct 32, (3, 0, 3, 1, 3), .oct (zeros 32), .own⟩
  | .circStatus => ⟨0x5120, 0, 1, 128, 0x01, 2080, .u 16, (1, 0, 1, 1, 1), .num 0, .any⟩
  | .circCounters => ⟨0x5140, 0, 1, 128, 0x01, 2080, .oct 48, (1, 0, 1, 1, 1), .oct (zeros 48), .any⟩
  | .actState => ⟨0x4300, 0x400, 4, 1, 0x01, 1, .u 8, (1, 0, 1, 1, 1), .num 0, .any⟩
  | .actHandle => ⟨0x4300, 0x400, 4, 1, 0x02, 1, .u 16, (1, 0, 1, 1, 1), .num 0xFFFF, .any⟩
  | .actEqd => ⟨0x4300, 0x400, 4, 1, 0x03, 1, .u 32, (1, 0, 3, 1, 1), .num 0, .mask 0xFFFFFF⟩
  | .actMode => ⟨0x4300, 0x400, 4, 1, 0x04, 1, .u 32, (1, 0, 1, 1, 1), .num 0x1CC00000, .any⟩
  | .actCapsAllowed => ⟨0x4300, 0x400, 4, 1, 0x05, 1, .u 32, (3, 0, 1, 1, 3), .num 0xFFFFFFFF, .any⟩
  | .actPhyMargin => ⟨0x4300, 0x400, 4, 1, 0x06, 1, .u 8, (3, 0, 3, 1, 3), .num 15, .range 6 40⟩
  | .actUsPreamble => ⟨0x4300, 0x400, 4, 1, 0x07, 1, .u 8, (1, 0, 3, 1, 3), .num 8, .range 4 64⟩
  | .actAnnounceTimeout => ⟨0x4300, 0x400, 4, 1, 0x08, 1, .u 32, (3, 0, 1, 1, 3), .num 10000, .range 1000 600000⟩
  | .actRangeTimeout => ⟨0x4300, 0x400, 4, 1, 0x09, 1, .u 32, (3, 0, 3, 1, 3), .num 60000, .range 1000 600000⟩
  | .actHoldTimeout => ⟨0x4300, 0x400, 4, 1, 0x0A, 1, .u 32, (3, 0, 3, 1, 3), .num 2000, .range 100 60000⟩
  | .actDozeCycle => ⟨0x4300, 0x400, 4, 1, 0x0B, 1, .u 16, (3, 0, 1, 1, 3), .num 800, .own⟩
  | .actDozeAwake => ⟨0x4300, 0x400, 4, 1, 0x0C, 1, .u 8, (3, 0, 1, 1, 3), .num 8, .range 4 32⟩
  | .actQualityAuto => ⟨0x4300, 0x400, 4, 1, 0x0D, 1, .bool, (3, 0, 3, 1, 3), .num 0, .any⟩
  | .actLastRefusal => ⟨0x4300, 0x400, 4, 1, 0x0E, 1, .u 16, (1, 0, 1, 1, 1), .num 0, .any⟩
  | .actRestart => ⟨0x4300, 0x400, 4, 1, 0x0F, 1, .command, (4, 0, 0, 4, 4), .num 0, .any⟩
  | .actDozeState => ⟨0x4300, 0x400, 4, 1, 0x10, 1, .u 8, (1, 0, 1, 1, 1), .num 0, .any⟩
  | .actMsgDiscards => ⟨0x4301, 0x400, 4, 1, 0x01, 1, .u 32, (1, 0, 1, 1, 1), .num 0, .any⟩
  | .actMsgIllegal => ⟨0x4301, 0x400, 4, 1, 0x02, 1, .u 32, (1, 0, 1, 1, 1), .num 0, .any⟩
  | .actAnnounces => ⟨0x4301, 0x400, 4, 1, 0x03, 1, .u 32, (1, 0, 1, 1, 1), .num 0, .any⟩
  | .actRefusals => ⟨0x4301, 0x400, 4, 1, 0x04, 1, .u 32, (1, 0, 1, 1, 1), .num 0, .any⟩
  | .actWindowSkips => ⟨0x4301, 0x400, 4, 1, 0x05, 1, .u 32, (1, 0, 1, 1, 1), .num 0, .any⟩
  | .actMgtRefused => ⟨0x4301, 0x400, 4, 1, 0x06, 1, .u 32, (1, 0, 1, 1, 1), .num 0, .any⟩
  | .actGrants => ⟨0x4301, 0x400, 4, 1, 0x07, 1, .u 64, (1, 0, 1, 1, 1), .num 0, .any⟩
  | .actGrantCheckFails => ⟨0x4301, 0x400, 4, 1, 0x08, 1, .u 32, (1, 0, 1, 1, 1), .num 0, .any⟩
  | .actGrantsIgnored => ⟨0x4301, 0x400, 4, 1, 0x09, 1, .u 32, (1, 0, 1, 1, 1), .num 0, .any⟩
  | .actGrantsInvalid => ⟨0x4301, 0x400, 4, 1, 0x0A, 1, .u 32, (1, 0, 1, 1, 1), .num 0, .any⟩
  | .actGrantsClipped => ⟨0x4301, 0x400, 4, 1, 0x0B, 1, .u 32, (1, 0, 1, 1, 1), .num 0, .any⟩
  | .actGrantsOverlap => ⟨0x4301, 0x400, 4, 1, 0x0C, 1, .u 32, (1, 0, 1, 1, 1), .num 0, .any⟩
  | .actGrantsShort => ⟨0x4301, 0x400, 4, 1, 0x0D, 1, .u 32, (1, 0, 1, 1, 1), .num 0, .any⟩
  | .actGrantsIdle => ⟨0x4301, 0x400, 4, 1, 0x0E, 1, .u 32, (1, 0, 1, 1, 1), .num 0, .any⟩
  | .actBurstsEqdDropped => ⟨0x4301, 0x400, 4, 1, 0x0F, 1, .u 32, (1, 0, 1, 1, 1), .num 0, .any⟩
  | .actInbandDrops => ⟨0x4301, 0x400, 4, 1, 0x10, 1, .u 32, (1, 0, 1, 1, 1), .num 0, .any⟩
  | .actAlloc => ⟨0x4310, 0x400, 4, 128, 0x01, 1024, .u 16, (1, 0, 1, 1, 1), .num 0, .any⟩
  | .portEnable => ⟨0x6000, 0x10, 96, 1, 0x01, 1, .bool, (3, 0, 1, 1, 3), .num 0, .any⟩
  | .portMode => ⟨0x6000, 0x10, 96, 1, 0x02, 1, .u 8, (3, 0, 1, 1, 3), .num 4, .own⟩
  | .portMedium => ⟨0x6000, 0x10, 96, 1, 0x03, 1, .u 8, (3, 0, 1, 1, 3), .num 0, .range 0 2⟩
  | .portAdvertise => ⟨0x6000, 0x10, 96, 1, 0x04, 1, .u 16, (3, 0, 1, 1, 3), .num 0x007E, .mask 0x7E⟩
  | .portFecRequest => ⟨0x6000, 0x10, 96, 1, 0x05, 1, .u 8, (3, 0, 1, 1, 3), .num 0, .range 0 3⟩
  | .portMaxFrame => ⟨0x6000, 0x10, 96, 1, 0x06, 1, .u 16, (3, 0, 1, 1, 3), .num 1522, .range 1518 16387⟩
  | .portState => ⟨0x6000, 0x10, 96, 1, 0x07, 1, .u 8, (1, 0, 1, 1, 1), .num 0, .any⟩
  | .portResolved => ⟨0x6000, 0x10, 96, 1, 0x08, 1, .u 32, (1, 0, 1, 1, 1), .num 0, .any⟩
  | .portRestart => ⟨0x6000, 0x10, 96, 1, 0x09, 1, .command, (4, 0, 0, 4, 4), .num 0, .any⟩
  | .portEeeEnable => ⟨0x6001, 0x10, 96, 1, 0x01, 1, .bool, (3, 0, 1, 1, 3), .num 0, .any⟩
  | .portLldpMode => ⟨0x6001, 0x10, 96, 1, 0x02, 1, .u 8, (3, 0, 1, 1, 3), .num 0, .range 0 1⟩
  | .portEeeTxIdle => ⟨0x6001, 0x10, 96, 1, 0x03, 1, .u 32, (3, 0, 1, 1, 3), .num 50, .range 1 100000⟩
  | .portEeeTwTx => ⟨0x6001, 0x10, 96, 1, 0x04, 1, .u 16, (3, 0, 1, 1, 3), .num 0, .any⟩
  | .portEeeState => ⟨0x6001, 0x10, 96, 1, 0x05, 1, .u 8, (1, 0, 1, 1, 1), .num 0, .any⟩
  | .portMacsecEnable => ⟨0x6002, 0x10, 96, 1, 0x01, 1, .bool, (3, 0, 1, 1, 3), .num 0, .any⟩
  | .portMacsecContext => ⟨0x6002, 0x10, 96, 1, 0x02, 1, .u 16, (3, 0, 1, 1, 3), .num 0, .range 0 4095⟩
  | .portMacsecBypass => ⟨0x6002, 0x10, 96, 1, 0x03, 1, .oct 8, (3, 0, 1, 1, 3), .oct (0x88 :: 0x8E :: zeros 6), .own⟩
  | .portTsRxLatency => ⟨0x6003, 0x10, 96, 1, 0x01, 1, .u 32, (1, 0, 1, 1, 1), .num 0, .any⟩
  | .portTsTxLatency => ⟨0x6003, 0x10, 96, 1, 0x02, 1, .u 32, (1, 0, 1, 1, 1), .num 0, .any⟩
  | .portTsRxAdjust => ⟨0x6003, 0x10, 96, 1, 0x03, 1, .s 32, (3, 0, 1, 1, 3), .num 0, .srange (-1000000) 1000000⟩
  | .portTsTxAdjust => ⟨0x6003, 0x10, 96, 1, 0x04, 1, .s 32, (3, 0, 1, 1, 3), .num 0, .srange (-1000000) 1000000⟩
  | .portMacCounters => ⟨0x6004, 0x10, 96, 1, 0x01, 1, .oct 200, (1, 0, 1, 1, 1), .oct (zeros 200), .any⟩
  | .lgPersonality => ⟨0x6C00, 0x10, 12, 1, 0x01, 1, .u 8, (3, 0, 1, 1, 3), .num 0, .range 0 1⟩
  | .lgQuads => ⟨0x6C00, 0x10, 12, 1, 0x02, 1, .u 8, (1, 0, 1, 1, 1), .num 0, .any⟩
  | .lgFomUp => ⟨0x6C00, 0x10, 12, 1, 0x03, 1, .u 8, (3, 0, 1, 1, 3), .num 120, .any⟩
  | .lgFomAlarm => ⟨0x6C00, 0x10, 12, 1, 0x04, 1, .u 8, (3, 0, 1, 1, 3), .num 112, .any⟩
  | .lgFomRetrain => ⟨0x6C00, 0x10, 12, 1, 0x05, 1, .u 8, (3, 0, 1, 1, 3), .num 0, .any⟩
  | .lnFom => ⟨0x6C01, 0x10, 12, 8, 0x01, 8, .u 8, (1, 0, 1, 1, 1), .num 0, .any⟩
  | .lnPolarity => ⟨0x6C02, 0x10, 12, 8, 0x01, 8, .u 8, (3, 0, 1, 1, 3), .num 0, .mask 3⟩
  | .lnTxFfe => ⟨0x6C03, 0x10, 12, 8, 0x01, 8, .u 32, (3, 0, 1, 1, 3), .num 0x00FC34F8, .own⟩
  | .lnTraining => ⟨0x6C04, 0x10, 12, 8, 0x01, 8, .u 8, (1, 0, 1, 1, 1), .num 0, .any⟩
  | .fabEnable => ⟨0x6800, 0x10, 12, 1, 0x01, 1, .bool, (3, 0, 1, 1, 3), .num 0, .any⟩
  | .fabState => ⟨0x6800, 0x10, 12, 1, 0x02, 1, .u 8, (1, 0, 1, 1, 1), .num 1, .any⟩
  | .fabLanePolicy => ⟨0x6800, 0x10, 12, 1, 0x03, 1, .u 8, (3, 0, 1, 1, 3), .num 0, .range 0 1⟩
  | .fabMaxCellRate => ⟨0x6800, 0x10, 12, 1, 0x04, 1, .u 16, (3, 0, 1, 1, 3), .num 206, .range 1 206⟩
  | .fabResolved => ⟨0x6800, 0x10, 12, 1, 0x05, 1, .u 32, (1, 0, 1, 1, 1), .num 0, .any⟩
  | .fabPeerId => ⟨0x6800, 0x10, 12, 1, 0x06, 1, .u 64, (1, 0, 1, 1, 1), .num 0, .any⟩
  | .fabRebuildTimeout => ⟨0x6800, 0x10, 12, 1, 0x07, 1, .u 32, (3, 0, 1, 1, 3), .num 1000, .range 100 100000⟩
  | .fabRestart => ⟨0x6800, 0x10, 12, 1, 0x08, 1, .command, (4, 0, 0, 4, 4), .num 0, .any⟩
  | .fabRxCredits => ⟨0x6801, 0x10, 12, 16, 0x01, 16, .u 16, (3, 0, 1, 1, 3), .num 256, .own⟩
  | .fabTxCredits => ⟨0x6802, 0x10, 12, 16, 0x01, 16, .u 16, (1, 0, 1, 1, 1), .num 0, .any⟩
  | .fabTxClass => ⟨0x6803, 0x10, 12, 1, 0x01, 1, .u 64, (3, 0, 1, 1, 3), .num 0xFEDCBA9876543210, .any⟩
  | .fabRxTc => ⟨0x6803, 0x10, 12, 1, 0x02, 1, .u 64, (3, 0, 1, 1, 3), .num 0x7766554433221100, .mask 0x7777777777777777⟩
  | .fabCounters => ⟨0x6804, 0x10, 12, 1, 0x01, 1, .oct 96, (1, 0, 1, 1, 1), .oct (zeros 96), .any⟩
  | .carReorderTimeouts => ⟨0x7000, 0, 1, 1, 0x01, 1, .u 64, (1, 0, 1, 1, 1), .num 0, .any⟩
  | .carLateReleases => ⟨0x7000, 0, 1, 1, 0x02, 1, .u 64, (1, 0, 1, 1, 1), .num 0, .any⟩
  | .carPortWeight => ⟨0x7010, 0, 1, 128, 0x01, 128, .u 8, (3, 0, 1, 1, 3), .num 1, .range 1 255⟩
  | .carPortTc => ⟨0x7011, 0, 1, 128, 0x01, 128, .u 8, (3, 0, 1, 1, 3), .num 0, .own⟩
  | .carIngressOverruns => ⟨0x7012, 0, 1, 128, 0x01, 128, .u 64, (1, 0, 1, 1, 1), .num 0, .any⟩
  | .prsExcMap => ⟨0x7100, 0, 1, 32, 0x01, 32, .u 32, (3, 0, 1, 1, 3), .num 0, .own⟩
  | .prsExcCounts => ⟨0x7101, 0, 1, 32, 0x01, 32, .u 64, (1, 0, 1, 1, 1), .num 0, .any⟩
  | .prsTpidCustom => ⟨0x7102, 0, 1, 1, 0x01, 1, .u 16, (3, 0, 1, 1, 3), .num 0x0000, .orZero 0x600 0xFFFF⟩
  | .prsVxlanPort => ⟨0x7102, 0, 1, 1, 0x02, 1, .u 16, (3, 0, 1, 1, 3), .num 4789, .range 1 65535⟩
  | .prsGenevePort => ⟨0x7102, 0, 1, 1, 0x03, 1, .u 16, (3, 0, 1, 1, 3), .num 6081, .range 1 65535⟩
  | .prsMplsCwEth => ⟨0x7102, 0, 1, 1, 0x04, 1, .bool, (3, 0, 1, 1, 3), .num 1, .any⟩
  | .prsHostLoopDrops => ⟨0x7102, 0, 1, 1, 0x05, 1, .u 64, (1, 0, 1, 1, 1), .num 0, .any⟩
  | .clsKeyProfile => ⟨0x7200, 0, 1, 15, 0x01, 15, .oct 28, (3, 0, 1, 1, 3), .oct (zeros 28), .own⟩
  | .clsProfileSelect => ⟨0x7210, 0, 1, 128, 0x01, 128, .u 32, (3, 0, 1, 1, 3), .num 0x000FFFFF, .own⟩
  | .clsBlockProfile => ⟨0x7220, 0, 1, 96, 0x01, 96, .u 8, (3, 0, 1, 1, 3), .num 0xFF, .own⟩
  | .clsTcam => ⟨0x7230, 0, 1, 1, 0x01, 1, .table, (5, 0, 0, 1, 5), .num 0, .any⟩
  | .clsRewrite => ⟨0x7230, 0, 1, 1, 0x02, 1, .table, (5, 0, 0, 1, 5), .num 0, .any⟩
  | .clsMplsTtl => ⟨0x7230, 0, 1, 1, 0x03, 1, .u 8, (3, 0, 1, 1, 3), .num 64, .range 1 255⟩
  | .clsRange => ⟨0x7240, 0, 1, 128, 0x01, 4096, .u 32, (3, 0, 1, 1, 3), .num 0xFFFF0000, .any⟩
  | .clsMirror => ⟨0x7270, 0, 1, 16, 0x01, 16, .u 32, (3, 0, 1, 1, 3), .num 0, .own⟩
  | .clsNoMatch => ⟨0x7280, 0, 1, 1, 0x01, 1, .u 64, (1, 0, 1, 1, 1), .num 0, .any⟩
  | .clsActionSkipped => ⟨0x7280, 0, 1, 1, 0x02, 1, .u 64, (1, 0, 1, 1, 1), .num 0, .any⟩
  | .clsNoDestination => ⟨0x7280, 0, 1, 1, 0x03, 1, .u 64, (1, 0, 1, 1, 1), .num 0, .any⟩
  | .fwdCarving => ⟨0x7800, 0, 1, 1, 0x01, 1, .u 8, (3, 0, 1, 1, 3), .num 0, .own⟩
  | .fwdCarveState => ⟨0x7800, 0, 1, 1, 0x02, 1, .u 8, (1, 0, 1, 1, 1), .num 0, .any⟩
  | .fwdRouterMac => ⟨0x7800, 0, 1, 1, 0x03, 1, .u 64, (3, 0, 1, 1, 3), .num 0, .mask 0xFFFFFFFFFFFF⟩
  | .fwdAgeTick => ⟨0x7800, 0, 1, 1, 0x04, 1, .u 32, (3, 0, 1, 1, 3), .num 2000, .range 10 60000⟩
  | .fwdAgeLimit => ⟨0x7800, 0, 1, 1, 0x05, 1, .u 8, (3, 0, 1, 1, 3), .num 150, .any⟩
  | .fwdAgeNow => ⟨0x7800, 0, 1, 1, 0x06, 1, .u 8, (1, 0, 1, 1, 1), .num 0, .any⟩
  | .fwdLearnNotify => ⟨0x7800, 0, 1, 1, 0x07, 1, .u 32, (3, 0, 0, 1, 3), .num 0, .own⟩
  | .fwdSubLearnLimit => ⟨0x7800, 0, 1, 1, 0x08, 1, .u 32, (3, 0, 1, 1, 3), .num 0, .range 0 4194304⟩
  | .fwdTableEpoch => ⟨0x7801, 0, 1, 1, 0x01, 1, .u 32, (1, 0, 1, 1, 1), .num 0, .any⟩
  | .fwdEpochSwitch => ⟨0x7801, 0, 1, 1, 0x02, 1, .command, (4, 0, 0, 4, 4), .num 0, .any⟩
  | .fwdEpochStatus => ⟨0x7801, 0, 1, 1, 0x03, 1, .u 32, (1, 0, 1, 1, 1), .num 0, .any⟩
  | .fwdEm => ⟨0x7802, 0, 1, 1, 0x01, 1, .table, (5, 0, 0, 1, 5), .num 0, .any⟩
  | .fwdRoute4 => ⟨0x7802, 0, 1, 1, 0x02, 1, .table, (5, 0, 0, 1, 5), .num 0, .any⟩
  | .fwdRoute6 => ⟨0x7802, 0, 1, 1, 0x03, 1, .table, (5, 0, 0, 1, 5), .num 0, .any⟩
  | .fwdNexthop => ⟨0x7802, 0, 1, 1, 0x04, 1, .table, (5, 0, 0, 1, 5), .num 0, .any⟩
  | .fwdEcmp => ⟨0x7802, 0, 1, 1, 0x05, 1, .table, (5, 0, 0, 1, 5), .num 0, .any⟩
  | .fwdPortCfg => ⟨0x7810, 0, 1, 128, 0x01, 128, .u 64, (3, 0, 1, 1, 3), .num 0, .own⟩
  | .fwdPortLearnLimit => ⟨0x7811, 0, 1, 128, 0x01, 128, .u 32, (3, 0, 1, 1, 3), .num 0, .range 0 4194304⟩
  | .fwdPortLearned => ⟨0x7812, 0, 1, 128, 0x01, 128, .u 32, (1, 0, 1, 1, 1), .num 0, .any⟩
  | .fwdBd => ⟨0x7820, 0, 1, 128, 0x01, 4096, .u 32, (3, 0, 1, 1, 3), .num 0, .own⟩
  | .fwdEmValid => ⟨0x7840, 0, 1, 1, 0x01, 1, .u 32, (1, 0, 1, 1, 1), .num 0, .any⟩
  | .fwdStashUsed => ⟨0x7840, 0, 1, 1, 0x02, 1, .u 8, (1, 0, 1, 1, 1), .num 0, .any⟩
  | .fwdRoute4Valid => ⟨0x7840, 0, 1, 1, 0x03, 1, .u 32, (1, 0, 1, 1, 1), .num 0, .any⟩
  | .fwdRoute6Valid => ⟨0x7840, 0, 1, 1, 0x04, 1, .u 32, (1, 0, 1, 1, 1), .num 0, .any⟩
  | .fwdLearns => ⟨0x7841, 0, 1, 1, 0x01, 1, .u 64, (1, 0, 1, 1, 1), .num 0, .any⟩
  | .fwdLearnDrops => ⟨0x7841, 0, 1, 1, 0x02, 1, .u 64, (1, 0, 1, 1, 1), .num 0, .any⟩
  | .fwdMoves => ⟨0x7841, 0, 1, 1, 0x03, 1, .u 64, (1, 0, 1, 1, 1), .num 0, .any⟩
  | .fwdAged => ⟨0x7841, 0, 1, 1, 0x04, 1, .u 64, (1, 0, 1, 1, 1), .num 0, .any⟩
  | .fwdInsertFull => ⟨0x7841, 0, 1, 1, 0x05, 1, .u 32, (1, 0, 1, 1, 1), .num 0, .any⟩
  | .fwdNotifyDrops => ⟨0x7841, 0, 1, 1, 0x06, 1, .u 64, (1, 0, 1, 1, 1), .num 0, .any⟩
  | .fwdMemErrors => ⟨0x7841, 0, 1, 1, 0x07, 1, .u 32, (1, 0, 1, 1, 1), .num 0, .any⟩
  | .tmSharedFree => ⟨0x8000, 0, 1, 1, 0x01, 1, .u 32, (1, 0, 1, 1, 1), .num 0, .any⟩
  | .tmIresControl => ⟨0x8000, 0, 1, 1, 0x02, 1, .u 32, (3, 0, 1, 1, 3), .num 2048, .any⟩
  | .tmSnapCells => ⟨0x8000, 0, 1, 1, 0x03, 1, .u 32, (3, 0, 1, 1, 3), .num 16384, .range 0 131072⟩
  | .tmDramCells => ⟨0x8000, 0, 1, 1, 0x04, 1, .u 32, (1, 0, 1, 1, 1), .num 0, .any⟩
  | .tmDramFree => ⟨0x8000, 0, 1, 1, 0x05, 1, .u 32, (1, 0, 1, 1, 1), .num 0, .any⟩
  | .tmGateOverruns => ⟨0x8000, 0, 1, 1, 0x06, 1, .u 64, (1, 0, 1, 1, 1), .num 0, .any⟩
  | .tmQueueFlush => ⟨0x8000, 0, 1, 1, 0x07, 1, .command, (4, 0, 0, 4, 4), .num 0, .any⟩
  | .tmDrops => ⟨0x8001, 0, 1, 9, 0x01, 9, .u 64, (1, 0, 1, 1, 1), .num 0, .any⟩
  | .tmMeters => ⟨0x8002, 0, 1, 1, 0x01, 1, .table, (5, 0, 0, 1, 5), .num 0, .any⟩
  | .tmCounters => ⟨0x8002, 0, 1, 1, 0x02, 1, .table, (5, 0, 0, 1, 5), .num 0, .any⟩
  | .tmPortCfg => ⟨0x8010, 0, 1, 128, 0x01, 128, .oct 32, (3, 0, 1, 1, 3), .oct [], .own⟩
  | .tmIresShare => ⟨0x8011, 0, 1, 116, 0x01, 116, .u 32, (3, 0, 1, 1, 3), .num 512, .any⟩
  | .tmAdmProfile => ⟨0x8012, 0, 1, 128, 0x01, 256, .oct 20, (3, 0, 1, 1, 3), .oct [], .own⟩
  | .tmSnapRequest => ⟨0x8020, 0, 1, 1, 0x01, 1, .command, (4, 0, 4, 4, 4), .num 0, .any⟩
  | .tmSnapRelease => ⟨0x8020, 0, 1, 1, 0x02, 1, .command, (4, 0, 4, 4, 4), .num 0, .any⟩
  | .tmSnapStatus => ⟨0x8021, 0, 1, 4, 0x01, 4, .u 32, (1, 0, 1, 1, 1), .num 0, .any⟩
  | .tmSnapData => ⟨0x8022, 0, 1, 4, 0x01, 4, .octMax 33554432, (1, 0, 1, 1, 1), .oct [], .any⟩
  | .tmGateSwitch => ⟨0x8030, 0, 1, 1, 0x01, 1, .command, (4, 0, 0, 4, 4), .num 0, .any⟩
  | .tmGateAdmin => ⟨0x8040, 0x1, 108, 1, 0x01, 1, .octMax 8216, (3, 0, 1, 1, 3), .oct [], .own⟩
  | .tmGateOper => ⟨0x8040, 0x1, 108, 1, 0x02, 1, .octMax 8216, (1, 0, 1, 1, 1), .oct [], .any⟩
  | .tmGateState => ⟨0x8040, 0x1, 108, 1, 0x03, 1, .u 8, (1, 0, 1, 1, 1), .num 0xFF, .any⟩
  | .tmQueueCfg => ⟨0x8100, 0, 1, 128, 0x01, 131072, .oct 20, (3, 0, 1, 1, 3), .oct [], .own⟩
  | .tmSubCfg => ⟨0x8500, 0, 1, 128, 0x01, 32768, .oct 20, (3, 0, 1, 1, 3), .oct [], .own⟩
  | .tmSvcCfg => ⟨0x8600, 0, 1, 128, 0x01, 4096, .oct 20, (3, 0, 1, 1, 3), .oct [], .own⟩
  | .dramSpeed => ⟨0x9000, 0, 1, 1, 0x01, 1, .u 16, (3, 0, 1, 1, 3), .num 6400, .own⟩
  | .dramRetrainPeriod => ⟨0x9000, 0, 1, 1, 0x02, 1, .u 32, (3, 0, 1, 1, 3), .num 100, .range 10 10000⟩
  | .dramMr4Period => ⟨0x9000, 0, 1, 1, 0x03, 1, .u 32, (3, 0, 1, 1, 3), .num 16, .range 1 256⟩
  | .dramAgeLimit => ⟨0x9000, 0, 1, 1, 0x04, 1, .u 32, (3, 0, 1, 1, 3), .num 2000, .range 100 100000⟩
  | .dramFailThreshold => ⟨0x9000, 0, 1, 1, 0x05, 1, .u 16, (3, 0, 1, 1, 3), .num 16, .range 1 65535⟩
  | .dramCeAlarm => ⟨0x9000, 0, 1, 1, 0x06, 1, .u 32, (3, 0, 1, 1, 3), .num 1000, .any⟩
  | .dramCfg => ⟨0x9010, 0x10, 8, 1, 0x01, 1, .u 8, (3, 0, 1, 1, 3), .num 0, .own⟩
  | .dramAddrOrder => ⟨0x9010, 0x10, 8, 1, 0x02, 1, .u 8, (3, 0, 1, 1, 3), .num 2, .own⟩
  | .dramEnable => ⟨0x9010, 0x10, 8, 1, 0x03, 1, .bool, (3, 0, 1, 1, 3), .num 0, .any⟩
  | .dramState => ⟨0x9010, 0x10, 8, 1, 0x04, 1, .u 8, (1, 0, 1, 1, 1), .num 0, .any⟩
  | .dramCapacity => ⟨0x9010, 0x10, 8, 1, 0x05, 1, .u 32, (1, 0, 1, 1, 1), .num 0, .any⟩
  | .dramFreeCells => ⟨0x9010, 0x10, 8, 1, 0x06, 1, .u 32, (1, 0, 1, 1, 1), .num 0, .any⟩
  | .dramRefreshRate => ⟨0x9010, 0x10, 8, 1, 0x07, 1, .u 8, (1, 0, 1, 1, 1), .num 1, .any⟩
  | .dramTrainResult => ⟨0x9010, 0x10, 8, 1, 0x08, 1, .u 32, (1, 0, 1, 1, 1), .num 0, .any⟩
  | .dramRepairPending => ⟨0x9010, 0x10, 8, 1, 0x09, 1, .bool, (1, 0, 1, 1, 1), .num 0, .any⟩
  | .dramCounters => ⟨0x9011, 0x10, 8, 1, 0x01, 1, .oct 64, (1, 0, 1, 1, 1), .oct (zeros 64), .any⟩
  | .ciphCheckMode => ⟨0x9400, 0, 1, 1, 0x01, 1, .u 8, (3, 0, 1, 1, 3), .num 0, .own⟩
  | .ciphCheckFaults => ⟨0x9400, 0, 1, 1, 0x02, 1, .u 32, (1, 0, 1, 1, 1), .num 0, .any⟩
  | .ciphUnwrapFails => ⟨0x9400, 0, 1, 1, 0x03, 1, .u 32, (1, 0, 1, 1, 1), .num 0, .any⟩
  | .ciphMsPnAlarm => ⟨0x9400, 0, 1, 1, 0x04, 1, .u 64, (3, 0, 1, 1, 3), .num 0xC000000000000000, .any⟩
  | .ciphMsSaLoad => ⟨0x9400, 0, 1, 1, 0x05, 1, .command, (4, 0, 0, 0, 4), .num 0, .any⟩
  | .ciphFchKeyLoad => ⟨0x9410, 0x10, 4, 1, 0x01, 1, .command, (4, 0, 4, 0, 4), .num 0, .any⟩
  | .ciphFchDsState => ⟨0x9410, 0x10, 4, 1, 0x02, 1, .oct 32, (1, 0, 1, 1, 1), .oct (zeros 32), .any⟩
  | .ciphFchUsState => ⟨0x9410, 0x10, 4, 1, 0x03, 1, .oct 32, (1, 0, 1, 1, 1), .oct (zeros 32), .any⟩
  | .ciphFchUsActive => ⟨0x9410, 0x10, 4, 1, 0x04, 1, .u 8, (1, 0, 1, 1, 1), .num 0, .any⟩
  | .ciphFchUsKeySwitch => ⟨0x9410, 0x10, 4, 1, 0x05, 1, .command, (4, 0, 4, 0, 4), .num 0, .any⟩
  | .ciphFchUsPending => ⟨0x9410, 0x10, 4, 1, 0x06, 1, .u 64, (1, 0, 1, 1, 1), .num 0, .any⟩
  | .ciphFchKeyLimit => ⟨0x9410, 0x10, 4, 1, 0x07, 1, .u 64, (3, 0, 3, 1, 3), .num 0x0000010000000000, .range 0x100000 0x1000000000000⟩
  | .ciphFchCounters => ⟨0x9410, 0x10, 4, 1, 0x08, 1, .oct 40, (1, 0, 1, 1, 1), .oct (zeros 40), .any⟩
  | .ciphMsContext => ⟨0x9480, 0, 1, 128, 0x01, 4096, .oct 48, (3, 0, 1, 1, 3), .oct (zeros 48), .own⟩
  | .ciphMsSaState => ⟨0x9500, 0, 1, 128, 0x01, 4096, .oct 16, (1, 0, 1, 1, 1), .oct (zeros 16), .any⟩
  | .ciphMsCounters => ⟨0x9580, 0, 1, 128, 0x01, 4096, .oct 64, (1, 0, 1, 1, 1), .oct (zeros 64), .any⟩
  | .ciphLaOpen => ⟨0x9600, 0, 1, 1, 0x01, 1, .command, (4, 4, 0, 0, 0), .num 0, .any⟩
  | .ciphLaClose => ⟨0x9600, 0, 1, 1, 0x02, 1, .command, (4, 4, 0, 0, 0), .num 0, .any⟩
  | .ciphLaSubmit => ⟨0x9600, 0, 1, 1, 0x03, 1, .command, (4, 4, 0, 0, 0), .num 0, .any⟩
  | .ciphLaSessionsOpen => ⟨0x9600, 0, 1, 1, 0x04, 1, .u 16, (1, 1, 0, 1, 1), .num 0, .any⟩
  | .ciphLaCounters => ⟨0x9600, 0, 1, 1, 0x05, 1, .oct 32, (1, 0, 0, 1, 1), .oct (zeros 32), .any⟩
  | .timeNow => ⟨0x9800, 0, 1, 1, 0x01, 1, .oct 12, (1, 1, 1, 1, 1), .oct (zeros 12), .any⟩
  | .timeIncrement => ⟨0x9800, 0, 1, 1, 0x02, 1, .u 64, (3, 0, 1, 1, 3), .num 0x10000000000, .own⟩
  | .timeSource => ⟨0x9800, 0, 1, 1, 0x03, 1, .u 8, (3, 0, 1, 1, 3), .num 0, .range 0 1⟩
  | .timeStatus => ⟨0x9800, 0, 1, 1, 0x04, 1, .u 16, (1, 1, 1, 1, 1), .num 0, .any⟩
  | .timeSet => ⟨0x9800, 0, 1, 1, 0x05, 1, .command, (4, 0, 0, 4, 4), .num 0, .any⟩
  | .timeAdjust => ⟨0x9800, 0, 1, 1, 0x06, 1, .command, (4, 0, 0, 4, 4), .num 0, .any⟩
  | .timeStepThreshold => ⟨0x9800, 0, 1, 1, 0x07, 1, .u 32, (3, 0, 1, 1, 3), .num 1000000, .range 0 1000000000⟩
  | .timeSlewMax => ⟨0x9800, 0, 1, 1, 0x08, 1, .u 16, (3, 0, 1, 1, 3), .num 100, .range 1 500⟩
  | .timeRxAdjust => ⟨0x9800, 0, 1, 1, 0x09, 1, .s 32, (3, 0, 1, 1, 3), .num 0, .srange (-1000000) 1000000⟩
  | .timeLastOffset => ⟨0x9800, 0, 1, 1, 0x0A, 1, .s 64, (1, 0, 1, 1, 1), .num 0, .any⟩
  | .timeUtcOffset => ⟨0x9800, 0, 1, 1, 0x0B, 1, .s 32, (1, 1, 1, 1, 1), .num 0, .any⟩
  | .timeHeClock => ⟨0x9800, 0, 1, 1, 0x0C, 1, .u 16, (1, 0, 1, 1, 1), .num 0, .any⟩
  | .timeMsgAccepted => ⟨0x9800, 0, 1, 1, 0x0D, 1, .u 32, (1, 0, 1, 1, 1), .num 0, .any⟩
  | .timeMsgDiscards => ⟨0x9800, 0, 1, 1, 0x0E, 1, .u 32, (1, 0, 1, 1, 1), .num 0, .any⟩
  | .timeSteps => ⟨0x9800, 0, 1, 1, 0x0F, 1, .u 32, (1, 0, 1, 1, 1), .num 0, .any⟩
  | .timeFrameTs => ⟨0x9801, 0, 1, 4, 0x01, 4, .oct 20, (1, 0, 1, 1, 1), .oct (zeros 20), .any⟩
  | .timeTsRead => ⟨0x9810, 0, 1, 1, 0x01, 1, .command, (4, 0, 0, 4, 4), .num 0, .any⟩
  | .timeTsPending => ⟨0x9810, 0, 1, 1, 0x02, 1, .u 16, (1, 0, 0, 1, 1), .num 0, .any⟩
  | .timeTsOverflows => ⟨0x9810, 0, 1, 1, 0x03, 1, .u 32, (1, 0, 0, 1, 1), .num 0, .any⟩
  | .timePortPtp => ⟨0x9811, 0, 1, 96, 0x01, 96, .u 8, (3, 0, 1, 1, 3), .num 0, .mask 7⟩
  | .timeTpoCfg => ⟨0x9820, 0, 1, 16, 0x01, 16, .oct 32, (3, 0, 1, 1, 3), .oct (zeros 32), .own⟩
  | .timeTpoStart => ⟨0x9821, 0, 1, 1, 0x01, 1, .command, (4, 0, 4, 4, 4), .num 0, .any⟩
  | .timeTpoStop => ⟨0x9821, 0, 1, 1, 0x02, 1, .command, (4, 0, 4, 4, 4), .num 0, .any⟩
  | .timeTpoState => ⟨0x9822, 0, 1, 16, 0x01, 16, .u 8, (1, 0, 1, 1, 1), .num 0, .any⟩
  | .timeTpiCfg => ⟨0x9830, 0, 1, 4, 0x01, 4, .u 8, (3, 0, 1, 1, 3), .num 0, .mask 3⟩
  | .timeTpiLast => ⟨0x9831, 0, 1, 4, 0x01, 4, .oct 12, (1, 0, 1, 1, 1), .oct (zeros 12), .any⟩
  | .timeTpiMerged => ⟨0x9832, 0, 1, 4, 0x01, 4, .u 32, (1, 0, 1, 1, 1), .num 0, .any⟩
  | .timeSyncoEnable => ⟨0x9840, 0, 1, 1, 0x01, 1, .bool, (3, 0, 1, 1, 3), .num 0, .any⟩
  | .timeSyncoFreq => ⟨0x9840, 0, 1, 1, 0x02, 1, .u 32, (3, 0, 1, 1, 3), .num 10000000, .range 1000 312500000⟩
  | .timeSyncoReference => ⟨0x9840, 0, 1, 1, 0x03, 1, .u 8, (3, 0, 1, 1, 3), .num 0, .range 0 1⟩
  | .rmPendingCount => ⟨0x9900, 0, 1, 1, 0x01, 1, .u 16, (1, 0, 1, 1, 1), .num 0, .any⟩
  | .rmList => ⟨0x9900, 0, 1, 1, 0x02, 1, .octMax 8192, (1, 0, 1, 1, 1), .oct [], .any⟩
  | .rmCancel => ⟨0x9900, 0, 1, 1, 0x03, 1, .command, (4, 0, 4, 4, 4), .num 0, .any⟩
  | .rmLate => ⟨0x9900, 0, 1, 1, 0x04, 1, .u 32, (1, 0, 1, 1, 1), .num 0, .any⟩
  | .rmFailures => ⟨0x9900, 0, 1, 1, 0x05, 1, .u 32, (1, 0, 1, 1, 1), .num 0, .any⟩
  | .rmCancelled => ⟨0x9900, 0, 1, 1, 0x06, 1, .u 32, (1, 0, 1, 1, 1), .num 0, .any⟩
  | .secLifecycle => ⟨0xA000, 0, 1, 1, 0x01, 1, .u 8, (1, 0, 1, 1, 1), .num 0, .any⟩
  | .secLifecycleAdvance => ⟨0xA000, 0, 1, 1, 0x02, 1, .command, (4, 0, 0, 4, 4), .num 0, .any⟩
  | .secBootSlot => ⟨0xA000, 0, 1, 1, 0x03, 1, .u 8, (1, 0, 1, 1, 1), .num 0, .any⟩
  | .secRollback => ⟨0xA000, 0, 1, 1, 0x04, 1, .u 8, (1, 0, 1, 1, 1), .num 0, .any⟩
  | .secRollbackCommit => ⟨0xA000, 0, 1, 1, 0x05, 1, .command, (4, 0, 0, 4, 4), .num 0, .any⟩
  | .secStage1Hash => ⟨0xA000, 0, 1, 1, 0x06, 1, .oct 48, (1, 0, 1, 1, 1), .oct (zeros 48), .any⟩
  | .secStage2Hash => ⟨0xA000, 0, 1, 1, 0x07, 1, .oct 48, (1, 0, 1, 1, 1), .oct (zeros 48), .any⟩
  | .secFlashProgram => ⟨0xA000, 0, 1, 1, 0x08, 1, .command, (4, 0, 0, 0, 0), .num 0, .any⟩
  | .secIdPubkey => ⟨0xA010, 0, 1, 1, 0x01, 1, .oct 96, (1, 1, 1, 1, 1), .oct (zeros 96), .any⟩
  | .secIdChain => ⟨0xA010, 0, 1, 1, 0x02, 1, .octMax 2048, (1, 1, 1, 1, 1), .oct [], .any⟩
  | .secLmsPubkey => ⟨0xA010, 0, 1, 1, 0x03, 1, .oct 56, (1, 1, 1, 1, 1), .oct (zeros 56), .any⟩
  | .secLmsNext => ⟨0xA010, 0, 1, 1, 0x04, 1, .u 32, (1, 0, 1, 1, 1), .num 0, .any⟩
  | .secLmsBlocksUsed => ⟨0xA010, 0, 1, 1, 0x05, 1, .u 16, (1, 0, 1, 1, 1), .num 0, .any⟩
  | .secAttest => ⟨0xA020, 0, 1, 1, 0x01, 1, .command, (4, 0, 4, 4, 4), .num 0, .any⟩
  | .secAttestReport => ⟨0xA020, 0, 1, 1, 0x02, 1, .octMax 2156, (1, 0, 1, 1, 1), .oct [], .any⟩
  | .secKekAgree => ⟨0xA030, 0, 1, 1, 0x01, 1, .command, (4, 0, 4, 0, 4), .num 0, .any⟩
  | .secKekClear => ⟨0xA030, 0, 1, 1, 0x02, 1, .command, (4, 0, 4, 0, 4), .num 0, .any⟩
  | .secKekState => ⟨0xA030, 0, 1, 1, 0x03, 1, .oct 48, (1, 0, 1, 1, 1), .oct (zeros 48), .any⟩
  | .secChallenge => ⟨0xA040, 0, 1, 1, 0x01, 1, .oct 32, (1, 0, 1, 1, 1), .oct (zeros 32), .any⟩
  | .secAuthStage => ⟨0xA040, 0, 1, 1, 0x02, 1, .octMax 9628, (2, 0, 2, 2, 2), .oct [], .any⟩
  | .secOwnerEnrol => ⟨0xA040, 0, 1, 1, 0x03, 1, .command, (4, 0, 0, 4, 4), .num 0, .any⟩
  | .secOwnerLock => ⟨0xA040, 0, 1, 1, 0x04, 1, .command, (4, 0, 0, 4, 4), .num 0, .any⟩
  | .secOwnerKeys => ⟨0xA040, 0, 1, 1, 0x05, 1, .oct 96, (1, 0, 1, 1, 1), .oct (zeros 96), .any⟩
  | .secAuthIssue => ⟨0xA040, 0, 1, 1, 0x06, 1, .command, (4, 0, 0, 4, 4), .num 0, .any⟩
  | .secDebugUnlock => ⟨0xA040, 0, 1, 1, 0x07, 1, .command, (4, 0, 0, 4, 4), .num 0, .any⟩
  | .secDebugEnd => ⟨0xA040, 0, 1, 1, 0x08, 1, .command, (4, 0, 0, 4, 4), .num 0, .any⟩
  | .secDebugState => ⟨0xA040, 0, 1, 1, 0x09, 1, .u 8, (1, 0, 1, 1, 1), .num 0, .any⟩
  | .secAuthFails => ⟨0xA050, 0, 1, 1, 0x01, 1, .u 32, (1, 0, 1, 1, 1), .num 0, .any⟩
  | .secOtpFails => ⟨0xA050, 0, 1, 1, 0x02, 1, .u 32, (1, 0, 0, 1, 1), .num 0, .any⟩
  | .evrCount => ⟨0xA400, 0, 1, 1, 0x01, 1, .u 16, (1, 0, 1, 1, 1), .num 0, .any⟩
  | .evrOldestSeq => ⟨0xA400, 0, 1, 1, 0x02, 1, .u 32, (1, 0, 1, 1, 1), .num 0, .any⟩
  | .evrNextSeq => ⟨0xA400, 0, 1, 1, 0x03, 1, .u 32, (1, 0, 1, 1, 1), .num 1, .any⟩
  | .evrRead => ⟨0xA400, 0, 1, 1, 0x04, 1, .command, (4, 0, 4, 4, 4), .num 0, .any⟩
  | .evrFreeze => ⟨0xA400, 0, 1, 1, 0x05, 1, .command, (4, 0, 4, 4, 4), .num 0, .any⟩
  | .evrFreezeState => ⟨0xA400, 0, 1, 1, 0x06, 1, .u 32, (1, 0, 1, 1, 1), .num 0, .any⟩
  | .evrFreezeLimit => ⟨0xA400, 0, 1, 1, 0x07, 1, .u 32, (3, 0, 1, 1, 3), .num 1000, .range 10 10000⟩
  | .evrRepeatWindow => ⟨0xA400, 0, 1, 1, 0x08, 1, .u 32, (3, 0, 1, 1, 3), .num 1000, .range 0 10000⟩
  | .evrClear => ⟨0xA400, 0, 1, 1, 0x09, 1, .command, (4, 0, 0, 4, 4), .num 0, .any⟩
  | .evrHoldUsed => ⟨0xA400, 0, 1, 1, 0x0A, 1, .u 8, (1, 0, 1, 1, 1), .num 0, .any⟩
  | .evrLost => ⟨0xA401, 0, 1, 8, 0x01, 8, .u 32, (1, 0, 1, 1, 1), .num 0, .any⟩
  | .evrFrozenMissed => ⟨0xA402, 0, 1, 6, 0x01, 6, .u 32, (1, 0, 1, 1, 1), .num 0, .any⟩
  | .evrSrcCfg => ⟨0xA410, 0, 1, 128, 0x01, 512, .u 8, (3, 0, 1, 1, 3), .num 0x82, .own⟩
  | .fltBufCorrected => ⟨0xA420, 0, 1, 1, 0x01, 1, .u 64, (1, 0, 1, 1, 1), .num 0, .any⟩
  | .fltBufUncorrectable => ⟨0xA420, 0, 1, 1, 0x02, 1, .u 32, (1, 0, 1, 1, 1), .num 0, .any⟩
  | .fltTherm => ⟨0xA420, 0, 1, 1, 0x03, 1, .bool, (1, 0, 1, 1, 1), .num 0, .any⟩
  | .fltRailStatus => ⟨0xA420, 0, 1, 1, 0x04, 1, .u 16, (1, 0, 1, 1, 1), .num 0, .any⟩

/-- Part 0 of the list of objects, in the order of the tables. -/
def Obj.all0 : List Obj := [
  .clkTimingChannel, .clkTimingFallback, .clkTimingState, .clkHrefOffset, .clkFchState,
  .clkDomainFreq, .rstCause, .rstCauseSticky, .rstStraps, .rstStrapUnstable, .rstDevice,
  .rstInstance, .rstWatchdogPeriod, .xingClosedDiscards, .xingTimeouts, .xingMergeSaturations,
  .xingResampleFailures, .gateDrainTimeouts, .pwrState, .pwrStateRequest, .pwrDozeTimeout,
  .pwrWakeMask, .pwrWakeCause, .pwrWakeSeverity, .pwrElapsed, .pwrSleepDiscards,
  .pwrIdleGrantsIdled, .trOpTarget, .trOpActive, .trState, .trSettleTimeout, .trVcoreMeasured,
  .trThermalLimit, .idPart, .idStepping, .idGrade, .idTerminal, .idBootProgress, .idFwVersion,
  .umaniSelf, .umaniBlockTimeout, .umaniDiscards, .umaniDuplicates, .umaniBlocksAbandoned,
  .dictGroupOwner, .dictGroupClaim, .dictGroupRelease, .cfgStage, .cfgStageCommit, .cfgApply,
  .cfgApplyStatus, .cfgLastError, .cfgActiveMask, .cfgBaseHash, .cfgOwnerLocked, .cfgLockGroups,
  .cfgSlotVersion, .hifLinkState, .hifLinkSpeed, .hifLinkWidth, .hifNumVfs, .hifRingFirst,
  .hifRingCount, .hifMsixShare, .hifLeasePeriod, .hifMsixPfVectors, .hifMsixVfVectors,
  .hifRingSetup, .hifRingTeardown, .hifRingQuery, .hifDmapSet, .hifVfRings, .hifSlowpathMap,
  .hifEvtMap, .hifBadAccesses, .hifSlowpathDrops, .hifDirectDenied, .hifEventRingOverflows,
  .hifUndeliveredEvents, .hifAbandonedCells]

/-- Part 1 of the list of objects, in the order of the tables. -/
def Obj.all1 : List Obj := [
  .hifRevocations, .feEnable, .feState, .feApdTarget, .feApdIlimit, .feApdVoltage, .feApdCurrent,
  .feRxCal, .feRxPower, .feLosThreshold, .fePgaMode, .fePgaGain, .feAdcClips, .feLdMode,
  .feLdBiasOn, .feLdBiasOff, .feLdImax, .feLdMonTarget, .feLdMon, .feLdBias, .feLdLead, .feLdLag,
  .feLaserForceOff, .feLaserStatus, .feLaserRelease, .feRogueOnLimit, .feTxShape, .feTxCoeff,
  .feTxAmplitude, .feApdLimitEvents, .feRogueTrips, .hvState, .hvRearm, .hvVin, .hvBoost, .hvTemp,
  .hvWatchdogTrips, .hvLinkErrors, .dmtState, .dmtFreqOffset, .dmtAcqThreshold, .dmtLossFrames,
  .dmtWindowAdvance, .dmtEqShift, .dmtEqFreeze, .dmtProfileActive, .dmtProfileSwitch,
  .dmtProfilePending, .dmtProfileEnable, .dmtProfileMismatches, .dmtFramesSkipped, .dmtLastError,
  .dmtProfile, .dmtProfileStatus, .dmtSnrMap, .dmtSnrFrames, .dmtPilotMer, .dmtMerAvg, .dmtCwTotal,
  .dmtCwCorrected, .dmtCwUncorrectable, .dmtBitsCorrected, .dmtHdrUncorrectable, .dmtLdpcMaxIter,
  .dmtIterHist, .mgtSlEnable, .mgtCmEnable, .mgtCmSfRx, .mgtCmSfTx, .mgtTxPhy, .mgtTxLevel,
  .mgtCaptureMargin, .mgtSlThreshold, .mgtCmThreshold, .mgtTxLastAirtime, .mgtTxPackets,
  .mgtTxDrops, .mgtSlRxDetects, .mgtCmRxDetects, .mgtSlRxPackets]

/-- Part 2 of the list of objects, in the order of the tables. -/
def Obj.all2 : List Obj := [
  .mgtCmRxPackets, .mgtSlRxFalseStarts, .mgtCmRxFalseStarts, .mgtSlRxHdrFails, .mgtCmRxHdrFails,
  .mgtSlRxReserved, .mgtCmRxReserved, .mgtSlRxOther, .mgtCmRxOther, .mgtSlRxCrcErrors,
  .mgtCmRxCrcErrors, .mgtSlRxCaptured, .mgtCmRxCaptured, .mgtSlRxIgnored, .mgtCmRxIgnored,
  .mgtSlRxProbes, .mgtCmRxProbes, .mgtSlRxLastStrength, .mgtCmRxLastStrength, .frmAlignState,
  .frmFrame, .frmDefects, .frmFecDegThreshold, .frmHdrFails, .frmHdrReserved, .frmSyncLosses,
  .frmFrameJumps, .frmMapErrored, .frmMgmtDiscards, .frmEncCrcFails, .frmEncContradictions,
  .frmChainDiscards, .frmErroredDiscards, .frmUnknownStream, .frmLabelDiscards, .frmKeyDiscards,
  .frmFcsErrors, .frmPayloads, .frmTestPayloads, .frmTestBytes, .frmPmEs, .frmPmSes, .frmPmUas,
  .frmPmSuppressed, .frmPmErroredFrames, .frmPmAvailable, .frmStreamTable, .circTimingSource,
  .circTimingWindow, .circTimingOffset, .circLoadDs, .circLoadUs, .circRejects, .circConfig,
  .circStatus, .circCounters, .actState, .actHandle, .actEqd, .actMode, .actCapsAllowed,
  .actPhyMargin, .actUsPreamble, .actAnnounceTimeout, .actRangeTimeout, .actHoldTimeout,
  .actDozeCycle, .actDozeAwake, .actQualityAuto, .actLastRefusal, .actRestart, .actDozeState,
  .actMsgDiscards, .actMsgIllegal, .actAnnounces, .actRefusals, .actWindowSkips, .actMgtRefused,
  .actGrants, .actGrantCheckFails]

/-- Part 3 of the list of objects, in the order of the tables. -/
def Obj.all3 : List Obj := [
  .actGrantsIgnored, .actGrantsInvalid, .actGrantsClipped, .actGrantsOverlap, .actGrantsShort,
  .actGrantsIdle, .actBurstsEqdDropped, .actInbandDrops, .actAlloc, .portEnable, .portMode,
  .portMedium, .portAdvertise, .portFecRequest, .portMaxFrame, .portState, .portResolved,
  .portRestart, .portEeeEnable, .portLldpMode, .portEeeTxIdle, .portEeeTwTx, .portEeeState,
  .portMacsecEnable, .portMacsecContext, .portMacsecBypass, .portTsRxLatency, .portTsTxLatency,
  .portTsRxAdjust, .portTsTxAdjust, .portMacCounters, .lgPersonality, .lgQuads, .lgFomUp,
  .lgFomAlarm, .lgFomRetrain, .lnFom, .lnPolarity, .lnTxFfe, .lnTraining, .fabEnable, .fabState,
  .fabLanePolicy, .fabMaxCellRate, .fabResolved, .fabPeerId, .fabRebuildTimeout, .fabRestart,
  .fabRxCredits, .fabTxCredits, .fabTxClass, .fabRxTc, .fabCounters, .carReorderTimeouts,
  .carLateReleases, .carPortWeight, .carPortTc, .carIngressOverruns, .prsExcMap, .prsExcCounts,
  .prsTpidCustom, .prsVxlanPort, .prsGenevePort, .prsMplsCwEth, .prsHostLoopDrops, .clsKeyProfile,
  .clsProfileSelect, .clsBlockProfile, .clsTcam, .clsRewrite, .clsMplsTtl, .clsRange, .clsMirror,
  .clsNoMatch, .clsActionSkipped, .clsNoDestination, .fwdCarving, .fwdCarveState, .fwdRouterMac,
  .fwdAgeTick]

/-- Part 4 of the list of objects, in the order of the tables. -/
def Obj.all4 : List Obj := [
  .fwdAgeLimit, .fwdAgeNow, .fwdLearnNotify, .fwdSubLearnLimit, .fwdTableEpoch, .fwdEpochSwitch,
  .fwdEpochStatus, .fwdEm, .fwdRoute4, .fwdRoute6, .fwdNexthop, .fwdEcmp, .fwdPortCfg,
  .fwdPortLearnLimit, .fwdPortLearned, .fwdBd, .fwdEmValid, .fwdStashUsed, .fwdRoute4Valid,
  .fwdRoute6Valid, .fwdLearns, .fwdLearnDrops, .fwdMoves, .fwdAged, .fwdInsertFull,
  .fwdNotifyDrops, .fwdMemErrors, .tmSharedFree, .tmIresControl, .tmSnapCells, .tmDramCells,
  .tmDramFree, .tmGateOverruns, .tmQueueFlush, .tmDrops, .tmMeters, .tmCounters, .tmPortCfg,
  .tmIresShare, .tmAdmProfile, .tmSnapRequest, .tmSnapRelease, .tmSnapStatus, .tmSnapData,
  .tmGateSwitch, .tmGateAdmin, .tmGateOper, .tmGateState, .tmQueueCfg, .tmSubCfg, .tmSvcCfg,
  .dramSpeed, .dramRetrainPeriod, .dramMr4Period, .dramAgeLimit, .dramFailThreshold, .dramCeAlarm,
  .dramCfg, .dramAddrOrder, .dramEnable, .dramState, .dramCapacity, .dramFreeCells,
  .dramRefreshRate, .dramTrainResult, .dramRepairPending, .dramCounters, .ciphCheckMode,
  .ciphCheckFaults, .ciphUnwrapFails, .ciphMsPnAlarm, .ciphMsSaLoad, .ciphFchKeyLoad,
  .ciphFchDsState, .ciphFchUsState, .ciphFchUsActive, .ciphFchUsKeySwitch, .ciphFchUsPending,
  .ciphFchKeyLimit, .ciphFchCounters]

/-- Part 5 of the list of objects, in the order of the tables. -/
def Obj.all5 : List Obj := [
  .ciphMsContext, .ciphMsSaState, .ciphMsCounters, .ciphLaOpen, .ciphLaClose, .ciphLaSubmit,
  .ciphLaSessionsOpen, .ciphLaCounters, .timeNow, .timeIncrement, .timeSource, .timeStatus,
  .timeSet, .timeAdjust, .timeStepThreshold, .timeSlewMax, .timeRxAdjust, .timeLastOffset,
  .timeUtcOffset, .timeHeClock, .timeMsgAccepted, .timeMsgDiscards, .timeSteps, .timeFrameTs,
  .timeTsRead, .timeTsPending, .timeTsOverflows, .timePortPtp, .timeTpoCfg, .timeTpoStart,
  .timeTpoStop, .timeTpoState, .timeTpiCfg, .timeTpiLast, .timeTpiMerged, .timeSyncoEnable,
  .timeSyncoFreq, .timeSyncoReference, .rmPendingCount, .rmList, .rmCancel, .rmLate, .rmFailures,
  .rmCancelled, .secLifecycle, .secLifecycleAdvance, .secBootSlot, .secRollback,
  .secRollbackCommit, .secStage1Hash, .secStage2Hash, .secFlashProgram, .secIdPubkey, .secIdChain,
  .secLmsPubkey, .secLmsNext, .secLmsBlocksUsed, .secAttest, .secAttestReport, .secKekAgree,
  .secKekClear, .secKekState, .secChallenge, .secAuthStage, .secOwnerEnrol, .secOwnerLock,
  .secOwnerKeys, .secAuthIssue, .secDebugUnlock, .secDebugEnd, .secDebugState, .secAuthFails,
  .secOtpFails, .evrCount, .evrOldestSeq, .evrNextSeq, .evrRead, .evrFreeze, .evrFreezeState,
  .evrFreezeLimit]

/-- Part 6 of the list of objects, in the order of the tables. -/
def Obj.all6 : List Obj := [
  .evrRepeatWindow, .evrClear, .evrHoldUsed, .evrLost, .evrFrozenMissed, .evrSrcCfg,
  .fltBufCorrected, .fltBufUncorrectable, .fltTherm, .fltRailStatus]

/-- Every object. -/
def Obj.all : List Obj :=
  Obj.all0 ++ Obj.all1 ++ Obj.all2 ++ Obj.all3 ++ Obj.all4 ++ Obj.all5 ++ Obj.all6

/-- The subindices an object takes at one of its indices: the last index holds what is left of the elements. -/
def Row.subsAt (r : Row) (idx : Nat) : Nat :=
  let off := idx - r.base
  min r.per (r.num - (if r.stride = 0 then off else off % r.stride) * r.per)

/-- Whether an index holds elements of an object. -/
def Row.hasIndex (r : Row) (idx : Nat) : Bool :=
  decide (r.base ≤ idx) &&
  (let off := idx - r.base
   if r.stride = 0 then decide (off < ceilDiv r.num r.per)
   else decide (off / r.stride < r.count) && decide (off % r.stride < ceilDiv r.num r.per))

/-- Instance and element of an object at an index and subindex. -/
def Row.locate (r : Row) (idx sub : Nat) : Option (Nat × Nat) :=
  if r.hasIndex idx && decide (r.sub ≤ sub) then
    let off := idx - r.base
    let i := if r.stride = 0 then 0 else off / r.stride
    let k := if r.stride = 0 then off else off % r.stride
    let j := k * r.per + (sub - r.sub)
    if sub - r.sub < r.per ∧ j < r.num then some (i, j) else none
  else none

/-- Index and subindex of an element, as one number: index × 256 + subindex. -/
def Obj.key (o : Obj) (i j : Nat) : Nat :=
  (o.row.base + o.row.stride * i + j / o.row.per) * 256 + o.row.sub + j % o.row.per

/-- Index of an element. -/
def Obj.index (o : Obj) (i j : Nat) : Nat := o.row.base + o.row.stride * i + j / o.row.per

/-- Subindex of an element. -/
def Obj.subOf (o : Obj) (j : Nat) : Nat := o.row.sub + j % o.row.per

/-- The first object of a list found at an index and subindex. -/
def Obj.findIn : List Obj → Nat → Nat → Option (Obj × Nat × Nat)
  | [], _, _ => none
  | o :: r, idx, sub =>
    match o.row.locate idx sub with
    | some (i, j) => some (o, i, j)
    | none => Obj.findIn r idx sub

/-- The object at an index and subindex. -/
def Obj.find (idx sub : Nat) : Option (Obj × Nat × Nat) := Obj.findIn Obj.all idx sub

/-- Whether some object occupies an index (R134). -/
def indexExists (idx : Nat) : Bool := Obj.all.any fun o => o.row.hasIndex idx

/-- Highest subindex of an index: what subindex 0 of the ARRAY or RECORD reads (R137, Table 5.2). -/
def highestSub (idx : Nat) : Nat :=
  Obj.all.foldl (fun m o => if o.row.hasIndex idx then max m (o.row.sub + o.row.subsAt idx - 1) else m) 0

/-- Event sources with default severity 7, 6 and 5 (Table 22.3); every other source has 2. -/
def defaultSeverity (s : Nat) : Nat :=
  let k := s % 16
  let link := decide (64 ≤ s) && decide (s < 128)
  let fch := decide (128 ≤ s) && decide (s < 192)
  if s = 0 ∨ s = 2 ∨ s = 464 ∨ s = 466 then 7
  else if s = 6 ∨ s = 26 ∨ (fch ∧ k = 2) ∨ s = 424 ∨ s = 462 ∨ s = 496 ∨ s = 505 ∨ s = 506 ∨ s = 508 then 6
  else if s = 4 ∨ s = 17 ∨ s = 19 ∨ (link ∧ (k = 4 ∨ k = 6)) ∨ (fch ∧ (k = 5 ∨ k = 11 ∨ k = 12))
      ∨ s = 354 ∨ s = 369 ∨ (400 ≤ s ∧ s ≤ 415) ∨ s = 416 ∨ s = 434 ∨ s = 449 ∨ s = 450 ∨ s = 457
      ∨ s = 465 ∨ s = 480 ∨ s = 482 ∨ s = 483 ∨ s = 484 ∨ s = 486 ∨ s = 487 ∨ s = 498 ∨ s = 499
      ∨ s = 507 ∨ s = 509 then 5
  else 2

/-- Default disposition of an exception reason (Tables 15.3 and 16.4): 0 slow path, 1 drop, 2 continue. -/
def defaultDisposition (r : Nat) : Nat :=
  if r = 5 ∨ r = 6 ∨ r = 16 ∨ r = 17 then 2 else if r = 21 ∨ r = 22 then 1 else 0

/-- Default of a port node's record (Table 17.2). -/
def defaultPortCfg (q : Nat) : List Byte :=
  beBytes 8 0 ++ beBytes 1 (if q < 108 then 24 else if q < 112 then 8 else 0) ++ [0xFF, 0, 0] ++ List.replicate 8 1
    ++ beBytes 4 (if q < 116 then 8 * q else 0xFFFFFFFF) ++ zeros 8

/-- Default of a node record (R474): parent and CTRL; unshaped, with WEIGHT 1. -/
def defaultNode (parent ctrl : Nat) : List Byte :=
  beBytes 4 parent ++ zeros 8 ++ [1] ++ beBytes 1 ctrl ++ zeros 6

/-- Default of an element (R19). Profile slot 0 is built in (R242); event sources take the severities of Table 22.3; the nodes
of the hierarchy are those of R474. -/
def Obj.dflt (o : Obj) (_i j : Nat) : Val :=
  match o with
  | .evrSrcCfg => .num (0x80 + defaultSeverity j)
  | .prsExcMap => .num (defaultDisposition j * 256 + j % 64)
  | .tmPortCfg => .oct (defaultPortCfg j)
  | .tmAdmProfile => .oct (beBytes 4 64 ++ beBytes 4 65536 ++ beBytes 4 49152 ++ beBytes 4 32768 ++ [8, 0, 0, 0])
  | .tmQueueCfg => .oct (if j < 928 then defaultNode (j / 8) (0x80 + j % 8 * 8) else defaultNode 0 0)
  | .tmSubCfg => .oct (defaultNode (if j < 116 then j else 0) 0)
  | .tmSvcCfg => .oct (defaultNode (if j < 116 then j else 0) 0)
  | .fabState => .num 1
  | .tmGateAdmin => .oct (zeros 24)
  | .tmGateOper => .oct (zeros 24)
  | .dmtProfileStatus => .num (if j = 0 then 0xE0000121 else 0)
  | _ => o.row.dflt

/-- The access letters of an element for the five kinds of requester: slot 0 of the DMT profiles is read-only. -/
def Obj.acc (o : Obj) (j : Nat) : Nat × Nat × Nat × Nat × Nat :=
  match o with
  | .dmtProfile => if j = 0 then (1, 0, 1, 1, 1) else o.row.acc
  | _ => o.row.acc

end Sys2Proof.Machine
end

