-- ==== Sys2Proof/Machine/Parts.lean ====
section
/-!
DEFINITION. The parts of the state that are not dictionary objects, chapter by chapter.
-/
namespace Sys2Proof.Machine

/-! Dictionary server and Umani paths (spec/05). -/

/-- A request whose answer is owed: where it came from and what its response echoes (R142). -/
structure Call where
  o : Origin
  op : Nat
  index : Nat
  sub : Nat
  deriving DecidableEq, Repr

/-- A response (R142): the request it echoes, its ABORT, its LAST flag, its OFFSET and its DATA. -/
structure Resp where
  call : Call
  abort : Nat
  last : Bool
  offset : Nat
  data : List Byte
  deriving DecidableEq, Repr

/-- What one path keeps for its requester: the last 16 responses sent, newest first (R146), and the
requests in progress (R145). -/
structure UPathSt where
  sent : List Resp
  busy : List Call
  deriving DecidableEq, Repr

/-- An open block write (R147): its object, its requester's code, the next OFFSET and the bytes so far. -/
structure BlockWrite where
  key : Nat
  code : Nat
  next : Nat
  data : List Byte
  deriving DecidableEq, Repr

/-- A copy held for block reads (R149). -/
structure BlockCopy where
  key : Nat
  code : Nat
  data : List Byte
  deriving DecidableEq, Repr

/-- One entry of a configuration image (Table 5.11). -/
structure ImgEntry where
  index : Nat
  sub : Nat
  ty : Nat
  value : List Byte
  deriving DecidableEq, Repr

/-- A committed image in a slot (Table 5.10). An empty slot has version 0. -/
structure Image where
  version : Nat
  binding : List Byte
  hash : List Byte
  entries : List ImgEntry
  deriving DecidableEq, Repr

/-- Configuration (R160 to R170): the overlay slots 1 to 64, the active and standby bases, the pending
application (which slots it activates, whether it switches the base) and its answer owed, the configuration epoch, and for each
earlier epoch the values that the next application changed, for the packets that still carry it (R45). -/
structure Cfg where
  slots : SMap Image
  base : Image
  standby : Image
  mask : Nat
  pendMask : Nat
  pendSwitch : Bool
  pendCall : Option Call
  epoch : Nat
  past : SMap (SMap (Option Val))
  deriving DecidableEq, Repr

/-! Event recorder (spec/22). -/

/-- An occurrence of an event on its way to the recorder (R616): source, CODE, INSTANCE, the two
arguments, its time, and whether the time was unsynchronised. -/
structure Occ where
  src : Nat
  code : Nat
  inst : Nat
  arg0 : Nat
  arg1 : Nat
  secs : Nat
  ns : Nat
  unsync : Bool
  deriving DecidableEq, Repr

/-- An event record (Table 22.1). -/
structure Record where
  src : Nat
  sev : Nat
  cpx : Nat
  seq : Nat
  secs : Nat
  ns : Nat
  rep : Nat
  flags : Nat
  code : Nat
  inst : Nat
  arg0 : Nat
  arg1 : Nat
  deriving DecidableEq, Repr

/-- The recorder: records held, oldest first; the holding area, in arrival order (R620); the holder
of a freeze; whether event 482 was raised in it; and the second of the last event 480 (R617). -/
structure Recorder where
  recs : List Record
  hold : List Record
  frozen : Option Nat
  fullRaised : Bool
  lastDrop : Option Nat
  deriving DecidableEq, Repr

/-! Ringmaster and time (spec/20). -/

/-- When a pending action fires (R44, R570). -/
inductive Trig where
  | now
  | frame (f : Nat)
  | time (secs ns : Nat)
  deriving DecidableEq, Repr

/-- A pending Ringmaster action (Tables 20.5 and 20.6): its slot, kind, target, trigger, armer's
code, whether it is committed, the objects it will change (R47), its kind's own numbers, and the
sub-ticks that had passed when it was armed. -/
structure Action where
  slot : Nat
  kind : Nat
  target : Nat
  trig : Trig
  code : Nat
  committed : Bool
  holds : List Nat
  arg : List Nat
  armed : Nat
  deriving DecidableEq, Repr

/-- A pulse train (R567): running, when its latest pulse began in units of 2⁻⁴⁰ ns, the pulses begun, whether one is in progress, and whether a stop has
come. -/
structure PulseTrain where
  running : Bool
  at' : Int
  begun : Nat
  high : Bool
  stopping : Bool
  deriving DecidableEq, Repr

/-- The time complex (R553 to R569): the 80-bit time with its 40-bit fraction, the increment in force,
the remainder of a slew in units of 2⁻⁴⁰ ns, settings waiting for the next sub-tick, sub-ticks
since the last frame mark (R646) and since reset, whether a host has written the time, the timestamp queue, pulse trains, the frequency and reference that SYNCO is driven with, and the seconds in which rate-limited events were last raised. -/
structure TimeSt where
  secs : Nat
  ns : Nat
  frac : Nat
  slew : Int
  setPend : Option (Nat × Nat × Nat)
  stepPend : Option Int
  slewPend : Option Int
  incPend : Option Nat
  incNow : Nat
  sub : Nat
  ticks : Nat
  hostWrote : Bool
  tsq : List (List Byte)
  trains : SMap PulseTrain
  tpiLast : SMap Nat
  lastEvt : SMap Nat
  synco : Option (Nat × Nat)
  circRef : Int
  deriving DecidableEq, Repr

/-! Pins, clocks, resets, power (spec/02 to spec/04). -/

/-- Pins and the resets they hold (R64 to R93). `aonOn`: the AON clock runs. `straps`: the pairs of strap samples that no value has been
accepted from (R64). `hvin`: HVIN has risen above 10.5 V and has not fallen below 10.0 V since (Table 7.3). -/
structure Pins where
  porstN : Bool
  pgCore : Bool
  href : Bool
  aonOn : Bool
  pwrreqN : Bool
  thermN : Bool
  straps : List (Nat × Nat)
  hvin : Bool
  deriving DecidableEq, Repr

/-- Resets asserted, the commanded reset that waits for its response (R93), instance resets in progress as kind × 256 + number (R94),
scopes whose crossings are Closed (R96: 0 every crossing, kind × 256 + number an instance, 0x600 the management cores, 0x700 + n a link,
0x800 + link × 64 + function a function), the gates by domain that are draining (1) or closed (2) or that an instance reset has opened while they
were closed (3) or draining (4) (R95, R102, R104), whether HREF is lost (R86), whether TRST_N has reset the TAP, the rate of TCK in kHz, the
timing PLL's ratio as parts per 10⁹ above nominal (R82), the last accepted value and the run of disagreeing pairs of each value crossing
(R101), and the requests held at a gate (R102, R105). -/
structure Clk where
  devReset : Bool
  supplyHeld : Bool
  coreReset : Bool
  cmdReset : Option Call
  insts : List Nat
  closed : List Nat
  gates : SMap Nat
  hrefLost : Bool
  tapReset : Bool
  tck : Nat
  timPll : Int
  values : SMap (Nat × Nat)
  held : List Call
  deriving DecidableEq, Repr

/-- A power-state entry in progress (R113 to R116): its answer owed, its target, and the channels whose
doze answer is awaited. -/
structure PwrReq where
  call : Call
  target : Nat
  waits : List Nat
  deriving DecidableEq, Repr

/-- The entry record that VDD_AON keeps (R109): frame number and time at entry. -/
structure Retained where
  frame : Nat
  secs : Nat
  ns : Nat
  deriving DecidableEq, Repr

/-- The power-state controller and Tightrope (R108 to R130). -/
structure Pwr where
  req : Option PwrReq
  entry : Retained
  seen : Nat
  elapsedDue : Bool
  setDue : Bool
  sleptSecs : Nat
  floor : Nat
  hot : Bool
  clkPoint : Nat
  voltPoint : Nat
  moveTo : Option Nat
  moveCall : Option Call
  deriving DecidableEq, Repr

/-! Host interface (spec/06). -/

/-- A function of a host link (R178 to R199): lease epoch, whether the lease lives, the µs it has left and the period in ms of its last
renewal, mailbox slots' BUSY and DONE bits, MBX_IRQ, the mailbox slots' bytes, direct-mapped slots, the MSI-X enable and function mask bits, and
the configuration dwords written, each one above its writable bits. -/
structure Fn where
  epoch : Nat
  live : Bool
  remain : Nat
  period : Nat
  busy : Nat
  done : Nat
  irq : Nat
  resp : SMap (List Byte)
  dmap : SMap Nat
  msixOn : Bool
  msixMask : Bool
  cfg : SMap Nat
  deriving DecidableEq, Repr

/-- A device ring (R183 to R192): state, error status, its setup argument, indices, posted
descriptors not yet finished, and completions since the last message. -/
structure Ring where
  state : Nat
  err : Nat
  setup : List Byte
  hostIx : Nat
  devIx : Nat
  posted : List Desc
  unsig : Nat
  deriving DecidableEq, Repr

/-- An MSI-X vector: mask and pending bits, and the address and data of its table entry (R194). -/
structure Vec where
  masked : Bool
  pend : Bool
  addr : Nat
  data : Nat
  deriving DecidableEq, Repr

/-- A host link: PERST_N[n], VF Enable and the vectors of each VF (R193). -/
structure Link where
  perstN : Bool
  vfEnable : Bool
  vfVecs : Nat
  inL1 : Bool
  deriving DecidableEq, Repr

/-! Fibre channels (spec/07 to spec/12). -/

/-- A complex number in units of 2⁻²⁴. -/
structure Cx where
  re : Int
  im : Int
  deriving DecidableEq, Repr

/-- A frame on its way from the DMT receiver to the framer (R235, R252): whether its header codeword converged, the 242 bytes of that, the
information bytes of its data codewords, still scrambled, and the codewords that did not converge. -/
structure DecFrame where
  conv : Bool
  hdr : List Byte
  pay : List Byte
  bad : List Nat
  deriving DecidableEq, Repr

/-- A DMT receiver (spec/08): the frames since Acquire began, up to 4; the channel estimate of subcarriers 16 to 1,983, the window advance of the
present frame, the last 8 periods between training pairs in 2⁻¹⁶ samples, newest first, the passing frames in a row up to 8, each with its frequency
estimate and whether its header converged, the failing frames in a row, the slope of pilot phase in 2⁻²⁴ radians per subcarrier (R237), the frames,
signal sums, noise sums and pilot sums of the present SNR period (R239), and the frames that wait for the framer, oldest first. -/
structure DmtRx where
  acq : Nat
  taps : List Cx
  adv : Nat
  periods : List Nat
  run : List (Int × Bool)
  fails : Nat
  slope : Int
  frames : Nat
  sig : List Nat
  noise : List Nat
  pilot : Nat × Nat
  dec : List DecFrame
  deriving DecidableEq, Repr

/-- A control-link command the HV die has not acknowledged (R210): the object value it carries, how often it was sent and its answer owed. -/
structure HvCmd where
  obj : Obj
  value : Nat
  sent : Nat
  call : Call
  deriving DecidableEq, Repr

/-- A management-band reception (R271 to R276): its strength over the detecting symbols and refined, in
0.25 dB, whether its delimiter was found, whether its header passed, and the 32 bits of that header. -/
structure Rx where
  strength : Nat
  refined : Nat
  delim : Bool
  passed : Bool
  hdr : Nat
  deriving DecidableEq, Repr

/-- One receive path: the current reception and the standby (R273, R274). -/
structure RxPath where
  cur : Option Rx
  standby : Option Rx
  deriving DecidableEq, Repr

/-- A queued management packet (R279): Lemow or Umani, the PHY it leaves on (0 Starlight, 1 Comet,
2 the one MGT_TX_PHY names when it starts), its payload. -/
structure TxPkt where
  lemow : Bool
  phy : Nat
  data : List Byte
  deriving DecidableEq, Repr

/-- A fragment chain (R301): stream, KEY, LABEL, its ORDINAL and first frame (R529), the configuration and table epochs of that
frame (R45), bytes so far, frames since it was extended, and whether a byte lay in an uncorrectable codeword. -/
structure Chain where
  stream : Nat
  key : Nat
  label : Nat
  ord : Nat
  frame : Nat
  cfgEpoch : Nat
  tblEpoch : Nat
  data : List Byte
  age : Nat
  errored : Bool
  deriving DecidableEq, Repr

/-- A fragment cut at an area's end (R300): its stream and the payload bytes still to come. -/
structure Cut where
  stream : Nat
  rest : Nat
  deriving DecidableEq, Repr

/-- A window (R344): KIND, PHY, SF, START_FRAME, START_UNIT, DURATION, PRE_EQD. -/
structure Window where
  kind : Nat
  phy : Nat
  sf : Nat
  frame : Nat
  unit : Nat
  dur : Nat
  preEqd : Nat
  deriving DecidableEq, Repr

/-- A scheduled burst (R354): upstream frame, allocation, first unit, units, MGMT flag, the delay it was
scheduled with, the service node it was bound to then (none: it is filled with idle), and whether it has been sent. -/
structure Burst where
  frame : Nat
  alloc : Nat
  start : Nat
  len : Nat
  mgmt : Bool
  eqd : Nat
  svc : Option Nat
  sent : Bool
  deriving DecidableEq, Repr

/-- The grants decoded for an upstream frame (R335, R354): the frame, how many, the delay they share, the units that those
taken occupy, and the allocations that service nodes were bound to when its first was decoded (R477), each with its node. -/
structure Grants where
  frame : Nat
  num : Nat
  eqd : Nat
  taken : List (Nat × Nat)
  bound : List (Nat × Nat)
  deriving DecidableEq, Repr

/-- The performance data of a channel or circuit (R311, R312): whether counting has begun, errored frames
and a defect in the present second, and the classes (ES, SES) of the seconds not yet committed. -/
structure Pm where
  started : Bool
  errored : Nat
  defect : Bool
  seconds : List (Bool × Bool)
  deriving DecidableEq, Repr

/-- A fibre channel. Front end: rogue latch (0 none, 1 monitor current, 2 on-limit), the transmit settings in force and
those of the last frame mark (R208), whether a laser bias setting waits for the next burst, the FE_LD_MODE and FE_LD_IMAX in force (R221), the receive gain that the loop has set
(R204), burst-enable, the sub-ticks that a PAM4 burst still holds it, how long the carrier has been high in µs up to 100 (R219), the power-control clamp, the unacknowledged HV commands.
DMT: the receiver's own state, and the profile epoch of the last mismatch event. Management band: the three receive
paths (Starlight, Comet 2^12, Comet 2^SF_RX), the queue, the air time of the packet on air, strengths of the last packets
and when the last Starlight packet came. Framer: presync count, expected number, failure run, the number the marks
carry, whether the last frame passed, chains, cut, runs and windows. Activation: whether ranged, EQD taken, a
delay waiting, windows, ANNOUNCE attempts and windows to skip, the last SELECT, the mode to apply and its frame, the first frame of the mode in force and its predecessor's US_FEC_OFF,
hold-off, retained parameters, doze figures, bursts, the cut remainder of each allocation, the in-band queue,
the frame of the last MGMT grant, the grants decoded for the last upstream frame, and the changes of the
allocation table not yet in force (allocation, added, first map frame). snrUncorr is the uncorrectable codewords of the last
complete period and snrBase the counter at its end. `pll` is the fibre PLL's ratio as parts per 10⁹ above nominal and `ratios` the offsets of
the last 1,000 frames in Locked, newest first (R82). -/
structure Fch where
  rogue : Nat
  txSet : Nat × List Byte × Nat
  txNext : Nat × List Byte × Nat
  ldPend : Bool
  ldNow : Nat × Nat
  pga : Nat
  burstOn : Bool
  burstLeft : Nat
  laserAge : Nat
  apcClamped : Bool
  hvPend : List HvCmd
  refValid : Bool
  missEpoch : Option Nat
  snrUncorr : Nat
  snrBase : Nat
  rx : SMap RxPath
  txq : List TxPkt
  onAir : Option Nat
  slStrength : Nat
  slAt : Option (Nat × Nat)
  cm12 : Nat
  cmSfNow : Nat
  slOn : Bool
  cmOn : Bool
  presync : Nat
  expected : Nat
  failRun : Nat
  outFrames : Nat
  marks : Bool
  walked : Bool
  area : List Byte
  areaAt : Nat
  areaFrame : Nat
  areaCfg : Nat
  areaTbl : Nat
  areaBad : List Nat
  ords : SMap Nat
  authEpoch : Option Nat
  chains : List Chain
  cut : Option Cut
  skipCont : Bool
  aisRun : Nat
  aisPrev : Nat
  okRun : Nat
  aisNow : Bool
  fecCount : Nat
  fecClear : Nat
  losRaw : Bool
  pm : Pm
  unranged : Bool
  eqdTaken : Bool
  windows : List Window
  attempt : Nat
  skips : Nat
  select : Option Nat
  modePend : Option (Nat × Nat)
  fecWas : Nat × Bool
  holdoff : Bool
  retHandle : Nat
  retAllocs : List Nat
  retEqd : Nat
  dozeAwake : Nat
  dozeCycle : Nat
  dozeStart : Nat
  bursts : List Burst
  cuts : SMap (List Byte)
  inq : List TxPkt
  mgmtAt : Option Nat
  grants : Grants
  allocPend : List (Nat × Bool × Nat)
  seqNo : Nat
  resumed : Bool
  pll : Int
  ratios : List Int
  dmt : DmtRx
  deriving DecidableEq, Repr

/-! Forwarding and traffic management (spec/15 to spec/17). -/

/-- Where a packet goes after forwarding: a queue, a port by its default queues, a host's slow path, or a circuit.
The colour is 0 green, 1 yellow, 2 red; `data` is the packet as stored and `out` as it leaves (R438). A red packet under
RED_DROP is `dropped`. -/
inductive Fate where
  | queue (q colour : Nat) (data out : List Byte)
  | port (p tc colour : Nat) (data out : List Byte)
  | host (link code tc : Nat) (metaw : Nat) (data : List Byte)
  | circuit (c : Nat) (data : List Byte)
  | dropped (reason : Nat)
  deriving DecidableEq, Repr

/-- A packet in forwarding: number, ingress port, traffic class, place in its order domain, cluster, configuration and table
epochs (R45), checksum flags, stream and channel of a fibre packet, circuit of a pseudowire, start node (0 Ethernet, 1 IP,
2 pseudowire), fabric class, its bytes, and its fates once its cluster has finished it (none at all is a void). -/
structure Pkt where
  id : Nat
  port : Nat
  tc : Nat
  seq : Nat
  cluster : Nat
  cfgEpoch : Nat
  tblEpoch : Nat
  ipBad : Bool
  l4Bad : Bool
  stream : Option (Nat × Nat)
  circuit : Nat
  start : Nat
  cls : Nat
  data : List Byte
  done : Option (List Fate)
  deriving DecidableEq, Repr

/-- A queued learn (R458): bridge domain, MAC, ingress port, and the configuration epoch of its packet (R45). -/
structure Learn where
  bd : Nat
  mac : Nat
  port : Nat
  cfgEpoch : Nat
  deriving DecidableEq, Repr

/-- Where a table command comes from: a request whose answer is owed, or a table command ring. -/
inductive TblFrom where
  | call (c : Call)
  | ring (r : Nat)
  deriving DecidableEq, Repr

/-- A FLUSH in progress (R465): where it came from, its command and the entries it has removed. -/
structure Flush where
  src : TblFrom
  cmd : List Byte
  removed : Nat
  deriving DecidableEq, Repr

/-- Forwarding: packets waiting for dispatch, packets dispatched and not released, packet count, the next cluster, the
ingress port being served and what is left of its turn (R38), next sequence and next release of each order domain, queued
learns, table locks as requester code + 1, flushes, whether a table epoch drains, whether the stash and each limit have
raised their events (R456, R459), and the carving being changed to. -/
structure Fwd where
  waiting : List Pkt
  flight : List Pkt
  count : Nat
  cluster : Nat
  turn : Nat
  turnLeft : Nat
  seqNext : SMap Nat
  relNext : SMap Nat
  learns : List Learn
  locks : SMap Nat
  flushes : List Flush
  stashHot : Bool
  limitHot : SMap Bool
  carveTo : Option Nat
  deriving DecidableEq, Repr

/-- A packet in a queue: bytes as stored and as they leave (R438), whether it lies in DRAM and its cells there as 8·k + c for cell k of channel c (R514), the bursts
whose reads, once asked for, have not returned (R497), its colour, the label and
stream it takes upstream (R41), for a host port its ring, its META (R188) and the link that its slow path names (R196), and whether its data was
read uncorrectable (R519, R623). -/
structure QPkt where
  data : List Byte
  out : List Byte
  dram : Bool
  cells : List Nat
  need : Option Nat
  colour : Nat
  label : Nat
  stream : Option Nat
  ring : Option Nat
  metaw : Nat
  home : Nat
  bad : Bool
  deriving DecidableEq, Repr

/-- A shaper (R483): credit in units of 2⁻¹⁶ byte, two signs, and the time in ns of its last update. -/
structure Shaper where
  credit : Int
  last : Nat
  deriving DecidableEq, Repr

/-- The packets and bytes a queue has sent and the packets it has dropped (Table 17.9). -/
structure QCount where
  sent : Nat
  bytes : Nat
  drops : Nat
  deriving DecidableEq, Repr

/-- A meter's buckets (R490) in units of 2⁻¹⁶ byte and the time in ns of their last update. -/
structure Meter where
  c : Nat
  e : Nat
  last : Nat
  deriving DecidableEq, Repr

/-- A snapshot slot (R500 to R502): snapshots so far, the argument in force, the bytes reserved, and the captured output still to be held
or delivered. -/
structure Snap where
  seq : Nat
  arg : List Byte
  size : Nat
  data : List Byte
  deriving DecidableEq, Repr

/-- Traffic management: queues, shapers, deficits and turns of the round robins, queue counts, meters, snapshot slots, whether the
shared pool has fallen low (event 368), and the DRAM channel next in rotation (R514). -/
structure Tm where
  queues : SMap (List QPkt)
  shapers : SMap Shaper
  deficits : SMap Nat
  turns : SMap Nat
  counts : SMap QCount
  meters : SMap Meter
  snaps : SMap Snap
  low : Bool
  dramNext : Nat
  deriving DecidableEq, Repr

/-- An Ethernet port (spec/13): the counter baselines of H0 to H3, E, L and S (R393), whether the margin is low (R377), the time
in ns until which the scheduler holds it (R380), when its directions entered low-power idle, the receive wake time of the
partner's EEE TLV (R381), and the packets handed to its egress stages (R387). -/
structure PortSt where
  base : SMap (List Byte)
  marginLow : Bool
  heldTo : Nat
  txLpiAt : Nat
  rxLpiAt : Nat
  peerTw : Nat
  egress : List QPkt
  deriving DecidableEq, Repr

/-- A fabric bundle (spec/14): transmit epoch, last peer epoch received, peer epoch in force, the peer's advertised credits and its
last CREDIT_CUM, data cells received, sent and freed of each class, cells held of each class, open reassemblies and their cells, cells of
packets in progress with their SOP and EOP flags in front, lanes with block lock, the resolution sent, the peer's last HELLO, the CREDIT_CUM last reported of each class and the classes still to be reported
in the present round of sixteen (R403), cells sent since the bundle's lanes last started (R399) and in the present sub-tick (R410), and the lane on
which each lane tag arrives (R398). -/
structure Bundle where
  epoch : Nat
  seen : Nat
  inForce : Nat
  adv : SMap Nat
  cum : SMap Nat
  rx : SMap Nat
  sent : SMap Nat
  freed : SMap Nat
  held : SMap Nat
  opens : SMap (List Byte)
  cells : SMap Nat
  tx : SMap (List (List Byte))
  aligned : Nat
  resolved : Option (Nat × Nat)
  hello : List Byte
  told : SMap Nat
  round : List Nat
  place : Nat
  burst : Nat
  route : List (Nat × Nat)
  deriving DecidableEq, Repr

/-- A circuit (spec/11): expected SEQ, the container of the present frame, the downstream slip buffer with the last frame read and
whether reading has begun, bits gathered toward a packet, pseudowire sequence numbers, playout buffer, whether it plays and
underran, the upstream slip buffer likewise, upstream SEQ, the six runs of Table 11.2, whether the present frame is errored,
performance data, the sum and count of d in the timing window, and whether event 197 was raised. -/
structure Circ where
  exp : Nat
  cont : Option (List Bool)
  contD : Int
  contOk : Bool
  ds : List (List Bool)
  dsLast : List Bool
  dsOn : Bool
  gather : List Bool
  pwSeq : Nat
  pwExp : Option Nat
  playout : List Bool
  playing : Bool
  under : Bool
  us : List (List Bool)
  usLast : List Bool
  usOn : Bool
  usSeq : Nat
  missRun : Nat
  gotRun : Nat
  aisRun : Nat
  noAisRun : Nat
  rdiRun : Nat
  noRdiRun : Nat
  errored : Bool
  pm : Pm
  sumD : Int
  cntD : Nat
  lost : Bool
  deriving DecidableEq, Repr

/-- A burst that a subchannel is to write or to read, and the time in ns it came (R515). -/
structure DramReq where
  write : Bool
  burst : Nat
  at' : Nat
  deriving DecidableEq, Repr

/-- A subchannel (R515, R516, R520): the requests not yet issued, oldest first, whether writes are being served, the open row of each bank plus one, the
bursts whose reads have been issued and not returned, and the last 32 writes issued. -/
structure DramSub where
  reqs : List DramReq
  writing : Bool
  rows : SMap Nat
  out : List Nat
  last : List Nat
  deriving DecidableEq, Repr

/-- A DRAM channel (spec/18): when its uncorrectable bursts of the last millisecond came, corrected bursts of a second with its time, the last falls of
ALERT_N of each subchannel, consecutive MR4 reads at the normal rate, refreshes postponed of each bank (64·subchannel + bank), and the two subchannels. -/
structure DramCh where
  unc : List Nat
  ceSec : Nat
  ce : Nat
  falls : SMap (List Nat)
  normals : Nat
  postponed : SMap Nat
  subs : SMap DramSub
  deriving DecidableEq, Repr

/-! Lookaside engine (spec/19). -/

/-- A lookaside job (R544 to R548): its session and list, the address of its record, the record, its source bytes and DMA outcome,
whether it has started, whether it is suspended, and the counter a seal took (none when the session was exhausted). -/
structure LaJob where
  session : Nat
  list : Nat
  addr : Nat
  record : List Byte
  src : List Byte
  dma : Nat
  started : Bool
  suspended : Bool
  ctr : Option Nat
  deriving DecidableEq, Repr

/-- A submitted list: its answer owed, the jobs left, and those ended with status 0 and with another status. -/
structure LaList where
  id : Nat
  call : Call
  left : Nat
  ok : Nat
  other : Nat
  deriving DecidableEq, Repr

/-- The lookaside engine: jobs in the order fetched, lists, and the number of the next list. -/
structure La where
  jobs : List LaJob
  lists : List LaList
  next : Nat
  deriving DecidableEq, Repr

/-! Security (spec/21). -/

/-- A slot of a boot flash (R584): its stage-1, stage-2 and configuration regions, as far as they are programmed. -/
structure FlashSlot where
  stage1 : List Byte
  stage2 : List Byte
  config : List Byte
  deriving DecidableEq, Repr

/-- The security complex: the two flash slots and the directory page, the running stages, the boot-load window (BL_ADDR,
BL_LENGTH, BL_STATUS) and the requester slots of challenges, staged records, reports and tokens by requester code, each challenge and
token with its last second and nanosecond in front; the flash program in progress with its slot and length; and whether the TRNG has stopped (R608). -/
structure Sec where
  slotA : FlashSlot
  slotB : FlashSlot
  dir : List Byte
  run1 : List Byte
  run2 : List Byte
  blAddr : Nat
  blLen : Nat
  blStatus : Nat
  chal : SMap (List Byte)
  stage : SMap (List Byte)
  reports : SMap (List Byte)
  tokens : SMap (List Byte)
  prog : Option (Call × Nat × Nat)
  trngOff : Bool
  deriving DecidableEq, Repr

/-! What the device sends. -/

/-- Kinds of item the device puts out: a Umani response on its path, a strictly ordered host-memory write, one of packet data with its Relaxed
Ordering and No Snoop attributes (R176), an MSI-X message, a read value returned to a bus access, a Lemow or management packet, a burst, an Ethernet
frame, a fabric cell or overhead item, an AVSBus target, and an item handed to the unit whose own row takes it. -/
inductive OutKind where
  | response | dma | packetDma (relaxed noSnoop : Bool) | msix | busRead | busError | mgmt | burst | frame | cell | overhead | handoff | hv | packet | avs | dram | train
  deriving DecidableEq, Repr

/-- An item put out: its kind, two numbers that say where (path, link, port, address), and its bytes. -/
structure Out where
  kind : OutKind
  a : Nat
  b : Nat
  data : List Byte
  deriving DecidableEq, Repr

end Sys2Proof.Machine
end

