-- ==== Sys2Proof/Machine/State.lean ====
section
/-!
DEFINITION. The state of the block, the ways a command can stop, and the state at reset.
-/
namespace Sys2Proof.Machine

/-- The device: dictionary objects that differ from their defaults, OTP bits, and the parts of Parts.lean. -/
structure Dev where
  objs : SMap (Option Val)
  otp : Nat
  recd : Recorder
  acts : List Action
  occs : List Occ
  outs : List Out
  pins : Pins
  clk : Clk
  pwr : Pwr
  cfg : Cfg
  tim : TimeSt
  um : SMap UPathSt
  bws : List BlockWrite
  bcs : List BlockCopy
  i2c : List Resp
  fns : SMap Fn
  rings : SMap Ring
  vecs : SMap Vec
  links : SMap Link
  fch : SMap Fch
  hvUnder : Bool
  hvBeat : Bool
  hvTrip : Bool
  tbl : SMap (List Byte)
  keys : SMap (List Byte)
  uses : SMap Nat
  la : La
  fwd : Fwd
  tm : Tm
  circ : SMap Circ
  ports : SMap PortSt
  fab : SMap Bundle
  dram : SMap DramCh
  sec : Sec
  free : Nat
  deriving DecidableEq, Repr

/-- The block: the commands that wait, first in first out, and the device. -/
structure State where
  pending : List Instr
  dev : Dev
  deriving DecidableEq, Repr

/-- Why a command stops the machine. -/
inductive Fault where
  /-- The operands of a command are none its row admits (WellFormed.lean). Raised by every meaning through
  `State.runIf`. Safe: the manual gives no such occurrence, so the machine stops where the hardware has no step. -/
  | illFormed
  deriving DecidableEq, Repr

/-- Why a command has no meaning in the model. -/
inductive Refusal where
  /-- Raised by an arm of `exec` whose row has no meaning yet. Safe. -/
  | notModelled (mnemonic : String)
  /-- An access to the vendor diagnostic space inside an authenticated debug session (R177, R133): the manual
  does not say what that space holds. Raised by BAR2_ACCESS and the Umani commands. Safe. -/
  | diagnosticsUndescribed
  deriving DecidableEq, Repr

/-! What an unlisted entry of each store reads as. -/

def UPathSt.none : UPathSt := ⟨[], []⟩
def Image.empty : Image := ⟨0, [], [], []⟩
def Fn.none : Fn := ⟨1, false, 0, 0, 0, 0, 0, [], [], false, false, []⟩
def Ring.none : Ring := ⟨0, 0, [], 0, 0, [], 0⟩
def Vec.none : Vec := ⟨true, false, 0, 0⟩
def Link.none : Link := ⟨false, false, 0, false⟩
def Pm.none : Pm := ⟨false, 0, false, []⟩
def RxPath.none : RxPath := ⟨.none, .none⟩
/-- A DMT receiver that has heard nothing; DMT_WINDOW_ADVANCE is 8 (Table 8.6). -/
def DmtRx.none : DmtRx := ⟨0, [], 8, [], [], 0, 0, 0, [], [], (0, 0), []⟩
def Fch.none : Fch where
  rogue := 0
  txSet := (0, [], 600)
  txNext := (0, [], 600)
  ldPend := false
  ldNow := (0, 60000)
  pga := 0
  burstOn := false
  burstLeft := 0
  laserAge := 0
  apcClamped := false
  hvPend := []
  refValid := false
  missEpoch := .none
  snrUncorr := 0
  snrBase := 0
  rx := []
  txq := []
  onAir := .none
  slStrength := 0
  slAt := .none
  cm12 := 0
  cmSfNow := 12
  slOn := true
  cmOn := true
  presync := 0
  expected := 0
  failRun := 0
  outFrames := 0
  marks := false
  walked := false
  area := []
  areaAt := 0
  areaFrame := 0
  areaCfg := 0
  areaTbl := 0
  areaBad := []
  ords := []
  authEpoch := .none
  chains := []
  cut := .none
  skipCont := false
  aisRun := 0
  aisPrev := 0
  okRun := 0
  aisNow := false
  fecCount := 0
  fecClear := 0
  losRaw := true
  pm := Pm.none
  unranged := true
  eqdTaken := false
  windows := []
  attempt := 0
  skips := 0
  select := .none
  modePend := .none
  fecWas := (0, false)
  holdoff := false
  retHandle := 0xFFFF
  retAllocs := []
  retEqd := 0
  dozeAwake := 0
  dozeCycle := 0
  dozeStart := 0
  bursts := []
  cuts := []
  inq := []
  mgmtAt := .none
  grants := ⟨0, 0, 0, [], []⟩
  allocPend := []
  seqNo := 0
  resumed := false
  pll := 0
  ratios := []
  dmt := DmtRx.none
def Shaper.none : Shaper := ⟨0, 0⟩
def QCount.none : QCount := ⟨0, 0, 0⟩
def Meter.none : Meter := ⟨0, 0, 0⟩
def Snap.none : Snap := ⟨0, [], 0, []⟩
def PortSt.none : PortSt := ⟨[], false, 0, 0, 0, 0, []⟩
def Bundle.none : Bundle := ⟨0, 0, 0, [], [], [], [], [], [], [], [], [], 0, .none, [], [], [], 0, 0, []⟩
def Circ.none : Circ where
  exp := 0
  cont := .none
  contD := 0
  contOk := false
  ds := []
  dsLast := []
  dsOn := false
  gather := []
  pwSeq := 0
  pwExp := .none
  playout := []
  playing := false
  under := false
  us := []
  usLast := []
  usOn := false
  usSeq := 0
  missRun := 0
  gotRun := 0
  aisRun := 0
  noAisRun := 0
  rdiRun := 0
  noRdiRun := 0
  errored := false
  pm := Pm.none
  sumD := 0
  cntD := 0
  lost := false
def DramSub.none : DramSub := ⟨[], false, [], [], []⟩
def DramCh.none : DramCh := ⟨[], 0, 0, [], 0, [], []⟩
/-- The security complex with empty flash slots (DESIGN CHOICE: the manual does not say what a flash holds). -/
def Sec.none : Sec := ⟨⟨[], [], []⟩, ⟨[], [], []⟩, [], [], [], 0, 0, 0, [], [], [], [], .none, false⟩
def PulseTrain.none : PulseTrain := ⟨false, 0, 0, false, false⟩

/-- The device after power-on with PORST_N still low: every object at its default (R19), nothing open,
every crossing Closed. The pin levels are DESIGN CHOICE (log entry 6). -/
def Dev.reset : Dev where
  objs := []
  otp := 0
  recd := ⟨[], [], .none, false, .none⟩
  acts := []
  occs := []
  outs := []
  pins := ⟨false, true, true, false, true, true, [], true⟩
  clk := ⟨true, false, false, .none, [], [0], [], false, false, 0, 0, [], []⟩
  pwr := ⟨.none, ⟨0, 0, 0⟩, 0, false, false, 0, 0, false, 0, 0, .none, .none⟩
  cfg := ⟨[], Image.empty, Image.empty, 0, 0, false, .none, 0, []⟩
  tim := ⟨0, 0, 0, 0, .none, .none, .none, .none, 0x10000000000, 0, 0, false, [], [], [], [], .none, 0⟩
  um := []
  bws := []
  bcs := []
  i2c := []
  fns := []
  rings := []
  vecs := []
  links := []
  fch := []
  hvUnder := false
  hvBeat := false
  hvTrip := false
  tbl := []
  keys := []
  uses := []
  la := ⟨[], [], 0⟩
  fwd := ⟨[], [], 0, 0, 0, 0, [], [], [], [], [], false, [], .none⟩
  tm := ⟨[], [], [], [], [], [], [], false, 0⟩
  circ := []
  ports := []
  fab := []
  dram := []
  sec := Sec.none
  free := 0

/-- The machine right after reset: nothing waits. -/
def State.reset : State := ⟨[], Dev.reset⟩

end Sys2Proof.Machine
end

