-- ==== Sys2Proof/Machine/Ops.lean ====
section
/-!
DEFINITION. The effects a command has on the device, programs of effects, and the shared operations:
reading and writing objects, counting (R4), raising events (R5), and the recorder's and Ringmaster's stores.
-/
namespace Sys2Proof.Machine

/-! ## Objects -/

/-- The value an object holds. -/
def Dev.get (d : Dev) (o : Obj) (i j : Nat) : Val :=
  (SMap.get none d.objs (o.key i j)).getD (o.dflt i j)

/-- The number an object holds. -/
def Dev.num (d : Dev) (o : Obj) (i : Nat := 0) (j : Nat := 0) : Nat := (d.get o i j).n

/-- The octets an object holds. -/
def Dev.oct (d : Dev) (o : Obj) (i : Nat := 0) (j : Nat := 0) : List Byte := (d.get o i j).b

/-- The device with an object's value replaced. An object at its default is not listed. -/
def Dev.put (d : Dev) (o : Obj) (i j : Nat) (v : Val) : Dev :=
  { d with objs := SMap.put none (o.key i j) (if v = o.dflt i j then none else some v) d.objs }

/-- Width in bits of an object's number. -/
def Obj.width (o : Obj) : Nat :=
  match o.row.ty with
  | .u w => w
  | .s w => w
  | _ => 8

/-! ## What survives a reset (Table 3.6, R109) -/

/-- The occasions on which state is lost: power-on reset, supply failure, a reset of the logic die alone (HREF loss, device
command, security escalation), entry to Deep Sleep, and Off. -/
inductive Wipe where
  | powerOn | supply | logic | deep | off
  deriving DecidableEq, Repr

/-- Whether a key is one of the objects' of a list, all elements at (0, 0). -/
def keyOf (os : List Obj) (k : Nat) : Bool := os.any fun o => decide (o.key 0 0 = k)

/-- The HV die's objects, which a reset of the logic die leaves (Table 3.6): its own state and what it measures. -/
def hvKey (k : Nat) : Bool :=
  keyOf [.hvState, .hvVin, .hvBoost, .hvTemp, .hvWatchdogTrips, .hvLinkErrors] k ||
    (List.range 4).any fun n => decide (Obj.feApdVoltage.key n 0 = k)

/-- Whether an object keeps its value. RST_CAUSE and RST_CAUSE_STICKY always do (R90, R109), and the straps until PORST_N is next
released. Deep Sleep keeps group ownership with the lease table, the DMT profile slots 1 to 7, and the hashes of the running stages. -/
def Wipe.keeps (w : Wipe) (k : Nat) : Bool :=
  keyOf [.rstCause, .rstCauseSticky] k ||
  (w != .powerOn && keyOf [.rstStraps, .rstStrapUnstable] k) ||
  (w != .powerOn && w != .supply && hvKey k) ||
  (w == .deep && (keyOf [.secBootSlot, .secStage1Hash, .secStage2Hash] k || k / 256 == 0x1100 ||
    (List.range 4).any fun n => decide (0x4091 + 0x400 * n ≤ k / 256 ∧ k / 256 ≤ 0x4097 + 0x400 * n)))

/-- The part of a function that the lease table holds (R109, R118): epoch, and whether and how long its lease lives. -/
def Fn.leaseOnly (f : Fn) : Fn := { Fn.none with epoch := f.epoch, live := f.live, remain := f.remain, period := f.period }

/-- What a fibre channel keeps for its next registration (R347), and the rogue latch, which the HV die holds (R222). -/
def Fch.latchOnly (c : Fch) : Fch := { Fch.none with rogue := c.rogue }
def Fch.retained (c : Fch) : Fch :=
  { Fch.latchOnly c with retHandle := c.retHandle, retAllocs := c.retAllocs, retEqd := c.retEqd }

/-- A store with each entry changed; an entry that becomes what an unlisted key reads as is not listed. -/
def SMap.mapped {α : Type} [DecidableEq α] (z : α) (f : α → α) (m : SMap α) : SMap α :=
  m.foldl (fun a e => SMap.put z e.1 (f e.2) a) []

/-- The disabled mark of a channel: it survives every reset but power-on, and exit from Off (R343). -/
def Dev.disabledKey (d : Dev) (k : Nat) : Bool :=
  (List.range 4).any fun n => decide (Obj.actState.key n 0 = k) && d.num .actState n == 6

/-- The device after what does not survive has returned to its reset value. What was put out, OTP, the flash devices, the pins and
TCK are outside; the records survive every reset but power-on. PWRREQ_N and THERM_N go high (R65, R71). -/
def Dev.wiped (w : Wipe) (d : Dev) : Dev :=
  { Dev.reset with
    objs := SMap.drop (fun k => !(w.keeps k || w != .powerOn && w != .off && d.disabledKey k)) d.objs
    otp := d.otp
    recd := if w = .supply ∨ w = .logic then { Dev.reset.recd with recs := d.recd.recs } else Dev.reset.recd
    outs := d.outs
    pins := { d.pins with pwrreqN := true, thermN := true }
    clk := { Dev.reset.clk with
      devReset := decide (w ≠ .deep ∧ w ≠ .off), hrefLost := d.clk.hrefLost && decide (w ≠ .powerOn),
      supplyHeld := d.clk.supplyHeld && decide (w ≠ .powerOn), tapReset := d.clk.tapReset, tck := d.clk.tck
      closed := if w = .deep ∨ w = .off then [] else [0] }
    pwr := { Dev.reset.pwr with
      entry := if w = .deep ∨ w = .off then d.pwr.entry else Dev.reset.pwr.entry }
    cfg := if w = .deep then { Dev.reset.cfg with
      base := d.cfg.base, mask := d.cfg.mask
      slots := SMap.drop (fun s => !bitOf d.cfg.mask (s - 1)) d.cfg.slots } else Dev.reset.cfg
    fns := if w = .deep then SMap.mapped Fn.none Fn.leaseOnly d.fns else []
    links := SMap.mapped Link.none (fun l => { Link.none with perstN := l.perstN }) d.links
    fch := if w = .deep then SMap.mapped Fch.none Fch.retained d.fch
      else if w = .powerOn ∨ w = .supply then [] else SMap.mapped Fch.none Fch.latchOnly d.fch
    hvUnder := d.hvUnder && decide (w ≠ .powerOn ∧ w ≠ .supply)
    hvBeat := false
    hvTrip := d.hvTrip && decide (w ≠ .powerOn ∧ w ≠ .supply)
    sec := { Sec.none with
      slotA := d.sec.slotA, slotB := d.sec.slotB, dir := d.sec.dir
      run1 := if w = .deep then d.sec.run1 else []
      run2 := if w = .deep then d.sec.run2 else [] }
    free := d.free }

/-! ## Effects -/

/-- SYNC of TIME_STATUS is bit [0] (Table 20.1). -/
def Dev.synced (d : Dev) : Bool := bitOf (d.num .timeStatus) 0

/-- One effect on the device. Each keeps the stores canonical and the bounded stores bounded. -/
inductive Eff where
  /-- an object takes a value -/
  | obj (o : Obj) (i j : Nat) (v : Val)
  /-- a counter moves on; it saturates at its width (R4) -/
  | count (o : Obj) (i j n : Nat)
  /-- an event is raised, stamped with the present time (R5) -/
  | raise (src code inst arg0 arg1 : Nat)
  /-- the first occurrence in flight leaves -/
  | takeOcc
  /-- of the occurrences behind the first, the first `n` with its source, CODE and INSTANCE merge into it (R100) -/
  | mergeOccs (n : Nat)
  /-- an item is put out -/
  | out (o : Out)
  /-- OTP bits are burned; none is ever cleared -/
  | burn (mask : Nat)
  /-- a record is written, over the oldest of no higher severity when 32,768 are held (R617) -/
  | recWrite (r : Record)
  /-- the most recently written record takes more occurrences (R616) -/
  | recMerge (n : Nat) (sat : Bool)
  /-- a record enters the holding area of 64 (R620) -/
  | recHold (r : Record)
  /-- the oldest held record leaves the holding area -/
  | recUnhold
  /-- the recorder freezes for a holder, or its freeze ends -/
  | recFreeze (h : Option Nat)
  /-- event 482 was raised in this freeze -/
  | recFull
  /-- the second of the last event 480 -/
  | recDropAt (s : Nat)
  /-- every record and every held record goes (R621) -/
  | recClear
  /-- an action is armed in the lowest free slot: at most 256, one for each target (R573) -/
  | arm (a : Action)
  /-- an action leaves its slot -/
  | disarm (slot : Nat)
  /-- an action is committed (R572) -/
  | commit (slot : Nat)
  | pins (f : Pins → Pins)
  | clk (f : Clk → Clk)
  | pwr (f : Pwr → Pwr)
  | cfg (f : Cfg → Cfg)
  | tim (f : TimeSt → TimeSt)
  | um (k : Nat) (f : UPathSt → UPathSt)
  | bws (f : List BlockWrite → List BlockWrite)
  | bcs (f : List BlockCopy → List BlockCopy)
  | i2c (f : List Resp → List Resp)
  | fn (k : Nat) (f : Fn → Fn)
  | ring (k : Nat) (f : Ring → Ring)
  | vec (k : Nat) (f : Vec → Vec)
  | link (k : Nat) (f : Link → Link)
  | fch (n : Nat) (f : Fch → Fch)
  /-- the HV die's undervoltage mark (R213), its heartbeat having run 100 µs, an expiry not yet reported (R212) -/
  | hv (under beat trip : Bool)
  /-- vectors, rings or paths whose keys satisfy a test return to their unlisted values -/
  | dropVecs (p : Nat → Bool)
  | dropRings (p : Nat → Bool)
  | dropPaths (p : Nat → Bool)
  /-- objects whose keys satisfy a test return to their defaults -/
  | dropObjs (p : Nat → Bool)
  /-- a table entry, key material or a count of its uses is replaced; an absent one is not listed -/
  | tbl (k : Nat) (v : List Byte)
  | key (k : Nat) (v : List Byte)
  | use (k n : Nat)
  /-- table entries or keys whose places satisfy a test go -/
  | dropTbl (p : Nat → Bool)
  | dropKeys (p : Nat → Bool)
  | la (f : La → La)
  | fwd (f : Fwd → Fwd)
  | tm (f : Tm → Tm)
  | circ (c : Nat) (f : Circ → Circ)
  | port (p : Nat) (f : PortSt → PortSt)
  | fab (g : Nat) (f : Bundle → Bundle)
  | dram (c : Nat) (f : DramCh → DramCh)
  | sec (f : Sec → Sec)
  /-- a reset or a power state returns what does not survive it to its reset value -/
  | wipe (w : Wipe)
  /-- a free value is drawn -/
  | draw

/-- The first free slot of the 256. -/
def freeSlot (acts : List Action) : Nat → Nat → Nat
  | 0, k => k
  | n + 1, k => if acts.any (fun a => a.slot = k) then freeSlot acts n (k + 1) else k

/-- Actions in slot order with one more. -/
def insertAction (a : Action) : List Action → List Action
  | [] => [a]
  | b :: r => if a.slot < b.slot then a :: b :: r else b :: insertAction a r

/-- Two actions have the same target (R573). -/
def sameTarget (a b : Action) : Bool := decide (a.kind = b.kind) && decide (a.target = b.target)

/-- Records with the oldest of severity at most `s` removed; none when every record is higher. -/
def dropOldest (s : Nat) : List Record → Option (List Record)
  | [] => none
  | r :: rs => if r.sev ≤ s then some rs else (dropOldest s rs).map (r :: ·)

/-- The recorder's capacity (R617) and the holding area's (R620). -/
def recCap : Nat := 32768
def holdCap : Nat := 64
/-- Ringmaster's slots (R44). -/
def actCap : Nat := 256

/-- The records after one more is written (R617); unchanged when it must be dropped. -/
def writeRec (recs : List Record) (r : Record) : List Record :=
  if recs.length < recCap then recs ++ [r]
  else match dropOldest r.sev recs with
    | some rs => rs ++ [r]
    | none => recs

/-- Whether a record finds room (R617). -/
def hasRoom (recs : List Record) (r : Record) : Bool :=
  decide (recs.length < recCap) || (dropOldest r.sev recs).isSome

/-- The last element of a list changed. -/
def mapLast {α : Type} (f : α → α) : List α → List α
  | [] => []
  | [x] => [f x]
  | x :: y :: r => x :: mapLast f (y :: r)

/-- Two occurrences that an event crossing can merge (R100). -/
def Occ.like (x y : Occ) : Bool := x.src == y.src && x.code == y.code && x.inst == y.inst

/-- A list without the first `n` occurrences that are like `x`. -/
def dropLike (x : Occ) : Nat → List Occ → List Occ
  | 0, l => l
  | _, [] => []
  | n + 1, y :: r => if x.like y then dropLike x n r else y :: dropLike x (n + 1) r

/-- The occurrences with up to `n` of those behind the first merged into it. -/
def mergeFirst (n : Nat) : List Occ → List Occ
  | [] => []
  | x :: r => x :: dropLike x n r

/-- What an effect does. -/
def Eff.apply : Eff → Dev → Dev
  | .obj o i j v, d => d.put o i j v
  | .count o i j n, d => d.put o i j (.num (satAdd o.width (d.num o i j) n))
  | .raise src code inst a0 a1, d =>
    { d with occs := d.occs ++ [⟨src, code, inst, a0, a1, d.tim.secs, d.tim.ns, !d.synced⟩] }
  | .takeOcc, d => { d with occs := d.occs.tail }
  | .mergeOccs n, d => { d with occs := mergeFirst n d.occs }
  | .out o, d => { d with outs := o :: d.outs }
  | .burn m, d => { d with otp := d.otp ||| m }
  | .recWrite r, d => { d with recd := { d.recd with recs := writeRec d.recd.recs r } }
  | .recMerge n sat, d =>
    { d with recd := { d.recd with recs := mapLast (fun r => { r with
        rep := r.rep + n, flags := if sat then putBit r.flags 6 true else r.flags }) d.recd.recs } }
  | .recHold r, d =>
    { d with recd := { d.recd with hold :=
        if d.recd.hold.length < holdCap then d.recd.hold ++ [r] else d.recd.hold } }
  | .recUnhold, d => { d with recd := { d.recd with hold := d.recd.hold.tail } }
  | .recFreeze h, d => { d with recd := { d.recd with frozen := h, fullRaised := false } }
  | .recFull, d => { d with recd := { d.recd with fullRaised := true } }
  | .recDropAt s, d => { d with recd := { d.recd with lastDrop := some s } }
  | .recClear, d => { d with recd := { d.recd with recs := [], hold := [] } }
  | .arm a, d =>
    if d.acts.length < actCap ∧ d.acts.any (sameTarget a) = false then
      { d with acts := insertAction { a with slot := freeSlot d.acts 256 0, armed := d.tim.ticks } d.acts }
    else d
  | .disarm s, d => { d with acts := d.acts.filter fun a => a.slot ≠ s }
  | .commit s, d =>
    { d with acts := d.acts.map fun a => if a.slot = s then { a with committed := true } else a }
  | .pins f, d => { d with pins := f d.pins }
  | .clk f, d => { d with clk := f d.clk }
  | .pwr f, d => { d with pwr := f d.pwr }
  | .cfg f, d => { d with cfg := f d.cfg }
  | .tim f, d => { d with tim := f d.tim }
  | .um k f, d => { d with um := SMap.upd UPathSt.none k f d.um }
  | .bws f, d => { d with bws := f d.bws }
  | .bcs f, d => { d with bcs := f d.bcs }
  | .i2c f, d => { d with i2c := f d.i2c }
  | .fn k f, d => { d with fns := SMap.upd Fn.none k f d.fns }
  | .ring k f, d => { d with rings := SMap.upd Ring.none k f d.rings }
  | .vec k f, d => { d with vecs := SMap.upd Vec.none k f d.vecs }
  | .link k f, d => { d with links := SMap.upd Link.none k f d.links }
  | .fch n f, d => { d with fch := SMap.upd Fch.none n f d.fch }
  | .hv u b t, d => { d with hvUnder := u, hvBeat := b, hvTrip := t }
  | .dropVecs p, d => { d with vecs := SMap.drop p d.vecs }
  | .dropRings p, d => { d with rings := SMap.drop p d.rings }
  | .dropPaths p, d => { d with um := SMap.drop p d.um }
  | .dropObjs p, d => { d with objs := SMap.drop p d.objs }
  | .tbl k v, d => { d with tbl := SMap.put [] k v d.tbl }
  | .key k v, d => { d with keys := SMap.put [] k v d.keys }
  | .use k n, d => { d with uses := SMap.put 0 k n d.uses }
  | .dropTbl p, d => { d with tbl := SMap.drop p d.tbl }
  | .dropKeys p, d => { d with keys := SMap.drop p d.keys, uses := SMap.drop p d.uses }
  | .la f, d => { d with la := f d.la }
  | .fwd f, d => { d with fwd := f d.fwd }
  | .tm f, d => { d with tm := f d.tm }
  | .circ c f, d => { d with circ := SMap.upd Circ.none c f d.circ }
  | .port p f, d => { d with ports := SMap.upd PortSt.none p f d.ports }
  | .fab g f, d => { d with fab := SMap.upd Bundle.none g f d.fab }
  | .dram c f, d => { d with dram := SMap.upd DramCh.none c f d.dram }
  | .sec f, d => { d with sec := f d.sec }
  | .wipe w, d => d.wiped w
  | .draw, d => { d with free := d.free + 1 }

/-! ## Programs -/

/-- A program of effects: `ask` continues with what the device is at that point. -/
inductive Prog where
  | skip
  | eff (e : Eff)
  | seq (p q : Prog)
  | ask (f : Dev → Prog)

/-- What a program does. -/
def Prog.run : Prog → Dev → Dev
  | .skip, d => d
  | .eff e, d => e.apply d
  | .seq p q, d => q.run (p.run d)
  | .ask f, d => (f d).run d

/-- Programs one after another. -/
def Prog.all : List Prog → Prog
  | [] => .skip
  | p :: ps => .seq p (Prog.all ps)

/-- Programs one after another, when a condition holds. -/
def Prog.when (b : Bool) (ps : List Prog) : Prog := if b then .all ps else .skip

/-- A program for each element of a list. -/
def Prog.each {α : Type} (xs : List α) (f : α → Prog) : Prog := .all (xs.map f)

/-- An object takes a number. -/
def putN (o : Obj) (i j n : Nat) : Prog := .eff (.obj o i j (.num n))

/-- An object takes octets. -/
def putO (o : Obj) (i j : Nat) (b : List Byte) : Prog := .eff (.obj o i j (.oct b))

/-- A counter moves on by one (R4). -/
def count (o : Obj) (i : Nat := 0) (j : Nat := 0) : Prog := .eff (.count o i j 1)

/-- A counter moves on by `n`. -/
def countBy (o : Obj) (i j n : Nat) : Prog := .eff (.count o i j n)

/-- A counter of `size` bytes inside a counter block moves on by `n` (R136). -/
def countIn (o : Obj) (i j off size n : Nat) : Prog :=
  .ask fun d =>
    let b := d.oct o i j
    putO o i j (patch b off (beBytes size (satAdd (8 * size) (beAt b off size) n)))

/-- One bit of an object is set or cleared. -/
def setFlag (o : Obj) (i j k : Nat) (b : Bool) : Prog :=
  .ask fun d => putN o i j (putBit (d.num o i j) k b)

/-- INSTANCE of a record that names no instance (Table 22.1). -/
def noInst : Nat := 0xFFFFFF

/-- An event is raised (R5) with its record's CODE, INSTANCE and arguments (R612). -/
def raise (src : Nat) (inst : Nat := noInst) (code : Nat := 0) (a0 : Nat := 0) (a1 : Nat := 0) : Prog :=
  .eff (.raise src code inst a0 a1)

/-- An item is put out. -/
def send (k : OutKind) (a b : Nat) (data : List Byte) : Prog := .eff (.out ⟨k, a, b, data⟩)

/-- A 16-bit item at the top of an argument word (R612). -/
def top16 (v : Nat) : Nat := v % 65536 * 65536

/-- An 8-bit item at the top of an argument word (R612). -/
def top8 (v : Nat) : Nat := v % 256 * 16777216

/-- A program runs on the device of a state; the queue is not touched. -/
def State.runIf (s : State) (ok : Bool) (p : Prog) : Host.Outcome State Fault Refusal :=
  if ok then .next { s with dev := p.run s.dev } else .fault .illFormed

/-- A program runs on the device of a state. -/
def State.run (s : State) (p : Prog) : Host.Outcome State Fault Refusal :=
  .next { s with dev := p.run s.dev }

/-- A fibre channel's part of the state. -/
def Dev.ch (d : Dev) (n : Nat) : Fch := SMap.get Fch.none d.fch n

/-- A host function's part of the state; link × 64 + function. -/
def Dev.fn (d : Dev) (k : Nat) : Fn := SMap.get Fn.none d.fns k

/-- A device ring. -/
def Dev.ringSt (d : Dev) (r : Nat) : Ring := SMap.get Ring.none d.rings r

/-- A host link. -/
def Dev.lnk (d : Dev) (n : Nat) : Link := SMap.get Link.none d.links n

/-- An event raised the first time in each second under a key. -/
def raiseFirst (key src : Nat) (inst : Nat := noInst) : Prog :=
  .ask fun d =>
    .when (decide (SMap.get 0 d.tim.lastEvt key ≠ d.tim.secs + 1))
      [raise src inst, .eff (.tim fun t => { t with lastEvt := SMap.put 0 key (d.tim.secs + 1) t.lastEvt })]

/-- An event whose raising is limited to once per second (R558, R564, R568). -/
def raiseRated (src : Nat) (inst : Nat := noInst) : Prog := raiseFirst src src inst

end Sys2Proof.Machine
end

