-- ==== Sys2Proof/Machine/TableData.lean ====
section
/-!
DEFINITION. What the table store and the queues hold, as reads of the dictionary report it: table numbers and capacities
(R445, R446), entries in use, and the cells of the buffer (R492, R493).
-/
namespace Sys2Proof.Machine

/-- Place of an entry in the table store. -/
def tblKey (table ix : Nat) : Nat := table * 2 ^ 32 + ix

/-- The entries of a table with their places, in order. -/
def Dev.rows (d : Dev) (table : Nat) : List (Nat × List Byte) :=
  (d.tbl.filter fun e => e.1 / 2 ^ 32 == table).map fun e => (e.1 % 2 ^ 32, e.2)

/-- Bytes of an entry of a table; 0 for a reserved table number. -/
def tblEntry (t : Nat) : Nat :=
  match t with
  | 1 => 32 | 2 => 32 | 3 => 32 | 4 => 32 | 5 => 8 | 6 => 16 | 7 => 128 | 8 => 32 | 16 => 32 | 17 => 16
  | _ => 0

/-- Exact-match entries, IPv4 and IPv6 prefixes of a carving (Table 16.1). -/
def carvingCaps (c : Nat) : Nat × Nat × Nat :=
  match c with
  | 1 => (4194304, 262144, 131072)
  | 2 => (1048576, 2097152, 1048576)
  | 3 => (2097152, 524288, 262144)
  | _ => (2097152, 1048576, 524288)

/-- Capacity of a table; table 1 without its stash. -/
def Dev.tblCap (d : Dev) (t : Nat) : Nat :=
  let c := carvingCaps (d.num .fwdCarving)
  match t with
  | 1 => c.1 | 2 => c.2.1 | 3 => c.2.2 | 4 => 262144 | 5 => 4096 | 6 => 262144 | 7 => 49152 | 8 => 16384
  | 16 => 1048576 | 17 => 2097152
  | _ => 0

/-- The object group a table belongs to (Table 5.9). -/
def tblGroup (t : Nat) : Nat :=
  if t ≤ 5 then 8 else if t = 6 then 9 else if t ≤ 8 then 7 else 0xA

/-- Whether a table is keyed; the others are indexed. -/
def tblKeyed (t : Nat) : Bool := t == 1 || t == 2 || t == 3 || t == 6

/-- The entry at a place; `[]` when none is there. -/
def Dev.row (d : Dev) (t ix : Nat) : List Byte := SMap.get [] d.tbl (tblKey t ix)

/-- Whether an entry is in use. A rewrite or meter entry has no VALID of its own; a counter pair is always in use. -/
def rowValid (t : Nat) (e : List Byte) : Bool :=
  match t with
  | 1 => bitOf (beAt e 28 4) 31
  | 2 => bitOf (beAt e 28 4) 31
  | 3 => bitOf (beAt e 28 4) 31
  | 4 => bitOf (beAt e 28 4) 31
  | 5 => bitOf (beAt e 0 8) 63
  | 6 => bitOf (beAt e 0 8) 63
  | 7 => bitOf (beAt e 112 4) 31
  | 17 => true
  | _ => !e.isEmpty

/-- Entries of a table that are in use. -/
def Dev.validCount (d : Dev) (t : Nat) : Nat :=
  if t = 17 then 2097152 else ((d.rows t).filter fun e => rowValid t e.2).length

def emControl (e : List Byte) : Nat := beAt e 28 4
def emStatic (e : List Byte) : Bool := bitOf (emControl e) 28
def emLearned (e : List Byte) : Bool := bitOf (emControl e) 27
def emAge (e : List Byte) : Nat := bitsOf (emControl e) 19 8
def emPort (e : List Byte) : Nat := bitsOf (emControl e) 12 7
/-- Bridge domain of a type 1 key. -/
def emBd (e : List Byte) : Nat := bitsOf (beAt e 0 16) 48 12
/-- Learned entries of a port. -/
def Dev.learnedOn (d : Dev) (q : Nat) : Nat := ((d.rows 1).filter fun e => emLearned e.2 && emPort e.2 == q).length

/-- The device's time in ns. -/
def Dev.nowNs (d : Dev) : Nat := d.tim.secs * 1000000000 + d.tim.ns

/-! ## Cells of the buffer -/

/-- Cells of a packet (R493). -/
def cellsOf (b : List Byte) : Nat := ceilDiv b.length 256

/-- The ingress reserve: TM_IRES_SHARE over ports 0 to 115 and TM_IRES_CONTROL (R492). -/
def Dev.ingressReserve (d : Dev) : Nat :=
  ((List.range 116).map fun q => d.num .tmIresShare 0 q).sum + d.num .tmIresControl

/-- Cells of the shared pool (R492). -/
def Dev.sharedSize (d : Dev) : Nat := 524288 - d.ingressReserve - d.num .tmSnapCells

/-- Cells of a queue in SRAM or in DRAM. -/
def queueCells (dram : Bool) (q : List QPkt) : Nat := ((q.filter fun p => p.dram == dram).map fun p => cellsOf p.data).sum

/-- Cells that all queues hold in SRAM or in DRAM. -/
def Dev.heldCells (d : Dev) (dram : Bool) : Nat := (d.tm.queues.map fun e => queueCells dram e.2).sum

/-- Free cells of the shared pool, and of the DRAM buffer (Table 17.10). -/
def Dev.sharedFree (d : Dev) : Nat := d.sharedSize - d.heldCells false
/-- Cells held in a DRAM channel, and its free cells: only those of a Ready channel count (R514). -/
def Dev.chanHeld (d : Dev) (c : Nat) : Nat := (d.tm.queues.map fun e => (e.2.map fun p => (p.cells.filter (· % 8 == c)).length).sum).sum
def Dev.chanFree (d : Dev) (c : Nat) : Nat := if d.num .dramState c = 3 then d.num .dramCapacity c - d.chanHeld c else 0
def Dev.dramFree (d : Dev) : Nat := ((List.range 8).map d.chanFree).sum
/-- The sum of DRAM_CAPACITY over channels in Ready, Draining or Self-refresh (R514). -/
def Dev.dramCells (d : Dev) : Nat :=
  ((List.range 8).map fun c => let s := d.num .dramState c
    if s = 3 ∨ s = 4 ∨ s = 5 then d.num .dramCapacity c else 0).sum

/-- What a read of a TABLEREF returns (R138). -/
def Dev.tableRef (d : Dev) (t : Nat) : List Byte :=
  beBytes 2 t ++ beBytes 2 (tblEntry t) ++ beBytes 4 (d.tblCap t) ++ beBytes 4 (d.validCount t)
    ++ beBytes 4 (d.num .fwdTableEpoch)

end Sys2Proof.Machine
end

