-- ==== Sys2Proof/Machine/Flags.lean ====
section
/-!
DEFINITION. Status the manual computes from the state, and the views a read returns: laser
conditions (Table 7.6), defects (Table 10.6), TIME_STATUS (Table 20.1), and the other objects whose
value follows from the rest of the state.
-/
namespace Sys2Proof.Machine

/-- A host link's fixed share by bifurcation (Table 6.1): number of links, rings and vectors of each. -/
def Dev.bifur (d : Dev) : Nat × Nat × Nat :=
  match d.num .rstStraps % 4 with
  | 1 => (2, 2048, 1024)
  | 2 => (4, 1024, 512)
  | _ => (1, 4096, 2048)

/-- Whether a link position is used (R172). -/
def Dev.linkUsed (d : Dev) (n : Nat) : Bool := decide (n < d.bifur.1)

/-- The link a device ring belongs to (Table 6.1). -/
def Dev.linkOfRing (d : Dev) (r : Nat) : Nat := r / d.bifur.2.1

/-- HV_ENABLE of the straps (Table 2.9). -/
def Dev.hvEnable (d : Dev) : Bool := bitOf (d.num .rstStraps) 6

/-- Whether the activation state permits upstream (R342): Announcing, Ranging, Operating. -/
def actPermits (s : Nat) : Bool := s == 2 || s == 3 || s == 4

/-- Whether a reset of fibre complex `n` is in progress (R94). -/
def Dev.fibreInReset (d : Dev) (n : Nat) : Bool := d.clk.insts.contains (256 + n)

/-- Bits [5:0] of FE_LASER_STATUS (Table 7.6). -/
def Dev.laserConds (d : Dev) (n : Nat) : Nat :=
  b2n (d.num .feState n == 2)
  + 2 * b2n (d.num .hvState == 2)
  + 4 * b2n (d.num .clkFchState 0 n == 2)
  + 8 * b2n (d.num .feLaserForceOff n == 0)
  + 16 * b2n ((d.ch n).rogue == 0)
  + 32 * b2n (actPermits (d.num .actState n))

/-- Channel `n`'s laser-enable carrier, which is also TXDIS_N[n]: high only while every condition
holds (R218), and dropped by loss of HREF (Table 3.3), by resets (R65, R216) and in Deep Sleep and Off. -/
def Dev.laserOn (d : Dev) (n : Nat) : Bool :=
  d.laserConds n == 63 && !d.clk.hrefLost && !d.clk.devReset && !d.fibreInReset n && d.num .pwrState < 3

/-- The carrier has been high for the 100 µs that the laser driver takes (R219). -/
def Dev.laserReady (d : Dev) (n : Nat) : Bool := d.laserOn n && decide (100 ≤ (d.ch n).laserAge)

/-- FE_LASER_STATUS (Table 7.6). -/
def Dev.laserStatus (d : Dev) (n : Nat) : Nat := d.laserConds n + 64 * b2n (d.laserOn n)

/-- FRM_DEFECTS (Table 10.6): bit [5] RDI_TX is set while LOF, AIS or FEC_DEG is set or the circuit complex
holds an incoming failure (R310). Object FRM_DEFECTS stores the other bits, and bit [5] the circuit complex's part. -/
def Dev.defects (d : Dev) (n : Nat) : Nat :=
  let v := d.num .frmDefects n
  putBit v 5 (bitOf v 1 || bitOf v 2 || bitOf v 3 || bitOf v 5)

/-- TIME_STATUS (Table 20.1): SLEWING and HOLDOVER follow the slew in progress and the timing PLL. -/
def Dev.timeStatus (d : Dev) : Nat :=
  putBit (putBit (d.num .timeStatus) 3 (d.tim.slew ≠ 0)) 1 (d.num .clkTimingState == 3)

/-- The operating point in force as TR_OP_ACTIVE reports it (R126). -/
def Dev.opActive (d : Dev) : Nat := max (d.num .trOpTarget) d.pwr.floor

/-- The pending action on a target, if there is one. -/
def Dev.pendingOn (d : Dev) (kind target : Nat) : Option Action :=
  d.acts.find? fun a => a.kind = kind && a.target = target

/-- The frame number of a frame trigger; 0 for another trigger. -/
def Trig.frameNo : Trig → Nat
  | .frame f => f
  | _ => 0

/-- DMT_PROFILE_PENDING (Table 8.6). -/
def Dev.profilePending (d : Dev) (n : Nat) : Nat :=
  match d.pendingOn 2 n with
  | some a => 2 ^ 63 + nth 0 a.arg 0 % 8 * 2 ^ 56 + a.trig.frameNo
  | none => 0

/-- DMT_PROFILE_STATUS (Table 8.6): LOADED and CODEWORDS are stored; the other bits follow. -/
def Dev.profileStatus (d : Dev) (n p : Nat) : Nat :=
  let v := d.num .dmtProfileStatus n p
  let pend := match d.pendingOn 2 n with
    | some a => nth 0 a.arg 0 == p
    | none => false
  b2n (bitOf v 31) * 2 ^ 31 + b2n (p == 0 || bitOf (d.num .dmtProfileEnable n) p) * 2 ^ 30
    + b2n (d.num .dmtProfileActive n == p) * 2 ^ 29 + b2n pend * 2 ^ 28 + v % 1024

/-- The image that DMT_PROFILE of slot 0 reads: b = 2 and GAIN = 8 on every data subcarrier (R241). Its PROFILE is the slot's number and its VERSION 0
(DESIGN CHOICE, log entry 120). -/
def builtinProfile : List Byte :=
  let e : List Byte := List.replicate 1936 0x28
  [0, 1] ++ beBytes 2 1936 ++ zeros 8 ++ beBytes 4 (crc32c e) ++ e

/-- CIPH_FCH_US_PENDING (Table 19.8). -/
def Dev.usKeyPending (d : Dev) (n : Nat) : Nat :=
  match d.pendingOn 3 n with
  | some a => 2 ^ 63 + nth 0 a.arg 0 % 32 * 2 ^ 56 + a.trig.frameNo
  | none => 0

/-- A trigger as Table 5.14 codes it: TRIGGER and the ten bytes of TRIGGER_VALUE. -/
def Trig.code : Trig → Nat
  | .now => 0
  | .frame _ => 1
  | .time _ _ => 2

def Trig.value : Trig → List Byte
  | .now => zeros 10
  | .frame f => beBytes 10 f
  | .time s n => beBytes 6 s ++ beBytes 4 n

/-- An entry of RM_LIST (Table 20.6). -/
def Action.listEntry (a : Action) : List Byte :=
  beBytes 1 a.slot ++ beBytes 1 a.kind ++ beBytes 1 a.trig.code ++ beBytes 1 (if a.committed then 2 else 1)
    ++ beBytes 2 a.code ++ zeros 2
    ++ beBytes 8 (if a.kind = 4 ∨ a.kind = 5 then 0 else a.target) ++ a.trig.value ++ zeros 6

/-- TIME_TPO_STATE (Table 20.7). -/
def Dev.tpoState (d : Dev) (i : Nat) : Nat :=
  if (SMap.get PulseTrain.none d.tim.trains i).running then 2
  else if (d.pendingOn 7 i).isSome then 1 else 0

/-- TIME_NOW (R555): TIME80 and the 16-bit fraction from the top of the 40-bit fraction. -/
def Dev.timeNow (d : Dev) : List Byte :=
  beBytes 6 d.tim.secs ++ beBytes 4 d.tim.ns ++ beBytes 2 (d.tim.frac / 2 ^ 24)

/-- The image in an overlay slot. -/
def Dev.image (d : Dev) (s : Nat) : Image := SMap.get Image.empty d.cfg.slots s

/-- CFG_SLOT_VERSION: .01 the active base, .02 to .41 the overlay slots, .42 the standby base. -/
def Dev.slotVersion (d : Dev) (j : Nat) : Nat :=
  if j = 0 then d.cfg.base.version else if j = 65 then d.cfg.standby.version else (d.image j).version

/-- Whether 10^(k − 1/2) ≤ (num / den)^10000 in thousandths, that is 10^(2k−1) ≤ (num / den)^20000. -/
def log10Ge (num den : Nat) (k : Int) : Bool :=
  if 1 ≤ 2 * k then decide (10 ^ (2 * k - 1).toNat * den ^ 20000 ≤ num ^ 20000)
  else decide (den ^ 20000 ≤ num ^ 20000 * 10 ^ (1 - 2 * k).toNat)

/-- The greatest k at or above `lo` and below `lo` + 2^n for which `log10Ge` holds, by halving. -/
def log10Search (num den : Nat) : Nat → Int → Int
  | 0, lo => lo
  | n + 1, lo =>
    let mid := lo + (2 ^ n : Nat)
    log10Search num den n (if log10Ge num den mid then mid else lo)

/-- round(10000 · log10(num / den)) for ratios from 10^−13 to 10^13. -/
def log10Round (num den : Nat) : Int := log10Search num den 18 (-131072)

/-- FE_RX_POWER (R217): 0x8000_0000 when uncalibrated, not ready or below 10 nA. FE_APD_CURRENT is in nA. -/
def Dev.rxPower (d : Dev) (n : Nat) : Nat :=
  let i := d.num .feApdCurrent n
  let cal := d.num .feRxCal n
  if cal = 0 ∨ d.num .feState n ≠ 2 ∨ i < 10 then 0x80000000 else ofInt 32 (log10Round i (1000 * cal))

/-! ## Ethernet ports (spec/13) -/

/-- Lanes of a port mode and its family, 1 NRZ or 2 PAM4 (Table 13.1). -/
def modeLanes (m : Nat) : Nat := if m = 0 ∨ 6 < m then 0 else if m < 5 then 1 else if m = 5 then 2 else 4
def modeFamily (m : Nat) : Nat := if m < 4 then 1 else 2

/-- Whether a lane group is in fabric personality (R50). -/
def Dev.fabricGroup (d : Dev) (g : Nat) : Bool := d.num .lgPersonality g == 1

/-- What a quad of a group runs (Table 13.7). -/
def Dev.quadUse (d : Dev) (g quad : Nat) : Nat :=
  if d.fabricGroup g then (if d.num .fabEnable g = 1 then 3 else 0)
  else match ((List.range 4).map fun k => 8 * g + 4 * quad + k).find? fun p => d.num .portEnable p == 1 with
    | some p => modeFamily (d.num .portMode p)
    | none => 0

/-- The number of the sender's lane that arrives on lane `k` of a bundle (R398). -/
def Dev.fabLaneId (d : Dev) (g k : Nat) : Nat := (((SMap.get Bundle.none d.fab g).route.find? fun x => x.2 == k).map (·.1)).getD k

/-- The port whose link uses a lane, when it is locked; a fabric lane is locked once aligned. -/
def Dev.laneLocked (d : Dev) (g k : Nat) : Bool :=
  if d.fabricGroup g then bitOf (SMap.get Bundle.none d.fab g).aligned (d.fabLaneId g k)
  else (List.range (k + 1)).any fun j =>
    let p := 8 * g + j
    let s := d.num .portState p
    decide (k < j + d.num .portResolved p / 2 ^ 16 % 16) && (s == 3 || s == 4 || s == 5)

/-- PORT_EEE_TW_TX in µs: IEEE 802.3's default of the mode until a value is resolved or written (R381). -/
def Dev.eeeTw (d : Dev) (p : Nat) : Nat :=
  if d.num .portEeeTwTx p = 0 then Config.eeeWake (d.num .portMode p) else d.num .portEeeTwTx p

/-- Symbol rate / 32 of a port mode's lanes in kHz (Table 13.1). -/
def modeClock (m : Nat) : Nat :=
  match m with
  | 1 => 39062 | 2 => 322265 | 3 => 805664
  | _ => 830078

/-- A nominal rate in kHz that a PLL scales by parts per 10⁹ above nominal, counted against HREF (R82, R106). -/
def scaled (khz : Nat) (ppb : Int) : Nat := ((khz : Int) * (1000000000 + ppb) / 1000000000).toNat

/-- Whether a domain's clock stands: in a device-wide reset, without HREF (R76), in Deep Sleep and Off, and behind a closed gate. TCK does not
depend on the device. -/
def Dev.domainStands (d : Dev) (k : Nat) : Bool :=
  k != 58 && (d.clk.devReset || d.clk.hrefLost || decide (3 ≤ d.num .pwrState) || SMap.get 0 d.clk.gates k == 2)

/-- The fabric receive clock of a lane group in kHz (Table 3.1): the received forwarded clock / 16, at the symbol rate / 32 of fabric lanes. -/
def Dev.fabricRxClock (d : Dev) (g : Nat) : Nat :=
  if d.fabricGroup g && d.num .fabEnable g == 1 && !d.domainStands (24 + g) then 878906 else 0

/-- CLK_DOMAIN_FREQ in kHz (Table 3.1, R106); 0 for a domain that is stopped or gated. FADC, FDSP, FDAC and FMGT follow their fibre PLL's ratio,
TIME, CIRC and SYNCO the timing PLL's. -/
def Dev.domainFreq (d : Dev) (k : Nat) : Nat :=
  let core := 1100000 - 200000 * min d.pwr.clkPoint 3
  if d.domainStands k then 0
  else if k < 4 then nth 0 [100000, 800000, 400000, 32] k
  else if k < 8 then 500000
  else if k < 24 then scaled (nth 0 [998400, 1000000, 800000, 256000] (k / 4 - 2)) (d.ch (k % 4)).pll
  else if k < 36 then
    let g := k - 24
    if d.fabricGroup g then (if d.num .fabEnable g = 1 then 878906 else 0)
    else match ((List.range 8).map (8 * g + ·)).find? fun p => d.num .portEnable p == 1 with
      | some p => modeClock (d.num .portMode p)
      | none => 0
  else if k < 44 then (if d.num .dramState (k - 36) < 2 then 0 else d.num .dramSpeed * 250)
  else if k < 51 then core
  else match k with
    | 51 => 1000000 | 52 => scaled 1000000 d.clk.timPll | 53 => 1350000 | 54 => scaled 311040 d.clk.timPll | 55 => 200000 | 56 => 50000 | 57 => 100000
    | 58 => d.clk.tck
    | 59 => match d.tim.synco with
      | some x => scaled (x.1 / 1000) d.clk.timPll
      | none => 0
    | _ => 0

/-- The clock domain of the block that an object lies in (Table 1.1), where it has a gate of its own. -/
def blockDomain (idx : Nat) : Option Nat :=
  if 0x4000 ≤ idx ∧ idx < 0x5000 then some (12 + (idx - 0x4000) / 0x400)
  else if 0x5000 ≤ idx ∧ idx < 0x5400 then some 54
  else if 0x6000 ≤ idx ∧ idx < 0x6600 then some (24 + (idx - 0x6000) / 0x80)
  else if 0x6800 ≤ idx ∧ idx < 0x68C0 then some (24 + (idx - 0x6800) / 0x10)
  else if 0x6C00 ≤ idx ∧ idx < 0x6CC0 then some (24 + (idx - 0x6C00) / 0x10)
  else if 0x7000 ≤ idx ∧ idx < 0x8000 then some 49
  else if 0x8000 ≤ idx ∧ idx < 0x9000 then some 48
  else if 0x9010 ≤ idx ∧ idx < 0x9090 then some (36 + (idx - 0x9010) / 0x10)
  else if 0x9400 ≤ idx ∧ idx < 0x9800 then some 51
  else if 0x9800 ≤ idx ∧ idx < 0x9C00 then some 52
  else none

/-- A gate that stalls new accesses: it drains or is closed (R102, R105). -/
def Dev.gateShut (d : Dev) (k : Nat) : Bool := SMap.get 0 d.clk.gates k == 1 || SMap.get 0 d.clk.gates k == 2

/-- Whether an access to an object is held at a gate: the dictionary server's own domain SYS, or that of the object's block. -/
def Dev.gated (d : Dev) (idx : Nat) : Bool :=
  d.gateShut 1 || (match blockDomain idx with
    | some k => d.gateShut k
    | none => false)

/-- Whether the clocks of the logic die run, and the device answers on its paths: not in a device-wide reset, without HREF (R76), in Deep Sleep or
Off. -/
def Dev.answers (d : Dev) : Bool := !d.clk.devReset && !d.clk.hrefLost && decide (d.num .pwrState < 3)

/-- What clocked logic does happens while its clock runs. -/
def live (p : Prog) : Prog := .ask fun d => .when d.answers [p]

/-! ## Outputs (Table 3.3, R65, R71)

A ball is in its safe state in a device-wide reset, in Deep Sleep and Off, and while HREF is lost, until the HREF-loss reset has been released. -/

/-- The coefficients of a shape: a preset of Table 7.1, or the custom set (R206), which is preset 0's until FE_TX_COEFF has been written (Table 7.7). -/
def shapeCoeff (shape : Nat) (custom : List Byte) : List Byte :=
  if shape = 3 ∧ custom ≠ [] then custom else padTo 66 (Config.presetCoeff (shape % 3))

/-- The FIR coefficients that channel `n` transmits with: those of the settings its last burst took (R206, R208). -/
def Dev.txCoeffs (d : Dev) (n : Nat) : List Byte := shapeCoeff (d.ch n).txSet.1 (d.ch n).txSet.2.1

/-- The receive gain in 0.5 dB: what the loop has set, or FE_PGA_GAIN (R204). -/
def Dev.pgaGain (d : Dev) (n : Nat) : Nat := if d.num .fePgaMode n = 1 then d.num .fePgaGain n else (d.ch n).pga

/-- Whether every output is in its safe state. -/
def Dev.silent (d : Dev) : Bool := d.clk.devReset || d.clk.hrefLost || decide (3 ≤ d.num .pwrState)

/-- DDRx_RESET_N of a channel: low in the safe state and while the channel is Absent, Disabled or Failed (R508). -/
def Dev.ddrResetN (d : Dev) (c : Nat) : Bool := !d.silent && decide (2 ≤ d.num .dramState c) && d.num .dramState c != 6

/-- TPO of an output (R567): high in a pulse under POLARITY 0 and outside one under POLARITY 1; held low in the safe state. -/
def Dev.tpoPin (d : Dev) (i : Nat) : Bool :=
  !d.silent && (SMap.get PulseTrain.none d.tim.trains i).high != bitOf (beAt (d.oct .timeTpoCfg 0 i) 0 1) 7

/-- The frequency on SYNCO_P/N in units of 10⁻⁹ Hz, under REFERENCE 1 scaled by the circuit reference (R569); 0 is zero differential. -/
def Dev.syncoPin (d : Dev) : Int :=
  if d.silent then 0
  else match d.tim.synco with
    | some x => x.1 * (1000000000 + if x.2 = 1 then d.tim.circRef else 0)
    | none => 0

/-- Electrical idle of the lane and forwarded-clock transmitters of a lane group, and of the PCI Express transmitters of a link. -/
def Dev.laneIdle (d : Dev) (g : Nat) : Bool := d.silent || d.clk.insts.contains (0x200 + g)
def Dev.pcieIdle (d : Dev) (n : Nat) : Bool := d.silent || !d.linkUsed n || !(SMap.get Link.none d.links n).perstN

/-- A burst on FTX[n]: zero differential in the safe state and while none is sent. -/
def Dev.ftxActive (d : Dev) (n : Nat) : Bool := !d.silent && (SMap.get Fch.none d.fch n).burstOn

/-- ALERT_N: low while a response waits on the local serial port (R150). -/
def Dev.alertN (d : Dev) : Bool := d.silent || d.i2c.isEmpty

/-! ## OTP (R579, Table 21.1) -/

/-- Bytes of OTP: bit j of a field lies in byte j / 8, bit j mod 8. -/
def Dev.otpBytes (d : Dev) (off n : Nat) : List Byte := leBytes n (d.otp / 2 ^ (8 * off) % 2 ^ (8 * n))

/-- Whether a bit of a field is programmed. -/
def Dev.otpBit (d : Dev) (off k : Nat) : Bool := bitOf d.otp (8 * off + k)

/-- How many bits of a field are programmed. -/
def Dev.otpCount (d : Dev) (off bits : Nat) : Nat := ((List.range bits).filter (d.otpBit off)).length

/-- The lifecycle state: the highest whose bit is set (R581). -/
def Dev.lifecycle (d : Dev) : Nat :=
  if d.otpBit 0x1E1 2 then 3 else if d.otpBit 0x1E1 1 then 2 else if d.otpBit 0x1E1 0 then 1 else 0

/-- Owner enrolled, and owner lock; in Returned OWNER_STATE binds nothing (R582). -/
def Dev.ownerEnrolled (d : Dev) : Bool := d.otpBit 0x1E2 0 && d.lifecycle != 3
def Dev.ownerLocked (d : Dev) : Bool := d.otpBit 0x1E2 1 && d.lifecycle != 3

/-- SEC_ROLLBACK (R592). -/
def Dev.rollback (d : Dev) : Nat := d.otpCount 0x1F0 128

/-- A debug session at level bit [2] suspends the key ladder, attestation and KEK agreement (R607). -/
def Dev.secSuspended (d : Dev) : Bool := bitOf (d.num .secDebugState) 7 && bitOf (d.num .secDebugState) 2

/-- A DER certificate without its zero padding: its length is the encoding's own. -/
def derTrim (b : List Byte) : List Byte :=
  if beAt b 0 1 ≠ 0x30 then []
  else if beAt b 1 1 < 0x80 then b.take (2 + beAt b 1 1)
  else b.take (2 + beAt b 1 1 % 128 + beAt b 2 (beAt b 1 1 % 128))

/-- The value of an object as the state gives it, apart from the reader (R14). Objects that follow from other
state are computed; every other object reads as it is stored. -/
def Dev.view (d : Dev) (o : Obj) (i j : Nat) : Val :=
  match o with
  | .hifRingFirst => .num (if d.linkUsed i then i * d.bifur.2.1 else 0)
  | .hifRingCount => .num (if d.linkUsed i then d.bifur.2.1 else 0)
  | .hifMsixShare => .num (if d.linkUsed i then d.bifur.2.2 else 0)
  | .feLaserStatus => .num (d.laserStatus i)
  | .feTxCoeff => if (d.oct .feTxCoeff i).isEmpty then .oct (shapeCoeff 0 []) else d.get o i j
  | .frmDefects => .num (d.defects i)
  | .timeStatus => .num d.timeStatus
  | .timeNow => .oct d.timeNow
  | .timeTsPending => .num d.tim.tsq.length
  | .timeTpoState => .num (d.tpoState j)
  | .trOpActive => .num d.opActive
  | .clkDomainFreq => .num (d.domainFreq j)
  | .dmtProfilePending => .num (d.profilePending i)
  | .dmtProfileStatus => .num (d.profileStatus i j)
  | .dmtProfile => if j = 0 then .oct builtinProfile else d.get o i j
  | .dmtSnrMap => if d.num .dmtState i = 3 then d.get o i j else .oct (zeros 1936)
  | .dmtFreqOffset => if d.num .dmtState i = 2 ∨ d.num .dmtState i = 3 then d.get o i j else .num 0x80000000
  | .ciphFchUsPending => .num (d.usKeyPending i)
  | .evrCount => .num d.recd.recs.length
  | .evrOldestSeq => .num (match d.recd.recs with | [] => 0 | r :: _ => r.seq)
  | .evrFreezeState => .num (match d.recd.frozen with | none => 0 | some c => 2 ^ 31 + c)
  | .evrHoldUsed => .num d.recd.hold.length
  | .rmPendingCount => .num d.acts.length
  | .rmList => .oct (d.acts.flatMap Action.listEntry)
  | .cfgApplyStatus => if (d.pendingOn 4 0).isSome then .num (2 ^ 24 + d.num .cfgApplyStatus % 2 ^ 16) else d.get o i j
  | .cfgActiveMask => .num d.cfg.mask
  | .cfgBaseHash => .oct (if d.cfg.base.version = 0 then zeros 48 else d.cfg.base.hash)
  | .cfgSlotVersion => .num (d.slotVersion j)
  | .idGrade => .num (b2n (d.otpBit 0x1E3 0))
  | .secLifecycle => .num d.lifecycle
  | .secRollback => .num d.rollback
  | .secLmsBlocksUsed => .num (d.otpCount 0x300 1024)
  | .secOwnerKeys => .oct (d.otpBytes 0x200 96)
  | .secIdChain => .oct (derTrim (d.otpBytes 0x400 1024) ++ derTrim (d.otpBytes 0x800 1024))
  | .cfgOwnerLocked => .num (b2n d.ownerLocked)
  | .fltTherm => .num (b2n (!d.pins.thermN))
  | .feRxPower => .num (d.rxPower i)
  | .fwdEpochStatus => if (d.pendingOn 5 0).isSome then .num (2 ^ 24) else d.get o i j
  | .lgQuads => .num (4 * d.quadUse i 1 + d.quadUse i 0)
  | .lnFom => if d.laneLocked i j then d.get o i j else .num 0
  | .portEeeTwTx => .num (d.eeeTw i)
  | .fwdEmValid => .num (d.validCount 1)
  | .fwdStashUsed => .num ((d.rows 1).filter fun e => 2 ^ 31 ≤ e.1).length
  | .fwdRoute4Valid => .num (d.validCount 2)
  | .fwdRoute6Valid => .num (d.validCount 3)
  | .fwdPortLearned => .num (d.learnedOn j)
  | .tmSharedFree => .num d.sharedFree
  | .tmDramFree => .num d.dramFree
  | .dramFreeCells =>
    let s := d.num .dramState i
    .num (if s = 3 ∨ s = 4 ∨ s = 5 then d.num .dramCapacity i - d.chanHeld i else 0)
  | .tmDramCells => .num d.dramCells
  | .frmStreamTable => .oct (d.tableRef 6)
  | .fwdEm => .oct (d.tableRef 1)
  | .fwdRoute4 => .oct (d.tableRef 2)
  | .fwdRoute6 => .oct (d.tableRef 3)
  | .fwdNexthop => .oct (d.tableRef 4)
  | .fwdEcmp => .oct (d.tableRef 5)
  | .clsTcam => .oct (d.tableRef 7)
  | .clsRewrite => .oct (d.tableRef 8)
  | .tmMeters => .oct (d.tableRef 16)
  | .tmCounters => .oct (d.tableRef 17)
  | _ => d.get o i j

end Sys2Proof.Machine
end

