-- ==== Sys2Proof/Machine/Queues.lean ====
section
/-!
DEFINITION. Queues of the traffic complex and their place in the hierarchy (R473, R475), drops under a reason (R499), and the discard of a
queue and of the queues of a port node (R498).
-/
namespace Sys2Proof.Machine

/-- Fields of a node record (Table 17.1). -/
def nodeParent (r : List Byte) : Nat := beAt r 0 4
def nodeRate (r : List Byte) : Nat := beAt r 4 4
def nodeBurst (r : List Byte) : Nat := beAt r 8 4
def nodeWeight (r : List Byte) : Nat := beAt r 12 1
def nodeCtrl (r : List Byte) : Nat := beAt r 13 1
def nodeExtra (r : List Byte) : Nat := beAt r 14 2
def nodeHead (r : List Byte) : Nat := beAt r 16 2

/-- Node records, and a port node's. -/
def Dev.queueRec (d : Dev) (q : Nat) : List Byte := d.oct .tmQueueCfg 0 q
def Dev.subRec (d : Dev) (s : Nat) : List Byte := d.oct .tmSubCfg 0 s
def Dev.svcRec (d : Dev) (v : Nat) : List Byte := d.oct .tmSvcCfg 0 v
def Dev.portRec (d : Dev) (p : Nat) : List Byte := d.oct .tmPortCfg 0 p

/-- RATE and BURST of a port node's record (Table 17.2). -/
def portNodeRate (r : List Byte) : Nat := beAt r 0 4
def portNodeBurst (r : List Byte) : Nat := beAt r 4 4

/-- ENABLE, DRAM and TC of a queue. -/
def Dev.queueOn (d : Dev) (q : Nat) : Bool := bitOf (nodeCtrl (d.queueRec q)) 7
def Dev.queueDram (d : Dev) (q : Nat) : Bool := bitOf (nodeCtrl (d.queueRec q)) 6
def Dev.queueTc (d : Dev) (q : Nat) : Nat := bitsOf (nodeCtrl (d.queueRec q)) 3 3

/-- Ancestors of a queue: subscriber node, service node, port node. -/
def Dev.subOf (d : Dev) (q : Nat) : Nat := nodeParent (d.queueRec q)
def Dev.svcOf (d : Dev) (q : Nat) : Nat := nodeParent (d.subRec (d.subOf q))
def Dev.portOf (d : Dev) (q : Nat) : Nat := nodeParent (d.svcRec (d.svcOf q))

/-- What a queue holds. -/
def Dev.queue (d : Dev) (q : Nat) : List QPkt := SMap.get [] d.tm.queues q

/-- Queues that hold packets, in order. -/
def Dev.busyQueues (d : Dev) : List Nat := d.tm.queues.map (·.1)

/-- A queue's counts change. -/
def queueCount (q : Nat) (f : QCount → QCount) : Prog :=
  .eff (.tm fun t => { t with counts := SMap.upd QCount.none q f t.counts })

/-- A drop under a reason (Table 17.7), in a queue where one is known. -/
def tmDrop (reason : Nat) (q : Option Nat) : Prog :=
  .all [count .tmDrops 0 (reason - 1),
    match q with
    | some k => queueCount k fun c => { c with drops := satAdd 64 c.drops 1 }
    | none => .skip]

/-- Event 368: the shared pool falls below 1/16 of its size; again only after it has risen above 1/8. -/
def poolCheck : Prog :=
  .ask fun d => .all [
    .when (!d.tm.low && decide (d.sharedFree * 16 < d.sharedSize)) [raise 368, .eff (.tm fun t => { t with low := true })],
    .when (d.tm.low && decide (d.sharedSize < d.sharedFree * 8)) [.eff (.tm fun t => { t with low := false })]]

/-- Every packet of a queue is discarded under a reason. -/
def flushQueue (q reason : Nat) : Prog :=
  .ask fun d => .all [
    .each (d.queue q) fun _ => tmDrop reason (some q),
    .eff (.tm fun t => { t with queues := SMap.put [] q [] t.queues }),
    poolCheck]

/-- The queues of a port node are discarded (R388, R411, R479, R498). -/
def flushPort (p reason : Nat) : Prog :=
  .ask fun d => .each (d.busyQueues.filter fun q => d.portOf q == p) fun q => flushQueue q reason

/-! ## The configuration a packet sees (R45) -/

/-- The objects an application changed, put back over a store. -/
def restorePast (m : SMap (Option Val)) (past : SMap (Option Val)) : SMap (Option Val) :=
  past.foldl (fun o e => SMap.put none e.1 e.2 o) m

/-- The device with the dictionary as a configuration epoch has it. -/
def Dev.asOf (d : Dev) (epoch : Nat) : Dev :=
  let back := (List.range (d.cfg.epoch - epoch)).map fun k => SMap.get [] d.cfg.past (d.cfg.epoch - 1 - k)
  { d with objs := back.foldl restorePast d.objs }

/-- The device as a packet of a configuration epoch has it; as it is for one that carries none. -/
def Dev.seen (d : Dev) : Option Nat → Dev
  | none => d
  | some e => d.asOf e

/-! ## The ingress reserve (R25, R38, R492) -/

/-- Cells of the ingress reserve that a share holds: packets that wait for dispatch or are in forwarding (R25, R492). -/
def Dev.ingressCells (d : Dev) (p : Nat) : Nat :=
  let mine (x : Pkt) := if 116 ≤ p then decide (116 ≤ x.port) else x.port == p
  (((d.fwd.waiting ++ d.fwd.flight).filter mine).map fun x => cellsOf x.data).sum

/-- The share a port draws from (R38, R492). -/
def Dev.ingressShare (d : Dev) (p : Nat) : Nat := if 116 ≤ p then d.num .tmIresControl else d.num .tmIresShare 0 p

end Sys2Proof.Machine
end

