-- ==== Sys2Proof/Machine/Fibre.lean ====
section
/-!
DEFINITION. Operations on a fibre channel that several commands share: activation transitions (Table 12.7),
the PLLs (Table 3.2), loss of the recovered reference (Table 3.5), the front end's states (Table 7.7),
the management queue (R279) and fibre doze (R363).
-/
namespace Sys2Proof.Machine

/-- Event source k of channel n (128 + 16n + k). -/
def chEvt (n k : Nat) : Nat := 128 + 16 * n + k

/-- SYNC of TIME_STATUS set or cleared; event 432 on a change (Tables 20.1 and 20.8). -/
def setSync (b : Bool) : Prog :=
  .ask fun d => .when (d.synced != b) [setFlag .timeStatus 0 0 0 b, raise 432]

/-- Whether an object key is an allocation slot of channel `n` (R364). -/
def isAllocKey (n k : Nat) : Bool :=
  decide (0x4310 + 0x400 * n ≤ k / 256) && decide (k / 256 < 0x4318 + 0x400 * n)

/-- Handle, allocations and delay are dropped (Table 12.7). -/
def dropParams (n : Nat) : Prog :=
  .all [putN .actHandle n 0 0xFFFF, putN .actEqd n 0 0, .eff (.dropObjs (isAllocKey n)),
    .eff (.fch n fun c => { c with
      unranged := true, eqdTaken := false, bursts := [], cuts := [], select := none, modePend := none })]

/-- The activation state changes; event 128 + 16n + 14 names the old and the new state, with CODE the row of
Table 12.7 (14: group not formed). Leaving Operating cuts the burst and the schedule, and takes SYNC with it
on the timing channel under TIME_SOURCE = 0 (Table 20.1). Entry to Initial, Listening or Disabled discards the queues of
port node 108 + n (R479, R498). -/
def actTo (n new cause : Nat) : Prog :=
  .ask fun d =>
    let old := d.num .actState n
    .when (old != new)
      [putN .actState n 0 new,
       raise (chEvt n 14) n cause (top8 old + new % 256 * 65536),
       .when (old == 4) [
         .eff (.fch n fun c => { c with burstOn := false, onAir := none, bursts := [] }),
         .when (d.num .timeSource == 0 && d.num .clkTimingChannel == n) [setSync false]],
       .when (new == 0 || new == 1 || new == 6) [flushPort (108 + n) 8]]

/-- Activation restarts in Initial (row 2 of Table 12.7); the spreading factors return to 12 (R283). -/
def actInitial (n : Nat) : Prog :=
  .ask fun d => .when (d.num .actState n != 6)
    [actTo n 0 2, dropParams n, putN .mgtCmSfRx n 0 12, putN .mgtCmSfTx n 0 12,
     .eff (.fch n fun c => { c with cmSfNow := 12, windows := [], attempt := 0, skips := 0, holdoff := false })]

/-- The terminal returns to Listening, with its parameters dropped where Table 12.7 says so. -/
def actListening (n cause : Nat) (drop : Bool) : Prog :=
  .all [actTo n 1 cause, .when drop [dropParams n],
    .eff (.fch n fun c => { c with windows := [], attempt := 0, skips := 0 })]

/-- Holding becomes Ranging once alignment is in Sync and the fibre PLL Locked; the delay is marked unranged. -/
def holdCheck (n : Nat) : Prog :=
  .ask fun d => .when (d.num .actState n == 5 && d.num .frmAlignState n == 2 && d.num .clkFchState 0 n == 2)
    [actTo n 3 12, .eff (.fch n fun c => { c with unranged := true, eqdTaken := false })]

/-- Operating becomes Holding (row 10 of Table 12.7). -/
def toHolding (n : Nat) : Prog :=
  .ask fun d => .when (d.num .actState n == 4) [actTo n 5 10]

/-- The mean of whole offsets, rounded down. -/
def meanInt (l : List Int) : Int := l.sum / l.length

/-- The ratio on which a PLL goes into Holdover (R82): from Locked the mean of the reference's last 1,000 frames, from Slewing the ratio it had
reached; in Holdover it keeps its ratio. -/
def holdRatio (state : Nat) (reached : Int) (ratios : List Int) : Int :=
  if state = 2 ∧ ratios ≠ [] then meanInt ratios else reached

/-- The timing PLL's state changes. Outside Locked the offset of HREF is unmeasured (R77, Table 3.10). -/
def timingTo (s : Nat) : Prog :=
  .all [putN .clkTimingState 0 0 s, .when (s != 2) [putN .clkHrefOffset 0 0 0x80000000]]

/-- The timing PLL goes into Holdover on the ratio in force, which followed channel `t` (R82). -/
def timingHold (t : Nat) : Prog :=
  .all [
    .ask fun d => .eff (.clk fun c => { c with timPll := holdRatio (d.num .clkTimingState) c.timPll (d.ch t).ratios }),
    timingTo 3]

/-- The lowest-numbered channel other than `n` whose fibre PLL is Locked (R89). -/
def Dev.otherLocked (d : Dev) (n : Nat) : Option Nat :=
  (List.range 4).find? fun m => m != n && d.num .clkFchState 0 m == 2

/-- With CLK_TIMING_FALLBACK = 1, while the timing channel stays lost, the timing PLL in Holdover moves to the lowest other Locked channel, through
Slewing, and event 20 is raised (R79, R89). -/
def timingFallback : Prog :=
  .ask fun d =>
    let t := d.num .clkTimingChannel
    match d.otherLocked t with
    | some m =>
      .when (d.num .clkTimingFallback == 1 && d.num .clkTimingState == 3 && !(d.ch t).refValid)
        [putN .clkTimingChannel 0 0 m, timingTo 1, raise 20 m]
    | none => .skip

/-- The timing PLL loses its reference, which was channel `t`'s: Holdover, SYNC cleared (Table 20.1), then R89. -/
def timingLost (t : Nat) : Prog := .all [timingHold t, setSync false, timingFallback]

/-- Table 3.5: the recovered reference of channel `n` is lost. The burst is cut, the fibre PLL and, on the
timing channel, the timing PLL go to Holdover on the ratios of R82, event 8 + n is raised, and Operating becomes Holding. A channel whose PLL
leaves Locked must be ranged again before it transmits on (R83). -/
def refLost (n : Nat) : Prog :=
  .ask fun d =>
    let s := d.num .clkFchState 0 n
    .all [
      .eff (.fch n fun c => { c with refValid := false, burstOn := false, onAir := none }),
      .when (s == 1 || s == 2) [
        putN .clkFchState 0 n 3, raise (8 + n) n,
        .when (d.num .clkTimingChannel == n && (d.num .clkTimingState == 1 || d.num .clkTimingState == 2)) [timingLost n],
        .eff (.fch n fun c => { c with pll := holdRatio s c.pll c.ratios, ratios := [] }),
        .when (s == 2) [.eff (.fch n fun c => { c with unranged := true, eqdTaken := false })],
        toHolding n]]

/-- The recovered reference of channel `n` becomes valid: its PLLs leave Free or Holdover for Slewing (Table 3.2). -/
def refValidNow (n : Nat) : Prog :=
  .ask fun d =>
    let s := d.num .clkFchState 0 n
    .all [
      .eff (.fch n fun c => { c with refValid := true }),
      .when (s == 0 || s == 3) [putN .clkFchState 0 n 1],
      .when (d.num .clkTimingChannel == n && (d.num .clkTimingState == 0 || d.num .clkTimingState == 3))
        [timingTo 1]]

/-- How far a PLL in Slewing moves in a frame of 125 µs, in parts per 10⁹: 0.1 ppm each µs (R81). -/
def slewStep (ratio target : Int) : Int := ratio + max (-12500) (min 12500 (target - ratio))

/-- The offset of channel `n`'s recovered reference from HREF in parts per 10⁹. The ADC runs from HREF until the fibre PLL is Locked and from that PLL
then, and DMT_FREQ_OFFSET is its clock's offset against the head end (R234; the sum is DEDUCED, log entry 119). -/
def Dev.refOffset (d : Dev) (n : Nat) : Int :=
  let adc := if d.num .clkFchState 0 n = 2 then (d.ch n).pll else 0
  if d.num .dmtFreqOffset n = 0x80000000 then adc else adc - toInt 32 (d.num .dmtFreqOffset n)

/-- A frame of a valid recovered reference: a Locked PLL follows its offset, which joins the last 1,000 (R82), and a Slewing one moves toward
it (R81); so does the timing PLL on its channel. -/
def pllFrame (n : Nat) : Prog :=
  .ask fun d =>
    let o := d.refOffset n
    let follow (state : Nat) (ratio : Int) : Int := if state = 2 then o else if state = 1 then slewStep ratio o else ratio
    .when (d.ch n).refValid [
      .eff (.fch n fun c => { c with pll := follow (d.num .clkFchState 0 n) c.pll, ratios := (o :: c.ratios).take 1000 }),
      .when (d.num .clkTimingChannel == n) [
        .eff (.clk fun c => { c with timPll := follow (d.num .clkTimingState) c.timPll })]]

/-- The channel is disabled: its fibre PLL returns to Free, at the nominal ratio (Table 3.2). -/
def pllFree (n : Nat) : Prog := .all [refLost n, putN .clkFchState 0 n 0, .eff (.fch n fun c => { c with pll := 0 })]

/-- The DMT receiver leaves Acquire or Locked for state `dest`; leaving Locked raises event 128 + 16n + 5 with
its cause and withdraws the valid flag (R233, Table 8.7). -/
def dmtLeave (n dest cause : Nat) : Prog :=
  .ask fun d => .all [
    .when (d.num .dmtState n == 3) [raise (chEvt n 5) n cause, refLost n],
    .eff (.fch n fun c => { c with dmt := { DmtRx.none with adv := c.dmt.adv, dec := if dest = 0 then [] else c.dmt.dec } }),
    putN .dmtState n 0 dest]

/-- DMT_PROFILE_ACTIVE returns to 0 and every slot from 1 to 7 is disabled (R247). -/
def profilesOff (n : Nat) : Prog := .all [putN .dmtProfileActive n 0 0, putN .dmtProfileEnable n 0 1]

/-- Every open fragment chain of the channel is discarded and counted (R301). -/
def dropChains (n : Nat) : Prog :=
  .ask fun d => .all [countBy .frmChainDiscards n 0 (d.ch n).chains.length,
    .eff (.fch n fun c => { c with chains := [], cut := none })]

/-- A stored bit of FRM_DEFECTS takes a value; a change raises its event (Table 10.8). Source 13 names the defect. A defect
that masks others or makes a defect second is noted (R311). -/
def setDefect (n bit : Nat) (b : Bool) : Prog :=
  .ask fun d => .when (bitOf (d.num .frmDefects n) bit != b) [
    setFlag .frmDefects n 0 bit b,
    raise (chEvt n (if bit = 0 then 12 else if bit = 1 then 11 else 13)) n 0 (if bit < 2 then 0 else top8 bit),
    .when (b && decide (bit < 3)) [.eff (.fch n fun c => { c with pm := { c.pm with defect := true } })]]

/-- FE_STATE takes a new value (Table 7.7). Reaching 2 starts Search (R232), Hunt (Table 10.2) and Listening (Table
12.7); leaving 2 disables the receiver with cause 3 and ends the management receptions (R259). -/
def feTo (n new : Nat) : Prog :=
  .ask fun d =>
    let old := d.num .feState n
    .all [
      putN .feState n 0 new,
      .when (new == 2 && old != 2) [
        raise (chEvt n 0) n,
        putN .dmtState n 0 1, profilesOff n, putN .frmAlignState n 0 0,
        .eff (.fch n fun c => { c with presync := 0, failRun := 0, outFrames := 0 }),
        .ask fun e => .when (e.num .actState n == 0) [actTo n 1 4]],
      .when (new != 2 && old == 2) [
        dmtLeave n 0 3,
        .eff (.fch n fun c => { c with rx := [] })]]

/-- A packet joins the upstream management queue of 16 (R279): a Lemow message ahead of every Umani response
not yet begun. A packet that meets a full queue is dropped, counted and raises event 128 + 16n + 9. -/
def txEnqueue (n : Nat) (p : TxPkt) : Prog :=
  .ask fun d =>
    let q := (d.ch n).txq
    if q.length < 16 then
      .eff (.fch n fun c => { c with
        txq := if p.lemow then c.txq.filter (·.lemow) ++ [p] ++ c.txq.filter (!·.lemow) else c.txq ++ [p] })
    else .all [count .mgtTxDrops n, raise (chEvt n 9) n]

/-- An item joins the in-band management queue of 16, or is dropped and counted in ACT_INBAND_DROPS. -/
def inbandEnqueue (n : Nat) (p : TxPkt) : Prog :=
  .ask fun d =>
    if (d.ch n).inq.length < 16 then .eff (.fch n fun c => { c with inq := c.inq ++ [p] })
    else count .actInbandDrops n

/-- A Lemow message (Table 12.1): code, sequence number and body. -/
def lemowMsg (code seq : Nat) (body : List Byte) : List Byte :=
  beBytes 1 code ++ [0] ++ beBytes 2 seq ++ body

/-- An unsolicited Lemow message leaves in-band when an MGMT grant was decoded within the last 8 frames, and on
the management band otherwise (R340). -/
def sendLemow (n code : Nat) (body : List Byte) : Prog :=
  .ask fun d =>
    let c := d.ch n
    let m := lemowMsg code c.seqNo body
    let recent := match c.mgmtAt with
      | some f => decide (d.num .frmFrame n ≤ f + 8)
      | none => false
    .all [
      .eff (.fch n fun c => { c with seqNo := (c.seqNo + 1) % 65536 }),
      if recent then inbandEnqueue n ⟨true, 0, m⟩
      else txEnqueue n ⟨true, 2, m⟩]

/-- The answer to a Lemow message, with its SEQ, on the path that carried it (R339, R340). -/
def answerLemow (n : Nat) (inband : Bool) (code seq : Nat) (body : List Byte) : Prog :=
  if inband then inbandEnqueue n ⟨true, 0, lemowMsg code seq body⟩ else txEnqueue n ⟨true, 2, lemowMsg code seq body⟩

/-- Doze is withdrawn on a channel: DOZE_END is queued (R363) where doze was accepted or is running; a request still
open is dropped. -/
def withdrawDoze (n : Nat) : Prog :=
  .ask fun d =>
    let s := d.num .actDozeState n
    .all [
      .when (s == 2 || s == 3) [putN .actDozeState n 0 4, sendLemow n 0x45 []],
      .when (s == 1) [putN .actDozeState n 0 0]]

/-- The place of the present frame in the cycle of a dozing terminal (R362). -/
def Dev.dozePlace (d : Dev) (n : Nat) : Nat := d.num .frmFrame n % max 1 (d.ch n).dozeCycle

/-- Whether the terminal is dozing outside an awake period (R362). -/
def Dev.dozing (d : Dev) (n : Nat) : Bool := d.num .actDozeState n == 3 && decide ((d.ch n).dozeAwake ≤ d.dozePlace n)

/-- Whether the receivers are off: dozing, and not within the 8 frames before an awake period (R362). -/
def Dev.asleep (d : Dev) (n : Nat) : Bool := d.dozing n && decide (d.dozePlace n + 8 < (d.ch n).dozeCycle)

end Sys2Proof.Machine
end

