-- ==== Sys2Proof/Machine/HostPath.lean ====
section
/-!
DEFINITION. MSI-X vectors and device rings (R183 to R194): what every unit that delivers to a host shares.
-/
namespace Sys2Proof.Machine

/-- Key of a function: link × 64 + function. -/
def fnKey (link fn : Nat) : Nat := link * 64 + fn

/-- Key of a vector of a function. -/
def vecKey (fk v : Nat) : Nat := fk * 2048 + v

/-- Vectors of each VF while VF Enable is set (R193): HIF_MSIX_VF_VECTORS, or automatic when it is 0. -/
def Dev.vfShare (d : Dev) (link numVfs : Nat) : Nat :=
  let pf := d.num .hifMsixPfVectors link
  let set := d.num .hifMsixVfVectors link
  if set ≠ 0 then set
  else
    let q := (d.bifur.2.2 - pf) / max 1 numVfs
    if q = 0 then 0 else min 32 (2 ^ Nat.log2 q)

/-- Vectors of a function (R193). -/
def Dev.vectorsOf (d : Dev) (link fn : Nat) : Nat :=
  if fn = 0 then d.num .hifMsixPfVectors link else (d.lnk link).vfVecs

/-- Whether a function is enabled: the PF of a used link, and VFs 1 to HIF_NUM_VFS. -/
def Dev.fnEnabled (d : Dev) (link fn : Nat) : Bool :=
  d.linkUsed link && decide (fn ≤ d.num .hifNumVfs link)

/-- A function can send a message: enabled, MSI-X Enable set, its link up (R194). -/
def Dev.canSignal (d : Dev) (link fn : Nat) : Bool :=
  d.fnEnabled link fn && (d.fn (fnKey link fn)).msixOn && d.num .hifLinkState link == 2

/-- The message of a vector leaves, with the address and data of its table entry. -/
def sendVector (fk v : Nat) : Prog :=
  .ask fun d =>
    let x := SMap.get Vec.none d.vecs (vecKey fk v)
    send .msix fk v (leBytes 8 x.addr ++ leBytes 4 x.data)

/-- A vector is asserted: its message leaves, or waits while the vector or the function is masked (R194). -/
def assertVector (link fn v : Nat) : Prog :=
  .ask fun d => .when (d.canSignal link fn)
    [let fk := fnKey link fn
     if (d.fn fk).msixMask || (SMap.get Vec.none d.vecs (vecKey fk v)).masked then
       .eff (.vec (vecKey fk v) fun x => { x with pend := true })
     else sendVector fk v]

/-! ## Rings -/

/-- Fields of a ring's setup argument (Table 6.10). -/
def Ring.kind (r : Ring) : Nat := beAt r.setup 2 1
def Ring.func (r : Ring) : Nat := beAt r.setup 3 1
def Ring.log2 (r : Ring) : Nat := beAt r.setup 4 1
def Ring.sev (r : Ring) : Nat := beAt r.setup 5 1
def Ring.vector (r : Ring) : Nat := beAt r.setup 6 2
def Ring.base (r : Ring) : Nat := beAt r.setup 8 8
def Ring.wb (r : Ring) : Nat := beAt r.setup 16 8
def Ring.itr (r : Ring) : Nat := beAt r.setup 24 2
def Ring.cnt (r : Ring) : Nat := beAt r.setup 26 2

/-- Whether the crossings between a function's side and the rest of the device are Closed (R96). -/
def Dev.hostClosed (d : Dev) (link fn : Nat) : Bool :=
  d.clk.closed.contains 0 || d.clk.closed.contains (0x700 + link) || d.clk.closed.contains (0x800 + fnKey link fn)

/-- A distance between two free-running 32-bit indices. -/
def ixDist (a b : Nat) : Nat := (a + 2 ^ 32 - b % 2 ^ 32) % 2 ^ 32

/-- Function key of a ring's holder. -/
def Dev.ringFn (d : Dev) (r : Nat) : Nat := fnKey (d.linkOfRing r) (d.ringSt r).func

/-- Every crossing of a scope closes (R91, R96); `lost` transactions that its far sides had not accepted are discarded and counted, with event
16. -/
def closeScope (key lost : Nat) : Prog :=
  .all [
    .eff (.clk fun c => { c with closed := if c.closed.contains key then c.closed else c.closed ++ [key] }),
    .when (lost != 0) [countBy .xingClosedDiscards 0 0 lost, raise 16]]

/-- The outcome of the DMA of a descriptor: 5 through a Closed crossing (Table 3.9), otherwise the host's. -/
def Dev.dmaOf (d : Dev) (r : Nat) (x : Desc) : Nat :=
  if d.hostClosed (d.linkOfRing r) (d.ringSt r).func then 5 else x.dma.toNat

/-- A ring is in error with a status; event 64 + 16n + 8 is raised (R184, R189). -/
def ringError (r status : Nat) : Prog :=
  .ask fun d => .all [
    .eff (.ring r fun x => { x with state := 2, err := status }),
    raise (64 + 16 * d.linkOfRing r + 8) r status]

/-- A ring's vector is raised, when its setup enables one. -/
def ringVector (r : Nat) : Prog :=
  .ask fun d =>
    let g := d.ringSt r
    .all [.eff (.ring r fun x => { x with unsig := 0 }),
      .when (bitOf g.vector 15) [assertVector (d.linkOfRing r) g.func (g.vector % 2048)]]

/-- One entry of a ring is finished: DEVICE_INDEX moves on and is written back, and the vector follows R191. -/
def ringAdvance (r : Nat) : Prog :=
  .all [
    .eff (.ring r fun x => { x with devIx := (x.devIx + 1) % 2 ^ 32, unsig := x.unsig + 1 }),
    .ask fun d =>
      let g := d.ringSt r
      .all [
        .when (g.wb != 0) [send .dma (d.ringFn r) g.wb (leBytes 4 g.devIx)],
        .when (g.itr == 0 || decide (g.cnt ≤ g.unsig)) [ringVector r]]]

/-- The length of a descriptor's buffer: LEN [23:0] (Table 6.7). -/
def descSize (x : Desc) : Nat := x.len.toNat % 2 ^ 24

/-- META without its reserved bits [26:17] (Table 6.8). -/
def metaClean (m : Nat) : Nat := m / 2 ^ 27 * 2 ^ 27 + m % 2 ^ 17

/-- The write-back of a descriptor (R185, R186): ADDR, COOKIE and EPOCH unchanged, DONE set, and MORE on a part of a packet; reserved bits are 0
(R10). -/
def descWriteBack (x : Desc) (len status metaw : Nat) (more : Bool) : List Byte :=
  leBytes 8 x.addr.toNat ++ leBytes 4 (len % 2 ^ 24) ++ leBytes 2 (2 ^ 15 + 2 ^ 14 * b2n more)
    ++ leBytes 2 status ++ leBytes 8 (metaClean metaw) ++ leBytes 4 x.cookie.toNat ++ leBytes 4 x.epoch.toNat

/-- A reserved value in a descriptor (R186, R187, Tables 6.7 and 6.8): DONE set or STATUS not 0 on post, or MORE on a kind that has none. Reserved
fields are ignored (R11, DEDUCED, log entry 101). -/
def descBad (kind : Nat) (x : Desc) : Bool :=
  bitOf x.ctrl.toNat 15 || x.status != 0 || (bitOf x.ctrl.toNat 14 && kind != 1 && kind != 2)

/-- The status in which a posted descriptor ends before it is used (Table 6.9): a stale epoch, then a reserved value, then what the DMA met; 0 when
it may be used. -/
def Dev.descFate (d : Dev) (r : Nat) (x : Desc) : Nat :=
  if x.epoch.toNat ≠ (d.fn (d.ringFn r)).epoch then 2
  else if descBad (d.ringSt r).kind x then 3
  else if d.dmaOf r x = 4 ∨ d.dmaOf r x = 5 then d.dmaOf r x
  else 0

/-- The posted descriptors of a ring that are neither stale nor malformed. -/
def Dev.goodDescs (d : Dev) (r : Nat) : List Desc :=
  (d.ringSt r).posted.filter fun x => d.descFate r x != 2 && d.descFate r x != 3

/-- The oldest posted descriptor of a ring is finished with a status, bytes used and META; a status of 4 or 5 puts the ring
into error (R189), and a stale epoch raises event 64 + 16n + 9 (R195). -/
def ringPart (r status len metaw : Nat) (more : Bool) : Prog :=
  .ask fun d =>
    let g := d.ringSt r
    match g.posted with
    | [] => .skip
    | x :: _ => .all [
        send .dma (d.ringFn r) (g.base + 32 * (g.devIx % 2 ^ g.log2)) (descWriteBack x len status metaw more),
        .eff (.ring r fun y => { y with posted := y.posted.tail }),
        ringAdvance r,
        .when (status == 2) [raise (64 + 16 * d.linkOfRing r + 9) r],
        .when (status == 4 || status == 5) [ringError r status]]

/-- The oldest posted descriptor is finished as a whole. -/
def ringComplete (r status len metaw : Nat) : Prog := ringPart r status len metaw false

/-- The attributes of packet data written for a ring (R176): what the link's physical function has enabled in its Device Control register. -/
def Dev.dataKind (d : Dev) (r : Nat) : OutKind :=
  let v := SMap.get (0x2810 + 1) (d.fn (fnKey (d.linkOfRing r) 0)).cfg 0x78 - 1
  .packetDma (bitOf v 4) (bitOf v 11)

/-- Bytes scattered over the posted buffers of a ring in order, MORE set on every part but the last (R186, R187, R502). A stale or malformed buffer is
passed over. What finds no buffer is left, and `rest` takes it; a host error ends the scatter with nothing left. -/
def ringScatter (r metaw : Nat) (rest : List Byte → Prog) : Nat → List Byte → Prog
  | 0, data => rest data
  | fuel + 1, data =>
    .ask fun d =>
      let g := d.ringSt r
      match g.posted with
      | [] => rest data
      | x :: _ =>
        let fate := d.descFate r x
        if fate = 2 ∨ fate = 3 then .seq (ringComplete r fate 0 0) (ringScatter r metaw rest fuel data)
        else if fate ≠ 0 then .seq (ringComplete r fate 0 0) (rest [])
        else
          let k := min (descSize x) data.length
          .all [
            send (if g.kind = 1 then d.dataKind r else .dma) (d.ringFn r) x.addr.toNat (data.take k),
            ringPart r 0 k metaw (decide (k < data.length)),
            if k < data.length then ringScatter r metaw rest fuel (data.drop k) else rest []]

/-- A ring "has a live lease": it is running and its holder's lease is live (R196). -/
def Dev.ringLive (d : Dev) (r : Nat) : Bool := (d.ringSt r).state == 1 && (d.fn (d.ringFn r)).live

/-- A device write of `data` into the oldest posted buffer of a ring: a stale epoch leaves the buffer untouched
(R186), a short buffer truncates (Table 6.9). -/
def ringFill (r metaw : Nat) (data : List Byte) : Prog :=
  .ask fun d =>
    let g := d.ringSt r
    match g.posted with
    | [] => .skip
    | x :: _ =>
      if d.descFate r x ≠ 0 then ringComplete r (d.descFate r x) 0 0
      else .all [
        send .dma (d.ringFn r) x.addr.toNat (data.take (descSize x)),
        ringComplete r (if (descSize x) < data.length then 1 else 0) (min (descSize x) data.length) metaw]

end Sys2Proof.Machine
end

