-- ==== Sys2Proof/Machine/Server.lean ====
section
/-!
DEFINITION. The dictionary server: requesters and paths (Tables 5.4 and 5.6), access and ownership (R14 to R18, R155 to
R157), the order of checks (Table 5.8), responses (R142 to R146), and wake sources (R119 to R124).
-/
namespace Sys2Proof.Machine

/-! ## Paths -/

/-- Key of a path. A mailbox is one path for each function (R180); the management band of a channel is one path (R145), and each
Umani ring is a path of its own (DESIGN CHOICE, log entry 113). -/
def pathKey : UPath → Nat
  | .mailbox l f _ => fnKey l.val f.val
  | .ring r => 0x1000 + r.val
  | .inband n _ => 0x2000 + n.val
  | .mband n _ => 0x2010 + n.val
  | .serial => 0x2020
  | .internal => 0x2021

/-- Largest message of a path (Table 5.6). The internal path of the security complex has none in the table. -/
def pathMax : UPath → Nat
  | .mband _ _ => 1024
  | .serial => 256
  | .internal => 2 ^ 32
  | _ => 4096

/-- Largest DATA of a path (Table 5.6). -/
def pathData (p : UPath) : Nat := pathMax p - 16

/-- Whether a path carries multi-byte fields least significant byte first: the host's do (R7, R8). -/
def pathLittle : UPath → Bool
  | .mailbox _ _ _ => true
  | .ring _ => true
  | _ => false

/-- A number on a path, as `n` bytes. -/
def pathBytes (p : UPath) (n v : Nat) : List Byte := if pathLittle p then leBytes n v else beBytes n v

/-- The requester code of a path (Table 5.4, R14). -/
def Dev.codeOf (d : Dev) : UPath → Nat
  | .mailbox l f _ => 0x0100 + fnKey l.val f.val
  | .ring r => 0x0100 + d.ringFn r.val
  | .inband _ _ => 0x0200
  | .mband _ _ => 0x0200
  | .serial => 0x0300
  | .internal => 0x0400

/-- Whether a requester code is a host function's. -/
def isHost (code : Nat) : Bool := code / 256 == 1
/-- The link of a host requester. -/
def hostLink (code : Nat) : Nat := code % 256 / 64
/-- The function of a host requester. -/
def hostFn (code : Nat) : Nat := code % 64
/-- The function key of a host requester. -/
def hostKey (code : Nat) : Nat := code % 256

/-- What a path keeps for its requester. -/
def Dev.path (d : Dev) (p : UPath) : UPathSt := SMap.get UPathSt.none d.um (pathKey p)

/-! ## Requests -/

/-- The bytes that mailbox slot `s` of function `k` holds. -/
def Dev.slotBytes (d : Dev) (k s : Nat) : List Byte := padTo 4096 (SMap.get [] (d.fn k).resp s)

/-- A host writes bytes into a mailbox slot (R180). A write into a busy slot does not change the request (R181). -/
def slotWrite (k s off : Nat) (b : List Byte) : Prog :=
  .ask fun d => .eff (.fn k fun y => { y with resp := SMap.put [] s (patch (d.slotBytes k s) off b) y.resp })

/-- What a request's INDEX and SUBINDEX name (R134, R137): no object, an index without that subindex, subindex 0, or an element. -/
inductive Tgt where
  | noIndex
  | noSub
  | count (idx : Nat)
  | elem (o : Obj) (i j : Nat)
  deriving DecidableEq, Repr

/-- What an index and a subindex name. -/
def target (idx sub : Nat) : Tgt :=
  if !indexExists idx then .noIndex
  else if sub = 0 then .count idx
  else match Obj.find idx sub with
    | some (o, i, j) => .elem o i j
    | none => .noSub

/-- A request: what its response echoes, what it names, whether its form is right (ABORT 0, OFFSET 0 outside block
operations, length as the type or the command gives), and its value or argument. -/
structure Req where
  call : Call
  tgt : Tgt
  form : Bool
  v : Val

/-- How a request ends: done with DATA; an abort with what still happens; or an answer owed. -/
inductive Reply where
  | done (p : Prog) (data : List Byte)
  | abort (code : Nat) (p : Prog)
  | later (p : Prog)

/-- What an object adds to the checks and what its request does: further aborts of orders 5 and 6, aborts of
orders 7 to 9 that the request decides before execution, the execution (order 10), and what an object keeps of
a refusal, given whether `pre` or `state` is what refused. Zero is no abort. -/
structure Beh where
  pre : Dev → Nat
  state : Dev → Nat
  act : Dev → Reply
  note : Dev → Bool → Nat → Prog

/-- A behaviour that keeps nothing of a refusal (R153). -/
def beh (pre state : Dev → Nat) (act : Dev → Reply) : Beh := ⟨pre, state, act, fun _ _ _ => .skip⟩

/-- The first abort of a list of conditions; 0 when none holds. -/
def firstAbort : List (Bool × Nat) → Nat
  | [] => 0
  | (b, a) :: r => if b then a else firstAbort r

/-! ## Access -/

/-- The letters of an access entry for a requester code: H, H.v, E, L, S. -/
def lettersOf (a : Nat × Nat × Nat × Nat × Nat) (code : Nat) : Nat :=
  match code / 256 with
  | 1 => if hostFn code = 0 then a.1 else a.2.1
  | 2 => a.2.2.1
  | 3 => a.2.2.2.1
  | 4 => a.2.2.2.2
  | _ => 0

/-- The letter an operation needs, as a bit number: r 0, w 1, x 2 (Table 0.5). -/
def letterOf (op : Nat) : Nat := if op = 1 ∨ op = 4 then 0 else if op = 3 then 2 else 1

/-- Whether any requester may write an object. -/
def anyWriter (a : Nat × Nat × Nat × Nat × Nat) : Bool :=
  bitOf a.1 1 || bitOf a.2.1 1 || bitOf a.2.2.1 1 || bitOf a.2.2.2.1 1 || bitOf a.2.2.2.2 1

/-- The object group of an index (Table 5.9); none for an index in no group. -/
def groupOf (idx : Nat) : Option Nat :=
  if 0x2000 ≤ idx ∧ idx < 0x2100 then some 0
  else if idx = 0x2100 ∨ idx = 0x2110 then some 1
  else if 0x4000 ≤ idx ∧ idx < 0x5000 then
    some (if idx % 0x400 = 0x210 then 9 else 2 + (idx - 0x4000) / 0x400)
  else if 0x5000 ≤ idx ∧ idx < 0x5400 then some 6
  else if 0x6000 ≤ idx ∧ idx < 0x6600 then some (0x10 + (idx - 0x6000) / 0x80)
  else if 0x6800 ≤ idx ∧ idx < 0x68C0 then some (0x10 + (idx - 0x6800) / 0x10)
  else if 0x6C00 ≤ idx ∧ idx < 0x6CC0 then some (0x10 + (idx - 0x6C00) / 0x10)
  else if 0x7000 ≤ idx ∧ idx < 0x7800 then some 7
  else if 0x7800 ≤ idx ∧ idx < 0x8000 then some 8
  else if 0x8000 ≤ idx ∧ idx < 0x9000 then some 0xA
  else if 0x9000 ≤ idx ∧ idx < 0x9400 then some 0xB
  else if 0x9400 ≤ idx ∧ idx < 0x9800 then some 0xC
  else if 0x9800 ≤ idx ∧ idx < 0x9C00 then some 0xD
  else if 0xA400 ≤ idx ∧ idx < 0xA800 then some 0xE
  else if 0xB000 ≤ idx ∧ idx < 0xC000 then some 0xF
  else none

/-- The resettable instance an index belongs to (Table 3.8), as kind × 256 + number. -/
def scopeOf (idx : Nat) : Option Nat :=
  if 0x4000 ≤ idx ∧ idx < 0x5000 then some (0x100 + (idx - 0x4000) / 0x400)
  else if 0x5000 ≤ idx ∧ idx < 0x5400 then some 0x400
  else if 0x6000 ≤ idx ∧ idx < 0x6600 then some (0x200 + (idx - 0x6000) / 0x80)
  else if 0x6800 ≤ idx ∧ idx < 0x68C0 then some (0x200 + (idx - 0x6800) / 0x10)
  else if 0x6C00 ≤ idx ∧ idx < 0x6CC0 then some (0x200 + (idx - 0x6C00) / 0x10)
  else if 0x9010 ≤ idx ∧ idx < 0x9090 then some (0x300 + (idx - 0x9010) / 0x10)
  else if idx = 0x9600 then some 0x500
  else none

/-- The link that owns a group; none when it is unowned. -/
def Dev.ownerLink (d : Dev) (g : Nat) : Option Nat :=
  let c := d.num .dictGroupOwner 0 g
  if c = 0 then none else some (hostLink c)

/-- Ownership narrows a host's w and x entries (R155, R156, R202). -/
def Dev.ownershipPermits (d : Dev) (code idx : Nat) : Bool :=
  if !isHost code then true
  else if 0x3000 ≤ idx ∧ idx < 0x4000 then (idx - 0x3000) / 0x100 == hostLink code
  else match groupOf idx with
    | none => true
    | some g => match d.ownerLink g with
      | some l => l == hostLink code
      | none => !(g == 1 || g == 0xF)

/-- Order 3 for an element (R14 to R18, R156). -/
def Dev.accessAbort (d : Dev) (code op : Nat) (o : Obj) (i j : Nat) : Nat :=
  let a := o.acc j
  let k := letterOf op
  if !bitOf (lettersOf a code) k then (if k = 1 ∧ !anyWriter a then 0x0202 else 0x0201)
  else if k ≠ 0 ∧ !d.ownershipPermits code (o.index i j) then 0x0201
  else 0

/-- Order 3 for subindex 0 (R137): readable by any requester that may read an element; written by none. -/
def countAccess (code op idx : Nat) : Nat :=
  if letterOf op = 1 then 0x0202
  else if letterOf op = 2 then 0x0201
  else if Obj.all.any fun o => o.row.hasIndex idx && bitOf (lettersOf (o.acc 1) code) 0 then 0
  else 0x0201

/-- Whether owner lock refuses a direct write (R169). -/
def Dev.lockRefuses (d : Dev) (code op idx : Nat) (o : Obj) : Bool :=
  letterOf op == 1 && d.ownerLocked && code != 0x0400 && !(o == .cfgStage && op == 5) &&
    match groupOf idx with
    | none => false
    | some g => g == 0xF || bitOf (d.num .cfgLockGroups) g

/-- Bytes of a value on a path. -/
def valBytes (p : UPath) (ty : Ty) (v : Val) : List Byte :=
  match ty with
  | .bool => pathBytes p 1 v.n
  | .u w => pathBytes p (w / 8) v.n
  | .s w => pathBytes p (w / 8) v.n
  | _ => v.b

/-- The value a requester reads: UMANI_SELF and its own report (R598) depend on the reader; every other object on the device alone. -/
def Dev.readVal (d : Dev) (p : UPath) (o : Obj) (i j : Nat) : Val :=
  match o with
  | .umaniSelf => .num (d.codeOf p)
  | .secAttestReport => .oct (SMap.get [] d.sec.reports (d.codeOf p))
  | _ => d.view o i j

/-- Whether an object is of an OCTETS type. -/
def Ty.isOct : Ty → Bool
  | .oct _ => true
  | .octMax _ => true
  | _ => false

/-- Whether a value's kind and length suit a type (R135). A command's argument is checked by the command. -/
def lenOk (ty : Ty) (v : Val) : Bool :=
  match ty, v with
  | .bool, .num _ => true
  | .u _, .num _ => true
  | .s _, .num _ => true
  | .oct n, .oct b => b.length == n
  | .octMax n, .oct b => decide (b.length ≤ n)
  | .command, _ => true
  | .table, _ => true
  | _, _ => false

/-- Order 5 (R135, R140, R144): the operation suits the type, the form is right, the value read or sent fits the path. -/
def Dev.formAbort (d : Dev) (r : Req) (o : Obj) (i j : Nat) : Nat :=
  let ty := o.row.ty
  if !r.form then 0x0301
  else if (r.call.op = 4 ∨ r.call.op = 5) ∧ !ty.isOct then 0x0301
  else if r.call.op = 2 ∧ !lenOk ty r.v then 0x0301
  else if (r.call.op = 2 ∨ r.call.op = 3) ∧ pathData r.call.o.path < r.v.b.length then 0x0301
  else if r.call.op = 1 ∧ pathData r.call.o.path < (valBytes r.call.o.path ty (d.readVal r.call.o.path o i j)).length then
    0x0301
  else 0

/-- Whether a number lies in an object's stated range (R13, Table 5.2). -/
def rngOk (ty : Ty) (g : Rng) (n : Nat) : Bool :=
  (match ty with
   | .bool => decide (n < 2)
   | .u w => decide (n < 2 ^ w)
   | .s w => decide (n < 2 ^ w)
   | _ => true) &&
  match g with
  | .any => true
  | .range lo hi => decide (lo ≤ n) && decide (n ≤ hi)
  | .orZero lo hi => n == 0 || decide (lo ≤ n) && decide (n ≤ hi)
  | .mask m => n &&& m == n
  | .srange lo hi =>
    match ty with
    | .s w => decide (lo ≤ toInt w n) && decide (toInt w n ≤ hi)
    | _ => true
  | .own => true

/-- Order 6 for the stated ranges. -/
def rangeAbort (r : Req) (o : Obj) : Nat :=
  if r.call.op = 2 ∧ !rngOk o.row.ty o.row.rng r.v.n then 0x0302 else 0

/-- Order 7 (R47, R168): a pending action will change the object. -/
def Dev.heldAbort (d : Dev) (r : Req) (o : Obj) (i j : Nat) : Nat :=
  if letterOf r.call.op = 1 ∧ d.acts.any (fun a => a.holds.contains (o.key i j)) then 0x0501 else 0

/-- Order 8 for a unit in reset (Table 3.9): its crossing, every crossing, or the dictionary server's is Closed. -/
def Dev.closedAbort (d : Dev) (idx : Nat) : Nat :=
  if d.clk.closed.contains 0 || d.clk.closed.contains 0x600 || (scopeOf idx).any d.clk.closed.contains then 0x0401 else 0

/-- The same for the crossing that a host's request comes through. -/
def Dev.pathClosed (d : Dev) : UPath → Nat
  | .mailbox l f _ => if d.hostClosed l.val f.val then 0x0401 else 0
  | .ring r => if d.hostClosed (d.linkOfRing r.val) (d.ringSt r.val).func then 0x0401 else 0
  | _ => 0

/-- The requester code a request carries is the one its path gives (R14, R141). -/
def Dev.codeOk (d : Dev) (c : Call) : Bool := c.o.code.toNat == d.codeOf c.o.path

/-- Whether the vendor diagnostic space is visible to a requester (R134, R607). -/
def Dev.diagVisible (d : Dev) (code : Nat) : Bool :=
  code == 0x0400 || (bitOf (d.num .secDebugState) 7 && bitOf (d.num .secDebugState) 1)

/-- Orders 1 to 6 of Table 5.8. -/
def Dev.early (d : Dev) (r : Req) : Nat :=
  let op := r.call.op
  let code := d.codeOf r.call.o.path
  let reserved := op = 0 ∨ 5 < op
  match r.tgt with
  | .noIndex => 0x0101
  | .noSub => 0x0102
  | .count idx =>
    if reserved then 0x0301
    else if !d.codeOk r.call then 0x0201
    else if countAccess code op idx ≠ 0 then countAccess code op idx
    else if !r.form ∨ op ≠ 1 then 0x0301
    else 0
  | .elem o i j =>
    if reserved then 0x0301
    else if !d.codeOk r.call then 0x0201
    else if d.accessAbort code op o i j ≠ 0 then d.accessAbort code op o i j
    else if d.lockRefuses code op (o.index i j) o then 0x0601
    else if d.formAbort r o i j ≠ 0 then d.formAbort r o i j
    else rangeAbort r o

/-- Order 7 and the crossings' part of order 8. -/
def Dev.later (d : Dev) (r : Req) : Nat :=
  if d.pathClosed r.call.o.path ≠ 0 then d.pathClosed r.call.o.path
  else match r.tgt with
  | .elem o i j => if d.heldAbort r o i j ≠ 0 then d.heldAbort r o i j else d.closedAbort (o.index i j)
  | .count idx => d.closedAbort idx
  | _ => 0

/-! ## Responses -/

/-- A response as its path carries it (Table 5.3): header and DATA. -/
def respBytes (x : Resp) : List Byte :=
  let p := x.call.o.path
  pathBytes p 2 x.call.o.code.toNat ++ pathBytes p 2 x.call.o.seq.toNat ++ pathBytes p 2 x.call.index
    ++ pathBytes p 1 x.call.sub ++ pathBytes p 1 (x.call.op % 16 * 16 + 8 + (if x.last then 4 else 0))
    ++ pathBytes p 2 x.abort ++ pathBytes p 2 x.data.length ++ pathBytes p 4 x.offset ++ x.data

/-- A response leaves on its path. A mailbox slot takes it, clears BUSY, sets DONE and raises the vector of MBX_IRQ
(R180); a ring takes it in the request's buffer; the local serial port queues it (R150). A response to a request on stream 0 is discarded (R304). -/
def deliver (x : Resp) : Prog :=
  match x.call.o.path with
  | .mailbox l f s => .all [
      .eff (.fn (fnKey l.val f.val) fun y => { y with
        resp := SMap.put [] s.val (patch (padTo 4096 (SMap.get [] y.resp s.val)) 0 (respBytes x)) y.resp,
        busy := putBit y.busy s.val false,
        done := putBit y.done s.val true }),
      .ask fun d =>
        let irq := (d.fn (fnKey l.val f.val)).irq
        .when (bitOf irq 31) [assertVector l.val f.val (irq % 2048)]]
  | .ring r => ringFill r.val 0 (respBytes x)
  | .inband n z => if z then count .umaniDiscards else inbandEnqueue n.val ⟨false, 0, respBytes x⟩
  | .mband n c => txEnqueue n.val ⟨false, b2n c, respBytes x⟩
  | .serial => .eff (.i2c fun q => q ++ [x])
  | .internal => send .response (pathKey .internal) x.call.o.seq.toNat (respBytes x)

/-- The last 16 responses, newest first (R146). -/
def keepLast (x : Resp) (l : List Resp) : List Resp := (x :: l).take 16

/-- A request is answered: the response is kept (R146), the request is no longer in progress, and the response leaves.
On the local serial path the request stays in progress until its response has been read (R145). A request that a reset or a revocation
has ended gets no answer (R92, R627). -/
def respondWith (x : Resp) : Prog :=
  .ask fun d => .when ((d.path x.call.o.path).busy.contains x.call) [
    .eff (.um (pathKey x.call.o.path) fun s => { s with
      sent := keepLast x s.sent,
      busy := if x.call.o.path = .serial then s.busy else s.busy.erase x.call }),
    deliver x]

/-- An answer with an abort code (0 is done) and DATA; an abort carries none (R142). -/
def respond (c : Call) (abort : Nat) (data : List Byte) : Prog :=
  respondWith ⟨c, abort, false, 0, if abort = 0 then data else []⟩

/-! ## Time across sleep -/

/-- The device's time is set in one step. -/
def setTime (secs ns frac : Nat) : Prog :=
  .eff (.tim fun t => { t with secs := secs, ns := ns, frac := frac, slew := 0 })

/-- A time of seconds and nanoseconds moved on by nanoseconds. -/
def addNs (secs ns d : Nat) : Nat × Nat := (secs + (ns + d) / 1000000000, (ns + d) % 1000000000)

/-- Nanoseconds from one time to a later one; 0 to an earlier one. -/
def spanNs (s1 n1 s2 n2 : Nat) : Nat := s2 * 1000000000 + n2 - (s1 * 1000000000 + n1)

/-- Seconds of low power are added to the suppressed seconds of every channel and circuit (R125). -/
def addSuppressed (n : Nat) : Prog :=
  .all [.each (List.range 4) fun i => countBy .frmPmSuppressed i 0 n,
    .each (List.range 2080) fun c => .ask fun d =>
      .when (n != 0 && bitOf (beAt (d.oct .circConfig 0 c) 0 1) 7) [countIn .circCounters 0 c 12 4 n]]

/-- The elapsed time is unknown (R124); event 31. -/
def elapsedUnknown : Prog := .all [putN .pwrElapsed 0 0 0xFFFFFFFFFFFFFFFF, raise 31]

/-- R123 and R124: PWR_ELAPSED and the suppressed seconds from the frame number, beyond those already added at exit (R125); the elapsed time is
unknown when the number is lower than at entry. After Deep Sleep or Off (`setIt`) the time becomes the entry time plus PWR_ELAPSED unless a host
wrote it; SYNC stays clear. -/
def elapsedSet (frameNow : Nat) (setIt : Bool) : Prog :=
  .ask fun d =>
    let e := d.pwr.entry
    if frameNow < e.frame then elapsedUnknown
    else
      let el := (frameNow - e.frame) * 125000
      let t := addNs e.secs e.ns el
      .all [putN .pwrElapsed 0 0 el, addSuppressed (ceilDiv el 1000000000 - d.pwr.sleptSecs),
        .eff (.pwr fun p => { p with elapsedDue := false, sleptSecs := 0 }),
        .when (setIt && !d.tim.hostWrote) [setTime t.1 t.2 0]]

/-- AON_POWER of RST_CAUSE and RST_CAUSE_STICKY clears (R90). -/
def clearAon : Prog := .all [setFlag .rstCause 0 0 1 false, setFlag .rstCauseSticky 0 0 1 false]

/-! ## Waking (R119 to R122) -/

/-- The wake sources of a power state (Table 4.4). -/
def wakeSources (s : Nat) : List Nat :=
  match s with
  | 1 => [0, 1, 2, 3, 4, 5, 6, 7, 8, 9]
  | 2 => [0, 1, 2, 3, 4, 6, 7, 9]
  | 3 => [0, 1]
  | 4 => [0]
  | _ => []

/-- Whether a wake source counts in a state: Table 4.4 and PWR_WAKE_MASK, which cannot mask bits 0 and 1. -/
def Dev.wakes (d : Dev) (s bit : Nat) : Bool :=
  (wakeSources s).contains bit && (decide (bit < 2) || bitOf (d.num .pwrWakeMask) bit)

/-- VDD_CORE of an operating point in mV (Table 4.5). -/
def pointMv (p : Nat) : Nat := 800 - 50 * min p 3

/-- The VDD_CORE target of a point goes to the regulator over AVSBus. -/
def sendTarget (p : Nat) : Prog := send .avs 0 (pointMv p) []

/-- Tightrope starts a move to an operating point (R128): to a higher voltage it sends the target first and raises the clocks
when the settling is confirmed; to a lower voltage the clocks are lowered first and then the target is sent, and the higher voltage counts until
it has settled. A move to the present point is none. -/
def startMove (point : Nat) (call : Option Call) : Prog :=
  .ask fun d => .when (point != d.pwr.clkPoint || point != d.pwr.voltPoint) [
    putN .trState 0 0 1,
    .eff (.pwr fun p => { p with
      moveTo := some point, moveCall := call, voltPoint := min p.voltPoint point, clkPoint := max p.clkPoint point }),
    sendTarget point]

/-- A power-state entry ends before its response (R115, R116): the command completes with an abort, event 23 is raised and
doze is withdrawn where it was granted or asked. -/
def abandonEntry (abort : Nat) : Prog :=
  .ask fun d => match d.pwr.req with
    | none => .skip
    | some q => .all [
        .eff (.pwr fun p => { p with req := none }),
        .eff (.clk fun c => { c with gates := [] }),
        .each (List.range 4) withdrawDoze,
        raise 23 noInst 0 (top16 abort),
        respond q.call abort []]

/-- Return to Run from Idle or Sleep (R119, R121, R122). A timing PLL whose reference is valid leaves the Holdover of Sleep (Table 3.2). A fault of
Tightrope stays until the write that clears it (R129). Without alignment the whole seconds that the time base measured count as suppressed
(R125). Event 30 carries the size of the step as a signed number of picoseconds of 64 bits, ARG0 above ARG1 (DESIGN CHOICE, log entry 131). -/
def exitToRun : Prog :=
  .ask fun d =>
    let s := d.num .pwrState
    let t := d.num .clkTimingChannel
    let e := d.pwr.entry
    let aligned := d.num .frmAlignState t == 2
    let slept := spanNs e.secs e.ns d.tim.secs d.tim.ns / 1000000000
    .all [
      putN .pwrState 0 0 0,
      putN .pwrWakeCause 0 0 d.pwr.seen,
      raise 22 noInst 0 (top16 d.pwr.seen),
      .eff (.pwr fun p => { p with seen := 0 }),
      .eff (.clk fun c => { c with gates := [] }),
      .when (s == 2) [
        .each (List.range 4) withdrawDoze,
        .each (List.range 8) fun c =>
          .when (d.num .dramState c == 5) [putN .dramState c 0 (if d.num .dramEnable c = 0 then 4 else 3)],
        .eff (.pwr fun p => { p with clkPoint := 3, sleptSecs := 0 }),
        .when (d.num .trState != 2) [startMove d.opActive none],
        .when (d.num .clkTimingState == 3) [if (d.ch t).refValid then timingTo 1 else timingFallback],
        if aligned && decide (e.frame ≤ d.num .frmFrame t) then .all [
          .when (d.num .clkFchState 0 t == 2) [
            let u := addNs e.secs e.ns ((d.num .frmFrame t - e.frame) * 125000)
            let step := ofInt 64 (((u.1 : Int) - d.tim.secs) * 1000000000000 + ((u.2 : Int) - d.tim.ns) * 1000)
            .all [setTime u.1 u.2 0, raise 30 noInst 0 (step / 2 ^ 32) (step % 2 ^ 32)]],
          elapsedSet (d.num .frmFrame t) false]
        else .all [elapsedUnknown, addSuppressed slept,
          .eff (.pwr fun p => { p with elapsedDue := true, sleptSecs := slept })]]]

/-- A wake source is seen (R112, R116, R119): before the response of an entry it abandons the entry; in Idle and Sleep the
device returns to Run; in Deep Sleep and Off it asserts PWRREQ_N and waits for the rails. -/
def wake (bit : Nat) : Prog :=
  .ask fun d =>
    let s := d.num .pwrState
    match d.pwr.req with
    | some q => .when (s == 0 && d.wakes q.target bit) [abandonEntry 0x0402]
    | none => .when (d.wakes s bit) [
        .eff (.pwr fun p => { p with seen := putBit p.seen bit true }),
        if s = 1 ∨ s = 2 then exitToRun else .eff (.pins fun p => { p with pwrreqN := false })]

/-! ## Serving a request -/

/-- Whether boot (R174, R586) or a management-core reset (R92) refuses every request on a path but the reads R586 names. -/
def Dev.unready (d : Dev) (c : Call) : Bool :=
  d.clk.coreReset ||
  (d.num .idBootProgress != 6 && c.o.path != .internal &&
    !(c.o.path == .serial && c.op == 1 && (c.index * 256 + c.sub == 0x100001 || c.index * 256 + c.sub == 0x100002
      || c.index * 256 + c.sub == 0x100005)))

/-- A mailbox slot is read: its DONE bit clears and its BUSY bit sets (R180). -/
def slotTaken (p : UPath) (busy : Bool) : Prog :=
  match p with
  | .mailbox l f s => .eff (.fn (fnKey l.val f.val) fun y => { y with
      busy := putBit y.busy s.val busy, done := putBit y.done s.val false })
  | _ => .skip

/-- A request has arrived and is in progress: a repeated SEQUENCE is discarded while the first is in progress, or answered from the store where the
repeat came, and counted (R146); a request is a wake source (R119). A request held at a gate goes on when its row comes again once `clear` says
the gate is open (R105). -/
def arriveIf (clear : Dev → Bool) (c : Call) (p : Prog) : Prog :=
  .ask fun d => .when d.answers [
    let u := d.path c.o.path
    if d.clk.held.contains c && u.busy.contains c && clear d then .seq (.eff (.clk fun k => { k with held := k.held.erase c })) p
    else if u.busy.any (fun x => x.o.seq = c.o.seq) then .all [slotTaken c.o.path false, count .umaniDuplicates, wake 3]
    else match u.sent.find? (fun x => x.call.o.seq = c.o.seq) with
      | some x => .all [slotTaken c.o.path true, count .umaniDuplicates, deliver { x with call := { x.call with o := c.o } }, wake 3]
      | none => .all [
        slotTaken c.o.path true,
        .eff (.um (pathKey c.o.path) fun s => { s with busy := s.busy ++ [c] }),
        wake 3,
        .ask fun e => if e.unready c then respond c 0x0402 [] else p]]

/-- A request arrives at its object's block. -/
def arrive (c : Call) (p : Prog) : Prog := arriveIf (fun d => !d.gated c.index) c p

/-- A request is held at a gate until it opens (R102, R105). -/
def hold (c : Call) : Prog := .eff (.clk fun k => { k with held := k.held ++ [c] })

/-- The 17th request of a requester on a path (R145); the request itself is among those in progress. -/
def Dev.full (d : Dev) (c : Call) : Bool := decide (16 < (d.path c.o.path).busy.length)

/-- The end of a served request. -/
def finish (c : Call) : Reply → Prog
  | .done p data => .seq p (respond c 0 data)
  | .abort a p => .seq p (respond c a [])
  | .later p => p

/-- The first abort of a request before its execution, in the order of Table 5.8. -/
def Dev.refusal (d : Dev) (r : Req) (b : Beh) : Nat :=
  if d.early r ≠ 0 then d.early r
  else if b.pre d ≠ 0 then b.pre d
  else if d.later r ≠ 0 then d.later r
  else if b.state d ≠ 0 then b.state d
  else if d.full r.call then 0x0402
  else 0

/-- Whether it is the object's own checks that refuse a request. -/
def Dev.ownRefusal (d : Dev) (r : Req) (b : Beh) : Bool :=
  d.early r == 0 && (b.pre d != 0 || d.later r == 0 && b.state d != 0)

/-- A request is checked in the order of Table 5.8 and answered with the first abort that applies (R152), or executed. One that meets a gate which
its wake has not opened is held. -/
def serve (r : Req) (b : Beh) : Prog :=
  arrive r.call (.ask fun d =>
    if d.gated r.call.index then hold r.call
    else if d.refusal r b ≠ 0 then .seq (b.note d (d.ownRefusal r b) (d.refusal r b)) (respond r.call (d.refusal r b) [])
    else finish r.call (b.act d))

/-- The request of a row that names its object: operation `op` on element (i, j). -/
def elemReq (o : Origin) (op : Nat) (x : Obj) (i j : Nat) (v : Val) : Req :=
  ⟨⟨o, op, x.index i j, x.subOf j⟩, .elem x i j, true, v⟩

/-- A behaviour with no check and no effect of its own. -/
def Beh.plain (act : Dev → Reply) : Beh := beh (fun _ => 0) (fun _ => 0) act

/-- A write stores its value. -/
def Beh.store (x : Obj) (i j : Nat) (v : Val) : Beh := Beh.plain fun _ => .done (.eff (.obj x i j v)) []

/-- A read of an object. -/
def Beh.read (p : UPath) (x : Obj) (i j : Nat) : Beh :=
  Beh.plain fun d => .done .skip (valBytes p x.row.ty (d.readVal p x i j))

/-- A write row: the value of an element is written with the behaviour of its object. -/
def serveWrite (o : Origin) (x : Obj) (i j : Nat) (v : Val) (b : Beh) : Prog := serve (elemReq o 2 x i j v) b

/-- An execute row: a command's argument has been parsed; `form` says whether its length is right. -/
def serveExec (o : Origin) (x : Obj) (i j : Nat) (form : Bool) (arg : Val) (b : Beh) : Prog :=
  serve ⟨⟨o, 3, x.index i j, x.subOf j⟩, .elem x i j, form, arg⟩ b

end Sys2Proof.Machine
end

