-- ==== Sys2Proof/Machine/Actions.lean ====
section
/-!
DEFINITION. What the commands and instants of Ringmaster share (R44, R47, R570 to R575, R649).
-/
namespace Sys2Proof.Machine

/-- Whether a channel has frame alignment (Table 10.2). -/
def Dev.alignedOn (d : Dev) (n : Nat) : Bool := d.num .frmAlignState n == 2

/-- The ahead test of a frame trigger (R649): 2 frames ahead, made only with frame alignment. -/
def Dev.frameAhead (d : Dev) (n f : Nat) : Bool := !d.alignedOn n || decide (d.num .frmFrame n + 2 ≤ f)

/-- A time at or after another. -/
def timeLe (s1 n1 s2 n2 : Nat) : Bool := decide (s1 < s2) || (s1 == s2 && decide (n1 ≤ n2))

/-- The ahead test of a time trigger: 2 frames (250 µs) ahead of the present time. -/
def Dev.timeAhead (d : Dev) (s n : Nat) : Bool :=
  let t := addNs d.tim.secs d.tim.ns 250000
  timeLe t.1 t.2 s n

/-- A trigger coded as Table 5.14 gives; none for a reserved value. -/
def parseTrig (code : Nat) (v : List Byte) : Option Trig :=
  match code with
  | 0 => if beNat v = 0 then some .now else none
  | 1 => if beNat v < 2 ^ 51 then some (.frame (beNat v)) else none
  | 2 => if beAt v 6 4 < 1000000000 then some (.time (beAt v 0 6) (beAt v 6 4)) else none
  | _ => none

/-- Whether a trigger lies far enough ahead on a channel's frames. -/
def Dev.trigAhead (d : Dev) (n : Nat) : Trig → Bool
  | .now => true
  | .frame f => d.frameAhead n f
  | .time s ns => d.timeAhead s ns

/-- A frame trigger without frame alignment (abort 0x0401 of each list). -/
def Dev.trigUnaligned (d : Dev) (n : Nat) : Trig → Bool
  | .frame _ => !d.alignedOn n
  | _ => false

/-- Whether arming conflicts with a pending action (R573): the same target, or an object that it will change. -/
def Dev.armConflict (d : Dev) (kind target : Nat) (holds : List Nat) : Bool :=
  (d.pendingOn kind target).isSome || d.acts.any fun a => a.holds.any holds.contains

/-- A 257th pending action (R47). -/
def Dev.actsFull (d : Dev) : Bool := decide (actCap ≤ d.acts.length)

/-- An action is armed; an immediate one is committed at once (R572). -/
def armAct (kind target : Nat) (t : Trig) (code : Nat) (holds arg : List Nat) : Prog :=
  .eff (.arm ⟨0, kind, target, t, code, t == .now, holds, arg, 0⟩)

/-- The channel whose frames an action counts (Table 20.5). -/
def Dev.actChannel (d : Dev) (a : Action) : Nat :=
  if a.kind = 2 ∨ a.kind = 3 then a.target else d.num .clkTimingChannel

/-- Whether a pending action's instant has come (R44): the sub-tick after an immediate action was armed, a frame mark of the channel it counts, or a
sub-tick at or after the time. -/
def Dev.actDue (d : Dev) (a : Action) : Bool :=
  match a.trig with
  | .now => decide (a.armed < d.tim.ticks)
  | .frame f => decide (f ≤ d.num .frmFrame (d.actChannel a))
  | .time s ns => timeLe s ns d.tim.secs d.tim.ns

/-- Whether a pending action takes effect now: its instant has come, and no action of a lower kind whose instant has come is left (R571). An upstream key
switch has its instant at a burst of its own. -/
def Dev.actTurn (d : Dev) (a : Action) : Bool :=
  d.actDue a && d.acts.all fun b => b.kind == 3 || decide (a.kind ≤ b.kind) || !d.actDue b

/-- Whether an action is committed (R572): an immediate one, one 100 µs before its time, and one 100 sub-ticks before the mark of its frame. -/
def Dev.commitDue (d : Dev) (a : Action) : Bool :=
  match a.trig with
  | .now => true
  | .frame f =>
    let now := d.num .frmFrame (d.actChannel a)
    decide (f ≤ now) || (f == now + 1 && decide (25 ≤ d.tim.sub))
  | .time s ns =>
    let t := addNs d.tim.secs d.tim.ns 100000
    timeLe s ns t.1 t.2

/-- The longest sub-tick in ns, with a slew at its greatest rate (R554, R557). -/
def Dev.tickNs (d : Dev) : Nat := 1000 * d.tim.incNow * (1000000 + d.num .timeSlewMax) / 1000000 / 2 ^ 40 + 1

/-- Whether it fires at a mark after its target frame, or at a later sub-tick than the first at or after its time (R574). -/
def Dev.actLate (d : Dev) (a : Action) : Bool :=
  match a.trig with
  | .now => false
  | .frame f => decide (f < d.num .frmFrame (d.actChannel a))
  | .time s ns =>
    let t := addNs s ns d.tickNs
    timeLe t.1 t.2 d.tim.secs d.tim.ns

/-- Whether a pulse action takes effect `off` ns into the present sub-tick: it fires within 8 ns of a time (R44), before what waits for the next sub-tick. -/
def Dev.pulseDue (d : Dev) (a : Action) (off : Nat) : Bool :=
  match a.trig with
  | .time s ns =>
    let t := addNs d.tim.secs d.tim.ns (off + 8)
    timeLe s ns t.1 t.2
  | _ => d.actTurn a

/-- An action fails at its instant (R575): RM_FAILURES and event 434; nothing else changes. -/
def failAct (a : Action) (abort : Nat) : Prog :=
  .all [.eff (.disarm a.slot), count .rmFailures, raise 434 a.slot 0 (top8 a.kind + abort % 65536 * 256)]

/-- An action fired later than its instant (R574). -/
def lateAct (a : Action) (late : Bool) : Prog :=
  .when late [count .rmLate, raise 435 a.slot 0 (top8 a.kind)]

/-- An action is cancelled (R572, R575). -/
def cancelAct (a : Action) : Prog :=
  .all [.eff (.disarm a.slot), count .rmCancelled, raise 436 a.slot 0 (top8 a.kind)]

/-- An event whose first item is of 33 to 64 bits (R612). -/
def raise64 (src v : Nat) : Prog := raise src noInst 0 (v / 2 ^ 32 % 2 ^ 32) (v % 2 ^ 32)

end Sys2Proof.Machine
end

