-- ==== Sys2Proof/Machine/Coding.lean ====
section
/-!
DEFINITION. Sequences and codes that several chapters share: bits and bytes, shift-register generators (R230, R231, R250, R260, R358), the
quasi-cyclic LDPC codes with staircase parity (R248, R249, R357), their decoding (R252), and the fixed-point arithmetic behind what the manual
states in real numbers.
-/
namespace Sys2Proof.Machine

/-! ## Bits -/

/-- The bits of a byte string, most significant first. -/
def bitList (b : List Byte) : List Bool :=
  b.flatMap fun x => (List.range 8).map fun i => bitOf x.toNat (7 - i)

/-- The number a list of bits spells, first bit most significant. -/
def bitsNat (l : List Bool) : Nat := l.foldl (fun a x => 2 * a + b2n x) 0

/-- Bits as bytes, most significant first; the last byte is filled with zeros. -/
def bytesList : Nat → List Bool → List Byte
  | 0, _ => []
  | n + 1, l => BitVec.ofNat 8 (((List.range 8).map fun i => if l.getD i false then 2 ^ (7 - i) else 0).sum) :: bytesList n (l.drop 8)
def packBits (l : List Bool) : List Byte := bytesList (ceilDiv l.length 8) l

/-! ## Generators

The generator xⁿ + xᵗ + 1 holds n stages, stage k as bit k − 1: each shift moves every stage on by one and stages n and t, added, enter stage 1. Its
output is the last stage (DEDUCED from the output "taken before each shift", log entry 30). -/

/-- The next stages. -/
def shiftStages (n t v : Nat) : Nat := v * 2 % 2 ^ n + b2n (bitOf v (n - 1) != bitOf v (t - 1))

/-- The first `k` outputs from given stages. -/
def generator (n t : Nat) : Nat → Nat → List Bool
  | 0, _ => []
  | k + 1, v => bitOf v (n - 1) :: generator n t k (shiftStages n t v)

/-- Bits scrambled, or descrambled, with x²³ + x¹⁸ + 1 from given stages (R250, R358). -/
def scramble : Nat → List Bool → List Bool
  | _, [] => []
  | v, x :: r => (x != bitOf v 22) :: scramble (shiftStages 23 18 v) r

/-- The stages at the start of a frame or a burst with a frame number. -/
def scrStart (frame : Nat) : Nat := 0x400000 ||| frame % 2 ^ 22

/-! ## Quasi-cyclic codes -/

/-- A code: lifting size, rows of the base matrix, information columns, and where the block at (row, column) stands and its shift. The
parity is a staircase: column `info` + m has shift 0 in rows m and m + 1, the last one in the last row alone. -/
structure QcCode where
  z : Nat
  rows : Nat
  info : Nat
  present : (row col : Nat) → Bool
  shift : (row col : Nat) → Nat

/-- Bits of a codeword. -/
def QcCode.size (q : QcCode) : Nat := q.z * (q.info + q.rows)

/-- The downstream data code (R248). -/
def dataCode : QcCode where
  z := 256
  rows := 16
  info := 84
  present := fun i j => decide ((j + 5 * i) % 16 < 4)
  shift := fun i j => (17 * i * j + 29 * j + 3 * i) % 256

/-- The header code (R249). -/
def headCode : QcCode where
  z := 88
  rows := 22
  info := 22
  present := fun i j => decide ((j + 3 * i) % 22 < 3)
  shift := fun i j => (13 * i * j + 7 * j + i) % 88

/-- The upstream code (R357). -/
def upCode : QcCode where
  z := 192
  rows := 14
  info := 76
  present := fun i j => decide ((j + 5 * i) % 14 < 4)
  shift := fun i j => (11 * i * j + 23 * j + 5 * i) % 192

/-- The information bits that row `r` of block row `i` sums. -/
def QcCode.infoAt (q : QcCode) (i r : Nat) : List Nat :=
  ((List.range q.info).filter (q.present i)).map fun j => q.z * j + (r + q.shift i j) % q.z

/-- The bits whose sum the check in row `r` of block row `i` holds at zero. -/
def QcCode.check (q : QcCode) (i r : Nat) : List Nat :=
  q.infoAt i r ++ [q.z * (q.info + i) + r] ++ if i = 0 then [] else [q.z * (q.info + i - 1) + r]

/-- The checks, block row by block row: the layers of a layered decoder. -/
def QcCode.checks (q : QcCode) : List (List Nat) :=
  (List.range q.rows).flatMap fun i => (List.range q.z).map (q.check i)

/-- The information columns' sum in a block row. Missing information bits count as zero. -/
def QcCode.rowSum (q : QcCode) (info : Array Bool) (i : Nat) : List Bool :=
  (List.range q.z).map fun r => (q.infoAt i r).foldl (fun a k => a != info.getD k false) false

/-- The parity blocks, each the row's sum and the block before it. -/
def QcCode.parity (q : QcCode) (info : Array Bool) : Nat → Nat → List Bool → List Bool
  | 0, _, _ => []
  | k + 1, i, last =>
    let p := List.zipWith (· != ·) (q.rowSum info i) last
    p ++ q.parity info k (i + 1) p

/-- The codeword of information bits: the bits themselves, then the parity. Of a shortened one the missing bits are not sent. -/
def QcCode.encode (q : QcCode) (info : List Bool) : List Bool :=
  info ++ q.parity info.toArray q.rows 0 (List.replicate q.z false)

/-- Whether every check of a word holds. -/
def QcCode.holds (q : QcCode) (w : Array Bool) : Bool :=
  q.checks.all fun c => !c.foldl (fun a k => a != w.getD k false) false

/-! ## Decoding (R252)

A soft bit is positive for 0 and negative for 1. -/

/-- The hard decisions of soft bits. -/
def hardBits (p : Array Int) : Array Bool := p.map fun x => decide (x < 0)

/-- The new messages of a check to its bits: for each bit the product of the other signs and the normalised least magnitude of the others.
The manual does not give the normalisation. -/
def checkMessages (ext : List Int) : List Int :=
  let neg := ext.foldl (fun a x => a != decide (x < 0)) false
  (List.range ext.length).map fun i =>
    let others := (ext.eraseIdx i).map Int.natAbs
    let m : Int := Config.minSumNorm (others.foldl min (others.headD 0))
    if neg != decide (ext.getD i 0 < 0) then -m else m

/-- One check is worked: the soft bits less its last messages, its new messages, and the soft bits with them. -/
def workCheck (p : Array Int) (c : List Nat) (old : List Int) : Array Int × List Int :=
  let ext := c.zipIdx.map fun k => p.getD k.1 0 - old.getD k.2 0
  let new := checkMessages ext
  ((c.zip (List.zipWith (· + ·) ext new)).foldl (fun a k => a.setIfInBounds k.1 k.2) p, new)

/-- One iteration works every check in turn. -/
def iterate : List (List Nat) → List (List Int) → Array Int → Array Int × List (List Int)
  | [], _, p => (p, [])
  | c :: r, m, p =>
    let s := workCheck p c (m.headD [])
    let t := iterate r m.tail s.1
    (t.1, s.2 :: t.2)

/-- What a codeword decoded to: the iterations taken, whether its first syndrome was zero, whether it converged, its bits, and how many of
them changed. -/
structure Decoded where
  iters : Nat
  clean : Bool
  ok : Bool
  bits : List Bool
  changed : Nat

/-- At most `n` iterations more, ending at the first zero syndrome. -/
def QcCode.iterations (q : QcCode) (checks : List (List Nat)) :
    Nat → Nat → List (List Int) → Array Int → Nat × Bool × Array Bool
  | 0, k, _, p => (k, false, hardBits p)
  | n + 1, k, m, p =>
    let s := iterate checks m p
    let w := hardBits s.1
    if q.holds w then (k + 1, true, w) else q.iterations checks n (k + 1) s.2 s.1

/-- Layered normalised min-sum, for at most `max` iterations. A codeword whose first syndrome is zero stops after one iteration that changes
nothing (DEDUCED, log entry 121). -/
def QcCode.decode (q : QcCode) (max : Nat) (soft : Array Int) : Decoded :=
  let first := hardBits soft
  if q.holds first then ⟨1, true, true, first.toList, 0⟩
  else
    let r := q.iterations q.checks max 0 [] soft
    ⟨r.1, false, r.2.1, r.2.2.toList, (List.zipWith (· != ·) first.toList r.2.2.toList).count true⟩

/-- Codeword bits in their places from the order in which they are sent: position m carries bit 101·m mod n (R251). -/
def placed (n : Nat) (l : List Int) : Array Int :=
  (l.zipIdx.take n).foldl (fun a x => a.setIfInBounds (101 * x.2 % n) x.1) (Array.replicate n 0)

/-! ## Fixed-point arithmetic -/

/-- The greatest number below 2^n, at or above `lo`, whose k-th power does not exceed `x`. -/
def rootFrom (k x : Nat) : Nat → Nat → Nat
  | 0, lo => lo
  | n + 1, lo => rootFrom k x n (if (lo + 2 ^ n) ^ k ≤ x then lo + 2 ^ n else lo)

/-- The k-th root, rounded down. -/
def nthRoot (k x : Nat) : Nat := rootFrom k x (Nat.log2 x / k + 1) 0

/-- The series of the cosine of `x` from a term on, in units of 2⁻⁴⁸. -/
def cosTerms (x : Int) : Nat → Nat → Int → Int
  | 0, _, _ => 0
  | n + 1, k, t => t + cosTerms x n (k + 2) (-(t * x / 2 ^ 48 * x / 2 ^ 48) / ((k + 1) * (k + 2) : Nat))

/-- cos(2πk / 4096) in units of 2⁻⁴⁸. -/
def cosFix (k : Nat) : Int :=
  let q := if k % 2048 ≤ 1024 then k % 2048 else 2048 - k % 2048
  let c := cosTerms (884279719003555 * (q : Int) / 2048) 12 0 (2 ^ 48)
  if (1024 < k % 4096) = (k % 4096 < 3072) then -c else c

/-- round(scale · log₁₀(num / den)) kept from 0 to 2^n − 1, by halving: at least k when 10^(2k − 1) ≤ (num / den)^(2·scale). -/
def logFrom (scale num den : Nat) : Nat → Nat → Nat
  | 0, lo => lo
  | n + 1, lo =>
    let k := lo + 2 ^ n
    logFrom scale num den n (if 10 ^ (2 * k - 1) * den ^ (2 * scale) ≤ num ^ (2 * scale) then k else lo)

/-- LN_FOM of a measurement: min(255, max(0, round(8 · SNR))) in units of 0.125 dB (R375). Without error it is 255 (DEDUCED, log entry 128). -/
def fomOf (x : Slicer) : Nat := if x.pe.toNat = 0 then 255 else logFrom 80 x.ps.toNat x.pe.toNat 8 0

end Sys2Proof.Machine
end

