-- ==== Sys2Proof/Machine/DmtRx.lean ====
section
/-!
DEFINITION. The signal processing of the downstream DMT receiver (spec/08): transform windows, the training test, the equaliser, pilots,
constellations and signal quality. Complex values are in units of 2⁻²⁴; the precision is the model's (log entry 118).
-/
namespace Sys2Proof.Machine

/-! ## Complex numbers -/

def Cx.zero : Cx := ⟨0, 0⟩
def Cx.one : Cx := ⟨2 ^ 24, 0⟩
def Cx.add (a b : Cx) : Cx := ⟨a.re + b.re, a.im + b.im⟩
def Cx.sub (a b : Cx) : Cx := ⟨a.re - b.re, a.im - b.im⟩
def Cx.conj (a : Cx) : Cx := ⟨a.re, -a.im⟩

/-- The product. -/
def Cx.mul (a b : Cx) : Cx := ⟨(a.re * b.re - a.im * b.im) / 2 ^ 24, (a.re * b.im + a.im * b.re) / 2 ^ 24⟩

/-- The squared magnitude, in units of 2⁻⁴⁸. -/
def Cx.norm (a : Cx) : Nat := (a.re * a.re + a.im * a.im).toNat

/-- cos(2πk / 4096) for a whole turn. -/
def cosTurn : Array Int := ((List.range 4096).map cosFix).toArray

/-- The product with exp(−2πjk / 4096). -/
def Cx.turn (a : Cx) (k : Nat) : Cx :=
  let c := cosTurn.getD (k % 4096) 0
  let s := cosTurn.getD ((k + 1024) % 4096) 0
  ⟨(a.re * c - a.im * s) / 2 ^ 48, (a.re * s + a.im * c) / 2 ^ 48⟩

/-- A value divided by its magnitude; zero stays. -/
def Cx.unit (a : Cx) : Cx :=
  let r : Int := nthRoot 2 a.norm
  ⟨a.re * 2 ^ 24 / r, a.im * 2 ^ 24 / r⟩

/-- A unit value of half the angle; a half turn gives a quarter turn. -/
def Cx.half (a : Cx) : Cx := if a.re ≤ -2 ^ 24 then ⟨0, 2 ^ 24⟩ else Cx.unit (Cx.add a Cx.one)

/-- The series t − t³/3 + t⁵/5 − … of the arc tangent, from a power and its exponent on. -/
def atanTerms (t : Int) : Nat → Nat → Int → Int
  | 0, _, _ => 0
  | n + 1, k, p => p / k + atanTerms t n (k + 2) (-(p * t / 2 ^ 24 * t / 2 ^ 24))

/-- The argument of a value other than zero in 2⁻²⁴ radians, above −π and at most π: eight times that of an eighth of it. -/
def Cx.arg (a : Cx) : Int :=
  let h := a.unit.half.half.half
  let t := h.im * 2 ^ 24 / h.re
  8 * atanTerms t 12 1 t

/-! ## The transform (R225, R227) -/

/-- Every other element of a list. -/
def evens : List Cx → List Cx
  | [] => []
  | [a] => [a]
  | a :: _ :: r => a :: evens r

/-- The transform of 2^m values, by halving. -/
def fft : Nat → List Cx → List Cx
  | 0, l => l
  | m + 1, l =>
    let e := fft m (evens l)
    let o := (fft m (evens (l.drop 1))).zipIdx.map fun x => x.1.turn (x.2 * 2 ^ (11 - m))
    List.zipWith Cx.add e o ++ List.zipWith Cx.sub e o

/-- The samples of the transform window of symbol `s`; a missing one is zero. -/
def window (x : Array Int) (adv s : Nat) : List Int :=
  (List.range 4096).map fun t => x.getD (4160 * s + 64 - adv + t) 0

/-- The received values of symbol `s` on subcarriers 16 to 1,983. -/
def received (x : Array Int) (adv s : Nat) : List Cx :=
  ((fft 12 ((window x adv s).map fun v => ⟨v * 2 ^ 24, 0⟩)).drop 16).take 1968

/-! ## Training (R230, R232, R236) -/

/-- Whether the normalised correlation between symbols 0 and 1 over the transform window reaches `thr` / 256. -/
def correlates (x : Array Int) (adv thr : Nat) : Bool :=
  let a := window x adv 0
  let b := window x adv 1
  let dot (l m : List Int) : Int := (List.zipWith (· * ·) l m).sum
  let c := dot a b
  decide (0 < c) && decide ((thr * thr : Nat) * (dot a a * dot b b) ≤ (256 * c) * (256 * c))

/-- 1 / √2. -/
def invRoot2 : Int := (nthRoot 2 (2 ^ 47) : Int)

/-- A point ((1 − 2a) + j(1 − 2b)) / √2. -/
def corner (a b : Bool) : Cx := ⟨if a then -invRoot2 else invRoot2, if b then -invRoot2 else invRoot2⟩

/-- Points of successive bit pairs. -/
def corners : List Bool → List Cx
  | a :: b :: r => corner a b :: corners r
  | _ => []

/-- The training values of subcarriers 16 to 1,983 (R230). -/
def training : List Cx := corners (generator 15 14 3936 0x7FFF)

/-- The channel estimate of a frame: (Y0 + Y1) / (2X), where X has magnitude 1. -/
def estimate (y0 y1 : List Cx) : List Cx :=
  List.zipWith (fun y x => let v := Cx.mul y (Cx.conj x); ⟨v.re / 2, v.im / 2⟩) (List.zipWith Cx.add y0 y1) training

/-- The running estimate moves toward the frame's by 1 in the first four frames of Acquire, then by 2^−shift (R236); the first frame's is taken whole. -/
def moveTaps (first : Bool) (shift : Nat) (h hf : List Cx) : List Cx :=
  if first || h.isEmpty then hf
  else List.zipWith (fun a b => ⟨a.re + (b.re - a.re) / 2 ^ shift, a.im + (b.im - a.im) / 2 ^ shift⟩) h hf

/-- A received value through its tap 1 / h. -/
def equalised (y h : Cx) : Cx :=
  if h.norm = 0 then let v := Config.zeroTap y.re y.im; ⟨v.1, v.2⟩
  else
    let d : Int := h.norm
    let v (x : Int) := x * 2 ^ 24 / d
    ⟨v (y.re * h.re + y.im * h.im), v (y.im * h.re - y.re * h.im)⟩

/-! ## Pilots (R231, R237) -/

/-- The pilots' sequence. -/
def pilotBits : Array Bool := (generator 11 9 2047 0x7FF).toArray

/-- The value of pilot `i` in symbol `s`. -/
def pilotAt (s i : Nat) : Cx :=
  let q := pilotBits.getD ((32 * s + i) % 2047) false
  corner q q

/-- A list from subcarrier 16 on: its pilots, and its data subcarriers (R228, R229). -/
def pilotsOf {α : Type} (l : List α) : List α := (l.zipIdx.filter fun x => (x.2 + 16) % 62 = 46).map (·.1)
def dataOf {α : Type} (l : List α) : List α := (l.zipIdx.filter fun x => (x.2 + 16) % 62 ≠ 46).map (·.1)

/-- Each pilot of an equalised symbol times the conjugate of its value. -/
def pilotErrors (s : Nat) (z : List Cx) : List Cx :=
  (pilotsOf z).zipIdx.map fun x => Cx.mul x.1 (Cx.conj (pilotAt s x.2))

/-- The rotation by the negative of the common phase error: the conjugate of the direction of the pilots' sum. -/
def phaseTurn (e : List Cx) : Cx :=
  let t := e.foldl Cx.add Cx.zero
  if t.norm = 0 then ⟨Config.zeroPhase.1, Config.zeroPhase.2⟩ else Cx.conj t.unit

/-- A symbol through the taps, with its common phase corrected, on subcarriers 16 to 1,983. -/
def symbolValues (x : Array Int) (adv : Nat) (h : List Cx) (s : Nat) : List Cx :=
  let z := List.zipWith equalised (received x adv s) h
  let turn := phaseTurn (pilotErrors s z)
  z.map (Cx.mul turn)

/-- The slope of the pilots' phases against the subcarrier, by least squares over the 32 pilots that lie 62 apart. -/
def pilotSlope (s : Nat) (z : List Cx) : Int :=
  ((pilotErrors s z).zipIdx.map fun e => (2 * (e.2 : Int) - 31) * (if e.1.norm = 0 then 0 else e.1.arg)).sum / 338272

/-- The pilots' own power and their decision errors in a corrected symbol. -/
def pilotPower (s : Nat) (z : List Cx) : Nat × Nat :=
  (pilotsOf z).zipIdx.foldl (fun a x =>
    (a.1 + (pilotAt s x.2).norm, a.2 + (Cx.sub x.1 (pilotAt s x.2)).norm)) (0, 0)

/-! ## Constellations (R240, R252) -/

/-- Bits and gain of a profile entry (Table 8.5). -/
def entryBits (e : Byte) : Nat := e.toNat / 16
def entryGain (e : Byte) : Nat := e.toNat % 16

/-- Half the spacing of the levels of an entry with b bits: 10^((GAIN − 8) / 40) over the root of the unscaled points' average energy
((4^⌈b/2⌉ − 1) + (4^⌊b/2⌋ − 1)) / 3. -/
def levelStep (b gain : Nat) : Nat :=
  let e := 4 ^ ((b + 1) / 2) + 4 ^ (b / 2) - 2
  nthRoot 40 (2 ^ 960 * 10 ^ gain * 3 ^ 20 / (10 ^ 8 * e ^ 20))

/-- The amplitude of level `i` of a group of `m` bits. -/
def levelAt (m step i : Nat) : Int := (2 * (i : Int) - (2 ^ m - 1 : Nat)) * step

/-- Bit `k`, first bit first, of the binary-reflected Gray code of level `i` in `m` bits. -/
def grayBit (m k i : Nat) : Bool := bitOf (i ^^^ i / 2) (m - 1 - k)

/-- The distance from `v` to the nearest level whose bit `k` has a value. -/
def levelDist (m step k : Nat) (v : Int) (b : Bool) : Nat :=
  let l := ((List.range (2 ^ m)).filter fun i => grayBit m k i == b).map fun i => (v - levelAt m step i).natAbs
  l.foldl min (l.headD 0)

/-- The soft bits of one axis: the sign tells the nearer level; the manual does not give the weight. -/
def axisBits (m step : Nat) (v : Int) : List Int :=
  (List.range m).map fun k =>
    let z := levelDist m step k v false
    let o := levelDist m step k v true
    let w : Int := Config.softWeight z o + 1
    if o < z then -w else w

/-- The soft bits of a data subcarrier under its entry: ⌈b/2⌉ of the in-phase level, then ⌊b/2⌋ of the quadrature level. -/
def pointBits (e : Byte) (z : Cx) : List Int :=
  let b := entryBits e
  let step := levelStep b (entryGain e)
  axisBits ((b + 1) / 2) step z.re ++ axisBits (b / 2) step z.im

/-- The soft bits of a symbol's data subcarriers under a profile's entries, in order (R251). -/
def symbolBits (entries : List Byte) (z : List Cx) : List Int :=
  (List.zipWith pointBits entries (dataOf z)).flatten

/-! ## Codewords (R248 to R252) -/

/-- The header codeword of a frame: symbol 2 under QPSK at GAIN = 8 (R249). -/
def headerWord (max : Nat) (z : List Cx) : Decoded :=
  headCode.decode max (placed 3872 (symbolBits (List.replicate 1936 0x28) z))

/-- The codewords of a stream of soft bits: each takes 25,600, and what is left is padding. -/
def dataWords (max : Nat) : Nat → List Int → List Decoded
  | 0, _ => []
  | n + 1, l => if l.length < 25600 then [] else dataCode.decode max (placed 25600 (l.take 25600)) :: dataWords max n (l.drop 25600)

/-- The information bytes of a codeword of a code. -/
def infoBytes (q : QcCode) (w : Decoded) : List Byte := packBits (w.bits.take (q.z * q.info))

/-! ## Signal quality (R239) -/

/-- |h|² of the data subcarriers, and |Y0 − Y1|² / 2. -/
def signalPower (h : List Cx) : List Nat := (dataOf h).map Cx.norm
def noisePower (y0 y1 : List Cx) : List Nat := dataOf (List.zipWith (fun a b => (Cx.sub a b).norm / 2) y0 y1)

/-- Sums that grow element by element; an empty list stands for zeros. -/
def addSums (a b : List Nat) : List Nat := if a.isEmpty then b else List.zipWith (· + ·) a b

/-- A byte of DMT_SNR_MAP: 4 × the ratio in dB, rounded, from 0 to 255. Without noise it is 255. -/
def snrByte (sig noise : Nat) : Byte :=
  BitVec.ofNat 8 (if noise = 0 then (if sig = 0 then 0 else 255) else logFrom 40 sig noise 8 0)

/-- A ratio in units of 0.01 dB, where a U16 holds it. -/
def merValue (sig err : Nat) : Nat :=
  if err = 0 ∨ sig < err then Config.merOutside sig err % 65536 else logFrom 1000 sig err 16 0

/-- DMT_MER_AVG: the mean of the linear ratios, with 32 fractional bits; a subcarrier without noise has none. -/
def merAverage (sig noise : List Nat) : Nat :=
  if noise.any (· == 0) then Config.merOutside sig.sum noise.sum % 65536
  else merValue ((List.zipWith (fun s n => s * 2 ^ 32 / n) sig noise).sum / sig.length) (2 ^ 32)

end Sys2Proof.Machine
end

