-- ==== Sys2Proof/Machine/Dmt.lean ====
section
/-!
DEFINITION. Downstream DMT receiver (spec/08): receiver states, profiles, and the decoding of a frame.
-/
namespace Sys2Proof.Machine

/-! ## Acquisition and lock (R232 to R234) -/

/-- A training pair in Search, given by the samples from its boundary, passes the test by its correlation: Acquire, where the equaliser and the
frequency estimate start afresh. -/
def execTrainingPairFound (n : Fin 4) (x : List Int) (s : State) : Host.Outcome State Fault Refusal :=
  s.run (live (.ask fun d => .when (d.num .dmtState n.val == 1
    && correlates x.toArray (d.num .dmtWindowAdvance n.val) (d.num .dmtAcqThreshold n.val))
    [putN .dmtState n.val 0 2,
      .eff (.fch n.val fun c => { c with dmt := { DmtRx.none with adv := d.num .dmtWindowAdvance n.val, dec := c.dmt.dec } })]))

/-- Whether the last eight frames passed in a row with frequency estimates within 0.5 ppm and at least six headers converged (Table 8.2). -/
def DmtRx.locks (r : DmtRx) : Bool :=
  r.run.length == 8 && decide (6 ≤ (r.run.filter (·.2)).length)
    && r.run.all fun a => r.run.all fun b => decide (a.1 - b.1 ≤ 500)

/-- Eight frames pass in Acquire: Locked, event 128 + 16n + 4, and the recovered reference is valid (R80). -/
def execDmtLockAcquired (n : Fin 4) (s : State) : Host.Outcome State Fault Refusal :=
  s.run (live (.ask fun d => .when (d.num .dmtState n.val == 2 && (d.ch n.val).dmt.locks)
    [putN .dmtState n.val 0 3, raise (chEvt n.val 4) n.val, refValidNow n.val]))

/-- DMT_LOSS_FRAMES consecutive frames fail the training test: Search, with cause 1. -/
def execDmtTrainingLoss (n : Fin 4) (s : State) : Host.Outcome State Fault Refusal :=
  s.run (live (.ask fun d => .when ((d.num .dmtState n.val == 2 || d.num .dmtState n.val == 3)
    && decide (d.num .dmtLossFrames n.val ≤ (d.ch n.val).dmt.fails)) [dmtLeave n.val 1 1]))

/-! ## Profiles (R241 to R247) -/

/-- The entries of a profile image. -/
def profileEntries (b : List Byte) : List Byte := (b.drop 16).take 1936

/-- Codewords per frame of a profile: ⌊1,917 · ΣBITS / 25,600⌋ (R242). -/
def profileCodewords (b : List Byte) : Nat :=
  1917 * ((profileEntries b).map entryBits).sum / 25600

/-- The first entry whose BITS exceeds 8 (R243). -/
def badEntry (b : List Byte) : Option Nat :=
  (profileEntries b).findIdx? fun e => decide (8 < entryBits e)

/-- Aborts 0x0301 and 0x0302 of a profile write (R243). The stray line in R243's first item is read as one list of faults for
0x0301 (DEDUCED, log entry 11). -/
def profileAbort (p : Nat) (b : List Byte) : Nat :=
  firstAbort [
    (beAt b 2 2 != 1936 || beAt b 1 1 != 1 || b.length != 1952 || beAt b 12 4 != crc32c (b.drop 16), 0x0301),
    (beAt b 0 1 != p || (badEntry b).isSome || profileCodewords b == 0 || decide (744 < profileCodewords b), 0x0302)]

/-- Whether a slot is the target of the pending switch of a channel. -/
def Dev.switchTarget (d : Dev) (n p : Nat) : Bool :=
  match d.pendingOn 2 n with
  | some a => nth 0 a.arg 0 == p
  | none => false

/-- DMT_LAST_ERROR (R243): slot, failing entry or 0x1FFF, abort. -/
def dmtError (n p : Nat) (b : List Byte) (code : Nat) : Prog :=
  let entry := if code = 0x0302 ∧ beAt b 0 1 = p then (badEntry b).getD 0x1FFF else 0x1FFF
  putN .dmtLastError n 0 (p * 2 ^ 29 + entry * 2 ^ 16 + code)

/-- DMT_PROFILE (R243): an accepted image sets LOADED and CODEWORDS. The empty value that a configuration returns to unloads the slot. -/
def dmtProfileBeh (n p : Nat) (b : List Byte) : Beh where
  pre := fun _ => profileAbort p b
  state := fun d => firstAbort [(d.switchTarget n p, 0x0501), (bitOf (d.num .dmtProfileEnable n) p, 0x0401)]
  act := fun _ => .done (.all [putO .dmtProfile n p b,
    putN .dmtProfileStatus n p (if b.isEmpty then 0 else 2 ^ 31 + profileCodewords b)]) []
  note := fun d _ code => .when (p != 0 && d.closedAbort (Obj.dmtProfile.index n p) == 0
    && (code == 0x0301 || code == 0x0302 || code == 0x0401 || code == 0x0501)) [dmtError n p b code]

/-- A write of DMT_PROFILE. -/
def execDmtProfileWrite (o : Origin) (n : Fin 4) (p : Fin 8) (b : List Byte) (s : State) :
    Host.Outcome State Fault Refusal :=
  s.run (serveWrite o .dmtProfile n.val p.val (.oct b) (dmtProfileBeh n.val p.val b))

/-- Whether a profile slot is loaded: slot 0 always is. -/
def Dev.slotLoaded (d : Dev) (n p : Nat) : Bool := p == 0 || bitOf (d.num .dmtProfileStatus n p) 31

/-- Whether a profile slot is enabled: slot 0 always is. -/
def Dev.slotEnabled (d : Dev) (n p : Nat) : Bool := p == 0 || bitOf (d.num .dmtProfileEnable n) p

/-- DMT_PROFILE_ENABLE (R244). Bit 0 reads as one. -/
def dmtProfileEnableBeh (n v : Nat) : Beh :=
  beh (fun _ => 0)
    (fun d => firstAbort [
      ((List.range 8).any fun p => d.switchTarget n p && p != 0 && !bitOf v p, 0x0501),
      ((List.range 8).any (fun p => bitOf v p && !d.slotLoaded n p)
        || (d.num .dmtProfileActive n != 0 && !bitOf v (d.num .dmtProfileActive n)), 0x0401)])
    (fun _ => .done (putN .dmtProfileEnable n 0 (putBit v 0 true)) [])

/-- A write of DMT_PROFILE_ENABLE. -/
def execDmtProfileEnableWrite (o : Origin) (n : Fin 4) (v : BitVec 8) (s : State) : Host.Outcome State Fault Refusal :=
  s.run (serveWrite o .dmtProfileEnable n.val 0 (.num v.toNat) (dmtProfileEnableBeh n.val v.toNat))

/-- The argument of DMT_PROFILE_SWITCH: [58:56] the slot, [50:0] the target frame. -/
def switchSlot (arg : Nat) : Nat := bitsOf arg 56 3
def switchFrame (arg : Nat) : Nat := bitsOf arg 0 51

/-- DMT_PROFILE_SWITCH (R246, R649): its own order of aborts. A switch to the active slot arms nothing. -/
def dmtProfileSwitchBeh (c : Call) (n arg : Nat) : Beh :=
  let slot := switchSlot arg
  let f := switchFrame arg
  beh
    (fun d => firstAbort [
      (arg != slot * 2 ^ 56 + f || f % 32 != 0 || !d.frameAhead n f, 0x0302)])
    (fun d => firstAbort [
      (!d.slotEnabled n slot || !d.alignedOn n, 0x0401),
      (d.armConflict 2 n [Obj.key .dmtProfileActive n 0], 0x0501),
      (d.actsFull && slot != d.num .dmtProfileActive n, 0x0402)])
    (fun d => .done
      (.when (slot != d.num .dmtProfileActive n)
        [armAct 2 n (.frame f) c.o.code.toNat [Obj.key .dmtProfileActive n 0] [slot]]) [])

/-- Execution of DMT_PROFILE_SWITCH. -/
def execDmtProfileSwitch (o : Origin) (n : Fin 4) (arg : BitVec 64) (s : State) : Host.Outcome State Fault Refusal :=
  s.run (serveExec o .dmtProfileSwitch n.val 0 true (.num arg.toNat)
    (dmtProfileSwitchBeh (elemReq o 3 .dmtProfileSwitch n.val 0 (.num arg.toNat)).call n.val arg.toNat))

/-- At symbol 3 of the target frame DMT_PROFILE_ACTIVE takes the new slot, after the recheck of R246. -/
def execProfileSwitchFire (n : Fin 4) (s : State) : Host.Outcome State Fault Refusal :=
  s.run (live (.ask fun d =>
    match d.pendingOn 2 n.val with
    | none => .skip
    | some a => .when (d.actTurn a) [
        let slot := nth 0 a.arg 0
        if d.slotEnabled n.val slot then .all [
          .eff (.disarm a.slot),
          putN .dmtProfileActive n.val 0 slot,
          raise (chEvt n.val 6) n.val 0 (top8 (d.num .dmtProfileActive n.val) + slot * 65536),
          lateAct a (d.actLate a)]
        else failAct a 0x0401]))

/-! ## Decoding (R235 to R239, R245, R252) -/

/-- What codewords add to the counters: each counts in DMT_CW_TOTAL and by its iterations in DMT_ITER_HIST, the header's too (DEDUCED, log entry
121). -/
def countCodewords (n : Nat) (l : List Decoded) : Prog :=
  let fixed := l.filter fun c => c.ok && !c.clean
  .all [
    countBy .dmtCwTotal n 0 l.length,
    countBy .dmtCwCorrected n 0 fixed.length,
    countBy .dmtBitsCorrected n 0 (fixed.map (·.changed)).sum,
    .each (List.range 12) fun i => countIn .dmtIterHist n 0 (4 * i) 4 (l.filter fun c => c.iters = i + 1).length]

/-- Event 128 + 16n + 7 at the first mismatch or skip of a profile epoch, which is FRM_FRAME / 32. -/
def profileMiss (n : Nat) : Prog :=
  .ask fun d =>
    let e := d.num .frmFrame n / 32
    .when ((d.ch n).missEpoch != some e)
      [.eff (.fch n fun c => { c with missEpoch := some e }), raise (chEvt n 7) n]

/-- The codewords of a profile. -/
def Dev.slotCodewords (d : Dev) (n p : Nat) : Nat := d.profileStatus n p % 1024

/-- The entries of a slot: slot 0 holds b = 2 and GAIN = 8 everywhere (R241). -/
def Dev.slotEntries (d : Dev) (n p : Nat) : List Byte := profileEntries (d.view .dmtProfile n p).b

/-- Fields of the frame header (Table 10.1). -/
def hdrFrame (h : List Byte) : Nat := beAt h 4 8 % 2 ^ 51
def hdrProfile (h : List Byte) : Nat := beAt h 4 8 / 2 ^ 61

/-- The header check: the header's CRC and its synchronisation word (R245, R287; that both belong to it is DEDUCED, log entry 122). -/
def hdrChecks (h : List Byte) : Bool := beAt h 238 4 == crc32c (h.take 238) && beAt h 0 4 == 0x6D2B94E1

/-- The period that the nominal frame has, in 2⁻¹⁶ samples, and the offset of a period from it in parts per 10⁹. -/
def framePeriod : Nat := 7987200 * 2 ^ 16
def periodOffset (p : Nat) : Int := ((p : Int) - framePeriod) * 1000000000 / framePeriod

/-- The mean of the periods between the last training pairs (R234). -/
def meanPeriod (l : List Nat) : Nat := l.sum / l.length

/-- The training test of a frame (R232): the correlation, or a training pair within ±4 samples of the place that the measured period predicts. -/
def DmtRx.passes (r : DmtRx) (thr : Nat) (f : DmtFrame) : Bool :=
  correlates f.x.toArray r.adv thr ||
    match f.period with
    | some p => !r.periods.isEmpty && decide (((p.toNat : Int) - meanPeriod r.periods).natAbs ≤ 4 * 2 ^ 16)
    | .none => false

/-- The receiver after a frame's training symbols: test, periods and equaliser (R232, R234, R236). With DMT_EQ_FREEZE the taps hold. In doze only the
frames of awake periods count toward DMT_LOSS_FRAMES (R362). -/
def Dev.dmtTrained (d : Dev) (n : Nat) (f : DmtFrame) : DmtRx :=
  let r := (d.ch n).dmt
  let x := f.x.toArray
  let ok := r.passes (d.num .dmtAcqThreshold n) f
  { r with
    acq := min 4 (r.acq + 1)
    taps := if d.num .dmtEqFreeze n = 1 then r.taps
      else moveTaps (decide (r.acq < 4)) (d.num .dmtEqShift n) r.taps (estimate (received x r.adv 0) (received x r.adv 1))
    periods := match f.period with
      | some p => if ok then (p.toNat :: r.periods).take 8 else r.periods
      | none => r.periods
    fails := if ok then 0 else if d.dozing n then r.fails else r.fails + 1
    run := if ok then r.run else [] }

/-- The values of symbol `s` of a frame through a receiver's taps, its common phase corrected. -/
def DmtRx.symbol (r : DmtRx) (f : DmtFrame) (s : Nat) : List Cx := symbolValues f.x.toArray r.adv r.taps s

/-- What the receiver keeps of a frame beyond its training: with a passing frame its estimate and whether the header converged, the slope of the pilots
of the last symbol, and in Locked the sums of signal quality. `last` is the last symbol that is equalised. -/
def DmtRx.kept (r : DmtRx) (ok locked headOk : Bool) (last : Nat) (f : DmtFrame) : DmtRx :=
  let x := f.x.toArray
  let est := match f.period with
    | some p => periodOffset p.toNat
    | .none => periodOffset (meanPeriod r.periods)
  let pil := ((List.range (last - 1)).map fun k => pilotPower (k + 2) (r.symbol f (k + 2)))
  { r with
    run := if ok then ((est, headOk) :: r.run).take 8 else []
    slope := pilotSlope last (r.symbol f last)
    frames := if locked then r.frames + 1 else r.frames
    sig := if locked then addSums r.sig (signalPower r.taps) else r.sig
    noise := if locked then addSums r.noise (noisePower (received x r.adv 0) (received x r.adv 1)) else r.noise
    pilot := if locked then (r.pilot.1 + (pil.map (·.1)).sum, r.pilot.2 + (pil.map (·.2)).sum) else r.pilot }

/-- A decoded frame goes to the framer. -/
def toFramer (n : Nat) (x : DecFrame) : Prog :=
  .eff (.fch n fun c => { c with dmt := { c.dmt with dec := c.dmt.dec ++ [x] } })

/-- The data codewords of a frame under slot `p` (R251): data symbols 3 to 1,919 in order. -/
def Dev.dmtData (d : Dev) (n p : Nat) (r : DmtRx) (f : DmtFrame) : List Decoded :=
  dataWords (d.num .dmtLdpcMaxIter n) (d.slotCodewords n p)
    ((List.range 1917).flatMap fun k => symbolBits (d.slotEntries n p) (r.symbol f (k + 3)))

/-- The data symbols of a frame in Locked, with the profile that R245 chooses from the header; the header and what they give go to the framer, a codeword
that does not converge marked. -/
def decodeData (n : Nat) (head : Decoded) (r : DmtRx) (f : DmtFrame) : Prog :=
  .ask fun d =>
    let h := infoBytes headCode head
    let named := head.ok && hdrChecks h
    if named && !d.slotEnabled n (hdrProfile h) then
      .all [count .dmtFramesSkipped n, profileMiss n, toFramer n ⟨head.ok, h, [], []⟩]
    else
      let p := if named then hdrProfile h else d.num .dmtProfileActive n
      let w := d.dmtData n p r f
      .all [
        .when (p != d.num .dmtProfileActive n) [count .dmtProfileMismatches n, profileMiss n],
        countCodewords n w,
        countBy .dmtCwUncorrectable n 0 (w.filter fun c => !c.ok).length,
        toFramer n ⟨head.ok, h, w.flatMap (infoBytes dataCode), (w.zipIdx.filter fun c => !c.1.ok).map (·.2)⟩]

/-- A downstream frame is equalised and decoded (R235): the header in Acquire and Locked, data in Locked only. A setting of DMT_WINDOW_ADVANCE takes
effect at the next frame boundary (R227). Asleep in doze the receiver is off (R362). -/
def execDmtFrameDecode (n : Fin 4) (f : DmtFrame) (s : State) : Host.Outcome State Fault Refusal :=
  s.run (live (.ask fun d =>
    let st := d.num .dmtState n.val
    .when ((st == 2 || st == 3) && !d.asleep n.val) [
      let ok := (d.ch n.val).dmt.passes (d.num .dmtAcqThreshold n.val) f
      let r := d.dmtTrained n.val f
      let head := headerWord (d.num .dmtLdpcMaxIter n.val) (r.symbol f 2)
      .all [
        .eff (.fch n.val fun c => { c with
          dmt := { r.kept ok (st == 3) head.ok (if st = 3 then 1919 else 2) f with adv := d.num .dmtWindowAdvance n.val } }),
        .when (!r.periods.isEmpty) [putN .dmtFreqOffset n.val 0 (ofInt 32 (periodOffset (meanPeriod r.periods)))],
        countCodewords n.val [head],
        .when (!head.ok) [count .dmtHdrUncorrectable n.val],
        if st = 3 then decodeData n.val head r f
        else toFramer n.val ⟨head.ok, infoBytes headCode head, [], []⟩]]))

end Sys2Proof.Machine
end

