-- ==== Sys2Proof/Machine/Keys.lean ====
section
/-!
DEFINITION. What the framer, the burst builder and the cipher commands share: bonded groups (R29, R360), fibre key
contexts (R527 to R537), and counter pairs (R436, R503).
-/
namespace Sys2Proof.Machine

/-! ## Bonded groups -/

/-- BOND of a MODE word (Table 12.5). -/
def modeBond (m : Nat) : Nat := bitsOf m 30 2

/-- The lowest-numbered member of the group a channel belongs to; itself when single. -/
def Dev.lead (d : Dev) (n : Nat) : Nat :=
  match modeBond (d.num .actMode n) with
  | 1 => n / 2 * 2
  | 2 => 0
  | _ => n

/-- The members that a mode gives the group of a channel. -/
def modeMembers (n mode : Nat) : List Nat :=
  match modeBond mode with
  | 1 => [n / 2 * 2, n / 2 * 2 + 1]
  | 2 => [0, 1, 2, 3]
  | _ => [n]

/-- The members of the group of a channel. -/
def Dev.members (d : Dev) (n : Nat) : List Nat := modeMembers n (d.num .actMode n)

/-! ## Fibre contexts -/

/-- Place of a context in the key store: channel, direction (0 downstream, 1 upstream), index. -/
def ctxKey (n dir idx : Nat) : Nat := n * 64 + dir * 32 + idx

/-- The object that reports the states of a direction. -/
def ctxObj (dir : Nat) : Obj := if dir = 0 then .ciphFchDsState else .ciphFchUsState

/-- State of a context (Table 19.1). -/
def Dev.ctxState (d : Dev) (n dir idx : Nat) : Nat := beAt (d.oct (ctxObj dir) n) idx 1

/-- A context takes a state. -/
def setCtx (n dir idx st : Nat) : Prog :=
  .ask fun d => putO (ctxObj dir) n 0 (patch (d.oct (ctxObj dir) n) idx (beBytes 1 st))

/-- A Loaded context becomes Exhausted: event 416 names the channel and the context's direction and index. -/
def exhaustCtx (n dir idx : Nat) : Prog :=
  .ask fun d => .when (d.ctxState n dir idx == 1)
    [setCtx n dir idx 2, raise 416 n 0 (top8 dir + idx * 65536)]

/-- One invocation under a context (R533). -/
def useCtx (n dir idx : Nat) : Prog :=
  .ask fun d =>
    let k := ctxKey n dir idx
    let c := satAdd 64 (SMap.get 0 d.uses k) 1
    .all [.eff (.use k c), .when (decide (d.num .ciphFchKeyLimit n ≤ c)) [exhaustCtx n dir idx]]

/-- Every context of a channel becomes Empty (R534). -/
def clearCtxs (n : Nat) : Prog :=
  .all [putO .ciphFchDsState n 0 (zeros 32), putO .ciphFchUsState n 0 (zeros 32), putN .ciphFchUsActive n 0 0,
    .eff (.dropKeys fun k => k / 64 == n)]

/-- A group dissolves: a former member takes a copy of the lead's contexts and active upstream index (R531). -/
def copyCtxs (lead n : Nat) : Prog :=
  .ask fun d => .when (lead != n) [
    putO .ciphFchDsState n 0 (d.oct .ciphFchDsState lead), putO .ciphFchUsState n 0 (d.oct .ciphFchUsState lead),
    putN .ciphFchUsActive n 0 (d.num .ciphFchUsActive lead),
    .each (List.range 64) fun i => .all [
      .eff (.key (n * 64 + i) (SMap.get [] d.keys (lead * 64 + i))),
      .eff (.use (n * 64 + i) (SMap.get 0 d.uses (lead * 64 + i)))]]

/-- The header words that authenticate a fibre packet: LENGTH, LAST and CRC zero (R530). -/
def fibreAad (stream key label : Nat) : List Byte := beBytes 8 (stream * 2 ^ 44 + key % 32 * 2 ^ 24 + label % 256 * 2 ^ 16)

/-- The downstream nonce of Table 19.2. -/
def dsNonce (frame ch stream ord : Nat) : List Byte :=
  beBytes 12 (frame % 2 ^ 51 * 2 ^ 45 + ch % 4 * 2 ^ 43 + stream % 2 ^ 20 * 2 ^ 23 + ord % 2 ^ 23)

/-- The upstream nonce of Table 19.2. -/
def usNonce (frame ch alloc ord : Nat) : List Byte :=
  beBytes 12 (frame % 2 ^ 51 * 2 ^ 45 + ch % 4 * 2 ^ 43 + alloc % 2 ^ 14 * 2 ^ 29 + ord % 2 ^ 29)

/-- A check mismatch (R551). -/
def checkFault (n : Nat) : Prog := .all [count .ciphCheckFaults, countIn .ciphFchCounters n 0 32 8 1, raise 424 n]

/-! ## Counter pairs -/

/-- A counter pair takes one packet of some bytes: packets, then bytes, each 8 bytes (table 17). -/
def countPair (pair bytes : Nat) : Prog :=
  .ask fun d =>
    let e := padTo 16 (SMap.get [] d.tbl (tblKey 17 pair))
    .eff (.tbl (tblKey 17 pair)
      (beBytes 8 (satAdd 64 (beAt e 0 8) 1) ++ beBytes 8 (satAdd 64 (beAt e 8 8) bytes)))

/-- The stream entry of a channel and stream (R303): its body word. -/
def Dev.streamBody (d : Dev) (ch stream : Nat) : Option Nat :=
  ((d.rows 6).find? fun e => beAt e.2 0 8 / 2 ^ 40 % 2 ^ 22 == ch * 2 ^ 20 + stream).map fun e => beAt e.2 8 8

end Sys2Proof.Machine
end

