-- ==== Sys2Proof/WellFormed.lean ====
section
/-!
DEFINITION. When the operands of a command are ones its row admits. Most bounds are in the operand
types; what is left are relations between operands.
-/
namespace Sys2Proof

/-- The bytes delivered behind a full header are the message's DATA (Table 5.3); a shorter message has none. -/
def UMsg.wf (m : UMsg) : Bool := m.data.length == m.delivered - 16

/-- A row of a table command carries its opcode; SEARCH also stands for a reserved opcode. -/
def TblSrc.wf (op : Nat) : TblSrc → Bool
  | .exec _ _ c => (c.headD 0).toNat == op || (op == 1 && ((c.headD 0).toNat == 0 || decide (7 < (c.headD 0).toNat)))
  | .ring _ => true

/-- A packet has 1 to 16,383 bytes; only a fibre packet has a stream or starts at an IP node (R421), and only a pseudowire packet at its own. -/
def Arrival.wf (a : Arrival) : Bool :=
  let fibre := decide (108 ≤ a.port.val) && decide (a.port.val ≤ 111)
  decide (1 ≤ a.data.length) && decide (a.data.length ≤ 16383) && a.stream.isSome == fibre
    && (a.start.val != 1 || fibre) && (a.start.val == 2) == (a.port.val == 116)

/-- An access carries 1 to 16 bytes. Aligned writes of MBX_SUBMIT and HOST_INDEX have rows of their own. -/
def BarAcc.wf : BarAcc → Bool
  | .read0 _ size => size.val != 0
  | .read4 _ size => size.val != 0
  | .write4 _ data => decide (1 ≤ data.length) && decide (data.length ≤ 16)
  | .write0 off data => decide (1 ≤ data.length) && decide (data.length ≤ 16) &&
      !(data.length == 4 && (off.toNat == 0 || decide (0x100000 ≤ off.toNat) && off.toNat % 256 == 0))

/-- Whether the operands of a command are ones its row admits. -/
def Instr.wf : Instr → Bool
  | .powerOnReset => true
  | .porstRelease _ pairs => pairs.length == 8
  | .strapUnstable => true
  | .securityRomStart _ _ => true
  | .supplyFailure => true
  | .supplyFailureRelease => true
  | .hrefLoss => true
  | .hrefLossReset => true
  | .recoveredRefLoss _ => true
  | .pllLocked _ => true
  | .hrefOffsetAlarm _ => true
  | .clkTimingChannelWrite _ _ => true
  | .rstCauseStickyRead _ => true
  | .rstCauseStickyWrite _ _ => true
  | .rstDevice _ => true
  | .deviceCommandReset => true
  | .rstInstance _ _ _ => true
  | .instanceResetRelease _ _ => true
  | .coreWatchdogExpiry _ => true
  | .secWatchdogExpiry => true
  | .lifecycleViolation => true
  | .tapReset _ => true
  | .crossingOpen _ _ => true
  | .crossingTimeout _ => true
  | .xingResampleFailure _ _ => true
  | .gateDrainComplete _ => true
  | .gateDrainTimeout _ => true
  | .gateHeldAccess _ => true
  | .pwrStateRequest _ _ => true
  | .dozeTimeout => true
  | .wakeNAssert => true
  | .ringmasterPrewake => true
  | .railsRestored _ _ _ => true
  | .trOpTargetWrite _ _ => true
  | .regulatorSettled _ => true
  | .trSettleTimeout _ _ => true
  | .thermalLimitExceeded => true
  | .thermalFloorRaise => true
  | .thermalFloorLower => true
  | .umaniRead m => m.wf && m.op.toNat == 1
  | .umaniWrite m _ => m.wf && m.op.toNat == 2
  | .umaniExecute m _ => m.wf && m.op.toNat == 3
  | .umaniBlockRead m => m.wf && m.op.toNat == 4
  | .umaniBlockWrite m => m.wf && m.op.toNat == 5
  | .umaniReservedOperation m => m.wf && (m.op.toNat == 0 || decide (5 < m.op.toNat))
  | .blockWriteAbandon _ _ => true
  | .blockReadCopyRelease _ _ _ => true
  | .i2cResponseRead => true
  | .dictGroupClaim _ _ => true
  | .dictGroupRelease _ _ => true
  | .dictObjectWrite _ _ _ _ _ => true
  | .cfgStageCommit _ _ => true
  | .cfgApply _ _ => true
  | .overlayApply _ => true
  | .mbxSubmit _ _ _ _ _ => true
  | .mbxDoneClear _ _ _ => true
  | .leaseRenew _ _ _ => true
  | .hostIndexWrite _ _ _ _ _ => true
  | .dmapSlotRead _ _ _ => true
  | .barReservedAccess _ _ acc => acc.wf
  | .bar2Access _ _ => true
  | .pcieConfigRequest _ _ _ _ => true
  | .pcieLinkUp _ _ _ => true
  | .pcieLinkDown _ _ => true
  | .perstLow _ _ => true
  | .perstRise _ => true
  | .pcieHotReset _ _ => true
  | .functionLevelReset _ _ _ => true
  | .functionD3ToD0 _ _ _ => true
  | .vfEnableSet _ _ => true
  | .vfEnableClear _ => true
  | .msixVectorUnmask _ _ _ => true
  | .hifRingSetup _ _ _ => true
  | .hifRingTeardown _ _ _ => true
  | .hifRingQuery _ _ _ => true
  | .hifDmapSet _ _ _ => true
  | .hostTxDescriptor _ => true
  | .ringItrExpiry _ => true
  | .leaseExpiry _ _ => true
  | .leaseQuarterWarning _ _ => true
  | .feEnableWrite _ _ _ _ => true
  | .feApdTargetWrite _ _ _ _ => true
  | .apdBiasAtTarget _ => true
  | .apdCurrentLimit _ => true
  | .feTxCoeffWrite _ _ _ => true
  | .hvControlMessage _ _ => true
  | .hvCommandResend _ _ => true
  | .hvHeartbeat _ => true
  | .hvWatchdogExpiry => true
  | .hvRearm _ _ => true
  | .hvinUndervoltage => true
  | .hvinRecovery => true
  | .boostInRegulation => true
  | .boostOutOfRange => true
  | .hvOvertemp => true
  | .rogueMonitorLatch _ => true
  | .rogueOnLimitLatch _ => true
  | .feLaserRelease _ _ _ _ => true
  | .subTick => true
  | .frameMark _ _ _ => true
  | .dmtFrameDecode _ _ => true
  | .trainingPairFound _ _ => true
  | .dmtLockAcquired _ => true
  | .dmtTrainingLoss _ => true
  | .dmtProfileWrite _ _ _ _ => true
  | .dmtProfileEnableWrite _ _ _ => true
  | .dmtProfileSwitch _ _ _ => true
  | .profileSwitchFire _ => true
  | .snrPeriodEnd _ => true
  | .mgtPreambleDetect _ _ _ _ => true
  | .mgtDelimiterFound _ _ _ _ _ => true
  | .mgtFalseStart _ _ => true
  | .mgtHeaderReceived _ _ _ _ => true
  | .mgtPacketReceived _ _ _ => true
  | .mgtTxStart _ => true
  | .mgtTxComplete _ => true
  | .framerFrame _ _ => true
  | .frameSyncEntry _ => true
  | .frameSyncLoss _ => true
  | .lofDeclare _ => true
  | .losDeclare _ => true
  | .losClear _ => true
  | .aisDeclare _ => true
  | .aisClear _ => true
  | .fecDegWindowEnd _ => true
  | .encapFrame _ _ => true
  | .chainTimeout _ => true
  | .pmSecondCommit _ => true
  | .timingMessage _ _ _ => true
  | .circuitContainer _ _ _ _ => true
  | .pwPacketForm _ => true
  | .pwPacketReceived _ _ => true
  | .pwLossTimeout _ => true
  | .circConfigWrite _ _ _ => true
  | .window _ _ => true
  | .assign _ _ => true
  | .offer _ _ => true
  | .confirm _ _ => true
  | .eqd _ _ => true
  | .alloc _ _ => true
  | .activate _ _ => true
  | .refuse _ _ => true
  | .deactivate _ _ => true
  | .disable _ _ => true
  | .enable _ _ => true
  | .rdi _ _ => true
  | .dozeReply _ _ => true
  | .wake _ _ => true
  | .qualityRequest _ _ => true
  | .announce _ _ _ => true
  | .rangingBurst _ => true
  | .announceTimeout _ => true
  | .rangeTimeout _ => true
  | .holdTimeout _ => true
  | .refuseHoldoffEnd _ => true
  | .actRestart _ _ => true
  | .actEqdWrite _ _ _ => true
  | .modeApply _ => true
  | .grantEntry _ _ _ => true
  | .burstStart _ _ _ => true
  | .dozeStart _ => true
  | .portModeWrite _ _ _ => true
  | .portEnableWrite _ _ _ => true
  | .portRestart _ _ => true
  | .autonegComplete _ _ _ _ _ => true
  | .linkTrainingComplete _ _ _ => true
  | .linkTrainingTimeout _ _ _ _ => true
  | .portLocalFault _ => true
  | .localFaultTimeout _ => true
  | .portRemoteFault _ => true
  | .portFaultClear _ => true
  | .fomMarginLow _ _ _ => true
  | .fomRetrain _ _ => true
  | .eeeTxEnter _ => true
  | .eeeTxWake _ => true
  | .eeeRxLpi _ _ => true
  | .lldpTx _ => true
  | .ethRxFrame _ _ _ => true
  | .ethTxFrame _ _ _ _ => true
  | .quadPllUnlock _ _ => true
  | .portMacCountersRead _ _ => true
  | .fabEnableWrite _ _ _ => true
  | .fabRestart _ _ => true
  | .fabAligned _ _ => true
  | .fabAlignTimeout _ => true
  | .fabHelloTimeout _ => true
  | .fabHelloTx _ => true
  | .fabHelloRx _ m => m.length == 50 && (m.headD 0).toNat == 1
  | .fabConfirmRx _ m => m.length == 12 && (m.headD 0).toNat == 2
  | .fabCreditSyncTx _ => true
  | .fabCreditSyncRx _ m => m.length == 48 && (m.headD 0).toNat == 3
  | .fabCellRx _ b => b.length == 256
  | .fabLaneLoss _ _ _ => true
  | .fabClockLoss _ => true
  | .fabRebuildTimeout _ => true
  | .packetIngress a => a.wf
  | .carouselDispatch => true
  | .packetForward _ _ _ => true
  | .reorderTimeout _ => true
  | .learnInsert => true
  | .tableSearch src => src.wf 1
  | .tableNext src => src.wf 2
  | .tableInsert src => src.wf 3
  | .tableDelete src => src.wf 4
  | .tableFlush src => src.wf 5
  | .flushComplete => true
  | .tableLock src => src.wf 6
  | .tableUnlock src => src.wf 7
  | .ageTick => true
  | .scrubPass _ _ => true
  | .fwdCarvingWrite _ _ => true
  | .carvingComplete => true
  | .fwdEpochSwitch _ _ => true
  | .tableEpochSwitchFire => true
  | .epochDrained => true
  | .schedulerDequeue _ _ => true
  | .tmQueueCfgWrite _ _ _ => true
  | .tmSubCfgWrite _ _ _ => true
  | .tmSvcCfgWrite _ _ _ => true
  | .tmPortCfgWrite _ _ _ => true
  | .tmGateAdminWrite _ _ _ => true
  | .tmGateSwitch _ _ => true
  | .gateListSwitchFire _ _ => true
  | .gateIntervalEnd _ => true
  | .tmQueueFlush _ _ => true
  | .tmSnapRequest _ _ => true
  | .tmSnapRelease _ _ => true
  | .snapshotCapture _ => true
  | .snapshotCaptureComplete _ => true
  | .snapshotRingDeliver _ => true
  | .dramHeadRefill _ => true
  | .dramCfgWrite _ _ _ => true
  | .dramSpeedWrite _ _ => true
  | .dramEnableWrite _ _ _ => true
  | .dramTrainingComplete _ => true
  | .dramTrainingFail _ _ _ _ => true
  | .dramRetrain _ => true
  | .dramMr4Poll _ _ _ => true
  | .dramRefresh _ _ _ _ => true
  | .dramAlert _ _ => true
  | .dramReadComplete _ _ _ => true
  | .dramDrainComplete _ => true
  | .dramRepairComplete _ => true
  | .ciphFchKeyLoad _ _ _ => true
  | .ciphFchUsKeySwitch _ _ _ => true
  | .usKeySwitchFire _ => true
  | .ciphFchKeyLimitWrite _ _ _ => true
  | .ciphMsSaLoad _ _ => true
  | .ciphMsContextWrite _ _ _ => true
  | .ciphLaOpen _ _ => true
  | .ciphLaSubmit _ _ _ => true
  | .laJobComplete _ => true
  | .ciphLaClose _ _ => true
  | .timeSet _ _ => true
  | .timeAdjust _ _ => true
  | .timeSourceWrite _ _ => true
  | .slewComplete => true
  | .sourceValidTimeout => true
  | .timeTsRead _ _ => true
  | .tpiCaptureEdge _ _ _ => true
  | .timeTpoCfgWrite _ _ _ => true
  | .timeTpoStart _ _ => true
  | .timeTpoStop _ _ => true
  | .pulseTrainStartFire _ _ => true
  | .pulseTrainStopFire _ _ => true
  | .pulseEdge _ _ => true
  | .timeSyncoWrite _ _ _ => true
  | .rmCancel _ _ => true
  | .actionCommit _ => true
  | .blGoWrite _ _ _ => true
  | .bootLoadComplete _ _ _ => true
  | .secLifecycleAdvance _ _ _ => true
  | .secRollbackCommit _ _ _ => true
  | .secFlashProgram _ _ => true
  | .flashProgramComplete _ _ => true
  | .secKekAgree _ _ => true
  | .secKekClear _ _ => true
  | .secAttest _ _ _ => true
  | .secChallengeRead _ => true
  | .secOwnerEnrol _ _ => true
  | .secOwnerLock _ _ => true
  | .secAuthIssue _ => true
  | .secDebugUnlock _ => true
  | .secDebugEnd _ => true
  | .trngHealthFail => true
  | .eventRecord _ => true
  | .evrRead _ _ => true
  | .evrFreezeStart _ => true
  | .evrFreezeEnd _ => true
  | .evrFreezeLimit => true
  | .evrClear _ _ => true
  | .thermAssert => true
  | .thermRelease => true
  | .thermMonitorFault => true
  | .vcoreOutOfRange => true
  | .railOutOfRange _ _ => true
  | .lgPersonalityWrite _ _ _ => true
  | .pcsLockAcquired _ _ => true
  | .pcieL1Exit _ => true
  | .aerErrorLogged _ _ => true
  | .coreWatchdogResetRelease => true
  | .feLaserForceOffWrite _ _ _ => true

end Sys2Proof
end

