-- ==== Sys2Proof/Machine/Mgmt.lean ====
section
/-!
DEFINITION. Management channels Starlight and Comet (spec/09): reception, capture and delivery. A receive path is 0
Starlight, 1 Comet at 2^12, 2 Comet at 2^MGT_CM_SF_RX (R283).
-/
namespace Sys2Proof.Machine

/-- The Starlight or the Comet counter of a pair (Table 9.5). -/
def phyObj (p : Nat) (sl cm : Obj) : Obj := if p = 0 then sl else cm

/-- A receive path of a channel. -/
def Dev.rxPath (d : Dev) (n p : Nat) : RxPath := SMap.get RxPath.none (d.ch n).rx p

/-- A receive path changes. -/
def setRx (n p : Nat) (f : RxPath → RxPath) : Prog :=
  .eff (.fch n fun c => { c with rx := SMap.upd RxPath.none p f c.rx })

/-- Whether a path runs (R259, R283): the front end ready, its receiver on, and not asleep in doze. -/
def Dev.rxRuns (d : Dev) (n p : Nat) : Bool :=
  d.num .feState n == 2 && !d.asleep n &&
    (if p = 0 then (d.ch n).slOn else (d.ch n).cmOn && (p == 1 || decide ((d.ch n).cmSfNow < 12)))

/-- Settings take effect on the paths with no reception in progress (R282). -/
def mgtSettle (n : Nat) : Prog :=
  .ask fun d =>
    let idle p := (d.rxPath n p).cur.isNone
    .eff (.fch n fun c => { c with
      slOn := if idle 0 then d.num .mgtSlEnable n == 1 else c.slOn,
      cmOn := if idle 1 && idle 2 then d.num .mgtCmEnable n == 1 else c.cmOn,
      cmSfNow := if idle 2 then d.num .mgtCmSfRx n else c.cmSfNow })

/-- The reception of a path ends, and its standby becomes the current reception (R275). -/
def rxEnd (n p : Nat) : Prog :=
  .all [setRx n p fun r => ⟨r.standby, none⟩, mgtSettle n]

/-- A setting of the receivers (R282). -/
def mgtRxBeh (n : Nat) (x : Obj) (v : Nat) : Beh := .plain fun _ => .done (.all [putN x n 0 v, mgtSettle n]) []

/-- One more detection ignored (R273 to R275). -/
def rxIgnored (n p : Nat) : Prog := count (phyObj p .mgtSlRxIgnored .mgtCmRxIgnored) n

/-- The standby waits behind a new current reception, unless that is the margin stronger than it. -/
def keepStandby (m new : Nat) : Option Rx → Option Rx
  | some x => if x.strength + m ≤ new then none else some x
  | none => none

/-- Whether eight successive symbols make a preamble (R268, R269). Each is what its correlator gives, in 1/256 of the energy for Starlight and in 0.25 dB
over the other bins for Comet, and where: the chip timing in samples, or the bin. All must reach the threshold at one place, to within ±1. -/
def Dev.preamble (d : Dev) (n p : Nat) (seen : List (BitVec 16 × BitVec 16)) : Bool :=
  let thr := d.num (phyObj p .mgtSlThreshold .mgtCmThreshold) n
  let places := seen.map fun x => x.2.toNat
  seen.length == 8 && (seen.all fun x => decide (thr ≤ x.1.toNat)) && places.all fun a => places.all fun b => decide (a ≤ b + 2)

/-- A preamble is detected with a strength in 0.25 dB (R268, R269, R271): the first starts a reception; a later one captures,
waits as standby or is ignored (R273, R274). -/
def execMgtPreambleDetect (n : Fin 4) (p : Fin 3) (seen : List (BitVec 16 × BitVec 16)) (strength : BitVec 16) (s : State) :
    Host.Outcome State Fault Refusal :=
  s.run (live (.ask fun d => .when (d.rxRuns n.val p.val && d.preamble n.val p.val seen) [
    count (phyObj p.val .mgtSlRxDetects .mgtCmRxDetects) n.val,
    let m := 4 * d.num .mgtCaptureMargin n.val
    let st := strength.toNat
    let new : Rx := ⟨st, st, false, false, 0⟩
    let r := d.rxPath n.val p.val
    match r.cur with
    | none => setRx n.val p.val fun x => { x with cur := some new }
    | some c =>
      if c.strength + m ≤ st then .all [
        count (phyObj p.val .mgtSlRxCaptured .mgtCmRxCaptured) n.val,
        raise (chEvt n.val 8) n.val 0 (top8 (if p.val = 0 then 0 else 1) + c.strength % 65536 * 256) (top16 st),
        .when (r.standby.isSome && (keepStandby m st r.standby).isNone) [rxIgnored n.val p.val],
        setRx n.val p.val fun x => ⟨some new, keepStandby m st x.standby⟩]
      else if c.passed then rxIgnored n.val p.val
      else match r.standby with
        | none => setRx n.val p.val fun x => { x with standby := some new }
        | some b => .all [rxIgnored n.val p.val,
            .when (decide (b.strength + m ≤ st)) [setRx n.val p.val fun x => { x with standby := some new }]]]))

/-- Whether symbols that begin `start` symbols after the detection are a delimiter (R270): 16 Starlight bits with at most two of 0xE4B5 in error, within 32
symbols; or four down-chirps, bit by bit, within 16. -/
def isDelimiter (p start bits : Nat) : Bool :=
  if p = 0 then decide (start ≤ 32) && decide ((setBits 16 (bits ^^^ 0xE4B5)).length ≤ 2) else decide (start ≤ 16) && bits % 16 == 15

/-- The delimiter is found; the strength has been refined over the preamble (R270, R271). -/
def execMgtDelimiterFound (n : Fin 4) (p : Fin 3) (start : BitVec 8) (bits refined : BitVec 16) (s : State) : Host.Outcome State Fault Refusal :=
  s.run (live (.when (isDelimiter p.val start.toNat bits.toNat) [setRx n.val p.val fun r =>
    match r.cur with
    | some c => { r with cur := some { c with delim := true, refined := refined.toNat } }
    | none => r]))

/-- No delimiter within its window: a false start (R270). -/
def execMgtFalseStart (n : Fin 4) (p : Fin 3) (s : State) : Host.Outcome State Fault Refusal :=
  s.run (live (.ask fun d =>
    match (d.rxPath n.val p.val).cur with
    | some c => .when (!c.delim)
        [count (phyObj p.val .mgtSlRxFalseStarts .mgtCmRxFalseStarts) n.val, rxEnd n.val p.val]
    | none => .skip))

/-- Fields of a management packet header (Table 9.2). -/
def hdrVersion (h : Nat) : Nat := bitsOf h 30 2
def hdrType (h : Nat) : Nat := bitsOf h 27 3
def hdrLength (h : Nat) : Nat := bitsOf h 16 11
def hdrAddress (h : Nat) : Nat := bitsOf h 0 16

/-- A reserved VERSION, TYPE, LENGTH or downstream ADDRESS (Tables 9.2 and 9.3). -/
def hdrReserved (h : Nat) : Bool :=
  hdrVersion h != 0 || decide (1 < hdrType h) || decide (1024 < hdrLength h)
    || (decide (0x1000 ≤ hdrAddress h) && decide (hdrAddress h ≤ 0xFFFD))

/-- Whether a downstream ADDRESS is this terminal's (R277). -/
def Dev.addressed (d : Dev) (n a : Nat) : Bool :=
  a == 0xFFFF || (a == d.num .actHandle n && a != 0xFFFF) || (a == 0xFFFE && d.num .actHandle n == 0xFFFF)

/-- The end of a header (R272, R275). `standby` says that it is the standby's header that ended: it is dropped while the current
header has not passed. The 48 bits hold the header and its CRC-16. -/
def execMgtHeaderReceived (n : Fin 4) (p : Fin 3) (standby : Bool) (bits : BitVec 48) (s : State) :
    Host.Outcome State Fault Refusal :=
  s.run (live (.ask fun d =>
    let r := d.rxPath n.val p.val
    let h := bits.toNat / 65536
    match r.cur with
    | none => .skip
    | some c =>
      if standby then
        .when (!c.passed && r.standby.isSome) [rxIgnored n.val p.val, setRx n.val p.val fun x => { x with standby := none }]
      else .when (c.delim && !c.passed) [
        if crc16 (beBytes 4 h) ≠ bits.toNat % 65536 then
          .all [count (phyObj p.val .mgtSlRxHdrFails .mgtCmRxHdrFails) n.val, rxEnd n.val p.val]
        else if hdrReserved h then
          .all [count (phyObj p.val .mgtSlRxReserved .mgtCmRxReserved) n.val, rxEnd n.val p.val]
        else if !d.addressed n.val (hdrAddress h) then
          .all [count (phyObj p.val .mgtSlRxOther .mgtCmRxOther) n.val, rxEnd n.val p.val]
        else .all [
          .when r.standby.isSome [rxIgnored n.val p.val],
          setRx n.val p.val fun _ => ⟨some { c with passed := true, hdr := h }, none⟩]]))

/-- Whether a Umani payload is one whole message that its path accepts (R143, R278). -/
def umaniFits (max : Nat) (b : List Byte) : Bool :=
  decide (16 ≤ b.length) && decide (b.length ≤ max) && !bitOf (beAt b 7 1) 3
    && (b.length == 16 + beAt b 10 2 || (beAt b 7 1 / 16 == 4 && b.length == 16))

/-- An accepted packet of a PHY, probes included (R271, R277, R350). -/
def rxAccepted (n p : Nat) (c : Rx) : Prog :=
  .ask fun d => .all [
    putN (phyObj p .mgtSlRxLastStrength .mgtCmRxLastStrength) n 0 (c.refined % 65536),
    .eff (.fch n fun f => { f with
      slStrength := if p = 0 then c.refined else f.slStrength,
      slAt := if p = 0 then some (d.tim.secs, d.tim.ns) else f.slAt,
      cm12 := if p = 1 then c.refined else f.cm12 })]

/-- A downstream Lemow message carries a code of Table 12.2; one with a reserved code, or too short for its header, is discarded (R12, R337). -/
def lemowKnown (b : List Byte) : Bool := decide (4 ≤ b.length) && decide (1 ≤ beAt b 0 1) && decide (beAt b 0 1 ≤ 0x0F)

/-- A packet whose header passed is complete (R277): a probe is counted; a payload with its CRC-32 is checked, counted and handed
to the activation sub-block (TYPE 0) or the Umani endpoint (TYPE 1). -/
def execMgtPacketReceived (n : Fin 4) (p : Fin 3) (body : List Byte) (s : State) : Host.Outcome State Fault Refusal :=
  s.run (live (.ask fun d =>
    match (d.rxPath n.val p.val).cur with
    | none => .skip
    | some c => .when c.passed [
        let len := hdrLength c.hdr
        let data := body.take len
        if len = 0 then .all [count (phyObj p.val .mgtSlRxProbes .mgtCmRxProbes) n.val, rxAccepted n.val p.val c]
        else if body.length ≠ len + 4 ∨ crcFcs data ≠ beNat (body.drop len) then
          count (phyObj p.val .mgtSlRxCrcErrors .mgtCmRxCrcErrors) n.val
        else .all [
          count (phyObj p.val .mgtSlRxPackets .mgtCmRxPackets) n.val,
          rxAccepted n.val p.val c,
          if hdrType c.hdr = 1 ∧ umaniFits 1024 data = false then count .umaniDiscards
          else if hdrType c.hdr = 0 ∧ lemowKnown data = false then count .actMsgDiscards n.val
          else send .handoff (hdrType c.hdr) (pathKey (.mband n (p.val != 0))) data],
        rxEnd n.val p.val]))

/-! ## Air time and encoding (R260 to R267) -/

/-- Air time in ns of a packet of `l` bytes (R267): Starlight, or Comet at 2^s. -/
def airTime (comet : Bool) (s l : Nat) : Nat :=
  if comet then
    (16 + 4 + ceilDiv 108 s + (if l = 0 then 0 else ceilDiv (16 * l + 76) s)) * 2 ^ s * 10
  else (32 + 16 + 54 + (if l = 0 then 0 else 8 * l + 38)) * 500

/-- One output of the convolutional encoder: parity of the tapped bits of a 7-bit window, newest bit first. -/
def convTap (taps window : List Bool) : Bool :=
  (List.zipWith (fun a b => a && b) taps window).foldl xor false

/-- Generators 171 and 133 in octal, the newest bit's tap first (R266). -/
def gen171 : List Bool := [true, true, true, true, false, false, true]
def gen133 : List Bool := [true, false, true, true, false, true, true]

/-- The rate-1/2 convolutional code (R266) from a window of the last six bits. -/
def convFrom : List Bool → List Bool → List Bool
  | _, [] => []
  | w, x :: r => convTap gen171 (x :: w) :: convTap gen133 (x :: w) :: convFrom ((x :: w).take 6) r

/-- A field encoded from the zero state and flushed by six zero bits (R266). -/
def convEncode (b : List Byte) : List Bool :=
  convFrom (List.replicate 6 false) (bitList b ++ List.replicate 6 false)

/-- Coded bits in groups of `s`, the last padded with zeros, as Gray-coded Comet symbol values (R263). -/
def cometSymbols (s : Nat) : Nat → List Bool → List Nat
  | 0, _ => []
  | fuel + 1, l =>
    if l.isEmpty then []
    else
      let g := bitsNat (l.take s ++ List.replicate (s - l.length) false)
      (g ^^^ (g / 2)) :: cometSymbols s fuel (l.drop s)

/-- The header of an upstream packet with its CRC-16 (R265, Table 9.2). -/
def mgtHeader (type len addr : Nat) : List Byte :=
  let h := beBytes 4 (type % 8 * 2 ^ 27 + len % 2048 * 2 ^ 16 + addr % 65536)
  h ++ beBytes 2 (crc16 h)

/-- The coded bits of a packet, field by field. -/
def mgtFields (type addr : Nat) (b : List Byte) : List (List Bool) :=
  ([mgtHeader type b.length addr] ++ (if b.isEmpty then [] else [b ++ beBytes 4 (crcFcs b)])).map convEncode

/-- Bit pairs in order. -/
def bitPairs : List Bool → List (Bool × Bool)
  | a :: b :: r => (a, b) :: bitPairs r
  | _ => []

/-- The chips of a Starlight symbol (R260): the sequence of x⁵ + x² + 1 from all ones, then 0. -/
def starChips : List Bool := generator 5 2 31 0x1F ++ [false]

/-- The Starlight packet: preamble, delimiter and coded pairs (R260, R261). A chip is its symbol times 1 − 2c, so its two bits are those of the symbol,
each added to c; chips are packed four to a byte. -/
def starlightWave (type addr : Nat) (b : List Byte) : List Byte :=
  let delim := bitList [0xE4, 0xB5]
  let syms := List.replicate 32 (false, false) ++ delim.map (fun d => (d, d)) ++ (mgtFields type addr b).flatMap bitPairs
  packBits (syms.flatMap fun s => starChips.flatMap fun c => [s.1 != c, s.2 != c])

/-- The phase of chip `i` of a Comet symbol value `v` of N chips, in units of π / N: u² − uN for u = (i + v) mod N (R262). A down-chirp is the conjugate of
the up-chirp. -/
def chirpPhase (n : Nat) (down : Bool) (v i : Nat) : Nat :=
  let u := (i + v) % n
  let f := (u * u + u * n) % (2 * n)
  if down then (2 * n - f) % (2 * n) else f

/-- The Comet packet at 2^s: 16 up-chirps, 4 down-chirps and the coded symbols (R262 to R264), each chip as its phase in two bytes. -/
def cometWave (s type addr : Nat) (b : List Byte) : List Byte :=
  let n := 2 ^ s
  let syms := List.replicate 16 (false, 0) ++ List.replicate 4 (true, 0)
    ++ (mgtFields type addr b).flatMap fun c => (cometSymbols s c.length c).map fun v => (false, v)
  syms.flatMap fun x => (List.range n).flatMap fun i => beBytes 2 (chirpPhase n x.1 x.2 i)

/-- What leaves on the band, chip by chip. -/
def mgtWave (comet : Bool) (s type addr : Nat) (b : List Byte) : List Byte :=
  if comet then cometWave s type addr b else starlightWave type addr b

end Sys2Proof.Machine
end

