-- ==== Sys2Proof/Machine/Framer.lean ====
section
/-!
DEFINITION. Downstream framing and overhead (spec/10): alignment, defects, encapsulation frames and performance data.
-/
namespace Sys2Proof.Machine

/-! ## Defects (R308 to R310) -/

/-- Bits that a masking defect makes read 0, and the runs that start afresh (R309). -/
def maskDefects (n : Nat) (lof : Bool) : Prog :=
  .all [.when lof [setDefect n 1 false], setDefect n 2 false, setDefect n 3 false,
    .eff (.fch n fun c => { c with
      outFrames := 0, aisRun := 0, aisPrev := 0, okRun := 0, fecCount := 0, fecClear := 0 })]

/-- Whether a stored defect bit is set. -/
def Dev.defect (d : Dev) (n bit : Nat) : Bool := bitOf (d.num .frmDefects n) bit

/-- LOF is declared unless LOS masks it; Operating becomes Holding (Table 12.7). -/
def declareLof (n : Nat) : Prog :=
  .ask fun d => .when (!d.defect n 0) [setDefect n 1 true, maskDefects n false, toHolding n]

/-- The power comparator stays below its threshold for 10 µs; the DMT receiver leaves Acquire or Locked for Search with cause 2
(R233), and Operating becomes Holding (Table 12.7). -/
def execLosDeclare (n : Fin 4) (s : State) : Host.Outcome State Fault Refusal :=
  s.run (live (.ask fun d => .when (d.num .feEnable n.val == 1) [
    .eff (.fch n.val fun c => { c with losRaw := true }), setDefect n.val 0 true, maskDefects n.val true,
    .when (d.num .dmtState n.val == 2 || d.num .dmtState n.val == 3) [dmtLeave n.val 1 2],
    toHolding n.val]))

/-- The comparator stays at or above its threshold for 125 µs. With FE_STATE = 0 it counts as below (R217). -/
def execLosClear (n : Fin 4) (s : State) : Host.Outcome State Fault Refusal :=
  s.run (live (.ask fun d => .when (d.num .feState n.val != 0)
    [.eff (.fch n.val fun c => { c with losRaw := false }), setDefect n.val 0 false]))

/-- Alignment has stayed out of Sync for 24 frames with FE_STATE = 2 and no LOS. -/
def execLofDeclare (n : Fin 4) (s : State) : Host.Outcome State Fault Refusal :=
  s.run (live (.ask fun d => .when (d.num .feState n.val == 2 && d.num .frmAlignState n.val != 2
    && decide (24 ≤ (d.ch n.val).outFrames)) [declareLof n.val]))

/-- Three consecutive AIS frames. -/
def execAisDeclare (n : Fin 4) (s : State) : Host.Outcome State Fault Refusal :=
  s.run (live (.ask fun d => .when (decide (3 ≤ (d.ch n.val).aisRun) && !d.defect n.val 0 && !d.defect n.val 1)
    [setDefect n.val 2 true]))

/-- Three consecutive passing frames that are not AIS frames. -/
def execAisClear (n : Fin 4) (s : State) : Host.Outcome State Fault Refusal :=
  s.run (live (.ask fun d => .when (decide (3 ≤ (d.ch n.val).okRun)) [setDefect n.val 2 false]))

/-- The end of a window of 8 frames: FEC_DEG is declared at the threshold, and cleared after 10 windows below it. -/
def execFecDegWindowEnd (n : Fin 4) (s : State) : Host.Outcome State Fault Refusal :=
  s.run (live (.ask fun d =>
    let c := d.ch n.val
    if d.defect n.val 0 || d.defect n.val 1 then
      .eff (.fch n.val fun c => { c with fecCount := 0, fecClear := 0 })
    else if d.num .frmFecDegThreshold n.val ≤ c.fecCount then
      .all [setDefect n.val 3 true, .eff (.fch n.val fun c => { c with fecCount := 0, fecClear := 0 })]
    else
      .all [.when (decide (9 ≤ c.fecClear)) [setDefect n.val 3 false],
        .eff (.fch n.val fun c => { c with fecCount := 0, fecClear := min 10 (c.fecClear + 1) })]))

/-! ## Alignment (R286 to R292) -/

/-- Further fields of the frame header (Table 10.1). -/
def hdrAis (h : List Byte) : Bool := bitOf (beAt h 4 8) 60
def hdrMaps (h : List Byte) : Nat := beAt h 12 2
def hdrMgmt (h : List Byte) : Nat := beAt h 14 2
def hdrEnc (h : List Byte) : Nat := beAt h 16 2

/-- A frame as the framer takes it: whether the receiver passed a header and it came at the expected place and exact spacing, whether its codeword
converged, its bytes, the number in the lowest-numbered member's header, the information bytes and the uncorrectable codewords. -/
structure FrameIn where
  found : Bool
  conv : Bool
  hdr : List Byte
  lead : Nat
  pay : List Byte
  bad : List Nat

/-- The oldest frame that the receiver has passed, its information bits descrambled with the number that the framer expects (R250). None is a frame
without a header. -/
def Dev.frameIn (d : Dev) (n : Nat) (f : FrmFrame) : FrameIn :=
  match (d.ch n).dmt.dec with
  | [] => ⟨false, false, [], f.lead.toNat, [], []⟩
  | x :: _ => ⟨f.atPlace, x.conv, x.hdr, f.lead.toNat, packBits (scramble (scrStart (d.ch n).expected) (bitList x.pay)), x.bad⟩

/-- A valid header (R287). -/
def hdrValid (f : FrameIn) : Bool := f.found && f.conv && hdrChecks f.hdr

/-- A reserved value in a valid header (R288). -/
def hdrBad (h : List Byte) (pay : Nat) : Bool :=
  decide (4096 < hdrMaps h) || decide (32768 < hdrMgmt h) || hdrMgmt h % 8 != 0
    || (hdrEnc h % 8 != 0 && hdrEnc h != 0xFFFF) || (pay != 0 && decide (pay < 8 * hdrMaps h + hdrMgmt h))

/-- Whether bytes of the payload lie in an uncorrectable codeword. -/
def hitsBad (bad : List Nat) (at' len : Nat) : Bool :=
  bad.any fun c => decide (at' < (c + 1) * 2688) && decide (c * 2688 < at' + len)

/-- Grant entries of a payload go to the activation sub-block with the number of their frame; an errored one is counted (R295). -/
def mapEntries (n frame : Nat) (pay : List Byte) (bad : List Nat) (k : Nat) : Prog :=
  .each (List.range k) fun i =>
    if hitsBad bad (8 * i) 8 then count .frmMapErrored n
    else send .handoff 0x12 n (beBytes 8 frame ++ slice pay (8 * i) 8)

/-- The walk over a management section (R296): `at'` is its place in the payload. -/
def mgmtWalk (n : Nat) (bad : List Nat) : Nat → Nat → List Byte → Prog
  | 0, _, _ => .skip
  | _, _, [] => .skip
  | fuel + 1, at', sec =>
    let h := beAt sec 0 4
    let len := hdrLength h
    let occ := 8 + 8 * ceilDiv len 8
    if crc16 (sec.take 4) ≠ beAt sec 4 2 ∨ sec.length < occ then count .frmMgmtDiscards n
    else .all [
      if hitsBad bad at' occ || hdrReserved h || hdrType h != 0 then count .frmMgmtDiscards n
      else .ask fun d => .when (d.addressed n (hdrAddress h) && len != 0)
        [if lemowKnown (slice sec 8 len) then send .handoff 0x11 n (slice sec 8 len) else count .actMsgDiscards n],
      mgmtWalk n bad fuel (at' + occ) (sec.drop occ)]

/-- A chain of the channel takes more bytes (R301): beyond 16,383 it is discarded and counted. -/
def extendChain (n stream : Nat) (data : List Byte) (err : Bool) : Prog :=
  .ask fun d => match (d.ch n).chains.find? (fun x => x.stream = stream) with
    | none => .skip
    | some x =>
      if 16383 < x.data.length + data.length then .all [count .frmChainDiscards n,
        .eff (.fch n fun c => { c with chains := c.chains.filter fun y => y.stream ≠ stream })]
      else .eff (.fch n fun c => { c with chains := c.chains.map fun y =>
        if y.stream = stream then { y with data := y.data ++ data, age := 0, errored := y.errored || err } else y })

/-- A chain goes without a count of its own. -/
def removeChain (n stream : Nat) : Prog :=
  .eff (.fch n fun c => { c with chains := c.chains.filter fun y => y.stream ≠ stream })

/-- The start of a frame's encapsulation area: the continuation of a cut fragment, and the walk's first place (R298, R300). -/
def areaStart (n frame : Nat) (at' enc : Nat) (area : List Byte) (bad : List Nat) : Prog :=
  .ask fun d =>
    let c := d.ch n
    let cont := if enc = 0xFFFF then area.length else min enc area.length
    .all [
      .eff (.fch n fun c => { c with
        skipCont := false, cut := none, walked := decide (area.length ≤ cont),
        area := area.drop cont, areaAt := at' + cont, areaFrame := frame, areaCfg := d.cfg.epoch, areaTbl := d.num .fwdTableEpoch, areaBad := bad, ords := [] }),
      match c.cut with
      | some k =>
        let need := 8 * ceilDiv k.rest 8
        if enc = (if area.length < need then 0xFFFF else need) then
          let take := min k.rest area.length
          .all [extendChain n k.stream (area.take take) (hitsBad bad at' take),
            .when (decide (take < k.rest)) [.eff (.fch n fun c => { c with cut := some { k with rest := k.rest - take } })]]
        else .all [count .frmEncContradictions n, removeChain n k.stream]
      | none => .when (cont != 0 && !c.skipCont && c.walked) [count .frmEncContradictions n]]

/-- The frame brings no continuation: the chain of a cut fragment is discarded and counted (R301). -/
def noPayload (n : Nat) : Prog :=
  .ask fun d => .all [
    match (d.ch n).cut with
    | some k => .when ((d.ch n).chains.any fun x => x.stream = k.stream) [count .frmChainDiscards n, removeChain n k.stream]
    | none => .skip,
    .eff (.fch n fun c => { c with cut := none, skipCont := false, walked := false, area := [] })]

/-- A whole payload is discarded with every open chain (R288, R290). -/
def discardPayload (n : Nat) : Prog :=
  .all [dropChains n, .eff (.fch n fun c => { c with skipCont := false, walked := false, area := [] })]

/-- One more errored frame (R311), while performance counting runs. -/
def errFrame (n : Nat) : Prog :=
  .ask fun d => .when (d.ch n).pm.started [
    countBy .frmPmErroredFrames n 0 1,
    .eff (.fch n fun c => { c with pm := { c.pm with errored := c.pm.errored + 1 } })]

/-- A frame that passes: the runs, then map, management section and area (R292 to R300). -/
def framePasses (n : Nat) (f : FrameIn) : Prog :=
    let pay := f.pay
    let h := f.hdr
    let m := 8 * hdrMaps h
    let g := m + hdrMgmt h
    .all [
      .eff (.fch n fun c => { c with failRun := 0, aisNow := hdrAis h }),
      .eff (.fch n fun c =>
        if hdrAis h then { c with aisRun := c.aisRun + 1, aisPrev := c.aisRun, okRun := 0 }
        else { c with aisRun := 0, aisPrev := c.aisRun, okRun := c.okRun + 1 }),
      .when (!f.bad.isEmpty && !pay.isEmpty) [errFrame n],
      if hdrBad h pay.length then .all [count .frmHdrReserved n, discardPayload n]
      else if pay.isEmpty then noPayload n
      else .all [
        mapEntries n (hdrFrame h) pay f.bad (hdrMaps h),
        mgmtWalk n f.bad (hdrMgmt h) m (slice pay m (hdrMgmt h)),
        areaStart n (hdrFrame h) g (hdrEnc h) (pay.drop g) f.bad]]

/-- A frame that fails in Sync (R290). -/
def frameFails (n : Nat) : Prog :=
  .all [errFrame n, discardPayload n,
    .eff (.fch n fun c => { c with failRun := c.failRun + 1, aisRun := 0, aisPrev := 0, okRun := 0, aisNow := false })]

/-- The framer takes a frame of channel `n`. Header failures are counted; each chain ages by a frame; then the alignment state
decides (Table 10.2). A valid header's reserved values are counted in every state (R288). -/
def execFramerFrame (n : Fin 4) (x : FrmFrame) (s : State) : Host.Outcome State Fault Refusal :=
  s.run (live (.ask fun d =>
    let c := d.ch n.val
    let f := d.frameIn n.val x
    let v := hdrValid f
    let fr := hdrFrame f.hdr
    let next := (c.expected + 1) % 2 ^ 51
    let a := d.num .frmAlignState n.val
    .when (d.num .feState n.val == 2) [
      .when (f.found && !v) [count .frmHdrFails n.val],
      .eff (.fch n.val fun c => { c with
        dmt := { c.dmt with dec := c.dmt.dec.tail },
        chains := c.chains.map fun x => { x with age := x.age + 1 },
        fecCount := if a = 2 then c.fecCount + f.bad.length else c.fecCount,
        outFrames := if a = 2 then 0 else c.outFrames + 1 }),
      .when (v && a != 2 && hdrBad f.hdr f.pay.length) [count .frmHdrReserved n.val, dropChains n.val],
      if a = 0 then .when v [putN .frmAlignState n.val 0 1,
        .eff (.fch n.val fun c => { c with presync := 1, expected := (fr + 1) % 2 ^ 51 })]
      else if a = 1 then
        if v && fr == c.expected then
          .eff (.fch n.val fun c => { c with presync := min 3 (c.presync + 1), expected := next })
        else .all [putN .frmAlignState n.val 0 0, .eff (.fch n.val fun c => { c with presync := 0 })]
      else .all [
        .eff (.fch n.val fun c => { c with expected := next }),
        if v && fr == c.expected && (d.lead n.val == n.val || f.lead == fr) then framePasses n.val f
        else frameFails n.val]]))

/-- Three valid consecutive headers: Sync. FRM_FRAME takes the third header's number, and a difference from the number the frame
marks carried is a jump (R291). A backward jump exhausts the Loaded contexts (R534). LOF clears, performance counting
begins (R313), and PWR_ELAPSED and the suppressed seconds that waited are set (R123). -/
def execFrameSyncEntry (n : Fin 4) (s : State) : Host.Outcome State Fault Refusal :=
  s.run (live (.ask fun d =>
    let c := d.ch n.val
    let third : Nat := (c.expected + 2 ^ 51 - 1) % 2 ^ 51
    let was : Nat := d.num .frmFrame n.val
    let jump : Int := (third : Int) - was
    .when (d.num .frmAlignState n.val == 1 && c.presync == 3) [
      putN .frmAlignState n.val 0 2,
      putN .frmFrame n.val 0 third,
      .eff (.fch n.val fun c => { c with
        presync := 0, failRun := 0, outFrames := 0, marks := true, walked := false, cut := none, skipCont := false,
        pm := if c.pm.started then c.pm else ⟨true, 0, false, []⟩ }),
      .when (c.marks && jump != 0) [count .frmFrameJumps n.val],
      raise (chEvt n.val 10) n.val 0 (third % 2 ^ 32) (if c.marks then ofInt 32 jump else 0),
      .when (c.marks && decide (jump < 0)) [
        .each (List.range 31) fun i => .all [exhaustCtx (d.lead n.val) 0 (i + 1), exhaustCtx (d.lead n.val) 1 (i + 1)]],
      setDefect n.val 1 false,
      .when (d.num .clkTimingChannel == n.val) [
        .eff (.tim fun t => { t with sub := 0 }),
        .when d.pwr.elapsedDue [elapsedSet third d.pwr.setDue]],
      holdCheck n.val]))

/-- Four consecutive frames failed in Sync: Hunt, with LOF. -/
def execFrameSyncLoss (n : Fin 4) (s : State) : Host.Outcome State Fault Refusal :=
  s.run (live (.ask fun d => .when (d.num .frmAlignState n.val == 2 && decide (4 ≤ (d.ch n.val).failRun)) [
    putN .frmAlignState n.val 0 0,
    count .frmSyncLosses n.val,
    .eff (.fch n.val fun c => { c with failRun := 0, presync := 0, outFrames := 0 }),
    discardPayload n.val,
    declareLof n.val]))

end Sys2Proof.Machine
end

