-- ==== Sys2Proof/Machine/FrontEnd.lean ====
section
/-!
DEFINITION. Optical front end and high-voltage die (spec/07).
-/
namespace Sys2Proof.Machine

/-! ## Commands to the HV die -/

/-- FE_ENABLE takes its value (R214): 1 starts the ramp, or reads 3 when the die is no longer Armed; 0 drops the laser, disables the receiver, frees the PLL, empties the key
contexts (R534), clears the defects with their events (R309, Table 10.8), stops performance counting (R313), the channel reading available again,
and restarts activation in Initial (Table 12.7). -/
def feEnableEff (n v : Nat) : Prog :=
  .ask fun d =>
    let was := d.num .feEnable n
    .all [
      putN .feEnable n 0 v,
      .when (v == 1 && was == 0) [feTo n (if d.num .hvState = 2 then 1 else 3)],
      .when (v == 0) [
        feTo n 0, pllFree n, clearCtxs n,
        putN .feApdCurrent n 0 0,
        .each [0, 1, 2, 3, 4, 6] fun b => setDefect n b false,
        putN .frmDefects n 0 0, putN .frmPmAvailable n 0 1,
        .eff (.fch n fun c => { c with
          losRaw := true, pm := { c.pm with started := false }, burstOn := false }),
        actInitial n]]

/-- The HV die enters Armed on HV_REARM: each enabled channel ramps from the floor (R214). -/
def rearmEff : Prog :=
  .ask fun d => .when (d.num .hvState == 3) [
    putN .hvState 0 0 2, raise 504,
    .each (List.range 4) fun n => .when (d.num .feEnable n == 1) [feTo n 1]]

/-- The bias settings take effect (R221): with FE_LD_MODE = 0 the on-bias is FE_LD_BIAS_ON; power control starts from it and then goes on from where
it is. -/
def ldApply (n : Nat) : Prog :=
  .ask fun d =>
    let mode := d.num .feLdMode n
    let on := if mode = 0 ∨ (d.ch n).ldNow.1 = 0 then d.num .feLdBiasOn n else d.num .feLdBias n
    .all [
      putN .feLdBias n 0 on,
      .eff (.fch n fun c => { c with
        ldPend := false, ldNow := (mode, d.num .feLdImax n), apcClamped := c.apcClamped && on == d.num .feLdImax n })]

/-- A bias setting takes effect now, or at the next burst when one is in progress (R221). -/
def ldSet (n : Nat) (x : Obj) (v : Nat) : Prog :=
  .seq (putN x n 0 v) (.ask fun d =>
    if (d.ch n).burstOn then .eff (.fch n fun c => { c with ldPend := true }) else ldApply n)

/-- What a command the HV die acknowledges does. -/
def hvEffect (n : Nat) (x : Obj) (v : Nat) : Prog :=
  match x with
  | .feLdBiasOn => ldSet n x v
  | .feLdImax => ldSet n x v
  | .feEnable => feEnableEff n v
  | .hvRearm => rearmEff
  | .feLaserRelease => .eff (.fch n fun c => { c with rogue := 0 })
  | _ => putN x n 0 v

/-- A write that needs a command to the HV die (R210): acknowledged at its first sending, or resent while its answer is owed. -/
def hvReply (n : Nat) (acked : Bool) (c : Call) (x : Obj) (v : Nat) : Reply :=
  if acked then .done (hvEffect n x v) []
  else .later (.eff (.fch n fun f => { f with hvPend := f.hvPend ++ [⟨x, v, 0, c⟩] }))

/-- The oldest unacknowledged command of a channel is acknowledged: it takes effect and its write is done. -/
def hvAck (n : Nat) : Prog :=
  .ask fun d => match (d.ch n).hvPend with
    | [] => .skip
    | x :: _ => .all [.eff (.fch n fun f => { f with hvPend := f.hvPend.tail }),
        hvEffect n x.obj x.value, respond x.call 0 []]

/-- FE_ENABLE (R214, R62): 1 needs HV_ENABLE and an Armed HV die. -/
def feEnableBeh (c : Call) (n v : Nat) (acked : Bool) : Beh :=
  beh (fun _ => 0)
    (fun d => if v = 1 ∧ ¬ (d.hvEnable = true ∧ d.num .hvState = 2) then 0x0401 else 0)
    (fun _ => hvReply n acked c .feEnable v)

/-- A write of FE_ENABLE. -/
def execFeEnableWrite (o : Origin) (n : Fin 4) (v : BitVec 8) (acked : Bool) (s : State) :
    Host.Outcome State Fault Refusal :=
  s.run (serveWrite o .feEnable n.val 0 (.num v.toNat)
    (feEnableBeh (elemReq o 2 .feEnable n.val 0 (.num v.toNat)).call n.val v.toNat acked))

/-- A write of FE_APD_TARGET takes effect at once (R214). -/
def execFeApdTargetWrite (o : Origin) (n : Fin 4) (v : BitVec 32) (acked : Bool) (s : State) :
    Host.Outcome State Fault Refusal :=
  s.run (serveWrite o .feApdTarget n.val 0 (.num v.toNat)
    (.plain fun _ => hvReply n.val acked (elemReq o 2 .feApdTarget n.val 0 (.num v.toNat)).call .feApdTarget v.toNat))

/-- The bias reaches its target while ramping from an Armed die (R214): FE_STATE = 2 and event 128 + 16n + 0. -/
def execApdBiasAtTarget (n : Fin 4) (s : State) : Host.Outcome State Fault Refusal :=
  s.run (live (.ask fun d => .when (d.num .feState n.val == 1) [feTo n.val 2]))

/-- The generator reaches its current limit (R215). It is off while FE_STATE = 0. -/
def execApdCurrentLimit (n : Fin 4) (s : State) : Host.Outcome State Fault Refusal :=
  s.run (live (.ask fun d => .when (d.num .feState n.val != 0)
    [count .feApdLimitEvents n.val, raise (chEvt n.val 1) n.val]))

/-! ## Shaping -/

/-- The sum of the absolute values of the coefficients, two bytes each (R207). -/
def coeffSum : List Byte → Nat
  | a :: b :: r => (toInt 16 (beNat [a, b])).natAbs + coeffSum r
  | _ => 0

/-- Whether every coefficient lies from −512 to 511 (R207). -/
def coeffRange : List Byte → Bool
  | a :: b :: r =>
    decide (-512 ≤ toInt 16 (beNat [a, b])) && decide (toInt 16 (beNat [a, b]) ≤ 511) && coeffRange r
  | _ => true

/-- The coefficients as integers. -/
def taps : List Byte → List Int
  | a :: b :: r => toInt 16 (beNat [a, b]) :: taps r
  | _ => []

/-- The power of a response at `m` · 50 MHz, from its autocorrelation, in units of 2⁻⁴⁸. -/
def powerAt (cos : Array Int) (auto : List Int) (m : Nat) : Int :=
  auto.headD 0 * 2 ^ 48 + 2 * ((auto.zipIdx.drop 1).map fun r => r.1 * cos.getD (m * r.2 % 1024) 0).sum

/-- Whether a response meets Table 7.2 at the points above 250 MHz of the 512 that lie 50 MHz apart, relative to its average power from 1 to 10 GHz
(R207, log entry 43). The point at an edge of the table meets the rows on both sides. −6, +4 and −30 dB are 10^(−3/5), 10^(2/5) and 1/1000 in power. -/
def meetsMask (b : List Byte) : Bool :=
  let c := taps b
  let cos := ((List.range 1024).map fun k => cosFix (4 * k)).toArray
  let auto := (List.range 33).map fun k => (List.zipWith (· * ·) c (c.drop k)).sum
  let power := (List.range 512).map (powerAt cos auto)
  let sum := ((power.drop 20).take 181).sum
  ((power.zipIdx).drop 6).all fun x =>
    let p := x.1 * 181
    let m := x.2
    (decide (384 < m) || decide (p ^ 5 ≤ 100 * sum ^ 5)) && (decide (256 < m) || decide (sum ^ 5 ≤ 1000 * p ^ 5))
      && (decide (m < 384) || decide (1000 * p ≤ sum))

/-- Whether a coefficient set is accepted (R207). -/
def coeffOk (b : List Byte) : Bool :=
  coeffRange b && decide (coeffSum b ≤ 512) && meetsMask b

/-- FE_TX_COEFF (R207). -/
def feTxCoeffBeh (n : Nat) (b : List Byte) : Beh :=
  beh (fun _ => if coeffOk b then 0 else 0x0302)
    (fun _ => 0)
    (fun _ => .done (putO .feTxCoeff n 0 b) [])

/-- FE_TX_SHAPE (Table 7.1, R207): 3 takes the custom set, which must be acceptable, as preset 0 is. -/
def feTxShapeBeh (n v : Nat) : Beh :=
  beh (fun d => if 3 < v ∨ (v = 3 ∧ d.oct .feTxCoeff n ≠ [] ∧ coeffOk (d.oct .feTxCoeff n) = false) then 0x0302 else 0)
    (fun _ => 0)
    (fun _ => .done (putN .feTxShape n 0 v) [])

/-- FE_TX_AMPLITUDE lies on a grid of 50 mV (R205). -/
def feTxAmplitudeBeh (n v : Nat) : Beh :=
  beh (fun _ => if v % 50 = 0 then 0 else 0x0302)
    (fun _ => 0)
    (fun _ => .done (putN .feTxAmplitude n 0 v) [])

/-- A write of FE_TX_COEFF. -/
def execFeTxCoeffWrite (o : Origin) (n : Fin 4) (b : List Byte) (s : State) : Host.Outcome State Fault Refusal :=
  s.run (serveWrite o .feTxCoeff n.val 0 (.oct b) (feTxCoeffBeh n.val b))

/-! ## Laser bias -/

/-- What was set since the last burst takes effect as a burst starts: the bias (R221), and the shape, coefficients and amplitude as of the last
frame mark (R208). -/
def burstSettings (n : Nat) : Prog :=
  .ask fun d => .all [
    .when (d.ch n).ldPend [ldApply n],
    .eff (.fch n fun c => { c with txSet := c.txNext })]

/-- FE_LD_BIAS_ON lies at or below FE_LD_IMAX (Table 7.7). -/
def feLdBiasOnBeh (c : Call) (n v : Nat) (acked : Bool) : Beh :=
  beh (fun d => if v ≤ d.num .feLdImax n then 0 else 0x0302) (fun _ => 0) (fun _ => hvReply n acked c .feLdBiasOn v)

/-- A write of an object that the HV die works by: it is done when the die has acknowledged the command (R210; which objects these are is DEDUCED,
log entry 114). -/
def hvObjBeh (c : Call) (n : Nat) (x : Obj) (v : Nat) (acked : Bool) : Beh := .plain fun _ => hvReply n acked c x v

/-- Once per frame: FE_LD_MON takes the average of a frame with bursts; with automatic power control the bias follows it, but a frame with
less than 1 µs of burst interior holds the bias (R221). -/
def apcUpdate (n interior mon : Nat) : Prog :=
  .ask fun d => .all [
    .when (interior != 0) [putN .feLdMon n 0 mon],
    .when ((d.ch n).ldNow.1 == 1 && decide (1000 ≤ interior)) [
      let step := max (-100) (min 100 (Int.tdiv ((d.num .feLdMonTarget n : Int) - mon) 16))
      let lo := d.num .feLdBiasOff n
      let hi := (d.ch n).ldNow.2
      let bias := (max (lo : Int) (min (hi : Int) ((d.num .feLdBias n : Int) + step))).toNat
      .all [
        putN .feLdBias n 0 bias,
        .when (bias == hi && !(d.ch n).apcClamped) [raise (chEvt n 3) n],
        .eff (.fch n fun c => { c with apcClamped := bias == hi })]]]

/-- The receive gain, at a mark: the loop moves it by at most one step of 0.5 dB toward an RMS level within 1 dB of −12 dBFS while the ADC runs, and
starts from FE_PGA_GAIN when the mode has been fixed (R204). The level is in 0.1 dB. -/
def pgaUpdate (n : Nat) (level : Int) : Prog :=
  .ask fun d =>
    let g := d.pgaGain n
    .eff (.fch n fun c => { c with
      pga := if d.num .fePgaMode n = 1 ∨ d.num .feState n = 0 then g
        else if level < -130 then min 24 (g + 1) else if -110 < level then g - 1 else g })

/-- A write of FE_PGA_MODE: the loop goes on from the gain that was fixed. -/
def pgaModeBeh (n v : Nat) : Beh :=
  .plain fun d => .done (.all [.eff (.fch n fun c => { c with pga := d.pgaGain n }), putN .fePgaMode n 0 v]) []

/-! ## The HV die -/

/-- The HV die enters Safe: every enabled channel reads FE_STATE = 3 (R212, R214). -/
def hvSafe : Prog :=
  .ask fun d => .all [
    putN .hvState 0 0 3,
    .each (List.range 4) fun n => .when (d.num .feEnable n == 1) [feTo n 3]]

/-- HV_REARM (R212): done with no effect in Armed; accepted in Safe with a steady heartbeat, HVIN and boost in range and the
junction below 125 °C. -/
def Dev.canRearm (d : Dev) : Bool :=
  d.num .hvState == 3 && d.hvBeat && d.pins.hvin && decide (10000 ≤ d.num .hvVin) && decide (85000 ≤ d.num .hvBoost)
    && decide (d.num .hvBoost ≤ 95000) && decide (toInt 32 (d.num .hvTemp) < 125000)

def hvRearmBeh (c : Call) (acked : Bool) : Beh :=
  beh (fun _ => 0)
    (fun d => if d.num .hvState = 2 ∨ d.canRearm = true then 0 else 0x0401)
    (fun d => if d.num .hvState = 2 then .done .skip [] else hvReply 0 acked c .hvRearm 0)

/-- Execution of HV_REARM. -/
def execHvRearm (o : Origin) (acked : Bool) (s : State) : Host.Outcome State Fault Refusal :=
  s.run (serveExec o .hvRearm 0 0 true (.num 0)
    (hvRearmBeh (elemReq o 3 .hvRearm 0 0 (.num 0)).call acked))

/-- A control-link message (R210): a failed CRC discards and counts it; an acknowledgement completes a command; a measurement
updates its objects. The generator is off while FE_STATE = 0 (R217). -/
def execHvControlMessage (crcOk : Bool) (m : HvMsg) (s : State) : Host.Outcome State Fault Refusal :=
  s.run (live (if !crcOk then .all [count .hvLinkErrors, raise 509] else
    match m with
    | .ack n => hvAck n.val
    | .die vin boost temp => .all [putN .hvVin 0 0 vin.toNat, putN .hvBoost 0 0 boost.toNat, putN .hvTemp 0 0 temp.toNat]
    | .channel n volts current mon => .ask fun d => .all [
        putN .feApdVoltage n.val 0 volts.toNat,
        putN .feApdCurrent n.val 0 (if d.num .feState n.val = 0 then 0 else current.toNat),
        putN .feLdMon n.val 0 mon.toNat]))

/-- An unacknowledged command is resent; after the third failure its write completes with abort 0x0701 (R210). -/
def execHvCommandResend (n : Fin 4) (acked : Bool) (s : State) : Host.Outcome State Fault Refusal :=
  s.run (live (if acked then hvAck n.val else .ask fun d =>
    match (d.ch n.val).hvPend with
    | [] => .skip
    | x :: _ =>
      if x.sent < 2 then
        .eff (.fch n.val fun f => { f with
          hvPend := match f.hvPend with | [] => [] | y :: r => { y with sent := y.sent + 1 } :: r })
      else .all [.eff (.fch n.val fun f => { f with hvPend := f.hvPend.tail }), respond x.call 0x0701 []]))

/-- A heartbeat pulse (R212). `steady` says that the heartbeat has run for 100 µs. An expiry not yet reported is counted and
raises event 505: the control link is back. It does not end Safe. -/
def execHvHeartbeat (steady : Bool) (s : State) : Host.Outcome State Fault Refusal :=
  s.run (.ask fun d => .all [
    .when d.hvTrip [count .hvWatchdogTrips, raise 505],
    .eff (.hv d.hvUnder steady false)])

/-- The watchdog expires (R212, Table 7.4). -/
def execHvWatchdogExpiry (s : State) : Host.Outcome State Fault Refusal :=
  s.run (.ask fun d => .when (d.num .hvState != 0) [hvSafe, .eff (.hv false false true)])

/-- HVIN below 10.0 V (R213): Off, event 506. -/
def execHvinUndervoltage (s : State) : Host.Outcome State Fault Refusal :=
  s.run (.ask fun d => .all [
    .eff (.pins fun p => { p with hvin := false }),
    .when (d.num .hvState != 0) [hvSafe, putN .hvState 0 0 0, raise 506, .eff (.hv true d.hvBeat d.hvTrip)]])

/-- HVIN above 10.5 V: from Off the die starts, when HV_ENABLE = 1 (Table 7.3). -/
def execHvinRecovery (s : State) : Host.Outcome State Fault Refusal :=
  s.run (.ask fun d => .all [
    .eff (.pins fun p => { p with hvin := true }),
    .when (d.num .hvState == 0 && d.hvEnable) [putN .hvState 0 0 1]])

/-- The boost is in regulation: Starting becomes Armed after a reset, Safe after an undervoltage (Table 7.3, R213). -/
def execBoostInRegulation (s : State) : Host.Outcome State Fault Refusal :=
  s.run (.ask fun d => .when (d.num .hvState == 1) [
    if d.hvUnder then .all [hvSafe, .eff (.hv false d.hvBeat d.hvTrip)]
    else .all [putN .hvState 0 0 2, raise 504]])

/-- The boost outside 85 to 95 V for 100 µs (Table 7.3). -/
def execBoostOutOfRange (s : State) : Host.Outcome State Fault Refusal :=
  s.run (.ask fun d => .when (d.num .hvState == 2 || d.num .hvState == 3) [hvSafe, raise 507])

/-- The HV die junction above 125 °C (Table 7.3). -/
def execHvOvertemp (s : State) : Host.Outcome State Fault Refusal :=
  s.run (.ask fun d => .when (d.num .hvState != 0) [hvSafe, .eff (.hv false d.hvBeat d.hvTrip), raise 508])

/-! ## Rogue latch (R222) -/

/-- The laser is latched off with a cause: 1 monitor current, 2 on-limit. -/
def rogueLatch (n cause : Nat) : Prog :=
  .all [.eff (.fch n fun c => { c with rogue := cause }), count .feRogueTrips n, raise (chEvt n 2) n cause]

/-- Monitor current above 1 µA for 2 µs while burst-enable is low. -/
def execRogueMonitorLatch (n : Fin 4) (s : State) : Host.Outcome State Fault Refusal :=
  s.run (.ask fun d => .when (d.num .hvState != 0 && (d.ch n.val).rogue == 0 && !(d.ch n.val).burstOn) [rogueLatch n.val 1])

/-- Burst-enable high for longer than FE_ROGUE_ON_LIMIT, unless that is 0. -/
def execRogueOnLimitLatch (n : Fin 4) (s : State) : Host.Outcome State Fault Refusal :=
  s.run (.ask fun d => .when (d.num .hvState != 0 && (d.ch n.val).rogue == 0 && (d.ch n.val).burstOn
    && d.num .feRogueOnLimit n.val != 0) [rogueLatch n.val 2])

/-- FE_LASER_RELEASE: abort 0x0401 while the cause persists; no effect with no latch set. -/
def feLaserReleaseBeh (c : Call) (n : Nat) (persists acked : Bool) : Beh :=
  beh (fun _ => 0)
    (fun d => if (d.ch n).rogue ≠ 0 ∧ persists = true then 0x0401 else 0)
    (fun d => if (d.ch n).rogue = 0 then .done .skip [] else hvReply n acked c .feLaserRelease 0)

/-- Execution of FE_LASER_RELEASE. -/
def execFeLaserRelease (o : Origin) (n : Fin 4) (persists acked : Bool) (s : State) : Host.Outcome State Fault Refusal :=
  s.run (serveExec o .feLaserRelease n.val 0 true (.num 0)
    (feLaserReleaseBeh (elemReq o 3 .feLaserRelease n.val 0 (.num 0)).call n.val persists acked))

/-- A write of FE_LASER_FORCE_OFF sets or clears NOT_FORCED (R218): the laser-enable carrier follows Table 7.6, and a burst in
progress on a dropped carrier ends. -/
def feLaserForceOffBeh (n v : Nat) : Beh :=
  .plain fun _ => .done (.all [putN .feLaserForceOff n 0 v,
    .when (v == 1) [.eff (.fch n fun c => { c with burstOn := false })]]) []

/-- A write of FE_LASER_FORCE_OFF. -/
def execFeLaserForceOffWrite (o : Origin) (n : Fin 4) (v : BitVec 8) (s : State) : Host.Outcome State Fault Refusal :=
  s.run (serveWrite o .feLaserForceOff n.val 0 (.num v.toNat) (feLaserForceOffBeh n.val v.toNat))

end Sys2Proof.Machine
end

