-- ==== Sys2Proof/Machine/DramQueue.lean ====
section
/-!
DEFINITION. The address map of the DRAM channels (R513, R514) and the queues of their subchannels (R515, R516).
-/
namespace Sys2Proof.Machine

/-! ## Cells and addresses

A DRAM cell is named 8·k + c: cell k of channel c. It occupies bursts 4k to 4k + 3. -/

/-- Whether a packet has a cell on a channel. -/
def QPkt.onChan (p : QPkt) (c : Nat) : Bool := p.cells.any fun x => x % 8 == c

/-- The widths of BG, BA, C_HI, RK and ROW of a configuration (Table 18.1). JESD79-5 gives them (R513; PRESUMED but for the x16 16 Gb devices of the
example, log entry 126). -/
def dramWidths (cfg : Nat) : Nat × Nat × Nat × Nat × Nat :=
  let x8 := cfg / 64 == 1
  let big := bitsOf cfg 4 2 == 1
  (if x8 then 3 else 2, if big then 2 else 1, 1, bitsOf cfg 3 1, 16)

/-- A burst's place: subchannel, bank (rank, bank group and bank as one number), row and burst of the row. -/
structure DramPlace where
  sub : Nat
  bank : Nat
  row : Nat
  col : Nat
  deriving DecidableEq, Repr

/-- The map of DRAM_ADDR_ORDER (Table 18.5). -/
def dramPlace (cfg order b : Nat) : DramPlace :=
  let (bg, ba, hi, rk, row) := dramWidths cfg
  let sc := if order = 1 then bitsOf b 5 1 else bitsOf b 0 1
  let col := if order = 1 then bitsOf b 0 5 else bitsOf b (1 + bg + ba) 5
  let at' := if order = 1 then 6 else 1
  let top := 6 + bg + ba
  let r := bitsOf b (top + hi + rk) row
  let g := bitsOf b at' bg
  let k := bitsOf b (at' + bg) ba
  let g := if order = 2 then g ^^^ bitsOf r 0 bg else g
  let k := if order = 2 then k ^^^ bitsOf r bg ba else k
  ⟨sc, (bitsOf b (top + hi) rk * 2 ^ bg + g) * 2 ^ ba + k, r, bitsOf b top hi * 32 + col⟩

/-- The place of a burst of channel `c`. -/
def Dev.place (d : Dev) (c b : Nat) : DramPlace := dramPlace (d.num .dramCfg c) (d.num .dramAddrOrder c) b

/-- A subchannel's state. -/
def Dev.dsub (d : Dev) (c s : Nat) : DramSub := SMap.get DramSub.none (SMap.get DramCh.none d.dram c).subs s

/-- A subchannel changes. -/
def subUpd (c s : Nat) (f : DramSub → DramSub) : Prog :=
  .eff (.dram c fun x => { x with subs := SMap.upd DramSub.none s f x.subs })

/-! ## Requests -/

/-- A request joins a subchannel: a write of a burst whose write is not yet issued replaces that one in place (R516). -/
def DramSub.push (s : DramSub) (x : DramReq) : DramSub :=
  if x.write && s.reqs.any (fun y => y.write && y.burst == x.burst) then s else { s with reqs := s.reqs ++ [x] }

/-- Every burst of a cell is requested. -/
def askCell (write : Bool) (cell : Nat) : Prog :=
  .ask fun d => .each (List.range 4) fun j =>
    let b := 4 * (cell / 8) + j
    subUpd (cell % 8) (d.place (cell % 8) b).sub fun s => s.push ⟨write, b, d.nowNs⟩

/-- The queue of reads or of writes: the oldest 64. A request behind them waits in the buffer manager. -/
def DramSub.queued (s : DramSub) (write : Bool) : List DramReq := (s.reqs.filter fun x => x.write == write).take 64

/-- Cells that wait to be written (R497): writes not yet issued, four to a cell. -/
def Dev.dramWaiting (d : Dev) : Nat :=
  ceilDiv (d.dram.map fun e => (e.2.subs.map fun u => (u.2.reqs.filter (·.write)).length).sum).sum 4

/-! ## Service (R515, R516) -/

/-- Writes are served from the time their queue reaches 48 or no read waits. -/
def DramSub.serves (s : DramSub) : Bool :=
  let w := (s.queued true).length
  s.writing || decide (48 ≤ w) || ((s.queued false).isEmpty && w != 0)

/-- The request served next of those queued in one direction: the oldest that has waited the limit, else the oldest row hit, else the oldest (that a
request's age counts in its own direction is DEDUCED, log entry 127). -/
def pickReq (now limit : Nat) (hit : DramReq → Bool) (l : List DramReq) : Option DramReq :=
  match l.find? fun x => decide (x.at' + limit ≤ now) with
  | some x => some x
  | none => match l.find? hit with
    | some x => some x
    | none => l.head?

/-- What the controller does with its next request: nothing waits, a read takes its data from a queued write, or a burst is issued. -/
inductive Served where
  | idle
  | forwarded (burst : Nat)
  | issued (x : DramReq)
  deriving DecidableEq, Repr

/-- One request of a subchannel is served. Writes end when their queue falls to 16 or is empty. -/
def DramSub.serve (at' : Nat → DramPlace) (now limit : Nat) (s : DramSub) : DramSub × Served :=
  let w := s.serves
  let hit (x : DramReq) : Bool := SMap.get 0 s.rows (at' x.burst).bank == (at' x.burst).row + 1
  match pickReq now limit hit (s.queued w) with
  | .none => ({ s with writing := false }, .idle)
  | some x =>
    let rest := { s with reqs := s.reqs.erase x }
    let left := (rest.queued true).length
    let open' := SMap.put 0 (at' x.burst).bank ((at' x.burst).row + 1) s.rows
    if x.write then
      ({ rest with writing := left != 16 && left != 0, rows := open', last := (s.last ++ [x.burst]).drop (s.last.length - 31) }, .issued x)
    else if (s.queued true).any fun y => y.burst == x.burst then ({ rest with writing := w }, .forwarded x.burst)
    else ({ rest with writing := w, rows := open', out := s.out ++ [x.burst] }, .issued x)

/-- A channel's counter (Table 18.6) moves on. -/
def dramCount (c k n : Nat) : Prog := countIn .dramCounters c 0 (8 * k) 8 n

/-- A command to the DRAM of a subchannel: whether it writes, and the burst. -/
def sendDram (c s : Nat) (write : Bool) (burst : Nat) : Prog := send .dram c s (beBytes 1 (b2n write) ++ beBytes 4 burst)

/-- A burst of a packet has been read: of those its packet still awaits there is one less, and its data may be poisoned (R519). -/
def burstRead (c burst : Nat) (bad : Bool) : Prog :=
  .eff (.tm fun t => { t with
    queues := SMap.mapped [] (fun l => l.map fun p =>
      if p.cells.contains (8 * (burst / 4) + c) then { p with need := p.need.map (· - 1), bad := p.bad || bad } else p) t.queues })

/-- At most `n` requests of a subchannel are served. -/
def serveSub (c s : Nat) : Nat → Prog
  | 0 => .skip
  | n + 1 => .ask fun d =>
    let r := (d.dsub c s).serve (d.place c) d.nowNs (d.num .dramAgeLimit)
    match r.2 with
    | .idle => .skip
    | .forwarded b => .all [subUpd c s fun _ => r.1, dramCount c 2 1, burstRead c b false, serveSub c s n]
    | .issued x => .all [subUpd c s fun _ => r.1, .when x.write [dramCount c 0 1], sendDram c s x.write x.burst, serveSub c s n]

/-- A sub-tick of 1 µs of a Ready or Draining channel: each subchannel serves at most the bursts that its data rate carries (DESIGN CHOICE: the manual
gives the order alone, log entry 127). -/
def dramTick (c : Nat) : Prog :=
  .ask fun d => .when (d.num .dramState c == 3 || d.num .dramState c == 4)
    [.each [0, 1] fun s => serveSub c s (d.num .dramSpeed / 16)]

/-- Entry to self-refresh completes every queued write, then every queued read (R522). -/
def dramQuiet (c : Nat) : Prog :=
  .each [0, 1] fun s => .ask fun d =>
    let l := (d.dsub c s).reqs
    let all := l.filter (·.write) ++ l.filter (!·.write)
    .all [
      subUpd c s fun x => { x with reqs := [], writing := false, out := x.out ++ (l.filter (!·.write)).map (·.burst) },
      dramCount c 0 (l.filter (·.write)).length,
      .each all fun x => sendDram c s x.write x.burst]

/-! ## Cells (R514) -/

/-- The channel of each of `n` new DRAM cells: the next channel in rotation that is Ready and has a free cell (R514). -/
def dramAlloc : Nat → (free : List Nat) → (next : Nat) → List Nat × Nat
  | 0, _, next => ([], next)
  | n + 1, free, next =>
    match ((List.range 8).map fun k => (next + k) % 8).find? fun c => nth 0 free c != 0 with
    | none => ([], next)
    | some c =>
      let r := dramAlloc n (listSet free c (nth 0 free c - 1)) ((c + 1) % 8)
      (c :: r.1, r.2)

/-- The first cell of a channel of `cap` cells at or after a place that is not among the held ones. -/
def firstFree (held : List Nat) (c cap : Nat) : Nat → Nat → Nat
  | 0, k => 8 * (k % cap) + c
  | n + 1, k => if held.contains (8 * (k % cap) + c) then firstFree held c cap n (k + 1) else 8 * (k % cap) + c

/-- The cells that packets hold. -/
def Dev.heldNames (d : Dev) : List Nat := d.tm.queues.flatMap fun e => e.2.flatMap (·.cells)

/-- New cells on given channels; which free cell of a channel is taken the manual leaves open. -/
def Dev.newCells (d : Dev) : List Nat → Nat → List Nat → List Nat
  | _, _, [] => []
  | held, f, c :: r =>
    let x := firstFree held c (d.num .dramCapacity c) held.length (Config.freeValue f)
    x :: d.newCells (x :: held) (f + 1) r

end Sys2Proof.Machine
end

