-- ==== Sys2Proof/Machine/Traffic.lean ====
section
/-!
DEFINITION. Queues and admission (R473 to R499), shapers (R483, R484), the deficit round robins (R481), gates (R487) and meters (R490).
-/
namespace Sys2Proof.Machine

/-! ## The hierarchy (R473 to R478) -/

/-- Keys of nodes in the stores: queue, subscriber, service, port. -/
def subKey (s : Nat) : Nat := 0x100000 + s
def svcKey (v : Nat) : Nat := 0x200000 + v
def portKey (p : Nat) : Nat := 0x300000 + p

/-- Signed OVERHEAD of a port node (R478). -/
def Dev.overhead (d : Dev) (p : Nat) : Int := toInt 8 (beAt (d.portRec p) 8 1)

/-- The allocations bound under a channel's port node, each with its service node (R477). -/
def Dev.bindings (d : Dev) (n : Nat) : List (Nat × Nat) :=
  (List.range 4096).filterMap fun v =>
    let r := d.svcRec v
    if bitOf (nodeExtra r) 15 && nodeParent r == 108 + n then some (nodeExtra r % 16384, v) else none

/-- The service node bound to an allocation of channel `n` (R34, R477): its parent is port node 108 + n. -/
def Dev.boundSvc (d : Dev) (n alloc : Nat) : Option Nat := ((d.bindings n).find? fun b => b.1 == alloc).map (·.2)

/-- The service node that the grants of a frame find bound to an allocation. -/
def grantSvc (g : Grants) (alloc : Nat) : Option Nat := (g.bound.find? fun b => b.1 == alloc).map (·.2)

/-! ## Admission (R492 to R499) -/

/-- Admission accepts for a port node (Table 17.3). -/
def Dev.portAccepts (d : Dev) (p : Nat) : Bool :=
  if p < 96 then d.num .portState p == 4
  else if p < 108 then d.num .fabState (p - 96) == 4 || d.num .fabState (p - 96) == 5
  else if p < 112 then (let a := d.num .actState (p - 108); a == 3 || a == 4 || a == 5)
  else if p < 116 then d.num .hifLinkState (p - 112) == 2
  else false

/-- DRAM is saturated while more than 4,096 cells wait to be written (R497). -/
def Dev.dramSaturated (d : Dev) : Bool := decide (4096 < d.dramWaiting)

/-- Event 369 while DRAM is saturated, at most once per second (R497). -/
def saturationCheck : Prog := .ask fun d => .when d.dramSaturated [raiseRated 369]

/-- Largest occupancy an admission profile allows a colour (Table 17.6). -/
def profMax (p : List Byte) (colour : Nat) : Nat := beAt p (4 + 4 * min colour 2) 4

/-- Why admission refuses a packet of `c` cells for a queue; 0 when it is linked (R495). The flag says that it goes to DRAM. -/
def Dev.admission (d : Dev) (q c colour : Nat) : Nat × Bool :=
  let l := d.queue q
  let sram := queueCells false l
  let dram := queueCells true l
  let prof := d.oct .tmAdmProfile 0 (nodeExtra (d.queueRec q) / 256)
  let free := d.sharedFree
  let dyn := free * 2 ^ beAt prof 16 1 / 256
  if !d.portAccepts (d.portOf q) then (1, false)
  else if !d.queueOn q then (2, false)
  else if profMax prof colour < sram + dram + c then (3, false)
  else if d.queueDram q && (decide (0 < dram) || decide (nodeHead (d.queueRec q) < sram + c)) then
    (if decide (d.dramFree < c) || d.dramSaturated then (5, true) else (0, true))
  else if free < c ∨ (beAt prof 0 4 < sram + dram + c ∧ beAt prof 0 4 + dyn < sram + dram + c) then (4, false)
  else (0, false)

/-- A packet meets admission to a queue under its configuration epoch (R45, R495); the bursts of its DRAM cells are to be written (R514). -/
def enqueue (epoch : Option Nat) (q : Nat) (p : QPkt) : Prog :=
  .ask fun now =>
    let d := now.seen epoch
    let c := cellsOf p.data
    let a := d.admission q c p.colour
    if a.1 ≠ 0 then .all [tmDrop a.1 (some q), saturationCheck]
    else
      let w := if a.2 then dramAlloc c ((List.range 8).map d.chanFree) d.tm.dramNext else ([], d.tm.dramNext)
      let cells := d.newCells d.heldNames d.free w.1
      .all [
        .eff (.tm fun t => { t with
          queues := SMap.upd [] q (· ++ [{ p with dram := a.2, cells := cells, need := none }]) t.queues, dramNext := w.2 }),
        .each cells fun x => .all [.eff .draw, askCell true x],
        saturationCheck, poolCheck]

/-- Default queue of a port node for an egress traffic class (R496). -/
def Dev.defaultQueue (d : Dev) (p tc : Nat) : Option Nat :=
  let b := beAt (d.portRec p) 20 4
  if b = 0xFFFFFFFF then none else some (b + tc)

/-- A packet bound for a port meets admission to its default queue (R441, R496). -/
def admitPort (epoch : Option Nat) (p tc : Nat) (x : QPkt) : Prog :=
  .ask fun now =>
    let d := now.seen epoch
    if !d.portAccepts p then tmDrop 1 none
    else match d.defaultQueue p tc with
      | some q => enqueue epoch q x
      | none => tmDrop 7 none

/-- Whether a packet has a cell on a channel whose queue repair runs (R625). -/
def Dev.severed (d : Dev) (p : QPkt) : Bool := (List.range 8).any fun c => p.onChan c && d.num .dramRepairPending c == 1

/-- DRAM packets move to the SRAM head, oldest first, up to DRAM_HEAD cells and the free cells of the pool (R497): one that fits is asked for, and moves
once its bursts have been read. A packet on a failed channel is dropped as it is reached (R625). `open'` says that no packet before this one stays. The
second answer counts the drops, the third names the cells asked for. -/
def Dev.refillQueue (d : Dev) (head : Nat) : (open' : Bool) → Nat → Nat → List QPkt → List QPkt × Nat × List Nat
  | _, _, _, [] => ([], 0, [])
  | open', used, free, p :: r =>
    let c := cellsOf p.data
    if !p.dram then
      let x := d.refillQueue head open' (used + c) free r
      (p :: x.1, x.2)
    else if d.severed p then
      let x := d.refillQueue head open' used free r
      (x.1, x.2.1 + 1, x.2.2)
    else if used + c ≤ head ∧ c ≤ free then
      if open' && (p.need == some 0 || p.cells.isEmpty) then
        let x := d.refillQueue head open' (used + c) (free - c) r
        ({ p with dram := false, cells := [], need := none } :: x.1, x.2)
      else
        let x := d.refillQueue head false (used + c) (free - c) r
        ({ p with need := some (p.need.getD (4 * p.cells.length)) } :: x.1, x.2.1, (if p.need.isNone then p.cells else []) ++ x.2.2)
    else (p :: r, 0, [])

/-! ## Shapers (R483, R484) -/

/-- A shaper's credit brought up to a time. -/
def Shaper.at (s : Shaper) (rate burst now : Nat) : Shaper :=
  ⟨min (burst * 65536 : Nat) (s.credit + ((rate * (now - s.last) * 65536 / 8000000 : Nat) : Int)), now⟩

/-- Credit of a node at the present time, by its key, RATE and BURST. -/
def Dev.credit (d : Dev) (k rate burst : Nat) : Int :=
  ((SMap.get Shaper.none d.tm.shapers k).at rate burst d.nowNs).credit

/-- A node that is unshaped or holds credit (R480). -/
def Dev.shaped (d : Dev) (k rate burst : Nat) : Bool := rate == 0 || decide (0 ≤ d.credit k rate burst)

/-- A node's shaper takes a value. -/
def setShaper (k : Nat) (s : Shaper) : Prog :=
  .eff (.tm fun t => { t with shapers := SMap.put Shaper.none k s t.shapers })

/-- A node is charged for a packet (R483). -/
def charge (k rate burst : Nat) (bytes : Int) : Prog :=
  .ask fun d => .when (rate != 0) [setShaper k ⟨d.credit k rate burst - max 1 bytes * 65536, d.nowNs⟩]

/-- A write of a node's RATE or BURST (R484). -/
def reshape (k oldRate oldBurst rate burst : Nat) : Prog :=
  .ask fun d => .when (rate != 0) [setShaper k
    ⟨if oldRate = 0 then (burst * 65536 : Nat) else min (burst * 65536 : Nat) (d.credit k oldRate oldBurst), d.nowNs⟩]

/-- What a node may send before the next grant (R485): none for an unshaped node. -/
def Dev.shaperCap (d : Dev) (k rate burst : Nat) : Option Nat :=
  if rate = 0 then none
  else some (min (burst : Int) ((d.credit k rate burst + ((rate * 250000 * 65536 / 8000000 : Nat) : Int)) / 65536)).toNat

/-- The lesser of a figure and a cap. -/
def capped (cap : Option Nat) (n : Nat) : Nat :=
  match cap with
  | some c => min c n
  | none => n

/-- The occupancy reported for a service node (R485). -/
def Dev.reported (d : Dev) (v : Nat) : Nat :=
  let qs := d.busyQueues.filter fun q => d.svcOf q == v
  let subs := (qs.map d.subOf).eraseDups
  let sub (s : Nat) :=
    capped (d.shaperCap (subKey s) (nodeRate (d.subRec s)) (nodeBurst (d.subRec s)))
      ((qs.filter fun q => d.subOf q == s).map fun q =>
        capped (d.shaperCap q (nodeRate (d.queueRec q)) (nodeBurst (d.queueRec q)))
          ((d.queue q).map fun p => p.data.length).sum).sum
  capped (d.shaperCap (svcKey v) (nodeRate (d.svcRec v)) (nodeBurst (d.svcRec v))) (subs.map sub).sum

/-! ## Gates (R486, R487) -/

/-- Fields of a gate list (Table 17.4). -/
def glCount (g : List Byte) : Nat := beAt g 0 2
def glCycle (g : List Byte) : Nat := beAt g 4 4
def glBase (g : List Byte) : Nat := beAt g 8 6 * 1000000000 + beAt g 14 4
def glGates (g : List Byte) (i : Nat) : Nat := beAt g (24 + 8 * i) 1
def glInterval (g : List Byte) (i : Nat) : Nat := beAt g (28 + 8 * i) 4

/-- The phase of a gate list at a time, as a floor modulus. -/
def glPhase (g : List Byte) (now : Nat) : Nat := (((now : Int) - glBase g) % (glCycle g : Int)).toNat

/-- From a phase, the entries in order with the time each has left: the entry at the phase, then those after it, to the end
of the cycle. The last entry's states hold until the cycle ends. -/
def glFrom (g : List Byte) : Nat → Nat → Nat → Nat → List (Nat × Nat)
  | 0, _, _, _ => []
  | fuel + 1, i, start, phase =>
    let stop := if i + 1 = glCount g then glCycle g else min (glCycle g) (start + glInterval g i)
    let rest := if i + 1 < glCount g ∧ stop < glCycle g then glFrom g fuel (i + 1) stop (max phase stop) else []
    if phase < stop then (glGates g i, stop - max phase start) :: rest else rest

/-- Gates open at a time (all, with COUNT 0). -/
def gatesAt (g : List Byte) (now : Nat) : Nat :=
  if glCount g = 0 then 0xFF else ((glFrom g (glCount g) 0 0 (glPhase g now)).headD (0xFF, 0)).1

/-- How long a gate stays open from the start of a list of states; `wrap` more follows when all of them are open. -/
def openFor (tc : Nat) : List (Nat × Nat) → Nat
  | [] => 0
  | (s, t) :: r => if bitOf s tc then t + openFor tc r else 0

/-- Time in ns for which gate `tc` stays open from now; none while it never closes. -/
def gateOpenFor (g : List Byte) (now tc : Nat) : Option Nat :=
  if glCount g = 0 then none
  else
    let cycle := glFrom g (glCount g) 0 0 0
    if cycle.all fun e => bitOf e.1 tc then none
    else
      let rest := glFrom g (glCount g) 0 0 (glPhase g now)
      some (if rest.all fun e => bitOf e.1 tc then openFor tc rest + openFor tc cycle else openFor tc rest)

/-- Rate in Mb/s of a port mode (Table 13.1). -/
def modeRate (m : Nat) : Nat :=
  match m with
  | 1 => 1000 | 2 => 10000 | 3 => 25000 | 4 => 50000 | 5 => 100000 | 6 => 200000
  | _ => 0

/-- Rate in Mb/s at which a port node sends: a port's resolved mode, or a bundle's cell payload on its lanes (R399). -/
def Dev.portRate (d : Dev) (p : Nat) : Nat :=
  if p < 96 then modeRate (d.num .portResolved p / 2 ^ 24)
  else if d.num .fabResolved (p - 96) / 2 ^ 24 = 0xFF then 403680 else 201840

/-- Transmission time in ns, rounded up, of a packet on a port node, with the wake time in low-power idle (R487). -/
def Dev.sendTime (d : Dev) (p len : Nat) : Nat :=
  ceilDiv (((len : Int) + d.overhead p).toNat * 8000) (max 1 (d.portRate p))
    + (if p < 96 ∧ bitOf (d.num .portEeeState p) 1 then d.eeeTw p * 1000 else 0)

/-- Whether the gate of a TC lets a packet of a length start (R487). Port nodes 108 and above have no gates. -/
def Dev.gatePermits (d : Dev) (p tc len : Nat) : Bool :=
  if 108 ≤ p then true
  else
    let g := d.oct .tmGateOper p
    bitOf (gatesAt g d.nowNs) tc && match gateOpenFor g d.nowNs tc with
      | none => true
      | some t => decide (d.sendTime p len ≤ t)

/-! ## Which queue sends (R480, R481) -/

/-- The fabric class of a packet (R405). -/
def Dev.fabClass (d : Dev) (g tc colour : Nat) : Nat :=
  bitsOf (d.num .fabTxClass g) (4 * (2 * tc + if colour = 0 then 0 else 1)) 4

/-- Whether a bundle's class can start a packet: credit in hand, and none of its packets halted (R405). -/
def Dev.fabReady (d : Dev) (g c : Nat) : Bool :=
  d.num .fabTxCredits g c != 0 && (SMap.get [] (SMap.get Bundle.none d.fab g).tx c).isEmpty

/-- Whether the buffers posted in a ring decide the fate of a packet: enough for it, or 16 that are not (R187, R188). -/
def Dev.ringFits (d : Dev) (r len : Nat) : Bool :=
  let l := (d.goodDescs r).take 16
  !l.isEmpty && (decide (len ≤ (l.map descSize).sum) || l.length == 16)

/-- Whether the scheduler serves a port node for a head packet (Table 17.3); a fibre node is served inside a grant. -/
def Dev.portServes (d : Dev) (p : Nat) (tc : Nat) (x : QPkt) : Bool :=
  if p < 96 then d.num .portState p == 4 && decide ((SMap.get PortSt.none d.ports p).heldTo ≤ d.nowNs)
  else if p < 108 then d.num .fabState (p - 96) == 4 && d.fabReady (p - 96) (d.fabClass (p - 96) tc x.colour)
  else if p < 112 then true
  else if p < 116 then match x.ring with
    | some r => d.ringFits r x.out.length
    | none => true
  else false

/-- Whether a queue is eligible (R480). The packet at its head must lie in SRAM. -/
def Dev.eligible (d : Dev) (q : Nat) : Bool :=
  match d.queue q with
  | [] => false
  | x :: _ =>
    let s := d.subOf q
    let v := d.svcOf q
    let p := d.portOf q
    !x.dram
      && d.shaped q (nodeRate (d.queueRec q)) (nodeBurst (d.queueRec q))
      && d.shaped (subKey s) (nodeRate (d.subRec s)) (nodeBurst (d.subRec s))
      && d.shaped (svcKey v) (nodeRate (d.svcRec v)) (nodeBurst (d.svcRec v))
      && d.shaped (portKey p) (portNodeRate (d.portRec p)) (portNodeBurst (d.portRec p))
      && d.gatePermits p (d.queueTc q) x.data.length
      && d.portServes p (d.queueTc q) x

/-- A competitor in a deficit round robin: its key, quantum, deficit and the size of its eligible head packet. -/
structure Rival where
  key : Nat
  quantum : Nat
  deficit : Nat
  size : Nat

/-- Visits a rival needs before its deficit covers its packet. -/
def Rival.need (r : Rival) : Nat := ceilDiv (r.size - r.deficit) r.quantum

/-- The turn at which a rival at place `i` of `m` would send: each visit adds a quantum, but for the present one of the rival at place 0, which has the
turn. -/
def Rival.turn (r : Rival) (m i : Nat) : Nat := if i = 0 then r.need * m else (max 1 r.need - 1) * m + i

/-- Visits a rival at place `i` of `m` has had by turn `t`. -/
def visits (m i t : Nat) : Nat := if i = 0 then t / m else if i ≤ t then (t - i) / m + 1 else 0

/-- Rivals in turn order, from the one whose turn it is. -/
def fromTurn (now : Nat) (l : List Rival) : List Rival :=
  (l.filter fun r => decide (now ≤ r.key)) ++ l.filter fun r => decide (r.key < now)

/-- The winner of a deficit round robin (R481), and the rivals' deficits at that point. The rival that sent last keeps the turn while its deficit lasts;
when it is no longer a rival, the next one is visited first. -/
def drr (now : Nat) (l : List Rival) : Option (Rival × List (Nat × Nat)) :=
  let l := fromTurn now l
  let o := l.zipIdx (if l.head?.any fun r => r.key == now then 0 else 1)
  let m := o.length
  let t := o.foldl (fun a x => match a with
    | none => some (x.1.turn m x.2)
    | some b => some (min b (x.1.turn m x.2))) none
  match t with
  | none => none
  | some t => (o.find? fun x => x.1.turn m x.2 == t).map fun w =>
      (w.1, o.map fun x =>
        (x.1.key, x.1.deficit + visits m x.2 t * x.1.quantum - if x.1.key = w.1.key then w.1.size else 0))

/-- Deficit store: a node's deficit for a class. -/
def defKey (k tc : Nat) : Nat := k * 8 + tc

/-- One level of the choice: children with their weights and the head each would send. -/
def Dev.pick (d : Dev) (parent tc : Nat) (children : List (Nat × Nat × Nat × α)) : Option (α × List (Nat × Nat) × Nat × Nat) :=
  let rivals := children.map fun c => (⟨c.1, c.2.1 * 256, SMap.get 0 d.tm.deficits (defKey c.1 tc), c.2.2.1⟩ : Rival)
  match drr (SMap.get 0 d.tm.turns (defKey parent tc)) rivals with
  | none => none
  | some w => (children.find? fun c => c.1 == w.1.key).map fun c =>
      (c.2.2.2, (w.2.map fun x => (defKey x.1 tc, x.2)), defKey parent tc, w.1.key)

/-- A choice that a subtree makes: the queue, the size of its head, and the deficits and turns that the choice sets. -/
structure Choice where
  q : Nat
  size : Nat
  defs : List (Nat × Nat)
  turns : List (Nat × Nat)

/-- The choice with a level's own marks added. -/
def Choice.over (c : Choice) (defs : List (Nat × Nat)) (k v : Nat) : Choice :=
  { c with defs := c.defs ++ defs, turns := c.turns ++ [(k, v)] }

/-- The queue that a subscriber node sends from for a class. -/
def Dev.pickQueue (d : Dev) (s tc : Nat) (qs : List Nat) : Option Choice :=
  (d.pick (subKey s) tc ((qs.filter fun q => d.subOf q == s).map fun q =>
    let size := match d.queue q with
      | x :: _ => x.data.length
      | [] => 0
    (q, nodeWeight (d.queueRec q), size, (⟨q, size, [], []⟩ : Choice)))).map fun w => w.1.over w.2.1 w.2.2.1 w.2.2.2

/-- The queue that a service node sends from for a class. -/
def Dev.pickSub (d : Dev) (v tc : Nat) (qs : List Nat) : Option Choice :=
  let mine := qs.filter fun q => d.svcOf q == v
  (d.pick (svcKey v) tc ((mine.map d.subOf).eraseDups.filterMap fun s =>
    (d.pickQueue s tc mine).map fun c => (subKey s, nodeWeight (d.subRec s), c.size, c))).map
      fun w => w.1.over w.2.1 w.2.2.1 w.2.2.2

/-- The queue that a port node sends from for a class; in a grant only the bound service node competes. -/
def Dev.pickSvc (d : Dev) (p tc : Nat) (only : Option Nat) (qs : List Nat) : Option Choice :=
  (d.pick (portKey p) tc (((qs.map d.svcOf).eraseDups.filter fun v => only.all (· == v)).filterMap fun v =>
    (d.pickSub v tc qs).map fun c => (svcKey v, nodeWeight (d.svcRec v), c.size, c))).map
      fun w => w.1.over w.2.1 w.2.2.1 w.2.2.2

/-- Key of a port node's class in the round robin of classes. -/
def classKey (p tc : Nat) : Nat := 0x400000 + p * 8 + tc

/-- The eligible queues of a port node. -/
def Dev.eligibleOf (d : Dev) (p : Nat) : List Nat := d.busyQueues.filter fun q => d.portOf q == p && d.eligible q

/-- The choice of a port node (R481): the highest strict class with an eligible queue; else deficit round robin among the other
classes by TC_WEIGHT. -/
def Dev.pickPort (d : Dev) (p : Nat) (only : Option Nat) : Option Choice :=
  let qs := (d.eligibleOf p).filter fun q => only.all (· == d.svcOf q)
  let strict := beAt (d.portRec p) 9 1
  let of (tc : Nat) := d.pickSvc p tc only (qs.filter fun q => d.queueTc q == tc)
  match [7, 6, 5, 4, 3, 2, 1, 0].find? (fun tc => bitOf strict tc && (qs.any fun q => d.queueTc q == tc)) with
  | some tc => of tc
  | none =>
    (d.pick (classKey p 0) 0 ((List.range 8).filterMap fun tc =>
      if bitOf strict tc then none
      else (of tc).map fun c => (classKey p tc, beAt (d.portRec p) (12 + tc) 1, c.size, c))).map
        fun w => w.1.over w.2.1 w.2.2.1 w.2.2.2

/-- The deficits at a port node's tree that stand: a child with no eligible packet of a class has a deficit of zero (R481). -/
def Dev.deficitStands (d : Dev) (p : Nat) (ready : List Nat) (k : Nat) : Bool :=
  let node := k / 8
  let tc := k % 8
  let live (f : Nat → Nat) := ready.any fun q => d.queueTc q == tc && f q == node
  if node < 0x100000 then d.portOf node != p || live id
  else if node < 0x200000 then nodeParent (d.svcRec (nodeParent (d.subRec (node - 0x100000)))) != p || live fun q => subKey (d.subOf q)
  else if node < 0x300000 then nodeParent (d.svcRec (node - 0x200000)) != p || live fun q => svcKey (d.svcOf q)
  else (node - 0x400000) / 8 != p || ready.any fun q => classKey p (d.queueTc q) == node

/-- The children of a port node's tree that have no eligible packet lose their deficits (R481). -/
def settleDeficits (p : Nat) : Prog :=
  .ask fun d =>
    let ready := d.eligibleOf p
    .eff (.tm fun t => { t with deficits := SMap.drop (fun k => !d.deficitStands p ready k) t.deficits })

/-- The deficits and turns of a choice take effect. -/
def commitChoice (c : Choice) : Prog :=
  .eff (.tm fun t => { t with
    deficits := c.defs.foldl (fun m x => SMap.put 0 x.1 x.2 m) t.deficits,
    turns := c.turns.foldl (fun m x => SMap.put 0 x.1 x.2 m) t.turns })

/-! ## Meters (R489 to R491) -/

/-- A meter's buckets brought up to a time, in units of 2⁻¹⁶ byte. -/
def Meter.fill (m : Meter) (e : List Byte) (now : Nat) : Meter :=
  let add (rate : Nat) := rate * (now - m.last) * 65536 / 8000000
  let cbs := beAt e 12 4 * 65536
  let ebs := beAt e 16 4 * 65536
  if beAt e 0 1 = 2 then ⟨min cbs (m.c + add (beAt e 4 4)), min ebs (m.e + add (beAt e 8 4)), now⟩
  else
    let c := m.c + add (beAt e 4 4)
    if cbs < c then ⟨cbs, min ebs (m.e + c - cbs), now⟩ else ⟨c, m.e, now⟩

/-- The colour a meter gives a packet, and its buckets after it (R490). -/
def meterColour (m : Meter) (e : List Byte) (pre len : Nat) : Nat × Meter :=
  let b := (max 1 ((len : Int) + toInt 8 (beAt e 2 1))).toNat * 65536
  let pre := if bitOf (beAt e 1 1) 7 then pre else 0
  match beAt e 0 1 with
  | 2 =>
    if pre = 2 ∨ m.e < b then (2, m)
    else if pre = 1 ∨ m.c < b then (1, { m with e := m.e - b })
    else (0, { m with e := m.e - b, c := m.c - b })
  | 1 =>
    if pre = 0 ∧ b ≤ m.c then (0, { m with c := m.c - b })
    else if pre ≠ 2 ∧ b ≤ m.e then (1, { m with e := m.e - b })
    else (2, m)
  | _ => (0, m)

end Sys2Proof.Machine
end

