-- ==== Sys2Proof/Machine/Dram.lean ====
section
/-!
DEFINITION. The DRAM controller (spec/18): channel configurations and states (R506 to R511, R523), refresh and temperature (R517, R518), check
bits (R519, R520), and channel failure (R524, R625).
-/
namespace Sys2Proof.Machine

/-- Place of a channel's data and tweak keys (R521). -/
def dramKey (c : Nat) : Nat := 0x30000 + c

/-- Capacity in cells of a configuration; 0 for one outside Table 18.1. -/
def dramCap (v : Nat) : Nat :=
  match v with
  | 0x80 => 16777216
  | 0x88 => 33554432
  | 0x90 => 33554432
  | 0x40 => 33554432
  | _ => 0

/-- A channel takes a state; event 400 + 2c carries the old and the new state, its CODE the cause of a failure: 1 training, 2 uncorrectable bursts,
3 ALERT_N, 4 crossing timeout, 5 RST_INSTANCE (R524). -/
def dramTo (c new cause : Nat) : Prog :=
  .ask fun d =>
    let old := d.num .dramState c
    .when (old != new) [putN .dramState c 0 new, raise (400 + 2 * c) c cause (top8 old + new % 256 * 65536)]

/-- Entry to Training with new keys from the TRNG (R521). With the TRNG stopped the channel is left in Failed (R608), by a failed step 1. -/
def dramTrain (c : Nat) : Prog :=
  .ask fun d => if d.sec.trngOff then .all [
      .when (d.num .dramState c != 6) [putN .dramRepairPending c 0 1],
      dramTo c 6 1, putN .dramTrainResult c 0 (2 ^ 28), putN .dramEnable c 0 0]
    else .all [
    .eff (.key (dramKey c) (beBytes 32 (Config.freeValue d.free))), .eff .draw,
    dramTo c 2 0]

/-- A channel leaves for Disabled: its keys go (R521). -/
def dramDisable (c : Nat) : Prog :=
  .all [dramTo c 1 0, .eff (.dropKeys fun k => k == dramKey c), .eff (.dram c fun x => { x with subs := [] })]

/-- A channel fails (R524): keys, queued requests and cells go, and the queues are under repair. `keep` keeps DRAM_ENABLE. -/
def dramFail (c cause : Nat) (keep : Bool) : Prog :=
  .ask fun d => .when (decide (2 ≤ d.num .dramState c) && d.num .dramState c != 6) [
    dramTo c 6 cause,
    .eff (.dropKeys fun k => k == dramKey c),
    .eff (.dram c fun x => { x with subs := [] }),
    .when (!keep) [putN .dramEnable c 0 0],
    putN .dramRepairPending c 0 1]

/-- DRAM_CFG (R506, R509). -/
def dramCfgBeh (c v : Nat) : Beh :=
  beh (fun _ => if v ≠ 0 ∧ dramCap v = 0 then 0x0302 else 0)
    (fun d => if 2 ≤ d.num .dramState c then 0x0401 else 0)
    fun _ => .done (.all [putN .dramCfg c 0 v, putN .dramCapacity c 0 (dramCap v), dramTo c (if v = 0 then 0 else 1) 0]) []

/-- A write of DRAM_CFG. -/
def execDramCfgWrite (o : Origin) (c : Fin 8) (v : BitVec 8) (s : State) : Host.Outcome State Fault Refusal :=
  s.run (serveWrite o .dramCfg c.val 0 (.num v.toNat) (dramCfgBeh c.val v.toNat))

/-- DRAM_SPEED (R507). -/
def dramSpeedBeh (v : Nat) : Beh :=
  beh (fun _ => if [3200, 4000, 4800, 5600, 6400].contains v then 0 else 0x0302)
    (fun d => if (List.range 8).any fun c => decide (2 ≤ d.num .dramState c) then 0x0401 else 0)
    fun _ => .done (putN .dramSpeed 0 0 v) []

/-- A write of DRAM_SPEED. -/
def execDramSpeedWrite (o : Origin) (v : BitVec 16) (s : State) : Host.Outcome State Fault Refusal :=
  s.run (serveWrite o .dramSpeed 0 0 (.num v.toNat) (dramSpeedBeh v.toNat))

/-- DRAM_ADDR_ORDER (R513). -/
def dramOrderBeh (c v : Nat) : Beh :=
  beh (fun _ => if 2 < v then 0x0302 else 0) (fun d => if 2 ≤ d.num .dramState c then 0x0401 else 0)
    fun _ => .done (putN .dramAddrOrder c 0 v) []

/-- DRAM_ENABLE (R510, R511, R523). -/
def dramEnableBeh (c v : Nat) : Beh :=
  beh (fun _ => 0)
    (fun d => firstAbort [
      (v == 1 && d.num .dramState c == 0, 0x0401),
      (v == 1 && d.num .dramState c == 6 && d.num .dramRepairPending c == 1, 0x0402)])
    fun d =>
      let st := d.num .dramState c
      let p := Prog.all [
        putN .dramEnable c 0 v,
        .when (v == 1 && (st == 1 || st == 6)) [dramTrain c],
        .when (v == 1 && st == 4) [dramTo c 3 0],
        .when (v == 0 && st == 3) [dramTo c 4 0],
        .when (v == 0 && st == 2) [dramDisable c]]
      if d.sec.trngOff ∧ v = 1 ∧ (st = 1 ∨ st = 6) then .abort 0x0701 p else .done p []

/-- A write of DRAM_ENABLE. -/
def execDramEnableWrite (o : Origin) (c : Fin 8) (v : BitVec 8) (s : State) : Host.Outcome State Fault Refusal :=
  s.run (serveWrite o .dramEnable c.val 0 (.num v.toNat) (dramEnableBeh c.val v.toNat))

/-- Whether a channel is held in an instance reset. -/
def Dev.dramHeld (d : Dev) (c : Nat) : Bool := d.clk.insts.contains (0x300 + c)

/-- Training succeeds (R510). -/
def execDramTrainingComplete (c : Fin 8) (s : State) : Host.Outcome State Fault Refusal :=
  s.run (.ask fun d => .when (d.answers && d.num .dramState c.val == 2 && !d.dramHeld c.val)
    [putN .dramTrainResult c.val 0 0, dramTo c.val 3 0])

/-- A byte lane has no passing window at a step of Table 18.4 (R511). -/
def execDramTrainingFail (c : Fin 8) (step : Fin 16) (lanesA lanesB : Fin 32) (s : State) : Host.Outcome State Fault Refusal :=
  s.run (.ask fun d => .when (d.answers && d.num .dramState c.val == 2 && !d.dramHeld c.val) [
    putN .dramTrainResult c.val 0 (step.val * 2 ^ 28 + lanesB.val * 32 + lanesA.val),
    dramFail c.val 1 false])

/-- A Draining channel is empty (R523). -/
def execDramDrainComplete (c : Fin 8) (s : State) : Host.Outcome State Fault Refusal :=
  s.run (.ask fun d => .when (d.answers && d.num .dramState c.val == 4 && d.chanHeld c.val == 0) [dramDisable c.val])

/-- A retrain falls due (R512); in self-refresh it waits for the exit. -/
def execDramRetrain (c : Fin 8) (s : State) : Host.Outcome State Fault Refusal :=
  s.run (.ask fun d => .when (d.answers && d.num .dramState c.val == 3) [dramCount c.val 7 1])

/-- What event 401 + 2c names: CODE 1 an uncorrectable burst, 2 the corrected-burst alarm, 3 a change of refresh rate, 4 a device above its rated
temperature. -/
def dramEvent (c code : Nat) : Prog := raise (401 + 2 * c) c code

/-- The refresh rate changes, and the channel retrains (R512, R518). -/
def dramRate (c rate : Nat) : Prog := .all [putN .dramRefreshRate c 0 rate, dramEvent c 3, dramCount c 7 1]

/-- MR4 of every device is read (R518): whether any needs the doubled rate, and whether any is above its rated range. One above it does not report the
normal rate. -/
def execDramMr4Poll (c : Fin 8) (doubled above : Bool) (s : State) : Host.Outcome State Fault Refusal :=
  s.run (.ask fun d =>
    let n := (SMap.get DramCh.none d.dram c.val).normals + 1
    let rate := d.num .dramRefreshRate c.val
    .when (d.answers && (d.num .dramState c.val == 3 || d.num .dramState c.val == 4)) [
      .eff (.dram c.val fun x => { x with normals := if doubled || above then 0 else n }),
      .when ((doubled || above) && rate == 1) [dramRate c.val 2],
      .when (!doubled && !above && rate == 2 && decide (2 ≤ n)) [dramRate c.val 1],
      .when above [dramEvent c.val 4]])

/-- Whether a queued request of a subchannel hits the open row of a bank. -/
def Dev.bankHits (d : Dev) (c sub bank : Nat) : Bool :=
  let s := d.dsub c sub
  (s.queued true ++ s.queued false).any fun x =>
    let a := d.place c x.burst
    a.bank == bank && SMap.get 0 s.rows bank == a.row + 1

/-- A refresh of a bank falls due and is issued, which closes the bank's row, or it is postponed while the bank serves row hits and fewer than four are
(R517). -/
def execDramRefresh (c : Fin 8) (sub : Fin 2) (bank : Fin 64) (postpone : Bool) (s : State) : Host.Outcome State Fault Refusal :=
  s.run (.ask fun d =>
    let k := 64 * sub.val + bank.val
    let p := SMap.get 0 (SMap.get DramCh.none d.dram c.val).postponed k
    let later := postpone && decide (p < 4) && d.bankHits c.val sub.val bank.val
    .when (d.answers && (d.num .dramState c.val == 3 || d.num .dramState c.val == 4)) [
      .eff (.dram c.val fun x => { x with postponed := SMap.put 0 k (if later then p + 1 else 0) x.postponed }),
      if later then dramCount c.val 6 1 else subUpd c.val sub.val fun x => { x with rows := SMap.put 0 bank.val 0 x.rows }])

/-- ALERT_N falls on a subchannel: its last 32 writes are reissued in order, and the third fall within 10 µs fails the channel (R520). -/
def execDramAlert (c : Fin 8) (sub : Fin 2) (s : State) : Host.Outcome State Fault Refusal :=
  s.run (.ask fun d =>
    let now := d.nowNs
    let l := ((SMap.get [] (SMap.get DramCh.none d.dram c.val).falls sub.val).filter fun t => decide (now ≤ t + 10000)) ++ [now]
    .when (d.answers && (d.num .dramState c.val == 3 || d.num .dramState c.val == 4)) [
      dramCount c.val 5 1,
      .each (d.dsub c.val sub.val).last fun b => sendDram c.val sub.val true b,
      .eff (.dram c.val fun x => { x with falls := SMap.put [] sub.val l x.falls }),
      .when (decide (3 ≤ l.length)) [dramFail c.val 3 false]])

/-- The oldest read issued on a subchannel returns (R519): 0 clean, 1 corrected, 2 uncorrectable, which marks its packet errored. -/
def execDramReadComplete (c : Fin 8) (sub : Fin 2) (outcome : Fin 3) (s : State) : Host.Outcome State Fault Refusal :=
  s.run (.ask fun d =>
    let x := SMap.get DramCh.none d.dram c.val
    let unc := (x.unc.filter fun t => decide (d.nowNs ≤ t + 1000000)) ++ [d.nowNs]
    let ce := (if x.ceSec = d.tim.secs then x.ce else 0) + 1
    let st := d.num .dramState c.val
    match (d.dsub c.val sub.val).out with
    | [] => .skip
    | b :: r => .when (d.answers && (st == 3 || st == 4 || st == 5)) [
      subUpd c.val sub.val fun y => { y with out := r },
      dramCount c.val 1 1,
      burstRead c.val b (outcome.val == 2),
      match outcome.val with
      | 0 => .skip
      | 1 => .all [
          dramCount c.val 3 1,
          .eff (.dram c.val fun y => { y with ceSec := d.tim.secs, ce := ce }),
          .when (d.num .dramCeAlarm != 0 && ce == d.num .dramCeAlarm + 1) [dramEvent c.val 2]]
      | _ => .all [
          dramCount c.val 4 1, dramEvent c.val 1,
          .eff (.dram c.val fun y => { y with unc := unc }),
          .when (decide (d.num .dramFailThreshold < unc.length)) [dramFail c.val 2 false]]])

/-- The repair of the queues completes (R625): every packet with a cell on the channel is dropped. After an instance reset that has ended the
channel trains (R524). -/
def execDramRepairComplete (c : Fin 8) (s : State) : Host.Outcome State Fault Refusal :=
  s.run (.ask fun d =>
    let lost (p : QPkt) := p.onChan c.val
    .when (d.answers && d.num .dramRepairPending c.val == 1) [
      .each d.tm.queues fun e => .each (e.2.filter lost) fun _ => tmDrop 9 (some e.1),
      .eff (.tm fun t => { t with
        queues := d.busyQueues.foldl (fun m q => SMap.upd [] q (fun l => l.filter fun p => !lost p) m) t.queues }),
      putN .dramRepairPending c.val 0 0,
      raise 486 c.val 0 ((d.tm.queues.map fun e => (e.2.filter lost).length).sum % 2 ^ 32),
      poolCheck,
      .when (d.num .dramState c.val == 6 && d.num .dramEnable c.val == 1 && !d.dramHeld c.val) [dramTrain c.val]])

end Sys2Proof.Machine
end

