-- ==== Sys2Proof/Machine/Tables.lean ====
section
/-!
DEFINITION. Forwarding tables (spec/16): table numbers and entries (Tables 16.1 to 16.9), hashing, relocation and the stash,
learning and aging, and the table commands (R463 to R467).
-/
namespace Sys2Proof.Machine

/-! ## Tables (R445, R446, R504) -/

/-- A place takes an entry. -/
def putRow (t ix : Nat) (e : List Byte) : Prog := .eff (.tbl (tblKey t ix) e)

/-! ## Entry checks -/

/-- Whether every byte of a stretch is zero. -/
def zeroAt (e : List Byte) (off len : Nat) : Bool := beAt e off len == 0

/-- An action word whose opcode, operand bits and operand are all allowed (R435, Table 15.7). -/
def actionOk (w : Nat) : Bool :=
  let op := w / 2 ^ 27
  let x := w % 2 ^ 27
  match op with
  | 0x00 => x == 0
  | 0x01 => x == 0
  | 0x02 => decide (x < 8)
  | 0x03 => decide (x < 131072)
  | 0x04 => decide (x < 112)
  | 0x05 => decide (x < 256)
  | 0x06 => x % 2048 == 0 && decide (x / 32768 < 2080)
  | 0x07 => decide (x < 1048576)
  | 0x08 => decide (x < 2097152)
  | 0x09 => decide (x < 16)
  | 0x0A => x % 512 == 0
  | 0x0B => decide (1 ≤ x) && decide (x ≤ 4)
  | 0x0C => x % 8 == 0
  | 0x0D => decide (1 ≤ x) && decide (x ≤ 4)
  | 0x0E => decide (x < 16384)
  | 0x0F => decide (x < 2)
  | 0x10 => decide (x < 64)
  | _ => false

/-- The action words in a stretch of an entry. -/
def wordsAt (e : List Byte) (off n : Nat) : List Nat := (List.range n).map fun i => beAt e (off + 4 * i) 4

/-- An exact-match key of a type Table 16.6 lists, its reserved bits zero (R452). -/
def emKeyOk (e : List Byte) : Bool :=
  let k := beAt e 0 16
  match k / 2 ^ 124 with
  | 1 => bitsOf k 60 64 == 0
  | 2 => k % 256 == 0
  | 3 => bitsOf k 20 104 == 0
  | _ => false

/-- A route's key and result (R461); `w` is the width of the family's addresses. -/
def routeKeyOk (t : Nat) (e : List Byte) : Bool :=
  let w := if t = 2 then 32 else 128
  let len := beAt e 18 1
  decide (beAt e 16 2 < 4096) && beAt e 19 1 == (if t = 2 then 4 else 6) && decide (len ≤ w)
    && decide (beAt e 0 16 < 2 ^ w) && beAt e 0 16 % 2 ^ (w - len) == 0

def routeOk (t : Nat) (e : List Byte) : Bool :=
  let r := beAt e 20 4
  routeKeyOk t e && bitsOf r 18 12 == 0 && (r / 2 ^ 30 != 1 || decide (r % 2 ^ 18 < 4096))
    && zeroAt e 24 4 && beAt e 28 4 % 2 ^ 29 == 0

/-- A meter entry (R489). -/
def meterOk (e : List Byte) : Bool :=
  let mode := beAt e 0 1
  let ovh := toInt 8 (beAt e 2 1)
  let cir := beAt e 4 4
  let pir := beAt e 8 4
  let cbs := beAt e 12 4
  let ebs := beAt e 16 4
  decide (mode < 3) && beAt e 1 1 % 64 == 0 && zeroAt e 3 1 && zeroAt e 28 4
    && decide (-64 ≤ ovh) && decide (ovh ≤ 64)
    && (mode == 0 || decide (8 ≤ cir) && decide (cir ≤ 1600000000))
    && (mode != 2 || decide (cir ≤ pir) && ebs != 0) && (mode != 1 || pir == 0)
    && cbs != 0 && decide (cbs ≤ 16777216) && decide (ebs ≤ 16777216)

/-- Whether an INSERT's entry is within range (R303, R435, R452, R461, R462, R489). -/
def rowOk (t : Nat) (e : List Byte) : Bool :=
  match t with
  | 1 => emKeyOk e && (wordsAt e 16 3).all actionOk && beAt e 28 4 % 4096 == 0
  | 2 => routeOk 2 e
  | 3 => routeOk 3 e
  | 4 => (wordsAt e 0 7).all actionOk && beAt e 28 4 % 2 ^ 31 == 0
  | 5 => let w := beAt e 0 8
         w % 2 ^ 39 == 0 && decide (bitsOf w 45 18 + bitsOf w 39 6 ≤ 262143)
  | 6 => let k := beAt e 0 8
         k % 2 ^ 40 == 0 && bitsOf (beAt e 8 8) 21 35 == 0 && bitsOf k 40 20 != 0 && bitsOf k 40 20 != 0xFFFFF
  | 7 => (wordsAt e 80 8).all actionOk && beAt e 112 4 % 2 ^ 29 == 0 && zeroAt e 116 12
  | 8 => decide (1 ≤ beAt e 0 1) && decide (beAt e 0 1 ≤ 9) && zeroAt e 1 3 && zeroAt e 20 12
  | 16 => meterOk e
  | _ => true

/-- Whether the key fields of a SEARCH or DELETE are within range and its other fields zero (Table 16.10). -/
def rowKeyOk (t : Nat) (e : List Byte) : Bool :=
  match t with
  | 1 => emKeyOk e && zeroAt e 16 12 && beAt e 28 4 % 2 ^ 29 == 0 && decide (beAt e 28 4 < 2 ^ 31)
  | 6 => beAt e 0 8 % 2 ^ 40 == 0 && decide (beAt e 0 8 < 2 ^ 62) && zeroAt e 8 8
  | _ => routeKeyOk t e && zeroAt e 20 8 && beAt e 28 4 % 2 ^ 29 == 0 && decide (beAt e 28 4 < 2 ^ 31)

/-- The key of an entry of a keyed table. -/
def rowKey (t : Nat) (e : List Byte) : Nat :=
  match t with
  | 1 => beAt e 0 16
  | 6 => beAt e 0 8 / 2 ^ 40 % 2 ^ 22
  | _ => beAt e 0 19

/-- The epoch bits of an entry: ODD, EVEN. A stream entry has none and counts as both (R303). -/
def rowEpochs (t : Nat) (e : List Byte) : Nat := if t = 6 then 3 else bitsOf (beAt e 28 4) 29 2

/-- The entry SEARCH and DELETE act on (R453). -/
def Dev.rowSame (d : Dev) (t : Nat) (e : List Byte) : Option (Nat × List Byte) :=
  (d.rows t).find? fun x => rowKey t x.2 == rowKey t e && rowEpochs t x.2 == rowEpochs t e

/-- The entry INSERT finds: its key is equal and the two share an epoch bit (R453). -/
def Dev.rowClash (d : Dev) (t : Nat) (e : List Byte) : Option (Nat × List Byte) :=
  (d.rows t).find? fun x => rowKey t x.2 == rowKey t e && rowEpochs t x.2 &&& rowEpochs t e != 0

/-! ## Exact-match entries: fields and places (R452 to R455) -/

/-- The entry with another CONTROL. -/
def emWith (e : List Byte) (c : Nat) : List Byte := patch e 28 (beBytes 4 c)
/-- The entry with its age refreshed. -/
def emRefresh (e : List Byte) (now : Nat) : List Byte := emWith e (putBits (emControl e) 19 8 now)

/-- Slots of a key's bucket in a half (0 A, 1 B) (R454). -/
def Dev.bucket (d : Dev) (half : Nat) (key : List Byte) : List Nat :=
  let n := d.tblCap 1 / 8
  let b := (if half = 0 then crc32c key else crcHalfB key) % n
  (List.range 4).map fun s => half * 2 ^ 30 + b * 4 + s

/-- The half a placed entry lies in. -/
def halfOf (loc : Nat) : Nat := loc / 2 ^ 30 % 2

/-- The first free place of a list. -/
def Dev.freeOf (d : Dev) (l : List Nat) : Option Nat := l.find? fun s => (d.row 1 s).isEmpty

/-- The breadth-first search for a chain of at most 4 moves, at most 128 examined (R455): each path lists places whose
occupants move, first to last; the answer ends in a free place. A STATIC entry is never moved. -/
def relocate (d : Dev) : Nat → List (List Nat) → Option (List Nat)
  | 0, _ => none
  | _, [] => none
  | fuel + 1, p :: rest =>
    let loc := p.getLastD 0
    let e := d.row 1 loc
    let other := d.bucket (1 - halfOf loc) (e.take 16)
    if emStatic e then relocate d fuel rest
    else match d.freeOf other with
      | some f => some (p ++ [f])
      | none => relocate d fuel (if p.length < 4 then
          rest ++ (other.filter fun s => !p.contains s).map fun s => p ++ [s] else rest)

/-- The moves of a chain, from its free end backwards. -/
def chainMoves (d : Dev) : List Nat → List (Nat × Nat)
  | a :: b :: r => chainMoves d (b :: r) ++ [(a, b)]
  | _ => []

/-- Where a new exact-match entry goes, and the chain that makes room for it. -/
def Dev.emPlace (d : Dev) (key : List Byte) : Option (Nat × List Nat) :=
  let a := d.bucket 0 key
  let b := d.bucket 1 key
  match d.freeOf a with
  | some s => some (s, [])
  | none => match d.freeOf b with
    | some s => some (s, [])
    | none => match relocate d 128 ((a ++ b).map fun s => [s]) with
      | some (s :: r) => some (s, s :: r)
      | _ => match d.freeOf ((List.range 64).map fun s => 2 ^ 31 + s) with
        | some s => some (s, [])
        | none => none

/-- Event 345 when the stash reaches 48 entries; again only after it has fallen below 32 (R456). -/
def stashCheck : Prog :=
  .ask fun d =>
    let n := ((d.rows 1).filter fun e => 2 ^ 31 ≤ e.1).length
    .all [
      .when (!d.fwd.stashHot && decide (48 ≤ n)) [raise 345, .eff (.fwd fun f => { f with stashHot := true })],
      .when (d.fwd.stashHot && decide (n < 32)) [.eff (.fwd fun f => { f with stashHot := false })]]

/-- A new exact-match entry is placed, after the moves that make room. -/
def emPut (e : List Byte) (loc : Nat) (chain : List Nat) : Prog :=
  .ask fun d => .all [
    .each (chainMoves d chain) fun m => .ask fun x => .all [putRow 1 m.2 (x.row 1 m.1), putRow 1 m.1 []],
    putRow 1 loc e, stashCheck]

/-! ## Learned entries (R457 to R459) -/

/-- The subscriber a bridge domain counts toward, and learned entries of a subscriber. -/
def Dev.bdSub (d : Dev) (bd : Nat) : Option Nat :=
  let w := d.num .fwdBd 0 bd
  if bitOf w 30 then some (bitsOf w 15 15) else none
def Dev.learnedOf (d : Dev) (sub : Nat) : Nat :=
  ((d.rows 1).filter fun e => emLearned e.2 && beAt e.2 0 16 / 2 ^ 124 == 1 && d.bdSub (emBd e.2) == some sub).length

/-- Whether a port's, or a bridge domain's subscriber's, count has reached its limit (R459). -/
def Dev.portLimited (d : Dev) (q : Nat) : Bool :=
  let m := d.num .fwdPortLearnLimit 0 q
  m != 0 && decide (m ≤ d.learnedOn q)
def Dev.subLimited (d : Dev) (bd : Nat) : Bool :=
  let m := d.num .fwdSubLearnLimit
  match d.bdSub bd with
  | some s => m != 0 && decide (m ≤ d.learnedOf s)
  | none => false

/-- Counts have changed for a learned entry's port and bridge domain: events 347 and 348 when a limit is reached, once until the
count has fallen below it. -/
def limitCheck (q bd : Nat) : Prog :=
  .ask fun d =>
    let hot (k : Nat) := SMap.get false d.fwd.limitHot k
    let set (k : Nat) (b : Bool) : Prog := .eff (.fwd fun f => { f with limitHot := SMap.put false k b f.limitHot })
    .all [
      .when (d.portLimited q && !hot q) [raise 347 q, set q true],
      .when (!d.portLimited q && hot q) [set q false],
      match d.bdSub bd with
      | some s => .all [
          .when (d.subLimited bd && !hot (256 + s)) [raise 348 s, set (256 + s) true],
          .when (!d.subLimited bd && hot (256 + s)) [set (256 + s) false]]
      | none => .skip]

/-- A notification (R468) about an entry of a table to the ring FWD_LEARN_NOTIFY names. -/
def notifyOf (t op loc : Nat) (e : List Byte) : Prog :=
  .ask fun d =>
    let w := d.num .fwdLearnNotify
    let r := w % 4096
    .when (bitOf w 31) [
      if d.ringLive r && !(d.ringSt r).posted.isEmpty then
        ringFill r 0 (beBytes 1 op ++ [0] ++ beBytes 2 t ++ beBytes 4 loc ++ zeros 24 ++ e)
      else .all [count .fwdNotifyDrops, raiseRated 355]]

/-- A notification about an exact-match entry. -/
def notify (op loc : Nat) (e : List Byte) : Prog := notifyOf 1 op loc e

/-- An entry with its VALID clear; a table without one has none to clear. -/
def clearValid (t : Nat) (e : List Byte) : List Byte :=
  let at4 (off : Nat) := patch e off (beBytes 4 (beAt e off 4 % 2 ^ 31))
  if t ≤ 4 then at4 28 else if t ≤ 6 then at4 0 else if t = 7 then at4 112 else e

/-- An exact-match entry leaves its place: a stash entry of the freed bucket moves in (R456), and counts fall (R459). -/
def emRemove (loc : Nat) : Prog :=
  .ask fun d =>
    let e := d.row 1 loc
    .all [
      putRow 1 loc [],
      .when (decide (loc < 2 ^ 31)) [.ask fun x =>
        match (x.rows 1).find? (fun y => decide (2 ^ 31 ≤ y.1) && (x.bucket (halfOf loc) (y.2.take 16)).contains loc) with
        | some y => .all [putRow 1 loc y.2, putRow 1 y.1 []]
        | none => .skip],
      stashCheck,
      .when (emLearned e) [limitCheck (emPort e) (emBd e)]]

/-- A key's 16 bytes of type 1: bridge domain and MAC. -/
def bridgeKey (bd mac : Nat) : List Byte := beBytes 16 (2 ^ 124 + bd % 4096 * 2 ^ 48 + mac % 2 ^ 48)

/-- A learned entry (R457): word 0 is REDIRECT_PORT of the ingress port. -/
def learnedEntry (l : Learn) (now : Nat) : List Byte :=
  bridgeKey l.bd l.mac ++ beBytes 4 (4 * 2 ^ 27 + l.port) ++ zeros 8
    ++ beBytes 4 (2 ^ 31 + 2 ^ 30 + 2 ^ 29 + 2 ^ 27 + now % 256 * 2 ^ 19 + l.port % 128 * 2 ^ 12)

/-- A learn is discarded with its cause: 1 queue full, 2 table full, 3 the other epoch, 4 flush (R458). -/
def learnDrop (cause : Nat) : Prog := .all [count .fwdLearnDrops, raise 346 noInst cause]

/-- Whether a flush in progress covers a port (R458). -/
def Dev.flushing (d : Dev) (q : Nat) : Bool :=
  d.fwd.flushes.any fun f => let s := beAt f.cmd 12 4
    !bitOf s 31 || bitsOf s 16 7 == q

/-- The learning unit takes the oldest queued learn (R458), under the configuration epoch of its packet (R45). -/
def execLearnInsert (s : State) : Host.Outcome State Fault Refusal :=
  s.run (live (.ask fun d =>
    match d.fwd.learns with
    | [] => .skip
    | l :: _ =>
      let e := learnedEntry l (d.num .fwdAgeNow)
      let c := d.asOf l.cfgEpoch
      .all [
        .eff (.fwd fun f => { f with learns := f.learns.tail }),
        if d.num .fwdCarveState = 1 then .skip
        else if d.flushing l.port then learnDrop 4
        else if c.portLimited l.port || c.subLimited l.bd then notify 0x84 0 (emWith e (putBit (emControl e) 31 false))
        else if (d.rowClash 1 e).isSome then learnDrop 3
        else match d.emPlace (e.take 16) with
          | none => .all [count .fwdInsertFull, raise 344, learnDrop 2]
          | some p => .all [emPut e p.1 p.2, count .fwdLearns, notify 0x81 p.1 e, limitCheck l.port l.bd]]))

/-- FWD_AGE_TICK has passed: FWD_AGE_NOW moves on and old entries go (R460). -/
def execAgeTick (s : State) : Host.Outcome State Fault Refusal :=
  s.run (.ask fun d =>
    let now := (d.num .fwdAgeNow + 1) % 256
    let lim := d.num .fwdAgeLimit
    .when d.answers [
      putN .fwdAgeNow 0 0 now,
      .when (lim != 0) [.each ((d.rows 1).filter fun e => !emStatic e.2 && decide (lim ≤ (now + 256 - emAge e.2) % 256)) fun e =>
        .all [emRemove e.1, count .fwdAged, notify 0x83 e.1 e.2]]])

/-- The scrubber finds an uncorrectable entry of a table at a place (R448). -/
def execScrubPass (table : Fin 32) (place : BitVec 32) (s : State) : Host.Outcome State Fault Refusal :=
  s.run (live (.ask fun d =>
    let e := d.row table.val place.toNat
    .when (!e.isEmpty && tblEntry table.val != 0) [
      if table.val = 1 then emRemove place.toNat else putRow table.val place.toNat [],
      count .fwdMemErrors, raise 354,
      notifyOf table.val 0x85 place.toNat (clearValid table.val e)]))

/-! ## Table commands (R463 to R467) -/

/-- Fields of a table command (Table 16.10). -/
def tcOp (c : List Byte) : Nat := beAt c 0 1
def tcFlags (c : List Byte) : Nat := beAt c 1 1
def tcTable (c : List Byte) : Nat := beAt c 2 2
def tcIndex (c : List Byte) : Nat := beAt c 4 4
def tcSelect (c : List Byte) : Nat := beAt c 12 4
def tcEntry (c : List Byte) : List Byte := c.drop 32

/-- Whether a command carries an entry. -/
def tcHasEntry (c : List Byte) : Bool := tcOp c == 3 || ((tcOp c == 1 || tcOp c == 4) && tblKeyed (tcTable c))

/-- Status 0x04 (Table 16.12): a reserved opcode, table, flag, field or value, or an index at or above capacity. -/
def Dev.tcRange (d : Dev) (c : List Byte) : Bool :=
  let op := tcOp c
  let t := tcTable c
  let ix := tcIndex c
  let indexed := !tblKeyed t && (op == 1 || op == 3 || op == 4)
  decide (op = 0) || decide (7 < op) || tblEntry t == 0
    || (op == 5 && t != 1)
    || tcFlags c &&& (if op = 3 then 0x7F else if op = 5 then 0xBF else 0xFF) != 0
    || (if indexed then decide (d.tblCap t ≤ ix) else op != 2 && ix != 0)
    || (if op = 5 then tcSelect c / 2 ^ 30 == 0 || bitsOf (tcSelect c) 23 7 != 0 || bitsOf (tcSelect c) 12 4 != 0
        else tcSelect c != 0)
    || !zeroAt c 16 16
    || c.length != 32 + (if tcHasEntry c then tblEntry t else 0)
    || (op == 3 && !rowOk t (tcEntry c))
    || ((op == 1 || op == 4) && tblKeyed t && !rowKeyOk t (tcEntry c))

/-- Whether a host other than the owner's link asks (R156). -/
def Dev.tcForeign (d : Dev) (code t : Nat) : Bool :=
  isHost code && match d.ownerLink (tblGroup t) with
    | some l => l != hostLink code
    | none => false

/-- Whether a host function has a live lease. -/
def Dev.leaseLive (d : Dev) (code : Nat) : Bool := isHost code && (d.fn (hostKey code)).live

/-- Holder of a table's lock. -/
def Dev.tblLock (d : Dev) (t : Nat) : Option Nat :=
  let v := SMap.get 0 d.fwd.locks t
  if v = 0 then none else some (v - 1)

/-- Status 0x06 (Table 16.12). -/
def Dev.tcDenied (d : Dev) (code : Nat) (c : List Byte) : Bool :=
  let t := tcTable c
  let op := tcOp c
  d.tcForeign code t
    || (t == 6 && isHost code && (op == 4 || op == 3) &&
        (match d.rowClash 6 (tcEntry c) with
         | some x => !bitOf (beAt x.2 0 8) 62 && (op == 4 || bitOf (tcFlags c) 7)
         | none => false))
    || (op == 6 && !d.leaseLive code)
    || (op == 7 && d.tblLock t != some code)

/-- Status 0x05. -/
def Dev.tcLocked (d : Dev) (code : Nat) (c : List Byte) : Bool :=
  match d.tblLock (tcTable c) with
  | some h => (tcOp c == 6) || ((tcOp c == 3 || tcOp c == 4 || tcOp c == 5) && h != code)
  | none => false

/-- What a table command comes to: status, INDEX, COUNT and ENTRY of its response, and its effect. -/
structure TblRes where
  status : Nat
  index : Nat
  cnt : Nat
  entry : List Byte
  eff : Prog

/-- A status alone. -/
def tblStat (s : Nat) : TblRes := ⟨s, 0, 0, [], .skip⟩

/-- The entry as a response carries it: a meter's buckets as they stand. -/
def Dev.rowShown (d : Dev) (t ix : Nat) (e : List Byte) : List Byte :=
  if t = 16 then
    let m := SMap.get Meter.none d.tm.meters ix
    patch (patch e 20 (beBytes 4 (m.c / 65536))) 24 (beBytes 4 (m.e / 65536))
  else if t = 17 then padTo 16 e
  else e

/-- The entry as INSERT stores it: LEARNED and AGE (Table 16.5), CREATOR (R303) and buckets (Table 17.5) are the device's. -/
def Dev.rowStored (d : Dev) (code t : Nat) (e : List Byte) : List Byte :=
  match t with
  | 1 => emWith e (putBits (putBit (emControl e) 27 false) 19 8 (d.num .fwdAgeNow))
  | 6 => beBytes 8 (putBit (beAt e 0 8) 62 (code != 0x0200)) ++ e.drop 8
  | 16 => patch e 20 (zeros 8)
  | 17 => if e.all (· == 0) then [] else e
  | _ => e

/-- The first place of a table of which nothing is stored, from `k` upward. -/
def firstGap : List Nat → Nat → Nat
  | [], k => k
  | x :: r, k => if x = k then firstGap r (k + 1) else k

/-- A meter starts with both buckets full (R489). -/
def meterFull (ix : Nat) (e : List Byte) : Prog :=
  .ask fun d => .eff (.tm fun t => { t with
    meters := SMap.put Meter.none ix ⟨beAt e 12 4 * 65536, beAt e 16 4 * 65536, d.nowNs⟩ t.meters })

/-- INSERT. -/
def Dev.tblInsert (d : Dev) (code : Nat) (c : List Byte) : TblRes :=
  let t := tcTable c
  let raw := tcEntry c
  let e := d.rowStored code t raw
  let keep := if tblKeyed t && !rowValid t e then [] else e
  if !tblKeyed t then ⟨0, tcIndex c, 0, [],
    .all [putRow t (tcIndex c) e, .when (t == 16) [meterFull (tcIndex c) e]]⟩
  else match d.rowClash t raw with
    | some x =>
      if !bitOf (tcFlags c) 7 then ⟨2, x.1, 0, [], .skip⟩
      else ⟨0, x.1, 0, [], .all [
        if keep.isEmpty && t == 1 then emRemove x.1 else putRow t x.1 keep,
        .when (t == 1 && emLearned x.2) [limitCheck (emPort x.2) (emBd x.2)]]⟩
    | none =>
      if keep.isEmpty then tblStat 0
      else if t = 1 then
        match d.emPlace (e.take 16) with
        | some p => ⟨0, p.1, p.2.length - 1, [], emPut e p.1 p.2⟩
        | none => ⟨3, 0, 0, [], .all [count .fwdInsertFull, raise 344]⟩
      else if d.tblCap t ≤ (d.rows t).length then ⟨3, 0, 0, [], .when (t == 2 || t == 3) [raise 353]⟩
      else
        let loc := firstGap ((d.rows t).map (·.1)) 0
        ⟨0, loc, 0, [], putRow t loc e⟩

/-- SEARCH. -/
def Dev.tblSearch (d : Dev) (c : List Byte) : TblRes :=
  let t := tcTable c
  if tblKeyed t then
    match d.rowSame t (tcEntry c) with
    | some x => ⟨0, x.1, 0, x.2, .skip⟩
    | none => tblStat 1
  else
    let e := d.rowShown t (tcIndex c) (d.row t (tcIndex c))
    if rowValid t (if t = 17 then e else d.row t (tcIndex c)) then ⟨0, tcIndex c, 0, e, .skip⟩ else tblStat 1

/-- NEXT: the first valid entry after the cursor, in location order; the stash lies last (R465). -/
def Dev.tblNext (d : Dev) (c : List Byte) : TblRes :=
  let t := tcTable c
  let past (i : Nat) := tcIndex c == 0xFFFFFFFF || decide (tcIndex c < i)
  if t = 17 then
    let i := if tcIndex c = 0xFFFFFFFF then 0 else tcIndex c + 1
    if i < d.tblCap 17 then ⟨0, i, 0, d.rowShown 17 i (d.row 17 i), .skip⟩ else ⟨1, 0xFFFFFFFF, 0, [], .skip⟩
  else match (d.rows t).find? fun x => past x.1 && rowValid t x.2 with
    | some x => ⟨0, x.1, 0, d.rowShown t x.1 x.2, .skip⟩
    | none => ⟨1, 0xFFFFFFFF, 0, [], .skip⟩

/-- DELETE. -/
def Dev.tblDelete (d : Dev) (c : List Byte) : TblRes :=
  let t := tcTable c
  if tblKeyed t then
    match d.rowSame t (tcEntry c) with
    | some x => ⟨0, x.1, 0, [], if t = 1 then emRemove x.1 else putRow t x.1 []⟩
    | none => tblStat 1
  else if rowValid t (d.row t (tcIndex c)) then ⟨0, tcIndex c, 0, [], putRow t (tcIndex c) []⟩
  else tblStat 1

/-- The entries a FLUSH removes (R465). -/
def Dev.flushSet (d : Dev) (c : List Byte) : List (Nat × List Byte) :=
  let s := tcSelect c
  (d.rows 1).filter fun e => !emStatic e.2
    && (!bitOf s 31 || emPort e.2 == bitsOf s 16 7)
    && (!bitOf s 30 || (beAt e.2 0 16 / 2 ^ 124 == 1 && emBd e.2 == s % 4096))
    && (!bitOf (tcFlags c) 6 || emLearned e.2)

/-- A command that needs no later answer, once its checks are passed. -/
def Dev.tblDo (d : Dev) (code : Nat) (c : List Byte) : TblRes :=
  match tcOp c with
  | 1 => d.tblSearch c
  | 2 => d.tblNext c
  | 3 => d.tblInsert code c
  | 4 => d.tblDelete c
  | 6 => ⟨0, 0, 0, [], .eff (.fwd fun f => { f with locks := SMap.put 0 (tcTable c) (code + 1) f.locks })⟩
  | 7 => ⟨0, 0, 0, [], .eff (.fwd fun f => { f with locks := SMap.put 0 (tcTable c) 0 f.locks })⟩
  | _ => tblStat 0

/-- The status that refuses a command before it acts; 0 for none. Their order is the model's (log). -/
def Dev.tblRefuse (d : Dev) (code : Nat) (c : List Byte) : Nat :=
  firstAbort [
    (d.tcRange c, 4), (d.tcDenied code c, 6),
    (d.num .fwdCarveState == 1 && decide (tcTable c ≤ 3), 7), (d.tcLocked code c, 5)]

/-- A command's result. -/
def Dev.tblRun (d : Dev) (code : Nat) (c : List Byte) : TblRes :=
  if d.tblRefuse code c ≠ 0 then tblStat (d.tblRefuse code c) else d.tblDo code c

/-- A table response (Table 16.11). -/
def tblResp (c : List Byte) (r : TblRes) : List Byte :=
  beBytes 1 (tcOp c) ++ beBytes 1 r.status ++ beBytes 2 (tcTable c) ++ beBytes 4 r.index ++ slice c 8 4
    ++ beBytes 4 r.cnt ++ zeros 16 ++ r.entry

/-- Whether a command starts a FLUSH. -/
def Dev.startsFlush (d : Dev) (code : Nat) (c : List Byte) : Bool := d.tblRefuse code c == 0 && tcOp c == 5

/-- A FLUSH begins: its entries go, and its answer is owed until it completes. -/
def flushStart (src : TblFrom) (c : List Byte) : Prog :=
  .ask fun d => .all [
    .each (d.flushSet c) fun e => emRemove e.1,
    .eff (.fwd fun f => { f with flushes := f.flushes ++ [⟨src, c, (d.flushSet c).length⟩] })]

/-- A table command by the TABLEREF path (R138, R464). A length other than the command's form gives is abort 0x0301, and a
command for another table than the object's is out of range. -/
def tableBeh (table : Nat) (call : Call) (c : List Byte) : Beh :=
  beh (fun _ => if c.length < 32 then 0x0301 else 0) (fun _ => 0) fun d =>
    let code := d.codeOf call.o.path
    if tcTable c ≠ table then .done .skip (tblResp c (tblStat 4))
    else if d.startsFlush code c then .later (flushStart (.call call) c)
    else
      let r := d.tblRun code c
      if r.status = 6 then .abort 0x0201 .skip else .done r.eff (tblResp c r)

/-- The response ring of a command ring: the lowest running table response ring of the same function (log). -/
def Dev.respRing (d : Dev) (r : Nat) : Option Nat :=
  (d.rings.find? fun x => x.2.kind == 4 && x.2.state == 1 && d.ringFn x.1 == d.ringFn r).map (·.1)

/-- A response leaves on the response ring of a command ring; its command is finished. -/
def ringAnswer (r q : Nat) (data : List Byte) : Prog := .all [ringFill q 0 data, ringComplete r 0 0 0]

/-- The oldest command of a table command ring, of opcode `op`, is run once a response buffer is posted. A descriptor that
may not be used is finished with its status (R186, R187, R189). -/
def ringCommand (r op : Nat) : Prog :=
  .ask fun d =>
    let g := d.ringSt r
    match g.posted, d.respRing r with
    | x :: _, some q =>
      let c := x.buf.take (descSize x)
      let code := 0x0100 + d.ringFn r
      .when (g.kind == 3 && d.ringLive r && (tcOp c == op || (op == 1 && (tcOp c == 0 || decide (7 < tcOp c))))) [
        if d.descFate r x ≠ 0 then ringComplete r (d.descFate r x) 0 0
        else .when (!(d.ringSt q).posted.isEmpty && !d.fwd.flushes.any (fun f => f.src = .ring r)) [
          if d.startsFlush code c then flushStart (.ring r) c
          else
            let z := d.tblRun code c
            .seq z.eff (ringAnswer r q (tblResp c z))]]
    | _, _ => .skip

/-- The TABLEREF object of a table. -/
def tblObj (t : Nat) : Obj :=
  match t with
  | 2 => .fwdRoute4
  | 3 => .fwdRoute6
  | 4 => .fwdNexthop
  | 5 => .fwdEcmp
  | 6 => .frmStreamTable
  | 7 => .clsTcam
  | 8 => .clsRewrite
  | 16 => .tmMeters
  | 17 => .tmCounters
  | _ => .fwdEm

/-- A table command from either path (R138): an execute of a TABLEREF object, or the oldest command of a ring. -/
def tableCommand (op : Nat) : TblSrc → Prog
  | .exec o t c => serveExec o (tblObj t.val) 0 0 true (.oct c)
      (tableBeh (if tblEntry t.val = 0 then 1 else t.val) (elemReq o 3 (tblObj t.val) 0 0 (.oct c)).call c)
  | .ring r => ringCommand r.val op

/-- SEARCH. -/
def execTableSearch (src : TblSrc) (s : State) : Host.Outcome State Fault Refusal :=
  s.runIf (src.wf 1) (tableCommand 1 src)

/-- NEXT. -/
def execTableNext (src : TblSrc) (s : State) : Host.Outcome State Fault Refusal :=
  s.runIf (src.wf 2) (tableCommand 2 src)

/-- INSERT. -/
def execTableInsert (src : TblSrc) (s : State) : Host.Outcome State Fault Refusal :=
  s.runIf (src.wf 3) (tableCommand 3 src)

/-- DELETE. -/
def execTableDelete (src : TblSrc) (s : State) : Host.Outcome State Fault Refusal :=
  s.runIf (src.wf 4) (tableCommand 4 src)

/-- FLUSH. -/
def execTableFlush (src : TblSrc) (s : State) : Host.Outcome State Fault Refusal :=
  s.runIf (src.wf 5) (tableCommand 5 src)

/-- LOCK (R467). -/
def execTableLock (src : TblSrc) (s : State) : Host.Outcome State Fault Refusal :=
  s.runIf (src.wf 6) (tableCommand 6 src)

/-- UNLOCK (R467). -/
def execTableUnlock (src : TblSrc) (s : State) : Host.Outcome State Fault Refusal :=
  s.runIf (src.wf 7) (tableCommand 7 src)

/-- The oldest FLUSH finishes: its response carries the entries removed, and event 352 is raised. -/
def execFlushComplete (s : State) : Host.Outcome State Fault Refusal :=
  s.run (live (.ask fun d =>
    match d.fwd.flushes with
    | [] => .skip
    | f :: _ => .all [
        .eff (.fwd fun x => { x with flushes := x.flushes.tail }),
        raise 352 noInst 0 (tcSelect f.cmd) f.removed,
        match f.src with
        | .call c => respond c 0 (tblResp f.cmd ⟨0, 0, f.removed, [], .skip⟩)
        | .ring r => match d.respRing r with
          | some q => ringAnswer r q (tblResp f.cmd ⟨0, 0, f.removed, [], .skip⟩)
          | none => ringComplete r 0 0 0]))

/-! ## Carvings and epochs (R447, R469, R470) -/

/-- A key profile in use names a range-result chunk (R429): some port selects it. -/
def Dev.rangeChunkInUse (d : Dev) : Bool :=
  (List.range 15).any fun p =>
    ((d.oct .clsKeyProfile 0 p).take 20).any (fun c => decide (0x70 ≤ c.toNat) && decide (c.toNat ≤ 0x73))
      && (List.range 128).any fun q => (List.range 5).any fun k => bitsOf (d.num .clsProfileSelect 0 q) (4 * k) 4 == p

/-- An accepted carving change: tables 1, 2 and 3 and every learn count empty, with no notifications. -/
def carve (v : Nat) : Prog :=
  .all [putN .fwdCarveState 0 0 1,
    .eff (.dropTbl fun k => decide (1 ≤ k / 2 ^ 32) && decide (k / 2 ^ 32 ≤ 3)),
    .eff (.fwd fun f => { f with learns := [], stashHot := false, limitHot := [], carveTo := some v }),
    putN .fwdCarving 0 0 v]

/-- FWD_CARVING (R447). -/
def carvingBeh (v : Nat) : Beh :=
  beh (fun _ => if 3 < v then 0x0302 else 0)
    (fun d => if v = d.num .fwdCarving then 0 else firstAbort [
      (d.num .fwdCarving == 3 && d.rangeChunkInUse, 0x0401),
      (d.num .fwdCarveState == 1 || (d.tblLock 1).isSome || (d.tblLock 2).isSome || (d.tblLock 3).isSome, 0x0402)])
    (fun d => .done (.when (v != d.num .fwdCarving) [carve v]) [])

/-- A write of FWD_CARVING. -/
def execFwdCarvingWrite (o : Origin) (v : BitVec 8) (s : State) : Host.Outcome State Fault Refusal :=
  s.run (serveWrite o .fwdCarving 0 0 (.num v.toNat) (carvingBeh v.toNat))

/-- The carving change finishes. -/
def execCarvingComplete (s : State) : Host.Outcome State Fault Refusal :=
  s.run (live (.ask fun d => .when (d.num .fwdCarveState == 1) [putN .fwdCarveState 0 0 0, raise 351,
    .eff (.fwd fun f => { f with carveTo := none })]))

/-- FWD_EPOCH_SWITCH (R469): kind 5 of Table 20.5. -/
def epochSwitchBeh (code : Nat) (arg : List Byte) : Beh :=
  let trig := if beAt arg 1 1 = 0 then parseTrig (beAt arg 0 1) (arg.drop 2) else none
  beh (fun d => if arg.length ≠ 12 then 0x0301 else
      match trig with
      | none => 0x0302
      | some t => if d.trigAhead (d.num .clkTimingChannel) t then 0 else 0x0302)
    (fun d => firstAbort [
      (d.armConflict 5 0 [Obj.fwdTableEpoch.key 0 0], 0x0501),
      (d.num .fwdEpochStatus / 2 ^ 24 == 2, 0x0402),
      (trig.any (d.trigUnaligned (d.num .clkTimingChannel)), 0x0401),
      (d.actsFull, 0x0402)])
    (fun _ => match trig with
      | none => .abort 0x0302 .skip
      | some t => .done (armAct 5 0 t code [Obj.fwdTableEpoch.key 0 0] []) [])

/-- FWD_EPOCH_SWITCH. -/
def execFwdEpochSwitch (o : Origin) (arg : List Byte) (s : State) : Host.Outcome State Fault Refusal :=
  s.run (serveExec o .fwdEpochSwitch 0 0 (arg.length == 12) (.oct arg) (epochSwitchBeh o.code.toNat arg))

/-- The table epoch switches at its instant: draining begins (R469, R470). -/
def execTableEpochSwitchFire (s : State) : Host.Outcome State Fault Refusal :=
  s.run (live (.ask fun d => match d.pendingOn 5 0 with
    | some a => .when (d.actTurn a) [
        .eff (.disarm a.slot),
        putN .fwdTableEpoch 0 0 ((d.num .fwdTableEpoch + 1) % 2 ^ 32),
        putN .fwdEpochStatus 0 0 (2 * 2 ^ 24),
        lateAct a (d.actLate a)]
    | none => .skip))

/-- Every packet dispatched under the previous epoch has been released (R470). -/
def execEpochDrained (s : State) : Host.Outcome State Fault Refusal :=
  s.run (live (.ask fun d => .when (d.num .fwdEpochStatus / 2 ^ 24 == 2
      && d.fwd.flight.all fun p => decide (d.num .fwdTableEpoch ≤ p.tblEpoch))
    [putN .fwdEpochStatus 0 0 (3 * 2 ^ 24), raise 350]))

end Sys2Proof.Machine
end

