-- ==== Sys2Proof/Machine/Parse.lean ====
section
/-!
DEFINITION. The parser (R421 to R424), the classifier's keys (R428 to R431) and the TCAM (R434).
-/
namespace Sys2Proof.Machine

/-! ## The parse graph (Table 15.2) -/

/-- Node kinds of the parse graph. -/
inductive Node where
  | ethernet | vlan | arp | mpls | control | ipv4 | ipv6 | ext | frag | gre | udp | vxlan | geneve | tcp | icmp | pseudowire
  deriving DecidableEq, Repr

/-- A header the parser entered: its node, its first byte and its size. -/
structure Hdr where
  node : Node
  off : Nat
  size : Nat
  deriving DecidableEq, Repr

/-- What the parser found: headers in order, exceptions raised, tunnel levels. -/
structure Parsed where
  hdrs : List Hdr
  excs : List Nat
  tunnels : Nat
  deriving DecidableEq, Repr

/-- What the parser reads from the configuration. -/
structure ParseCfg where
  tpid : Nat
  vxlan : Nat
  geneve : Nat
  cwEth : Bool

/-- The parser's configuration objects. -/
def Dev.parseCfg (d : Dev) : ParseCfg :=
  ⟨d.num .prsTpidCustom, d.num .prsVxlanPort, d.num .prsGenevePort, d.num .prsMplsCwEth == 1⟩

/-- Size of a node at an offset. -/
def nodeSize (b : List Byte) (n : Node) (off : Nat) : Nat :=
  match n with
  | .ethernet => 14
  | .vlan => 4
  | .arp => b.length - off
  | .mpls => 4
  | .control => 4
  | .ipv4 => beAt b off 1 % 16 * 4
  | .ipv6 => 40
  | .ext => 8 * (beAt b (off + 1) 1 + 1)
  | .frag => 8
  | .gre => 4 + 4 * (b2n (bitOf (beAt b off 2) 15) + b2n (bitOf (beAt b off 2) 13) + b2n (bitOf (beAt b off 2) 12))
  | .udp => 8
  | .vxlan => 8
  | .geneve => 8 + 4 * (beAt b off 1 % 64)
  | .tcp => beAt b (off + 12) 1 / 16 * 4
  | .icmp => 8
  | .pseudowire => 0

/-- Whether an EtherType is a VLAN tag's. -/
def isTag (c : ParseCfg) (t : Nat) : Bool :=
  t == 0x8100 || t == 0x88A8 || t == 0x9100 || (t == c.tpid && t != 0)

/-- Successor on an EtherType. -/
def byEtherType (c : ParseCfg) (t : Nat) : Option Node :=
  if isTag c t then some .vlan
  else match t with
    | 0x0806 => some .arp
    | 0x8847 => some .mpls
    | 0x8848 => some .mpls
    | 0x0800 => some .ipv4
    | 0x86DD => some .ipv6
    | _ => none

/-- Successor on an IP protocol or next header. -/
def byProtocol (v6 : Bool) (p : Nat) : Option Node :=
  match p with
  | 6 => some .tcp
  | 17 => some .udp
  | 1 => if v6 then none else some .icmp
  | 58 => if v6 then some .icmp else none
  | 47 => some .gre
  | 4 => some .ipv4
  | 41 => some .ipv6
  | 0 => if v6 then some .ext else none
  | 43 => if v6 then some .ext else none
  | 60 => if v6 then some .ext else none
  | 44 => if v6 then some .frag else none
  | _ => none

/-- Successor of a node, and whether entering it is a new tunnel level (R422). -/
def nodeNext (c : ParseCfg) (b : List Byte) (n : Node) (off size : Nat) : Option Node × Bool :=
  let ip (v6 : Bool) (p : Nat) := (byProtocol v6 p, p == 4 || p == 41)
  match n with
  | .ethernet => (byEtherType c (beAt b (off + 12) 2), false)
  | .vlan => (byEtherType c (beAt b (off + 2) 2), false)
  | .mpls =>
    if !bitOf (beAt b off 4) 8 then (some .mpls, false)
    else if b.length ≤ off + size then (none, false)
    else match beAt b (off + size) 1 / 16 with
      | 4 => (some .ipv4, true)
      | 6 => (some .ipv6, true)
      | 0 => (some .control, true)
      | _ => (none, false)
  | .control => (if c.cwEth then some .ethernet else none, false)
  | .ipv4 => ip false (beAt b (off + 9) 1)
  | .ipv6 => ip true (beAt b (off + 6) 1)
  | .ext => ip true (beAt b off 1)
  | .gre =>
    if beAt b off 2 % 8 ≠ 0 then (none, false)
    else match beAt b (off + 2) 2 with
      | 0x0800 => (some .ipv4, true)
      | 0x86DD => (some .ipv6, true)
      | 0x6558 => (some .ethernet, true)
      | 0x8847 => (some .mpls, true)
      | _ => (none, false)
  | .udp =>
    let p := beAt b (off + 2) 2
    if p = c.vxlan then (some .vxlan, false) else if p = c.geneve then (some .geneve, false) else (none, false)
  | .vxlan => (some .ethernet, true)
  | .geneve => if beAt b (off + 2) 2 = 0x6558 then (some .ethernet, true) else (none, false)
  | _ => (none, false)

/-- A length conflict of a header that fits in the packet (R424). `ipEnd` is where the IP payload around it ends. -/
def lengthConflict (b : List Byte) (n : Node) (off ipEnd : Nat) : Bool :=
  let rest := b.length - off
  match n with
  | .ipv4 => decide (beAt b off 1 % 16 < 5) || decide (beAt b (off + 2) 2 < beAt b off 1 % 16 * 4)
      || decide (rest < beAt b (off + 2) 2)
  | .ipv6 => decide (rest - 40 < beAt b (off + 4) 2) || beAt b (off + 4) 2 == 0
  | .udp => beAt b (off + 4) 2 != ipEnd - off
  | .tcp => decide (beAt b (off + 12) 1 / 16 < 5)
  | _ => false

/-- Other exceptions a header raises. `hop` says that an extension header was entered on next header 0. -/
def headerExcs (b : List Byte) (n : Node) (off size : Nat) (hop : Bool) : List Nat :=
  match n with
  | .ipv4 => (if beAt b (off + 6) 2 % 0x4000 ≠ 0 then [3] else []) ++ (if 5 < beAt b off 1 % 16 then [5] else [])
  | .frag => [3]
  | .ext => if hop then [6] else []
  | .vxlan => if bitOf (beAt b off 1) 3 then [] else [7]
  | .geneve => if beAt b off 1 / 64 = 0 then [] else [7]
  | .gre => if 256 < off + size then [7] else []
  | _ => []

/-- The parser from a node on (R421, R424). It stops at a header it may not enter and at a fragment. -/
def parseFrom (c : ParseCfg) (b : List Byte) : Nat → Node → Nat → Nat → Bool → Parsed → Parsed
  | 0, _, _, _, _, r => { r with excs := r.excs ++ [1] }
  | fuel + 1, n, off, ipEnd, hop, r =>
    let size := nodeSize b n off
    let ovh := decide (256 < off + size)
    if 4 < r.tunnels then { r with excs := r.excs ++ [1] }
    else if b.length < off + max 1 size ∧ n ≠ .pseudowire ∨ lengthConflict b n off ipEnd then
      { r with excs := r.excs ++ [2] }
    else
      let es := (if ovh then [1] else []) ++ headerExcs b n off size hop
      let r := { r with hdrs := if ovh then r.hdrs else r.hdrs ++ [⟨n, off, size⟩], excs := r.excs ++ es }
      if ovh ∨ es.contains 3 ∨ es.contains 7 then r
      else
        let nx := nodeNext c b n off size
        let stop := match n with
          | .ipv4 => off + beAt b (off + 2) 2
          | .ipv6 => off + 40 + beAt b (off + 4) 2
          | _ => ipEnd
        let isHop := (n == .ipv6 && beAt b (off + 6) 1 == 0) || (n == .ext && beAt b off 1 == 0)
        match nx.1 with
        | none => r
        | some m => parseFrom c b fuel m (off + size) stop isHop { r with tunnels := r.tunnels + b2n nx.2 }

/-- The parse of a packet from its start node: 0 Ethernet, 1 IP by its first four bits, 2 pseudowire (R421). -/
def parse (c : ParseCfg) (start : Nat) (b : List Byte) : Parsed :=
  let n := if start = 0 then Node.ethernet else if start = 2 then .pseudowire
    else if beAt b 0 1 / 16 = 6 then .ipv6 else .ipv4
  parseFrom c b 16 n 0 b.length false ⟨[], [], 0⟩

/-! ## Fields (R422) -/

/-- The first or last header of one of some nodes. -/
def Parsed.outer (r : Parsed) (p : Node → Bool) : Option Hdr := r.hdrs.find? fun h => p h.node
def Parsed.inner (r : Parsed) (p : Node → Bool) : Option Hdr := r.hdrs.reverse.find? fun h => p h.node

def isIp (n : Node) : Bool := n == .ipv4 || n == .ipv6
def isL4 (n : Node) : Bool := n == .udp || n == .tcp || n == .icmp

/-- Tags that follow an Ethernet header. -/
def Parsed.tagsAfter (r : Parsed) (e : Hdr) : List Hdr :=
  (r.hdrs.dropWhile fun h => h.off < e.off + e.size).takeWhile fun h => h.node == .vlan

/-- Outer tags. -/
def Parsed.tags (r : Parsed) : List Hdr :=
  match r.outer (· == .ethernet) with
  | some e => r.tagsAfter e
  | none => []

/-- The outermost stack of MPLS labels. -/
def Parsed.labels (r : Parsed) : List Hdr := (r.hdrs.dropWhile fun h => h.node != .mpls).takeWhile fun h => h.node == .mpls

/-- Packet class (R423). -/
def Parsed.cls (r : Parsed) (port : Nat) : Nat :=
  if port = 116 then 4
  else match r.outer fun n => isIp n || n == .mpls with
    | some h => if h.node = .ipv4 then 1 else if h.node = .ipv6 then 2 else 3
    | none => 0

/-- A field of a header; zero when the packet lacks it. -/
def fieldOf (b : List Byte) (h : Option Hdr) (off len : Nat) : Nat :=
  match h with
  | some x => beAt b (x.off + off) len
  | none => 0

/-- EtherType of an Ethernet header after any tags. -/
def Parsed.etherType (r : Parsed) (b : List Byte) (e : Option Hdr) : Nat :=
  match e with
  | none => 0
  | some x => match (r.tagsAfter x).getLast? with
    | some t => beAt b (t.off + 2) 2
    | none => beAt b (x.off + 12) 2

/-- Protocol, or last next header, of an IP header. -/
def Parsed.protocol (r : Parsed) (b : List Byte) (h : Option Hdr) : Nat :=
  match h with
  | none => 0
  | some x =>
    if x.node = .ipv4 then beAt b (x.off + 9) 1
    else match ((r.hdrs.dropWhile fun y => y.off ≤ x.off).takeWhile fun y => y.node == .ext || y.node == .frag).getLast? with
      | some y => beAt b y.off 1
      | none => beAt b (x.off + 6) 1

/-- A 128-bit address of an IP header: source at 0, destination at 1; an IPv4 address in its last 32 bits. -/
def ipAddr (b : List Byte) (h : Option Hdr) (dst : Nat) : Nat :=
  match h with
  | some x => if x.node = .ipv4 then beAt b (x.off + 12 + 4 * dst) 4 else beAt b (x.off + 8 + 16 * dst) 16
  | none => 0

/-- DS field, and TTL or hop limit. -/
def ipDs (b : List Byte) (h : Option Hdr) : Nat :=
  match h with
  | some x => if x.node = .ipv4 then beAt b (x.off + 1) 1 else beAt b x.off 2 / 16 % 256
  | none => 0
def ipTtl (b : List Byte) (h : Option Hdr) : Nat :=
  match h with
  | some x => if x.node = .ipv4 then beAt b (x.off + 8) 1 else beAt b (x.off + 7) 1
  | none => 0

/-! ## Keys (R428 to R431) -/

/-- Chunks of IP and L4 fields, codes 0x20 to 0x35. -/
def ipChunk (r : Parsed) (b : List Byte) (ip l4 : Option Hdr) (c : Nat) : Nat :=
  match c with
  | 0x20 => match ip with
    | some x => (if x.node = .ipv4 then 4 else 6) * 4096 + ipDs b ip * 16
    | none => 0
  | 0x21 => r.protocol b ip * 256 + ipTtl b ip
  | 0x32 => match ip with
    | some x => if x.node = .ipv6 then beAt b x.off 4 % 65536 else 0
    | none => 0
  | 0x33 => fieldOf b l4 0 2
  | 0x34 => match l4 with
    | some x => if x.node = .icmp then 0 else beAt b (x.off + 2) 2
    | none => 0
  | 0x35 => match l4 with
    | some x => if x.node = .tcp then beAt b (x.off + 12) 2 % 512 else 0
    | none => 0
  | _ =>
    if 0x22 ≤ c ∧ c ≤ 0x29 then bitsOf (ipAddr b ip 0) (16 * (0x29 - c)) 16
    else if 0x2A ≤ c ∧ c ≤ 0x31 then bitsOf (ipAddr b ip 1) (16 * (0x31 - c)) 16
    else 0

/-- A MAC address word: `k` from 0. -/
def macWord (b : List Byte) (e : Option Hdr) (k : Nat) : Nat := fieldOf b e (2 * k) 2

/-- TCI of a list's tag. -/
def tci (b : List Byte) (l : List Hdr) (k : Nat) : Nat := fieldOf b l[k]? 0 2

/-- The tunnel ID: the VNI, or the key of a GRE header. -/
def Parsed.tunnelId (r : Parsed) (b : List Byte) : Nat :=
  match r.outer fun n => n == .vxlan || n == .geneve || n == .gre with
  | some h =>
    if h.node = .gre then
      (if bitOf (beAt b h.off 2) 13 then beAt b (h.off + 4 + 4 * b2n (bitOf (beAt b h.off 2) 15)) 4 else 0)
    else beAt b (h.off + 4) 3
  | none => 0

/-- A chunk (Table 15.5), apart from the range results. -/
def chunkOf (p : Pkt) (r : Parsed) (c : Nat) : Nat :=
  let b := p.data
  let e := r.outer (· == .ethernet)
  let ie := r.inner (· == .ethernet)
  match c with
  | 0x01 => p.port * 512 + p.tc * 64 + 32 * b2n p.ipBad + 16 * b2n p.l4Bad + 8 * b2n (decide (0 < r.tunnels)) + r.cls p.port
  | 0x02 => if p.port = 116 then p.circuit else 0
  | 0x03 => match p.stream with
    | some s => s.1 * 16 + s.2 / 65536
    | none => 0
  | 0x04 => match p.stream with
    | some s => s.2 % 65536
    | none => 0
  | 0x0E => r.etherType b e
  | 0x0F => tci b r.tags 0
  | 0x10 => tci b r.tags 1
  | 0x11 => min 4 r.tags.length
  | 0x12 => fieldOf b r.labels[0]? 0 2
  | 0x13 => fieldOf b r.labels[0]? 2 2
  | 0x14 => fieldOf b r.labels[1]? 0 2
  | 0x15 => fieldOf b r.labels[1]? 2 2
  | 0x5E => r.etherType b ie
  | 0x5F => match ie with
    | some x => tci b (r.tagsAfter x) 0
    | none => 0
  | 0x60 => r.tunnelId b / 65536
  | 0x61 => r.tunnelId b % 65536
  | _ =>
    if 0x08 ≤ c ∧ c ≤ 0x0D then macWord b e (c - 0x08)
    else if 0x20 ≤ c ∧ c ≤ 0x35 then ipChunk r b (r.outer isIp) (r.outer isL4) c
    else if 0x40 ≤ c ∧ c ≤ 0x55 then ipChunk r b (r.inner isIp) (r.inner isL4) (c - 0x20)
    else if 0x58 ≤ c ∧ c ≤ 0x5D then macWord b ie (c - 0x58)
    else 0

/-- Whether a chunk code is one Table 15.5 lists. -/
def chunkKnown (c : Nat) : Bool :=
  decide (c ≤ 0x04) || (decide (0x08 ≤ c) && decide (c ≤ 0x15)) || (decide (0x20 ≤ c) && decide (c ≤ 0x35))
    || (decide (0x40 ≤ c) && decide (c ≤ 0x55)) || (decide (0x58 ≤ c) && decide (c ≤ 0x61))
    || (decide (0x70 ≤ c) && decide (c ≤ 0x73))

/-- The result of a range slot (R431); zero outside the Classifier-heavy carving. -/
def Dev.rangeResult (d : Dev) (prof : List Byte) (p : Pkt) (r : Parsed) (slot : Nat) : Nat :=
  if d.num .fwdCarving ≠ 3 then 0
  else
    let set := beAt prof (20 + 2 * slot) 1
    let v := chunkOf p r (beAt prof (21 + 2 * slot) 1)
    ((List.range 16).map fun i =>
      let w := d.num .clsRange 0 (16 * set + i)
      if w / 65536 ≤ v ∧ v ≤ w % 65536 then 2 ^ i else 0).sum

/-- The 320-bit key of a key profile. -/
def Dev.keyOf (d : Dev) (prof : List Byte) (p : Pkt) (r : Parsed) : Nat :=
  ((prof.take 20).map Byte.toNat).foldl
    (fun a c => a * 65536 + (if 0x70 ≤ c ∧ c ≤ 0x73 then d.rangeResult prof p r (c - 0x70) else chunkOf p r c)) 0
where
  Byte.toNat (b : Byte) : Nat := BitVec.toNat b

/-- Whether CONTROL admits a table epoch's parity: bit 30 odd, bit 29 even. -/
def parityOk (control epoch : Nat) : Bool := if epoch % 2 = 1 then bitOf control 30 else bitOf control 29

/-- The action words that the TCAM gives a packet (R434): none when its class has no profile. -/
def Dev.tcam (d : Dev) (p : Pkt) (r : Parsed) : Option (List Nat) :=
  let prof := bitsOf (d.num .clsProfileSelect 0 p.port) (4 * r.cls p.port) 4
  if prof = 15 then none
  else
    let key := d.keyOf (d.oct .clsKeyProfile 0 prof) p r
    some (match (d.rows 7).find? fun e =>
        d.num .clsBlockProfile 0 (e.1 / 512) == prof && rowValid 7 e.2 && parityOk (beAt e.2 112 4) p.tblEpoch
          && (key ^^^ beAt e.2 0 40) &&& beAt e.2 40 40 == 0 with
      | some e => wordsAt e.2 80 8
      | none => [])

end Sys2Proof.Machine
end

