-- ==== Sys2Proof/Machine/Forward.lean ====
section
/-!
DEFINITION. Packets in forwarding: ingress and dispatch (R25, R38, R415, R416), lookups and learning (R450, R457 to R462), actions (R436 to
R442), and release in order (R418 to R420).
-/
namespace Sys2Proof.Machine

/-! ## Ingress and dispatch -/

/-- Whether a device port is present (R28). -/
def Dev.portPresent (d : Dev) (p : Nat) : Bool :=
  if p < 96 then d.num .portState p != 1
  else if p < 108 then d.num .fabState (p - 96) != 1
  else decide (p < 118)

/-- The ingress traffic class (R415, Table 15.1): `tc` is what a bundle or a descriptor gave. -/
def Dev.ingressTc (d : Dev) (p tc start : Nat) (data : List Byte) : Nat :=
  if (96 ≤ p ∧ p < 108) ∨ (112 ≤ p ∧ p < 116) then tc
  else
    let c := d.num .carPortTc 0 p
    let r := parse d.parseCfg start data
    let dflt := c % 8
    match c / 64 with
    | 1 => match r.tags with
      | t :: _ => beAt data t.off 2 / 2 ^ 13
      | [] => dflt
    | 2 => match r.outer isIp with
      | some h => bitsOf (ipDs data (some h)) 3 3
      | none => dflt
    | _ => dflt

/-- Whether the crossing that a device port's packets come through is Closed (R96): its lane group's, its fibre complex's, its link's. -/
def Dev.portClosed (d : Dev) (p : Nat) : Bool :=
  d.clk.closed.contains 0 || d.clk.closed.contains (
    if p < 96 then 0x200 + p / 8 else if p < 108 then 0x200 + (p - 96) else if p < 112 then 0x100 + (p - 108)
    else if p < 116 then 0x700 + (p - 112) else 0x400)

/-- Cells of a packet from a bundle are freed (R403). -/
def freeCellsOf (port cls len : Nat) : Prog :=
  .when (decide (96 ≤ port) && decide (port < 108)) [.eff (.fab (port - 96) fun b => { b with
    freed := SMap.upd 0 cls (· + ceilDiv len 244) b.freed,
    held := SMap.upd 0 cls (· - ceilDiv len 244) b.held })]

/-- The port a packet enters under: a bonded member's is that of the group's lowest member (R29). -/
def Dev.entryPort (d : Dev) (p : Nat) : Nat := if 108 ≤ p ∧ p < 112 then 108 + d.lead (p - 108) else p

/-- A packet is stored for forwarding, or overruns its share (R25, R38). In Sleep one from an Ethernet port or a bundle is discarded and counted
(R117); through a Closed crossing it is dropped (Table 3.9). Either way its cells are free again. -/
def ingress (a : Arrival) : Prog :=
  .ask fun d =>
    let p := d.entryPort a.port.val
    .when (d.portPresent p && d.answers) [
      wake 5,
      if d.portClosed a.port.val then freeCellsOf p a.cls.val a.data.length
      else if d.num .pwrState = 2 ∧ p < 108 then .all [count .pwrSleepDiscards, freeCellsOf p a.cls.val a.data.length]
      else if d.ingressShare p < d.ingressCells p + cellsOf a.data then
        .all [count .carIngressOverruns 0 p, raise 337 p, freeCellsOf p a.cls.val a.data.length]
      else .eff (.fwd fun f => { f with
        count := f.count + 1,
        waiting := f.waiting ++ [⟨f.count, p, a.tc.val, 0, 0, a.cfgEpoch.toNat, a.tblEpoch.toNat, a.ipBad, a.l4Bad,
          a.stream.map fun x => (p - 108, x.toNat), a.circuit.val, a.start.val, a.cls.val, a.data, none⟩] })]

/-- A packet arrives from another complex. -/
def execPacketIngress (a : Arrival) (s : State) : Host.Outcome State Fault Refusal := s.runIf a.wf (live (ingress a))

/-- The packet dispatched next (R38): ports 116 and 117 first; else weighted round robin over the ports that have packets waiting, a port's
weight being the packets of one turn. The answer names the port and what is left of its turn. -/
def Dev.nextServed (d : Dev) : Option (Pkt × Nat × Nat) :=
  match d.fwd.waiting.find? fun x => decide (116 ≤ x.port) with
  | some x => some (x, d.fwd.turn, d.fwd.turnLeft)
  | none =>
    let of (q : Nat) := d.fwd.waiting.find? fun x => x.port == q
    let fresh := ((List.range 116).map fun k => (d.fwd.turn + 1 + k) % 116).findSome? fun q =>
      (of q).map fun x => (x, q, d.num .carPortWeight 0 q - 1)
    match of d.fwd.turn with
    | some x => if 0 < d.fwd.turnLeft then some (x, d.fwd.turn, d.fwd.turnLeft - 1) else fresh
    | none => fresh

/-- Packets a cluster's window holds (R418). -/
def Dev.windowUsed (d : Dev) (c : Nat) : Nat := (d.fwd.flight.filter fun x => x.cluster == c).length

/-- Order domain of a packet. -/
def Pkt.dom (x : Pkt) : Nat := x.port * 8 + x.tc

/-- The dispatcher deals a packet to the next cluster with room (R416, R418, R45). -/
def execCarouselDispatch (s : State) : Host.Outcome State Fault Refusal :=
  s.run (live (.ask fun d =>
    match d.nextServed, (((List.range 4).map fun k => (d.fwd.cluster + k) % 4).find? fun c => decide (d.windowUsed c < 8192)) with
    | some (w, turn, left), some c => .when (d.num .pwrState == 0) [
        let fibre := w.stream.isSome
        let epoch := if fibre then w.cfgEpoch else d.cfg.epoch
        let x := { w with
          tc := (d.asOf epoch).ingressTc w.port w.tc w.start w.data, cluster := c, cfgEpoch := epoch,
          tblEpoch := if fibre then w.tblEpoch else d.num .fwdTableEpoch }
        let seq := SMap.get 0 d.fwd.seqNext x.dom
        .eff (.fwd fun f => { f with
          waiting := f.waiting.filter fun y => y.id != x.id,
          flight := f.flight ++ [{ x with seq := seq }],
          cluster := (c + 1) % 4, turn := turn, turnLeft := left,
          seqNext := SMap.put 0 x.dom (seq + 1) f.seqNext })]
    | _, _ => .skip))

/-! ## Lookups (R449 to R462) -/

/-- The exact-match entry a packet's lookup finds. -/
def Dev.emFind (d : Dev) (key epoch : Nat) : Option (Nat × List Byte) :=
  if d.num .fwdCarveState = 1 then none
  else (d.rows 1).find? fun e => rowValid 1 e.2 && beAt e.2 0 16 == key && parityOk (emControl e.2) epoch

/-- The longest matching route (R461). -/
def Dev.routeFind (d : Dev) (v6 : Bool) (vrf addr epoch : Nat) : Option (List Byte) :=
  let t := if v6 then 3 else 2
  let w := if v6 then 128 else 32
  if d.num .fwdCarveState = 1 then none
  else
    let hits := (d.rows t).filter fun e => rowValid t e.2 && beAt e.2 16 2 == vrf && parityOk (beAt e.2 28 4) epoch
      && addr / 2 ^ (w - beAt e.2 18 1) == beAt e.2 0 16 / 2 ^ (w - beAt e.2 18 1)
    (hits.foldl (fun b e => match b with
      | none => some e.2
      | some x => if beAt x 18 1 < beAt e.2 18 1 then some e.2 else some x) none)

/-- A lookup's outcome: the exception it raises (0 none), its action words, whether it makes the packet a void, and its effect. -/
structure Look where
  exc : Nat
  words : List Nat
  void : Bool
  eff : Prog

def Look.raised (e : Nat) : Look := ⟨e, [], false, .skip⟩
def Look.nothing : Look := ⟨0, [], false, .skip⟩

/-- Fields of FWD_PORT_CFG (Table 16.3). -/
def pcPvid (c : Nat) : Nat := bitsOf c 52 12
def pcVrf (c : Nat) : Nat := bitsOf c 40 12

/-- The bridge domain of a packet (R450). -/
def bridgeDomain (cfg : Nat) (p : Pkt) (r : Parsed) : Nat :=
  let vid := tci p.data r.tags 0 % 4096
  if vid = 0 then pcPvid cfg else vid

/-- A MAC address of the outer Ethernet header: 0 destination, 6 source. -/
def outerMac (p : Pkt) (r : Parsed) (off : Nat) : Nat := fieldOf p.data (r.outer (· == .ethernet)) off 6

/-- A station move (R457): word 0 and PORT name the new port. -/
def stationMove (loc : Nat) (e : List Byte) (q bd now : Nat) : Prog :=
  let e1 := emRefresh (emWith (patch e 16 (beBytes 4 (4 * 2 ^ 27 + q))) (putBits (emControl e) 12 7 q)) now
  .all [putRow 1 loc e1, count .fwdMoves, notify 0x82 loc e1, limitCheck (emPort e) bd, limitCheck q bd]

/-- The source lookup and learning (R450, R457 to R459). `d` is the device, `c` the device as the packet's epoch has its configuration. -/
def sourceLook (d c : Dev) (p : Pkt) (r : Parsed) (bad : Bool) : Look :=
  let cfg := c.num .fwdPortCfg 0 p.port
  if !(bitOf cfg 39 && bitOf cfg 35 && p.start == 0) || d.num .fwdCarveState == 1 then .nothing
  else if bad then .raised 22
  else
    let bd := bridgeDomain cfg p r
    let mac := outerMac p r 6
    let now := d.num .fwdAgeNow
    let limited := d.portLimited p.port || d.subLimited bd
    let refuse : Look := ⟨17, [], false,
      notify 0x84 0 (emWith (learnedEntry ⟨bd, mac, p.port, p.cfgEpoch⟩ now) (putBit (emControl (learnedEntry ⟨bd, mac, p.port, p.cfgEpoch⟩ now)) 31 false))⟩
    match d.emFind (2 ^ 124 + bd * 2 ^ 48 + mac) p.tblEpoch with
    | some x =>
      if emPort x.2 = p.port then ⟨0, [], false, putRow 1 x.1 (emRefresh x.2 now)⟩
      else if !emLearned x.2 || emStatic x.2 then ⟨16, [], false, raise 349 p.port 0 (emPort x.2 * 2 ^ 25)⟩
      else if d.portLimited p.port then refuse
      else ⟨0, [], false, stationMove x.1 x.2 p.port bd now⟩
    | none =>
      if !bitOf (c.num .fwdBd 0 bd) 31 then .nothing
      else if limited then refuse
      else ⟨0, [], false,
        if d.fwd.learns.any fun l => l.bd == bd && l.mac == mac then .skip
        else if 4096 ≤ d.fwd.learns.length then learnDrop 1
        else .eff (.fwd fun f => { f with learns := f.learns ++ [⟨bd, mac, p.port, p.cfgEpoch⟩] })⟩

/-- The type 2 key of a packet (Table 16.6); its address fields are zero for IPv6 (R462), its ports for protocols other than TCP and UDP. -/
def flowKey (vrf : Nat) (p : Pkt) (r : Parsed) : Nat :=
  let ip := r.outer isIp
  let v4 := ip.any fun h => h.node == .ipv4
  let proto := r.protocol p.data ip
  let l4 := if proto = 6 ∨ proto = 17 then r.outer fun n => n == .tcp || n == .udp else none
  2 * 2 ^ 124 + vrf % 4096 * 2 ^ 112
    + (if v4 then ipAddr p.data ip 0 * 2 ^ 80 + ipAddr p.data ip 1 * 2 ^ 48 else 0)
    + proto % 256 * 2 ^ 40 + fieldOf p.data l4 0 2 * 2 ^ 24 + fieldOf p.data l4 2 2 * 2 ^ 8

/-- The actions of a next hop; exception 19 when it is not valid (R462). -/
def Dev.hopLook (d : Dev) (h : Nat) : Look :=
  let e := d.row 4 h
  if rowValid 4 e then ⟨0, wordsAt e 0 7, false, .skip⟩ else .raised 19

/-- The route lookup (R461, R462). -/
def routeLook (d : Dev) (vrf : Nat) (p : Pkt) (r : Parsed) : Look :=
  match r.outer isIp with
  | none => .raised 19
  | some h =>
    match d.routeFind (h.node == .ipv6) vrf (ipAddr p.data (some h) 1) p.tblEpoch with
    | none => .raised 19
    | some e =>
      let w := beAt e 20 4
      match w / 2 ^ 30 with
      | 0 => d.hopLook (w % 2 ^ 18)
      | 1 =>
        let g := beAt (d.row 5 (w % 2 ^ 18)) 0 8
        if bitOf g 63 then d.hopLook (bitsOf g 45 18 + crc32c (beBytes 16 (flowKey vrf p r)) % (bitsOf g 39 6 + 1))
        else .raised 19
      | 2 => ⟨0, [], true, .skip⟩
      | _ => .raised 20

/-- A hit on an exact-match entry gives its actions; one of type 2 or 3 is refreshed (R460). -/
def hitLook (x : Nat × List Byte) (refresh : Bool) (now : Nat) : Look :=
  ⟨0, wordsAt x.2 16 3, false, if refresh then putRow 1 x.1 (emRefresh x.2 now) else .skip⟩

/-- The destination lookup (R450). -/
def destLook (d c : Dev) (p : Pkt) (r : Parsed) (bad : Bool) : Look :=
  let cfg := c.num .fwdPortCfg 0 p.port
  let cls := r.cls p.port
  let now := d.num .fwdAgeNow
  let dmac := outerMac p r 0
  let ifGood (l : Look) : Look := if bad then .raised 22 else l
  if cls = 3 ∧ bitOf cfg 36 then
    ifGood (match d.emFind (3 * 2 ^ 124 + fieldOf p.data r.labels[0]? 0 4 / 2 ^ 12) p.tblEpoch with
      | some x => hitLook x true now
      | none => .raised 21)
  else if (cls = 1 ∨ cls = 2) ∧ bitOf cfg 38 ∧ (p.start = 1 ∨ dmac = c.num .fwdRouterMac) then
    ifGood (match if bitOf cfg 37 && cls == 1 then d.emFind (flowKey (pcVrf cfg) p r) p.tblEpoch else none with
      | some x => hitLook x true now
      | none => routeLook d (pcVrf cfg) p r)
  else if bitOf cfg 39 then
    ifGood (if bitOf dmac 40 then .raised 18
      else match d.emFind (2 ^ 124 + bridgeDomain cfg p r * 2 ^ 48 + dmac) p.tblEpoch with
        | some x => hitLook x false now
        | none => .raised 18)
  else .nothing

/-! ## Actions (R436 to R442) -/

/-- Where a packet is sent. -/
inductive Dest where
  | queue (q : Nat)
  | port (p : Nat)
  | host (link code : Nat)
  | circuit (c h : Nat)

/-- What the words of an action set come to. -/
structure Acts where
  counts : List Nat
  mirrors : List Nat
  drop : Bool
  dest : Option Dest
  tc : Option Nat
  meter : Option Nat
  edits : List Nat
  skipped : Nat

/-- The words that still act beside a DROP. -/
def isPassive (w : Nat) : Bool := w / 2 ^ 27 == 8 || w / 2 ^ 27 == 9

/-- One action word. -/
def Acts.word (mirrorOn : Nat → Bool) (hdrs : Nat) (a : Acts) (w : Nat) : Acts :=
  let x := w % 2 ^ 27
  match w / 2 ^ 27 with
  | 0x02 => { a with tc := some (x % 8) }
  | 0x03 => { a with dest := some (.queue x) }
  | 0x04 => { a with dest := some (.port x) }
  | 0x05 => { a with dest := some (.host (x / 64 % 4) (x % 64)) }
  | 0x06 =>
    if bitsOf x 11 4 < hdrs then { a with dest := some (.circuit (x / 32768) (bitsOf x 11 4)) }
    else { a with skipped := a.skipped + 1 }
  | 0x07 => { a with meter := some x }
  | 0x08 => if a.counts.length < 4 then { a with counts := a.counts ++ [x] } else { a with skipped := a.skipped + 1 }
  | 0x09 =>
    if a.mirrors.contains x || !mirrorOn x then a
    else if a.mirrors.length < 2 then { a with mirrors := a.mirrors ++ [x] } else { a with skipped := a.skipped + 1 }
  | 0x0A => { a with edits := a.edits ++ [w] }
  | 0x0B => { a with edits := a.edits ++ [w] }
  | 0x0C => { a with edits := a.edits ++ [w] }
  | 0x0D => { a with edits := a.edits ++ [w] }
  | 0x0E => { a with edits := a.edits ++ [w] }
  | 0x0F => { a with edits := a.edits ++ [w] }
  | 0x10 => { a with edits := a.edits ++ [w] }
  | _ => a

/-- The merged set: forwarding words, then TCAM words (R436). With a DROP among them only COUNT and MIRROR act. -/
def mergeActs (mirrorOn : Nat → Bool) (hdrs : Nat) (ws : List Nat) : Acts :=
  let drop := ws.any fun w => w / 2 ^ 27 == 1
  (if drop then ws.filter isPassive else ws).foldl (Acts.word mirrorOn hdrs) ⟨[], [], drop, none, none, none, [], 0⟩

/-! ### Edits (R438 to R440) -/

/-- Opcode and operand of an edit word. -/
def opOf (w : Nat) : Nat := w / 2 ^ 27

/-- Headers that the words of one kind of pop remove. -/
def popCount (op : Nat) (edits : List Nat) : Nat := ((edits.filter fun w => opOf w == op).map fun w => w % 8).sum

/-- Whether the edits break the limit (R439). -/
def editLimit (edits : List Nat) (r : Parsed) : Bool :=
  let pushes := (edits.filter fun w => opOf w == 0x0A || opOf w == 0x0C).length
  decide (4 < pushes + popCount 0x0B edits + popCount 0x0D edits)
    || decide (r.tags.length < popCount 0x0B edits) || decide (r.labels.length < popCount 0x0D edits)

/-- The DEC_TTL words of a header: 0 the outer IP header's, 1 the top label's. -/
def decCount (edits : List Nat) (which : Nat) : Nat := (edits.filter fun w => opOf w == 0x0F && w % 2 == which).length

/-- Whether a DEC_TTL meets a TTL or hop limit of 0 or 1 (R440). -/
def ttlExpired (edits : List Nat) (b : List Byte) (r : Parsed) : Bool :=
  let meets (which ttl : Nat) : Bool := decCount edits which != 0 && decide (ttl ≤ decCount edits which)
  ((r.outer isIp).isSome && meets 0 (ipTtl b (r.outer isIp)))
    || match r.labels with
      | l :: _ => meets 1 (beAt b (l.off + 3) 1)
      | [] => false

/-- A packet under its rewrites: bytes, marks for the IPv4 header and the L4 checksum, words skipped. -/
structure Edited where
  data : List Byte
  ipMark : Bool
  l4Mark : Bool
  skipped : Nat

/-- Bytes written at a header's offset. -/
def Edited.put (e : Edited) (h : Option Hdr) (off : Nat) (x : List Byte) (ip l4 : Bool) : Edited :=
  match h with
  | some y => { e with data := patch e.data (y.off + off) x, ipMark := e.ipMark || ip, l4Mark := e.l4Mark || l4 }
  | none => { e with skipped := e.skipped + 1 }

/-- A header of one node, when the outermost header of its kind is that node. -/
def Parsed.outerIs (r : Parsed) (kind : Node → Bool) (n : Node) : Option Hdr := (r.outer kind).filter fun h => h.node == n

/-- The TCP or UDP header among the outer fields, and the IP header it lies under. -/
def Parsed.outerL4 (r : Parsed) : Option Hdr := r.outer fun n => n == .tcp || n == .udp
def Parsed.ipOver (r : Parsed) (h : Hdr) : Option Hdr := (r.hdrs.takeWhile (· != h)).reverse.find? fun y => isIp y.node

/-- Whether a rewrite of the outer IP address marks the L4 checksum: the outer L4 header lies under that IP header (R440). -/
def Parsed.l4OfOuter (r : Parsed) : Bool := r.outerL4.any fun h => r.ipOver h == r.outer isIp

/-- A REWRITE entry applied (R438). An entry that is absent or names no field the packet has is skipped. -/
def rewriteField (r : Parsed) (row : List Byte) (e : Edited) : Edited :=
  let v := beAt row 4 16
  let eth := r.outer (· == .ethernet)
  let l4 := r.outerL4
  match beAt row 0 1 with
  | 1 => e.put eth 0 (beBytes 6 v) false false
  | 2 => e.put eth 6 (beBytes 6 v) false false
  | 3 => match r.tags with
    | t :: _ => e.put (some t) 0 (beBytes 2 (beAt e.data t.off 2 / 4096 * 4096 + v % 4096)) false false
    | [] => { e with skipped := e.skipped + 1 }
  | 4 => e.put (r.outerIs isIp .ipv4) 12 (beBytes 4 v) true r.l4OfOuter
  | 5 => e.put (r.outerIs isIp .ipv4) 16 (beBytes 4 v) true r.l4OfOuter
  | 6 => e.put (r.outerIs isIp .ipv6) 8 (beBytes 16 v) false r.l4OfOuter
  | 7 => e.put (r.outerIs isIp .ipv6) 24 (beBytes 16 v) false r.l4OfOuter
  | 8 => e.put (l4.filter fun h => r.outer isL4 == some h) 0 (beBytes 2 v) false true
  | 9 => e.put (l4.filter fun h => r.outer isL4 == some h) 2 (beBytes 2 v) false true
  | _ => { e with skipped := e.skipped + 1 }

/-- REWRITE, DEC_TTL and SET_DSCP on the headers as parsed. -/
def rewriteWord (d : Dev) (r : Parsed) (e : Edited) (w : Nat) : Edited :=
  let ip := r.outer isIp
  let v4 := ip.any fun h => h.node == .ipv4
  match opOf w with
  | 0x0E => rewriteField r (d.row 8 (w % 16384)) e
  | 0x0F =>
    if w % 2 = 0 then e.put ip (if v4 then 8 else 7) (beBytes 1 (ipTtl e.data ip - 1)) v4 false
    else e.put r.labels[0]? 3 (beBytes 1 (fieldOf e.data r.labels[0]? 3 1 - 1)) false false
  | 0x10 =>
    let ds := w % 64 * 4 + ipDs e.data ip % 4
    if v4 then e.put ip 1 (beBytes 1 ds) true false
    else e.put ip 0 (beBytes 2 (fieldOf e.data ip 0 2 / 4096 * 4096 + ds * 16 + fieldOf e.data ip 0 2 % 16)) false false
  | _ => e

/-- The Internet checksum of a byte string: one's complement of the one's complement sum of its 16-bit words. -/
def inetSum (b : List Byte) (start : Nat) : Nat :=
  let s := start + ((List.range ((b.length + 1) / 2)).map fun i => beAt (b ++ [0]) (2 * i) 2).sum
  65535 - (if s = 0 then 0 else (s - 1) % 65535 + 1)

/-- Where the IP payload around a header ends, and the sum of its pseudo-header for a protocol and a length. -/
def ipPayloadEnd (b : List Byte) (h : Hdr) : Nat :=
  if h.node = .ipv4 then h.off + beAt b (h.off + 2) 2 else h.off + 40 + beAt b (h.off + 4) 2

def pseudoSum (b : List Byte) (h : Hdr) (proto len : Nat) : Nat :=
  let a := if h.node = .ipv4 then slice b (h.off + 12) 8 else slice b (h.off + 8) 32
  ((List.range (a.length / 2)).map fun i => beAt a (2 * i) 2).sum + proto + len

/-- The marked checksums computed and inserted (R387, R440): the outer IPv4 header's, and that of the outer TCP or UDP header. A UDP checksum that
comes to 0 is sent as all ones. -/
def insertSums (r : Parsed) (e : Edited) : List Byte :=
  let b := e.data
  let b := match r.outerIs isIp .ipv4 with
    | some h => if e.ipMark then
        let z := patch b (h.off + 10) [0, 0]
        patch z (h.off + 10) (beBytes 2 (inetSum (slice z h.off h.size) 0)) else b
    | none => b
  match r.outerL4.bind r.ipOver, r.outerL4 with
  | some h, some l => if e.l4Mark then
      let at4 := l.off + if l.node = .tcp then 16 else 6
      let len := ipPayloadEnd b h - l.off
      let z := patch b at4 [0, 0]
      let c := inetSum (slice z l.off len) (pseudoSum z h (if l.node = .tcp then 6 else 17) len)
      patch z at4 (beBytes 2 (if c = 0 ∧ l.node = .udp then 65535 else c)) else b
  | _, _ => b

/-- `n` bytes removed at an offset; bytes put in at an offset. -/
def cutAt (b : List Byte) (off n : Nat) : List Byte := b.take off ++ b.drop (off + n)
def putInAt (b : List Byte) (off : Nat) (x : List Byte) : List Byte := b.take off ++ x ++ b.drop off

/-- Pops (R438): outer tags with the EtherTypes before them, then outermost labels. When no label is left the EtherType
becomes that of the IP header that follows, where one does. -/
def popAll (edits : List Nat) (r : Parsed) (b : List Byte) : List Byte :=
  let np := popCount 0x0D edits
  let nv := popCount 0x0B edits
  let b := match r.labels with
    | l :: _ =>
      if np = 0 then b
      else
        let c := cutAt b l.off (4 * np)
        let ty := match beAt c l.off 1 / 16 with
          | 4 => some 0x0800
          | 6 => some 0x86DD
          | _ => none
        match ty with
        | some t => if np = r.labels.length ∧ 2 ≤ l.off then patch c (l.off - 2) (beBytes 2 t) else c
        | none => c
    | [] => b
  match r.tags with
  | t :: _ => cutAt b (t.off - 2) (4 * nv)
  | [] => b

/-- Where a label is put in: after the Ethernet header and its tags. -/
def labelAt (c : ParseCfg) (b : List Byte) : Nat → Nat → Nat
  | 0, off => off
  | n + 1, off => if isTag c (beAt b (off - 2) 2) then labelAt c b n (off + 4) else off

/-- One push (R438): each new header becomes the outermost. A packet with no Ethernet header has no place for a tag, and the word is skipped. -/
def pushWord (c : ParseCfg) (tpid dfltTtl : Nat) (eth : Bool) (x : List Byte × Nat) (w : Nat) : List Byte × Nat :=
  match opOf w with
  | 0x0A =>
    let ty := match bitsOf w 25 2 with
      | 0 => 0x8100
      | 1 => 0x88A8
      | 2 => 0x9100
      | _ => tpid
    if eth then (putInAt x.1 12 (beBytes 2 ty ++ beBytes 2 (bitsOf w 21 4 * 4096 + bitsOf w 9 12)), x.2) else (x.1, x.2 + 1)
  | 0x0C =>
    let off := if eth then labelAt c x.1 8 14 else 0
    let mpls := eth && (beAt x.1 (off - 2) 2 == 0x8847 || beAt x.1 (off - 2) 2 == 0x8848)
    let below := if mpls then beAt x.1 (off + 3) 1
      else match beAt x.1 off 1 / 16 with
        | 4 => beAt x.1 (off + 8) 1
        | 6 => beAt x.1 (off + 7) 1
        | _ => dfltTtl
    let word := bitsOf w 7 20 * 4096 + bitsOf w 4 3 * 512 + (if mpls then 0 else 256) + (if bitOf w 3 then below else dfltTtl)
    let y := putInAt x.1 off (beBytes 4 word)
    (if eth && !mpls then patch y (off - 2) (beBytes 2 0x8847) else y, x.2)
  | _ => x

/-- The packet as it leaves, and the words skipped. -/
def editPacket (d c : Dev) (edits : List Nat) (r : Parsed) (b : List Byte) : List Byte × Nat :=
  let e := edits.foldl (rewriteWord d r) ⟨b, false, false, 0⟩
  let popped := popAll edits r (insertSums r e)
  edits.foldl (pushWord c.parseCfg (c.num .prsTpidCustom) (c.num .clsMplsTtl) (r.outer (· == .ethernet)).isSome) (popped, e.skipped)

/-! ### A packet's fates -/

/-- META of a packet to a host (Table 6.8). -/
def slowMeta (p : Pkt) (code : Nat) : Nat :=
  p.port * 2 ^ 57 + code % 64 * 2 ^ 51 + p.tc * 2 ^ 48 + (match p.stream with
    | some s => s.2 * 2 ^ 28
    | none => 0)

/-- The disposition of an exception: 0 slow path, 1 drop, 2 continue (Table 15.4). -/
def Dev.excDisp (c : Dev) (e : Nat) : Nat := bitsOf (c.num .prsExcMap 0 e) 8 2

/-- The fates an exception gives a packet, and its effect: the reason counted once (R424 to R427). -/
def disposeOf (c : Dev) (p : Pkt) (e : Nat) : List Fate × Prog :=
  let m := c.num .prsExcMap 0 e
  if c.excDisp e ≠ 0 then ([], count .prsExcCounts 0 e)
  else if (112 ≤ p.port ∧ p.port ≤ 115) ∨ p.port = 117 then ([], .all [count .prsExcCounts 0 e, count .prsHostLoopDrops])
  else ([.host (bitsOf m 6 2) (m % 64) p.tc (slowMeta p (m % 64)) p.data], count .prsExcCounts 0 e)

/-- The lowest of some numbers. -/
def lowest : List Nat → Option Nat
  | [] => none
  | x :: r => some (r.foldl min x)

/-- The exception that disposes of a packet among those raised so far: the lowest that does not continue. -/
def Dev.deciding (c : Dev) (es : List Nat) : Option Nat := lowest (es.filter fun e => c.excDisp e != 2)

/-- Whether an outer tag carries DEI, or the fabric class is odd (R491). -/
def preColour (p : Pkt) (r : Parsed) : Nat :=
  if (96 ≤ p.port ∧ p.port < 108 ∧ p.cls % 2 = 1) ∨ bitOf (tci p.data r.tags 0) 12 then 1 else 0

/-- Mirror copies (R442). -/
def mirrorFates (c : Dev) (p : Pkt) (colour : Nat) (ss : List Nat) : List Fate :=
  ss.map fun s =>
    let m := c.num .clsMirror 0 s
    let b := if bitsOf m 16 14 = 0 then p.data else p.data.take (bitsOf m 16 14)
    if bitOf m 30 then .host (bitsOf m 6 2) (m % 64) p.tc (slowMeta p (m % 64)) b else .port (m % 128) p.tc colour b b

/-- Words skipped are counted and raise event 338 with CODE 2. -/
def skipWords (n : Nat) : Prog := .when (n != 0) [countBy .clsActionSkipped 0 0 n, raise 338 noInst 2]

/-- The meter, the edits and the destination of a packet that no exception has disposed of. -/
def finishActs (d c : Dev) (p : Pkt) (r : Parsed) (a : Acts) (copies : List Fate) : List Fate × Prog :=
  let tc := a.tc.getD p.tc
  let pre := preColour p r
  let met := a.meter.map fun m =>
    let e := d.row 16 m
    let z := meterColour ((SMap.get Meter.none d.tm.meters m).fill e d.nowNs) e pre p.data.length
    (m, e, z)
  let colour := match met with
    | some x => x.2.2.1
    | none => pre
  let update : Prog := match met with
    | some x => .eff (.tm fun t => { t with meters := SMap.put Meter.none x.1 x.2.2.2 t.meters })
    | none => .skip
  let red := met.any fun x => bitOf (beAt x.2.1 1 1) 6 && x.2.2.1 == 2
  let out := editPacket d c a.edits r p.data
  match a.dest with
  | none => (copies, count .clsNoDestination)
  | some dst =>
    if red then (.dropped 6 :: copies, update)
    else match dst with
      | .queue q => (.queue q colour p.data out.1 :: copies, .all [update, skipWords out.2])
      | .port q => (.port q tc colour p.data out.1 :: copies, .all [update, skipWords out.2])
      | .host l k => (.host l k tc (slowMeta p k) p.data :: copies, update)
      | .circuit k h => (.circuit k (p.data.drop (match r.hdrs[h]? with
          | some x => x.off + x.size
          | none => 0)) :: copies, update)

/-- The actions of a packet (R436 to R442): `ws` is its merged set. -/
def runActs (d c : Dev) (p : Pkt) (r : Parsed) (ws : List Nat) : List Fate × Prog :=
  let a := mergeActs (fun s => bitOf (c.num .clsMirror 0 s) 31) r.hdrs.length ws
  let copies := mirrorFates c p (preColour p r) a.mirrors
  let seen : Prog := .all [.each a.counts fun k => countPair k p.data.length, skipWords a.skipped]
  let edited := match a.dest with
    | some (.queue _) => true
    | some (.port _) => true
    | _ => false
  let excs := (if edited && ttlExpired a.edits p.data r then [4] else []) ++ (if edited && editLimit a.edits r then [8] else [])
  if a.drop then (copies, seen)
  else match c.deciding excs with
    | some e =>
      let z := disposeOf c p e
      (z.1 ++ copies, .all [seen, .when (excs.contains 8) [raise 338 noInst 1], z.2])
    | none =>
      let z := finishActs d c p r a copies
      (z.1, .seq seen z.2)

/-- Exceptions that continued are counted once, by the lowest. -/
def countContinued (es : List Nat) : Prog :=
  match lowest es with
  | some e => count .prsExcCounts 0 e
  | none => .skip

/-- What a cluster makes of a packet: its fates and its effect. -/
def forwardPacket (d : Dev) (p : Pkt) (srcBad dstBad : Bool) : List Fate × Prog :=
  let c := d.asOf p.cfgEpoch
  let r := parse c.parseCfg p.start p.data
  match c.deciding r.excs with
  | some e => disposeOf c p e
  | none =>
    let src := sourceLook d c p r srcBad
    let es := r.excs ++ (if src.exc = 0 then [] else [src.exc])
    match c.deciding es with
    | some e => (fun z => (z.1, Prog.seq src.eff z.2)) (disposeOf c p e)
    | none =>
      let dst := destLook d c p r dstBad
      let es := es ++ (if dst.exc = 0 then [] else [dst.exc])
      match c.deciding es with
      | some e => (fun z => (z.1, Prog.all [src.eff, dst.eff, z.2])) (disposeOf c p e)
      | none =>
        let cont := Prog.all [src.eff, dst.eff, countContinued es]
        if dst.void then ([], cont)
        else
          let hit := ({ c with tbl := d.tbl } : Dev).tcam p r
          let z := runActs d c p r (dst.words ++ hit.getD [])
          (z.1, .all [cont, .when (hit == some []) [count .clsNoMatch], z.2])

/-! ## Release (R418 to R420) -/

/-- The ring a slow-path code names on a link (R196). -/
def Dev.slowEntry (d : Dev) (link code : Nat) : Option Nat :=
  let e := d.num .hifSlowpathMap link code
  if bitOf e 31 && d.ringLive (e % 4096) then some (e % 4096) else none

/-- A packet of a configuration epoch bound for a host (R42, R45, R196): the mapped ring, else the fallback's once, else a drop. -/
def slowPath (epoch : Option Nat) (link code tc metaw : Nat) (data : List Byte) : Prog :=
  .ask fun now =>
    let d := now.seen epoch
    let e := d.num .hifSlowpathMap link code
    let x (r : Nat) : QPkt := ⟨data, data, false, [], none, 0, 0, none, some r, metaw, link, false⟩
    let fb := if bitOf e 30 then (d.slowEntry (bitsOf e 28 2) code).map fun r => (bitsOf e 28 2, r) else none
    match (match d.slowEntry link code with
      | some r => some (link, r)
      | none => fb) with
    | some y => admitPort epoch (112 + y.1) tc (x y.2)
    | none => .all [count .hifSlowpathDrops link, raise (64 + 16 * link + 10)]

/-- Encapsulation label of an ordinary packet upstream: by its start node. -/
def pktLabel (p : Pkt) : Nat :=
  if p.start = 1 then 0x06 else 0x01

/-- One fate takes effect at release. -/
def releaseFate (p : Pkt) : Fate → Prog
  | .queue q colour data out => enqueue (some p.cfgEpoch) q ⟨data, out, false, [], none, colour, pktLabel p, none, none, 0, 0, false⟩
  | .port q tc colour data out => admitPort (some p.cfgEpoch) q tc ⟨data, out, false, [], none, colour, pktLabel p, none, none, 0, 0, false⟩
  | .host link code tc metaw data => slowPath (some p.cfgEpoch) link code tc metaw data
  | .circuit c data => send .handoff 0x40 c data
  | .dropped reason => tmDrop reason none

/-- Cells of a released packet from a bundle are freed (R403). -/
def freeBundleCells (p : Pkt) : Prog := freeCellsOf p.port p.cls p.data.length

/-- A packet leaves forwarding. -/
def releasePkt (p : Pkt) : Prog :=
  .all [
    .eff (.fwd fun f => { f with flight := f.flight.filter fun y => y.id != p.id }),
    .each (p.done.getD []) (releaseFate p),
    freeBundleCells p]

/-- The finished packets of a domain from a sequence number on, up to the first that is missing. -/
def Dev.runOf (d : Dev) (dom : Nat) : Nat → Nat → List Pkt
  | 0, _ => []
  | n + 1, seq => match d.fwd.flight.find? fun x => x.dom == dom && x.seq == seq && x.done.isSome with
    | some x => x :: d.runOf dom n (seq + 1)
    | none => []

/-- A domain's finished packets are released, from a sequence number on. -/
def releaseRun (dom seq : Nat) : Prog :=
  .ask fun d =>
    let l := d.runOf dom d.fwd.flight.length seq
    .all [.each l releasePkt,
      .eff (.fwd fun f => { f with relNext := SMap.put 0 dom (seq + l.length) f.relNext })]

/-- A packet's fates are known: what is in order is released (R419), a late one at once (R420). -/
def finishPkt (p : Pkt) (fates : List Fate) : Prog :=
  let p1 := { p with done := some fates }
  .all [
    .eff (.fwd fun f => { f with flight := f.flight.map fun y => if y.id = p.id then p1 else y }),
    .ask fun d =>
      let nxt := SMap.get 0 d.fwd.relNext p.dom
      if p.seq < nxt then .all [count .carLateReleases, releasePkt p1] else releaseRun p.dom nxt]

/-- A packet whose cells a crossing has lost (R99, Table 3.9) is dropped: from those that wait, or as a void from its cluster. -/
def voidPacket (id : Nat) : Prog :=
  .ask fun d => .all [
    .each (d.fwd.waiting.filter fun x => x.id == id) freeBundleCells,
    .eff (.fwd fun f => { f with waiting := f.waiting.filter fun x => x.id != id }),
    match d.fwd.flight.find? fun x => x.id == id && x.done.isNone with
    | none => .skip
    | some p => finishPkt p []]

/-- PACKET_FORWARD: a cluster finishes a packet. -/
def execPacketForward (id : Nat) (srcBad dstBad : Bool) (s : State) : Host.Outcome State Fault Refusal :=
  s.run (live (.ask fun d =>
    match d.fwd.flight.find? fun x => x.id == id && x.done.isNone with
    | none => .skip
    | some p =>
      let z := forwardPacket d p srcBad dstBad
      .seq z.2 (finishPkt p z.1)))

/-- A finished packet has been held 32 µs (R420): it and the finished packets that wait behind the same missing ones are released. -/
def execReorderTimeout (dom : Fin 1024) (s : State) : Host.Outcome State Fault Refusal :=
  s.run (live (.ask fun d =>
    let nxt := SMap.get 0 d.fwd.relNext dom.val
    let ready := d.fwd.flight.filter fun x => x.dom == dom.val && x.done.isSome && decide (nxt ≤ x.seq)
    match lowest (ready.map Pkt.seq) with
    | none => .skip
    | some q => .all [
        countBy .carReorderTimeouts 0 0 (d.runOf dom.val d.fwd.flight.length q).length,
        raise 336 dom.val,
        releaseRun dom.val q]))

end Sys2Proof.Machine
end

