-- ==== Sys2Proof/Machine/Ports.lean ====
section
/-!
DEFINITION. Ethernet ports (spec/13): personalities and modes (R50, R366 to R369), negotiation and training (R370 to R377), low-power idle
(R378 to R382), and the MAC counters (R393).
-/
namespace Sys2Proof.Machine

/-! ## Presence and state (R28, R370) -/

/-- A port's part of the state. -/
def Dev.prt (d : Dev) (p : Nat) : PortSt := SMap.get PortSt.none d.ports p

/-- A MAC counter moves on (Table 13.5). -/
def macCount (p word n : Nat) : Prog := countIn .portMacCounters p 0 (8 * word) 8 n

/-- Whether mode `m` on port `q` absorbs port `p` (R28). -/
def absorbs (q m p : Nat) : Bool := decide (q < p) && decide (p < q + modeLanes m)

/-- Whether another port of the group absorbs `p`. -/
def Dev.absorbed (d : Dev) (p : Nat) : Bool :=
  (List.range (p % 8)).any fun k => let q := p / 8 * 8 + k; absorbs q (d.num .portMode q) p

/-- Whether the configuration leaves a port out (Table 13.2). -/
def Dev.portAbsent (d : Dev) (p : Nat) : Bool :=
  d.fabricGroup (p / 8) || d.num .portMode p == 0 || d.absorbed p

/-- Fields of PORT_RESOLVED (Table 13.8). -/
def Dev.resMode (d : Dev) (p : Nat) : Nat := d.num .portResolved p / 2 ^ 24
def Dev.resFec (d : Dev) (p : Nat) : Nat := bitsOf (d.num .portResolved p) 20 4
def Dev.resLanes (d : Dev) (p : Nat) : Nat := bitsOf (d.num .portResolved p) 16 4
def Dev.resEee (d : Dev) (p : Nat) : Bool := bitOf (d.num .portResolved p) 13

/-- What a port's transmitter sends (R370, R371): nothing in electrical idle; negotiation or a training pattern; idle and frames; idle alone; remote fault. -/
inductive PortSignal where
  | quiet | negotiation | training | frames | idle | remoteFault
  deriving DecidableEq, Repr

def Dev.portSignal (d : Dev) (p : Nat) : PortSignal :=
  match d.num .portState p with
  | 2 => if d.num .portMedium p = 2 then .idle else .negotiation
  | 3 => .training
  | 4 => .frames
  | 5 => .idle
  | 6 => .remoteFault
  | _ => .quiet

/-- Links come up and change only while the device runs or idles (R382). -/
def Dev.linksRun (d : Dev) : Bool := d.answers && decide (d.num .pwrState ≤ 1)

/-- A port takes a state with nothing reported. Leaving Up counts in LINK_DOWNS, empties the port's queues under reason 8 (R388, R498)
and ends low-power idle. -/
def portSet (p new : Nat) : Prog :=
  .ask fun d => .all [
    putN .portState p 0 new,
    .when (d.num .portState p == 4 && new != 4) [
      macCount p 24 1, flushPort p 8, putN .portEeeState p 0 0,
      .eff (.port p fun x => { x with heldTo := 0, egress := [] })]]

/-- A port takes a state. Event 224 + p has CODE 1 on entering Up and 2 on leaving it, with the new state and the reason: 1 local fault,
2 remote fault, 3 retrain, 4 disabled, 5 instance reset, 6 mode change (R396). -/
def portTo (p new reason : Nat) : Prog :=
  .ask fun d =>
    let old := d.num .portState p
    .all [
      portSet p new,
      .when (old != 4 && new == 4) [
        putN .portTsRxLatency p 0 (Config.portLatency (d.resMode p) (d.resFec p) 0 % 2 ^ 32),
        putN .portTsTxLatency p 0 (Config.portLatency (d.resMode p) (d.resFec p) 1 % 2 ^ 32),
        raise (224 + p) p 1],
      .when (old == 4 && new != 4) [raise (224 + p) p 2 (top8 new + reason % 256 * 65536)]]

/-- The ports of a group become absent or present as its configuration says; a port that becomes present is disabled (R50, R368). -/
def refreshGroup (g : Nat) : Prog :=
  .each (List.range 8) fun k => .ask fun d =>
    let p := 8 * g + k
    .all [
      .when (d.portAbsent p && d.num .portState p != 1) [putN .portEnable p 0 0, portTo p 1 6],
      .when (!d.portAbsent p && d.num .portState p == 1) [putN .portEnable p 0 0, putN .portState p 0 0]]

/-! ## Configuration -/

/-- PORT_MODE (R368). -/
def portModeBeh (p v : Nat) : Beh :=
  beh (fun _ => if 6 < v ∨ (v = 5 ∧ p % 2 = 1) ∨ (v = 6 ∧ p % 4 ≠ 0) then 0x0302 else 0)
    (fun d => firstAbort [
      (d.fabricGroup (p / 8) || d.absorbed p || d.num .portEnable p == 1, 0x0401),
      ((List.range 96).any fun q => absorbs p v q && d.num .portEnable q == 1, 0x0401)])
    fun _ => .done (.all [putN .portMode p 0 v, refreshGroup (p / 8)]) []

/-- A write of PORT_MODE. -/
def execPortModeWrite (o : Origin) (p : Fin 96) (v : BitVec 8) (s : State) : Host.Outcome State Fault Refusal :=
  s.run (serveWrite o .portMode p.val 0 (.num v.toNat) (portModeBeh p.val v.toNat))

/-- The MACsec load in Mb/s of the ports that have both enables set (R390). -/
def Dev.macsecLoad (d : Dev) (but : Nat) : Nat :=
  ((List.range 96).map fun q =>
    if q ≠ but ∧ d.num .portEnable q = 1 ∧ d.num .portMacsecEnable q = 1 then modeRate (d.num .portMode q) else 0).sum

/-- Whether setting both enables of a port would break the budget of 1,600 Gb/s. -/
def Dev.macsecOver (d : Dev) (p : Nat) : Bool := decide (1600000 < d.macsecLoad p + modeRate (d.num .portMode p))

/-- Whether another enabled port of the quad belongs to the other family (R367). -/
def Dev.familyClash (d : Dev) (p : Nat) : Bool :=
  (List.range 4).any fun k => let q := p / 4 * 4 + k
    q != p && d.num .portEnable q == 1 && modeFamily (d.num .portMode q) != modeFamily (d.num .portMode p)

/-- PORT_ENABLE (R369). -/
def portEnableBeh (p v : Nat) : Beh :=
  beh (fun d => if v = 1 ∧ d.num .portEnable p = 0 ∧ d.num .portMacsecEnable p = 1 ∧ d.macsecOver p then 0x0302 else 0)
    (fun d => if v = 1 ∧ (d.portAbsent p ∨ d.familyClash p) then 0x0401 else 0)
    fun d => .done (.all [
      putN .portEnable p 0 v,
      .when (v == 1 && d.num .portState p == 0) [putN .portState p 0 2],
      .when (v == 0 && d.num .portState p != 1) [portTo p 0 4]]) []

/-- A write of PORT_ENABLE. -/
def execPortEnableWrite (o : Origin) (p : Fin 96) (v : BitVec 8) (s : State) : Host.Outcome State Fault Refusal :=
  s.run (serveWrite o .portEnable p.val 0 (.num v.toNat) (portEnableBeh p.val v.toNat))

/-- PORT_MEDIUM is written while the port is disabled (Table 13.6). -/
def portMediumBeh (p v : Nat) : Beh :=
  beh (fun _ => 0) (fun d => if d.num .portEnable p = 1 then 0x0401 else 0) fun _ => .done (putN .portMedium p 0 v) []

/-- PORT_EEE_TW_TX (R381). -/
def portEeeTwTxBeh (p v : Nat) : Beh :=
  beh (fun d => if v < Config.eeeWake (d.num .portMode p) then 0x0302 else 0)
    (fun d => if d.num .portLldpMode p = 1 then 0x0401 else 0)
    fun _ => .done (putN .portEeeTwTx p 0 v) []

/-- PORT_MACSEC_ENABLE (R390). -/
def portMacsecEnableBeh (p v : Nat) : Beh :=
  beh (fun d => if v = 1 ∧ d.num .portMacsecEnable p = 0 ∧ d.num .portEnable p = 1 ∧ d.macsecOver p then 0x0302 else 0)
    (fun d => if d.num .portState p = 4 then 0x0401 else 0)
    fun _ => .done (putN .portMacsecEnable p 0 v) []

/-- PORT_MACSEC_CONTEXT (R390). -/
def portMacsecContextBeh (p v : Nat) : Beh :=
  beh (fun _ => 0) (fun d => if d.num .portState p = 4 then 0x0401 else 0) fun _ => .done (putN .portMacsecContext p 0 v) []

/-- Coefficients of a transmitter within the limits of Table 13.3. -/
def ffeOk (nrz : Bool) (v : Nat) : Bool :=
  let c (lo : Nat) := (toInt 8 (bitsOf v lo 8)).natAbs
  decide (1 ≤ toInt 8 (bitsOf v 8 8)) && decide (c 24 + c 16 + c 8 + c 0 ≤ 64) && (!nrz || c 24 == 0)

/-- The port that uses a lane: the widest present port that reaches it. -/
def Dev.portOfLane (d : Dev) (g k : Nat) : Nat :=
  (((List.range (k + 1)).map fun j => 8 * g + j).find? fun q => absorbs q (d.num .portMode q) (8 * g + k)).getD (8 * g + k)

/-- LN_TX_FFE (Table 13.3, R397). -/
def lnTxFfeBeh (g k v : Nat) : Beh :=
  beh (fun d => if ffeOk (modeFamily (d.num .portMode (d.portOfLane g k)) == 1 && !d.fabricGroup g) v then 0 else 0x0302)
    (fun d => let p := d.portOfLane g k
      if d.fabricGroup g then (if d.num .fabEnable g = 1 then 0x0401 else 0)
      else if d.num .portMedium p = 2 ∧ d.num .portEnable p = 0 then 0 else 0x0401)
    fun _ => .done (putN .lnTxFfe g k v) []

/-- PORT_RESTART (R394). -/
def portRestartBeh (p : Nat) : Beh :=
  beh (fun _ => 0) (fun d => if d.num .portState p ≤ 1 then 0x0401 else 0) fun _ => .done (portTo p 2 3) []

/-- The command PORT_RESTART. -/
def execPortRestart (o : Origin) (p : Fin 96) (s : State) : Host.Outcome State Fault Refusal :=
  s.run (serveExec o .portRestart p.val 0 true (.oct []) (portRestartBeh p.val))

/-- LG_PERSONALITY (R50, R412): on a change the group's ports go down, and its ports and bundle become absent or present. -/
def lgPersonalityBeh (bundle : Nat → Bool → Prog) (g v : Nat) : Beh :=
  .plain fun d => .done (.when (d.num .lgPersonality g != v) [
    putN .lgPersonality g 0 v, refreshGroup g, bundle g (v == 1)]) []

/-! ## Negotiation and training (R371 to R376) -/

/-- Lanes of a port as group and lane numbers. -/
def portLanes (p n : Nat) : List (Nat × Nat) := (List.range n).map fun k => (p / 8, p % 8 + k)

/-- Figures of merit and the like, stored lane by lane. -/
def putLanes (x : Obj) (p : Nat) (l : List Nat) : Prog :=
  .each ((portLanes p l.length).zip l) fun e => putN x e.1.1 e.1.2 e.2

/-- The modes whose abilities a port advertises under Clause 73 (R371), highest priority first: those of PORT_ADVERTISE that fit its lanes. Each goes with
whether its ability is the CR one: in medium 1, of 25G and above; else it is the KX or KR one. -/
def Dev.abilities (d : Dev) (p : Nat) : List (Nat × Bool) :=
  ([6, 5, 4, 3, 2, 1].filter fun m => bitOf (d.num .portAdvertise p) m && decide (modeLanes m ≤ modeLanes (d.num .portMode p))).map fun m =>
    (m, d.num .portMedium p == 1 && decide (3 ≤ m))

/-- The highest mode that both ends advertise (R371, R372); 0 for none. -/
def commonMode (mine : List (Nat × Bool)) (theirs : Nat) : Nat := ((mine.find? fun m => bitOf theirs m.1).map (·.1)).getD 0

/-- The FEC of PORT_RESOLVED after negotiation (R373): what this end requests, and what the partner does. -/
def fecNegotiated (m req : Nat) (partnerRs partnerBase : Bool) : Nat :=
  let rs := m == 3 && (req == 0 || req == 3)
  let base := (m == 2 && (req == 0 || req == 2)) || (m == 3 && req == 2)
  if 4 ≤ m then 3 else if rs && partnerRs then 2 else if base && partnerBase then 1 else 0

/-- The FEC of a module port (R373). -/
def fecDirect (m req : Nat) : Nat :=
  if 4 ≤ m then 3
  else if m = 3 ∧ (req = 0 ∨ req = 3) then 2
  else if (m = 3 ∨ m = 2) ∧ req = 2 then 1
  else 0

/-- PORT_RESOLVED as a number. -/
def resolvedWord (m fec : Nat) (eee : Bool) : Nat := m * 2 ^ 24 + fec * 2 ^ 20 + modeLanes m * 2 ^ 16 + b2n eee * 2 ^ 13

/-- Whether the port offers low-power idle in a mode (R378). -/
def Dev.offersEee (d : Dev) (p m : Nat) : Bool := d.num .portEeeEnable p == 1 && d.num .portMedium p != 2 && decide (2 ≤ m)

/-- Auto-negotiation ends: the partner's modes, its requests for RS and BASE-R FEC, and its EEE ability of the mode. With no common mode the
port stays in Negotiating (R372). -/
def execAutonegComplete (p : Fin 96) (modes : BitVec 16) (rs base eee : Bool) (s : State) : Host.Outcome State Fault Refusal :=
  s.run (live (.ask fun d =>
    let m := commonMode (d.abilities p.val) modes.toNat
    .when (d.linksRun && d.num .portState p.val == 2 && d.num .portMedium p.val != 2 && m != 0) [
      putN .portResolved p.val 0
        (resolvedWord m (fecNegotiated m (d.num .portFecRequest p.val) rs base) (d.offersEee p.val m && eee)),
      .when (m != 1) [putN .portState p.val 0 3]]))

/-- The receive path locks without training: in medium 2 the port sends PORT_MODE, and 1000BASE-X is never trained (R371, R374). The
figures of merit of the lanes are measured. -/
def execPcsLockAcquired (p : Fin 96) (foms : List Slicer) (s : State) : Host.Outcome State Fault Refusal :=
  s.run (live (.ask fun d =>
    let module := d.num .portMedium p.val == 2
    let m := if module then d.num .portMode p.val else d.resMode p.val
    .when (d.linksRun && d.num .portState p.val == 2 && (module || m == 1)) [
      .when module [putN .portResolved p.val 0 (resolvedWord m (fecDirect m (d.num .portFecRequest p.val)) false)],
      putLanes .lnFom p.val ((foms.take (modeLanes m)).map fomOf),
      portTo p.val 4 0]))

/-- The lowest figure of merit of a port's lanes. -/
def lowestFom (l : List Slicer) : Nat := (l.map fomOf).foldl min 255

/-- The requests at coefficient `c` of a partner's transmitter, each as the coefficient and whether it increments, and whether one of them raised the figure
by 2 (R376). -/
def steerAt (c : Nat) (x : SteerStep) : List (Nat × Bool) × Bool :=
  let better (ok : Bool) (f : List Slicer) : Bool := ok && decide (lowestFom x.base + 2 ≤ lowestFom f)
  let up := [(c, true)]
  if better x.incOk x.inc then (up, true)
  else
    let down := up ++ (if x.incOk then [(c, false)] else []) ++ [(c, false)]
    if better x.decOk x.dec then (down, true)
    else (down ++ (if x.decOk then [(c, true)] else []), false)

/-- The steering of a partner's transmitter over coefficients `cs`: the requests made, and whether it has ended with a round that changed nothing. `left` are
the coefficients still to come in the present round. -/
def steer (cs : List Nat) : List SteerStep → (left : List Nat) → (changed : Bool) → List (Nat × Bool) × Bool
  | _, [], false => ([], true)
  | [], _, _ => ([], false)
  | x :: r, [], true => match cs with
    | [] => ([], true)
    | c :: t => let v := steerAt c x; let w := steer cs r t v.2; (v.1 ++ w.1, w.2)
  | x :: r, c :: t, changed => let v := steerAt c x; let w := steer cs r t (changed || v.2); (v.1 ++ w.1, w.2)

/-- The coefficients in order: c(1), c(−1), and c(−2) in PAM4 modes only, by their places in LN_TX_FFE. -/
def steerOrder (m : Nat) : List Nat := if modeFamily m = 2 then [0, 2, 3] else [0, 2]

/-- The requests that leave in the training frames, and the receiver ready signal once the steering has ended. -/
def sendSteer (p : Nat) (r : List (Nat × Bool) × Bool) : Prog :=
  send .train p (b2n r.2) (r.1.map fun x => BitVec.ofNat 8 (2 * x.1 + b2n x.2))

/-- The partner's requests at a lane's transmitter in order (R374): each moves its coefficient by one unit within the limits of Table 13.3, answered 0, or meets
one, answered 1 maximum or 2 minimum. -/
def answerAsks (nrz : Bool) : Nat → List (Fin 4 × Bool) → Nat × List Byte
  | v, [] => (v, [])
  | v, (c, up) :: r =>
    let x := toInt 8 (bitsOf v (8 * c.val) 8) + if up then 1 else -1
    let w := putBits v (8 * c.val) 8 (ofInt 8 x)
    if ffeOk nrz w then let t := answerAsks nrz w r; (t.1, 0 :: t.2)
    else let t := answerAsks nrz v r; (t.1, (if up then 1 else 2) :: t.2)

/-- Where a lane's training starts: from LN_TX_FFE (DESIGN CHOICE, log entry 129), with c(−2) at 0 in an NRZ mode. -/
def ffeStart (nrz : Bool) (v : Nat) : Nat := if nrz then v % 2 ^ 24 else v

/-- The partner's requests at the transmitters of a port's lanes: the answers leave, and LN_TX_FFE holds what training has set (R374). -/
def answerLanes (p : Nat) (asks : List (List (Fin 4 × Bool))) : Prog :=
  .ask fun d => .each ((portLanes p (d.resLanes p)).zip asks) fun x =>
    let nrz := modeFamily (d.resMode p) == 1
    let r := answerAsks nrz (ffeStart nrz (d.num .lnTxFfe x.1.1 x.1.2)) x.2
    .all [putN .lnTxFfe x.1.1 x.1.2 r.1, send .train p (16 + x.1.2) r.2]

/-- Training succeeds when both ends are ready and every lane's figure is at least LG_FOM_UP (R374); it has set the transmitters, and steered the
partner's (R376). -/
def execLinkTrainingComplete (p : Fin 96) (lanes : List TrainLane) (steps : List SteerStep) (s : State) :
    Host.Outcome State Fault Refusal :=
  s.run (live (.ask fun d =>
    let n := d.resLanes p.val
    let l := lanes.take n
    let cs := steerOrder (d.resMode p.val)
    let r := steer cs steps cs false
    .when (d.linksRun && d.num .portState p.val == 3 && r.2 && l.length == n) [
      sendSteer p.val r,
      answerLanes p.val (l.map (·.asks)),
      putLanes .lnFom p.val (l.map fun x => fomOf x.fom),
      .when (l.all fun x => decide (d.num .lgFomUp (p.val / 8) ≤ fomOf x.fom)) [
        putLanes .lnTraining p.val (List.replicate n 1), portTo p.val 4 0]]))

/-- max_wait_timer expires: training fails and negotiation restarts (R374). The partner had been steered, and its requests answered, meanwhile. -/
def execLinkTrainingTimeout (p : Fin 96) (responded : Bool) (asks : List (List (Fin 4 × Bool))) (steps : List SteerStep) (s : State) :
    Host.Outcome State Fault Refusal :=
  s.run (live (.ask fun d => .when (d.linksRun && d.num .portState p.val == 3) [
    sendSteer p.val (let cs := steerOrder (d.resMode p.val); steer cs steps cs false),
    answerLanes p.val asks,
    putLanes .lnTraining p.val (List.replicate (d.resLanes p.val) (if responded then 2 else 3)),
    raise (224 + p.val) p.val 3,
    putN .portState p.val 0 2]))

/-! ## Faults and figures of merit (R370, R377, R396) -/

/-- Lock lost for 1 ms: Local fault. -/
def execPortLocalFault (p : Fin 96) (s : State) : Host.Outcome State Fault Refusal :=
  s.run (.ask fun d => .when (d.answers && (d.num .portState p.val == 4 || d.num .portState p.val == 5)) [portTo p.val 6 1])

/-- 500 ms in Local fault. -/
def execLocalFaultTimeout (p : Fin 96) (s : State) : Host.Outcome State Fault Refusal :=
  s.run (live (.ask fun d => .when (d.linksRun && d.num .portState p.val == 6) [putN .portState p.val 0 2]))

/-- The partner signals remote fault. -/
def execPortRemoteFault (p : Fin 96) (s : State) : Host.Outcome State Fault Refusal :=
  s.run (.ask fun d => .when (d.answers && (d.num .portState p.val == 4 || d.num .portState p.val == 6)) [portTo p.val 5 2])

/-- The fault clears. -/
def execPortFaultClear (p : Fin 96) (s : State) : Host.Outcome State Fault Refusal :=
  s.run (live (.ask fun d => .when (d.linksRun && (d.num .portState p.val == 5 || d.num .portState p.val == 6)) [portTo p.val 4 0]))

/-- Whether the figure of merit of a port or bundle counts: it is Up and its receive direction is awake. -/
def Dev.fomCounts (d : Dev) (p : Nat) : Bool :=
  if p < 96 then d.num .portState p == 4 && !bitOf (d.num .portEeeState p) 0 else d.num .fabState (p - 96) == 4

/-- The lane group of a port or a bundle. -/
def groupOfPort (p : Nat) : Nat := if p < 96 then p / 8 else p - 96

/-- A figure of merit has held for 100 ms on the lowest of a port's lanes, or on a lane of a bundle (R377, R414): below the alarm the event is raised once; at or above
it the event is armed again. -/
def execFomMarginLow (p : Fin 108) (lane : Fin 8) (fom : Slicer) (s : State) : Host.Outcome State Fault Refusal :=
  s.run (.ask fun d =>
    let g := groupOfPort p.val
    let k := if p.val < 96 then p.val else 128 + 8 * g + lane.val
    let low := decide (fomOf fom < d.num .lgFomAlarm g)
    .when (d.answers && d.fomCounts p.val && d.laneLocked g lane.val
        && (96 ≤ p.val || d.portOfLane g lane.val == p.val)) [
      putN .lnFom g lane.val (fomOf fom),
      .when (low && !(d.prt k).marginLow) [if p.val < 96 then raise (224 + p.val) p.val 4 else raise (320 + g) g 3 (top8 lane.val)],
      .eff (.port k fun x => { x with marginLow := low })])

/-- The lowest figure of a port has stayed below LG_FOM_RETRAIN for 10 ms (R377). -/
def execFomRetrain (p : Fin 96) (fom : Slicer) (s : State) : Host.Outcome State Fault Refusal :=
  s.run (.ask fun d =>
    let limit := d.num .lgFomRetrain (p.val / 8)
    .when (d.answers && d.fomCounts p.val && limit != 0 && decide (fomOf fom < limit)) [portTo p.val 2 3])

/-- A quad PLL loses lock: every port of its quad goes down with its own event (R396). -/
def execQuadPllUnlock (g : Fin 12) (quad : Fin 2) (s : State) : Host.Outcome State Fault Refusal :=
  s.run (.ask fun d => .when d.answers [.each (List.range 4) fun k =>
    let p := 8 * g.val + 4 * quad.val + k
    .when (decide (2 ≤ d.num .portState p)) [portSet p 2, raise (224 + p) p 5]])

/-! ## Low-power idle (R378 to R382) -/

/-- Whether a gate of a port node opens within a time in ns (R380). -/
def Dev.gateOpensWithin (d : Dev) (p span : Nat) : Bool :=
  let g := d.oct .tmGateOper p
  let l := glFrom g (glCount g) 0 0 (glPhase g d.nowNs) ++ glFrom g (glCount g) 0 0 0
  let walk := l.foldl (fun (a : Nat × Option Nat × Bool) e =>
    let opens := match a.2.1 with
      | some o => decide (a.1 ≤ span) && (List.range 8).any fun k => bitOf e.1 k && !bitOf o k
      | none => false
    (a.1 + e.2, some e.1, a.2.2 || opens)) (0, none, false)
  glCount g != 0 && walk.2.2

/-- The transmit direction enters low-power idle (R380). -/
def execEeeTxEnter (p : Fin 96) (s : State) : Host.Outcome State Fault Refusal :=
  s.run (.ask fun d =>
    .when (d.answers && d.num .portState p.val == 4 && d.resEee p.val && !bitOf (d.num .portEeeState p.val) 1
        && (d.pickPort p.val none).isNone && !d.gateOpensWithin p.val (d.eeeTw p.val * 1000) && (d.prt p.val).egress.isEmpty) [
      setFlag .portEeeState p.val 0 1 true,
      macCount p.val 22 1,
      .eff (.port p.val fun x => { x with txLpiAt := d.nowNs })])

/-- The transmit direction wakes: the port node is held for the wake time (R380). In Idle and Sleep it stays in low-power idle (R382). -/
def execEeeTxWake (p : Fin 96) (s : State) : Host.Outcome State Fault Refusal :=
  s.run (.ask fun d =>
    .when (d.answers && d.num .pwrState == 0 && bitOf (d.num .portEeeState p.val) 1
        && ((d.pickPort p.val none).isSome || d.gateOpensWithin p.val (d.eeeTw p.val * 1000))) [
      setFlag .portEeeState p.val 0 1 false,
      macCount p.val 23 ((d.nowNs - (d.prt p.val).txLpiAt) / 1000),
      .eff (.port p.val fun x => { x with heldTo := d.nowNs + d.eeeTw p.val * 1000 })])

/-- The receive direction follows the partner (R379). -/
def execEeeRxLpi (p : Fin 96) (enter : Bool) (s : State) : Host.Outcome State Fault Refusal :=
  s.run (.ask fun d =>
    .when (d.answers && d.num .portState p.val == 4 && d.resEee p.val && bitOf (d.num .portEeeState p.val) 0 != enter) [
      setFlag .portEeeState p.val 0 0 enter,
      if enter then .all [macCount p.val 13 1, .eff (.port p.val fun x => { x with rxLpiAt := d.nowNs })]
      else macCount p.val 14 ((d.nowNs - (d.prt p.val).rxLpiAt) / 1000)])

/-- The ASCII digits of a number in a base. -/
def asciiDigit (n : Nat) : Byte := BitVec.ofNat 8 (if n < 10 then 48 + n else 55 + n)
def hexText (b : List Byte) : List Byte := b.flatMap fun x => [asciiDigit (x.toNat / 16), asciiDigit (x.toNat % 16)]
def decText (n : Nat) : List Byte := if n < 10 then [asciiDigit n] else [asciiDigit (n / 10), asciiDigit (n % 10)]

/-- A type-length-value item of an LLDPDU. -/
def tlv (t : Nat) (v : List Byte) : List Byte := beBytes 2 (t * 512 + v.length) ++ v

/-- The wake time that Clause 78 resolves: the mode's default or what the partner's receiver asks for. -/
def Dev.resolvedTw (d : Dev) (p : Nat) : Nat := max (Config.eeeWake (d.num .portMode p)) (d.prt p).peerTw

/-- The LLDPDU of a port (R381) in an Ethernet frame. The source address is a free value. -/
def Dev.lldpFrame (d : Dev) (p : Nat) : List Byte :=
  let tw := beBytes 2 (d.resolvedTw p)
  [0x01, 0x80, 0xC2, 0x00, 0x00, 0x0E] ++ beBytes 6 (Config.freeValue d.free) ++ [0x88, 0xCC]
    ++ tlv 1 (7 :: hexText (beBytes 8 (d.num .idTerminal))) ++ tlv 2 (7 :: decText p) ++ tlv 3 (beBytes 2 120)
    ++ tlv 127 ([0x00, 0x12, 0x0F, 0x05] ++ tw ++ tw ++ tw ++ beBytes 2 (d.prt p).peerTw ++ tw) ++ [0, 0]

/-- The control complex sends an LLDPDU out of a port (R381). -/
def execLldpTx (p : Fin 96) (s : State) : Host.Outcome State Fault Refusal :=
  s.run (.ask fun d => .when (d.answers && d.num .portLldpMode p.val == 1 && d.num .portState p.val == 4) [
    .eff .draw,
    admitPort none p.val (d.num .carPortTc 0 117 % 8) ⟨d.lldpFrame p.val, d.lldpFrame p.val, false, [], none, 0, 0x01, none, none, 0, 0, false⟩])

/-! ## MAC counters (R393) -/

/-- The requester class that has a baseline of its own: H0 to H3, E, L, S. -/
def macClass (code : Nat) : Nat := if isHost code then hostLink code else code / 256 + 2

/-- The counts since a requester's last read. -/
def Dev.macSince (d : Dev) (p code : Nat) : List Byte :=
  let now := d.oct .portMacCounters p
  let b := padTo 200 (SMap.get [] (d.prt p).base (macClass code))
  (List.range 25).flatMap fun k => beBytes 8 (beAt now (8 * k) 8 - beAt b (8 * k) 8)

/-- A read of PORT_MAC_COUNTERS: its counts, and then nothing is left for the reader. -/
def macCountersBeh (p code : Nat) : Beh :=
  .plain fun d => .done
    (.eff (.port p fun x => { x with base := SMap.put [] (macClass code) (d.oct .portMacCounters p) x.base })) (d.macSince p code)

/-- The command PORT_MAC_COUNTERS_READ. -/
def execPortMacCountersRead (o : Origin) (p : Fin 96) (s : State) : Host.Outcome State Fault Refusal :=
  s.run (.ask fun d => serve (elemReq o 1 .portMacCounters p.val 0 (.oct [])) (macCountersBeh p.val (d.codeOf o.path)))

end Sys2Proof.Machine
end

