-- ==== Sys2Proof/Machine/Cipher.lean ====
section
/-!
DEFINITION. The cipher complex's commands (spec/19): key loads and the upstream key switch (R528 to R537), MACsec contexts and associations
(R538 to R541), and the lookaside engine (R543 to R549).
-/
namespace Sys2Proof.Machine

/-! ## Keys (R528) -/

/-- Place of a key-ladder slot's key (R596). -/
def kekKey (slot : Nat) : Nat := 0x40000000 + slot

/-- Whether a key-ladder slot is loaded. -/
def Dev.kekLoaded (d : Dev) (slot : Nat) : Bool := beAt (d.oct .secKekState) (3 * slot) 1 == 1

/-- The key that a load carries: plain, or unwrapped under a slot of the key ladder; none when that fails. -/
def Dev.loadedKey (d : Dev) (wrapped : Bool) (kek : Nat) (plain wrappedBytes : List Byte) : Option (List Byte) :=
  if !wrapped then some plain
  else if d.kekLoaded kek && !d.secSuspended then Config.unwrap (SMap.get [] d.keys (kekKey kek)) wrappedBytes
  else none

/-- An unwrap failure (R528). -/
def unwrapFail : Reply := .abort 0x0602 (.all [count .ciphUnwrapFails, raise 425])

/-- WRAP and KEK outside Table 19.3: a plain load names no slot, a wrapped one a slot from 1 to 15. -/
def wrapBad (wrap kek : Nat) : Bool := !((wrap == 0 && kek == 0) || (wrap == 1 && decide (1 ≤ kek) && decide (kek ≤ 15)))

/-! ## Fibre contexts (R532 to R537) -/

/-- CIPH_FCH_KEY_LOAD (Table 19.3). -/
def keyLoadBeh (code n : Nat) (b : List Byte) : Beh :=
  let dir := beAt b 0 1
  let idx := beAt b 1 1
  let wrap := beAt b 2 1
  let kek := beAt b 3 1
  beh
    (fun _ => firstAbort [
      (decide (1 < dir) || idx == 0 || decide (31 < idx) || wrapBad wrap kek || beAt b 4 4 != 0 || (wrap == 0 && beAt b 40 8 != 0), 0x0302),
      (wrap == 0 && code == 0x0200, 0x0601)])
    (fun d => firstAbort [
      (d.lead n != n || (dir == 1 && idx == d.num .ciphFchUsActive n), 0x0401),
      (dir == 1 && (match d.pendingOn 3 n with
        | some a => nth 0 a.arg 0 == idx
        | none => false), 0x0501)])
    fun d => match d.loadedKey (wrap == 1) kek (slice b 8 32) (slice b 8 40) with
      | none => unwrapFail
      | some k => .done (.all [
          .eff (.key (ctxKey n dir idx) k), .eff (.use (ctxKey n dir idx) 0), setCtx n dir idx 1]) []

/-- The command CIPH_FCH_KEY_LOAD. -/
def execCiphFchKeyLoad (o : Origin) (n : Fin 4) (b : List Byte) (s : State) : Host.Outcome State Fault Refusal :=
  s.run (.ask fun d => serveExec o .ciphFchKeyLoad n.val 0 (b.length == 48) (.oct b) (keyLoadBeh (d.codeOf o.path) n.val b))

/-- CIPH_FCH_US_KEY_SWITCH (R537). -/
def usKeySwitchBeh (code n arg : Nat) : Beh :=
  let idx := bitsOf arg 56 5
  let f := bitsOf arg 0 51
  beh
    (fun d => if arg ≠ idx * 2 ^ 56 + f ∨ !d.frameAhead n f then 0x0302 else 0)
    (fun d => firstAbort [
      (d.lead n != n || (idx != 0 && d.ctxState n 1 idx != 1) || !d.alignedOn n, 0x0401),
      ((d.pendingOn 3 n).isSome, 0x0501),
      (d.actsFull && idx != d.num .ciphFchUsActive n, 0x0402)])
    fun d => .done (.when (idx != d.num .ciphFchUsActive n) [armAct 3 n (.frame f) code [] [idx]]) []

/-- The command CIPH_FCH_US_KEY_SWITCH. -/
def execCiphFchUsKeySwitch (o : Origin) (n : Fin 4) (arg : BitVec 64) (s : State) : Host.Outcome State Fault Refusal :=
  s.run (.ask fun d => serveExec o .ciphFchUsKeySwitch n.val 0 true (.num arg.toNat)
    (usKeySwitchBeh (d.codeOf o.path) n.val arg.toNat))

/-- CIPH_FCH_KEY_LIMIT (R531, R533). -/
def keyLimitBeh (n v : Nat) : Beh :=
  beh (fun _ => if v < 2 ^ 20 ∨ 2 ^ 48 < v then 0x0302 else 0)
    (fun d => if d.lead n ≠ n then 0x0401 else 0)
    fun _ => .done (.all [
      putN .ciphFchKeyLimit n 0 v,
      .each [0, 1] fun dir => .each (List.range 32) fun idx => .ask fun d =>
        .when (decide (v < SMap.get 0 d.uses (ctxKey n dir idx))) [exhaustCtx n dir idx]]) []

/-- A write of CIPH_FCH_KEY_LIMIT. -/
def execCiphFchKeyLimitWrite (o : Origin) (n : Fin 4) (v : BitVec 64) (s : State) : Host.Outcome State Fault Refusal :=
  s.run (serveWrite o .ciphFchKeyLimit n.val 0 (.num v.toNat) (keyLimitBeh n.val v.toNat))

/-! ## MACsec contexts and associations (R538 to R541) -/

/-- Place of an association's key and salt. -/
def saKey (a : Nat) : Nat := 0x10000 + a

/-- Fields of CIPH_MS_CONTEXT (Table 19.4). -/
def msCtrl (b : List Byte) : Nat := beAt b 0 1
def msTxAn (b : List Byte) : Nat := beAt b 1 1
def msTxSa (b : List Byte) (an : Nat) : Nat := beAt b (24 + 2 * an) 2
def msRxSa (b : List Byte) (an : Nat) : Nat := beAt b (32 + 2 * an) 2

/-- The association states (Table 19.8). -/
def Dev.saState (d : Dev) (a : Nat) : Nat := beAt (d.oct .ciphMsSaState 0 a) 0 1
def Dev.saPn (d : Dev) (a : Nat) : Nat := beAt (d.oct .ciphMsSaState 0 a) 8 8

/-- Whether a port with PORT_ENABLE = 1 names a context. -/
def Dev.ctxInUse (d : Dev) (c : Nat) : Bool :=
  (List.range 96).any fun p => d.num .portEnable p == 1 && d.num .portMacsecContext p == c

/-- A value of CIPH_MS_CONTEXT that R540 refuses. -/
def msContextBad (b : List Byte) : Bool :=
  msCtrl b % 8 != 0 || bitsOf (msCtrl b) 4 2 == 3 || decide (3 < msTxAn b) || beAt b 2 2 != 0 || decide (1073741824 < beAt b 20 4)
    || beAt b 40 8 != 0
    || (List.range 8).any fun k => let a := beAt b (24 + 2 * k) 2
        decide (4095 < a) && a != 0xFFFF

/-- CIPH_MS_CONTEXT (R540). -/
def msContextBeh (c : Nat) (b : List Byte) : Beh :=
  beh (fun _ => if msContextBad b then 0x0302 else 0)
    (fun d => if d.ctxInUse c ∧ patch (d.oct .ciphMsContext 0 c) 1 [0] ≠ patch b 1 [0] then 0x0401 else 0)
    fun _ => .done (putO .ciphMsContext 0 c b) []

/-- A write of CIPH_MS_CONTEXT. -/
def execCiphMsContextWrite (o : Origin) (c : Fin 4096) (b : List Byte) (s : State) : Host.Outcome State Fault Refusal :=
  s.run (serveWrite o .ciphMsContext 0 c.val (.oct b) (msContextBeh c.val b))

/-- CIPH_MS_SA_LOAD (R541). -/
def msSaLoadBeh (code : Nat) (b : List Byte) : Beh :=
  let a := beAt b 0 2
  let wrap := beAt b 3 1
  let kek := beAt b 4 1
  beh
    (fun _ => firstAbort [
      (decide (4095 < a) || decide (1 < beAt b 2 1) || wrapBad wrap kek || beAt b 5 3 != 0 || beAt b 24 8 == 0
        || (wrap == 0 && beAt b 64 8 != 0), 0x0302),
      (wrap == 0 && code == 0x0200, 0x0601)])
    (fun d => if (List.range 96).any fun p =>
        let c := d.oct .ciphMsContext 0 (d.num .portMacsecContext p)
        d.num .portEnable p == 1 && msTxSa c (msTxAn c) == a then 0x0401 else 0)
    fun d => match d.loadedKey (wrap == 1) kek (slice b 32 32) (slice b 32 40) with
      | none => unwrapFail
      | some k => .done (.all [
          .eff (.key (saKey a) (padTo 32 k ++ slice b 12 12)),
          putO .ciphMsSaState 0 a ([1] ++ slice b 2 1 ++ [0, 0] ++ slice b 8 4 ++ slice b 24 8)]) []

/-- The command CIPH_MS_SA_LOAD. -/
def execCiphMsSaLoad (o : Origin) (b : List Byte) (s : State) : Host.Outcome State Fault Refusal :=
  s.run (.ask fun d => serveExec o .ciphMsSaLoad 0 0 (b.length == 72) (.oct b) (msSaLoadBeh (d.codeOf o.path) b))

/-! ## Lookaside sessions (R543, R549) -/

/-- Place of a session: owner's requester code (2), ALG (1), state (1), FIXED (4), key (32). Its counter is its count of uses. -/
def laKey (n : Nat) : Nat := 0x20000 + n
def Dev.session (d : Dev) (n : Nat) : List Byte := SMap.get [] d.keys (laKey n)
def Dev.sessionOpen (d : Dev) (n : Nat) : Bool := !(d.session n).isEmpty
def Dev.sessionOwner (d : Dev) (n : Nat) : Nat := beAt (d.session n) 0 2

/-- The lowest free session. -/
def Dev.freeSession (d : Dev) : Option Nat := (List.range 16384).find? fun n => !d.sessionOpen n

/-- CIPH_LA_OPEN (R543). -/
def laOpenBeh (code : Nat) (b : List Byte) : Beh :=
  let alg := beAt b 0 1
  let wrap := beAt b 1 1
  let kek := beAt b 2 1
  let keyLen := if alg = 1 then 16 else 32
  beh
    (fun _ =>
      let used := if wrap = 0 then keyLen else keyLen + 8
      if (alg ≠ 1 ∧ alg ≠ 2) ∨ wrapBad wrap kek ∨ beAt b 3 1 ≠ 0 ∨ beAt b 8 8 ≠ 0 ∨ beAt b (16 + used) (40 - used) ≠ 0 ∨ beAt b 56 8 ≠ 0
      then 0x0302 else 0)
    (fun d => firstAbort [(!(d.fn (hostKey code)).live, 0x0401), (d.freeSession.isNone, 0x0402)])
    fun d => match d.loadedKey (wrap == 1) kek (slice b 16 keyLen) (slice b 16 (keyLen + 8)) with
      | none => unwrapFail
      | some k => match d.freeSession with
        | none => .abort 0x0402 .skip
        | some n => .done (.all [
            .eff (.key (laKey n) (beBytes 2 code ++ beBytes 1 alg ++ [1] ++ slice b 4 4 ++ padTo keyLen k)),
            .eff (.use (laKey n) 0),
            putN .ciphLaSessionsOpen 0 0 (d.num .ciphLaSessionsOpen + 1)]) (beBytes 2 n)

/-- The command CIPH_LA_OPEN. -/
def execCiphLaOpen (o : Origin) (b : List Byte) (s : State) : Host.Outcome State Fault Refusal :=
  s.run (.ask fun d => serveExec o .ciphLaOpen 0 0 (b.length == 64) (.oct b) (laOpenBeh (d.codeOf o.path) b))

/-! ## Lookaside jobs (R544 to R548) -/

/-- Fields of a job record (Table 19.6). -/
def LaJob.op (j : LaJob) : Nat := beAt j.record 0 1
def LaJob.urgent (j : LaJob) : Bool := beAt j.record 1 1 == 1
def LaJob.aadLen (j : LaJob) : Nat := leNat (slice j.record 4 4)
def LaJob.dst (j : LaJob) : Nat := leNat (slice j.record 16 8)
def LaJob.len (j : LaJob) : Nat := leNat (slice j.record 24 4)
def LaJob.iv (j : LaJob) : List Byte := slice j.record 32 12
def LaJob.tag (j : LaJob) : List Byte := slice j.record 48 16

/-- A malformed record (status 0x0003). -/
def LaJob.bad (j : LaJob) : Bool :=
  (j.op != 1 && j.op != 2) || decide (1 < beAt j.record 1 1) || decide (65536 < j.aadLen) || decide (16777216 < j.len)
    || beAt j.record 28 4 != 0 || beAt j.record 44 4 != 0

/-- Whether an urgent job may run: every job before it in its own list has started (R545, R548). -/
def urgentReady (before : List LaJob) (j : LaJob) : Bool := j.urgent && before.all fun k => k.list != j.list || k.started

/-- Position of the job that runs: the first urgent job that may, else a suspended one, else the first in the queue. -/
def runnerFrom (all : List LaJob) : Nat → Option Nat
  | 0 => none
  | n + 1 =>
    let i := all.length - (n + 1)
    match all[i]? with
    | some j => if urgentReady (all.take i) j then some i else runnerFrom all n
    | none => none

def runner (jobs : List LaJob) : Option Nat :=
  match runnerFrom jobs jobs.length with
  | some i => some i
  | none => match jobs.findIdx? (·.suspended) with
    | some i => some i
    | none => if jobs.isEmpty then none else some 0

/-- A job starts: a seal takes the session's counter, or finds the session exhausted (R545, R546). An urgent job suspends a running normal one. -/
def laStart (i : Nat) (j : LaJob) : Prog :=
  .ask fun d =>
    let k := laKey j.session
    let c := SMap.get 0 d.uses k
    let seals := j.op == 1 && !j.bad && j.dma == 0
    let preempts := j.urgent && d.la.jobs.any fun x => x.started && !x.suspended && !x.urgent
    .all [
      .when preempts [countIn .ciphLaCounters 0 0 16 8 1],
      .eff (.la fun l => { l with
        jobs := listSet (l.jobs.map fun x => if j.urgent && x.started && !x.urgent then { x with suspended := true } else x) i
          { j with started := true, ctr := if seals ∧ c < 2 ^ 64 then some c else none } }),
      .when seals [
        if c < 2 ^ 64 then .eff (.use k (c + 1))
        else .when (beAt (d.session j.session) 3 1 == 1) [
          .eff (.key k (patch (d.session j.session) 3 [2])), raise 422 j.session]]]

/-- The engine starts what may run now; a suspended job resumes. -/
def laKick : Nat → Prog
  | 0 => .skip
  | fuel + 1 => .ask fun d => match runner d.la.jobs with
    | none => .skip
    | some i => match d.la.jobs[i]? with
      | none => .skip
      | some j =>
        if j.started then .eff (.la fun l => { l with jobs := listSet l.jobs i { j with suspended := false } })
        else .seq (laStart i j) (laKick fuel)

/-- A list's job has ended; the last one completes the command (R544). -/
def laCount (list : Nat) (ok : Bool) : Prog :=
  .ask fun d => match d.la.lists.find? fun x => x.id == list with
    | none => .skip
    | some x =>
      let y : LaList := { x with left := x.left - 1, ok := x.ok + b2n ok, other := x.other + b2n (!ok) }
      if y.left = 0 then .all [
        .eff (.la fun l => { l with lists := l.lists.filter fun z => z.id != list }),
        respond y.call 0 (beBytes 2 y.ok ++ beBytes 2 y.other)]
      else .eff (.la fun l => { l with lists := l.lists.map fun z => if z.id = list then y else z })

/-- Function key of a session's owner. -/
def Dev.laFn (d : Dev) (n : Nat) : Nat := hostKey (d.sessionOwner n)

/-- STATUS of a job is written back. -/
def laStatus (fk : Nat) (j : LaJob) (st : Nat) : Prog := send .dma fk (j.addr + 2) (leBytes 2 st)
/-- DST of a job is zeroed. -/
def laZero (fk : Nat) (j : LaJob) : Prog := send .dma fk j.dst (zeros j.len)

/-- What a job does when it ends; the answer is its status (Table 19.7). `fault` is a check mismatch (R551). -/
def laFinish (d : Dev) (j : LaJob) (fault : Bool) : Prog × Nat :=
  let fk := d.laFn j.session
  let ses := d.session j.session
  let key := ses.drop 8
  let aad := j.src.take j.aadLen
  let text := slice j.src j.aadLen j.len
  if j.bad then (.skip, 3)
  else if j.dma ≠ 0 then (laZero fk j, 4)
  else if j.op = 1 ∧ j.ctr.isNone then (.skip, 2)
  else if fault ∧ d.num .ciphCheckMode ≠ 2 then (.all [laZero fk j, count .ciphCheckFaults, raise 424 j.session], 5)
  else if j.op = 1 then
    let iv := slice ses 4 4 ++ beBytes 8 (j.ctr.getD 0)
    let r := Config.gcmSeal key iv aad text
    (.all [send .dma fk j.dst r.1, send .dma fk (j.addr + 32) iv, send .dma fk (j.addr + 48) (padTo 16 r.2)], 0)
  else match Config.gcmOpen key j.iv aad text j.tag with
    | some pt => (send .dma fk j.dst pt, 0)
    | none => (.all [laZero fk j, countIn .ciphLaCounters 0 0 8 8 1], 1)

/-- The running job finishes and writes its STATUS (R545). -/
def execLaJobComplete (fault : Bool) (s : State) : Host.Outcome State Fault Refusal :=
  s.run (.ask fun d => .when d.answers [match runner d.la.jobs with
    | none => .skip
    | some i => match d.la.jobs[i]? with
      | none => .skip
      | some j =>
        let r := laFinish d j fault
        .all [
          r.1, laStatus (d.laFn j.session) j r.2,
          .when (r.2 == 0) [countIn .ciphLaCounters 0 0 0 8 1],
          .when (decide (r.2 ≤ 1)) [countIn .ciphLaCounters 0 0 24 8 j.len],
          .when (r.2 == 3 || r.2 == 4) [raise 423 j.session 0 (top16 r.2)],
          .eff (.la fun l => { l with jobs := l.jobs.eraseIdx i }),
          laCount j.list (r.2 == 0),
          laKick 4]])

/-- A session ends: its jobs end with status 0x0006, written only where the function holds a live lease (R549). -/
def laEnd (n : Nat) : Prog :=
  .ask fun d =>
    let fk := d.laFn n
    let live := (d.fn fk).live
    .when (d.sessionOpen n) [
      .each (d.la.jobs.filter fun j => j.session == n) fun j => .all [
        .when live [laZero fk j, laStatus fk j 6],
        .eff (.la fun l => { l with jobs := l.jobs.erase j }),
        laCount j.list false],
      .eff (.dropKeys fun k => k == laKey n),
      putN .ciphLaSessionsOpen 0 0 (d.num .ciphLaSessionsOpen - 1),
      laKick 4]

/-- The sessions whose keys stand in the store. -/
def Dev.sessions (d : Dev) : List Nat :=
  (d.keys.filter fun e => decide (laKey 0 ≤ e.1) && decide (e.1 < laKey 16384)).map fun e => e.1 - laKey 0

/-- CIPH_LA_CLOSE (R549). -/
def laCloseBeh (code n : Nat) : Beh :=
  beh (fun d => if !d.sessionOpen n ∨ d.sessionOwner n ≠ code ∨ 16384 ≤ n then 0x0201 else 0) (fun _ => 0)
    fun _ => .done (laEnd n) []

/-- The command CIPH_LA_CLOSE. -/
def execCiphLaClose (o : Origin) (n : BitVec 16) (s : State) : Host.Outcome State Fault Refusal :=
  s.run (.ask fun d => serveExec o .ciphLaClose 0 0 true (.num n.toNat) (laCloseBeh (d.codeOf o.path) n.toNat))

/-- CIPH_LA_SUBMIT (R544); the job records and their sources are fetched by DMA. -/
def laSubmitBeh (c : Call) (code : Nat) (b : List Byte) (jobs : List LaFetch) : Beh :=
  let n := beAt b 0 2
  let cnt := beAt b 2 2
  let list := beAt b 8 8
  beh
    (fun d => firstAbort [
      (decide (16384 ≤ n) || !d.sessionOpen n || d.sessionOwner n != code, 0x0201),
      (cnt == 0 || decide (256 < cnt) || beAt b 4 4 != 0 || list % 64 != 0, 0x0302)])
    (fun _ => 0)
    fun _ => .later (.all [
      .eff (.la fun l => { l with
        next := l.next + 1, lists := l.lists ++ [⟨l.next, c, cnt, 0, 0⟩],
        jobs := l.jobs ++ (List.range cnt).map fun i =>
          let f := (jobs[i]?).getD ⟨zeros 64, [], 4⟩
          ⟨n, l.next, list + 64 * i, padTo 64 f.record, f.src, f.dma.toNat, false, false, none⟩ }),
      laKick (cnt + 4)])

/-- The command CIPH_LA_SUBMIT. -/
def execCiphLaSubmit (o : Origin) (b : List Byte) (jobs : List LaFetch) (s : State) : Host.Outcome State Fault Refusal :=
  s.run (.ask fun d => serveExec o .ciphLaSubmit 0 0 (b.length == 16) (.oct b)
    (laSubmitBeh (elemReq o 3 .ciphLaSubmit 0 0 (.oct b)).call (d.codeOf o.path) b jobs))

end Sys2Proof.Machine
end

