-- ==== Sys2Proof/Machine/Recorder.lean ====
section
/-!
DEFINITION. The event recorder and the fault monitors (R611 to R629), and what an event does where it is mapped: MSI-X (R194), event
rings (R192) and the wake it may raise (Table 4.4).
-/
namespace Sys2Proof.Machine

/-- The complex that owns a source (Tables 1.1 and 22.1). -/
def complexOf (s : Nat) : Nat :=
  if s < 64 then 9 else if s < 128 then 3 else if s < 192 then 1 else if s < 224 then 2 else if s < 336 then 3
  else if s < 368 then 4 else if s < 400 then 5 else if s < 416 then 6 else if s < 432 then 7 else if s < 448 then 8
  else if s < 480 then 10 else if s < 504 then 9 else 11

/-- A record as EVR_READ returns it, most significant byte first (Table 22.1). -/
def Record.bytes (r : Record) : List Byte :=
  beBytes 2 r.src ++ beBytes 1 r.sev ++ beBytes 1 r.cpx ++ beBytes 4 r.seq ++ beBytes 6 r.secs ++ beBytes 4 r.ns
    ++ beBytes 1 r.rep ++ beBytes 1 r.flags ++ beBytes 1 r.code ++ beBytes 3 r.inst ++ beBytes 4 r.arg0 ++ beBytes 4 r.arg1

/-- A record as an event ring carries it (R611, R8). -/
def Record.ringBytes (r : Record) : List Byte :=
  leBytes 2 r.src ++ leBytes 1 r.sev ++ leBytes 1 r.cpx ++ leBytes 4 r.seq ++ leBytes 10 (r.secs * 2 ^ 32 + r.ns)
    ++ leBytes 1 r.rep ++ leBytes 1 r.flags ++ leBytes 1 r.code ++ leBytes 3 r.inst ++ leBytes 4 r.arg0 ++ leBytes 4 r.arg1

/-- The record of an occurrence with a count (R616, R612); SEQ is given when it is written. -/
def Dev.recordOf (d : Dev) (x : Occ) (cnt : Nat) (sat : Bool) : Record where
  src := x.src % 512
  sev := d.num .evrSrcCfg 0 x.src % 8
  cpx := complexOf x.src
  seq := 0
  secs := x.secs
  ns := x.ns
  rep := cnt - 1
  flags := 128 * b2n x.unsync + 64 * b2n sat
  code := x.code % 256
  inst := x.inst % 2 ^ 24
  arg0 := x.arg0 % 2 ^ 32
  arg1 := x.arg1 % 2 ^ 32

/-- A written record goes to each running event ring whose lowest severity it reaches; a full ring takes none (R192). -/
def eventRings (r : Record) : Prog :=
  .ask fun d => .each (d.rings.map (·.1)) fun k => .ask fun e =>
    let g := e.ringSt k
    let l := e.linkOfRing k
    .when (g.state == 1 && g.kind == 5 && decide (g.sev ≤ r.sev)) [
      if 2 ^ g.log2 ≤ ixDist g.devIx g.hostIx then .all [count .hifEventRingOverflows l, raise (64 + 16 * l + 12) k]
      else .all [send .dma (e.ringFn k) (g.base + 32 * (g.devIx % 2 ^ g.log2)) r.ringBytes, ringAdvance k]]

/-- A record that finds no room is counted for its severity; event 480 follows at most once per second (R617). -/
def recordLost (sev : Nat) : Prog :=
  .ask fun d => .all [
    count .evrLost 0 sev,
    .when (d.recd.lastDrop != some d.tim.secs) [.eff (.recDropAt d.tim.secs), raise 480 noInst 0 (top8 sev)]]

/-- A record is written under the next SEQ (R613, R617), or dropped for want of room. -/
def writeRecord (r : Record) : Prog :=
  .ask fun d =>
    if hasRoom d.recd.recs r then
      let q := { r with seq := d.num .evrNextSeq }
      .all [.eff (.recWrite q), putN .evrNextSeq 0 0 ((q.seq + 1) % 2 ^ 32), eventRings q]
    else recordLost r.sev

/-- Whether a record merges into the most recently written one (R616). -/
def Dev.merges (d : Dev) (r : Record) : Bool :=
  match d.recd.recs.getLast? with
  | some q =>
    let w := d.num .evrRepeatWindow * 1000000
    let t := addNs q.secs q.ns w
    q.src == r.src && q.code == r.code && q.inst == r.inst && decide (q.rep + r.rep + 1 ≤ 255) && decide (w ≠ 0)
      && timeLe' q.secs q.ns r.secs r.ns && !timeLe' t.1 t.2 r.secs r.ns
  | none => false
where
  timeLe' (s1 n1 s2 n2 : Nat) : Bool := decide (s1 < s2) || (s1 == s2 && decide (n1 ≤ n2))

/-- A record enters the recorder under R616 and R617. -/
def enterRecord (r : Record) : Prog :=
  .ask fun d => if d.merges r then .eff (.recMerge (r.rep + 1) (bitOf r.flags 6)) else writeRecord r

/-- An occurrence reaches a frozen recorder (R620). -/
def holdRecord (r : Record) : Prog :=
  .ask fun d =>
    if r.sev < 6 then countBy .evrFrozenMissed 0 r.sev (r.rep + 1)
    else if d.recd.hold.length < holdCap then .eff (.recHold r)
    else .all [countBy .evrLost 0 r.sev (r.rep + 1), .when (!d.recd.fullRaised) [.eff .recFull, raise 482]]

/-- An event is delivered where it is mapped (R194): a message on each enabled entry's vector; an entry that can send none counts. -/
def eventVectors (src : Nat) : Prog :=
  .ask fun d => .each (List.range 4) fun l =>
    let e := d.num .hifEvtMap l src
    .when (d.linkUsed l && bitOf e 31) [
      if d.canSignal l (bitsOf e 16 6) then assertVector l (bitsOf e 16 6) (e % 2048)
      else count .hifUndeliveredEvents l]

/-- An event of severity at or above PWR_WAKE_SEVERITY is a wake source (Table 4.4, bit 7). -/
def eventWake (src : Nat) : Prog :=
  .ask fun d => .when (decide (d.num .pwrWakeSeverity ≤ d.num .evrSrcCfg 0 src % 8)) [wake 7]

/-- An occurrence with its count reaches the recorder (R615, R616, R620) and is delivered. -/
def takeOccurrence (x : Occ) (cnt : Nat) (sat : Bool) : Prog :=
  .all [
    .ask fun d => .when (bitOf (d.num .evrSrcCfg 0 x.src) 7) [
      let r := d.recordOf x cnt sat
      if d.recd.frozen.isSome then holdRecord r else enterRecord r],
    .when sat [count .xingMergeSaturations],
    eventVectors x.src, eventWake x.src]

/-- Every occurrence on its way reaches the recorder. -/
def recordAll : Prog :=
  .ask fun d => .each d.occs fun x => .seq (.eff .takeOcc) (takeOccurrence x 1 false)

/-- How many of the occurrences behind the first are like it. -/
def Dev.likeFirst (d : Dev) : Nat :=
  match d.occs with
  | [] => 0
  | x :: r => (r.filter x.like).length

/-- EVENT_RECORD: the first occurrence on its way reaches the recorder. Of the like ones behind it, up to `n` came faster than the crossing's
handshake returned: they merge into it, and their count saturates at 255, which XING_MERGE_SATURATIONS and event 18 record (R100). -/
def recordFirst (n : Nat) : Prog :=
  .ask fun d => match d.occs with
    | [] => .skip
    | x :: _ =>
      let k := min n d.likeFirst
      .all [.eff (.mergeOccs k), .eff .takeOcc, takeOccurrence x (1 + min k 255) (decide (255 < k)), .when (decide (255 < k)) [raise 18]]

/-- Event 481 is recorded and delivered at once; it never passes through the holding area (R620). -/
def freezeEvent (code holder : Nat) : Prog :=
  .ask fun d => takeOccurrence ⟨481, code, holder, 0, 0, d.tim.secs, d.tim.ns, !d.synced⟩ 1 false

/-- A freeze ends: the held records enter in arrival order with FLAGS bit [5], and then the end is recorded (R619, R620). -/
def endFreeze (code : Nat) : Prog :=
  .ask fun d => match d.recd.frozen with
    | none => .skip
    | some h => .all [
        .eff (.recFreeze none),
        .each d.recd.hold fun r => .seq (.eff .recUnhold) (enterRecord { r with flags := putBit r.flags 5 true }),
        freezeEvent code h]

/-- The records EVR_READ returns (R618): from a SEQ onward, at most `n`. -/
def Dev.recordsFrom (d : Dev) (seq n : Nat) : List Record :=
  (d.recd.recs.filter fun r => decide ((r.seq + 2 ^ 32 - seq) % 2 ^ 32 < 2 ^ 31)).take n

/-- EVR_READ (R618). -/
def evrReadBeh (p : UPath) (arg : List Byte) : Beh :=
  beh (fun _ => if beAt arg 4 2 = 0 ∨ 127 < beAt arg 4 2 ∨ beAt arg 6 2 ≠ 0 then 0x0302 else 0) (fun _ => 0)
    fun d => .done .skip ((d.recordsFrom (beAt arg 0 4) (min (beAt arg 4 2) (pathData p / 32))).flatMap Record.bytes)

/-- EVR_FREEZE with 1 (R619). -/
def evrFreezeBeh (code : Nat) : Beh :=
  beh (fun _ => 0) (fun d => match d.recd.frozen with
    | some h => if h = code then 0 else 0x0402
    | none => 0)
    fun d => .done (.when d.recd.frozen.isNone [freezeEvent 1 code, .eff (.recFreeze (some code))]) []

/-- EVR_FREEZE with 0 (R619). -/
def evrUnfreezeBeh (code : Nat) : Beh :=
  beh (fun d => match d.recd.frozen with
    | some h => if h = code ∨ code = 0x0400 then 0 else 0x0201
    | none => 0) (fun _ => 0)
    fun _ => .done (endFreeze 2) []

/-- The token a requester holds, while it is valid (R606). A stored token is its last second and nanosecond, then its 16 bytes. -/
def Dev.token (d : Dev) (code : Nat) : Option (List Byte) :=
  let t := SMap.get [] d.sec.tokens code
  if t.length = 26 ∧ (d.tim.secs < beAt t 0 6 ∨ d.tim.secs = beAt t 0 6 ∧ d.tim.ns ≤ beAt t 6 4) then some (t.drop 10) else none

/-- Lost held records are counted for their severities. -/
def loseHeld : Prog := .ask fun d => .each d.recd.hold fun r => countBy .evrLost 0 r.sev (r.rep + 1)

/-- EVR_CLEAR (R621). The record of event 483 is written with SEQ 1; the end of the requester's freeze, code 6, is recorded after it. -/
def evrClearBeh (code : Nat) (tok : List Byte) : Beh :=
  let st := fun d : Dev =>
    if d.token code ≠ some tok then 0x0601
    else match d.recd.frozen with
      | some h => if h = code then 0 else 0x0402
      | none => 0
  ⟨fun _ => 0, st, fun d => .done (.all [
      .eff (.sec fun s => { s with tokens := SMap.put [] code [] s.tokens }),
      loseHeld, .eff (.recFreeze none), .eff .recClear, putN .evrNextSeq 0 0 1,
      .ask fun e => .when (bitOf (e.num .evrSrcCfg 0 483) 7) [writeRecord { e.recordOf ⟨483, 0, code, d.recd.recs.length, 0, e.tim.secs, e.tim.ns, !e.synced⟩ 1 false with
        flags := 16 + 128 * b2n (!e.synced) }],
      eventVectors 483, eventWake 483,
      .when (d.recd.frozen == some code) [freezeEvent 6 code]]) [],
    fun _ own a => .when own [raise 484 noInst 0 (top16 a)]⟩

/-! ## The meanings -/

/-- EVENT_RECORD (R616). -/
def execEventRecord (merged : BitVec 16) (s : State) : Host.Outcome State Fault Refusal := s.run (live (recordFirst merged.toNat))

/-- EVR_READ (R618). -/
def execEvrRead (o : Origin) (arg : List Byte) (s : State) : Host.Outcome State Fault Refusal :=
  s.run (.ask fun _ => serveExec o .evrRead 0 0 (decide (arg.length = 8)) (.oct arg) (evrReadBeh o.path arg))

/-- EVR_FREEZE_START (R619). -/
def execEvrFreezeStart (o : Origin) (s : State) : Host.Outcome State Fault Refusal :=
  s.run (.ask fun d => serveExec o .evrFreeze 0 0 true (.num 1) (evrFreezeBeh (d.codeOf o.path)))

/-- EVR_FREEZE_END (R619). -/
def execEvrFreezeEnd (o : Origin) (s : State) : Host.Outcome State Fault Refusal :=
  s.run (.ask fun d => serveExec o .evrFreeze 0 0 true (.num 0) (evrUnfreezeBeh (d.codeOf o.path)))

/-- EVR_FREEZE_LIMIT (R619): the limit has passed since the start of the freeze. -/
def execEvrFreezeLimit (s : State) : Host.Outcome State Fault Refusal := s.run (live (endFreeze 3))

/-- EVR_CLEAR (R621). -/
def execEvrClear (o : Origin) (token : List Byte) (s : State) : Host.Outcome State Fault Refusal :=
  s.run (.ask fun d =>
    serveExec o .evrClear 0 0 (decide (token.length = 16)) (.oct token) (evrClearBeh (d.codeOf o.path) token))

/-- THERM_N is driven; event 496 records each change (R624). In a device-wide reset, Deep Sleep and Off the ball is high-impedance (R65, R71). -/
def thermDrive (low : Bool) : Prog :=
  .ask fun d => .when (d.pins.thermN == low && !d.clk.devReset && decide (d.num .pwrState < 3)) [.eff (.pins fun p => { p with thermN := !low }), raise 496]

/-- THERM_ASSERT (R624). -/
def execThermAssert (s : State) : Host.Outcome State Fault Refusal := s.run (thermDrive true)

/-- THERM_RELEASE (R624). -/
def execThermRelease (s : State) : Host.Outcome State Fault Refusal := s.run (thermDrive false)

/-- THERM_MONITOR_FAULT (R624): event 497, and THERM_N is held low. -/
def execThermMonitorFault (s : State) : Host.Outcome State Fault Refusal := s.run (.all [raise 497, thermDrive true])

/-- VCORE_OUT_OF_RANGE (R624). -/
def execVcoreOutOfRange (s : State) : Host.Outcome State Fault Refusal := s.run (raise 498)

/-- RAIL_OUT_OF_RANGE (R624): FLT_RAIL_STATUS reports the rails outside range; event 499 names the rail when one leaves it. -/
def execRailOutOfRange (rail : Fin 10) (outside : Bool) (s : State) : Host.Outcome State Fault Refusal :=
  s.run (.all [setFlag .fltRailStatus 0 0 rail.val outside, .when outside [raise 499 rail.val]])

/-- A pair of samples of value crossing `x` (R101): a value that both samples show is accepted; otherwise the last accepted one stays, and the
16th successive disagreeing pair counts a failure. -/
def samplePair (x : Nat) (p : Nat × Nat) : Prog :=
  .ask fun d =>
    let v := SMap.get (0, 0) d.clk.values x
    let next (w : Nat × Nat) : Prog := .eff (.clk fun c => { c with values := SMap.put (0, 0) x w c.values })
    if p.1 = p.2 then next (p.1, 0)
    else if v.2 + 1 < 16 then next (v.1, v.2 + 1)
    else .all [next (v.1, 0), count .xingResampleFailures]

/-- XING_RESAMPLE_FAILURE (R101): pairs of samples of a value crossing, first to last. -/
def execXingResampleFailure (x : BitVec 8) (pairs : List (BitVec 32 × BitVec 32)) (s : State) : Host.Outcome State Fault Refusal :=
  s.run (live (.each pairs fun p => samplePair x.toNat (p.1.toNat, p.2.toNat)))

/-- AER_ERROR_LOGGED (R195): events 64 + 16n + 3 and 64 + 16n + 4. -/
def execAerErrorLogged (link : Fin 4) (uncorrectable : Bool) (s : State) : Host.Outcome State Fault Refusal :=
  s.run (live (.ask fun d => .when (d.linkUsed link.val) [raise (64 + 16 * link.val + (if uncorrectable then 4 else 3)) link.val]))

/-- PCIE_L1_EXIT (R119): a link leaving L1 is a wake source in Idle and Sleep. -/
def execPcieL1Exit (link : Fin 4) (s : State) : Host.Outcome State Fault Refusal :=
  s.run (.ask fun d => .when (d.linkUsed link.val && d.answers) [.eff (.link link.val fun l => { l with inL1 := false }), wake 2])

end Sys2Proof.Machine
end

