-- ==== Sys2Proof/Machine/PcieConfig.lean ====
section
/-!
DEFINITION. The configuration space of a function (R175, Table 6.2). The values are the table's; where a capability stands and which of its bits
are which is PCI Express Base 4.0's, and the places are the model's (PRESUMED and DESIGN CHOICE, log entry 109).
-/
namespace Sys2Proof.Machine

/-- A value with the bits of a mask taken from another. -/
def cfgMerge (mask old new : Nat) : Nat := (old ^^^ (old &&& mask)) ||| (new &&& mask)

/-- Bits that a write of a configuration dword changes. BAR0 has 2 MiB, BAR2 256 MiB, on H0 only, and BAR4 64 KiB. -/
def cfgWritable (link fn off : Nat) : Nat :=
  if fn = 0 then
    match off with
    | 0x04 => 0x0546
    | 0x10 => 0xFFE00000
    | 0x14 => 0xFFFFFFFF
    | 0x18 => if link = 0 then 0xF0000000 else 0
    | 0x1C => if link = 0 then 0xFFFFFFFF else 0
    | 0x20 => 0xFFFF0000
    | 0x24 => 0xFFFFFFFF
    | 0x44 => 0x3
    | 0x78 => 0x79FF
    | 0x80 => 0x3
    | 0x98 => 0x1000
    | 0x118 => 0x140
    | 0x178 => 0x18
    | 0x180 => 0xFFFF
    | 0x194 => 0xFFE00000
    | 0x198 => 0xFFFFFFFF
    | 0x1A4 => 0xFFFF0000
    | 0x1A8 => 0xFFFFFFFF
    | 0x1B4 => 0x2C0000
    | _ => 0
  else
    match off with
    | 0x04 => 0x4
    | 0x44 => 0x3
    | _ => 0

/-- What the writable bits of a dword hold at reset: Device Control has an MRRS of 512 bytes, Relaxed Ordering and No Snoop enabled. -/
def cfgDefault (off : Nat) : Nat := if off = 0x78 then 0x2810 else 0

/-- The header of an extended capability. -/
def extCap (ident next : Nat) : Nat := next * 2 ^ 20 + 2 ^ 16 + ident

/-- The bits of a dword that Table 6.2 and the capabilities' own layouts fix, as a mask and their value. -/
def Dev.cfgFixed (d : Dev) (link fn off : Nat) : Nat × Nat :=
  let all := 0xFFFFFFFF
  let k := d.fn (fnKey link fn)
  match off with
  | 0x00 => (all, (if fn = 0 then 0x9640 else 0x9641) * 65536 + Config.vendorId % 65536)
  | 0x08 => (all, 0x028000 * 256 + 0x21)
  | 0x10 => (0x001FFFFF, if fn = 0 then 4 else 0)
  | 0x18 => if fn = 0 ∧ link = 0 then (0x0FFFFFFF, 4) else (all, 0)
  | 0x1C => if fn = 0 ∧ link = 0 then (0, 0) else (all, 0)
  | 0x20 => (0x0000FFFF, if fn = 0 then 4 else 0)
  | 0x34 => (0xFF, 0x40)
  -- power management: no PME, No_Soft_Reset 0
  | 0x40 => (0xFE0FFFFF, 0x00035001)
  | 0x44 => (0x8, 0)
  -- MSI-X: Table Size is the allocation minus one; table at BAR4 0x0000, PBA at BAR4 0x8000
  | 0x50 => (all, b2n k.msixOn * 2 ^ 31 + b2n k.msixMask * 2 ^ 30 + (d.vectorsOf link fn - 1) % 2048 * 65536 + 0x7011)
  | 0x54 => (all, 0x4)
  | 0x58 => (all, 0x8004)
  -- PCI Express: endpoint; payloads to 512 bytes, FLR; L1 and no L0s; 10-bit tags; no TPH
  | 0x70 => (all, 0x00020010)
  | 0x74 => (0x10000027, 0x10000022)
  | 0x78 => (0x8000, 0)
  | 0x7C => (0xFFF, 2 * 1024 + 16 / d.bifur.1 * 16 + 4)
  | 0x80 => (0x03FF0000, d.num .hifLinkWidth link % 64 * 2 ^ 20 + d.num .hifLinkSpeed link % 16 * 2 ^ 16)
  | 0x94 => (0x00033000, 0x00030000)
  | 0x9C => (0xFE, 0x1E)
  -- AER, with ECRC generation and checking
  | 0x100 => (all, extCap 0x0001 (if fn = 0 then 0x150 else 0) + 2 ^ 16)
  | 0x118 => (0xA0, 0xA0)
  -- Device Serial Number, ARI, SR-IOV and ACS: the PF alone
  | 0x150 => if fn = 0 then (all, extCap 0x0003 0x160) else (0, 0)
  | 0x154 => if fn = 0 then (all, d.num .idTerminal % 2 ^ 32) else (0, 0)
  | 0x158 => if fn = 0 then (all, d.num .idTerminal / 2 ^ 32) else (0, 0)
  | 0x160 => if fn = 0 then (all, extCap 0x000E 0x170) else (0, 0)
  | 0x170 => if fn = 0 then (all, extCap 0x0010 0x1B0) else (0, 0)
  | 0x178 => if fn = 0 then (0x1, b2n (d.lnk link).vfEnable) else (0, 0)
  | 0x17C => if fn = 0 then (all, 63 * 65536 + 63) else (0, 0)
  | 0x184 => if fn = 0 then (all, 0x00010001) else (0, 0)
  | 0x188 => if fn = 0 then (0xFFFF0000, 0x96410000) else (0, 0)
  | 0x194 => if fn = 0 then (0x001FFFFF, 4) else (0, 0)
  | 0x19C => if fn = 0 then (all, 0) else (0, 0)
  | 0x1A0 => if fn = 0 then (all, 0) else (0, 0)
  | 0x1A4 => if fn = 0 then (0x0000FFFF, 4) else (0, 0)
  | 0x1B0 => if fn = 0 then (all, extCap 0x000D 0) else (0, 0)
  | 0x1B4 => if fn = 0 then (0x7F, 0x2C) else (0, 0)
  | _ => (0, 0)

/-- The dword of a function's configuration space at an offset: its fixed bits, its writable bits as last written, and otherwise what PCI Express
leaves to the implementation. -/
def Dev.cfgDword (d : Dev) (link fn off : Nat) : Nat :=
  let f := d.cfgFixed link fn off
  let kept := SMap.get 0 (d.fn (fnKey link fn)).cfg off
  cfgMerge (cfgWritable link fn off) (cfgMerge f.1 (Config.configDword (fn == 0) off % 2 ^ 32) f.2)
    (if kept = 0 then cfgDefault off else kept - 1)

end Sys2Proof.Machine
end

