-- ==== Sys2Proof/Machine/TrafficCmd.lean ====
section
/-!
DEFINITION. Configuration of the hierarchy (R475 to R478), gate lists (R486 to R488), queue flush and DRAM refill (R497, R498), and counter
snapshots (R500 to R502).
-/
namespace Sys2Proof.Machine

/-! ## Node records (R475 to R478) -/

/-- RATE and BURST outside their ranges (R475). -/
def rateBad (rate burst : Nat) : Bool := (decide (1 ≤ rate) && decide (rate ≤ 7)) || decide (1600000000 < rate) || decide (16777216 < burst)

/-- What every node record must satisfy: level 0 queue, 1 subscriber node, 2 service node. -/
def nodeBad (level : Nat) (b : List Byte) : Bool :=
  let dram := level == 0 && bitOf (nodeCtrl b) 6
  decide ((match level with
    | 0 => 32767
    | 1 => 4095
    | _ => 115) < nodeParent b)
    || rateBad (nodeRate b) (nodeBurst b) || nodeWeight b == 0
    || (if level = 0 then nodeCtrl b % 8 != 0 else nodeCtrl b != 0)
    || (match level with
      | 0 => nodeExtra b % 256 != 0
      | 1 => nodeExtra b != 0
      | _ => bitOf (nodeExtra b) 14)
    || (if dram then decide (nodeHead b < 16) || decide (4096 < nodeHead b) else nodeHead b != 0)
    || beAt b 18 2 != 0

/-- Deficits of a node restart at zero when its parent changes (R476). -/
def clearDeficits (k : Nat) : Prog :=
  .eff (.tm fun t => { t with deficits := SMap.drop (fun x => x / 8 == k) t.deficits })

/-- A node record takes its value. -/
def nodeStore (o : Obj) (ix k : Nat) (b : List Byte) : Prog :=
  .ask fun d =>
    let old := d.oct o 0 ix
    .all [
      reshape k (nodeRate old) (nodeBurst old) (nodeRate b) (nodeBurst b),
      .when (nodeParent old != nodeParent b) [clearDeficits k],
      putO o 0 ix b]

/-- TM_QUEUE_CFG (R475). -/
def queueCfgBeh (q : Nat) (b : List Byte) : Beh :=
  beh (fun _ => if nodeBad 0 b then 0x0302 else 0)
    (fun d =>
      let old := nodeCtrl (d.queueRec q)
      let c := nodeCtrl b
      firstAbort [(bitOf c 6 && d.dramCells == 0, 0x0401),
        (!(d.queue q).isEmpty && (bitsOf c 3 3 != bitsOf old 3 3 || bitOf c 6 != bitOf old 6), 0x0401)])
    fun _ => .done (nodeStore .tmQueueCfg q q b) []

/-- A write of TM_QUEUE_CFG. -/
def execTmQueueCfgWrite (o : Origin) (q : Fin 131072) (b : List Byte) (s : State) : Host.Outcome State Fault Refusal :=
  s.run (serveWrite o .tmQueueCfg 0 q.val (.oct b) (queueCfgBeh q.val b))

/-- TM_SUB_CFG (R475). -/
def subCfgBeh (n : Nat) (b : List Byte) : Beh :=
  beh (fun _ => if nodeBad 1 b then 0x0302 else 0) (fun _ => 0) fun _ => .done (nodeStore .tmSubCfg n (subKey n) b) []

/-- A write of TM_SUB_CFG. -/
def execTmSubCfgWrite (o : Origin) (n : Fin 32768) (b : List Byte) (s : State) : Host.Outcome State Fault Refusal :=
  s.run (serveWrite o .tmSubCfg 0 n.val (.oct b) (subCfgBeh n.val b))

/-- TM_SVC_CFG: the allocation binding is checked (R477). -/
def svcCfgBeh (n : Nat) (b : List Byte) : Beh :=
  let valid := bitOf (nodeExtra b) 15
  let fibre := decide (108 ≤ nodeParent b) && decide (nodeParent b ≤ 111)
  beh (fun _ => if nodeBad 2 b || (valid && !fibre) || nodeExtra b % 16384 == 0x3FFF then 0x0302 else 0)
    (fun d => if valid && ((List.range 4096).any fun v => v != n && nodeParent (d.svcRec v) == nodeParent b
      && bitOf (nodeExtra (d.svcRec v)) 15 && nodeExtra (d.svcRec v) % 16384 == nodeExtra b % 16384) then 0x0401 else 0)
    fun _ => .done (nodeStore .tmSvcCfg n (svcKey n) b) []

/-- A write of TM_SVC_CFG. -/
def execTmSvcCfgWrite (o : Origin) (n : Fin 4096) (b : List Byte) (s : State) : Host.Outcome State Fault Refusal :=
  s.run (serveWrite o .tmSvcCfg 0 n.val (.oct b) (svcCfgBeh n.val b))

/-- TM_PORT_CFG (R478). -/
def portCfgBeh (p : Nat) (b : List Byte) : Beh :=
  let ovh := toInt 8 (beAt b 8 1)
  let base := beAt b 20 4
  beh (fun _ => if rateBad (portNodeRate b) (portNodeBurst b)
      || decide (ovh < -64) || decide (64 < ovh) || beAt b 10 2 != 0 || beAt b 24 8 != 0
      || ((b.drop 12).take 8).any (· == 0)
      || (decide (131064 < base) && base != 0xFFFFFFFF) || (decide (116 ≤ p) && base != 0xFFFFFFFF) then 0x0302 else 0)
    (fun _ => 0)
    fun d =>
      let old := d.portRec p
      .done (.all [
        reshape (portKey p) (portNodeRate old) (portNodeBurst old) (portNodeRate b) (portNodeBurst b), putO .tmPortCfg 0 p b]) []

/-- A write of TM_PORT_CFG. -/
def execTmPortCfgWrite (o : Origin) (p : Fin 128) (b : List Byte) (s : State) : Host.Outcome State Fault Refusal :=
  s.run (serveWrite o .tmPortCfg 0 p.val (.oct b) (portCfgBeh p.val b))

/-- TM_ADM_PROFILE (R494). -/
def admProfileBeh (k : Nat) (b : List Byte) : Beh :=
  beh (fun _ => if decide (beAt b 12 4 ≤ beAt b 8 4) && decide (beAt b 8 4 ≤ beAt b 4 4) && decide (beAt b 4 4 ≤ 268435456)
      && decide (beAt b 0 4 ≤ beAt b 4 4) && decide (beAt b 16 1 ≤ 15) && beAt b 17 3 == 0 then 0 else 0x0302)
    (fun _ => 0) fun _ => .done (putO .tmAdmProfile 0 k b) []

/-- TM_IRES_SHARE and TM_IRES_CONTROL: the ingress reserve stays within 262,144 cells (R492). -/
def iresBeh (x : Obj) (j v : Nat) : Beh :=
  beh (fun d =>
      let old := d.num x 0 j
      if old < v ∧ 262144 < d.ingressReserve - old + v then 0x0302 else 0)
    (fun _ => 0) fun _ => .done (.all [putN x 0 j v, poolCheck]) []

/-- TM_SNAP_CELLS: changed only while every slot is free (R501). -/
def snapCellsBeh (v : Nat) : Beh :=
  beh (fun _ => 0) (fun d => if (List.range 4).any fun k => d.num .tmSnapStatus 0 k / 2 ^ 24 != 0 then 0x0401 else 0)
    fun _ => .done (.all [putN .tmSnapCells 0 0 v, poolCheck]) []

/-! ## Gate lists (R486 to R488) -/

/-- Form and ranges of a gate list. -/
def gateForm (b : List Byte) : Bool := decide (24 ≤ b.length) && decide (glCount b ≤ 1024) && b.length == 24 + 8 * glCount b
def gateRange (b : List Byte) : Bool :=
  beAt b 2 2 == 0 && decide (1000 ≤ glCycle b) && decide (glCycle b ≤ 1000000000) && beAt b 18 6 == 0
    && (List.range (glCount b)).all fun i => decide (8 ≤ glInterval b i) && beAt b (25 + 8 * i) 3 == 0

/-- TM_GATE_ADMIN (R486). -/
def gateAdminBeh (p : Nat) (b : List Byte) : Beh :=
  beh (fun _ => if !gateForm b then 0x0301 else if !gateRange b then 0x0302 else 0) (fun _ => 0)
    fun _ => .done (putO .tmGateAdmin p 0 b) []

/-- A write of TM_GATE_ADMIN. -/
def execTmGateAdminWrite (o : Origin) (p : Fin 108) (b : List Byte) (s : State) : Host.Outcome State Fault Refusal :=
  s.run (serveWrite o .tmGateAdmin p.val 0 (.oct b) (gateAdminBeh p.val b))

/-- TM_GATE_SWITCH: kind 6 of Table 20.5 (R488). -/
def gateSwitchBeh (code : Nat) (arg : List Byte) : Beh :=
  let p := beAt arg 1 1
  let trig := parseTrig (beAt arg 0 1) (arg.drop 2)
  let holds := [Obj.tmGateAdmin.key p 0, Obj.tmGateOper.key p 0, Obj.tmGateState.key p 0]
  beh (fun d => if arg.length ≠ 12 then 0x0301
      else if 107 < p then 0x0302
      else match trig with
        | none => 0x0302
        | some t => if d.trigAhead (d.num .clkTimingChannel) t then 0 else 0x0302)
    (fun d => firstAbort [
      (d.armConflict 6 p holds, 0x0501),
      (trig.any (d.trigUnaligned (d.num .clkTimingChannel)), 0x0401),
      (d.actsFull, 0x0402)])
    (fun _ => match trig with
      | none => .abort 0x0302 .skip
      | some t => .done (armAct 6 p t code holds []) [])

/-- TM_GATE_SWITCH. -/
def execTmGateSwitch (o : Origin) (arg : List Byte) (s : State) : Host.Outcome State Fault Refusal :=
  s.run (serveExec o .tmGateSwitch 0 0 (arg.length == 12) (.oct arg) (gateSwitchBeh o.code.toNat arg))

/-- A gate list switch at its instant (R488). `sending` is the traffic class of a packet that is being sent: it completes, and is an
overrun when the new list closes its gate (R487). -/
def execGateListSwitchFire (p : Fin 108) (sending : Option (Fin 8)) (s : State) : Host.Outcome State Fault Refusal :=
  s.run (live (.ask fun d => match d.pendingOn 6 p.val with
    | some a => .when (d.actTurn a) [
        let g := d.oct .tmGateAdmin p.val
        let open' := gatesAt g d.nowNs
        .all [
          .eff (.disarm a.slot), putO .tmGateOper p.val 0 g, putN .tmGateState p.val 0 open', raise 370 p.val,
          match sending with
          | some t => .when (bitOf (d.num .tmGateState p.val) t.val && !bitOf open' t.val)
              [count .tmGateOverruns, raise 373 p.val 0 (top8 t.val)]
          | none => .skip,
          lateAct a (d.actLate a)]]
    | none => .skip))

/-- A gate list interval ends: the gates take the states of the entry at the present phase (R487). -/
def execGateIntervalEnd (p : Fin 108) (s : State) : Host.Outcome State Fault Refusal :=
  s.run (live (.ask fun d => putN .tmGateState p.val 0 (gatesAt (d.oct .tmGateOper p.val) d.nowNs)))

/-! ## Flush and refill -/

/-- TM_QUEUE_FLUSH (R498). -/
def queueFlushBeh (q : Nat) : Beh :=
  beh (fun _ => if 131071 < q then 0x0302 else 0) (fun d => if d.queueOn q then 0x0401 else 0)
    fun _ => .done (flushQueue q 8) []

/-- TM_QUEUE_FLUSH. -/
def execTmQueueFlush (o : Origin) (arg : BitVec 32) (s : State) : Host.Outcome State Fault Refusal :=
  s.run (serveExec o .tmQueueFlush 0 0 true (.num arg.toNat) (queueFlushBeh arg.toNat))

/-- The buffer manager refills the SRAM head of a queue from DRAM (R497). -/
def execDramHeadRefill (q : Fin 131072) (s : State) : Host.Outcome State Fault Refusal :=
  s.run (live (.ask fun d =>
    let x := d.refillQueue (nodeHead (d.queueRec q.val)) true 0 d.sharedFree (d.queue q.val)
    .all [
      .eff (.tm fun t => { t with queues := SMap.put [] q.val x.1 t.queues }),
      .each x.2.2 (askCell false),
      .each (List.range x.2.1) fun _ => tmDrop 9 (some q.val),
      poolCheck]))

/-! ## Snapshots (R500 to R502) -/

/-- The counters of the device with the bytes of one counter in a block (0: a counter of its own). MAC counters are not among them (R393). -/
def counterObjs : List (Obj × Nat) :=
  ([.xingClosedDiscards, .xingTimeouts, .xingMergeSaturations, .xingResampleFailures, .gateDrainTimeouts, .pwrSleepDiscards,
    .pwrIdleGrantsIdled, .umaniDiscards, .umaniDuplicates, .umaniBlocksAbandoned, .hifBadAccesses, .hifSlowpathDrops, .hifDirectDenied,
    .hifEventRingOverflows, .hifUndeliveredEvents, .hifAbandonedCells, .hifRevocations, .feAdcClips, .feApdLimitEvents, .feRogueTrips,
    .hvWatchdogTrips, .hvLinkErrors, .dmtProfileMismatches, .dmtFramesSkipped, .dmtCwTotal, .dmtCwCorrected, .dmtCwUncorrectable,
    .dmtBitsCorrected, .dmtHdrUncorrectable, .mgtTxPackets, .mgtTxDrops, .mgtSlRxDetects, .mgtCmRxDetects, .mgtSlRxPackets,
    .mgtCmRxPackets, .mgtSlRxFalseStarts, .mgtCmRxFalseStarts, .mgtSlRxHdrFails, .mgtCmRxHdrFails, .mgtSlRxReserved, .mgtCmRxReserved,
    .mgtSlRxOther, .mgtCmRxOther, .mgtSlRxCrcErrors, .mgtCmRxCrcErrors, .mgtSlRxCaptured, .mgtCmRxCaptured, .mgtSlRxIgnored,
    .mgtCmRxIgnored, .mgtSlRxProbes, .mgtCmRxProbes] : List Obj).map (fun o => (o, 0))
  ++ ([.frmHdrFails, .frmHdrReserved, .frmSyncLosses, .frmFrameJumps, .frmMapErrored, .frmMgmtDiscards, .frmEncCrcFails,
    .frmEncContradictions, .frmChainDiscards, .frmErroredDiscards, .frmUnknownStream, .frmLabelDiscards, .frmKeyDiscards, .frmFcsErrors,
    .frmPayloads, .frmTestPayloads, .frmTestBytes, .frmPmEs, .frmPmSes, .frmPmUas, .frmPmSuppressed, .frmPmErroredFrames, .circRejects,
    .actMsgDiscards, .actMsgIllegal, .actAnnounces, .actRefusals, .actWindowSkips, .actMgtRefused, .actGrants, .actGrantCheckFails,
    .actGrantsIgnored, .actGrantsInvalid, .actGrantsClipped, .actGrantsOverlap, .actGrantsShort, .actGrantsIdle, .actBurstsEqdDropped,
    .actInbandDrops, .carReorderTimeouts, .carLateReleases, .carIngressOverruns, .prsExcCounts, .prsHostLoopDrops, .clsNoMatch,
    .clsActionSkipped, .clsNoDestination, .fwdLearns, .fwdLearnDrops, .fwdMoves, .fwdAged, .fwdInsertFull, .fwdNotifyDrops,
    .fwdMemErrors, .tmGateOverruns, .tmDrops, .ciphCheckFaults, .ciphUnwrapFails, .timeMsgAccepted, .timeMsgDiscards, .timeSteps,
    .timeTsOverflows, .timeTpiMerged, .rmLate, .rmFailures, .rmCancelled, .secAuthFails, .secOtpFails, .evrLost, .evrFrozenMissed,
    .fltBufCorrected, .fltBufUncorrectable] : List Obj).map (fun o => (o, 0))
  ++ [(.dmtIterHist, 4), (.circCounters, 4), (.fabCounters, 8), (.dramCounters, 8), (.ciphFchCounters, 8), (.ciphMsCounters, 8),
    (.ciphLaCounters, 8)]

/-- The elements of the counters of a group with the key of each, in no order. -/
def groupElems (g : Nat) : List (Nat × Obj × Nat × Nat × Nat) :=
  (counterObjs.filter fun x => groupOf x.1.row.base == some g || x.1.row.stride != 0).flatMap fun x =>
    (List.range x.1.row.count).flatMap fun i =>
      if groupOf (x.1.index i 0) = some g then (List.range x.1.row.num).map fun j => (x.1.key i j, x.1, i, j, x.2) else []

/-- An element put in key order. -/
def insertElem (e : Nat × Obj × Nat × Nat × Nat) : List (Nat × Obj × Nat × Nat × Nat) → List (Nat × Obj × Nat × Nat × Nat)
  | [] => [e]
  | x :: r => if e.1 < x.1 then e :: x :: r else x :: insertElem e r

/-- The output of every counter of a group (KIND 6): 8 bytes each, in index and subindex order. -/
def Dev.groupOutput (d : Dev) (g : Nat) : List Byte :=
  ((groupElems g).foldr insertElem []).flatMap fun e =>
    let v := d.view e.2.1 e.2.2.1 e.2.2.2.1
    let k := e.2.2.2.2
    if k = 0 then beBytes 8 v.n
    else (List.range (v.b.length / k)).flatMap fun i => beBytes 8 (beAt v.b (k * i) k)

/-- Bytes of one element's counters. -/
def elemBytes (e : Nat × Obj × Nat × Nat × Nat) : Nat :=
  if e.2.2.2.2 = 0 then 8
  else match e.2.1.row.ty with
    | .oct n => n / e.2.2.2.2 * 8
    | _ => 0

/-- Fields of a range (Table 17.8). -/
def rgKind (r : List Byte) (i : Nat) : Nat := beAt r (16 + 8 * i) 1
def rgFirst (r : List Byte) (i : Nat) : Nat := beAt r (17 + 8 * i) 3
def rgNumber (r : List Byte) (i : Nat) : Nat := beAt r (20 + 8 * i) 4

/-- Elements of a set (Table 17.9). -/
def snapSet (k : Nat) : Nat :=
  match k with
  | 1 => 2097152 | 2 => 131072 | 3 => 32768 | 4 => 4096 | 5 => 128
  | _ => 0

/-- Bytes a range puts out. -/
def rangeSize (r : List Byte) (i : Nat) : Nat :=
  match rgKind r i with
  | 1 => 16 * rgNumber r i
  | 6 => ((groupElems (rgFirst r i)).map elemBytes).sum
  | _ => 32 * rgNumber r i

/-- Whether a range is within its set. -/
def rangeOk (r : List Byte) (i : Nat) : Bool :=
  let k := rgKind r i
  if k = 6 then decide (rgFirst r i < 28) && rgNumber r i == 0
  else decide (1 ≤ k) && decide (k ≤ 5) && rgNumber r i != 0 && decide (rgFirst r i + rgNumber r i ≤ snapSet k)

/-- Bytes of a whole output. -/
def snapSize (arg : List Byte) : Nat := 32 + ((List.range (beAt arg 3 1)).map (rangeSize arg)).sum

/-- The record of a set of queues (KINDs 2 to 5). -/
def Dev.queueRecord (d : Dev) (qs : List Nat) : List Byte :=
  let cnt (q : Nat) := SMap.get QCount.none d.tm.counts q
  beBytes 8 ((qs.map fun q => ((d.queue q).map fun p => p.data.length).sum).sum)
    ++ beBytes 8 ((qs.map fun q => (cnt q).sent).sum) ++ beBytes 8 ((qs.map fun q => (cnt q).bytes).sum)
    ++ beBytes 8 ((qs.map fun q => (cnt q).drops).sum)

/-- Queues that hold or have counted anything. -/
def Dev.usedQueues (d : Dev) : List Nat := (d.tm.queues.map (·.1) ++ d.tm.counts.map (·.1)).eraseDups

/-- The record of one element of a set. -/
def Dev.snapRecord (d : Dev) (kind ix : Nat) : List Byte :=
  match kind with
  | 1 => padTo 16 (SMap.get [] d.tbl (tblKey 17 ix))
  | 2 => d.queueRecord [ix]
  | 3 => d.queueRecord (d.usedQueues.filter fun q => d.subOf q == ix)
  | 4 => d.queueRecord (d.usedQueues.filter fun q => d.svcOf q == ix)
  | _ => d.queueRecord (d.usedQueues.filter fun q => d.portOf q == ix)

/-- The output of a snapshot as its values stand (R502). -/
def Dev.snapOutput (d : Dev) (arg : List Byte) (seq : Nat) : List Byte :=
  let t := d.num .clkTimingChannel
  beBytes 4 seq ++ beBytes 8 (if d.alignedOn t then d.num .frmFrame t else 2 ^ 64 - 1)
    ++ beBytes 6 d.tim.secs ++ beBytes 4 d.tim.ns ++ beBytes 2 (if d.synced then 0 else 2 ^ 15) ++ beBytes 4 (snapSize arg) ++ zeros 4
    ++ (List.range (beAt arg 3 1)).flatMap fun i =>
      if rgKind arg i = 6 then d.groupOutput (rgFirst arg i)
      else (List.range (rgNumber arg i)).flatMap fun k => d.snapRecord (rgKind arg i) (rgFirst arg i + k)

/-- A slot's part of the state, and its state and requester. -/
def Dev.snap (d : Dev) (k : Nat) : Snap := SMap.get Snap.none d.tm.snaps k
def Dev.snapState (d : Dev) (k : Nat) : Nat := d.num .tmSnapStatus 0 k / 2 ^ 24
def setSnap (k : Nat) (f : Snap → Snap) : Prog := .eff (.tm fun t => { t with snaps := SMap.upd Snap.none k f t.snaps })
def snapTo (k st : Nat) : Prog := .ask fun d => putN .tmSnapStatus 0 k (st * 2 ^ 24 + d.num .tmSnapStatus 0 k % 65536)

/-- A slot becomes free. -/
def snapFree (k : Nat) : Prog :=
  .all [putN .tmSnapStatus 0 k 0, putO .tmSnapData 0 k [], setSnap k fun x => { x with arg := [], size := 0, data := [] }]

/-- Bytes of the snapshot pool that slots have reserved. -/
def Dev.snapReserved (d : Dev) : Nat := ((List.range 4).map fun k => ceilDiv (d.snap k).size 256).sum

/-- TM_SNAP_REQUEST: kind 1 of Table 20.5 (R500, R501). -/
def snapRequestBeh (code : Nat) (arg : List Byte) : Beh :=
  let slot := beAt arg 1 1
  let dest := beAt arg 2 1
  let n := beAt arg 3 1
  let ring := beAt arg 14 2
  let trig := parseTrig (beAt arg 0 1) (slice arg 4 10)
  beh (fun d => if arg.length < 16 ∨ arg.length ≠ 16 + 8 * n then 0x0301
      else if 3 < slot ∨ 1 < dest ∨ n = 0 ∨ 8 < n ∨ (dest = 0 ∧ ring ≠ 0) ∨ !(List.range n).all (rangeOk arg)
          ∨ d.num .tmSnapCells * 256 < snapSize arg then 0x0302
      else match trig with
        | none => 0x0302
        | some t => if d.trigAhead (d.num .clkTimingChannel) t then 0 else 0x0302)
    (fun d => firstAbort [
      (d.armConflict 1 slot [], 0x0501),
      (decide (2 ≤ d.snapState slot) || decide (d.num .tmSnapCells < d.snapReserved + ceilDiv (snapSize arg) 256), 0x0402),
      (trig.any (d.trigUnaligned (d.num .clkTimingChannel)), 0x0401),
      (dest == 1 && !(isHost code && (d.ringSt ring).kind == 6 && d.ringFn ring == hostKey code && d.ringLive ring), 0x0401),
      (d.actsFull, 0x0402)])
    (fun _ => match trig with
      | none => .abort 0x0302 .skip
      | some t => .done (.all [
          setSnap slot fun x => { x with arg := arg, size := snapSize arg },
          putN .tmSnapStatus 0 slot (2 ^ 24 + code), armAct 1 slot t code [] []]) [])

/-- TM_SNAP_REQUEST. -/
def execTmSnapRequest (o : Origin) (arg : List Byte) (s : State) : Host.Outcome State Fault Refusal :=
  s.run (serveExec o .tmSnapRequest 0 0 true (.oct arg) (snapRequestBeh o.code.toNat arg))

/-- TM_SNAP_RELEASE (R502): a held slot, from the requester that made the snapshot or from S. -/
def snapReleaseBeh (code slot : Nat) : Beh :=
  beh (fun _ => if 3 < slot then 0x0302 else 0)
    (fun d => firstAbort [
      (d.snapState slot == 3 && code != 0x0400 && d.num .tmSnapStatus 0 slot % 65536 != code, 0x0201),
      (d.snapState slot != 3, 0x0401)])
    fun _ => .done (snapFree slot) []

/-- TM_SNAP_RELEASE. -/
def execTmSnapRelease (o : Origin) (slot : BitVec 8) (s : State) : Host.Outcome State Fault Refusal :=
  s.run (serveExec o .tmSnapRelease 0 0 true (.num slot.toNat) (snapReleaseBeh o.code.toNat slot.toNat))

/-- A snapshot at its instant: every named set is captured (R502). -/
def execSnapshotCapture (slot : Fin 4) (s : State) : Host.Outcome State Fault Refusal :=
  s.run (live (.ask fun d => match d.pendingOn 1 slot.val with
    | some a => .when (d.actTurn a) [
        let x := d.snap slot.val
        .all [
          .eff (.disarm a.slot),
          setSnap slot.val fun y => { y with seq := y.seq + 1, data := d.snapOutput x.arg (x.seq + 1) },
          snapTo slot.val 2, lateAct a (d.actLate a)]]
    | none => .skip))

/-- Capture completes (R502): the data is held, or queued for its ring, and event 371 names the slot and SEQ. -/
def execSnapshotCaptureComplete (slot : Fin 4) (s : State) : Host.Outcome State Fault Refusal :=
  s.run (live (.ask fun d =>
    let x := d.snap slot.val
    .when (d.snapState slot.val == 2) [
      if beAt x.arg 2 1 = 0 then .all [putO .tmSnapData 0 slot.val x.data, snapTo slot.val 3] else snapTo slot.val 4,
      raise 371 slot.val 0 (x.seq % 2 ^ 32)]))

/-- Snapshot data fills the posted buffers of its ring; a ring that has stopped abandons the delivery (R502). -/
def execSnapshotRingDeliver (slot : Fin 4) (s : State) : Host.Outcome State Fault Refusal :=
  s.run (live (.ask fun d =>
    let x := d.snap slot.val
    let r := beAt x.arg 14 2
    .when (d.snapState slot.val == 4) [
      if (d.ringSt r).state ≠ 1 then .all [snapFree slot.val, raise 372]
      else ringScatter r 0 (fun rest => if rest.isEmpty then snapFree slot.val else setSnap slot.val fun y => { y with data := rest })
        (d.ringSt r).posted.length x.data]))

end Sys2Proof.Machine
end

