-- ==== Sys2Proof/Machine/Host.lean ====
section
/-!
DEFINITION. The host interface (R172 to R202, R647): links, functions and their resets, leases and their revocation, rings and doorbells, MSI-X.
-/
namespace Sys2Proof.Machine

/-! ## Accesses -/

/-- Whether a TLP of a host reaches a function: the device answers and the function of an up link is enabled. -/
def Dev.reaches (d : Dev) (link fn : Nat) : Bool := d.answers && d.fnEnabled link fn && d.num .hifLinkState link == 2

/-- A wake source is seen beside another that follows in the same access. -/
def alsoSeen (bit : Nat) : Prog :=
  .ask fun d => .when (d.pwr.req.isNone && d.wakes (d.num .pwrState) bit) [.eff (.pwr fun p => { p with seen := putBit p.seen bit true })]

/-- A TLP to the device is a wake source (Table 4.4, bit 2); what it does follows. -/
def tlp (link fn : Nat) (ps : List Prog) : Prog :=
  .ask fun d => .when (d.reaches link fn) (wake 2 :: ps)

/-- An access that is discarded and counted in HIF_BAD_ACCESSES. -/
def badAccess (link : Nat) : Prog := count .hifBadAccesses link

/-- A posted BAR write to a function: through a Closed crossing it is discarded and counted, and AER reports it (Table 3.9). -/
def barWrite (link fn : Nat) (ps : List Prog) : Prog :=
  tlp link fn [.ask fun d =>
    if d.hostClosed link fn then .all [count .xingClosedDiscards, raise (64 + 16 * link + 4) link] else .all ps]

/-- A BAR read of a function: through a Closed crossing the completion is poisoned, all ones, and AER reports it (Table 3.9). -/
def barRead (link fn off size : Nat) (ps : List Prog) : Prog :=
  tlp link fn [.ask fun d =>
    if d.hostClosed link fn then .all [send .busError (fnKey link fn) off (List.replicate size 255), raise (64 + 16 * link + 4) link]
    else .all ps]

/-- BAR2_ACCESS (R177): outside a debug session that opens it, it reads zero, or is discarded and counted. What it holds inside one the
manual does not say. -/
def execBar2Access (write : Bool) (addr : BitVec 28) (s : State) : Host.Outcome State Fault Refusal :=
  if s.dev.reaches 0 0 && s.dev.diagVisible 0x0100 then .refused .diagnosticsUndescribed
  else s.run (tlp 0 0 [if write then badAccess 0 else send .busRead 0 addr.toNat (zeros 4)])

/-- Bits of MBX_DONE written as one clear (Table 6.4). -/
def mbxDoneClear (k mask : Nat) : Prog :=
  .eff (.fn k fun y => { y with done := (setBits 32 mask).foldl (fun a b => putBit a b false) y.done })

/-- MBX_DONE_CLEAR (R180, Table 6.4). -/
def execMbxDoneClear (link : Fin 4) (fn : Fin 64) (mask : BitVec 32) (s : State) : Host.Outcome State Fault Refusal :=
  s.run (barWrite link.val fn.val [mbxDoneClear (fnKey link.val fn.val) mask.toNat])

/-! ## Leases (R197 to R200) -/

/-- The next epoch of a lease: it skips 0. -/
def nextLease (e : Nat) : Nat := if (e + 1) % 2 ^ 32 = 0 then 1 else (e + 1) % 2 ^ 32

/-- The present LEASE_EPOCH written to LEASE_RENEW acquires or renews the lease for HIF_LEASE_PERIOD; another value is discarded (R197). -/
def leaseRenew (link fn epoch : Nat) : Prog :=
  .ask fun d =>
    let k := fnKey link fn
    let ms := d.num .hifLeasePeriod link
    if (d.fn k).epoch = epoch then .eff (.fn k fun y => { y with live := true, remain := 1000 * ms, period := ms })
    else .all [badAccess link, raise (64 + 16 * link + 9) fn]

/-- LEASE_RENEW (R197). -/
def execLeaseRenew (link : Fin 4) (fn : Fin 64) (epoch : BitVec 32) (s : State) : Host.Outcome State Fault Refusal :=
  s.run (barWrite link.val fn.val [leaseRenew link.val fn.val epoch.toNat])

/-- LEASE_QUARTER_WARNING (Table 6.12): LEASE_REMAIN falls below a quarter of the period of the last renewal. The timer stands in Deep Sleep
(R118). -/
def execLeaseQuarterWarning (link : Fin 4) (fn : Fin 64) (s : State) : Host.Outcome State Fault Refusal :=
  s.run (live (.ask fun d =>
    let k := fnKey link.val fn.val
    .when (d.fn k).live [
      .eff (.fn k fun y => { y with remain := min y.remain (250 * y.period - 1) }),
      raise (64 + 16 * link.val + 7) fn.val]))

/-- The function key of the rings a function holds. -/
def Dev.ringsOf (d : Dev) (k : Nat) : List Nat :=
  (d.rings.filter fun r => r.2.state != 0 && d.ringFn r.1 == k).map (·.1)

/-- A packet that waited for a ring of `link` goes to the fallback that the map of its own link names, once, or is dropped and counted there
(R196). -/
def refallback (link : Nat) (x : QPkt) : Prog :=
  .ask fun d =>
    let code := bitsOf x.metaw 51 6
    let e := d.num .hifSlowpathMap x.home code
    let fl := bitsOf e 28 2
    match if link = x.home ∧ bitOf e 30 then d.slowEntry fl code else none with
    | some r => admitPort none (112 + fl) (bitsOf x.metaw 48 3) { x with ring := some r, dram := false, cells := [], need := none }
    | none => .all [count .hifSlowpathDrops x.home, raise (64 + 16 * x.home + 10)]

/-- Packets that wait for rings which now take nothing (Table 6.15, step 3). -/
def rehome (link : Nat) (rings : List Nat) : Prog :=
  .ask fun d => .each d.busyQueues fun q =>
    let gone (x : QPkt) : Bool := x.ring.any rings.contains
    .when (d.portOf q == 112 + link && (d.queue q).any gone) [
      .eff (.tm fun t => { t with queues := SMap.upd [] q (·.filter fun x => !gone x) t.queues }),
      .each ((d.queue q).filter gone) (refallback link)]

/-- The key-ladder slots a requester created are emptied (R596). -/
def dropKeks (p : Nat → Bool) : Prog :=
  .ask fun d => .each (List.range 16) fun s =>
    let b := d.oct .secKekState
    .when (beAt b (3 * s) 1 == 1 && p (beAt b (3 * s + 1) 2)) [
      .ask fun e => putO .secKekState 0 0 (patch (e.oct .secKekState) (3 * s) [0, 0, 0]), .eff (.key (kekKey s) [])]

/-- Requests that wait at a gate from the paths of a function or of its rings are gone. -/
def dropHeld (ks : List Nat) : Prog := .eff (.clk fun c => { c with held := c.held.filter fun x => !ks.contains (pathKey x.o.path) })

/-- The descriptors of the oldest packet of a packet-from-host ring; none until its last one is posted. -/
def txChain : List Desc → Option (List Desc)
  | [] => none
  | x :: r => if bitOf x.ctrl.toNat 14 then (txChain r).map (x :: ·) else some [x]

/-- The cells of a packet whose last descriptor its ring will never get (Table 6.15, step 3; DEDUCED, log entry 102). -/
def Ring.abandonedCells (g : Ring) : Nat :=
  if g.kind = 2 ∧ (txChain g.posted).isNone then cellsOf (g.posted.flatMap fun x => x.buf.take (descSize x)) else 0

/-- What a function held is reclaimed (Tables 6.15 and 22.5); a FLUSH of its in progress stops (R467). `code` is its requester code. -/
def reclaim (link fn code : Nat) : Prog :=
  .ask fun d =>
    let k := fnKey link fn
    let rings := d.ringsOf k
    .all [
      .each rings fun r => .all [
        countBy .hifAbandonedCells link 0 (d.ringSt r).abandonedCells,
        .eff (.ring r fun x => { x with posted := [], unsig := 0 })],
      .when (fn == 0) [.each (List.range 28) fun g => .when (d.num .dictGroupOwner 0 g == code) [putN .dictGroupOwner 0 g 0]],
      .eff (.fwd fun f => { f with
        locks := f.locks.filter fun e => e.2 != code + 1,
        flushes := f.flushes.filter fun x => match x.src with
          | .call c => d.codeOf c.o.path != code
          | .ring r => !rings.contains r }),
      .each (d.sessions.filter fun n => d.sessionOwner n == code) laEnd,
      dropKeks (· == code),
      .when (d.recd.frozen == some code) [endFreeze 4],
      .each (d.bws.filter fun b => b.code == code) fun _ => count .umaniBlocksAbandoned,
      .eff (.bws fun l => l.filter fun b => b.code != code),
      .eff (.bcs fun l => l.filter fun b => b.code != code),
      .each (k :: rings.map (0x1000 + ·)) fun u => .all [
        countBy .umaniDiscards 0 0 (SMap.get UPathSt.none d.um u).busy.length,
        .eff (.um u fun s => { s with busy := [] })],
      dropHeld (k :: rings.map (0x1000 + ·)),
      .each (List.range 4) fun s => .when (d.snapState s != 0 && d.snapState s != 1 && d.num .tmSnapStatus 0 s % 65536 == code) [snapFree s],
      rehome link rings,
      .each rings fun r => .eff (.ring r fun x => { x with state := 3, err := 0 })]

/-- A live lease is revoked (R199, R200). -/
def revoke (link fn : Nat) : Prog :=
  .ask fun d =>
    let k := fnKey link fn
    let e := nextLease (d.fn k).epoch
    .when (d.fn k).live [
      .eff (.fn k fun y => { y with epoch := e, live := false, remain := 0 }),
      count .hifRevocations link,
      raise (64 + 16 * link + 6) fn 0 e,
      reclaim link fn (0x0100 + k)]

/-- The leases of a link's PF and of every VF are revoked. -/
def revokeAll (link : Nat) : Prog := .each (List.range 64) (revoke link)

/-- LEASE_EXPIRY (R198, Table 6.14). The timer stands in Deep Sleep (R118). -/
def execLeaseExpiry (link : Fin 4) (fn : Fin 64) (s : State) : Host.Outcome State Fault Refusal :=
  s.run (live (.ask fun d => .when (d.fn (fnKey link.val fn.val)).live [
    if fn.val = 0 then revokeAll link.val else revoke link.val fn.val]))

/-! ## Resets of links and functions (R647, R199) -/

/-- A function returns to its reset values: mailbox page and slots, direct-mapped slots, MSI-X, configuration space, the indices of its rings.
Responses to requests in progress on
its mailbox are discarded and counted. The lease stays for its revocation. -/
def resetFn (link fn : Nat) : Prog :=
  .ask fun d =>
    let k := fnKey link fn
    .all [
      countBy .umaniDiscards 0 0 (SMap.get UPathSt.none d.um k).busy.length,
      .eff (.dropPaths fun u => u == k),
      dropHeld [k],
      .eff (.fn k Fn.leaseOnly),
      .each (d.ringsOf k) fun r => .eff (.ring r fun x => { x with hostIx := 0, devIx := 0, posted := [] }),
      .eff (.dropVecs fun v => v / 2048 == k)]

/-- Every function of a link is reset and its leases are revoked (R647, Table 6.14). The doorbell pages return to their reset values, so its rings
are unconfigured. The vectors of VFs go with VF Enable. -/
def resetLink (link : Nat) : Prog :=
  .all [
    revokeAll link, .each (List.range 64) (resetFn link),
    .ask fun d => .eff (.dropRings fun r => d.linkOfRing r == link),
    putN .hifNumVfs link 0 0, .eff (.link link fun l => { l with vfEnable := false, vfVecs := 0 })]

/-- A link goes down: event 64 + 16n + 1. -/
def linkDown (link : Nat) : Prog :=
  .ask fun d => .when (d.num .hifLinkState link == 2) [
    putN .hifLinkState link 0 1, putN .hifLinkSpeed link 0 0, putN .hifLinkWidth link 0 0,
    .eff (.link link fun l => { l with inL1 := false }), raise (64 + 16 * link + 1) link]

/-- Widest width of a link (Table 6.1). -/
def Dev.widest (d : Dev) : Nat := 16 / d.bifur.1

/-- Whether the host side of the device runs: not in a device-wide reset, Deep Sleep or Off. A used link's pins and training count then. -/
def Dev.hostLive (d : Dev) (link : Nat) : Bool := d.answers && d.linkUsed link

/-- PCIE_LINK_UP (R172, R173): with PERST_N[n] high the link comes up; event 64 + 16n, and 64 + 16n + 2 below the widest width or 16 GT/s. -/
def execPcieLinkUp (link : Fin 4) (speed : Fin 5) (width : Fin 17) (s : State) : Host.Outcome State Fault Refusal :=
  s.run (.ask fun d => .when (d.hostLive link.val && (d.lnk link.val).perstN && speed.val != 0 && width.val != 0
      && decide (width.val ≤ d.widest)) [
    putN .hifLinkState link.val 0 2, putN .hifLinkSpeed link.val 0 speed.val, putN .hifLinkWidth link.val 0 width.val,
    raise (64 + 16 * link.val) link.val,
    .when (speed.val != 4 || width.val != d.widest) [raise (64 + 16 * link.val + 2) link.val]])

/-- PCIE_LINK_DOWN (R647): without PERST_N[n]. -/
def execPcieLinkDown (link : Fin 4) (lost : BitVec 32) (s : State) : Host.Outcome State Fault Refusal :=
  s.run (.ask fun d => .when (d.hostLive link.val && d.num .hifLinkState link.val == 2) [
    linkDown link.val, closeScope (0x700 + link.val) lost.toNat, resetLink link.val])

/-- PERST_LOW (R647): ignored on a link the bifurcation leaves unused (R172). -/
def execPerstLow (link : Fin 4) (lost : BitVec 32) (s : State) : Host.Outcome State Fault Refusal :=
  s.run (.all [
    .eff (.link link.val fun l => { l with perstN := false }),
    .ask fun d => .when (d.hostLive link.val) [linkDown link.val, closeScope (0x700 + link.val) lost.toNat, resetLink link.val]])

/-- PERST_RISE (Table 4.4, bit 1): PERST_N[n] rising on a live link is a wake source. -/
def execPerstRise (link : Fin 4) (s : State) : Host.Outcome State Fault Refusal :=
  s.run (.all [
    .eff (.link link.val fun l => { l with perstN := true }),
    .ask fun d => .when (d.linkUsed link.val && !d.clk.devReset) [wake 1]])

/-- PCIE_HOT_RESET (R647). -/
def execPcieHotReset (link : Fin 4) (lost : BitVec 32) (s : State) : Host.Outcome State Fault Refusal :=
  s.run (.ask fun d => .when (d.hostLive link.val && d.num .hifLinkState link.val == 2) [
    wake 2, closeScope (0x700 + link.val) lost.toNat, resetLink link.val])

/-- An FLR or a function reset (R178, Table 6.14): of the PF it reaches every function of the link. The crossings of the function, or of the link,
close (R91). -/
def functionReset (link fn lost : Nat) : Prog :=
  tlp link fn [
    closeScope (if fn = 0 then 0x700 + link else 0x800 + fnKey link fn) lost,
    if fn = 0 then resetLink link else .all [revoke link fn, resetFn link fn],
    raise (64 + 16 * link + 5) fn]

/-- FUNCTION_LEVEL_RESET (R199). -/
def execFunctionLevelReset (link : Fin 4) (fn : Fin 64) (lost : BitVec 32) (s : State) : Host.Outcome State Fault Refusal :=
  s.run (functionReset link.val fn.val lost.toNat)

/-- FUNCTION_D3_TO_D0 (R178): No_Soft_Reset is 0, so the transition is a function reset. -/
def execFunctionD3ToD0 (link : Fin 4) (fn : Fin 64) (lost : BitVec 32) (s : State) : Host.Outcome State Fault Refusal :=
  s.run (functionReset link.val fn.val lost.toNat)

/-- VF Enable is set for a number of VFs (R193): each gets its vectors, or the write takes no effect and event 64 + 16n + 13 is raised. -/
def vfEnable (link numVfs : Nat) : Prog :=
  .ask fun d =>
    let per := d.vfShare link numVfs
    .when (!(d.lnk link).vfEnable && numVfs != 0) [
      if d.bifur.2.2 < d.num .hifMsixPfVectors link + numVfs * per then raise (64 + 16 * link + 13) link
      else .all [
        .eff (.link link fun l => { l with vfEnable := true, vfVecs := per }), putN .hifNumVfs link 0 numVfs]]

/-- VF Enable is cleared: every VF's lease is revoked (Table 6.14), and the VFs are gone. -/
def vfDisable (link : Nat) : Prog :=
  .ask fun d => .when (d.lnk link).vfEnable [
    .each ((List.range 63).map (· + 1)) fun f => .all [revoke link f, resetFn link f],
    putN .hifNumVfs link 0 0, .eff (.link link fun l => { l with vfEnable := false, vfVecs := 0 })]

/-- VF_ENABLE_SET (R193). -/
def execVfEnableSet (link : Fin 4) (numVfs : Fin 64) (s : State) : Host.Outcome State Fault Refusal :=
  s.run (tlp link.val 0 [vfEnable link.val numVfs.val])

/-- VF_ENABLE_CLEAR (Table 6.14). -/
def execVfEnableClear (link : Fin 4) (s : State) : Host.Outcome State Fault Refusal :=
  s.run (tlp link.val 0 [vfDisable link.val])

/-! ## Configuration space and MSI-X (R174, R175, R194) -/

/-- The MSI-X Enable and Function Mask bits take their values; pending messages of unmasked vectors leave (R194). -/
def msixControl (link fn : Nat) (en mask : Bool) : Prog :=
  let k := fnKey link fn
  .all [
    .eff (.fn k fun y => { y with msixOn := en, msixMask := mask }),
    .when (en && !mask) [.ask fun e => .each (e.vecs.filter fun v => v.1 / 2048 == k && v.2.pend && !v.2.masked) fun v => .all [
      .eff (.vec v.1 fun x => { x with pend := false }), .when (e.canSignal link fn) [sendVector k (v.1 % 2048)]]]]

/-- A write of the dword of configuration space at an offset. Its writable bits are kept. The power state's return from D3hot and Initiate Function
Level Reset are function resets (R178, R199), VF Enable follows R193, and the MSI-X control bits follow R194. -/
def configWrite (link fn off v : Nat) : Prog :=
  .ask fun d =>
    let k := fnKey link fn
    let w := cfgWritable link fn off
    let old := d.cfgDword link fn off
    .all [
      .when (w != 0) [.eff (.fn k fun y => { y with cfg := SMap.put 0 off (cfgMerge w old v + 1) y.cfg })],
      .when (off == 0x50) [msixControl link fn (bitOf v 31) (bitOf v 30)],
      .when ((off == 0x44 && old % 4 == 3 && v % 4 == 0) || (off == 0x78 && bitOf v 15)) [functionReset link fn 0],
      .when (off == 0x178 && fn == 0) [if bitOf v 0 then vfEnable link (d.cfgDword link 0 0x180 % 64) else vfDisable link]]

/-- PCIE_CONFIG_REQUEST (R174, R175). A request before the space is ready completes with Configuration Request Retry Status (2). -/
def execPcieConfigRequest (link : Fin 4) (fn : Fin 64) (ready : Bool) (req : CfgReq) (s : State) : Host.Outcome State Fault Refusal :=
  let k := fnKey link.val fn.val
  s.run (.ask fun d => .when (d.linkUsed link.val && d.num .hifLinkState link.val == 2 && !d.clk.devReset) [
    if !ready then send .busError k 2 []
    else match req with
      | .read off => send .busRead k off.toNat (leBytes 4 (d.cfgDword link.val fn.val (off.toNat / 4 * 4)))
      | .write off v => configWrite link.val fn.val (off.toNat / 4 * 4) v.toNat
      | .msix en mask => msixControl link.val fn.val en mask])

/-- A vector's mask bit clears: the merged pending message leaves (R194). -/
def vectorUnmask (link fn v : Nat) : Prog :=
  .ask fun d =>
    let k := fnKey link fn
    .all [
      .eff (.vec (vecKey k v) fun x => { x with masked := false }),
      .when ((SMap.get Vec.none d.vecs (vecKey k v)).pend && d.canSignal link fn && !(d.fn k).msixMask) [
        .eff (.vec (vecKey k v) fun x => { x with pend := false }), sendVector k v]]

/-- MSIX_VECTOR_UNMASK (R194). -/
def execMsixVectorUnmask (link : Fin 4) (fn : Fin 64) (vector : Fin 2048) (s : State) : Host.Outcome State Fault Refusal :=
  s.run (barWrite link.val fn.val [.ask fun d => .when (decide (vector.val < d.vectorsOf link.val fn.val)) [vectorUnmask link.val fn.val vector.val]])

/-- The dword of BAR4 at an offset: the MSI-X table, whose entries are address, data and vector control, from 0x0000, and the PBA from 0x8000 (Table
6.2). -/
def Dev.bar4Dword (d : Dev) (link fn off : Nat) : Nat :=
  let k := fnKey link fn
  let n := d.vectorsOf link fn
  let vec (v : Nat) := SMap.get Vec.none d.vecs (vecKey k v)
  if off < 0x8000 then
    let x := vec (off / 16)
    if n ≤ off / 16 then 0
    else match off % 16 / 4 with
      | 0 => x.addr % 2 ^ 32
      | 1 => x.addr / 2 ^ 32
      | 2 => x.data
      | _ => b2n x.masked
  else ((List.range 32).map fun b =>
    let v := 8 * (off - 0x8000) + b
    if v < n ∧ (vec v).pend then 2 ^ b else 0).sum

/-- A write of a dword of BAR4: a field of a vector's table entry; setting Mask masks it and clearing it unmasks it. The PBA takes no write. -/
def bar4Write (link fn off v : Nat) : Prog :=
  .ask fun d =>
    let k := vecKey (fnKey link fn) (off / 16)
    .when (decide (off < 0x8000) && decide (off / 16 < d.vectorsOf link fn)) [
      match off % 16 / 4 with
      | 0 => .eff (.vec k fun x => { x with addr := x.addr / 2 ^ 32 * 2 ^ 32 + v })
      | 1 => .eff (.vec k fun x => { x with addr := x.addr % 2 ^ 32 + v * 2 ^ 32 })
      | 2 => .eff (.vec k fun x => { x with data := v })
      | _ => if bitOf v 0 then .eff (.vec k fun x => { x with masked := true }) else vectorUnmask link fn (off / 16)]

/-! ## Direct-mapped slots (R182) -/

/-- Whether an object is a counter. -/
def isCounter (o : Obj) : Bool := counterObjs.any fun x => x.1 == o

/-- HIF_DMAP_SET. The order of its aborts is the model's, and a value of varying length is judged by its present length (DESIGN CHOICE, log entry
108). -/
def dmapSetBeh (p : UPath) (link arg : Nat) : Beh :=
  let slot := bitsOf arg 32 16
  let idx := bitsOf arg 16 16
  let sub := bitsOf arg 8 8
  let big (d : Dev) (o : Obj) (i j : Nat) : Bool := match o.row.ty with
    | .command => true
    | .table => true
    | .oct n => decide (16 < n)
    | .octMax _ => decide (16 < (d.readVal p o i j).b.length)
    | _ => false
  beh (fun d =>
    let code := d.codeOf p
    if idx = 0 then (if arg / 2 ^ 48 ≠ 0 ∨ arg % 256 ≠ 0 ∨ 1023 < slot then 0x0302 else 0)
    else match target idx sub with
      | .noIndex => 0x0101
      | .noSub => 0x0102
      | .count _ => firstAbort [(countAccess code 1 idx != 0, 0x0201),
          (arg / 2 ^ 48 != 0 || arg % 256 != 0 || decide (1023 < slot), 0x0302)]
      | .elem o i j => firstAbort [(d.accessAbort code 1 o i j != 0, 0x0201), (isCounter o || big d o i j, 0x0301),
          (arg / 2 ^ 48 != 0 || arg % 256 != 0 || decide (1023 < slot), 0x0302)])
    (fun _ => 0)
    fun d => .done (.eff (.fn (fnKey link (hostFn (d.codeOf p))) fun y => { y with
      dmap := SMap.put 0 slot (if idx = 0 then 0 else idx * 256 + sub) y.dmap })) []

/-- HIF_DMAP_SET (R182). -/
def execHifDmapSet (o : Origin) (link : Fin 4) (arg : BitVec 64) (s : State) : Host.Outcome State Fault Refusal :=
  s.run (serveExec o .hifDmapSet link.val 0 true (.num arg.toNat) (dmapSetBeh o.path link.val arg.toNat))

/-- The value a direct-mapped slot shows a function: numbers little-endian, OCTETS as they are, padded to 16 bytes. -/
def Dev.dmapValue (d : Dev) (k slot : Nat) : List Byte :=
  let key := SMap.get 0 (d.fn k).dmap slot
  match target (key / 256) (key % 256) with
  | .elem o i j => padTo 16 (valBytes (.ring 0) o.row.ty (match o with
      | .umaniSelf => .num (0x0100 + k)
      | _ => d.view o i j))
  | .count idx => padTo 16 [BitVec.ofNat 8 (highestSub idx)]
  | _ => zeros 16

/-- The object that a direct-mapped slot shows a function; 0 for an unset slot. -/
def Dev.dmapKey (d : Dev) (k slot : Nat) : Nat := SMap.get 0 (d.fn k).dmap slot

/-- A read of `size` bytes of a direct-mapped slot from `at`. It clears what a read of its object clears (R90). Through a Closed crossing the
completion is poisoned, and AER reports it (Table 3.9). -/
def dmapRead (link fn slot at' size : Nat) : Prog :=
  .ask fun d =>
    let k := fnKey link fn
    let key := d.dmapKey k slot
    let off := 0x10000 + 16 * slot + at'
    if d.hostClosed link fn ∨ (key ≠ 0 ∧ d.closedAbort (key / 256) ≠ 0) then
      .all [send .busError k off (List.replicate size 255), raise (64 + 16 * link + 4) link]
    else .all [
      send .busRead k off (slice (d.dmapValue k slot) at' size),
      .when (key == Obj.rstCauseSticky.key 0 0) [clearAon]]

/-- DMAP_SLOT_READ (R182): a read of the whole slot, one atomic sample. -/
def execDmapSlotRead (link : Fin 4) (fn : Fin 64) (slot : Fin 1024) (s : State) : Host.Outcome State Fault Refusal :=
  s.run (tlp link.val fn.val [dmapRead link.val fn.val slot.val 0 16])

/-! ## Rings (R183 to R192) -/

/-- HOST_INDEX_WRITE (R183, R184): the doorbell page belongs to the function that holds the ring. -/
def execHostIndexWrite (link : Fin 4) (fn : Fin 64) (r : Fin 4096) (ix : BitVec 32) (descs : List Desc) (s : State) :
    Host.Outcome State Fault Refusal :=
  s.run (.all [.ask fun d => .when (d.reaches link.val fn.val) [alsoSeen 4], barWrite link.val fn.val [wake 4, .ask fun e =>
    let g := e.ringSt r.val
    let n := ixDist ix.toNat g.hostIx
    let ahead := if g.kind = 5 then ixDist g.devIx ix.toNat else ixDist ix.toNat g.devIx
    if g.state = 0 ∨ e.ringFn r.val ≠ fnKey link.val fn.val ∨ e.linkOfRing r.val ≠ link.val then badAccess link.val
    else if g.state ≠ 1 then .all [badAccess link.val, .when (g.state == 3) [raise (64 + 16 * link.val + 9) r.val]]
    else if 2 ^ 31 ≤ n ∨ 2 ^ g.log2 < ahead then ringError r.val 3
    else .eff (.ring r.val fun x => { x with
      hostIx := ix.toNat, posted := if x.kind = 5 then [] else x.posted ++ descs.take n })]])

/-- The rings a requester may set up (R190): a PF its link's, a VF those of its grant. -/
def Dev.mayRing (d : Dev) (link fn r : Nat) : Bool :=
  let g := d.num .hifVfRings link (fn - 1)
  decide (r < 4096) && d.linkUsed link && d.linkOfRing r == link &&
    (fn == 0 || (decide (g / 65536 ≤ r) && decide (r < g / 65536 + g % 65536)))

/-- HIF_RING_SETUP (R190), in its own order of checks. The requester, too, needs a live lease (R197). VECTOR is checked only where it is enabled
(DESIGN CHOICE, log entry 103). -/
def ringSetupBeh (code link : Nat) (arg : List Byte) : Beh :=
  let g : Ring := { Ring.none with setup := arg }
  let r := beAt arg 0 2
  let bad (d : Dev) : Bool :=
    g.kind == 0 || decide (7 < g.kind) || decide (63 < g.func) || decide (g.log2 < 6) || decide (16 < g.log2) || decide (7 < g.sev)
      || (g.kind != 5 && g.sev != 0) || bitsOf g.vector 11 4 != 0 || decide (1023 < g.itr) || g.cnt == 0 || decide (4096 < g.cnt)
      || beAt arg 28 4 != 0 || !d.mayRing link (hostFn code) r || g.base % 4096 != 0 || g.wb % 8 != 0
      || (bitOf g.vector 15 && decide (d.vectorsOf link g.func ≤ g.vector % 2048))
  beh (fun d => firstAbort [(bad d, 0x0302), (hostFn code != 0 && g.func != hostFn code, 0x0201)])
    (fun d => firstAbort [(!d.fnEnabled link g.func || !(d.fn (fnKey link g.func)).live || !(d.fn (hostKey code)).live, 0x0401),
      ((d.ringSt r).state != 0, 0x0402)])
    fun _ => .done (.eff (.ring r fun _ => { Ring.none with state := 1, setup := arg })) []

/-- HIF_RING_SETUP. -/
def execHifRingSetup (o : Origin) (link : Fin 4) (arg : List Byte) (s : State) : Host.Outcome State Fault Refusal :=
  s.run (serveExec o .hifRingSetup link.val 0 (decide (arg.length = 32)) (.oct arg) (ringSetupBeh o.code.toNat link.val arg))

/-- HIF_RING_TEARDOWN (R190): the ring returns to unconfigured, with what its path kept. A ring outside the requester's rights is abort 0x0302
(DESIGN CHOICE, log entry 104). -/
def ringTeardownBeh (code link r : Nat) : Beh :=
  beh (fun d => if d.mayRing link (hostFn code) r then 0 else 0x0302) (fun _ => 0)
    fun _ => .done (.all [.eff (.dropRings (· == r)), .eff (.dropPaths (· == 0x1000 + r)), dropHeld [0x1000 + r]]) []

/-- HIF_RING_TEARDOWN. -/
def execHifRingTeardown (o : Origin) (link : Fin 4) (ring : BitVec 16) (s : State) : Host.Outcome State Fault Refusal :=
  s.run (serveExec o .hifRingTeardown link.val 0 true (.num ring.toNat) (ringTeardownBeh o.code.toNat link.val ring.toNat))

/-- RING_STATUS (Table 6.5). -/
def Ring.status (g : Ring) : Nat := g.state * 2 ^ 24 + g.err

/-- HIF_RING_QUERY (Table 6.16): the setup argument and RING_STATUS. -/
def ringQueryBeh (p : UPath) (code link r : Nat) : Beh :=
  beh (fun d => if d.mayRing link (if isHost code then hostFn code else 0) r then 0 else 0x0302) (fun _ => 0)
    fun d => .done .skip (padTo 32 (d.ringSt r).setup ++ pathBytes p 4 (d.ringSt r).status)

/-- HIF_RING_QUERY. -/
def execHifRingQuery (o : Origin) (link : Fin 4) (ring : BitVec 16) (s : State) : Host.Outcome State Fault Refusal :=
  s.run (serveExec o .hifRingQuery link.val 0 true (.num ring.toNat) (ringQueryBeh o.path o.code.toNat link.val ring.toNat))

/-- RING_ITR_EXPIRY (R191): whatever the ring's state has become since the entry completed. -/
def execRingItrExpiry (r : Fin 4096) (s : State) : Host.Outcome State Fault Refusal :=
  s.run (.ask fun d => .when (d.answers && (d.ringSt r.val).unsig != 0) [ringVector r.val])

/-- `n` descriptors are finished with a status. -/
def finishDescs (r status : Nat) (ds : List Desc) : Prog := .each ds fun x => ringComplete r status (descSize x) x.metaw.toNat

/-- HOST_TX_DESCRIPTOR (R187, R43): the packet enters the Carousel from port 112 + n, or goes to a direct queue. A full ingress share or a
refused admission completes with status 7; of a packet of which one descriptor is stale or malformed, every descriptor ends so; a DMA error ends the
one that met it, and the ring (DESIGN CHOICE, log entries 105 and 106). -/
def execHostTxDescriptor (r : Fin 4096) (s : State) : Host.Outcome State Fault Refusal :=
  s.run (.ask fun d =>
    let g := d.ringSt r.val
    let link := d.linkOfRing r.val
    let k := d.ringFn r.val
    match txChain g.posted with
    | none => .skip
    | some ds => .when (g.state == 1 && g.kind == 2 && d.answers) [
        let data := ds.flatMap fun x => x.buf.take (descSize x)
        let m := (ds.headD ⟨0, 0, 0, 0, 0, 0, 0, [], 0⟩).metaw.toNat
        let fates := ds.map (d.descFate r.val)
        let q := m % 2 ^ 17
        let p := d.portOf q
        let a : Arrival := ⟨Fin.ofNat 118 (112 + link), Fin.ofNat 8 (bitsOf m 48 3), false, false, none, 0, 0, 0, 0, 0, data⟩
        if fates.contains 2 then finishDescs r.val 2 ds
        else if 16 < ds.length ∨ data.length < 14 ∨ 16383 < data.length ∨ fates.contains 3 then finishDescs r.val 3 ds
        else match fates.find? (· != 0) with
          | some e => ringComplete r.val e 0 0
          | none =>
            if bitOf m 27 then
              if d.accessAbort (0x0100 + k) 2 .tmPortCfg 0 p ≠ 0 then
                .all [finishDescs r.val 6 ds, count .hifDirectDenied link, raise (64 + 16 * link + 11) r.val]
              else .all [
                finishDescs r.val (if (d.admission q (cellsOf data) 0).1 = 0 then 0 else 7) ds,
                enqueue none q ⟨data, data, false, [], none, 0, 0x01, none, none, 0, 0, false⟩]
            else .all [
              finishDescs r.val (if d.ingressShare (112 + link) < d.ingressCells (112 + link) + cellsOf data then 7 else 0) ds,
              ingress a]])

/-! ## Writes of the objects of Table 6.16 -/

/-- HIF_MSIX_PF_VECTORS (R193). -/
def pfVectorsBeh (link v : Nat) : Beh :=
  beh (fun d => if v = 0 ∨ d.bifur.2.2 < v then 0x0302 else 0) (fun d => if (d.lnk link).vfEnable then 0x0401 else 0)
    fun _ => .done (putN .hifMsixPfVectors link 0 v) []

/-- HIF_VF_RINGS (R201, Table 6.16). -/
def vfRingsBeh (link j v : Nat) : Beh :=
  let first := v / 65536
  let n := v % 65536
  let overlaps (d : Dev) : Bool := (List.range 63).any fun k =>
    let o := d.num .hifVfRings link k
    k != j && n != 0 && o % 65536 != 0 && decide (first < o / 65536 + o % 65536) && decide (o / 65536 < first + n)
  let outside (d : Dev) : Bool := n != 0 && (!d.linkUsed link || decide (first < link * d.bifur.2.1)
    || decide ((link + 1) * d.bifur.2.1 < first + n))
  beh (fun d => if outside d || overlaps d then 0x0302 else 0)
    (fun d => if (d.ringsOf (fnKey link (j + 1))).isEmpty then 0 else 0x0401)
    fun _ => .done (putN .hifVfRings link j v) []

/-- HIF_SLOWPATH_MAP (R196, Table 6.13). A RING that VALID does not bring into use may name any ring (DESIGN CHOICE, log entry 107). -/
def slowMapBeh (link j v : Nat) : Beh :=
  beh (fun d => if bitsOf v 12 16 ≠ 0 ∨ (bitOf v 31 ∧ !(d.linkOfRing (v % 4096) == link && (d.ringSt (v % 4096)).kind == 1)) then 0x0302 else 0)
    (fun _ => 0) fun _ => .done (putN .hifSlowpathMap link j v) []

/-- HIF_EVT_MAP (Table 6.11): VECTOR lies below the function's allocation whatever ENABLE is. -/
def evtMapBeh (link j v : Nat) : Beh :=
  beh (fun d => if bitsOf v 22 9 ≠ 0 ∨ bitsOf v 11 5 ≠ 0 ∨ (v ≠ 0 ∧ d.vectorsOf link (bitsOf v 16 6) ≤ v % 2048) then 0x0302 else 0)
    (fun _ => 0) fun _ => .done (putN .hifEvtMap link j v) []

/-! ## BAR0 (R179, R183) -/

/-- The register at an offset of BAR0 (Tables 6.4 and 6.5); what is reserved or write-only reads zero. A doorbell page is visible to the function
that the ring is set up to. -/
def Dev.bar0Reg (d : Dev) (k off : Nat) : Nat :=
  let f := d.fn k
  if off < 0x1000 then
    match off with
    | 0x004 => f.done
    | 0x008 => f.busy
    | 0x00C => f.irq
    | 0x010 => f.epoch
    | 0x018 => if f.live then ceilDiv f.remain 1000 else 0
    | _ => 0
  else if 0x100000 ≤ off then
    let r := (off - 0x100000) / 256
    let g := d.ringSt r
    if g.state = 0 ∨ d.ringFn r ≠ k then 0
    else match off % 256 with
      | 0 => g.hostIx
      | 4 => g.devIx
      | 8 => g.status
      | _ => 0
  else 0

/-- Whether the boot-load window of H0's PF is open (R588). -/
def Dev.blOpen (d : Dev) : Bool := [0x10, 0x11, 0xE1, 0xE2].contains (d.num .idBootProgress)

/-- Whether an access of `size` bytes lies in the open boot-load window: an aligned word of it, or BL_ADDR whole (DESIGN CHOICE, log entry 35). -/
def Dev.inBootWindow (d : Dev) (k off size : Nat) : Bool :=
  d.blOpen && k == fnKey 0 0 && decide (0x14000 ≤ off) && decide (off < 0x14020)
    && ((size == 4 && off % 4 == 0) || (size == 8 && off == 0x14000))

/-- The bytes of the boot-load window (Table 21.5). -/
def Dev.bootWindow (d : Dev) : List Byte :=
  leBytes 8 d.sec.blAddr ++ leBytes 4 d.sec.blLen ++ zeros 4 ++ leBytes 4 d.sec.blStatus ++ zeros 12

/-- A write of 1 to BL_GO starts a fetch; other values are discarded (Table 21.5). -/
def blGo (v : Nat) : Prog :=
  .ask fun d => .when (v == 1 && d.sec.blStatus / 2 ^ 24 != 2) [.eff (.sec fun x => { x with blStatus := 2 * 2 ^ 24 })]

/-- A write in the boot-load window: BL_ADDR, BL_LENGTH or BL_GO. -/
def bootWindowWrite (link off : Nat) (b : List Byte) : Prog :=
  match off with
  | 0x08 => .eff (.sec fun x => { x with blLen := leNat b })
  | 0x0C => blGo (leNat b)
  | _ => if off < 8 then .eff (.sec fun x => { x with blAddr := leNat (patch (leBytes 8 x.blAddr) off b) }) else badAccess link

/-- Where an offset of BAR0 lies: 0 registers, 1 a mailbox slot, 2 a direct-mapped slot, 3 reserved (Table 6.3). -/
def bar0Kind (off : Nat) : Nat :=
  if off < 0x1000 ∨ 0x100000 ≤ off then 0 else if off < 0x10000 then 1 else if off < 0x14000 then 2 else 3

/-- Whether the size and the alignment of an access suit where it goes (R179). One that leaves its slot does not (DESIGN CHOICE, log entry 35). -/
def bar0Fits (off size : Nat) : Bool :=
  match bar0Kind off with
  | 0 => size == 4 && off % 4 == 0
  | 1 => decide (size ≤ 8) && decide (off % 4096 + size ≤ 4096)
  | 2 => (decide (size ≤ 8) && decide (off % 16 + size ≤ 16)) || (size == 16 && off % 16 == 0)
  | _ => false

/-- A read of BAR0. -/
def bar0Read (link fn off size : Nat) : Prog :=
  let k := fnKey link fn
  .ask fun d =>
    if d.inBootWindow k off size then send .busRead k off (slice d.bootWindow (off - 0x14000) size)
    else if !bar0Fits off size then send .busRead k off (zeros size)
    else match bar0Kind off with
    | 0 => send .busRead k off (leBytes 4 (d.bar0Reg k off))
    | 1 => send .busRead k off (slice (d.slotBytes k (off / 4096)) (off % 4096) size)
    | _ => dmapRead link fn ((off - 0x10000) / 16) (off % 16) size

/-- A write of BAR0: the boot-load window, a mailbox slot, MBX_DONE, MBX_IRQ or LEASE_RENEW; any other is discarded and counted. -/
def bar0Write (link fn off : Nat) (b : List Byte) : Prog :=
  let k := fnKey link fn
  .ask fun d =>
  if d.inBootWindow k off b.length then bootWindowWrite link (off - 0x14000) b
  else if !bar0Fits off b.length then badAccess link
  else if bar0Kind off = 1 then slotWrite k (off / 4096) (off % 4096) b
  else match off with
    | 0x004 => mbxDoneClear k (leNat b)
    | 0x00C => .eff (.fn k fun y => { y with irq := leNat b / 2 ^ 31 % 2 * 2 ^ 31 + leNat b % 2048 })
    | 0x014 => leaseRenew link fn (leNat b)
    | _ => badAccess link

/-- BAR_RESERVED_ACCESS (R179): an access to BAR0 or BAR4 that no other row makes. A reserved or misaligned one reads zero, or is discarded and
counted in HIF_BAD_ACCESSES. -/
def execBarReservedAccess (link : Fin 4) (fn : Fin 64) (acc : BarAcc) (s : State) : Host.Outcome State Fault Refusal :=
  let l := link.val
  let f := fn.val
  s.runIf acc.wf (match acc with
    | .read0 off size => barRead l f off.toNat size.val [bar0Read l f off.toNat size.val]
    | .write0 off data => barWrite l f [bar0Write l f off.toNat data]
    | .read4 off size => barRead l f off.toNat size.val [.ask fun d =>
        if size.val = 4 ∧ off.toNat % 4 = 0 then send .busRead (fnKey l f) off.toNat (leBytes 4 (d.bar4Dword l f off.toNat))
        else send .busRead (fnKey l f) off.toNat (zeros size.val)]
    | .write4 off data => barWrite l f [
        if data.length = 4 ∧ off.toNat % 4 = 0 then bar4Write l f off.toNat (leNat data) else .skip])

end Sys2Proof.Machine
end

