-- ==== Sys2Proof/Machine/Power.lean ====
section
/-!
DEFINITION. Power states and Tightrope (R108 to R132): the ladder down, clock gates (R102 to R105), and operating points.
-/
namespace Sys2Proof.Machine

/-! ## Entry (R113 to R118) -/

/-- The clock domains that stop in a state (Tables 3.1 and 4.1). -/
def stopped (s : Nat) : List Nat :=
  let idle := [44, 45, 46, 47, 48, 49, 51]
  let sleep := [1, 2] ++ [8, 9, 10, 11] ++ [16, 17, 18, 19] ++ (List.range 20).map (· + 24) ++ [44, 45, 46, 47, 48, 49, 50, 51, 53, 54, 56, 59]
  match s with
  | 1 => idle
  | 2 => sleep
  | 3 => [4, 5, 6, 7, 12, 13, 14, 15, 20, 21, 22, 23, 52, 55] ++ sleep
  | 4 => [4, 5, 6, 7, 12, 13, 14, 15, 20, 21, 22, 23, 52, 55] ++ sleep
  | _ => []

/-- The gates of the domains that stop begin to drain (Table 4.3, step 3); for Deep Sleep and Off every queue is discarded under reason 8
(Table 23.6, step 2). -/
def startDrains (target : Nat) : Prog :=
  .all [
    .when (decide (3 ≤ target)) [.ask fun d => .each d.busyQueues fun q => flushQueue q 8],
    .eff (.clk fun c => { c with gates := (stopped target).foldl (fun m k => SMap.put 0 k 1 m) [] })]

/-- The entry record (R109): the timing channel's frame number and the time. -/
def entryRecord : Prog :=
  .ask fun d =>
    let t := d.num .clkTimingChannel
    .eff (.pwr fun p => { p with entry := ⟨d.num .frmFrame t, d.tim.secs, d.tim.ns⟩ })

/-- Handle, allocations and delay of each channel in Operating are retained (R347). -/
def retainParams (n : Nat) : Prog :=
  .ask fun d =>
    let on := d.num .actState n == 4
    .eff (.fch n fun c => { c with
      retHandle := if on then d.num .actHandle n else 0xFFFF
      retAllocs := if on then (List.range 1024).filterMap fun i =>
        if bitOf (d.num .actAlloc n i) 15 then some (d.num .actAlloc n i % 2 ^ 14) else none else []
      retEqd := if on then d.num .actEqd n else 0 })

/-- The response of the write that caused a move. -/
def moveAnswer (abort : Nat) : Prog :=
  .ask fun d => .all [
    .eff (.pwr fun p => { p with moveTo := none, moveCall := none }),
    match d.pwr.moveCall with
    | some c => respond c abort []
    | none => .skip]

/-- A move that runs as the device goes to sleep ends (R130): a write that caused it is done, and its target applies at exit. -/
def endMove : Prog :=
  .ask fun d => .when (d.num .trState == 1) [
    .when d.pwr.moveCall.isSome [putN .trOpTarget 0 0 (d.pwr.moveTo.getD 0)], putN .trState 0 0 0, moveAnswer 0]

/-- Every gate of an entry has closed: the entry completes and the response is sent before the first clock stops (R116). In Sleep each Ready or
Draining DRAM channel goes into self-refresh (R522), TIME into Holdover, and VDD_CORE to the OP3 voltage (Table 4.3). In Deep Sleep and Off
PWRREQ_N is deasserted, and nothing survives but what R109 names. -/
def finishEntry : Prog :=
  .ask fun d => match d.pwr.req with
    | none => .skip
    | some q => .all [
        .when (decide (2 ≤ q.target)) [entryRecord, endMove],
        .when (q.target == 2) [
          .each (List.range 8) fun c => .when (d.num .dramState c == 3 || d.num .dramState c == 4) [dramQuiet c, putN .dramState c 0 5],
          timingHold (d.num .clkTimingChannel), setSync false,
          .eff (.pwr fun p => { p with clkPoint := 3, voltPoint := 3 }), sendTarget 3],
        .eff (.pwr fun p => { p with req := none }),
        respond q.call 0 [],
        raise 21 noInst 0 (top8 q.target),
        .when (decide (3 ≤ q.target)) [
          .when (q.target == 3) [.each (List.range 4) retainParams],
          recordAll,
          .eff (.wipe (if q.target = 3 then .deep else .off)),
          .eff (.pins fun p => { p with pwrreqN := true })],
        putN .pwrState 0 0 q.target]

/-- Doze is asked on a channel (R362): DOZE_REQUEST with ACT_DOZE_AWAKE and ACT_DOZE_CYCLE. -/
def askDoze (n : Nat) : Prog :=
  .ask fun d => .all [
    putN .actDozeState n 0 1,
    sendLemow n 0x44 (beBytes 1 (d.num .actDozeAwake n) ++ [0] ++ beBytes 2 (d.num .actDozeCycle n))]

/-- An entry is accepted: for Sleep doze is asked on every Operating channel (R115), and the drains wait for the answers. -/
def startEntry (c : Call) (target : Nat) : Prog :=
  .ask fun d =>
    let asked := if target = 2 then (List.range 4).filter fun n => d.num .actState n == 4 else []
    .all [
      .eff (.pwr fun p => { p with req := some ⟨c, target, asked⟩ }),
      .each asked askDoze,
      .when asked.isEmpty [startDrains target]]

/-- A channel has answered DOZE_REQUEST (R115): a refusal ends the entry; the last acceptance starts the drains. -/
def dozeAnswer (n : Nat) (accept : Bool) : Prog :=
  .ask fun d => match d.pwr.req with
    | none => .skip
    | some q => .when (q.waits.contains n) [
        if !accept then .all [raise 24 n, abandonEntry 0x0403]
        else .all [
          .eff (.pwr fun p => { p with req := some { q with waits := q.waits.erase n } }),
          .when (q.waits.erase n).isEmpty [startDrains q.target]]]

/-- Another link than the requester's holds a live lease. -/
def Dev.otherLease (d : Dev) (link : Nat) : Bool := d.fns.any fun f => f.2.live && f.1 / 64 != link

/-- The checks of Table 4.2, orders 1 to 7, in the state the device was in when the request arrived. -/
def Dev.entryAbort (d : Dev) (c : Call) (arg : Nat) : Nat :=
  let code := d.codeOf c.o.path
  let was := d.num .pwrState
  firstAbort [
    (decide (4 < arg), 0x0302),
    (!(d.codeOk c && isHost code && hostFn code == 0 && d.ownerLink 1 == some (hostLink code)), 0x0201),
    (d.pwr.req.isSome || d.num .trState == 1, 0x0402),
    (was != 0 && arg != 0, 0x0401),
    (was == 0 && arg == 0, 0x0401),
    (decide (2 ≤ arg) && !d.acts.isEmpty, 0x0501),
    (decide (3 ≤ arg) && d.otherLease (hostLink code), 0x0401)]

/-- PWR_STATE_REQUEST in its own order of checks (R113, R152), on the device `d0` before the wake that the request itself is. An argument of 0 in Idle or Sleep returns the device to Run (R114). -/
def powerRequest (d0 : Dev) (c : Call) (form : Bool) (arg : Nat) : Prog :=
  arriveIf (fun _ => true) c (.ask fun d =>
    let a := if !form then 0x0301 else if d0.entryAbort c arg ≠ 0 then d0.entryAbort c arg else if d.full c then 0x0402 else 0
    if a ≠ 0 then respond c a []
    else if arg = 0 then .all [.when (d.num .pwrState != 0) [exitToRun], respond c 0 []]
    else startEntry c arg)

/-- PWR_STATE_REQUEST. -/
def execPwrStateRequest (o : Origin) (arg : BitVec 8) (s : State) : Host.Outcome State Fault Refusal :=
  s.run (powerRequest s.dev ⟨o, 3, Obj.pwrStateRequest.index 0 0, Obj.pwrStateRequest.subOf 0⟩ true arg.toNat)

/-- DOZE_TIMEOUT (R115): every channel that has not answered raises event 24, and the entry ends. -/
def execDozeTimeout (s : State) : Host.Outcome State Fault Refusal :=
  s.run (live (.ask fun d => match d.pwr.req with
    | none => .skip
    | some q => .when (!q.waits.isEmpty) [.each q.waits fun n => raise 24 n, abandonEntry 0x0403]))

/-! ## Clock gates (R102 to R105) -/

/-- GATE_DRAIN_COMPLETE (R102): the gate closes; the last gate of an entry completes it. A gate that an instance reset holds open is not closed. -/
def execGateDrainComplete (domain : Fin 60) (s : State) : Host.Outcome State Fault Refusal :=
  s.run (.ask fun d => .when (SMap.get 0 d.clk.gates domain.val == 1) [
    .eff (.clk fun c => { c with gates := SMap.put 0 domain.val 2 c.gates }),
    .ask fun e => .when (e.clk.gates.all fun g => g.2 == 2) [finishEntry]])

/-- GATE_DRAIN_TIMEOUT (R103): the gate stays open, event 19 is raised, and an entry that needed it aborts. -/
def execGateDrainTimeout (domain : Fin 60) (s : State) : Host.Outcome State Fault Refusal :=
  s.run (.ask fun d => .when (SMap.get 0 d.clk.gates domain.val == 1) [
    .eff (.clk fun c => { c with gates := SMap.put 0 domain.val 0 c.gates }),
    count .gateDrainTimeouts, raise 19 domain.val, abandonEntry 0x0402])

/-- GATE_HELD_ACCESS (R105): an access reaches a closed gate and is held; its wake request counts as the Umani request of the chapter's
example. If the device wakes, the gates open and the access proceeds; otherwise CROSSING_TIMEOUT follows. -/
def execGateHeldAccess (domain : Fin 60) (s : State) : Host.Outcome State Fault Refusal :=
  s.run (.ask fun d => .when (SMap.get 0 d.clk.gates domain.val == 2) [wake 3])

/-! ## Wake sources of their own -/

/-- WAKE_N_ASSERT (Table 4.4, bit 0). -/
def execWakeNAssert (s : State) : Host.Outcome State Fault Refusal := s.run (.ask fun d => .when (!d.clk.devReset && !d.clk.hrefLost) [wake 0])

/-- RINGMASTER_PREWAKE (R120, bit 8): a pending action's trigger lies within 10 µs. -/
def execRingmasterPrewake (s : State) : Host.Outcome State Fault Refusal :=
  s.run (.ask fun d => .when (!d.acts.isEmpty) [wake 8])

/-! ## Tightrope (R126 to R130) -/

/-- The monitor reads VDD_CORE within ±15 mV of a point's target (R128). -/
def within15 (p mv : Nat) : Bool := decide (pointMv p ≤ mv + 15) && decide (mv ≤ pointMv p + 15)

/-- The point in force has changed: a move starts unless one runs or a fault holds (R130). In Sleep the OP3 voltage is held. -/
def retarget : Prog :=
  .ask fun d => .when (d.num .trState == 0 && decide (d.num .pwrState ≤ 1)) [startMove d.opActive none]

/-- TR_OP_TARGET (R128 to R130). The object takes its value when the move ends; a write that needs no move takes it at once. In the fault
state only the present clock point is accepted, and it clears the fault. -/
def opTargetBeh (c : Call) (v : Nat) : Beh :=
  beh (fun _ => 0)
    (fun d => firstAbort [(d.num .trState == 2 && v != d.pwr.clkPoint, 0x0401), (d.num .trState == 1, 0x0402)])
    fun d =>
      let dest := max v d.pwr.floor
      if d.num .trState = 2 then .done (.all [putN .trOpTarget 0 0 v, putN .trState 0 0 0, retarget]) []
      else if d.num .pwrState ≤ 1 ∧ v = dest ∧ (dest ≠ d.pwr.clkPoint ∨ dest ≠ d.pwr.voltPoint) then .later (startMove dest (some c))
      else .done (.all [putN .trOpTarget 0 0 v, retarget]) []

/-- TR_OP_TARGET_WRITE. -/
def execTrOpTargetWrite (o : Origin) (v : BitVec 8) (s : State) : Host.Outcome State Fault Refusal :=
  s.run (serveWrite o .trOpTarget 0 0 (.num v.toNat)
    (opTargetBeh ⟨o, 2, Obj.trOpTarget.index 0 0, Obj.trOpTarget.subOf 0⟩ v.toNat))

/-- REGULATOR_SETTLED (R128): with the monitor within ±15 mV the move completes; event 25. A floor that has changed meanwhile starts the next. -/
def execRegulatorSettled (milliVolts : BitVec 16) (s : State) : Host.Outcome State Fault Refusal :=
  s.run (.all [
    putN .trVcoreMeasured 0 0 milliVolts.toNat,
    .ask fun d => match d.pwr.moveTo with
      | none => .skip
      | some p => .when (d.num .trState == 1 && within15 p milliVolts.toNat) [
          .eff (.pwr fun x => { x with clkPoint := p, voltPoint := p }),
          putN .trState 0 0 0, raise 25,
          .when d.pwr.moveCall.isSome [putN .trOpTarget 0 0 p],
          moveAnswer 0, retarget]])

/-- TR_SETTLE_TIMEOUT (R129): the lower clock and the higher voltage stay, TR_STATE is 2, event 26; event 27 when the regulator and the
monitor disagree. A target that had been sent for a lower voltage is the higher one again. -/
def execTrSettleTimeout (milliVolts : BitVec 16) (regulatorSettled : Bool) (s : State) : Host.Outcome State Fault Refusal :=
  s.run (.all [
    putN .trVcoreMeasured 0 0 milliVolts.toNat,
    .ask fun d => match d.pwr.moveTo with
      | none => .skip
      | some p =>
        let ok := within15 p milliVolts.toNat
        .when (d.num .trState == 1 && !(ok && regulatorSettled)) [
          .when (decide (d.pwr.voltPoint < p)) [sendTarget d.pwr.voltPoint],
          putN .trState 0 0 2, raise 26, .when (ok != regulatorSettled) [raise 27], moveAnswer 0x0701]])

/-- The thermal floor rises by one point, up to OP3; event 28 (R127). -/
def raiseFloor : Prog :=
  .ask fun d => .when (decide (d.pwr.floor < 3)) [
    .eff (.pwr fun p => { p with floor := p.floor + 1 }), raise 28, retarget]

/-- THERMAL_LIMIT_EXCEEDED (R127; Table 4.4, bit 9). -/
def execThermalLimitExceeded (s : State) : Host.Outcome State Fault Refusal :=
  s.run (.ask fun d => .when d.answers [
    wake 9, .when (!d.pwr.hot) [.eff (.pwr fun p => { p with hot := true }), raiseFloor]])

/-- THERMAL_FLOOR_RAISE (R127): 10 ms more above the limit. -/
def execThermalFloorRaise (s : State) : Host.Outcome State Fault Refusal := s.run (.ask fun d => .when (d.answers && d.pwr.hot) [wake 9, raiseFloor])

/-- THERMAL_FLOOR_LOWER (R127): event 29 when the floor reaches OP0. -/
def execThermalFloorLower (s : State) : Host.Outcome State Fault Refusal :=
  s.run (.ask fun d => .when d.answers [
    .eff (.pwr fun p => { p with hot := false }),
    .when (decide (0 < d.pwr.floor)) [
      .eff (.pwr fun p => { p with floor := p.floor - 1 }), .when (d.pwr.floor == 1) [raise 29], retarget]])

end Sys2Proof.Machine
end

