-- ==== Sys2Proof/Machine/Activation.lean ====
section
/-!
DEFINITION. Activation (spec/12): the Lemow messages, the activation states, windows and what is sent in them, modes and doze.
-/
namespace Sys2Proof.Machine

/-! ## The upstream timeline (R332, R344) -/

/-- Symbols of 39.0625 ps in a frame, a grant unit, and the fixed response of 35 µs. -/
def frameSyms : Nat := 3200000
def unitSyms : Nat := 64
def responseSyms : Nat := 896000

/-- The start of a unit of an upstream frame in symbols, the fixed response left out. -/
def upPos (frame unit eqd : Nat) : Nat := frame * frameSyms + unit * unitSyms + eqd

/-- CAPS as announced (Table 12.4, R341): ANDed with ACT_CAPS_ALLOWED, bit 27 always set. -/
def Dev.caps (d : Dev) (n : Nat) : Nat := putBit (0xFFC08700 &&& d.num .actCapsAllowed n) 27 true

/-- Whether a PHY and factor are set in a CAPS word; the ranging burst always is. -/
def capsHas (c phy sf : Nat) : Bool := if phy = 0 then bitOf c 28 else if phy = 1 then bitOf c (15 + sf) else true

/-- Grant units that a management packet of `l` bytes takes with lead and lag (R267, R280). -/
def Dev.txUnits (d : Dev) (n phy sf l : Nat) : Nat :=
  d.num .feLdLead n + ceilDiv (airTime (phy == 1) sf l * 2) 5 + d.num .feLdLag n

/-- Units of the transmission a window calls for: ANNOUNCE of 20 bytes; the ranging packet of LENGTH 0 or the ranging burst; a
management window calls for none. -/
def Dev.windowNeed (d : Dev) (n : Nat) (w : Window) : Nat :=
  if w.kind = 2 then 0
  else if w.phy = 2 then d.num .feLdLead n + d.num .actUsPreamble n + 3 + d.num .feLdLag n
  else d.txUnits n w.phy w.sf (if w.kind = 0 then 20 else 0)

/-- The delay that places a transmission: PRE_EQD for a terminal that has not been ranged (R344) and for the ranging packet
(R631), ACT_EQD otherwise. -/
def Dev.windowEqd (d : Dev) (n : Nat) (w : Window) : Nat :=
  if (d.ch n).unranged || (w.kind == 1 && w.phy != 2) then w.preEqd else d.num .actEqd n

/-- Whether a window has ended by the present frame mark. -/
def Dev.windowOver (d : Dev) (n : Nat) (w : Window) : Bool :=
  decide (upPos w.frame (w.unit + w.dur) (d.windowEqd n w) + responseSyms ≤ d.num .frmFrame n * frameSyms)

/-- Whether a window is usable (R344). -/
def Dev.windowUsable (d : Dev) (n : Nat) (w : Window) : Bool :=
  decide (d.num .frmFrame n + 2 ≤ w.frame) && capsHas (d.caps n) w.phy w.sf && decide (d.windowNeed n w ≤ w.dur)

/-- Whether an interval of the timeline overlaps a scheduled burst (R348). -/
def Dev.hitsBurst (d : Dev) (n start len : Nat) : Bool :=
  (d.ch n).bursts.any fun b =>
    let a := upPos b.frame b.start b.eqd
    decide (a < start + len * unitSyms) && decide (start < a + b.len * unitSyms)

/-- Whether burst-enable for a packet would exceed a non-zero FE_ROGUE_ON_LIMIT (R348); times in half nanoseconds. -/
def Dev.tooLong (d : Dev) (n phy sf l : Nat) : Bool :=
  let lim := d.num .feRogueOnLimit n
  lim != 0 && decide (lim * 2000 < 2 * airTime (phy == 1) sf l + 5 * (d.num .feLdLead n + d.num .feLdLag n))

/-- An event of Table 12.12 for channel `n`: 1 invalid, 2 clipped, 3 overlapping, 4 idle-filled grant, 5 burst dropped on a
delay change, 6 management transmission refused; with the allocation. -/
def grantEvent (n cause alloc : Nat) : Prog := raise (chEvt n 15) n cause (top16 alloc)

/-- A transmission refused for FE_ROGUE_ON_LIMIT is counted and raises its event. -/
def mgtRefused (n : Nat) : Prog := .all [count .actMgtRefused n, grantEvent n 6 0]

/-- FE_LD_LEAD and FE_LD_LAG, by which burst-enable precedes and outlasts what is sent (R220), as an item of output carries them. -/
def Dev.leadLag (d : Dev) (n : Nat) : List Byte := beBytes 1 (d.num .feLdLead n) ++ beBytes 1 (d.num .feLdLag n)

/-- A PAM4 burst of some grant units, lead and lag among them, starts: burst-enable is up until the first sub-tick after their end (R220; SUB_TICK, log
entry 115). -/
def burstUp (n units : Nat) : Prog := .eff (.fch n fun c => { c with burstOn := true, burstLeft := ceilDiv (units * 5) 2000 })

/-- A management packet goes on air at a place of the timeline (R281): burst-enable is up until MGT_TX_COMPLETE. What leaves is the
place (frame, unit, delay), PHY and factor, then the chips; `b` of the item is MGT_TX_LEVEL. -/
def mgtStart (n phy sf type : Nat) (data : List Byte) (frame unit eqd : Nat) : Prog :=
  .ask fun d =>
    let h := d.num .actHandle n
    .all [
      burstSettings n,
      .eff (.fch n fun c => { c with onAir := some (airTime (phy == 1) sf data.length), burstOn := true, burstLeft := 0 }),
      send .mgmt n (d.num .mgtTxLevel n) (beBytes 8 frame ++ beBytes 4 unit ++ beBytes 4 eqd ++ beBytes 1 phy ++ beBytes 1 sf
        ++ d.leadLag n ++ mgtWave (phy == 1) sf type (if h = 0xFFFF then 0xFFFE else h) data)]

/-! ## Downstream messages (R336 to R339) -/

/-- A field of a message body, most significant byte first. -/
def msgAt (m : Lemow) (off len : Nat) : Nat := beAt m.body off len

/-- What a kind of message admits (Table 12.2): the length of its body, its reserved values, the addresses it takes (handle, 0xFFFE,
0xFFFF), whether it names this terminal or another by terminal ID (`none` where it has no such field), and where it is legal. -/
structure LemowRule where
  len : Nat
  bad : Bool
  toHandle : Bool
  toNone : Bool
  toAll : Bool
  named : Option Bool
  legal : Bool

/-- A downstream message is discarded, ignored, counted as illegal, or acted on (R154, R337). -/
def lemowIn (n : Nat) (m : Lemow) (rule : Dev → LemowRule) (act : Prog) : Prog :=
  .ask fun d =>
    let r := rule d
    let a := m.addr.toNat
    let h := d.num .actHandle n
    let mine := (r.toHandle && a == h && a != 0xFFFF) || (r.toNone && a == 0xFFFE && h == 0xFFFF) || (r.toAll && a == 0xFFFF)
    if !d.addressed n a then .skip
    else if m.body.length ≠ r.len ∨ r.bad then count .actMsgDiscards n
    else if !mine || r.named == some false then .skip
    else if r.legal then act
    else .when (a == h && a != 0xFFFF || r.named == some true) [count .actMsgIllegal n]

/-- ACK of a message (Table 12.3). -/
def ack (n : Nat) (m : Lemow) (code result : Nat) : Prog :=
  answerLemow n m.inband 0x43 m.seq.toNat (beBytes 1 code ++ beBytes 1 result ++ [0, 0])

/-- The state lies among some. -/
def Dev.actIn (d : Dev) (n : Nat) (l : List Nat) : Bool := l.contains (d.num .actState n)

/-- A rule of a message addressed to the handle alone. -/
def toHandleRule (len : Nat) (bad legal : Bool) : LemowRule := ⟨len, bad, true, false, false, none, legal⟩

/-! ### WINDOW (R344) -/

/-- The window that a message describes. -/
def msgWindow (m : Lemow) : Window :=
  ⟨msgAt m 0 1, msgAt m 1 1, msgAt m 2 1, msgAt m 4 8 % 2 ^ 51, msgAt m 12 2, msgAt m 16 4, msgAt m 20 4 % 2 ^ 24⟩

/-- A reserved value in WINDOW. -/
def Window.bad (w : Window) : Bool :=
  decide (2 < w.kind) || decide (2 < w.phy) || (w.phy == 2 && w.kind != 1)
    || (if w.phy = 1 then decide (w.sf < 7) || decide (12 < w.sf) else w.sf != 0)
    || decide (49999 < w.unit) || w.dur == 0

/-- A window is delivered: it is held, up to four, or skipped and counted. The first usable discovery window, the hold-off having
ended, takes Listening to Announcing. -/
def execWindow (n : Fin 4) (m : Lemow) (s : State) : Host.Outcome State Fault Refusal :=
  s.run (live (lemowIn n.val m
    (fun d =>
      let k := msgAt m 0 1
      ⟨24, (msgWindow m).bad, k != 0, false, k == 0, none, if k = 0 then d.actIn n.val [1, 2] else d.actIn n.val [3, 4]⟩)
    (.ask fun d =>
      let w := msgWindow m
      let live := (d.ch n.val).windows.filter fun x => !d.windowOver n.val x
      .when (!(d.num .actState n.val == 1 && (d.ch n.val).holdoff)) [
        if d.windowUsable n.val w ∧ live.length < 4 then .all [
          .eff (.fch n.val fun c => { c with windows := live ++ [w] }),
          .when (w.kind == 0 && d.num .actState n.val == 1) [actTo n.val 2 5]]
        else .all [
          .eff (.fch n.val fun c => { c with windows := live, skips := c.skips }),
          count .actWindowSkips n.val]])))

/-! ### Registration -/

/-- The slots of a channel's allocations that hold one (R352). -/
def Dev.allocSlots (d : Dev) (n : Nat) : List Nat := (List.range 1024).filter fun i => bitOf (d.num .actAlloc n i) 15

/-- The slot that holds an allocation. -/
def Dev.allocSlot (d : Dev) (n a : Nat) : Option Nat :=
  (d.allocSlots n).find? fun i => d.num .actAlloc n i % 2 ^ 14 == a

/-- ASSIGN: the handle is taken; the retained allocations and delay are kept only when the handle equals the retained one (R347). -/
def execAssign (n : Fin 4) (m : Lemow) (s : State) : Host.Outcome State Fault Refusal :=
  s.run (live (lemowIn n.val m
    (fun d => ⟨12, decide (0x0FFF < msgAt m 8 2), false, true, false, some (msgAt m 0 8 == d.num .idTerminal), d.actIn n.val [2]⟩)
    (.ask fun d =>
      let c := d.ch n.val
      let same := c.retHandle == msgAt m 8 2
      .all [
        putN .actHandle n.val 0 (msgAt m 8 2),
        .when same [
          putN .actEqd n.val 0 c.retEqd,
          .each c.retAllocs.zipIdx fun x => putN .actAlloc n.val x.2 (2 ^ 15 + x.1 % 2 ^ 14)],
        actTo n.val 3 6,
        .eff (.fch n.val fun c => { c with
          retHandle := 0xFFFF, retAllocs := [], retEqd := 0, unranged := !same, eqdTaken := false, windows := []
          attempt := 0, skips := 0 })])))

/-- Whether every channel of a mask has FE_ENABLE = 1 and is in Ranging or Operating (R350). -/
def Dev.bondReady (d : Dev) (mask : Nat) : Bool :=
  (setBits 4 mask).all fun k => d.num .feEnable k == 1 && d.actIn k [3, 4]

/-- The best common mode for an OFFER (R350): CAPS, US_SF and BOND_MEMBERS. Strengths and the margin are in 0.25 dB. -/
def Dev.bestMode (d : Dev) (n caps usSf members : Nat) : Nat :=
  let both := d.caps n &&& caps
  let mem := members % 16
  let c := d.ch n
  let margin := 4 * d.num .actPhyMargin n
  let quad := mem == 15 && d.bondReady 15
  let pair := (mem == 3 || mem == 12) && bitOf mem n && d.bondReady mem
  let bond := if bitOf both 30 && quad then 2 else if bitOf both 31 && pair then 1 else 0
  let recent := match c.slAt with
    | some t => (let u := addNs t.1 t.2 1000000000; timeLe d.tim.secs d.tim.ns u.1 u.2)
    | none => false
  let phy := if bitOf both 28 && recent && decide (margin ≤ c.slStrength) then 0 else 1
  let sf := ([7, 8, 9, 10, 11, 12].find? fun s => bitOf both (15 + s) && decide (margin + 12 * (12 - s) ≤ c.cm12)).getD 12
  let sfTx := if bitOf both (15 + usSf) then usSf else 12
  bond * 2 ^ 30 + b2n (bitOf both 29) * 2 ^ 29 + phy * 2 ^ 28 + sf * 2 ^ 24 + sfTx * 2 ^ 20

/-- OFFER (R341, R350): answered with SELECT. -/
def execOffer (n : Fin 4) (m : Lemow) (s : State) : Host.Outcome State Fault Refusal :=
  s.run (live (lemowIn n.val m
    (fun d => toHandleRule 8 (!bitOf (msgAt m 0 4) 27 || decide (msgAt m 4 1 < 7) || decide (12 < msgAt m 4 1)) (d.actIn n.val [3]))
    (.ask fun d =>
      let mode := d.bestMode n.val (msgAt m 0 4) (msgAt m 4 1) (msgAt m 5 1)
      .all [
        .eff (.fch n.val fun c => { c with select := some mode }),
        answerLemow n.val m.inband 0x42 m.seq.toNat (beBytes 4 mode)])))

/-- CONFIRM (R351). -/
def execConfirm (n : Fin 4) (m : Lemow) (s : State) : Host.Outcome State Fault Refusal :=
  s.run (live (lemowIn n.val m
    (fun d => toHandleRule 12 (modeBond (msgAt m 0 4) == 3) (d.actIn n.val [3]))
    (.ask fun d =>
      let mode := msgAt m 0 4 / 2 ^ 20 * 2 ^ 20
      let f := msgAt m 4 8 % 2 ^ 51
      if (d.ch n.val).select = some mode ∧ d.num .frmFrame n.val + 2 ≤ f then .all [
        .eff (.fch n.val fun c => { c with modePend := some (mode, f) }),
        ack n.val m 0x04 0]
      else ack n.val m 0x04 1)))

/-- A new delay (R335): bursts already scheduled keep theirs. It ranges the channel while its fibre PLL is Locked (R83). -/
def takeEqd (n v : Nat) : Prog :=
  .ask fun d =>
    let ranged := d.num .clkFchState 0 n == 2
    .all [putN .actEqd n 0 v, .eff (.fch n fun c => { c with unranged := !ranged, eqdTaken := ranged })]

/-- EQD (R335). -/
def execEqd (n : Fin 4) (m : Lemow) (s : State) : Host.Outcome State Fault Refusal :=
  s.run (live (lemowIn n.val m (fun d => toHandleRule 4 false (d.actIn n.val [3, 4]))
    (.all [takeEqd n.val (msgAt m 0 4 % 2 ^ 24), ack n.val m 0x05 0])))

/-- ACT_EQD: a write by E is a new delay, as an EQD message is (R335). -/
def actEqdBeh (n v : Nat) : Beh := .plain fun _ => .done (takeEqd n v) []

/-- A write of ACT_EQD. -/
def execActEqdWrite (o : Origin) (n : Fin 4) (v : BitVec 32) (s : State) : Host.Outcome State Fault Refusal :=
  s.run (serveWrite o .actEqd n.val 0 (.num v.toNat) (actEqdBeh n.val v.toNat))

/-- The first map frame that a change of the allocations applies to (R352): the frame after the one that carried the message, or the first
frame that begins after delivery. -/
def Dev.allocFrom (d : Dev) (n : Nat) (inband : Bool) : Nat :=
  (if inband then (d.ch n).areaFrame else d.num .frmFrame n) + 1

/-- An allocation enters or leaves a slot, in force from a map frame on. -/
def setAlloc (n slot a : Nat) (add : Bool) (first : Nat) : Prog :=
  .all [
    putN .actAlloc n slot (if add then 2 ^ 15 + a else 0),
    .eff (.fch n fun c => { c with
      allocPend := (c.allocPend.filter fun x => decide (first ≤ x.2.2 + 2)) ++ [(a, add, first)],
      cuts := if add then c.cuts else SMap.put [] a [] c.cuts })]

/-- ALLOC (R352). Removing an allocation that is not held is done (DEDUCED). -/
def execAlloc (n : Fin 4) (m : Lemow) (s : State) : Host.Outcome State Fault Refusal :=
  s.run (live (lemowIn n.val m
    (fun d => toHandleRule 4 (decide (2 < msgAt m 0 1) || msgAt m 2 2 % 2 ^ 14 == 0x3FFF) (d.actIn n.val [3, 4, 5]))
    (.ask fun d =>
      let a := msgAt m 2 2 % 2 ^ 14
      let first := d.allocFrom n.val m.inband
      match msgAt m 0 1 with
      | 0 =>
        if (d.allocSlot n.val a).isSome then ack n.val m 0x06 0
        else match (List.range 1024).find? fun i => !bitOf (d.num .actAlloc n.val i) 15 with
          | some i => .all [setAlloc n.val i a true first, ack n.val m 0x06 0]
          | none => ack n.val m 0x06 2
      | 1 => .all [
          match d.allocSlot n.val a with
          | some i => setAlloc n.val i a false first
          | none => .skip,
          ack n.val m 0x06 0]
      | _ => .all [
          .each (d.allocSlots n.val) fun i => setAlloc n.val i (d.num .actAlloc n.val i % 2 ^ 14) false first,
          ack n.val m 0x06 0])))

/-- ACTIVATE: Ranging becomes Operating once an EQD has been taken. -/
def execActivate (n : Fin 4) (m : Lemow) (s : State) : Host.Outcome State Fault Refusal :=
  s.run (live (lemowIn n.val m (fun d => toHandleRule 0 false (d.actIn n.val [3] && (d.ch n.val).eqdTaken)) (actTo n.val 4 8)))

/-- REFUSE (R346): the hold-off runs until REFUSE_HOLDOFF_END. -/
def execRefuse (n : Fin 4) (m : Lemow) (s : State) : Host.Outcome State Fault Refusal :=
  s.run (live (lemowIn n.val m (fun d => toHandleRule 4 false (d.actIn n.val [3]))
    (.all [
      count .actRefusals n.val, putN .actLastRefusal n.val 0 (msgAt m 0 2),
      .eff (.fch n.val fun c => { c with holdoff := msgAt m 2 2 != 0 }),
      actListening n.val 9 true])))

/-- The hold-off ends (R346). -/
def execRefuseHoldoffEnd (n : Fin 4) (s : State) : Host.Outcome State Fault Refusal :=
  s.run (live (.eff (.fch n.val fun c => { c with holdoff := false })))

/-- DEACTIVATE (Table 12.7). -/
def execDeactivate (n : Fin 4) (m : Lemow) (s : State) : Host.Outcome State Fault Refusal :=
  s.run (live (lemowIn n.val m (fun d => ⟨0, false, true, false, true, none, d.actIn n.val [2, 3, 4, 5]⟩)
    (.ask fun d => match d.num .actState n.val with
      | 2 => actListening n.val 7 false
      | 3 => actListening n.val 9 true
      | 4 => actListening n.val 11 true
      | _ => actListening n.val 13 true)))

/-- In Initial with FE_STATE = 2, activation goes on to Listening (DEDUCED: FE_STATE need not be reached again). -/
def initialCheck (n : Nat) : Prog :=
  .ask fun d => .when (d.num .actState n == 0 && d.num .feState n == 2) [actTo n 1 4]

/-- DISABLE: the terminal is Disabled, its parameters dropped. -/
def execDisable (n : Fin 4) (m : Lemow) (s : State) : Host.Outcome State Fault Refusal :=
  s.run (live (lemowIn n.val m
    (fun d => ⟨8, false, false, true, true, some (msgAt m 0 8 == d.num .idTerminal), d.num .actState n.val != 6⟩)
    (.all [actTo n.val 6 1, dropParams n.val,
      .eff (.fch n.val fun c => { c with
        windows := [], attempt := 0, skips := 0, holdoff := false, retHandle := 0xFFFF, retAllocs := [], retEqd := 0 })])))

/-- ENABLE: a Disabled terminal that is named, or every terminal, goes to Initial. -/
def execEnable (n : Fin 4) (m : Lemow) (s : State) : Host.Outcome State Fault Refusal :=
  s.run (live (lemowIn n.val m
    (fun d =>
      let id := msgAt m 0 8
      ⟨8, false, false, true, true, if id = 2 ^ 64 - 1 then none else some (id == d.num .idTerminal), d.actIn n.val [6]⟩)
    (.all [actTo n.val 0 3, initialCheck n.val])))

/-- RDI: RDI_RX of FRM_DEFECTS, bit [4] (Table 10.6), is set or cleared. -/
def execRdi (n : Fin 4) (m : Lemow) (s : State) : Host.Outcome State Fault Refusal :=
  s.run (live (lemowIn n.val m (fun d => toHandleRule 1 (decide (1 < msgAt m 0 1)) (d.actIn n.val [4]))
    (.all [setDefect n.val 4 (msgAt m 0 1 == 1), ack n.val m 0x0C 0])))

/-- WAKE: a wake source (R119). -/
def execWake (n : Fin 4) (m : Lemow) (s : State) : Host.Outcome State Fault Refusal :=
  s.run (live (lemowIn n.val m (fun d => ⟨0, false, true, false, true, none, d.actIn n.val [4]⟩) (wake 6)))

/-! ### Quality (R339) -/

/-- The body of QUALITY (Table 12.3): UNCORRECTABLE is that of the last complete period. -/
def Dev.quality (d : Dev) (n : Nat) : List Byte :=
  let snr := (d.view .dmtSnrMap n 0).b
  beBytes 2 (d.num .dmtMerAvg n) ++ beBytes 2 (d.num .dmtPilotMer n) ++ beBytes 4 (d.view .dmtFreqOffset n 0).n
    ++ beBytes 4 (d.rxPower n) ++ beBytes 4 (d.ch n).snrUncorr
    ++ (List.range 16).map fun j => (slice snr (121 * j) 121).foldl (fun a x => if x.toNat < a.toNat then x else a) 255

/-- QUALITY_REQUEST: answered with QUALITY. -/
def execQualityRequest (n : Fin 4) (m : Lemow) (s : State) : Host.Outcome State Fault Refusal :=
  s.run (live (lemowIn n.val m (fun d => toHandleRule 0 false (d.actIn n.val [3, 4]))
    (.ask fun d => answerLemow n.val m.inband 0x46 m.seq.toNat (d.quality n.val))))

/-- The end of a DMT_SNR_FRAMES period in Locked (R239): the map and the two MER figures are written from the period's sums; with ACT_QUALITY_AUTO = 1, a
registered terminal sends QUALITY. -/
def execSnrPeriodEnd (n : Fin 4) (s : State) : Host.Outcome State Fault Refusal :=
  s.run (live (.ask fun d =>
    let u := d.num .dmtCwUncorrectable n.val
    let r := (d.ch n.val).dmt
    .when (d.num .dmtState n.val == 3 && decide (d.num .dmtSnrFrames n.val ≤ r.frames)) [
      putO .dmtSnrMap n.val 0 (padTo 1936 (List.zipWith snrByte r.sig r.noise)),
      putN .dmtMerAvg n.val 0 (merAverage r.sig r.noise), putN .dmtPilotMer n.val 0 (merValue r.pilot.1 r.pilot.2),
      .eff (.fch n.val fun c => { c with
        snrUncorr := u - c.snrBase, snrBase := u, dmt := { c.dmt with frames := 0, sig := [], noise := [], pilot := (0, 0) } }),
      .ask fun e => .when (e.num .actQualityAuto n.val == 1 && e.actIn n.val [3, 4]) [sendLemow n.val 0x46 (e.quality n.val)]]))

/-! ### Doze (R362) -/

/-- DOZE_REPLY: accepted, doze waits for START_FRAME; refused, the entry into Sleep ends (R115). -/
def execDozeReply (n : Fin 4) (m : Lemow) (s : State) : Host.Outcome State Fault Refusal :=
  s.run (live (lemowIn n.val m
    (fun d =>
      let cyc := msgAt m 2 2
      toHandleRule 12 (decide (1 < msgAt m 0 1) || decide (msgAt m 1 1 < 4) || decide (32 < msgAt m 1 1) || cyc % 32 != 0
          || decide (cyc < 32) || decide (32768 < cyc) || msgAt m 4 8 % 2 ^ 51 % cyc != 0)
        (d.actIn n.val [4] && d.num .actDozeState n.val == 1))
    (.all [
      ack n.val m 0x0D 0,
      if msgAt m 0 1 = 1 then .all [
        putN .actDozeState n.val 0 2,
        .eff (.fch n.val fun c => { c with dozeAwake := msgAt m 1 1, dozeCycle := msgAt m 2 2, dozeStart := msgAt m 4 8 % 2 ^ 51 })]
      else putN .actDozeState n.val 0 0,
      dozeAnswer n.val (msgAt m 0 1 == 1)])))

/-- START_FRAME of an accepted doze. -/
def execDozeStart (n : Fin 4) (s : State) : Host.Outcome State Fault Refusal :=
  s.run (live (.ask fun d => .when (d.num .actDozeState n.val == 2 && decide ((d.ch n.val).dozeStart ≤ d.num .frmFrame n.val))
    [putN .actDozeState n.val 0 3]))

/-! ## Timeouts and restart (Table 12.7) -/

/-- No usable discovery window for ACT_ANNOUNCE_TIMEOUT in Announcing. -/
def execAnnounceTimeout (n : Fin 4) (s : State) : Host.Outcome State Fault Refusal :=
  s.run (live (.ask fun d => .when (d.actIn n.val [2]) [actListening n.val 7 false]))

/-- ACT_RANGE_TIMEOUT in Ranging. -/
def execRangeTimeout (n : Fin 4) (s : State) : Host.Outcome State Fault Refusal :=
  s.run (live (.ask fun d => .when (d.actIn n.val [3]) [actListening n.val 9 true]))

/-- ACT_HOLD_TIMEOUT in Holding. -/
def execHoldTimeout (n : Fin 4) (s : State) : Host.Outcome State Fault Refusal :=
  s.run (live (.ask fun d => .when (d.actIn n.val [5]) [actListening n.val 13 true]))

/-- ACT_RESTART: abort 0x0401 in Disabled. -/
def actRestartBeh (n : Nat) : Beh :=
  beh (fun _ => 0) (fun d => if d.num .actState n = 6 then 0x0401 else 0)
    fun _ => .done (.all [actInitial n, initialCheck n]) []

/-- The command ACT_RESTART. -/
def execActRestart (o : Origin) (n : Fin 4) (s : State) : Host.Outcome State Fault Refusal :=
  s.run (serveExec o .actRestart n.val 0 true (.num 0) (actRestartBeh n.val))

/-! ## What is sent in windows (R345, R348, R631) -/

/-- The first pending window of a kind that has not ended, and the windows without it. -/
def Dev.nextWindow (d : Dev) (n kind : Nat) : Option (Window × List Window) :=
  let l := (d.ch n).windows.filter fun w => !d.windowOver n w
  (l.find? fun w => w.kind == kind).map fun w => (w, l.erase w)

/-- The windows still pending. -/
def setWindows (n : Nat) (l : List Window) : Prog := .eff (.fch n fun c => { c with windows := l })

/-- The ANNOUNCE message (Table 12.3). -/
def Dev.announceBody (d : Dev) (n : Nat) : List Byte :=
  beBytes 8 (d.num .idTerminal) ++ beBytes 4 (d.caps n) ++ beBytes 1 n ++ beBytes 1 (min 255 ((d.ch n).attempt + 1))
    ++ beBytes 2 (d.ch n).retHandle

/-- The next discovery window in Announcing (R345): it is skipped by the backoff, or ANNOUNCE is sent at the offset drawn from the TRNG, and
the windows to skip next are drawn from the values its attempts permit. With the TRNG stopped (R608) there is no offset, and nothing is sent. -/
def execAnnounce (n : Fin 4) (offset : BitVec 32) (backoff : BitVec 4) (s : State) : Host.Outcome State Fault Refusal :=
  s.run (live (.ask fun d => match d.nextWindow n.val 0 with
    | none => .skip
    | some (w, rest) =>
      let off := offset.toNat % (w.dur - d.windowNeed n.val w + 1)
      let c := d.ch n.val
      .when (d.actIn n.val [2]) [
        setWindows n.val rest,
        if 0 < c.skips then .eff (.fch n.val fun c => { c with skips := c.skips - 1 })
        else if d.tooLong n.val w.phy w.sf 20 then mgtRefused n.val
        else .when (d.laserReady n.val && c.onAir.isNone && !d.sec.trngOff) [
          count .actAnnounces n.val,
          mgtStart n.val w.phy w.sf 0 (lemowMsg 0x41 c.seqNo (d.announceBody n.val)) w.frame (w.unit + off) (d.windowEqd n.val w),
          .eff (.fch n.val fun c => { c with
            attempt := c.attempt + 1, skips := backoff.toNat % 2 ^ min (c.attempt + 1) 4, seqNo := (c.seqNo + 1) % 65536 })]]))

/-- The burst header (Table 12.9), sent twice. -/
def burstHeader (handle alloc : Nat) (rdi : Bool) : List Byte :=
  let b := beBytes 6 (handle % 2 ^ 12 * 2 ^ 36 + alloc % 2 ^ 14 * 2 ^ 22 + b2n rdi * 2 ^ 21)
  b ++ beBytes 2 (crc16 b)

/-- The next ranging window (R355, R631): with PHY 2 a burst with no payload, otherwise a packet of LENGTH 0. -/
def execRangingBurst (n : Fin 4) (s : State) : Host.Outcome State Fault Refusal :=
  s.run (live (.ask fun d => match d.nextWindow n.val 1 with
    | none => .skip
    | some (w, rest) =>
      let need := d.windowNeed n.val w
      let free := !d.hitsBurst n.val (upPos w.frame w.unit (d.windowEqd n.val w)) need
      .when (d.actIn n.val [3, 4]) [
        setWindows n.val rest,
        if w.phy = 2 then .when (d.laserReady n.val && (d.ch n.val).onAir.isNone && d.num .actDozeState n.val != 3 && free) [
          burstSettings n.val, burstUp n.val need,
          send .burst n.val 0x3FFF (beBytes 8 w.frame ++ beBytes 4 w.unit ++ beBytes 4 (d.windowEqd n.val w)
            ++ beBytes 1 (d.num .actUsPreamble n.val) ++ d.leadLag n.val ++ burstHeader (d.num .actHandle n.val) 0x3FFF (bitOf (d.defects n.val) 5))]
        else if d.tooLong n.val w.phy w.sf 0 then mgtRefused n.val
        else .when (d.laserReady n.val && (d.ch n.val).onAir.isNone && d.num .actDozeState n.val != 3 && free)
          [mgtStart n.val w.phy w.sf 0 [] w.frame w.unit (d.windowEqd n.val w)]]))

/-- Whether a packet is the DOZE_END message. -/
def TxPkt.dozeEnd (p : TxPkt) : Bool := p.lemow && beAt p.data 0 1 == 0x45

/-- A management window (R280, R348): the head packet is sent when it is on the window's PHY and factor, fits, and overlaps no burst. -/
def execMgtTxStart (n : Fin 4) (s : State) : Host.Outcome State Fault Refusal :=
  s.run (live (.ask fun d => match d.nextWindow n.val 2, (d.ch n.val).txq with
    | some (w, rest), p :: q =>
      let phy := if p.phy = 2 then d.num .mgtTxPhy n.val else p.phy
      let sf := if phy = 1 then d.num .mgtCmSfTx n.val else 0
      let need := d.txUnits n.val phy sf p.data.length
      let eqd := d.windowEqd n.val w
      let takes := Prog.eff (.fch n.val fun c => { c with txq := q })
      .when (d.actIn n.val [3, 4] && (d.ch n.val).onAir.isNone && phy == w.phy && sf == w.sf && d.num .actDozeState n.val != 3) [
        if d.tooLong n.val phy sf p.data.length then .all [takes, mgtRefused n.val]
        else .when (d.laserReady n.val && decide (need ≤ w.dur) && !d.hitsBurst n.val (upPos w.frame w.unit eqd) need) [
          takes,
          setWindows n.val ({ w with unit := w.unit + need, dur := w.dur - need } :: rest),
          mgtStart n.val phy sf (if p.lemow then 0 else 1) p.data w.frame w.unit eqd,
          .when p.dozeEnd [putN .actDozeState n.val 0 0]]]
    | _, _ => .skip))

/-- The air time of a management transmission ends (R280): burst-enable falls after the lag. -/
def execMgtTxComplete (n : Fin 4) (s : State) : Host.Outcome State Fault Refusal :=
  s.run (live (.ask fun d => match (d.ch n.val).onAir with
    | none => .skip
    | some t => .all [
        count .mgtTxPackets n.val, putN .mgtTxLastAirtime n.val 0 t,
        .eff (.fch n.val fun c => { c with onAir := none, burstOn := false })]))

/-! ## Modes and groups (R351, R360) -/

/-- A group dissolves: each member keeps a copy of the contexts and continues as a single channel (R360, R531). -/
def dissolve (n : Nat) : Prog :=
  .ask fun d =>
    let lead := d.lead n
    let l := d.members n
    .all [
      .each l fun k => copyCtxs lead k,
      .each l fun k => .ask fun e => putN .actMode k 0 (putBits (e.num .actMode k) 30 2 0)]

/-- A confirmed mode takes effect on a channel. -/
def applyMode (k mode frame : Nat) : Prog :=
  .ask fun d => .all [
    .eff (.fch k fun c => { c with modePend := none, fecWas := (frame, bitOf (d.num .actMode k) 29) }),
    putN .actMode k 0 mode,
    putN .mgtTxPhy k 0 (bitsOf mode 28 1), putN .mgtCmSfRx k 0 (bitsOf mode 24 4), putN .mgtCmSfTx k 0 (bitsOf mode 20 4),
    mgtSettle k]

/-- The frame mark of APPLY_FRAME (R351): the mode takes effect on every member of its group, or on none. A group that a member leaves by a new mode
dissolves first (DEDUCED from R360). -/
def execModeApply (n : Fin 4) (s : State) : Host.Outcome State Fault Refusal :=
  s.run (live (.ask fun d => match (d.ch n.val).modePend with
    | none => .skip
    | some (mode, f) => .when (decide (f ≤ d.num .frmFrame n.val)) [
        let l := modeMembers n.val mode
        let pendOf (k : Nat) := (d.ch k).modePend
        if l.all fun k => (pendOf k).any fun x => x.2 == f && modeBond x.1 == modeBond mode then .all [
          .each l fun k => .when (modeBond (d.num .actMode k) != 0 && d.members k != l) [dissolve k],
          .each l fun k => match pendOf k with
            | some x => applyMode k x.1 f
            | none => .skip]
        else .each l fun k => .all [
          raise (chEvt k 14) k 14 (top8 (d.num .actState k) + d.num .actState k % 256 * 65536),
          .when ((pendOf k).any fun x => x.2 == f) [.eff (.fch k fun c => { c with modePend := none })]]]))

end Sys2Proof.Machine
end

