-- ==== Sys2Proof/Machine/Fabric.lean ====
section
/-!
DEFINITION. Fabric bundles (spec/14): states and handshake (R408 to R412), cells (R400 to R402), and credits (R403 to R407).
-/
namespace Sys2Proof.Machine

/-- A bundle's part of the state. -/
def Dev.bnd (d : Dev) (g : Nat) : Bundle := SMap.get Bundle.none d.fab g

/-- Entry `k` of FAB_COUNTERS (Table 14.4) moves on. -/
def fabCount (g k n : Nat) : Prog := countIn .fabCounters g 0 (8 * k) 8 n

/-! ## Cells (R400, R403) -/

/-- A cell: header, payload padded to 244 bytes, CRC-32C. -/
def cellBytes (kind cls : Nat) (sop eop : Bool) (valid creditCls cum epoch : Nat) (payload : List Byte) : List Byte :=
  let top := kind % 4 * 2 ^ 62 + cls % 16 * 2 ^ 58 + b2n sop * 2 ^ 57 + b2n eop * 2 ^ 56 + valid % 256 * 2 ^ 48
    + creditCls % 16 * 2 ^ 44 + cum % 4096 * 2 ^ 32 + epoch % 16 * 2 ^ 28
  let h := beBytes 6 (top / 2 ^ 16)
  let b := h ++ beBytes 2 (crc16 h) ++ padTo 244 payload
  b ++ beBytes 4 (crc32c b)

/-- The classes still to be reported in the present round of sixteen cells (R403). -/
def Bundle.left (b : Bundle) : List Nat := if b.round.isEmpty then List.range 16 else b.round

/-- The class that the next cell reports (R403): the first of the round with freed cells not yet reported, else the first. -/
def Bundle.report (b : Bundle) : Nat :=
  (b.left.find? fun c => SMap.get 0 b.freed c != SMap.get 0 b.told c).getD (b.left.headD 0)

/-- A cell has left. The block counter of the stripes has come round after 1,310,720 cells, whatever the lanes. -/
def Bundle.afterCell (b : Bundle) : Bundle :=
  { b with
    round := b.left.erase b.report, told := SMap.put 0 b.report (SMap.get 0 b.freed b.report) b.told, place := (b.place + 1) % 1310720 }

/-- Where a cell begins in the stripes of some lanes, taken in ascending number (R398, R399): the lane tag of its block, with the block counter, and the byte
of the block's 640. A cell may go on in the next lane's block. -/
def stripePlace (lanes : List Nat) (place : Nat) : List Byte :=
  let blk := place * 256 / 640
  let n := max 1 lanes.length
  beBytes 3 (lanes.getD (blk % n) 0 * 2 ^ 17 + blk / n % 65536) ++ beBytes 2 (place * 256 % 640)

/-- The lanes of a mask over which cells are striped: a message of the handshake goes whole on every lane (R409). -/
def Dev.striped (d : Dev) (g mask : Nat) : List Nat := if d.num .fabState g = 4 then setBits 8 mask else (setBits 8 mask).take 1

/-- A cell leaves on the lanes of a mask, its place in the stripes in front. -/
def sendCell (g lanes kind cls : Nat) (sop eop : Bool) (payload : List Byte) : Prog :=
  .ask fun d =>
    let b := d.bnd g
    .all [
      send .cell (96 + g) lanes (stripePlace (d.striped g lanes) b.place ++
        cellBytes kind cls sop eop payload.length b.report (SMap.get 0 b.freed b.report) b.epoch payload),
      .eff (.fab g Bundle.afterCell)]

/-- A control message leaves. -/
def sendControl (g lanes : Nat) (m : List Byte) : Prog := sendCell g lanes 2 0 true true m

/-- Lanes in use (FAB_RESOLVED). -/
def Dev.fabLanes (d : Dev) (g : Nat) : Nat := d.num .fabResolved g / 2 ^ 24

/-- Cells that RATE lets a bundle send in a sub-tick of 1 µs (R410). -/
def Dev.fabRate (d : Dev) (g : Nat) : Nat := bitsOf (d.num .fabResolved g) 16 8

/-- The cells of a class that wait are sent while there is credit in hand (R404, R405) and the sub-tick's cells stay within RATE. -/
def fabDrain (g c : Nat) : List (List Byte) → Prog
  | [] => .skip
  | x :: r => .ask fun d =>
    let flags := beAt x 0 1
    .when (d.num .fabTxCredits g c != 0 && decide ((d.bnd g).burst < d.fabRate g)) [
      putN .fabTxCredits g c (d.num .fabTxCredits g c - 1),
      .eff (.fab g fun b => { b with sent := SMap.upd 0 c (· + 1) b.sent, tx := SMap.put [] c r b.tx, burst := b.burst + 1 }),
      fabCount g 0 1,
      .when (bitOf flags 0) [fabCount g 2 1],
      sendCell g (d.fabLanes g) 1 c (bitOf flags 1) (bitOf flags 0) x.tail,
      fabDrain g c r]

/-- The payloads of a packet's cells with their flags in front: bit [1] SOP, bit [0] EOP (R401). -/
def cellsFrom (sop : Bool) : Nat → List Byte → List (List Byte)
  | 0, _ => []
  | fuel + 1, b =>
    let last := decide (b.length ≤ 244)
    (BitVec.ofNat 8 (2 * b2n sop + b2n last) :: b.take 244) :: if last then [] else cellsFrom false fuel (b.drop 244)

/-- A packet is sent on a class: its first cell has credit (R405). -/
def fabSend (g c : Nat) (b : List Byte) : Prog :=
  let l := cellsFrom true (ceilDiv b.length 244 + 1) b
  .all [.eff (.fab g fun x => { x with tx := SMap.put [] c l x.tx }), fabDrain g c l]

/-- A sub-tick of an Up bundle: the cells that RATE held back go on, and idle cells fill its remainder (R403, R410). Of these the sixteen that report every
class leave (DESIGN CHOICE, log entry 130). -/
def fabTick (g : Nat) : Prog :=
  .ask fun d => .when (d.num .fabState g == 4) [
    .eff (.fab g fun b => { b with burst := 0 }),
    .each (List.range 16) fun c => .ask fun e => fabDrain g c (SMap.get [] (e.bnd g).tx c),
    .each (List.range 16) fun _ => sendCell g (d.fabLanes g) 0 0 false false []]

/-! ## States (R408, R411, R412) -/

/-- The transmit epoch moves on, skipping 0 (R409). -/
def nextEpoch (e : Nat) : Nat := if (e + 1) % 65536 = 0 then 1 else (e + 1) % 65536

/-- Reassemblies and unsent cells are discarded and counted; the cells that were held are freed (R403, R411). -/
def fabDiscard (g : Nat) : Prog :=
  .ask fun d =>
    let b := d.bnd g
    .all [
      fabCount g 7 (b.opens.length + b.tx.length),
      .eff (.fab g fun x => { x with
        opens := [], tx := [], cells := [],
        held := x.cells.foldl (fun m e => SMap.upd 0 e.1 (· - e.2) m) x.held,
        freed := x.cells.foldl (fun m e => SMap.upd 0 e.1 (· + e.2) m) x.freed })]

/-- Causes that the record of a state change names: 0 FAB_ENABLE, 1 FAB_RESTART, 2 aligned, 3 timeout, 4 CONFIRM, 5 lane loss, 6 clock loss,
7 credit error, 8 personality, 9 instance reset. A bundle takes a state; every change raises event 320 + g with CODE 1. -/
def fabTo (g new cause lane : Nat) : Prog :=
  .ask fun d =>
    let old := d.num .fabState g
    let served (s : Nat) := s == 4 || s == 5
    .all [
      .when (old != new) [
        putN .fabState g 0 new,
        raise (320 + g) g 1 (top8 new + old % 256 * 65536 + cause % 256 * 256 + lane % 256),
        .when (served old && new != 4) [fabDiscard g],
        .when (served old && !served new) [flushPort (96 + g) 8]],
      .when (new == 3 || new == 5) [.eff (.fab g fun b => { b with epoch := nextEpoch b.epoch, resolved := none })],
      .when (decide (new ≤ 1)) [.eff (.fab g fun b => { Bundle.none with epoch := b.epoch, held := b.held })]]

/-- FAB_ENABLE (R408, R412). -/
def fabEnableBeh (g v : Nat) : Beh :=
  .plain fun d => .done (.all [
    putN .fabEnable g 0 v,
    .when (v == 1 && d.num .fabState g == 0) [fabTo g 2 0 0],
    .when (v == 0 && d.num .fabState g != 1) [fabTo g 0 0 0]]) []

/-- A write of FAB_ENABLE. -/
def execFabEnableWrite (o : Origin) (g : Fin 12) (v : BitVec 8) (s : State) : Host.Outcome State Fault Refusal :=
  s.run (serveWrite o .fabEnable g.val 0 (.num v.toNat) (fabEnableBeh g.val v.toNat))

/-- FAB_RESTART (Table 14.4). -/
def fabRestartBeh (g : Nat) : Beh :=
  beh (fun _ => 0) (fun d => if d.num .fabState g ≤ 1 then 0x0401 else 0) fun _ => .done (fabTo g 2 1 0) []

/-- The command FAB_RESTART. -/
def execFabRestart (o : Origin) (g : Fin 12) (s : State) : Host.Outcome State Fault Refusal :=
  s.run (serveExec o .fabRestart g.val 0 true (.oct []) (fabRestartBeh g.val))

/-- FAB_RX_CREDITS (R407). -/
def fabRxCreditsBeh (g c v : Nat) : Beh :=
  beh (fun d => if 2048 < v ∨ 16384 < ((List.range 16).map fun k => if k = c then v else d.num .fabRxCredits g k).sum then 0x0302 else 0)
    (fun d => if d.num .fabEnable g = 1 then 0x0401 else 0)
    fun _ => .done (putN .fabRxCredits g c v) []

/-- The bundle's part of a personality change (R50, R412). -/
def fabPersonality (g : Nat) (fabric : Bool) : Prog :=
  .ask fun d =>
    if fabric then .all [fabTo g 0 8 0, .when (d.num .fabEnable g == 1) [fabTo g 2 0 0]] else fabTo g 1 8 0

/-- A direct write of LG_PERSONALITY. -/
def execLgPersonalityWrite (o : Origin) (g : Fin 12) (v : BitVec 8) (s : State) : Host.Outcome State Fault Refusal :=
  s.run (serveWrite o .lgPersonality g.val 0 (.num v.toNat) (lgPersonalityBeh fabPersonality g.val v.toNat))

/-- Whether a lane mask covers a quad. -/
def coversQuad (m : Nat) : Bool := m % 16 == 15 || m / 16 % 16 == 15

/-- Fields of a lane tag (R398): the lane number and the block counter. -/
def tagLane (t : Nat) : Nat := t / 2 ^ 17 % 8
def tagCount (t : Nat) : Nat := t % 65536

/-- The lane that has block lock on four consecutive blocks, and the counter of the last: every tag names it, and the counter goes up by one (R398). -/
def laneLock (tags : List Nat) : Option (Nat × Nat) :=
  match tags with
  | [a, b, c, d] =>
    let next (x y : Nat) : Bool := tagLane x == tagLane y && (tagCount x + 1) % 65536 == tagCount y
    if next a b && next b c && next c d then some (tagLane d, tagCount d) else none
  | _ => none

/-- The lanes that have block lock, each with the lane it arrives on; none while their skew exceeds 4 blocks (R398). -/
def lanesAligned (l : List FabLane) : List (Nat × Nat) :=
  let k := ((l.take 8).zipIdx).filterMap fun x => (laneLock (x.1.tags.map BitVec.toNat)).map fun y => (y, x.2)
  let near (a b : Nat) : Bool := decide ((a + 65536 - b) % 65536 ≤ 4) || decide ((b + 65536 - a) % 65536 ≤ 4)
  if k.all fun a => k.all fun b => near a.1.2 b.1.2 then k.map fun x => (x.1.1, x.2) else []

/-- The mask of the lanes in a list. -/
def laneMask (l : List (Nat × Nat)) : Nat := l.foldl (fun m x => putBit m x.1 true) 0

/-- The bundle's lanes, told by their tags, and their figures of merit: in Align with a quad locked and the forwarded clock present the bundle enters Hello; in
Hello and Rebuild more lanes align (R408, R409). -/
def execFabAligned (g : Fin 12) (lanes : List FabLane) (s : State) : Host.Outcome State Fault Refusal :=
  s.run (.ask fun d =>
    let st := d.num .fabState g.val
    let l := lanesAligned lanes
    .when (d.answers && (st == 2 || st == 3 || st == 5)) [
      .eff (.fab g.val fun b => { b with aligned := laneMask l, route := l, place := 0 }),
      .each ((lanes.take 8).zipIdx) fun x => putN .lnFom g.val x.2 (fomOf x.1.fom),
      .when (st == 2 && coversQuad (laneMask l)) [fabTo g.val 3 2 0]])

/-- 10 ms in Align without alignment. -/
def execFabAlignTimeout (g : Fin 12) (s : State) : Host.Outcome State Fault Refusal :=
  s.run (.ask fun d => .when (d.answers && d.num .fabState g.val == 2) [fabCount g.val 10 1])

/-- 1 ms in Hello without CONFIRM. -/
def execFabHelloTimeout (g : Fin 12) (s : State) : Host.Outcome State Fault Refusal :=
  s.run (.ask fun d => .when (d.answers && d.num .fabState g.val == 3) [fabTo g.val 2 3 0])

/-- FAB_REBUILD_TIMEOUT in Rebuild. -/
def execFabRebuildTimeout (g : Fin 12) (s : State) : Host.Outcome State Fault Refusal :=
  s.run (.ask fun d => .when (d.answers && d.num .fabState g.val == 5) [fabTo g.val 2 3 0])

/-- A lane loses block lock, or shows 4 uncorrectable blocks within 10 µs. A lane in use puts an Up bundle into Rebuild (R411); lanes are in use by the numbers
that their tags give. -/
def execFabLaneLoss (g : Fin 12) (lane : Fin 8) (blocks : Bool) (s : State) : Host.Outcome State Fault Refusal :=
  s.run (.ask fun d => .when (d.answers && decide (2 ≤ d.num .fabState g.val)) [
    .when blocks [fabCount g.val 11 4],
    .eff (.fab g.val fun b => { b with aligned := putBit b.aligned (d.fabLaneId g.val lane.val) false }),
    .when (d.num .fabState g.val == 4 && bitOf (d.fabLanes g.val) (d.fabLaneId g.val lane.val)) [fabCount g.val 9 1, fabTo g.val 5 5 lane.val]])

/-- The forwarded clock is lost (R411). -/
def execFabClockLoss (g : Fin 12) (s : State) : Host.Outcome State Fault Refusal :=
  s.run (.ask fun d => .when (d.answers && decide (2 ≤ d.num .fabState g.val)) [
    .eff (.fab g.val fun b => { b with aligned := 0 }),
    .when (d.num .fabState g.val == 4) [fabCount g.val 9 1, fabTo g.val 5 6 0]])

/-! ## The handshake (R409, R410) -/

/-- The lane on which the sender's lane `t` arrives (R398). -/
def Dev.fabArrives (d : Dev) (g t : Nat) : Nat := (((d.bnd g).route.find? fun x => x.1 == t).map (·.2)).getD t

/-- Lanes received with block lock and margin; quad 1 is left out under FAB_LANE_POLICY = 1 (Table 14.3). -/
def Dev.rxLanes (d : Dev) (g : Nat) : Nat :=
  ((List.range 8).map fun k =>
    if bitOf (d.bnd g).aligned k && decide (d.num .lgFomUp g ≤ d.num .lnFom g (d.fabArrives g k)) && (d.num .fabLanePolicy g == 0 || decide (k < 4))
    then 2 ^ k else 0).sum

/-- Cells of a class that the receiver holds free (R403, R411). -/
def Dev.fabFree (d : Dev) (g c : Nat) : Nat := d.num .fabRxCredits g c - SMap.get 0 (d.bnd g).held c

/-- A HELLO (Table 14.3). -/
def Dev.helloMsg (d : Dev) (g : Nat) : List Byte :=
  [0x01, 0] ++ beBytes 2 (d.bnd g).epoch ++ beBytes 8 (d.num .idTerminal) ++ beBytes 1 (d.rxLanes g) ++ [0]
    ++ beBytes 2 (d.num .fabMaxCellRate g) ++ (List.range 16).flatMap (fun c => beBytes 2 (d.fabFree g c))
    ++ beBytes 2 (d.bnd g).seen

/-- A CONFIRM. -/
def confirmMsg (epoch lanes rate : Nat) : List Byte := [0x02, 0] ++ beBytes 2 epoch ++ beBytes 1 lanes ++ beBytes 2 rate ++ zeros 5

/-- A CREDIT_SYNC. -/
def Dev.syncMsg (d : Dev) (g : Nat) : List Byte :=
  [0x03, 0] ++ beBytes 2 (d.bnd g).epoch ++ zeros 12
    ++ (List.range 16).flatMap fun c => beBytes 2 (SMap.get 0 (d.bnd g).sent c)

/-- HELLO leaves on every aligned lane. -/
def execFabHelloTx (g : Fin 12) (s : State) : Host.Outcome State Fault Refusal :=
  s.run (.ask fun d =>
    let st := d.num .fabState g.val
    .when (d.answers && (st == 3 || st == 5) && (d.bnd g.val).aligned != 0)
      [sendControl g.val (d.bnd g.val).aligned (d.helloMsg g.val)])

/-- The resolution with a peer's HELLO (R410): LANES and RATE; none when no quad is covered. -/
def Dev.resolve (d : Dev) (g : Nat) (m : List Byte) : Option (Nat × Nat) :=
  let mask := d.rxLanes g &&& beAt m 12 1
  let rate := min (d.num .fabMaxCellRate g) (beAt m 14 2)
  if mask = 0xFF then some (0xFF, rate)
  else if mask % 16 = 15 then some (0x0F, min rate 103)
  else if mask / 16 = 15 then some (0xF0, min rate 103)
  else none

/-- A HELLO arrives (R410). -/
def helloIn (g : Nat) (m : List Byte) : Prog :=
  .ask fun d =>
    let st := d.num .fabState g
    let fresh := st == 3 || st == 5
    .when (fresh || st == 4) [
      .eff (.fab g fun b => { b with seen := beAt m 2 2 }),
      .when fresh [
        .eff (.fab g fun b => { b with hello := m, resolved := none }),
        putN .fabPeerId g 0 (beAt m 4 8)],
      .when (beAt m 48 2 == (d.bnd g).epoch) [
        match d.resolve g m with
        | some r => .all [
            .when fresh [.eff (.fab g fun b => { b with resolved := some r })],
            sendControl g (d.bnd g).aligned (confirmMsg (d.bnd g).epoch r.1 r.2)]
        | none => .skip]]

/-- Up is entered: the peer's epoch and credits are adopted, and cumulative counts restart (R410, R411). -/
def fabUp (g lanes rate : Nat) : Prog :=
  .ask fun d =>
    let m := (d.bnd g).hello
    .all [
      putN .fabResolved g 0 (lanes * 2 ^ 24 + rate % 256 * 2 ^ 16 + beAt m 2 2),
      .each (List.range 16) fun c => putN .fabTxCredits g c (beAt m (16 + 2 * c) 2),
      .eff (.fab g fun b => { b with
        inForce := beAt m 2 2, cum := [], rx := [], sent := [], freed := [], told := [], round := [], place := 0, burst := 0, opens := [], cells := [], tx := [],
        adv := (List.range 16).foldl (fun a c => SMap.put 0 c (beAt m (16 + 2 * c) 2) a) [] }),
      fabTo g 4 4 0]

/-- A CONFIRM arrives: the same resolution brings the bundle Up, another restarts the handshake with a new epoch (R410). -/
def confirmIn (g : Nat) (m : List Byte) : Prog :=
  .ask fun d =>
    let st := d.num .fabState g
    .when (st == 3 || st == 5) [
      match (d.bnd g).resolved with
      | some r =>
        if r.1 = beAt m 4 1 ∧ r.2 = beAt m 5 2 then fabUp g r.1 r.2
        else .eff (.fab g fun b => { b with epoch := nextEpoch b.epoch, resolved := none })
      | none => .skip]

/-- A CREDIT_SYNC arrives: cells lost to header errors are freed (R406). -/
def syncIn (g : Nat) (m : List Byte) : Prog :=
  .ask fun d => .when (d.num .fabState g == 4) [.each (List.range 16) fun c =>
    .eff (.fab g fun b =>
      let lost := (beAt m (16 + 2 * c) 2 + 65536 - SMap.get 0 b.rx c % 65536) % 65536
      { b with rx := SMap.upd 0 c (· + lost) b.rx, freed := SMap.upd 0 c (· + lost) b.freed })]

/-- A control message acts by its OPCODE; a reserved OPCODE or a wrong length is counted in FAB_EPOCH_DISCARDS (R409). Reserved bytes
are ignored (R11). -/
def controlIn (g : Nat) (m : List Byte) : Prog :=
  let op := beAt m 0 1
  if op = 1 ∧ m.length = 50 then helloIn g m
  else if op = 2 ∧ m.length = 12 then confirmIn g m
  else if op = 3 ∧ m.length = 48 then syncIn g m
  else fabCount g 6 1

/-- A HELLO arrives on a bundle. -/
def execFabHelloRx (g : Fin 12) (m : List Byte) (s : State) : Host.Outcome State Fault Refusal :=
  s.runIf (m.length == 50 && (m.headD 0).toNat == 1)
    (.ask fun d => .when d.answers [helloIn g.val m])

/-- A CONFIRM arrives on a bundle. -/
def execFabConfirmRx (g : Fin 12) (m : List Byte) (s : State) : Host.Outcome State Fault Refusal :=
  s.runIf (m.length == 12 && (m.headD 0).toNat == 2)
    (.ask fun d => .when d.answers [confirmIn g.val m])

/-- Every 10 µs each sender sends its cumulative cells (R406). -/
def execFabCreditSyncTx (g : Fin 12) (s : State) : Host.Outcome State Fault Refusal :=
  s.run (.ask fun d => .when (d.answers && d.num .fabState g.val == 4) [sendControl g.val (d.fabLanes g.val) (d.syncMsg g.val)])

/-- A CREDIT_SYNC arrives on a bundle; one of another epoch is discarded (R402). -/
def execFabCreditSyncRx (g : Fin 12) (m : List Byte) (s : State) : Host.Outcome State Fault Refusal :=
  s.runIf (m.length == 48 && (m.headD 0).toNat == 3) (.ask fun d => .when d.answers [
    if beAt m 2 2 ≠ (d.bnd g.val).inForce then fabCount g.val 6 1 else syncIn g.val m])

/-! ## Receiving cells (R402, R404) -/

/-- The credit fields of a cell are taken: an Up bundle counts a report above the advertised value as a credit error and rebuilds (R404). -/
def takeCredit (g c cum : Nat) : Prog :=
  .ask fun d =>
    let b := d.bnd g
    let n := d.num .fabTxCredits g c + (cum + 4096 - SMap.get 0 b.cum c % 4096) % 4096
    .when (d.num .fabState g == 4) [
      if SMap.get 0 b.adv c < n then .all [fabCount g 8 1, raise (320 + g) g 2 (top8 c), fabTo g 5 7 0]
      else .all [
        putN .fabTxCredits g c n,
        .eff (.fab g fun x => { x with cum := SMap.put 0 c cum x.cum }),
        .ask fun e => fabDrain g c (SMap.get [] (e.bnd g).tx c)]]

/-- A data cell is discarded, and its cell freed (R403). -/
def freeCell (g c : Nat) : Prog := .eff (.fab g fun b => { b with freed := SMap.upd 0 c (· + 1) b.freed })

/-- The open packet of a class goes, with its cells. -/
def dropOpen (g c : Nat) : Prog :=
  .eff (.fab g fun b =>
    let n := SMap.get 0 b.cells c
    { b with
      opens := SMap.put [] c [] b.opens, cells := SMap.put 0 c 0 b.cells,
      held := SMap.upd 0 c (· - n) b.held, freed := SMap.upd 0 c (· + n) b.freed })

/-- A reassembled packet enters forwarding (R402); one that overruns the reserve has its cells freed. -/
def fabPacket (g c : Nat) (b : List Byte) : Prog :=
  .ask fun d =>
    let n := ceilDiv b.length 244
    .all [
      .eff (.fab g fun x => { x with opens := SMap.put [] c [] x.opens, cells := SMap.put 0 c 0 x.cells }),
      fabCount g 3 1,
      ingress ⟨Fin.ofNat 118 (96 + g), Fin.ofNat 8 (d.num .fabRxTc g / 16 ^ c), false, false, none, BitVec.ofNat 32 d.cfg.epoch,
        BitVec.ofNat 32 (d.num .fwdTableEpoch), 0, 0, Fin.ofNat 16 c, b⟩,
      .ask fun e => .when (e.fwd.count == d.fwd.count) [.eff (.fab g fun x => { x with
        held := SMap.upd 0 c (· - n) x.held, freed := SMap.upd 0 c (· + n) x.freed })]]

/-- A data cell whose checks have passed is reassembled (R402 step 5 and 6). -/
def cellData (g c : Nat) (sop eop : Bool) (payload : List Byte) : Prog :=
  .ask fun d =>
    let n := SMap.get 0 (d.bnd g).cells c
    if sop = decide (n ≠ 0) ∨ n = 68 then .all [fabCount g 7 1, dropOpen g c, freeCell g c]
    else .all [
      .eff (.fab g fun b => { b with
        opens := SMap.upd [] c (· ++ payload) b.opens, cells := SMap.upd 0 c (· + 1) b.cells,
        held := SMap.upd 0 c (· + 1) b.held }),
      .when eop [.ask fun e => fabPacket g c (SMap.get [] (e.bnd g).opens c)]]

/-- Fields of a cell header that hold a reserved value (R12, R400). The reserved field [27:16] is ignored (R11). -/
def cellReserved (h : Nat) : Bool :=
  let kind := bitsOf h 62 2
  let cls := bitsOf h 58 4
  let v := bitsOf h 48 8
  let eop := bitOf h 56
  kind == 3
    || (kind == 0 && (cls != 0 || v != 0))
    || (kind == 1 && (v == 0 || decide (244 < v) || (!eop && v != 244)))
    || (kind == 2 && (cls != 0 || !eop || !bitOf h 57 || decide (244 < v)))

/-- A received cell (R402). HELLO and CONFIRM carry an epoch that is not yet in force. -/
def execFabCellRx (g : Fin 12) (b : List Byte) (s : State) : Host.Outcome State Fault Refusal :=
  s.runIf (b.length == 256) (.ask fun d =>
    let h := beAt b 0 8
    let kind := bitsOf h 62 2
    let cls := bitsOf h 58 4
    let payload := slice b 8 (bitsOf h 48 8)
    let op := beAt payload 0 1
    let handshake := kind == 2 && (op == 1 || op == 2)
    .when (d.answers && decide (2 ≤ d.num .fabState g.val)) [
      if crc16 (b.take 6) ≠ beAt b 6 2 then fabCount g.val 4 1
      else .all [
        takeCredit g.val (bitsOf h 44 4) (bitsOf h 32 12),
        .when (kind == 1) [fabCount g.val 1 1, .eff (.fab g.val fun x => { x with rx := SMap.upd 0 cls (· + 1) x.rx })],
        if cellReserved h ∨ (bitsOf h 28 4 ≠ (d.bnd g.val).inForce % 16 ∧ !handshake) then
          .all [fabCount g.val 6 1, .when (kind == 1) [freeCell g.val cls]]
        else if kind ≠ 0 ∧ crc32c (b.take 252) ≠ beAt b 252 4 then
          .all [fabCount g.val 5 1, .when (kind == 1) [dropOpen g.val cls, freeCell g.val cls]]
        else if kind = 1 then cellData g.val cls (bitOf h 57) (bitOf h 56) payload
        else .when (kind == 2) [controlIn g.val payload]]])

end Sys2Proof.Machine
end

