-- ==== Sys2Proof/Machine/Time.lean ====
section
/-!
DEFINITION. The time complex and Ringmaster (spec/20): the time base, timing messages, timestamps, pulse outputs, capture inputs, SYNCO,
and the commitment and cancelling of pending actions.
-/
namespace Sys2Proof.Machine

/-! ## The time base (R554 to R557) -/

/-- A nanosecond and a picosecond in units of 2⁻⁴⁰ ns. -/
def nsUnits : Int := 2 ^ 40
def psUnits (ps : Int) : Int := Int.tdiv (ps * 2 ^ 40) 1000

/-- Units of 2⁻⁴⁰ ns as picoseconds, to the nearest (DEDUCED from the example of R560). -/
def toPs (u : Int) : Int := (u * 2000 + 2 ^ 40) / 2 ^ 41

/-- The time as units of 2⁻⁴⁰ ns. -/
def timeUnits (secs ns frac : Nat) : Int := ((secs * 1000000000 + ns : Nat) : Int) * nsUnits + frac
def TimeSt.units (t : TimeSt) : Int := timeUnits t.secs t.ns t.frac

/-- The time set from units of 2⁻⁴⁰ ns; the 48 bits of seconds wrap. -/
def TimeSt.setUnits (t : TimeSt) (u : Int) : TimeSt :=
  let ns := (u / nsUnits).toNat
  { t with secs := ns / 1000000000 % 2 ^ 48, ns := ns % 1000000000, frac := (u % nsUnits).toNat }

/-- The slew correction of one sub-tick (R557): TIME_SLEW_MAX ppm of 1,000 increments. -/
def Dev.slewRate (d : Dev) : Int := ((1000 * d.tim.incNow * d.num .timeSlewMax / 1000000 : Nat) : Int)

/-- A step of the time: it ends a slew, is counted, and event 433 carries it in picoseconds, saturating at the S64 limits (Table 22.9). -/
def stepTime (u : Int) : Prog :=
  .ask fun d => .all [
    .eff (.tim fun t => { t.setUnits u with slew := 0 }),
    count .timeSteps, raise64 433 (ofInt 64 (clampInt 64 (toPs (u - d.tim.units))))]

/-- A whole second passes: a setting of SYNCO that waits takes effect (R569). -/
def syncoSecond : Prog :=
  .ask fun d => .eff (.tim fun t => { t with
    synco := if d.num .timeSyncoEnable = 1 then some (d.num .timeSyncoFreq, d.num .timeSyncoReference) else none })

/-- 1 µs passes for a channel's laser: its carrier ages (R219), and burst-enable falls once a PAM4 burst has ended (R220). -/
def laserTick (n : Nat) : Prog :=
  .ask fun d => .eff (.fch n fun c => { c with
    laserAge := if d.laserOn n then min 100 (c.laserAge + 1) else 0
    burstLeft := c.burstLeft - 1
    burstOn := c.burstOn && !(c.burstLeft == 1 && c.onAir.isNone) })

/-- 1,000 TIME clocks pass, where TIME runs (R554, R557, R646); then a new increment, TIME_SET, a step and an adjustment that wait take effect. The live leases have
1 µs less (R198), DRAM takes the writes of 1 µs (R514), and bundles send on (R410). -/
def execSubTick (s : State) : Host.Outcome State Fault Refusal :=
  s.run (.ask fun x => .when x.answers [
    .ask fun d =>
      let r := d.slewRate
      let z := if d.tim.slew.natAbs ≤ r.toNat then 0 else if 0 < d.tim.slew then r else -r
      let u := d.tim.units + 1000 * (d.tim.incNow : Int) + z
      .all [
        .eff (.tim fun t => { t.setUnits u with slew := t.slew - z, sub := t.sub + 1, ticks := t.ticks + 1 }),
        .ask fun e => .when (e.tim.secs != d.tim.secs) [syncoSecond]],
    .ask fun d => match d.tim.incPend with
      | some v => .eff (.tim fun t => { t with incPend := none, incNow := v })
      | none => .skip,
    .ask fun d => match d.tim.setPend with
      | some x => .all [
          .eff (.tim fun t => { t with setPend := none }),
          stepTime (timeUnits x.1 x.2.1 (x.2.2 * 2 ^ 24)), setSync true, setFlag .timeStatus 0 0 2 true]
      | none => .skip,
    .ask fun d => match d.tim.stepPend with
      | some x => .all [.eff (.tim fun t => { t with stepPend := none }), stepTime (max 0 (d.tim.units + x))]
      | none => .skip,
    .ask fun d => match d.tim.slewPend with
      | some x => .eff (.tim fun t => { t with slewPend := none, slew := x })
      | none => .skip,
    .ask fun d => .each (d.fns.filter fun f => f.2.live) fun f => .eff (.fn f.1 fun y => { y with remain := y.remain - 1 }),
    .each (List.range 4) laserTick,
    .each (List.range 8) dramTick,
    .each (List.range 12) fabTick])

/-- The last part of a slew is absorbed: SLEWING clears. -/
def execSlewComplete (s : State) : Host.Outcome State Fault Refusal :=
  s.run (live (.ask fun d => .when (d.tim.slew != 0 && decide (d.tim.slew.natAbs ≤ d.slewRate.toNat))
    [.eff (.tim fun t => { t.setUnits (t.units + t.slew) with slew := 0 })]))

/-- An offset is applied from the next sub-tick (R557): stepped above TIME_STEP_THRESHOLD, slewed otherwise. `u` is in units of 2⁻⁴⁰ ns. -/
def adjustTime (u : Int) : Prog :=
  .ask fun d =>
    if psUnits (d.num .timeStepThreshold) < (u.natAbs : Int) then .eff (.tim fun t => { t with stepPend := some u, slewPend := none })
    else .eff (.tim fun t => { t with slewPend := some u })

/-- Under TIME_SOURCE = 0 a host may set the time only while SYNC is clear. -/
def Dev.hostTimeAbort (d : Dev) : Nat := if d.num .timeSource = 0 ∧ d.synced then 0x0401 else 0

/-- TIME_SET. -/
def timeSetBeh (b : List Byte) : Beh :=
  beh (fun _ => if 999999999 < beAt b 6 4 then 0x0302 else 0) Dev.hostTimeAbort
    fun _ => .done (.eff (.tim fun t => { t with
      setPend := some (beAt b 0 6, beAt b 6 4, beAt b 10 2), stepPend := none, slewPend := none, hostWrote := true })) []

/-- The command TIME_SET. -/
def execTimeSet (o : Origin) (b : List Byte) (s : State) : Host.Outcome State Fault Refusal :=
  s.run (serveExec o .timeSet 0 0 (b.length == 12) (.oct b) (timeSetBeh b))

/-- TIME_ADJUST. -/
def timeAdjustBeh (ps : Nat) : Beh :=
  beh (fun _ => 0) Dev.hostTimeAbort fun _ => .done (adjustTime (psUnits (toInt 64 ps))) []

/-- The command TIME_ADJUST. -/
def execTimeAdjust (o : Origin) (ps : BitVec 64) (s : State) : Host.Outcome State Fault Refusal :=
  s.run (serveExec o .timeAdjust 0 0 true (.num ps.toNat) (timeAdjustBeh ps.toNat))

/-- TIME_SOURCE (R556): a write clears SYNC and HOST_SET. -/
def timeSourceBeh (v : Nat) : Beh :=
  .plain fun _ => .done (.all [putN .timeSource 0 0 v, setSync false, setFlag .timeStatus 0 0 2 false]) []

/-- A write of TIME_SOURCE. -/
def execTimeSourceWrite (o : Origin) (v : BitVec 8) (s : State) : Host.Outcome State Fault Refusal :=
  s.run (serveWrite o .timeSource 0 0 (.num v.toNat) (timeSourceBeh v.toNat))

/-- TIME_INCREMENT (R554): from 0.5 to 2.0 ns, from the next sub-tick. -/
def timeIncrementBeh (v : Nat) : Beh :=
  beh (fun _ => if 0x8000000000 ≤ v ∧ v ≤ 0x20000000000 then 0 else 0x0302) (fun _ => 0)
    fun _ => .done (.all [putN .timeIncrement 0 0 v, .eff (.tim fun t => { t with incPend := some v })]) []

/-- No timing message has been accepted for 10 s (Table 20.1). -/
def execSourceValidTimeout (s : State) : Host.Outcome State Fault Refusal :=
  s.run (live (.ask fun d => .when (bitOf (d.num .timeStatus) 4)
    [setFlag .timeStatus 0 0 4 false, .when (d.num .timeSource == 0) [setSync false]]))

/-! ## Timing messages (R558, R559) -/

/-- The fields of Table 20.2 are outside what R558 accepts. -/
def tmsgBad (b : List Byte) : Bool :=
  b.length != 36 || beAt b 0 1 != 1 || beAt b 1 1 % 32 != 0 || decide (2 ^ 51 ≤ beAt b 4 8) || beAt b 34 2 != 0
    || decide (999999999 < beAt b 18 4)

/-- Whether a timing message is accepted; `carried` is the frame that carried it. -/
def Dev.tmsgOk (d : Dev) (n carried : Nat) (b : List Byte) : Bool :=
  !tmsgBad b && d.num .clkTimingChannel == n && d.num .timeSource == 0 && d.num .clkTimingState == 2 && d.num .actState n == 4
    && decide (beAt b 4 8 ≤ carried) && decide (carried ≤ beAt b 4 8 + 8000)
    && decide (35000 * 128 + 5 * d.num .actEqd n < beAt b 24 4 * 128)

/-- The offset of R559 in units of 2⁻¹⁶ ns. -/
def Dev.tmsgOffset (d : Dev) (n : Nat) (b : List Byte) : Int :=
  let rtd : Int := ((beAt b 24 4 : Int) - 35000) * 65536 - 2560 * d.num .actEqd n
  let delay := rtd * beAt b 28 4 / 2 ^ 32
  let ts := d.oct .timeFrameTs n
  let at' (x : List Byte) (o : Nat) : Int := (((beAt x o 6) * 1000000000 + beAt x (o + 6) 4 : Nat) : Int) * 65536 + beAt x (o + 10) 2
  at' b 12 + delay - (at' ts 8 - ((beAt ts 0 8 : Int) - beAt b 4 8) * 125000 * 65536)

/-- A number that an S64 holds. -/
def inS64 (i : Int) : Bool := clampInt 64 i == i

/-- A timing message that channel `n` delivered in frame `carried`: discarded, or its offset is applied (R559). What TIME_LAST_OFFSET reads for
an offset that an S64 of picoseconds does not hold, the manual does not state: a free value. -/
def execTimingMessage (n : Fin 4) (carried : BitVec 51) (b : List Byte) (s : State) : Host.Outcome State Fault Refusal :=
  s.run (.ask fun d => .when d.answers [
    if !d.tmsgOk n.val carried.toNat b then .all [count .timeMsgDiscards, raiseRated 439]
    else
      let off := d.tmsgOffset n.val b
      let f := beAt b 1 1
      .all [
        count .timeMsgAccepted,
        if d.synced then adjustTime (off * 2 ^ 24)
        else .eff (.tim fun t => { t with stepPend := some (off * 2 ^ 24), slewPend := none }),
        setFlag .timeStatus 0 0 2 false, setFlag .timeStatus 0 0 4 true,
        setFlag .timeStatus 0 0 5 (bitOf f 7), setFlag .timeStatus 0 0 6 (bitOf f 6),
        setSync true,
        if inS64 (toPs (off * 2 ^ 24)) then putN .timeLastOffset 0 0 (ofInt 64 (toPs (off * 2 ^ 24)))
        else .seq (putN .timeLastOffset 0 0 (Config.freeValue d.free % 2 ^ 64)) (.eff .draw),
        putN .timeHeClock 0 0 (beAt b 32 2),
        .when (bitOf f 5) [putN .timeUtcOffset 0 0 (ofInt 32 (toInt 16 (beAt b 2 2)))]]])

/-! ## Timestamps (R561, R564, R565) -/

/-- The stamp of a frame boundary (R561): the frame number, then the time with TIME_RX_ADJUST. `off` is where in the present sub-tick the boundary
crossed the balls. -/
def frameStamp (n frame off : Nat) : Prog :=
  .ask fun d =>
    let t := d.tim.setUnits (max 0 (d.tim.units + off * nsUnits + psUnits (toInt 32 (d.num .timeRxAdjust))))
    putO .timeFrameTs n 0 (beBytes 8 frame ++ beBytes 6 t.secs ++ beBytes 4 t.ns ++ beBytes 2 (t.frac / 2 ^ 24))

/-- The place of a record in the timestamp queue: records stand in the order of their times (R564). -/
def tsInsert (r : List Byte) : List (List Byte) → List (List Byte)
  | [] => [r]
  | x :: l => if beAt r 16 12 < beAt x 16 12 then r :: x :: l else x :: tsInsert r l

/-- A record enters the timestamp queue (R564). -/
def tsPush (r : List Byte) : Prog :=
  .ask fun d =>
    if 4096 ≤ d.tim.tsq.length then .all [count .timeTsOverflows, raiseRated 438]
    else .all [.eff (.tim fun t => { t with tsq := tsInsert r t.tsq }), .when d.tim.tsq.isEmpty [raise 437]]

/-- A timestamp record (Table 20.3). -/
def tsRecord (kind source msg domain seq : Nat) (port : List Byte) (t : TimeSt) (flags : Nat) : List Byte :=
  beBytes 1 kind ++ beBytes 1 source ++ beBytes 1 msg ++ beBytes 1 domain ++ beBytes 2 seq ++ padTo 10 port
    ++ beBytes 6 t.secs ++ beBytes 4 t.ns ++ beBytes 2 (t.frac / 2 ^ 24) ++ beBytes 2 flags ++ [0, 0]

/-- FLAGS [15] of a record: time unsynchronised. -/
def Dev.tsUnsync (d : Dev) : Nat := if d.synced then 0 else 2 ^ 15

/-- TIME_TS_READ (R565). -/
def timeTsReadBeh (p : UPath) (k : Nat) : Beh :=
  beh (fun _ => if 1 ≤ k ∧ k ≤ 127 then 0 else 0x0302) (fun _ => 0) fun d =>
    let m := min k (pathData p / 32)
    .done (.all [
      .eff (.tim fun t => { t with tsq := t.tsq.drop m }), .when (decide (m < d.tim.tsq.length)) [raise 437]])
      (d.tim.tsq.take m).flatten

/-- The command TIME_TS_READ. -/
def execTimeTsRead (o : Origin) (k : BitVec 8) (s : State) : Host.Outcome State Fault Refusal :=
  s.run (serveExec o .timeTsRead 0 0 true (.num k.toNat) (timeTsReadBeh o.path k.toNat))

/-! ## Capture inputs (R568) -/

/-- An edge of a capture input, `off` ns into the present sub-tick: stamped, or merged when it follows the last stamp by less than 1 µs. -/
def execTpiCaptureEdge (i : Fin 4) (rising : Bool) (off : Fin 1000) (s : State) : Host.Outcome State Fault Refusal :=
  s.run (live (.ask fun d =>
    let t := d.tim.setUnits (d.tim.units + off.val * nsUnits)
    let now := t.secs * 1000000000 + t.ns
    let last := SMap.get 0 d.tim.tpiLast i.val
    .when (bitOf (d.num .timeTpiCfg 0 i.val) (if rising then 0 else 1)) [
      if last ≠ 0 ∧ now < last - 1 + 1000 then .all [count .timeTpiMerged 0 i.val, raiseRated 440 i.val]
      else .all [
        .eff (.tim fun x => { x with tpiLast := SMap.put 0 i.val (now + 1) x.tpiLast }),
        putO .timeTpiLast 0 i.val (beBytes 6 t.secs ++ beBytes 4 t.ns ++ beBytes 2 (t.frac / 2 ^ 24)),
        tsPush (tsRecord 3 i.val (if rising then 1 else 2) 0 0 [] t d.tsUnsync)]]))

/-! ## Pulse outputs (R566, R567) -/

/-- Fields of TIME_TPO_CFG (Table 20.4). -/
def tpoMode (b : List Byte) : Nat := bitsOf (beAt b 0 1) 5 2
def tpoPeriod (b : List Byte) : Nat := beAt b 4 4
def tpoWidth (b : List Byte) : Nat := beAt b 8 4
def tpoCount (b : List Byte) : Nat := beAt b 12 4

/-- A value of TIME_TPO_CFG that R566 refuses. -/
def tpoBad (b : List Byte) : Bool :=
  tpoMode b == 3 || beAt b 0 1 % 16 != 0 || beAt b 1 3 != 0 || beAt b 16 16 != 0
    || (tpoMode b == 2 && (decide (tpoPeriod b < 100) || decide (4000000000 < tpoPeriod b)
      || decide (tpoWidth b < 20) || decide (tpoPeriod b < tpoWidth b + 20)))
    || (tpoMode b == 1 && (decide (tpoWidth b < 20) || decide (4000000000 < tpoWidth b)))

/-- A pulse train's state. -/
def Dev.train (d : Dev) (i : Nat) : PulseTrain := SMap.get PulseTrain.none d.tim.trains i
def setTrain (i : Nat) (f : PulseTrain → PulseTrain) : Prog :=
  .eff (.tim fun t => { t with trains := SMap.upd PulseTrain.none i f t.trains })

/-- TIME_TPO_CFG. -/
def tpoCfgBeh (i : Nat) (b : List Byte) : Beh :=
  beh (fun _ => if tpoBad b then 0x0302 else 0)
    (fun d => if (d.train i).running then 0x0401 else if (d.pendingOn 7 i).isSome then 0x0501 else 0)
    fun _ => .done (putO .timeTpoCfg 0 i b) []

/-- A write of TIME_TPO_CFG. -/
def execTimeTpoCfgWrite (o : Origin) (i : Fin 16) (b : List Byte) (s : State) : Host.Outcome State Fault Refusal :=
  s.run (serveWrite o .timeTpoCfg 0 i.val (.oct b) (tpoCfgBeh i.val b))

/-- TIME_TPO_START and TIME_TPO_STOP: one action of kind 7 is armed; the target of a stop is 256 above the output. -/
def tpoBeh (code : Nat) (b : List Byte) (stop : Bool) : Beh :=
  let i := beAt b 1 1
  let ch (d : Dev) := d.num .clkTimingChannel
  let target := if stop then 256 + i else i
  beh
    (fun d => match parseTrig (beAt b 0 1) (b.drop 2) with
      | none => 0x0302
      | some t => if 15 < i ∨ !d.trigAhead (ch d) t then 0x0302 else 0)
    (fun d => match parseTrig (beAt b 0 1) (b.drop 2) with
      | none => 0
      | some t => firstAbort [
          (if stop then !(d.train i).running && (d.pendingOn 7 i).isNone
            else tpoMode (d.oct .timeTpoCfg 0 i) == 0 || (d.train i).running, 0x0401),
          ((d.pendingOn 7 target).isSome, 0x0501),
          (d.trigUnaligned (ch d) t, 0x0401),
          (d.actsFull, 0x0402)])
    fun _ => match parseTrig (beAt b 0 1) (b.drop 2) with
      | none => .done .skip []
      | some t => .done (armAct 7 target t code [] []) []

/-- The command TIME_TPO_START. -/
def execTimeTpoStart (o : Origin) (b : List Byte) (s : State) : Host.Outcome State Fault Refusal :=
  s.run (.ask fun d => serveExec o .timeTpoStart 0 0 (b.length == 12) (.oct b) (tpoBeh (d.codeOf o.path) b false))

/-- The command TIME_TPO_STOP. -/
def execTimeTpoStop (o : Origin) (b : List Byte) (s : State) : Host.Outcome State Fault Refusal :=
  s.run (.ask fun d => serveExec o .timeTpoStop 0 0 (b.length == 12) (.oct b) (tpoBeh (d.codeOf o.path) b true))

/-- A train ends: event 441; the output drives its inactive level. -/
def endTrain (i : Nat) : Prog :=
  .all [.eff (.tim fun t => { t with trains := SMap.put PulseTrain.none i PulseTrain.none t.trains }), raise 441 i]

/-- The present time `off` ns into the sub-tick, in units of 2⁻⁴⁰ ns. -/
def Dev.unitsAt (d : Dev) (off : Nat) : Int := d.tim.units + off * nsUnits

/-- The instant of a pulse action that takes effect `off` ns into the present sub-tick: its time, or now where that was skipped or it names none. -/
def Dev.pulseInstant (d : Dev) (a : Action) (off : Nat) : Int :=
  match a.trig with
  | .time s ns => if d.actLate a then d.unitsAt off else timeUnits s ns 0
  | _ => d.unitsAt off

/-- A span of a train's configuration in units of 2⁻⁴⁰ ns, under REFERENCE 1 scaled by the circuit reference (R567). -/
def Dev.pulseSpan (d : Dev) (b : List Byte) (ns : Nat) : Int :=
  if bitOf (beAt b 0 1) 4 then ns * nsUnits * 1000000000 / (1000000000 + d.tim.circRef) else ns * nsUnits

/-- When the next edge of a running train falls: its pulse ends WIDTH after it began, and the next one begins PERIOD after it. -/
def Dev.nextEdge (d : Dev) (i : Nat) : Int :=
  let t := d.train i
  let b := d.oct .timeTpoCfg 0 i
  t.at' + d.pulseSpan b (if t.high then tpoWidth b else tpoPeriod b)

/-- The instant of a pending start, `off` ns into the present sub-tick: the train runs and its first pulse begins. -/
def execPulseTrainStartFire (i : Fin 16) (off : Fin 1000) (s : State) : Host.Outcome State Fault Refusal :=
  s.run (live (.ask fun d => match d.pendingOn 7 i.val with
    | none => .skip
    | some a => .when (d.pulseDue a off.val) [
        .eff (.disarm a.slot), setTrain i.val fun _ => ⟨true, d.pulseInstant a off.val, 1, true, false⟩, lateAct a (d.actLate a)]))

/-- The instant of a pending stop, `off` ns into the present sub-tick: a pulse in progress completes, and no further pulse begins. -/
def execPulseTrainStopFire (i : Fin 16) (off : Fin 1000) (s : State) : Host.Outcome State Fault Refusal :=
  s.run (live (.ask fun d => match d.pendingOn 7 (256 + i.val) with
    | none => .skip
    | some a =>
      let t := d.train i.val
      .when (d.pulseDue a off.val) [
        .eff (.disarm a.slot),
        .when t.running [if t.high then setTrain i.val fun x => { x with stopping := true } else endTrain i.val],
        lateAct a (d.actLate a)]))

/-- The next edge of a running train, `off` ns into the present sub-tick and no more than 8 ns early: a pulse begins, or the one in progress ends, with the
train when it was its last. -/
def execPulseEdge (i : Fin 16) (off : Fin 1000) (s : State) : Host.Outcome State Fault Refusal :=
  s.run (live (.ask fun d =>
    let t := d.train i.val
    let b := d.oct .timeTpoCfg 0 i.val
    .when (t.running && decide (d.nextEdge i.val ≤ d.unitsAt off.val + 8 * nsUnits)) [
      if !t.high then setTrain i.val fun x => { x with high := true, begun := x.begun + 1, at' := d.nextEdge i.val }
      else if t.stopping ∨ tpoMode b = 1 ∨ (tpoCount b ≠ 0 ∧ tpoCount b ≤ t.begun) then endTrain i.val
      else setTrain i.val fun x => { x with high := false }]))

/-! ## SYNCO (R569) -/

/-- The SYNCO objects in order. -/
def syncoObj (x : Nat) : Obj := if x = 0 then .timeSyncoEnable else if x = 1 then .timeSyncoFreq else .timeSyncoReference

/-- A write of TIME_SYNCO_ENABLE, TIME_SYNCO_FREQ or TIME_SYNCO_REFERENCE: the output changes at the next whole second. -/
def execTimeSyncoWrite (o : Origin) (x : Fin 3) (v : BitVec 32) (s : State) : Host.Outcome State Fault Refusal :=
  s.run (serveWrite o (syncoObj x.val) 0 0 (.num v.toNat) (.store (syncoObj x.val) 0 0 (.num v.toNat)))

/-! ## Ringmaster (R572) -/

/-- The pending action in a slot. -/
def Dev.actIn? (d : Dev) (slot : Nat) : Option Action := d.acts.find? fun a => a.slot = slot

/-- Whether a requester may cancel an action: S, the E or L that armed it, or a function of the host link that armed it. -/
def mayCancel (code : Nat) (a : Action) : Bool :=
  code == 0x0400 || code == a.code || (isHost code && isHost a.code && hostLink code == hostLink a.code)

/-- RM_CANCEL. -/
def rmCancelBeh (code slot : Nat) : Beh :=
  beh (fun d => if (d.actIn? slot).isNone then 0x0302 else 0)
    (fun d => match d.actIn? slot with
      | none => 0
      | some a => firstAbort [(!mayCancel code a, 0x0201), (a.committed || d.commitDue a, 0x0401)])
    fun d => match d.actIn? slot with
      | none => .done .skip []
      | some a => .done (cancelAct a) []

/-- The command RM_CANCEL. -/
def execRmCancel (o : Origin) (slot : BitVec 8) (s : State) : Host.Outcome State Fault Refusal :=
  s.run (.ask fun d => serveExec o .rmCancel 0 0 true (.num slot.toNat) (rmCancelBeh (d.codeOf o.path) slot.toNat))

/-- 100 µs before its instant an action is committed (R572). -/
def execActionCommit (slot : Fin 256) (s : State) : Host.Outcome State Fault Refusal :=
  s.run (live (.ask fun d => match d.actIn? slot.val with
    | none => .skip
    | some a => .when (d.commitDue a) [.eff (.commit slot.val)]))

end Sys2Proof.Machine
end

