-- ==== Sys2Proof/Machine/Mac.lean ====
section
/-!
DEFINITION. Ethernet frames at a port (spec/13, spec/19): the MAC stages, MACsec, checksums and timestamps.
-/
namespace Sys2Proof.Machine

/-! ## Frames -/

/-- EtherType in the first place after the addresses. -/
def firstType (b : List Byte) : Nat := beAt b 12 2

/-- The counter word of a destination address among three: unicast, multicast, broadcast. -/
def castWord (base : Nat) (b : List Byte) : Nat :=
  if (b.take 6).all (· == 0xFF) then base + 2 else if bitOf (beAt b 0 1) 0 then base + 1 else base

/-- Whether a frame passes in the clear (R389): an entry of PORT_MACSEC_BYPASS other than 0x0000 names its EtherType. -/
def Dev.msBypass (d : Dev) (p : Nat) (b : List Byte) : Bool :=
  (List.range 4).any fun i => let e := beAt (d.oct .portMacsecBypass p) (2 * i) 2
    e != 0 && e == firstType b

/-- Whether a port's frames meet its MACsec context. -/
def Dev.msApplies (d : Dev) (p : Nat) (b : List Byte) : Bool := d.num .portMacsecEnable p == 1 && !d.msBypass p b

/-- A counter of a MACsec context (Table 19.8). -/
def msCount (c word : Nat) : Prog := countIn .ciphMsCounters 0 c (8 * word) 8 1

/-- An association takes a state or a packet number. -/
def setSa (a off : Nat) (b : List Byte) : Prog :=
  .ask fun d => putO .ciphMsSaState 0 a (patch (d.oct .ciphMsSaState 0 a) off b)

/-- The nonce of XPN (R538): SSCI and packet number, XORed with the salt. -/
def msNonce (ssci pn salt : List Byte) : List Byte := List.zipWith (· ^^^ ·) (ssci ++ pn) salt

/-- The key and the nonce of an association for a packet number. -/
def Dev.msKey (d : Dev) (a : Nat) : List Byte := (SMap.get [] d.keys (saKey a)).take 32
def Dev.msIv (d : Dev) (a pn : Nat) : List Byte :=
  msNonce (slice (d.oct .ciphMsSaState 0 a) 4 4) (beBytes 8 pn) ((SMap.get [] d.keys (saKey a)).drop 32)

/-- A check mismatch of a MACsec frame (R551). -/
def msFault (c : Nat) : Prog := .all [count .ciphCheckFaults, raise 424 c]

/-- A received frame that a context refuses (Table 19.5): event 421 for its first in each second. -/
def msRefuse (c word : Nat) : Prog := .all [msCount c word, raiseFirst (1024 + c) 421 c]

/-! ## MACsec receive (R542) -/

/-- A SecTAG of IEEE 802.1AE after the addresses: TCI and AN, short length, packet number, size, and the SCI it names, explicit or implied by an end station. -/
structure SecTag where
  tci : Nat
  sl : Nat
  pn : Nat
  size : Nat
  sci : Option Nat

def secTag (b : List Byte) : SecTag :=
  let tci := beAt b 14 1
  let sc := bitOf tci 5
  ⟨tci, beAt b 15 1, beAt b 16 4, if sc then 16 else 8,
    if sc then some (beAt b 20 8) else if bitOf tci 6 then some (beAt b 6 6 * 65536 + 1) else none⟩

/-- A malformed SecTAG: version, ES or SCB beside SC, E and C that differ, or lengths that do not agree. -/
def SecTag.malformed (t : SecTag) (b : List Byte) : Bool :=
  let rest := b.length - (12 + t.size)
  bitOf t.tci 7 || (bitOf t.tci 5 && (bitOf t.tci 6 || bitOf t.tci 4)) || bitOf t.tci 3 != bitOf t.tci 2
    || decide (47 < t.sl) || decide (b.length < 12 + t.size + 16)
    || (if t.sl = 0 then decide (rest < 48 + 16) else decide (rest < t.sl + 16))

/-- The 64-bit packet number that a received 32 bits stand for, near the lowest acceptable. -/
def xpn (lowest pn : Nat) : Nat :=
  let hi := lowest / 2 ^ 32
  (if bitOf lowest 31 && !bitOf pn 31 then hi + 1 else hi) % 2 ^ 32 * 2 ^ 32 + pn

/-- A frame meets the context of its port by the first row of Table 19.5 that applies; `next` goes on with a frame that is delivered. -/
def msReceive (p : Nat) (b : List Byte) (fault : Bool) (next : List Byte → Prog) : Prog :=
  .ask fun d =>
    let c := d.num .portMacsecContext p
    let x := d.oct .ciphMsContext 0 c
    let mode := bitsOf (msCtrl x) 4 2
    let t := secTag b
    let an := t.tci % 4
    let a := msRxSa x an
    let low := d.saPn a
    let pn := xpn low t.pn
    let len := if t.sl = 0 then b.length - (12 + t.size) - 16 else t.sl
    let body := slice b (12 + t.size) len
    let tag := slice b (12 + t.size + len) 16
    let hdr := b.take (12 + t.size)
    let plain := if bitOf t.tci 3 then Config.gcmOpen (d.msKey a) (d.msIv a pn) hdr body tag
      else (Config.gcmOpen (d.msKey a) (d.msIv a pn) (hdr ++ body) [] tag).map fun _ => body
    if mode = 0 then next b
    else if firstType b ≠ 0x88E5 then .all [msCount c 3, .when (mode == 1) [next b]]
    else if t.malformed b ∨ (t.sci.any fun s => s != beAt x 12 8) then msRefuse c 4
    else if a = 0xFFFF ∨ d.saState a ≠ 1 ∨ beAt (d.oct .ciphMsSaState 0 a) 1 1 ≠ 0 then msRefuse c 5
    else if bitOf (msCtrl x) 3 ∧ pn < low then msRefuse c 6
    else if fault ∧ d.num .ciphCheckMode ≠ 2 then .all [msFault c, msRefuse c 7]
    else match plain with
      | none => msRefuse c 7
      | some y =>
        let new := max low (pn + 1 - beAt x 20 4)
        .all [
          msCount c 2,
          if 2 ^ 64 ≤ new then .all [setSa a 0 [2], raise 419 a] else setSa a 8 (beBytes 8 new),
          next (b.take 12 ++ y)]

/-! ## Checksums at ingress (R386) -/

/-- Whether the outermost IPv4 header's checksum fails. -/
def ipSumBad (r : Parsed) (b : List Byte) : Bool :=
  (r.outer (· == .ipv4)).any fun h => inetSum (slice b h.off h.size) 0 != 0

/-- The TCP or UDP header directly under the outermost IP header; extension headers belong to the IP header. -/
def Parsed.l4Under (r : Parsed) (ip : Hdr) : Option Hdr :=
  match ((r.hdrs.dropWhile (· != ip)).drop 1).dropWhile fun h => h.node == .ext with
  | h :: _ => if h.node = .tcp ∨ h.node = .udp then some h else none
  | [] => none

/-- Whether the TCP or UDP checksum fails. An IPv4 UDP checksum of 0 is not checked; an IPv6 one is an error. -/
def l4SumBad (r : Parsed) (b : List Byte) : Bool :=
  match r.outer isIp with
  | none => false
  | some ip =>
    let v4 := ip.node == .ipv4
    match r.l4Under ip with
    | none => false
    | some h =>
      let udp := h.node == .udp
      let sum := beAt b (h.off + if udp then 6 else 16) 2
      let len := ipPayloadEnd b ip - h.off
      if v4 && beAt b (ip.off + 6) 2 % 0x4000 != 0 then false
      else if udp && sum == 0 then !v4
      else inetSum (slice b h.off len) (pseudoSum b ip (if udp then 17 else 6) len) != 0

/-! ## PTP event messages (R562, R563) -/

/-- Where a PTP event message lies in a frame, whether under IPv6, and the UDP header that carries it. -/
structure PtpAt where
  off : Nat
  v6 : Bool
  udp : Option Hdr

/-- The PTP event message in a frame: under EtherType 0x88F7 after up to two tags, or in UDP to port 319 with no tunnel. -/
def ptpEvent (r : Parsed) (b : List Byte) : Option PtpAt :=
  let at' : Option PtpAt :=
    match r.hdrs with
    | e :: _ =>
      if e.node = .ethernet ∧ r.tags.length ≤ 2 ∧ r.etherType b (some e) = 0x88F7 then some ⟨14 + 4 * r.tags.length, false, none⟩
      else if r.tunnels ≠ 0 then none
      else match r.outer isIp, r.outer fun n => n == .udp with
        | some ip, some u => if beAt b (u.off + 2) 2 = 319 then some ⟨u.off + 8, ip.node == .ipv6, some u⟩ else none
        | _, _ => none
    | [] => none
  at'.filter fun x => decide (x.off + 34 ≤ b.length) && decide (beAt b x.off 1 % 16 < 4)

/-- The time of a frame at the ball plane (R391): where it crossed in the present sub-tick, the fixed and variable latency, and the board's adjustment. -/
def Dev.planeTime (d : Dev) (p off lat : Nat) (tx : Bool) : TimeSt :=
  let fixed : Nat := if tx then d.num .portTsTxLatency p else d.num .portTsRxLatency p
  let adj := toInt 32 (if tx then d.num .portTsTxAdjust p else d.num .portTsRxAdjust p)
  d.tim.setUnits (max 0 (d.tim.units + off * nsUnits + psUnits ((fixed + lat : Nat) + adj)))

/-- The record of a PTP event message (Table 20.3). -/
def ptpRecord (kind p : Nat) (x : PtpAt) (b : List Byte) (t : TimeSt) (flags : Nat) : List Byte :=
  tsRecord kind p (beAt b x.off 1) (beAt b (x.off + 4) 1) (beAt b (x.off + 30) 2) (slice b (x.off + 20) 10) t flags

/-- One-step time goes into a Sync (R563): originTimestamp, and the low 16 bits of correctionField; over IPv4 the UDP checksum becomes zero. -/
def oneStep (x : PtpAt) (b : List Byte) (t : TimeSt) : List Byte :=
  let b := patch b (x.off + 34) (beBytes 6 t.secs ++ beBytes 4 t.ns)
  let b := patch b (x.off + 14) (beBytes 2 (t.frac / 2 ^ 24))
  match x.udp with
  | some u => patch b (u.off + 6) [0, 0]
  | none => b

/-! ## LLDP (R381) -/

/-- The receive wake time in the IEEE 802.3 EEE TLV of an LLDPDU. -/
def lldpTw : Nat → List Byte → Option Nat
  | 0, _ => none
  | fuel + 1, b =>
    let h := beAt b 0 2
    if b.length < 2 ∨ h / 512 = 0 then none
    else if h / 512 = 127 ∧ 8 ≤ h % 512 ∧ beAt b 2 4 = 0x00120F05 then some (beAt b 8 2)
    else lldpTw fuel (b.drop (2 + h % 512))

/-- The control complex reads the EEE TLV of a received LLDPDU, and writes what it resolves. -/
def lldpReceive (p : Nat) (b : List Byte) : Prog :=
  .ask fun d => .when (d.num .portLldpMode p == 1 && firstType b == 0x88CC) [
    match lldpTw b.length (b.drop 14) with
    | some tw => .all [.eff (.port p fun x => { x with peerTw := tw }), .ask fun e => putN .portEeeTwTx p 0 (e.resolvedTw p)]
    | none => .skip]

/-! ## The commands -/

/-- A frame that has passed MACsec: checksums, timestamp, LLDP, and the ingress reserve. -/
def macDeliver (p off lat : Nat) (b : List Byte) : Prog :=
  .ask fun d =>
    let r := parse d.parseCfg 0 b
    let ipBad := ipSumBad r b
    let l4Bad := l4SumBad r b
    .all [
      .when (ipBad || l4Bad) [macCount p 9 1],
      match ptpEvent r b with
      | some x => .when (bitOf (d.num .timePortPtp 0 p) 0) [tsPush (ptpRecord 1 p x b (d.planeTime p off lat false) d.tsUnsync)]
      | none => .skip,
      lldpReceive p b,
      ingress ⟨Fin.ofNat 118 p, 0, ipBad, l4Bad, none, 0, 0, 0, 0, 0, b⟩]

/-- A frame arrives on an Up port (R383 to R386). In Sleep it is discarded (R117). `fault` is a check mismatch of the cipher engine. -/
def execEthRxFrame (p : Fin 96) (f : EthRx) (fault : Bool) (s : State) : Host.Outcome State Fault Refusal :=
  s.run (.ask fun d =>
    let n := f.data.length
    let b := f.data.take (n - 4)
    .when (d.answers && d.num .portState p.val == 4) [
      if d.num .pwrState = 2 then count .pwrSleepDiscards
      else if n < 64 then macCount p.val 6 1
      else if d.num .portMaxFrame p.val < n then macCount p.val 7 1
      else if leNat (f.data.drop (n - 4)) ≠ crcFcs b then macCount p.val 5 1
      else if firstType b = 0x8808 then macCount p.val 8 1
      else .all [
        macCount p.val 0 1, macCount p.val 1 n, macCount p.val (castWord 2 b) 1,
        if d.msApplies p.val b then msReceive p.val b fault (macDeliver p.val f.off.val f.lat.toNat)
        else macDeliver p.val f.off.val f.lat.toNat b]])

/-- The SecTAG that a context puts on a frame (R538): E and C set, SCI when the context includes it. -/
def msTag (x : List Byte) (pn len : Nat) : List Byte :=
  let sci := bitOf (msCtrl x) 6
  [0x88, 0xE5] ++ beBytes 1 (32 * b2n sci + 12 + msTxAn x) ++ beBytes 1 (if len < 48 then len else 0) ++ beBytes 4 pn
    ++ (if sci then slice x 4 8 else [])

/-- A frame leaves: padded to 64 bytes, with its FCS, which is inverted for data that failed (R385). -/
def macSend (p : Nat) (b : List Byte) (bad : Bool) : Prog :=
  let b := padTo (max 60 b.length) b
  let fcs := if bad then 0xFFFFFFFF - crcFcs b else crcFcs b
  .all [
    if bad then macCount p 20 1
    else .all [macCount p 15 1, macCount p 16 (b.length + 4), macCount p (castWord 17 b) 1],
    send .frame p 0 (b ++ leBytes 4 fcs)]

/-- A frame under a transmit context (R538, R539): sealed with the next packet number, or dropped and counted. -/
def msSend (p : Nat) (b : List Byte) (bad fault : Bool) : Prog :=
  .ask fun d =>
    let c := d.num .portMacsecContext p
    let x := d.oct .ciphMsContext 0 c
    let a := msTxSa x (msTxAn x)
    let pn := d.saPn a
    let tag := msTag x pn (b.length - 12)
    let drop := msCount c 1
    if a = 0xFFFF ∨ d.saState a ≠ 1 ∨ beAt (d.oct .ciphMsSaState 0 a) 1 1 ≠ 1 then drop
    else if pn = 2 ^ 64 - 1 then .all [setSa a 0 [2], raise 419 a, drop]
    else
      let sealed := Config.gcmSeal (d.msKey a) (d.msIv a pn) (b.take 12 ++ tag) (b.drop 12)
      .all [
        setSa a 8 (beBytes 8 (pn + 1)),
        .when (decide (pn < d.num .ciphMsPnAlarm) && decide (d.num .ciphMsPnAlarm ≤ pn + 1)) [raise 420 a],
        .when (decide (2 ^ 64 ≤ pn + 2)) [setSa a 0 [2], raise 419 a],
        if fault ∧ d.num .ciphCheckMode ≠ 2 then .all [msFault c, drop]
        else .all [msCount c 0, macSend p (b.take 12 ++ tag ++ sealed.1 ++ sealed.2) bad]]

/-- The packet at the front of a port's egress stage is sent (R383, R384, R387, R391, R392). -/
def execEthTxFrame (p : Fin 96) (off : Fin 1000) (lat : BitVec 16) (fault : Bool) (s : State) : Host.Outcome State Fault Refusal :=
  s.run (.ask fun d => match (d.prt p.val).egress with
    | [] => .skip
    | q :: rest =>
      let b := q.out
      let ms := d.msApplies p.val b && bitOf (msCtrl (d.oct .ciphMsContext 0 (d.num .portMacsecContext p.val))) 7
      let x := d.oct .ciphMsContext 0 (d.num .portMacsecContext p.val)
      let size := (if ms then b.length + (msTag x 0 0).length + 16 else b.length)
      let t := d.planeTime p.val off.val lat.toNat true
      let ptp := d.num .timePortPtp 0 p.val
      let ev := if q.bad then none else ptpEvent (parse d.parseCfg 0 b) b
      let step := ev.filter fun y => bitOf ptp 2 && beAt b y.off 1 % 16 == 0 && !bitOf (beAt b (y.off + 6) 1) 1 && !y.v6
        && d.num .portMacsecEnable p.val == 0 && decide (y.off + 44 ≤ b.length)
      .when (d.answers && d.num .portState p.val == 4) [
        .eff (.port p.val fun y => { y with egress := rest }),
        if d.num .portMaxFrame p.val < max 60 size + 4 then macCount p.val 21 1
        else .all [
          match ev with
          | some y => .when (bitOf ptp 1) [tsPush (ptpRecord 2 p.val y b t (d.tsUnsync + if step.isSome then 2 ^ 14 else 0))]
          | none => .skip,
          if ms then msSend p.val b q.bad fault
          else macSend p.val (match step with
            | some y => oneStep y b t
            | none => b) q.bad]])

end Sys2Proof.Machine
end

