-- ==== Sys2Proof/Machine/Encap.lean ====
section
/-!
DEFINITION. Encapsulation frames, chains and downstream packets (R297 to R306), and the seconds of performance data (R311, R312).
-/
namespace Sys2Proof.Machine

/-- The fields of an encapsulation header (Table 10.3). -/
def encStream (h : Nat) : Nat := bitsOf h 44 20
def encLength (h : Nat) : Nat := bitsOf h 30 14
def encLast (h : Nat) : Bool := bitOf h 29
def encKey (h : Nat) : Nat := bitsOf h 24 5
def encLabel (h : Nat) : Nat := bitsOf h 16 8

/-- Whether an encapsulation header's CRC checks. -/
def encOk (b : List Byte) : Bool := decide (8 ≤ b.length) && crc16 (b.take 6) == beAt b 6 2

/-- Bytes of an area that an encapsulation frame occupies (R297). -/
def encOcc (len : Nat) : Nat := 8 + 8 * ceilDiv len 8

/-- The stream of idle fill (R297). -/
def idleStream : Nat := 0xFFFFF

/-- The rest of an area from the first confirmed candidate on; empty when none is found, or when a candidate whose
occupancy reaches the end cannot be confirmed (R299). -/
def hunt : Nat → List Byte → List Byte
  | 0, _ => []
  | fuel + 1, b =>
    if encOk b then
      let r := b.drop (encOcc (encLength (beAt b 0 8)))
      if r.isEmpty then [] else if encOk r then b else hunt fuel (b.drop 8)
    else if b.length < 8 then [] else hunt fuel (b.drop 8)

/-! ## Downstream packets (R304 to R306) -/

/-- Whether a stream's LABELS accept a label (R304, Table 10.4). -/
def labelOk (body : Option Nat) (label : Nat) : Bool :=
  match body with
  | none => label == 3 || label == 5 || label == 0xFE || label == 0xFF
  | some w => label == 0xFE || label == 0xFF || (decide (1 ≤ label) && decide (label ≤ 6) && bitOf w (55 + label))

/-- A payload that was accepted and delivered is counted (R306). -/
def delivered (n : Nat) (body : Option Nat) (bytes : Nat) : Prog :=
  .all [count .frmPayloads n,
    match body with
    | some w => .when (bitOf w 62) [countPair (w % 2 ^ 21) bytes]
    | none => .skip]

/-- Where a delivered payload goes: to the Carousel from the port of the channel or of the lowest member of its group (R29), the Umani endpoint, the circuit complex or the time
complex, whose own rows take it. The bytes follow the stream, the frame and its epochs (R45). -/
def deliverTo (dest n : Nat) (x : Chain) (data : List Byte) : Prog :=
  .ask fun d => send .handoff dest (if dest = 0x21 ∨ dest = 0x22 ∨ dest = 0x26 then d.lead n else n) (beBytes 3 x.stream ++ beBytes 8 x.frame ++ beBytes 4 x.cfgEpoch ++ beBytes 4 x.tblEpoch ++ data)

/-- A Umani or timing payload draws from the separate share of the ingress reserve, and overruns it like a packet (R38). -/
def controlShare (n len : Nat) (p : Prog) : Prog :=
  .ask fun d =>
    if d.ingressShare 116 < d.ingressCells 116 + ceilDiv len 256 then .all [count .carIngressOverruns 0 (108 + n), raise 337 (108 + n)]
    else p

/-- An accepted payload by its label (Table 10.5). -/
def handleLabel (n : Nat) (x : Chain) (body : Option Nat) (data : List Byte) : Prog :=
  let drop := count .frmLabelDiscards n
  let toCarousel := fun (b : List Byte) => Prog.all [delivered n body b.length, deliverTo (0x20 + x.label) n x b]
  match x.label with
  | 1 => if data.length < 14 then drop else toCarousel data
  | 2 =>
    if data.length < 18 then drop
    else if leNat (data.drop (data.length - 4)) ≠ crcFcs (data.take (data.length - 4)) then count .frmFcsErrors n
    else toCarousel (data.take (data.length - 4))
  | 3 => .all [delivered n body data.length,
      if umaniFits 4096 data then controlShare n data.length (deliverTo 0x23 n x data) else count .umaniDiscards]
  | 4 => .all [delivered n body data.length, deliverTo (if x.errored then 0x34 else 0x24) n x data]
  | 5 => .all [delivered n body data.length, controlShare n data.length (deliverTo 0x25 n x data)]
  | 6 => if beAt data 0 1 / 16 = 4 ∨ beAt data 0 1 / 16 = 6 then toCarousel data else drop
  | 0xFE => .all [count .frmTestPayloads n, countBy .frmTestBytes n 0 data.length]
  | 0xFF =>
    if data.all (· == 0xFF) then
      .eff (.fch n fun c => if c.aisNow then c else { c with aisNow := true, aisRun := c.aisPrev + 1, okRun := 0 })
    else drop
  | _ => drop

/-- Event 418: the first authentication failure of a channel in each profile epoch. -/
def authFailed (n frame : Nat) : Prog :=
  .ask fun d => .all [
    countIn .ciphFchCounters n 0 8 8 1,
    .when (decide ((d.ch n).authEpoch ≠ some (frame / 32)))
      [raise 418 n, .eff (.fch n fun c => { c with authEpoch := some (frame / 32) })]]

/-- Decryption of a completed packet under a context of the channel's group (R305, R529, R530); `fault` is a check mismatch. -/
def decryptThen (n : Nat) (x : Chain) (fault : Bool) (next : List Byte → Prog) : Prog :=
  .ask fun d =>
    let g := d.lead n
    let size := x.data.length - 16
    let drop := count .frmKeyDiscards n
    if x.data.length < 16 ∨ d.ctxState g 0 x.key ≠ 1 then drop
    else .all [useCtx g 0 x.key,
      if fault ∧ d.num .ciphCheckMode ≠ 2 then checkFault n
      else match Config.gcmOpen (SMap.get [] d.keys (ctxKey g 0 x.key)) (dsNonce x.frame n x.stream x.ord)
          (fibreAad x.stream x.key x.label) (x.data.take size) (x.data.drop size) with
        | some b => .all [countIn .ciphFchCounters n 0 0 8 1, next b]
        | none => .all [drop, authFailed n x.frame]]

/-- A completed packet: filtered by stream, decrypted and handed to its label's destination (R302 to R306). -/
def downstreamPacket (n : Nat) (x : Chain) (fault : Bool) : Prog :=
  .ask fun d =>
    let body := d.streamBody (d.lead n) x.stream
    if x.stream ≠ 0 ∧ body = none then count .frmUnknownStream n
    else
      let acc := if x.stream = 0 then none else body
      if !labelOk acc x.label then count .frmLabelDiscards n
      else if x.errored && x.label != 4 then count .frmErroredDiscards n
      else if x.key = 0 then
        if acc.any fun w => bitOf w 63 then count .frmKeyDiscards n
        else handleLabel n x acc x.data
      else decryptThen n x fault (handleLabel n x acc)

/-! ## Fragments (R301) -/

/-- The ORDINAL of the next packet of a stream in the frame, which it takes whatever becomes of it (R529, R534). -/
def takeOrd (n stream : Nat) : Prog :=
  .eff (.fch n fun c => { c with ords := SMap.put 0 stream (SMap.get 0 c.ords stream + 1) c.ords })

/-- A fragment of the walk: it is a whole packet, opens a chain, extends one, or closes one. -/
def fragment (n h : Nat) (data : List Byte) (err fault : Bool) : Prog :=
  .ask fun d =>
    let c := d.ch n
    let st := encStream h
    match c.chains.find? (fun x => x.stream = st) with
    | none =>
      let x : Chain := ⟨st, encKey h, encLabel h, SMap.get 0 c.ords st, c.areaFrame,
        c.areaCfg, c.areaTbl, data, 0, err⟩
      .all [takeOrd n st,
        if encLast h then downstreamPacket n x fault
        else if 256 ≤ c.chains.length then count .frmChainDiscards n
        else .eff (.fch n fun c => { c with chains := c.chains ++ [x] })]
    | some x =>
      if x.key ≠ encKey h ∨ x.label ≠ encLabel h then .all [count .frmChainDiscards n, removeChain n st]
      else .all [extendChain n st data err,
        .when (encLast h) [.ask fun e => match (e.ch n).chains.find? (fun y => y.stream = st) with
          | some y => .all [removeChain n st, downstreamPacket n y fault]
          | none => .skip]]

/-- The walk moves on by `k` bytes of the area. -/
def walkOn (n k : Nat) : Prog :=
  .eff (.fch n fun c => { c with
    area := c.area.drop k, areaAt := c.areaAt + k, walked := decide (c.area.length ≤ k) })

/-- The next encapsulation frame of a channel's area (R297 to R302). `fault` is a check mismatch of the cipher engine. -/
def execEncapFrame (n : Fin 4) (fault : Bool) (s : State) : Host.Outcome State Fault Refusal :=
  s.run (live (.ask fun d =>
    let c := d.ch n.val
    let h := beAt c.area 0 8
    let len := encLength h
    let have' := c.area.length - 8
    if c.area.isEmpty then .skip
    else if !encOk c.area then
      let rest := hunt c.area.length (c.area.drop 8)
      .all [dropChains n.val, count .frmEncCrcFails n.val,
        .eff (.fch n.val fun c => { c with
          area := rest, areaAt := c.areaAt + (c.area.length - rest.length), walked := false })]
    else if len = 0 ∨ encStream h = idleStream ∧ encOcc len ≤ c.area.length then walkOn n.val (encOcc len)
    else if encOcc len ≤ c.area.length then
      .all [fragment n.val h (slice c.area 8 len) (hitsBad c.areaBad (c.areaAt + 8) len) fault, walkOn n.val (encOcc len)]
    else if encLast h then
      .all [count .frmEncContradictions n.val, removeChain n.val (encStream h), walkOn n.val c.area.length,
        .eff (.fch n.val fun c => { c with skipCont := true })]
    else .all [
      .when (encStream h != idleStream)
        [fragment n.val h (c.area.drop 8 |>.take len) (hitsBad c.areaBad (c.areaAt + 8) (min len have')) fault],
      walkOn n.val c.area.length,
      .eff (.fch n.val fun c => { c with cut := some ⟨encStream h, len - min len have'⟩ })]))

/-- Chains that no fragment has extended for 8 frames are discarded and counted. -/
def execChainTimeout (n : Fin 4) (s : State) : Host.Outcome State Fault Refusal :=
  s.run (live (.ask fun d => .all [
    countBy .frmChainDiscards n.val 0 ((d.ch n.val).chains.filter fun x => decide (8 ≤ x.age)).length,
    .eff (.fch n.val fun c => { c with chains := c.chains.filter fun x => decide (x.age < 8) })]))

/-! ## Performance data (R311, R312) -/

/-- Errored frames that make a second severely errored: 30% of 8,000. -/
def sesFrames : Nat := 2400

/-- The class (ES, SES) of the second that ends. -/
def pmClass (p : Pm) : Bool × Bool := (p.defect || decide (0 < p.errored), p.defect || decide (sesFrames ≤ p.errored))

/-- The next second begins: a defect that still stands makes it a defect second too. -/
def pmNext (p : Pm) (standing : Bool) : Pm :=
  let l := p.seconds ++ [pmClass p]
  { p with errored := 0, defect := standing, seconds := if 10 ≤ l.length then l.tail else l }

/-- Whether the second being committed changes availability (R312): the new availability. -/
def pmAvail (avail : Bool) (l : List (Bool × Bool)) : Bool :=
  if avail && l.all (·.2) then false else if !avail && l.all (fun x => !x.2) then true else avail

end Sys2Proof.Machine
end

