-- ==== Sys2Proof/Machine/Circuits.lean ====
section
/-!
DEFINITION. Synchronous circuits (spec/11): containers (R316 to R319), slip buffers (R320), pseudowires (R321 to R325), defects and
performance data (R326, R327), configuration (R328) and timing references (R329).
-/
namespace Sys2Proof.Machine

/-! ## Configuration fields (Table 11.3) -/

def Dev.circCfg (d : Dev) (c : Nat) : List Byte := d.oct .circConfig 0 c
def ccOn (b : List Byte) : Bool := bitOf (beAt b 0 1) 7
def ccDs (b : List Byte) : Bool := ccOn b && bitOf (beAt b 0 1) 6
def ccUs (b : List Byte) : Bool := ccOn b && bitOf (beAt b 0 1) 5
def ccTiming (b : List Byte) : Bool := ccOn b && bitOf (beAt b 0 1) 4
def ccChannel (b : List Byte) : Nat := beAt b 1 1
def ccRate (b : List Byte) : Nat := beAt b 2 2
def ccDsStream (b : List Byte) : Nat := beAt b 4 4
def ccUsStream (b : List Byte) : Nat := beAt b 8 4
def ccQueue (b : List Byte) : Nat := beAt b 12 4
def ccPwBytes (b : List Byte) : Nat := beAt b 16 2
def ccPlayout (b : List Byte) : Nat := beAt b 18 2

/-- Whether a circuit is justified. -/
def justified (c : Nat) : Bool := decide (2048 ≤ c)

/-- Bits of a frame of a circuit: n bytes, or N bits. -/
def frameBits (c : Nat) (b : List Byte) : Nat := if justified c then ccRate b else 8 * ccRate b

/-- Load of a circuit in kb/s (R328). -/
def circLoad (c : Nat) (b : List Byte) : Nat := if justified c then 8 * ccRate b else 64 * ccRate b

/-- The playout target in bits (R323). -/
def playTarget (c : Nat) (b : List Byte) : Nat :=
  if justified c then ccPlayout b * ccRate b * 8 / 1000 else ccPlayout b * ccRate b * 64 / 1000

/-- Circuits enabled on a channel, or anywhere. -/
def Dev.circOn (d : Dev) (n : Option Nat) : List Nat :=
  (List.range 2080).filter fun c => ccOn (d.circCfg c) && n.all (· == ccChannel (d.circCfg c))

/-- A circuit's part of the state. -/
def Dev.crc (d : Dev) (c : Nat) : Circ := SMap.get Circ.none d.circ c

/-- A circuit's part of the state changes. -/
def circUpd (c : Nat) (f : Circ → Circ) : Prog := .eff (.circ c f)

/-- Bits of all ones. -/
def allOnes (n : Nat) : List Bool := List.replicate n true

/-! ## Defects (Table 11.2) -/

/-- A counter of CIRC_COUNTERS moves on. -/
def circCount (c k n : Nat) : Prog := countIn .circCounters 0 c (4 * k) 4 n

/-- RDI_TX of a channel follows the incoming failures of its circuits (R310, R326). -/
def circRdi (n : Nat) : Prog :=
  .ask fun d => setFlag .frmDefects n 0 5 ((d.circOn (some n)).any fun c => bitOf (d.num .circStatus 0 c) 2)

/-- The timing reference: while the named circuit holds IF or has no timing bit, the offset reads 0x8000_0000, and event 197 is
raised once (R329). -/
def timingCheck : Prog :=
  .ask fun d =>
    let c := d.num .circTimingSource
    if c = 0xFFFF then putN .circTimingOffset 0 0 0x80000000
    else if bitOf (d.num .circStatus 0 c) 2 || !ccTiming (d.circCfg c) then
      .all [putN .circTimingOffset 0 0 0x80000000,
        .when (!(d.crc c).lost) [raise 197 c, circUpd c fun x => { x with lost := true }]]
    else circUpd c fun x => { x with lost := false }

/-- Bit `k` of CIRC_STATUS is declared or cleared. A change of AIS_RX (1) or RDI_RX (3) raises event 192, as does the change of IF that
follows from MISS (0) or AIS_RX. -/
def circDefect (c k : Nat) (b : Bool) : Prog :=
  .ask fun d => .when (bitOf (d.num .circStatus 0 c) k != b) [
    setFlag .circStatus 0 c k b,
    .when (k == 1 || k == 3) [raise 192 c],
    .ask fun e =>
      let v := e.num .circStatus 0 c
      let inf := bitOf v 0 || bitOf v 1
      .when (bitOf v 2 != inf) [
        setFlag .circStatus 0 c 2 inf, raise 192 c, circRdi (ccChannel (e.circCfg c)), timingCheck,
        .when inf [circUpd c fun x => { x with pm := { x.pm with defect := true } }]]]

/-- The present frame of a circuit is errored (R327). -/
def circErrored (c : Nat) : Prog := circUpd c fun x => { x with errored := true }

/-- A run of three. -/
def run3 (hit : Bool) (k : Nat) : Nat := if hit then min 3 (k + 1) else 0

/-! ## Containers (R316 to R319) -/

/-- Bytes of a container (R316). -/
def containerLen (c : Nat) (b : List Byte) : Nat := 8 + (if justified c then ceilDiv (ccRate b + 1) 8 else ccRate b)

/-- The justification of a container by its votes and its SEQ (R317). -/
def justD (votes seq : Nat) : Int :=
  if (setBits 3 votes).length < 2 then 0 else if seq % 2 = 0 then 1 else -1

/-- A container that circuit `c` takes (R317, R318). -/
def takeContainer (c : Nat) (errored : Bool) (data : List Byte) : Prog :=
  .ask fun d =>
    let x := d.crc c
    let b := d.circCfg c
    let h := beAt data 0 8
    let seq := if errored then x.exp else bitsOf h 60 4
    let votes := bitsOf h 57 3
    let dj := if justified c then justD votes seq else 0
    let bits := (bitList (data.drop 8)).take ((frameBits c b : Int) + dj).toNat
    let ais := bitOf h 56
    let rdi := bitOf h 55
    .all [
      .when (justified c && votes != 0 && votes != 7) [circCount c 8 1],
      .when errored [circCount c 5 1, circErrored c],
      .when (!errored && seq != x.exp) [circCount c 6 1, circErrored c],
      circUpd c fun y => { y with
        exp := (seq + 1) % 16, cont := some bits, contD := dj, contOk := !errored },
      .when (!errored) [
        circUpd c fun y => { y with
          aisRun := run3 ais y.aisRun, noAisRun := run3 (!ais) y.noAisRun,
          rdiRun := run3 rdi y.rdiRun, noRdiRun := run3 (!rdi) y.noRdiRun },
        .ask fun e => .all [
          .when ((e.crc c).aisRun == 3) [circDefect c 1 true],
          .when ((e.crc c).noAisRun == 3) [circDefect c 1 false],
          .when ((e.crc c).rdiRun == 3) [circDefect c 3 true],
          .when ((e.crc c).noRdiRun == 3) [circDefect c 3 false]]]]

/-- A payload of label 0x04 reaches the circuit complex (R318). -/
def execCircuitContainer (n : Fin 4) (stream : BitVec 20) (errored : Bool) (data : List Byte) (s : State) :
    Host.Outcome State Fault Refusal :=
  s.run (live (.ask fun d =>
    match (d.circOn (some n.val)).find? fun c => ccDs (d.circCfg c) && ccDsStream (d.circCfg c) == stream.toNat with
    | none => .skip
    | some c => .when (labelOk (d.streamBody (d.lead n.val) stream.toNat) 4) [
        if data.length ≠ containerLen c (d.circCfg c) then count .circRejects
        else if (d.crc c).cont.isSome then .all [circCount c 6 1, circErrored c]
        else takeContainer c errored data]))

/-! ## Slip buffers (R320) -/

/-- A slip is counted and raises event 193. -/
def slip (c : Nat) : Prog := .all [circCount c 7 1, raise 193 c, circErrored c]

/-- A whole frame is written into a slip buffer of two. -/
def slipWrite (c : Nat) (us : Bool) (f : List Bool) : Prog :=
  .ask fun d =>
    let l := if us then (d.crc c).us else (d.crc c).ds
    let l2 := (if 2 ≤ l.length then l.tail else l) ++ [f]
    .all [.when (decide (2 ≤ l.length)) [slip c],
      circUpd c fun x => if us then { x with us := l2 } else { x with ds := l2 }]

/-- A whole frame is read from a slip buffer: all ones before the first, a repeat when none is held. -/
def slipRead (c : Nat) (us : Bool) (bits : Nat) (next : List Bool → Prog) : Prog :=
  .ask fun d =>
    let x := d.crc c
    match (if us then x.us else x.ds) with
    | f :: r => .all [
        circUpd c fun y => if us then { y with us := r, usLast := f, usOn := true } else { y with ds := r, dsLast := f, dsOn := true },
        next f]
    | [] =>
      if (if us then x.usOn else x.dsOn) then .all [slip c, next (if us then x.usLast else x.dsLast)] else next (allOnes bits)

/-- Circuit data gathers toward a packet. -/
def gatherBits (c : Nat) (f : List Bool) : Prog := circUpd c fun x => { x with gather := x.gather ++ f }

/-! ## Pseudowires (R321 to R325) -/

/-- A packet is formed once enough data is gathered (R321): it enters forwarding from port 116. -/
def execPwPacketForm (c : Fin 2080) (s : State) : Host.Outcome State Fault Refusal :=
  s.run (live (.ask fun d =>
    let b := d.circCfg c.val
    let x := d.crc c.val
    let n := ccPwBytes b
    let v := d.num .circStatus 0 c.val
    let word := 2 ^ 27 * b2n (bitOf v 2) + 2 ^ 26 * b2n (bitOf v 4) + (if n + 4 < 64 then n + 4 else 0) * 65536 + x.pwSeq
    .when (ccDs b && decide (8 * n ≤ x.gather.length)) [
      circUpd c.val fun y => { y with gather := y.gather.drop (8 * n), pwSeq := (y.pwSeq + 1) % 65536 },
      send .handoff 0x50 c.val (beBytes 4 word ++ (if bitOf v 2 then List.replicate n 0xFF else packBits (x.gather.take (8 * n))))]))

/-- A packet that the redirect-to-circuit action sends (R322, R323). -/
def execPwPacketReceived (c : Fin 2080) (data : List Byte) (s : State) : Host.Outcome State Fault Refusal :=
  s.run (live (.ask fun d =>
    let b := d.circCfg c.val
    let x := d.crc c.val
    let w := beAt data 0 4
    let n := ccPwBytes b
    let seq := w % 65536
    let ahead := match x.pwExp with
      | some e => (seq + 65536 - e) % 65536
      | none => 0
    let gap := if 1 ≤ ahead ∧ ahead ≤ 32 then ahead else 0
    let jump := decide (32 < ahead)
    let fill := (if jump then 0 else x.playout.length) + 8 * n * (gap + 1)
    let l := bitOf w 27
    .when (ccUs b) [
      if data.length < 4 ∨ w / 2 ^ 28 ≠ 0 ∨ data.length ≠ n + 4 ∨ 32768 ≤ ahead ∨ 2 * playTarget c.val b < fill then
        circCount c.val 10 1
      else .all [
        circCount c.val 9 gap,
        circUpd c.val fun y => { y with
          pwExp := some ((seq + 1) % 65536),
          playing := y.playing && !jump,
          playout := (if jump then [] else y.playout) ++ allOnes (8 * n * gap)
            ++ (if l then allOnes (8 * n) else bitList (data.drop 4)) },
        circDefect c.val 5 l, circDefect c.val 4 false]]))

/-- No accepted packet for PW_LOSS_MS (R323). -/
def execPwLossTimeout (c : Fin 2080) (s : State) : Host.Outcome State Fault Refusal :=
  s.run (live (.ask fun d => .when (ccUs (d.circCfg c.val) && !bitOf (d.num .circStatus 0 c.val) 4)
    [circDefect c.val 4 true, raise 194 c.val]))

/-- Some bits are read from the playout buffer (R323). Playout begins at the target; a read that finds too little sends all ones until the
target is reached again and counts one underrun. -/
def playRead (c bits : Nat) (next : List Bool → Prog) : Prog :=
  .ask fun d =>
    let x := d.crc c
    let start := x.playing || decide (playTarget c (d.circCfg c) ≤ x.playout.length)
    if !start then next (allOnes bits)
    else if x.playout.length < bits then .all [
      circUpd c fun y => { y with playing := false, under := true },
      circCount c 11 1, raise 195 c, next (allOnes bits)]
    else .all [
      circUpd c fun y => { y with playing := true, under := false, playout := y.playout.drop bits },
      next (x.playout.take bits)]

/-- An upstream container is built and meets admission to the circuit's queue (R316, R324, R325, R41). -/
def sendContainer (c jc : Nat) (bits : List Bool) : Prog :=
  .ask fun d =>
    let b := d.circCfg c
    let x := d.crc c
    let v := d.num .circStatus 0 c
    let ais := bitOf v 4 || bitOf v 5 || x.under
    let h := x.usSeq * 2 ^ 60 + jc * 2 ^ 57 + 2 ^ 56 * b2n ais + 2 ^ 55 * b2n (bitOf v 2)
    let body := padTo (containerLen c b - 8) (packBits (if ais then allOnes bits.length else bits))
    .all [
      circUpd c fun y => { y with usSeq := (y.usSeq + 1) % 16 },
      enqueue none (ccQueue b) ⟨beBytes 8 h ++ body, beBytes 8 h ++ body, false, [], none, 0, 4, some (ccUsStream b), none, 0, 0, false⟩]

/-- The justification decision (R324). -/
def justDecide (seq fill target : Nat) : Int :=
  if seq % 2 = 0 ∧ target + 8 ≤ fill then 1 else if seq % 2 = 1 ∧ fill + 8 ≤ target then -1 else 0

/-! ## Frame marks -/

/-- Frames of a justified circuit's containers that were received and not errored enter the average of R329. -/
def timingFrame (c : Nat) : Prog :=
  .ask fun d =>
    let x := d.crc c
    let b := d.circCfg c
    .when (justified c && ccTiming b && x.contOk) [
      circUpd c fun y => { y with sumD := y.sumD + y.contD, cntD := y.cntD + 1 },
      .ask fun e =>
        let y := e.crc c
        .when (decide (e.num .circTimingWindow ≤ y.cntD)) [
          .when (e.num .circTimingSource == c && !bitOf (e.num .circStatus 0 c) 2) [
            let off := y.sumD * 1000000000 / ((y.cntD * ccRate b : Nat) : Int)
            .all [putN .circTimingOffset 0 0 (ofInt 32 off), .eff (.tim fun t => { t with circRef := off })]],
          circUpd c fun z => { z with sumD := 0, cntD := 0 }]]

/-- A frame of the circuit's channel ends (R319): its data is written, all ones when no container came. -/
def circFrameEnd (c : Nat) : Prog :=
  .ask fun d =>
    let b := d.circCfg c
    let x := d.crc c
    let write (f : List Bool) : Prog := if justified c then gatherBits c f else slipWrite c false f
    .all [
      .when (ccDs b) [
        match x.cont with
        | some f => .all [write f, timingFrame c]
        | none => .all [write (allOnes (frameBits c b)), circCount c 4 1, circErrored c,
            circUpd c fun y => { y with exp := (y.exp + 1) % 16 }],
        circUpd c fun y => { y with
          missRun := run3 x.cont.isNone y.missRun, gotRun := run3 x.cont.isSome y.gotRun, cont := none, contOk := false },
        .ask fun e => .all [
          .when ((e.crc c).missRun == 3) [circDefect c 0 true],
          .when ((e.crc c).gotRun == 3) [circDefect c 0 false]]],
      circUpd c fun y => { y with pm := { y.pm with errored := y.pm.errored + b2n y.errored }, errored := false }]

/-- The CIRC frame mark of a slip-buffered circuit: a frame is read downstream, and one is read from playout into the upstream buffer. -/
def circMark (c : Nat) : Prog :=
  .ask fun d =>
    let b := d.circCfg c
    .when (!justified c) [
      .when (ccDs b) [slipRead c false (frameBits c b) (gatherBits c)],
      .when (ccUs b) [playRead c (frameBits c b) (slipWrite c true)]]

/-- The upstream container of a circuit at its channel's frame mark. -/
def circUpstream (c : Nat) : Prog :=
  .ask fun d =>
    let b := d.circCfg c
    .when (ccUs b) [
      if justified c then
        let x := d.crc c
        let dj := justDecide x.usSeq x.playout.length (playTarget c b)
        playRead c ((ccRate b : Int) + dj).toNat (sendContainer c (if dj = 0 then 0 else 7))
      else slipRead c true (frameBits c b) (sendContainer c 0)]

/-- Circuit work at a frame mark of channel `n`. -/
def circuitMarks (n : Nat) : Prog :=
  .ask fun d => .all [
    .each (d.circOn (some n)) circFrameEnd,
    .when (d.num .clkTimingChannel == n) [.each (d.circOn none) circMark],
    .each (d.circOn (some n)) circUpstream]

/-! ## Performance data (R311, R312, R327) -/

/-- A second of a circuit ends; the second nine before it is committed. -/
def circSecond (c : Nat) : Prog :=
  .ask fun d =>
    let p := (d.crc c).pm
    let l := p.seconds ++ [pmClass p]
    let was := !bitOf (d.num .circStatus 0 c) 6
    let now := pmAvail was l
    .all [
      circUpd c fun x => { x with pm := pmNext x.pm (bitOf (d.num .circStatus 0 c) 2) },
      .when (decide (10 ≤ l.length)) [
        .when (was != now) [setFlag .circStatus 0 c 6 (!now), raise 196 c],
        if !now then circCount c 2 1
        else .all [
          .when (l.headD (false, false)).1 [circCount c 0 1],
          .when (l.headD (false, false)).2 [circCount c 1 1]]]]

/-- A second of channel `n` and of its circuits ends; the second nine before it is committed (R312, R327). -/
def execPmSecondCommit (n : Fin 4) (s : State) : Host.Outcome State Fault Refusal :=
  s.run (live (.ask fun d =>
    let p := (d.ch n.val).pm
    let l := p.seconds ++ [pmClass p]
    let was := d.num .frmPmAvailable n.val == 1
    let now := pmAvail was l
    .when (p.started && decide (d.num .pwrState < 2)) [
      .eff (.fch n.val fun c => { c with pm := pmNext c.pm (d.defect n.val 0 || d.defect n.val 1 || d.defect n.val 2) }),
      .when (decide (10 ≤ l.length)) [
        .when (was != now) [putN .frmPmAvailable n.val 0 (b2n now), setDefect n.val 6 (!now)],
        if !now then count .frmPmUas n.val
        else .all [
          .when (l.headD (false, false)).1 [count .frmPmEs n.val],
          .when (l.headD (false, false)).2 [count .frmPmSes n.val]]],
      .each (d.circOn (some n.val)) circSecond]))

/-! ## Configuration (R328) -/

/-- The load of enabled circuits in a direction, with circuit `c` configured as `b`. -/
def Dev.circLoads (d : Dev) (c : Nat) (b : List Byte) (on : List Byte → Bool) : Nat :=
  ((List.range 2080).map fun k =>
    let x := if k = c then b else d.circCfg k
    if on x then circLoad k x else 0).sum

/-- A value outside the ranges of Table 11.3, or past 40 Gb/s (R40, R328). -/
def circRange (d : Dev) (c : Nat) (b : List Byte) : Bool :=
  let j := justified c
  let ctrl := beAt b 0 1
  ctrl % 16 != 0 || (bitOf ctrl 4 && !j) || decide (3 < ccChannel b)
    || (if j then decide (ccRate b < 8) || decide (19440 < ccRate b) else decide (ccRate b < 1) || decide (672 < ccRate b))
    || decide (2 ^ 20 ≤ ccDsStream b) || decide (2 ^ 20 ≤ ccUsStream b) || decide (131071 < ccQueue b)
    || decide (ccPwBytes b < 32) || decide (1440 < ccPwBytes b) || decide (ccPlayout b < 250) || decide (32000 < ccPlayout b)
    || decide (beAt b 20 2 < 1) || decide (1000 < beAt b 20 2) || beAt b 22 10 != 0
    || (ccOn b && (decide (40000000 < d.circLoads c b ccDs) || decide (40000000 < d.circLoads c b ccUs)))

/-- Whether a queue lies under a service node bound to an allocation of a channel (R34). -/
def Dev.queueBound (d : Dev) (q n : Nat) : Bool :=
  let v := d.svcRec (d.svcOf q)
  bitOf (nodeExtra v) 15 && nodeParent v == 108 + n

/-- CIRC_CONFIG (R328). A circuit that is enabled or disabled starts afresh, every defect cleared with its event (R326, Table 11.5). -/
def circConfigBeh (c : Nat) (b : List Byte) : Beh :=
  beh (fun d => if circRange d c b then 0x0302 else 0)
    (fun d =>
      let old := d.circCfg c
      let same := patch b 0 (beBytes 1 (beAt b 0 1 % 128)) == patch old 0 (beBytes 1 (beAt old 0 1 % 128))
      firstAbort [(ccOn old && !same, 0x0401), (ccOn b && !d.queueBound (ccQueue b) (ccChannel b), 0x0401)])
    fun d =>
      let old := d.circCfg c
      .done (.all [
        putO .circConfig 0 c b,
        putN .circLoadDs 0 0 (d.circLoads c b ccDs), putN .circLoadUs 0 0 (d.circLoads c b ccUs),
        .when (ccOn old != ccOn b) [
          .each [0, 1, 3, 4, 5] fun k => circDefect c k false,
          .when (bitOf (d.num .circStatus 0 c) 6) [raise 196 c],
          circUpd c fun x => { Circ.none with lost := x.lost },
          putN .circStatus 0 c 0, circRdi (ccChannel b), timingCheck]]) []

/-- A write of CIRC_CONFIG. -/
def execCircConfigWrite (o : Origin) (c : Fin 2080) (b : List Byte) (s : State) : Host.Outcome State Fault Refusal :=
  s.run (serveWrite o .circConfig 0 c.val (.oct b) (circConfigBeh c.val b))

/-- CIRC_TIMING_SOURCE: a justified circuit, or none. -/
def circTimingSourceBeh (v : Nat) : Beh :=
  beh (fun _ => if v = 0xFFFF ∨ 2048 ≤ v ∧ v ≤ 2079 then 0 else 0x0302) (fun _ => 0)
    fun d => .done (.all [putN .circTimingSource 0 0 v,
      .when (v != d.num .circTimingSource) [circUpd v fun x => { x with lost := false }], timingCheck]) []

end Sys2Proof.Machine
end

