-- ==== Sys2Proof/Machine/Sched.lean ====
section
/-!
DEFINITION. What the scheduler sends (R479 to R483): the packet at the head of the chosen queue leaves for its port, its bundle or its host.
-/
namespace Sys2Proof.Machine

/-- A queue and its ancestors are charged (R481, R483). -/
def chargePath (q : Nat) (bytes : Int) : Prog :=
  .ask fun d =>
    let s := d.subOf q
    let v := d.svcOf q
    let p := d.portOf q
    .all [
      charge q (nodeRate (d.queueRec q)) (nodeBurst (d.queueRec q)) bytes,
      charge (subKey s) (nodeRate (d.subRec s)) (nodeBurst (d.subRec s)) bytes,
      charge (svcKey v) (nodeRate (d.svcRec v)) (nodeBurst (d.svcRec v)) bytes,
      charge (portKey p) (portNodeRate (d.portRec p)) (portNodeBurst (d.portRec p)) bytes]

/-- The packet at the head of a queue leaves it and is counted (Table 17.9); its cells return to their pools, and children left with nothing to send lose
their deficits (R481). -/
def takeHead (q : Nat) : Prog :=
  .ask fun d => match d.queue q with
    | [] => .skip
    | x :: r => .all [
        .eff (.tm fun t => { t with queues := SMap.put [] q r t.queues }),
        queueCount q fun c => { c with sent := satAdd 64 c.sent 1, bytes := satAdd 64 c.bytes x.data.length },
        poolCheck, settleDeficits (d.portOf q)]

/-- A packet for a host is scattered over the buffers of its ring (R188); one that would need more than 16 descriptors is dropped (R187). -/
def hostSend (link r : Nat) (x : QPkt) : Prog :=
  .ask fun d =>
    let g := d.ringSt r
    let l := (d.goodDescs r).take 16
    if (l.map descSize).sum < x.out.length then count .hifSlowpathDrops link
    else ringScatter r x.metaw (fun _ => .skip) (g.posted.length + 1) x.out

/-- The head packet goes to what its port node serves. Data read uncorrectable is marked on an Ethernet port (R385); elsewhere the packet is discarded. -/
def sendHead (p : Nat) (tc : Nat) (x : QPkt) : Prog :=
  .ask fun d =>
    if p < 96 then .eff (.port p fun y => { y with egress := y.egress ++ [x] })
    else if x.bad then .skip
    else if p < 108 then fabSend (p - 96) (d.fabClass (p - 96) tc x.colour) x.out
    else match x.ring with
      | some r => hostSend (p - 112) r x
      | none => .skip

/-- The egress stages of an Ethernet port hold two packets of the largest size, 16,383 bytes (R387): whether one more has its place. -/
def Dev.egressRoom (d : Dev) (p : Nat) (x : QPkt) : Bool :=
  decide (96 ≤ p) || decide ((((SMap.get PortSt.none d.ports p).egress.map fun y => y.out.length).sum) + x.out.length ≤ 2 * 16383)

/-- A read of a packet's cells from the SRAM buffer (R623): 0 clean, 1 corrected, 2 uncorrectable. -/
def bufRead (read : Nat) : Prog :=
  match read with
  | 0 => .skip
  | 1 => count .fltBufCorrected
  | _ => .all [count .fltBufUncorrectable, raise 487]

/-- A port node other than a fibre channel's may send (R481); `read` is the outcome of reading the packet's cells. In low-power idle a port
sends nothing (R380). -/
def execSchedulerDequeue (p : Fin 116) (read : Fin 3) (s : State) : Host.Outcome State Fault Refusal :=
  s.run (.ask fun d =>
    let asleep := decide (p.val < 96) && bitOf (d.num .portEeeState p.val) 1
    let fibre := decide (108 ≤ p.val) && decide (p.val < 112)
    .when (d.answers && d.num .pwrState == 0 && !asleep && !fibre) [settleDeficits p.val, .ask fun d =>
      match d.pickPort p.val none with
      | none => .skip
      | some c => match d.queue c.q with
        | [] => .skip
        | x :: _ => .when (d.egressRoom p.val x) [
            commitChoice c,
            chargePath c.q (x.data.length + d.overhead p.val),
            bufRead read.val,
            takeHead c.q,
            sendHead p.val (d.queueTc c.q) { x with bad := x.bad || read.val == 2 }]])

end Sys2Proof.Machine
end

