-- ==== Sys2Proof/Machine/Reset.lean ====
section
/-!
DEFINITION. Pins, straps, clocks, resets and crossings (R60 to R72, R76 to R107).
-/
namespace Sys2Proof.Machine

/-! ## RST_CAUSE (R90) -/

/-- A reset with a bit in Table 3.7 begins: every other bit but AON_POWER clears, unless another reset is still asserted. -/
def markCause (bit : Nat) : Prog :=
  .ask fun d =>
    let keep := if d.clk.devReset || d.clk.coreReset then d.num .rstCause else d.num .rstCause &&& 2
    .all [putN .rstCause 0 0 (putBit keep bit true), putN .rstCauseSticky 0 0 (putBit (d.num .rstCauseSticky) bit true)]

/-- RST_CAUSE_STICKY_READ: the value is sampled, then AON_POWER clears. -/
def stickyReadBeh (p : UPath) : Beh := .plain fun d => .done clearAon (pathBytes p 4 (d.num .rstCauseSticky))

/-- RST_CAUSE_STICKY_READ. -/
def execRstCauseStickyRead (o : Origin) (s : State) : Host.Outcome State Fault Refusal :=
  s.run (serve (elemReq o 1 .rstCauseSticky 0 0 (.num 0)) (stickyReadBeh o.path))

/-- A write of one clears a bit of RST_CAUSE_STICKY; bit [1] clears in RST_CAUSE too. Reserved bits are zero (R13). -/
def stickyWriteBeh (v : Nat) : Beh :=
  beh (fun _ => if v &&& 0xFE = v then 0 else 0x0302) (fun _ => 0) fun d => .done (.all [
    putN .rstCauseSticky 0 0 ((setBits 8 v).foldl (fun a k => putBit a k false) (d.num .rstCauseSticky)),
    .when (bitOf v 1) [clearAon]]) []

/-- RST_CAUSE_STICKY_WRITE. -/
def execRstCauseStickyWrite (o : Origin) (v : BitVec 32) (s : State) : Host.Outcome State Fault Refusal :=
  s.run (serveWrite o .rstCauseSticky 0 0 (.num v.toNat) (stickyWriteBeh v.toNat))

/-! ## Device-wide resets (Table 3.6) -/

/-- A device-wide reset begins. A debug session and a recorder freeze end with it (R607, R619); occurrences on their way are recorded. -/
def deviceReset (w : Wipe) (bit : Nat) : Prog :=
  .all [
    .ask fun d => .when (bitOf (d.num .secDebugState) 7) [raise 456],
    recordAll, endFreeze 5, markCause bit, .eff (.wipe w)]

/-- What the straps give as the device leaves reset: the links in use are down, not absent (R172), and with STRAP[7] = 1 every lane group is in
fabric personality, its ports absent and its bundle present. -/
def strapped : Prog :=
  .ask fun d => .all [
    .each (List.range d.bifur.1) fun n => putN .hifLinkState n 0 1,
    .when (bitOf (d.num .rstStraps) 7) [.each (List.range 12) fun g => .all [
      putN .lgPersonality g 0 1, putN .fabState g 0 0,
      .each (List.range 8) fun k => .all [putN .portState (8 * g + k) 0 1, putN .portMode (8 * g + k) 0 0]]]]

/-- The reset is released once nothing asserts it and the straps have been accepted; PWRREQ_N is asserted again, and event 1 carries RST_CAUSE. -/
def release : Prog :=
  .ask fun d => .when (d.clk.devReset && d.pins.porstN && d.pins.href && d.pins.straps.isEmpty && !d.clk.supplyHeld && !d.clk.hrefLost) [
    .eff (.clk fun c => { c with devReset := false }), .eff (.pins fun p => { p with pwrreqN := false }),
    strapped, raise 1 noInst 0 (d.num .rstCause)]

/-- POWER_ON_RESET: PORST_N low (Table 3.6, R111). -/
def execPowerOnReset (s : State) : Host.Outcome State Fault Refusal :=
  s.run (.all [
    .eff (.pins fun p => { p with porstN := false, aonOn := false, straps := [] }),
    markCause 2, .eff (.wipe .powerOn)])

/-- A strap value is accepted; the reserved BIFURCATION raises event 3 (R61). -/
def takeStraps (v : Nat) : Prog :=
  .all [putN .rstStraps 0 0 v, .eff (.pins fun p => { p with straps := [] }), release, .when (v % 4 == 3) [raise 3]]

/-- The samples are judged once the AON clock runs (R64): the value of the first pair that agrees is accepted; without one the sampling goes on to
STRAP_UNSTABLE. -/
def judgeStraps : Prog :=
  .ask fun d => .when (d.pins.porstN && d.pins.href) [
    match d.pins.straps.find? fun p => p.1 == p.2 with
    | some p => takeStraps p.1
    | none => .skip]

/-- HREF starts after a release of PORST_N that found it still (R64): the AON clock's first edge. -/
def hrefStarts : Prog :=
  .ask fun d => .when (d.pins.porstN && !d.pins.href && !d.clk.hrefLost) [
    .eff (.pins fun p => { p with href := true, aonOn := true }), judgeStraps]

/-- PORST_RELEASE (R64), with the eight pairs of samples of STRAP[7:0], first to last. Without HREF they wait for the AON clock. -/
def execPorstRelease (hrefRunning : Bool) (pairs : List (BitVec 8 × BitVec 8)) (s : State) : Host.Outcome State Fault Refusal :=
  s.runIf (pairs.length == 8) (.ask fun d => .when (!d.pins.porstN) [
    .eff (.pins fun p => { p with
      porstN := true, href := hrefRunning, aonOn := hrefRunning, straps := pairs.map fun x => (x.1.toNat, x.2.toNat) }),
    judgeStraps])

/-- STRAP_UNSTABLE (R64): eight pairs have disagreed, and the second sample of the eighth is taken; event 4. HREF, where it was still, has started
(log entry 6). -/
def execStrapUnstable (s : State) : Host.Outcome State Fault Refusal :=
  s.run (.seq hrefStarts (.ask fun d => match d.pins.straps.getLast? with
    | none => .skip
    | some p => .when (d.pins.porstN && d.pins.href) [takeStraps p.2, putN .rstStrapUnstable 0 0 1, raise 4]))

/-- SUPPLY_FAILURE (R72): PG_CORE falls while PORST_N is high; event 2. In Deep Sleep and Off, while PWRREQ_N is deasserted, PG_CORE is ignored (R111). -/
def execSupplyFailure (s : State) : Host.Outcome State Fault Refusal :=
  s.run (.ask fun d => .when (d.pins.porstN && !(decide (3 ≤ d.num .pwrState) && d.pins.pwrreqN)) [
    .eff (.pins fun p => { p with pgCore := false }),
    raise 2, deviceReset .supply 3,
    .eff (.clk fun c => { c with supplyHeld := true })])

/-- SUPPLY_FAILURE_RELEASE (R72): PG_CORE has been high for 1 ms with HREF running throughout. -/
def execSupplyFailureRelease (s : State) : Host.Outcome State Fault Refusal :=
  s.run (.ask fun d => .when (d.clk.supplyHeld && d.pins.href && !d.clk.hrefLost) [
    .eff (.pins fun p => { p with pgCore := true }),
    .eff (.clk fun c => { c with supplyHeld := false }), release])

/-- HREF_LOSS (R84, R86): bursts are cut, the laser-enable carriers drop and links fall silent; nothing runs until HREF returns. The monitor is
disarmed in Deep Sleep and Off. -/
def execHrefLoss (s : State) : Host.Outcome State Fault Refusal :=
  s.run (.ask fun d => .when (decide (d.num .pwrState < 3) && d.pins.porstN) [
    .eff (.pins fun p => { p with href := false, aonOn := false }),
    .eff (.clk fun c => { c with hrefLost := true }),
    .each (List.range 4) fun n => .eff (.fch n fun c => { c with burstOn := false, onAir := none })])

/-- HREF_LOSS_RESET (R88): HREF has run for 100,000 edges; event 0 is recorded at this reset. It stays asserted until SECURITY_ROM_START, as the
commanded and the security reset do, so that a reset that begins meanwhile joins its causes (R90; log entry 98). -/
def execHrefLossReset (s : State) : Host.Outcome State Fault Refusal :=
  s.run (.ask fun d => .when d.clk.hrefLost [
    deviceReset .logic 4,
    .eff (.pins fun p => { p with href := true, aonOn := true }),
    .eff (.clk fun c => { c with hrefLost := false }),
    raise 0])

/-- DEVICE_COMMAND_RESET (R93): the commanded reset begins, once its response has been sent or read or has waited 10 ms. -/
def execDeviceCommandReset (s : State) : Host.Outcome State Fault Refusal :=
  s.run (.ask fun d => .when d.clk.cmdReset.isSome [deviceReset .logic 5])

/-- A security escalation reset (R583); event 464 follows it, with CODE 1 for the watchdog and 2 for a lifecycle violation. -/
def escalate (cause : Nat) : Prog := .all [deviceReset .logic 7, raise 464 noInst cause]

/-- SEC_WATCHDOG_EXPIRY. -/
def execSecWatchdogExpiry (s : State) : Host.Outcome State Fault Refusal :=
  s.run (.ask fun d => .when (!d.clk.devReset) [escalate 1])

/-- LIFECYCLE_VIOLATION. -/
def execLifecycleViolation (s : State) : Host.Outcome State Fault Refusal :=
  s.run (.ask fun d => .when (!d.clk.devReset) [escalate 2])

/-- RST_DEVICE (R93): done is answered before the reset begins; event 7 names the requester. -/
def rstDeviceBeh (c : Call) (code : Nat) : Beh :=
  .plain fun _ => .done (.all [.eff (.clk fun x => { x with cmdReset := some c }), raise 7 noInst 0 (top16 code)]) []

/-- RST_DEVICE. -/
def execRstDevice (o : Origin) (s : State) : Host.Outcome State Fault Refusal :=
  s.run (serveExec o .rstDevice 0 0 true (.oct []) (rstDeviceBeh (elemReq o 3 .rstDevice 0 0 (.num 0)).call o.code.toNat))

/-! ## Instance resets (R94, R95) -/

/-- Whether an argument names an instance of Table 3.8. -/
def isInstance (arg : Nat) : Bool :=
  match arg / 256 with
  | 1 => decide (arg % 256 < 4)
  | 2 => decide (arg % 256 < 12)
  | 3 => decide (arg % 256 < 8)
  | 4 => arg % 256 == 0
  | 5 => arg % 256 == 0
  | _ => false

/-- A fibre complex in reset (R94, R216, R648): the outputs of Table 3.5 are forced, pending profile and key switches are cancelled, activation
restarts, and the receivers return to their defaults. The APD bias, the counters, the frame count and the performance data stay. -/
def resetFibre (n : Nat) : Prog :=
  .ask fun d => .all [
    .each (d.acts.filter fun a => (a.kind == 2 || a.kind == 3) && a.target == n) cancelAct,
    pllFree n, dmtLeave n 0 4, profilesOff n,
    putN .frmAlignState n 0 0, putN .frmDefects n 0 0,
    dropChains n, clearCtxs n, actInitial n,
    .eff (.fch n fun c => { c with
      rx := [], txq := [], inq := [], onAir := none, presync := 0, failRun := 0, outFrames := 0, area := [], areaAt := 0, areaBad := [] })]

/-- A circuit restarts with empty slip buffers (Table 3.8). -/
def restartCircuit (c : Nat) : Prog :=
  .eff (.circ c fun x => { Circ.none with pm := x.pm, lost := x.lost })

/-- What the reset of an instance also does (Table 3.8). -/
def resetInstance (kind n : Nat) : Prog :=
  match kind with
  | 1 => resetFibre n
  | 2 => .ask fun d => .all [
      .each (List.range 8) fun k => .when (decide (2 ≤ d.num .portState (8 * n + k))) [portTo (8 * n + k) 2 5],
      .when (decide (2 ≤ d.num .fabState n)) [fabTo n 2 9 0]]
  | 3 => dramFail n 5 true
  | 4 => .ask fun d => .each (d.circ.map (·.1)) restartCircuit
  | 5 => .ask fun d => .each d.sessions laEnd
  | _ => .skip

/-- A pending gate-list switch targets a port node of a lane group (R94). -/
def Dev.gateSwitchOn (d : Dev) (g : Nat) : Bool :=
  d.acts.any fun a => a.kind == 6 && ((decide (8 * g ≤ a.target) && decide (a.target < 8 * g + 8)) || a.target == 96 + g)

/-- The clock domains in the scope of an instance (Tables 1.1 and 3.8). -/
def domainsOfInst (kind n : Nat) : List Nat :=
  match kind with
  | 1 => [8 + n, 12 + n, 16 + n, 20 + n]
  | 2 => [24 + n]
  | 3 => [36 + n]
  | 4 => [54]
  | 5 => [51]
  | _ => []

/-- A reset reaches blocks (R95, R104): a closed gate is opened for it, and a drain is abandoned. -/
def Clk.gatesOpened (ks : List Nat) (c : Clk) : Clk :=
  { c with gates := ks.foldl (fun m k =>
    if SMap.get 0 m k = 2 then SMap.put 0 k 3 m else if SMap.get 0 m k = 1 then SMap.put 0 k 4 m else m) c.gates }

/-- The reset has left them (R95): a gate opened for it closes again, and a drain that an entry still needs begins anew. -/
def Clk.gatesClosed (ks : List Nat) (c : Clk) : Clk :=
  { c with gates := ks.foldl (fun m k =>
    if SMap.get 0 m k = 3 then SMap.put 0 k 2 m else if SMap.get 0 m k = 4 then SMap.put 0 k 1 m else m) c.gates }

def openGates (ks : List Nat) : Prog := .eff (.clk (Clk.gatesOpened ks))
def closeGates (ks : List Nat) : Prog := .eff (.clk (Clk.gatesClosed ks))

/-- RST_INSTANCE (R94). The crossings of the instance close; `lost` transactions are discarded and counted, with event 16 (R96). Event 7 names the
requester and the argument. -/
def rstInstanceBeh (code arg lost : Nat) : Beh :=
  beh (fun _ => if isInstance arg then 0 else 0x0302)
    (fun d => firstAbort [(arg / 256 == 2 && d.gateSwitchOn (arg % 256), 0x0501), (d.clk.insts.contains arg, 0x0402)])
    fun _ => .done (.all [
      resetInstance (arg / 256) (arg % 256),
      .eff (.clk fun c => { c with insts := c.insts ++ [arg] }),
      openGates (domainsOfInst (arg / 256) (arg % 256)),
      closeScope arg lost,
      raise 7 noInst 0 (code % 65536 * 65536 + arg)]) []

/-- RST_INSTANCE. -/
def execRstInstance (o : Origin) (arg : BitVec 16) (lost : BitVec 32) (s : State) : Host.Outcome State Fault Refusal :=
  s.run (serveExec o .rstInstance 0 0 true (.num arg.toNat) (rstInstanceBeh o.code.toNat arg.toNat lost.toNat))

/-- What an instance does as it leaves reset: a ready fibre channel searches and listens again (R216), and an enabled DRAM channel retrains. -/
def restartInstance (kind n : Nat) : Prog :=
  .ask fun d =>
    if kind = 1 then .when (d.num .feState n == 2) [
      putN .dmtState n 0 1, .when (d.num .actState n == 0) [actTo n 1 4]]
    else if kind = 3 then .when (d.num .dramState n == 6 && d.num .dramEnable n == 1) [dramTrain n]
    else .skip

/-- INSTANCE_RESET_RELEASE (R95). No event is raised: event 1 is for the resets that have a cause in Table 3.7 (DESIGN CHOICE, log entry 99). -/
def execInstanceResetRelease (kind num : BitVec 8) (s : State) : Host.Outcome State Fault Refusal :=
  let k := kind.toNat * 256 + num.toNat
  s.run (.ask fun d => .when (d.clk.insts.contains k) [
    .eff (.clk fun c => { c with insts := c.insts.erase k }), closeGates (domainsOfInst kind.toNat num.toNat),
    restartInstance kind.toNat num.toNat])

/-- Whether both sides of a scope's crossings are out of reset (R98): the instance, the management cores (kinds 0 to 6), the link (kind 7, and 8 to
11 for a function of link kind − 8). -/
def Dev.sidesUp (d : Dev) (k : Nat) : Bool :=
  !d.clk.devReset && !d.clk.insts.contains k && (decide (0x700 ≤ k) || !d.clk.coreReset)
    && !(k / 256 == 7 && !(d.lnk (k % 256)).perstN) && !(k / 256 == 8 && !(d.lnk (k % 256 / 64)).perstN)

/-- CROSSING_OPEN (R98): both sides have left reset and exchanged their tokens. Kind 0 stands for the crossings of a device-wide reset, 6 for the
management cores', 7 for link num's, 8 for those of function num % 64 of link num / 64. -/
def execCrossingOpen (kind num : BitVec 8) (s : State) : Host.Outcome State Fault Refusal :=
  let k := kind.toNat * 256 + num.toNat
  s.run (.ask fun d => .when (d.sidesUp k) [.eff (.clk fun c => { c with closed := c.closed.erase k })])

/-- A transaction has timed out (R99): XING_TIMEOUTS and event 17. -/
def timedOut : Prog := .all [count .xingTimeouts, raise 17]

/-- CROSSING_TIMEOUT (R99, Table 3.9). A Umani request, held at a gate (R105) or not, ends in abort 0x0701; a DRAM channel behind the crossing
fails. A BAR read completes poisoned and a BAR write is lost, both with AER's report; a ring stops in error; a packet is dropped. -/
def execCrossingTimeout (x : XTimeout) (s : State) : Host.Outcome State Fault Refusal :=
  s.run (match x with
    | .umani o index sub op =>
      let c : Call := ⟨o, op.toNat, index.toNat, sub.toNat⟩
      arriveIf (fun _ => true) c (.all [
        timedOut,
        .when (decide (0x9010 ≤ index.toNat ∧ index.toNat < 0x9090)) [dramFail ((index.toNat - 0x9010) / 16) 4 false],
        respond c 0x0701 []])
    | .barRead l f => tlp l.val f.val [
        timedOut, send .busError (fnKey l.val f.val) 0 (List.replicate 4 255), raise (64 + 16 * l.val + 4) l.val]
    | .barWrite l f => tlp l.val f.val [timedOut, count .xingClosedDiscards, raise (64 + 16 * l.val + 4) l.val]
    | .dma r => .ask fun d => .when (d.answers && (d.ringSt r.val).state == 1) [timedOut, ringError r.val 5]
    | .cell id => .ask fun d => .when (d.answers && (d.fwd.waiting ++ d.fwd.flight).any fun p => p.id == id && p.done.isNone) [
        timedOut, voidPacket id])

/-! ## The management cores (R91, R92) -/

/-- CORE_WATCHDOG_EXPIRY: event 6. Requests in progress get no answer; block transfers and what paths keep are lost with the dictionary server. -/
def execCoreWatchdogExpiry (lost : BitVec 32) (s : State) : Host.Outcome State Fault Refusal :=
  s.run (.ask fun d => .when (d.answers && !d.clk.coreReset) [
    markCause 6, raise 6,
    .eff (.clk fun c => { c with coreReset := true, held := [] }), openGates [1], closeScope 0x600 lost.toNat,
    .eff (.dropPaths fun _ => true), .eff (.bws fun _ => []), .eff (.bcs fun _ => []), .eff (.i2c fun _ => []),
    .each (d.fns.map (·.1)) fun k => .eff (.fn k fun y => { y with busy := 0 })])

/-- CORE_WATCHDOG_RESET_RELEASE: event 1 carries RST_CAUSE. -/
def execCoreWatchdogResetRelease (s : State) : Host.Outcome State Fault Refusal :=
  s.run (.ask fun d => .when d.clk.coreReset [
    .eff (.clk fun c => { c with coreReset := false }), closeGates [1], raise 1 noInst 0 (d.num .rstCause)])

/-- TAP_RESET (R91): the JTAG TAP controller alone. `tck` is the rate of TCK in kHz at the pin, 0 while it does not run (R78). -/
def execTapReset (tck : Fin 50001) (s : State) : Host.Outcome State Fault Refusal :=
  s.run (.eff (.clk fun c => { c with tapReset := true, tck := tck.val }))

/-! ## Clocks (R77 to R89) -/

/-- RECOVERED_REF_LOSS (R85, Table 3.5). -/
def execRecoveredRefLoss (n : Fin 4) (s : State) : Host.Outcome State Fault Refusal :=
  s.run (.ask fun d => .when d.answers [refLost n.val])

/-- PLL_LOCKED (R80, R81): the frequency offset to the reference is zero. Fibre PLL n reaches Locked with event 12 + n; 4 is the timing PLL. -/
def execPllLocked (n : Fin 5) (s : State) : Host.Outcome State Fault Refusal :=
  s.run (.ask fun d =>
    if n.val = 4 then .when (d.answers && d.num .clkTimingState == 1) [
      timingTo 2, .eff (.clk fun c => { c with timPll := d.refOffset (d.num .clkTimingChannel) })]
    else .when (d.answers && d.num .clkFchState 0 n.val == 1) [
      putN .clkFchState 0 n.val 2, .eff (.fch n.val fun c => { c with pll := d.refOffset n.val }), raise (12 + n.val) n.val, timingFallback, holdCheck n.val])

/-- Whether an offset is one measured outside ±300 ppm. -/
def outside300 (v : Nat) : Bool := v != 0x80000000 && decide (300000 < (toInt 32 v).natAbs)

/-- HREF_OFFSET_ALARM (R77): while the timing PLL is Locked the offset is measured; event 5 is raised when it leaves ±300 ppm, and not again
before it has been inside or unmeasured (DEDUCED from "leaves", log entry 100). -/
def execHrefOffsetAlarm (offset : BitVec 32) (s : State) : Host.Outcome State Fault Refusal :=
  s.run (.ask fun d => .when (d.answers && d.num .clkTimingState == 2) [
    putN .clkHrefOffset 0 0 offset.toNat,
    .when (outside300 offset.toNat && !outside300 (d.num .clkHrefOffset)) [raise 5]])

/-- CLK_TIMING_CHANNEL (R79). -/
def timingChannelBeh (v : Nat) : Beh :=
  beh (fun _ => if 3 < v then 0x0302 else 0)
    (fun d => if d.num .feEnable v ≠ 1 then 0x0401 else 0)
    fun d => .done (.when (v != d.num .clkTimingChannel) [
      if (d.ch v).refValid then .all [putN .clkTimingChannel 0 0 v, timingTo 1]
      else .all [timingHold (d.num .clkTimingChannel), setSync false, putN .clkTimingChannel 0 0 v, timingFallback]]) []

/-- CLK_TIMING_FALLBACK: it applies while the timing channel stays lost (R89). -/
def timingFallbackBeh (v : Nat) : Beh := .plain fun _ => .done (.all [putN .clkTimingFallback 0 0 v, timingFallback]) []

/-- CLK_TIMING_CHANNEL_WRITE. -/
def execClkTimingChannelWrite (o : Origin) (v : BitVec 8) (s : State) : Host.Outcome State Fault Refusal :=
  s.run (serveWrite o .clkTimingChannel 0 0 (.num v.toNat) (timingChannelBeh v.toNat))

end Sys2Proof.Machine
end

