-- ==== Sys2Proof/Machine/Security.lean ====
section
/-!
DEFINITION. Security (R579 to R610): OTP, lifecycle, image checks, the key ladder, attestation, authorisation and debug.
-/
namespace Sys2Proof.Machine

/-! ## Shared -/

/-- A digest of 48 bytes. -/
def sha (b : List Byte) : List Byte := padTo 48 (Config.sha384 b)

/-- The private identity key (R594). In Returned the key ladder derives nothing (R582). -/
def Dev.idKey (d : Dev) : List Byte := Config.identityKey (d.otpBytes 0 32)

/-- The identity public key, x then y. -/
def Dev.idPub (d : Dev) : List Byte := if d.lifecycle = 3 then zeros 96 else padTo 96 (Config.ecdsaPublic d.idKey)

/-- The terminal ID (R594): the first eight bytes of the digest of the uncompressed point. -/
def Dev.terminalId (d : Dev) : Nat := if d.lifecycle = 3 then 0 else beAt (sha (0x04 :: d.idPub)) 0 8

/-- The device LMS public key (R595) as RFC 8554 encodes it: types LMS_SHA256_M32_H20 and LMOTS_SHA256_N32_W8, I, and the root. -/
def Dev.lmsPub (d : Dev) : List Byte :=
  if d.lifecycle = 3 then zeros 56
  else beBytes 4 8 ++ beBytes 4 4 ++ d.otpBytes 0x40 16 ++ padTo 32 (Config.lmsRoot (d.otpBytes 0x20 32) (d.otpBytes 0x40 16))

/-- `n` random bytes from a free value. -/
def randomBytes (n k : Nat) : List Byte := beBytes n (Config.freeValue k)

/-- The last moment of a validity of `secs` seconds, in front of what it holds. -/
def Dev.stamped (d : Dev) (secs : Nat) (b : List Byte) : List Byte := beBytes 6 (d.tim.secs + secs) ++ beBytes 4 d.tim.ns ++ b

/-- Whether a stamped value is present and still valid. -/
def Dev.stillValid (d : Dev) (b : List Byte) : Bool := !b.isEmpty && timeLe d.tim.secs d.tim.ns (beAt b 0 6) (beAt b 6 4)

/-! ## Programming OTP (R580) -/

/-- Bits that may be programmed once LIFECYCLE bit [0] is set: VENDOR_REVOKE, LIFECYCLE, OWNER_STATE, ROLLBACK, OWNER_KEYS, LMS_RESERVE. -/
def otpOpen (k : Nat) : Bool :=
  let b := k / 8
  (0x1E0 ≤ b && b < 0x1E3) || (0x1F0 ≤ b && b < 0x260) || (0x300 ≤ b && b < 0x380)

/-- The bits of a list still to be programmed. -/
def Dev.otpTodo (d : Dev) (bits : List Nat) : List Nat :=
  bits.filter fun k => !bitOf d.otp k && (!d.otpBit 0x1E1 0 || otpOpen k)

/-- The first bit of a list that does not read back as 1 after three attempts, if any. -/
def Dev.otpFailing (d : Dev) (fails : List (BitVec 15)) (bits : List Nat) : Option Nat :=
  (d.otpTodo bits).find? fun k => fails.any fun f => f.toNat == k

/-- Bits are programmed one at a time up to the first program failure, which is counted and raises event 462. -/
def otpProgram (fails : List (BitVec 15)) (bits : List Nat) : Prog :=
  .ask fun d => .all [
    .each ((d.otpTodo bits).takeWhile fun k => some k != d.otpFailing fails bits) fun k => .eff (.burn (2 ^ k)),
    .when (d.otpFailing fails bits).isSome [count .secOtpFails, raise 462]]

/-- The bits of bytes that go to a place of OTP. -/
def otpBitsOf (off : Nat) (b : List Byte) : List Nat := (setBits (8 * b.length) (leNat b)).map (· + 8 * off)

/-- A reply of a command that programs bits: done with `p` after them, or abort 0x0701 on a program failure. -/
def Dev.otpReply (d : Dev) (fails : List (BitVec 15)) (bits : List Nat) (p : Prog) : Reply :=
  if (d.otpFailing fails bits).isSome then .abort 0x0701 (otpProgram fails bits)
  else .done (.seq (otpProgram fails bits) p) []

/-! ## Firmware images (R589, R590) -/

/-- Bytes of an image region; what is not programmed reads as erased. -/
def flashAt (b : List Byte) (off n : Nat) : List Byte :=
  let x := slice b off n
  x ++ List.replicate (n - x.length) 0xFF

/-- A number in an image header. -/
def flashNum (b : List Byte) (off n : Nat) : Nat := beNat (flashAt b off n)

/-- The largest stage image of a kind, signatures included (R584). -/
def stageLimit (kind : Nat) : Nat := if kind = 1 then 917504 else 8388608

/-- The signed bytes of a stage image. -/
def stageSigned (b : List Byte) : List Byte := flashAt b 0 (flashNum b 8 4)

/-- The size of a stage image with its signature block. -/
def stageSize (b : List Byte) : Nat := flashNum b 8 4 + 104 + flashNum b (flashNum b 8 4 + 100) 4

/-- Check 1 of Table 21.7. `room` is the size of the region or of the host's image. -/
def stageShape (kind room : Nat) (b : List Byte) : Bool :=
  let sl := flashNum b 8 4
  flashNum b 0 4 == 0x4B594657 && flashNum b 4 2 == 1 && flashNum b 6 1 == kind && decide (260 ≤ sl) && sl % 4 == 0 &&
    decide (sl ≤ stageLimit kind) && flashNum b sl 4 == 96 && flashNum b (sl + 100) 4 != 0 &&
    decide (stageSize b ≤ stageLimit kind) && decide (stageSize b ≤ room)

/-- Check 2: the vendor key slot, and for a stage 2 the slot of the stage 1 that loads it. -/
def Dev.stageKeys (d : Dev) (b : List Byte) (loader : Option Nat) : Bool :=
  let k := flashNum b 7 1
  decide (k < 4) && (loader.isNone || loader == some k) && !d.otpBit 0x1E0 k &&
    sha (flashAt b 32 96) ++ sha (flashAt b 128 56) == d.otpBytes (0x60 + 96 * k) 96

/-- The reason of Table 21.7 for which an image is rejected; 0 for none. -/
def Dev.stageReason (d : Dev) (kind room : Nat) (b : List Byte) (loader : Option Nat) : Nat :=
  if !stageShape kind room b then 1
  else if !d.stageKeys b loader then 2
  else if flashNum b 24 8 ≠ 0 ∧ flashNum b 24 8 ≠ d.terminalId then 3
  else if 128 < flashNum b 20 1 ∨ flashNum b 20 1 < d.rollback then 4
  else
    let sl := flashNum b 8 4
    if !Config.ecdsaVerifies (flashAt b 32 96) (sha (stageSigned b)) (flashAt b (sl + 4) 96) then 5
    else if !Config.lmsVerifies (flashAt b 128 56) (stageSigned b) (flashAt b (sl + 104) (flashNum b (sl + 100) 4)) then 6
    else 0

/-- A slot of the boot flash. -/
def Dev.flashSlot (d : Dev) (s : Nat) : FlashSlot := if s = 0 then d.sec.slotA else d.sec.slotB

/-- A slot of the boot flash is replaced. -/
def setFlash (s : Nat) (f : FlashSlot → FlashSlot) : Prog :=
  .eff (.sec fun x => if s = 0 then { x with slotA := f x.slotA } else { x with slotB := f x.slotB })

/-- The sizes of the stage regions of a slot (R584). -/
def regionSize (kind : Nat) : Nat := if kind = 1 then 0x100000 else 0xEFF000

/-- The reason for which a slot's stages are rejected; 0 when both pass. -/
def Dev.slotReason (d : Dev) (f : FlashSlot) : Nat :=
  let r := d.stageReason 1 (regionSize 1) f.stage1 none
  if r ≠ 0 then r else d.stageReason 2 (regionSize 2) f.stage2 (some (flashNum f.stage1 7 1))

/-- The directory page that prefers a slot (R584). -/
def directory (s : Nat) : List Byte :=
  let h := beBytes 4 0x4B594452 ++ beBytes 1 s ++ zeros 7
  h ++ beBytes 4 (crc32c h)

/-- The slot the directory prefers; slot A when any check fails. Its reserved bytes are ignored (R11). -/
def Dev.preferred (d : Dev) : Nat :=
  let p := d.sec.dir
  if beAt p 0 4 = 0x4B594452 ∧ beAt p 4 1 = 1 ∧ slice p 12 4 = beBytes 4 (crc32c (p.take 12)) then 1 else 0

/-- TRNG_HEALTH_FAIL (R608). -/
def execTrngHealthFail (s : State) : Host.Outcome State Fault Refusal :=
  s.run (.ask fun d => .when (d.answers && !d.sec.trngOff) [.eff (.sec fun x => { x with trngOff := true }), raise 466])

/-! ## Flash programming (R593) -/

/-- SEC_FLASH_PROGRAM: HOST_ADDR (8), LENGTH (4), SLOT (1), reserved (3). -/
def flashProgramBeh (c : Call) (code : Nat) (b : List Byte) : Beh :=
  let len := beAt b 8 4
  let slot := beAt b 12 1
  beh (fun _ => if 0x08000000 < len ∨ 1 < slot ∨ beAt b 13 3 ≠ 0 then 0x0302 else 0)
    (fun d => firstAbort [
      (!(isHost code && hostFn code == 0 && (d.fn (hostKey code)).live), 0x0401),
      (d.num .secBootSlot == slot, 0x0401),
      (d.sec.prog.isSome, 0x0402)])
    fun _ => .later (.eff (.sec fun x => { x with prog := some (c, slot, len) }))

/-- SEC_FLASH_PROGRAM. -/
def execSecFlashProgram (o : Origin) (arg : List Byte) (s : State) : Host.Outcome State Fault Refusal :=
  s.run (serveExec o .secFlashProgram 0 0 (arg.length == 16) (.oct arg)
    (flashProgramBeh (elemReq o 3 .secFlashProgram 0 0 (.num 0)).call o.code.toNat arg))

/-- A slot erased and written with an image, its page at 0x00FF_F000 left out. -/
def slotImage (b : List Byte) : FlashSlot := ⟨slice b 0 0x100000, slice b 0x100000 0xEFF000, b.drop 0x1000000⟩

/-- FLASH_PROGRAM_COMPLETE: both stages are read back and checked. The directory prefers the slot on success; on failure the stage-1 header
is erased. A failed fetch writes nothing and is a hardware fault. -/
def execFlashProgramComplete (image : List Byte) (fetched : Bool) (s : State) : Host.Outcome State Fault Refusal :=
  s.run (live (.ask fun d => match d.sec.prog with
    | none => .skip
    | some (c, slot, len) => .when (!fetched || image.length == len) [
        .eff (.sec fun x => { x with prog := none }),
        if !fetched then respond c 0x0701 []
        else
          let f := slotImage image
          let r := d.slotReason f
          .all [
            setFlash slot fun _ => if r = 0 then f else { f with stage1 := patch f.stage1 0 (List.replicate 256 0xFF) },
            .when (r == 0) [.eff (.sec fun x => { x with dir := directory slot })],
            raise 467 noInst 0 (top8 r),
            respond c 0 (beBytes 1 r)]]))

/-! ## Authorisation (R601 to R603) -/

/-- SEC_CHALLENGE is read: 32 bytes from the TRNG become the requester's challenge for 60 s. -/
def challengeBeh (code : Nat) : Beh :=
  .plain fun d => if d.sec.trngOff then .abort 0x0701 .skip else
    let r := randomBytes 32 d.free
    .done (.all [.eff .draw, .eff (.sec fun x => { x with chal := SMap.put [] code (d.stamped 60 r) x.chal })]) r

/-- SEC_CHALLENGE_READ. -/
def execSecChallengeRead (o : Origin) (s : State) : Host.Outcome State Fault Refusal :=
  s.run (serve (elemReq o 1 .secChallenge 0 0 (.num 0)) (challengeBeh o.code.toNat))

/-- Check 1 of R603: header, then both signatures as Table 5.10 lays them out. -/
def recordShape (b : List Byte) : Bool :=
  decide (304 ≤ b.length) && beAt b 200 4 == 96 && decide (1 ≤ beAt b 300 4) && decide (beAt b 300 4 ≤ 9324) &&
    b.length == 304 + beAt b 300 4

/-- Check 2: no reserved value, an LMS key of a registered parameter set, and the command's PURPOSE. -/
def recordValues (b : List Byte) (purpose : Nat) : Bool :=
  beAt b 0 1 == purpose && (beAt b 1 1 == 1 || beAt b 1 1 == 2) && beAt b 2 2 == 0 &&
    decide (beAt b 4 4 < (if purpose = 3 then 8 else 1)) &&
    decide (5 ≤ beAt b 144 4 ∧ beAt b 144 4 ≤ 9) && decide (1 ≤ beAt b 148 4 ∧ beAt b 148 4 ≤ 4)

/-- Check 3: Table 21.10. -/
def Dev.signerPermitted (d : Dev) (purpose signer level : Nat) : Bool :=
  let l := d.lifecycle
  let owner := d.ownerEnrolled
  match purpose with
  | 1 => signer == 1 && (l == 1 || (l == 2 && !owner))
  | 2 => signer == 1 && l == 2 && owner && !d.ownerLocked
  | 3 => if signer = 1 then l == 2 && owner && decide (level < 4)
      else l == 0 || l == 3 || ((l == 1 || (l == 2 && !owner)) && decide (level < 4))
  | 4 => (l == 1 || l == 2) && signer == (if owner then 1 else 2)
  | 5 => signer == 1 && d.ownerLocked
  | 6 => signer == 2 && l == 0
  | _ => false

/-- The digests of a record's keys. -/
def recordKeys (b : List Byte) : List Byte := sha (slice b 48 96) ++ sha (slice b 144 56)

/-- Check 5: the keys equal OTP's (for PURPOSE 1 they are the record's own), and both signatures verify. -/
def Dev.recordSigned (d : Dev) (b : List Byte) (purpose : Nat) : Bool :=
  (purpose == 1 || recordKeys b == d.otpBytes (if beAt b 1 1 = 1 then 0x200 else 0x260) 96) &&
    Config.ecdsaVerifies (slice b 48 96) (sha (b.take 200)) (slice b 204 96) &&
    Config.lmsVerifies (slice b 144 56) (b.take 200) (b.drop 304)

/-- The first abort of R603 for a requester's staged record. -/
def Dev.recordAbort (d : Dev) (code purpose : Nat) : Nat :=
  let b := SMap.get [] d.sec.stage code
  let ch := SMap.get [] d.sec.chal code
  if !recordShape b then 0x0301
  else if !recordValues b purpose then 0x0302
  else if !d.signerPermitted purpose (beAt b 1 1) (beAt b 4 4) then 0x0401
  else if beAt b 8 8 ≠ d.num .idTerminal ∨ d.stillValid ch = false ∨ slice b 16 32 ≠ ch.drop 10 then 0x0601
  else if !d.recordSigned b purpose then 0x0602
  else 0

/-- An authorised command: it consumes the requester's staged record and challenge whether it succeeds or fails. -/
def authorised (code purpose : Nat) (act : Dev → List Byte → Reply) : Dev → Reply := fun d =>
  let used := Prog.eff (.sec fun x => { x with stage := SMap.put [] code [] x.stage, chal := SMap.put [] code [] x.chal })
  let a := d.recordAbort code purpose
  if a ≠ 0 then .abort a (.all [used, .when (a == 0x0601 || a == 0x0602) [count .secAuthFails, raise 457]])
  else match act d (SMap.get [] d.sec.stage code) with
    | .done p data => .done (.seq used p) data
    | .abort x p => .abort x (.seq used p)
    | .later p => .later (.seq used p)

/-! ## Lifecycle, rollback and owner (R582, R592, R604, R605) -/

/-- The lifecycle has changed: event 454. In Returned every key-ladder slot is empty. -/
def lifecycleEntered (l : Nat) : Prog := .all [.when (l == 3) [dropKeks fun _ => true], raise 454]

/-- SEC_LIFECYCLE_ADVANCE. -/
def lifecycleBeh (code target : Nat) (fails : List (BitVec 15)) : Beh :=
  let bit := 8 * 0x1E1 + (target - 1)
  beh (fun _ => if 3 < target then 0x0302 else 0)
    (fun d => if target ≤ d.lifecycle ∨ target = 2 ∧ d.lifecycle ≠ 1 then 0x0401 else 0)
    fun d =>
      if target = 2 then d.otpReply fails [bit] (lifecycleEntered 2)
      else authorised code (if target = 1 then 6 else 4) (fun e _ => e.otpReply fails [bit] (lifecycleEntered target)) d

/-- SEC_LIFECYCLE_ADVANCE. -/
def execSecLifecycleAdvance (o : Origin) (target : BitVec 8) (fails : List (BitVec 15)) (s : State) :
    Host.Outcome State Fault Refusal :=
  s.run (serveExec o .secLifecycleAdvance 0 0 true (.num target.toNat) (lifecycleBeh o.code.toNat target.toNat fails))

/-- The lowest clear bits of ROLLBACK that bring SEC_ROLLBACK to a value. -/
def Dev.rollbackBits (d : Dev) (v : Nat) : List Nat :=
  (((List.range 128).filter fun k => !d.otpBit 0x1F0 k).take (v - d.rollback)).map (· + 8 * 0x1F0)

/-- SEC_ROLLBACK_COMMIT. -/
def rollbackBeh (v : Nat) (fails : List (BitVec 15)) : Beh :=
  beh (fun d => if flashNum d.sec.run1 20 1 < v ∨ flashNum d.sec.run2 20 1 < v then 0x0302 else 0) (fun _ => 0)
    fun d => if v ≤ d.rollback then .done .skip [] else d.otpReply fails (d.rollbackBits v) (raise 451)

/-- SEC_ROLLBACK_COMMIT. -/
def execSecRollbackCommit (o : Origin) (v : BitVec 8) (fails : List (BitVec 15)) (s : State) : Host.Outcome State Fault Refusal :=
  s.run (serveExec o .secRollbackCommit 0 0 true (.num v.toNat) (rollbackBeh v.toNat fails))

/-- SEC_OWNER_ENROL: the key digests, from Provisioned LIFECYCLE bit [1], and OWNER_STATE bit [0] last, so that a program failure leaves no owner. -/
def enrolBeh (code : Nat) (fails : List (BitVec 15)) : Beh :=
  .plain (authorised code 1 fun d b =>
    let bits := otpBitsOf 0x200 (recordKeys b) ++ (if d.lifecycle = 1 then [8 * 0x1E1 + 1] else []) ++ [8 * 0x1E2]
    let moved := Prog.ask fun e => .when (e.lifecycle != d.lifecycle) [lifecycleEntered 2]
    if (d.otpFailing fails bits).isSome then .abort 0x0701 (.seq (otpProgram fails bits) moved)
    else .done (.all [otpProgram fails bits, raise 452, moved]) [])

/-- SEC_OWNER_ENROL. -/
def execSecOwnerEnrol (o : Origin) (fails : List (BitVec 15)) (s : State) : Host.Outcome State Fault Refusal :=
  s.run (serveExec o .secOwnerEnrol 0 0 true (.oct []) (enrolBeh o.code.toNat fails))

/-- SEC_OWNER_LOCK: OWNER_STATE bit [1]. -/
def ownerLockBeh (code : Nat) (fails : List (BitVec 15)) : Beh :=
  .plain (authorised code 2 fun d _ => d.otpReply fails [8 * 0x1E2 + 1] (raise 453))

/-- SEC_OWNER_LOCK. -/
def execSecOwnerLock (o : Origin) (fails : List (BitVec 15)) (s : State) : Host.Outcome State Fault Refusal :=
  s.run (serveExec o .secOwnerLock 0 0 true (.oct []) (ownerLockBeh o.code.toNat fails))

/-! ## Tokens and debug (R606, R607) -/

/-- A 16-byte token, valid for 10 s and bound to the requester. -/
def issueToken (code : Nat) (d : Dev) : Reply :=
  if d.sec.trngOff then .abort 0x0701 .skip else
    let t := randomBytes 16 d.free
    .done (.all [.eff .draw, .eff (.sec fun x => { x with tokens := SMap.put [] code (d.stamped 10 t) x.tokens })]) t

/-- SEC_AUTH_ISSUE: without owner lock it needs no record and is executable by H and L. -/
def authIssueBeh (code : Nat) : Beh :=
  ⟨fun d => if !d.ownerLocked && code == 0x0400 then 0x0201 else 0, fun _ => 0,
    fun d => if d.ownerLocked then authorised code 5 (fun e _ => issueToken code e) d else issueToken code d, fun _ _ _ => .skip⟩

/-- SEC_AUTH_ISSUE. -/
def execSecAuthIssue (o : Origin) (s : State) : Host.Outcome State Fault Refusal :=
  s.run (serveExec o .secAuthIssue 0 0 true (.oct []) (authIssueBeh o.code.toNat))

/-- SEC_DEBUG_UNLOCK: the record's LEVEL; event 455 names the level and the signer. Refused with the strap DEBUG_REQ = 0. -/
def debugUnlockBeh (code : Nat) : Beh :=
  beh (fun _ => 0) (fun d => if bitOf (d.num .rstStraps) 3 then 0 else 0x0401)
    (authorised code 3 fun _ b => .done (.all [
      putN .secDebugState 0 0 (128 + beAt b 4 4), raise 455 noInst 0 (top8 (beAt b 4 4) + beAt b 1 1 * 65536)]) [])

/-- SEC_DEBUG_UNLOCK. -/
def execSecDebugUnlock (o : Origin) (s : State) : Host.Outcome State Fault Refusal :=
  s.run (serveExec o .secDebugUnlock 0 0 true (.oct []) (debugUnlockBeh o.code.toNat))

/-- SEC_DEBUG_END: no effect without a session. -/
def debugEndBeh : Beh :=
  .plain fun d => .done (.when (bitOf (d.num .secDebugState) 7) [putN .secDebugState 0 0 0, raise 456]) []

/-- SEC_DEBUG_END. -/
def execSecDebugEnd (o : Origin) (s : State) : Host.Outcome State Fault Refusal :=
  s.run (serveExec o .secDebugEnd 0 0 true (.oct []) debugEndBeh)

/-! ## The key ladder (R596, R597) -/

/-- The creator of a loaded key-ladder slot. -/
def Dev.kekCreator (d : Dev) (slot : Nat) : Option Nat :=
  if d.kekLoaded slot then some (beAt (d.oct .secKekState) (3 * slot + 1) 2) else none

/-- SEC_KEK_AGREE: SLOT (1), reserved (3), PEER_PUB (96). -/
def kekAgreeBeh (code : Nat) (b : List Byte) : Beh :=
  let slot := beAt b 0 1
  let peer := slice b 4 96
  beh (fun _ => if slot = 0 ∨ 15 < slot ∨ beAt b 1 3 ≠ 0 ∨ Config.onCurve peer = false then 0x0302 else 0)
    (fun d => firstAbort [
      (d.lifecycle == 0 || d.lifecycle == 3 || d.secSuspended || (isHost code && !(d.fn (hostKey code)).live), 0x0401),
      (match d.kekCreator slot with
        | some k => k != code
        | none => false, 0x0402)])
    fun d => if d.sec.trngOff then .abort 0x0701 .skip else
      let priv := randomBytes 48 d.free
      let pub := padTo 96 (Config.ecdsaPublic priv)
      let who := beBytes 8 (d.num .idTerminal) ++ beBytes 1 slot
      let info := [0x4B, 0x59, 0x4D, 0x55, 0x53, 0x2D, 0x4B, 0x45, 0x4B] ++ who
      .done (.all [
        .eff .draw, .eff .draw,
        .eff (.key (kekKey slot) (padTo 32 (Config.hkdf (Config.ecdh priv peer) (zeros 48) info 32))),
        putO .secKekState 0 0 (patch (d.oct .secKekState) (3 * slot) (1 :: beBytes 2 code)),
        raise 463])
        (pub ++ padTo 96 (Config.ecdsaSign d.idKey (sha (who ++ peer ++ pub)) (Config.freeValue (d.free + 1))))

/-- SEC_KEK_AGREE. -/
def execSecKekAgree (o : Origin) (arg : List Byte) (s : State) : Host.Outcome State Fault Refusal :=
  s.run (serveExec o .secKekAgree 0 0 (arg.length == 100) (.oct arg) (kekAgreeBeh o.code.toNat arg))

/-- SEC_KEK_CLEAR: by the slot's creator or S. -/
def kekClearBeh (code slot : Nat) : Beh :=
  beh (fun d => if code ≠ 0x0400 ∧ d.kekCreator slot ≠ some code then 0x0201 else if 15 < slot then 0x0302 else 0) (fun _ => 0)
    fun d => .done (.all [
      putO .secKekState 0 0 (patch (d.oct .secKekState) (3 * slot) [0, 0, 0]), .eff (.key (kekKey slot) [])]) []

/-- SEC_KEK_CLEAR. -/
def execSecKekClear (o : Origin) (slot : BitVec 8) (s : State) : Host.Outcome State Fault Refusal :=
  s.run (serveExec o .secKekClear 0 0 true (.num slot.toNat) (kekClearBeh o.code.toNat slot.toNat))

/-! ## Attestation (R598 to R600) -/

/-- The index of the next signature: the first block from SEC_LMS_NEXT on whose bit is set or can be set. -/
def Dev.lmsIndex (d : Dev) (fails : List (BitVec 15)) : Nat → Nat → Option Nat
  | 0, _ => none
  | n + 1, q =>
    let k := q / 1024
    if 1024 ≤ k then none
    else if d.otpBit 0x300 k then some q
    else if (d.otpFailing fails [8 * 0x300 + k]).isSome then d.lmsIndex fails n ((k + 1) * 1024)
    else some q

/-- The block of a signature is reserved: failing blocks before it are counted, its bit is set with event 459, and event 460 or 461 when fewer
than 16 or no blocks remain. -/
def lmsReserve (fails : List (BitVec 15)) (q : Nat) : Prog :=
  .ask fun d =>
    let from' := d.num .secLmsNext / 1024
    let k := q / 1024
    .all [
      .each (List.range k) fun j => .when (decide (from' ≤ j) && !d.otpBit 0x300 j) [otpProgram fails [8 * 0x300 + j]],
      .when (!d.otpBit 0x300 k) [
        otpProgram fails [8 * 0x300 + k], raise 459,
        .when (decide (1008 ≤ k ∧ from' ≤ 1008)) [raise 460],
        .when (k == 1023) [raise 461]],
      putN .secLmsNext 0 0 (q + 1)]

/-- Every block from SEC_LMS_NEXT on fails: each failure is counted, and no index remains. -/
def lmsFailed (fails : List (BitVec 15)) : Prog :=
  .ask fun d => .all [
    .each (List.range 1024) fun j => .when (decide (d.num .secLmsNext / 1024 ≤ j)) [otpProgram fails [8 * 0x300 + j]],
    .when (decide (d.num .secLmsNext / 1024 ≤ 1008)) [raise 460],
    .when (decide (d.num .secLmsNext / 1024 < 1024)) [raise 461],
    putN .secLmsNext 0 0 (1024 * 1024)]

/-- STATUS of a report (Table 21.8). -/
def Dev.reportStatus (d : Dev) : Nat :=
  128 * b2n (bitOf (d.num .secDebugState) 7) + 64 * b2n d.ownerEnrolled + 32 * b2n d.ownerLocked + 16 * b2n (!d.synced)
    + 8 * b2n (bitOf (d.num .secBootSlot) 0) + 4 * b2n (bitOf (d.num .secBootSlot) 7)

/-- OVERLAYS_HASH: over the hashes of the active overlays in ascending slot order; zero with none. -/
def Dev.overlaysHash (d : Dev) : List Byte :=
  let on := setBits 64 d.cfg.mask
  if on.isEmpty then zeros 48 else sha (on.flatMap fun k => (d.image (k + 1)).hash)

/-- The 280 signed bytes of a report (Table 21.8). -/
def Dev.report (d : Dev) (code : Nat) (nonce : List Byte) : List Byte :=
  let t := d.num .clkTimingChannel
  beBytes 4 0x4B594154 ++ beBytes 2 1 ++ beBytes 2 280 ++ beBytes 8 (d.num .idTerminal) ++ nonce ++ beBytes 2 code
    ++ beBytes 1 d.lifecycle ++ beBytes 1 d.reportStatus ++ beBytes 1 d.rollback ++ zeros 3
    ++ beBytes 8 (if d.alignedOn t then d.num .frmFrame t else 2 ^ 64 - 1) ++ beBytes 6 d.tim.secs ++ beBytes 4 d.tim.ns ++ zeros 2
    ++ beBytes 4 (d.num .idFwVersion) ++ d.oct .secStage1Hash ++ d.oct .secStage2Hash ++ (d.view .cfgBaseHash 0 0).b
    ++ beBytes 8 d.cfg.mask ++ d.overlaysHash

/-- SEC_ATTEST takes a 32-byte nonce. -/
def attestBeh (code : Nat) (nonce : List Byte) (fails : List (BitVec 15)) : Beh :=
  beh (fun _ => 0)
    (fun d => if d.lifecycle = 0 ∨ d.lifecycle = 3 ∨ d.secSuspended = true ∨ d.otpCount 0x300 1024 = 1024 then 0x0401 else 0)
    fun d => if d.sec.trngOff then .abort 0x0701 .skip else
      match d.lmsIndex fails 1025 (d.num .secLmsNext) with
      | none => .abort 0x0701 (lmsFailed fails)
      | some q =>
        let m := d.report code nonce
        let r := m ++ beBytes 4 96 ++ padTo 96 (Config.ecdsaSign d.idKey (sha m) (Config.freeValue d.free)) ++ beBytes 4 1772
          ++ padTo 1772 (Config.lmsSign (d.otpBytes 0x20 32) (d.otpBytes 0x40 16) q m)
        .done (.all [
          lmsReserve fails q, .eff .draw,
          .eff (.sec fun x => { x with reports := SMap.put [] code r x.reports }),
          raise 458 noInst 0 (top16 code) q]) (beBytes 4 q ++ beBytes 4 2156)

/-- SEC_ATTEST. -/
def execSecAttest (o : Origin) (nonce : List Byte) (fails : List (BitVec 15)) (s : State) : Host.Outcome State Fault Refusal :=
  s.run (serveExec o .secAttest 0 0 (nonce.length == 32) (.oct nonce) (attestBeh o.code.toNat nonce fails))

end Sys2Proof.Machine
end

