-- ==== Sys2Proof/Machine/Upstream.lean ====
section
/-!
DEFINITION. Grants and upstream bursts (R352 to R359, R482, R535, R536).
-/
namespace Sys2Proof.Machine

/-! ## Grants (R353, R354) -/

/-- The 14-bit check over bits [63:14], most significant first: generator x¹⁴ + x¹³ + x⁵ + x³ + x² + 1 from all ones. -/
def grantCheck (entry : Nat) : Nat :=
  (List.range 50).foldl (fun c i =>
    let s := c * 2 % 2 ^ 14
    if bitOf c 13 != bitOf entry (63 - i) then s ^^^ 0x202D else s) 0x3FFF

/-- Fields of a grant entry (Table 12.13). -/
def grantAlloc (e : Nat) : Nat := bitsOf e 50 14
def grantStart (e : Nat) : Nat := bitsOf e 34 16
def grantLen (e : Nat) : Nat := bitsOf e 18 16
def grantMgmt (e : Nat) : Bool := bitOf e 17

/-- Whether the channel holds an allocation in the map of a frame: a later change is not yet in force (R352). -/
def Dev.heldAt (d : Dev) (n a frame : Nat) : Bool :=
  match (d.ch n).allocPend.find? fun x => x.1 == a && decide (frame < x.2.2) with
  | some x => !x.2.1
  | none => (d.allocSlot n a).isSome

/-- The units a burst needs beyond its payload (R354, step 7; Table 12.8). -/
def Dev.burstShell (d : Dev) (n : Nat) : Nat := d.num .feLdLead n + d.num .feLdLag n + d.num .actUsPreamble n + 3

/-- The grants decoded for an upstream frame: those of another frame begin afresh, with the present delay (R335) and the present bindings (R477). -/
def Dev.grantsFor (d : Dev) (n up : Nat) : Grants :=
  let g := (d.ch n).grants
  if g.frame = up then g else ⟨up, 0, d.num .actEqd n, [], d.bindings n⟩

/-- Steps 7 to 9: a grant of some units is short, or it is scheduled, filled with idle where no service node is bound. A burst that would
overlap one of another frame under a new delay is dropped (R335). -/
def scheduleGrant (n up e len : Nat) (g : Grants) : Prog :=
  .ask fun d =>
    let a := grantAlloc e
    let eqd := g.eqd
    let svc := grantSvc g a
    let at' := upPos up (grantStart e) eqd
    if len < d.burstShell n then count .actGrantsShort n
    else .all [
      if svc.isNone then .all [count .actGrantsIdle n, grantEvent n 4 a] else count .actGrants n,
      if d.hitsBurst n at' len then .all [count .actBurstsEqdDropped n, grantEvent n 5 a]
      else .eff (.fch n fun c => { c with
        bursts := (c.bursts.filter fun b => !b.sent || decide (up ≤ b.frame + 1)) ++ [⟨up, a, grantStart e, len, grantMgmt e, eqd, svc, false⟩]
        mgmtAt := if grantMgmt e then some (up - 2) else c.mgmtAt }),
      wake 5]

/-- A grant entry of the map of downstream frame `frame`, in the order of R354. It schedules upstream frame + 2 (R333). -/
def execGrantEntry (n : Fin 4) (frame : BitVec 51) (entry : BitVec 64) (s : State) : Host.Outcome State Fault Refusal :=
  s.run (live (.ask fun d =>
    let e := entry.toNat
    let a := grantAlloc e
    let up := frame.toNat + 2
    if grantCheck e ≠ e % 2 ^ 14 then count .actGrantCheckFails n.val
    else if !d.heldAt n.val a frame.toNat then .skip
    else if d.num .actState n.val ≠ 4 ∨ d.num .actDozeState n.val = 3 then count .actGrantsIgnored n.val
    else
      let g := d.grantsFor n.val up
      let st := grantStart e
      let len := min (grantLen e) (50000 - st)
      let setG (t : List (Nat × Nat)) := Prog.eff (.fch n.val fun c => { c with grants := { g with num := g.num + 1, taken := t } })
      if 50000 ≤ st ∨ grantLen e = 0 ∨ 64 ≤ g.num then
        .all [setG g.taken, count .actGrantsInvalid n.val, grantEvent n.val 1 a]
      else .all [
        .when (decide (len < grantLen e)) [count .actGrantsClipped n.val, grantEvent n.val 2 a],
        if g.taken.any fun t => decide (st < t.2) && decide (t.1 < st + len) then
          .all [setG g.taken, count .actGrantsOverlap n.val, grantEvent n.val 3 a]
        else .all [setG (g.taken ++ [(st, st + len)]), scheduleGrant n.val up e len g]]))

/-! ## The coded burst (R357, R358) -/

/-- Information bytes of a payload of `p` units. -/
def burstCapacity (fecOff : Bool) (p : Nat) : Nat :=
  if fecOff then 16 * p else p / 135 * 1824 + (if 22 ≤ p % 135 then 16 * (p % 135) - 336 else 0)

/-- The codewords of scrambled information bits, a shortened one last. -/
def ldpcWords : Nat → List Bool → List Bool
  | 0, _ => []
  | k + 1, l => if l.isEmpty then [] else upCode.encode (l.take 14592) ++ ldpcWords k (l.drop 14592)

/-- The payload bits as sent in `p` units: two to a PAM4 symbol, first bit most significant; what the codewords leave is zero. -/
def burstBits (fecOff : Bool) (frame p : Nat) (info : List Byte) : List Byte :=
  let l := scramble (scrStart frame) (bitList info)
  padTo (16 * p) (packBits (if fecOff then l else ldpcWords l.length l))

/-! ## The information stream (R356, R359) -/

/-- An encapsulation header (Table 10.3). -/
def encHeader (stream len : Nat) (last : Bool) (key label : Nat) : List Byte :=
  let b := beBytes 6 ((stream % 2 ^ 20 * 2 ^ 44 + len % 2 ^ 14 * 2 ^ 30 + b2n last * 2 ^ 29 + key % 32 * 2 ^ 24 + label % 256 * 2 ^ 16) / 2 ^ 16)
  b ++ beBytes 2 (crc16 b)

/-- An encapsulation frame: header, payload, zero padding. -/
def encFrame (stream key label : Nat) (last : Bool) (b : List Byte) : List Byte :=
  encHeader stream b.length last key label ++ padTo (8 * ceilDiv b.length 8) b

/-- Idle headers, then zero bytes. -/
def idleFill (left : Nat) : List Byte :=
  (List.replicate (left / 8) (encHeader idleStream 0 true 0 0)).flatten ++ zeros (left % 8)

/-- The bytes of a packet that go into `left` bytes: all of it, or a first part of at least 64 (R359); 0 when it must wait. -/
def cutLen (total left : Nat) : Nat :=
  let p := min total (min 16383 ((left - 8) / 8 * 8))
  if left < 8 ∨ p = 0 ∨ (p < total ∧ p < 64) then 0 else p

/-- A remainder that waits for the next burst of its allocation: stream, key, label and queue stand in front of it. -/
def cutEntry (stream key label q : Nat) (rest : List Byte) : List Byte :=
  if rest.isEmpty then [] else beBytes 3 stream ++ beBytes 1 key ++ beBytes 1 label ++ beBytes 4 q ++ rest

/-- The remainder of an allocation's cut packet. -/
def setCut (n alloc : Nat) (b : List Byte) : Prog := .eff (.fch n fun c => { c with cuts := SMap.put [] alloc b c.cuts })

/-- The head packet of a queue leaves without being sent. -/
def dropHead (q : Nat) : Prog :=
  .ask fun d => .all [.eff (.tm fun t => { t with queues := SMap.put [] q ((SMap.get [] t.queues q).drop 1) t.queues }), poolCheck,
    settleDeficits (d.portOf q)]

/-- A packet under a fibre context: sealed once with the nonce of the burst (R535). `none` when the context cannot be used (R536). -/
def Dev.usSeal (d : Dev) (n frame alloc ord stream label : Nat) (data : List Byte) : Option (List Byte) :=
  let g := d.lead n
  let idx := d.num .ciphFchUsActive g
  if idx = 0 ∨ stream = 0 then some data
  else if d.ctxState g 1 idx ≠ 1 then none
  else
    let r := Config.gcmSeal (SMap.get [] d.keys (ctxKey g 1 idx)) (usNonce frame n alloc ord) (fibreAad stream idx label) data
    some (r.1 ++ r.2)

/-- The key index a stream's packets carry. -/
def Dev.usKey (d : Dev) (n stream : Nat) : Nat := if stream = 0 then 0 else d.num .ciphFchUsActive (d.lead n)

/-- The packets of the bound service node fill a burst (R35, R481): `left` bytes remain, `acc` is the stream so far, and `fin` sends it.
A packet whose context cannot be used is dropped and counted, and one read uncorrectable is dropped; a check mismatch drops its packet and leaves the rest of the
burst to idle fill (R551). -/
def fillBurst (n frame alloc svc : Nat) (fin : Nat → List Byte → Prog) :
    Nat → (fault : Bool) → (read ord left : Nat) → List Byte → Prog
  | 0, _, _, _, left, acc => fin left acc
  | fuel + 1, fault, read, ord, left, acc =>
    .all [settleDeficits (108 + n), .ask fun d => match d.pickPort (108 + n) (some svc) with
      | none => fin left acc
      | some c => match d.queue c.q with
        | [] => fin left acc
        | x :: _ =>
          let stream := x.stream.getD (Config.upstreamStream c.q)
          let key := d.usKey n stream
          let again := fillBurst n frame alloc svc fin fuel
          if x.bad || read == 2 then .all [bufRead read, commitChoice c, dropHead c.q, again fault 0 ord left acc]
          else match d.usSeal n frame alloc ord stream x.label x.out with
            | none => .all [commitChoice c, dropHead c.q, countIn .ciphFchCounters n 0 24 8 1, again fault read ord left acc]
            | some body =>
              let part := cutLen body.length left
              if part = 0 then fin left acc
              else if fault && key != 0 && d.num .ciphCheckMode != 2 then
                .all [bufRead read, commitChoice c, dropHead c.q, useCtx (d.lead n) 1 key, checkFault n, fin left acc]
              else .all [
                bufRead read,
                .when (key != 0) [useCtx (d.lead n) 1 key, countIn .ciphFchCounters n 0 16 8 1],
                commitChoice c,
                chargePath c.q (part + d.overhead (108 + n)),
                takeHead c.q,
                setCut n alloc (cutEntry stream key x.label c.q (body.drop part)),
                let b := encFrame stream key x.label (part == body.length) (body.take part)
                if part < body.length then fin (left - b.length) (acc ++ b)
                else again fault 0 (ord + 1) (left - b.length) (acc ++ b)]]

/-- The remainder of the last burst's cut packet comes first (R359, R482); `next` goes on with the bytes left and whether it is finished. -/
def sendRemainder (n alloc left : Nat) (next : Bool → Nat → List Byte → Prog) : Prog :=
  .ask fun d =>
    let e := SMap.get [] (d.ch n).cuts alloc
    if e.isEmpty then next true left []
    else
      let body := e.drop 9
      let part := cutLen body.length left
      let q := beAt e 5 4
      if part = 0 then next false left []
      else
        let b := encFrame (beAt e 0 3) (beAt e 3 1) (beAt e 4 1) (part == body.length) (body.take part)
        .all [
          chargePath q part,
          setCut n alloc (cutEntry (beAt e 0 3) (beAt e 3 1) (beAt e 4 1) q (body.drop part)),
          next (part == body.length) (left - b.length) b]

/-- A management record (R296): header, CRC, reserved bytes, payload and padding. -/
def mgmtRecord (handle : Nat) (b : List Byte) : List Byte :=
  let h := beBytes 4 (b.length % 2048 * 2 ^ 16 + handle % 2 ^ 16)
  h ++ beBytes 2 (crc16 h) ++ [0, 0] ++ padTo (8 * ceilDiv b.length 8) b

/-- Items of the in-band queue taken whole, in order, while they fit: the bytes they give and the items that stay. -/
def takeWhole (form : List Byte → List Byte) (mine : TxPkt → Bool) (left : Nat) : List TxPkt → List Byte × List TxPkt
  | [] => ([], [])
  | p :: r =>
    if !mine p then let t := takeWhole form mine left r; (t.1, p :: t.2)
    else
      let b := form p.data
      if left < b.length then ([], p :: r)
      else let t := takeWhole form mine (left - b.length) r; (b ++ t.1, t.2)

/-- Whether an item is a Lemow message, or an in-band Umani response. -/
def isLemow (p : TxPkt) : Bool := p.lemow
def isUmani (p : TxPkt) : Bool := !p.lemow

/-- The upstream frame of the next burst of a channel. -/
def Dev.nextBurstFrame (d : Dev) (n : Nat) : Option Nat := ((d.ch n).bursts.find? fun b => !b.sent).map (·.frame)

/-- A burst of upstream frame `frame` starts: a key switch of the channel's group whose target frame has come takes effect, after the recheck of R537. It
is late where the target frame had no burst (R574). -/
def usKeyFire (n frame : Nat) : Prog :=
  .ask fun d => match d.pendingOn 3 (d.lead n) with
    | none => .skip
    | some a => .when (decide (a.trig.frameNo ≤ frame)) [
        let idx := nth 0 a.arg 0
        if idx ≠ 0 ∧ d.ctxState (d.lead n) 1 idx ≠ 1 then failAct a 0x0401
        else .all [
          .eff (.disarm a.slot),
          putN .ciphFchUsActive (d.lead n) 0 idx,
          raise 417 (d.lead n) 0 (top8 idx),
          lateAct a (decide (a.trig.frameNo < frame))]]

/-- US_KEY_SWITCH_FIRE: the first burst of the target upstream frame is about to start. -/
def execUsKeySwitchFire (n : Fin 4) (s : State) : Host.Outcome State Fault Refusal :=
  s.run (live (.ask fun d => match d.nextBurstFrame n.val with
    | none => .skip
    | some f => usKeyFire n.val f))

/-- The next scheduled burst starts (R355 to R359). A burst whose start finds the channel without its laser, or dozing, is not sent. In Idle it is
filled with idle and counted (R120). -/
def execBurstStart (n : Fin 4) (fault : Bool) (read : Fin 3) (s : State) : Host.Outcome State Fault Refusal :=
  s.run (live (.all [.ask fun d => match d.nextBurstFrame n.val with
    | none => .skip
    | some f => usKeyFire n.val f,
    .ask fun d => match (d.ch n.val).bursts.find? fun b => !b.sent with
    | none => .skip
    | some b =>
      let fecOff := if b.frame < (d.ch n.val).fecWas.1 then (d.ch n.val).fecWas.2 else bitOf (d.num .actMode n.val) 29
      let units := b.len - d.burstShell n.val
      let cap := burstCapacity fecOff units
      let idle := d.num .pwrState == 1
      let held := (d.allocSlot n.val b.alloc).isSome
      let svc := if held && !idle then b.svc else none
      let h := d.num .actHandle n.val
      let backlog := match (if held then b.svc.or (d.boundSvc n.val b.alloc) else none) with
        | some v => min 0xFFFFFFFF (ceilDiv (d.reported v + ((SMap.get [] (d.ch n.val).cuts b.alloc).length - 9)) 64)
        | none => 0
      let q := (d.ch n.val).inq
      let recs := if b.mgmt ∧ 8 ≤ cap then takeWhole (mgmtRecord h) isLemow (cap - 8) q else ([], q)
      let head := beBytes 4 backlog ++ beBytes 2 recs.1.length
      let fin (left : Nat) (acc : List Byte) : Prog :=
        send .burst n.val b.alloc (beBytes 8 b.frame ++ beBytes 4 b.start ++ beBytes 4 b.eqd ++ beBytes 1 (d.num .actUsPreamble n.val)
          ++ d.leadLag n.val ++ burstHeader h b.alloc (bitOf (d.defects n.val) 5)
          ++ burstBits fecOff b.frame units (if cap < 8 then [] else head ++ beBytes 2 (crc16 head) ++ recs.1 ++ acc ++ idleFill left))
      .all [
        .eff (.fch n.val fun c => { c with bursts := c.bursts.map fun x => if x = b then { x with sent := true } else x }),
        .when (d.num .actState n.val == 4 && d.laserReady n.val && (d.ch n.val).onAir.isNone && d.num .actDozeState n.val != 3) [
          burstSettings n.val, burstUp n.val b.len,
          .when idle [count .pwrIdleGrantsIdled],
          .when ((q.any fun p => p.dozeEnd) && !recs.2.any fun p => p.dozeEnd) [putN .actDozeState n.val 0 0],
          .eff (.fch n.val fun c => { c with inq := recs.2 }),
          if cap < 8 then fin 0 []
          else
            let left := cap - 8 - recs.1.length
            (match svc with
             | none => fun (next : Bool → Nat → List Byte → Prog) => next true left []
             | some _ => sendRemainder n.val b.alloc left) fun done left acc =>
              let um := if b.mgmt && done then takeWhole (encFrame 0 0 3 true) isUmani left recs.2 else ([], recs.2)
              .all [
                .eff (.fch n.val fun c => { c with inq := um.2 }),
                match svc, done with
                | some v, true =>
                  fillBurst n.val b.frame b.alloc v fin (left / 16 + (d.tm.queues.map fun (e : Nat × List QPkt) => e.2.length).sum + 1) fault read.val
                    (recs.2.length - um.2.length) (left - um.1.length) (acc ++ um.1)
                | _, _ => fin (left - um.1.length) (acc ++ um.1)]]]]))

end Sys2Proof.Machine
end

