-- ==== Sys2Proof/Machine/Dict.lean ====
section
/-!
DEFINITION. What a read and a write of each dictionary object do, and group ownership (R134 to R157).
-/
namespace Sys2Proof.Machine

/-! ## Ownership (R157) -/

/-- DICT_GROUP_CLAIM: the requester's link becomes the owner. A function with no live lease gets abort 0x0401 (R197). -/
def groupClaimBeh (code g : Nat) : Beh :=
  beh (fun _ => if 0x1B < g then 0x0302 else 0)
    (fun d => firstAbort [(!(d.fn (hostKey code)).live, 0x0401),
      ((d.ownerLink g).any (fun l => l != hostLink code), 0x0402)])
    fun d => .done (.when (d.ownerLink g).isNone [putN .dictGroupOwner 0 g code]) []

/-- DICT_GROUP_CLAIM. -/
def execDictGroupClaim (o : Origin) (group : BitVec 8) (s : State) : Host.Outcome State Fault Refusal :=
  s.run (serveExec o .dictGroupClaim 0 0 true (.num group.toNat) (groupClaimBeh o.code.toNat group.toNat))

/-- DICT_GROUP_RELEASE: by the owner. -/
def groupReleaseBeh (code g : Nat) : Beh :=
  beh (fun _ => if 0x1B < g then 0x0302 else 0)
    (fun d => if d.ownerLink g = some (hostLink code) then 0 else 0x0401)
    fun _ => .done (putN .dictGroupOwner 0 g 0) []

/-- DICT_GROUP_RELEASE. -/
def execDictGroupRelease (o : Origin) (group : BitVec 8) (s : State) : Host.Outcome State Fault Refusal :=
  s.run (serveExec o .dictGroupRelease 0 0 true (.num group.toNat) (groupReleaseBeh o.code.toNat group.toNat))

/-! ## Objects that only check what they store -/

/-- The dispositions that Tables 15.3 and 16.4 permit for a reason; none for a reserved reason (R425). -/
def dispositions (reason : Nat) : List Nat :=
  match reason with
  | 1 => [0, 1] | 2 => [0, 1] | 3 => [0] | 4 => [0, 1] | 5 => [0, 1, 2] | 6 => [0, 1, 2] | 7 => [0, 1] | 8 => [0, 1]
  | 16 => [0, 1, 2] | 17 => [0, 1, 2] | 18 => [0, 1, 2] | 19 => [0, 1, 2] | 20 => [0] | 21 => [0, 1] | 22 => [0, 1]
  | _ => []

/-- Whether a chunk code is a range result (Table 15.5). -/
def isRangeChunk (c : Nat) : Bool := decide (0x70 ≤ c) && decide (c ≤ 0x73)

/-- Order 6 of a key profile (R429). -/
def keyProfileBad (b : List Byte) : Bool :=
  (b.take 20).any (fun c => !chunkKnown c.toNat) || (List.range 4).any (fun s => !chunkKnown (beAt b (21 + 2 * s) 1)) ||
    (b.take 20).any fun c => isRangeChunk c.toNat &&
      (isRangeChunk (beAt b (21 + 2 * (c.toNat - 0x70)) 1) || beAt b (21 + 2 * (c.toNat - 0x70)) 1 == 0)

/-- The further ranges of objects that are otherwise stored as written (order 6). -/
def ownRange (o : Obj) (j : Nat) (v : Val) (d : Dev) : Bool :=
  let n := v.n
  match o with
  | .trThermalLimit => decide (60 ≤ n) && decide (n ≤ (if d.otpBit 0x1E3 0 then 110 else 105))
  | .actDozeCycle => decide (32 ≤ n) && decide (n ≤ 32768) && n % 32 == 0
  | .carPortTc => decide (n / 64 < 3) && bitsOf n 3 3 == 0
  | .prsExcMap => n / 1024 == 0 && (dispositions j).contains (bitsOf n 8 2)
  | .clsKeyProfile => !keyProfileBad v.b
  | .clsProfileSelect => decide (n < 2 ^ 20)
  | .clsBlockProfile => decide (n ≤ 14) || n == 0xFF
  | .clsMirror => bitsOf n 8 8 == 0 && (bitsOf n 16 14 == 0 || decide (64 ≤ bitsOf n 16 14)) && (bitOf n 30 || decide (n % 256 ≤ 111))
  | .fwdPortCfg => n % 2 ^ 35 == 0 && !(bitOf n 35 && decide (111 < j))
  | .fwdBd => n % 2 ^ 15 == 0
  | .fwdLearnNotify => bitsOf n 12 16 == 0 && !bitOf n 30 &&
      (!bitOf n 31 || (d.linkUsed (bitsOf n 28 2) && d.linkOfRing (n % 4096) == bitsOf n 28 2 && (d.ringSt (n % 4096)).kind == 4))
  | .ciphCheckMode => decide (n ≤ 2)
  | .timePortPtp => !(bitOf n 2 && !bitOf n 1)
  | .evrSrcCfg => bitsOf n 3 4 == 0 && !(defaultSeverity j == 7 && n % 8 != 7) && !(decide (6 ≤ defaultSeverity j) && !bitOf n 7)
  | _ => true

/-- The states in which an object that is otherwise stored may be written (order 8). -/
def ownState (o : Obj) (j : Nat) (v : Val) (d : Dev) : Bool :=
  match o with
  | .clsKeyProfile => d.num .fwdCarving == 3 || !(v.b.take 20).any fun c => isRangeChunk c.toNat
  | .clsBlockProfile => !(d.rows 7).any fun e => e.1 / 512 == j && bitOf (beAt e.2 112 4) 31
  | .fwdBd => v.n / 2 ^ 15 == d.num .fwdBd 0 j / 2 ^ 15 || !(d.rows 1).any fun e => emLearned e.2 && beAt e.2 0 16 / 2 ^ 124 == 1 && emBd e.2 == j
  | _ => true

/-- The value an object keeps of a write: bits 0 and 1 of PWR_WAKE_MASK read as one. -/
def keptValue (o : Obj) (v : Val) : Val :=
  match o with
  | .pwrWakeMask => .num (v.n ||| 3)
  | _ => v

/-- A write that is checked and stored. -/
def storeBeh (o : Obj) (i j : Nat) (v : Val) : Beh :=
  beh (fun d => if ownRange o j v d then 0 else 0x0302) (fun d => if ownState o j v d then 0 else 0x0401)
    fun _ => .done (.eff (.obj o i j (keptValue o v))) []

/-- SEC_AUTH_STAGE: each requester's own copy (R602). -/
def authStageBeh (code : Nat) (b : List Byte) : Beh :=
  .plain fun _ => .done (.eff (.sec fun x => { x with stage := SMap.put [] code b x.stage })) []

/-- A write of an object. `acked` is whether the HV die acknowledges the first sending of a command (R210). -/
def writeBeh (c : Call) (code : Nat) (acked : Bool) (o : Obj) (i j : Nat) (v : Val) : Beh :=
  match o with
  | .clkTimingChannel => timingChannelBeh v.n
  | .clkTimingFallback => timingFallbackBeh v.n
  | .rstCauseSticky => stickyWriteBeh v.n
  | .trOpTarget => opTargetBeh c v.n
  | .hifMsixPfVectors => pfVectorsBeh i v.n
  | .hifVfRings => vfRingsBeh i j v.n
  | .hifSlowpathMap => slowMapBeh i j v.n
  | .hifEvtMap => evtMapBeh i j v.n
  | .feEnable => feEnableBeh c i v.n acked
  | .feApdTarget => .plain fun _ => hvReply i acked c .feApdTarget v.n
  | .feTxCoeff => feTxCoeffBeh i v.b
  | .feTxShape => feTxShapeBeh i v.n
  | .feTxAmplitude => feTxAmplitudeBeh i v.n
  | .feLdBiasOn => feLdBiasOnBeh c i v.n acked
  | .feLdBiasOff => hvObjBeh c i .feLdBiasOff v.n acked
  | .feLdMode => .plain fun _ => .done (ldSet i .feLdMode v.n) []
  | .feLdImax => hvObjBeh c i .feLdImax v.n acked
  | .feApdIlimit => hvObjBeh c i .feApdIlimit v.n acked
  | .feLosThreshold => hvObjBeh c i .feLosThreshold v.n acked
  | .feRogueOnLimit => hvObjBeh c i .feRogueOnLimit v.n acked
  | .fePgaMode => pgaModeBeh i v.n
  | .feLaserForceOff => feLaserForceOffBeh i v.n
  | .dmtProfile => dmtProfileBeh i j v.b
  | .dmtProfileEnable => dmtProfileEnableBeh i v.n
  | .mgtSlEnable => mgtRxBeh i .mgtSlEnable v.n
  | .mgtCmEnable => mgtRxBeh i .mgtCmEnable v.n
  | .mgtCmSfRx => mgtRxBeh i .mgtCmSfRx v.n
  | .circConfig => circConfigBeh j v.b
  | .circTimingSource => circTimingSourceBeh v.n
  | .actEqd => actEqdBeh i v.n
  | .portMode => portModeBeh i v.n
  | .portEnable => portEnableBeh i v.n
  | .portMedium => portMediumBeh i v.n
  | .portEeeTwTx => portEeeTwTxBeh i v.n
  | .portMacsecEnable => portMacsecEnableBeh i v.n
  | .portMacsecContext => portMacsecContextBeh i v.n
  | .lnTxFfe => lnTxFfeBeh i j v.n
  | .lgPersonality => lgPersonalityBeh fabPersonality i v.n
  | .fabEnable => fabEnableBeh i v.n
  | .fabRxCredits => fabRxCreditsBeh i j v.n
  | .fwdCarving => carvingBeh v.n
  | .tmQueueCfg => queueCfgBeh j v.b
  | .tmSubCfg => subCfgBeh j v.b
  | .tmSvcCfg => svcCfgBeh j v.b
  | .tmPortCfg => portCfgBeh j v.b
  | .tmAdmProfile => admProfileBeh j v.b
  | .tmIresShare => iresBeh .tmIresShare j v.n
  | .tmIresControl => iresBeh .tmIresControl j v.n
  | .tmSnapCells => snapCellsBeh v.n
  | .tmGateAdmin => gateAdminBeh i v.b
  | .dramCfg => dramCfgBeh i v.n
  | .dramSpeed => dramSpeedBeh v.n
  | .dramAddrOrder => dramOrderBeh i v.n
  | .dramEnable => dramEnableBeh i v.n
  | .ciphFchKeyLimit => keyLimitBeh i v.n
  | .ciphMsContext => msContextBeh j v.b
  | .timeSource => timeSourceBeh v.n
  | .timeIncrement => timeIncrementBeh v.n
  | .timeTpoCfg => tpoCfgBeh j v.b
  | .secAuthStage => authStageBeh code v.b
  | _ => storeBeh o i j v

/-- A read of an object: the reads that change something are RST_CAUSE_STICKY's (R90), SEC_CHALLENGE's (R601) and PORT_MAC_COUNTERS'
(R383). -/
def readBeh (p : UPath) (code : Nat) (o : Obj) (i j : Nat) : Beh :=
  match o with
  | .rstCauseSticky => stickyReadBeh p
  | .secChallenge => challengeBeh code
  | .portMacCounters => macCountersBeh i code
  | _ => .read p o i j

/-- DICT_OBJECT_WRITE: a write of any object by index and subindex. -/
def execDictObjectWrite (o : Origin) (index : BitVec 16) (sub : BitVec 8) (v : Val) (acked : Bool) (s : State) :
    Host.Outcome State Fault Refusal :=
  let c : Call := ⟨o, 2, index.toNat, sub.toNat⟩
  s.run (match target index.toNat sub.toNat with
    | .elem x i j => serve ⟨c, .elem x i j, true, v⟩ (writeBeh c o.code.toNat acked x i j v)
    | t => serve ⟨c, t, true, v⟩ (.plain fun _ => .done .skip []))

end Sys2Proof.Machine
end

