-- ==== Sys2Proof/Machine/Configure.lean ====
section
/-!
DEFINITION. Configuration images: staging, commit and atomic application (R159 to R170).
-/
namespace Sys2Proof.Machine

/-! ## Images (R159 to R163) -/

/-- Type code of an object's type (Table 5.12). -/
def typeCode : Ty → Nat
  | .bool => 1
  | .u 8 => 2
  | .u 16 => 3
  | .u 32 => 4
  | .u _ => 5
  | .s 32 => 6
  | .s _ => 7
  | _ => 9

/-- The value of an entry. -/
def ImgEntry.val (e : ImgEntry) : Val := if e.ty = 9 then .oct e.value else .num (beNat e.value)

/-- Whether an object is configurable (R159). -/
def configurable (o : Obj) (i j : Nat) : Bool :=
  let x := o.index i j
  let a := o.acc j
  o == .cfgLockGroups || (o.row.ty != .command && o.row.ty != .table && !(0x1000 ≤ x && x < 0x2000) && !(0x3000 ≤ x && x < 0x4000)
    && !(0xA000 ≤ x && x < 0xA400) && !(0xB000 ≤ x && x < 0xC000) && !(0xF000 ≤ x)
    && (bitOf a.1 1 || bitOf a.2.2.2.1 1))

/-- The entry records of an image (Table 5.11), which end exactly with the bytes given; none when they do not. Reserved bytes are ignored (R11), and so
is what the padding holds: the manual names no consequence (DESIGN CHOICE, log entry 111). -/
def parseEntries : Nat → List Byte → Option (List ImgEntry)
  | 0, b => if b.isEmpty then some [] else none
  | n + 1, b =>
    let len := beAt b 4 2
    let size := 8 + (len + 3) / 4 * 4
    if b.length < size then none
    else (parseEntries n (b.drop size)).map fun l => ⟨beAt b 0 2, beAt b 2 1, beAt b 3 1, slice b 8 len⟩ :: l

/-- SIGNED_LENGTH and the lengths of the two signatures. -/
def imgSigned (b : List Byte) : Nat := beAt b 8 4
def imgEcdsa (b : List Byte) : Nat := beAt b (imgSigned b) 4
def imgLms (b : List Byte) : Nat := beAt b (imgSigned b + 4 + imgEcdsa b) 4
/-- The size of an image with its signature block. -/
def imgSize (b : List Byte) : Nat := imgSigned b + 8 + imgEcdsa b + imgLms b

/-- The entries of an image; none when MAGIC, FORMAT, KIND, the lengths and ENTRY_COUNT are inconsistent. -/
def imgEntries (b : List Byte) : Option (List ImgEntry) :=
  let sl := imgSigned b
  if beAt b 0 4 == 0x4B594346 && beAt b 4 2 == 1 && (beAt b 6 1 == 1 || beAt b 6 1 == 2) && sl % 4 == 0 && decide (64 ≤ sl)
      && decide (sl ≤ b.length) && (imgEcdsa b == 0 || imgEcdsa b == 96) && decide (imgLms b ≤ 9324) && b.length == imgSize b
      && decide (beAt b 12 4 * 8 + 64 ≤ sl)
  then parseEntries (beAt b 12 4) (slice b 64 (sl - 64)) else none

/-- The image that a commit stores. -/
def imgOf (b : List Byte) (es : List ImgEntry) : Image :=
  ⟨beAt b 16 8, slice b 32 32, sha (b.take (imgSigned b)), es⟩

/-! ## Commit (Table 5.13) -/

/-- A fault: its abort (0 for none), and the entry, index and subindex that CFG_LAST_ERROR names; 0xFF_FFFF for a header. -/
structure CfgFault where
  abort : Nat
  entry : Nat
  index : Nat
  sub : Nat
  deriving DecidableEq, Repr

/-- No fault. -/
def CfgFault.none : CfgFault := ⟨0, 0, 0, 0⟩

/-- A fault of the header. -/
def headFault (a : Nat) : CfgFault := ⟨a, 0xFFFFFF, 0, 0⟩

/-- CFG_LAST_ERROR takes a fault. -/
def noteFault (f : CfgFault) : Prog :=
  .when (f.abort != 0) [putN .cfgLastError 0 0 (f.entry * 2 ^ 40 + f.index * 2 ^ 24 + f.sub * 2 ^ 16 + f.abort)]

/-- The request that stands for a value set by an application. -/
def cfgCall (e : ImgEntry) : Call := ⟨⟨.internal, 0x0400, 0⟩, 2, e.index, e.sub⟩

/-- The behaviour of a write of an entry's value to its object. -/
def entryBeh (acked : Bool) (e : ImgEntry) (o : Obj) (i j : Nat) (v : Val) : Beh := writeBeh (cfgCall e) 0x0400 acked o i j v

/-- The device with values in their objects, as the checks against a complete set of values see it. -/
def Dev.withEntries (d : Dev) (es : List ImgEntry) : Dev :=
  es.foldl (fun x e => match target e.index e.sub with
    | .elem o i j => x.put o i j (keptValue o e.val)
    | _ => x) d

/-- The device `x` with an object at the value it has in `d`. -/
def Dev.keeping (x d : Dev) (o : Obj) (i j : Nat) : Dev := x.put o i j (d.get o i j)

/-- The abort of an entry on its own (order 9): its value is checked beside the other values of the image, which `x` holds. -/
def entryAbort (d x : Dev) (e : ImgEntry) : Nat :=
  match target e.index e.sub with
  | .noIndex => 0x0101
  | .noSub => 0x0102
  | .count _ => 0x0201
  | .elem o i j =>
    if !configurable o i j then 0x0201
    else if e.ty ≠ typeCode o.row.ty ∨ lenOk o.row.ty e.val = false ∨ (e.ty ≠ 9 ∧ e.value.length ≠ max 1 (o.width / 8)) then 0x0301
    else if rngOk o.row.ty o.row.rng e.val.n = false then 0x0302
    else (entryBeh true e o i j e.val).pre (x.keeping d o i j)

/-- The first entry of an image that fails, named twice included. -/
def entriesFault (d x : Dev) : Nat → List (Nat × Nat) → List ImgEntry → CfgFault
  | _, _, [] => .none
  | n, seen, e :: es =>
    let a := entryAbort d x e
    let a := if a = 0 ∧ seen.contains (e.index, e.sub) = true then 0x0302 else a
    if a ≠ 0 then ⟨a, n, e.index, e.sub⟩ else entriesFault d x (n + 1) ((e.index, e.sub) :: seen) es

/-- The first entry with a reserved type code (order 2). -/
def typesFault : Nat → List ImgEntry → CfgFault
  | _, [] => .none
  | n, e :: es => if e.ty = 0 ∨ 9 < e.ty then ⟨0x0301, n, e.index, e.sub⟩ else typesFault (n + 1) es

/-- Whether a pending application names a slot. -/
def Dev.cfgNames (d : Dev) (slot : Nat) : Bool :=
  (d.pendingOn 4 0).isSome && (if slot = 0 then d.cfg.pendSwitch else bitOf d.cfg.pendMask (slot - 1))

/-- The first abort of Table 5.13. An overlay image longer than 32,768 bytes fails with 0x0302 (Table 5.15), which the model places in order 3: the
manual gives no order for it (DESIGN CHOICE, log entry 112). -/
def Dev.commitFault (d : Dev) (slot : Nat) (b : List Byte) : CfgFault :=
  if 64 < slot then headFault 0x0302
  else match imgEntries b with
    | none => headFault 0x0301
    | some es =>
      if (typesFault 0 es).abort ≠ 0 then typesFault 0 es
      else if beAt b 7 1 ≠ slot ∨ ((beAt b 6 1 = 1) ≠ (slot = 0)) ∨ (slot ≠ 0 ∧ 32768 < b.length) then headFault 0x0302
      else if beAt b 24 8 ≠ 0 ∧ beAt b 24 8 ≠ d.num .idTerminal then headFault 0x0302
      else if beAt b 16 8 ≤ (if slot = 0 then d.cfg.base.version else (d.image slot).version) then headFault 0x0302
      else if slot ≠ 0 ∧ bitOf d.cfg.mask (slot - 1) then headFault 0x0401
      else if d.cfgNames slot then headFault 0x0501
      else if d.ownerLocked ∧ (imgEcdsa b = 0 ∨ imgLms b = 0) then headFault 0x0601
      else if d.ownerLocked ∧ !Config.ownerSigned (d.otpBytes 0x200 96) (b.take (imgSigned b)) (slice b (imgSigned b + 4) 96)
          (b.drop (imgSigned b + 8 + 96)) then headFault 0x0602
      else entriesFault d (d.withEntries es) 0 [] es

/-- An image takes its slot: the standby base or an overlay slot. -/
def commitImage (slot : Nat) (b : List Byte) : Prog :=
  let im := imgOf b ((imgEntries b).getD [])
  .eff (.cfg fun c => if slot = 0 then { c with standby := im } else { c with slots := SMap.put Image.empty slot im c.slots })

/-- CFG_STAGE_COMMIT. -/
def commitBeh (slot : Nat) : Beh where
  pre := fun _ => 0
  state := fun d => (d.commitFault slot (d.oct .cfgStage)).abort
  act := fun d => .done (commitImage slot (d.oct .cfgStage)) []
  note := fun d own _ => .when own [noteFault (d.commitFault slot (d.oct .cfgStage))]

/-- CFG_STAGE_COMMIT. -/
def execCfgStageCommit (o : Origin) (slot : BitVec 8) (s : State) : Host.Outcome State Fault Refusal :=
  s.run (serveExec o .cfgStageCommit 0 0 true (.num slot.toNat) (commitBeh slot.toNat))

/-! ## Application (R160, R166 to R168) -/

/-- The base that is active after an application. -/
def Dev.baseAfter (d : Dev) (switch : Bool) : Image := if switch then d.cfg.standby else d.cfg.base

/-- The overlay slots of a mask in ascending order. -/
def slotsOf (mask : Nat) : List Nat := (setBits 64 mask).map (· + 1)

/-- The images active after an application: base, then overlays. -/
def Dev.imagesAfter (d : Dev) (switch : Bool) (mask : Nat) : List Image := d.baseAfter switch :: (slotsOf mask).map d.image

/-- The images whose activation an application changes. -/
def Dev.imagesChanged (d : Dev) (switch : Bool) (mask : Nat) : List Image :=
  (if switch then [d.cfg.base, d.cfg.standby] else []) ++
    ((slotsOf (d.cfg.mask ||| mask)).filter fun s => bitOf d.cfg.mask (s - 1) != bitOf mask (s - 1)).map d.image

/-- The last entry that names an object in images taken in order, with its number in its image. -/
def lastEntry (ims : List Image) (index sub : Nat) : Option (ImgEntry × Nat) :=
  (ims.flatMap fun im => im.entries.zipIdx).reverse.find? fun e => e.1.index == index && e.1.sub == sub

/-- A value that an application sets: its object, its configured value or default, and the entry number. -/
structure Change where
  o : Obj
  i : Nat
  j : Nat
  e : ImgEntry
  v : Val
  n : Nat

/-- The default of a configurable object (R19): TR_THERMAL_LIMIT's follows the grade, LG_PERSONALITY's and PORT_MODE's the personality strap. -/
def Dev.dfltOf (d : Dev) (o : Obj) (i j : Nat) : Val :=
  let fabric := bitOf (d.num .rstStraps) 7
  match o with
  | .trThermalLimit => .num (if d.otpBit 0x1E3 0 then 105 else 100)
  | .lgPersonality => .num (b2n fabric)
  | .portMode => .num (if fabric then 0 else 4)
  | _ => o.dflt i j

/-- The new value of an object named by `e`, given the images active afterwards. -/
def Dev.changeOf (d : Dev) (ims : List Image) (e : ImgEntry) : Option Change :=
  match target e.index e.sub with
  | .elem o i j => match lastEntry ims e.index e.sub with
    | some (x, n) => some ⟨o, i, j, x, x.val, n⟩
    | none => some ⟨o, i, j, e, d.dfltOf o i j, 0xFFFFFF⟩
  | _ => none

/-- The values an application sets: every object that a changed image names takes its configured value, or its default (R160). -/
def Dev.changes (d : Dev) (switch : Bool) (mask : Nat) : List Change :=
  let named := (d.imagesChanged switch mask).flatMap (·.entries)
  let first := named.foldl (fun a e => if a.any (fun x : ImgEntry => x.index == e.index && x.sub == e.sub) then a else a ++ [e]) []
  first.filterMap (d.changeOf (d.imagesAfter switch mask))

/-- The device with the complete set of new values. -/
def Dev.withChanges (d : Dev) (cs : List Change) : Dev := cs.foldl (fun x c => x.put c.o c.i c.j (keptValue c.o c.v)) d

/-- Objects whose write starts or stops a unit. -/
def startsUnit (o : Obj) : Bool := o == .feEnable || o == .portEnable || o == .fabEnable || o == .dramEnable

/-- Changes that stop a unit take their values first, and those that start one last. -/
def Change.stops (c : Change) : Bool := startsUnit c.o && c.v.n == 0
def Change.starts (c : Change) : Bool := startsUnit c.o && c.v.n != 0

/-- One value is set, with all that a write of it does. -/
def applyChange (acked : Bool) (c : Change) : Prog :=
  .ask fun d => match (entryBeh acked c.e c.o c.i c.j c.v).act d with
    | .done p _ => p
    | .abort _ p => p
    | .later p => p

/-- What a change is judged against: the complete set of new values beside the object's present one. The units that the set stops have stopped; a
unit that it starts counts as started only for the other starts, since "no intermediate ordering is needed" to write a mode and its enable in one
overlay (R167, and the overlay of spec/13's example; DEDUCED, log entry 36). -/
def Dev.trial (d : Dev) (cs : List Change) (c : Change) : Dev :=
  (((Prog.each (cs.filter Change.stops) (applyChange true)).run d).withChanges
    (cs.filter fun e => c.starts || !e.starts)).keeping d c.o c.i c.j

/-- The first value that could not be written now. A default is no entry, so its value is not checked; its state is (DEDUCED, log entry 36). -/
def Dev.changeFault (d : Dev) (cs : List Change) (held : Bool) : CfgFault :=
  match cs.findSome? fun c =>
    let x := d.trial cs c
    let b := entryBeh true c.e c.o c.i c.j c.v
    let a := firstAbort [
      (c.n != 0xFFFFFF && b.pre x != 0, b.pre x),
      (held && d.acts.any (fun a => a.holds.contains (c.o.key c.i c.j)), 0x0501),
      (d.closedAbort (c.o.index c.i c.j) != 0, 0x0401),
      (b.state x != 0, b.state x)]
    if a = 0 then none else some (⟨a, c.n, c.e.index, c.e.sub⟩ : CfgFault) with
  | some f => f
  | none => .none

/-- The conditions of R167 that are a conflict with the present state. -/
def Dev.applyConflict (d : Dev) (switch : Bool) (mask : Nat) (t : Option Trig) : Bool :=
  let base := d.baseAfter switch
  (switch && d.cfg.standby.version == 0) || (slotsOf mask).any (fun s => (d.image s).version == 0) ||
    t.any (d.trigUnaligned (d.num .clkTimingChannel)) ||
    (slotsOf mask).any fun s => beNat (d.image s).binding != 0 &&
      (d.image s).binding != (if base.version = 0 then zeros 32 else base.hash.take 32)

/-- Every new value is set together, and the images take their places (R166). The values that change stay for the packets that carry an
earlier configuration epoch (R45). -/
def applyChanges (switch : Bool) (mask : Nat) (acked : Bool) : Prog :=
  .ask fun d =>
    let cs := d.changes switch mask
    let old := cs.foldl (fun m c => SMap.put none (c.o.key c.i c.j) (some (d.get c.o c.i c.j)) m) []
    .all [
      .each (cs.filter Change.stops) (applyChange acked),
      .each (cs.filter fun c => !startsUnit c.o) (applyChange acked),
      .each (cs.filter Change.starts) (applyChange acked),
      .eff (.cfg fun x => { x with
        base := if switch then x.standby else x.base
        standby := if switch then Image.empty else x.standby
        mask := mask, epoch := x.epoch + 1, past := SMap.put [] x.epoch old x.past })]

/-- CFG_APPLY (Table 5.14). -/
def cfgApplyBeh (c : Call) (code : Nat) (b : List Byte) : Beh :=
  let switch := beAt b 1 1 == 1
  let mask := beAt b 4 8
  let t := parseTrig (beAt b 0 1) (slice b 12 10)
  let early (d : Dev) : Nat := firstAbort [
    ((d.pendingOn 4 0).isSome, 0x0501),
    (d.applyConflict switch mask t, 0x0401)]
  let bad (d : Dev) : Bool := decide (1 < beAt b 1 1) || beAt b 2 2 != 0 || beAt b 22 2 != 0 ||
    t.isNone || t.any (fun x => !d.trigAhead (d.num .clkTimingChannel) x)
  { pre := fun d => if bad d then 0x0302 else 0
    state := fun d =>
      if early d ≠ 0 then early d
      else if (d.changeFault (d.changes switch mask) true).abort ≠ 0 then (d.changeFault (d.changes switch mask) true).abort
      else if d.actsFull then 0x0402 else 0
    act := fun d =>
      let p := Prog.all [
        armAct 4 0 (t.getD .now) code ((d.changes switch mask).map fun c => c.o.key c.i c.j) [b2n switch, mask],
        .eff (.cfg fun x => { x with pendMask := mask, pendSwitch := switch, pendCall := if t = some .now then some c else none })]
      if t = some .now then .later p else .done p []
    note := fun d own _ => .when (own && !bad d && early d == 0) [noteFault (d.changeFault (d.changes switch mask) true)] }

/-- CFG_APPLY. -/
def execCfgApply (o : Origin) (arg : List Byte) (s : State) : Host.Outcome State Fault Refusal :=
  s.run (serveExec o .cfgApply 0 0 (arg.length == 24) (.oct arg)
    (cfgApplyBeh (elemReq o 3 .cfgApply 0 0 (.num 0)).call o.code.toNat arg))

/-- CFG_APPLY_STATUS (Table 5.15): its low half keeps the abort of the last failure. -/
def applyStatus (st : Nat) (abort : Option Nat) : Prog :=
  .ask fun d => putN .cfgApplyStatus 0 0 (st * 2 ^ 24 + abort.getD (d.num .cfgApplyStatus % 2 ^ 16))

/-- The response that an immediate application owes (R168). -/
def applyAnswer (abort : Nat) : Prog :=
  .ask fun d => match d.cfg.pendCall with
    | none => .skip
    | some c => .seq (.eff (.cfg fun x => { x with pendCall := none })) (respond c abort [])

/-- OVERLAY_APPLY (R168): at the instant the state checks are made again; if one fails, nothing changes. -/
def execOverlayApply (acked : Bool) (s : State) : Host.Outcome State Fault Refusal :=
  s.run (live (.ask fun d => match d.pendingOn 4 0 with
    | none => .skip
    | some a => .when (d.actTurn a) [
        let f := d.changeFault (d.changes d.cfg.pendSwitch d.cfg.pendMask) false
        if f.abort ≠ 0 then .all [
          failAct a f.abort, noteFault f, applyStatus 3 (some f.abort), applyAnswer f.abort]
        else .all [
          .eff (.disarm a.slot), applyChanges d.cfg.pendSwitch d.cfg.pendMask acked,
          applyStatus 2 none, lateAct a (d.actLate a), applyAnswer 0]]))

/-! ## Configuration from flash and from retention (R170, R591) -/

/-- The images of a configuration region: each starts at the next multiple of 8 after the previous one. -/
def flashImages : Nat → List Byte → List (List Byte)
  | 0, _ => []
  | n + 1, b => b.take (imgSize b) :: flashImages n (b.drop ((imgSize b + 7) / 8 * 8))

/-- An image is committed as requester S, or skipped with event 465. -/
def flashCommit (b : List Byte) : Prog :=
  .ask fun d =>
    let f := d.commitFault (beAt b 7 1) b
    if f.abort = 0 then commitImage (beAt b 7 1) b else .all [noteFault f, raise 465]

/-- The overlays of ACTIVE_MASK that were committed and whose BASE_BINDING holds; without a base only those bound to none. -/
def Dev.flashMask (d : Dev) (mask : Nat) : Nat :=
  let base := d.cfg.standby
  ((slotsOf mask).filter fun s =>
    let im := d.image s
    im.version != 0 && (beNat im.binding == 0 || (base.version != 0 && im.binding == base.hash.take 32))).foldl (fun m s => putBit m (s - 1) true) 0

/-- FLASH_CONFIG_LOAD (R591). -/
def flashConfig (b : List Byte) (acked : Bool) : Prog :=
  .when (beAt b 0 4 == 0x4B594342) [
    .each (flashImages (beAt b 4 2) (b.drop 16)) flashCommit,
    .ask fun d =>
      let mask := d.flashMask (beAt b 8 8)
      let switch := d.cfg.standby.version != 0
      let f := d.changeFault (d.changes switch mask) true
      if f.abort ≠ 0 then noteFault f
      else .when (switch || mask != 0) [applyChanges switch mask acked, applyStatus 2 none]]

/-- The retained configuration takes effect again after Deep Sleep (R110, R170). FE_ENABLE takes its value and starts nothing (R633). -/
def retainedConfig (acked : Bool) : Prog :=
  .ask fun d =>
    let ims := d.imagesAfter false d.cfg.mask
    let cs := (ims.flatMap (·.entries)).filterMap (d.changeOf ims)
    .all [
      .each (cs.filter fun c => !startsUnit c.o) (applyChange acked),
      .each (cs.filter fun c => startsUnit c.o) fun c =>
        if c.o == .feEnable then .eff (.obj c.o c.i c.j c.v) else applyChange acked c]

end Sys2Proof.Machine
end

