-- ==== Sys2Proof/Machine/Umani.lean ====
section
/-!
DEFINITION. Umani requests: messages and their transports (R140 to R150, R180, R181), the execution of every command object, and block transfers.
-/
namespace Sys2Proof.Machine

/-! ## Execution of commands and of table commands -/

/-- A number of an argument, in the byte order of its path. -/
def argNum (p : UPath) (b : List Byte) : Nat := if pathLittle p then leNat b else beNat b

/-- The table of a TABLEREF (Table 5.2). -/
def tableOf : Obj → Option Nat
  | .fwdEm => some 1
  | .fwdRoute4 => some 2
  | .fwdRoute6 => some 3
  | .fwdNexthop => some 4
  | .fwdEcmp => some 5
  | .frmStreamTable => some 6
  | .clsTcam => some 7
  | .clsRewrite => some 8
  | .tmMeters => some 16
  | .tmCounters => some 17
  | _ => none

/-- Whether an argument's length is right for an object, and what the execution does. `b` is the argument as the path carries it. -/
def execBeh (c : Call) (code : Nat) (env : Outcomes) (o : Obj) (i : Nat) (b : List Byte) : Bool × Beh :=
  let p := c.o.path
  let v := argNum p b
  let len (n : Nat) (x : Beh) : Bool × Beh := (b.length == n, x)
  match o with
  | .rstDevice => len 0 (rstDeviceBeh c code)
  | .rstInstance => len 2 (rstInstanceBeh code v env.lost.toNat)
  | .dictGroupClaim => len 1 (groupClaimBeh code v)
  | .dictGroupRelease => len 1 (groupReleaseBeh code v)
  | .cfgStageCommit => len 1 (commitBeh v)
  | .cfgApply => len 24 (cfgApplyBeh c code b)
  | .hifRingSetup => len 32 (ringSetupBeh code i b)
  | .hifRingTeardown => len 2 (ringTeardownBeh code i v)
  | .hifRingQuery => len 2 (ringQueryBeh p code i v)
  | .hifDmapSet => len 8 (dmapSetBeh p i v)
  | .feLaserRelease => len 0 (feLaserReleaseBeh c i env.persists env.acked)
  | .hvRearm => len 0 (hvRearmBeh c env.acked)
  | .dmtProfileSwitch => len 8 (dmtProfileSwitchBeh c i v)
  | .actRestart => len 0 (actRestartBeh i)
  | .portRestart => len 0 (portRestartBeh i)
  | .fabRestart => len 0 (fabRestartBeh i)
  | .fwdEpochSwitch => len 12 (epochSwitchBeh code b)
  | .tmQueueFlush => len 4 (queueFlushBeh v)
  | .tmSnapRequest => (true, snapRequestBeh code b)
  | .tmSnapRelease => len 1 (snapReleaseBeh code v)
  | .tmGateSwitch => len 12 (gateSwitchBeh code b)
  | .ciphMsSaLoad => len 72 (msSaLoadBeh code b)
  | .ciphFchKeyLoad => len 48 (keyLoadBeh code i b)
  | .ciphFchUsKeySwitch => len 8 (usKeySwitchBeh code i v)
  | .ciphLaOpen => len 64 (laOpenBeh code b)
  | .ciphLaClose => len 2 (laCloseBeh code v)
  | .ciphLaSubmit => len 16 (laSubmitBeh c code b env.jobs)
  | .timeSet => len 12 (timeSetBeh b)
  | .timeAdjust => len 8 (timeAdjustBeh v)
  | .timeTsRead => len 1 (timeTsReadBeh p v)
  | .timeTpoStart => len 12 (tpoBeh code b false)
  | .timeTpoStop => len 12 (tpoBeh code b true)
  | .rmCancel => len 1 (rmCancelBeh code v)
  | .secLifecycleAdvance => len 1 (lifecycleBeh code v env.otpFails)
  | .secRollbackCommit => len 1 (rollbackBeh v env.otpFails)
  | .secFlashProgram => len 16 (flashProgramBeh c code b)
  | .secAttest => len 32 (attestBeh code b env.otpFails)
  | .secKekAgree => len 100 (kekAgreeBeh code b)
  | .secKekClear => len 1 (kekClearBeh code v)
  | .secOwnerEnrol => len 0 (enrolBeh code env.otpFails)
  | .secOwnerLock => len 0 (ownerLockBeh code env.otpFails)
  | .secAuthIssue => len 0 (authIssueBeh code)
  | .secDebugUnlock => len 0 (debugUnlockBeh code)
  | .secDebugEnd => len 0 debugEndBeh
  | .evrRead => len 8 (evrReadBeh p b)
  | .evrFreeze => len 1 (match v with
    | 0 => evrUnfreezeBeh code
    | 1 => evrFreezeBeh code
    | _ => beh (fun _ => 0x0302) (fun _ => 0) fun _ => .done .skip [])
  | .evrClear => len 16 (evrClearBeh code b)
  | _ => match tableOf o with
    | some t => (true, tableBeh t c b)
    | none => (false, .plain fun _ => .done .skip [])

/-! ## Messages and transports -/

/-- The bytes of a message on the local serial path (Table 5.3). -/
def msgBytes (m : UMsg) : List Byte :=
  let p := m.o.path
  pathBytes p 2 m.o.code.toNat ++ pathBytes p 2 m.o.seq.toNat ++ pathBytes p 2 m.index.toNat ++ pathBytes p 1 m.sub.toNat
    ++ pathBytes p 1 (m.op.toNat * 16 + b2n m.response * 8 + b2n m.last * 4 + m.flags.toNat)
    ++ pathBytes p 2 m.abort.toNat ++ pathBytes p 2 m.length.toNat ++ pathBytes p 4 m.offset.toNat ++ m.data

/-- The I²C target's address byte without its direction bit (R60, R150). -/
def Dev.i2cAddr (d : Dev) : Nat := (0x54 + bitsOf (d.num .rstStraps) 4 2) * 2

/-- A message whose transport check fails: on the local serial path the packet error code over the address byte and the message (R150). -/
def Dev.checkFails (d : Dev) (m : UMsg) : Bool :=
  !m.checkOk || (m.o.path == .serial && m.pec.toNat != crc8 (BitVec.ofNat 8 d.i2cAddr :: msgBytes m))

/-- The faults of R143 for which a message is discarded without a response. A mailbox slot carries no length of its own (R180). -/
def Dev.msgFaulty (d : Dev) (m : UMsg) : Bool :=
  let max := pathMax m.o.path
  decide (m.delivered < 16) || decide (max < m.delivered) || m.response || d.checkFails m ||
    match m.o.path with
    | .mailbox _ _ _ => decide (max < 16 + m.length.toNat)
    | _ => m.delivered != (if m.op.toNat = 4 then 16 else 16 + m.length.toNat)

/-- A message is discarded and counted. A mailbox slot's BUSY bit clears and its DONE bit stays clear (R181); a ring's descriptor is finished. -/
def discardMsg (p : UPath) : Prog :=
  .all [slotTaken p false, count .umaniDiscards,
    match p with
    | .ring r => ringComplete r.val 0 0 0
    | _ => .skip]

/-- A request that came on a path is held at a gate; its row again lets it go on. -/
def Dev.heldOn (d : Dev) (p : UPath) : Bool := d.clk.held.any fun c => c.o.path == p

/-- A message comes out of its transport. A submission of mailbox slot 0 or of a busy slot is discarded (R181). A Umani ring takes its oldest
entry, once the entry before it is answered (R185); a stale, failed or malformed descriptor is finished with its status. -/
def transport (p : UPath) (q : Prog) : Prog :=
  match p with
  | .mailbox l f s => barWrite l.val f.val [.ask fun d =>
      if s.val = 0 ∨ bitOf (d.fn (fnKey l.val f.val)).busy s.val ∧ !d.heldOn p then badAccess l.val else q]
  | .ring r => .ask fun d =>
    let g := d.ringSt r.val
    match g.posted with
    | [] => .skip
    | x :: _ => .when (g.kind == 7 && d.ringLive r.val && ((d.path p).busy.isEmpty || d.heldOn p)) [
        if d.descFate r.val x ≠ 0 then ringComplete r.val (d.descFate r.val x) 0 0 else q]
  | _ => .ask fun d => .when d.answers [q]

/-- A message is discarded under R143, or its request runs. -/
def umaniRun (m : UMsg) (q : Prog) : Prog :=
  transport m.o.path (.ask fun d => if d.msgFaulty m then discardMsg m.o.path else q)

/-- The request of a message. -/
def msgCall (m : UMsg) : Call := ⟨m.o, m.op.toNat, m.index.toNat, m.sub.toNat⟩
/-- What a message names. -/
def msgTgt (m : UMsg) : Tgt := target m.index.toNat m.sub.toNat
/-- ABORT is 0 (R140), and so is OFFSET outside block operations. -/
def msgPlain (m : UMsg) : Bool := m.abort == 0 && m.offset == 0

/-- A request that names no element: subindex 0 of a RECORD or ARRAY reads its highest subindex (R137), and nothing else is there. -/
def umaniOther (m : UMsg) : Prog :=
  match msgTgt m with
  | .count idx => serve ⟨(msgCall m), .count idx, msgPlain m && m.data.isEmpty, .num 0⟩
      (.plain fun _ => .done .skip (pathBytes m.o.path 1 (highestSub idx)))
  | t => serve ⟨(msgCall m), t, msgPlain m, .num 0⟩ (.plain fun _ => .done .skip [])

/-- A read. -/
def umaniRead (m : UMsg) : Prog :=
  match msgTgt m with
  | .elem o i j => serve ⟨(msgCall m), .elem o i j, msgPlain m && m.length == 0, .num 0⟩ (readBeh m.o.path m.o.code.toNat o i j)
  | _ => umaniOther m

/-- The value that DATA of a write gives an object of a type; none when its length is wrong (R135). -/
def dataVal (p : UPath) (ty : Ty) (b : List Byte) : Option Val :=
  match ty with
  | .bool => if b.length = 1 then some (.num (argNum p b)) else none
  | .u w => if b.length = w / 8 then some (.num (argNum p b)) else none
  | .s w => if b.length = w / 8 then some (.num (argNum p b)) else none
  | _ => some (.oct b)

/-- A write. -/
def umaniWrite (m : UMsg) (env : Outcomes) : Prog :=
  match msgTgt m with
  | .elem o i j =>
    let v := dataVal m.o.path o.row.ty m.data
    serve ⟨(msgCall m), .elem o i j, msgPlain m && v.isSome, v.getD (.num 0)⟩
      (writeBeh (msgCall m) m.o.code.toNat env.acked o i j (v.getD (.num 0)))
  | _ => umaniOther m

/-- An execute. PWR_STATE_REQUEST has its own order of checks (Table 4.2), on the device `d0` that the message came to. -/
def umaniExecute (d0 : Dev) (m : UMsg) (env : Outcomes) : Prog :=
  match msgTgt m with
  | .elem .pwrStateRequest _ _ =>
    powerRequest d0 (msgCall m) (msgPlain m && m.data.length == 1) (argNum m.o.path m.data)
  | .elem o i j =>
    let x := execBeh (msgCall m) m.o.code.toNat env o i m.data
    serve ⟨(msgCall m), .elem o i j, msgPlain m && x.1, .oct m.data⟩ x.2
  | _ => umaniOther m

/-! ## Block transfers (R147 to R149) -/

/-- A requester's copy of an object. -/
def Dev.copyOf (d : Dev) (key code : Nat) : Option (List Byte) :=
  (d.bcs.find? fun x => x.key == key && x.code == code).map (·.data)

/-- A copy is released. -/
def dropCopy (key code : Nat) : Prog := .eff (.bcs fun l => l.filter fun x => !(x.key == key && x.code == code))

/-- A segment of a copy leaves; the copy is released when LAST has been sent. -/
def sendSegment (c : Call) (key code off want : Nat) (copy : List Byte) : Prog :=
  let last := decide (copy.length ≤ off + want)
  .all [
    dropCopy key code,
    .when (!last) [.eff (.bcs fun l => l ++ [⟨key, code, copy⟩])],
    respondWith ⟨c, 0, last, off, slice copy off want⟩]

/-- A block read: at OFFSET 0 the whole object is read and copied (R149). -/
def blockReadBeh (c : Call) (code key off want : Nat) (rb : Beh) : Beh :=
  beh (fun d =>
      if pathData c.o.path < want then 0x0301
      else match d.copyOf key code with
        | some b => if off ≠ 0 ∧ b.length < off then 0x0302 else 0
        | none => 0)
    (fun d => if off ≠ 0 then (if (d.copyOf key code).isNone then 0x0401 else 0) else rb.state d)
    fun d =>
      if off ≠ 0 then .later (sendSegment c key code off want ((d.copyOf key code).getD []))
      else match rb.act d with
        | .done p data => .later (.seq p (sendSegment c key code 0 want data))
        | r => r

/-- A block read. -/
def umaniBlockRead (m : UMsg) : Prog :=
  match msgTgt m with
  | .elem o i j => serve ⟨(msgCall m), .elem o i j, m.abort == 0, .num 0⟩
      (blockReadBeh (msgCall m) m.o.code.toNat (o.key i j) m.offset.toNat m.length.toNat (readBeh m.o.path m.o.code.toNat o i j))
  | _ => umaniOther m

/-- The largest value of an OCTETS type. -/
def Ty.size : Ty → Nat
  | .oct n => n
  | .octMax n => n
  | _ => 0

/-- The transfer a segment continues: the bytes before it. A segment with OFFSET 0 begins a transfer. -/
def Dev.transfer (d : Dev) (key code off : Nat) : Option (List Byte) :=
  if off = 0 then some []
  else (d.bws.find? fun x => x.key == key && x.code == code && x.next == off).map (·.data)

/-- A requester's transfer to an object ends. -/
def endTransfer (key code : Nat) : Prog := .eff (.bws fun l => l.filter fun x => !(x.key == key && x.code == code))

/-- A segment of a block write (R147, R148); `wb` writes the whole value. Any abort ends the transfer. -/
def blockWriteBeh (c : Call) (key : Nat) (ty : Ty) (off : Nat) (last : Bool) (data : List Byte) (wb : Val → Beh) : Beh :=
  let code (d : Dev) := d.codeOf c.o.path
  let whole (d : Dev) : List Byte := ((d.transfer key (code d) off).getD []) ++ data
  { pre := fun d =>
      if (d.transfer key (code d) off).isNone then 0x0301
      else if ty.size < (whole d).length then 0x0302
      else if last && !lenOk ty (.oct (whole d)) then 0x0301
      else if last then (wb (.oct (whole d))).pre d else 0
    state := fun d => firstAbort [
      (last && (wb (.oct (whole d))).state d != 0, (wb (.oct (whole d))).state d),
      (off == 0 && d.bws.any (fun x => x.key == key && x.code != code d), 0x0402)]
    act := fun d =>
      if !last then .done (.all [endTransfer key (code d),
        .eff (.bws fun l => l ++ [⟨key, code d, off + data.length, whole d⟩])]) []
      else match (wb (.oct (whole d))).act d with
        | .done p r => .done (.seq (endTransfer key (code d)) p) r
        | .abort a p => .abort a (.seq (endTransfer key (code d)) p)
        | .later p => .later (.seq (endTransfer key (code d)) p)
    note := fun d _ _ => endTransfer key (code d) }

/-- A block write. -/
def umaniBlockWrite (m : UMsg) : Prog :=
  match msgTgt m with
  | .elem o i j => serve ⟨(msgCall m), .elem o i j, m.abort == 0, .num 0⟩
      (blockWriteBeh (msgCall m) (o.key i j) o.row.ty m.offset.toNat m.last m.data
        (writeBeh (msgCall m) m.o.code.toNat true o i j))
  | _ => umaniOther m

/-! ## The meanings -/

/-- UMANI_READ. -/
def execUmaniRead (m : UMsg) (s : State) : Host.Outcome State Fault Refusal :=
  s.runIf (m.wf && m.op.toNat == 1) (umaniRun m (umaniRead m))

/-- UMANI_WRITE. -/
def execUmaniWrite (m : UMsg) (env : Outcomes) (s : State) : Host.Outcome State Fault Refusal :=
  s.runIf (m.wf && m.op.toNat == 2) (umaniRun m (umaniWrite m env))

/-- UMANI_EXECUTE. -/
def execUmaniExecute (m : UMsg) (env : Outcomes) (s : State) : Host.Outcome State Fault Refusal :=
  s.runIf (m.wf && m.op.toNat == 3) (umaniRun m (umaniExecute s.dev m env))

/-- UMANI_BLOCK_READ. -/
def execUmaniBlockRead (m : UMsg) (s : State) : Host.Outcome State Fault Refusal :=
  s.runIf (m.wf && m.op.toNat == 4) (umaniRun m (umaniBlockRead m))

/-- UMANI_BLOCK_WRITE. -/
def execUmaniBlockWrite (m : UMsg) (s : State) : Host.Outcome State Fault Refusal :=
  s.runIf (m.wf && m.op.toNat == 5) (umaniRun m (umaniBlockWrite m))

/-- UMANI_RESERVED_OPERATION (R141, R152). -/
def execUmaniReservedOperation (m : UMsg) (s : State) : Host.Outcome State Fault Refusal :=
  s.runIf (m.wf && (m.op.toNat == 0 || decide (5 < m.op.toNat))) (umaniRun m (umaniOther m))

/-- The message in a mailbox slot (R180): little-endian fields, and 16 + LENGTH bytes. -/
def slotMsg (p : UPath) (b : List Byte) : UMsg :=
  let n (off len : Nat) : Nat := leNat (padTo len (slice b off len))
  { o := ⟨p, BitVec.ofNat 16 (n 0 2), BitVec.ofNat 16 (n 2 2)⟩
    index := BitVec.ofNat 16 (n 4 2)
    sub := BitVec.ofNat 8 (n 6 1)
    op := BitVec.ofNat 4 (n 7 1 / 16)
    response := bitOf (n 7 1) 3
    last := bitOf (n 7 1) 2
    abort := BitVec.ofNat 16 (n 8 2)
    length := BitVec.ofNat 16 (n 10 2)
    offset := BitVec.ofNat 32 (n 12 4)
    data := if n 7 1 / 16 = 4 then [] else padTo (n 10 2) (b.drop 16)
    delivered := 16 + n 10 2
    checkOk := true
    flags := 0
    pec := 0 }

/-- MBX_SUBMIT (R180): `data`, if there is any, is written into the slot, and the slot is then submitted: it is read once and its request runs. -/
def execMbxSubmit (link : Fin 4) (fn : Fin 64) (slot : Fin 16) (data : List Byte) (env : Outcomes) (s : State) :
    Host.Outcome State Fault Refusal :=
  let k := fnKey link.val fn.val
  let m := slotMsg (.mailbox link fn slot) (if data.isEmpty then s.dev.slotBytes k slot.val else data)
  s.run (.all [
    .when (!data.isEmpty && s.dev.reaches link.val fn.val && !s.dev.hostClosed link.val fn.val) [slotWrite k slot.val 0 data],
    umaniRun m (match m.op.toNat with
    | 1 => umaniRead m
    | 2 => umaniWrite m env
    | 3 => umaniExecute s.dev m env
    | 4 => umaniBlockRead m
    | 5 => umaniBlockWrite m
    | _ => umaniOther m)])

/-- BLOCK_WRITE_ABANDON (R148): UMANI_BLOCK_TIMEOUT has passed without a segment. -/
def execBlockWriteAbandon (index : BitVec 16) (sub : BitVec 8) (s : State) : Host.Outcome State Fault Refusal :=
  s.run (live (match target index.toNat sub.toNat with
    | .elem o i j => .ask fun d => .each (d.bws.filter fun x => x.key == o.key i j) fun x =>
        .all [endTransfer x.key x.code, count .umaniBlocksAbandoned]
    | _ => .skip))

/-- BLOCK_READ_COPY_RELEASE (R149). -/
def execBlockReadCopyRelease (index : BitVec 16) (sub : BitVec 8) (code : BitVec 16) (s : State) : Host.Outcome State Fault Refusal :=
  s.run (live (match target index.toNat sub.toNat with
    | .elem o i j => dropCopy (o.key i j) code.toNat
    | _ => .skip))

/-- The address byte of a read at the strapped I²C address (R60, R150). -/
def Dev.i2cRead (d : Dev) : Byte := BitVec.ofNat 8 (d.i2cAddr + 1)

/-- I2C_RESPONSE_READ (R150): a status byte, the oldest waiting response, and the packet error code. The request is then no longer in
progress (R145). -/
def execI2cResponseRead (s : State) : Host.Outcome State Fault Refusal :=
  s.run (.ask fun d => .when d.answers [
    let out (b : List Byte) : Prog := send .response (pathKey .serial) 0 (b ++ [BitVec.ofNat 8 (crc8 (d.i2cRead :: b))])
    match d.i2c with
    | [] => out [0]
    | x :: rest => .all [
        out (1 :: respBytes x),
        .eff (.i2c fun _ => rest),
        .eff (.um (pathKey .serial) fun u => { u with busy := u.busy.erase x.call })]])

end Sys2Proof.Machine
end

