-- ==== Sys2Proof/Machine/Boot.lean ====
section
/-!
DEFINITION. The boot flow (R584 to R591), the boot-load window, and the exit from Deep Sleep and Off (R108 to R112).
-/
namespace Sys2Proof.Machine

/-! ## Stages -/

/-- A stage runs: its image, its hash, and ID_FW_VERSION for stage 2. -/
def runStage (kind : Nat) (b : List Byte) : Prog :=
  if kind = 1 then .all [
    .eff (.sec fun x => { x with run1 := stageSigned b }), putO .secStage1Hash 0 0 (sha (stageSigned b)), putN .idBootProgress 0 0 2]
  else .all [
    .eff (.sec fun x => { x with run2 := stageSigned b }), putO .secStage2Hash 0 0 (sha (stageSigned b)),
    putN .idFwVersion 0 0 (flashNum b 16 4), putN .idBootProgress 0 0 4]

/-- SEC_LMS_NEXT as stage 1 sets it (R600). -/
def Dev.lmsFirst (d : Dev) : Nat :=
  let r := d.otp / 2 ^ (8 * 0x300) % 2 ^ 1024
  if r = 0 then 0 else 1024 * (Nat.log2 r + 1)

/-- Stage 1 derives the identity and reads LMS_RESERVE (R594, R600), and the default of TR_THERMAL_LIMIT follows the grade. -/
def stageOne : Prog :=
  .ask fun d => .all [
    putN .idTerminal 0 0 d.terminalId, putO .secIdPubkey 0 0 d.idPub, putO .secLmsPubkey 0 0 d.lmsPub,
    putN .secLmsNext 0 0 d.lmsFirst,
    .eff (.obj .trThermalLimit 0 0 (d.dfltOf .trThermalLimit 0 0)),
    putN .idBootProgress 0 0 3]

/-- An image is rejected (Table 22.9); slot 2 is a host-loaded image. -/
def stageRejected (kind slot reason : Nat) : Prog := raise 450 noInst 0 (kind * 2 ^ 24 + slot * 2 ^ 16 + reason * 2 ^ 8)

/-- The device waits for a stage from the host (R587, R588). -/
def awaitStage (progress kind : Nat) : Prog :=
  .all [putN .idBootProgress 0 0 progress, .eff (.sec fun x => { x with blStatus := (kind - 1) * 2 ^ 24 })]

/-- The VENDOR_REVOKE bits that the running stage 1 burns (Table 21.6). -/
def Dev.revokes (d : Dev) : List Nat :=
  ((setBits 8 (flashNum d.sec.run1 21 1)).filter fun k => k != flashNum d.sec.run1 7 1).map (· + 8 * 0x1E0)

/-- The end of the boot flow: every path is served, and event 448 names the slot and the versions of the stages. -/
def bootEnd (slot : Nat) (env : Outcomes) : Prog :=
  .ask fun d => .all [
    putN .idBootProgress 0 0 6,
    raise 448 slot 0 (flashNum d.sec.run1 16 4) (flashNum d.sec.run2 16 4),
    otpProgram env.otpFails d.revokes]

/-- Steps 2 to 4 of Table 21.3 from slots in turn, with the fallback of R587; `next` follows with the slot that booted. -/
def bootSlots (next : Nat → Prog) : List Nat → Prog
  | [] => .skip
  | s :: rest =>
    .ask fun d =>
      let f := d.flashSlot s
      let r1 := d.stageReason 1 (regionSize 1) f.stage1 none
      if r1 ≠ 0 then .all [stageRejected 1 s r1, raise 449, if rest.isEmpty then awaitStage 0xE1 1 else bootSlots next rest]
      else .all [
        runStage 1 f.stage1, stageOne,
        .ask fun e =>
          let r2 := e.stageReason 2 (regionSize 2) f.stage2 (some (flashNum f.stage1 7 1))
          if r2 ≠ 0 then .all [stageRejected 2 s r2, raise 449, if rest.isEmpty then awaitStage 0xE2 2 else bootSlots next rest]
          else .all [runStage 2 f.stage2, putN .secBootSlot 0 0 s, next s]]

/-- SECURITY_ROM_START (Table 2.10, Table 21.3): a device-wide reset that nothing else asserts ends here at the latest (R93). The HV die starts
beside the ROM. `selfTest` is whether step 1 passes. -/
def execSecurityRomStart (selfTest : Bool) (env : Outcomes) (s : State) : Host.Outcome State Fault Refusal :=
  s.run (.all [hrefStarts, release, .ask fun d => .when (d.answers && d.pins.porstN && d.pins.href && d.num .idBootProgress == 0) [
    .when (d.hvEnable && d.pins.hvin && d.num .hvState == 0) [putN .hvState 0 0 1],
    if !selfTest then putN .idBootProgress 0 0 0xE0
    else .all [
      putN .idBootProgress 0 0 1,
      if bitOf (d.num .rstStraps) 2 then awaitStage 0x10 1
      else bootSlots (fun k => .all [
        .ask fun e => .when (e.lifecycle != 3) [flashConfig (e.flashSlot k).config env.acked],
        putN .idBootProgress 0 0 5, bootEnd k env]) [d.preferred, 1 - d.preferred]]]])

/-! ## The boot-load window (R588, Table 21.5) -/

/-- The stage that the open window awaits. -/
def Dev.awaited (d : Dev) : Option Nat :=
  match d.num .idBootProgress with
  | 0x10 => some 1
  | 0xE1 => some 1
  | 0x11 => some 2
  | 0xE2 => some 2
  | _ => none

/-- BL_GO_WRITE: BL_ADDR and BL_LENGTH as the host has written them, and the value of BL_GO. -/
def execBlGoWrite (addr : BitVec 64) (len : BitVec 32) (v : BitVec 32) (s : State) : Host.Outcome State Fault Refusal :=
  s.run (tlp 0 0 [.ask fun d =>
    if d.awaited.isNone then badAccess 0
    else .all [.eff (.sec fun x => { x with blAddr := addr.toNat, blLen := len.toNat }), blGo v.toNat]])

/-- BOOT_LOAD_COMPLETE: the fetched image is checked under R590. A failed fetch is a rejection without a reason of Table 21.7. -/
def execBootLoadComplete (image : List Byte) (fetched : Bool) (env : Outcomes) (s : State) : Host.Outcome State Fault Refusal :=
  s.run (.ask fun d => match d.awaited with
    | none => .skip
    | some kind => .when (d.answers && d.sec.blStatus / 2 ^ 24 == 2 && (!fetched || image.length == d.sec.blLen)) [
        let status (v : Nat) : Prog := .eff (.sec fun x => { x with blStatus := v })
        let r := d.stageReason kind image.length image (if kind = 2 then some (flashNum d.sec.run1 7 1) else none)
        if !fetched then status (4 * 2 ^ 24)
        else if r ≠ 0 then .all [status (4 * 2 ^ 24 + r), stageRejected kind 2 r]
        else .all [
          runStage kind image, status (3 * 2 ^ 24), putN .secBootSlot 0 0 0x80,
          if kind = 1 then .all [stageOne, putN .idBootProgress 0 0 0x11]
          else .all [retainedConfig env.acked, bootEnd 2 env]]])

/-! ## Exit from Deep Sleep and Off (R108 to R112) -/

/-- Whether the retained code resumes (R110): it fitted beside the retained state, and its hashes match. -/
def Dev.codeRetained (d : Dev) (fits : Bool) : Bool :=
  fits && sha d.sec.run1 == d.oct .secStage1Hash && sha d.sec.run2 == d.oct .secStage2Hash

/-- FIRMWARE_RESTORE (R110): from the retained code, from the slot that booted by steps 1 to 4 of
Table 21.3 with the fallback of R587, or from the host. -/
def restoreFirmware (fits selfTest : Bool) (env : Outcomes) : Prog :=
  .ask fun d =>
    let slot := d.num .secBootSlot
    if d.codeRetained fits then .all [
      stageOne, putN .idFwVersion 0 0 (flashNum d.sec.run2 16 4), retainedConfig env.acked, putN .idBootProgress 0 0 6]
    else if bitOf slot 7 then awaitStage 0x10 1
    else if !selfTest then putN .idBootProgress 0 0 0xE0
    else bootSlots (fun _ => .all [retainedConfig env.acked, putN .idBootProgress 0 0 6]) [slot, 1 - slot]

/-- The way the firmware is restored, as CODE of event 22: 1 retained code, 2 the slot that booted, 3 the host; 0 on exit from Off. -/
def Dev.restoreWay (d : Dev) (fits : Bool) : Nat :=
  if d.num .pwrState ≠ 3 then 0 else if d.codeRetained fits then 1 else if bitOf (d.num .secBootSlot) 7 then 3 else 2

/-- RAILS_RESTORED: the device is back in Run (R112, R119, R124). From Off the boot flow follows by SECURITY_ROM_START. -/
def execRailsRestored (fits selfTest : Bool) (env : Outcomes) (s : State) : Host.Outcome State Fault Refusal :=
  s.run (.ask fun d => .when (decide (3 ≤ d.num .pwrState) && !d.pins.pwrreqN && d.pins.porstN) [
    putN .pwrState 0 0 0,
    putN .pwrWakeCause 0 0 d.pwr.seen,
    .eff (.pins fun p => { p with pgCore := true, href := true, aonOn := true }),
    .eff (.pwr fun p => { p with seen := 0, elapsedDue := true, setDue := true }),
    raise 22 noInst (d.restoreWay fits) (top16 d.pwr.seen),
    strapped,
    elapsedUnknown,
    .when (d.num .pwrState == 3) [restoreFirmware fits selfTest env]])

end Sys2Proof.Machine
end

