-- ==== Sys2Proof/Machine/Mark.lean ====
section
/-!
DEFINITION. The frame mark of a fibre channel (R44, R646).
-/
namespace Sys2Proof.Machine

/-- A group dissolves at the next frame mark after a member has entered Initial, Listening or Disabled (R360). -/
def Dev.dissolves (d : Dev) (n : Nat) : Bool :=
  modeBond (d.num .actMode n) != 0 && (d.members n).any fun k => [0, 1, 6].contains (d.num .actState k)

/-- The work of every frame: the receive gain and the clipped samples (R204), automatic power control (R221), and the transmit settings that the
next burst takes (R208). -/
def frameAnalog (n : Nat) (m : FrameMeas) : Prog :=
  .ask fun d => .all [
    .when (d.num .feState n != 0) [countBy .feAdcClips n 0 m.clips.toNat],
    pgaUpdate n (toInt 16 m.level.toNat),
    apcUpdate n m.interior.toNat m.mon.toNat,
    .eff (.fch n fun c => { c with txNext := (d.num .feTxShape n, d.oct .feTxCoeff n, d.num .feTxAmplitude n) })]

/-- FRAME_MARK of channel `n`. Once the channel has had frame alignment its mark carries the frame number forward, through Holdover too (R83,
R291), and on the timing channel while TIME holds over although the channel has been disabled (R79); the PLLs follow the frame (R81, R82); the stamp of R561 follows, the circuits' work, and on the timing channel the sub-tick count starts again. `off` is the place of the
boundary in the present sub-tick, in ns. -/
def execFrameMark (n : Fin 4) (off : Fin 1000) (m : FrameMeas) (s : State) : Host.Outcome State Fault Refusal :=
  s.run (.ask fun d => .when d.answers [
    frameAnalog n.val m,
    .when (d.dissolves n.val) [dissolve n.val],
    pllFrame n.val,
    .when ((d.ch n.val).marks && (d.num .clkFchState 0 n.val != 0
        || (d.num .clkTimingChannel == n.val && d.num .clkTimingState == 3))) [
      putN .frmFrame n.val 0 ((d.num .frmFrame n.val + 1) % 2 ^ 51),
      frameStamp n.val ((d.num .frmFrame n.val + 1) % 2 ^ 51) off.val,
      .when (d.num .clkTimingChannel == n.val) [.eff (.tim fun t => { t with sub := 0 })],
      circuitMarks n.val]])

end Sys2Proof.Machine
end

