-- ==== Sys2Proof/Machine/Dispatch.lean ====
section
/-!
DEFINITION. The dispatch of a command to its meaning, one arm for each row of spec/opcode_table.json.
-/
namespace Sys2Proof.Machine

def exec (i : Instr) (s : State) : Host.Outcome State Fault Refusal :=
  match i with
  | .powerOnReset => Sys2Proof.Machine.execPowerOnReset s
  | .porstRelease hrefRunning pairs => Sys2Proof.Machine.execPorstRelease hrefRunning pairs s
  | .strapUnstable => Sys2Proof.Machine.execStrapUnstable s
  | .securityRomStart selfTest env => Sys2Proof.Machine.execSecurityRomStart selfTest env s
  | .supplyFailure => Sys2Proof.Machine.execSupplyFailure s
  | .supplyFailureRelease => Sys2Proof.Machine.execSupplyFailureRelease s
  | .hrefLoss => Sys2Proof.Machine.execHrefLoss s
  | .hrefLossReset => Sys2Proof.Machine.execHrefLossReset s
  | .recoveredRefLoss n => Sys2Proof.Machine.execRecoveredRefLoss n s
  | .pllLocked n => Sys2Proof.Machine.execPllLocked n s
  | .hrefOffsetAlarm offset => Sys2Proof.Machine.execHrefOffsetAlarm offset s
  | .clkTimingChannelWrite o v => Sys2Proof.Machine.execClkTimingChannelWrite o v s
  | .rstCauseStickyRead o => Sys2Proof.Machine.execRstCauseStickyRead o s
  | .rstCauseStickyWrite o v => Sys2Proof.Machine.execRstCauseStickyWrite o v s
  | .rstDevice o => Sys2Proof.Machine.execRstDevice o s
  | .deviceCommandReset => Sys2Proof.Machine.execDeviceCommandReset s
  | .rstInstance o arg lost => Sys2Proof.Machine.execRstInstance o arg lost s
  | .instanceResetRelease kind num => Sys2Proof.Machine.execInstanceResetRelease kind num s
  | .coreWatchdogExpiry lost => Sys2Proof.Machine.execCoreWatchdogExpiry lost s
  | .secWatchdogExpiry => Sys2Proof.Machine.execSecWatchdogExpiry s
  | .lifecycleViolation => Sys2Proof.Machine.execLifecycleViolation s
  | .tapReset tck => Sys2Proof.Machine.execTapReset tck s
  | .crossingOpen kind num => Sys2Proof.Machine.execCrossingOpen kind num s
  | .crossingTimeout x => Sys2Proof.Machine.execCrossingTimeout x s
  | .xingResampleFailure x pairs => Sys2Proof.Machine.execXingResampleFailure x pairs s
  | .gateDrainComplete domain => Sys2Proof.Machine.execGateDrainComplete domain s
  | .gateDrainTimeout domain => Sys2Proof.Machine.execGateDrainTimeout domain s
  | .gateHeldAccess domain => Sys2Proof.Machine.execGateHeldAccess domain s
  | .pwrStateRequest o arg => Sys2Proof.Machine.execPwrStateRequest o arg s
  | .dozeTimeout => Sys2Proof.Machine.execDozeTimeout s
  | .wakeNAssert => Sys2Proof.Machine.execWakeNAssert s
  | .ringmasterPrewake => Sys2Proof.Machine.execRingmasterPrewake s
  | .railsRestored fits selfTest env => Sys2Proof.Machine.execRailsRestored fits selfTest env s
  | .trOpTargetWrite o v => Sys2Proof.Machine.execTrOpTargetWrite o v s
  | .regulatorSettled milliVolts => Sys2Proof.Machine.execRegulatorSettled milliVolts s
  | .trSettleTimeout milliVolts regulatorSettled => Sys2Proof.Machine.execTrSettleTimeout milliVolts regulatorSettled s
  | .thermalLimitExceeded => Sys2Proof.Machine.execThermalLimitExceeded s
  | .thermalFloorRaise => Sys2Proof.Machine.execThermalFloorRaise s
  | .thermalFloorLower => Sys2Proof.Machine.execThermalFloorLower s
  | .umaniRead m => Sys2Proof.Machine.execUmaniRead m s
  | .umaniWrite m env => Sys2Proof.Machine.execUmaniWrite m env s
  | .umaniExecute m env => Sys2Proof.Machine.execUmaniExecute m env s
  | .umaniBlockRead m => Sys2Proof.Machine.execUmaniBlockRead m s
  | .umaniBlockWrite m => Sys2Proof.Machine.execUmaniBlockWrite m s
  | .umaniReservedOperation m => Sys2Proof.Machine.execUmaniReservedOperation m s
  | .blockWriteAbandon index sub => Sys2Proof.Machine.execBlockWriteAbandon index sub s
  | .blockReadCopyRelease index sub code => Sys2Proof.Machine.execBlockReadCopyRelease index sub code s
  | .i2cResponseRead => Sys2Proof.Machine.execI2cResponseRead s
  | .dictGroupClaim o group => Sys2Proof.Machine.execDictGroupClaim o group s
  | .dictGroupRelease o group => Sys2Proof.Machine.execDictGroupRelease o group s
  | .dictObjectWrite o index sub v acked => Sys2Proof.Machine.execDictObjectWrite o index sub v acked s
  | .cfgStageCommit o slot => Sys2Proof.Machine.execCfgStageCommit o slot s
  | .cfgApply o arg => Sys2Proof.Machine.execCfgApply o arg s
  | .overlayApply acked => Sys2Proof.Machine.execOverlayApply acked s
  | .mbxSubmit link fn slot data env => Sys2Proof.Machine.execMbxSubmit link fn slot data env s
  | .mbxDoneClear link fn mask => Sys2Proof.Machine.execMbxDoneClear link fn mask s
  | .leaseRenew link fn epoch => Sys2Proof.Machine.execLeaseRenew link fn epoch s
  | .hostIndexWrite link fn r ix descs => Sys2Proof.Machine.execHostIndexWrite link fn r ix descs s
  | .dmapSlotRead link fn slot => Sys2Proof.Machine.execDmapSlotRead link fn slot s
  | .barReservedAccess link fn acc => Sys2Proof.Machine.execBarReservedAccess link fn acc s
  | .bar2Access write addr => Sys2Proof.Machine.execBar2Access write addr s
  | .pcieConfigRequest link fn ready req => Sys2Proof.Machine.execPcieConfigRequest link fn ready req s
  | .pcieLinkUp link speed width => Sys2Proof.Machine.execPcieLinkUp link speed width s
  | .pcieLinkDown link lost => Sys2Proof.Machine.execPcieLinkDown link lost s
  | .perstLow link lost => Sys2Proof.Machine.execPerstLow link lost s
  | .perstRise link => Sys2Proof.Machine.execPerstRise link s
  | .pcieHotReset link lost => Sys2Proof.Machine.execPcieHotReset link lost s
  | .functionLevelReset link fn lost => Sys2Proof.Machine.execFunctionLevelReset link fn lost s
  | .functionD3ToD0 link fn lost => Sys2Proof.Machine.execFunctionD3ToD0 link fn lost s
  | .vfEnableSet link numVfs => Sys2Proof.Machine.execVfEnableSet link numVfs s
  | .vfEnableClear link => Sys2Proof.Machine.execVfEnableClear link s
  | .msixVectorUnmask link fn vector => Sys2Proof.Machine.execMsixVectorUnmask link fn vector s
  | .hifRingSetup o link arg => Sys2Proof.Machine.execHifRingSetup o link arg s
  | .hifRingTeardown o link ring => Sys2Proof.Machine.execHifRingTeardown o link ring s
  | .hifRingQuery o link ring => Sys2Proof.Machine.execHifRingQuery o link ring s
  | .hifDmapSet o link arg => Sys2Proof.Machine.execHifDmapSet o link arg s
  | .hostTxDescriptor r => Sys2Proof.Machine.execHostTxDescriptor r s
  | .ringItrExpiry r => Sys2Proof.Machine.execRingItrExpiry r s
  | .leaseExpiry link fn => Sys2Proof.Machine.execLeaseExpiry link fn s
  | .leaseQuarterWarning link fn => Sys2Proof.Machine.execLeaseQuarterWarning link fn s
  | .feEnableWrite o n v acked => Sys2Proof.Machine.execFeEnableWrite o n v acked s
  | .feApdTargetWrite o n v acked => Sys2Proof.Machine.execFeApdTargetWrite o n v acked s
  | .apdBiasAtTarget n => Sys2Proof.Machine.execApdBiasAtTarget n s
  | .apdCurrentLimit n => Sys2Proof.Machine.execApdCurrentLimit n s
  | .feTxCoeffWrite o n b => Sys2Proof.Machine.execFeTxCoeffWrite o n b s
  | .hvControlMessage crcOk m => Sys2Proof.Machine.execHvControlMessage crcOk m s
  | .hvCommandResend n acked => Sys2Proof.Machine.execHvCommandResend n acked s
  | .hvHeartbeat steady => Sys2Proof.Machine.execHvHeartbeat steady s
  | .hvWatchdogExpiry => Sys2Proof.Machine.execHvWatchdogExpiry s
  | .hvRearm o acked => Sys2Proof.Machine.execHvRearm o acked s
  | .hvinUndervoltage => Sys2Proof.Machine.execHvinUndervoltage s
  | .hvinRecovery => Sys2Proof.Machine.execHvinRecovery s
  | .boostInRegulation => Sys2Proof.Machine.execBoostInRegulation s
  | .boostOutOfRange => Sys2Proof.Machine.execBoostOutOfRange s
  | .hvOvertemp => Sys2Proof.Machine.execHvOvertemp s
  | .rogueMonitorLatch n => Sys2Proof.Machine.execRogueMonitorLatch n s
  | .rogueOnLimitLatch n => Sys2Proof.Machine.execRogueOnLimitLatch n s
  | .feLaserRelease o n persists acked => Sys2Proof.Machine.execFeLaserRelease o n persists acked s
  | .subTick => Sys2Proof.Machine.execSubTick s
  | .frameMark n off m => Sys2Proof.Machine.execFrameMark n off m s
  | .dmtFrameDecode n f => Sys2Proof.Machine.execDmtFrameDecode n f s
  | .trainingPairFound n x => Sys2Proof.Machine.execTrainingPairFound n x s
  | .dmtLockAcquired n => Sys2Proof.Machine.execDmtLockAcquired n s
  | .dmtTrainingLoss n => Sys2Proof.Machine.execDmtTrainingLoss n s
  | .dmtProfileWrite o n p b => Sys2Proof.Machine.execDmtProfileWrite o n p b s
  | .dmtProfileEnableWrite o n v => Sys2Proof.Machine.execDmtProfileEnableWrite o n v s
  | .dmtProfileSwitch o n arg => Sys2Proof.Machine.execDmtProfileSwitch o n arg s
  | .profileSwitchFire n => Sys2Proof.Machine.execProfileSwitchFire n s
  | .snrPeriodEnd n => Sys2Proof.Machine.execSnrPeriodEnd n s
  | .mgtPreambleDetect n p seen strength => Sys2Proof.Machine.execMgtPreambleDetect n p seen strength s
  | .mgtDelimiterFound n p start bits refined => Sys2Proof.Machine.execMgtDelimiterFound n p start bits refined s
  | .mgtFalseStart n p => Sys2Proof.Machine.execMgtFalseStart n p s
  | .mgtHeaderReceived n p standby bits => Sys2Proof.Machine.execMgtHeaderReceived n p standby bits s
  | .mgtPacketReceived n p body => Sys2Proof.Machine.execMgtPacketReceived n p body s
  | .mgtTxStart n => Sys2Proof.Machine.execMgtTxStart n s
  | .mgtTxComplete n => Sys2Proof.Machine.execMgtTxComplete n s
  | .framerFrame n f => Sys2Proof.Machine.execFramerFrame n f s
  | .frameSyncEntry n => Sys2Proof.Machine.execFrameSyncEntry n s
  | .frameSyncLoss n => Sys2Proof.Machine.execFrameSyncLoss n s
  | .lofDeclare n => Sys2Proof.Machine.execLofDeclare n s
  | .losDeclare n => Sys2Proof.Machine.execLosDeclare n s
  | .losClear n => Sys2Proof.Machine.execLosClear n s
  | .aisDeclare n => Sys2Proof.Machine.execAisDeclare n s
  | .aisClear n => Sys2Proof.Machine.execAisClear n s
  | .fecDegWindowEnd n => Sys2Proof.Machine.execFecDegWindowEnd n s
  | .encapFrame n fault => Sys2Proof.Machine.execEncapFrame n fault s
  | .chainTimeout n => Sys2Proof.Machine.execChainTimeout n s
  | .pmSecondCommit n => Sys2Proof.Machine.execPmSecondCommit n s
  | .timingMessage n carried b => Sys2Proof.Machine.execTimingMessage n carried b s
  | .circuitContainer n stream errored data => Sys2Proof.Machine.execCircuitContainer n stream errored data s
  | .pwPacketForm c => Sys2Proof.Machine.execPwPacketForm c s
  | .pwPacketReceived c data => Sys2Proof.Machine.execPwPacketReceived c data s
  | .pwLossTimeout c => Sys2Proof.Machine.execPwLossTimeout c s
  | .circConfigWrite o c b => Sys2Proof.Machine.execCircConfigWrite o c b s
  | .window n m => Sys2Proof.Machine.execWindow n m s
  | .assign n m => Sys2Proof.Machine.execAssign n m s
  | .offer n m => Sys2Proof.Machine.execOffer n m s
  | .confirm n m => Sys2Proof.Machine.execConfirm n m s
  | .eqd n m => Sys2Proof.Machine.execEqd n m s
  | .alloc n m => Sys2Proof.Machine.execAlloc n m s
  | .activate n m => Sys2Proof.Machine.execActivate n m s
  | .refuse n m => Sys2Proof.Machine.execRefuse n m s
  | .deactivate n m => Sys2Proof.Machine.execDeactivate n m s
  | .disable n m => Sys2Proof.Machine.execDisable n m s
  | .enable n m => Sys2Proof.Machine.execEnable n m s
  | .rdi n m => Sys2Proof.Machine.execRdi n m s
  | .dozeReply n m => Sys2Proof.Machine.execDozeReply n m s
  | .wake n m => Sys2Proof.Machine.execWake n m s
  | .qualityRequest n m => Sys2Proof.Machine.execQualityRequest n m s
  | .announce n offset backoff => Sys2Proof.Machine.execAnnounce n offset backoff s
  | .rangingBurst n => Sys2Proof.Machine.execRangingBurst n s
  | .announceTimeout n => Sys2Proof.Machine.execAnnounceTimeout n s
  | .rangeTimeout n => Sys2Proof.Machine.execRangeTimeout n s
  | .holdTimeout n => Sys2Proof.Machine.execHoldTimeout n s
  | .refuseHoldoffEnd n => Sys2Proof.Machine.execRefuseHoldoffEnd n s
  | .actRestart o n => Sys2Proof.Machine.execActRestart o n s
  | .actEqdWrite o n v => Sys2Proof.Machine.execActEqdWrite o n v s
  | .modeApply n => Sys2Proof.Machine.execModeApply n s
  | .grantEntry n frame entry => Sys2Proof.Machine.execGrantEntry n frame entry s
  | .burstStart n fault read => Sys2Proof.Machine.execBurstStart n fault read s
  | .dozeStart n => Sys2Proof.Machine.execDozeStart n s
  | .portModeWrite o p v => Sys2Proof.Machine.execPortModeWrite o p v s
  | .portEnableWrite o p v => Sys2Proof.Machine.execPortEnableWrite o p v s
  | .portRestart o p => Sys2Proof.Machine.execPortRestart o p s
  | .autonegComplete p modes rs base eee => Sys2Proof.Machine.execAutonegComplete p modes rs base eee s
  | .linkTrainingComplete p lanes steps => Sys2Proof.Machine.execLinkTrainingComplete p lanes steps s
  | .linkTrainingTimeout p responded asks steps => Sys2Proof.Machine.execLinkTrainingTimeout p responded asks steps s
  | .portLocalFault p => Sys2Proof.Machine.execPortLocalFault p s
  | .localFaultTimeout p => Sys2Proof.Machine.execLocalFaultTimeout p s
  | .portRemoteFault p => Sys2Proof.Machine.execPortRemoteFault p s
  | .portFaultClear p => Sys2Proof.Machine.execPortFaultClear p s
  | .fomMarginLow p lane fom => Sys2Proof.Machine.execFomMarginLow p lane fom s
  | .fomRetrain p fom => Sys2Proof.Machine.execFomRetrain p fom s
  | .eeeTxEnter p => Sys2Proof.Machine.execEeeTxEnter p s
  | .eeeTxWake p => Sys2Proof.Machine.execEeeTxWake p s
  | .eeeRxLpi p enter => Sys2Proof.Machine.execEeeRxLpi p enter s
  | .lldpTx p => Sys2Proof.Machine.execLldpTx p s
  | .ethRxFrame p f fault => Sys2Proof.Machine.execEthRxFrame p f fault s
  | .ethTxFrame p off lat fault => Sys2Proof.Machine.execEthTxFrame p off lat fault s
  | .quadPllUnlock g quad => Sys2Proof.Machine.execQuadPllUnlock g quad s
  | .portMacCountersRead o p => Sys2Proof.Machine.execPortMacCountersRead o p s
  | .fabEnableWrite o g v => Sys2Proof.Machine.execFabEnableWrite o g v s
  | .fabRestart o g => Sys2Proof.Machine.execFabRestart o g s
  | .fabAligned g lanes => Sys2Proof.Machine.execFabAligned g lanes s
  | .fabAlignTimeout g => Sys2Proof.Machine.execFabAlignTimeout g s
  | .fabHelloTimeout g => Sys2Proof.Machine.execFabHelloTimeout g s
  | .fabHelloTx g => Sys2Proof.Machine.execFabHelloTx g s
  | .fabHelloRx g m => Sys2Proof.Machine.execFabHelloRx g m s
  | .fabConfirmRx g m => Sys2Proof.Machine.execFabConfirmRx g m s
  | .fabCreditSyncTx g => Sys2Proof.Machine.execFabCreditSyncTx g s
  | .fabCreditSyncRx g m => Sys2Proof.Machine.execFabCreditSyncRx g m s
  | .fabCellRx g b => Sys2Proof.Machine.execFabCellRx g b s
  | .fabLaneLoss g lane blocks => Sys2Proof.Machine.execFabLaneLoss g lane blocks s
  | .fabClockLoss g => Sys2Proof.Machine.execFabClockLoss g s
  | .fabRebuildTimeout g => Sys2Proof.Machine.execFabRebuildTimeout g s
  | .packetIngress a => Sys2Proof.Machine.execPacketIngress a s
  | .carouselDispatch => Sys2Proof.Machine.execCarouselDispatch s
  | .packetForward id srcBad dstBad => Sys2Proof.Machine.execPacketForward id srcBad dstBad s
  | .reorderTimeout dom => Sys2Proof.Machine.execReorderTimeout dom s
  | .learnInsert => Sys2Proof.Machine.execLearnInsert s
  | .tableSearch src => Sys2Proof.Machine.execTableSearch src s
  | .tableNext src => Sys2Proof.Machine.execTableNext src s
  | .tableInsert src => Sys2Proof.Machine.execTableInsert src s
  | .tableDelete src => Sys2Proof.Machine.execTableDelete src s
  | .tableFlush src => Sys2Proof.Machine.execTableFlush src s
  | .flushComplete => Sys2Proof.Machine.execFlushComplete s
  | .tableLock src => Sys2Proof.Machine.execTableLock src s
  | .tableUnlock src => Sys2Proof.Machine.execTableUnlock src s
  | .ageTick => Sys2Proof.Machine.execAgeTick s
  | .scrubPass table place => Sys2Proof.Machine.execScrubPass table place s
  | .fwdCarvingWrite o v => Sys2Proof.Machine.execFwdCarvingWrite o v s
  | .carvingComplete => Sys2Proof.Machine.execCarvingComplete s
  | .fwdEpochSwitch o arg => Sys2Proof.Machine.execFwdEpochSwitch o arg s
  | .tableEpochSwitchFire => Sys2Proof.Machine.execTableEpochSwitchFire s
  | .epochDrained => Sys2Proof.Machine.execEpochDrained s
  | .schedulerDequeue p read => Sys2Proof.Machine.execSchedulerDequeue p read s
  | .tmQueueCfgWrite o q b => Sys2Proof.Machine.execTmQueueCfgWrite o q b s
  | .tmSubCfgWrite o n b => Sys2Proof.Machine.execTmSubCfgWrite o n b s
  | .tmSvcCfgWrite o n b => Sys2Proof.Machine.execTmSvcCfgWrite o n b s
  | .tmPortCfgWrite o p b => Sys2Proof.Machine.execTmPortCfgWrite o p b s
  | .tmGateAdminWrite o p b => Sys2Proof.Machine.execTmGateAdminWrite o p b s
  | .tmGateSwitch o arg => Sys2Proof.Machine.execTmGateSwitch o arg s
  | .gateListSwitchFire p sending => Sys2Proof.Machine.execGateListSwitchFire p sending s
  | .gateIntervalEnd p => Sys2Proof.Machine.execGateIntervalEnd p s
  | .tmQueueFlush o arg => Sys2Proof.Machine.execTmQueueFlush o arg s
  | .tmSnapRequest o arg => Sys2Proof.Machine.execTmSnapRequest o arg s
  | .tmSnapRelease o slot => Sys2Proof.Machine.execTmSnapRelease o slot s
  | .snapshotCapture slot => Sys2Proof.Machine.execSnapshotCapture slot s
  | .snapshotCaptureComplete slot => Sys2Proof.Machine.execSnapshotCaptureComplete slot s
  | .snapshotRingDeliver slot => Sys2Proof.Machine.execSnapshotRingDeliver slot s
  | .dramHeadRefill q => Sys2Proof.Machine.execDramHeadRefill q s
  | .dramCfgWrite o c v => Sys2Proof.Machine.execDramCfgWrite o c v s
  | .dramSpeedWrite o v => Sys2Proof.Machine.execDramSpeedWrite o v s
  | .dramEnableWrite o c v => Sys2Proof.Machine.execDramEnableWrite o c v s
  | .dramTrainingComplete c => Sys2Proof.Machine.execDramTrainingComplete c s
  | .dramTrainingFail c step lanesA lanesB => Sys2Proof.Machine.execDramTrainingFail c step lanesA lanesB s
  | .dramRetrain c => Sys2Proof.Machine.execDramRetrain c s
  | .dramMr4Poll c doubled above => Sys2Proof.Machine.execDramMr4Poll c doubled above s
  | .dramRefresh c sub bank postpone => Sys2Proof.Machine.execDramRefresh c sub bank postpone s
  | .dramAlert c sub => Sys2Proof.Machine.execDramAlert c sub s
  | .dramReadComplete c sub outcome => Sys2Proof.Machine.execDramReadComplete c sub outcome s
  | .dramDrainComplete c => Sys2Proof.Machine.execDramDrainComplete c s
  | .dramRepairComplete c => Sys2Proof.Machine.execDramRepairComplete c s
  | .ciphFchKeyLoad o n b => Sys2Proof.Machine.execCiphFchKeyLoad o n b s
  | .ciphFchUsKeySwitch o n arg => Sys2Proof.Machine.execCiphFchUsKeySwitch o n arg s
  | .usKeySwitchFire n => Sys2Proof.Machine.execUsKeySwitchFire n s
  | .ciphFchKeyLimitWrite o n v => Sys2Proof.Machine.execCiphFchKeyLimitWrite o n v s
  | .ciphMsSaLoad o b => Sys2Proof.Machine.execCiphMsSaLoad o b s
  | .ciphMsContextWrite o c b => Sys2Proof.Machine.execCiphMsContextWrite o c b s
  | .ciphLaOpen o b => Sys2Proof.Machine.execCiphLaOpen o b s
  | .ciphLaSubmit o b jobs => Sys2Proof.Machine.execCiphLaSubmit o b jobs s
  | .laJobComplete fault => Sys2Proof.Machine.execLaJobComplete fault s
  | .ciphLaClose o n => Sys2Proof.Machine.execCiphLaClose o n s
  | .timeSet o b => Sys2Proof.Machine.execTimeSet o b s
  | .timeAdjust o ps => Sys2Proof.Machine.execTimeAdjust o ps s
  | .timeSourceWrite o v => Sys2Proof.Machine.execTimeSourceWrite o v s
  | .slewComplete => Sys2Proof.Machine.execSlewComplete s
  | .sourceValidTimeout => Sys2Proof.Machine.execSourceValidTimeout s
  | .timeTsRead o k => Sys2Proof.Machine.execTimeTsRead o k s
  | .tpiCaptureEdge input rising off => Sys2Proof.Machine.execTpiCaptureEdge input rising off s
  | .timeTpoCfgWrite o out b => Sys2Proof.Machine.execTimeTpoCfgWrite o out b s
  | .timeTpoStart o b => Sys2Proof.Machine.execTimeTpoStart o b s
  | .timeTpoStop o b => Sys2Proof.Machine.execTimeTpoStop o b s
  | .pulseTrainStartFire out off => Sys2Proof.Machine.execPulseTrainStartFire out off s
  | .pulseTrainStopFire out off => Sys2Proof.Machine.execPulseTrainStopFire out off s
  | .pulseEdge out off => Sys2Proof.Machine.execPulseEdge out off s
  | .timeSyncoWrite o x v => Sys2Proof.Machine.execTimeSyncoWrite o x v s
  | .rmCancel o slot => Sys2Proof.Machine.execRmCancel o slot s
  | .actionCommit slot => Sys2Proof.Machine.execActionCommit slot s
  | .blGoWrite addr len v => Sys2Proof.Machine.execBlGoWrite addr len v s
  | .bootLoadComplete image fetched env => Sys2Proof.Machine.execBootLoadComplete image fetched env s
  | .secLifecycleAdvance o target fails => Sys2Proof.Machine.execSecLifecycleAdvance o target fails s
  | .secRollbackCommit o v fails => Sys2Proof.Machine.execSecRollbackCommit o v fails s
  | .secFlashProgram o arg => Sys2Proof.Machine.execSecFlashProgram o arg s
  | .flashProgramComplete image fetched => Sys2Proof.Machine.execFlashProgramComplete image fetched s
  | .secKekAgree o arg => Sys2Proof.Machine.execSecKekAgree o arg s
  | .secKekClear o slot => Sys2Proof.Machine.execSecKekClear o slot s
  | .secAttest o nonce fails => Sys2Proof.Machine.execSecAttest o nonce fails s
  | .secChallengeRead o => Sys2Proof.Machine.execSecChallengeRead o s
  | .secOwnerEnrol o fails => Sys2Proof.Machine.execSecOwnerEnrol o fails s
  | .secOwnerLock o fails => Sys2Proof.Machine.execSecOwnerLock o fails s
  | .secAuthIssue o => Sys2Proof.Machine.execSecAuthIssue o s
  | .secDebugUnlock o => Sys2Proof.Machine.execSecDebugUnlock o s
  | .secDebugEnd o => Sys2Proof.Machine.execSecDebugEnd o s
  | .trngHealthFail => Sys2Proof.Machine.execTrngHealthFail s
  | .eventRecord merged => Sys2Proof.Machine.execEventRecord merged s
  | .evrRead o arg => Sys2Proof.Machine.execEvrRead o arg s
  | .evrFreezeStart o => Sys2Proof.Machine.execEvrFreezeStart o s
  | .evrFreezeEnd o => Sys2Proof.Machine.execEvrFreezeEnd o s
  | .evrFreezeLimit => Sys2Proof.Machine.execEvrFreezeLimit s
  | .evrClear o token => Sys2Proof.Machine.execEvrClear o token s
  | .thermAssert => Sys2Proof.Machine.execThermAssert s
  | .thermRelease => Sys2Proof.Machine.execThermRelease s
  | .thermMonitorFault => Sys2Proof.Machine.execThermMonitorFault s
  | .vcoreOutOfRange => Sys2Proof.Machine.execVcoreOutOfRange s
  | .railOutOfRange rail outside => Sys2Proof.Machine.execRailOutOfRange rail outside s
  | .lgPersonalityWrite o g v => Sys2Proof.Machine.execLgPersonalityWrite o g v s
  | .pcsLockAcquired p foms => Sys2Proof.Machine.execPcsLockAcquired p foms s
  | .pcieL1Exit link => Sys2Proof.Machine.execPcieL1Exit link s
  | .aerErrorLogged link uncorrectable => Sys2Proof.Machine.execAerErrorLogged link uncorrectable s
  | .coreWatchdogResetRelease => Sys2Proof.Machine.execCoreWatchdogResetRelease s
  | .feLaserForceOffWrite o n v => Sys2Proof.Machine.execFeLaserForceOffWrite o n v s

end Sys2Proof.Machine
end

