-- ==== Sys2Proof/Safety.lean ====
section
/-!
DEFINITION. The terms the statements use: effects one after another, a request that its path admits, what it leaves when
it is answered, and what holds of every state of a run.
-/
namespace Sys2Proof.Machine

/-! ## Effects -/

/-- The device after effects, first to last. -/
def Dev.after (d : Dev) (es : List Eff) : Dev := es.foldl (fun x e => e.apply x) d

/-- The state after effects on its device; the queue is untouched. -/
def State.after (s : State) (es : List Eff) : State := { s with dev := s.dev.after es }

/-! ## Requests -/

/-- The device once a request has arrived: it is in progress on its path (R145), and a mailbox slot shows BUSY and not DONE (R180). -/
def Dev.taken (d : Dev) (c : Call) : Dev :=
  { d with
    fns := match c.o.path with
      | .mailbox l f s => SMap.upd Fn.none (fnKey l.val f.val)
          (fun y => { y with busy := putBit y.busy s.val true, done := putBit y.done s.val false }) d.fns
      | _ => d.fns
    um := SMap.upd UPathSt.none (pathKey c.o.path) (fun u => { u with busy := u.busy ++ [c] }) d.um }

/-- A request is taken up: the device answers and is in the Run state with no entry to another state in progress, boot is over
(R586), its path has neither a stored response nor a request in progress with its SEQUENCE (R146) and fewer than 16 requests (R145), and no gate holds
its block's clock (R102, R105). -/
def Dev.hears (d : Dev) (c : Call) : Prop :=
  d.answers = true ∧ d.num .pwrState = 0 ∧ d.pwr.req = none ∧ d.unready c = false ∧
  (∀ x ∈ (d.path c.o.path).sent, x.call.o.seq ≠ c.o.seq) ∧ (∀ x ∈ (d.path c.o.path).busy, x.o.seq ≠ c.o.seq) ∧
  (d.path c.o.path).busy.length < 16 ∧ d.gated c.index = false

/-- A request is taken up, and orders 1 to 7 of Table 5.8 and a Closed crossing (Table 3.9) find nothing against it. -/
def Dev.admits (d : Dev) (r : Req) : Prop :=
  d.hears r.call ∧ (d.taken r.call).early r = 0 ∧ (d.taken r.call).later r = 0

/-- In the Run state, no entry to another state in progress: a wake source does nothing. -/
def Dev.inRun (d : Dev) : Prop := d.num .pwrState = 0 ∧ d.pwr.req = none

/-- A message comes out of its path's transport (R143, R150, R180, R185): a free mailbox slot of a function the link reaches; the oldest
entry of a live Umani ring with a descriptor that may be used (Table 6.9), the entry before it answered; any message elsewhere. -/
def Dev.brings (d : Dev) : UPath → Prop
  | .mailbox l f s => d.reaches l.val f.val = true ∧ d.hostClosed l.val f.val = false ∧ s.val ≠ 0 ∧
      bitOf (d.fn (fnKey l.val f.val)).busy s.val = false
  | .ring r => ∃ x rest, (d.ringSt r.val).posted = x :: rest ∧ (d.ringSt r.val).kind = 7 ∧ d.ringLive r.val = true ∧
      (d.path (.ring r)).busy = [] ∧ d.descFate r.val x = 0
  | _ => d.answers = true

/-- The state after a request that was taken up, then did these effects, and then was answered with this response. -/
def State.answered (s : State) (x : Resp) (es : List Eff) : State :=
  { s with dev := (respondWith x).run ((s.dev.taken x.call).after es) }

/-- The state after a request that was taken up, then did these effects, and then was answered done with DATA. -/
def State.served (s : State) (c : Call) (es : List Eff) (data : List Byte) : State :=
  { s with dev := (respond c 0 data).run ((s.dev.taken c).after es) }

/-- The same for an answer with an abort code. -/
def State.refusedWith (s : State) (c : Call) (es : List Eff) (abort : Nat) : State :=
  { s with dev := (respond c abort []).run ((s.dev.taken c).after es) }

/-- The state after a request that was taken up and did these effects, its answer being owed. -/
def State.owing (s : State) (c : Call) (es : List Eff) : State :=
  { s with dev := (s.dev.taken c).after es }

/-- The write request of a row that names its object. -/
def writeReq (o : Origin) (x : Obj) (i j : Nat) (v : Val) : Req := elemReq o 2 x i j v

/-- The execute request of a row that names its command. -/
def execReq (o : Origin) (x : Obj) (i j : Nat) (form : Bool) (arg : Val) : Req :=
  ⟨⟨o, 3, x.index i j, x.subOf j⟩, .elem x i j, form, arg⟩

/-- The read request of a row that names its object. -/
def readReq (o : Origin) (x : Obj) (i j : Nat) (v : Val) : Req := elemReq o 1 x i j v

/-- Tightrope's move to a point, whose answer may be owed (R128); nothing where the point is in force. -/
def Dev.moveEffs (d : Dev) (p : Nat) (c : Option Call) : List Eff :=
  if p = d.pwr.clkPoint ∧ p = d.pwr.voltPoint then []
  else [.obj .trState 0 0 (.num 1),
    .pwr fun x => { x with moveTo := some p, moveCall := c, voltPoint := min x.voltPoint p, clkPoint := max x.clkPoint p },
    .out ⟨.avs, 0, pointMv p, []⟩]

/-! ## Frames -/

/-- The parts of the device beside its objects. -/
inductive Part where
  | otp | recd | acts | occs | outs | pins | clk | pwr | cfg | tim | um | bws
  | bcs | i2c | fns | rings | vecs | links | fch | hvUnder | hvBeat | hvTrip | tbl | keys
  | uses | la | fwd | tm | circ | ports | fab | dram | sec | free
  deriving DecidableEq, Repr

/-- A part is the same in two devices. -/
def Part.same (d t : Dev) : Part → Prop
  | .otp => t.otp = d.otp
  | .recd => t.recd = d.recd
  | .acts => t.acts = d.acts
  | .occs => t.occs = d.occs
  | .outs => t.outs = d.outs
  | .pins => t.pins = d.pins
  | .clk => t.clk = d.clk
  | .pwr => t.pwr = d.pwr
  | .cfg => t.cfg = d.cfg
  | .tim => t.tim = d.tim
  | .um => t.um = d.um
  | .bws => t.bws = d.bws
  | .bcs => t.bcs = d.bcs
  | .i2c => t.i2c = d.i2c
  | .fns => t.fns = d.fns
  | .rings => t.rings = d.rings
  | .vecs => t.vecs = d.vecs
  | .links => t.links = d.links
  | .fch => t.fch = d.fch
  | .hvUnder => t.hvUnder = d.hvUnder
  | .hvBeat => t.hvBeat = d.hvBeat
  | .hvTrip => t.hvTrip = d.hvTrip
  | .tbl => t.tbl = d.tbl
  | .keys => t.keys = d.keys
  | .uses => t.uses = d.uses
  | .la => t.la = d.la
  | .fwd => t.fwd = d.fwd
  | .tm => t.tm = d.tm
  | .circ => t.circ = d.circ
  | .ports => t.ports = d.ports
  | .fab => t.fab = d.fab
  | .dram => t.dram = d.dram
  | .sec => t.sec = d.sec
  | .free => t.free = d.free

/-- Between two devices only objects whose keys are listed and parts that are listed may differ. -/
def Dev.only (ks : Nat → Bool) (ps : List Part) (d t : Dev) : Prop :=
  (∀ k, ks k = false → SMap.get none t.objs k = SMap.get none d.objs k) ∧ ∀ p, p ∉ ps → p.same d t

/-- The keys of listed elements. -/
def keysOf (l : List (Obj × Nat × Nat)) (k : Nat) : Bool := l.any fun x => decide (x.1.key x.2.1 x.2.2 = k)

/-- No key. -/
def noKeys (_ : Nat) : Bool := false

/-- What no reset of Table 3.6 with device-wide scope leaves: objects beside those that Table 3.6 keeps and the disabled mark, requests, transfers,
functions, rings, vectors, tables, keys, packets, circuits, ports, bundles, memory channels and pending actions are gone, and of a fibre channel
all but its rogue latch. -/
structure Dev.Cleared (w : Wipe) (d : Dev) : Prop where
  objs : ∀ k, w.keeps k = false → (∀ n, k ≠ Obj.actState.key n 0) → SMap.get none d.objs k = none
  acts : d.acts = []
  um : d.um = []
  transfers : d.bws = [] ∧ d.bcs = [] ∧ d.i2c = []
  host : d.fns = [] ∧ d.rings = [] ∧ d.vecs = []
  fch : ∀ n, d.ch n = Fch.latchOnly (d.ch n)
  time : d.tim = Dev.reset.tim ∧ d.pwr = Dev.reset.pwr ∧ d.cfg = Dev.reset.cfg
  crossings : d.clk.closed = [0] ∧ d.clk.insts = [] ∧ d.clk.gates = [] ∧ d.clk.held = []
  tables : d.tbl = [] ∧ d.keys = [] ∧ d.uses = []
  packets : d.fwd = Dev.reset.fwd ∧ d.tm = Dev.reset.tm
  others : d.la = Dev.reset.la ∧ d.circ = [] ∧ d.ports = [] ∧ d.fab = [] ∧ d.dram = []

/-- An occurrence of a source with its CODE and INSTANCE is on its way to the recorder. -/
def Dev.raisedEvent (d : Dev) (src code inst : Nat) : Prop := ∃ x ∈ d.occs, x.src = src ∧ x.code = code ∧ x.inst = inst

/-! ## Every state -/

/-- No two actions have one target (R573). -/
def distinctTargets : List Action → Bool
  | [] => true
  | a :: r => !r.any (sameTarget a) && distinctTargets r

/-- The stores are in their canonical form. -/
structure Dev.Canonical (d : Dev) : Prop where
  objs : SMap.wf none d.objs = true
  um : SMap.wf UPathSt.none d.um = true
  fns : SMap.wf Fn.none d.fns = true
  rings : SMap.wf Ring.none d.rings = true
  vecs : SMap.wf Vec.none d.vecs = true
  links : SMap.wf Link.none d.links = true
  fch : SMap.wf Fch.none d.fch = true
  tbl : SMap.wf [] d.tbl = true
  keys : SMap.wf [] d.keys = true
  uses : SMap.wf 0 d.uses = true
  circ : SMap.wf Circ.none d.circ = true
  ports : SMap.wf PortSt.none d.ports = true
  fab : SMap.wf Bundle.none d.fab = true
  dram : SMap.wf DramCh.none d.dram = true

/-- The recorder and Ringmaster keep their bounds: 32,768 records (R617), 64 held (R620), 256 actions in slots 0 to 255 that differ,
no two with one target (R44, R573). -/
structure Dev.Bounded (d : Dev) : Prop where
  recs : d.recd.recs.length ≤ recCap
  hold : d.recd.hold.length ≤ holdCap
  acts : d.acts.length ≤ actCap
  slots : d.acts.Pairwise fun a b => a.slot < b.slot
  slotMax : ∀ a ∈ d.acts, a.slot < actCap
  targets : distinctTargets d.acts = true

/-- What holds of every state of a run. -/
def State.Inv (s : State) : Prop := s.dev.Canonical ∧ s.dev.Bounded

end Sys2Proof.Machine
end

