-- ==== Sys2Proof/Certificates/Slice0/Obligations.lean ====
section
/-!
DEFINITION. The statements for the provers.
-/
open Sys2Proof Sys2Proof.Machine

/-- A step takes the command at the front of the queue and runs it on the rest. The queue is the model's own (log entry 1). -/
def Obligations.StepRunsFront : Prop :=
  ∀ (c : Instr) (s : State), step { s with pending := c :: s.pending } = exec c s

/-- No command adds, removes or reorders the commands that wait (log entry 1). -/
def Obligations.CommandsLeaveQueue : Prop :=
  ∀ (c : Instr) (s t : State), exec c s = .next t → t.pending = s.pending

/-- Nothing else stops the block: no state of it and no data ends a run. -/
def Obligations.OnlyIllFormedStops : Prop :=
  ∀ (c : Instr) (s : State),
    (∃ t, exec c s = .next t) ∨ exec c s = .fault .illFormed ∨
    ((∃ w a, c = .bar2Access w a) ∧ exec c s = .refused .diagnosticsUndescribed ∧ s.dev.diagVisible 0x0100 = true)

/-- The invariant of every run: the bounds are those of R44, R573, R617 and R620; the canonical form is the model's. -/
def Obligations.StepKeepsInvariant : Prop :=
  ∀ s t : State, s.Inv → step s = .next t → t.Inv

/-- The invariant holds at reset. -/
def Obligations.ResetHasInvariant : Prop := State.reset.Inv

/-- A burned bit of OTP stays burned, whatever the command: OTP survives every reset (Table 3.6). -/
def Obligations.OtpOnlyGrows : Prop :=
  ∀ s t : State, step s = .next t → ∀ i, bitOf s.dev.otp i = true → bitOf t.dev.otp i = true

/-- Counting (R4): one more, never past the largest value of the counter's width. -/
def Obligations.CountersSaturate : Prop :=
  ∀ (s : State) (o : Obj) (i j : Nat), s.Inv → s.dev.num o i j < 2 ^ o.width →
    ((count o i j).run s.dev).num o i j =
      (if s.dev.num o i j = 2 ^ o.width - 1 then 2 ^ o.width - 1 else s.dev.num o i j + 1) ∧
    s.dev.only (keysOf [(o, i, j)]) [] ((count o i j).run s.dev)

/-- Device-wide resets (R90, R91, Tables 3.6 and 3.7). Each begins wherever its cause can come. -/
def Obligations.DeviceResetsBegin : Prop :=
  (∀ s : State, s.Inv → ∃ t, exec .powerOnReset s = .next t ∧ t.pending = s.pending ∧
    t.dev.num .rstCause =
      putBit (if s.dev.clk.devReset || s.dev.clk.coreReset then s.dev.num .rstCause else s.dev.num .rstCause &&& 2) 2 true ∧
    t.dev.num .rstCauseSticky = putBit (s.dev.num .rstCauseSticky) 2 true ∧
    (∀ k, k ≠ Obj.rstCause.key 0 0 → k ≠ Obj.rstCauseSticky.key 0 0 → SMap.get none t.dev.objs k = none) ∧
    t.dev.otp = s.dev.otp ∧ t.dev.Cleared .powerOn ∧ t.dev.recd = Dev.reset.recd ∧ t.dev.occs = [] ∧
    t.dev.clk.devReset = true ∧
    t.dev.pins = { s.dev.pins with porstN := false, aonOn := false, straps := [], pwrreqN := true, thermN := true }) ∧
  (∀ s : State, s.Inv → s.dev.pins.porstN = true → (s.dev.num .pwrState < 3 ∨ s.dev.pins.pwrreqN = false) →
    ∃ t, exec .supplyFailure s = .next t ∧
    t.pending = s.pending ∧ bitOf (t.dev.num .rstCause) 3 = true ∧ bitOf (t.dev.num .rstCauseSticky) 3 = true ∧ t.dev.Cleared .supply ∧
    t.dev.clk.devReset = true ∧ t.dev.clk.supplyHeld = true ∧ t.dev.recd.frozen = none ∧ t.dev.recd.hold = []) ∧
  (∀ s : State, s.Inv → s.dev.clk.hrefLost = true → ∃ t, exec .hrefLossReset s = .next t ∧ t.pending = s.pending ∧
    bitOf (t.dev.num .rstCause) 4 = true ∧ bitOf (t.dev.num .rstCauseSticky) 4 = true ∧ t.dev.Cleared .logic ∧
    t.dev.raisedEvent 0 0 noInst ∧ t.dev.clk.devReset = true ∧ t.dev.clk.hrefLost = false ∧ t.dev.pins.href = true) ∧
  (∀ s : State, s.Inv → s.dev.clk.cmdReset.isSome = true → ∃ t, exec .deviceCommandReset s = .next t ∧ t.pending = s.pending ∧
    bitOf (t.dev.num .rstCause) 5 = true ∧ bitOf (t.dev.num .rstCauseSticky) 5 = true ∧ t.dev.Cleared .logic ∧
    t.dev.clk.devReset = true ∧ t.dev.clk.cmdReset = none) ∧
  (∀ s : State, s.Inv → s.dev.clk.devReset = false →
    (∃ t, exec .secWatchdogExpiry s = .next t ∧ t.pending = s.pending ∧ bitOf (t.dev.num .rstCause) 7 = true ∧ t.dev.Cleared .logic ∧
      t.dev.clk.devReset = true ∧ t.dev.raisedEvent 464 1 noInst) ∧
    (∃ t, exec .lifecycleViolation s = .next t ∧ t.pending = s.pending ∧ bitOf (t.dev.num .rstCause) 7 = true ∧ t.dev.Cleared .logic ∧
      t.dev.clk.devReset = true ∧ t.dev.raisedEvent 464 2 noInst))

/-- Straps (R60 to R64), releases (R72, R92, R95) and crossings (R98). -/
def Obligations.ResetsEnd : Prop :=
  (∀ (s : State) (ps : List (BitVec 8 × BitVec 8)) (v : BitVec 8), s.Inv → ps.length = 8 →
    ps.find? (fun x => x.1 == x.2) = some (v, v) → s.dev.pins.porstN = false → s.dev.clk.devReset = true →
    s.dev.clk.supplyHeld = false → s.dev.clk.hrefLost = false →
    ∃ t, exec (.porstRelease true ps) s = .next t ∧ t.pending = s.pending ∧
      t.dev.pins = { s.dev.pins with porstN := true, href := true, aonOn := true, straps := [], pwrreqN := false } ∧
      t.dev.num .rstStraps = v.toNat ∧ t.dev.clk.devReset = false ∧ t.dev.raisedEvent 1 0 noInst ∧
      (v.toNat % 4 = 3 → t.dev.raisedEvent 3 0 noInst)) ∧
  (∀ (s : State) (b : Bool) (ps : List (BitVec 8 × BitVec 8)), ps.length = 8 → s.dev.pins.porstN = false →
    b = false ∨ ps.find? (fun x => x.1 == x.2) = none → exec (.porstRelease b ps) s =
    .next (s.after [.pins fun p => { p with
      porstN := true, href := b, aonOn := b, straps := ps.map fun x => (x.1.toNat, x.2.toNat) }])) ∧
  (∀ (s : State) (v w : Nat), s.Inv → s.dev.pins.porstN = true → s.dev.pins.href = true → s.dev.pins.straps.getLast? = some (v, w) →
    ∃ t, exec .strapUnstable s = .next t ∧ t.pending = s.pending ∧ t.dev.num .rstStraps = w ∧
      t.dev.num .rstStrapUnstable = 1 ∧ t.dev.pins.straps = [] ∧ t.dev.raisedEvent 4 0 noInst) ∧
  (∀ (s : State) (v : Nat), s.Inv → s.dev.pins.porstN = true → s.dev.pins.href = false → s.dev.clk.hrefLost = false →
    s.dev.pins.straps.find? (fun p => p.1 == p.2) = some (v, v) →
    ∃ t, exec .strapUnstable s = .next t ∧ t.pending = s.pending ∧ t.dev.num .rstStraps = v ∧ t.dev.pins.href = true ∧
      t.dev.pins.straps = []) ∧
  (∀ s : State, s.Inv → s.dev.clk.supplyHeld = true → s.dev.clk.devReset = true → s.dev.pins.porstN = true → s.dev.pins.href = true →
    s.dev.clk.hrefLost = false → s.dev.pins.straps = [] → ∃ t, exec .supplyFailureRelease s = .next t ∧ t.pending = s.pending ∧
      t.dev.clk = { s.dev.clk with supplyHeld := false, devReset := false } ∧
      t.dev.pins = { s.dev.pins with pgCore := true, pwrreqN := false } ∧ t.dev.raisedEvent 1 0 noInst) ∧
  (∀ s : State, s.dev.clk.supplyHeld = true → s.dev.pins.href = false ∨ s.dev.clk.hrefLost = true →
    exec .supplyFailureRelease s = .next s) ∧
  (∀ s : State, s.dev.clk.coreReset = true → exec .coreWatchdogResetRelease s =
    .next (s.after [.clk fun c => { c with coreReset := false }, .clk (Clk.gatesClosed [1]), .raise 1 0 noInst (s.dev.num .rstCause) 0])) ∧
  (∀ (s : State) (k n : BitVec 8), s.dev.clk.insts.contains (k.toNat * 256 + n.toNat) = true →
    (∃ t, exec (.instanceResetRelease k n) s = .next t ∧ t.pending = s.pending ∧
      t.dev.clk = Clk.gatesClosed (domainsOfInst k.toNat n.toNat)
        { s.dev.clk with insts := s.dev.clk.insts.erase (k.toNat * 256 + n.toNat) }) ∧
    (k.toNat ≠ 1 → k.toNat ≠ 3 → exec (.instanceResetRelease k n) s = .next (s.after
      [.clk fun c => { c with insts := c.insts.erase (k.toNat * 256 + n.toNat) }, .clk (Clk.gatesClosed (domainsOfInst k.toNat n.toNat))]))) ∧
  (∀ (s : State) (k n : BitVec 8),
    (s.dev.sidesUp (k.toNat * 256 + n.toNat) = true →
      exec (.crossingOpen k n) s = .next (s.after [.clk fun c => { c with closed := c.closed.erase (k.toNat * 256 + n.toNat) }])) ∧
    (s.dev.sidesUp (k.toNat * 256 + n.toNat) = false → exec (.crossingOpen k n) s = .next s)) ∧
  (∀ (s : State) (v : Fin 50001), exec (.tapReset v) s = .next (s.after [.clk fun c => { c with tapReset := true, tck := v.val }])) ∧
  (∀ s : State, s.dev.num .pwrState < 3 → s.dev.pins.porstN = true → exec .hrefLoss s = .next (s.after
    ([.pins fun p => { p with href := false, aonOn := false }, .clk fun c => { c with hrefLost := true }] ++
      (List.range 4).map fun n => .fch n fun c => { c with burstOn := false, onAir := none })))

/-- Clock sources (R77 to R89) and crossings (R96 to R101). Which offset raises event 5 again is the model's choice (log entry 100). -/
def Obligations.ClockEvents : Prop :=
  (∀ (s : State) (n : Fin 4), s.Inv → s.dev.answers = true → ∃ t, exec (.recoveredRefLoss n) s = .next t ∧ t.pending = s.pending ∧
    (t.dev.ch n.val).refValid = false ∧ (t.dev.ch n.val).burstOn = false ∧
    ((s.dev.num .clkFchState 0 n.val = 1 ∨ s.dev.num .clkFchState 0 n.val = 2) →
      t.dev.num .clkFchState 0 n.val = 3 ∧ t.dev.raisedEvent (8 + n.val) 0 n.val ∧
      (t.dev.ch n.val).pll = holdRatio (s.dev.num .clkFchState 0 n.val) (s.dev.ch n.val).pll (s.dev.ch n.val).ratios) ∧
    (s.dev.num .clkFchState 0 n.val = 2 → (t.dev.ch n.val).unranged = true ∧ (t.dev.ch n.val).eqdTaken = false) ∧
    (s.dev.num .clkFchState 0 n.val = 0 → t = s.after [.fch n.val fun c => { c with refValid := false, burstOn := false, onAir := none }])) ∧
  (∀ (s : State) (n : Fin 5), s.Inv → s.dev.answers = true → n.val < 4 → s.dev.num .clkFchState 0 n.val = 1 →
    ∃ t, exec (.pllLocked n) s = .next t ∧ t.pending = s.pending ∧ t.dev.num .clkFchState 0 n.val = 2 ∧
      (t.dev.ch n.val).pll = s.dev.refOffset n.val ∧ t.dev.raisedEvent (12 + n.val) 0 n.val) ∧
  (∀ (s : State), s.dev.answers = true → s.dev.num .clkTimingState = 1 → exec (.pllLocked 4) s = .next (s.after
    [.obj .clkTimingState 0 0 (.num 2), .clk fun c => { c with timPll := s.dev.refOffset (s.dev.num .clkTimingChannel) }])) ∧
  (∀ (s : State) (v : BitVec 32), s.dev.answers = true → s.dev.num .clkTimingState = 2 → exec (.hrefOffsetAlarm v) s = .next (s.after
    ([.obj .clkHrefOffset 0 0 (.num v.toNat)] ++
      if outside300 v.toNat = true ∧ outside300 (s.dev.num .clkHrefOffset) = false then [.raise 5 0 noInst 0 0] else []))) ∧
  (∀ (s : State) (x : BitVec 8) (a b : BitVec 32) (v r : Nat), s.dev.answers = true → SMap.get (0, 0) s.dev.clk.values x.toNat = (v, r) →
    (a = b → exec (.xingResampleFailure x [(a, b)]) s =
      .next (s.after [.clk fun c => { c with values := SMap.put (0, 0) x.toNat (a.toNat, 0) c.values }])) ∧
    (a ≠ b → r + 1 < 16 → exec (.xingResampleFailure x [(a, b)]) s =
      .next (s.after [.clk fun c => { c with values := SMap.put (0, 0) x.toNat (v, r + 1) c.values }])) ∧
    (a ≠ b → 16 ≤ r + 1 → exec (.xingResampleFailure x [(a, b)]) s =
      .next (s.after [.clk fun c => { c with values := SMap.put (0, 0) x.toNat (v, 0) c.values }, .count .xingResampleFailures 0 0 1]))) ∧
  (∀ (s : State) (x : BitVec 8) (p : BitVec 32 × BitVec 32) (l : List (BitVec 32 × BitVec 32)),
    ∃ t, exec (.xingResampleFailure x [p]) s = .next t ∧ exec (.xingResampleFailure x (p :: l)) s = exec (.xingResampleFailure x l) t) ∧
  (∀ (s : State) (lost : BitVec 32), s.Inv → s.dev.answers = true → s.dev.clk.coreReset = false →
    ∃ t, exec (.coreWatchdogExpiry lost) s = .next t ∧ t.pending = s.pending ∧
      t.dev.clk = { Clk.gatesOpened [1] { s.dev.clk with coreReset := true, held := [] } with
        closed := if s.dev.clk.closed.contains 0x600 then s.dev.clk.closed else s.dev.clk.closed ++ [0x600] } ∧
      t.dev.num .rstCause = putBit (s.dev.num .rstCause &&& 2) 6 true ∧ t.dev.raisedEvent 6 0 noInst ∧
      t.dev.um = [] ∧ t.dev.bws = [] ∧ t.dev.bcs = [] ∧ t.dev.i2c = [] ∧
      s.dev.only (keysOf [(.rstCause, 0, 0), (.rstCauseSticky, 0, 0), (.xingClosedDiscards, 0, 0)])
        [.occs, .clk, .um, .bws, .bcs, .i2c, .fns] t.dev) ∧
  (∀ (s : State) (o : Origin) (i : BitVec 16) (j : BitVec 8) (op : BitVec 4), ¬ (0x9010 ≤ i.toNat ∧ i.toNat < 0x9090) →
    (s.dev.hears ⟨o, op.toNat, i.toNat, j.toNat⟩ → exec (.crossingTimeout (.umani o i j op)) s =
      .next (s.refusedWith ⟨o, op.toNat, i.toNat, j.toNat⟩ [.count .xingTimeouts 0 0 1, .raise 17 0 noInst 0 0] 0x0701)) ∧
    (∀ c : Call, c = ⟨o, op.toNat, i.toNat, j.toNat⟩ → s.dev.answers = true → s.dev.clk.held.contains c = true →
      (s.dev.path o.path).busy.contains c = true → exec (.crossingTimeout (.umani o i j op)) s =
        .next { s with dev := (respond c 0x0701 []).run (s.dev.after
          [.clk fun k => { k with held := k.held.erase c }, .count .xingTimeouts 0 0 1, .raise 17 0 noInst 0 0]) })) ∧
  (∀ (s : State) (l : Fin 4) (f : Fin 64), s.dev.inRun → s.dev.reaches l.val f.val = true →
    exec (.crossingTimeout (.barRead l f)) s = .next (s.after
      [.count .xingTimeouts 0 0 1, .raise 17 0 noInst 0 0, .out ⟨.busError, fnKey l.val f.val, 0, List.replicate 4 255⟩,
       .raise (64 + 16 * l.val + 4) 0 l.val 0 0]) ∧
    exec (.crossingTimeout (.barWrite l f)) s = .next (s.after
      [.count .xingTimeouts 0 0 1, .raise 17 0 noInst 0 0, .count .xingClosedDiscards 0 0 1, .raise (64 + 16 * l.val + 4) 0 l.val 0 0])) ∧
  (∀ (s : State) (r : Fin 4096), s.dev.answers = true → (s.dev.ringSt r.val).state = 1 →
    exec (.crossingTimeout (.dma r)) s = .next (s.after
      [.count .xingTimeouts 0 0 1, .raise 17 0 noInst 0 0, .ring r.val fun x => { x with state := 2, err := 5 },
       .raise (64 + 16 * s.dev.linkOfRing r.val + 8) 5 r.val 0 0]))

/-- Requests of the clock and reset group (Table 3.10). -/
def Obligations.ResetRequests : Prop :=
  (∀ (s : State) (o : Origin), s.Inv → s.dev.admits (readReq o .rstCauseSticky 0 0 (.num 0)) → exec (.rstCauseStickyRead o) s =
    .next (s.served (readReq o .rstCauseSticky 0 0 (.num 0)).call
      [.obj .rstCause 0 0 (.num (putBit (s.dev.num .rstCause) 1 false)),
       .obj .rstCauseSticky 0 0 (.num (putBit (s.dev.num .rstCauseSticky) 1 false))]
      (pathBytes o.path 4 (s.dev.num .rstCauseSticky)))) ∧
  (∀ (s : State) (o : Origin) (v : BitVec 32) (w : Nat), s.Inv → s.dev.admits (writeReq o .rstCauseSticky 0 0 (.num v.toNat)) →
    v.toNat &&& 0xFE = v.toNat → w = (setBits 8 v.toNat).foldl (fun a k => putBit a k false) (s.dev.num .rstCauseSticky) →
    exec (.rstCauseStickyWrite o v) s = .next (s.served (writeReq o .rstCauseSticky 0 0 (.num v.toNat)).call
      ([.obj .rstCauseSticky 0 0 (.num w)] ++ if bitOf v.toNat 1 then
        [.obj .rstCause 0 0 (.num (putBit (s.dev.num .rstCause) 1 false)), .obj .rstCauseSticky 0 0 (.num (putBit w 1 false))] else []) [])) ∧
  (∀ (s : State) (o : Origin), s.Inv → s.dev.admits (execReq o .rstDevice 0 0 true (.oct [])) → exec (.rstDevice o) s =
    .next (s.served (execReq o .rstDevice 0 0 true (.oct [])).call
      [.clk fun x => { x with cmdReset := some (execReq o .rstDevice 0 0 true (.oct [])).call },
       .raise 7 0 noInst (top16 o.code.toNat) 0] [])) ∧
  (∀ (s : State) (o : Origin) (arg : BitVec 16) (lost : BitVec 32), s.Inv →
    s.dev.admits (execReq o .rstInstance 0 0 true (.num arg.toNat)) → isInstance arg.toNat = true →
    (arg.toNat / 256 = 2 → s.dev.gateSwitchOn (arg.toNat % 256) = false) → s.dev.clk.insts.contains arg.toNat = false →
    (∃ t, exec (.rstInstance o arg lost) s = .next t ∧ t.pending = s.pending ∧ t.dev.clk.insts = s.dev.clk.insts ++ [arg.toNat] ∧
      t.dev.clk.closed = (if s.dev.clk.closed.contains arg.toNat then s.dev.clk.closed else s.dev.clk.closed ++ [arg.toNat]) ∧
      (∃ x ∈ t.dev.occs, x.src = 7 ∧ x.arg0 = o.code.toNat % 65536 * 65536 + arg.toNat) ∧
      (lost ≠ 0 → t.dev.raisedEvent 16 0 noInst)) ∧
    ((arg = 0x0400 ∧ s.dev.circ = []) ∨ (arg = 0x0500 ∧ s.dev.sessions = []) → exec (.rstInstance o arg lost) s =
      .next (s.served (execReq o .rstInstance 0 0 true (.num arg.toNat)).call
        ([.clk fun c => { c with insts := c.insts ++ [arg.toNat] }, .clk (Clk.gatesOpened (domainsOfInst (arg.toNat / 256) 0)),
          .clk fun c => { c with closed := if c.closed.contains arg.toNat then c.closed else c.closed ++ [arg.toNat] }] ++
         (if lost = 0 then [] else [.count .xingClosedDiscards 0 0 lost.toNat, .raise 16 0 noInst 0 0]) ++
         [.raise 7 0 noInst (o.code.toNat % 65536 * 65536 + arg.toNat) 0]) []))) ∧
  (∀ (s : State) (o : Origin) (v : BitVec 8), s.Inv → s.dev.admits (writeReq o .clkTimingChannel 0 0 (.num v.toNat)) → v.toNat ≤ 3 →
    (s.dev.num .feEnable v.toNat ≠ 1 → exec (.clkTimingChannelWrite o v) s =
      .next (s.refusedWith (writeReq o .clkTimingChannel 0 0 (.num v.toNat)).call [] 0x0401)) ∧
    (s.dev.num .feEnable v.toNat = 1 →
      (v.toNat = s.dev.num .clkTimingChannel → exec (.clkTimingChannelWrite o v) s =
        .next (s.served (writeReq o .clkTimingChannel 0 0 (.num v.toNat)).call [] [])) ∧
      (v.toNat ≠ s.dev.num .clkTimingChannel → (s.dev.ch v.toNat).refValid = true → exec (.clkTimingChannelWrite o v) s =
        .next (s.served (writeReq o .clkTimingChannel 0 0 (.num v.toNat)).call
          [.obj .clkTimingChannel 0 0 (.num v.toNat), .obj .clkTimingState 0 0 (.num 1), .obj .clkHrefOffset 0 0 (.num 0x80000000)] [])) ∧
      (v.toNat ≠ s.dev.num .clkTimingChannel → (s.dev.ch v.toNat).refValid = false → s.dev.num .clkTimingFallback ≠ 1 →
        exec (.clkTimingChannelWrite o v) s = .next (s.served (writeReq o .clkTimingChannel 0 0 (.num v.toNat)).call
          ([.clk fun c => { c with timPll := holdRatio (s.dev.num .clkTimingState) c.timPll (s.dev.ch (s.dev.num .clkTimingChannel)).ratios },
            .obj .clkTimingState 0 0 (.num 3), .obj .clkHrefOffset 0 0 (.num 0x80000000)] ++
           (if s.dev.synced then [.obj .timeStatus 0 0 (.num (putBit (s.dev.num .timeStatus) 0 false)), .raise 432 0 noInst 0 0] else []) ++
           [.obj .clkTimingChannel 0 0 (.num v.toNat)]) []))))

/-- Tightrope (R126 to R130): operating points, moves and the thermal floor. -/
def Obligations.TightropeMoves : Prop :=
  (∀ (s : State) (o : Origin) (v : BitVec 8) (r : Req) (p : Nat), s.Inv → r = writeReq o .trOpTarget 0 0 (.num v.toNat) →
    s.dev.admits r → p = max v.toNat s.dev.pwr.floor →
    (s.dev.num .trState = 0 →
      (v.toNat = p → v.toNat ≠ s.dev.pwr.clkPoint ∨ v.toNat ≠ s.dev.pwr.voltPoint → exec (.trOpTargetWrite o v) s =
        .next (s.owing r.call (s.dev.moveEffs v.toNat (some r.call)))) ∧
      (v.toNat < p ∨ v.toNat = s.dev.pwr.clkPoint ∧ v.toNat = s.dev.pwr.voltPoint → exec (.trOpTargetWrite o v) s =
        .next (s.served r.call (.obj .trOpTarget 0 0 (.num v.toNat) :: s.dev.moveEffs p none) []))) ∧
    (s.dev.num .trState = 1 → exec (.trOpTargetWrite o v) s = .next (s.refusedWith r.call [] 0x0402)) ∧
    (s.dev.num .trState = 2 →
      (v.toNat ≠ s.dev.pwr.clkPoint → exec (.trOpTargetWrite o v) s = .next (s.refusedWith r.call [] 0x0401)) ∧
      (v.toNat = s.dev.pwr.clkPoint → exec (.trOpTargetWrite o v) s = .next (s.served r.call
        ([.obj .trOpTarget 0 0 (.num v.toNat), .obj .trState 0 0 (.num 0)] ++ s.dev.moveEffs p none) [])))) ∧
  (∀ (s : State) (mv : BitVec 16) (p : Nat), s.Inv → s.dev.num .trState = 1 → s.dev.pwr.moveTo = some p →
    (within15 p mv.toNat = true → s.dev.pwr.moveCall = none → s.dev.opActive = p → exec (.regulatorSettled mv) s = .next (s.after
      [.obj .trVcoreMeasured 0 0 (.num mv.toNat), .pwr fun x => { x with clkPoint := p, voltPoint := p }, .obj .trState 0 0 (.num 0),
       .raise 25 0 noInst 0 0, .pwr fun x => { x with moveTo := none, moveCall := none }])) ∧
    (∀ c, within15 p mv.toNat = true → s.dev.pwr.moveCall = some c → s.dev.pwr.floor ≤ p → exec (.regulatorSettled mv) s =
      .next { s with dev := (respond c 0 []).run (s.dev.after
        [.obj .trVcoreMeasured 0 0 (.num mv.toNat), .pwr fun x => { x with clkPoint := p, voltPoint := p }, .obj .trState 0 0 (.num 0),
         .raise 25 0 noInst 0 0, .obj .trOpTarget 0 0 (.num p), .pwr fun x => { x with moveTo := none, moveCall := none }]) }) ∧
    (within15 p mv.toNat = false → exec (.regulatorSettled mv) s = .next (s.after [.obj .trVcoreMeasured 0 0 (.num mv.toNat)])) ∧
    (∀ b : Bool, (within15 p mv.toNat && b) = false → s.dev.pwr.moveCall = none → exec (.trSettleTimeout mv b) s = .next (s.after
      ([.obj .trVcoreMeasured 0 0 (.num mv.toNat)] ++
       (if s.dev.pwr.voltPoint < p then [.out ⟨.avs, 0, pointMv s.dev.pwr.voltPoint, []⟩] else []) ++
       [.obj .trState 0 0 (.num 2), .raise 26 0 noInst 0 0] ++
       (if within15 p mv.toNat = b then [] else [.raise 27 0 noInst 0 0]) ++
       [.pwr fun x => { x with moveTo := none, moveCall := none }])))) ∧
  (∀ s : State, s.dev.answers = true → s.dev.inRun → s.dev.pwr.floor < 3 →
    ∀ up : List Eff, up = [.pwr fun p => { p with floor := p.floor + 1 }, .raise 28 0 noInst 0 0] ++
      (if s.dev.num .trState = 0 then s.dev.moveEffs (max (s.dev.num .trOpTarget) (s.dev.pwr.floor + 1)) none else []) →
    (s.dev.pwr.hot = false → exec .thermalLimitExceeded s = .next (s.after (.pwr (fun p => { p with hot := true }) :: up))) ∧
    (s.dev.pwr.hot = true → exec .thermalLimitExceeded s = .next s ∧ exec .thermalFloorRaise s = .next (s.after up))) ∧
  (∀ s : State, s.dev.answers = true → s.dev.num .pwrState ≤ 1 → 0 < s.dev.pwr.floor → exec .thermalFloorLower s = .next (s.after
    ([.pwr fun p => { p with hot := false }, .pwr fun p => { p with floor := p.floor - 1 }] ++
      (if s.dev.pwr.floor = 1 then [.raise 29 0 noInst 0 0] else []) ++
      if s.dev.num .trState = 0 then s.dev.moveEffs (max (s.dev.num .trOpTarget) (s.dev.pwr.floor - 1)) none else [])))

/-- The ladder down (R113 to R116), the gates (R102, R103) and wake sources (R119, R120, Table 4.4). -/
def Obligations.SleepAndWake : Prop :=
  (∀ (s : State) (o : Origin), s.Inv → s.dev.hears ⟨o, 3, 0x2100, 2⟩ →
    (s.dev.codeOk ⟨o, 3, 0x2100, 2⟩ = true →
      isHost o.code.toNat = true → hostFn o.code.toNat = 0 → s.dev.ownerLink 1 = some (hostLink o.code.toNat) → s.dev.num .trState ≠ 1 →
      exec (.pwrStateRequest o 1) s = .next (s.owing ⟨o, 3, 0x2100, 2⟩
        [.pwr fun p => { p with req := some ⟨⟨o, 3, 0x2100, 2⟩, 1, []⟩ },
         .clk fun c => { c with gates := [(44, 1), (45, 1), (46, 1), (47, 1), (48, 1), (49, 1), (51, 1)] }])) ∧
    (∀ (v : BitVec 8) (a : Nat), s.dev.entryAbort ⟨o, 3, 0x2100, 2⟩ v.toNat = a → a ≠ 0 →
      exec (.pwrStateRequest o v) s = .next (s.refusedWith ⟨o, 3, 0x2100, 2⟩ [] a))) ∧
  (∀ (s : State) (k : Fin 60) (c : Call), s.Inv → SMap.get 0 s.dev.clk.gates k.val = 1 → s.dev.pwr.req = some ⟨c, 1, []⟩ →
    ((SMap.put 0 k.val 2 s.dev.clk.gates).all fun g => g.2 == 2) = true → ∃ t, exec (.gateDrainComplete k) s = .next t ∧
      t.pending = s.pending ∧ t.dev.num .pwrState = 1 ∧ t.dev.pwr.req = none ∧ t.dev.raisedEvent 21 0 noInst) ∧
  (∀ (s : State) (k : Fin 60), SMap.get 0 s.dev.clk.gates k.val = 1 →
    ((SMap.put 0 k.val 2 s.dev.clk.gates).all fun g => g.2 == 2) = false → exec (.gateDrainComplete k) s =
      .next (s.after [.clk fun c => { c with gates := SMap.put 0 k.val 2 c.gates }])) ∧
  (∀ (s : State) (k : Fin 60), SMap.get 0 s.dev.clk.gates k.val = 1 →
    (s.dev.pwr.req = none → exec (.gateDrainTimeout k) s =
      .next (s.after [.clk fun c => { c with gates := SMap.put 0 k.val 0 c.gates }, .count .gateDrainTimeouts 0 0 1,
        .raise 19 0 k.val 0 0])) ∧
    (s.dev.pwr.req.isSome = true → ∃ t, exec (.gateDrainTimeout k) s = .next t ∧ t.pending = s.pending ∧ t.dev.pwr.req = none ∧
      t.dev.clk.gates = [] ∧ t.dev.raisedEvent 19 0 k.val ∧ t.dev.raisedEvent 23 0 noInst)) ∧
  (∀ s : State, s.dev.pwr.req = none → exec .dozeTimeout s = .next s) ∧
  (∀ (s : State) (q : PwrReq), s.dev.answers = true → s.dev.pwr.req = some q → q.waits ≠ [] → ∃ t, exec .dozeTimeout s = .next t ∧
    t.pending = s.pending ∧ t.dev.pwr.req = none ∧ (∀ n ∈ q.waits, t.dev.raisedEvent 24 0 n) ∧ t.dev.raisedEvent 23 0 noInst ∧
    t.dev.clk.gates = []) ∧
  (∀ (s : State) (woken : Nat → State), s.Inv → s.dev.num .pwrState = 1 → s.dev.pwr.req = none → s.dev.clk.devReset = false →
    s.dev.clk.hrefLost = false →
    (∀ b, woken b = s.after
      [.pwr fun p => { p with seen := putBit p.seen b true }, .obj .pwrState 0 0 (.num 0),
       .obj .pwrWakeCause 0 0 (.num (putBit s.dev.pwr.seen b true)),
       .raise 22 0 noInst (top16 (putBit s.dev.pwr.seen b true)) 0, .pwr fun p => { p with seen := 0 },
       .clk fun c => { c with gates := [] }]) →
    exec .wakeNAssert s = .next (woken 0) ∧
    (∀ k : Fin 60, SMap.get 0 s.dev.clk.gates k.val = 2 → bitOf (s.dev.num .pwrWakeMask) 3 = true →
      exec (.gateHeldAccess k) s = .next (woken 3)) ∧
    (s.dev.acts ≠ [] → bitOf (s.dev.num .pwrWakeMask) 8 = true → exec .ringmasterPrewake s = .next (woken 8)) ∧
    (∀ (n : Fin 4) (m : Lemow), bitOf (s.dev.num .pwrWakeMask) 6 = true → s.dev.num .actState n.val = 4 → m.body = [] →
      m.addr.toNat = 0xFFFF ∨ m.addr.toNat = s.dev.num .actHandle n.val → exec (.wake n m) s = .next (woken 6)) ∧
    (∀ k : Fin 60, SMap.get 0 s.dev.clk.gates k.val = 2 → bitOf (s.dev.num .pwrWakeMask) 3 = false →
      exec (.gateHeldAccess k) s = .next s) ∧
    (s.dev.acts = [] → exec .ringmasterPrewake s = .next s)) ∧
  (∀ s : State, (s.dev.num .pwrState = 3 ∨ s.dev.num .pwrState = 4) → s.dev.pwr.req = none → s.dev.clk.devReset = false →
    s.dev.clk.hrefLost = false → exec .wakeNAssert s = .next (s.after
      [.pwr fun p => { p with seen := putBit p.seen 0 true }, .pins fun p => { p with pwrreqN := false }])) ∧
  (∀ (s : State) (b self : Bool) (e : Outcomes), s.Inv → s.dev.pins.pwrreqN = false → s.dev.pins.porstN = true →
    (s.dev.num .pwrState = 4 →
      ∃ t, exec (.railsRestored b self e) s = .next t ∧ t.pending = s.pending ∧ t.dev.num .pwrState = 0 ∧
        t.dev.num .pwrWakeCause = s.dev.pwr.seen ∧ t.dev.pins = { s.dev.pins with pgCore := true, href := true, aonOn := true } ∧
        (∃ x ∈ t.dev.occs, x.src = 22) ∧ t.dev.raisedEvent 31 0 noInst ∧ t.dev.num .pwrElapsed = 0xFFFFFFFFFFFFFFFF) ∧
    (s.dev.num .pwrState = 3 → s.dev.codeRetained b = false →
      ∃ t, exec (.railsRestored b self e) s = .next t ∧ t.pending = s.pending ∧
        (bitOf (s.dev.num .secBootSlot) 7 = true → t.dev.num .pwrState = 0 ∧ t.dev.num .idBootProgress = 0x10) ∧
        (bitOf (s.dev.num .secBootSlot) 7 = false → self = false → t.dev.num .pwrState = 0 ∧ t.dev.num .idBootProgress = 0xE0)))

/-- Faulty messages (R143), repeats (R146) and the local serial port (R150). -/
def Obligations.DiscardsAndRepeats : Prop :=
  (∀ (s : State) (m : UMsg) (e : Outcomes) (c : Instr), s.dev.answers = true → m.wf = true →
    (m.o.path = .serial ∨ (∃ n z, m.o.path = .inband n z) ∨ ∃ n z, m.o.path = .mband n z) →
    m.delivered < 16 ∨ pathMax m.o.path < m.delivered ∨ m.response = true ∨ m.checkOk = false ∨
      (m.o.path = .serial ∧ m.pec.toNat ≠ crc8 (BitVec.ofNat 8 s.dev.i2cAddr :: msgBytes m)) ∨
      (m.op.toNat = 4 ∧ m.delivered ≠ 16) ∨ (m.op.toNat ≠ 4 ∧ m.delivered ≠ 16 + m.length.toNat) →
    (c = .umaniRead m ∧ m.op = 1) ∨ (c = .umaniWrite m e ∧ m.op = 2) ∨ (c = .umaniExecute m e ∧ m.op = 3) ∨
      (c = .umaniBlockRead m ∧ m.op = 4) ∨ (c = .umaniBlockWrite m ∧ m.op = 5) ∨
      (c = .umaniReservedOperation m ∧ (m.op = 0 ∨ 5 < m.op)) →
    exec c s = .next (s.after [.count .umaniDiscards 0 0 1])) ∧
  (∀ (s : State) (l : Fin 4) (f : Fin 64) (n : Fin 16) (b w : List Byte) (e : Outcomes), s.Inv → s.dev.brings (.mailbox l f n) →
    s.dev.inRun → w = (if b = [] then s.dev.slotBytes (fnKey l.val f.val) n.val else b) →
    bitOf (leNat (padTo 1 (slice w 7 1))) 3 = true ∨ 4080 < leNat (padTo 2 (slice w 10 2)) →
    exec (.mbxSubmit l f n b e) s = .next (s.after
      ((if b = [] then [] else [.fn (fnKey l.val f.val) fun y => { y with
          resp := SMap.put [] n.val (patch (s.dev.slotBytes (fnKey l.val f.val) n.val) 0 b) y.resp }]) ++
       [.fn (fnKey l.val f.val) fun y => { y with busy := putBit y.busy n.val false, done := putBit y.done n.val false },
        .count .umaniDiscards 0 0 1]))) ∧
  (∀ (s : State) (m : UMsg) (e : Outcomes) (c : Instr), s.dev.answers = true → s.dev.inRun → m.wf = true → s.dev.msgFaulty m = false →
    (m.o.path = .serial ∨ ∃ n z, m.o.path = .mband n z) →
    (c = .umaniRead m ∧ m.op = 1) ∨ (c = .umaniWrite m e ∧ m.op = 2) ∨ (c = .umaniExecute m e ∧ m.op = 3) ∨
      (c = .umaniBlockRead m ∧ m.op = 4) ∨ (c = .umaniBlockWrite m ∧ m.op = 5) ∨
      (c = .umaniReservedOperation m ∧ (m.op = 0 ∨ 5 < m.op)) →
    (∀ r : Resp, (∀ y ∈ (s.dev.path m.o.path).busy, y.o.seq ≠ m.o.seq) →
      (s.dev.path m.o.path).sent.find? (fun y => y.call.o.seq = m.o.seq) = some r → exec c s = .next
        { s with dev := (deliver { r with call := { r.call with o := m.o } }).run (s.dev.after [.count .umaniDuplicates 0 0 1]) }) ∧
    ((∃ y ∈ (s.dev.path m.o.path).busy, y.o.seq = m.o.seq) → s.dev.clk.held.contains (msgCall m) = false →
      exec c s = .next (s.after [.count .umaniDuplicates 0 0 1]))) ∧
  (∀ (d : Dev) (r : Resp), SMap.wf UPathSt.none d.um = true → r.call ∈ (d.path r.call.o.path).busy → r.call.o.path = .serial →
    (((respondWith r).run d).path .serial).sent = r :: (d.path .serial).sent.take 15 ∧ ((respondWith r).run d).i2c = d.i2c ++ [r]) ∧
  (∀ (s : State) (r : Resp) (rest : List Resp), s.dev.answers = true → s.dev.i2c = r :: rest → exec .i2cResponseRead s = .next (s.after
    [.out ⟨.response, pathKey .serial, 0, 1 :: respBytes r ++ [BitVec.ofNat 8 (crc8 (s.dev.i2cRead :: 1 :: respBytes r))]⟩,
     .i2c fun _ => rest, .um (pathKey .serial) fun u => { u with busy := u.busy.erase r.call }])) ∧
  (∀ s : State, s.dev.answers = true → s.dev.i2c = [] → exec .i2cResponseRead s = .next (s.after
    [.out ⟨.response, pathKey .serial, 0, [0, BitVec.ofNat 8 (crc8 [s.dev.i2cRead, 0])]⟩]))

/-- The operations of Table 5.5. -/
def Obligations.MessagesServed : Prop :=
  (∀ (s : State) (m : UMsg), s.Inv → m.wf = true → s.dev.brings m.o.path → s.dev.msgFaulty m = false →
    (∀ (x : Obj) (i j : Nat), m.op = 1 → msgTgt m = .elem x i j → x ≠ .rstCauseSticky → x ≠ .secChallenge → x ≠ .portMacCounters →
      s.dev.admits ⟨msgCall m, .elem x i j, msgPlain m && m.length == 0, .num 0⟩ →
      exec (.umaniRead m) s = .next (s.served (msgCall m) [] (valBytes m.o.path x.row.ty (s.dev.readVal m.o.path x i j)))) ∧
    (∀ (x : Obj) (i j : Nat) (v : Val) (e : Outcomes), m.op = 2 → msgTgt m = .elem x i j → dataVal m.o.path x.row.ty m.data = some v →
      writeBeh (msgCall m) m.o.code.toNat e.acked x i j v = storeBeh x i j v →
      s.dev.admits ⟨msgCall m, .elem x i j, msgPlain m, v⟩ → ownRange x j v (s.dev.taken (msgCall m)) = true →
      ownState x j v (s.dev.taken (msgCall m)) = true →
      exec (.umaniWrite m e) s = .next (s.served (msgCall m) [.obj x i j (keptValue x v)] [])) ∧
    (∀ (x : Obj) (i j : Nat) (v : Val) (e : Outcomes), m.op = 2 → msgTgt m = .elem x i j → dataVal m.o.path x.row.ty m.data = some v →
      msgPlain m = true → s.dev.num .pwrState = 0 → s.dev.pwr.req = none →
      exec (.umaniWrite m e) s = exec (.dictObjectWrite m.o m.index m.sub v e.acked) s) ∧
    (∀ e : Outcomes, m.op = 3 → msgPlain m = true → s.dev.num .pwrState = 0 → s.dev.pwr.req = none →
      (m.index = 0x2010 → m.sub = 5 → m.data = [] → s.dev.admits (execReq m.o .rstDevice 0 0 true (.oct [])) →
        exec (.umaniExecute m e) s = exec (.rstDevice m.o) s ∧
        exec (.umaniExecute m e) s = .next (s.served (execReq m.o .rstDevice 0 0 true (.oct [])).call
          [.clk fun x => { x with cmdReset := some (execReq m.o .rstDevice 0 0 true (.oct [])).call },
           .raise 7 0 noInst (top16 m.o.code.toNat) 0] [])) ∧
      (∀ g : BitVec 8, m.index = 0x1101 → m.sub = 1 → m.data = [g] → exec (.umaniExecute m e) s = exec (.dictGroupClaim m.o g) s) ∧
      (∀ v : BitVec 64, m.index = 0x9800 → m.sub = 6 → m.data.length = 8 → argNum m.o.path m.data = v.toNat →
        exec (.umaniExecute m e) s = exec (.timeAdjust m.o v) s)) ∧
    (∀ (x : Obj) (i j : Nat), m.op = 0 ∨ 5 < m.op → msgTgt m = .elem x i j → s.dev.hears (msgCall m) →
      exec (.umaniReservedOperation m) s = .next (s.refusedWith (msgCall m) [] 0x0301))) ∧
  (∀ (s t : State) (l : Fin 4) (f : Fin 64) (n : Fin 16) (b : List Byte) (e : Outcomes), ∀ m,
    m = slotMsg (.mailbox l f n) (if b = [] then s.dev.slotBytes (fnKey l.val f.val) n.val else b) →
    t = (if b = [] ∨ s.dev.reaches l.val f.val = false ∨ s.dev.hostClosed l.val f.val = true then s else s.after
      [.fn (fnKey l.val f.val) fun y => { y with
        resp := SMap.put [] n.val (patch (s.dev.slotBytes (fnKey l.val f.val) n.val) 0 b) y.resp }]) →
    (m.op = 1 → exec (.mbxSubmit l f n b e) s = t.run (umaniRun m (umaniRead m))) ∧
    (m.op = 2 → exec (.mbxSubmit l f n b e) s = t.run (umaniRun m (umaniWrite m e))) ∧
    (m.op = 3 → exec (.mbxSubmit l f n b e) s = t.run (umaniRun m (umaniExecute s.dev m e))) ∧
    (∀ (x : Obj) (i j : Nat), t.Inv → t.dev.brings (.mailbox l f n) → t.dev.msgFaulty m = false → m.op = 1 → msgTgt m = .elem x i j →
      x ≠ .rstCauseSticky → x ≠ .secChallenge → x ≠ .portMacCounters →
      t.dev.admits ⟨msgCall m, .elem x i j, msgPlain m && m.length == 0, .num 0⟩ →
      exec (.mbxSubmit l f n b e) s =
        .next (t.served (msgCall m) [] (valBytes m.o.path x.row.ty (t.dev.readVal m.o.path x i j)))))

/-- Block transfers (R147 to R149). -/
def Obligations.BlockTransfers : Prop :=
  (∀ (s : State) (m : UMsg) (x : Obj) (i j : Nat), s.Inv → m.wf = true → s.dev.brings m.o.path → s.dev.msgFaulty m = false → m.op = 4 →
    msgTgt m = .elem x i j → x ≠ .rstCauseSticky → x ≠ .secChallenge → x ≠ .portMacCounters →
    s.dev.admits ⟨msgCall m, .elem x i j, m.abort == 0, .num 0⟩ → m.length.toNat ≤ pathData m.o.path →
    (∀ b : List Byte, m.offset = 0 → b = valBytes m.o.path x.row.ty (s.dev.readVal m.o.path x i j) →
      exec (.umaniBlockRead m) s = .next (s.answered
        ⟨msgCall m, 0, decide (b.length ≤ m.length.toNat), 0, b.take m.length.toNat⟩
        ([.bcs fun l => l.filter fun y => !(y.key == x.key i j && y.code == m.o.code.toNat)] ++
          if b.length ≤ m.length.toNat then [] else [.bcs fun l => l ++ [⟨x.key i j, m.o.code.toNat, b⟩]]))) ∧
    (∀ b : List Byte, m.offset ≠ 0 → s.dev.copyOf (x.key i j) m.o.code.toNat = some b → m.offset.toNat ≤ b.length →
      exec (.umaniBlockRead m) s = .next (s.answered
        ⟨msgCall m, 0, decide (b.length ≤ m.offset.toNat + m.length.toNat), m.offset.toNat, slice b m.offset.toNat m.length.toNat⟩
        ([.bcs fun l => l.filter fun y => !(y.key == x.key i j && y.code == m.o.code.toNat)] ++
          if b.length ≤ m.offset.toNat + m.length.toNat then [] else [.bcs fun l => l ++ [⟨x.key i j, m.o.code.toNat, b⟩]]))) ∧
    (m.offset ≠ 0 → s.dev.copyOf (x.key i j) m.o.code.toNat = none →
      exec (.umaniBlockRead m) s = .next (s.refusedWith (msgCall m) [] 0x0401))) ∧
  (∀ (s : State) (m : UMsg) (x : Obj) (i j : Nat) (code : Nat), s.Inv → m.wf = true → s.dev.brings m.o.path → s.dev.msgFaulty m = false →
    m.op = 5 → msgTgt m = .elem x i j → s.dev.admits ⟨msgCall m, .elem x i j, m.abort == 0, .num 0⟩ → code = s.dev.codeOf m.o.path →
    (m.offset = 0 → m.last = false → m.data.length ≤ x.row.ty.size → (s.dev.bws.any fun y => y.key == x.key i j && y.code != code) = false →
      exec (.umaniBlockWrite m) s = .next (s.served (msgCall m)
        [.bws fun l => l.filter fun y => !(y.key == x.key i j && y.code == code),
         .bws fun l => l ++ [⟨x.key i j, code, m.data.length, m.data⟩]] [])) ∧
    (∀ b : List Byte, x = .cfgStage → m.offset ≠ 0 → m.last = true → s.dev.transfer (x.key i j) code m.offset.toNat = some b →
      b.length + m.data.length ≤ 1048576 → exec (.umaniBlockWrite m) s = .next (s.served (msgCall m)
        [.bws fun l => l.filter fun y => !(y.key == x.key i j && y.code == code), .obj .cfgStage i j (.oct (b ++ m.data))] [])) ∧
    (s.dev.transfer (x.key i j) code m.offset.toNat = none → exec (.umaniBlockWrite m) s = .next (s.refusedWith (msgCall m)
      [.bws fun l => l.filter fun y => !(y.key == x.key i j && y.code == code)] 0x0301))) ∧
  (∀ (s : State) (idx : BitVec 16) (sub : BitVec 8) (x : Obj) (i j : Nat), s.dev.answers = true → target idx.toNat sub.toNat = .elem x i j →
    (∀ y : BlockWrite, s.dev.bws.filter (fun z => z.key == x.key i j) = [y] → exec (.blockWriteAbandon idx sub) s = .next (s.after
      [.bws fun l => l.filter fun z => !(z.key == x.key i j && z.code == y.code), .count .umaniBlocksAbandoned 0 0 1])) ∧
    ∀ code : BitVec 16, exec (.blockReadCopyRelease idx sub code) s = .next (s.after
      [.bcs fun l => l.filter fun y => !(y.key == x.key i j && y.code == code.toNat)]))

/-- The order of checks (Table 5.8), for every object's write, and a write that passes them. -/
def Obligations.OrderOfChecks : Prop :=
  ∀ (s : State) (o : Origin) (idx : BitVec 16) (sub : BitVec 8) (v : Val) (b : Bool), s.dev.hears ⟨o, 2, idx.toNat, sub.toNat⟩ →
    let answer (a : Nat) : Prop :=
      exec (.dictObjectWrite o idx sub v b) s = .next (s.refusedWith ⟨o, 2, idx.toNat, sub.toNat⟩ [] a)
    (target idx.toNat sub.toNat = .noIndex → answer 0x0101) ∧
    (target idx.toNat sub.toNat = .noSub → answer 0x0102) ∧
    ∀ (x : Obj) (i j : Nat), target idx.toNat sub.toNat = .elem x i j →
      (o.code.toNat ≠ s.dev.codeOf o.path → answer 0x0201) ∧
      (o.code.toNat = s.dev.codeOf o.path →
        (anyWriter (x.acc j) = false → answer 0x0202) ∧
        (anyWriter (x.acc j) = true → bitOf (lettersOf (x.acc j) o.code.toNat) 1 = false → answer 0x0201) ∧
        (bitOf (lettersOf (x.acc j) o.code.toNat) 1 = true →
          (∀ g : Nat, isHost o.code.toNat = true → ¬ (0x3000 ≤ x.index i j ∧ x.index i j < 0x4000) → groupOf (x.index i j) = some g →
            (s.dev.num .dictGroupOwner 0 g ≠ 0 ∧ hostLink (s.dev.num .dictGroupOwner 0 g) ≠ hostLink o.code.toNat) ∨
              (s.dev.num .dictGroupOwner 0 g = 0 ∧ (g = 1 ∨ g = 0xF)) → answer 0x0201) ∧
          (s.dev.ownershipPermits o.code.toNat (x.index i j) = true →
            (∀ g : Nat, s.dev.ownerLocked = true → o.code.toNat ≠ 0x0400 → groupOf (x.index i j) = some g →
              g = 0xF ∨ bitOf (s.dev.num .cfgLockGroups) g = true → answer 0x0601) ∧
            (s.dev.ownerLocked = false ∨ o.code.toNat = 0x0400 → x ≠ .dmtProfile →
              (lenOk x.row.ty v = false → answer 0x0301) ∧
              (lenOk x.row.ty v = true → pathData o.path < v.b.length → answer 0x0301) ∧
              (lenOk x.row.ty v = true → v.b.length ≤ pathData o.path → rngOk x.row.ty x.row.rng v.n = false → answer 0x0302) ∧
              (lenOk x.row.ty v = true → v.b.length ≤ pathData o.path → rngOk x.row.ty x.row.rng v.n = true →
                ∀ (c : Call), c = ⟨o, 2, idx.toNat, sub.toNat⟩ → (writeBeh c o.code.toNat b x i j v).pre (s.dev.taken c) = 0 →
                (s.dev.pathClosed o.path ≠ 0 → answer 0x0401) ∧
                (s.dev.pathClosed o.path = 0 →
                  (s.dev.acts.any (fun a => a.holds.contains (x.key i j)) = true → answer 0x0501) ∧
                  (s.dev.acts.any (fun a => a.holds.contains (x.key i j)) = false →
                    s.dev.clk.closed.contains 0 = true ∨ s.dev.clk.closed.contains 0x600 = true ∨
                      (∃ k, scopeOf (x.index i j) = some k ∧ s.dev.clk.closed.contains k = true) → answer 0x0401))))))) ∧
      (∀ (r : Req) (w : Beh), r = ⟨⟨o, 2, idx.toNat, sub.toNat⟩, .elem x i j, true, v⟩ →
        w = writeBeh r.call o.code.toNat b x i j v → s.dev.admits r →
        (∀ a, a ≠ 0 → w.pre (s.dev.taken r.call) = 0 → w.state (s.dev.taken r.call) = a →
          x ∈ [.evrRepeatWindow, .clsKeyProfile, .clsBlockProfile, .fwdBd] → answer a) ∧
        (w.pre (s.dev.taken r.call) = 0 → w.state (s.dev.taken r.call) = 0 → ∀ (p : Prog) (data : List Byte),
          w.act (s.dev.taken r.call) = .done p data → exec (.dictObjectWrite o idx sub v b) s =
            .next { s with dev := (respond r.call 0 data).run (p.run (s.dev.taken r.call)) }) ∧
        (x ∈ [.evrRepeatWindow, .timeStepThreshold, .pwrWakeSeverity, .timeSlewMax, .clsKeyProfile, .carPortTc, .fwdPortCfg] →
          ownRange x j v s.dev = true → ownState x j v s.dev = true →
          exec (.dictObjectWrite o idx sub v b) s = .next (s.served r.call [.obj x i j v] [])))

/-- Ownership of groups (R157) and configuration images (R164 to R168). -/
def Obligations.GroupsAndImages : Prop :=
  (∀ (s : State) (o : Origin) (g : BitVec 8), s.Inv → s.dev.admits (execReq o .dictGroupClaim 0 0 true (.num g.toNat)) →
    (0x1B < g.toNat → exec (.dictGroupClaim o g) s = .next (s.refusedWith (execReq o .dictGroupClaim 0 0 true (.num g.toNat)).call [] 0x0302)) ∧
    (g.toNat ≤ 0x1B → (s.dev.fn (hostKey o.code.toNat)).live = true →
      (s.dev.ownerLink g.toNat = none → exec (.dictGroupClaim o g) s = .next (s.served
        (execReq o .dictGroupClaim 0 0 true (.num g.toNat)).call [.obj .dictGroupOwner 0 g.toNat (.num o.code.toNat)] [])) ∧
      (s.dev.ownerLink g.toNat = some (hostLink o.code.toNat) → exec (.dictGroupClaim o g) s = .next (s.served
        (execReq o .dictGroupClaim 0 0 true (.num g.toNat)).call [] [])) ∧
      (∀ l, s.dev.ownerLink g.toNat = some l → l ≠ hostLink o.code.toNat → exec (.dictGroupClaim o g) s =
        .next (s.refusedWith (execReq o .dictGroupClaim 0 0 true (.num g.toNat)).call [] 0x0402)))) ∧
  (∀ (s : State) (o : Origin) (g : BitVec 8), s.Inv → s.dev.admits (execReq o .dictGroupRelease 0 0 true (.num g.toNat)) →
    g.toNat ≤ 0x1B →
    (s.dev.ownerLink g.toNat = some (hostLink o.code.toNat) → exec (.dictGroupRelease o g) s = .next (s.served
      (execReq o .dictGroupRelease 0 0 true (.num g.toNat)).call [.obj .dictGroupOwner 0 g.toNat (.num 0)] [])) ∧
    (s.dev.ownerLink g.toNat ≠ some (hostLink o.code.toNat) → exec (.dictGroupRelease o g) s =
      .next (s.refusedWith (execReq o .dictGroupRelease 0 0 true (.num g.toNat)).call [] 0x0401))) ∧
  (∀ (s : State) (o : Origin) (k : BitVec 8), s.Inv → s.dev.admits (execReq o .cfgStageCommit 0 0 true (.num k.toNat)) →
    ∀ (es : List ImgEntry) (f : CfgFault), imgEntries (s.dev.oct .cfgStage) = some es →
    f = (s.dev.taken (execReq o .cfgStageCommit 0 0 true (.num k.toNat)).call).commitFault k.toNat (s.dev.oct .cfgStage) →
    (f.abort = 0 → exec (.cfgStageCommit o k) s = .next (s.served (execReq o .cfgStageCommit 0 0 true (.num k.toNat)).call
      [.cfg fun c => if k.toNat = 0 then { c with standby := imgOf (s.dev.oct .cfgStage) es }
        else { c with slots := SMap.put Image.empty k.toNat (imgOf (s.dev.oct .cfgStage) es) c.slots }] [])) ∧
    (f.abort ≠ 0 → exec (.cfgStageCommit o k) s = .next (s.refusedWith (execReq o .cfgStageCommit 0 0 true (.num k.toNat)).call
      [.obj .cfgLastError 0 0 (.num (f.entry * 2 ^ 40 + f.index * 2 ^ 24 + f.sub * 2 ^ 16 + f.abort))] f.abort))) ∧
  (∀ (s : State) (o : Origin) (b : List Byte), s.Inv → s.dev.admits (execReq o .cfgApply 0 0 true (.oct b)) → b.length = 24 →
    (1 < beAt b 1 1 → exec (.cfgApply o b) s = .next (s.refusedWith (execReq o .cfgApply 0 0 true (.oct b)).call [] 0x0302)) ∧
    (∀ t : Trig, beAt b 1 1 ≤ 1 → beAt b 2 2 = 0 → beAt b 22 2 = 0 → parseTrig (beAt b 0 1) (slice b 12 10) = some t →
      s.dev.trigAhead (s.dev.num .clkTimingChannel) t = true →
      ((s.dev.pendingOn 4 0).isSome = true → exec (.cfgApply o b) s =
        .next (s.refusedWith (execReq o .cfgApply 0 0 true (.oct b)).call [] 0x0501)) ∧
      ((s.dev.pendingOn 4 0).isSome = false → s.dev.applyConflict (beAt b 1 1 == 1) (beAt b 4 8) (some t) = false →
        ((s.dev.taken (execReq o .cfgApply 0 0 true (.oct b)).call).changeFault
          (s.dev.changes (beAt b 1 1 == 1) (beAt b 4 8)) true).abort = 0 → s.dev.acts.length < 256 →
        (t ≠ .now → exec (.cfgApply o b) s = .next (s.served (execReq o .cfgApply 0 0 true (.oct b)).call
          [.arm ⟨0, 4, 0, t, o.code.toNat, false, (s.dev.changes (beAt b 1 1 == 1) (beAt b 4 8)).map fun c => c.o.key c.i c.j,
             [b2n (beAt b 1 1 == 1), beAt b 4 8], 0⟩,
           .cfg fun x => { x with pendMask := beAt b 4 8, pendSwitch := beAt b 1 1 == 1, pendCall := none }] [])) ∧
        (t = .now → exec (.cfgApply o b) s = .next (s.owing (execReq o .cfgApply 0 0 true (.oct b)).call
          [.arm ⟨0, 4, 0, t, o.code.toNat, true, (s.dev.changes (beAt b 1 1 == 1) (beAt b 4 8)).map fun c => c.o.key c.i c.j,
             [b2n (beAt b 1 1 == 1), beAt b 4 8], 0⟩,
           .cfg fun x => { x with
             pendMask := beAt b 4 8, pendSwitch := beAt b 1 1 == 1
             pendCall := some (execReq o .cfgApply 0 0 true (.oct b)).call }]))))) ∧
  (∀ (s : State) (a : Action) (k : Bool), s.Inv → s.dev.answers = true → s.dev.pendingOn 4 0 = some a → s.dev.actTurn a = true →
    (∀ f : CfgFault, f = s.dev.changeFault (s.dev.changes s.dev.cfg.pendSwitch s.dev.cfg.pendMask) false → f.abort ≠ 0 →
      s.dev.cfg.pendCall = none → exec (.overlayApply k) s = .next (s.after
        [.disarm a.slot, .count .rmFailures 0 0 1, .raise 434 0 a.slot (top8 a.kind + f.abort % 65536 * 256) 0,
         .obj .cfgLastError 0 0 (.num (f.entry * 2 ^ 40 + f.index * 2 ^ 24 + f.sub * 2 ^ 16 + f.abort)),
         .obj .cfgApplyStatus 0 0 (.num (3 * 2 ^ 24 + f.abort))])) ∧
    ((s.dev.changeFault (s.dev.changes s.dev.cfg.pendSwitch s.dev.cfg.pendMask) false).abort = 0 → s.dev.cfg.pendCall = none →
      (∃ t, exec (.overlayApply k) s = .next t ∧ t.pending = s.pending ∧ t.dev.num .cfgApplyStatus / 2 ^ 24 = 2 ∧
        t.dev.cfg.mask = s.dev.cfg.pendMask ∧ (s.dev.cfg.pendSwitch = true → t.dev.cfg.standby = Image.empty)) ∧
      (s.dev.changes s.dev.cfg.pendSwitch s.dev.cfg.pendMask = [] →
        exec (.overlayApply k) s = .next (s.after ([.disarm a.slot, .cfg fun x => { x with
            base := if s.dev.cfg.pendSwitch then x.standby else x.base
            standby := if s.dev.cfg.pendSwitch then Image.empty else x.standby
            mask := s.dev.cfg.pendMask, epoch := x.epoch + 1, past := SMap.put [] x.epoch [] x.past },
          .obj .cfgApplyStatus 0 0 (.num (2 * 2 ^ 24 + s.dev.num .cfgApplyStatus % 2 ^ 16))] ++
          if s.dev.actLate a then [.count .rmLate 0 0 1, .raise 435 0 a.slot (top8 a.kind) 0] else []))) ∧
      (∀ c : Change, s.dev.changes s.dev.cfg.pendSwitch s.dev.cfg.pendMask = [c] → startsUnit c.o = false →
        entryBeh k c.e c.o c.i c.j c.v = storeBeh c.o c.i c.j c.v → c.o.key c.i c.j ≠ Obj.cfgApplyStatus.key 0 0 →
        c.o.key c.i c.j ≠ Obj.rmLate.key 0 0 →
        ∃ t, exec (.overlayApply k) s = .next t ∧ t.pending = s.pending ∧ t.dev.get c.o c.i c.j = keptValue c.o c.v ∧
          t.dev.num .cfgApplyStatus = 2 * 2 ^ 24 + s.dev.num .cfgApplyStatus % 2 ^ 16 ∧ t.dev.cfg.mask = s.dev.cfg.pendMask ∧
          t.dev.cfg.base = (if s.dev.cfg.pendSwitch then s.dev.cfg.standby else s.dev.cfg.base))))

/-- Accesses of a host in the Run state (Tables 6.2 to 6.5). -/
def Obligations.HostPages : Prop :=
  (∀ (s : State) (l : Fin 4) (f : Fin 64), s.dev.inRun → s.dev.reaches l.val f.val = true → s.dev.hostClosed l.val f.val = false →
    ∀ k : Nat, k = fnKey l.val f.val →
    (∀ (off : BitVec 21) (n : Fin 17), n.val ≠ 0 → s.dev.inBootWindow k off.toNat n.val = false →
      (bar0Fits off.toNat n.val = false → exec (.barReservedAccess l f (.read0 off n)) s =
        .next (s.after [.out ⟨.busRead, k, off.toNat, zeros n.val⟩])) ∧
      (bar0Fits off.toNat n.val = true → bar0Kind off.toNat = 0 → exec (.barReservedAccess l f (.read0 off n)) s =
        .next (s.after [.out ⟨.busRead, k, off.toNat, leBytes 4 (s.dev.bar0Reg k off.toNat)⟩])) ∧
      (bar0Fits off.toNat n.val = true → bar0Kind off.toNat = 1 → exec (.barReservedAccess l f (.read0 off n)) s =
        .next (s.after [.out ⟨.busRead, k, off.toNat, slice (s.dev.slotBytes k (off.toNat / 4096)) (off.toNat % 4096) n.val⟩]))) ∧
    (∀ (off : BitVec 21) (b : List Byte), BarAcc.wf (.write0 off b) = true → s.dev.inBootWindow k off.toNat b.length = false →
      (bar0Fits off.toNat b.length = false ∨ (bar0Kind off.toNat ≠ 1 ∧ off.toNat ≠ 0x004 ∧ off.toNat ≠ 0x00C ∧ off.toNat ≠ 0x014) →
        exec (.barReservedAccess l f (.write0 off b)) s = .next (s.after [.count .hifBadAccesses l.val 0 1])) ∧
      (bar0Fits off.toNat b.length = true → bar0Kind off.toNat = 1 → exec (.barReservedAccess l f (.write0 off b)) s =
        .next (s.after [.fn k fun y => { y with
          resp := SMap.put [] (off.toNat / 4096) (patch (s.dev.slotBytes k (off.toNat / 4096)) (off.toNat % 4096) b) y.resp }])) ∧
      (off.toNat = 0x00C → b.length = 4 → exec (.barReservedAccess l f (.write0 off b)) s =
        .next (s.after [.fn k fun y => { y with irq := leNat b / 2 ^ 31 % 2 * 2 ^ 31 + leNat b % 2048 }]))) ∧
    (∀ off : BitVec 16, off.toNat % 4 = 0 →
      exec (.barReservedAccess l f (.read4 off 4)) s =
        .next (s.after [.out ⟨.busRead, k, off.toNat, leBytes 4 (s.dev.bar4Dword l.val f.val off.toNat)⟩]) ∧
      ∀ b : List Byte, b.length = 4 → off.toNat < 0x8000 → off.toNat / 16 < s.dev.vectorsOf l.val f.val → off.toNat % 16 = 8 →
        exec (.barReservedAccess l f (.write4 off b)) s =
          .next (s.after [.vec (vecKey k (off.toNat / 16)) fun x => { x with data := leNat b }])) ∧
    (∀ v : BitVec 32, exec (.mbxDoneClear l f v) s = .next (s.after
      [.fn k fun y => { y with done := (setBits 32 v.toNat).foldl (fun a b => putBit a b false) y.done }])) ∧
    (∀ e : BitVec 32, (s.dev.fn k).epoch = e.toNat → exec (.leaseRenew l f e) s = .next (s.after
      [.fn k fun y => { y with
        live := true, remain := 1000 * s.dev.num .hifLeasePeriod l.val, period := s.dev.num .hifLeasePeriod l.val }])) ∧
    (∀ e : BitVec 32, (s.dev.fn k).epoch ≠ e.toNat → exec (.leaseRenew l f e) s = .next (s.after
      [.count .hifBadAccesses l.val 0 1, .raise (64 + 16 * l.val + 9) 0 f.val 0 0])) ∧
    (∀ (r : Fin 4096) (ix : BitVec 32) (ds : List Desc), s.dev.linkOfRing r.val = l.val →
      (s.dev.ringFn r.val = k → (s.dev.ringSt r.val).state = 1 →
        ∀ ahead : Nat, ahead = (if (s.dev.ringSt r.val).kind = 5 then ixDist (s.dev.ringSt r.val).devIx ix.toNat
          else ixDist ix.toNat (s.dev.ringSt r.val).devIx) →
        (ixDist ix.toNat (s.dev.ringSt r.val).hostIx < 2 ^ 31 → ahead ≤ 2 ^ (s.dev.ringSt r.val).log2 →
          exec (.hostIndexWrite l f r ix ds) s = .next (s.after [.ring r.val fun x => { x with
            hostIx := ix.toNat
            posted := if x.kind = 5 then [] else x.posted ++ ds.take (ixDist ix.toNat (s.dev.ringSt r.val).hostIx) }])) ∧
        (2 ^ 31 ≤ ixDist ix.toNat (s.dev.ringSt r.val).hostIx ∨ 2 ^ (s.dev.ringSt r.val).log2 < ahead →
          exec (.hostIndexWrite l f r ix ds) s =
            .next (s.after [.ring r.val fun x => { x with state := 2, err := 3 }, .raise (64 + 16 * l.val + 8) 3 r.val 0 0]))) ∧
      (s.dev.ringFn r.val ≠ k ∨ (s.dev.ringSt r.val).state = 0 ∨ (s.dev.ringSt r.val).state = 2 →
        exec (.hostIndexWrite l f r ix ds) s = .next (s.after [.count .hifBadAccesses l.val 0 1])) ∧
      (s.dev.ringFn r.val = k → (s.dev.ringSt r.val).state = 3 → exec (.hostIndexWrite l f r ix ds) s =
        .next (s.after [.count .hifBadAccesses l.val 0 1, .raise (64 + 16 * l.val + 9) 0 r.val 0 0]))) ∧
    (∀ n : Fin 1024, s.dev.closedAbort (s.dev.dmapKey k n.val / 256) = 0 → s.dev.dmapKey k n.val ≠ Obj.rstCauseSticky.key 0 0 →
      exec (.dmapSlotRead l f n) s = .next (s.after
        [.out ⟨.busRead, k, 0x10000 + 16 * n.val, slice (s.dev.dmapValue k n.val) 0 16⟩])) ∧
    (∀ v : Fin 2048, v.val < s.dev.vectorsOf l.val f.val →
      ((SMap.get Vec.none s.dev.vecs (vecKey k v.val)).pend = false → exec (.msixVectorUnmask l f v) s = .next (s.after
        [.vec (vecKey k v.val) fun x => { x with masked := false }])) ∧
      ((SMap.get Vec.none s.dev.vecs (vecKey k v.val)).pend = true → s.dev.canSignal l.val f.val = true →
        (s.dev.fn k).msixMask = false → SMap.wf Vec.none s.dev.vecs = true → exec (.msixVectorUnmask l f v) s = .next (s.after
        [.vec (vecKey k v.val) fun x => { x with masked := false },
         .vec (vecKey k v.val) fun x => { x with pend := false },
         .out ⟨.msix, k, v.val, leBytes 8 (SMap.get Vec.none s.dev.vecs (vecKey k v.val)).addr ++
           leBytes 4 (SMap.get Vec.none s.dev.vecs (vecKey k v.val)).data⟩])))) ∧
  (∀ (s : State) (l : Fin 4) (f : Fin 64), s.dev.inRun → s.dev.reaches l.val f.val = true → s.dev.hostClosed l.val f.val = true →
    ∀ e : List Eff, e = [.count .xingClosedDiscards 0 0 1, .raise (64 + 16 * l.val + 4) 0 l.val 0 0] →
    (∀ v : BitVec 32, exec (.mbxDoneClear l f v) s = .next (s.after e) ∧ exec (.leaseRenew l f v) s = .next (s.after e)) ∧
    (∀ (r : Fin 4096) (ix : BitVec 32) (ds : List Desc), exec (.hostIndexWrite l f r ix ds) s = .next (s.after e)) ∧
    (∀ v : Fin 2048, exec (.msixVectorUnmask l f v) s = .next (s.after e)) ∧
    (∀ n : Fin 1024, exec (.dmapSlotRead l f n) s = .next (s.after
      [.out ⟨.busError, fnKey l.val f.val, 0x10000 + 16 * n.val, List.replicate 16 255⟩, .raise (64 + 16 * l.val + 4) 0 l.val 0 0]))) ∧
  (∀ (s : State) (a : BitVec 28), s.dev.inRun → s.dev.reaches 0 0 = true →
    (s.dev.diagVisible 0x0100 = false →
      exec (.bar2Access false a) s = .next (s.after [.out ⟨.busRead, 0, a.toNat, zeros 4⟩]) ∧
      exec (.bar2Access true a) s = .next (s.after [.count .hifBadAccesses 0 0 1])) ∧
    (s.dev.diagVisible 0x0100 = true → ∀ w, exec (.bar2Access w a) s = .refused .diagnosticsUndescribed)) ∧
  (∀ (s : State) (l : Fin 4) (f : Fin 64), s.dev.linkUsed l.val = true → s.dev.num .hifLinkState l.val = 2 → s.dev.clk.devReset = false →
    (∀ q : CfgReq, exec (.pcieConfigRequest l f false q) s = .next (s.after [.out ⟨.busError, fnKey l.val f.val, 2, []⟩])) ∧
    (∀ off : BitVec 12, exec (.pcieConfigRequest l f true (.read off)) s = .next (s.after [.out ⟨.busRead, fnKey l.val f.val, off.toNat,
      leBytes 4 (s.dev.cfgDword l.val f.val (off.toNat / 4 * 4))⟩])) ∧
    s.dev.cfgDword l.val f.val 0 = (if f.val = 0 then 0x9640 else 0x9641) * 65536 + Config.vendorId % 65536 ∧
    s.dev.cfgDword l.val f.val 8 = 0x02800021 ∧
    (f.val = 0 → ∀ v : BitVec 32, exec (.pcieConfigRequest l f true (.write 4 v)) s = .next (s.after [.fn (fnKey l.val 0) fun y => { y with
      cfg := SMap.put 0 4 (cfgMerge 0x0546 (s.dev.cfgDword l.val 0 4) v.toNat + 1) y.cfg }])) ∧
    ∀ m : Bool, exec (.pcieConfigRequest l f true (.msix false m)) s =
      .next (s.after [.fn (fnKey l.val f.val) fun y => { y with msixOn := false, msixMask := m }]))

/-- Links, functions and leases (R172 to R200, R647). -/
def Obligations.LinksAndLeases : Prop :=
  let revoked (s t : State) (k : Nat) : Prop := (t.dev.fn k).live = false ∧
    (t.dev.fn k).epoch = if (s.dev.fn k).live then nextLease (s.dev.fn k).epoch else (s.dev.fn k).epoch
  -- a link's reset: every lease revoked, the VFs gone, the rings unconfigured, the link's crossings Closed
  let linkReset (s t : State) (l : Nat) : Prop := t.pending = s.pending ∧ (∀ f, f < 64 → revoked s t (fnKey l f)) ∧
    t.dev.num .hifNumVfs l = 0 ∧ (t.dev.lnk l).vfEnable = false ∧
    (∀ r, s.dev.linkOfRing r = l → t.dev.ringSt r = Ring.none) ∧ t.dev.clk.closed.contains (0x700 + l) = true
  let functionReset (s t : State) (l f : Nat) : Prop := t.pending = s.pending ∧ revoked s t (fnKey l f) ∧
    (∀ k, k ≠ fnKey l f → t.dev.fn k = s.dev.fn k)
  (∀ (s : State) (l : Fin 4) (v : Fin 5) (w : Fin 17), s.dev.answers = true → s.dev.linkUsed l.val = true → (s.dev.lnk l.val).perstN = true →
    v ≠ 0 → w ≠ 0 → w.val ≤ s.dev.widest → exec (.pcieLinkUp l v w) s = .next (s.after
      ([.obj .hifLinkState l.val 0 (.num 2), .obj .hifLinkSpeed l.val 0 (.num v.val), .obj .hifLinkWidth l.val 0 (.num w.val),
        .raise (64 + 16 * l.val) 0 l.val 0 0] ++
        if v.val ≠ 4 ∨ w.val ≠ s.dev.widest then [.raise (64 + 16 * l.val + 2) 0 l.val 0 0] else []))) ∧
  (∀ (s : State) (l : Fin 4) (x : BitVec 32), s.Inv → s.dev.answers = true → s.dev.linkUsed l.val = true → s.dev.num .hifLinkState l.val = 2 →
    (∃ t, exec (.pcieLinkDown l x) s = .next t ∧ linkReset s t l.val ∧ t.dev.num .hifLinkState l.val = 1 ∧
      t.dev.raisedEvent (64 + 16 * l.val + 1) 0 l.val) ∧
    (∃ t, exec (.perstLow l x) s = .next t ∧ linkReset s t l.val ∧ t.dev.num .hifLinkState l.val = 1 ∧
      t.dev.raisedEvent (64 + 16 * l.val + 1) 0 l.val ∧ (t.dev.lnk l.val).perstN = false) ∧
    (s.dev.inRun → ∃ t, exec (.pcieHotReset l x) s = .next t ∧ linkReset s t l.val ∧ t.dev.num .hifLinkState l.val = 2)) ∧
  (∀ (s : State) (l : Fin 4), s.Inv → s.dev.answers = true → (s.dev.fn (fnKey l.val 0)).live = true → ∃ t, exec (.leaseExpiry l 0) s = .next t ∧
    t.pending = s.pending ∧ ∀ f, f < 64 → revoked s t (fnKey l.val f)) ∧
  (∀ (s : State) (l : Fin 4) (f : Fin 64), s.Inv → s.dev.answers = true → f ≠ 0 → (s.dev.fn (fnKey l.val f.val)).live = true →
    ∃ t, exec (.leaseExpiry l f) s = .next t ∧ functionReset s t l.val f.val) ∧
  (∀ (s : State) (l : Fin 4), s.Inv → s.dev.inRun → s.dev.reaches l.val 0 = true → (s.dev.lnk l.val).vfEnable = true →
    ∃ t, exec (.vfEnableClear l) s = .next t ∧ t.pending = s.pending ∧ (∀ f, 1 ≤ f → f < 64 → revoked s t (fnKey l.val f)) ∧
      (t.dev.fn (fnKey l.val 0)) = (s.dev.fn (fnKey l.val 0)) ∧ t.dev.num .hifNumVfs l.val = 0) ∧
  (∀ (s : State) (l : Fin 4) (f : Fin 64) (x : BitVec 32), s.Inv → s.dev.inRun → s.dev.reaches l.val f.val = true →
    ∃ t, exec (.functionLevelReset l f x) s = .next t ∧ exec (.functionD3ToD0 l f x) s = .next t ∧
      t.dev.raisedEvent (64 + 16 * l.val + 5) 0 f.val ∧ revoked s t (fnKey l.val f.val) ∧
      (f = 0 → linkReset s t l.val) ∧
      (f ≠ 0 → functionReset s t l.val f.val ∧ t.dev.clk.closed.contains (0x800 + fnKey l.val f.val) = true)) ∧
  (∀ (s : State) (l : Fin 4) (n : Fin 64), s.dev.inRun → s.dev.reaches l.val 0 = true → (s.dev.lnk l.val).vfEnable = false → n ≠ 0 →
    (s.dev.num .hifMsixPfVectors l.val + n.val * s.dev.vfShare l.val n.val ≤ s.dev.bifur.2.2 → exec (.vfEnableSet l n) s =
      .next (s.after [.link l.val fun x => { x with vfEnable := true, vfVecs := s.dev.vfShare l.val n.val },
        .obj .hifNumVfs l.val 0 (.num n.val)])) ∧
    (s.dev.bifur.2.2 < s.dev.num .hifMsixPfVectors l.val + n.val * s.dev.vfShare l.val n.val → exec (.vfEnableSet l n) s =
      .next (s.after [.raise (64 + 16 * l.val + 13) 0 l.val 0 0]))) ∧
  (∀ (s : State) (l : Fin 4) (f : Fin 64), s.dev.answers = true → (s.dev.fn (fnKey l.val f.val)).live = true →
    exec (.leaseQuarterWarning l f) s = .next (s.after
    [.fn (fnKey l.val f.val) fun y => { y with remain := min y.remain (250 * y.period - 1) },
     .raise (64 + 16 * l.val + 7) 0 f.val 0 0])) ∧
  (∀ (s : State) (l : Fin 4), s.dev.linkUsed l.val = true → s.dev.answers = true →
    (∀ u : Bool, exec (.aerErrorLogged l u) s =
      .next (s.after [.raise (64 + 16 * l.val + (if u then 4 else 3)) 0 l.val 0 0])) ∧
    (s.dev.inRun → exec (.perstRise l) s = .next (s.after [.link l.val fun x => { x with perstN := true }]) ∧
      exec (.pcieL1Exit l) s = .next (s.after [.link l.val fun x => { x with inL1 := false }])))

/-- Rings (R182 to R191). VECTOR judged only with its enable bit (log entry 103) and the abort of a teardown outside the requester's
rights (log entry 104) are the model's choices. -/
def Obligations.RingCommands : Prop :=
  (∀ (s : State) (o : Origin) (l : Fin 4) (b : List Byte) (g : Ring), s.Inv → g = { Ring.none with setup := b } → b.length = 32 →
    s.dev.admits (execReq o .hifRingSetup l.val 0 true (.oct b)) →
    (g.kind = 0 ∨ 7 < g.kind ∨ g.base % 4096 ≠ 0 ∨ g.wb % 8 ≠ 0 ∨ g.log2 < 6 ∨ 16 < g.log2 ∨ g.cnt = 0 ∨ 4096 < g.cnt ∨ 1023 < g.itr ∨
      s.dev.mayRing l.val (hostFn o.code.toNat) (beAt b 0 2) = false → exec (.hifRingSetup o l b) s =
        .next (s.refusedWith (execReq o .hifRingSetup l.val 0 true (.oct b)).call [] 0x0302)) ∧
    (1 ≤ g.kind → g.kind ≤ 7 → g.func ≤ 63 → 6 ≤ g.log2 → g.log2 ≤ 16 → g.sev ≤ 7 → (g.kind ≠ 5 → g.sev = 0) → bitsOf g.vector 11 4 = 0 →
      g.itr ≤ 1023 → 1 ≤ g.cnt → g.cnt ≤ 4096 → beAt b 28 4 = 0 → s.dev.mayRing l.val (hostFn o.code.toNat) (beAt b 0 2) = true →
      g.base % 4096 = 0 → g.wb % 8 = 0 → (bitOf g.vector 15 = true → g.vector % 2048 < s.dev.vectorsOf l.val g.func) →
      (hostFn o.code.toNat ≠ 0 → g.func ≠ hostFn o.code.toNat → exec (.hifRingSetup o l b) s =
        .next (s.refusedWith (execReq o .hifRingSetup l.val 0 true (.oct b)).call [] 0x0201)) ∧
      (hostFn o.code.toNat = 0 ∨ g.func = hostFn o.code.toNat →
        (s.dev.fnEnabled l.val g.func = false ∨ (s.dev.fn (fnKey l.val g.func)).live = false ∨
            (s.dev.fn (hostKey o.code.toNat)).live = false → exec (.hifRingSetup o l b) s =
          .next (s.refusedWith (execReq o .hifRingSetup l.val 0 true (.oct b)).call [] 0x0401)) ∧
        (s.dev.fnEnabled l.val g.func = true → (s.dev.fn (fnKey l.val g.func)).live = true → (s.dev.fn (hostKey o.code.toNat)).live = true →
          ((s.dev.ringSt (beAt b 0 2)).state ≠ 0 → exec (.hifRingSetup o l b) s =
            .next (s.refusedWith (execReq o .hifRingSetup l.val 0 true (.oct b)).call [] 0x0402)) ∧
          ((s.dev.ringSt (beAt b 0 2)).state = 0 → exec (.hifRingSetup o l b) s =
            .next (s.served (execReq o .hifRingSetup l.val 0 true (.oct b)).call
              [.ring (beAt b 0 2) fun _ => { Ring.none with state := 1, setup := b }] [])))))) ∧
  (∀ (s : State) (o : Origin) (l : Fin 4) (r : BitVec 16), s.Inv →
    (s.dev.admits (execReq o .hifRingTeardown l.val 0 true (.num r.toNat)) → s.dev.mayRing l.val (hostFn o.code.toNat) r.toNat = true →
      exec (.hifRingTeardown o l r) s = .next (s.served (execReq o .hifRingTeardown l.val 0 true (.num r.toNat)).call
        [.dropRings (· == r.toNat), .dropPaths (· == 0x1000 + r.toNat),
         .clk fun c => { c with held := c.held.filter fun x => !([0x1000 + r.toNat] : List Nat).contains (pathKey x.o.path) }] [])) ∧
    (s.dev.admits (execReq o .hifRingTeardown l.val 0 true (.num r.toNat)) → s.dev.mayRing l.val (hostFn o.code.toNat) r.toNat = false →
      exec (.hifRingTeardown o l r) s = .next (s.refusedWith (execReq o .hifRingTeardown l.val 0 true (.num r.toNat)).call [] 0x0302)) ∧
    (s.dev.admits (execReq o .hifRingQuery l.val 0 true (.num r.toNat)) → isHost o.code.toNat = true →
      s.dev.mayRing l.val (hostFn o.code.toNat) r.toNat = true →
      exec (.hifRingQuery o l r) s = .next (s.served (execReq o .hifRingQuery l.val 0 true (.num r.toNat)).call []
        (padTo 32 (s.dev.ringSt r.toNat).setup ++ pathBytes o.path 4 (s.dev.ringSt r.toNat).status)))) ∧
  (∀ (s : State) (o : Origin) (l : Fin 4) (v : BitVec 64), s.Inv → s.dev.admits (execReq o .hifDmapSet l.val 0 true (.num v.toNat)) →
    v.toNat / 2 ^ 48 = 0 → v.toNat % 256 = 0 → bitsOf v.toNat 32 16 ≤ 1023 →
    (bitsOf v.toNat 16 16 = 0 → exec (.hifDmapSet o l v) s = .next (s.served (execReq o .hifDmapSet l.val 0 true (.num v.toNat)).call
      [.fn (fnKey l.val (hostFn (s.dev.codeOf o.path))) fun y => { y with dmap := SMap.put 0 (bitsOf v.toNat 32 16) 0 y.dmap }] [])) ∧
    (∀ (x : Obj) (i j : Nat), bitsOf v.toNat 16 16 ≠ 0 → target (bitsOf v.toNat 16 16) (bitsOf v.toNat 8 8) = .elem x i j →
      s.dev.accessAbort (s.dev.codeOf o.path) 1 x i j = 0 → isCounter x = false →
      x.row.ty = .bool ∨ (∃ w, x.row.ty = .u w ∨ x.row.ty = .s w) ∨ (∃ n, n ≤ 16 ∧ x.row.ty = .oct n) →
      exec (.hifDmapSet o l v) s = .next (s.served (execReq o .hifDmapSet l.val 0 true (.num v.toNat)).call
        [.fn (fnKey l.val (hostFn (s.dev.codeOf o.path))) fun y => { y with
          dmap := SMap.put 0 (bitsOf v.toNat 32 16) (bitsOf v.toNat 16 16 * 256 + bitsOf v.toNat 8 8) y.dmap }] []))) ∧
  (∀ (s : State) (r : Fin 4096) (x : Desc) (rest : List Desc), s.Inv → s.dev.answers = true → s.dev.inRun →
    (s.dev.ringSt r.val).posted = x :: rest → (s.dev.ringSt r.val).state = 1 → (s.dev.ringSt r.val).kind = 2 →
    bitOf x.ctrl.toNat 14 = false →
    ∀ (b : List Byte) (wb : Nat → Out), b = x.buf.take (descSize x) →
    wb = (fun st => ⟨.dma, s.dev.ringFn r.val, (s.dev.ringSt r.val).base + 32 * ((s.dev.ringSt r.val).devIx % 2 ^ (s.dev.ringSt r.val).log2),
      descWriteBack x (descSize x) st x.metaw.toNat false⟩) →
    (s.dev.descFate r.val x = 2 ∨ s.dev.descFate r.val x = 3 → ∃ t, exec (.hostTxDescriptor r) s = .next t ∧ t.pending = s.pending ∧
      (t.dev.ringSt r.val).posted = rest ∧ (t.dev.ringSt r.val).devIx = ((s.dev.ringSt r.val).devIx + 1) % 2 ^ 32 ∧
      t.dev.fwd = s.dev.fwd ∧ wb (s.dev.descFate r.val x) ∈ t.dev.outs ∧
      (s.dev.descFate r.val x = 2 → t.dev.raisedEvent (64 + 16 * s.dev.linkOfRing r.val + 9) 0 r.val)) ∧
    (s.dev.descFate r.val x = 0 → b.length < 14 ∨ 16383 < b.length → ∃ t, exec (.hostTxDescriptor r) s = .next t ∧ t.pending = s.pending ∧
      (t.dev.ringSt r.val).posted = rest ∧ t.dev.fwd = s.dev.fwd ∧ wb 3 ∈ t.dev.outs) ∧
    (s.dev.descFate r.val x = 0 → 14 ≤ b.length → b.length ≤ 16383 → bitOf x.metaw.toNat 27 = false → s.dev.linkOfRing r.val < 4 →
      s.dev.portClosed (112 + s.dev.linkOfRing r.val) = false →
      s.dev.ingressCells (112 + s.dev.linkOfRing r.val) + cellsOf b ≤ s.dev.ingressShare (112 + s.dev.linkOfRing r.val) →
      ∃ t, exec (.hostTxDescriptor r) s = .next t ∧ t.pending = s.pending ∧
      (t.dev.ringSt r.val).posted = rest ∧ (∃ p : Pkt, t.dev.fwd.waiting = s.dev.fwd.waiting ++ [p] ∧
        p.port = 112 + s.dev.linkOfRing r.val ∧ p.data = b) ∧ wb 0 ∈ t.dev.outs)) ∧
  (∀ (s : State) (r : Fin 4096), s.Inv → s.dev.answers = true → (s.dev.ringSt r.val).unsig ≠ 0 →
    (bitOf (s.dev.ringSt r.val).vector 15 = false → exec (.ringItrExpiry r) s = .next (s.after [.ring r.val fun x => { x with unsig := 0 }])) ∧
    (∀ (k : Nat) (v : Vec), k = fnKey (s.dev.linkOfRing r.val) (s.dev.ringSt r.val).func →
      v = SMap.get Vec.none s.dev.vecs (vecKey k ((s.dev.ringSt r.val).vector % 2048)) →
      bitOf (s.dev.ringSt r.val).vector 15 = true → s.dev.canSignal (s.dev.linkOfRing r.val) (s.dev.ringSt r.val).func = true →
      ((s.dev.fn k).msixMask = false → v.masked = false →
        exec (.ringItrExpiry r) s = .next (s.after [.ring r.val fun x => { x with unsig := 0 },
          .out ⟨.msix, k, (s.dev.ringSt r.val).vector % 2048, leBytes 8 v.addr ++ leBytes 4 v.data⟩])) ∧
      ((s.dev.fn k).msixMask = true ∨ v.masked = true →
        exec (.ringItrExpiry r) s = .next (s.after [.ring r.val fun x => { x with unsig := 0 },
          .vec (vecKey k ((s.dev.ringSt r.val).vector % 2048)) fun y => { y with pend := true }]))))

/-- Front-end requests (Tables 7.7 and 7.8). -/
def Obligations.FrontEndRequests : Prop :=
  (∀ (s : State) (o : Origin) (n : Fin 4) (v : BitVec 8) (a : Bool), s.Inv → s.dev.admits (writeReq o .feEnable n.val 0 (.num v.toNat)) →
    (v = 1 → s.dev.hvEnable = false ∨ s.dev.num .hvState ≠ 2 → exec (.feEnableWrite o n v a) s =
      .next (s.refusedWith (writeReq o .feEnable n.val 0 (.num v.toNat)).call [] 0x0401)) ∧
    (v = 1 → s.dev.hvEnable = true → s.dev.num .hvState = 2 → a = true → s.dev.num .feEnable n.val = 0 → s.dev.num .feState n.val = 0 →
      exec (.feEnableWrite o n v a) s = .next (s.served (writeReq o .feEnable n.val 0 (.num v.toNat)).call
        [.obj .feEnable n.val 0 (.num 1), .obj .feState n.val 0 (.num 1)] [])) ∧
    (v = 0 → a = true → ∃ t, exec (.feEnableWrite o n v a) s = .next t ∧ t.pending = s.pending ∧ t.dev.num .feEnable n.val = 0 ∧
      t.dev.num .feState n.val = 0 ∧ t.dev.num .clkFchState 0 n.val = 0 ∧ t.dev.num .frmDefects n.val = 0 ∧
      t.dev.num .feApdCurrent n.val = 0 ∧ (t.dev.ch n.val).burstOn = false ∧
      t.dev.num .actState n.val = (if s.dev.num .actState n.val = 6 then 6 else 0)) ∧
    (a = false → v = 0 ∨ (v = 1 ∧ s.dev.hvEnable = true ∧ s.dev.num .hvState = 2) → exec (.feEnableWrite o n v a) s =
      .next (s.owing (writeReq o .feEnable n.val 0 (.num v.toNat)).call
        [.fch n.val fun f => { f with
          hvPend := f.hvPend ++ [⟨.feEnable, v.toNat, 0, (writeReq o .feEnable n.val 0 (.num v.toNat)).call⟩] }]))) ∧
  (∀ (s : State) (o : Origin) (n : Fin 4) (v : BitVec 32), s.Inv → s.dev.admits (writeReq o .feApdTarget n.val 0 (.num v.toNat)) →
    exec (.feApdTargetWrite o n v true) s = .next (s.served (writeReq o .feApdTarget n.val 0 (.num v.toNat)).call
      [.obj .feApdTarget n.val 0 (.num v.toNat)] []) ∧
    exec (.feApdTargetWrite o n v false) s = .next (s.owing (writeReq o .feApdTarget n.val 0 (.num v.toNat)).call
      [.fch n.val fun f => { f with
        hvPend := f.hvPend ++ [⟨.feApdTarget, v.toNat, 0, (writeReq o .feApdTarget n.val 0 (.num v.toNat)).call⟩] }])) ∧
  (∀ (s : State) (o : Origin) (n : Fin 4) (b : List Byte), s.Inv → s.dev.admits (writeReq o .feTxCoeff n.val 0 (.oct b)) →
    (coeffOk b = true → exec (.feTxCoeffWrite o n b) s =
      .next (s.served (writeReq o .feTxCoeff n.val 0 (.oct b)).call [.obj .feTxCoeff n.val 0 (.oct b)] [])) ∧
    (512 < coeffSum b ∨ coeffRange b = false ∨ meetsMask b = false → exec (.feTxCoeffWrite o n b) s =
      .next (s.refusedWith (writeReq o .feTxCoeff n.val 0 (.oct b)).call [] 0x0302))) ∧
  (∀ (s : State) (o : Origin) (n : Fin 4) (p a : Bool), s.Inv → s.dev.admits (execReq o .feLaserRelease n.val 0 true (.num 0)) →
    ((s.dev.ch n.val).rogue = 0 → exec (.feLaserRelease o n p a) s =
      .next (s.served (execReq o .feLaserRelease n.val 0 true (.num 0)).call [] [])) ∧
    ((s.dev.ch n.val).rogue ≠ 0 → p = true → exec (.feLaserRelease o n p a) s =
      .next (s.refusedWith (execReq o .feLaserRelease n.val 0 true (.num 0)).call [] 0x0401)) ∧
    ((s.dev.ch n.val).rogue ≠ 0 → p = false → a = true → exec (.feLaserRelease o n p a) s =
      .next (s.served (execReq o .feLaserRelease n.val 0 true (.num 0)).call [.fch n.val fun c => { c with rogue := 0 }] [])) ∧
    ((s.dev.ch n.val).rogue ≠ 0 → p = false → a = false → exec (.feLaserRelease o n p a) s =
      .next (s.owing (execReq o .feLaserRelease n.val 0 true (.num 0)).call [.fch n.val fun f => { f with
        hvPend := f.hvPend ++ [⟨.feLaserRelease, 0, 0, (execReq o .feLaserRelease n.val 0 true (.num 0)).call⟩] }]))) ∧
  (∀ (s : State) (o : Origin) (a : Bool), s.Inv → s.dev.admits (execReq o .hvRearm 0 0 true (.num 0)) →
    (s.dev.num .hvState = 2 → exec (.hvRearm o a) s = .next (s.served (execReq o .hvRearm 0 0 true (.num 0)).call [] [])) ∧
    (s.dev.num .hvState ≠ 2 → s.dev.canRearm = false → exec (.hvRearm o a) s =
      .next (s.refusedWith (execReq o .hvRearm 0 0 true (.num 0)).call [] 0x0401)) ∧
    (s.dev.canRearm = true → a = true → ∃ t, exec (.hvRearm o a) s = .next t ∧ t.pending = s.pending ∧ t.dev.num .hvState = 2 ∧
      t.dev.raisedEvent 504 0 noInst ∧ ∀ n, n < 4 → s.dev.num .feEnable n = 1 → t.dev.num .feState n = 1)) ∧
  (∀ (s : State) (o : Origin) (n : Fin 4) (v : BitVec 8), s.Inv → s.dev.admits (writeReq o .feLaserForceOff n.val 0 (.num v.toNat)) →
    exec (.feLaserForceOffWrite o n v) s = .next (s.served (writeReq o .feLaserForceOff n.val 0 (.num v.toNat)).call
      ([.obj .feLaserForceOff n.val 0 (.num v.toNat)] ++ if v = 1 then [.fch n.val fun c => { c with burstOn := false }] else []) []))

/-- Events of the front end and the HV die (Tables 7.3, 7.4, 7.9). -/
def Obligations.HvDieEvents : Prop :=
  (∀ (s : State) (n : Fin 4), s.Inv → s.dev.answers = true →
    (s.dev.num .feState n.val = 1 → ∃ t, exec (.apdBiasAtTarget n) s = .next t ∧ t.pending = s.pending ∧ t.dev.num .feState n.val = 2 ∧
      t.dev.raisedEvent (128 + 16 * n.val) 0 n.val ∧ t.dev.num .dmtState n.val = 1 ∧ t.dev.num .frmAlignState n.val = 0 ∧
      t.dev.num .actState n.val = (if s.dev.num .actState n.val = 0 then 1 else s.dev.num .actState n.val)) ∧
    (s.dev.num .feState n.val ≠ 1 → exec (.apdBiasAtTarget n) s = .next s) ∧
    (s.dev.num .feState n.val ≠ 0 → exec (.apdCurrentLimit n) s = .next (s.after
      [.count .feApdLimitEvents n.val 0 1, .raise (128 + 16 * n.val + 1) 0 n.val 0 0]))) ∧
  (∀ (s : State), s.Inv → s.dev.answers = true →
    (∀ m : HvMsg, exec (.hvControlMessage false m) s = .next (s.after [.count .hvLinkErrors 0 0 1, .raise 509 0 noInst 0 0])) ∧
    (∀ a b c : BitVec 32, exec (.hvControlMessage true (.die a b c)) s = .next (s.after
      [.obj .hvVin 0 0 (.num a.toNat), .obj .hvBoost 0 0 (.num b.toNat), .obj .hvTemp 0 0 (.num c.toNat)])) ∧
    (∀ (n : Fin 4) (a b c : BitVec 32), exec (.hvControlMessage true (.channel n a b c)) s = .next (s.after
      [.obj .feApdVoltage n.val 0 (.num a.toNat),
       .obj .feApdCurrent n.val 0 (.num (if s.dev.num .feState n.val = 0 then 0 else b.toNat)), .obj .feLdMon n.val 0 (.num c.toNat)])) ∧
    (∀ (n : Fin 4) (x : HvCmd) (rest : List HvCmd), (s.dev.ch n.val).hvPend = x :: rest → x.obj = .feApdTarget →
      exec (.hvControlMessage true (.ack n)) s = .next { s with dev := (respond x.call 0 []).run (s.dev.after
        [.fch n.val fun f => { f with hvPend := f.hvPend.tail }, .obj .feApdTarget n.val 0 (.num x.value)]) } ∧
      exec (.hvCommandResend n true) s = exec (.hvControlMessage true (.ack n)) s) ∧
    (∀ (n : Fin 4) (x : HvCmd) (rest : List HvCmd), (s.dev.ch n.val).hvPend = x :: rest →
      (x.sent < 2 → ∃ t, exec (.hvCommandResend n false) s = .next t ∧ t.pending = s.pending ∧
        (t.dev.ch n.val).hvPend = { x with sent := x.sent + 1 } :: rest ∧ s.dev.only noKeys [.fch] t.dev) ∧
      (2 ≤ x.sent → exec (.hvCommandResend n false) s = .next { s with dev := (respond x.call 0x0701 []).run (s.dev.after
        [.fch n.val fun f => { f with hvPend := f.hvPend.tail }]) }))) ∧
  (∀ (s : State) (b : Bool), exec (.hvHeartbeat b) s = .next (s.after
    ((if s.dev.hvTrip then [.count .hvWatchdogTrips 0 0 1, .raise 505 0 noInst 0 0] else []) ++ [.hv s.dev.hvUnder b false]))) ∧
  (∀ (s : State), s.Inv → ∀ safe : State → Prop,
    safe = (fun t => t.pending = s.pending ∧ t.dev.num .hvState = 3 ∧
      ∀ n, n < 4 → t.dev.num .feState n = if s.dev.num .feEnable n = 1 then 3 else s.dev.num .feState n) →
    (s.dev.num .hvState ≠ 0 → ∃ t, exec .hvWatchdogExpiry s = .next t ∧ safe t ∧ t.dev.hvTrip = true ∧ t.dev.hvBeat = false ∧
      t.dev.hvUnder = false) ∧
    (s.dev.num .hvState = 2 ∨ s.dev.num .hvState = 3 → ∃ t, exec .boostOutOfRange s = .next t ∧ safe t ∧
      t.dev.raisedEvent 507 0 noInst) ∧
    (s.dev.num .hvState ≠ 0 → ∃ t, exec .hvOvertemp s = .next t ∧ safe t ∧ t.dev.raisedEvent 508 0 noInst ∧ t.dev.hvUnder = false)) ∧
  (∀ s : State, s.Inv → s.dev.num .hvState ≠ 0 → ∃ t, exec .hvinUndervoltage s = .next t ∧ t.pending = s.pending ∧
    t.dev.num .hvState = 0 ∧ t.dev.hvUnder = true ∧ t.dev.pins.hvin = false ∧ t.dev.raisedEvent 506 0 noInst ∧
    ∀ n, n < 4 → s.dev.num .feEnable n = 1 → t.dev.num .feState n = 3) ∧
  (∀ s : State, s.dev.num .hvState = 0 → s.dev.hvEnable = true →
    exec .hvinRecovery s = .next (s.after [.pins fun p => { p with hvin := true }, .obj .hvState 0 0 (.num 1)])) ∧
  (∀ s : State, s.Inv → s.dev.num .hvState = 1 →
    (s.dev.hvUnder = false → exec .boostInRegulation s = .next (s.after [.obj .hvState 0 0 (.num 2), .raise 504 0 noInst 0 0])) ∧
    (s.dev.hvUnder = true → ∃ t, exec .boostInRegulation s = .next t ∧ t.pending = s.pending ∧ t.dev.num .hvState = 3 ∧
      t.dev.hvUnder = false)) ∧
  (∀ (s : State) (n : Fin 4), s.dev.num .hvState ≠ 0 → (s.dev.ch n.val).rogue = 0 →
    ((s.dev.ch n.val).burstOn = false → exec (.rogueMonitorLatch n) s = .next (s.after
      [.fch n.val fun c => { c with rogue := 1 }, .count .feRogueTrips n.val 0 1, .raise (128 + 16 * n.val + 2) 1 n.val 0 0])) ∧
    ((s.dev.ch n.val).burstOn = true → s.dev.num .feRogueOnLimit n.val ≠ 0 → exec (.rogueOnLimitLatch n) s = .next (s.after
      [.fch n.val fun c => { c with rogue := 2 }, .count .feRogueTrips n.val 0 1, .raise (128 + 16 * n.val + 2) 2 n.val 0 0])))

/-- The DMT receiver (R232 to R252). Its arithmetic, what the header counts as and the frame test are the model's choices (log entries
118 and 121 to 124). -/
def Obligations.DmtReceiver : Prop :=
  (∀ (s : State) (n : Fin 4), s.Inv → s.dev.answers = true →
    (∀ x : List Int,
      (s.dev.num .dmtState n.val = 1 → correlates x.toArray (s.dev.num .dmtWindowAdvance n.val) (s.dev.num .dmtAcqThreshold n.val) = true →
        exec (.trainingPairFound n x) s = .next (s.after [.obj .dmtState n.val 0 (.num 2), .fch n.val fun c => { c with
          dmt := { DmtRx.none with adv := s.dev.num .dmtWindowAdvance n.val, dec := c.dmt.dec } }])) ∧
      (s.dev.num .dmtState n.val ≠ 1 ∨
        correlates x.toArray (s.dev.num .dmtWindowAdvance n.val) (s.dev.num .dmtAcqThreshold n.val) = false →
        exec (.trainingPairFound n x) s = .next s)) ∧
    (s.dev.num .dmtState n.val = 2 → (s.dev.ch n.val).dmt.locks = true →
      ∃ t, exec (.dmtLockAcquired n) s = .next t ∧ t.pending = s.pending ∧ t.dev.num .dmtState n.val = 3 ∧
      t.dev.raisedEvent (128 + 16 * n.val + 4) 0 n.val ∧ (t.dev.ch n.val).refValid = true ∧
      t.dev.num .clkFchState 0 n.val =
        (if s.dev.num .clkFchState 0 n.val = 0 ∨ s.dev.num .clkFchState 0 n.val = 3 then 1 else s.dev.num .clkFchState 0 n.val)) ∧
    (s.dev.num .dmtState n.val ≠ 2 ∨ (s.dev.ch n.val).dmt.locks = false → exec (.dmtLockAcquired n) s = .next s) ∧
    (s.dev.num .dmtLossFrames n.val ≤ (s.dev.ch n.val).dmt.fails →
      (s.dev.num .dmtState n.val = 2 → exec (.dmtTrainingLoss n) s = .next (s.after
        [.fch n.val fun c => { c with dmt := { DmtRx.none with adv := c.dmt.adv, dec := c.dmt.dec } }, .obj .dmtState n.val 0 (.num 1)])) ∧
      (s.dev.num .dmtState n.val = 3 → ∃ t, exec (.dmtTrainingLoss n) s = .next t ∧ t.pending = s.pending ∧ t.dev.num .dmtState n.val = 1 ∧
        t.dev.raisedEvent (128 + 16 * n.val + 5) 1 n.val ∧ (t.dev.ch n.val).refValid = false ∧ (t.dev.ch n.val).burstOn = false)) ∧
    ((s.dev.ch n.val).dmt.fails < s.dev.num .dmtLossFrames n.val → exec (.dmtTrainingLoss n) s = .next s)) ∧
  (∀ (s : State) (n : Fin 4) (f : DmtFrame), s.Inv → s.dev.answers = true → s.dev.asleep n.val = false →
    ∀ (r : DmtRx) (head : Decoded) (h : List Byte), r = s.dev.dmtTrained n.val f →
    head = headerWord (s.dev.num .dmtLdpcMaxIter n.val) (r.symbol f 2) → h = infoBytes headCode head →
    (s.dev.num .dmtState n.val = 2 → ∃ t, exec (.dmtFrameDecode n f) s = .next t ∧ t.pending = s.pending ∧
      (t.dev.ch n.val).dmt.taps = r.taps ∧ (t.dev.ch n.val).dmt.fails = r.fails ∧
      (t.dev.ch n.val).dmt.dec = (s.dev.ch n.val).dmt.dec ++ [⟨head.ok, h, [], []⟩] ∧
      t.dev.num .dmtCwTotal n.val = satAdd 64 (s.dev.num .dmtCwTotal n.val) 1 ∧
      t.dev.num .dmtHdrUncorrectable n.val = (if head.ok then s.dev.num .dmtHdrUncorrectable n.val
        else satAdd 32 (s.dev.num .dmtHdrUncorrectable n.val) 1) ∧
      (r.periods ≠ [] → t.dev.num .dmtFreqOffset n.val = ofInt 32 (periodOffset (meanPeriod r.periods))) ∧
      s.dev.only (keysOf [(.dmtFreqOffset, n.val, 0), (.dmtHdrUncorrectable, n.val, 0), (.dmtCwTotal, n.val, 0),
        (.dmtCwCorrected, n.val, 0), (.dmtBitsCorrected, n.val, 0), (.dmtIterHist, n.val, 0)]) [.fch] t.dev) ∧
    (s.dev.num .dmtState n.val = 3 → head.ok = true → hdrChecks h = true → s.dev.slotEnabled n.val (hdrProfile h) = false →
      ∃ t, exec (.dmtFrameDecode n f) s = .next t ∧ t.pending = s.pending ∧
      t.dev.num .dmtFramesSkipped n.val = satAdd 32 (s.dev.num .dmtFramesSkipped n.val) 1 ∧
      (t.dev.ch n.val).dmt.dec = (s.dev.ch n.val).dmt.dec ++ [⟨true, h, [], []⟩] ∧
      t.dev.num .dmtCwUncorrectable n.val = s.dev.num .dmtCwUncorrectable n.val) ∧
    (∀ (p : Nat) (w : List Decoded), s.dev.num .dmtState n.val = 3 →
      p = (if head.ok && hdrChecks h then hdrProfile h else s.dev.num .dmtProfileActive n.val) →
      (head.ok = true → hdrChecks h = true → s.dev.slotEnabled n.val (hdrProfile h) = true) →
      w = s.dev.dmtData n.val p r f → ∃ t, exec (.dmtFrameDecode n f) s = .next t ∧ t.pending = s.pending ∧
        t.dev.num .dmtCwTotal n.val = satAdd 64 (satAdd 64 (s.dev.num .dmtCwTotal n.val) 1) w.length ∧
        t.dev.num .dmtCwUncorrectable n.val = satAdd 32 (s.dev.num .dmtCwUncorrectable n.val) (w.filter fun c => !c.ok).length ∧
        t.dev.num .dmtProfileMismatches n.val =
          satAdd 32 (s.dev.num .dmtProfileMismatches n.val) (if p = s.dev.num .dmtProfileActive n.val then 0 else 1) ∧
        (t.dev.ch n.val).dmt.dec = (s.dev.ch n.val).dmt.dec ++ [⟨head.ok, h, w.flatMap (infoBytes dataCode),
          (w.zipIdx.filter fun c => !c.1.ok).map (·.2)⟩] ∧
        s.dev.only (keysOf [(.dmtFreqOffset, n.val, 0), (.dmtHdrUncorrectable, n.val, 0), (.dmtCwTotal, n.val, 0),
          (.dmtCwCorrected, n.val, 0), (.dmtCwUncorrectable, n.val, 0), (.dmtBitsCorrected, n.val, 0),
          (.dmtProfileMismatches, n.val, 0), (.dmtIterHist, n.val, 0)]) [.fch, .occs] t.dev)) ∧
  (∀ (s : State) (n : Fin 4), s.Inv → s.dev.answers = true → s.dev.num .dmtState n.val = 3 →
    s.dev.num .dmtSnrFrames n.val ≤ (s.dev.ch n.val).dmt.frames → s.dev.num .actQualityAuto n.val = 0 →
    ∀ r : DmtRx, r = (s.dev.ch n.val).dmt → exec (.snrPeriodEnd n) s = .next (s.after
      [.obj .dmtSnrMap n.val 0 (.oct (padTo 1936 (List.zipWith snrByte r.sig r.noise))),
       .obj .dmtMerAvg n.val 0 (.num (merAverage r.sig r.noise)), .obj .dmtPilotMer n.val 0 (.num (merValue r.pilot.1 r.pilot.2)),
       .fch n.val fun c => { c with
         snrUncorr := s.dev.num .dmtCwUncorrectable n.val - c.snrBase, snrBase := s.dev.num .dmtCwUncorrectable n.val
         dmt := { c.dmt with frames := 0, sig := [], noise := [], pilot := (0, 0) } }]))

/-- Profiles (R241 to R247). -/
def Obligations.DmtProfiles : Prop :=
  (∀ (s : State) (o : Origin) (n : Fin 4) (p : Fin 8) (b : List Byte), s.Inv →
    (p = 0 → s.dev.hears (writeReq o .dmtProfile n.val 0 (.oct b)).call → o.code.toNat = s.dev.codeOf o.path →
      exec (.dmtProfileWrite o n p b) s = .next (s.refusedWith (writeReq o .dmtProfile n.val 0 (.oct b)).call [] 0x0202)) ∧
    (p ≠ 0 → s.dev.admits (writeReq o .dmtProfile n.val p.val (.oct b)) → s.dev.clk.closed.contains (0x100 + n.val) = false →
      (beAt b 2 2 = 1936 → beAt b 1 1 = 1 → b.length = 1952 → beAt b 12 4 = crc32c (b.drop 16) → beAt b 0 1 = p.val →
        badEntry b = none → 1 ≤ profileCodewords b → profileCodewords b ≤ 744 → s.dev.switchTarget n.val p.val = false →
        bitOf (s.dev.num .dmtProfileEnable n.val) p.val = false → exec (.dmtProfileWrite o n p b) s =
          .next (s.served (writeReq o .dmtProfile n.val p.val (.oct b)).call
            [.obj .dmtProfile n.val p.val (.oct b), .obj .dmtProfileStatus n.val p.val (.num (2 ^ 31 + profileCodewords b))] [])) ∧
      (∀ a : Nat, a = (if beAt b 2 2 ≠ 1936 ∨ beAt b 1 1 ≠ 1 ∨ b.length ≠ 1952 ∨ beAt b 12 4 ≠ crc32c (b.drop 16) then 0x0301
          else if beAt b 0 1 ≠ p.val ∨ badEntry b ≠ none ∨ profileCodewords b = 0 ∨ 744 < profileCodewords b then 0x0302
          else if s.dev.switchTarget n.val p.val then 0x0501
          else if bitOf (s.dev.num .dmtProfileEnable n.val) p.val then 0x0401 else 0) → a ≠ 0 →
        exec (.dmtProfileWrite o n p b) s = .next (s.refusedWith (writeReq o .dmtProfile n.val p.val (.oct b)).call
          [.obj .dmtLastError n.val 0 (.num (p.val * 2 ^ 29 +
            (if a = 0x0302 ∧ beAt b 0 1 = p.val then (badEntry b).getD 0x1FFF else 0x1FFF) * 2 ^ 16 + a))] a)))) ∧
  (∀ (s : State) (o : Origin) (n : Fin 4) (v : BitVec 8), s.Inv → s.dev.admits (writeReq o .dmtProfileEnable n.val 0 (.num v.toNat)) →
    ((∃ p, p < 8 ∧ p ≠ 0 ∧ s.dev.switchTarget n.val p = true ∧ bitOf v.toNat p = false) → exec (.dmtProfileEnableWrite o n v) s =
      .next (s.refusedWith (writeReq o .dmtProfileEnable n.val 0 (.num v.toNat)).call [] 0x0501)) ∧
    ((∀ p, p < 8 → p ≠ 0 → s.dev.switchTarget n.val p = true → bitOf v.toNat p = true) →
      ((∃ p, p < 8 ∧ bitOf v.toNat p = true ∧ s.dev.slotLoaded n.val p = false) ∨ (s.dev.num .dmtProfileActive n.val ≠ 0 ∧
        bitOf v.toNat (s.dev.num .dmtProfileActive n.val) = false) → exec (.dmtProfileEnableWrite o n v) s =
          .next (s.refusedWith (writeReq o .dmtProfileEnable n.val 0 (.num v.toNat)).call [] 0x0401)) ∧
      ((∀ p, p < 8 → bitOf v.toNat p = true → s.dev.slotLoaded n.val p = true) → (s.dev.num .dmtProfileActive n.val = 0 ∨
        bitOf v.toNat (s.dev.num .dmtProfileActive n.val) = true) → exec (.dmtProfileEnableWrite o n v) s =
          .next (s.served (writeReq o .dmtProfileEnable n.val 0 (.num v.toNat)).call
            [.obj .dmtProfileEnable n.val 0 (.num (putBit v.toNat 0 true))] [])))) ∧
  (∀ (s : State) (o : Origin) (n : Fin 4) (a : BitVec 64) (k f : Nat), s.Inv → k = bitsOf a.toNat 56 3 → f = bitsOf a.toNat 0 51 →
    s.dev.admits (execReq o .dmtProfileSwitch n.val 0 true (.num a.toNat)) →
    (a.toNat ≠ k * 2 ^ 56 + f ∨ f % 32 ≠ 0 → exec (.dmtProfileSwitch o n a) s =
      .next (s.refusedWith (execReq o .dmtProfileSwitch n.val 0 true (.num a.toNat)).call [] 0x0302)) ∧
    (a.toNat = k * 2 ^ 56 + f → f % 32 = 0 → s.dev.num .frmAlignState n.val ≠ 2 → exec (.dmtProfileSwitch o n a) s =
      .next (s.refusedWith (execReq o .dmtProfileSwitch n.val 0 true (.num a.toNat)).call [] 0x0401)) ∧
    (a.toNat = k * 2 ^ 56 + f → f % 32 = 0 → s.dev.num .frmAlignState n.val = 2 → s.dev.num .frmFrame n.val + 2 ≤ f →
      s.dev.slotEnabled n.val k = true → s.dev.armConflict 2 n.val [Obj.key .dmtProfileActive n.val 0] = false → s.dev.acts.length < 256 →
      exec (.dmtProfileSwitch o n a) s = .next (s.served (execReq o .dmtProfileSwitch n.val 0 true (.num a.toNat)).call
        (if k = s.dev.num .dmtProfileActive n.val then []
         else [.arm ⟨0, 2, n.val, .frame f, o.code.toNat, false, [Obj.key .dmtProfileActive n.val 0], [k], 0⟩]) []))) ∧
  (∀ (s : State) (n : Fin 4) (a : Action), s.dev.answers = true → s.dev.pendingOn 2 n.val = some a → s.dev.actTurn a = true →
    (s.dev.slotEnabled n.val (nth 0 a.arg 0) = true → s.dev.actLate a = false → exec (.profileSwitchFire n) s = .next (s.after
      [.disarm a.slot, .obj .dmtProfileActive n.val 0 (.num (nth 0 a.arg 0)),
       .raise (128 + 16 * n.val + 6) 0 n.val (top8 (s.dev.num .dmtProfileActive n.val) + nth 0 a.arg 0 * 65536) 0])) ∧
    (s.dev.slotEnabled n.val (nth 0 a.arg 0) = false → exec (.profileSwitchFire n) s = .next (s.after
      [.disarm a.slot, .count .rmFailures 0 0 1, .raise 434 0 a.slot (top8 a.kind + 0x0401 * 256) 0])))

/-- Reception on the management band (R268 to R278). -/
def Obligations.ManagementReception : Prop :=
  let path (n p : Nat) (f : RxPath → RxPath) : Eff := .fch n fun c => { c with rx := SMap.upd RxPath.none p f c.rx }
  (∀ (s : State) (n : Fin 4) (p : Fin 3) (q : List (BitVec 16 × BitVec 16)) (v : BitVec 16), s.dev.answers = true →
    (s.dev.rxRuns n.val p.val = false ∨ s.dev.preamble n.val p.val q = false → exec (.mgtPreambleDetect n p q v) s = .next s) ∧
    (s.dev.rxRuns n.val p.val = true → s.dev.preamble n.val p.val q = true →
      ((s.dev.rxPath n.val p.val).cur = none → exec (.mgtPreambleDetect n p q v) s = .next (s.after
        [.count (if p.val = 0 then .mgtSlRxDetects else .mgtCmRxDetects) n.val 0 1,
         path n.val p.val fun x => { x with cur := some ⟨v.toNat, v.toNat, false, false, 0⟩ }])) ∧
      (∀ c : Rx, (s.dev.rxPath n.val p.val).cur = some c →
        (c.strength + 4 * s.dev.num .mgtCaptureMargin n.val ≤ v.toNat → (s.dev.rxPath n.val p.val).standby = none →
          exec (.mgtPreambleDetect n p q v) s = .next (s.after
            [.count (if p.val = 0 then .mgtSlRxDetects else .mgtCmRxDetects) n.val 0 1,
             .count (if p.val = 0 then .mgtSlRxCaptured else .mgtCmRxCaptured) n.val 0 1,
             .raise (128 + 16 * n.val + 8) 0 n.val (top8 (if p.val = 0 then 0 else 1) + c.strength % 65536 * 256) (top16 v.toNat),
             path n.val p.val fun x =>
               ⟨some ⟨v.toNat, v.toNat, false, false, 0⟩, keepStandby (4 * s.dev.num .mgtCaptureMargin n.val) v.toNat x.standby⟩])) ∧
        (v.toNat < c.strength + 4 * s.dev.num .mgtCaptureMargin n.val →
          (c.passed = true → exec (.mgtPreambleDetect n p q v) s = .next (s.after
            [.count (if p.val = 0 then .mgtSlRxDetects else .mgtCmRxDetects) n.val 0 1,
             .count (if p.val = 0 then .mgtSlRxIgnored else .mgtCmRxIgnored) n.val 0 1])) ∧
          (c.passed = false → (s.dev.rxPath n.val p.val).standby = none → exec (.mgtPreambleDetect n p q v) s = .next (s.after
            [.count (if p.val = 0 then .mgtSlRxDetects else .mgtCmRxDetects) n.val 0 1,
             path n.val p.val fun x => { x with standby := some ⟨v.toNat, v.toNat, false, false, 0⟩ }])) ∧
          (∀ b : Rx, c.passed = false → (s.dev.rxPath n.val p.val).standby = some b →
            v.toNat < b.strength + 4 * s.dev.num .mgtCaptureMargin n.val → exec (.mgtPreambleDetect n p q v) s = .next (s.after
              [.count (if p.val = 0 then .mgtSlRxDetects else .mgtCmRxDetects) n.val 0 1,
               .count (if p.val = 0 then .mgtSlRxIgnored else .mgtCmRxIgnored) n.val 0 1])))))) ∧
  (∀ (s : State) (n : Fin 4) (p : Fin 3) (i : BitVec 8) (b v : BitVec 16), s.dev.answers = true →
    (isDelimiter p.val i.toNat b.toNat = false → exec (.mgtDelimiterFound n p i b v) s = .next s) ∧
    (isDelimiter p.val i.toNat b.toNat = true → exec (.mgtDelimiterFound n p i b v) s = .next (s.after
    [path n.val p.val fun r => match r.cur with
      | some c => { r with cur := some { c with delim := true, refined := v.toNat } }
      | none => r]))) ∧
  (∀ (s : State) (n : Fin 4) (p : Fin 3) (c : Rx), s.dev.answers = true → (s.dev.rxPath n.val p.val).cur = some c →
    ∀ (counted : Obj → Dev) (ended : Obj → State),
    (∀ x, counted x = s.dev.after [.count x n.val 0 1, path n.val p.val fun r => ⟨r.standby, none⟩]) →
    (∀ x, ended x = { s with dev := (mgtSettle n.val).run (counted x) }) →
    (c.delim = false → exec (.mgtFalseStart n p) s = .next (ended (if p.val = 0 then .mgtSlRxFalseStarts else .mgtCmRxFalseStarts))) ∧
    (∀ b : BitVec 48, c.delim = true → c.passed = false →
      (crc16 (beBytes 4 (b.toNat / 65536)) ≠ b.toNat % 65536 → exec (.mgtHeaderReceived n p false b) s =
        .next (ended (if p.val = 0 then .mgtSlRxHdrFails else .mgtCmRxHdrFails))) ∧
      (crc16 (beBytes 4 (b.toNat / 65536)) = b.toNat % 65536 →
        (hdrVersion (b.toNat / 65536) ≠ 0 ∨ 1 < hdrType (b.toNat / 65536) ∨ 1024 < hdrLength (b.toNat / 65536) ∨
          (0x1000 ≤ hdrAddress (b.toNat / 65536) ∧ hdrAddress (b.toNat / 65536) ≤ 0xFFFD) → exec (.mgtHeaderReceived n p false b) s =
            .next (ended (if p.val = 0 then .mgtSlRxReserved else .mgtCmRxReserved))) ∧
        (hdrReserved (b.toNat / 65536) = false →
          (hdrAddress (b.toNat / 65536) ≠ 0xFFFF → hdrAddress (b.toNat / 65536) ≠ s.dev.num .actHandle n.val →
            (hdrAddress (b.toNat / 65536) = 0xFFFE → s.dev.num .actHandle n.val ≠ 0xFFFF) → exec (.mgtHeaderReceived n p false b) s =
              .next (ended (if p.val = 0 then .mgtSlRxOther else .mgtCmRxOther))) ∧
          (hdrAddress (b.toNat / 65536) = 0xFFFF ∨ hdrAddress (b.toNat / 65536) = s.dev.num .actHandle n.val ∨
            (hdrAddress (b.toNat / 65536) = 0xFFFE ∧ s.dev.num .actHandle n.val = 0xFFFF) → exec (.mgtHeaderReceived n p false b) s =
              .next (s.after ((if (s.dev.rxPath n.val p.val).standby.isSome
                  then [.count (if p.val = 0 then .mgtSlRxIgnored else .mgtCmRxIgnored) n.val 0 1] else []) ++
                [path n.val p.val fun _ => ⟨some { c with passed := true, hdr := b.toNat / 65536 }, none⟩])))))) ∧
    (∀ b : BitVec 48, c.passed = false → (s.dev.rxPath n.val p.val).standby.isSome = true → exec (.mgtHeaderReceived n p true b) s =
      .next (s.after [.count (if p.val = 0 then .mgtSlRxIgnored else .mgtCmRxIgnored) n.val 0 1,
        path n.val p.val fun x => { x with standby := none }])) ∧
    (∀ b : List Byte, c.passed = true → hdrLength c.hdr ≠ 0 →
      b.length ≠ hdrLength c.hdr + 4 ∨ crcFcs (b.take (hdrLength c.hdr)) ≠ beNat (b.drop (hdrLength c.hdr)) →
      exec (.mgtPacketReceived n p b) s = .next (ended (if p.val = 0 then .mgtSlRxCrcErrors else .mgtCmRxCrcErrors))) ∧
    (∀ b : List Byte, c.passed = true → hdrLength c.hdr = 0 → exec (.mgtPacketReceived n p b) s =
      (s.after [.count (if p.val = 0 then .mgtSlRxProbes else .mgtCmRxProbes) n.val 0 1]).run
        (.all [rxAccepted n.val p.val c, rxEnd n.val p.val])) ∧
    (∀ b : List Byte, c.passed = true → hdrLength c.hdr ≠ 0 → b.length = hdrLength c.hdr + 4 →
      crcFcs (b.take (hdrLength c.hdr)) = beNat (b.drop (hdrLength c.hdr)) →
      ((hdrType c.hdr = 0 ∧ lemowKnown (b.take (hdrLength c.hdr)) = true) ∨ (hdrType c.hdr = 1 ∧ umaniFits 1024 (b.take (hdrLength c.hdr)) = true)) →
      exec (.mgtPacketReceived n p b) s = (s.after [.count (if p.val = 0 then .mgtSlRxPackets else .mgtCmRxPackets) n.val 0 1]).run
        (.all [rxAccepted n.val p.val c,
          send .handoff (hdrType c.hdr) (pathKey (.mband n (p.val != 0))) (b.take (hdrLength c.hdr)), rxEnd n.val p.val])) ∧
    (∀ b : List Byte, c.passed = true → hdrLength c.hdr ≠ 0 → b.length = hdrLength c.hdr + 4 →
      crcFcs (b.take (hdrLength c.hdr)) = beNat (b.drop (hdrLength c.hdr)) → hdrType c.hdr = 0 → lemowKnown (b.take (hdrLength c.hdr)) = false →
      exec (.mgtPacketReceived n p b) s = (s.after [.count (if p.val = 0 then .mgtSlRxPackets else .mgtCmRxPackets) n.val 0 1]).run
        (.all [rxAccepted n.val p.val c, count .actMsgDiscards n.val, rxEnd n.val p.val])))

/-- Transmission on the management band (R267, R279 to R281). -/
def Obligations.ManagementTransmission : Prop :=
  (∀ (s : State) (n : Fin 4) (w : Window) (rest : List Window) (p : TxPkt) (q : List TxPkt) (phy sf : Nat), s.dev.answers = true →
    s.dev.nextWindow n.val 2 = some (w, rest) → (s.dev.ch n.val).txq = p :: q →
    phy = (if p.phy = 2 then s.dev.num .mgtTxPhy n.val else p.phy) → sf = (if phy = 1 then s.dev.num .mgtCmSfTx n.val else 0) →
    (s.dev.num .actState n.val = 3 ∨ s.dev.num .actState n.val = 4) → (s.dev.ch n.val).onAir = none → phy = w.phy → sf = w.sf →
    s.dev.num .actDozeState n.val ≠ 3 →
    (s.dev.tooLong n.val phy sf p.data.length = true → exec (.mgtTxStart n) s = .next (s.after
      [.fch n.val fun c => { c with txq := q }, .count .actMgtRefused n.val 0 1, .raise (128 + 16 * n.val + 15) 6 n.val 0 0])) ∧
    (s.dev.tooLong n.val phy sf p.data.length = false → s.dev.laserReady n.val = true → s.dev.txUnits n.val phy sf p.data.length ≤ w.dur →
      s.dev.hitsBurst n.val (upPos w.frame w.unit (s.dev.windowEqd n.val w)) (s.dev.txUnits n.val phy sf p.data.length) = false →
      p.dozeEnd = false → (s.dev.ch n.val).ldPend = false → exec (.mgtTxStart n) s = .next (s.after
        [.fch n.val fun c => { c with txq := q },
         .fch n.val fun c => { c with
           windows := { w with
             unit := w.unit + s.dev.txUnits n.val phy sf p.data.length
             dur := w.dur - s.dev.txUnits n.val phy sf p.data.length } :: rest },
         .fch n.val fun c => { c with txSet := c.txNext },
         .fch n.val fun c => { c with onAir := some (airTime (phy == 1) sf p.data.length), burstOn := true, burstLeft := 0 },
         .out ⟨.mgmt, n.val, s.dev.num .mgtTxLevel n.val, beBytes 8 w.frame ++ beBytes 4 w.unit ++
           beBytes 4 (s.dev.windowEqd n.val w) ++ beBytes 1 phy ++ beBytes 1 sf ++
           s.dev.leadLag n.val ++ mgtWave (phy == 1) sf (if p.lemow then 0 else 1)
             (if s.dev.num .actHandle n.val = 0xFFFF then 0xFFFE else s.dev.num .actHandle n.val) p.data⟩]))) ∧
  (∀ (s : State) (n : Fin 4) (t : Nat), s.dev.answers = true → (s.dev.ch n.val).onAir = some t → exec (.mgtTxComplete n) s = .next (s.after
    [.count .mgtTxPackets n.val 0 1, .obj .mgtTxLastAirtime n.val 0 (.num t),
     .fch n.val fun c => { c with onAir := none, burstOn := false }])) ∧
  (∀ s l : Nat, airTime false s 0 = 51000 ∧ airTime false s (l + 1) = (102 + (8 * (l + 1) + 38)) * 500 ∧
    (7 ≤ s → airTime true s 0 = (20 + ceilDiv 108 s) * 2 ^ s * 10 ∧
      airTime true s (l + 1) = (20 + ceilDiv 108 s + ceilDiv (16 * (l + 1) + 76) s) * 2 ^ s * 10))

/-- Frame alignment (R286 to R300). -/
def Obligations.FramerAlignment : Prop :=
  let older (x : Chain) : Chain := { x with age := x.age + 1 }
  (∀ (s : State) (n : Fin 4) (x : FrmFrame) (f : FrameIn), s.Inv → s.dev.answers = true → f = s.dev.frameIn n.val x →
    (s.dev.num .feState n.val ≠ 2 → exec (.framerFrame n x) s = .next s) ∧
    (s.dev.num .feState n.val = 2 → s.dev.num .frmAlignState n.val ≠ 2 → hdrBad f.hdr f.pay.length = false →
      ∀ aged : Eff, aged = .fch n.val (fun c => { c with
        dmt := { c.dmt with dec := c.dmt.dec.tail }, chains := c.chains.map older, outFrames := c.outFrames + 1 }) →
      (s.dev.num .frmAlignState n.val = 0 → hdrValid f = true → exec (.framerFrame n x) s = .next (s.after
        [aged, .obj .frmAlignState n.val 0 (.num 1),
         .fch n.val fun c => { c with presync := 1, expected := (hdrFrame f.hdr + 1) % 2 ^ 51 }])) ∧
      (s.dev.num .frmAlignState n.val = 0 → f.found = false → exec (.framerFrame n x) s = .next (s.after [aged])) ∧
      (s.dev.num .frmAlignState n.val = 1 → hdrValid f = true → hdrFrame f.hdr = (s.dev.ch n.val).expected →
        exec (.framerFrame n x) s = .next (s.after [aged, .fch n.val fun c => { c with
          presync := min 3 (c.presync + 1), expected := ((s.dev.ch n.val).expected + 1) % 2 ^ 51 }])) ∧
      (s.dev.num .frmAlignState n.val = 1 → hdrValid f = true → hdrFrame f.hdr ≠ (s.dev.ch n.val).expected →
        exec (.framerFrame n x) s = .next (s.after [aged, .obj .frmAlignState n.val 0 (.num 0),
          .fch n.val fun c => { c with presync := 0 }])) ∧
      (s.dev.num .frmAlignState n.val = 1 → f.found = true → hdrValid f = false →
        exec (.framerFrame n x) s = .next (s.after [.count .frmHdrFails n.val 0 1, aged, .obj .frmAlignState n.val 0 (.num 0),
          .fch n.val fun c => { c with presync := 0 }]))) ∧
    (s.dev.num .feState n.val = 2 → s.dev.num .frmAlignState n.val = 2 →
      ∀ before : List Eff, before = [
        .fch n.val (fun c => { c with
          dmt := { c.dmt with dec := c.dmt.dec.tail }, chains := c.chains.map older, fecCount := c.fecCount + f.bad.length, outFrames := 0 }),
        .fch n.val (fun c => { c with expected := ((s.dev.ch n.val).expected + 1) % 2 ^ 51 })] →
      (f.found = false → (s.dev.ch n.val).pm.started = true → exec (.framerFrame n x) s = .next (s.after (before ++
        [.count .frmPmErroredFrames n.val 0 1, .fch n.val (fun c => { c with pm := { c.pm with errored := c.pm.errored + 1 } }),
         .count .frmChainDiscards n.val 0 (s.dev.ch n.val).chains.length,
         .fch n.val (fun c => { c with chains := [], cut := none }),
         .fch n.val (fun c => { c with skipCont := false, walked := false, area := [] }),
         .fch n.val fun c => { c with
           failRun := c.failRun + 1, aisRun := 0, aisPrev := 0, okRun := 0, aisNow := false }]))) ∧
      (hdrValid f = true → hdrFrame f.hdr = (s.dev.ch n.val).expected →
        (s.dev.lead n.val = n.val ∨ f.lead = hdrFrame f.hdr) → hdrBad f.hdr f.pay.length = false →
        f.bad = [] → hdrAis f.hdr = false → f.pay ≠ [] →
        (s.dev.ch n.val).cut = none → (s.dev.ch n.val).skipCont = false → hdrEnc f.hdr ≠ 0xFFFF →
        ∀ (m g len : Nat) (mgmt : List Eff), m = 8 * hdrMaps f.hdr → g = m + hdrMgmt f.hdr → len = hdrLength (beAt f.pay m 4) →
        hdrMgmt f.hdr = 0 ∨ (len ≠ 0 ∧ hdrMgmt f.hdr = 8 + 8 * ceilDiv len 8 ∧ g ≤ f.pay.length ∧
          beAt f.pay (m + 4) 2 = crc16 (slice f.pay m 4) ∧ hdrReserved (beAt f.pay m 4) = false ∧ hdrType (beAt f.pay m 4) = 0 ∧
          s.dev.addressed n.val (hdrAddress (beAt f.pay m 4)) = true ∧ lemowKnown (slice f.pay (m + 8) len) = true) →
        mgmt = (if hdrMgmt f.hdr = 0 then [] else [.out ⟨.handoff, 0x11, n.val, slice f.pay (m + 8) len⟩]) →
        exec (.framerFrame n x) s = .next (s.after (before ++
          [.fch n.val (fun c => { c with failRun := 0, aisNow := false }),
           .fch n.val (fun c => { c with aisRun := 0, aisPrev := c.aisRun, okRun := c.okRun + 1 })] ++
          ((List.range (hdrMaps f.hdr)).map fun i =>
            .out ⟨.handoff, 0x12, n.val, beBytes 8 (hdrFrame f.hdr) ++ slice f.pay (8 * i) 8⟩) ++ mgmt ++
          [.fch n.val (fun c => { c with
             skipCont := false, cut := none
             walked := decide ((f.pay.drop g).length ≤ min (hdrEnc f.hdr) (f.pay.drop g).length)
             area := (f.pay.drop g).drop (min (hdrEnc f.hdr) (f.pay.drop g).length)
             areaAt := g + min (hdrEnc f.hdr) (f.pay.drop g).length, areaFrame := hdrFrame f.hdr
             areaCfg := s.dev.cfg.epoch, areaTbl := s.dev.num .fwdTableEpoch, areaBad := [], ords := [] })] ++
          (if hdrEnc f.hdr ≠ 0 ∧ (f.pay.drop g).length ≠ 0 ∧ (s.dev.ch n.val).walked = true
            then [.count .frmEncContradictions n.val 0 1] else [])))))) ∧
  (∀ (s : State) (n : Fin 4), s.Inv → s.dev.answers = true →
    (s.dev.num .frmAlignState n.val = 1 → (s.dev.ch n.val).presync = 3 → ∀ third : Nat, (third + 1) % 2 ^ 51 = (s.dev.ch n.val).expected →
      third < 2 ^ 51 → ∃ t, exec (.frameSyncEntry n) s = .next t ∧ t.pending = s.pending ∧ t.dev.num .frmAlignState n.val = 2 ∧
        t.dev.num .frmFrame n.val = third ∧ t.dev.raisedEvent (128 + 16 * n.val + 10) 0 n.val ∧ t.dev.defect n.val 1 = false ∧
        (t.dev.ch n.val).pm.started = true ∧ (t.dev.ch n.val).marks = true ∧
        t.dev.num .frmFrameJumps n.val = satAdd 32 (s.dev.num .frmFrameJumps n.val)
          (if (s.dev.ch n.val).marks = true ∧ s.dev.num .frmFrame n.val ≠ third then 1 else 0) ∧
        (s.dev.num .actState n.val = 5 → s.dev.num .clkFchState 0 n.val = 2 → t.dev.num .actState n.val = 3)) ∧
    (s.dev.num .frmAlignState n.val ≠ 1 ∨ (s.dev.ch n.val).presync ≠ 3 → exec (.frameSyncEntry n) s = .next s) ∧
    (s.dev.num .frmAlignState n.val = 2 → 4 ≤ (s.dev.ch n.val).failRun →
      ∃ t, exec (.frameSyncLoss n) s = .next t ∧ t.pending = s.pending ∧ t.dev.num .frmAlignState n.val = 0 ∧
        t.dev.num .frmSyncLosses n.val = satAdd 32 (s.dev.num .frmSyncLosses n.val) 1 ∧ (t.dev.ch n.val).chains = [] ∧
        (s.dev.defect n.val 0 = false → t.dev.defect n.val 1 = true ∧
          t.dev.num .actState n.val = (if s.dev.num .actState n.val = 4 then 5 else s.dev.num .actState n.val))) ∧
    (s.dev.num .frmAlignState n.val ≠ 2 ∨ (s.dev.ch n.val).failRun < 4 → exec (.frameSyncLoss n) s = .next s))

/-- Defects (R308 to R310). -/
def Obligations.FramerDefects : Prop :=
  ∀ (s : State) (n : Fin 4), s.Inv → s.dev.answers = true →
    (s.dev.num .feEnable n.val = 1 → ∃ t, exec (.losDeclare n) s = .next t ∧ t.pending = s.pending ∧
      (∀ b < 4, t.dev.defect n.val b = decide (b = 0)) ∧
      (s.dev.defect n.val 0 = false → t.dev.raisedEvent (128 + 16 * n.val + 12) 0 n.val) ∧
      t.dev.num .dmtState n.val =
        (if s.dev.num .dmtState n.val = 2 ∨ s.dev.num .dmtState n.val = 3 then 1 else s.dev.num .dmtState n.val) ∧
      (s.dev.num .dmtState n.val = 3 → t.dev.raisedEvent (128 + 16 * n.val + 5) 2 n.val ∧ (t.dev.ch n.val).refValid = false) ∧
      t.dev.num .actState n.val = (if s.dev.num .actState n.val = 4 then 5 else s.dev.num .actState n.val)) ∧
    (s.dev.num .feEnable n.val ≠ 1 → exec (.losDeclare n) s = .next s) ∧
    (s.dev.num .feState n.val = 0 → exec (.losClear n) s = .next s) ∧
    (s.dev.num .feState n.val ≠ 0 → ∃ t, exec (.losClear n) s = .next t ∧ t.pending = s.pending ∧ t.dev.defect n.val 0 = false ∧
      (∀ b, b ≠ 0 → t.dev.defect n.val b = s.dev.defect n.val b) ∧
      (s.dev.defect n.val 0 = true → t.dev.raisedEvent (128 + 16 * n.val + 12) 0 n.val) ∧
      s.dev.only (keysOf [(.frmDefects, n.val, 0)]) [.fch, .occs] t.dev) ∧
    (s.dev.num .feState n.val = 2 → s.dev.num .frmAlignState n.val ≠ 2 → 24 ≤ (s.dev.ch n.val).outFrames → s.dev.defect n.val 0 = false →
      ∃ t, exec (.lofDeclare n) s = .next t ∧ t.pending = s.pending ∧ t.dev.defect n.val 1 = true ∧ t.dev.defect n.val 2 = false ∧
        t.dev.defect n.val 3 = false ∧ (s.dev.defect n.val 1 = false → t.dev.raisedEvent (128 + 16 * n.val + 11) 0 n.val) ∧
        t.dev.num .actState n.val = (if s.dev.num .actState n.val = 4 then 5 else s.dev.num .actState n.val)) ∧
    (s.dev.num .frmAlignState n.val = 2 → exec (.lofDeclare n) s = .next s) ∧
    (3 ≤ (s.dev.ch n.val).aisRun → s.dev.defect n.val 0 = false → s.dev.defect n.val 1 = false → s.dev.defect n.val 2 = false →
      exec (.aisDeclare n) s = .next (s.after
        [.obj .frmDefects n.val 0 (.num (putBit (s.dev.num .frmDefects n.val) 2 true)), .raise (128 + 16 * n.val + 13) 0 n.val (top8 2) 0,
         .fch n.val fun c => { c with pm := { c.pm with defect := true } }])) ∧
    (s.dev.defect n.val 0 = true ∨ s.dev.defect n.val 1 = true ∨ (s.dev.ch n.val).aisRun < 3 → exec (.aisDeclare n) s = .next s) ∧
    (3 ≤ (s.dev.ch n.val).okRun → s.dev.defect n.val 2 = true → exec (.aisClear n) s = .next (s.after
      [.obj .frmDefects n.val 0 (.num (putBit (s.dev.num .frmDefects n.val) 2 false)),
       .raise (128 + 16 * n.val + 13) 0 n.val (top8 2) 0])) ∧
    (s.dev.defect n.val 0 = true ∨ s.dev.defect n.val 1 = true → exec (.fecDegWindowEnd n) s = .next (s.after
      [.fch n.val fun c => { c with fecCount := 0, fecClear := 0 }])) ∧
    (s.dev.defect n.val 0 = false → s.dev.defect n.val 1 = false →
      (s.dev.num .frmFecDegThreshold n.val ≤ (s.dev.ch n.val).fecCount → ∃ t, exec (.fecDegWindowEnd n) s = .next t ∧
        t.pending = s.pending ∧ t.dev.defect n.val 3 = true ∧ (t.dev.ch n.val).fecClear = 0 ∧ (t.dev.ch n.val).fecCount = 0 ∧
        (s.dev.defect n.val 3 = false → ∃ x ∈ t.dev.occs, x.src = 128 + 16 * n.val + 13 ∧ x.arg0 = top8 3)) ∧
      ((s.dev.ch n.val).fecCount < s.dev.num .frmFecDegThreshold n.val → ∃ t, exec (.fecDegWindowEnd n) s = .next t ∧
        t.pending = s.pending ∧ (t.dev.ch n.val).fecClear = min 10 ((s.dev.ch n.val).fecClear + 1) ∧
        t.dev.defect n.val 3 = (s.dev.defect n.val 3 && decide ((s.dev.ch n.val).fecClear < 9))))

/-- The walk over an area (R297 to R301). -/
def Obligations.EncapsulationWalk : Prop :=
  ∀ (s : State) (n : Fin 4) (fault : Bool), s.Inv → s.dev.answers = true →
    ((s.dev.ch n.val).area = [] → exec (.encapFrame n fault) s = .next s) ∧
    (∀ (a : List Byte) (h : Nat), a = (s.dev.ch n.val).area → h = beAt a 0 8 → a ≠ [] →
      ∀ on : Nat → Eff, (∀ k, on k = .fch n.val (fun c => { c with
        area := c.area.drop k, areaAt := c.areaAt + k, walked := decide (c.area.length ≤ k) })) →
      (encOk a = false → ∀ rest, rest = hunt a.length (a.drop 8) → exec (.encapFrame n fault) s = .next (s.after
        [.count .frmChainDiscards n.val 0 (s.dev.ch n.val).chains.length, .fch n.val (fun c => { c with chains := [], cut := none }),
         .count .frmEncCrcFails n.val 0 1,
         .fch n.val fun c => { c with area := rest, areaAt := c.areaAt + (c.area.length - rest.length), walked := false }])) ∧
      (encOk a = true → encLength h = 0 ∨ (encStream h = 0xFFFFF ∧ 8 + 8 * ceilDiv (encLength h) 8 ≤ a.length) →
        exec (.encapFrame n fault) s = .next (s.after [on (8 + 8 * ceilDiv (encLength h) 8)])) ∧
      (encOk a = true → encLength h ≠ 0 → a.length < 8 + 8 * ceilDiv (encLength h) 8 → encLast h = true →
        exec (.encapFrame n fault) s = .next (s.after [.count .frmEncContradictions n.val 0 1,
          .fch n.val (fun c => { c with chains := c.chains.filter fun y => y.stream ≠ encStream h }), on a.length,
          .fch n.val fun c => { c with skipCont := true }])) ∧
      (encOk a = true → encLength h ≠ 0 → encStream h ≠ 0xFFFFF → encLast h = false →
        ∀ (x : Chain) (len : Nat), x.stream = encStream h → x.key = encKey h → x.label = encLabel h →
        x.ord = SMap.get 0 (s.dev.ch n.val).ords (encStream h) → x.frame = (s.dev.ch n.val).areaFrame → x.cfgEpoch = (s.dev.ch n.val).areaCfg →
        x.tblEpoch = (s.dev.ch n.val).areaTbl → x.age = 0 → x.data = (a.drop 8).take (encLength h) →
        len = min (encLength h) (a.length - 8) → x.errored = hitsBad (s.dev.ch n.val).areaBad ((s.dev.ch n.val).areaAt + 8) len →
        ∀ tail : List Eff, tail = (if 8 + 8 * ceilDiv (encLength h) 8 ≤ a.length then [on (8 + 8 * ceilDiv (encLength h) 8)]
          else [on a.length, .fch n.val fun c => { c with cut := some ⟨encStream h, encLength h - len⟩ }]) →
        ((∀ y ∈ (s.dev.ch n.val).chains, y.stream ≠ encStream h) → ∀ ord : Eff, ord = .fch n.val (fun c => { c with
            ords := SMap.put 0 (encStream h) (SMap.get 0 c.ords (encStream h) + 1) c.ords }) →
          ((s.dev.ch n.val).chains.length < 256 → exec (.encapFrame n fault) s = .next (s.after
            ([ord, .fch n.val fun c => { c with chains := c.chains ++ [x] }] ++ tail))) ∧
          (256 ≤ (s.dev.ch n.val).chains.length → exec (.encapFrame n fault) s = .next (s.after
            ([ord, .count .frmChainDiscards n.val 0 1] ++ tail)))) ∧
        (∀ y : Chain, (s.dev.ch n.val).chains.find? (fun y => y.stream = encStream h) = some y →
          ∀ gone : List Eff, gone = [.count .frmChainDiscards n.val 0 1,
            .fch n.val fun c => { c with chains := c.chains.filter fun y => y.stream ≠ encStream h }] →
          (y.key ≠ encKey h ∨ y.label ≠ encLabel h ∨ 16383 < y.data.length + x.data.length →
            exec (.encapFrame n fault) s = .next (s.after (gone ++ tail))) ∧
          (y.key = encKey h → y.label = encLabel h → y.data.length + x.data.length ≤ 16383 →
            exec (.encapFrame n fault) s = .next (s.after ([.fch n.val fun c => { c with
              chains := c.chains.map fun z => if z.stream = encStream h
                then { z with data := z.data ++ x.data, age := 0, errored := z.errored || x.errored } else z }] ++ tail)))))) ∧
    exec (.chainTimeout n) s = .next (s.after
      [.count .frmChainDiscards n.val 0 ((s.dev.ch n.val).chains.filter fun x => decide (8 ≤ x.age)).length,
       .fch n.val fun c => { c with chains := c.chains.filter fun x => decide (x.age < 8) }])

/-- Completed downstream packets (R302 to R306). -/
def Obligations.DownstreamPackets : Prop :=
  ∀ (s : State) (n : Fin 4) (a data : List Byte) (h : Nat), s.Inv → s.dev.answers = true → a = (s.dev.ch n.val).area → h = beAt a 0 8 →
    encOk a = true → encLength h ≠ 0 → encStream h ≠ 0xFFFFF → encLast h = true → 8 + 8 * ceilDiv (encLength h) 8 ≤ a.length →
    (∀ y ∈ (s.dev.ch n.val).chains, y.stream ≠ encStream h) → data = slice a 8 (encLength h) →
    ∀ (ord on : Eff) (bad : Bool) (body : Option Nat), ord = .fch n.val (fun c => { c with
        ords := SMap.put 0 (encStream h) (SMap.get 0 c.ords (encStream h) + 1) c.ords }) →
      on = .fch n.val (fun c => { c with
        area := c.area.drop (8 + 8 * ceilDiv (encLength h) 8), areaAt := c.areaAt + (8 + 8 * ceilDiv (encLength h) 8)
        walked := decide (c.area.length ≤ 8 + 8 * ceilDiv (encLength h) 8) }) →
      bad = hitsBad (s.dev.ch n.val).areaBad ((s.dev.ch n.val).areaAt + 8) (encLength h) →
      body = (if encStream h = 0 then none else s.dev.streamBody (s.dev.lead n.val) (encStream h)) →
      ∀ (drop : Obj → Host.Outcome State Fault Refusal) (done : Nat → List Byte → Host.Outcome State Fault Refusal),
      (∀ x, drop x = .next (s.after [ord, .count x n.val 0 1, on])) →
      (∀ dest out, done dest out = .next (s.after [ord, .count .frmPayloads n.val 0 1,
        .out ⟨.handoff, dest, if dest = 0x21 ∨ dest = 0x22 ∨ dest = 0x26 then s.dev.lead n.val else n.val,
          beBytes 3 (encStream h) ++ beBytes 8 (s.dev.ch n.val).areaFrame ++ beBytes 4 (s.dev.ch n.val).areaCfg ++
          beBytes 4 (s.dev.ch n.val).areaTbl ++ out⟩, on])) →
      (encStream h ≠ 0 → body = none → exec (.encapFrame n false) s = drop .frmUnknownStream) ∧
      (encStream h = 0 ∨ body ≠ none →
        (labelOk body (encLabel h) = false → exec (.encapFrame n false) s = drop .frmLabelDiscards) ∧
        (labelOk body (encLabel h) = true → bad = true → encLabel h ≠ 4 → exec (.encapFrame n false) s = drop .frmErroredDiscards) ∧
        (labelOk body (encLabel h) = true → bad = false →
          (∀ w, encKey h = 0 → body = some w → bitOf w 63 = true → exec (.encapFrame n false) s = drop .frmKeyDiscards) ∧
          (encKey h ≠ 0 → data.length < 16 ∨ s.dev.ctxState (s.dev.lead n.val) 0 (encKey h) ≠ 1 →
            exec (.encapFrame n false) s = drop .frmKeyDiscards) ∧
          (encKey h = 0 → (∀ w, body = some w → bitOf w 63 = false ∧ bitOf w 62 = false) →
            (encLabel h = 1 → 14 ≤ data.length → exec (.encapFrame n false) s = done 0x21 data) ∧
            (encLabel h = 1 → data.length < 14 → exec (.encapFrame n false) s = drop .frmLabelDiscards) ∧
            (encLabel h = 2 → 18 ≤ data.length → ∀ k, k = data.length - 4 →
              (leNat (data.drop k) = crcFcs (data.take k) → exec (.encapFrame n false) s = done 0x22 (data.take k)) ∧
              (leNat (data.drop k) ≠ crcFcs (data.take k) → exec (.encapFrame n false) s = drop .frmFcsErrors)) ∧
            (encLabel h = 4 → exec (.encapFrame n false) s = done 0x24 data) ∧
            (encLabel h = 5 ∨ (encLabel h = 3 ∧ umaniFits 4096 data = true) →
              (s.dev.ingressCells 116 + ceilDiv data.length 256 ≤ s.dev.ingressShare 116 →
                exec (.encapFrame n false) s = done (0x20 + encLabel h) data) ∧
              (s.dev.ingressShare 116 < s.dev.ingressCells 116 + ceilDiv data.length 256 →
                exec (.encapFrame n false) s = .next (s.after [ord, .count .frmPayloads n.val 0 1,
                  .count .carIngressOverruns 0 (108 + n.val) 1, .raise 337 0 (108 + n.val) 0 0, on]))) ∧
            (encLabel h = 6 → beAt data 0 1 / 16 = 4 ∨ beAt data 0 1 / 16 = 6 →
              exec (.encapFrame n false) s = done 0x26 data) ∧
            (encLabel h = 0xFE → exec (.encapFrame n false) s = .next (s.after
              [ord, .count .frmTestPayloads n.val 0 1, .count .frmTestBytes n.val 0 data.length, on]))))) ∧
      (body ≠ none → labelOk body (encLabel h) = true → encLabel h = 1 → bad = false → encKey h ≠ 0 → 16 ≤ data.length →
        s.dev.ctxState (s.dev.lead n.val) 0 (encKey h) = 1 →
        ∃ t, exec (.encapFrame n false) s = .next t ∧ t.pending = s.pending ∧
        (Config.gcmOpen (SMap.get [] s.dev.keys (ctxKey (s.dev.lead n.val) 0 (encKey h)))
          (dsNonce (s.dev.ch n.val).areaFrame n.val (encStream h) (SMap.get 0 (s.dev.ch n.val).ords (encStream h)))
          (fibreAad (encStream h) (encKey h) 1) (data.take (data.length - 16)) (data.drop (data.length - 16)) = none →
          t.dev.outs = s.dev.outs ∧ t.dev.num .frmKeyDiscards n.val = satAdd 32 (s.dev.num .frmKeyDiscards n.val) 1 ∧
          t.dev.num .frmPayloads n.val = s.dev.num .frmPayloads n.val ∧
          (t.dev.ch n.val).authEpoch = some ((s.dev.ch n.val).areaFrame / 32) ∧
          ((s.dev.ch n.val).authEpoch ≠ some ((s.dev.ch n.val).areaFrame / 32) → t.dev.raisedEvent 418 0 n.val)))

/-- Seconds of performance data (R311 to R313). -/
def Obligations.PerformanceSeconds : Prop :=
  ∀ (s : State) (n : Fin 4), s.Inv → s.dev.answers = true → ∀ p : Pm, p = (s.dev.ch n.val).pm →
    (p.started = false ∨ 2 ≤ s.dev.num .pwrState → exec (.pmSecondCommit n) s = .next s) ∧
    (p.started = true → s.dev.num .pwrState < 2 → s.dev.circOn (some n.val) = [] → p.seconds.length ≤ 9 →
      ∀ (l : List (Bool × Bool)) (standing now : Bool),
      l = p.seconds ++ [(p.defect || decide (0 < p.errored), p.defect || decide (2400 ≤ p.errored))] →
      standing = (s.dev.defect n.val 0 || s.dev.defect n.val 1 || s.dev.defect n.val 2) →
      now = (if s.dev.num .frmPmAvailable n.val = 1 then !l.all (·.2) else l.all (fun x => !x.2)) →
      ∃ t, exec (.pmSecondCommit n) s = .next t ∧ t.pending = s.pending ∧
        (t.dev.ch n.val).pm = ⟨true, 0, standing, if l.length = 10 then l.tail else l⟩ ∧
        (l.length ≤ 9 → t.dev = s.dev.after [.fch n.val fun c => { c with pm := ⟨true, 0, standing, l⟩ }]) ∧
        (∀ (x : Bool × Bool) (r : List (Bool × Bool)), l = x :: r → l.length = 10 → s.dev.num .frmPmAvailable n.val ≤ 1 →
          t.dev.num .frmPmAvailable n.val = (if now then 1 else 0) ∧
          t.dev.num .frmPmUas n.val = satAdd 32 (s.dev.num .frmPmUas n.val) (if now then 0 else 1) ∧
          t.dev.num .frmPmEs n.val = satAdd 32 (s.dev.num .frmPmEs n.val) (if now && x.1 then 1 else 0) ∧
          t.dev.num .frmPmSes n.val = satAdd 32 (s.dev.num .frmPmSes n.val) (if now && x.2 then 1 else 0)))

/-- Downstream containers (R316 to R318, R326). -/
def Obligations.CircuitContainers : Prop :=
  ∀ (s : State) (n : Fin 4) (st : BitVec 20) (err : Bool) (data : List Byte), s.Inv → s.dev.answers = true →
    ((∀ c < 2080, ccDs (s.dev.circCfg c) = true → ccChannel (s.dev.circCfg c) = n.val → ccDsStream (s.dev.circCfg c) ≠ st.toNat) ∨
      labelOk (s.dev.streamBody (s.dev.lead n.val) st.toNat) 4 = false → exec (.circuitContainer n st err data) s = .next s) ∧
    (∀ (c : Nat) (cfg k : List Byte) (x : Circ), c < 2080 → cfg = s.dev.circCfg c → k = s.dev.oct .circCounters 0 c → x = s.dev.crc c →
      ccDs cfg = true → ccChannel cfg = n.val → ccDsStream cfg = st.toNat →
      (∀ e < c, ccDs (s.dev.circCfg e) = true → ccChannel (s.dev.circCfg e) = n.val → ccDsStream (s.dev.circCfg e) ≠ st.toNat) →
      labelOk (s.dev.streamBody (s.dev.lead n.val) st.toNat) 4 = true →
      (data.length ≠ containerLen c cfg → exec (.circuitContainer n st err data) s =
        .next (s.after [.count .circRejects 0 0 1])) ∧
      (data.length = containerLen c cfg → x.cont.isSome = true → exec (.circuitContainer n st err data) s = .next (s.after
        [.obj .circCounters 0 c (.oct (patch k 24 (beBytes 4 (satAdd 32 (beAt k 24 4) 1)))),
         .circ c fun y => { y with errored := true }])) ∧
      (data.length = containerLen c cfg → x.cont = none →
        ∀ (seq votes : Nat) (ais rdi split odd : Bool) (dj : Int), seq = (if err then x.exp else beAt data 0 8 / 2 ^ 60 % 16) →
        votes = beAt data 0 8 / 2 ^ 57 % 8 → ais = bitOf (beAt data 0 8) 56 → rdi = bitOf (beAt data 0 8) 55 →
        split = (decide (2048 ≤ c) && votes != 0 && votes != 7) → odd = (!err && seq != x.exp) →
        dj = (if c < 2048 ∨ votes ∈ [0, 1, 2, 4] then 0 else if seq % 2 = 0 then 1 else -1) →
        ∃ t, exec (.circuitContainer n st err data) s = .next t ∧ t.pending = s.pending ∧
          (t.dev.crc c).cont = some ((bitList (data.drop 8)).take ((frameBits c cfg : Int) + dj).toNat) ∧
          (t.dev.crc c).contD = dj ∧ (t.dev.crc c).contOk = !err ∧ (t.dev.crc c).exp = (seq + 1) % 16 ∧
          (t.dev.crc c).errored = (x.errored || err || odd) ∧
          (k.length = 48 →
           beAt (t.dev.oct .circCounters 0 c) 32 4 = satAdd 32 (beAt k 32 4) (if split then 1 else 0) ∧
           beAt (t.dev.oct .circCounters 0 c) 20 4 = satAdd 32 (beAt k 20 4) (if err then 1 else 0) ∧
           beAt (t.dev.oct .circCounters 0 c) 24 4 = satAdd 32 (beAt k 24 4) (if odd then 1 else 0)) ∧
          (err = true → t.dev.num .circStatus 0 c = s.dev.num .circStatus 0 c) ∧
          (err = false →
            bitOf (t.dev.num .circStatus 0 c) 1 =
              (if ais = true ∧ 2 ≤ x.aisRun then true else if ais = false ∧ 2 ≤ x.noAisRun then false
               else bitOf (s.dev.num .circStatus 0 c) 1) ∧
            bitOf (t.dev.num .circStatus 0 c) 3 =
              (if rdi = true ∧ 2 ≤ x.rdiRun then true else if rdi = false ∧ 2 ≤ x.noRdiRun then false
               else bitOf (s.dev.num .circStatus 0 c) 3) ∧
            (bitOf (t.dev.num .circStatus 0 c) 1 ≠ bitOf (s.dev.num .circStatus 0 c) 1 → t.dev.raisedEvent 192 0 c))))

/-- Pseudowires (R321 to R323). -/
def Obligations.Pseudowires : Prop :=
  ∀ (s : State) (c : Fin 2080) (cfg : List Byte) (x : Circ) (v n : Nat), s.Inv → s.dev.answers = true → cfg = s.dev.circCfg c.val → x = s.dev.crc c.val →
    v = s.dev.num .circStatus 0 c.val → n = ccPwBytes cfg →
    (ccDs cfg = false ∨ x.gather.length < 8 * n → exec (.pwPacketForm c) s = .next s) ∧
    (ccDs cfg = true → 8 * n ≤ x.gather.length → exec (.pwPacketForm c) s = .next (s.after
      [.circ c.val (fun y => { y with gather := y.gather.drop (8 * n), pwSeq := (y.pwSeq + 1) % 65536 }),
       .out ⟨.handoff, 0x50, c.val, beBytes 4
         ((if bitOf v 2 then 2 ^ 27 else 0) + (if bitOf v 4 then 2 ^ 26 else 0) + (if n < 60 then (n + 4) * 65536 else 0) + x.pwSeq) ++
         (if bitOf v 2 then List.replicate n 0xFF else packBits (x.gather.take (8 * n)))⟩])) ∧
    (ccUs cfg = false → ∀ data, exec (.pwPacketReceived c data) s = .next s) ∧
    (ccUs cfg = true → ∀ (data : List Byte) (w ahead gap fill : Nat), w = beAt data 0 4 →
      ahead = (match x.pwExp with | some e => (w % 65536 + 65536 - e) % 65536 | none => 0) →
      gap = (if ahead ≤ 32 then ahead else 0) → fill = (if 32 < ahead then 0 else x.playout.length) + 8 * n * (gap + 1) →
      (data.length ≠ n + 4 ∨ 2 ^ 28 ≤ w ∨ 32768 ≤ ahead ∨ 2 * playTarget c.val cfg < fill →
        ∀ k, k = s.dev.oct .circCounters 0 c.val → exec (.pwPacketReceived c data) s = .next (s.after
          [.obj .circCounters 0 c.val (.oct (patch k 40 (beBytes 4 (satAdd 32 (beAt k 40 4) 1))))])) ∧
      (data.length = n + 4 → w < 2 ^ 28 → ahead < 32768 → fill ≤ 2 * playTarget c.val cfg →
        ∃ t, exec (.pwPacketReceived c data) s = .next t ∧ t.pending = s.pending ∧
          (t.dev.crc c.val).pwExp = some ((w + 1) % 65536) ∧
          (t.dev.crc c.val).playout = (if 32 < ahead then [] else x.playout) ++ List.replicate (8 * n * gap) true ++
            (if bitOf w 27 then List.replicate (8 * n) true else bitList (data.drop 4)) ∧
          (t.dev.crc c.val).playing = (x.playing && decide (ahead ≤ 32)) ∧
          ((s.dev.oct .circCounters 0 c.val).length = 48 → beAt (t.dev.oct .circCounters 0 c.val) 36 4 =
            satAdd 32 (beAt (s.dev.oct .circCounters 0 c.val) 36 4) gap) ∧
          bitOf (t.dev.num .circStatus 0 c.val) 5 = bitOf w 27 ∧ bitOf (t.dev.num .circStatus 0 c.val) 4 = false)) ∧
    (ccUs cfg = true → bitOf v 4 = false → bitOf v 2 = (bitOf v 0 || bitOf v 1) → exec (.pwLossTimeout c) s = .next (s.after
      [.obj .circStatus 0 c.val (.num (putBit v 4 true)), .raise 194 0 c.val 0 0])) ∧
    (ccUs cfg = false ∨ bitOf v 4 = true → exec (.pwLossTimeout c) s = .next s)

/-- CIRC_CONFIG (R328). -/
def Obligations.CircuitConfiguration : Prop :=
  ∀ (s : State) (o : Origin) (c : Fin 2080) (b old : List Byte), s.Inv → b.length = 32 → old = s.dev.circCfg c.val →
    s.dev.admits (writeReq o .circConfig 0 c.val (.oct b)) →
    ∀ (range kept : Bool), range = circRange s.dev c.val b →
      kept = (patch b 0 (beBytes 1 (beAt b 0 1 % 128)) == patch old 0 (beBytes 1 (beAt old 0 1 % 128))) →
      (range = true → exec (.circConfigWrite o c b) s =
        .next (s.refusedWith (writeReq o .circConfig 0 c.val (.oct b)).call [] 0x0302)) ∧
      (range = false → (ccOn old = true ∧ kept = false) ∨ (ccOn b = true ∧ s.dev.queueBound (ccQueue b) (ccChannel b) = false) →
        exec (.circConfigWrite o c b) s = .next (s.refusedWith (writeReq o .circConfig 0 c.val (.oct b)).call [] 0x0401)) ∧
      (range = false → ccOn old = ccOn b → (ccOn old = true → kept = true) →
        (ccOn b = true → s.dev.queueBound (ccQueue b) (ccChannel b) = true) → exec (.circConfigWrite o c b) s =
          .next (s.served (writeReq o .circConfig 0 c.val (.oct b)).call [.obj .circConfig 0 c.val (.oct b),
            .obj .circLoadDs 0 0 (.num (s.dev.circLoads c.val b ccDs)), .obj .circLoadUs 0 0 (.num (s.dev.circLoads c.val b ccUs))] [])) ∧
      (range = false → ccOn old = true → ccOn b = false → kept = true → ∃ t, exec (.circConfigWrite o c b) s = .next t ∧
        t.pending = s.pending ∧ t.dev.circCfg c.val = b ∧ t.dev.num .circStatus 0 c.val = 0 ∧
        t.dev.num .circLoadDs = s.dev.circLoads c.val b ccDs ∧ t.dev.num .circLoadUs = s.dev.circLoads c.val b ccUs ∧
        (∃ l, t.dev.crc c.val = { Circ.none with lost := l }) ∧
        (bitOf (s.dev.num .circStatus 0 c.val) 2 = true → bitOf (s.dev.num .circStatus 0 c.val) 0 = true ∨
          bitOf (s.dev.num .circStatus 0 c.val) 1 = true → t.dev.raisedEvent 192 0 c.val))

/-- Lemow messages (R336 to R340). -/
def Obligations.LemowMessages : Prop :=
  ∀ (s : State) (n : Fin 4) (m : Lemow), s.Inv → s.dev.answers = true → ∀ (all : List (Instr × Nat)) (h a : Nat) (reply : Nat → List Byte → Eff),
    all = [(.window n m, 24), (.assign n m, 12), (.offer n m, 8), (.confirm n m, 12), (.eqd n m, 4), (.alloc n m, 4), (.activate n m, 0),
      (.refuse n m, 4), (.deactivate n m, 0), (.disable n m, 8), (.enable n m, 8), (.rdi n m, 1), (.dozeReply n m, 12), (.wake n m, 0),
      (.qualityRequest n m, 0)] →
    h = s.dev.num .actHandle n.val → a = m.addr.toNat →
    (∀ code body, reply code body = .fch n.val fun c =>
      let p : List Byte := beBytes 1 code ++ [0] ++ beBytes 2 m.seq.toNat ++ body
      if m.inband then { c with inq := c.inq ++ [⟨true, 0, p⟩] }
      else { c with txq := c.txq.filter (·.lemow) ++ [⟨true, 2, p⟩] ++ c.txq.filter (!·.lemow) }) →
    (a ≠ 0xFFFF → a ≠ h → (a = 0xFFFE → h ≠ 0xFFFF) → ∀ x ∈ all, exec x.1 s = .next s) ∧
    (a = 0xFFFF ∨ a = h ∨ (a = 0xFFFE ∧ h = 0xFFFF) → ∀ x ∈ all, m.body.length ≠ x.2 →
      exec x.1 s = .next (s.after [.count .actMsgDiscards n.val 0 1])) ∧
    (s.dev.num .actState n.val ≠ 4 →
      (a = h → h ≠ 0xFFFF → m.body = [] → s.dev.num .actState n.val ≠ 3 →
        ∀ x ∈ [Instr.wake n m, .qualityRequest n m, .activate n m], exec x s = .next (s.after [.count .actMsgIllegal n.val 0 1])) ∧
      (a = 0xFFFF → h ≠ 0xFFFF → m.body = [] → exec (.wake n m) s = .next s)) ∧
    (s.dev.num .actState n.val = 4 → a = h → h ≠ 0xFFFF →
      (m.inband = true → (s.dev.ch n.val).inq.length < 16) → (m.inband = false → (s.dev.ch n.val).txq.length < 16) →
      (∀ b : Bool, m.body = [if b then 1 else 0] →
        (s.dev.defect n.val 4 = b → exec (.rdi n m) s = .next (s.after [reply 0x43 [0x0C, 0, 0, 0]])) ∧
        (s.dev.defect n.val 4 ≠ b → exec (.rdi n m) s = .next (s.after
          [.obj .frmDefects n.val 0 (.num (putBit (s.dev.num .frmDefects n.val) 4 b)),
           .raise (128 + 16 * n.val + 13) 0 n.val (top8 4) 0, reply 0x43 [0x0C, 0, 0, 0]]))) ∧
      (m.body = [] → exec (.qualityRequest n m) s = .next (s.after [reply 0x46 (s.dev.quality n.val)])) ∧
      (m.body = [] → s.dev.inRun → exec (.wake n m) s = .next s) ∧
      (s.dev.num .actDozeState n.val = 1 → s.dev.pwr.req = none → m.body.length = 12 →
        4 ≤ beAt m.body 1 1 → beAt m.body 1 1 ≤ 32 → beAt m.body 2 2 % 32 = 0 → 32 ≤ beAt m.body 2 2 → beAt m.body 2 2 ≤ 32768 →
        beAt m.body 4 8 % 2 ^ 51 % beAt m.body 2 2 = 0 →
        (beAt m.body 0 1 = 0 → exec (.dozeReply n m) s = .next (s.after
          [reply 0x43 [0x0D, 0, 0, 0], .obj .actDozeState n.val 0 (.num 0)])) ∧
        (beAt m.body 0 1 = 1 → exec (.dozeReply n m) s = .next (s.after
          [reply 0x43 [0x0D, 0, 0, 0], .obj .actDozeState n.val 0 (.num 2),
           .fch n.val fun c => { c with
             dozeAwake := beAt m.body 1 1, dozeCycle := beAt m.body 2 2, dozeStart := beAt m.body 4 8 % 2 ^ 51 }]))))

/-- Registration (R343 to R352). -/
def Obligations.Registration : Prop :=
  (∀ (s : State) (n : Fin 4) (m : Lemow), s.Inv → s.dev.answers = true → ∀ (h st : Nat) (reply : Nat → List Byte → Eff) (moved : Nat → Nat → List Eff),
    h = s.dev.num .actHandle n.val → st = s.dev.num .actState n.val →
    (∀ code body, reply code body = .fch n.val fun c =>
      let p : List Byte := beBytes 1 code ++ [0] ++ beBytes 2 m.seq.toNat ++ body
      if m.inband then { c with inq := c.inq ++ [⟨true, 0, p⟩] }
      else { c with txq := c.txq.filter (·.lemow) ++ [⟨true, 2, p⟩] ++ c.txq.filter (!·.lemow) }) →
    (∀ new row, moved new row =
      [.obj .actState n.val 0 (.num new), .raise (128 + 16 * n.val + 14) row n.val (top8 st + new % 256 * 65536) 0]) →
    (st = 2 → h = 0xFFFF → m.addr.toNat = 0xFFFE → m.body.length = 12 → beAt m.body 0 8 = s.dev.num .idTerminal →
      beAt m.body 8 2 ≤ 0x0FFF → (s.dev.ch n.val).retHandle ≠ beAt m.body 8 2 → exec (.assign n m) s = .next (s.after
        ([.obj .actHandle n.val 0 (.num (beAt m.body 8 2))] ++ moved 3 6 ++
         [.fch n.val fun c => { c with
            retHandle := 0xFFFF, retAllocs := [], retEqd := 0, unranged := true, eqdTaken := false, windows := []
            attempt := 0, skips := 0 }]))) ∧
    (st = 2 → h = 0xFFFF → m.addr.toNat = 0xFFFE → m.body.length = 12 → beAt m.body 0 8 ≠ s.dev.num .idTerminal →
      beAt m.body 8 2 ≤ 0x0FFF → exec (.assign n m) s = .next s) ∧
    (m.addr.toNat = h → h ≠ 0xFFFF →
      ((m.inband = true → (s.dev.ch n.val).inq.length < 16) → (m.inband = false → (s.dev.ch n.val).txq.length < 16) →
        (st = 3 → m.body.length = 8 → bitOf (beAt m.body 0 4) 27 = true → 7 ≤ beAt m.body 4 1 → beAt m.body 4 1 ≤ 12 →
          ∀ mode, mode = s.dev.bestMode n.val (beAt m.body 0 4) (beAt m.body 4 1) (beAt m.body 5 1) →
          exec (.offer n m) s = .next (s.after
            [.fch n.val (fun c => { c with select := some mode }), reply 0x42 (beBytes 4 mode)])) ∧
        (st = 3 → m.body.length = 12 → beAt m.body 0 4 < 3 * 2 ^ 30 → ∀ (mode f : Nat), mode = beAt m.body 0 4 / 2 ^ 20 * 2 ^ 20 →
          f = beAt m.body 4 8 % 2 ^ 51 →
          ((s.dev.ch n.val).select = some mode → s.dev.num .frmFrame n.val + 2 ≤ f → exec (.confirm n m) s = .next (s.after
            [.fch n.val (fun c => { c with modePend := some (mode, f) }), reply 0x43 [0x04, 0, 0, 0]])) ∧
          ((s.dev.ch n.val).select ≠ some mode ∨ f < s.dev.num .frmFrame n.val + 2 →
            exec (.confirm n m) s = .next (s.after [reply 0x43 [0x04, 1, 0, 0]]))) ∧
        (st = 3 ∨ st = 4 → m.body.length = 4 → exec (.eqd n m) s = .next (s.after
          [.obj .actEqd n.val 0 (.num (beAt m.body 0 4 % 2 ^ 24)),
           .fch n.val (fun c => { c with
             unranged := !(s.dev.num .clkFchState 0 n.val == 2), eqdTaken := s.dev.num .clkFchState 0 n.val == 2 }),
           reply 0x43 [0x05, 0, 0, 0]])) ∧
        (st = 3 ∨ st = 4 ∨ st = 5 → m.body.length = 4 → ∀ a : Nat, a = beAt m.body 2 2 % 2 ^ 14 → a ≠ 0x3FFF →
          (beAt m.body 0 1 ≤ 1 → (s.dev.allocSlot n.val a).isSome = decide (beAt m.body 0 1 = 0) →
            exec (.alloc n m) s = .next (s.after [reply 0x43 [0x06, 0, 0, 0]])) ∧
          (beAt m.body 0 1 = 0 → s.dev.allocSlot n.val a = none → (∀ i < 1024, bitOf (s.dev.num .actAlloc n.val i) 15 = true) →
            exec (.alloc n m) s = .next (s.after [reply 0x43 [0x06, 2, 0, 0]])) ∧
          (∀ i < 1024, beAt m.body 0 1 = 0 → s.dev.allocSlot n.val a = none → bitOf (s.dev.num .actAlloc n.val i) 15 = false →
            (∀ j < i, bitOf (s.dev.num .actAlloc n.val j) 15 = true) → ∃ t, exec (.alloc n m) s = .next t ∧ t.pending = s.pending ∧
              t.dev.num .actAlloc n.val i = 2 ^ 15 + a ∧ t.dev.allocSlot n.val a = some i ∧
              s.dev.only (keysOf [(.actAlloc, n.val, i)]) [.fch] t.dev) ∧
          (∀ i, beAt m.body 0 1 = 1 → s.dev.allocSlot n.val a = some i → ∃ t, exec (.alloc n m) s = .next t ∧ t.pending = s.pending ∧
            t.dev.num .actAlloc n.val i = 0 ∧ s.dev.only (keysOf [(.actAlloc, n.val, i)]) [.fch] t.dev))) ∧
      (st = 3 → m.body = [] → (s.dev.ch n.val).eqdTaken = true → exec (.activate n m) s = .next (s.after (moved 4 8))) ∧
      (st = 3 → m.body = [] → (s.dev.ch n.val).eqdTaken = false →
        exec (.activate n m) s = .next (s.after [.count .actMsgIllegal n.val 0 1])) ∧
      (st = 3 → m.body.length = 4 → ∃ t, exec (.refuse n m) s = .next t ∧ t.pending = s.pending ∧ t.dev.num .actState n.val = 1 ∧
        t.dev.num .actHandle n.val = 0xFFFF ∧ t.dev.num .actEqd n.val = 0 ∧ t.dev.num .actLastRefusal n.val = beAt m.body 0 2 ∧
        t.dev.num .actRefusals n.val = satAdd 32 (s.dev.num .actRefusals n.val) 1 ∧
        (t.dev.ch n.val).holdoff = (beAt m.body 2 2 != 0) ∧ t.dev.raisedEvent (128 + 16 * n.val + 14) 9 n.val)) ∧
    (m.addr.toNat = 0xFFFF ∨ (m.addr.toNat = h ∧ h ≠ 0xFFFF) → m.body = [] → 2 ≤ st → st ≤ 5 →
      ∃ t, exec (.deactivate n m) s = .next t ∧ t.pending = s.pending ∧ t.dev.num .actState n.val = 1 ∧
        (st ≠ 2 → t.dev.num .actHandle n.val = 0xFFFF ∧ t.dev.num .actEqd n.val = 0) ∧
        (st = 2 → t.dev.num .actHandle n.val = h) ∧ t.dev.raisedEvent (128 + 16 * n.val + 14) (if st = 2 then 7 else 2 * st + 3) n.val) ∧
    (m.addr.toNat = 0xFFFF ∨ (m.addr.toNat = 0xFFFE ∧ h = 0xFFFF) → m.body.length = 8 →
      (st ≠ 6 → beAt m.body 0 8 = s.dev.num .idTerminal → ∃ t, exec (.disable n m) s = .next t ∧ t.pending = s.pending ∧
        t.dev.num .actState n.val = 6 ∧ t.dev.num .actHandle n.val = 0xFFFF ∧ t.dev.raisedEvent (128 + 16 * n.val + 14) 1 n.val) ∧
      (beAt m.body 0 8 ≠ s.dev.num .idTerminal → exec (.disable n m) s = .next s) ∧
      (st = 6 → beAt m.body 0 8 = s.dev.num .idTerminal ∨ beAt m.body 0 8 = 2 ^ 64 - 1 → s.dev.num .feState n.val ≠ 2 →
        (∀ q ∈ s.dev.busyQueues, s.dev.portOf q ≠ 108 + n.val) → exec (.enable n m) s = .next (s.after (moved 0 3))))) ∧
  (∀ (s : State) (n : Fin 4), s.Inv → s.dev.answers = true →
    ∀ listening : State → Nat → Nat → Prop, (∀ t row handle, listening t row handle ↔
      (t.pending = s.pending ∧ t.dev.num .actState n.val = 1 ∧ t.dev.num .actHandle n.val = handle ∧
        t.dev.raisedEvent (128 + 16 * n.val + 14) row n.val ∧
        ∀ q l, l ≠ [] → s.dev.tm.queues = [(q, l)] → s.dev.portOf q = 108 + n.val → t.dev.tm.queues = [] ∧
          t.dev.num .tmDrops 0 7 = satAdd 64 (s.dev.num .tmDrops 0 7) l.length)) →
    (s.dev.num .actState n.val = 2 → ∃ t, exec (.announceTimeout n) s = .next t ∧ listening t 7 (s.dev.num .actHandle n.val)) ∧
    (s.dev.num .actState n.val = 3 → ∃ t, exec (.rangeTimeout n) s = .next t ∧ listening t 9 0xFFFF) ∧
    (s.dev.num .actState n.val = 5 → ∃ t, exec (.holdTimeout n) s = .next t ∧ listening t 13 0xFFFF) ∧
    (s.dev.num .actState n.val ≠ 2 → exec (.announceTimeout n) s = .next s) ∧
    (s.dev.num .actState n.val ≠ 3 → exec (.rangeTimeout n) s = .next s) ∧
    (s.dev.num .actState n.val ≠ 5 → exec (.holdTimeout n) s = .next s) ∧
    exec (.refuseHoldoffEnd n) s = .next (s.after [.fch n.val fun c => { c with holdoff := false }])) ∧
  (∀ (s : State) (o : Origin) (n : Fin 4) (v : BitVec 32), s.Inv →
    (s.dev.admits (writeReq o .actEqd n.val 0 (.num v.toNat)) → exec (.actEqdWrite o n v) s =
      .next (s.served (writeReq o .actEqd n.val 0 (.num v.toNat)).call
        [.obj .actEqd n.val 0 (.num v.toNat), .fch n.val fun c => { c with
          unranged := !(s.dev.num .clkFchState 0 n.val == 2), eqdTaken := s.dev.num .clkFchState 0 n.val == 2 }] [])) ∧
    (s.dev.admits (execReq o .actRestart n.val 0 true (.num 0)) →
      (s.dev.num .actState n.val = 6 → exec (.actRestart o n) s =
        .next (s.refusedWith (execReq o .actRestart n.val 0 true (.num 0)).call [] 0x0401)) ∧
      (s.dev.num .actState n.val ≠ 6 → ∃ t, exec (.actRestart o n) s = .next t ∧ t.pending = s.pending ∧
        t.dev.num .actState n.val = (if s.dev.num .feState n.val = 2 then 1 else 0) ∧ t.dev.num .actHandle n.val = 0xFFFF ∧
        t.dev.num .actEqd n.val = 0)))

/-- Windows (R344, R345, R631), modes (R351) and doze (R362). -/
def Obligations.WindowTransmissions : Prop :=
  ∀ (s : State) (n : Fin 4), s.Inv → s.dev.answers = true → ∀ st : Nat, st = s.dev.num .actState n.val →
    (∀ (m : Lemow) (w : Window) (live : List Window), w = msgWindow m →
      live = (s.dev.ch n.val).windows.filter (fun x => !s.dev.windowOver n.val x) →
      m.addr.toNat = 0xFFFF → m.body.length = 24 → w.bad = false → w.kind = 0 → st = 1 ∨ st = 2 →
      (st = 1 → (s.dev.ch n.val).holdoff = false) →
      (s.dev.num .frmFrame n.val + 2 ≤ w.frame → capsHas (s.dev.caps n.val) w.phy w.sf = true → s.dev.windowNeed n.val w ≤ w.dur →
        live.length < 4 → exec (.window n m) s = .next (s.after
          ([.fch n.val fun c => { c with windows := live ++ [w] }] ++
           if st = 1 then [.obj .actState n.val 0 (.num 2),
             .raise (128 + 16 * n.val + 14) 5 n.val (top8 1 + 2 * 65536) 0] else []))) ∧
      (w.frame < s.dev.num .frmFrame n.val + 2 ∨ capsHas (s.dev.caps n.val) w.phy w.sf = false ∨ w.dur < s.dev.windowNeed n.val w ∨
        4 ≤ live.length → exec (.window n m) s = .next (s.after
          [.fch n.val (fun c => { c with windows := live }), .count .actWindowSkips n.val 0 1]))) ∧
    (∀ (off : BitVec 32) (back : BitVec 4),
      ((∀ w ∈ (s.dev.ch n.val).windows, w.kind = 0 → s.dev.windowOver n.val w = true) → exec (.announce n off back) s = .next s) ∧
      (∀ (w : Window) (rest : List Window), s.dev.nextWindow n.val 0 = some (w, rest) → st = 2 →
        (0 < (s.dev.ch n.val).skips → exec (.announce n off back) s = .next (s.after
          [.fch n.val (fun c => { c with windows := rest }), .fch n.val fun c => { c with skips := c.skips - 1 }])) ∧
        ((s.dev.ch n.val).skips = 0 → s.dev.tooLong n.val w.phy w.sf 20 = false → s.dev.laserReady n.val = true →
          (s.dev.ch n.val).onAir = none → s.dev.sec.trngOff = false → ∃ (t : State) (o : Out) (k : Nat),
            exec (.announce n off back) s = .next t ∧ t.pending = s.pending ∧ t.dev.outs = o :: s.dev.outs ∧
            t.dev.num .actAnnounces n.val = satAdd 32 (s.dev.num .actAnnounces n.val) 1 ∧
            (t.dev.ch n.val).attempt = (s.dev.ch n.val).attempt + 1 ∧
            (t.dev.ch n.val).skips ≤ 2 ^ min ((s.dev.ch n.val).attempt + 1) 4 - 1 ∧
            (s.dev.windowNeed n.val w ≤ w.dur → k + s.dev.windowNeed n.val w ≤ w.dur) ∧ o.kind = .mgmt ∧
            o.data.take 16 = beBytes 8 w.frame ++ beBytes 4 (w.unit + k) ++ beBytes 4 (s.dev.windowEqd n.val w)))) ∧
    (∀ (w : Window) (rest : List Window), s.dev.nextWindow n.val 1 = some (w, rest) → st = 3 ∨ st = 4 → w.phy = 2 →
      s.dev.laserReady n.val = true → (s.dev.ch n.val).onAir = none → s.dev.num .actDozeState n.val ≠ 3 →
      s.dev.hitsBurst n.val (upPos w.frame w.unit (s.dev.windowEqd n.val w)) (s.dev.windowNeed n.val w) = false →
      (s.dev.ch n.val).ldPend = false → exec (.rangingBurst n) s = .next (s.after
        [.fch n.val (fun c => { c with windows := rest }), .fch n.val (fun c => { c with txSet := c.txNext }),
         .fch n.val (fun c => { c with burstOn := true, burstLeft := ceilDiv (s.dev.windowNeed n.val w * 5) 2000 }),
         .out ⟨.burst, n.val, 0x3FFF, beBytes 8 w.frame ++ beBytes 4 w.unit ++ beBytes 4 (s.dev.windowEqd n.val w) ++
           beBytes 1 (s.dev.num .actUsPreamble n.val) ++ s.dev.leadLag n.val ++
           burstHeader (s.dev.num .actHandle n.val) 0x3FFF (bitOf (s.dev.defects n.val) 5)⟩])) ∧
    ((s.dev.ch n.val).modePend = none → exec (.modeApply n) s = .next s) ∧
    (∀ mode f : Nat, (s.dev.ch n.val).modePend = some (mode, f) → mode < 2 ^ 30 → s.dev.num .actMode n.val < 2 ^ 30 →
      (s.dev.num .frmFrame n.val < f → exec (.modeApply n) s = .next s) ∧
      (f ≤ s.dev.num .frmFrame n.val → ∃ t, exec (.modeApply n) s = .next t ∧ t.pending = s.pending ∧
        t.dev.num .actMode n.val = mode ∧ t.dev.num .mgtTxPhy n.val = mode / 2 ^ 28 % 2 ∧ t.dev.num .mgtCmSfRx n.val = mode / 2 ^ 24 % 16 ∧
        t.dev.num .mgtCmSfTx n.val = mode / 2 ^ 20 % 16 ∧ (t.dev.ch n.val).modePend = none)) ∧
    (s.dev.num .actDozeState n.val = 2 → (s.dev.ch n.val).dozeStart ≤ s.dev.num .frmFrame n.val →
      exec (.dozeStart n) s = .next (s.after [.obj .actDozeState n.val 0 (.num 3)])) ∧
    (s.dev.num .actDozeState n.val ≠ 2 ∨ s.dev.num .frmFrame n.val < (s.dev.ch n.val).dozeStart → exec (.dozeStart n) s = .next s)

/-- Grants (R353, R354) and bursts (R355 to R358). A PAM4 burst that starts in the Run state on a bound or unbound allocation is stated for one
filled with idle. -/
def Obligations.GrantsAndBursts : Prop :=
  ∀ (s : State) (n : Fin 4), s.Inv →
    (s.dev.answers = true → ∀ (fr : BitVec 51) (e : BitVec 64) (a st want len up : Nat) (g : Grants), a = e.toNat / 2 ^ 50 →
      st = e.toNat / 2 ^ 34 % 2 ^ 16 → want = e.toNat / 2 ^ 18 % 2 ^ 16 → len = min want (50000 - st) → up = fr.toNat + 2 →
      g = (if (s.dev.ch n.val).grants.frame = up then (s.dev.ch n.val).grants
        else ⟨up, 0, s.dev.num .actEqd n.val, [], s.dev.bindings n.val⟩) →
      ∀ (took : List (Nat × Nat) → Eff) (bad : Obj → Nat → List Eff),
      (∀ t, took t = .fch n.val fun c => { c with grants := { g with num := g.num + 1, taken := t } }) →
      (∀ o cause, bad o cause = [.count o n.val 0 1, .raise (128 + 16 * n.val + 15) cause n.val (top16 a) 0]) →
      (grantCheck e.toNat ≠ e.toNat % 2 ^ 14 →
        exec (.grantEntry n fr e) s = .next (s.after [.count .actGrantCheckFails n.val 0 1])) ∧
      (grantCheck e.toNat = e.toNat % 2 ^ 14 →
        (s.dev.heldAt n.val a fr.toNat = false → exec (.grantEntry n fr e) s = .next s) ∧
        (s.dev.heldAt n.val a fr.toNat = true →
          (s.dev.num .actState n.val ≠ 4 ∨ s.dev.num .actDozeState n.val = 3 →
            exec (.grantEntry n fr e) s = .next (s.after [.count .actGrantsIgnored n.val 0 1])) ∧
          (s.dev.num .actState n.val = 4 → s.dev.num .actDozeState n.val ≠ 3 →
            (50000 ≤ st ∨ want = 0 ∨ 64 ≤ g.num →
              exec (.grantEntry n fr e) s = .next (s.after ([took g.taken] ++ bad .actGrantsInvalid 1))) ∧
            (st < 50000 → want ≠ 0 → g.num < 64 → ∀ clip : List Eff,
              clip = (if 50000 < st + want then bad .actGrantsClipped 2 else []) →
              ((∃ t ∈ g.taken, st < t.2 ∧ t.1 < st + len) →
                exec (.grantEntry n fr e) s = .next (s.after (clip ++ [took g.taken] ++ bad .actGrantsOverlap 3))) ∧
              ((∀ t ∈ g.taken, t.2 ≤ st ∨ st + len ≤ t.1) →
                (len < s.dev.burstShell n.val → exec (.grantEntry n fr e) s = .next (s.after
                  (clip ++ [took (g.taken ++ [(st, st + len)]), .count .actGrantsShort n.val 0 1]))) ∧
                (s.dev.burstShell n.val ≤ len → s.dev.inRun → exec (.grantEntry n fr e) s = .next (s.after
                  (clip ++ [took (g.taken ++ [(st, st + len)])] ++
                    (if (grantSvc g a).isSome then [.count .actGrants n.val 0 1] else bad .actGrantsIdle 4) ++
                    if s.dev.hitsBurst n.val (upPos up st g.eqd) len then bad .actBurstsEqdDropped 5
                    else [.fch n.val fun c => { c with
                      bursts := (c.bursts.filter fun b => !b.sent || decide (up ≤ b.frame + 1)) ++
                        [⟨up, a, st, len, bitOf e.toNat 17, g.eqd, grantSvc g a, false⟩]
                      mgmtAt := if bitOf e.toNat 17 then some (up - 2) else c.mgmtAt }]))))))))) ∧
    (∀ (fault : Bool) (read : Fin 3), (∀ b ∈ (s.dev.ch n.val).bursts, b.sent = true) →
      exec (.burstStart n fault read) s = .next s ∧ exec (.usKeySwitchFire n) s = .next s) ∧
    (s.dev.answers = true → ∀ (fault : Bool) (read : Fin 3) (b : Burst) (cap : Nat),
      (s.dev.ch n.val).bursts.find? (fun x => !x.sent) = some b → s.dev.pendingOn 3 (s.dev.lead n.val) = none →
      cap = burstCapacity (bitOf (s.dev.num .actMode n.val) 29) (b.len - s.dev.burstShell n.val) →
      (s.dev.num .actState n.val ≠ 4 ∨ s.dev.laserReady n.val = false ∨ s.dev.num .actDozeState n.val = 3 →
        exec (.burstStart n fault read) s = .next (s.after
          [.fch n.val fun c => { c with bursts := c.bursts.map fun x => if x = b then { x with sent := true } else x }])) ∧
      (b.svc = none → s.dev.boundSvc n.val b.alloc = none → b.mgmt = false → (s.dev.ch n.val).fecWas.1 ≤ b.frame →
        s.dev.num .actState n.val = 4 → s.dev.laserReady n.val = true → (s.dev.ch n.val).onAir = none → s.dev.num .actDozeState n.val ≠ 3 →
        (s.dev.ch n.val).ldPend = false → s.dev.num .pwrState = 0 → (∀ p ∈ (s.dev.ch n.val).inq, p.dozeEnd = false) → 8 ≤ cap →
        ∃ t, exec (.burstStart n fault read) s = .next t ∧ t.pending = s.pending ∧
          t.dev.outs = ⟨.burst, n.val, b.alloc, beBytes 8 b.frame ++ beBytes 4 b.start ++ beBytes 4 b.eqd ++
            beBytes 1 (s.dev.num .actUsPreamble n.val) ++ s.dev.leadLag n.val ++
            burstHeader (s.dev.num .actHandle n.val) b.alloc (bitOf (s.dev.defects n.val) 5) ++
            burstBits (bitOf (s.dev.num .actMode n.val) 29) b.frame (b.len - s.dev.burstShell n.val)
              ([0, 0, 0, 0, 0, 0] ++ beBytes 2 (crc16 [0, 0, 0, 0, 0, 0]) ++ idleFill (cap - 8))⟩ :: s.dev.outs ∧
          (t.dev.ch n.val).burstOn = true ∧ (t.dev.ch n.val).burstLeft = ceilDiv (b.len * 5) 2000 ∧
          (t.dev.ch n.val).bursts = (s.dev.ch n.val).bursts.map (fun x => if x = b then { x with sent := true } else x) ∧
          s.dev.only noKeys [.fch, .outs] t.dev))

/-- Ports as configured (R368, R369, R393, R394). -/
def Obligations.PortConfiguration : Prop :=
  (∀ (s : State) (o : Origin) (p : Fin 96) (v : BitVec 8), s.Inv → s.dev.admits (writeReq o .portMode p.val 0 (.num v.toNat)) →
    (6 < v.toNat ∨ (v = 5 ∧ p.val % 2 = 1) ∨ (v = 6 ∧ p.val % 4 ≠ 0) → exec (.portModeWrite o p v) s =
      .next (s.refusedWith (writeReq o .portMode p.val 0 (.num v.toNat)).call [] 0x0302)) ∧
    (v.toNat ≤ 6 → (v = 5 → p.val % 2 = 0) → (v = 6 → p.val % 4 = 0) →
      (s.dev.fabricGroup (p.val / 8) = true ∨ s.dev.absorbed p.val = true ∨ s.dev.num .portEnable p.val = 1 ∨
        (∃ q < 96, absorbs p.val v.toNat q = true ∧ s.dev.num .portEnable q = 1) → exec (.portModeWrite o p v) s =
          .next (s.refusedWith (writeReq o .portMode p.val 0 (.num v.toNat)).call [] 0x0401)) ∧
      (s.dev.fabricGroup (p.val / 8) = false → s.dev.absorbed p.val = false → s.dev.num .portEnable p.val ≠ 1 →
        (∀ q < 96, absorbs p.val v.toNat q = true → s.dev.num .portEnable q ≠ 1) → ∃ t, exec (.portModeWrite o p v) s = .next t ∧
          t.pending = s.pending ∧ t.dev.num .portMode p.val = v.toNat ∧
          (∀ q < 96, absorbs p.val v.toNat q = true → t.dev.num .portState q = 1) ∧
          (v = 0 → t.dev.num .portState p.val = 1) ∧
          (v ≠ 0 → t.dev.num .portState p.val = (if s.dev.num .portState p.val = 1 then 0 else s.dev.num .portState p.val)) ∧
          (∀ q < 96, q / 8 ≠ p.val / 8 → t.dev.num .portState q = s.dev.num .portState q)))) ∧
  (∀ (s : State) (o : Origin) (p : Fin 96) (v : BitVec 8), s.Inv → s.dev.admits (writeReq o .portEnable p.val 0 (.num v.toNat)) →
    ∀ (past bar : Prop), past = (s.dev.num .portEnable p.val = 0 ∧ s.dev.num .portMacsecEnable p.val = 1 ∧ s.dev.macsecOver p.val = true) →
    bar = (s.dev.num .portState p.val = 1 ∨ s.dev.familyClash p.val = true) →
    (v = 1 → past → exec (.portEnableWrite o p v) s =
      .next (s.refusedWith (writeReq o .portEnable p.val 0 (.num v.toNat)).call [] 0x0302)) ∧
    (v = 1 → ¬past → bar → exec (.portEnableWrite o p v) s =
      .next (s.refusedWith (writeReq o .portEnable p.val 0 (.num v.toNat)).call [] 0x0401)) ∧
    (v = 1 → ¬past → ¬bar → exec (.portEnableWrite o p v) s = .next (s.served (writeReq o .portEnable p.val 0 (.num v.toNat)).call
      ([.obj .portEnable p.val 0 (.num 1)] ++ if s.dev.num .portState p.val = 0 then [.obj .portState p.val 0 (.num 2)] else []) [])) ∧
    (v = 0 → ∃ t, exec (.portEnableWrite o p v) s = .next t ∧ t.pending = s.pending ∧ t.dev.num .portEnable p.val = 0 ∧
      t.dev.num .portState p.val = (if s.dev.num .portState p.val = 1 then 1 else 0) ∧
      (s.dev.num .portState p.val = 4 → t.dev.raisedEvent (224 + p.val) 2 p.val))) ∧
  (∀ (s : State) (o : Origin) (p : Fin 96), s.Inv →
    (s.dev.admits (execReq o .portRestart p.val 0 true (.oct [])) →
      (s.dev.num .portState p.val ≤ 1 → exec (.portRestart o p) s =
        .next (s.refusedWith (execReq o .portRestart p.val 0 true (.oct [])).call [] 0x0401)) ∧
      (2 ≤ s.dev.num .portState p.val → ∃ t, exec (.portRestart o p) s = .next t ∧ t.pending = s.pending ∧
        t.dev.num .portState p.val = 2)) ∧
    (s.dev.admits (readReq o .portMacCounters p.val 0 (.oct [])) → exec (.portMacCountersRead o p) s =
      .next (s.served (readReq o .portMacCounters p.val 0 (.oct [])).call
        [.port p.val fun x => { x with
          base := SMap.put [] (macClass (s.dev.codeOf o.path)) (s.dev.oct .portMacCounters p.val) x.base }]
        (s.dev.macSince p.val (s.dev.codeOf o.path))))) ∧
  (∀ (s : State) (o : Origin) (g : Fin 12) (v : BitVec 8), s.Inv → s.dev.admits (writeReq o .lgPersonality g.val 0 (.num v.toNat)) →
    (s.dev.num .lgPersonality g.val = v.toNat → exec (.lgPersonalityWrite o g v) s =
      .next (s.served (writeReq o .lgPersonality g.val 0 (.num v.toNat)).call [] [])) ∧
    (s.dev.num .lgPersonality g.val ≠ v.toNat → ∃ t, exec (.lgPersonalityWrite o g v) s = .next t ∧ t.pending = s.pending ∧
      t.dev.num .lgPersonality g.val = v.toNat ∧
      (v = 1 → ∀ k < 8, t.dev.num .portState (8 * g.val + k) = 1) ∧
      (v ≠ 1 → t.dev.num .fabState g.val = 1 ∧ ∀ k < 8, s.dev.num .portState (8 * g.val + k) = 1 →
        t.dev.num .portState (8 * g.val + k) = (if t.dev.portAbsent (8 * g.val + k) then 1 else 0))))

/-- Links (R370 to R382, R396). -/
def Obligations.PortLinks : Prop :=
  ∀ (s : State) (p : Fin 96), s.Inv → ∀ (st md : Nat) (mac : Nat → Nat → Eff), st = s.dev.num .portState p.val → md = s.dev.num .portMedium p.val →
    (∀ w k, mac w k = .obj .portMacCounters p.val 0 (.oct (patch (s.dev.oct .portMacCounters p.val) (8 * w)
      (beBytes 8 (satAdd 64 (beAt (s.dev.oct .portMacCounters p.val) (8 * w) 8) k))))) →
    (∀ (modes : BitVec 16) (rs base eee : Bool) (m : Nat),
      m = commonMode (s.dev.abilities p.val) modes.toNat →
      (st ≠ 2 ∨ md = 2 ∨ m = 0 → exec (.autonegComplete p modes rs base eee) s = .next s) ∧
      (s.dev.linksRun = true → st = 2 → md ≠ 2 → m ≠ 0 → exec (.autonegComplete p modes rs base eee) s = .next (s.after
        ([.obj .portResolved p.val 0 (.num (m * 2 ^ 24 + fecNegotiated m (s.dev.num .portFecRequest p.val) rs base * 2 ^ 20 +
          modeLanes m * 2 ^ 16 + (if s.dev.num .portEeeEnable p.val = 1 ∧ 2 ≤ m ∧ eee = true then 2 ^ 13 else 0)))] ++
         if m = 1 then [] else [.obj .portState p.val 0 (.num 3)])))) ∧
    (s.dev.linksRun = true →
      (∀ foms : List Slicer, st = 2 → md = 2 → ∃ t, exec (.pcsLockAcquired p foms) s = .next t ∧ t.pending = s.pending ∧
        t.dev.num .portState p.val = 4 ∧ t.dev.raisedEvent (224 + p.val) 1 p.val ∧
        t.dev.resMode p.val = s.dev.num .portMode p.val) ∧
      (∀ foms : List Slicer, st ≠ 2 → exec (.pcsLockAcquired p foms) s = .next s) ∧
      (∀ (lanes : List TrainLane) (steps : List SteerStep) (reqs : List (Nat × Bool)) (nrz : Bool), st = 3 →
        lanes.length = s.dev.resLanes p.val → p.val % 8 + lanes.length ≤ 8 → nrz = (modeFamily (s.dev.resMode p.val) == 1) →
        ∀ cs : List Nat, cs = steerOrder (s.dev.resMode p.val) →
        (steer cs steps cs false = (reqs, false) → exec (.linkTrainingComplete p lanes steps) s = .next s) ∧
        (steer cs steps cs false = (reqs, true) → ∃ t, exec (.linkTrainingComplete p lanes steps) s = .next t ∧ t.pending = s.pending ∧
          ⟨.train, p.val, 1, reqs.map fun x => BitVec.ofNat 8 (2 * x.1 + b2n x.2)⟩ ∈ t.dev.outs ∧
          (∀ k x, lanes[k]? = some x → t.dev.num .lnFom (p.val / 8) (p.val % 8 + k) = fomOf x.fom ∧
            t.dev.num .lnTxFfe (p.val / 8) (p.val % 8 + k) =
              (answerAsks nrz (ffeStart nrz (s.dev.num .lnTxFfe (p.val / 8) (p.val % 8 + k))) x.asks).1) ∧
          ((∀ x ∈ lanes, s.dev.num .lgFomUp (p.val / 8) ≤ fomOf x.fom) → t.dev.num .portState p.val = 4 ∧
            t.dev.raisedEvent (224 + p.val) 1 p.val ∧
            ∀ k, k < lanes.length → t.dev.num .lnTraining (p.val / 8) (p.val % 8 + k) = 1) ∧
          ((∃ x ∈ lanes, fomOf x.fom < s.dev.num .lgFomUp (p.val / 8)) → t.dev.num .portState p.val = 3))) ∧
      (∀ (r : Bool) (asks : List (List (Fin 4 × Bool))) (steps : List SteerStep), st = 3 →
        ∃ t, exec (.linkTrainingTimeout p r asks steps) s = .next t ∧ t.pending = s.pending ∧
        t.dev.num .portState p.val = 2 ∧ t.dev.raisedEvent (224 + p.val) 3 p.val ∧
        (1 ≤ s.dev.resLanes p.val → t.dev.num .lnTraining (p.val / 8) (p.val % 8) = if r then 2 else 3)) ∧
      (st = 6 → exec (.localFaultTimeout p) s = .next (s.after [.obj .portState p.val 0 (.num 2)])) ∧
      (st = 5 ∨ st = 6 → ∃ t, exec (.portFaultClear p) s = .next t ∧ t.pending = s.pending ∧ t.dev.num .portState p.val = 4 ∧
        t.dev.raisedEvent (224 + p.val) 1 p.val)) ∧
    (s.dev.answers = true →
      (st = 4 → ∀ gone : State → Nat → Nat → Prop,
        (∀ t new reason, gone t new reason ↔ (t.pending = s.pending ∧ t.dev.num .portState p.val = new ∧
          t.dev.num .portEeeState p.val = 0 ∧ (t.dev.prt p.val).egress = [] ∧
          ∃ e ∈ t.dev.occs, e.src = 224 + p.val ∧ e.code = 2 ∧ e.inst = p.val ∧ e.arg0 = top8 new + reason * 65536)) →
        (∃ t, exec (.portLocalFault p) s = .next t ∧ gone t 6 1) ∧ (∃ t, exec (.portRemoteFault p) s = .next t ∧ gone t 5 2)) ∧
      (st = 5 → exec (.portLocalFault p) s = .next (s.after [.obj .portState p.val 0 (.num 6)])) ∧
      (st = 6 → exec (.portRemoteFault p) s = .next (s.after [.obj .portState p.val 0 (.num 5)])) ∧
      (∀ f : Slicer, st = 4 → bitOf (s.dev.num .portEeeState p.val) 0 = false →
        (s.dev.num .lgFomRetrain (p.val / 8) = 0 ∨ s.dev.num .lgFomRetrain (p.val / 8) ≤ fomOf f → exec (.fomRetrain p f) s = .next s) ∧
        (fomOf f < s.dev.num .lgFomRetrain (p.val / 8) → ∃ t, exec (.fomRetrain p f) s = .next t ∧ t.pending = s.pending ∧
          t.dev.num .portState p.val = 2 ∧ t.dev.raisedEvent (224 + p.val) 2 p.val) ∧
        (∀ lane : Fin 8, s.dev.laneLocked (p.val / 8) lane.val = true → s.dev.portOfLane (p.val / 8) lane.val = p.val →
          exec (.fomMarginLow ⟨p.val, Nat.lt_of_lt_of_le p.isLt (by decide)⟩ lane f) s = .next (s.after
            ([.obj .lnFom (p.val / 8) lane.val (.num (fomOf f))] ++
             (if fomOf f < s.dev.num .lgFomAlarm (p.val / 8) ∧ (s.dev.prt p.val).marginLow = false
               then [.raise (224 + p.val) 4 p.val 0 0] else []) ++
             [.port p.val fun x => { x with marginLow := decide (fomOf f < s.dev.num .lgFomAlarm (p.val / 8)) }])))) ∧
      (∀ q : Fin 2, p.val / 4 % 2 = q.val → 2 ≤ st → ∃ t,
        exec (.quadPllUnlock ⟨p.val / 8, Nat.div_lt_of_lt_mul p.isLt⟩ q) s = .next t ∧ t.pending = s.pending ∧
        t.dev.num .portState p.val = 2 ∧ t.dev.raisedEvent (224 + p.val) 5 p.val) ∧
      (st = 4 → s.dev.resEee p.val = true →
        (bitOf (s.dev.num .portEeeState p.val) 1 = false → s.dev.pickPort p.val none = none →
          s.dev.gateOpensWithin p.val (s.dev.eeeTw p.val * 1000) = false → (s.dev.prt p.val).egress = [] →
          exec (.eeeTxEnter p) s = .next (s.after
            [.obj .portEeeState p.val 0 (.num (putBit (s.dev.num .portEeeState p.val) 1 true)), mac 22 1,
             .port p.val fun x => { x with txLpiAt := s.dev.nowNs }])) ∧
        ((s.dev.pickPort p.val none).isSome = true ∨ (s.dev.prt p.val).egress ≠ [] → exec (.eeeTxEnter p) s = .next s) ∧
        (s.dev.num .pwrState = 0 → bitOf (s.dev.num .portEeeState p.val) 1 = true → (s.dev.pickPort p.val none).isSome = true →
          exec (.eeeTxWake p) s = .next (s.after
            [.obj .portEeeState p.val 0 (.num (putBit (s.dev.num .portEeeState p.val) 1 false)),
             mac 23 ((s.dev.nowNs - (s.dev.prt p.val).txLpiAt) / 1000),
             .port p.val fun x => { x with heldTo := s.dev.nowNs + s.dev.eeeTw p.val * 1000 }])) ∧
        (bitOf (s.dev.num .portEeeState p.val) 0 = false → exec (.eeeRxLpi p true) s = .next (s.after
          [.obj .portEeeState p.val 0 (.num (putBit (s.dev.num .portEeeState p.val) 0 true)), mac 13 1,
           .port p.val fun x => { x with rxLpiAt := s.dev.nowNs }])) ∧
        (bitOf (s.dev.num .portEeeState p.val) 0 = true → exec (.eeeRxLpi p false) s = .next (s.after
          [.obj .portEeeState p.val 0 (.num (putBit (s.dev.num .portEeeState p.val) 0 false)),
           mac 14 ((s.dev.nowNs - (s.dev.prt p.val).rxLpiAt) / 1000)]))) ∧
      (∀ q : Nat, s.dev.num .portLldpMode p.val = 1 → st = 4 → s.dev.portAccepts p.val = true →
        s.dev.defaultQueue p.val (s.dev.num .carPortTc 0 117 % 8) = some q →
        s.dev.admission q (cellsOf (s.dev.lldpFrame p.val)) 0 = (0, false) → ∃ t x, exec (.lldpTx p) s = .next t ∧
          t.pending = s.pending ∧ t.dev.free = s.dev.free + 1 ∧ x.out = s.dev.lldpFrame p.val ∧
          t.dev.tm.queues = SMap.upd [] q (· ++ [x]) s.dev.tm.queues)) ∧
    (s.dev.num .portLldpMode p.val ≠ 1 ∨ st ≠ 4 → exec (.lldpTx p) s = .next s)

/-- Frames at a port (R383 to R389). -/
def Obligations.MacFrames : Prop :=
  (∀ (s : State) (p : Fin 96) (f : EthRx) (fault : Bool) (n : Nat) (b : List Byte), s.Inv → n = f.data.length → b = f.data.take (n - 4) →
    ∀ mac : Nat → Eff, (∀ w, mac w = .obj .portMacCounters p.val 0 (.oct (patch (s.dev.oct .portMacCounters p.val) (8 * w)
      (beBytes 8 (satAdd 64 (beAt (s.dev.oct .portMacCounters p.val) (8 * w) 8) 1))))) →
    (s.dev.num .portState p.val ≠ 4 → exec (.ethRxFrame p f fault) s = .next s) ∧
    (s.dev.answers = true → s.dev.num .portState p.val = 4 →
      (s.dev.num .pwrState = 2 → exec (.ethRxFrame p f fault) s = .next (s.after [.count .pwrSleepDiscards 0 0 1])) ∧
      (s.dev.num .pwrState ≠ 2 →
        (n < 64 → exec (.ethRxFrame p f fault) s = .next (s.after [mac 6])) ∧
        (64 ≤ n → s.dev.num .portMaxFrame p.val < n → exec (.ethRxFrame p f fault) s = .next (s.after [mac 7])) ∧
        (64 ≤ n → n ≤ s.dev.num .portMaxFrame p.val → leNat (f.data.drop (n - 4)) ≠ crcFcs b →
          exec (.ethRxFrame p f fault) s = .next (s.after [mac 5])) ∧
        (64 ≤ n → n ≤ s.dev.num .portMaxFrame p.val → leNat (f.data.drop (n - 4)) = crcFcs b →
          (beAt b 12 2 = 0x8808 → exec (.ethRxFrame p f fault) s = .next (s.after [mac 8])) ∧
          (beAt b 12 2 ≠ 0x8808 → s.dev.num .portMacsecEnable p.val = 0 → bitOf (s.dev.num .timePortPtp 0 p.val) 0 = false →
            s.dev.num .portLldpMode p.val = 0 → s.dev.portPresent p.val = true → s.dev.portClosed p.val = false → s.dev.inRun →
            s.dev.ingressCells p.val + cellsOf b ≤ s.dev.ingressShare p.val →
            ∃ t, exec (.ethRxFrame p f fault) s = .next t ∧ t.pending = s.pending ∧
              (∃ w, t.dev.fwd.waiting = s.dev.fwd.waiting ++ [w] ∧ w.port = p.val ∧ w.data = b) ∧
              ((s.dev.oct .portMacCounters p.val).length = 200 →
                beAt (t.dev.oct .portMacCounters p.val) 0 8 = satAdd 64 (beAt (s.dev.oct .portMacCounters p.val) 0 8) 1 ∧
                beAt (t.dev.oct .portMacCounters p.val) 8 8 = satAdd 64 (beAt (s.dev.oct .portMacCounters p.val) 8 8) n)))))) ∧
  (∀ (s : State) (p : Fin 96) (off : Fin 1000) (lat : BitVec 16) (fault : Bool), s.Inv →
    ((s.dev.prt p.val).egress = [] ∨ s.dev.num .portState p.val ≠ 4 → exec (.ethTxFrame p off lat fault) s = .next s) ∧
    (∀ (q : QPkt) (rest : List QPkt) (c : List Byte) (left : Eff), (s.dev.prt p.val).egress = q :: rest → s.dev.answers = true →
      s.dev.num .portState p.val = 4 → s.dev.num .portMacsecEnable p.val = 0 → c = s.dev.oct .portMacCounters p.val →
      left = .port p.val (fun y => { y with egress := rest }) →
      (s.dev.num .portMaxFrame p.val < max 60 q.out.length + 4 → exec (.ethTxFrame p off lat fault) s = .next (s.after
        [left, .obj .portMacCounters p.val 0 (.oct (patch c 168 (beBytes 8 (satAdd 64 (beAt c 168 8) 1))))])) ∧
      (max 60 q.out.length + 4 ≤ s.dev.num .portMaxFrame p.val → ∀ b : List Byte, b = padTo (max 60 q.out.length) q.out →
        (q.bad = true → exec (.ethTxFrame p off lat fault) s = .next (s.after
          [left, .obj .portMacCounters p.val 0 (.oct (patch c 160 (beBytes 8 (satAdd 64 (beAt c 160 8) 1)))),
           .out ⟨.frame, p.val, 0, b ++ leBytes 4 (0xFFFFFFFF - crcFcs b)⟩])) ∧
        (q.bad = false → s.dev.num .timePortPtp 0 p.val = 0 → ∃ t, exec (.ethTxFrame p off lat fault) s = .next t ∧
          t.pending = s.pending ∧ (t.dev.prt p.val).egress = rest ∧
          t.dev.outs = ⟨.frame, p.val, 0, b ++ leBytes 4 (crcFcs b)⟩ :: s.dev.outs))))

/-- Bundle states (R408 to R412). -/
def Obligations.BundleStates : Prop :=
  (∀ (s : State) (o : Origin) (g : Fin 12) (v : BitVec 8), s.Inv →
    (s.dev.admits (writeReq o .fabEnable g.val 0 (.num v.toNat)) → v.toNat ≤ 1 → ∃ t, exec (.fabEnableWrite o g v) s = .next t ∧
      t.pending = s.pending ∧ t.dev.num .fabEnable g.val = v.toNat ∧
      t.dev.num .fabState g.val = (if v = 1 then (if s.dev.num .fabState g.val = 0 then 2 else s.dev.num .fabState g.val)
        else if s.dev.num .fabState g.val = 1 then 1 else 0) ∧
      (t.dev.num .fabState g.val ≠ s.dev.num .fabState g.val → t.dev.raisedEvent (320 + g.val) 1 g.val)) ∧
    (s.dev.admits (execReq o .fabRestart g.val 0 true (.oct [])) →
      (s.dev.num .fabState g.val ≤ 1 → exec (.fabRestart o g) s =
        .next (s.refusedWith (execReq o .fabRestart g.val 0 true (.oct [])).call [] 0x0401)) ∧
      (2 ≤ s.dev.num .fabState g.val → ∃ t, exec (.fabRestart o g) s = .next t ∧ t.pending = s.pending ∧
        t.dev.num .fabState g.val = 2))) ∧
  (∀ (s : State) (g : Fin 12), s.Inv → s.dev.answers = true → ∀ (st : Nat) (cnt : Nat → Eff), st = s.dev.num .fabState g.val →
    (∀ k, cnt k = .obj .fabCounters g.val 0 (.oct (patch (s.dev.oct .fabCounters g.val) (8 * k)
      (beBytes 8 (satAdd 64 (beAt (s.dev.oct .fabCounters g.val) (8 * k) 8) 1))))) →
    (∀ (lanes : List FabLane) (mask : Nat), mask = laneMask (lanesAligned lanes) →
      (st ≠ 2 → st ≠ 3 → st ≠ 5 → exec (.fabAligned g lanes) s = .next s) ∧
      (st = 2 ∨ st = 3 ∨ st = 5 → ∃ t, exec (.fabAligned g lanes) s = .next t ∧ t.pending = s.pending ∧
        (t.dev.bnd g.val).aligned = mask ∧ (t.dev.bnd g.val).route = lanesAligned lanes ∧ (t.dev.bnd g.val).place = 0 ∧
        (∀ k x, k < 8 → lanes[k]? = some x → t.dev.num .lnFom g.val k = fomOf x.fom) ∧
        (st = 2 → mask % 16 = 15 ∨ mask / 16 % 16 = 15 → t.dev.num .fabState g.val = 3 ∧ (t.dev.bnd g.val).epoch ≠ 0 ∧
          (t.dev.bnd g.val).epoch = (if ((s.dev.bnd g.val).epoch + 1) % 65536 = 0 then 1 else ((s.dev.bnd g.val).epoch + 1) % 65536) ∧
          t.dev.raisedEvent (320 + g.val) 1 g.val) ∧
        (st = 2 → mask % 16 ≠ 15 → mask / 16 % 16 ≠ 15 → t.dev.num .fabState g.val = 2) ∧
        (st ≠ 2 → t.dev.num .fabState g.val = st))) ∧
    (st = 2 → exec (.fabAlignTimeout g) s = .next (s.after [cnt 10])) ∧
    (st ≠ 2 → exec (.fabAlignTimeout g) s = .next s) ∧
    (st ≠ 3 → exec (.fabHelloTimeout g) s = .next s) ∧
    (st ≠ 5 → exec (.fabRebuildTimeout g) s = .next s) ∧
    (st = 3 → exec (.fabHelloTimeout g) s = .next (s.after [.obj .fabState g.val 0 (.num 2),
      .raise (320 + g.val) 1 g.val (top8 2 + 3 * 65536 + 3 * 256) 0])) ∧
    (st = 5 → ∃ t, exec (.fabRebuildTimeout g) s = .next t ∧ t.pending = s.pending ∧ t.dev.num .fabState g.val = 2 ∧
      (t.dev.bnd g.val).tx = [] ∧ (t.dev.bnd g.val).opens = [] ∧ t.dev.raisedEvent (320 + g.val) 1 g.val) ∧
    (st = 4 → ∀ down : State → Nat → Prop,
      (∀ t mask, down t mask ↔ (t.pending = s.pending ∧ t.dev.num .fabState g.val = 5 ∧ (t.dev.bnd g.val).aligned = mask ∧
        (t.dev.bnd g.val).tx = [] ∧ (t.dev.bnd g.val).opens = [] ∧ t.dev.raisedEvent (320 + g.val) 1 g.val ∧
        ((s.dev.oct .fabCounters g.val).length = 96 →
          beAt (t.dev.oct .fabCounters g.val) 72 8 = satAdd 64 (beAt (s.dev.oct .fabCounters g.val) 72 8) 1))) →
      (∀ lane : Fin 8, bitOf (s.dev.fabLanes g.val) (s.dev.fabLaneId g.val lane.val) = true → ∃ t,
        exec (.fabLaneLoss g lane false) s = .next t ∧
        down t (putBit (s.dev.bnd g.val).aligned (s.dev.fabLaneId g.val lane.val) false)) ∧
      (∃ t, exec (.fabClockLoss g) s = .next t ∧ down t 0)) ∧
    (∀ lane : Fin 8, 2 ≤ st → st ≠ 4 ∨ bitOf (s.dev.fabLanes g.val) (s.dev.fabLaneId g.val lane.val) = false →
      exec (.fabLaneLoss g lane false) s = .next (s.after
        [.fab g.val fun b => { b with aligned := putBit b.aligned (s.dev.fabLaneId g.val lane.val) false }])) ∧
    (2 ≤ st → st ≠ 4 → exec (.fabClockLoss g) s = .next (s.after [.fab g.val fun b => { b with aligned := 0 }])) ∧
    (∀ (lane : Fin 8) (blocks : Bool), st ≤ 1 → exec (.fabLaneLoss g lane blocks) s = .next s ∧ exec (.fabClockLoss g) s = .next s))

/-- The handshake and cells of a bundle (R400 to R410). -/
def Obligations.BundleCells : Prop :=
  ∀ (s : State) (g : Fin 12), s.Inv → s.dev.answers = true → ∀ (st : Nat) (b : Bundle) (cnt : Nat → List Byte → Eff) (ctrl : Nat → List Byte → List Eff),
    st = s.dev.num .fabState g.val → b = s.dev.bnd g.val →
    (∀ k c, cnt k c = .obj .fabCounters g.val 0 (.oct (patch c (8 * k) (beBytes 8 (satAdd 64 (beAt c (8 * k) 8) 1))))) →
    (∀ lanes m, ctrl lanes m = [.out ⟨.cell, 96 + g.val, lanes, stripePlace (s.dev.striped g.val lanes) b.place ++
      cellBytes 2 0 true true m.length b.report (SMap.get 0 b.freed b.report) b.epoch m⟩, .fab g.val Bundle.afterCell]) →
    (st = 3 ∨ st = 5 → b.aligned ≠ 0 → exec (.fabHelloTx g) s = .next (s.after (ctrl b.aligned (s.dev.helloMsg g.val)))) ∧
    (st ≠ 3 → st ≠ 5 → exec (.fabHelloTx g) s = .next s) ∧
    (st = 4 → exec (.fabCreditSyncTx g) s = .next (s.after (ctrl (s.dev.fabLanes g.val) (s.dev.syncMsg g.val)))) ∧
    (st ≠ 4 → exec (.fabCreditSyncTx g) s = .next s) ∧
    (∀ m : List Byte, m.length = 50 → beAt m 0 1 = 1 → st = 3 ∨ st = 5 →
      ∀ noted : List Eff, noted = [.fab g.val (fun x => { x with seen := beAt m 2 2 }),
        .fab g.val (fun x => { x with hello := m, resolved := none }), .obj .fabPeerId g.val 0 (.num (beAt m 4 8))] →
      (beAt m 48 2 ≠ b.epoch ∨ s.dev.resolve g.val m = none → exec (.fabHelloRx g m) s = .next (s.after noted)) ∧
      (∀ r, beAt m 48 2 = b.epoch → s.dev.resolve g.val m = some r → exec (.fabHelloRx g m) s = .next (s.after (noted ++
        [.fab g.val fun x => { x with resolved := some r }] ++ ctrl b.aligned (confirmMsg b.epoch r.1 r.2))))) ∧
    (∀ m : List Byte, m.length = 12 → beAt m 0 1 = 2 → st = 3 ∨ st = 5 →
      (∀ r, b.resolved = some r → r = (beAt m 4 1, beAt m 5 2) → ∃ t, exec (.fabConfirmRx g m) s = .next t ∧ t.pending = s.pending ∧
        t.dev.num .fabState g.val = 4 ∧ (t.dev.bnd g.val).inForce = beAt b.hello 2 2 ∧ t.dev.raisedEvent (320 + g.val) 1 g.val ∧
        t.dev.num .fabResolved g.val = r.1 * 2 ^ 24 + r.2 % 256 * 2 ^ 16 + beAt b.hello 2 2 ∧
        ∀ c < 16, t.dev.num .fabTxCredits g.val c = beAt b.hello (16 + 2 * c) 2) ∧
      (∀ r, b.resolved = some r → r ≠ (beAt m 4 1, beAt m 5 2) → exec (.fabConfirmRx g m) s = .next (s.after
        [.fab g.val fun x => { x with epoch := nextEpoch x.epoch, resolved := none }])) ∧
      (b.resolved = none → exec (.fabConfirmRx g m) s = .next s)) ∧
    (∀ m : List Byte, m.length = 48 → beAt m 0 1 = 3 →
      (beAt m 2 2 ≠ b.inForce → exec (.fabCreditSyncRx g m) s = .next (s.after [cnt 6 (s.dev.oct .fabCounters g.val)])) ∧
      (beAt m 2 2 = b.inForce → st = 4 → exec (.fabCreditSyncRx g m) s = .next (s.after ((List.range 16).map fun c =>
        .fab g.val fun x => { x with
          rx := SMap.upd 0 c (· + (beAt m (16 + 2 * c) 2 + 65536 - SMap.get 0 x.rx c % 65536) % 65536) x.rx
          freed := SMap.upd 0 c (· + (beAt m (16 + 2 * c) 2 + 65536 - SMap.get 0 x.rx c % 65536) % 65536) x.freed })))) ∧
    (∀ (x c : List Byte) (h : Nat), x.length = 256 → h = beAt x 0 8 → c = s.dev.oct .fabCounters g.val →
      (st ≤ 1 → exec (.fabCellRx g x) s = .next s) ∧
      (2 ≤ st → h % 2 ^ 16 ≠ crc16 (x.take 6) → exec (.fabCellRx g x) s = .next (s.after [cnt 4 c])) ∧
      (st = 4 → h % 2 ^ 16 = crc16 (x.take 6) →
        ∀ (cc cum new cls : Nat), cc = h / 2 ^ 44 % 16 → cum = h / 2 ^ 32 % 4096 → cls = h / 2 ^ 58 % 16 →
        new = s.dev.num .fabTxCredits g.val cc + (cum + 4096 - SMap.get 0 b.cum cc % 4096) % 4096 →
        (SMap.get 0 b.adv cc < new → ∃ t, exec (.fabCellRx g x) s = .next t ∧ t.pending = s.pending ∧ t.dev.num .fabState g.val = 5 ∧
          t.dev.raisedEvent (320 + g.val) 2 g.val ∧ t.dev.raisedEvent (320 + g.val) 1 g.val) ∧
        (new ≤ SMap.get 0 b.adv cc → SMap.get [] b.tx cc = [] → ∀ credit : List Eff,
          credit = [.obj .fabTxCredits g.val cc (.num new), .fab g.val fun y => { y with cum := SMap.put 0 cc cum y.cum }] →
          (h / 2 ^ 62 = 0 → cellReserved h = false → h / 2 ^ 28 % 16 = b.inForce % 16 →
            exec (.fabCellRx g x) s = .next (s.after credit)) ∧
          (h / 2 ^ 62 = 0 → cellReserved h = true ∨ h / 2 ^ 28 % 16 ≠ b.inForce % 16 →
            exec (.fabCellRx g x) s = .next (s.after (credit ++ [cnt 6 c]))) ∧
          (∀ seen : List Eff, h / 2 ^ 62 = 1 → cellReserved h = false → h / 2 ^ 28 % 16 = b.inForce % 16 →
            seen = credit ++ [cnt 1 c, .fab g.val fun y => { y with rx := SMap.upd 0 cls (· + 1) y.rx }] →
            (crc32c (x.take 252) = beAt x 252 4 →
              (bitOf h 57 = decide (SMap.get 0 b.cells cls ≠ 0) ∨ SMap.get 0 b.cells cls = 68 → ∃ t,
                exec (.fabCellRx g x) s = .next t ∧ t.pending = s.pending ∧ t.dev.fwd = s.dev.fwd ∧
                (t.dev.bnd g.val).opens = SMap.put [] cls [] b.opens ∧ (c.length = 96 →
                  beAt (t.dev.oct .fabCounters g.val) 56 8 = satAdd 64 (beAt c 56 8) 1)) ∧
              (bitOf h 57 = decide (SMap.get 0 b.cells cls = 0) → SMap.get 0 b.cells cls ≠ 68 → bitOf h 56 = false →
                exec (.fabCellRx g x) s = .next (s.after (seen ++ [.fab g.val fun y => { y with
                  opens := SMap.upd [] cls (· ++ slice x 8 244) y.opens, cells := SMap.upd 0 cls (· + 1) y.cells
                  held := SMap.upd 0 cls (· + 1) y.held }]))) ∧
              (bitOf h 57 = true → bitOf h 56 = true → SMap.get 0 b.cells cls = 0 → b.opens = [] →
                s.dev.portPresent (96 + g.val) = true → s.dev.portClosed (96 + g.val) = false → s.dev.inRun →
                s.dev.ingressCells (96 + g.val) + cellsOf (slice x 8 (h / 2 ^ 48 % 256)) ≤ s.dev.ingressShare (96 + g.val) →
                ∃ t w, exec (.fabCellRx g x) s = .next t ∧ t.pending = s.pending ∧ t.dev.fwd.waiting = s.dev.fwd.waiting ++ [w] ∧
                  w.port = 96 + g.val)) ∧
            (crc32c (x.take 252) ≠ beAt x 252 4 → ∃ t, exec (.fabCellRx g x) s = .next t ∧ t.pending = s.pending ∧
              t.dev.fwd = s.dev.fwd ∧ (t.dev.bnd g.val).opens = SMap.put [] cls [] b.opens ∧ (c.length = 96 →
                beAt (t.dev.oct .fabCounters g.val) 40 8 = satAdd 64 (beAt c 40 8) 1))))))

/-- Ingress and dispatch (R25, R38, R415, R416, R418). -/
def Obligations.CarouselIntake : Prop :=
  (∀ (s : State) (a : Arrival) (p : Nat) (freed : List Eff), s.Inv → a.wf = true → s.dev.answers = true → s.dev.inRun →
    p = s.dev.entryPort a.port.val →
    freed = (if 96 ≤ p ∧ p < 108 then [.fab (p - 96) fun b => { b with
      freed := SMap.upd 0 a.cls.val (· + ceilDiv a.data.length 244) b.freed
      held := SMap.upd 0 a.cls.val (· - ceilDiv a.data.length 244) b.held }] else []) →
    (a.port.val < 108 ∨ 112 ≤ a.port.val ∨ s.dev.lead (a.port.val - 108) = a.port.val - 108 → p = a.port.val) ∧
    (s.dev.portPresent p = false → exec (.packetIngress a) s = .next s) ∧
    (s.dev.portPresent p = true →
      (s.dev.portClosed a.port.val = true → exec (.packetIngress a) s = .next (s.after freed)) ∧
      (s.dev.portClosed a.port.val = false →
        (s.dev.ingressShare p < s.dev.ingressCells p + cellsOf a.data → exec (.packetIngress a) s = .next (s.after
          ([.count .carIngressOverruns 0 p 1, .raise 337 0 p 0 0] ++ freed))) ∧
        (s.dev.ingressCells p + cellsOf a.data ≤ s.dev.ingressShare p → exec (.packetIngress a) s = .next (s.after [.fwd fun f =>
          { f with count := f.count + 1, waiting := f.waiting ++ [⟨f.count, p, a.tc.val, 0, 0, a.cfgEpoch.toNat,
            a.tblEpoch.toNat, a.ipBad, a.l4Bad, a.stream.map (fun x => (p - 108, x.toNat)), a.circuit.val, a.start.val, a.cls.val,
            a.data, none⟩] }]))))) ∧
  (∀ (d : Dev) (p tc start : Nat) (b : List Byte),
    ((96 ≤ p ∧ p < 108) ∨ (112 ≤ p ∧ p < 116) → d.ingressTc p tc start b = tc) ∧
    (p < 96 ∨ (108 ≤ p ∧ p < 112) ∨ 116 ≤ p →
      (d.num .carPortTc 0 p / 64 = 0 → d.ingressTc p tc start b = d.num .carPortTc 0 p % 8) ∧
      (d.num .carPortTc 0 p / 64 = 1 → ∀ t rest, (parse d.parseCfg start b).tags = t :: rest →
        d.ingressTc p tc start b = beAt b t.off 2 / 8192) ∧
      (d.num .carPortTc 0 p / 64 = 1 → (parse d.parseCfg start b).tags = [] →
        d.ingressTc p tc start b = d.num .carPortTc 0 p % 8))) ∧
  (∀ s : State, s.Inv → s.dev.answers = true → ∀ (f : Fwd) (deal : Pkt → Nat → Nat → Nat → Eff), f = s.dev.fwd →
    (∀ x turn left c, deal x turn left c =
      let epoch := if x.stream.isSome then x.cfgEpoch else s.dev.cfg.epoch
      let y : Pkt := { x with tc := (s.dev.asOf epoch).ingressTc x.port x.tc x.start x.data }
      .fwd fun f => { f with
        waiting := f.waiting.filter fun z => z.id != x.id
        flight := f.flight ++ [{ y with
          seq := SMap.get 0 s.dev.fwd.seqNext y.dom
          cluster := c
          cfgEpoch := epoch
          tblEpoch := if x.stream.isSome then x.tblEpoch else s.dev.num .fwdTableEpoch }]
        cluster := (c + 1) % 4
        turn := turn
        turnLeft := left
        seqNext := SMap.put 0 y.dom (SMap.get 0 s.dev.fwd.seqNext y.dom + 1) f.seqNext }) →
    (f.waiting = [] ∨ (∀ c < 4, 8192 ≤ s.dev.windowUsed c) ∨ s.dev.num .pwrState ≠ 0 → exec .carouselDispatch s = .next s) ∧
    (s.dev.num .pwrState = 0 → ∀ (c k : Nat), k < 4 → c = (f.cluster + k) % 4 → s.dev.windowUsed c < 8192 →
      (∀ j < k, 8192 ≤ s.dev.windowUsed ((f.cluster + j) % 4)) → ∀ (before : List Pkt) (x : Pkt) (after : List Pkt),
      f.waiting = before ++ x :: after → (∀ y ∈ before, y.port ≠ x.port ∧ (116 ≤ x.port → y.port < 116)) →
      (116 ≤ x.port → exec .carouselDispatch s = .next (s.after [deal x f.turn f.turnLeft c])) ∧
      (x.port < 116 → (∀ y ∈ f.waiting, y.port < 116) →
        (x.port = f.turn → 0 < f.turnLeft → exec .carouselDispatch s = .next (s.after [deal x f.turn (f.turnLeft - 1) c])) ∧
        (∀ q < 116, f.turnLeft = 0 ∨ (∀ y ∈ f.waiting, y.port ≠ f.turn) → x.port = (f.turn + 1 + q) % 116 →
          (∀ j < q, ∀ y ∈ f.waiting, y.port ≠ (f.turn + 1 + j) % 116) →
          exec .carouselDispatch s = .next (s.after [deal x x.port (s.dev.num .carPortWeight 0 x.port - 1) c])))))

/-- Finishing and release (R419, R420, R424 to R427, R436). -/
def Obligations.CarouselRelease : Prop :=
  ∀ (s : State) (f : Fwd), s.Inv → s.dev.answers = true → f = s.dev.fwd → ∀ (out : Pkt → List Eff) (rel : Nat → Nat → Eff),
    (∀ p, out p = [.fwd fun f => { f with flight := f.flight.filter fun y => y.id != p.id }] ++
      (if 96 ≤ p.port ∧ p.port < 108 then [.fab (p.port - 96) fun b => { b with
        freed := SMap.upd 0 p.cls (· + ceilDiv p.data.length 244) b.freed
        held := SMap.upd 0 p.cls (· - ceilDiv p.data.length 244) b.held }] else [])) →
    (∀ dom k, rel dom k = .fwd fun f => { f with relNext := SMap.put 0 dom k f.relNext }) →
    (∀ (id : Nat) (sb db : Bool),
      ((∀ y ∈ f.flight, y.id = id → y.done ≠ none) → exec (.packetForward id sb db) s = .next s) ∧
      (∀ (before : List Pkt) (p : Pkt) (after : List Pkt), f.flight = before ++ p :: after → p.id = id → p.done = none →
        (∀ y ∈ before, y.id ≠ id) → (∀ y ∈ f.flight, y.dom = p.dom → y.id ≠ id → y.done = none) →
        ∀ (c : Dev) (r : Parsed) (nxt : Nat) (fates : List Fate) (es : List Eff) (bare : Prop),
          c = s.dev.asOf p.cfgEpoch → r = parse c.parseCfg p.start p.data → nxt = SMap.get 0 f.relNext p.dom →
          (bare ↔ r.excs = [] ∧ bitsOf (c.num .fwdPortCfg 0 p.port) 36 4 = 0) →
          ((∃ e, c.deciding r.excs = some e ∧ c.excDisp e = 1 ∧ fates = [] ∧ es = [.count .prsExcCounts 0 e 1]) ∨
           (∃ e, c.deciding r.excs = some e ∧ c.excDisp e = 0 ∧ ((112 ≤ p.port ∧ p.port ≤ 115) ∨ p.port = 117) ∧ fates = [] ∧
              es = [.count .prsExcCounts 0 e 1, .count .prsHostLoopDrops 0 0 1]) ∨
           (∃ e m, c.deciding r.excs = some e ∧ m = c.num .prsExcMap 0 e ∧ c.excDisp e = 0 ∧ p.port < 112 ∧
              fates = [.host (bitsOf m 6 2) (m % 64) p.tc (slowMeta p (m % 64)) p.data] ∧ es = [.count .prsExcCounts 0 e 1]) ∨
           (bare ∧ c.tcam p r = none ∧ fates = [] ∧ es = [.count .clsNoDestination 0 0 1]) ∨
           (bare ∧ c.tcam p r = some [] ∧ fates = [] ∧ es = [.count .clsNoMatch 0 0 1, .count .clsNoDestination 0 0 1]) ∨
           (bare ∧ c.tcam p r = some (2 ^ 27 :: List.replicate 7 0) ∧ fates = [] ∧ es = []) ∨
           (∃ q, bare ∧ q < 2 ^ 27 ∧ c.tcam p r = some ((4 * 2 ^ 27 + q) :: List.replicate 7 0) ∧ fates = [.port q p.tc (preColour p r) p.data p.data] ∧ es = [])) →
          (fates = [] ∨ nxt < p.seq) → exec (.packetForward id sb db) s = .next (s.after (es ++
            [.fwd fun f => { f with flight := f.flight.map fun y => if y.id = id then { p with done := some fates } else y }] ++
            (if p.seq < nxt then .count .carLateReleases 0 0 1 :: out p
             else if p.seq = nxt then out p ++ [rel p.dom (nxt + 1)] else [rel p.dom nxt]))))) ∧
    (∀ dom : Fin 1024,
      ((∀ y ∈ f.flight, y.dom = dom.val → y.done ≠ none → y.seq < SMap.get 0 f.relNext dom.val) →
        exec (.reorderTimeout dom) s = .next s) ∧
      (∀ p ∈ f.flight, p.dom = dom.val → p.done = some [] → SMap.get 0 f.relNext dom.val ≤ p.seq →
        (∀ y ∈ f.flight, y.dom = dom.val → y.done ≠ none → y = p) → exec (.reorderTimeout dom) s = .next (s.after
          ([.count .carReorderTimeouts 0 0 1, .raise 336 0 dom.val 0 0] ++ out p ++ [rel dom.val (p.seq + 1)]))))

/-- Table commands (R463 to R467). -/
def Obligations.TableCommands : Prop :=
  (∀ (s : State) (o : Origin) (t : Fin 18) (c : List Byte) (x : TblSrc → Instr) (op : Nat), s.Inv →
    (x, op) ∈ [(Instr.tableSearch, 1), (Instr.tableNext, 2), (Instr.tableInsert, 3), (Instr.tableDelete, 4), (Instr.tableFlush, 5),
      (Instr.tableLock, 6), (Instr.tableUnlock, 7)] → (c.headD 0).toNat = op → tblEntry t.val ≠ 0 →
    ∀ (r : Req) (d : Dev) (code st n : Nat) (e : List Byte) (resp : Nat → Nat → Nat → List Byte → List Byte),
      r = execReq o (tblObj t.val) 0 0 true (.oct c) → d = s.dev.taken r.call → code = d.codeOf o.path → st = d.tblRefuse code c →
      n = beAt c 4 4 → e = c.drop 32 → (∀ st ix k y, resp st ix k y = beBytes 1 op ++ beBytes 1 st ++ beBytes 2 t.val ++ beBytes 4 ix ++
        slice c 8 4 ++ beBytes 4 k ++ zeros 16 ++ y) → s.dev.admits r →
      ∀ done : List Eff → List Byte → Host.Outcome State Fault Refusal, (∀ es b, done es b = .next (s.served r.call es b)) →
      (c.length < 32 → exec (x (.exec o t c)) s = .next (s.refusedWith r.call [] 0x0301)) ∧
      (32 ≤ c.length → beAt c 2 2 = t.val → st = 6 → exec (x (.exec o t c)) s = .next (s.refusedWith r.call [] 0x0201)) ∧
      (32 ≤ c.length → beAt c 2 2 = t.val → st ≠ 0 → st ≠ 6 → exec (x (.exec o t c)) s = done [] (resp st 0 0 [])) ∧
      (32 ≤ c.length → beAt c 2 2 ≠ t.val → exec (x (.exec o t c)) s =
        done [] (beBytes 1 op ++ [4] ++ slice c 2 2 ++ zeros 4 ++ slice c 8 4 ++ zeros 20)) ∧
      (32 ≤ c.length → beAt c 2 2 = t.val → st = 0 →
        (op = 1 → tblKeyed t.val = true →
          (∀ y, d.rowSame t.val e = some y → exec (.tableSearch (.exec o t c)) s = done [] (resp 0 y.1 0 y.2)) ∧
          (d.rowSame t.val e = none → exec (.tableSearch (.exec o t c)) s = done [] (resp 1 0 0 []))) ∧
        (op = 1 → t.val ∈ [4, 5, 7, 8] →
          (rowValid t.val (d.row t.val n) = true → exec (.tableSearch (.exec o t c)) s = done [] (resp 0 n 0 (d.row t.val n))) ∧
          (rowValid t.val (d.row t.val n) = false → exec (.tableSearch (.exec o t c)) s = done [] (resp 1 0 0 []))) ∧
        (op = 1 → t.val = 16 → d.row 16 n ≠ [] → exec (.tableSearch (.exec o t c)) s = done [] (resp 0 n 0
          (patch (patch (d.row 16 n) 20 (beBytes 4 ((SMap.get Meter.none d.tm.meters n).c / 65536))) 24
            (beBytes 4 ((SMap.get Meter.none d.tm.meters n).e / 65536))))) ∧
        (op = 1 → t.val = 17 → exec (.tableSearch (.exec o t c)) s = done [] (resp 0 n 0 (padTo 16 (d.row 17 n)))) ∧
        (op = 2 → t.val = 17 →
          (n = 0xFFFFFFFF → exec (.tableNext (.exec o t c)) s = done [] (resp 0 0 0 (padTo 16 (d.row 17 0)))) ∧
          (n ≠ 0xFFFFFFFF → n + 1 < 2097152 →
            exec (.tableNext (.exec o t c)) s = done [] (resp 0 (n + 1) 0 (padTo 16 (d.row 17 (n + 1))))) ∧
          (n ≠ 0xFFFFFFFF → 2097152 ≤ n + 1 → exec (.tableNext (.exec o t c)) s = done [] (resp 1 0xFFFFFFFF 0 []))) ∧
        (op = 2 → t.val < 16 →
          (∀ before y after, d.rows t.val = before ++ y :: after → rowValid t.val y.2 = true → (n = 0xFFFFFFFF ∨ n < y.1) →
            (∀ z ∈ before, rowValid t.val z.2 = false ∨ (n ≠ 0xFFFFFFFF ∧ z.1 ≤ n)) →
            exec (.tableNext (.exec o t c)) s = done [] (resp 0 y.1 0 y.2)) ∧
          ((∀ z ∈ d.rows t.val, rowValid t.val z.2 = false ∨ (n ≠ 0xFFFFFFFF ∧ z.1 ≤ n)) →
            exec (.tableNext (.exec o t c)) s = done [] (resp 1 0xFFFFFFFF 0 []))) ∧
        (op = 3 → t.val ∈ [4, 5, 7, 8] → exec (.tableInsert (.exec o t c)) s = done [.tbl (tblKey t.val n) e] (resp 0 n 0 [])) ∧
        (op = 3 → t.val = 16 → ∀ m : List Byte, m = patch e 20 (zeros 8) → exec (.tableInsert (.exec o t c)) s = done
          [.tbl (tblKey 16 n) m, .tm fun x => { x with
            meters := SMap.put Meter.none n ⟨beAt m 12 4 * 65536, beAt m 16 4 * 65536, d.nowNs⟩ x.meters }] (resp 0 n 0 [])) ∧
        (op = 3 → t.val = 17 → exec (.tableInsert (.exec o t c)) s =
          done [.tbl (tblKey 17 n) (if e.all (· == 0) then [] else e)] (resp 0 n 0 [])) ∧
        (op = 3 → tblKeyed t.val = true → ∀ y, d.rowClash t.val e = some y → bitOf (beAt c 1 1) 7 = false →
          exec (.tableInsert (.exec o t c)) s = done [] (resp 2 y.1 0 [])) ∧
        (op = 3 → t.val = 2 ∨ t.val = 3 → rowValid t.val e = true →
          (∀ y, d.rowClash t.val e = some y → bitOf (beAt c 1 1) 7 = true →
            exec (.tableInsert (.exec o t c)) s = done [.tbl (tblKey t.val y.1) e] (resp 0 y.1 0 [])) ∧
          (d.rowClash t.val e = none → d.tblCap t.val ≤ (d.rows t.val).length →
            exec (.tableInsert (.exec o t c)) s = done [.raise 353 0 0xFFFFFF 0 0] (resp 3 0 0 [])) ∧
          (∀ k, d.rowClash t.val e = none → (d.rows t.val).length < d.tblCap t.val → (∀ j < k, d.row t.val j ≠ []) →
            d.row t.val k = [] → exec (.tableInsert (.exec o t c)) s = done [.tbl (tblKey t.val k) e] (resp 0 k 0 []))) ∧
        (op = 3 → t.val = 6 → rowValid 6 e = true → d.rowClash 6 e = none → (d.rows 6).length < d.tblCap 6 → ∀ k, (∀ j < k, d.row 6 j ≠ []) →
          d.row 6 k = [] → exec (.tableInsert (.exec o t c)) s = done
            [.tbl (tblKey 6 k) (beBytes 8 (putBit (beAt e 0 8) 62 (code != 0x0200)) ++ e.drop 8)] (resp 0 k 0 [])) ∧
        (op = 3 → t.val = 1 → rowValid 1 e = true → d.rowClash 1 e = none → d.fwd.stashHot = false →
          (∀ y ∈ d.rows 1, y.1 < 2 ^ 31) → ∀ before k after, d.bucket 0 (e.take 16) = before ++ k :: after →
          (∀ j ∈ before, d.row 1 j ≠ []) → d.row 1 k = [] → exec (.tableInsert (.exec o t c)) s =
            done [.tbl (tblKey 1 k) (patch e 28 (beBytes 4
              (putBits (putBit (beAt e 28 4) 27 false) 19 8 (d.num .fwdAgeNow))))] (resp 0 k 0 [])) ∧
        (op = 4 → t.val = 2 ∨ t.val = 3 ∨ t.val = 6 →
          (∀ y, d.rowSame t.val e = some y →
            exec (.tableDelete (.exec o t c)) s = done [.tbl (tblKey t.val y.1) []] (resp 0 y.1 0 [])) ∧
          (d.rowSame t.val e = none → exec (.tableDelete (.exec o t c)) s = done [] (resp 1 0 0 []))) ∧
        (op = 4 → t.val = 1 → d.fwd.stashHot = false → d.fwd.limitHot = [] → (∀ y ∈ d.rows 1, y.1 < 2 ^ 31) →
          d.num .fwdSubLearnLimit = 0 → (∀ q < 128, d.num .fwdPortLearnLimit 0 q = 0) →
          (∀ y, d.rowSame 1 e = some y →
            exec (.tableDelete (.exec o t c)) s = done [.tbl (tblKey 1 y.1) []] (resp 0 y.1 0 [])) ∧
          (d.rowSame 1 e = none → exec (.tableDelete (.exec o t c)) s = done [] (resp 1 0 0 []))) ∧
        (op = 4 → t.val ∈ [4, 5, 7, 8, 16, 17] →
          (rowValid t.val (d.row t.val n) = true →
            exec (.tableDelete (.exec o t c)) s = done [.tbl (tblKey t.val n) []] (resp 0 n 0 [])) ∧
          (rowValid t.val (d.row t.val n) = false → exec (.tableDelete (.exec o t c)) s = done [] (resp 1 0 0 []))) ∧
        (op = 5 → d.fwd.stashHot = false → d.fwd.limitHot = [] → (∀ y ∈ d.rows 1, y.1 < 2 ^ 31) → d.num .fwdSubLearnLimit = 0 →
          (∀ q < 128, d.num .fwdPortLearnLimit 0 q = 0) → exec (.tableFlush (.exec o t c)) s = .next (s.owing r.call
            ((d.flushSet c).map (fun y => .tbl (tblKey 1 y.1) []) ++
              [.fwd fun f => { f with flushes := f.flushes ++ [⟨.call r.call, c, (d.flushSet c).length⟩] }]))) ∧
        (op = 6 → exec (.tableLock (.exec o t c)) s =
          done [.fwd fun f => { f with locks := SMap.put 0 t.val (code + 1) f.locks }] (resp 0 0 0 [])) ∧
        (op = 7 → exec (.tableUnlock (.exec o t c)) s =
          done [.fwd fun f => { f with locks := SMap.put 0 t.val 0 f.locks }] (resp 0 0 0 [])))) ∧
  (∀ (s : State) (r : Fin 4096), s.Inv → (s.dev.ringSt r.val).posted = [] ∨ s.dev.respRing r.val = none →
    ∀ x ∈ [Instr.tableSearch, Instr.tableNext, Instr.tableInsert, Instr.tableDelete, Instr.tableFlush, Instr.tableLock,
      Instr.tableUnlock], exec (x (.ring r)) s = .next s) ∧
  (∀ (s : State) (r q : Fin 4096) (y : Desc) (rest : List Desc) (c e : List Byte) (code t n : Nat), s.Inv →
    (s.dev.ringSt r.val).posted = y :: rest → (s.dev.ringSt r.val).kind = 3 → s.dev.ringLive r.val = true → s.dev.descFate r.val y = 0 →
    s.dev.respRing r.val = some q.val → (s.dev.ringSt q.val).posted ≠ [] → (∀ f ∈ s.dev.fwd.flushes, f.src ≠ .ring r.val) →
    c = y.buf.take (descSize y) → code = 0x0100 + s.dev.ringFn r.val → t = beAt c 2 2 → n = beAt c 4 4 → e = c.drop 32 →
    s.dev.tblRefuse code c = 0 → ∀ runs : Instr → (State → Prop) → Prop,
    (∀ i P, runs i P ↔ ∃ u, exec i s = .next u ∧ u.pending = s.pending ∧ P u) →
      (beAt c 0 1 = 1 → runs (.tableSearch (.ring r)) fun u => u.dev.tbl = s.dev.tbl ∧ u.dev.fwd = s.dev.fwd) ∧
      (beAt c 0 1 = 2 → runs (.tableNext (.ring r)) fun u => u.dev.tbl = s.dev.tbl ∧ u.dev.fwd = s.dev.fwd) ∧
      (beAt c 0 1 = 3 → t ∈ [4, 5, 7, 8] → runs (.tableInsert (.ring r)) fun u => u.dev.row t n = e) ∧
      (beAt c 0 1 = 4 → t ∈ [4, 5, 7, 8, 16, 17] → rowValid t (s.dev.row t n) = true →
        runs (.tableDelete (.ring r)) fun u => u.dev.row t n = []) ∧
      (beAt c 0 1 = 5 → runs (.tableFlush (.ring r)) fun u =>
        u.dev.fwd.flushes = s.dev.fwd.flushes ++ [⟨.ring r.val, c, (s.dev.flushSet c).length⟩]) ∧
      (beAt c 0 1 = 6 → runs (.tableLock (.ring r)) fun u => SMap.get 0 u.dev.fwd.locks t = code + 1) ∧
      (beAt c 0 1 = 7 → runs (.tableUnlock (.ring r)) fun u => SMap.get 0 u.dev.fwd.locks t = 0)) ∧
  (∀ s : State, s.Inv → s.dev.answers = true → (s.dev.fwd.flushes = [] → exec .flushComplete s = .next s) ∧
    (∀ (c : Call) (cmd : List Byte) (k : Nat) (rest : List Flush), s.dev.fwd.flushes = ⟨.call c, cmd, k⟩ :: rest →
      exec .flushComplete s = .next { s with dev := (respond c 0 (beBytes 1 (beAt cmd 0 1) ++ [0] ++ beBytes 2 (beAt cmd 2 2) ++ zeros 4 ++
        slice cmd 8 4 ++ beBytes 4 k ++ zeros 16)).run (s.dev.after [.fwd fun f => { f with flushes := f.flushes.tail },
          .raise 352 0 0xFFFFFF (beAt cmd 12 4) k]) }))

/-- Learning, aging, scrubbing, carvings and epochs (R447, R448, R457 to R460, R469, R470). -/
def Obligations.TablesAlone : Prop :=
  (∀ s : State, s.Inv → s.dev.answers = true → (s.dev.fwd.learns = [] → exec .learnInsert s = .next s) ∧
    (∀ (l : Learn) (rest : List Learn) (x : Dev) (e : List Byte) (took : Eff) (drop : Nat → List Eff), s.dev.fwd.learns = l :: rest →
      x = s.dev.asOf l.cfgEpoch →
      bitOf (s.dev.num .fwdLearnNotify) 31 = false → e = learnedEntry l (s.dev.num .fwdAgeNow) →
      took = .fwd (fun f => { f with learns := f.learns.tail }) →
      (∀ k, drop k = [.count .fwdLearnDrops 0 0 1, .raise 346 k 0xFFFFFF 0 0]) →
      (l.bd < 4096 → l.mac < 2 ^ 48 → l.port < 112 → beAt e 0 16 = 2 ^ 124 + l.bd * 2 ^ 48 + l.mac ∧ beAt e 16 4 = 0x20000000 + l.port ∧
        emPort e = l.port ∧ emLearned e = true ∧ emStatic e = false ∧ emAge e = s.dev.num .fwdAgeNow % 256) ∧
      (s.dev.num .fwdCarveState = 1 → exec .learnInsert s = .next (s.after [took])) ∧
      (s.dev.num .fwdCarveState ≠ 1 →
        (s.dev.flushing l.port = true → exec .learnInsert s = .next (s.after (took :: drop 4))) ∧
        (s.dev.flushing l.port = false →
          (x.portLimited l.port = true ∨ x.subLimited l.bd = true → exec .learnInsert s = .next (s.after [took])) ∧
          (x.portLimited l.port = false → x.subLimited l.bd = false →
            ((s.dev.rowClash 1 e).isSome → exec .learnInsert s = .next (s.after (took :: drop 3))) ∧
            (s.dev.rowClash 1 e = none → s.dev.emPlace (e.take 16) = none → exec .learnInsert s = .next (s.after
              ([took, .count .fwdInsertFull 0 0 1, .raise 344 0 0xFFFFFF 0 0] ++ drop 2))) ∧
            (∀ k, s.dev.rowClash 1 e = none → s.dev.emPlace (e.take 16) = some (k, []) → k < 2 ^ 31 → s.dev.fwd.stashHot = false →
              (∀ y ∈ s.dev.rows 1, y.1 < 2 ^ 31) → s.dev.fwd.limitHot = [] → s.dev.num .fwdPortLearnLimit 0 l.port = 0 →
              s.dev.num .fwdSubLearnLimit = 0 →
              exec .learnInsert s = .next (s.after [took, .tbl (tblKey 1 k) e, .count .fwdLearns 0 0 1]))))))) ∧
  (∀ (s : State) (now lim : Nat), s.Inv → now = (s.dev.num .fwdAgeNow + 1) % 256 → lim = s.dev.num .fwdAgeLimit → s.dev.answers = true →
    (lim = 0 → exec .ageTick s = .next (s.after [.obj .fwdAgeNow 0 0 (.num now)])) ∧
    (lim ≠ 0 → bitOf (s.dev.num .fwdLearnNotify) 31 = false → s.dev.fwd.stashHot = false → (∀ y ∈ s.dev.rows 1, y.1 < 2 ^ 31) →
      s.dev.fwd.limitHot = [] → s.dev.num .fwdSubLearnLimit = 0 → (∀ q < 128, s.dev.num .fwdPortLearnLimit 0 q = 0) →
      exec .ageTick s = .next (s.after (.obj .fwdAgeNow 0 0 (.num now) ::
        ((s.dev.rows 1).filter fun y => !emStatic y.2 && decide (lim ≤ (now + 256 - emAge y.2) % 256)).flatMap fun y =>
          [.tbl (tblKey 1 y.1) [], .count .fwdAged 0 0 1])))) ∧
  (∀ (s : State) (t : Fin 32) (place : BitVec 32), s.Inv → s.dev.answers = true →
    (s.dev.row t.val place.toNat = [] → exec (.scrubPass t place) s = .next s) ∧
    (s.dev.row t.val place.toNat ≠ [] → tblEntry t.val ≠ 0 → t.val ≠ 1 → bitOf (s.dev.num .fwdLearnNotify) 31 = false →
      exec (.scrubPass t place) s = .next (s.after [.tbl (tblKey t.val place.toNat) [], .count .fwdMemErrors 0 0 1,
        .raise 354 0 0xFFFFFF 0 0]))) ∧
  (∀ (s : State) (o : Origin) (v : BitVec 8) (r : Req), s.Inv → r = writeReq o .fwdCarving 0 0 (.num v.toNat) → s.dev.admits r →
    (3 < v.toNat → exec (.fwdCarvingWrite o v) s = .next (s.refusedWith r.call [] 0x0302)) ∧
    (v.toNat ≤ 3 →
      (v.toNat = s.dev.num .fwdCarving → exec (.fwdCarvingWrite o v) s = .next (s.served r.call [] [])) ∧
      (v.toNat ≠ s.dev.num .fwdCarving → s.dev.num .fwdCarving ≠ 3 →
        (s.dev.num .fwdCarveState = 1 ∨ (∃ k, 1 ≤ k ∧ k ≤ 3 ∧ s.dev.tblLock k ≠ none) →
          exec (.fwdCarvingWrite o v) s = .next (s.refusedWith r.call [] 0x0402)) ∧
        (s.dev.num .fwdCarveState ≠ 1 → (∀ k, 1 ≤ k → k ≤ 3 → s.dev.tblLock k = none) →
          exec (.fwdCarvingWrite o v) s = .next (s.served r.call [.obj .fwdCarveState 0 0 (.num 1),
            .dropTbl (fun k => decide (1 ≤ k / 2 ^ 32) && decide (k / 2 ^ 32 ≤ 3)),
            .fwd (fun f => { f with learns := [], stashHot := false, limitHot := [], carveTo := some v.toNat }),
            .obj .fwdCarving 0 0 (.num v.toNat)] []))))) ∧
  (∀ s : State, s.Inv → s.dev.answers = true → (s.dev.num .fwdCarveState ≠ 1 → exec .carvingComplete s = .next s) ∧
    (s.dev.num .fwdCarveState = 1 → exec .carvingComplete s = .next (s.after [.obj .fwdCarveState 0 0 (.num 0),
      .raise 351 0 0xFFFFFF 0 0, .fwd fun f => { f with carveTo := none }])) ∧
    (s.dev.num .fwdEpochStatus / 2 ^ 24 ≠ 2 ∨ (∃ p ∈ s.dev.fwd.flight, p.tblEpoch < s.dev.num .fwdTableEpoch) →
      exec .epochDrained s = .next s) ∧
    (s.dev.num .fwdEpochStatus / 2 ^ 24 = 2 → (∀ p ∈ s.dev.fwd.flight, s.dev.num .fwdTableEpoch ≤ p.tblEpoch) →
      exec .epochDrained s = .next (s.after [.obj .fwdEpochStatus 0 0 (.num 0x03000000), .raise 350 0 0xFFFFFF 0 0])) ∧
    (s.dev.pendingOn 5 0 = none → exec .tableEpochSwitchFire s = .next s) ∧
    (∀ a, s.dev.pendingOn 5 0 = some a → (s.dev.actTurn a = false → exec .tableEpochSwitchFire s = .next s) ∧
      (s.dev.actTurn a = true → exec .tableEpochSwitchFire s = .next (s.after ([.disarm a.slot,
        .obj .fwdTableEpoch 0 0 (.num ((s.dev.num .fwdTableEpoch + 1) % 2 ^ 32)), .obj .fwdEpochStatus 0 0 (.num 0x02000000)] ++
        if s.dev.actLate a then [.count .rmLate 0 0 1, .raise 435 0 a.slot (top8 a.kind) 0] else []))))) ∧
  (∀ (s : State) (o : Origin) (arg : List Byte) (r : Req), s.Inv → arg.length = 12 →
    r = execReq o .fwdEpochSwitch 0 0 true (.oct arg) → s.dev.admits r →
    (beAt arg 1 1 ≠ 0 ∨ 2 < beAt arg 0 1 → exec (.fwdEpochSwitch o arg) s = .next (s.refusedWith r.call [] 0x0302)) ∧
    (∀ t, beAt arg 1 1 = 0 → parseTrig (beAt arg 0 1) (arg.drop 2) = some t →
      (s.dev.trigAhead (s.dev.num .clkTimingChannel) t = false →
        exec (.fwdEpochSwitch o arg) s = .next (s.refusedWith r.call [] 0x0302)) ∧
      (s.dev.trigAhead (s.dev.num .clkTimingChannel) t = true →
        (s.dev.armConflict 5 0 [Obj.fwdTableEpoch.key 0 0] = true →
          exec (.fwdEpochSwitch o arg) s = .next (s.refusedWith r.call [] 0x0501)) ∧
        (s.dev.armConflict 5 0 [Obj.fwdTableEpoch.key 0 0] = false →
          (s.dev.num .fwdEpochStatus / 2 ^ 24 = 2 → exec (.fwdEpochSwitch o arg) s = .next (s.refusedWith r.call [] 0x0402)) ∧
          (s.dev.num .fwdEpochStatus / 2 ^ 24 ≠ 2 →
            (s.dev.trigUnaligned (s.dev.num .clkTimingChannel) t = true →
              exec (.fwdEpochSwitch o arg) s = .next (s.refusedWith r.call [] 0x0401)) ∧
            (s.dev.trigUnaligned (s.dev.num .clkTimingChannel) t = false → s.dev.acts.length < 256 →
              exec (.fwdEpochSwitch o arg) s = .next (s.served r.call
                [.arm ⟨0, 5, 0, t, o.code.toNat, t == .now, [Obj.fwdTableEpoch.key 0 0], [], 0⟩] [])))))))

/-- Nodes, the scheduler, flush and refill (R475 to R484, R497, R498). -/
def Obligations.QueuesAndNodes : Prop :=
  (∀ (s : State) (o : Origin) (b : List Byte) (x : Instr) (obj : Obj) (ix key level top : Nat) (r : Req) (old : List Byte), s.Inv →
    ((∃ q : Fin 131072, x = .tmQueueCfgWrite o q b ∧ obj = .tmQueueCfg ∧ ix = q.val ∧ key = q.val ∧ level = 0 ∧ top = 32767) ∨
     (∃ q : Fin 32768, x = .tmSubCfgWrite o q b ∧ obj = .tmSubCfg ∧ ix = q.val ∧ key = subKey q.val ∧ level = 1 ∧ top = 4095) ∨
     (∃ q : Fin 4096, x = .tmSvcCfgWrite o q b ∧ obj = .tmSvcCfg ∧ ix = q.val ∧ key = svcKey q.val ∧ level = 2 ∧ top = 115)) →
    r = writeReq o obj 0 ix (.oct b) → s.dev.admits r → old = s.dev.oct obj 0 ix →
    ∀ rate burst : Nat, rate = beAt b 4 4 → burst = beAt b 8 4 →
    (top < beAt b 0 4 ∨ (1 ≤ rate ∧ rate ≤ 7) ∨ 1600000000 < rate ∨ 16777216 < burst ∨ beAt b 12 1 = 0 ∨ beAt b 18 2 ≠ 0 ∨
      (level = 0 ∧ bitOf (beAt b 13 1) 6 = true ∧ (beAt b 16 2 < 16 ∨ 4096 < beAt b 16 2)) ∨
      (level = 2 ∧ bitOf (beAt b 14 2) 15 = true ∧ (beAt b 0 4 < 108 ∨ 111 < beAt b 0 4)) →
      exec x s = .next (s.refusedWith r.call [] 0x0302)) ∧
    (nodeBad level b = false →
      (level = 0 → ((bitOf (beAt b 13 1) 6 = true ∧ s.dev.dramCells = 0) ∨
          (s.dev.queue ix ≠ [] ∧ bitsOf (beAt b 13 1) 3 4 ≠ bitsOf (beAt old 13 1) 3 4)) →
        exec x s = .next (s.refusedWith r.call [] 0x0401)) ∧
      (∀ v, level = 2 → bitOf (beAt b 14 2) 15 = true → 108 ≤ beAt b 0 4 → beAt b 0 4 ≤ 111 → beAt b 14 2 % 16384 ≠ 0x3FFF →
        v < 4096 → v ≠ ix → nodeParent (s.dev.svcRec v) = beAt b 0 4 → bitOf (nodeExtra (s.dev.svcRec v)) 15 = true →
        nodeExtra (s.dev.svcRec v) % 16384 = beAt b 14 2 % 16384 → exec x s = .next (s.refusedWith r.call [] 0x0401)))) ∧
  (∀ (s : State) (o : Origin) (b : List Byte) (rate burst : Nat) (stored : Obj → Nat → Nat → List Eff), s.Inv → rate = beAt b 4 4 →
    burst = beAt b 8 4 →
    (∀ obj ix key, stored obj ix key =
      (if rate = 0 then [] else [.tm fun t => { t with
        shapers := SMap.put Shaper.none key ⟨if beAt (s.dev.oct obj 0 ix) 4 4 = 0 then ((burst * 65536 : Nat) : Int)
          else min ((burst * 65536 : Nat) : Int) (s.dev.credit key (beAt (s.dev.oct obj 0 ix) 4 4) (beAt (s.dev.oct obj 0 ix) 8 4)),
          s.dev.nowNs⟩ t.shapers }]) ++
      (if beAt (s.dev.oct obj 0 ix) 0 4 = beAt b 0 4 then []
        else [.tm fun t => { t with deficits := SMap.drop (fun k => k / 8 == key) t.deficits }]) ++ [.obj obj 0 ix (.oct b)]) →
    (∀ (q : Fin 131072) (r : Req), r = writeReq o .tmQueueCfg 0 q.val (.oct b) → s.dev.admits r → nodeBad 0 b = false →
      (bitOf (beAt b 13 1) 6 = true → s.dev.dramCells ≠ 0) → s.dev.queue q.val = [] →
      exec (.tmQueueCfgWrite o q b) s = .next (s.served r.call (stored .tmQueueCfg q.val q.val) [])) ∧
    (∀ (n : Fin 32768) (r : Req), r = writeReq o .tmSubCfg 0 n.val (.oct b) → s.dev.admits r → nodeBad 1 b = false →
      exec (.tmSubCfgWrite o n b) s = .next (s.served r.call (stored .tmSubCfg n.val (subKey n.val)) [])) ∧
    (∀ (n : Fin 4096) (r : Req), r = writeReq o .tmSvcCfg 0 n.val (.oct b) → s.dev.admits r → nodeBad 2 b = false →
      (beAt b 14 2 = 0 ∨ (bitOf (beAt b 14 2) 15 = true ∧ 108 ≤ beAt b 0 4 ∧ beAt b 0 4 ≤ 111 ∧ beAt b 14 2 % 16384 ≠ 0x3FFF ∧
        ∀ v < 4096, v ≠ n.val → nodeParent (s.dev.svcRec v) = beAt b 0 4 → bitOf (nodeExtra (s.dev.svcRec v)) 15 = true →
          nodeExtra (s.dev.svcRec v) % 16384 ≠ beAt b 14 2 % 16384)) →
      exec (.tmSvcCfgWrite o n b) s = .next (s.served r.call (stored .tmSvcCfg n.val (svcKey n.val)) []))) ∧
  (∀ (s : State) (o : Origin) (p : Fin 128) (b : List Byte) (r : Req), s.Inv → r = writeReq o .tmPortCfg 0 p.val (.oct b) →
    s.dev.admits r →
    ((∃ i, 12 ≤ i ∧ i < 20 ∧ i < b.length ∧ beAt b i 1 = 0) ∨ (65 ≤ beAt b 8 1 ∧ beAt b 8 1 ≤ 191) ∨
        (131064 < beAt b 20 4 ∧ beAt b 20 4 ≠ 0xFFFFFFFF) ∨ (116 ≤ p.val ∧ beAt b 20 4 ≠ 0xFFFFFFFF) →
      exec (.tmPortCfgWrite o p b) s = .next (s.refusedWith r.call [] 0x0302)) ∧
    (beAt b 0 4 = 0 → beAt b 4 4 ≤ 16777216 → beAt b 8 1 ≤ 64 ∨ 192 ≤ beAt b 8 1 → beAt b 10 2 = 0 → beAt b 24 8 = 0 → b.length = 32 →
      (∀ i, 12 ≤ i → i < 20 → beAt b i 1 ≠ 0) → beAt b 20 4 = 0xFFFFFFFF ∨ (beAt b 20 4 ≤ 131064 ∧ p.val < 116) →
      exec (.tmPortCfgWrite o p b) s = .next (s.served r.call [.obj .tmPortCfg 0 p.val (.oct b)] []))) ∧
  (∀ (s : State) (p : Fin 116) (read : Fin 3), s.Inv →
    (108 ≤ p.val → p.val < 112 → exec (.schedulerDequeue p read) s = .next s) ∧
    (s.dev.answers = true → s.dev.num .pwrState = 0 → p.val < 108 ∨ 112 ≤ p.val →
      (96 ≤ p.val ∨ bitOf (s.dev.num .portEeeState p.val) 1 = false) →
      ((∀ q ∈ s.dev.busyQueues, s.dev.portOf q = p.val → s.dev.eligible q = false) →
        exec (.schedulerDequeue p read) s = .next (s.after [.tm fun t => { t with
          deficits := SMap.drop (fun k => !s.dev.deficitStands p.val [] k) t.deficits }])) ∧
      (∀ (q : Nat) (x : QPkt) (rest : List QPkt), s.dev.tm.queues = [(q, x :: rest)] → s.dev.portOf q = p.val →
        s.dev.eligible q = true → s.dev.egressRoom p.val x = true →
        ∃ t, exec (.schedulerDequeue p read) s = .next t ∧ t.pending = s.pending ∧
          t.dev.tm.queues = (if rest = [] then [] else [(q, rest)]) ∧
          (p.val < 96 → (t.dev.prt p.val).egress = (s.dev.prt p.val).egress ++ [{ x with bad := x.bad || read.val == 2 }]) ∧
          (read = 1 → t.dev.num .fltBufCorrected = satAdd 64 (s.dev.num .fltBufCorrected) 1) ∧
          (read = 2 → t.dev.raisedEvent 487 0 0xFFFFFF ∧
            t.dev.num .fltBufUncorrectable = satAdd 32 (s.dev.num .fltBufUncorrectable) 1)))) ∧
  (∀ (s : State) (o : Origin) (a : BitVec 32) (r : Req), s.Inv → r = execReq o .tmQueueFlush 0 0 true (.num a.toNat) → s.dev.admits r →
    (131071 < a.toNat → exec (.tmQueueFlush o a) s = .next (s.refusedWith r.call [] 0x0302)) ∧
    (a.toNat ≤ 131071 → s.dev.queueOn a.toNat = true → exec (.tmQueueFlush o a) s = .next (s.refusedWith r.call [] 0x0401)) ∧
    (∀ l, a.toNat ≤ 131071 → s.dev.queueOn a.toNat = false → l ≠ [] → s.dev.tm.queues = [(a.toNat, l)] →
      ∃ t, exec (.tmQueueFlush o a) s = .next t ∧ t.pending = s.pending ∧ t.dev.tm.queues = [] ∧
        t.dev.num .tmDrops 0 7 = satAdd 64 (s.dev.num .tmDrops 0 7) l.length)) ∧
  (∀ (s : State) (q : Fin 131072) (x : QPkt), s.Inv → s.dev.answers = true → s.dev.tm.queues = [(q.val, [x])] →
    ∃ t, exec (.dramHeadRefill q) s = .next t ∧ t.pending = s.pending ∧
      (x.dram = false → t.dev.tm.queues = s.dev.tm.queues) ∧
      (x.dram = true → s.dev.severed x = true → t.dev.tm.queues = [] ∧ t.dev.num .tmDrops 0 8 = satAdd 64 (s.dev.num .tmDrops 0 8) 1) ∧
      (x.dram = true → s.dev.severed x = false →
        (cellsOf x.data ≤ nodeHead (s.dev.queueRec q.val) → cellsOf x.data ≤ s.dev.sharedFree →
          (x.need = some 0 → t.dev.tm.queues = [(q.val, [{ x with dram := false, cells := [], need := none }])]) ∧
          (∀ k, x.need = some (k + 1) → x.cells ≠ [] → t.dev.tm.queues = s.dev.tm.queues) ∧
          (x.need = none → x.cells ≠ [] → t.dev.tm.queues = [(q.val, [{ x with need := some (4 * x.cells.length) }])] ∧
            ∀ k ∈ x.cells, ∀ j < 4, ∃ y ∈ (t.dev.dsub (k % 8) (s.dev.place (k % 8) (4 * (k / 8) + j)).sub).reqs,
              y.write = false ∧ y.burst = 4 * (k / 8) + j)) ∧
        (nodeHead (s.dev.queueRec q.val) < cellsOf x.data ∨ s.dev.sharedFree < cellsOf x.data → t.dev.tm.queues = s.dev.tm.queues)))

/-- Gate lists (R486 to R488) and snapshots (R500 to R502). -/
def Obligations.GatesAndSnapshots : Prop :=
  (∀ (s : State) (o : Origin) (p : Fin 108) (b : List Byte) (r : Req), s.Inv → r = writeReq o .tmGateAdmin p.val 0 (.oct b) →
    s.dev.admits r →
    (b.length ≠ 24 + 8 * beAt b 0 2 ∨ 1024 < beAt b 0 2 → exec (.tmGateAdminWrite o p b) s = .next (s.refusedWith r.call [] 0x0301)) ∧
    (b.length = 24 + 8 * beAt b 0 2 → beAt b 0 2 ≤ 1024 →
      (beAt b 4 4 < 1000 ∨ 1000000000 < beAt b 4 4 ∨ (∃ i < beAt b 0 2, beAt b (28 + 8 * i) 4 < 8) →
        exec (.tmGateAdminWrite o p b) s = .next (s.refusedWith r.call [] 0x0302)) ∧
      (1000 ≤ beAt b 4 4 → beAt b 4 4 ≤ 1000000000 → beAt b 2 2 = 0 → beAt b 18 6 = 0 →
        (∀ i < beAt b 0 2, 8 ≤ beAt b (28 + 8 * i) 4 ∧ beAt b (25 + 8 * i) 3 = 0) →
        exec (.tmGateAdminWrite o p b) s = .next (s.served r.call [.obj .tmGateAdmin p.val 0 (.oct b)] [])))) ∧
  (∀ (s : State) (o : Origin) (a : List Byte) (r : Req) (p : Nat) (h : List Nat), s.Inv → a.length = 12 → p = beAt a 1 1 →
    h = [Obj.tmGateAdmin.key p 0, Obj.tmGateOper.key p 0, Obj.tmGateState.key p 0] →
    r = execReq o .tmGateSwitch 0 0 true (.oct a) → s.dev.admits r →
    (107 < p ∨ 2 < beAt a 0 1 → exec (.tmGateSwitch o a) s = .next (s.refusedWith r.call [] 0x0302)) ∧
    (∀ t, p ≤ 107 → parseTrig (beAt a 0 1) (a.drop 2) = some t →
      (s.dev.trigAhead (s.dev.num .clkTimingChannel) t = false → exec (.tmGateSwitch o a) s = .next (s.refusedWith r.call [] 0x0302)) ∧
      (s.dev.trigAhead (s.dev.num .clkTimingChannel) t = true →
        (s.dev.armConflict 6 p h = true → exec (.tmGateSwitch o a) s = .next (s.refusedWith r.call [] 0x0501)) ∧
        (s.dev.armConflict 6 p h = false →
          (s.dev.trigUnaligned (s.dev.num .clkTimingChannel) t = true →
            exec (.tmGateSwitch o a) s = .next (s.refusedWith r.call [] 0x0401)) ∧
          (s.dev.trigUnaligned (s.dev.num .clkTimingChannel) t = false → s.dev.acts.length < 256 → exec (.tmGateSwitch o a) s =
            .next (s.served r.call [.arm ⟨0, 6, p, t, o.code.toNat, t == .now, h, [], 0⟩] [])))))) ∧
  (∀ (s : State) (p : Fin 108) (g : List Byte), s.Inv → s.dev.answers = true →
    (∀ sending, s.dev.pendingOn 6 p.val = none → exec (.gateListSwitchFire p sending) s = .next s) ∧
    (∀ a sending, s.dev.pendingOn 6 p.val = some a → s.dev.actTurn a = false → exec (.gateListSwitchFire p sending) s = .next s) ∧
    (∀ a gates, s.dev.pendingOn 6 p.val = some a → s.dev.actTurn a = true → g = s.dev.oct .tmGateAdmin p.val →
      gates = gatesAt g s.dev.nowNs → ∀ (sending : Option (Fin 8)) (past : List Eff),
      (past = [] ∧ (∀ t, sending = some t → bitOf (s.dev.num .tmGateState p.val) t.val = false ∨ bitOf gates t.val = true)) ∨
      (∃ t, sending = some t ∧ bitOf (s.dev.num .tmGateState p.val) t.val = true ∧ bitOf gates t.val = false ∧
        past = [.count .tmGateOverruns 0 0 1, .raise 373 0 p.val (top8 t.val) 0]) →
      exec (.gateListSwitchFire p sending) s = .next (s.after ([.disarm a.slot, .obj .tmGateOper p.val 0 (.oct g),
        .obj .tmGateState p.val 0 (.num gates), .raise 370 0 p.val 0 0] ++ past ++
        if s.dev.actLate a then [.count .rmLate 0 0 1, .raise 435 0 a.slot (top8 a.kind) 0] else []))) ∧
    (∀ (ph : Int) (v : Nat), g = s.dev.oct .tmGateOper p.val →
      ph = ((s.dev.nowNs : Int) - ((beAt g 8 6 * 1000000000 + beAt g 14 4 : Nat) : Int)) % (beAt g 4 4 : Int) →
      (beAt g 0 2 = 0 ∧ v = 0xFF) ∨ (beAt g 0 2 = 1 ∧ 0 < beAt g 4 4 ∧ v = beAt g 24 1) ∨
      (beAt g 0 2 = 2 ∧ beAt g 28 4 < beAt g 4 4 ∧ ph < beAt g 28 4 ∧ v = beAt g 24 1) ∨
      (beAt g 0 2 = 2 ∧ beAt g 28 4 < beAt g 4 4 ∧ beAt g 28 4 ≤ ph ∧ v = beAt g 32 1) →
      exec (.gateIntervalEnd p) s = .next (s.after [.obj .tmGateState p.val 0 (.num v)]))) ∧
  (∀ (s : State) (o : Origin) (a : List Byte) (r : Req) (k n sz : Nat), s.Inv → k = beAt a 1 1 → n = beAt a 3 1 → sz = snapSize a →
    a.length = 16 + 8 * n → r = execReq o .tmSnapRequest 0 0 true (.oct a) → s.dev.admits r →
    (3 < k ∨ 1 < beAt a 2 1 ∨ n = 0 ∨ 8 < n ∨ s.dev.num .tmSnapCells * 256 < sz →
      exec (.tmSnapRequest o a) s = .next (s.refusedWith r.call [] 0x0302)) ∧
    (∀ t (ring : Prop), (ring ↔ isHost o.code.toNat = true ∧ (s.dev.ringSt (beAt a 14 2)).kind = 6 ∧
        s.dev.ringFn (beAt a 14 2) = hostKey o.code.toNat ∧ s.dev.ringLive (beAt a 14 2) = true) →
      k ≤ 3 → 1 ≤ n → n ≤ 8 → (beAt a 2 1 = 0 ∧ beAt a 14 2 = 0) ∨ beAt a 2 1 = 1 → (∀ i < n, rangeOk a i = true) → sz ≤ s.dev.num .tmSnapCells * 256 →
      parseTrig (beAt a 0 1) (slice a 4 10) = some t → s.dev.trigAhead (s.dev.num .clkTimingChannel) t = true →
      (s.dev.armConflict 1 k [] = true → exec (.tmSnapRequest o a) s = .next (s.refusedWith r.call [] 0x0501)) ∧
      (s.dev.armConflict 1 k [] = false →
        (2 ≤ s.dev.snapState k ∨ s.dev.num .tmSnapCells < s.dev.snapReserved + ceilDiv sz 256 →
          exec (.tmSnapRequest o a) s = .next (s.refusedWith r.call [] 0x0402)) ∧
        (s.dev.snapState k < 2 → s.dev.snapReserved + ceilDiv sz 256 ≤ s.dev.num .tmSnapCells →
          (s.dev.trigUnaligned (s.dev.num .clkTimingChannel) t = true →
            exec (.tmSnapRequest o a) s = .next (s.refusedWith r.call [] 0x0401)) ∧
          (s.dev.trigUnaligned (s.dev.num .clkTimingChannel) t = false → beAt a 2 1 = 1 → ¬ring →
            exec (.tmSnapRequest o a) s = .next (s.refusedWith r.call [] 0x0401)) ∧
          (s.dev.trigUnaligned (s.dev.num .clkTimingChannel) t = false → beAt a 2 1 = 0 ∨ ring → s.dev.acts.length < 256 →
            exec (.tmSnapRequest o a) s = .next (s.served r.call
              [.tm (fun t => { t with snaps := SMap.upd Snap.none k (fun x => { x with arg := a, size := sz }) t.snaps }),
               .obj .tmSnapStatus 0 k (.num (2 ^ 24 + o.code.toNat)), .arm ⟨0, 1, k, t, o.code.toNat, t == .now, [], [], 0⟩] [])))))) ∧
  (∀ (s : State) (k : Fin 4) (free : List Eff), s.Inv → s.dev.answers = true → free = [.obj .tmSnapStatus 0 k.val (.num 0), .obj .tmSnapData 0 k.val (.oct []),
      .tm fun t => { t with snaps := SMap.upd Snap.none k.val (fun x => { x with arg := [], size := 0, data := [] }) t.snaps }] →
    (∀ (o : Origin) (v : BitVec 8) (r : Req), v.toNat = k.val → r = execReq o .tmSnapRelease 0 0 true (.num v.toNat) → s.dev.admits r →
      (s.dev.snapState k.val ≠ 3 → exec (.tmSnapRelease o v) s = .next (s.refusedWith r.call [] 0x0401)) ∧
      (s.dev.snapState k.val = 3 →
        (o.code.toNat = 0x0400 ∨ s.dev.num .tmSnapStatus 0 k.val % 65536 = o.code.toNat →
          exec (.tmSnapRelease o v) s = .next (s.served r.call free [])) ∧
        (o.code.toNat ≠ 0x0400 → s.dev.num .tmSnapStatus 0 k.val % 65536 ≠ o.code.toNat →
          exec (.tmSnapRelease o v) s = .next (s.refusedWith r.call [] 0x0201)))) ∧
    (s.dev.pendingOn 1 k.val = none → exec (.snapshotCapture k) s = .next s) ∧
    (∀ a x, s.dev.pendingOn 1 k.val = some a → x = s.dev.snap k.val →
      (s.dev.actTurn a = false → exec (.snapshotCapture k) s = .next s) ∧
      (s.dev.actTurn a = true → exec (.snapshotCapture k) s = .next (s.after ([.disarm a.slot,
        .tm fun t => { t with
          snaps := SMap.upd Snap.none k.val (fun y => { y with seq := y.seq + 1, data := s.dev.snapOutput x.arg (x.seq + 1) }) t.snaps },
        .obj .tmSnapStatus 0 k.val (.num (2 * 2 ^ 24 + s.dev.num .tmSnapStatus 0 k.val % 65536))] ++
        if s.dev.actLate a then [.count .rmLate 0 0 1, .raise 435 0 a.slot (top8 a.kind) 0] else [])))) ∧
    (s.dev.snapState k.val ≠ 2 → exec (.snapshotCaptureComplete k) s = .next s) ∧
    (∀ (x : Snap) (st : Nat → Eff), s.dev.snapState k.val = 2 → x = s.dev.snap k.val → (∀ c, st c = .obj .tmSnapStatus 0 k.val
        (.num (c * 2 ^ 24 + s.dev.num .tmSnapStatus 0 k.val % 65536))) →
      exec (.snapshotCaptureComplete k) s = .next (s.after ((if beAt x.arg 2 1 = 0 then [.obj .tmSnapData 0 k.val (.oct x.data), st 3]
        else [st 4]) ++ [.raise 371 0 k.val (x.seq % 2 ^ 32) 0]))) ∧
    (s.dev.snapState k.val ≠ 4 → exec (.snapshotRingDeliver k) s = .next s) ∧
    (s.dev.snapState k.val = 4 → (s.dev.ringSt (beAt (s.dev.snap k.val).arg 14 2)).state ≠ 1 →
      exec (.snapshotRingDeliver k) s = .next (s.after (free ++ [.raise 372 0 0xFFFFFF 0 0]))) ∧
    (∀ (x : Snap) (r : Nat), s.dev.snapState k.val = 4 → x = s.dev.snap k.val → r = beAt x.arg 14 2 → (s.dev.ringSt r).state = 1 →
      ((s.dev.ringSt r).posted = [] → x.data ≠ [] → exec (.snapshotRingDeliver k) s = .next (s.after [.tm fun t => { t with
        snaps := SMap.upd Snap.none k.val (fun y => { y with data := x.data }) t.snaps }])) ∧
      (∀ y rest, (s.dev.ringSt r).posted = y :: rest → s.dev.descFate r y = 0 → (s.dev.ringSt r).kind = 6 → x.data.length ≤ descSize y →
        ∃ t, exec (.snapshotRingDeliver k) s = .next t ∧ t.pending = s.pending ∧ t.dev.snapState k.val = 0 ∧
          (t.dev.snap k.val).data = [] ∧ (t.dev.ringSt r).posted = rest ∧
          ⟨.dma, s.dev.ringFn r, y.addr.toNat, x.data⟩ ∈ t.dev.outs)))

/-- DRAM channels (R506 to R524, R625). -/
def Obligations.DramChannels : Prop :=
  ∀ (s : State) (c : Fin 8) (st : Nat) (b : List Byte) (x : DramCh) (go : Nat → Nat → List Eff) (nxt : Nat → List Byte → List Byte)
      (cnt : Nat → List Byte → Eff) (fail : Nat → List Eff) (evt : Nat → Eff), s.Inv →
    st = s.dev.num .dramState c.val → b = s.dev.oct .dramCounters c.val → x = SMap.get DramCh.none s.dev.dram c.val →
    (∀ new cause, go new cause = if st = new then [] else [.obj .dramState c.val 0 (.num new),
      .raise (400 + 2 * c.val) cause c.val (top8 st + new % 256 * 65536) 0]) →
    (∀ k y, nxt k y = patch y (8 * k) (beBytes 8 (satAdd 64 (beAt y (8 * k) 8) 1))) →
    (∀ k y, cnt k y = .obj .dramCounters c.val 0 (.oct (nxt k y))) →
    (∀ cause, fail cause = go 6 cause ++ [.dropKeys (fun k => k == dramKey c.val),
      .dram c.val (fun y => { y with subs := [] }), .obj .dramEnable c.val 0 (.num 0),
      .obj .dramRepairPending c.val 0 (.num 1)]) →
    (∀ code, evt code = .raise (401 + 2 * c.val) code c.val 0 0) →
    (∀ (o : Origin) (v : BitVec 8) (r : Req), r = writeReq o .dramCfg c.val 0 (.num v.toNat) → s.dev.admits r →
      (v.toNat ∉ [0, 0x80, 0x88, 0x90, 0x40] → exec (.dramCfgWrite o c v) s = .next (s.refusedWith r.call [] 0x0302)) ∧
      (v.toNat ∈ [0, 0x80, 0x88, 0x90, 0x40] →
        (2 ≤ st → exec (.dramCfgWrite o c v) s = .next (s.refusedWith r.call [] 0x0401)) ∧
        (∀ cap, st < 2 → cap = (if v.toNat = 0 then 0 else if v.toNat = 0x80 then 16777216 else 33554432) →
          exec (.dramCfgWrite o c v) s = .next (s.served r.call ([.obj .dramCfg c.val 0 (.num v.toNat),
            .obj .dramCapacity c.val 0 (.num cap)] ++ go (if v.toNat = 0 then 0 else 1) 0) [])))) ∧
    (∀ (o : Origin) (v : BitVec 16) (r : Req), r = writeReq o .dramSpeed 0 0 (.num v.toNat) → s.dev.admits r →
      (v.toNat ∉ [3200, 4000, 4800, 5600, 6400] → exec (.dramSpeedWrite o v) s = .next (s.refusedWith r.call [] 0x0302)) ∧
      (v.toNat ∈ [3200, 4000, 4800, 5600, 6400] →
        ((∃ k < 8, 2 ≤ s.dev.num .dramState k) → exec (.dramSpeedWrite o v) s = .next (s.refusedWith r.call [] 0x0401)) ∧
        ((∀ k < 8, s.dev.num .dramState k < 2) → exec (.dramSpeedWrite o v) s = .next (s.served r.call
          [.obj .dramSpeed 0 0 (.num v.toNat)] [])))) ∧
    (∀ (o : Origin) (v : BitVec 8) (r : Req) (on : Eff), r = writeReq o .dramEnable c.val 0 (.num v.toNat) → s.dev.admits r →
      on = .obj .dramEnable c.val 0 (.num v.toNat) →
      (v.toNat = 1 → st = 0 → exec (.dramEnableWrite o c v) s = .next (s.refusedWith r.call [] 0x0401)) ∧
      (v.toNat = 1 → st = 6 → s.dev.num .dramRepairPending c.val = 1 →
        exec (.dramEnableWrite o c v) s = .next (s.refusedWith r.call [] 0x0402)) ∧
      (v.toNat = 1 → st = 1 ∨ (st = 6 ∧ s.dev.num .dramRepairPending c.val ≠ 1) → s.dev.sec.trngOff = false →
        exec (.dramEnableWrite o c v) s = .next (s.served r.call
          ([on, .key (dramKey c.val) (beBytes 32 (Config.freeValue s.dev.free)), .draw] ++ go 2 0) [])) ∧
      (v.toNat = 1 → st = 4 → exec (.dramEnableWrite o c v) s = .next (s.served r.call (on :: go 3 0) [])) ∧
      (v.toNat = 1 → st = 2 ∨ st = 3 ∨ st = 5 → exec (.dramEnableWrite o c v) s = .next (s.served r.call [on] [])) ∧
      (v.toNat = 0 → st = 3 → exec (.dramEnableWrite o c v) s = .next (s.served r.call (on :: go 4 0) [])) ∧
      (v.toNat = 0 → st = 2 → exec (.dramEnableWrite o c v) s = .next (s.served r.call
        (on :: go 1 0 ++ [.dropKeys fun k => k == dramKey c.val, .dram c.val fun y => { y with subs := [] }]) []))) ∧
    (st ≠ 2 → exec (.dramTrainingComplete c) s = .next s ∧ ∀ k la lb, exec (.dramTrainingFail c k la lb) s = .next s) ∧
    (st ≠ 4 ∨ s.dev.chanHeld c.val ≠ 0 → exec (.dramDrainComplete c) s = .next s) ∧
    (st ≠ 3 → exec (.dramRetrain c) s = .next s) ∧
    (s.dev.num .dramRepairPending c.val ≠ 1 → exec (.dramRepairComplete c) s = .next s) ∧
    (s.dev.answers = true →
      (st = 2 → s.dev.dramHeld c.val = false →
        exec (.dramTrainingComplete c) s = .next (s.after (.obj .dramTrainResult c.val 0 (.num 0) :: go 3 0)) ∧
        ∀ (k : Fin 16) (la lb : Fin 32), exec (.dramTrainingFail c k la lb) s = .next (s.after
          (.obj .dramTrainResult c.val 0 (.num (k.val * 2 ^ 28 + lb.val * 32 + la.val)) :: fail 1))) ∧
      (st = 4 → s.dev.chanHeld c.val = 0 → exec (.dramDrainComplete c) s = .next (s.after
        (go 1 0 ++ [.dropKeys fun k => k == dramKey c.val, .dram c.val fun y => { y with subs := [] }]))) ∧
      (st = 3 → exec (.dramRetrain c) s = .next (s.after [cnt 7 b])) ∧
      (st = 3 ∨ st = 4 →
        (∀ (doubled above : Bool) (rate : Nat) (seen : Eff), rate = s.dev.num .dramRefreshRate c.val →
          seen = .dram c.val (fun y => { y with normals := if doubled || above then 0 else x.normals + 1 }) →
          exec (.dramMr4Poll c doubled above) s = .next (s.after (seen ::
            (if (doubled = true ∨ above = true) ∧ rate = 1 then [.obj .dramRefreshRate c.val 0 (.num 2), evt 3, cnt 7 b] else []) ++
            (if doubled = false ∧ above = false ∧ rate = 2 ∧ 1 ≤ x.normals
              then [.obj .dramRefreshRate c.val 0 (.num 1), evt 3, cnt 7 b] else []) ++
            (if above then [evt 4] else [])))) ∧
        (∀ (sub : Fin 2) (bank : Fin 64) (postpone : Bool) (k p : Nat), k = 64 * sub.val + bank.val → p = SMap.get 0 x.postponed k →
          (postpone = true → p < 4 → s.dev.bankHits c.val sub.val bank.val = true → exec (.dramRefresh c sub bank postpone) s =
            .next (s.after [.dram c.val (fun y => { y with postponed := SMap.put 0 k (p + 1) y.postponed }), cnt 6 b])) ∧
          (postpone = false ∨ 4 ≤ p ∨ s.dev.bankHits c.val sub.val bank.val = false → exec (.dramRefresh c sub bank postpone) s =
            .next (s.after [.dram c.val (fun y => { y with postponed := SMap.put 0 k 0 y.postponed }),
              .dram c.val fun y => { y with
                subs := SMap.upd DramSub.none sub.val (fun z => { z with rows := SMap.put 0 bank.val 0 z.rows }) y.subs }]))) ∧
        (∀ (k : Fin 2) (l : List Nat), l = ((SMap.get [] x.falls k.val).filter fun t => decide (s.dev.nowNs ≤ t + 10000)) ++ [s.dev.nowNs] →
          exec (.dramAlert c k) s = .next (s.after ([cnt 5 b] ++
            (s.dev.dsub c.val k.val).last.map (fun w => .out ⟨.dram, c.val, k.val, 1 :: beBytes 4 w⟩) ++
            [.dram c.val fun y => { y with falls := SMap.put [] k.val l y.falls }] ++ if 3 ≤ l.length then fail 3 else [])))) ∧
      (∀ (k : Fin 2) (y : Fin 3), st < 3 ∨ 5 < st ∨ (s.dev.dsub c.val k.val).out = [] → exec (.dramReadComplete c k y) s = .next s) ∧
      (∀ (k : Fin 2) (w : Nat) (rest : List Nat) (read : Bool → List Eff), 3 ≤ st → st ≤ 5 → (s.dev.dsub c.val k.val).out = w :: rest →
        (∀ bad, read bad = [.dram c.val (fun y => { y with subs := SMap.upd DramSub.none k.val (fun z => { z with out := rest }) y.subs }),
          cnt 1 b, .tm fun t => { t with queues := SMap.mapped [] (fun l => l.map fun p => if p.cells.contains (8 * (w / 4) + c.val)
            then { p with need := p.need.map (· - 1), bad := p.bad || bad } else p) t.queues }]) →
        exec (.dramReadComplete c k 0) s = .next (s.after (read false)) ∧
        (∀ n, n = (if x.ceSec = s.dev.tim.secs then x.ce else 0) + 1 → exec (.dramReadComplete c k 1) s = .next (s.after
          (read false ++ [cnt 3 (nxt 1 b), .dram c.val fun y => { y with ceSec := s.dev.tim.secs, ce := n }] ++
            if s.dev.num .dramCeAlarm ≠ 0 ∧ n = s.dev.num .dramCeAlarm + 1 then [evt 2] else []))) ∧
        (∀ l, l = (x.unc.filter fun t => decide (s.dev.nowNs ≤ t + 1000000)) ++ [s.dev.nowNs] →
          exec (.dramReadComplete c k 2) s = .next (s.after (read true ++ [cnt 4 (nxt 1 b), evt 1,
            .dram c.val fun y => { y with unc := l }] ++ if s.dev.num .dramFailThreshold < l.length then fail 2 else [])))) ∧
      (∀ q l, s.dev.num .dramRepairPending c.val = 1 → s.dev.num .dramEnable c.val ≠ 1 → s.dev.tm.queues = [(q, l)] →
        ∃ t, exec (.dramRepairComplete c) s = .next t ∧ t.pending = s.pending ∧ t.dev.num .dramRepairPending c.val = 0 ∧
          t.dev.raisedEvent 486 0 c.val ∧ t.dev.queue q = l.filter (fun p => !p.onChan c.val) ∧
          (l.any (fun p => p.onChan c.val) = true →
            t.dev.num .tmDrops 0 8 = satAdd 64 (s.dev.num .tmDrops 0 8) (l.filter fun p => p.onChan c.val).length)))

/-- Fibre keys (R528 to R537) and MACsec configuration (R540, R541). -/
def Obligations.CipherKeys : Prop :=
  (∀ (s : State) (o : Origin) (n : Fin 4) (b : List Byte) (r : Req) (dir idx wrap kek : Nat), s.Inv → b.length = 48 → dir = beAt b 0 1 →
    idx = beAt b 1 1 → wrap = beAt b 2 1 → kek = beAt b 3 1 → r = execReq o .ciphFchKeyLoad n.val 0 true (.oct b) → s.dev.admits r →
    (1 < dir ∨ idx = 0 ∨ 31 < idx ∨ 1 < wrap ∨ (wrap = 0 ∧ kek ≠ 0) ∨ beAt b 4 4 ≠ 0 →
      exec (.ciphFchKeyLoad o n b) s = .next (s.refusedWith r.call [] 0x0302)) ∧
    (dir ≤ 1 → 1 ≤ idx → idx ≤ 31 → beAt b 4 4 = 0 →
      (wrap = 0 ∧ kek = 0 ∧ beAt b 40 8 = 0) ∨ (wrap = 1 ∧ 1 ≤ kek ∧ kek ≤ 15) →
      (wrap = 0 → s.dev.codeOf o.path = 0x0200 → exec (.ciphFchKeyLoad o n b) s = .next (s.refusedWith r.call [] 0x0601)) ∧
      (wrap = 1 ∨ s.dev.codeOf o.path ≠ 0x0200 →
        (s.dev.lead n.val ≠ n.val ∨ (dir = 1 ∧ idx = s.dev.num .ciphFchUsActive n.val) →
          exec (.ciphFchKeyLoad o n b) s = .next (s.refusedWith r.call [] 0x0401)) ∧
        (s.dev.lead n.val = n.val → dir = 0 ∨ idx ≠ s.dev.num .ciphFchUsActive n.val →
          (∀ a, dir = 1 → s.dev.pendingOn 3 n.val = some a → nth 0 a.arg 0 = idx →
            exec (.ciphFchKeyLoad o n b) s = .next (s.refusedWith r.call [] 0x0501)) ∧
          (dir = 0 ∨ s.dev.pendingOn 3 n.val = none →
            (wrap = 1 → s.dev.kekLoaded kek = false ∨
                Config.unwrap (SMap.get [] s.dev.keys (kekKey kek)) (slice b 8 40) = none →
              exec (.ciphFchKeyLoad o n b) s = .next (s.refusedWith r.call
                [.count .ciphUnwrapFails 0 0 1, .raise 425 0 0xFFFFFF 0 0] 0x0602)) ∧
            (∀ k, (wrap = 0 ∧ k = slice b 8 32) ∨ (wrap = 1 ∧ s.dev.kekLoaded kek = true ∧ s.dev.secSuspended = false ∧
                Config.unwrap (SMap.get [] s.dev.keys (kekKey kek)) (slice b 8 40) = some k) →
              exec (.ciphFchKeyLoad o n b) s = .next (s.served r.call [.key (ctxKey n.val dir idx) k, .use (ctxKey n.val dir idx) 0,
                .obj (ctxObj dir) n.val 0 (.oct (patch (s.dev.oct (ctxObj dir) n.val) idx (beBytes 1 1)))] []))))))) ∧
  (∀ (s : State) (o : Origin) (n : Fin 4) (v : BitVec 64) (r : Req) (idx f : Nat), s.Inv → idx = bitsOf v.toNat 56 5 →
    f = v.toNat % 2 ^ 51 → r = execReq o .ciphFchUsKeySwitch n.val 0 true (.num v.toNat) → s.dev.admits r →
    (v.toNat ≠ idx * 2 ^ 56 + f ∨ (s.dev.num .frmAlignState n.val = 2 ∧ f < s.dev.num .frmFrame n.val + 2) →
      exec (.ciphFchUsKeySwitch o n v) s = .next (s.refusedWith r.call [] 0x0302)) ∧
    (v.toNat = idx * 2 ^ 56 + f →
      (s.dev.num .frmAlignState n.val ≠ 2 → exec (.ciphFchUsKeySwitch o n v) s = .next (s.refusedWith r.call [] 0x0401)) ∧
      (s.dev.num .frmAlignState n.val = 2 → s.dev.num .frmFrame n.val + 2 ≤ f →
        (s.dev.lead n.val ≠ n.val ∨ (idx ≠ 0 ∧ s.dev.ctxState n.val 1 idx ≠ 1) →
          exec (.ciphFchUsKeySwitch o n v) s = .next (s.refusedWith r.call [] 0x0401)) ∧
        (s.dev.lead n.val = n.val → idx = 0 ∨ s.dev.ctxState n.val 1 idx = 1 →
          (s.dev.pendingOn 3 n.val ≠ none → exec (.ciphFchUsKeySwitch o n v) s = .next (s.refusedWith r.call [] 0x0501)) ∧
          (s.dev.pendingOn 3 n.val = none →
            (idx = s.dev.num .ciphFchUsActive n.val → exec (.ciphFchUsKeySwitch o n v) s = .next (s.served r.call [] [])) ∧
            (idx ≠ s.dev.num .ciphFchUsActive n.val → s.dev.acts.length < 256 → exec (.ciphFchUsKeySwitch o n v) s =
              .next (s.served r.call [.arm ⟨0, 3, n.val, .frame f, s.dev.codeOf o.path, false, [], [idx], 0⟩] []))))))) ∧
  (∀ (s : State) (n : Fin 4) (g : Nat), s.Inv → s.dev.answers = true → g = s.dev.lead n.val →
    (s.dev.pendingOn 3 g = none ∨ s.dev.nextBurstFrame n.val = none → exec (.usKeySwitchFire n) s = .next s) ∧
    (∀ a idx f target, s.dev.pendingOn 3 g = some a → idx = nth 0 a.arg 0 → s.dev.nextBurstFrame n.val = some f →
      target = a.trig.frameNo →
      (f < target → exec (.usKeySwitchFire n) s = .next s) ∧
      (target ≤ f →
        (idx ≠ 0 → s.dev.ctxState g 1 idx ≠ 1 → exec (.usKeySwitchFire n) s = .next (s.after [.disarm a.slot,
          .count .rmFailures 0 0 1, .raise 434 0 a.slot (top8 a.kind + 0x0401 * 256) 0])) ∧
        (idx = 0 ∨ s.dev.ctxState g 1 idx = 1 → exec (.usKeySwitchFire n) s = .next (s.after ([.disarm a.slot,
          .obj .ciphFchUsActive g 0 (.num idx), .raise 417 0 g (top8 idx) 0] ++
          if target < f then [.count .rmLate 0 0 1, .raise 435 0 a.slot (top8 a.kind) 0] else [])))))) ∧
  (∀ (s : State) (o : Origin) (n : Fin 4) (v : BitVec 64) (r : Req), s.Inv → r = writeReq o .ciphFchKeyLimit n.val 0 (.num v.toNat) →
    s.dev.admits r → 2 ^ 20 ≤ v.toNat → v.toNat ≤ 2 ^ 48 →
      (s.dev.lead n.val ≠ n.val → exec (.ciphFchKeyLimitWrite o n v) s = .next (s.refusedWith r.call [] 0x0401)) ∧
      (s.dev.lead n.val = n.val → ∃ t, exec (.ciphFchKeyLimitWrite o n v) s = .next t ∧ t.pending = s.pending ∧
        t.dev.num .ciphFchKeyLimit n.val = v.toNat ∧ ((s.dev.oct .ciphFchDsState n.val).length = 32 →
          (s.dev.oct .ciphFchUsState n.val).length = 32 → ∀ dir ≤ 1, ∀ idx < 32, t.dev.ctxState n.val dir idx =
            (if s.dev.ctxState n.val dir idx = 1 ∧ v.toNat < SMap.get 0 s.dev.uses (ctxKey n.val dir idx) then 2
             else s.dev.ctxState n.val dir idx)))) ∧
  (∀ (s : State) (o : Origin) (b : List Byte) (r : Req) (a : Nat), s.Inv → b.length = 72 → a = beAt b 0 2 →
    r = execReq o .ciphMsSaLoad 0 0 true (.oct b) → s.dev.admits r →
    (4095 < a ∨ 1 < beAt b 2 1 ∨ 1 < beAt b 3 1 ∨ beAt b 24 8 = 0 →
      exec (.ciphMsSaLoad o b) s = .next (s.refusedWith r.call [] 0x0302)) ∧
    (a ≤ 4095 → beAt b 2 1 ≤ 1 → beAt b 3 1 = 0 → beAt b 4 1 = 0 → beAt b 5 3 = 0 → beAt b 24 8 ≠ 0 → beAt b 64 8 = 0 →
      s.dev.codeOf o.path ≠ 0x0200 →
      ((∃ p < 96, s.dev.num .portEnable p = 1 ∧
          msTxSa (s.dev.oct .ciphMsContext 0 (s.dev.num .portMacsecContext p)) (msTxAn (s.dev.oct .ciphMsContext 0
            (s.dev.num .portMacsecContext p))) = a) → exec (.ciphMsSaLoad o b) s = .next (s.refusedWith r.call [] 0x0401)) ∧
      ((∀ p < 96, s.dev.num .portEnable p ≠ 1) → exec (.ciphMsSaLoad o b) s = .next (s.served r.call
        [.key (saKey a) (padTo 32 (slice b 32 32) ++ slice b 12 12),
         .obj .ciphMsSaState 0 a (.oct ([1] ++ slice b 2 1 ++ [0, 0] ++ slice b 8 4 ++ slice b 24 8))] [])))) ∧
  (∀ (s : State) (o : Origin) (b : List Byte) (r : Req) (a kek : Nat), s.Inv → b.length = 72 → a = beAt b 0 2 → kek = beAt b 4 1 →
    r = execReq o .ciphMsSaLoad 0 0 true (.oct b) → s.dev.admits r →
    a ≤ 4095 → beAt b 2 1 ≤ 1 → beAt b 3 1 = 1 → 1 ≤ kek → kek ≤ 15 → beAt b 5 3 = 0 → beAt b 24 8 ≠ 0 →
    (∀ p < 96, s.dev.num .portEnable p ≠ 1) →
    (s.dev.kekLoaded kek = false ∨ Config.unwrap (SMap.get [] s.dev.keys (kekKey kek)) (slice b 32 40) = none →
      exec (.ciphMsSaLoad o b) s = .next (s.refusedWith r.call [.count .ciphUnwrapFails 0 0 1, .raise 425 0 0xFFFFFF 0 0] 0x0602)) ∧
    (∀ k, s.dev.kekLoaded kek = true → s.dev.secSuspended = false →
      Config.unwrap (SMap.get [] s.dev.keys (kekKey kek)) (slice b 32 40) = some k →
      exec (.ciphMsSaLoad o b) s = .next (s.served r.call [.key (saKey a) (padTo 32 k ++ slice b 12 12),
        .obj .ciphMsSaState 0 a (.oct ([1] ++ slice b 2 1 ++ [0, 0] ++ slice b 8 4 ++ slice b 24 8))] []))) ∧
  (∀ (s : State) (o : Origin) (c : Fin 4096) (b : List Byte) (r : Req), s.Inv → r = writeReq o .ciphMsContext 0 c.val (.oct b) →
    s.dev.admits r →
    ((∃ k < 8, 4095 < beAt b (24 + 2 * k) 2 ∧ beAt b (24 + 2 * k) 2 ≠ 0xFFFF) ∨ 3 < beAt b 1 1 ∨ bitsOf (beAt b 0 1) 4 2 = 3 ∨
        1073741824 < beAt b 20 4 → exec (.ciphMsContextWrite o c b) s = .next (s.refusedWith r.call [] 0x0302)) ∧
    (msContextBad b = false →
      ((∃ p < 96, s.dev.num .portEnable p = 1 ∧ s.dev.num .portMacsecContext p = c.val) →
        patch (s.dev.oct .ciphMsContext 0 c.val) 1 [0] ≠ patch b 1 [0] →
        exec (.ciphMsContextWrite o c b) s = .next (s.refusedWith r.call [] 0x0401)) ∧
      ((∀ p < 96, s.dev.num .portEnable p ≠ 1 ∨ s.dev.num .portMacsecContext p ≠ c.val) ∨
          patch (s.dev.oct .ciphMsContext 0 c.val) 1 [0] = patch b 1 [0] →
        exec (.ciphMsContextWrite o c b) s = .next (s.served r.call [.obj .ciphMsContext 0 c.val (.oct b)] []))))

/-- The lookaside engine (R543 to R549, R551). -/
def Obligations.Lookaside : Prop :=
  (∀ (s : State) (o : Origin) (b : List Byte) (r : Req) (code : Nat), s.Inv → b.length = 64 → code = s.dev.codeOf o.path →
    r = execReq o .ciphLaOpen 0 0 true (.oct b) → s.dev.admits r →
    (beAt b 0 1 ≠ 1 ∧ beAt b 0 1 ≠ 2 ∨ 1 < beAt b 1 1 ∨ beAt b 3 1 ≠ 0 ∨ beAt b 8 8 ≠ 0 ∨ beAt b 56 8 ≠ 0 →
      exec (.ciphLaOpen o b) s = .next (s.refusedWith r.call [] 0x0302)) ∧
    (∀ alg kl wrap kek, alg = beAt b 0 1 → (alg = 1 ∧ kl = 16) ∨ (alg = 2 ∧ kl = 32) → wrap = beAt b 1 1 → kek = beAt b 2 1 →
      beAt b 3 1 = 0 → beAt b 8 8 = 0 → beAt b 56 8 = 0 →
      (wrap = 0 ∧ kek = 0 ∧ beAt b (16 + kl) (40 - kl) = 0) ∨
        (wrap = 1 ∧ 1 ≤ kek ∧ kek ≤ 15 ∧ beAt b (24 + kl) (32 - kl) = 0) →
      ((s.dev.fn (hostKey code)).live = false → exec (.ciphLaOpen o b) s = .next (s.refusedWith r.call [] 0x0401)) ∧
      ((s.dev.fn (hostKey code)).live = true →
        ((∀ n < 16384, s.dev.sessionOpen n = true) → exec (.ciphLaOpen o b) s = .next (s.refusedWith r.call [] 0x0402)) ∧
        (∀ n < 16384, (∀ m < n, s.dev.sessionOpen m = true) → s.dev.sessionOpen n = false →
          (wrap = 1 → s.dev.kekLoaded kek = false ∨
              Config.unwrap (SMap.get [] s.dev.keys (kekKey kek)) (slice b 16 (kl + 8)) = none →
            exec (.ciphLaOpen o b) s = .next (s.refusedWith r.call
              [.count .ciphUnwrapFails 0 0 1, .raise 425 0 0xFFFFFF 0 0] 0x0602)) ∧
          (∀ k, (wrap = 0 ∧ k = slice b 16 kl) ∨ (wrap = 1 ∧ s.dev.kekLoaded kek = true ∧ s.dev.secSuspended = false ∧
              Config.unwrap (SMap.get [] s.dev.keys (kekKey kek)) (slice b 16 (kl + 8)) = some k) →
            exec (.ciphLaOpen o b) s = .next (s.served r.call [.key (laKey n) (beBytes 2 code ++ beBytes 1 alg ++ [1] ++ slice b 4 4 ++
                padTo kl k), .use (laKey n) 0,
              .obj .ciphLaSessionsOpen 0 0 (.num (s.dev.num .ciphLaSessionsOpen + 1))] (beBytes 2 n))))))) ∧
  (∀ (s : State) (o : Origin) (b : List Byte) (jobs : List LaFetch) (r : Req) (n k : Nat), s.Inv → b.length = 16 → n = beAt b 0 2 →
    k = beAt b 2 2 → r = execReq o .ciphLaSubmit 0 0 true (.oct b) → s.dev.admits r →
    (16384 ≤ n ∨ s.dev.sessionOpen n = false ∨ s.dev.sessionOwner n ≠ s.dev.codeOf o.path →
      exec (.ciphLaSubmit o b jobs) s = .next (s.refusedWith r.call [] 0x0201)) ∧
    (n < 16384 → s.dev.sessionOpen n = true → s.dev.sessionOwner n = s.dev.codeOf o.path →
      (k = 0 ∨ 256 < k ∨ beAt b 4 4 ≠ 0 ∨ beAt b 8 8 % 64 ≠ 0 →
        exec (.ciphLaSubmit o b jobs) s = .next (s.refusedWith r.call [] 0x0302)) ∧
      (1 ≤ k → k ≤ 256 → beAt b 4 4 = 0 → beAt b 8 8 % 64 = 0 → ∃ t, exec (.ciphLaSubmit o b jobs) s = .next t ∧
        t.pending = s.pending ∧ t.dev.la.next = s.dev.la.next + 1 ∧ t.dev.la.lists = s.dev.la.lists ++ [⟨s.dev.la.next, r.call, k, 0, 0⟩] ∧
        t.dev.la.jobs.map (fun j => (j.session, j.list, j.addr)) = s.dev.la.jobs.map (fun j => (j.session, j.list, j.addr)) ++
          (List.range k).map (fun i => (n, s.dev.la.next, beAt b 8 8 + 64 * i))))) ∧
  (∀ (s : State) (fault : Bool), s.Inv → (s.dev.answers = false ∨ s.dev.la.jobs = [] → exec (.laJobComplete fault) s = .next s) ∧
    (∀ (j : LaJob) (x : LaList) (st fk : Nat) (key iv : List Byte), s.dev.answers = true → s.dev.la.jobs = [j] → s.dev.la.lists = [x] →
      x.id = j.list → fk = hostKey (s.dev.sessionOwner j.session) → key = (s.dev.session j.session).drop 8 →
      (iv = slice (s.dev.session j.session) 4 4 ++ beBytes 8 (j.ctr.getD 0)) →
      ∀ (text : List Byte) (writes : List Out), text = slice j.src j.aadLen j.len →
      (j.bad = true ∧ st = 3 ∧ writes = []) ∨
      (j.bad = false ∧ j.dma ≠ 0 ∧ st = 4 ∧ writes = [⟨.dma, fk, j.dst, zeros j.len⟩]) ∨
      (j.bad = false ∧ j.dma = 0 ∧ j.op = 1 ∧ j.ctr = none ∧ st = 2 ∧ writes = []) ∨
      (j.bad = false ∧ j.dma = 0 ∧ (j.op = 2 ∨ j.ctr ≠ none) ∧ fault = true ∧ s.dev.num .ciphCheckMode ≠ 2 ∧ st = 5 ∧ writes = [⟨.dma, fk, j.dst, zeros j.len⟩]) ∨
      (j.bad = false ∧ j.dma = 0 ∧ j.op = 1 ∧ j.ctr ≠ none ∧ fault = false ∧ st = 0 ∧ writes =
        [⟨.dma, fk, j.addr + 48, padTo 16 (Config.gcmSeal key iv (j.src.take j.aadLen) text).2⟩, ⟨.dma, fk, j.addr + 32, iv⟩,
         ⟨.dma, fk, j.dst, (Config.gcmSeal key iv (j.src.take j.aadLen) text).1⟩]) ∨
      (∃ pt, j.bad = false ∧ j.dma = 0 ∧ j.op = 2 ∧ fault = false ∧ st = 0 ∧ writes = [⟨.dma, fk, j.dst, pt⟩] ∧
        Config.gcmOpen key j.iv (j.src.take j.aadLen) text j.tag = some pt) ∨
      (j.bad = false ∧ j.dma = 0 ∧ j.op = 2 ∧ fault = false ∧ st = 1 ∧ writes = [⟨.dma, fk, j.dst, zeros j.len⟩] ∧
        Config.gcmOpen key j.iv (j.src.take j.aadLen) text j.tag = none) →
      ∃ t, exec (.laJobComplete fault) s = .next t ∧ t.pending = s.pending ∧ t.dev.la.jobs = [] ∧
        (2 ≤ x.left → t.dev.outs = ⟨.dma, fk, j.addr + 2, leBytes 2 st⟩ :: writes ++ s.dev.outs ∧
          t.dev.la.lists = [{ x with left := x.left - 1, ok := x.ok + b2n (st == 0), other := x.other + b2n (st != 0) }]) ∧
        (x.left ≤ 1 → t.dev.la.lists = [] ∧ (∀ y, y ∈ ⟨.dma, fk, j.addr + 2, leBytes 2 st⟩ :: writes ++ s.dev.outs → y ∈ t.dev.outs)) ∧
        (st = 3 ∨ st = 4 → t.dev.raisedEvent 423 0 j.session) ∧ (st = 5 → t.dev.raisedEvent 424 0 j.session))) ∧
  (∀ (s : State) (o : Origin) (v : BitVec 16) (r : Req), s.Inv → r = execReq o .ciphLaClose 0 0 true (.num v.toNat) → s.dev.admits r →
    (16384 ≤ v.toNat ∨ s.dev.sessionOpen v.toNat = false ∨ s.dev.sessionOwner v.toNat ≠ s.dev.codeOf o.path →
      exec (.ciphLaClose o v) s = .next (s.refusedWith r.call [] 0x0201)) ∧
    (v.toNat < 16384 → s.dev.sessionOpen v.toNat = true → s.dev.sessionOwner v.toNat = s.dev.codeOf o.path → s.dev.la.jobs = [] →
      exec (.ciphLaClose o v) s = .next (s.served r.call [.dropKeys (fun k => k == laKey v.toNat),
        .obj .ciphLaSessionsOpen 0 0 (.num (s.dev.num .ciphLaSessionsOpen - 1))] [])) ∧
    (∀ (j : LaJob) (x : LaList) (fk : Nat), v.toNat < 16384 → s.dev.sessionOpen v.toNat = true →
      s.dev.sessionOwner v.toNat = s.dev.codeOf o.path → s.dev.la.jobs = [j] → j.session = v.toNat → s.dev.la.lists = [x] → x.id = j.list →
      fk = hostKey (s.dev.codeOf o.path) → ∃ t, exec (.ciphLaClose o v) s = .next t ∧ t.pending = s.pending ∧ t.dev.la.jobs = [] ∧
        t.dev.sessionOpen v.toNat = false ∧
        t.dev.la.lists = (if x.left ≤ 1 then [] else [{ x with left := x.left - 1, other := x.other + 1 }]) ∧
        ((s.dev.fn fk).live = true → ⟨.dma, fk, j.addr + 2, leBytes 2 6⟩ ∈ t.dev.outs ∧ ⟨.dma, fk, j.dst, zeros j.len⟩ ∈ t.dev.outs)))

/-- The time base (R82, R198, R219, R220, R554 to R557, R561, R569, R646). That a setting of SYNCO takes effect at the sub-tick that begins a second, that a slew
begins at a sub-tick, and that SLEW_COMPLETE absorbs the last part of a slew, is the model's reading (log entry 60). -/
def Obligations.TimeBase : Prop :=
  (∀ (s : State), s.Inv → s.dev.answers = false → exec .subTick s = .next s) ∧
  (∀ (s : State) (a : TimeSt) (r : Nat) (z u top : Int), s.Inv → s.dev.answers = true → a = s.dev.tim →
    r = 1000 * a.incNow * s.dev.num .timeSlewMax / 1000000 → top = (2 : Int) ^ 48 * 1000000000 * 2 ^ 40 →
    (z = 0 ∧ a.slew.natAbs ≤ r) ∨ (z = (r : Int) ∧ (r : Int) < a.slew) ∨ (z = -(r : Int) ∧ a.slew < -(r : Int)) →
    u = a.units + 1000 * (a.incNow : Int) + z → 0 ≤ u → u < top →
    ∃ t, exec .subTick s = .next t ∧ t.pending = s.pending ∧ t.dev.tim.ns < 1000000000 ∧ t.dev.tim.frac < 2 ^ 40 ∧
      t.dev.tim.sub = a.sub + 1 ∧ t.dev.tim.ticks = a.ticks + 1 ∧
      t.dev.tim.incNow = a.incPend.getD a.incNow ∧ t.dev.tim.incPend = none ∧ t.dev.tim.setPend = none ∧ t.dev.tim.stepPend = none ∧
      t.dev.tim.slewPend = none ∧
      s.dev.only (fun k => keysOf [(.timeStatus, 0, 0), (.timeSteps, 0, 0)] k ||
          (List.range 8).any (fun c => decide (Obj.dramCounters.key c 0 = k)) ||
          (List.range 12).any fun g => decide (Obj.fabCounters.key g 0 = k) ||
            (List.range 16).any fun c => decide (Obj.fabTxCredits.key g c = k))
        [.tim, .occs, .fch, .fns, .dram, .tm, .outs, .fab] t.dev ∧
      ((∀ c < 8, s.dev.num .dramState c ≠ 3 ∧ s.dev.num .dramState c ≠ 4) → t.dev.dram = s.dev.dram ∧ t.dev.tm = s.dev.tm) ∧
      ((∀ g < 12, s.dev.num .fabState g ≠ 4) → t.dev.fab = s.dev.fab) ∧
      (∀ k, t.dev.fn k = if (s.dev.fn k).live then { s.dev.fn k with remain := (s.dev.fn k).remain - 1 } else s.dev.fn k) ∧
      (∀ n < 4, t.dev.ch n = { s.dev.ch n with
        laserAge := if s.dev.laserOn n then min 100 ((s.dev.ch n).laserAge + 1) else 0
        burstLeft := (s.dev.ch n).burstLeft - 1
        burstOn := (s.dev.ch n).burstOn && !((s.dev.ch n).burstLeft == 1 && (s.dev.ch n).onAir.isNone) }) ∧
      t.dev.tim.synco = (if u / 2 ^ 40 / 1000000000 = (a.secs : Int) then a.synco
        else if s.dev.num .timeSyncoEnable = 1 then some (s.dev.num .timeSyncoFreq, s.dev.num .timeSyncoReference) else none) ∧
      (a.setPend = none → a.stepPend = none → t.dev.tim.units = u ∧ t.dev.tim.slew = a.slewPend.getD (a.slew - z) ∧
        t.dev.occs = s.dev.occs ∧ t.dev.num .timeStatus = s.dev.num .timeStatus ∧ t.dev.num .timeSteps = s.dev.num .timeSteps) ∧
      (∀ x, a.setPend = none → a.stepPend = some x → 0 ≤ u + x → u + x < top → t.dev.tim.units = u + x ∧
        t.dev.tim.slew = a.slewPend.getD 0 ∧ t.dev.num .timeSteps = satAdd 32 (s.dev.num .timeSteps) 1 ∧
        t.dev.num .timeStatus = s.dev.num .timeStatus ∧
        ∃ o ∈ t.dev.occs, o.src = 433 ∧ o.inst = 0xFFFFFF ∧ o.arg0 * 2 ^ 32 + o.arg1 = ofInt 64 (clampInt 64 (toPs x))) ∧
      (∀ S N F, a.setPend = some (S, N, F) → a.stepPend = none → S < 2 ^ 48 → N < 1000000000 → F < 2 ^ 16 →
        t.dev.tim.units = timeUnits S N (F * 2 ^ 24) ∧ t.dev.tim.slew = a.slewPend.getD 0 ∧
        t.dev.num .timeSteps = satAdd 32 (s.dev.num .timeSteps) 1 ∧ t.dev.synced = true ∧
        t.dev.num .timeStatus = putBit (putBit (s.dev.num .timeStatus) 0 true) 2 true ∧
        (s.dev.synced = false → t.dev.raisedEvent 432 0 0xFFFFFF) ∧
        ∃ o ∈ t.dev.occs, o.src = 433 ∧ o.inst = 0xFFFFFF ∧
          o.arg0 * 2 ^ 32 + o.arg1 = ofInt 64 (clampInt 64 (toPs (timeUnits S N (F * 2 ^ 24) - u))))) ∧
  (∀ (s : State) (n : Fin 4) (off : Fin 1000) (m : FrameMeas), s.Inv →
    (s.dev.answers = false → exec (.frameMark n off m) s = .next s) ∧
    (∀ (f : Nat) (w : TimeSt), s.dev.answers = true → s.dev.dissolves n.val = false → s.dev.circOn none = [] →
      (s.dev.ch n.val).marks = true →
      s.dev.num .clkFchState 0 n.val ≠ 0 ∨ (s.dev.num .clkTimingChannel = n.val ∧ s.dev.num .clkTimingState = 3) → f = (s.dev.num .frmFrame n.val + 1) % 2 ^ 51 →
      w = s.dev.tim.setUnits (max 0 (s.dev.tim.units + off.val * 2 ^ 40 + psUnits (toInt 32 (s.dev.num .timeRxAdjust)))) →
      ∃ t, exec (.frameMark n off m) s = .next t ∧ t.pending = s.pending ∧ t.dev.num .frmFrame n.val = f ∧
        t.dev.oct .timeFrameTs n.val = beBytes 8 f ++ beBytes 6 w.secs ++ beBytes 4 w.ns ++ beBytes 2 (w.frac / 2 ^ 24) ∧
        t.dev.tim = (if s.dev.num .clkTimingChannel = n.val then { s.dev.tim with sub := 0 } else s.dev.tim)) ∧
    (s.dev.answers = true → s.dev.dissolves n.val = false → s.dev.circOn none = [] → (s.dev.ch n.val).refValid = true →
      ∃ t, exec (.frameMark n off m) s = .next t ∧
        (t.dev.ch n.val).ratios = (s.dev.refOffset n.val :: (s.dev.ch n.val).ratios).take 1000 ∧
        (s.dev.num .clkFchState 0 n.val = 2 → (t.dev.ch n.val).pll = s.dev.refOffset n.val) ∧
        (s.dev.num .clkFchState 0 n.val = 1 → (t.dev.ch n.val).pll = slewStep (s.dev.ch n.val).pll (s.dev.refOffset n.val))) ∧
    (s.dev.answers = true → s.dev.dissolves n.val = false → (s.dev.ch n.val).marks = false ∨ (s.dev.num .clkFchState 0 n.val = 0 ∧
        (s.dev.num .clkTimingChannel ≠ n.val ∨ s.dev.num .clkTimingState ≠ 3)) →
      ∃ t, exec (.frameMark n off m) s = .next t ∧ t.pending = s.pending ∧ t.dev.num .frmFrame n.val = s.dev.num .frmFrame n.val ∧
        t.dev.oct .timeFrameTs n.val = s.dev.oct .timeFrameTs n.val ∧ t.dev.tim = s.dev.tim)) ∧
  (∀ (s : State) (o : Origin) (b : List Byte) (r : Req), s.Inv → b.length = 12 → r = execReq o .timeSet 0 0 true (.oct b) →
    s.dev.admits r →
    (999999999 < beAt b 6 4 → exec (.timeSet o b) s = .next (s.refusedWith r.call [] 0x0302)) ∧
    (beAt b 6 4 ≤ 999999999 →
      (s.dev.num .timeSource = 0 → s.dev.synced = true → exec (.timeSet o b) s = .next (s.refusedWith r.call [] 0x0401)) ∧
      (s.dev.num .timeSource ≠ 0 ∨ s.dev.synced = false → exec (.timeSet o b) s = .next (s.served r.call [.tim fun t => { t with
        setPend := some (beAt b 0 6, beAt b 6 4, beAt b 10 2), stepPend := none, slewPend := none, hostWrote := true }] [])))) ∧
  (∀ (s : State) (o : Origin) (ps : BitVec 64) (r : Req), s.Inv → r = execReq o .timeAdjust 0 0 true (.num ps.toNat) →
    s.dev.admits r →
    (s.dev.num .timeSource = 0 → s.dev.synced = true → exec (.timeAdjust o ps) s = .next (s.refusedWith r.call [] 0x0401)) ∧
    (s.dev.num .timeSource ≠ 0 ∨ s.dev.synced = false →
      (s.dev.num .timeStepThreshold < ps.toInt.natAbs → exec (.timeAdjust o ps) s = .next (s.served r.call
        [.tim fun t => { t with stepPend := some (psUnits ps.toInt), slewPend := none }] [])) ∧
      (ps.toInt.natAbs ≤ s.dev.num .timeStepThreshold → exec (.timeAdjust o ps) s = .next (s.served r.call
        [.tim fun t => { t with slewPend := some (psUnits ps.toInt) }] [])))) ∧
  (∀ (s : State) (o : Origin) (v : BitVec 8) (r : Req), s.Inv → r = writeReq o .timeSource 0 0 (.num v.toNat) → s.dev.admits r →
    (s.dev.synced = false → exec (.timeSourceWrite o v) s = .next (s.served r.call [.obj .timeSource 0 0 (.num v.toNat),
      .obj .timeStatus 0 0 (.num (putBit (s.dev.num .timeStatus) 2 false))] [])) ∧
    (s.dev.synced = true → exec (.timeSourceWrite o v) s = .next (s.served r.call [.obj .timeSource 0 0 (.num v.toNat),
      .obj .timeStatus 0 0 (.num (putBit (s.dev.num .timeStatus) 0 false)), .raise 432 0 0xFFFFFF 0 0,
      .obj .timeStatus 0 0 (.num (putBit (putBit (s.dev.num .timeStatus) 0 false) 2 false))] []))) ∧
  (∀ (s : State), s.Inv → s.dev.answers = true →
    (bitOf (s.dev.num .timeStatus) 4 = false → exec .sourceValidTimeout s = .next s) ∧
    (bitOf (s.dev.num .timeStatus) 4 = true → s.dev.num .timeSource ≠ 0 ∨ s.dev.synced = false → exec .sourceValidTimeout s =
      .next (s.after [.obj .timeStatus 0 0 (.num (putBit (s.dev.num .timeStatus) 4 false))])) ∧
    (bitOf (s.dev.num .timeStatus) 4 = true → s.dev.num .timeSource = 0 → s.dev.synced = true → exec .sourceValidTimeout s =
      .next (s.after [.obj .timeStatus 0 0 (.num (putBit (s.dev.num .timeStatus) 4 false)),
        .obj .timeStatus 0 0 (.num (putBit (putBit (s.dev.num .timeStatus) 4 false) 0 false)), .raise 432 0 0xFFFFFF 0 0])) ∧
    (∀ r, r = 1000 * s.dev.tim.incNow * s.dev.num .timeSlewMax / 1000000 →
      (s.dev.tim.slew = 0 ∨ r < s.dev.tim.slew.natAbs → exec .slewComplete s = .next s) ∧
      (s.dev.tim.slew ≠ 0 → s.dev.tim.slew.natAbs ≤ r → exec .slewComplete s = .next (s.after
        [.tim fun t => { t.setUnits (t.units + t.slew) with slew := 0 }]))))

/-- Timing messages (R558). The work of an accepted one is that of R559; that its delay is rounded down to 2⁻¹⁶ ns is the model's
reading (log entry 61); what TIME_LAST_OFFSET reads for an offset that an S64 of picoseconds does not hold is a free value. -/
def Obligations.TimingMessages : Prop :=
  ∀ (s : State) (n : Fin 4) (carried : BitVec 51) (b : List Byte) (f q eqd : Nat) (good : Prop), s.Inv →
    f = beAt b 4 8 → q = beAt b 24 4 → eqd = s.dev.num .actEqd n.val →
    good = (b.length = 36 ∧ beAt b 0 1 = 1 ∧ beAt b 1 1 % 32 = 0 ∧ f < 2 ^ 51 ∧ beAt b 34 2 = 0 ∧ beAt b 18 4 ≤ 999999999 ∧
      s.dev.num .clkTimingChannel = n.val ∧ s.dev.num .timeSource ≠ 1 ∧ s.dev.num .clkTimingState = 2 ∧ s.dev.num .actState n.val = 4 ∧
      f ≤ carried.toNat ∧ carried.toNat ≤ f + 8000 ∧ 35000 * 10000000 + eqd * 390625 < q * 10000000) →
    s.dev.num .timeSource ≤ 1 →
    (s.dev.answers = false → exec (.timingMessage n carried b) s = .next s) ∧
    (s.dev.answers = true →
      (¬good → exec (.timingMessage n carried b) s = .next (s.after (.count .timeMsgDiscards 0 0 1 ::
        if SMap.get 0 s.dev.tim.lastEvt 439 = s.dev.tim.secs + 1 then [] else [.raise 439 0 0xFFFFFF 0 0,
          .tim fun t => { t with lastEvt := SMap.put 0 439 (s.dev.tim.secs + 1) t.lastEvt }]))) ∧
      (∀ (rtd delay stamp off : Int) (ts : List Byte), good → ts = s.dev.oct .timeFrameTs n.val →
        rtd = ((q : Int) - 35000) * 65536 - 2560 * eqd → delay = rtd * beAt b 28 4 / 2 ^ 32 →
        stamp = ((beAt ts 8 6 * 1000000000 + beAt ts 14 4 : Nat) : Int) * 65536 + beAt ts 18 2 -
          ((beAt ts 0 8 : Int) - f) * 125000 * 65536 →
        off = ((beAt b 12 6 * 1000000000 + beAt b 18 4 : Nat) : Int) * 65536 + beAt b 22 2 + delay - stamp →
        ∃ t, exec (.timingMessage n carried b) s = .next t ∧ t.pending = s.pending ∧
          t.dev.num .timeMsgAccepted = satAdd 32 (s.dev.num .timeMsgAccepted) 1 ∧
          t.dev.num .timeMsgDiscards = s.dev.num .timeMsgDiscards ∧
          t.dev.tim = (if s.dev.synced = true ∧ off.natAbs * 1000 ≤ s.dev.num .timeStepThreshold * 65536
            then { s.dev.tim with slewPend := some (off * 2 ^ 24) }
            else { s.dev.tim with stepPend := some (off * 2 ^ 24), slewPend := none }) ∧
          t.dev.num .timeStatus = putBit (putBit (putBit (putBit (putBit (s.dev.num .timeStatus) 2 false) 4 true) 5
            (bitOf (beAt b 1 1) 7)) 6 (bitOf (beAt b 1 1) 6)) 0 true ∧
          (clampInt 64 (toPs (off * 2 ^ 24)) = toPs (off * 2 ^ 24) → t.dev.num .timeLastOffset = ofInt 64 (toPs (off * 2 ^ 24))) ∧
          t.dev.num .timeHeClock = beAt b 32 2 ∧
          (bitOf (beAt b 1 1) 5 = true → t.dev.num .timeUtcOffset = ofInt 32 (toInt 16 (beAt b 2 2))) ∧
          (bitOf (beAt b 1 1) 5 = false → t.dev.num .timeUtcOffset = s.dev.num .timeUtcOffset) ∧
          (s.dev.synced = false → t.dev.raisedEvent 432 0 0xFFFFFF) ∧ (s.dev.synced = true → t.dev.occs = s.dev.occs)))

/-- Timestamps (R564, R565, R568), pulse trains (R566, R567), SYNCO (R569) and Ringmaster's commands (R572). -/
def Obligations.StampsAndPulses : Prop :=
  (∀ (s : State) (o : Origin) (k : BitVec 8) (r : Req) (m : Nat), s.Inv → r = execReq o .timeTsRead 0 0 true (.num k.toNat) →
    s.dev.admits r → m = min k.toNat (pathData o.path / 32) →
    (k.toNat = 0 ∨ 127 < k.toNat → exec (.timeTsRead o k) s = .next (s.refusedWith r.call [] 0x0302)) ∧
    (1 ≤ k.toNat → k.toNat ≤ 127 → exec (.timeTsRead o k) s = .next (s.served r.call
      (.tim (fun t => { t with tsq := t.tsq.drop m }) :: if m < s.dev.tim.tsq.length then [.raise 437 0 0xFFFFFF 0 0] else [])
      (s.dev.tim.tsq.take m).flatten))) ∧
  (∀ (s : State) (i : Fin 4) (rising : Bool) (off : Fin 1000) (w : TimeSt) (now last : Nat) (rec : List Byte), s.Inv → s.dev.answers = true →
    w = s.dev.tim.setUnits (s.dev.tim.units + off.val * 2 ^ 40) → now = w.secs * 1000000000 + w.ns →
    last = SMap.get 0 s.dev.tim.tpiLast i.val →
    rec = beBytes 1 3 ++ beBytes 1 i.val ++ beBytes 1 (if rising then 1 else 2) ++ zeros 13 ++ beBytes 6 w.secs ++ beBytes 4 w.ns ++
      beBytes 2 (w.frac / 2 ^ 24) ++ beBytes 2 (if s.dev.synced then 0 else 2 ^ 15) ++ [0, 0] →
    (bitOf (s.dev.num .timeTpiCfg 0 i.val) (if rising then 0 else 1) = false → exec (.tpiCaptureEdge i rising off) s = .next s) ∧
    (bitOf (s.dev.num .timeTpiCfg 0 i.val) (if rising then 0 else 1) = true →
      (last ≠ 0 → now < last - 1 + 1000 → exec (.tpiCaptureEdge i rising off) s = .next (s.after (.count .timeTpiMerged 0 i.val 1 ::
        if SMap.get 0 s.dev.tim.lastEvt 440 = s.dev.tim.secs + 1 then [] else [.raise 440 0 i.val 0 0,
          .tim fun t => { t with lastEvt := SMap.put 0 440 (s.dev.tim.secs + 1) t.lastEvt }]))) ∧
      (last = 0 ∨ last - 1 + 1000 ≤ now → exec (.tpiCaptureEdge i rising off) s = .next (s.after ([
        .tim (fun t => { t with tpiLast := SMap.put 0 i.val (now + 1) t.tpiLast }),
        .obj .timeTpiLast 0 i.val (.oct (beBytes 6 w.secs ++ beBytes 4 w.ns ++ beBytes 2 (w.frac / 2 ^ 24)))] ++
        (if 4096 ≤ s.dev.tim.tsq.length then .count .timeTsOverflows 0 0 1 ::
            (if SMap.get 0 s.dev.tim.lastEvt 438 = s.dev.tim.secs + 1 then [] else [.raise 438 0 0xFFFFFF 0 0,
              .tim fun t => { t with lastEvt := SMap.put 0 438 (s.dev.tim.secs + 1) t.lastEvt }])
          else .tim (fun t => { t with tsq := tsInsert rec t.tsq }) ::
            if s.dev.tim.tsq = [] then [.raise 437 0 0xFFFFFF 0 0] else [])))))) ∧
  (∀ (s : State) (o : Origin) (i : Fin 16) (b : List Byte) (r : Req) (mode per wid : Nat), s.Inv → b.length = 32 →
    mode = bitsOf (beAt b 0 1) 5 2 → per = beAt b 4 4 → wid = beAt b 8 4 → r = writeReq o .timeTpoCfg 0 i.val (.oct b) →
    s.dev.admits r →
    (mode = 3 ∨ beAt b 0 1 % 16 ≠ 0 ∨ beAt b 1 3 ≠ 0 ∨ beAt b 16 16 ≠ 0 ∨
        (mode = 2 ∧ (per < 100 ∨ 4000000000 < per ∨ wid < 20 ∨ per - 20 < wid)) ∨ (mode = 1 ∧ (wid < 20 ∨ 4000000000 < wid)) →
      exec (.timeTpoCfgWrite o i b) s = .next (s.refusedWith r.call [] 0x0302)) ∧
    (mode ≠ 3 → beAt b 0 1 % 16 = 0 → beAt b 1 3 = 0 → beAt b 16 16 = 0 →
      (mode = 2 → 100 ≤ per ∧ per ≤ 4000000000 ∧ 20 ≤ wid ∧ wid + 20 ≤ per) → (mode = 1 → 20 ≤ wid ∧ wid ≤ 4000000000) →
      ((s.dev.train i.val).running = true → exec (.timeTpoCfgWrite o i b) s = .next (s.refusedWith r.call [] 0x0401)) ∧
      ((s.dev.train i.val).running = false →
        (s.dev.pendingOn 7 i.val ≠ none → exec (.timeTpoCfgWrite o i b) s = .next (s.refusedWith r.call [] 0x0501)) ∧
        (s.dev.pendingOn 7 i.val = none → exec (.timeTpoCfgWrite o i b) s = .next (s.served r.call
          [.obj .timeTpoCfg 0 i.val (.oct b)] []))))) ∧
  (∀ (s : State) (o : Origin) (b : List Byte) (c : Instr) (x : Obj) (r : Req) (i target : Nat) (idle : Prop), s.Inv → b.length = 12 →
    i = beAt b 1 1 →
    (x = .timeTpoStart ∧ c = .timeTpoStart o b ∧ target = i ∧
        idle = (bitsOf (beAt (s.dev.oct .timeTpoCfg 0 i) 0 1) 5 2 = 0 ∨ (s.dev.train i).running = true)) ∨
      (x = .timeTpoStop ∧ c = .timeTpoStop o b ∧ target = 256 + i ∧
        idle = ((s.dev.train i).running = false ∧ s.dev.pendingOn 7 i = none)) →
    r = execReq o x 0 0 true (.oct b) → s.dev.admits r →
    (15 < i ∨ 2 < beAt b 0 1 → exec c s = .next (s.refusedWith r.call [] 0x0302)) ∧
    (i ≤ 15 → parseTrig (beAt b 0 1) (b.drop 2) = none → exec c s = .next (s.refusedWith r.call [] 0x0302)) ∧
    (∀ t, i ≤ 15 → parseTrig (beAt b 0 1) (b.drop 2) = some t →
      (s.dev.trigAhead (s.dev.num .clkTimingChannel) t = false → exec c s = .next (s.refusedWith r.call [] 0x0302)) ∧
      (s.dev.trigAhead (s.dev.num .clkTimingChannel) t = true →
        (idle → exec c s = .next (s.refusedWith r.call [] 0x0401)) ∧
        (¬idle →
          (s.dev.pendingOn 7 target ≠ none → exec c s = .next (s.refusedWith r.call [] 0x0501)) ∧
          (s.dev.pendingOn 7 target = none →
            (s.dev.trigUnaligned (s.dev.num .clkTimingChannel) t = true → exec c s = .next (s.refusedWith r.call [] 0x0401)) ∧
            (s.dev.trigUnaligned (s.dev.num .clkTimingChannel) t = false → s.dev.acts.length < 256 → exec c s =
              .next (s.served r.call [.arm ⟨0, 7, target, t, s.dev.codeOf o.path, t == .now, [], [], 0⟩] []))))))) ∧
  (∀ (s : State) (o : Origin) (b : List Byte) (t : Trig), s.Inv → b.length = 12 → beAt b 1 1 ≤ 15 → beAt b 0 1 ≤ 2 →
    parseTrig (beAt b 0 1) (b.drop 2) = some t → s.dev.trigAhead (s.dev.num .clkTimingChannel) t = true →
    s.dev.trigUnaligned (s.dev.num .clkTimingChannel) t = false → s.dev.acts.length < 256 →
    (s.dev.admits (execReq o .timeTpoStart 0 0 true (.oct b)) → bitsOf (beAt (s.dev.oct .timeTpoCfg 0 (beAt b 1 1)) 0 1) 5 2 ≠ 0 →
      (s.dev.train (beAt b 1 1)).running = false → s.dev.pendingOn 7 (beAt b 1 1) = none → exec (.timeTpoStart o b) s =
        .next (s.served (execReq o .timeTpoStart 0 0 true (.oct b)).call
          [.arm ⟨0, 7, beAt b 1 1, t, s.dev.codeOf o.path, t == .now, [], [], 0⟩] [])) ∧
    (s.dev.admits (execReq o .timeTpoStop 0 0 true (.oct b)) → (s.dev.train (beAt b 1 1)).running = true →
      s.dev.pendingOn 7 (256 + beAt b 1 1) = none → exec (.timeTpoStop o b) s =
        .next (s.served (execReq o .timeTpoStop 0 0 true (.oct b)).call
          [.arm ⟨0, 7, 256 + beAt b 1 1, t, s.dev.codeOf o.path, t == .now, [], [], 0⟩] []))) ∧
  (∀ (s : State) (i : Fin 16) (off : Fin 1000) (t : PulseTrain) (b : List Byte) (set : PulseTrain → Eff) (past : List Eff)
      (late : Action → List Eff), s.Inv → s.dev.answers = true → t = s.dev.train i.val → b = s.dev.oct .timeTpoCfg 0 i.val →
    (∀ y, set y = .tim fun u => { u with trains := SMap.put PulseTrain.none i.val y u.trains }) →
    past = [set PulseTrain.none, .raise 441 0 i.val 0 0] →
    (∀ a, late a = if s.dev.actLate a then [.count .rmLate 0 0 1, .raise 435 0 a.slot (top8 a.kind) 0] else []) →
    (s.dev.pendingOn 7 i.val = none → exec (.pulseTrainStartFire i off) s = .next s) ∧
    (s.dev.pendingOn 7 (256 + i.val) = none → exec (.pulseTrainStopFire i off) s = .next s) ∧
    (∀ a, s.dev.pendingOn 7 i.val = some a →
      (s.dev.pulseDue a off.val = false → exec (.pulseTrainStartFire i off) s = .next s) ∧
      (s.dev.pulseDue a off.val = true → exec (.pulseTrainStartFire i off) s = .next (s.after ([.disarm a.slot, set ⟨true, s.dev.pulseInstant a off.val, 1, true, false⟩] ++ late a)))) ∧
    (∀ a, s.dev.pendingOn 7 (256 + i.val) = some a →
      (s.dev.pulseDue a off.val = false → exec (.pulseTrainStopFire i off) s = .next s) ∧
      (s.dev.pulseDue a off.val = true → exec (.pulseTrainStopFire i off) s = .next (s.after (.disarm a.slot ::
        (if t.running = false then [] else if t.high = true then [set { t with stopping := true }] else past) ++ late a)))) ∧
    (t.running = false ∨ s.dev.unitsAt off.val + 8 * 2 ^ 40 < s.dev.nextEdge i.val → exec (.pulseEdge i off) s = .next s) ∧
    (t.running = true → s.dev.nextEdge i.val ≤ s.dev.unitsAt off.val + 8 * 2 ^ 40 →
      (t.high = false → exec (.pulseEdge i off) s = .next (s.after [set { t with high := true, begun := t.begun + 1, at' := s.dev.nextEdge i.val }])) ∧
      (t.high = true →
        (t.stopping = true ∨ bitsOf (beAt b 0 1) 5 2 = 1 ∨ (beAt b 12 4 ≠ 0 ∧ beAt b 12 4 ≤ t.begun) →
          exec (.pulseEdge i off) s = .next (s.after past)) ∧
        (t.stopping = false → bitsOf (beAt b 0 1) 5 2 ≠ 1 → beAt b 12 4 = 0 ∨ t.begun < beAt b 12 4 →
          exec (.pulseEdge i off) s = .next (s.after [set { t with high := false }]))))) ∧
  (∀ (s : State) (o : Origin) (k : Fin 3) (v : BitVec 32) (x : Obj) (r : Req), s.Inv →
    (k = 0 ∧ x = .timeSyncoEnable) ∨ (k = 1 ∧ x = .timeSyncoFreq) ∨ (k = 2 ∧ x = .timeSyncoReference) →
    r = writeReq o x 0 0 (.num v.toNat) → s.dev.admits r →
    exec (.timeSyncoWrite o k v) s = .next (s.served r.call [.obj x 0 0 (.num v.toNat)] [])) ∧
  (∀ (s : State) (o : Origin) (slot : BitVec 8) (r : Req) (code : Nat), s.Inv → code = s.dev.codeOf o.path →
    r = execReq o .rmCancel 0 0 true (.num slot.toNat) → s.dev.admits r →
    ((∀ a ∈ s.dev.acts, a.slot ≠ slot.toNat) → exec (.rmCancel o slot) s = .next (s.refusedWith r.call [] 0x0302)) ∧
    (∀ a ∈ s.dev.acts, a.slot = slot.toNat →
      (code ≠ 0x0400 → code ≠ a.code → isHost code = false ∨ isHost a.code = false ∨ hostLink code ≠ hostLink a.code →
        exec (.rmCancel o slot) s = .next (s.refusedWith r.call [] 0x0201)) ∧
      (code = 0x0400 ∨ code = a.code ∨ (isHost code = true ∧ isHost a.code = true ∧ hostLink code = hostLink a.code) →
        (a.committed = true ∨ s.dev.commitDue a = true → exec (.rmCancel o slot) s = .next (s.refusedWith r.call [] 0x0401)) ∧
        (a.committed = false → s.dev.commitDue a = false → exec (.rmCancel o slot) s = .next (s.served r.call
          [.disarm a.slot, .count .rmCancelled 0 0 1, .raise 436 0 a.slot (top8 a.kind) 0] []))))) ∧
  (∀ (s : State) (slot : Fin 256), s.Inv → s.dev.answers = true →
    (∀ a ∈ s.dev.acts, a.slot = slot.val → s.dev.commitDue a = true → exec (.actionCommit slot) s = .next (s.after [.commit slot.val])) ∧
    ((∀ a ∈ s.dev.acts, a.slot = slot.val → s.dev.commitDue a = false) → exec (.actionCommit slot) s = .next s)) ∧
  (∀ s : State, s.dev.answers = false → (∀ i off, exec (.pulseTrainStartFire i off) s = .next s ∧
    exec (.pulseTrainStopFire i off) s = .next s ∧ exec (.pulseEdge i off) s = .next s) ∧
    (∀ i r off, exec (.tpiCaptureEdge i r off) s = .next s) ∧ ∀ slot, exec (.actionCommit slot) s = .next s)

/-- The boot flow (R584 to R590), identity (R594, R600) and flash programming (R593). -/
def Obligations.BootFlow : Prop :=
  (∀ (s : State) (self : Bool) (env : Outcomes) (prog : Nat → Eff) (hv : List Eff) (r1 r2 : FlashSlot → Nat)
      (one two : FlashSlot → List Eff) (rej : Nat → Nat → Nat → List Eff) (fails : Nat → List Eff → Nat → Prop), s.Inv →
    s.dev.pins.href = true → (∀ k, prog k = .obj .idBootProgress 0 0 (.num k)) →
    hv = (if s.dev.hvEnable = true ∧ s.dev.pins.hvin = true ∧ s.dev.num .hvState = 0 then [.obj .hvState 0 0 (.num 1)] else []) →
    (∀ f, r1 f = s.dev.stageReason 1 0x100000 f.stage1 none) →
    (∀ f, r2 f = s.dev.stageReason 2 0xEFF000 f.stage2 (some (flashNum f.stage1 7 1))) →
    (∀ f, one f = [.sec (fun x => { x with run1 := stageSigned f.stage1 }), .obj .secStage1Hash 0 0 (.oct (sha (stageSigned f.stage1))),
      prog 2, .obj .idTerminal 0 0 (.num s.dev.terminalId), .obj .secIdPubkey 0 0 (.oct s.dev.idPub),
      .obj .secLmsPubkey 0 0 (.oct s.dev.lmsPub), .obj .secLmsNext 0 0 (.num s.dev.lmsFirst)] ++
      [.obj .trThermalLimit 0 0 (.num (if s.dev.otpBit 0x1E3 0 then 105 else 100)), prog 3]) →
    (∀ f, two f = [.sec (fun x => { x with run2 := stageSigned f.stage2 }), .obj .secStage2Hash 0 0 (.oct (sha (stageSigned f.stage2))),
      .obj .idFwVersion 0 0 (.num (flashNum f.stage2 16 4)), prog 4]) →
    (∀ kind slot r, rej kind slot r = [.raise 450 0 0xFFFFFF (kind * 2 ^ 24 + slot * 2 ^ 16 + r * 2 ^ 8) 0, .raise 449 0 0xFFFFFF 0 0]) →
    (∀ k es kind, fails k es kind ↔ (kind = 1 ∧ r1 (s.dev.flashSlot k) ≠ 0 ∧ es = rej 1 k (r1 (s.dev.flashSlot k))) ∨
      (kind = 2 ∧ r1 (s.dev.flashSlot k) = 0 ∧ r2 (s.dev.flashSlot k) ≠ 0 ∧
        es = one (s.dev.flashSlot k) ++ rej 2 k (r2 (s.dev.flashSlot k)))) →
    (s.dev.clk.devReset = false ∨ s.dev.pins.porstN = false ∨ s.dev.clk.supplyHeld = true ∨ s.dev.pins.straps ≠ [] →
      s.dev.answers = false ∨ s.dev.pins.porstN = false ∨ s.dev.num .idBootProgress ≠ 0 → exec (.securityRomStart self env) s = .next s) ∧
    (s.dev.clk.devReset = true → s.dev.pins.porstN = true → s.dev.clk.supplyHeld = false → s.dev.clk.hrefLost = false →
      s.dev.pins.straps = [] → s.dev.num .idBootProgress = 0 → s.dev.num .pwrState < 3 →
      self = false ∨ bitOf (s.dev.num .rstStraps) 2 = true →
      ∃ t, exec (.securityRomStart self env) s = .next t ∧ t.pending = s.pending ∧ t.dev.clk.devReset = false ∧
        t.dev.pins.pwrreqN = false ∧ t.dev.num .idBootProgress = (if self then 0x10 else 0xE0) ∧ t.dev.raisedEvent 1 0 noInst) ∧
    (s.dev.answers = true → s.dev.pins.porstN = true → s.dev.num .idBootProgress = 0 →
      (self = false → exec (.securityRomStart self env) s = .next (s.after (hv ++ [prog 0xE0]))) ∧
      (self = true → bitOf (s.dev.num .rstStraps) 2 = true → exec (.securityRomStart self env) s =
        .next (s.after (hv ++ [prog 1, prog 0x10, .sec fun x => { x with blStatus := 0 }]))) ∧
      (self = true → bitOf (s.dev.num .rstStraps) 2 = false →
        (∀ a b ka kb, fails s.dev.preferred a ka → fails (1 - s.dev.preferred) b kb → exec (.securityRomStart self env) s =
          .next (s.after (hv ++ [prog 1] ++ a ++ b ++ [prog (0xE0 + kb), .sec fun x => { x with blStatus := (kb - 1) * 2 ^ 24 }]))) ∧
        (∀ (k : Nat) (a : List Eff) (f : FlashSlot), (k = s.dev.preferred ∧ a = []) ∨
            (k = 1 - s.dev.preferred ∧ ∃ ka, fails s.dev.preferred a ka) → f = s.dev.flashSlot k → r1 f = 0 → r2 f = 0 →
          s.dev.lifecycle = 3 ∨ beAt f.config 0 4 ≠ 0x4B594342 →
          (flashNum f.stage1 21 1 = 0 → exec (.securityRomStart self env) s = .next (s.after (hv ++ [prog 1] ++ a ++ one f ++ two f ++
            [.obj .secBootSlot 0 0 (.num k), prog 5, prog 6, .raise 448 0 k (flashNum f.stage1 16 4) (flashNum f.stage2 16 4)]))) ∧
          ∃ t, exec (.securityRomStart self env) s = .next t ∧ t.pending = s.pending ∧ t.dev.num .idBootProgress = 6 ∧
            t.dev.num .secBootSlot = k ∧ (env.otpFails = [] → ∀ j < 8, bitOf (flashNum f.stage1 21 1) j = true →
              j ≠ flashNum f.stage1 7 1 → t.dev.otpBit 0x1E0 j = true))))) ∧
  (∀ (s : State) (addr : BitVec 64) (len v : BitVec 32), s.Inv →
    (s.dev.reaches 0 0 = false → exec (.blGoWrite addr len v) s = .next s) ∧
    (s.dev.reaches 0 0 = true → s.dev.inRun →
      (s.dev.num .idBootProgress ∉ [0x10, 0x11, 0xE1, 0xE2] → exec (.blGoWrite addr len v) s =
        .next (s.after [.count .hifBadAccesses 0 0 1])) ∧
      (s.dev.num .idBootProgress ∈ [0x10, 0x11, 0xE1, 0xE2] →
        (v ≠ 1 ∨ s.dev.sec.blStatus / 2 ^ 24 = 2 → exec (.blGoWrite addr len v) s = .next (s.after
          [.sec fun x => { x with blAddr := addr.toNat, blLen := len.toNat }])) ∧
        (v = 1 → s.dev.sec.blStatus / 2 ^ 24 ≠ 2 → exec (.blGoWrite addr len v) s = .next (s.after
          [.sec fun x => { x with blAddr := addr.toNat, blLen := len.toNat }, .sec fun x => { x with blStatus := 2 * 2 ^ 24 }]))))) ∧
  (∀ (s : State) (im : List Byte) (got : Bool) (env : Outcomes) (status : Nat → Eff), s.Inv →
    (∀ v, status v = .sec fun x => { x with blStatus := v }) →
    (s.dev.num .idBootProgress ∉ [0x10, 0x11, 0xE1, 0xE2] ∨ s.dev.answers = false ∨ s.dev.sec.blStatus / 2 ^ 24 ≠ 2 →
      exec (.bootLoadComplete im got env) s = .next s) ∧
    (∀ (kind r : Nat), (kind = 1 ∧ s.dev.num .idBootProgress ∈ [0x10, 0xE1]) ∨ (kind = 2 ∧ s.dev.num .idBootProgress ∈ [0x11, 0xE2]) →
      s.dev.answers = true → s.dev.sec.blStatus / 2 ^ 24 = 2 →
      r = s.dev.stageReason kind im.length im (if kind = 2 then some (flashNum s.dev.sec.run1 7 1) else none) →
      (got = false → exec (.bootLoadComplete im got env) s = .next (s.after [status (4 * 2 ^ 24)])) ∧
      (got = true → im.length = s.dev.sec.blLen →
        (r ≠ 0 → exec (.bootLoadComplete im got env) s = .next (s.after [status (4 * 2 ^ 24 + r),
          .raise 450 0 0xFFFFFF (kind * 2 ^ 24 + 2 * 2 ^ 16 + r * 2 ^ 8) 0])) ∧
        (r = 0 → kind = 1 → ∃ t, exec (.bootLoadComplete im got env) s = .next t ∧ t.pending = s.pending ∧
          t.dev.num .idBootProgress = 0x11 ∧ t.dev.num .secBootSlot = 0x80 ∧ t.dev.sec.run1 = stageSigned im ∧
          t.dev.sec.blStatus = 3 * 2 ^ 24 ∧ t.dev.oct .secStage1Hash = sha (stageSigned im) ∧
          t.dev.num .idTerminal = s.dev.terminalId ∧ t.dev.num .secLmsNext = s.dev.lmsFirst) ∧
        (r = 0 → kind = 2 → (s.dev.imagesAfter false s.dev.cfg.mask).flatMap (fun x => x.entries) = [] → ∃ t, exec (.bootLoadComplete im got env) s = .next t ∧
          t.pending = s.pending ∧ t.dev.num .idBootProgress = 6 ∧ t.dev.num .secBootSlot = 0x80 ∧ t.dev.sec.run2 = stageSigned im ∧
          t.dev.oct .secStage2Hash = sha (stageSigned im) ∧ t.dev.num .idFwVersion = flashNum im 16 4 ∧
          t.dev.raisedEvent 448 0 2)))) ∧
  (∀ (s : State) (o : Origin) (b : List Byte) (r : Req) (code : Nat), s.Inv → b.length = 16 → code = o.code.toNat →
    r = execReq o .secFlashProgram 0 0 true (.oct b) → s.dev.admits r →
    (0x08000000 < beAt b 8 4 ∨ 1 < beAt b 12 1 ∨ beAt b 13 3 ≠ 0 →
      exec (.secFlashProgram o b) s = .next (s.refusedWith r.call [] 0x0302)) ∧
    (beAt b 8 4 ≤ 0x08000000 → beAt b 12 1 ≤ 1 → beAt b 13 3 = 0 →
      (isHost code = false ∨ hostFn code ≠ 0 ∨ (s.dev.fn (hostKey code)).live = false ∨ s.dev.num .secBootSlot = beAt b 12 1 →
        exec (.secFlashProgram o b) s = .next (s.refusedWith r.call [] 0x0401)) ∧
      (isHost code = true → hostFn code = 0 → (s.dev.fn (hostKey code)).live = true → s.dev.num .secBootSlot ≠ beAt b 12 1 →
        (s.dev.sec.prog ≠ none → exec (.secFlashProgram o b) s = .next (s.refusedWith r.call [] 0x0402)) ∧
        (s.dev.sec.prog = none → exec (.secFlashProgram o b) s = .next (s.owing r.call
          [.sec fun x => { x with prog := some (r.call, beAt b 12 1, beAt b 8 4) }]))))) ∧
  (∀ (s : State) (im : List Byte) (got : Bool), s.Inv → s.dev.answers = true →
    (s.dev.sec.prog = none → exec (.flashProgramComplete im got) s = .next s) ∧
    (∀ (c : Call) (slot len : Nat) (f g : FlashSlot) (r : Nat) (place : FlashSlot → Eff), s.dev.sec.prog = some (c, slot, len) →
      f = ⟨slice im 0 0x100000, slice im 0x100000 0xEFF000, im.drop 0x1000000⟩ →
      g = { f with stage1 := patch f.stage1 0 (List.replicate 256 0xFF) } →
      r = (if s.dev.stageReason 1 0x100000 f.stage1 none ≠ 0 then s.dev.stageReason 1 0x100000 f.stage1 none
        else s.dev.stageReason 2 0xEFF000 f.stage2 (some (flashNum f.stage1 7 1))) →
      (∀ y, place y = .sec fun x => if slot = 0 then { x with slotA := y } else { x with slotB := y }) →
      (got = true → im.length ≠ len → exec (.flashProgramComplete im got) s = .next s) ∧
      (got = false → exec (.flashProgramComplete im got) s =
        .next { s with dev := (respond c 0x0701 []).run (s.dev.after [.sec fun x => { x with prog := none }]) }) ∧
      (got = true → im.length = len → exec (.flashProgramComplete im got) s = .next { s with
        dev := (respond c 0 (beBytes 1 r)).run (s.dev.after ([.sec fun x => { x with prog := none }] ++
          (if r = 0 then [place f, .sec fun x => { x with dir := directory slot }] else [place g]) ++
          [.raise 467 0 0xFFFFFF (top8 r) 0])) })))

/-- Security commands (R580 to R582, R592, R597 to R608). The order in which bits are burned, that a command stopped before its record is
checked uses up nothing, and the aborts of a stopped TRNG within each list are the model's readings (log entries 64 to 66). -/
def Obligations.SecurityCommands : Prop :=
  (∀ (s : State) (o : Origin) (c : Instr) (r : Req) (p code sign lvl l : Nat) (b ch : List Byte) (fails : List (BitVec 15)) (used : Eff)
      (bits : List Nat) (own : List Eff) (data : List Byte) (shape values allowed : Prop), s.Inv → code = o.code.toNat →
    b = SMap.get [] s.dev.sec.stage code → ch = SMap.get [] s.dev.sec.chal code → sign = beAt b 1 1 → lvl = beAt b 4 4 →
    l = s.dev.lifecycle →
    used = .sec (fun x => { x with stage := SMap.put [] code [] x.stage, chal := SMap.put [] code [] x.chal }) →
    shape = (304 ≤ b.length ∧ beAt b 200 4 = 96 ∧ 1 ≤ beAt b 300 4 ∧ beAt b 300 4 ≤ 9324 ∧ b.length = 304 + beAt b 300 4) →
    values = (beAt b 0 1 = p ∧ (sign = 1 ∨ sign = 2) ∧ beAt b 2 2 = 0 ∧ lvl < (if p = 3 then 8 else 1) ∧ 5 ≤ beAt b 144 4 ∧
      beAt b 144 4 ≤ 9 ∧ 1 ≤ beAt b 148 4 ∧ beAt b 148 4 ≤ 4) →
    allowed = ((p = 1 ∧ sign = 1 ∧ (l = 1 ∨ (l = 2 ∧ s.dev.ownerEnrolled = false))) ∨
      (p = 2 ∧ sign = 1 ∧ l = 2 ∧ s.dev.ownerEnrolled = true ∧ s.dev.ownerLocked = false) ∨
      (p = 3 ∧ sign = 1 ∧ l = 2 ∧ s.dev.ownerEnrolled = true ∧ lvl < 4) ∨
      (p = 3 ∧ sign = 2 ∧ (l = 0 ∨ l = 3 ∨ (lvl < 4 ∧ (l = 1 ∨ (l = 2 ∧ s.dev.ownerEnrolled = false))))) ∨
      (p = 4 ∧ (l = 1 ∨ l = 2) ∧ sign = (if s.dev.ownerEnrolled then 1 else 2)) ∨
      (p = 5 ∧ sign = 1 ∧ s.dev.ownerLocked = true) ∨ (p = 6 ∧ sign = 2 ∧ l = 0)) →
    (p = 1 ∧ c = .secOwnerEnrol o fails ∧ r = execReq o .secOwnerEnrol 0 0 true (.oct []) ∧
        bits = otpBitsOf 0x200 (sha (slice b 48 96) ++ sha (slice b 144 56)) ++ (if l = 1 then [8 * 0x1E1 + 1] else []) ++ [8 * 0x1E2] ∧
        own = .raise 452 0 0xFFFFFF 0 0 :: (if l = 1 then [.raise 454 0 0xFFFFFF 0 0] else []) ∧ data = []) ∨
      (p = 2 ∧ c = .secOwnerLock o fails ∧ r = execReq o .secOwnerLock 0 0 true (.oct []) ∧ bits = [8 * 0x1E2 + 1] ∧
        own = [.raise 453 0 0xFFFFFF 0 0] ∧ data = []) ∨
      (p = 3 ∧ c = .secDebugUnlock o ∧ r = execReq o .secDebugUnlock 0 0 true (.oct []) ∧ bits = [] ∧
        bitOf (s.dev.num .rstStraps) 3 = true ∧ own = [.obj .secDebugState 0 0 (.num (128 + lvl)),
          .raise 455 0 0xFFFFFF (top8 lvl + sign * 65536) 0] ∧ data = []) ∨
      (p = 5 ∧ c = .secAuthIssue o ∧ r = execReq o .secAuthIssue 0 0 true (.oct []) ∧ bits = [] ∧ s.dev.ownerLocked = true ∧
        s.dev.sec.trngOff = false ∧ data = beBytes 16 (Config.freeValue s.dev.free) ∧ own = [.draw, .sec fun x => { x with
          tokens := SMap.put [] code (beBytes 6 (s.dev.tim.secs + 10) ++ beBytes 4 s.dev.tim.ns ++ data) x.tokens }]) ∨
      (p = 6 ∧ c = .secLifecycleAdvance o 1 fails ∧ r = execReq o .secLifecycleAdvance 0 0 true (.num 1) ∧ l = 0 ∧
        bits = [8 * 0x1E1] ∧ own = [.raise 454 0 0xFFFFFF 0 0] ∧ data = []) ∨
      (p = 4 ∧ c = .secLifecycleAdvance o 3 fails ∧ r = execReq o .secLifecycleAdvance 0 0 true (.num 3) ∧ l < 3 ∧
        (∀ k < 16, beAt (s.dev.oct .secKekState) (3 * k) 1 ≠ 1) ∧ bits = [8 * 0x1E1 + 2] ∧ own = [.raise 454 0 0xFFFFFF 0 0] ∧ data = []) →
    s.dev.admits r →
    (¬shape → exec c s = .next (s.refusedWith r.call [used] 0x0301)) ∧
    (shape → ¬values → exec c s = .next (s.refusedWith r.call [used] 0x0302)) ∧
    (shape → values → ¬allowed → exec c s = .next (s.refusedWith r.call [used] 0x0401)) ∧
    (shape → values → allowed →
      (beAt b 8 8 ≠ s.dev.num .idTerminal ∨ s.dev.stillValid ch = false ∨ slice b 16 32 ≠ ch.drop 10 → exec c s =
        .next (s.refusedWith r.call [used, .count .secAuthFails 0 0 1, .raise 457 0 0xFFFFFF 0 0] 0x0601)) ∧
      (beAt b 8 8 = s.dev.num .idTerminal → s.dev.stillValid ch = true → slice b 16 32 = ch.drop 10 →
        ((p ≠ 1 ∧ sha (slice b 48 96) ++ sha (slice b 144 56) ≠ s.dev.otpBytes (if sign = 1 then 0x200 else 0x260) 96) ∨
            Config.ecdsaVerifies (slice b 48 96) (sha (b.take 200)) (slice b 204 96) = false ∨
            Config.lmsVerifies (slice b 144 56) (b.take 200) (b.drop 304) = false → exec c s =
          .next (s.refusedWith r.call [used, .count .secAuthFails 0 0 1, .raise 457 0 0xFFFFFF 0 0] 0x0602)) ∧
        (p = 1 ∨ sha (slice b 48 96) ++ sha (slice b 144 56) = s.dev.otpBytes (if sign = 1 then 0x200 else 0x260) 96 →
          Config.ecdsaVerifies (slice b 48 96) (sha (b.take 200)) (slice b 204 96) = true →
          Config.lmsVerifies (slice b 144 56) (b.take 200) (b.drop 304) = true →
          ((∀ k ∈ bits, ∀ f ∈ fails, f.toNat ≠ k) → exec c s = .next (s.served r.call
            (used :: ((bits.filter fun k => !bitOf s.dev.otp k).map fun k => .burn (2 ^ k)) ++ own) data)) ∧
          (∀ k, bits = [k] → bitOf s.dev.otp k = false → (∃ f ∈ fails, f.toNat = k) → exec c s =
            .next (s.refusedWith r.call [used, .count .secOtpFails 0 0 1, .raise 462 0 0xFFFFFF 0 0] 0x0701)))))) ∧
  (∀ (s : State) (o : Origin) (r : Req) (b : List Byte) (used : Eff), s.Inv → b = SMap.get [] s.dev.sec.stage o.code.toNat →
    used = .sec (fun x => { x with
      stage := SMap.put [] o.code.toNat [] x.stage, chal := SMap.put [] o.code.toNat [] x.chal }) → s.dev.admits r →
    (r = execReq o .secOwnerEnrol 0 0 true (.oct []) → s.dev.recordAbort o.code.toNat 1 = 0 → s.dev.lifecycle = 2 →
      exec (.secOwnerEnrol o []) s = .next (s.served r.call (used ::
        ((s.dev.otpTodo (otpBitsOf 0x200 (recordKeys b) ++ [8 * 0x1E2])).map fun k => .burn (2 ^ k)) ++ [.raise 452 0 0xFFFFFF 0 0]) [])) ∧
    (r = execReq o .secOwnerLock 0 0 true (.oct []) → s.dev.recordAbort o.code.toNat 2 = 0 → exec (.secOwnerLock o []) s =
      .next (s.served r.call [used, .burn (2 ^ (8 * 0x1E2 + 1)), .raise 453 0 0xFFFFFF 0 0] [])) ∧
    (r = execReq o .secDebugUnlock 0 0 true (.oct []) → bitOf (s.dev.num .rstStraps) 3 = true → s.dev.recordAbort o.code.toNat 3 = 0 →
      exec (.secDebugUnlock o) s = .next (s.served r.call [used, .obj .secDebugState 0 0 (.num (128 + beAt b 4 4)),
        .raise 455 0 0xFFFFFF (top8 (beAt b 4 4) + beAt b 1 1 * 65536) 0] []))) ∧
  (∀ (s : State) (o : Origin) (v : BitVec 8) (fails : List (BitVec 15)) (r : Req), s.Inv →
    r = execReq o .secLifecycleAdvance 0 0 true (.num v.toNat) → s.dev.admits r →
    (3 < v.toNat → exec (.secLifecycleAdvance o v fails) s = .next (s.refusedWith r.call [] 0x0302)) ∧
    (v.toNat ≤ s.dev.lifecycle → exec (.secLifecycleAdvance o v fails) s = .next (s.refusedWith r.call [] 0x0401)) ∧
    (v.toNat = 2 → s.dev.lifecycle = 1 → (∀ f ∈ fails, f.toNat ≠ 8 * 0x1E1 + 1) → exec (.secLifecycleAdvance o v fails) s =
      .next (s.served r.call [.burn (2 ^ (8 * 0x1E1 + 1)), .raise 454 0 0xFFFFFF 0 0] []))) ∧
  (∀ (s : State) (o : Origin) (v : BitVec 8) (fails : List (BitVec 15)) (r : Req), s.Inv →
    r = execReq o .secRollbackCommit 0 0 true (.num v.toNat) → s.dev.admits r →
    (flashNum s.dev.sec.run1 20 1 < v.toNat ∨ flashNum s.dev.sec.run2 20 1 < v.toNat →
      exec (.secRollbackCommit o v fails) s = .next (s.refusedWith r.call [] 0x0302)) ∧
    (v.toNat ≤ flashNum s.dev.sec.run1 20 1 → v.toNat ≤ flashNum s.dev.sec.run2 20 1 →
      (v.toNat ≤ s.dev.rollback → exec (.secRollbackCommit o v fails) s = .next (s.served r.call [] [])) ∧
      (s.dev.rollback < v.toNat → v.toNat ≤ 128 → fails = [] → ∃ t, exec (.secRollbackCommit o v fails) s = .next t ∧
        t.pending = s.pending ∧ t.dev.rollback = v.toNat ∧ t.dev.raisedEvent 451 0 0xFFFFFF))) ∧
  (∀ (s : State) (o : Origin) (r : Req) (code : Nat) (x : List Byte), s.Inv → code = o.code.toNat →
    (r = readReq o .secChallenge 0 0 (.num 0) → s.dev.admits r →
      (s.dev.sec.trngOff = true → exec (.secChallengeRead o) s = .next (s.refusedWith r.call [] 0x0701)) ∧
      (s.dev.sec.trngOff = false → x = beBytes 32 (Config.freeValue s.dev.free) → exec (.secChallengeRead o) s =
        .next (s.served r.call [.draw, .sec fun y => { y with
          chal := SMap.put [] code (beBytes 6 (s.dev.tim.secs + 60) ++ beBytes 4 s.dev.tim.ns ++ x) y.chal }] x))) ∧
    (r = execReq o .secAuthIssue 0 0 true (.oct []) → s.dev.admits r → s.dev.ownerLocked = false →
      (code = 0x0400 → exec (.secAuthIssue o) s = .next (s.refusedWith r.call [] 0x0201)) ∧
      (code ≠ 0x0400 → s.dev.sec.trngOff = true → exec (.secAuthIssue o) s = .next (s.refusedWith r.call [] 0x0701)) ∧
      (code ≠ 0x0400 → s.dev.sec.trngOff = false → x = beBytes 16 (Config.freeValue s.dev.free) → exec (.secAuthIssue o) s =
        .next (s.served r.call [.draw, .sec fun y => { y with
          tokens := SMap.put [] code (beBytes 6 (s.dev.tim.secs + 10) ++ beBytes 4 s.dev.tim.ns ++ x) y.tokens }] x))) ∧
    (r = execReq o .secDebugUnlock 0 0 true (.oct []) → s.dev.admits r → bitOf (s.dev.num .rstStraps) 3 = false →
      exec (.secDebugUnlock o) s = .next (s.refusedWith r.call [] 0x0401)) ∧
    (r = execReq o .secDebugEnd 0 0 true (.oct []) → s.dev.admits r →
      (bitOf (s.dev.num .secDebugState) 7 = false → exec (.secDebugEnd o) s = .next (s.served r.call [] [])) ∧
      (bitOf (s.dev.num .secDebugState) 7 = true → exec (.secDebugEnd o) s = .next (s.served r.call
        [.obj .secDebugState 0 0 (.num 0), .raise 456 0 0xFFFFFF 0 0] [])))) ∧
  (∀ (s : State) (o : Origin) (b : List Byte) (r : Req) (code k : Nat) (peer priv pub who key : List Byte), s.Inv → b.length = 100 →
    code = o.code.toNat → k = beAt b 0 1 → peer = slice b 4 96 → r = execReq o .secKekAgree 0 0 true (.oct b) → s.dev.admits r →
    priv = beBytes 48 (Config.freeValue s.dev.free) → pub = padTo 96 (Config.ecdsaPublic priv) →
    who = beBytes 8 (s.dev.num .idTerminal) ++ beBytes 1 k →
    key = padTo 32 (Config.hkdf (Config.ecdh priv peer) (zeros 48) ([0x4B, 0x59, 0x4D, 0x55, 0x53, 0x2D, 0x4B, 0x45, 0x4B] ++ who) 32) →
    (k = 0 ∨ 15 < k ∨ beAt b 1 3 ≠ 0 ∨ Config.onCurve peer = false →
      exec (.secKekAgree o b) s = .next (s.refusedWith r.call [] 0x0302)) ∧
    (1 ≤ k → k ≤ 15 → beAt b 1 3 = 0 → Config.onCurve peer = true →
      (s.dev.lifecycle = 0 ∨ s.dev.lifecycle = 3 ∨ s.dev.secSuspended = true ∨
          (isHost code = true ∧ (s.dev.fn (hostKey code)).live = false) →
        exec (.secKekAgree o b) s = .next (s.refusedWith r.call [] 0x0401)) ∧
      (s.dev.lifecycle = 1 ∨ s.dev.lifecycle = 2 → s.dev.secSuspended = false →
        isHost code = false ∨ (s.dev.fn (hostKey code)).live = true →
        (beAt (s.dev.oct .secKekState) (3 * k) 1 = 1 → beAt (s.dev.oct .secKekState) (3 * k + 1) 2 ≠ code →
          exec (.secKekAgree o b) s = .next (s.refusedWith r.call [] 0x0402)) ∧
        (beAt (s.dev.oct .secKekState) (3 * k) 1 ≠ 1 ∨ beAt (s.dev.oct .secKekState) (3 * k + 1) 2 = code →
          (s.dev.sec.trngOff = true → exec (.secKekAgree o b) s = .next (s.refusedWith r.call [] 0x0701)) ∧
          (s.dev.sec.trngOff = false → exec (.secKekAgree o b) s = .next (s.served r.call [.draw, .draw, .key (kekKey k) key,
            .obj .secKekState 0 0 (.oct (patch (s.dev.oct .secKekState) (3 * k) (1 :: beBytes 2 code))), .raise 463 0 0xFFFFFF 0 0]
            (pub ++ padTo 96 (Config.ecdsaSign s.dev.idKey (sha (who ++ peer ++ pub)) (Config.freeValue (s.dev.free + 1)))))))))) ∧
  (∀ (s : State) (o : Origin) (v : BitVec 8) (r : Req) (code : Nat), s.Inv → code = o.code.toNat →
    r = execReq o .secKekClear 0 0 true (.num v.toNat) → s.dev.admits r →
    (code ≠ 0x0400 → beAt (s.dev.oct .secKekState) (3 * v.toNat) 1 ≠ 1 ∨ beAt (s.dev.oct .secKekState) (3 * v.toNat + 1) 2 ≠ code →
      exec (.secKekClear o v) s = .next (s.refusedWith r.call [] 0x0201)) ∧
    (v.toNat ≤ 15 → code = 0x0400 ∨ (beAt (s.dev.oct .secKekState) (3 * v.toNat) 1 = 1 ∧
        beAt (s.dev.oct .secKekState) (3 * v.toNat + 1) 2 = code) → exec (.secKekClear o v) s = .next (s.served r.call
      [.obj .secKekState 0 0 (.oct (patch (s.dev.oct .secKekState) (3 * v.toNat) [0, 0, 0])), .key (kekKey v.toNat) []] []))) ∧
  (∀ (s : State) (o : Origin) (nonce : List Byte) (fails : List (BitVec 15)) (r : Req) (code q k t f : Nat) (m : List Byte), s.Inv →
    nonce.length = 32 → code = o.code.toNat → q = s.dev.num .secLmsNext → k = q / 1024 → t = s.dev.num .clkTimingChannel →
    f = (if s.dev.num .frmAlignState t = 2 then s.dev.num .frmFrame t else 2 ^ 64 - 1) →
    m = beBytes 4 0x4B594154 ++ beBytes 2 1 ++ beBytes 2 280 ++ beBytes 8 (s.dev.num .idTerminal) ++ nonce ++ beBytes 2 code ++
      beBytes 1 s.dev.lifecycle ++ beBytes 1 s.dev.reportStatus ++ beBytes 1 s.dev.rollback ++ zeros 3 ++ beBytes 8 f ++
      beBytes 6 s.dev.tim.secs ++ beBytes 4 s.dev.tim.ns ++ zeros 2 ++ beBytes 4 (s.dev.num .idFwVersion) ++
      s.dev.oct .secStage1Hash ++ s.dev.oct .secStage2Hash ++
      (if s.dev.cfg.base.version = 0 then zeros 48 else s.dev.cfg.base.hash) ++ beBytes 8 s.dev.cfg.mask ++ s.dev.overlaysHash →
    r = execReq o .secAttest 0 0 true (.oct nonce) → s.dev.admits r →
    (s.dev.lifecycle = 0 ∨ s.dev.lifecycle = 3 ∨ s.dev.secSuspended = true ∨ (∀ j < 1024, s.dev.otpBit 0x300 j = true) →
      exec (.secAttest o nonce fails) s = .next (s.refusedWith r.call [] 0x0401)) ∧
    (s.dev.lifecycle = 1 ∨ s.dev.lifecycle = 2 → s.dev.secSuspended = false → (∃ j < 1024, s.dev.otpBit 0x300 j = false) →
      (s.dev.sec.trngOff = true → exec (.secAttest o nonce fails) s = .next (s.refusedWith r.call [] 0x0701)) ∧
      (∀ (es : List Eff) (x : List Byte), s.dev.sec.trngOff = false → k < 1024 → s.dev.otpBit 0x300 k = true ∧ es = [] ∨
          s.dev.otpBit 0x300 k = false ∧ (∀ y ∈ fails, y.toNat ≠ 8 * 0x300 + k) ∧
            es = [.burn (2 ^ (8 * 0x300 + k)), .raise 459 0 0xFFFFFF 0 0] ++ (if k = 1008 then [.raise 460 0 0xFFFFFF 0 0] else []) ++
              (if k = 1023 then [.raise 461 0 0xFFFFFF 0 0] else []) →
        x = m ++ beBytes 4 96 ++ padTo 96 (Config.ecdsaSign s.dev.idKey (sha m) (Config.freeValue s.dev.free)) ++ beBytes 4 1772 ++
          padTo 1772 (Config.lmsSign (s.dev.otpBytes 0x20 32) (s.dev.otpBytes 0x40 16) q m) →
        exec (.secAttest o nonce fails) s = .next (s.served r.call (es ++ [.obj .secLmsNext 0 0 (.num (q + 1)), .draw,
          .sec (fun y => { y with reports := SMap.put [] code x y.reports }), .raise 458 0 0xFFFFFF (top16 code) q])
          (beBytes 4 q ++ beBytes 4 2156))))) ∧
  (∀ s : State, s.Inv →
    (s.dev.answers = false ∨ s.dev.sec.trngOff = true → exec .trngHealthFail s = .next s) ∧
    (s.dev.answers = true → s.dev.sec.trngOff = false → exec .trngHealthFail s = .next (s.after
      [.sec fun x => { x with trngOff := true }, .raise 466 0 0xFFFFFF 0 0])))

/-- Reading the recorder (R618). -/
def Obligations.RecordsRead : Prop :=
  ∀ (s : State) (o : Origin) (b : List Byte) (r : Req) (l : List Record) (room : Nat) (before : Record → Record → Prop), s.Inv →
    b.length = 8 → r = execReq o .evrRead 0 0 true (.oct b) → s.dev.admits r → room = pathData o.path / 32 →
    l = ((s.dev.recd.recs.filter fun x => decide ((x.seq + 2 ^ 32 - beAt b 0 4) % 2 ^ 32 < 2 ^ 31)).take (min (beAt b 4 2) room)) →
    (∀ x y, before x y ↔ x.seq ≠ y.seq ∧ (y.seq + 2 ^ 32 - x.seq) % 2 ^ 32 < 2 ^ 31) →
    (beAt b 4 2 = 0 ∨ 127 < beAt b 4 2 ∨ beAt b 6 2 ≠ 0 → exec (.evrRead o b) s = .next (s.refusedWith r.call [] 0x0302)) ∧
    (1 ≤ beAt b 4 2 → beAt b 4 2 ≤ 127 → beAt b 6 2 = 0 →
      exec (.evrRead o b) s = .next (s.served r.call [] (l.flatMap Record.bytes)) ∧
      l.length ≤ beAt b 4 2 ∧ 32 * l.length ≤ pathData o.path ∧ (o.path = .serial → room = 7) ∧
      (∀ x ∈ l, x ∈ s.dev.recd.recs ∧ (Record.bytes x).length = 32) ∧
      (s.dev.recd.recs.Pairwise before → l.Pairwise before))

/-- The recorder (R100, R612 to R621) and the monitors (R624), shown where no event ring runs, the source is mapped to no vector and the device
is in Run. -/
def Obligations.RecorderAndMonitors : Prop :=
  (∀ (s : State) (m : BitVec 16), s.Inv → s.dev.answers = false ∨ s.dev.occs = [] → exec (.eventRecord m) s = .next s) ∧
  (∀ (s : State) (m : BitVec 16) (sat : Bool) (x : Occ) (rest : List Occ) (q : Record) (k c next : Nat) (tail : List Eff), s.Inv →
    s.dev.answers = true → s.dev.occs = x :: rest → k = min m.toNat (rest.filter x.like).length → sat = decide (255 < k) → s.dev.rings = [] → s.dev.inRun → (∀ l < 4, bitOf (s.dev.num .hifEvtMap l x.src) 31 = false) →
    x.src < 512 → x.code < 256 → x.inst < 2 ^ 24 → x.arg0 < 2 ^ 32 → x.arg1 < 2 ^ 32 → c = 1 + min k 255 → next = s.dev.num .evrNextSeq →
    q = ⟨x.src, s.dev.num .evrSrcCfg 0 x.src % 8, complexOf x.src, 0, x.secs, x.ns, min k 255,
      128 * b2n x.unsync + 64 * b2n sat, x.code, x.inst, x.arg0, x.arg1⟩ →
    tail = (if sat then [.count .xingMergeSaturations 0 0 1, .raise 18 0 0xFFFFFF 0 0] else []) →
    (bitOf (s.dev.num .evrSrcCfg 0 x.src) 7 = false →
      exec (.eventRecord m) s = .next (s.after ([.mergeOccs k, .takeOcc] ++ tail))) ∧
    (bitOf (s.dev.num .evrSrcCfg 0 x.src) 7 = true → s.dev.recd.frozen = none →
      (∀ (z : Record) (w : Nat), s.dev.recd.recs.getLast? = some z → w = s.dev.num .evrRepeatWindow * 1000000 →
        z.src = x.src → z.code = x.code → z.inst = x.inst → z.rep + c ≤ 255 → w ≠ 0 → z.ns < 1000000000 → x.ns < 1000000000 →
        z.secs * 1000000000 + z.ns ≤ x.secs * 1000000000 + x.ns →
        x.secs * 1000000000 + x.ns < z.secs * 1000000000 + z.ns + w →
        exec (.eventRecord m) s = .next (s.after ([.mergeOccs k, .takeOcc, .recMerge c sat] ++ tail))) ∧
      ((∀ z : Record, s.dev.recd.recs.getLast? = some z → z.src ≠ x.src ∨ z.code ≠ x.code ∨ z.inst ≠ x.inst ∨ 255 < z.rep + c ∨
          s.dev.num .evrRepeatWindow = 0 ∨ x.secs < z.secs ∨ (x.secs = z.secs ∧ x.ns < z.ns)) →
        (s.dev.recd.recs.length < 32768 → exec (.eventRecord m) s = .next (s.after ([.mergeOccs k, .takeOcc, .recWrite { q with seq := next },
          .obj .evrNextSeq 0 0 (.num ((next + 1) % 2 ^ 32))] ++ tail))) ∧
        (s.dev.recd.recs.length = 32768 →
          (∀ a z b, s.dev.recd.recs = a ++ z :: b → z.sev ≤ q.sev → (∀ y ∈ a, q.sev < y.sev) → ∃ t, exec (.eventRecord m) s = .next t ∧
            t.pending = s.pending ∧ t.dev.recd.recs = a ++ b ++ [{ q with seq := next }] ∧ t.dev.num .evrNextSeq = (next + 1) % 2 ^ 32) ∧
          ((∀ y ∈ s.dev.recd.recs, q.sev < y.sev) → exec (.eventRecord m) s = .next (s.after ([.mergeOccs k, .takeOcc, .count .evrLost 0 q.sev 1] ++
            (if s.dev.recd.lastDrop = some s.dev.tim.secs then []
              else [.recDropAt s.dev.tim.secs, .raise 480 0 0xFFFFFF (top8 q.sev) 0]) ++ tail)))))) ∧
    (∀ h, bitOf (s.dev.num .evrSrcCfg 0 x.src) 7 = true → s.dev.recd.frozen = some h →
      (q.sev < 6 → exec (.eventRecord m) s = .next (s.after ([.mergeOccs k, .takeOcc, .count .evrFrozenMissed 0 q.sev c] ++ tail))) ∧
      (6 ≤ q.sev → s.dev.recd.hold.length < 64 → exec (.eventRecord m) s = .next (s.after ([.mergeOccs k, .takeOcc, .recHold q] ++ tail))) ∧
      (6 ≤ q.sev → s.dev.recd.hold.length = 64 → exec (.eventRecord m) s = .next (s.after ([.mergeOccs k, .takeOcc, .count .evrLost 0 q.sev c] ++
        (if s.dev.recd.fullRaised then [] else [.recFull, .raise 482 0 0xFFFFFF 0 0]) ++ tail))))) ∧
  (∀ (s : State) (o : Origin) (r : Req) (code : Nat) (ended : State → Nat → Nat → Prop), s.Inv → code = s.dev.codeOf o.path →
    (∀ t h k, ended t h k ↔ t.pending = s.pending ∧ t.dev.recd.frozen = none ∧ t.dev.recd.hold = [] ∧
      ∃ z, t.dev.recd.recs.getLast? = some z ∧ z.src = 481 ∧ z.code = k ∧ z.inst = h) →
    s.dev.rings = [] → s.dev.inRun → (∀ l < 4, bitOf (s.dev.num .hifEvtMap l 481) 31 = false) →
    bitOf (s.dev.num .evrSrcCfg 0 481) 7 = true → s.dev.num .evrRepeatWindow = 0 →
    (r = execReq o .evrFreeze 0 0 true (.num 1) → s.dev.admits r →
      (∀ h, s.dev.recd.frozen = some h → h ≠ code → exec (.evrFreezeStart o) s = .next (s.refusedWith r.call [] 0x0402)) ∧
      (s.dev.recd.frozen = some code → exec (.evrFreezeStart o) s = .next (s.served r.call [] [])) ∧
      (s.dev.recd.frozen = none → s.dev.recd.recs.length < 32768 → ∃ t z, exec (.evrFreezeStart o) s = .next t ∧ t.pending = s.pending ∧
        t.dev.recd.frozen = some code ∧ t.dev.recd.recs = s.dev.recd.recs ++ [z] ∧ z.src = 481 ∧ z.code = 1 ∧ z.inst = code ∧
        z.seq = s.dev.num .evrNextSeq)) ∧
    (r = execReq o .evrFreeze 0 0 true (.num 0) → s.dev.admits r →
      (∀ h, s.dev.recd.frozen = some h → h ≠ code → code ≠ 0x0400 → exec (.evrFreezeEnd o) s = .next (s.refusedWith r.call [] 0x0201)) ∧
      (s.dev.recd.frozen = none → exec (.evrFreezeEnd o) s = .next (s.served r.call [] [])) ∧
      (∀ h, s.dev.recd.frozen = some h → h < 2 ^ 24 → h = code ∨ code = 0x0400 →
        s.dev.recd.recs.length + s.dev.recd.hold.length < 32768 →
        ∃ t, exec (.evrFreezeEnd o) s = .next t ∧ ended t h 2)) ∧
    (s.dev.recd.frozen = none → exec .evrFreezeLimit s = .next s) ∧
    (∀ h, s.dev.answers = true → s.dev.recd.frozen = some h → h < 2 ^ 24 → s.dev.recd.recs.length + s.dev.recd.hold.length < 32768 →
      ∃ t, exec .evrFreezeLimit s = .next t ∧ ended t h 3)) ∧
  (∀ (s : State) (o : Origin) (tok : List Byte) (r : Req) (code : Nat) (refused : Nat → Prop), s.Inv → tok.length = 16 →
    code = s.dev.codeOf o.path → r = execReq o .evrClear 0 0 true (.oct tok) → s.dev.admits r →
    (∀ a, refused a ↔ exec (.evrClear o tok) s = .next (s.refusedWith r.call [.raise 484 0 0xFFFFFF (top16 a) 0] a)) →
    (s.dev.token code ≠ some tok → refused 0x0601) ∧
    (∀ h, s.dev.token code = some tok → s.dev.recd.frozen = some h → h ≠ code → refused 0x0402) ∧
    (s.dev.token code = some tok → s.dev.recd.frozen = none ∨ s.dev.recd.frozen = some code → s.dev.rings = [] → s.dev.inRun →
      (∀ l < 4, bitOf (s.dev.num .hifEvtMap l 483) 31 = false ∧ bitOf (s.dev.num .hifEvtMap l 481) 31 = false) →
      bitOf (s.dev.num .evrSrcCfg 0 483) 7 = true → bitOf (s.dev.num .evrSrcCfg 0 481) 7 = true →
      ∃ t z rest, exec (.evrClear o tok) s = .next t ∧ t.pending = s.pending ∧ t.dev.recd.frozen = none ∧ t.dev.recd.hold = [] ∧
        t.dev.recd.recs = z :: rest ∧ z.src = 483 ∧ z.seq = 1 ∧ bitOf z.flags 4 = true ∧ z.inst = code ∧
        z.arg0 = s.dev.recd.recs.length ∧ t.dev.token code = none ∧
        (s.dev.recd.frozen = none → rest = [] ∧ t.dev.num .evrNextSeq = 2) ∧
        (s.dev.recd.frozen = some code → ∃ y, rest = [y] ∧ y.src = 481 ∧ y.code = 6 ∧ y.inst = code ∧ y.seq = 2))) ∧
  (∀ (s : State) (drive : Bool → List Eff), s.Inv →
    (∀ low, drive low = if s.dev.pins.thermN = low ∧ s.dev.clk.devReset = false ∧ s.dev.num .pwrState < 3 then [.pins fun p => { p with thermN := !low }, .raise 496 0 0xFFFFFF 0 0] else []) →
    exec .thermAssert s = .next (s.after (drive true)) ∧ exec .thermRelease s = .next (s.after (drive false)) ∧
    exec .thermMonitorFault s = .next (s.after (.raise 497 0 0xFFFFFF 0 0 :: drive true)) ∧
    exec .vcoreOutOfRange s = .next (s.after [.raise 498 0 0xFFFFFF 0 0]) ∧
    (∀ (k : Fin 10) (out : Bool), exec (.railOutOfRange k out) s = .next (s.after
      (.obj .fltRailStatus 0 0 (.num (putBit (s.dev.num .fltRailStatus) k.val out)) ::
        if out then [.raise 499 0 k.val 0 0] else []))))
end

