-- ==== Sys2Proof/Laws/State.lean ====
section
/-!
SUPPORT. Small lemmas about stores, objects, effects and programs, so that no later proof unfolds a record update.
-/
namespace Sys2Proof.Machine

/-! ## Stores -/

theorem SMap.wfFrom_mono {α : Type} [DecidableEq α] (d : α) {a b : Nat} (h : a ≤ b) :
    ∀ {m : SMap α}, SMap.wfFrom d b m = true → SMap.wfFrom d a m = true
  | [], _ => rfl
  | (k, v) :: r, hm => by
    simp only [SMap.wfFrom, Bool.and_eq_true, decide_eq_true_eq] at hm ⊢
    exact ⟨⟨by omega, hm.1.2⟩, hm.2⟩

/-- A write keeps the canonical form. -/
theorem SMap.put_wfFrom {α : Type} [DecidableEq α] (d : α) (i : Nat) (v : α) :
    ∀ {m : SMap α} {b : Nat}, b ≤ i → SMap.wfFrom d b m = true → SMap.wfFrom d b (SMap.put d i v m) = true
  | [], b, hb, _ => by
    unfold SMap.put
    split
    · rfl
    · simp [SMap.wfFrom, *]
  | (k, w) :: r, b, hb, hm => by
    simp only [SMap.wfFrom, Bool.and_eq_true, decide_eq_true_eq] at hm
    obtain ⟨⟨hk, hw⟩, hr⟩ := hm
    unfold SMap.put
    split
    · simp only [SMap.wfFrom, Bool.and_eq_true, decide_eq_true_eq]
      exact ⟨⟨hk, hw⟩, SMap.put_wfFrom d i v (by omega) hr⟩
    · split
      · subst_vars
        split
        · exact SMap.wfFrom_mono d (by omega) hr
        · simp only [SMap.wfFrom, Bool.and_eq_true, decide_eq_true_eq]
          exact ⟨⟨hb, ‹_›⟩, hr⟩
      · split
        · simp only [SMap.wfFrom, Bool.and_eq_true, decide_eq_true_eq]
          exact ⟨⟨hk, hw⟩, hr⟩
        · simp only [SMap.wfFrom, Bool.and_eq_true, decide_eq_true_eq]
          exact ⟨⟨hb, ‹_›⟩, ⟨by omega, hw⟩, hr⟩

theorem SMap.put_wf {α : Type} [DecidableEq α] {d : α} {i : Nat} {v : α} {m : SMap α} (h : SMap.wf d m = true) :
    SMap.wf d (SMap.put d i v m) = true := SMap.put_wfFrom d i v (Nat.zero_le _) h

theorem SMap.upd_wf {α : Type} [DecidableEq α] {d : α} {i : Nat} {f : α → α} {m : SMap α} (h : SMap.wf d m = true) :
    SMap.wf d (SMap.upd d i f m) = true := SMap.put_wf h

theorem SMap.drop_wfFrom {α : Type} [DecidableEq α] (d : α) (p : Nat → Bool) :
    ∀ {m : SMap α} {b : Nat}, SMap.wfFrom d b m = true → SMap.wfFrom d b (SMap.drop p m) = true
  | [], _, _ => rfl
  | (k, v) :: r, b, hm => by
    simp only [SMap.wfFrom, Bool.and_eq_true, decide_eq_true_eq] at hm
    have ih := SMap.drop_wfFrom d p hm.2
    simp only [SMap.drop] at ih ⊢
    rw [List.filter_cons]
    split
    · simp only [SMap.wfFrom, Bool.and_eq_true, decide_eq_true_eq]
      exact ⟨hm.1, ih⟩
    · exact SMap.wfFrom_mono d (by omega) ih

theorem SMap.drop_wf {α : Type} [DecidableEq α] {d : α} {p : Nat → Bool} {m : SMap α} (h : SMap.wf d m = true) :
    SMap.wf d (SMap.drop p m) = true := SMap.drop_wfFrom d p h

theorem SMap.mapped_wf {α : Type} [DecidableEq α] {d : α} {f : α → α} {m : SMap α} : SMap.wf d (SMap.mapped d f m) = true := by
  suffices h : ∀ (l a : SMap α), SMap.wf d a = true → SMap.wf d (l.foldl (fun a e => SMap.put d e.1 (f e.2) a) a) = true from
    h m [] rfl
  intro l
  induction l with
  | nil => exact fun a h => h
  | cons e r ih => exact fun a h => ih _ (SMap.put_wf h)

/-- A key below every listed key reads as unlisted. -/
theorem SMap.get_of_wfFrom {α : Type} [DecidableEq α] (d : α) {i : Nat} :
    ∀ {m : SMap α} {b : Nat}, SMap.wfFrom d b m = true → i < b → SMap.get d m i = d
  | [], _, _, _ => rfl
  | (k, v) :: r, b, hm, hi => by
    simp only [SMap.wfFrom, Bool.and_eq_true, decide_eq_true_eq] at hm
    simp only [SMap.get]
    rw [if_neg (by omega), if_pos (by omega)]

/-- A read after a write of the same key, in a canonical store. -/
theorem SMap.get_put_same {α : Type} [DecidableEq α] (d : α) (i : Nat) (v : α) :
    ∀ {m : SMap α} {b : Nat}, SMap.wfFrom d b m = true → SMap.get d (SMap.put d i v m) i = v
  | [], b, _ => by
    by_cases hv : v = d <;> simp [SMap.put, hv, SMap.get]
  | (k, w) :: r, b, hm => by
    simp only [SMap.wfFrom, Bool.and_eq_true, decide_eq_true_eq] at hm
    have ih := SMap.get_put_same d i v hm.2
    have hr : ∀ x, x < k + 1 → SMap.get d r x = d := fun x hx => SMap.get_of_wfFrom d hm.2 hx
    by_cases h1 : k < i
    · have : ¬ k = i := by omega
      have h3 : ¬ i < k := by omega
      simp [SMap.put, h1, SMap.get, this, h3, ih]
    · by_cases h2 : k = i
      · by_cases hv : v = d <;> simp [SMap.put, h2, hv, SMap.get]
        exact hr i (by omega)
      · have h3 : i < k := by omega
        by_cases hv : v = d <;> simp [SMap.put, h1, h2, hv, SMap.get, h3]

/-- A read of another key than the one written. -/
theorem SMap.get_put_other {α : Type} [DecidableEq α] (d : α) {i j : Nat} (v : α) (h : j ≠ i) :
    ∀ {m : SMap α} {b : Nat}, SMap.wfFrom d b m = true → SMap.get d (SMap.put d i v m) j = SMap.get d m j
  | [], b, _ => by
    have : ¬ i = j := fun e => h e.symm
    by_cases hv : v = d <;> simp [SMap.put, hv, SMap.get, this]
  | (k, w) :: r, b, hm => by
    simp only [SMap.wfFrom, Bool.and_eq_true, decide_eq_true_eq] at hm
    have ih := SMap.get_put_other d v h hm.2
    have hr : ∀ x, x < k + 1 → SMap.get d r x = d := fun x hx => SMap.get_of_wfFrom d hm.2 hx
    by_cases h1 : k < i
    · simp [SMap.put, h1, SMap.get, ih]
    · have hij : ¬ i = j := fun e => h e.symm
      by_cases h2 : k = i
      · by_cases hv : v = d
        · simp only [SMap.put, h2, hv, SMap.get, Nat.lt_irrefl, if_false, if_true, if_neg hij]
          split
          · exact hr j (by omega)
          · rfl
        · simp [SMap.put, h2, hv, SMap.get, hij]
      · have h3 : i < k := by omega
        by_cases hv : v = d
        · simp [SMap.put, h1, h2, hv]
        · simp only [SMap.put, h1, h2, hv, if_false, SMap.get, if_neg hij]
          by_cases h4 : j < i
          · have h5 : ¬ k = j := by omega
            have h6 : j < k := by omega
            simp [h4, h5, h6]
          · simp [h4]

@[simp] theorem SMap.get_nil {α : Type} (d : α) (i : Nat) : SMap.get d [] i = d := rfl

/-! ## Programs -/

@[simp] theorem Prog.run_skip (d : Dev) : Prog.skip.run d = d := rfl
@[simp] theorem Prog.run_eff (e : Eff) (d : Dev) : (Prog.eff e).run d = e.apply d := rfl
@[simp] theorem Prog.run_seq (p q : Prog) (d : Dev) : (Prog.seq p q).run d = q.run (p.run d) := rfl
@[simp] theorem Prog.run_ask (f : Dev → Prog) (d : Dev) : (Prog.ask f).run d = (f d).run d := rfl
@[simp] theorem Prog.all_nil : Prog.all [] = .skip := rfl
@[simp] theorem Prog.run_all_cons (p : Prog) (ps : List Prog) (d : Dev) : (Prog.all (p :: ps)).run d = (Prog.all ps).run (p.run d) := rfl
@[simp] theorem Prog.when_true (ps : List Prog) : Prog.when true ps = .all ps := rfl
@[simp] theorem Prog.when_false (ps : List Prog) : Prog.when false ps = .skip := rfl

@[simp] theorem Dev.after_nil (d : Dev) : d.after [] = d := rfl
@[simp] theorem Dev.after_cons (d : Dev) (e : Eff) (es : List Eff) : d.after (e :: es) = (e.apply d).after es := rfl

theorem State.run_eq (s : State) (p : Prog) : s.run p = .next { s with dev := p.run s.dev } := rfl

/-- A relation between devices that every effect keeps is kept by every program. -/
theorem Prog.run_keeps {R : Dev → Dev → Prop} (refl : ∀ d, R d d) (trans : ∀ a b c, R a b → R b c → R a c)
    (h : ∀ (e : Eff) (d : Dev), R d (e.apply d)) : ∀ (p : Prog) (d : Dev), R d (p.run d)
  | .skip, d => refl d
  | .eff e, d => h e d
  | .seq p q, d => trans _ _ _ (Prog.run_keeps refl trans h p d) (Prog.run_keeps refl trans h q (p.run d))
  | .ask f, d => Prog.run_keeps refl trans h (f d) d

/-- A property that every effect keeps is kept by every program. -/
theorem Prog.run_inv {P : Dev → Prop} (h : ∀ (e : Eff) (d : Dev), P d → P (e.apply d)) (p : Prog) (d : Dev) (hd : P d) :
    P (p.run d) :=
  Prog.run_keeps (R := fun a b => P a → P b) (fun _ x => x) (fun _ _ _ f g x => g (f x)) h p d hd

end Sys2Proof.Machine
end

