-- ==== Sys2Proof/Laws/Bounds.lean ====
section
/-!
SUPPORT. The recorder's and Ringmaster's stores keep their bounds (R44, R573, R617, R620).
-/
namespace Sys2Proof.Machine

/-! ## Records -/

theorem dropOldest_length {s : Nat} : ∀ {l m : List Record}, dropOldest s l = some m → m.length + 1 = l.length
  | [], _, h => by simp [dropOldest] at h
  | r :: rs, m, h => by
    unfold dropOldest at h
    split at h
    · cases h; rfl
    · cases hd : dropOldest s rs with
      | none => simp [hd] at h
      | some k =>
        simp [hd] at h
        subst h
        simp [← dropOldest_length hd]

theorem writeRec_length {l : List Record} {r : Record} (h : l.length ≤ recCap) : (writeRec l r).length ≤ recCap := by
  unfold writeRec
  split
  · simp only [List.length_append, List.length_singleton]; omega
  · split
    · rename_i hd
      have := dropOldest_length hd
      simp only [List.length_append, List.length_singleton]; omega
    · exact h

@[simp] theorem mapLast_length {α : Type} (f : α → α) : ∀ l : List α, (mapLast f l).length = l.length
  | [] => rfl
  | [_] => rfl
  | _ :: y :: r => by simp [mapLast, mapLast_length f (y :: r)]

/-! ## Actions -/

@[simp] theorem insertAction_length (a : Action) : ∀ l : List Action, (insertAction a l).length = l.length + 1
  | [] => rfl
  | b :: r => by unfold insertAction; split <;> simp [insertAction_length a r]

theorem mem_insertAction {a x : Action} : ∀ {l : List Action}, x ∈ insertAction a l ↔ x = a ∨ x ∈ l
  | [] => by simp [insertAction]
  | b :: r => by
    unfold insertAction
    split
    · simp
    · simp only [List.mem_cons, mem_insertAction (l := r)]
      tauto

/-- An action with a new slot joins in slot order. -/
theorem insertAction_pairwise {a : Action} : ∀ {l : List Action}, (∀ b ∈ l, b.slot ≠ a.slot) → l.Pairwise (fun x y => x.slot < y.slot) →
    (insertAction a l).Pairwise fun x y => x.slot < y.slot
  | [], _, _ => by simp [insertAction]
  | b :: r, hne, hp => by
    rw [List.pairwise_cons] at hp
    have hb : b.slot ≠ a.slot := hne b (by simp)
    unfold insertAction
    split
    · rename_i hlt
      refine List.pairwise_cons.mpr ⟨fun x hx => ?_, List.pairwise_cons.mpr hp⟩
      rcases List.mem_cons.mp hx with rfl | hx
      · exact hlt
      · exact Nat.lt_trans hlt (hp.1 x hx)
    · rename_i hge
      refine List.pairwise_cons.mpr ⟨fun x hx => ?_, insertAction_pairwise (fun c hc => hne c (by simp [hc])) hp.2⟩
      rcases mem_insertAction.mp hx with rfl | hx
      · omega
      · exact hp.1 x hx

/-- The slot found is free when one of those tried is. -/
theorem freeSlot_spec {acts : List Action} : ∀ {n k : Nat}, (∃ i, k ≤ i ∧ i < k + n ∧ ∀ a ∈ acts, a.slot ≠ i) →
    freeSlot acts n k < k + n ∧ ∀ a ∈ acts, a.slot ≠ freeSlot acts n k
  | 0, k, h => by obtain ⟨i, h1, h2, -⟩ := h; omega
  | n + 1, k, h => by
    unfold freeSlot
    split
    · rename_i hk
      obtain ⟨i, h1, h2, h3⟩ := h
      have hne : i ≠ k := by
        rintro rfl
        simp only [List.any_eq_true, decide_eq_true_eq] at hk
        obtain ⟨a, ha, he⟩ := hk
        exact h3 a ha he
      obtain ⟨a1, a2⟩ := freeSlot_spec (acts := acts) (n := n) (k := k + 1) ⟨i, by omega, by omega, h3⟩
      exact ⟨by omega, a2⟩
    · rename_i hk
      simp only [List.any_eq_true, decide_eq_true_eq, not_exists, not_and] at hk
      exact ⟨by omega, hk⟩

/-- With fewer than 256 actions a slot is free. -/
theorem slot_free {acts : List Action} (h : acts.length < actCap) : ∃ i, 0 ≤ i ∧ i < 0 + 256 ∧ ∀ a ∈ acts, a.slot ≠ i := by
  by_contra hc
  have hall : ∀ i ∈ List.range 256, i ∈ acts.map Action.slot := by
    intro i hi
    by_contra hn
    refine hc ⟨i, Nat.zero_le _, by simpa using hi, fun a ha he => hn ?_⟩
    exact List.mem_map.mpr ⟨a, ha, he⟩
  have := (List.subperm_of_subset List.nodup_range hall).length_le
  simp [actCap] at this h
  omega

@[simp] theorem sameTarget_slot (a b : Action) (n : Nat) : sameTarget { a with slot := n } b = sameTarget a b := rfl

theorem sameTarget_comm (a b : Action) : sameTarget a b = sameTarget b a := by
  simp [sameTarget, eq_comm]

theorem distinctTargets_iff : ∀ {l : List Action}, distinctTargets l = true ↔ l.Pairwise fun a b => sameTarget a b = false
  | [] => by simp [distinctTargets]
  | a :: r => by
    simp [distinctTargets, List.pairwise_cons, distinctTargets_iff (l := r)]

/-- A new target keeps the targets distinct. -/
theorem distinctTargets_insert {a : Action} : ∀ {l : List Action}, l.any (sameTarget a) = false → distinctTargets l = true →
    distinctTargets (insertAction a l) = true
  | [], _, _ => rfl
  | b :: r, hn, hd => by
    simp only [List.any_cons, Bool.or_eq_false_iff] at hn
    have hd0 := hd
    simp only [distinctTargets, Bool.and_eq_true, Bool.not_eq_true'] at hd
    unfold insertAction
    split
    · simp only [distinctTargets, List.any_cons, hn.1, hn.2, hd.1, hd.2]; rfl
    · simp only [distinctTargets, Bool.and_eq_true, Bool.not_eq_true']
      refine ⟨?_, distinctTargets_insert hn.2 hd.2⟩
      rw [← Bool.not_eq_true, List.any_eq_true]
      rintro ⟨x, hx, hs⟩
      rcases mem_insertAction.mp hx with rfl | hx
      · rw [sameTarget_comm] at hs
        simp [hn.1] at hs
      · have := hd.1
        rw [← Bool.not_eq_true, List.any_eq_true] at this
        exact this ⟨x, hx, hs⟩

theorem distinctTargets_filter {l : List Action} (p : Action → Bool) (h : distinctTargets l = true) :
    distinctTargets (l.filter p) = true := by
  rw [distinctTargets_iff] at h ⊢
  exact h.filter p

theorem distinctTargets_map {l : List Action} {f : Action → Action} (hf : ∀ a b, sameTarget (f a) (f b) = sameTarget a b)
    (h : distinctTargets l = true) : distinctTargets (l.map f) = true := by
  rw [distinctTargets_iff] at h ⊢
  rw [List.pairwise_map]
  simpa [hf] using h

end Sys2Proof.Machine
end

