-- ==== Sys2Proof/Laws/Run.lean ====
section
/-!
SUPPORT. Every command runs one program of effects on the device and leaves the queue alone.
-/
namespace Sys2Proof.Machine

/-- What a command that answers a next state has done. -/
def Ran (s t : State) : Prop := ∃ p : Prog, t = { s with dev := p.run s.dev }

theorem ran_run {s t : State} {p : Prog} (h : s.run p = .next t) : Ran s t := by
  cases h; exact ⟨p, rfl⟩

theorem ran_runIf {s t : State} {b : Bool} {p : Prog} (h : s.runIf b p = .next t) : Ran s t := by
  unfold State.runIf at h
  split at h
  · cases h; exact ⟨p, rfl⟩
  · cases h

theorem ran_bar2 {s t : State} {b : Bool} {r : Refusal} {p : Prog} (h : (if b then .refused r else s.run p) = .next t) :
    Ran s t := by
  split at h
  · cases h
  · exact ran_run h

/-- A command that answers a next state has run a program. -/
theorem exec_ran {c : Instr} {s t : State} (h : exec c s = .next t) : Ran s t := by
  cases c <;> first | exact ran_run h | exact ran_runIf h | exact ran_bar2 h

end Sys2Proof.Machine
end

