-- ==== Sys2Proof/Laws/Serve.lean ====
section
/-!
SUPPORT. What serving a request comes to (R139 to R153): a request that is taken up is checked in the state after its
arrival; it is answered with the first abort, or executed and answered.
-/
namespace Sys2Proof.Machine

@[simp] theorem Dev.taken_objs (d : Dev) (c : Call) : (d.taken c).objs = d.objs := rfl
@[simp] theorem Dev.taken_get (d : Dev) (c : Call) (o : Obj) (i j : Nat) : (d.taken c).get o i j = d.get o i j := rfl
@[simp] theorem Dev.taken_num (d : Dev) (c : Call) (o : Obj) (i j : Nat) : (d.taken c).num o i j = d.num o i j := rfl
@[simp] theorem Dev.taken_oct (d : Dev) (c : Call) (o : Obj) (i j : Nat) : (d.taken c).oct o i j = d.oct o i j := rfl
@[simp] theorem Dev.taken_acts (d : Dev) (c : Call) : (d.taken c).acts = d.acts := rfl
@[simp] theorem Dev.taken_clk (d : Dev) (c : Call) : (d.taken c).clk = d.clk := rfl
@[simp] theorem Dev.taken_pwr (d : Dev) (c : Call) : (d.taken c).pwr = d.pwr := rfl
@[simp] theorem Dev.taken_fch (d : Dev) (c : Call) : (d.taken c).fch = d.fch := rfl
@[simp] theorem Dev.taken_ch (d : Dev) (c : Call) (n : Nat) : (d.taken c).ch n = d.ch n := rfl
@[simp] theorem Dev.taken_tim (d : Dev) (c : Call) : (d.taken c).tim = d.tim := rfl
@[simp] theorem Dev.taken_otp (d : Dev) (c : Call) : (d.taken c).otp = d.otp := rfl
@[simp] theorem Dev.taken_sec (d : Dev) (c : Call) : (d.taken c).sec = d.sec := rfl
@[simp] theorem Dev.taken_cfg (d : Dev) (c : Call) : (d.taken c).cfg = d.cfg := rfl
@[simp] theorem Dev.taken_fwd (d : Dev) (c : Call) : (d.taken c).fwd = d.fwd := rfl
@[simp] theorem Dev.taken_tm (d : Dev) (c : Call) : (d.taken c).tm = d.tm := rfl
@[simp] theorem Dev.taken_tbl (d : Dev) (c : Call) : (d.taken c).tbl = d.tbl := rfl
@[simp] theorem Dev.taken_recd (d : Dev) (c : Call) : (d.taken c).recd = d.recd := rfl
@[simp] theorem Dev.taken_occs (d : Dev) (c : Call) : (d.taken c).occs = d.occs := rfl
@[simp] theorem Dev.taken_rings (d : Dev) (c : Call) : (d.taken c).rings = d.rings := rfl

/-- In the Run state with no entry in progress a wake source does nothing. -/
theorem wake_run {d : Dev} {bit : Nat} (h : d.num .pwrState = 0) (hq : d.pwr.req = none) : (wake bit).run d = d := by
  simp [wake, hq, h, Dev.wakes, wakeSources]

theorem upd_of_mailbox (d : Dev) (c : Call) :
    (Eff.um (pathKey c.o.path) fun s => { s with busy := s.busy ++ [c] }).apply ((slotTaken c.o.path true).run d) = d.taken c := by
  unfold slotTaken Dev.taken
  split <;> simp_all [Eff.apply]

theorem slotTaken_path (d : Dev) (p q : UPath) (b : Bool) : ((slotTaken p b).run d).path q = d.path q := by
  unfold slotTaken
  split <;> rfl

/-- A request that is taken up goes on in the state after its arrival. -/
theorem arrive_run {d : Dev} {c : Call} {p : Prog} (h : d.hears c) : (arrive c p).run d = p.run (d.taken c) := by
  obtain ⟨ha, hp, hq, hu, hs, hb, -, -⟩ := h
  have h1 : (d.path c.o.path).sent.find? (fun x => decide (x.call.o.seq = c.o.seq)) = none := by
    simpa [List.find?_eq_none] using hs
  have h2 : (d.path c.o.path).busy.any (fun x => decide (x.o.seq = c.o.seq)) = false := by
    simpa using hb
  have h3 : (d.taken c).unready c = false := hu
  have h4 : (d.path c.o.path).busy.contains c = false := by
    rw [List.contains_eq_any_beq, List.any_eq_false]
    intro x hx he
    exact hb x hx (by rw [← eq_of_beq he])
  unfold arrive arriveIf
  simp only [Prog.run_ask, ha, Prog.when_true, Prog.run_all_cons, h1, h2, Prog.all_nil, Prog.run_skip, Prog.run_eff, Bool.false_eq_true, h4, Bool.and_false, Bool.false_and,
    if_false]
  rw [upd_of_mailbox, wake_run (d := d.taken c) hp hq, h3]
  simp

/-- The path of a request that was taken up has at most 16 in progress. -/
theorem taken_not_full {d : Dev} {c : Call} (hw : SMap.wf UPathSt.none d.um = true) (h : d.hears c) : (d.taken c).full c = false := by
  obtain ⟨-, -, -, -, -, -, hl, -⟩ := h
  have : (d.taken c).path c.o.path = { d.path c.o.path with busy := (d.path c.o.path).busy ++ [c] } := by
    simp only [Dev.path, Dev.taken, SMap.upd]
    exact SMap.get_put_same (b := 0) _ _ _ hw
  simp only [Dev.full, this, List.length_append, List.length_singleton, decide_eq_false_iff_not]
  omega

/-- A request that was taken up finds its block's gate open. -/
theorem taken_open {d : Dev} {c : Call} (h : d.hears c) : (d.taken c).gated c.index = false := h.2.2.2.2.2.2.2

/-- A request that finds no abort is executed and answered as its behaviour says. -/
theorem serve_run {d : Dev} {r : Req} {b : Beh} (hw : SMap.wf UPathSt.none d.um = true) (h : d.admits r)
    (hp : b.pre (d.taken r.call) = 0) (hs : b.state (d.taken r.call) = 0) :
    (serve r b).run d = (finish r.call (b.act (d.taken r.call))).run (d.taken r.call) := by
  obtain ⟨h1, he, hl⟩ := h
  unfold serve
  rw [arrive_run h1]
  have : (d.taken r.call).refusal r b = 0 := by
    simp [Dev.refusal, he, hp, hl, hs, taken_not_full hw h1]
  simp [this, taken_open h1]

/-- A request that finds an abort is answered with it; its object notes the refusal and nothing else happens (R153). -/
theorem serve_abort {d : Dev} {r : Req} {b : Beh} {a : Nat} (h : d.hears r.call) (ha : (d.taken r.call).refusal r b = a) (h0 : a ≠ 0) :
    (serve r b).run d = (respond r.call a []).run ((b.note (d.taken r.call) ((d.taken r.call).ownRefusal r b) a).run (d.taken r.call)) := by
  unfold serve
  rw [arrive_run h]
  simp [ha, h0, taken_open h]

/-- A served request whose object finds nothing against it and whose effects are known. -/
theorem served_done {s : State} {r : Req} {b : Beh} {p : Prog} {data : List Byte} {es : List Eff} (hs : s.Inv) (h : s.dev.admits r)
    (hp : b.pre (s.dev.taken r.call) = 0) (hst : b.state (s.dev.taken r.call) = 0)
    (ha : b.act (s.dev.taken r.call) = .done p data) (he : p.run (s.dev.taken r.call) = (s.dev.taken r.call).after es) :
    s.run (serve r b) = .next (s.served r.call es data) := by
  rw [State.run_eq, serve_run hs.1.um h hp hst, ha]
  simp [finish, State.served, he]

/-- The same when the answer is owed. -/
theorem served_later {s : State} {r : Req} {b : Beh} {p : Prog} {es : List Eff} (hs : s.Inv) (h : s.dev.admits r)
    (hp : b.pre (s.dev.taken r.call) = 0) (hst : b.state (s.dev.taken r.call) = 0)
    (ha : b.act (s.dev.taken r.call) = .later p) (he : p.run (s.dev.taken r.call) = (s.dev.taken r.call).after es) :
    s.run (serve r b) = .next (s.owing r.call es) := by
  rw [State.run_eq, serve_run hs.1.um h hp hst, ha]
  simp [finish, State.owing, he]

/-- A request whose object's own checks find an abort, when the object notes no refusal. -/
theorem served_abort {s : State} {r : Req} {b : Beh} {a : Nat} (h : s.dev.admits r) (ha : a ≠ 0)
    (hp : b.pre (s.dev.taken r.call) = a ∨ b.pre (s.dev.taken r.call) = 0 ∧ b.state (s.dev.taken r.call) = a)
    (hn : ∀ d x, b.note d x a = .skip) : s.run (serve r b) = .next (s.refusedWith r.call [] a) := by
  obtain ⟨h1, he, hl⟩ := h
  have : (s.dev.taken r.call).refusal r b = a := by
    rcases hp with hp | ⟨hp, hq⟩
    · simp [Dev.refusal, he, hp, ha]
    · simp [Dev.refusal, he, hp, hl, hq, ha]
  rw [State.run_eq, serve_abort h1 this ha, hn]
  simp [State.refusedWith]

end Sys2Proof.Machine
end

