-- ==== Sys2Proof/Laws/Frame.lean ====
section
/-!
SUPPORT. Frames of effects and programs: which objects and which parts of the device they may change.
-/
namespace Sys2Proof.Machine

/-- The object an effect may change. -/
def Eff.keys : Eff → Nat → Bool
  | .obj o i j _, k => decide (o.key i j = k)
  | .count o i j _, k => decide (o.key i j = k)
  | .dropObjs p, k => p k
  | .wipe _, _ => true
  | _, _ => false

/-- The parts of the device an effect may change. -/
def Eff.parts : Eff → List Part
  | .obj _ _ _ _ => []
  | .count _ _ _ _ => []
  | .raise _ _ _ _ _ => [.occs]
  | .takeOcc => [.occs]
  | .mergeOccs _ => [.occs]
  | .out _ => [.outs]
  | .burn _ => [.otp]
  | .recWrite _ => [.recd]
  | .recMerge _ _ => [.recd]
  | .recHold _ => [.recd]
  | .recUnhold => [.recd]
  | .recFreeze _ => [.recd]
  | .recFull => [.recd]
  | .recDropAt _ => [.recd]
  | .recClear => [.recd]
  | .arm _ => [.acts]
  | .disarm _ => [.acts]
  | .commit _ => [.acts]
  | .pins _ => [.pins]
  | .clk _ => [.clk]
  | .pwr _ => [.pwr]
  | .cfg _ => [.cfg]
  | .tim _ => [.tim]
  | .um _ _ => [.um]
  | .bws _ => [.bws]
  | .bcs _ => [.bcs]
  | .i2c _ => [.i2c]
  | .fn _ _ => [.fns]
  | .ring _ _ => [.rings]
  | .vec _ _ => [.vecs]
  | .link _ _ => [.links]
  | .fch _ _ => [.fch]
  | .hv _ _ _ => [.hvUnder, .hvBeat, .hvTrip]
  | .dropVecs _ => [.vecs]
  | .dropRings _ => [.rings]
  | .dropPaths _ => [.um]
  | .dropObjs _ => []
  | .tbl _ _ => [.tbl]
  | .key _ _ => [.keys]
  | .use _ _ => [.uses]
  | .dropTbl _ => [.tbl]
  | .dropKeys _ => [.keys, .uses]
  | .la _ => [.la]
  | .fwd _ => [.fwd]
  | .tm _ => [.tm]
  | .circ _ _ => [.circ]
  | .port _ _ => [.ports]
  | .fab _ _ => [.fab]
  | .dram _ _ => [.dram]
  | .sec _ => [.sec]
  | .wipe _ => [.otp, .recd, .acts, .occs, .outs, .pins, .clk, .pwr, .cfg, .tim, .um, .bws, .bcs, .i2c, .fns, .rings, .vecs, .links,
      .fch, .hvUnder, .hvBeat, .hvTrip, .tbl, .keys, .uses, .la, .fwd, .tm, .circ, .ports, .fab, .dram, .sec, .free]
  | .draw => [.free]

/-- An effect keeps the objects' store canonical. -/
theorem Eff.objs_wf (e : Eff) (d : Dev) (h : SMap.wf none d.objs = true) : SMap.wf none (e.apply d).objs = true := by
  cases e
  case obj o i j v => exact SMap.put_wf h
  case count o i j n => exact SMap.put_wf h
  case dropObjs p => exact SMap.drop_wf h
  case wipe w =>
    simp only [Eff.apply, Dev.wiped]
    exact SMap.drop_wf h
  case arm a => simp only [Eff.apply]; split <;> exact h
  all_goals exact h

theorem SMap.get_drop {α : Type} [DecidableEq α] (d : α) {p : Nat → Bool} {k : Nat} (hp : p k = false) :
    ∀ {m : SMap α} {b : Nat}, SMap.wfFrom d b m = true → SMap.get d (SMap.drop p m) k = SMap.get d m k
  | [], _, _ => rfl
  | (i, v) :: r, b, hm => by
    simp only [SMap.wfFrom, Bool.and_eq_true, decide_eq_true_eq] at hm
    have ih := SMap.get_drop d hp hm.2
    have hw := SMap.drop_wfFrom d p hm.2
    simp only [SMap.drop] at ih hw ⊢
    rw [List.filter_cons]
    split
    · simp only [SMap.get, ih]
    · have hik : i ≠ k := by
        rintro rfl
        simp_all
      rw [ih]
      simp only [SMap.get, if_neg hik]
      split
      · exact SMap.get_of_wfFrom d hm.2 (by omega)
      · rfl

theorem Dev.only_refl {ks : Nat → Bool} {ps : List Part} (d : Dev) : d.only ks ps d := ⟨fun _ _ => rfl, fun p _ => by cases p <;> rfl⟩

/-- An effect changes only its objects and parts. -/
theorem Eff.only (e : Eff) (d : Dev) (h : SMap.wf none d.objs = true) : d.only e.keys e.parts (e.apply d) := by
  cases e
  case obj o i j v =>
    exact ⟨fun k hk => SMap.get_put_other (b := 0) _ _ (by simpa [Eff.keys, eq_comm] using hk) h, fun p _ => by cases p <;> rfl⟩
  case count o i j n =>
    exact ⟨fun k hk => SMap.get_put_other (b := 0) _ _ (by simpa [Eff.keys, eq_comm] using hk) h, fun p _ => by cases p <;> rfl⟩
  case dropObjs p => exact ⟨fun k hk => SMap.get_drop (b := 0) _ hk h, fun p _ => by cases p <;> rfl⟩
  case wipe w =>
    refine ⟨fun k hk => by simp [Eff.keys] at hk, fun p hp => ?_⟩
    cases p <;> exact absurd (by simp only [Eff.parts, List.mem_cons]; decide) hp
  case arm a =>
    simp only [Eff.apply]
    split
    · refine ⟨fun _ _ => rfl, fun p hp => ?_⟩
      cases p
      case acts => exact absurd (List.mem_singleton.mpr rfl) hp
      all_goals rfl
    · exact Dev.only_refl d
  all_goals
    refine ⟨fun _ _ => rfl, fun p hp => ?_⟩
    cases p <;> first | rfl | (exfalso; apply hp; simp only [Eff.parts, List.mem_cons]; decide)

/-- A program changes only the listed objects and parts, and keeps the objects' store canonical. -/
def Prog.Within (ks : Nat → Bool) (ps : List Part) (p : Prog) : Prop :=
  ∀ d : Dev, SMap.wf none d.objs = true → SMap.wf none (p.run d).objs = true ∧ d.only ks ps (p.run d)

section
variable {ks : Nat → Bool} {ps : List Part}

theorem Within.skip : Prog.Within ks ps .skip := fun d h => ⟨h, d.only_refl⟩

theorem Within.seq {p q : Prog} (hp : Prog.Within ks ps p) (hq : Prog.Within ks ps q) : Prog.Within ks ps (.seq p q) := by
  intro d h
  obtain ⟨w1, o1, s1⟩ := hp d h
  obtain ⟨w2, o2, s2⟩ := hq _ w1
  refine ⟨w2, fun k hk => (o2 k hk).trans (o1 k hk), fun x hx => ?_⟩
  have a := s1 x hx
  have b := s2 x hx
  cases x <;> exact b.trans a

theorem Within.ask {f : Dev → Prog} (h : ∀ d, Prog.Within ks ps (f d)) : Prog.Within ks ps (.ask f) := fun d hd => h d d hd

theorem Within.eff {e : Eff} (hk : ∀ k, e.keys k = true → ks k = true) (hp : ∀ p ∈ e.parts, p ∈ ps) : Prog.Within ks ps (.eff e) := by
  intro d h
  obtain ⟨o, s⟩ := e.only d h
  refine ⟨e.objs_wf d h, fun k hkf => o k ?_, fun p hpf => s p fun hm => hpf (hp p hm)⟩
  cases hx : e.keys k
  · rfl
  · exact absurd (hk k hx) (by simp [hkf])

theorem Within.all {l : List Prog} (h : ∀ p ∈ l, Prog.Within ks ps p) : Prog.Within ks ps (.all l) := by
  induction l with
  | nil => exact Within.skip
  | cons p r ih => exact Within.seq (h p (by simp)) (ih fun q hq => h q (by simp [hq]))

theorem Within.all_nil : Prog.Within ks ps (.all []) := Within.skip

theorem Within.all_cons {p : Prog} {l : List Prog} (h : Prog.Within ks ps p) (hl : Prog.Within ks ps (.all l)) :
    Prog.Within ks ps (.all (p :: l)) := Within.seq h hl

theorem Within.when {b : Bool} {l : List Prog} (h : b = true → Prog.Within ks ps (.all l)) : Prog.Within ks ps (.when b l) := by
  cases b
  · exact Within.skip
  · exact h rfl

theorem Within.each {α : Type} {xs : List α} {f : α → Prog} (h : ∀ x ∈ xs, Prog.Within ks ps (f x)) : Prog.Within ks ps (.each xs f) :=
  Within.all (by simpa using h)

/-- A wider frame. -/
theorem Within.mono {ks' : Nat → Bool} {ps' : List Part} {p : Prog} (h : Prog.Within ks ps p) (hk : ∀ k, ks k = true → ks' k = true)
    (hp : ∀ x ∈ ps, x ∈ ps') : Prog.Within ks' ps' p := by
  intro d hd
  obtain ⟨w, o, s⟩ := h d hd
  refine ⟨w, fun k hf => o k ?_, fun x hx => s x fun hm => hx (hp x hm)⟩
  cases hx : ks k
  · rfl
  · exact absurd (hk k hx) (by simp [hf])

/-- An object outside the frame keeps its value. -/
theorem Within.get {p : Prog} {d : Dev} {o : Obj} {i j : Nat} (h : Prog.Within ks ps p) (hd : SMap.wf none d.objs = true)
    (hk : ks (o.key i j) = false) : (p.run d).get o i j = d.get o i j := by
  simp only [Dev.get, (h d hd).2.1 _ hk]

theorem Within.num {p : Prog} {d : Dev} {o : Obj} {i j : Nat} (h : Prog.Within ks ps p) (hd : SMap.wf none d.objs = true)
    (hk : ks (o.key i j) = false) : (p.run d).num o i j = d.num o i j := by
  simp only [Dev.num, Within.get h hd hk]

end

/-- An object that has just been given a value holds it. -/
theorem Dev.get_put {d : Dev} (h : SMap.wf none d.objs = true) (o : Obj) (i j : Nat) (v : Val) : (d.put o i j v).get o i j = v := by
  simp only [Dev.get, Dev.put, SMap.get_put_same (b := 0) _ _ _ h]
  split <;> simp_all

theorem Dev.num_put {d : Dev} (h : SMap.wf none d.objs = true) (o : Obj) (i j n : Nat) : (d.put o i j (.num n)).num o i j = n := by
  simp [Dev.num, Dev.get_put h]

/-- Another object keeps its value. -/
theorem Dev.get_put_other {d : Dev} (h : SMap.wf none d.objs = true) {o x : Obj} {i j k l : Nat} (v : Val)
    (hk : x.key k l ≠ o.key i j) : (d.put o i j v).get x k l = d.get x k l := by
  simp only [Dev.get, Dev.put, SMap.get_put_other (b := 0) _ _ hk h]

end Sys2Proof.Machine
end

