-- ==== Sys2Proof/Laws/PerInstr.lean ====
section
/-!
SUPPORT. Which commands can carry operands that no row admits: a lemma for each constructor.
-/
namespace Sys2Proof.Laws.Operands

/-- Whether a command has operands that are related to each other or limited in length; every other bound is in an operand's type. -/
def related : Instr → Bool
  | .porstRelease _ _ => true
  | .umaniRead _ => true
  | .umaniWrite _ _ => true
  | .umaniExecute _ _ => true
  | .umaniBlockRead _ => true
  | .umaniBlockWrite _ => true
  | .umaniReservedOperation _ => true
  | .barReservedAccess _ _ _ => true
  | .fabHelloRx _ _ => true
  | .fabConfirmRx _ _ => true
  | .fabCreditSyncRx _ _ => true
  | .fabCellRx _ _ => true
  | .packetIngress _ => true
  | .tableSearch _ => true
  | .tableNext _ => true
  | .tableInsert _ => true
  | .tableDelete _ => true
  | .tableFlush _ => true
  | .tableLock _ => true
  | .tableUnlock _ => true
  | _ => false

/-- Only a command with related operands can be ill-formed. -/
def Statement (i : Instr) : Prop := i.wf = false → related i = true

theorem powerOnReset : Statement (.powerOnReset) := fun h => nomatch h
theorem porstRelease (hrefRunning : Bool) (pairs : List (BitVec 8 × BitVec 8)) : Statement (.porstRelease hrefRunning pairs) := fun _ => rfl
theorem strapUnstable : Statement (.strapUnstable) := fun h => nomatch h
theorem securityRomStart (selfTest : Bool) (env : Outcomes) : Statement (.securityRomStart selfTest env) := fun h => nomatch h
theorem supplyFailure : Statement (.supplyFailure) := fun h => nomatch h
theorem supplyFailureRelease : Statement (.supplyFailureRelease) := fun h => nomatch h
theorem hrefLoss : Statement (.hrefLoss) := fun h => nomatch h
theorem hrefLossReset : Statement (.hrefLossReset) := fun h => nomatch h
theorem recoveredRefLoss (n : Fin 4) : Statement (.recoveredRefLoss n) := fun h => nomatch h
theorem pllLocked (n : Fin 5) : Statement (.pllLocked n) := fun h => nomatch h
theorem hrefOffsetAlarm (offset : BitVec 32) : Statement (.hrefOffsetAlarm offset) := fun h => nomatch h
theorem clkTimingChannelWrite (o : Origin) (v : BitVec 8) : Statement (.clkTimingChannelWrite o v) := fun h => nomatch h
theorem rstCauseStickyRead (o : Origin) : Statement (.rstCauseStickyRead o) := fun h => nomatch h
theorem rstCauseStickyWrite (o : Origin) (v : BitVec 32) : Statement (.rstCauseStickyWrite o v) := fun h => nomatch h
theorem rstDevice (o : Origin) : Statement (.rstDevice o) := fun h => nomatch h
theorem deviceCommandReset : Statement (.deviceCommandReset) := fun h => nomatch h
theorem rstInstance (o : Origin) (arg : BitVec 16) (lost : BitVec 32) : Statement (.rstInstance o arg lost) := fun h => nomatch h
theorem instanceResetRelease (kind : BitVec 8) (num : BitVec 8) : Statement (.instanceResetRelease kind num) := fun h => nomatch h
theorem coreWatchdogExpiry (lost : BitVec 32) : Statement (.coreWatchdogExpiry lost) := fun h => nomatch h
theorem secWatchdogExpiry : Statement (.secWatchdogExpiry) := fun h => nomatch h
theorem lifecycleViolation : Statement (.lifecycleViolation) := fun h => nomatch h
theorem tapReset (tck : Fin 50001) : Statement (.tapReset tck) := fun h => nomatch h
theorem crossingOpen (kind : BitVec 8) (num : BitVec 8) : Statement (.crossingOpen kind num) := fun h => nomatch h
theorem crossingTimeout (x : XTimeout) : Statement (.crossingTimeout x) := fun h => nomatch h
theorem xingResampleFailure (x : BitVec 8) (pairs : List (BitVec 32 × BitVec 32)) : Statement (.xingResampleFailure x pairs) := fun h => nomatch h
theorem gateDrainComplete (domain : Fin 60) : Statement (.gateDrainComplete domain) := fun h => nomatch h
theorem gateDrainTimeout (domain : Fin 60) : Statement (.gateDrainTimeout domain) := fun h => nomatch h
theorem gateHeldAccess (domain : Fin 60) : Statement (.gateHeldAccess domain) := fun h => nomatch h
theorem pwrStateRequest (o : Origin) (arg : BitVec 8) : Statement (.pwrStateRequest o arg) := fun h => nomatch h
theorem dozeTimeout : Statement (.dozeTimeout) := fun h => nomatch h
theorem wakeNAssert : Statement (.wakeNAssert) := fun h => nomatch h
theorem ringmasterPrewake : Statement (.ringmasterPrewake) := fun h => nomatch h
theorem railsRestored (fits selfTest : Bool) (env : Outcomes) : Statement (.railsRestored fits selfTest env) := fun h => nomatch h
theorem trOpTargetWrite (o : Origin) (v : BitVec 8) : Statement (.trOpTargetWrite o v) := fun h => nomatch h
theorem regulatorSettled (milliVolts : BitVec 16) : Statement (.regulatorSettled milliVolts) := fun h => nomatch h
theorem trSettleTimeout (milliVolts : BitVec 16) (regulatorSettled : Bool) : Statement (.trSettleTimeout milliVolts regulatorSettled) := fun h => nomatch h
theorem thermalLimitExceeded : Statement (.thermalLimitExceeded) := fun h => nomatch h
theorem thermalFloorRaise : Statement (.thermalFloorRaise) := fun h => nomatch h
theorem thermalFloorLower : Statement (.thermalFloorLower) := fun h => nomatch h
theorem umaniRead (m : UMsg) : Statement (.umaniRead m) := fun _ => rfl
theorem umaniWrite (m : UMsg) (env : Outcomes) : Statement (.umaniWrite m env) := fun _ => rfl
theorem umaniExecute (m : UMsg) (env : Outcomes) : Statement (.umaniExecute m env) := fun _ => rfl
theorem umaniBlockRead (m : UMsg) : Statement (.umaniBlockRead m) := fun _ => rfl
theorem umaniBlockWrite (m : UMsg) : Statement (.umaniBlockWrite m) := fun _ => rfl
theorem umaniReservedOperation (m : UMsg) : Statement (.umaniReservedOperation m) := fun _ => rfl
theorem blockWriteAbandon (index : BitVec 16) (sub : BitVec 8) : Statement (.blockWriteAbandon index sub) := fun h => nomatch h
theorem blockReadCopyRelease (index : BitVec 16) (sub : BitVec 8) (code : BitVec 16) : Statement (.blockReadCopyRelease index sub code) := fun h => nomatch h
theorem i2cResponseRead : Statement (.i2cResponseRead) := fun h => nomatch h
theorem dictGroupClaim (o : Origin) (group : BitVec 8) : Statement (.dictGroupClaim o group) := fun h => nomatch h
theorem dictGroupRelease (o : Origin) (group : BitVec 8) : Statement (.dictGroupRelease o group) := fun h => nomatch h
theorem dictObjectWrite (o : Origin) (index : BitVec 16) (sub : BitVec 8) (v : Val) (acked : Bool) : Statement (.dictObjectWrite o index sub v acked) := fun h => nomatch h
theorem cfgStageCommit (o : Origin) (slot : BitVec 8) : Statement (.cfgStageCommit o slot) := fun h => nomatch h
theorem cfgApply (o : Origin) (arg : List Byte) : Statement (.cfgApply o arg) := fun h => nomatch h
theorem overlayApply (acked : Bool) : Statement (.overlayApply acked) := fun h => nomatch h
theorem mbxSubmit (link : Fin 4) (fn : Fin 64) (slot : Fin 16) (data : List Byte) (env : Outcomes) : Statement (.mbxSubmit link fn slot data env) := fun h => nomatch h
theorem mbxDoneClear (link : Fin 4) (fn : Fin 64) (mask : BitVec 32) : Statement (.mbxDoneClear link fn mask) := fun h => nomatch h
theorem leaseRenew (link : Fin 4) (fn : Fin 64) (epoch : BitVec 32) : Statement (.leaseRenew link fn epoch) := fun h => nomatch h
theorem hostIndexWrite (link : Fin 4) (fn : Fin 64) (r : Fin 4096) (ix : BitVec 32) (descs : List Desc) : Statement (.hostIndexWrite link fn r ix descs) := fun h => nomatch h
theorem dmapSlotRead (link : Fin 4) (fn : Fin 64) (slot : Fin 1024) : Statement (.dmapSlotRead link fn slot) := fun h => nomatch h
theorem barReservedAccess (link : Fin 4) (fn : Fin 64) (acc : BarAcc) : Statement (.barReservedAccess link fn acc) := fun _ => rfl
theorem bar2Access (write : Bool) (addr : BitVec 28) : Statement (.bar2Access write addr) := fun h => nomatch h
theorem pcieConfigRequest (link : Fin 4) (fn : Fin 64) (ready : Bool) (req : CfgReq) : Statement (.pcieConfigRequest link fn ready req) := fun h => nomatch h
theorem pcieLinkUp (link : Fin 4) (speed : Fin 5) (width : Fin 17) : Statement (.pcieLinkUp link speed width) := fun h => nomatch h
theorem pcieLinkDown (link : Fin 4) (lost : BitVec 32) : Statement (.pcieLinkDown link lost) := fun h => nomatch h
theorem perstLow (link : Fin 4) (lost : BitVec 32) : Statement (.perstLow link lost) := fun h => nomatch h
theorem perstRise (link : Fin 4) : Statement (.perstRise link) := fun h => nomatch h
theorem pcieHotReset (link : Fin 4) (lost : BitVec 32) : Statement (.pcieHotReset link lost) := fun h => nomatch h
theorem functionLevelReset (link : Fin 4) (fn : Fin 64) (lost : BitVec 32) : Statement (.functionLevelReset link fn lost) := fun h => nomatch h
theorem functionD3ToD0 (link : Fin 4) (fn : Fin 64) (lost : BitVec 32) : Statement (.functionD3ToD0 link fn lost) := fun h => nomatch h
theorem vfEnableSet (link : Fin 4) (numVfs : Fin 64) : Statement (.vfEnableSet link numVfs) := fun h => nomatch h
theorem vfEnableClear (link : Fin 4) : Statement (.vfEnableClear link) := fun h => nomatch h
theorem msixVectorUnmask (link : Fin 4) (fn : Fin 64) (vector : Fin 2048) : Statement (.msixVectorUnmask link fn vector) := fun h => nomatch h
theorem hifRingSetup (o : Origin) (link : Fin 4) (arg : List Byte) : Statement (.hifRingSetup o link arg) := fun h => nomatch h
theorem hifRingTeardown (o : Origin) (link : Fin 4) (ring : BitVec 16) : Statement (.hifRingTeardown o link ring) := fun h => nomatch h
theorem hifRingQuery (o : Origin) (link : Fin 4) (ring : BitVec 16) : Statement (.hifRingQuery o link ring) := fun h => nomatch h
theorem hifDmapSet (o : Origin) (link : Fin 4) (arg : BitVec 64) : Statement (.hifDmapSet o link arg) := fun h => nomatch h
theorem hostTxDescriptor (r : Fin 4096) : Statement (.hostTxDescriptor r) := fun h => nomatch h
theorem ringItrExpiry (r : Fin 4096) : Statement (.ringItrExpiry r) := fun h => nomatch h
theorem leaseExpiry (link : Fin 4) (fn : Fin 64) : Statement (.leaseExpiry link fn) := fun h => nomatch h
theorem leaseQuarterWarning (link : Fin 4) (fn : Fin 64) : Statement (.leaseQuarterWarning link fn) := fun h => nomatch h
theorem feEnableWrite (o : Origin) (n : Fin 4) (v : BitVec 8) (acked : Bool) : Statement (.feEnableWrite o n v acked) := fun h => nomatch h
theorem feApdTargetWrite (o : Origin) (n : Fin 4) (v : BitVec 32) (acked : Bool) : Statement (.feApdTargetWrite o n v acked) := fun h => nomatch h
theorem apdBiasAtTarget (n : Fin 4) : Statement (.apdBiasAtTarget n) := fun h => nomatch h
theorem apdCurrentLimit (n : Fin 4) : Statement (.apdCurrentLimit n) := fun h => nomatch h
theorem feTxCoeffWrite (o : Origin) (n : Fin 4) (b : List Byte) : Statement (.feTxCoeffWrite o n b) := fun h => nomatch h
theorem hvControlMessage (crcOk : Bool) (m : HvMsg) : Statement (.hvControlMessage crcOk m) := fun h => nomatch h
theorem hvCommandResend (n : Fin 4) (acked : Bool) : Statement (.hvCommandResend n acked) := fun h => nomatch h
theorem hvHeartbeat (steady : Bool) : Statement (.hvHeartbeat steady) := fun h => nomatch h
theorem hvWatchdogExpiry : Statement (.hvWatchdogExpiry) := fun h => nomatch h
theorem hvRearm (o : Origin) (acked : Bool) : Statement (.hvRearm o acked) := fun h => nomatch h
theorem hvinUndervoltage : Statement (.hvinUndervoltage) := fun h => nomatch h
theorem hvinRecovery : Statement (.hvinRecovery) := fun h => nomatch h
theorem boostInRegulation : Statement (.boostInRegulation) := fun h => nomatch h
theorem boostOutOfRange : Statement (.boostOutOfRange) := fun h => nomatch h
theorem hvOvertemp : Statement (.hvOvertemp) := fun h => nomatch h
theorem rogueMonitorLatch (n : Fin 4) : Statement (.rogueMonitorLatch n) := fun h => nomatch h
theorem rogueOnLimitLatch (n : Fin 4) : Statement (.rogueOnLimitLatch n) := fun h => nomatch h
theorem feLaserRelease (o : Origin) (n : Fin 4) (persists : Bool) (acked : Bool) : Statement (.feLaserRelease o n persists acked) := fun h => nomatch h
theorem subTick : Statement (.subTick) := fun h => nomatch h
theorem frameMark (n : Fin 4) (off : Fin 1000) (m : FrameMeas) : Statement (.frameMark n off m) := fun h => nomatch h
theorem dmtFrameDecode (n : Fin 4) (f : DmtFrame) : Statement (.dmtFrameDecode n f) := fun h => nomatch h
theorem trainingPairFound (n : Fin 4) (x : List Int) : Statement (.trainingPairFound n x) := fun h => nomatch h
theorem dmtLockAcquired (n : Fin 4) : Statement (.dmtLockAcquired n) := fun h => nomatch h
theorem dmtTrainingLoss (n : Fin 4) : Statement (.dmtTrainingLoss n) := fun h => nomatch h
theorem dmtProfileWrite (o : Origin) (n : Fin 4) (p : Fin 8) (b : List Byte) : Statement (.dmtProfileWrite o n p b) := fun h => nomatch h
theorem dmtProfileEnableWrite (o : Origin) (n : Fin 4) (v : BitVec 8) : Statement (.dmtProfileEnableWrite o n v) := fun h => nomatch h
theorem dmtProfileSwitch (o : Origin) (n : Fin 4) (arg : BitVec 64) : Statement (.dmtProfileSwitch o n arg) := fun h => nomatch h
theorem profileSwitchFire (n : Fin 4) : Statement (.profileSwitchFire n) := fun h => nomatch h
theorem snrPeriodEnd (n : Fin 4) : Statement (.snrPeriodEnd n) := fun h => nomatch h
theorem mgtPreambleDetect (n : Fin 4) (p : Fin 3) (seen : List (BitVec 16 × BitVec 16)) (strength : BitVec 16) : Statement (.mgtPreambleDetect n p seen strength) := fun h => nomatch h
theorem mgtDelimiterFound (n : Fin 4) (p : Fin 3) (start : BitVec 8) (bits : BitVec 16) (refined : BitVec 16) : Statement (.mgtDelimiterFound n p start bits refined) := fun h => nomatch h
theorem mgtFalseStart (n : Fin 4) (p : Fin 3) : Statement (.mgtFalseStart n p) := fun h => nomatch h
theorem mgtHeaderReceived (n : Fin 4) (p : Fin 3) (standby : Bool) (bits : BitVec 48) : Statement (.mgtHeaderReceived n p standby bits) := fun h => nomatch h
theorem mgtPacketReceived (n : Fin 4) (p : Fin 3) (body : List Byte) : Statement (.mgtPacketReceived n p body) := fun h => nomatch h
theorem mgtTxStart (n : Fin 4) : Statement (.mgtTxStart n) := fun h => nomatch h
theorem mgtTxComplete (n : Fin 4) : Statement (.mgtTxComplete n) := fun h => nomatch h
theorem framerFrame (n : Fin 4) (f : FrmFrame) : Statement (.framerFrame n f) := fun h => nomatch h
theorem frameSyncEntry (n : Fin 4) : Statement (.frameSyncEntry n) := fun h => nomatch h
theorem frameSyncLoss (n : Fin 4) : Statement (.frameSyncLoss n) := fun h => nomatch h
theorem lofDeclare (n : Fin 4) : Statement (.lofDeclare n) := fun h => nomatch h
theorem losDeclare (n : Fin 4) : Statement (.losDeclare n) := fun h => nomatch h
theorem losClear (n : Fin 4) : Statement (.losClear n) := fun h => nomatch h
theorem aisDeclare (n : Fin 4) : Statement (.aisDeclare n) := fun h => nomatch h
theorem aisClear (n : Fin 4) : Statement (.aisClear n) := fun h => nomatch h
theorem fecDegWindowEnd (n : Fin 4) : Statement (.fecDegWindowEnd n) := fun h => nomatch h
theorem encapFrame (n : Fin 4) (fault : Bool) : Statement (.encapFrame n fault) := fun h => nomatch h
theorem chainTimeout (n : Fin 4) : Statement (.chainTimeout n) := fun h => nomatch h
theorem pmSecondCommit (n : Fin 4) : Statement (.pmSecondCommit n) := fun h => nomatch h
theorem timingMessage (n : Fin 4) (carried : BitVec 51) (b : List Byte) : Statement (.timingMessage n carried b) := fun h => nomatch h
theorem circuitContainer (n : Fin 4) (stream : BitVec 20) (errored : Bool) (data : List Byte) : Statement (.circuitContainer n stream errored data) := fun h => nomatch h
theorem pwPacketForm (c : Fin 2080) : Statement (.pwPacketForm c) := fun h => nomatch h
theorem pwPacketReceived (c : Fin 2080) (data : List Byte) : Statement (.pwPacketReceived c data) := fun h => nomatch h
theorem pwLossTimeout (c : Fin 2080) : Statement (.pwLossTimeout c) := fun h => nomatch h
theorem circConfigWrite (o : Origin) (c : Fin 2080) (b : List Byte) : Statement (.circConfigWrite o c b) := fun h => nomatch h
theorem window (n : Fin 4) (m : Lemow) : Statement (.window n m) := fun h => nomatch h
theorem assign (n : Fin 4) (m : Lemow) : Statement (.assign n m) := fun h => nomatch h
theorem offer (n : Fin 4) (m : Lemow) : Statement (.offer n m) := fun h => nomatch h
theorem confirm (n : Fin 4) (m : Lemow) : Statement (.confirm n m) := fun h => nomatch h
theorem eqd (n : Fin 4) (m : Lemow) : Statement (.eqd n m) := fun h => nomatch h
theorem alloc (n : Fin 4) (m : Lemow) : Statement (.alloc n m) := fun h => nomatch h
theorem activate (n : Fin 4) (m : Lemow) : Statement (.activate n m) := fun h => nomatch h
theorem refuse (n : Fin 4) (m : Lemow) : Statement (.refuse n m) := fun h => nomatch h
theorem deactivate (n : Fin 4) (m : Lemow) : Statement (.deactivate n m) := fun h => nomatch h
theorem disable (n : Fin 4) (m : Lemow) : Statement (.disable n m) := fun h => nomatch h
theorem enable (n : Fin 4) (m : Lemow) : Statement (.enable n m) := fun h => nomatch h
theorem rdi (n : Fin 4) (m : Lemow) : Statement (.rdi n m) := fun h => nomatch h
theorem dozeReply (n : Fin 4) (m : Lemow) : Statement (.dozeReply n m) := fun h => nomatch h
theorem wake (n : Fin 4) (m : Lemow) : Statement (.wake n m) := fun h => nomatch h
theorem qualityRequest (n : Fin 4) (m : Lemow) : Statement (.qualityRequest n m) := fun h => nomatch h
theorem announce (n : Fin 4) (offset : BitVec 32) (backoff : BitVec 4) : Statement (.announce n offset backoff) := fun h => nomatch h
theorem rangingBurst (n : Fin 4) : Statement (.rangingBurst n) := fun h => nomatch h
theorem announceTimeout (n : Fin 4) : Statement (.announceTimeout n) := fun h => nomatch h
theorem rangeTimeout (n : Fin 4) : Statement (.rangeTimeout n) := fun h => nomatch h
theorem holdTimeout (n : Fin 4) : Statement (.holdTimeout n) := fun h => nomatch h
theorem refuseHoldoffEnd (n : Fin 4) : Statement (.refuseHoldoffEnd n) := fun h => nomatch h
theorem actRestart (o : Origin) (n : Fin 4) : Statement (.actRestart o n) := fun h => nomatch h
theorem actEqdWrite (o : Origin) (n : Fin 4) (v : BitVec 32) : Statement (.actEqdWrite o n v) := fun h => nomatch h
theorem modeApply (n : Fin 4) : Statement (.modeApply n) := fun h => nomatch h
theorem grantEntry (n : Fin 4) (frame : BitVec 51) (entry : BitVec 64) : Statement (.grantEntry n frame entry) := fun h => nomatch h
theorem burstStart (n : Fin 4) (fault : Bool) (read : Fin 3) : Statement (.burstStart n fault read) := fun h => nomatch h
theorem dozeStart (n : Fin 4) : Statement (.dozeStart n) := fun h => nomatch h
theorem portModeWrite (o : Origin) (p : Fin 96) (v : BitVec 8) : Statement (.portModeWrite o p v) := fun h => nomatch h
theorem portEnableWrite (o : Origin) (p : Fin 96) (v : BitVec 8) : Statement (.portEnableWrite o p v) := fun h => nomatch h
theorem portRestart (o : Origin) (p : Fin 96) : Statement (.portRestart o p) := fun h => nomatch h
theorem autonegComplete (p : Fin 96) (modes : BitVec 16) (rs base eee : Bool) : Statement (.autonegComplete p modes rs base eee) := fun h => nomatch h
theorem linkTrainingComplete (p : Fin 96) (lanes : List TrainLane) (steps : List SteerStep) : Statement (.linkTrainingComplete p lanes steps) := fun h => nomatch h
theorem linkTrainingTimeout (p : Fin 96) (responded : Bool) (asks : List (List (Fin 4 × Bool))) (steps : List SteerStep) : Statement (.linkTrainingTimeout p responded asks steps) := fun h => nomatch h
theorem portLocalFault (p : Fin 96) : Statement (.portLocalFault p) := fun h => nomatch h
theorem localFaultTimeout (p : Fin 96) : Statement (.localFaultTimeout p) := fun h => nomatch h
theorem portRemoteFault (p : Fin 96) : Statement (.portRemoteFault p) := fun h => nomatch h
theorem portFaultClear (p : Fin 96) : Statement (.portFaultClear p) := fun h => nomatch h
theorem fomMarginLow (p : Fin 108) (lane : Fin 8) (fom : Slicer) : Statement (.fomMarginLow p lane fom) := fun h => nomatch h
theorem fomRetrain (p : Fin 96) (fom : Slicer) : Statement (.fomRetrain p fom) := fun h => nomatch h
theorem eeeTxEnter (p : Fin 96) : Statement (.eeeTxEnter p) := fun h => nomatch h
theorem eeeTxWake (p : Fin 96) : Statement (.eeeTxWake p) := fun h => nomatch h
theorem eeeRxLpi (p : Fin 96) (enter : Bool) : Statement (.eeeRxLpi p enter) := fun h => nomatch h
theorem lldpTx (p : Fin 96) : Statement (.lldpTx p) := fun h => nomatch h
theorem ethRxFrame (p : Fin 96) (f : EthRx) (fault : Bool) : Statement (.ethRxFrame p f fault) := fun h => nomatch h
theorem ethTxFrame (p : Fin 96) (off : Fin 1000) (lat : BitVec 16) (fault : Bool) : Statement (.ethTxFrame p off lat fault) := fun h => nomatch h
theorem quadPllUnlock (g : Fin 12) (quad : Fin 2) : Statement (.quadPllUnlock g quad) := fun h => nomatch h
theorem portMacCountersRead (o : Origin) (p : Fin 96) : Statement (.portMacCountersRead o p) := fun h => nomatch h
theorem fabEnableWrite (o : Origin) (g : Fin 12) (v : BitVec 8) : Statement (.fabEnableWrite o g v) := fun h => nomatch h
theorem fabRestart (o : Origin) (g : Fin 12) : Statement (.fabRestart o g) := fun h => nomatch h
theorem fabAligned (g : Fin 12) (lanes : List FabLane) : Statement (.fabAligned g lanes) := fun h => nomatch h
theorem fabAlignTimeout (g : Fin 12) : Statement (.fabAlignTimeout g) := fun h => nomatch h
theorem fabHelloTimeout (g : Fin 12) : Statement (.fabHelloTimeout g) := fun h => nomatch h
theorem fabHelloTx (g : Fin 12) : Statement (.fabHelloTx g) := fun h => nomatch h
theorem fabHelloRx (g : Fin 12) (m : List Byte) : Statement (.fabHelloRx g m) := fun _ => rfl
theorem fabConfirmRx (g : Fin 12) (m : List Byte) : Statement (.fabConfirmRx g m) := fun _ => rfl
theorem fabCreditSyncTx (g : Fin 12) : Statement (.fabCreditSyncTx g) := fun h => nomatch h
theorem fabCreditSyncRx (g : Fin 12) (m : List Byte) : Statement (.fabCreditSyncRx g m) := fun _ => rfl
theorem fabCellRx (g : Fin 12) (b : List Byte) : Statement (.fabCellRx g b) := fun _ => rfl
theorem fabLaneLoss (g : Fin 12) (lane : Fin 8) (blocks : Bool) : Statement (.fabLaneLoss g lane blocks) := fun h => nomatch h
theorem fabClockLoss (g : Fin 12) : Statement (.fabClockLoss g) := fun h => nomatch h
theorem fabRebuildTimeout (g : Fin 12) : Statement (.fabRebuildTimeout g) := fun h => nomatch h
theorem packetIngress (a : Arrival) : Statement (.packetIngress a) := fun _ => rfl
theorem carouselDispatch : Statement (.carouselDispatch) := fun h => nomatch h
theorem packetForward (id : Nat) (srcBad dstBad : Bool) : Statement (.packetForward id srcBad dstBad) := fun h => nomatch h
theorem reorderTimeout (dom : Fin 1024) : Statement (.reorderTimeout dom) := fun h => nomatch h
theorem learnInsert : Statement (.learnInsert) := fun h => nomatch h
theorem tableSearch (src : TblSrc) : Statement (.tableSearch src) := fun _ => rfl
theorem tableNext (src : TblSrc) : Statement (.tableNext src) := fun _ => rfl
theorem tableInsert (src : TblSrc) : Statement (.tableInsert src) := fun _ => rfl
theorem tableDelete (src : TblSrc) : Statement (.tableDelete src) := fun _ => rfl
theorem tableFlush (src : TblSrc) : Statement (.tableFlush src) := fun _ => rfl
theorem flushComplete : Statement (.flushComplete) := fun h => nomatch h
theorem tableLock (src : TblSrc) : Statement (.tableLock src) := fun _ => rfl
theorem tableUnlock (src : TblSrc) : Statement (.tableUnlock src) := fun _ => rfl
theorem ageTick : Statement (.ageTick) := fun h => nomatch h
theorem scrubPass (table : Fin 32) (place : BitVec 32) : Statement (.scrubPass table place) := fun h => nomatch h
theorem fwdCarvingWrite (o : Origin) (v : BitVec 8) : Statement (.fwdCarvingWrite o v) := fun h => nomatch h
theorem carvingComplete : Statement (.carvingComplete) := fun h => nomatch h
theorem fwdEpochSwitch (o : Origin) (arg : List Byte) : Statement (.fwdEpochSwitch o arg) := fun h => nomatch h
theorem tableEpochSwitchFire : Statement (.tableEpochSwitchFire) := fun h => nomatch h
theorem epochDrained : Statement (.epochDrained) := fun h => nomatch h
theorem schedulerDequeue (p : Fin 116) (read : Fin 3) : Statement (.schedulerDequeue p read) := fun h => nomatch h
theorem tmQueueCfgWrite (o : Origin) (q : Fin 131072) (b : List Byte) : Statement (.tmQueueCfgWrite o q b) := fun h => nomatch h
theorem tmSubCfgWrite (o : Origin) (n : Fin 32768) (b : List Byte) : Statement (.tmSubCfgWrite o n b) := fun h => nomatch h
theorem tmSvcCfgWrite (o : Origin) (n : Fin 4096) (b : List Byte) : Statement (.tmSvcCfgWrite o n b) := fun h => nomatch h
theorem tmPortCfgWrite (o : Origin) (p : Fin 128) (b : List Byte) : Statement (.tmPortCfgWrite o p b) := fun h => nomatch h
theorem tmGateAdminWrite (o : Origin) (p : Fin 108) (b : List Byte) : Statement (.tmGateAdminWrite o p b) := fun h => nomatch h
theorem tmGateSwitch (o : Origin) (arg : List Byte) : Statement (.tmGateSwitch o arg) := fun h => nomatch h
theorem gateListSwitchFire (p : Fin 108) (sending : Option (Fin 8)) : Statement (.gateListSwitchFire p sending) := fun h => nomatch h
theorem gateIntervalEnd (p : Fin 108) : Statement (.gateIntervalEnd p) := fun h => nomatch h
theorem tmQueueFlush (o : Origin) (arg : BitVec 32) : Statement (.tmQueueFlush o arg) := fun h => nomatch h
theorem tmSnapRequest (o : Origin) (arg : List Byte) : Statement (.tmSnapRequest o arg) := fun h => nomatch h
theorem tmSnapRelease (o : Origin) (slot : BitVec 8) : Statement (.tmSnapRelease o slot) := fun h => nomatch h
theorem snapshotCapture (slot : Fin 4) : Statement (.snapshotCapture slot) := fun h => nomatch h
theorem snapshotCaptureComplete (slot : Fin 4) : Statement (.snapshotCaptureComplete slot) := fun h => nomatch h
theorem snapshotRingDeliver (slot : Fin 4) : Statement (.snapshotRingDeliver slot) := fun h => nomatch h
theorem dramHeadRefill (q : Fin 131072) : Statement (.dramHeadRefill q) := fun h => nomatch h
theorem dramCfgWrite (o : Origin) (c : Fin 8) (v : BitVec 8) : Statement (.dramCfgWrite o c v) := fun h => nomatch h
theorem dramSpeedWrite (o : Origin) (v : BitVec 16) : Statement (.dramSpeedWrite o v) := fun h => nomatch h
theorem dramEnableWrite (o : Origin) (c : Fin 8) (v : BitVec 8) : Statement (.dramEnableWrite o c v) := fun h => nomatch h
theorem dramTrainingComplete (c : Fin 8) : Statement (.dramTrainingComplete c) := fun h => nomatch h
theorem dramTrainingFail (c : Fin 8) (step : Fin 16) (lanesA lanesB : Fin 32) : Statement (.dramTrainingFail c step lanesA lanesB) := fun h => nomatch h
theorem dramRetrain (c : Fin 8) : Statement (.dramRetrain c) := fun h => nomatch h
theorem dramMr4Poll (c : Fin 8) (doubled above : Bool) : Statement (.dramMr4Poll c doubled above) := fun h => nomatch h
theorem dramRefresh (c : Fin 8) (sub : Fin 2) (bank : Fin 64) (postpone : Bool) : Statement (.dramRefresh c sub bank postpone) := fun h => nomatch h
theorem dramAlert (c : Fin 8) (sub : Fin 2) : Statement (.dramAlert c sub) := fun h => nomatch h
theorem dramReadComplete (c : Fin 8) (sub : Fin 2) (outcome : Fin 3) : Statement (.dramReadComplete c sub outcome) := fun h => nomatch h
theorem dramDrainComplete (c : Fin 8) : Statement (.dramDrainComplete c) := fun h => nomatch h
theorem dramRepairComplete (c : Fin 8) : Statement (.dramRepairComplete c) := fun h => nomatch h
theorem ciphFchKeyLoad (o : Origin) (n : Fin 4) (b : List Byte) : Statement (.ciphFchKeyLoad o n b) := fun h => nomatch h
theorem ciphFchUsKeySwitch (o : Origin) (n : Fin 4) (arg : BitVec 64) : Statement (.ciphFchUsKeySwitch o n arg) := fun h => nomatch h
theorem usKeySwitchFire (n : Fin 4) : Statement (.usKeySwitchFire n) := fun h => nomatch h
theorem ciphFchKeyLimitWrite (o : Origin) (n : Fin 4) (v : BitVec 64) : Statement (.ciphFchKeyLimitWrite o n v) := fun h => nomatch h
theorem ciphMsSaLoad (o : Origin) (b : List Byte) : Statement (.ciphMsSaLoad o b) := fun h => nomatch h
theorem ciphMsContextWrite (o : Origin) (c : Fin 4096) (b : List Byte) : Statement (.ciphMsContextWrite o c b) := fun h => nomatch h
theorem ciphLaOpen (o : Origin) (b : List Byte) : Statement (.ciphLaOpen o b) := fun h => nomatch h
theorem ciphLaSubmit (o : Origin) (b : List Byte) (jobs : List LaFetch) : Statement (.ciphLaSubmit o b jobs) := fun h => nomatch h
theorem laJobComplete (fault : Bool) : Statement (.laJobComplete fault) := fun h => nomatch h
theorem ciphLaClose (o : Origin) (n : BitVec 16) : Statement (.ciphLaClose o n) := fun h => nomatch h
theorem timeSet (o : Origin) (b : List Byte) : Statement (.timeSet o b) := fun h => nomatch h
theorem timeAdjust (o : Origin) (ps : BitVec 64) : Statement (.timeAdjust o ps) := fun h => nomatch h
theorem timeSourceWrite (o : Origin) (v : BitVec 8) : Statement (.timeSourceWrite o v) := fun h => nomatch h
theorem slewComplete : Statement (.slewComplete) := fun h => nomatch h
theorem sourceValidTimeout : Statement (.sourceValidTimeout) := fun h => nomatch h
theorem timeTsRead (o : Origin) (k : BitVec 8) : Statement (.timeTsRead o k) := fun h => nomatch h
theorem tpiCaptureEdge (input : Fin 4) (rising : Bool) (off : Fin 1000) : Statement (.tpiCaptureEdge input rising off) := fun h => nomatch h
theorem timeTpoCfgWrite (o : Origin) (out : Fin 16) (b : List Byte) : Statement (.timeTpoCfgWrite o out b) := fun h => nomatch h
theorem timeTpoStart (o : Origin) (b : List Byte) : Statement (.timeTpoStart o b) := fun h => nomatch h
theorem timeTpoStop (o : Origin) (b : List Byte) : Statement (.timeTpoStop o b) := fun h => nomatch h
theorem pulseTrainStartFire (out : Fin 16) (off : Fin 1000) : Statement (.pulseTrainStartFire out off) := fun h => nomatch h
theorem pulseTrainStopFire (out : Fin 16) (off : Fin 1000) : Statement (.pulseTrainStopFire out off) := fun h => nomatch h
theorem pulseEdge (out : Fin 16) (off : Fin 1000) : Statement (.pulseEdge out off) := fun h => nomatch h
theorem timeSyncoWrite (o : Origin) (x : Fin 3) (v : BitVec 32) : Statement (.timeSyncoWrite o x v) := fun h => nomatch h
theorem rmCancel (o : Origin) (slot : BitVec 8) : Statement (.rmCancel o slot) := fun h => nomatch h
theorem actionCommit (slot : Fin 256) : Statement (.actionCommit slot) := fun h => nomatch h
theorem blGoWrite (addr : BitVec 64) (len : BitVec 32) (v : BitVec 32) : Statement (.blGoWrite addr len v) := fun h => nomatch h
theorem bootLoadComplete (image : List Byte) (fetched : Bool) (env : Outcomes) : Statement (.bootLoadComplete image fetched env) := fun h => nomatch h
theorem secLifecycleAdvance (o : Origin) (target : BitVec 8) (fails : List (BitVec 15)) : Statement (.secLifecycleAdvance o target fails) := fun h => nomatch h
theorem secRollbackCommit (o : Origin) (v : BitVec 8) (fails : List (BitVec 15)) : Statement (.secRollbackCommit o v fails) := fun h => nomatch h
theorem secFlashProgram (o : Origin) (arg : List Byte) : Statement (.secFlashProgram o arg) := fun h => nomatch h
theorem flashProgramComplete (image : List Byte) (fetched : Bool) : Statement (.flashProgramComplete image fetched) := fun h => nomatch h
theorem secKekAgree (o : Origin) (arg : List Byte) : Statement (.secKekAgree o arg) := fun h => nomatch h
theorem secKekClear (o : Origin) (slot : BitVec 8) : Statement (.secKekClear o slot) := fun h => nomatch h
theorem secAttest (o : Origin) (nonce : List Byte) (fails : List (BitVec 15)) : Statement (.secAttest o nonce fails) := fun h => nomatch h
theorem secChallengeRead (o : Origin) : Statement (.secChallengeRead o) := fun h => nomatch h
theorem secOwnerEnrol (o : Origin) (fails : List (BitVec 15)) : Statement (.secOwnerEnrol o fails) := fun h => nomatch h
theorem secOwnerLock (o : Origin) (fails : List (BitVec 15)) : Statement (.secOwnerLock o fails) := fun h => nomatch h
theorem secAuthIssue (o : Origin) : Statement (.secAuthIssue o) := fun h => nomatch h
theorem secDebugUnlock (o : Origin) : Statement (.secDebugUnlock o) := fun h => nomatch h
theorem secDebugEnd (o : Origin) : Statement (.secDebugEnd o) := fun h => nomatch h
theorem trngHealthFail : Statement (.trngHealthFail) := fun h => nomatch h
theorem eventRecord (merged : BitVec 16) : Statement (.eventRecord merged) := fun h => nomatch h
theorem evrRead (o : Origin) (arg : List Byte) : Statement (.evrRead o arg) := fun h => nomatch h
theorem evrFreezeStart (o : Origin) : Statement (.evrFreezeStart o) := fun h => nomatch h
theorem evrFreezeEnd (o : Origin) : Statement (.evrFreezeEnd o) := fun h => nomatch h
theorem evrFreezeLimit : Statement (.evrFreezeLimit) := fun h => nomatch h
theorem evrClear (o : Origin) (token : List Byte) : Statement (.evrClear o token) := fun h => nomatch h
theorem thermAssert : Statement (.thermAssert) := fun h => nomatch h
theorem thermRelease : Statement (.thermRelease) := fun h => nomatch h
theorem thermMonitorFault : Statement (.thermMonitorFault) := fun h => nomatch h
theorem vcoreOutOfRange : Statement (.vcoreOutOfRange) := fun h => nomatch h
theorem railOutOfRange (rail : Fin 10) (outside : Bool) : Statement (.railOutOfRange rail outside) := fun h => nomatch h
theorem lgPersonalityWrite (o : Origin) (g : Fin 12) (v : BitVec 8) : Statement (.lgPersonalityWrite o g v) := fun h => nomatch h
theorem pcsLockAcquired (p : Fin 96) (foms : List Slicer) : Statement (.pcsLockAcquired p foms) := fun h => nomatch h
theorem pcieL1Exit (link : Fin 4) : Statement (.pcieL1Exit link) := fun h => nomatch h
theorem aerErrorLogged (link : Fin 4) (uncorrectable : Bool) : Statement (.aerErrorLogged link uncorrectable) := fun h => nomatch h
theorem coreWatchdogResetRelease : Statement (.coreWatchdogResetRelease) := fun h => nomatch h
theorem feLaserForceOffWrite (o : Origin) (n : Fin 4) (v : BitVec 8) : Statement (.feLaserForceOffWrite o n v) := fun h => nomatch h

end Sys2Proof.Laws.Operands
end

