-- ==== Sys2Proof/Tests/Slice0.lean ====
section
/-!
SUPPORT. Small tests: what WellFormed refuses, single commands with results worked out from the spec, and for each statement states and operands
that meet its hypotheses (theorems meets_<Statement>).
-/
namespace Sys2Proof.Tests
set_option Elab.async false
open Sys2Proof.Machine

/-! ## Small states -/

/-- A device that has left reset and booted, with link 0 up. -/
def boot : List Eff :=
  [.clk fun c => { c with devReset := false, closed := [] },
   .pins fun p => { p with porstN := true, aonOn := true, pwrreqN := false },
   .obj .idBootProgress 0 0 (.num 6), .obj .rstStraps 0 0 (.num 1), .obj .hifLinkState 0 0 (.num 2)]

/-- The booted device after some effects. -/
def up (es : List Eff) : State := (State.reset.after boot).after es

/-- A request from the local serial port. -/
def serial : Origin := ⟨.serial, 0x0300, 1⟩

/-- A request from the physical function of link 0, by its mailbox. -/
def host : Origin := ⟨.mailbox 0 0 1, 0x0100, 1⟩

/-- A request from the security complex. -/
def sec : Origin := ⟨.internal, 0x0400, 1⟩

/-- A frame header (Table 10.1). -/
def frameHeader (profile frame maps mgmt enc : Nat) : List Byte :=
  let h := beBytes 4 0x6D2B94E1 ++ beBytes 8 (profile * 2 ^ 61 + frame) ++ beBytes 2 maps ++ beBytes 2 mgmt ++ beBytes 2 enc ++ zeros 220
  h ++ beBytes 4 (crc32c h)

/-- Payload bytes scrambled with a frame number (R250). -/
def scrambled (frame : Nat) (b : List Byte) : List Byte := packBits (scramble (scrStart frame) (bitList b))

/-! ## Deciding the hypotheses of a statement -/

/-- The invariant as a test. -/
def invOk (s : State) : Bool :=
  let d := s.dev
  (SMap.wf none d.objs && SMap.wf UPathSt.none d.um && SMap.wf Fn.none d.fns && SMap.wf Ring.none d.rings && SMap.wf Vec.none d.vecs
    && SMap.wf Link.none d.links && SMap.wf Fch.none d.fch && SMap.wf [] d.tbl && SMap.wf [] d.keys && SMap.wf 0 d.uses
    && SMap.wf Circ.none d.circ && SMap.wf PortSt.none d.ports && SMap.wf Bundle.none d.fab && SMap.wf DramCh.none d.dram)
  && decide (d.recd.recs.length ≤ recCap) && decide (d.recd.hold.length ≤ holdCap) && decide (d.acts.length ≤ actCap)
  && decide (d.acts.Pairwise fun a b => a.slot < b.slot) && d.acts.all (fun a => decide (a.slot < actCap)) && distinctTargets d.acts

theorem inv_iff (s : State) : s.Inv ↔ invOk s = true := by
  constructor
  · rintro ⟨⟨h1, h2, h3, h4, h5, h6, h7, h8, h9, h10, h11, h12, h13, h14⟩, ⟨b1, b2, b3, b4, b5, b6⟩⟩
    simp [invOk, *]
    exact b5
  · intro h
    simp only [invOk, Bool.and_eq_true, decide_eq_true_eq, List.all_eq_true] at h
    obtain ⟨⟨⟨⟨⟨⟨⟨⟨⟨⟨⟨⟨⟨⟨⟨⟨⟨⟨⟨h1, h2⟩, h3⟩, h4⟩, h5⟩, h6⟩, h7⟩, h8⟩, h9⟩, h10⟩, h11⟩, h12⟩, h13⟩, h14⟩, b1⟩, b2⟩, b3⟩, b4⟩, b5⟩, b6⟩ := h
    exact ⟨⟨h1, h2, h3, h4, h5, h6, h7, h8, h9, h10, h11, h12, h13, h14⟩, ⟨b1, b2, b3, b4, b5, b6⟩⟩

/-- Being taken up, as a test. -/
def hearsOk (d : Dev) (c : Call) : Bool :=
  decide (d.answers = true ∧ d.num .pwrState = 0 ∧ d.pwr.req = none ∧ d.unready c = false ∧
    (∀ x ∈ (d.path c.o.path).sent, x.call.o.seq ≠ c.o.seq) ∧ (∀ x ∈ (d.path c.o.path).busy, x.o.seq ≠ c.o.seq) ∧
    (d.path c.o.path).busy.length < 16 ∧ d.gated c.index = false)

theorem hears_iff (d : Dev) (c : Call) : d.hears c ↔ hearsOk d c = true := by simp only [hearsOk, decide_eq_true_eq, Dev.hears]

theorem admits_iff (d : Dev) (r : Req) : d.admits r ↔ hearsOk d r.call = true ∧ (d.taken r.call).early r = 0 ∧ (d.taken r.call).later r = 0 := by
  simp only [Dev.admits, hears_iff]

/-- A message's coming out of its transport, as a test. -/
def bringsOk (d : Dev) : UPath → Bool
  | .mailbox l f s => d.reaches l.val f.val && !d.hostClosed l.val f.val && s.val != 0 && !bitOf (d.fn (fnKey l.val f.val)).busy s.val
  | .ring r => match (d.ringSt r.val).posted with
    | x :: _ => (d.ringSt r.val).kind == 7 && d.ringLive r.val && (d.path (.ring r)).busy == [] && d.descFate r.val x == 0
    | [] => false
  | _ => d.answers

theorem brings_iff (d : Dev) (p : UPath) : d.brings p ↔ bringsOk d p = true := by
  cases p <;> simp [Dev.brings, bringsOk, and_assoc]
  rename_i r
  cases (d.ringSt r.val).posted <;> simp [and_assoc]

/-- The entries of a profile with two bits and GAIN 8 on every data subcarrier, and an image of it (Table 8.5). -/
def entries : List Byte := List.replicate 1936 0x28
def image (p v : Byte) : List Byte := [p, v] ++ beBytes 2 1936 ++ zeros 8 ++ beBytes 4 0x54b1e1a7 ++ entries

/-- CRC-32C over 121 of the entries. -/
def crcPart (c : Nat) : Nat := (List.replicate 121 (0x28 : Byte)).foldl (fun c x => crcSteps 0x82F63B78 8 (c ^^^ x.toNat)) c

/-- The same, `n` times over. -/
def crcParts : Nat → Nat → Nat
  | 0, c => c
  | n + 1, c => crcParts n (crcPart c)

theorem fold_entries (n : Nat) : ∀ c, (List.replicate (121 * n) (0x28 : Byte)).foldl (fun c x => crcSteps 0x82F63B78 8 (c ^^^ x.toNat)) c = crcParts n c := by
  induction n with
  | zero => intro c; rfl
  | succ n ih =>
    intro c
    rw [Nat.mul_succ, Nat.add_comm, ← List.replicate_append_replicate, List.foldl_append, ih]
    rfl

theorem crc_entries : crc32c entries = 0x54b1e1a7 := by
  have e : crcParts 0 0xab4e1e58 = 0xab4e1e58 := rfl
  have e : crcParts 1 0x5c446690 = 0xab4e1e58 := (congrArg (crcParts 0) (by decide +kernel : crcPart 0x5c446690 = 0xab4e1e58)).trans e
  have e : crcParts 2 0x682e5046 = 0xab4e1e58 := (congrArg (crcParts 1) (by decide +kernel : crcPart 0x682e5046 = 0x5c446690)).trans e
  have e : crcParts 3 0xb28342a7 = 0xab4e1e58 := (congrArg (crcParts 2) (by decide +kernel : crcPart 0xb28342a7 = 0x682e5046)).trans e
  have e : crcParts 4 0xf33e63df = 0xab4e1e58 := (congrArg (crcParts 3) (by decide +kernel : crcPart 0xf33e63df = 0xb28342a7)).trans e
  have e : crcParts 5 0x2e488cad = 0xab4e1e58 := (congrArg (crcParts 4) (by decide +kernel : crcPart 0x2e488cad = 0xf33e63df)).trans e
  have e : crcParts 6 0x5b2e85ee = 0xab4e1e58 := (congrArg (crcParts 5) (by decide +kernel : crcPart 0x5b2e85ee = 0x2e488cad)).trans e
  have e : crcParts 7 0x1e8b4ac7 = 0xab4e1e58 := (congrArg (crcParts 6) (by decide +kernel : crcPart 0x1e8b4ac7 = 0x5b2e85ee)).trans e
  have e : crcParts 8 0xc56e7479 = 0xab4e1e58 := (congrArg (crcParts 7) (by decide +kernel : crcPart 0xc56e7479 = 0x1e8b4ac7)).trans e
  have e : crcParts 9 0xe50883d = 0xab4e1e58 := (congrArg (crcParts 8) (by decide +kernel : crcPart 0xe50883d = 0xc56e7479)).trans e
  have e : crcParts 10 0x803307a0 = 0xab4e1e58 := (congrArg (crcParts 9) (by decide +kernel : crcPart 0x803307a0 = 0xe50883d)).trans e
  have e : crcParts 11 0x597047fe = 0xab4e1e58 := (congrArg (crcParts 10) (by decide +kernel : crcPart 0x597047fe = 0x803307a0)).trans e
  have e : crcParts 12 0xa4a88f25 = 0xab4e1e58 := (congrArg (crcParts 11) (by decide +kernel : crcPart 0xa4a88f25 = 0x597047fe)).trans e
  have e : crcParts 13 0x9790f736 = 0xab4e1e58 := (congrArg (crcParts 12) (by decide +kernel : crcPart 0x9790f736 = 0xa4a88f25)).trans e
  have e : crcParts 14 0xc317a08d = 0xab4e1e58 := (congrArg (crcParts 13) (by decide +kernel : crcPart 0xc317a08d = 0x9790f736)).trans e
  have e : crcParts 15 0x5ad839f3 = 0xab4e1e58 := (congrArg (crcParts 14) (by decide +kernel : crcPart 0x5ad839f3 = 0xc317a08d)).trans e
  have e : crcParts 16 0xffffffff = 0xab4e1e58 := (congrArg (crcParts 15) (by decide +kernel : crcPart 0xffffffff = 0x5ad839f3)).trans e
  have f : crc32c (List.replicate (121 * 16) 0x28) = 0x54b1e1a7 := by rw [crc32c, crcReflected, fold_entries, e]; rfl
  exact f

theorem image_crc (p v : Byte) : crc32c ((image p v).drop 16) = 0x54b1e1a7 := by
  have h : (image p v).drop 16 = entries := rfl
  rw [h, crc_entries]

/-- A cell with a header, whose payload ends in 9, and a CRC. -/
def cell (h crc : Nat) : List Byte := beBytes 6 (h / 2 ^ 16) ++ beBytes 2 (crc16 (beBytes 6 (h / 2 ^ 16))) ++ zeros 243 ++ [9] ++ beBytes 4 crc

/-- CRC-32C in two parts. -/
theorem crc_parts (l : List Byte) (k c v : Nat) (h : (l.take k).foldl (fun c x => crcSteps 0x82F63B78 8 (c ^^^ x.toNat)) 0xFFFFFFFF = c)
    (h' : (l.drop k).foldl (fun c x => crcSteps 0x82F63B78 8 (c ^^^ x.toNat)) c = v) : crc32c l = v ^^^ 0xFFFFFFFF := by
  rw [crc32c, crcReflected, ← List.take_append_drop k l, List.foldl_append, h, h']

theorem crc_is (l : List Byte) (k c v m : Nat) (h : (l.take k).foldl (fun c x => crcSteps 0x82F63B78 8 (c ^^^ x.toNat)) 0xFFFFFFFF = c)
    (h' : (l.drop k).foldl (fun c x => crcSteps 0x82F63B78 8 (c ^^^ x.toNat)) c = v) (e : v ^^^ 0xFFFFFFFF = m) : crc32c l = m :=
  (crc_parts l k c v h h').trans e

theorem crc_not (l : List Byte) (k c v m : Nat) (h : (l.take k).foldl (fun c x => crcSteps 0x82F63B78 8 (c ^^^ x.toNat)) 0xFFFFFFFF = c)
    (h' : (l.drop k).foldl (fun c x => crcSteps 0x82F63B78 8 (c ^^^ x.toNat)) c = v) (e : v ^^^ 0xFFFFFFFF ≠ m) : crc32c l ≠ m :=
  fun x => e ((crc_parts l k c v h h').symm.trans x)

/-! Training symbols. -/

theorem window_same (m a s : Nat) (v : Int) (h : 4160 * s + 4160 ≤ m) : window (List.replicate m v).toArray a s = List.replicate 4096 v := by
  simp only [window, List.toArray_replicate]
  rw [List.eq_replicate_iff]
  refine ⟨by rw [List.length_map, List.length_range], fun b hb => ?_⟩
  obtain ⟨t, ht, rfl⟩ := List.mem_map.mp hb
  have ht := List.mem_range.mp ht
  rw [Array.getD_eq_getD_getElem?, Array.getElem?_replicate, if_pos (by omega), Option.getD_some]

theorem window_empty (a s : Nat) : window ([] : List Int).toArray a s = List.replicate 4096 0 := by
  rw [window, List.eq_replicate_iff]
  refine ⟨by rw [List.length_map, List.length_range], fun b hb => ?_⟩
  obtain ⟨t, -, rfl⟩ := List.mem_map.mp hb
  rfl

theorem dot_same (n : Nat) (v w : Int) : (List.zipWith (· * ·) (List.replicate n v) (List.replicate n w)).sum = n * (v * w) := by
  rw [List.zipWith_replicate, Nat.min_self]
  induction n with
  | zero => rw [List.replicate_zero, List.sum_nil]; omega
  | succ n ih => rw [List.replicate_succ, List.sum_cons, ih, Int.natCast_succ, Int.add_mul]; omega

theorem correlates_empty (a t : Nat) : correlates ([] : List Int).toArray a t = false := by
  simp only [correlates, window_empty, dot_same]
  rfl

theorem correlates_ones (a t : Nat) (ht : t ≤ 256) : correlates (List.replicate 8320 (1 : Int)).toArray a t = true := by
  simp only [correlates, window_same 8320 a 0 1 (by omega), window_same 8320 a 1 1 (by omega), dot_same, Bool.and_eq_true, decide_eq_true_eq]
  refine ⟨by omega, ?_⟩
  have : t * t ≤ 256 * 256 := Nat.mul_le_mul ht ht
  omega

/-! ## The hypotheses of the statements -/

/-! ## What WellFormed refuses: an ill-formed term for each check -/

/-- A Umani message of an opcode with some data, as delivered. -/
def msg (op : BitVec 4) (b : List Byte) (delivered : Nat) : UMsg := ⟨serial, 0x2000, 1, op, false, false, 0, 0, 0, b, delivered, true, 0, 0⟩

/-- A packet on a port. -/
def packet (p : Fin 118) (stream : Option (BitVec 20)) (start : Fin 3) (b : List Byte) : Arrival := ⟨p, 0, false, false, stream, 0, 0, 0, start, 0, b⟩

theorem test_wf_straps : (Instr.porstRelease true (List.replicate 7 (1, 1))).wf = false ∧ (Instr.porstRelease true (List.replicate 8 (1, 1))).wf = true := by decide

theorem test_wf_messages :
    (Instr.umaniRead (msg 1 [5] 16)).wf = false ∧ (Instr.umaniRead (msg 2 [] 16)).wf = false ∧ (Instr.umaniRead (msg 1 [] 16)).wf = true ∧
    (Instr.umaniWrite (msg 1 [5] 17) ⟨true, true, 0, [], []⟩).wf = false ∧ (Instr.umaniExecute (msg 1 [] 16) ⟨true, true, 0, [], []⟩).wf = false ∧
    (Instr.umaniBlockRead (msg 3 [] 16)).wf = false ∧ (Instr.umaniBlockWrite (msg 4 [] 16)).wf = false ∧
    (Instr.umaniReservedOperation (msg 5 [] 16)).wf = false ∧ (Instr.umaniReservedOperation (msg 6 [] 16)).wf = true ∧
    (Instr.umaniReservedOperation (msg 0 [] 16)).wf = true := by decide

theorem test_wf_fabric :
    (Instr.fabHelloRx 0 (1 :: List.replicate 48 0)).wf = false ∧ (Instr.fabHelloRx 0 (2 :: List.replicate 49 0)).wf = false ∧
    (Instr.fabConfirmRx 0 (2 :: List.replicate 12 0)).wf = false ∧ (Instr.fabConfirmRx 0 (1 :: List.replicate 11 0)).wf = false ∧
    (Instr.fabCreditSyncRx 0 (3 :: List.replicate 46 0)).wf = false ∧ (Instr.fabCreditSyncRx 0 (2 :: List.replicate 47 0)).wf = false ∧
    (Instr.fabCellRx 0 (List.replicate 255 0)).wf = false := by decide +kernel

theorem test_wf_packets :
    (Instr.packetIngress (packet 0 none 0 [])).wf = false ∧ (Instr.packetIngress (packet 0 (some 1) 0 [1])).wf = false ∧
    (Instr.packetIngress (packet 108 none 0 [1])).wf = false ∧ (Instr.packetIngress (packet 0 none 1 [1])).wf = false ∧
    (Instr.packetIngress (packet 116 none 0 [1])).wf = false ∧ (Instr.packetIngress (packet 117 none 2 [1])).wf = false ∧
    (Instr.packetIngress (packet 111 (some 1) 1 [1])).wf = true := by decide

theorem test_wf_accesses :
    (Instr.barReservedAccess 0 0 (.read0 4 0)).wf = false ∧ (Instr.barReservedAccess 0 0 (.read4 4 0)).wf = false ∧
    (Instr.barReservedAccess 0 0 (.write4 4 [])).wf = false ∧ (Instr.barReservedAccess 0 0 (.write0 4 (List.replicate 17 0))).wf = false ∧
    (Instr.barReservedAccess 0 0 (.write0 0 [1, 0, 0, 0])).wf = false ∧ (Instr.barReservedAccess 0 0 (.write0 0x100000 [1, 0, 0, 0])).wf = false ∧
    (Instr.barReservedAccess 0 0 (.write0 0x100000 [1, 0, 0])).wf = true := by decide

theorem test_wf_table_commands :
    (Instr.tableSearch (.exec serial 1 [2])).wf = false ∧ (Instr.tableSearch (.exec serial 1 [8])).wf = true ∧
    (Instr.tableNext (.exec serial 1 [1])).wf = false ∧ (Instr.tableInsert (.exec serial 1 [4])).wf = false ∧
    (Instr.tableDelete (.exec serial 1 [3])).wf = false ∧ (Instr.tableFlush (.exec serial 1 [0])).wf = false ∧
    (Instr.tableLock (.exec serial 1 [7])).wf = false ∧ (Instr.tableUnlock (.exec serial 1 [6])).wf = false := by decide

/-! ## Results that the spec's examples give -/

/-- The DMT sub-block of FCH2 starts at 0x4880 (spec/00). -/
theorem test_place_of_fch2 : Obj.find 0x4880 1 = some (.dmtState, 2, 0) := by decide +kernel

/-- VF 5 of link 1 is requester 0x0145, and H2 is 0x0180 (spec/05, the example after Table 5.4). -/
theorem test_requester_codes : State.reset.dev.codeOf (.mailbox 1 5 1) = 0x0145 ∧ State.reset.dev.codeOf (.mailbox 2 0 1) = 0x0180 := by decide +kernel

/-- Of 1,024 vectors 64 are the PF's, and 24 VFs have 32 each (spec/06). -/
theorem test_vector_shares : (up [.obj .rstStraps 0 0 (.num 1), .obj .hifMsixPfVectors 1 0 (.num 64)]).dev.vfShare 1 24 = 32 := by decide +kernel

/-- 0.8 µA at 8,000 µA/mW is −40 dBm (spec/07). -/
theorem test_receive_power :
    toInt 32 ((up [.obj .feState 0 0 (.num 2), .obj .feApdCurrent 0 0 (.num 800), .obj .feRxCal 0 0 (.num 8000)]).dev.rxPower 0) = -40000 := by
  decide +kernel

/-- Slot 5 from frame 1,600,064 is pending as 0x8500_0000_0018_6A40 (spec/08). -/
theorem test_profile_pending :
    (up [.arm ⟨0, 2, 1, .frame 1600064, 0x0200, false, [], [5], 0⟩]).dev.view .dmtProfilePending 1 0 = .num 0x8500000000186A40 := by decide +kernel

/-- 983 grant units carry 13,040 bytes, and 15,728 without FEC (spec/12). -/
theorem test_burst_payload : burstCapacity false 983 = 13040 ∧ burstCapacity true 983 = 15728 := by decide

/-- Burst 0x48D_159E of a channel of one rank of x16 16 Gb devices, under each order (spec/18). -/
theorem test_dram_place :
    dramPlace 0x90 0 0x48D159E = ⟨0, 3 * 4 + 3, 0x91A2, 32 + 12⟩ ∧ dramPlace 0x90 2 0x48D159E = ⟨0, 1 * 4 + 3, 0x91A2, 44⟩ ∧
    dramPlace 0x90 1 0x48D159E = ⟨0, 2 * 4 + 1, 0x91A2, 32 + 30⟩ := by decide

/-- The offset of a timing message is 50.196 ns (spec/20). -/
theorem test_timing_offset :
    let f := 5000
    let b : List Byte := [1, 0, 0, 0] ++ beBytes 8 f ++ beBytes 6 1700000000 ++ beBytes 4 500000000 ++ [0, 0] ++ beBytes 4 400000 ++
      beBytes 4 0x800010C7 ++ zeros 4
    let s := up [.obj .actEqd 0 0 (.num 0x422C00), .obj .timeFrameTs 0 0 (.oct (beBytes 8 f ++ beBytes 6 1700000000 ++ beBytes 4 500097750 ++ [0, 0]))]
    toPs (s.dev.tmsgOffset 0 b * 2 ^ 24) = 50196 := by decide +kernel

/-- With bits 0 to 36 of LMS_RESERVE programmed the next index is 37,888 (spec/21). -/
theorem test_lms_next : (up [.burn ((2 ^ 37 - 1) * 2 ^ (8 * 0x300))]).dev.lmsFirst = 37888 := by decide +kernel

/-- Read after write of an object, and another object as before. -/
theorem test_read_after_write :
    let s := up [.obj .tmDrops 0 3 (.num 7)]
    s.dev.num .tmDrops 0 3 = 7 ∧ s.dev.num .tmDrops 0 4 = 0 := by decide +kernel

/-! ## States and operands that meet the hypotheses of each statement -/

/-- A command that ends in a next state. -/
def runs (o : Host.Outcome State Fault Refusal) : Bool := match o with | .next _ => true | _ => false

theorem runs_next {o : Host.Outcome State Fault Refusal} (h : runs o = true) : ∃ t, o = .next t := by
  cases o with
  | next t => exact ⟨t, rfl⟩
  | fault _ => cases h
  | refused _ => cases h

theorem meets_CommandsLeaveQueue : ∃ t, exec .thermAssert (up []) = .next t := runs_next (by decide +kernel)

theorem meets_StepKeepsInvariant : (up []).Inv ∧ ∃ t, step { up [] with pending := [.subTick] } = .next t :=
  ⟨by rw [inv_iff]; decide +kernel, runs_next (by decide +kernel)⟩

theorem meets_OtpOnlyGrows :
    (∃ t, step { up [.burn 9] with pending := [.powerOnReset] } = .next t) ∧ bitOf (up [.burn 9]).dev.otp 3 = true :=
  ⟨runs_next (by decide +kernel), by decide +kernel⟩

theorem meets_CountersSaturate :
    (let s := up [.obj .umaniDiscards 0 0 (.num 0xFFFFFFFF)]; s.Inv ∧ s.dev.num .umaniDiscards 0 0 < 2 ^ Obj.umaniDiscards.width) := by
  simp only [inv_iff]
  and_intros <;> decide +kernel

theorem meets_DeviceResetsBegin :
    (let s := up []; s.Inv) ∧
    (let s := up []; s.Inv ∧ s.dev.pins.porstN = true ∧ (s.dev.num .pwrState < 3 ∨ s.dev.pins.pwrreqN = false)) ∧
    (let s := up [.clk fun c => { c with hrefLost := true }]; s.Inv ∧ s.dev.clk.hrefLost = true) ∧
    (let s := up [.clk fun c => { c with cmdReset := some ⟨serial, 3, 0x2010, 5⟩ }]; s.Inv ∧ s.dev.clk.cmdReset.isSome = true) ∧
    (let s := up []; s.Inv ∧ s.dev.clk.devReset = false) := by
  simp only [inv_iff]
  and_intros <;> decide +kernel

theorem meets_ResetsEnd :
    (let s := State.reset; let ps : List (BitVec 8 × BitVec 8) := [(0, 1), (131, 131), (0, 0), (0, 0), (0, 0), (0, 0), (0, 0), (0, 0)]; let v : BitVec 8 := 131; s.Inv ∧ ps.length = 8 ∧ ps.find? (fun x => x.1 == x.2) = some (v, v) ∧ s.dev.pins.porstN = false ∧ s.dev.clk.devReset = true ∧ s.dev.clk.supplyHeld = false ∧ s.dev.clk.hrefLost = false) ∧
    (let s := State.reset; let b := false; let ps : List (BitVec 8 × BitVec 8) := List.replicate 8 (1, 1); ps.length = 8 ∧ s.dev.pins.porstN = false ∧ (b = false ∨ ps.find? (fun x => x.1 == x.2) = none)) ∧
    (let s := State.reset.after [.pins fun p => { p with porstN := true, href := true, aonOn := true, straps := List.replicate 8 (0, 4) }]; let v := 0; let w := 4; s.Inv ∧ s.dev.pins.porstN = true ∧ s.dev.pins.href = true ∧ s.dev.pins.straps.getLast? = some (v, w)) ∧
    (let s := State.reset.after [.pins fun p => { p with porstN := true, href := false, straps := List.replicate 8 (4, 4) }]; let v := 4; s.Inv ∧ s.dev.pins.porstN = true ∧ s.dev.pins.href = false ∧ s.dev.clk.hrefLost = false ∧ s.dev.pins.straps.find? (fun p => p.1 == p.2) = some (v, v)) ∧
    (let s := up [.clk fun c => { c with supplyHeld := true, devReset := true }]; s.Inv ∧ s.dev.clk.supplyHeld = true ∧ s.dev.clk.devReset = true ∧ s.dev.pins.porstN = true ∧ s.dev.pins.href = true ∧ s.dev.clk.hrefLost = false ∧ s.dev.pins.straps = []) ∧
    (let s := up [.clk fun c => { c with supplyHeld := true, hrefLost := true }]; s.dev.clk.supplyHeld = true ∧ (s.dev.pins.href = false ∨ s.dev.clk.hrefLost = true)) ∧
    (let s := up [.clk fun c => { c with coreReset := true }]; s.dev.clk.coreReset = true) ∧
    (let s := up [.clk fun c => { c with insts := [0x0400] }]; let k : BitVec 8 := 4; let n : BitVec 8 := 0; s.dev.clk.insts.contains (k.toNat * 256 + n.toNat) = true ∧ k.toNat ≠ 1 ∧ k.toNat ≠ 3) := by
  simp only [inv_iff]
  and_intros <;> decide +kernel

theorem meets_ResetsEnd_2 :
    (let s := up [.clk fun c => { c with closed := [0x0400] }]; let k : BitVec 8 := 4; let n : BitVec 8 := 0; s.dev.sidesUp (k.toNat * 256 + n.toNat) = true) ∧
    (let s := up [.clk fun c => { c with closed := [0x0400], insts := [0x0400] }]; let k : BitVec 8 := 4; let n : BitVec 8 := 0; s.dev.sidesUp (k.toNat * 256 + n.toNat) = false) ∧
    (let s := up []; s.dev.num .pwrState < 3 ∧ s.dev.pins.porstN = true) := by
  and_intros <;> decide +kernel

theorem meets_ClockEvents :
    (let s := up [.obj .clkFchState 0 3 (.num 2), .fch 3 fun c => { c with ratios := [5, 7] }]; let n : Fin 4 := 3; s.Inv ∧ s.dev.answers = true ∧ s.dev.num .clkFchState 0 n.val = 2) ∧
    (let s := up []; let n : Fin 4 := 0; s.Inv ∧ s.dev.answers = true ∧ s.dev.num .clkFchState 0 n.val = 0) ∧
    (let s := up [.obj .clkFchState 0 3 (.num 1)]; let n : Fin 5 := 3; s.Inv ∧ s.dev.answers = true ∧ n.val < 4 ∧ s.dev.num .clkFchState 0 n.val = 1) ∧
    (let s := up [.obj .clkTimingState 0 0 (.num 1)]; s.dev.answers = true ∧ s.dev.num .clkTimingState = 1) ∧
    (let s := up [.obj .clkTimingState 0 0 (.num 2)]; s.dev.answers = true ∧ s.dev.num .clkTimingState = 2) ∧
    (let s := up [.clk fun c => { c with values := SMap.put (0, 0) 9 (8, 15) c.values }]; let x : BitVec 8 := 9; let a : BitVec 32 := 1; let b : BitVec 32 := 1; let v := 8; let r := 15; s.dev.answers = true ∧ SMap.get (0, 0) s.dev.clk.values x.toNat = (v, r) ∧ a = b) ∧
    (let s := up [.clk fun c => { c with values := SMap.put (0, 0) 9 (8, 14) c.values }]; let x : BitVec 8 := 9; let a : BitVec 32 := 1; let b : BitVec 32 := 2; let v := 8; let r := 14; s.dev.answers = true ∧ SMap.get (0, 0) s.dev.clk.values x.toNat = (v, r) ∧ a ≠ b ∧ r + 1 < 16) ∧
    (let s := up [.clk fun c => { c with values := SMap.put (0, 0) 9 (8, 15) c.values }]; let x : BitVec 8 := 9; let a : BitVec 32 := 1; let b : BitVec 32 := 2; let v := 8; let r := 15; s.dev.answers = true ∧ SMap.get (0, 0) s.dev.clk.values x.toNat = (v, r) ∧ a ≠ b ∧ 16 ≤ r + 1) := by
  simp only [inv_iff]
  and_intros <;> decide +kernel

theorem meets_ClockEvents_2 :
    (let s := up []; s.Inv ∧ s.dev.answers = true ∧ s.dev.clk.coreReset = false) ∧
    (let s := up []; let o := serial; let i : BitVec 16 := 0x2010; let j : BitVec 8 := 2; let op : BitVec 4 := 1; ¬ (0x9010 ≤ i.toNat ∧ i.toNat < 0x9090) ∧ s.dev.hears ⟨o, op.toNat, i.toNat, j.toNat⟩) ∧
    (let o := serial; let i : BitVec 16 := 0x2010; let j : BitVec 8 := 2; let op : BitVec 4 := 1; let c : Call := ⟨o, op.toNat, i.toNat, j.toNat⟩; let s := up [.clk fun k => { k with held := [c] }, .um (pathKey .serial) fun u => { u with busy := [c] }]; s.dev.answers = true ∧ s.dev.clk.held.contains c = true ∧ (s.dev.path o.path).busy.contains c = true) ∧
    (let s := up []; let l : Fin 4 := 0; let f : Fin 64 := 0; s.dev.inRun ∧ s.dev.reaches l.val f.val = true) ∧
    (let s := up [.ring 4095 fun x => { x with state := 1 }]; let r : Fin 4096 := 4095; s.dev.answers = true ∧ (s.dev.ringSt r.val).state = 1) := by
  simp only [inv_iff, hears_iff, Dev.inRun]
  and_intros <;> decide +kernel

theorem meets_ResetRequests :
    (let s := up [.obj .rstCauseSticky 0 0 (.num 6)]; let o := serial; s.Inv ∧ s.dev.admits (readReq o .rstCauseSticky 0 0 (.num 0))) ∧
    (let s := up [.obj .rstCauseSticky 0 0 (.num 0x5E)]; let o := sec; let v : BitVec 32 := 0x0A; s.Inv ∧ s.dev.admits (writeReq o .rstCauseSticky 0 0 (.num v.toNat)) ∧ v.toNat &&& 0xFE = v.toNat) ∧
    (let s := up []; let o := serial; s.Inv ∧ s.dev.admits (execReq o .rstDevice 0 0 true (.oct []))) ∧
    (let s := up []; let o := sec; let arg : BitVec 16 := 0x0500; s.Inv ∧ s.dev.admits (execReq o .rstInstance 0 0 true (.num arg.toNat)) ∧ isInstance arg.toNat = true ∧
    (arg.toNat / 256 = 2 → s.dev.gateSwitchOn (arg.toNat % 256) = false) ∧ s.dev.clk.insts.contains arg.toNat = false ∧ arg = 0x0500 ∧ s.dev.sessions = []) ∧
    (let o := sec; let v : BitVec 8 := 3; let s := up []; s.Inv ∧ s.dev.admits (writeReq o .clkTimingChannel 0 0 (.num v.toNat)) ∧ v.toNat ≤ 3 ∧ s.dev.num .feEnable v.toNat ≠ 1) ∧
    (let o := sec; let v : BitVec 8 := 3; let s := up [.obj .feEnable 3 0 (.num 1), .obj .clkTimingChannel 0 0 (.num 3)]; s.Inv ∧ s.dev.admits (writeReq o .clkTimingChannel 0 0 (.num v.toNat)) ∧ v.toNat ≤ 3 ∧ s.dev.num .feEnable v.toNat = 1 ∧ v.toNat = s.dev.num .clkTimingChannel) ∧
    (let o := sec; let v : BitVec 8 := 3; let s := up [.obj .feEnable 3 0 (.num 1), .fch 3 fun c => { c with refValid := true }]; s.Inv ∧ s.dev.admits (writeReq o .clkTimingChannel 0 0 (.num v.toNat)) ∧ v.toNat ≤ 3 ∧ s.dev.num .feEnable v.toNat = 1 ∧ v.toNat ≠ s.dev.num .clkTimingChannel ∧ (s.dev.ch v.toNat).refValid = true) ∧
    (let o := sec; let v : BitVec 8 := 3; let s := up [.obj .feEnable 3 0 (.num 1), .obj .timeStatus 0 0 (.num 1), .obj .clkTimingState 0 0 (.num 2), .fch 0 fun c => { c with ratios := [4] }]; s.Inv ∧ s.dev.admits (writeReq o .clkTimingChannel 0 0 (.num v.toNat)) ∧ v.toNat ≤ 3 ∧ s.dev.num .feEnable v.toNat = 1 ∧ v.toNat ≠ s.dev.num .clkTimingChannel ∧ (s.dev.ch v.toNat).refValid = false ∧ s.dev.num .clkTimingFallback ≠ 1) := by
  simp only [inv_iff, admits_iff]
  and_intros <;> decide +kernel

theorem meets_TightropeMoves :
    (let o := sec; let v : BitVec 8 := 2; let s := up []; let r := writeReq o .trOpTarget 0 0 (.num v.toNat); let p := max v.toNat s.dev.pwr.floor; s.Inv ∧ s.dev.admits r ∧ s.dev.num .trState = 0 ∧ v.toNat = p ∧ (v.toNat ≠ s.dev.pwr.clkPoint ∨ v.toNat ≠ s.dev.pwr.voltPoint)) ∧
    (let o := sec; let v : BitVec 8 := 2; let s := up [.pwr fun p => { p with floor := 3 }]; let r := writeReq o .trOpTarget 0 0 (.num v.toNat); let p := max v.toNat s.dev.pwr.floor; s.Inv ∧ s.dev.admits r ∧ s.dev.num .trState = 0 ∧ (v.toNat < p ∨ v.toNat = s.dev.pwr.clkPoint ∧ v.toNat = s.dev.pwr.voltPoint)) ∧
    (let o := sec; let v : BitVec 8 := 0; let s := up []; let r := writeReq o .trOpTarget 0 0 (.num v.toNat); let p := max v.toNat s.dev.pwr.floor; s.Inv ∧ s.dev.admits r ∧ s.dev.num .trState = 0 ∧ (v.toNat < p ∨ v.toNat = s.dev.pwr.clkPoint ∧ v.toNat = s.dev.pwr.voltPoint)) ∧
    (let o := sec; let v : BitVec 8 := 2; let s := up [.obj .trState 0 0 (.num 1)]; let r := writeReq o .trOpTarget 0 0 (.num v.toNat); s.Inv ∧ s.dev.admits r ∧ s.dev.num .trState = 1) ∧
    (let o := sec; let v : BitVec 8 := 2; let s := up [.obj .trState 0 0 (.num 2)]; let r := writeReq o .trOpTarget 0 0 (.num v.toNat); s.Inv ∧ s.dev.admits r ∧ s.dev.num .trState = 2 ∧ v.toNat ≠ s.dev.pwr.clkPoint) ∧
    (let o := sec; let v : BitVec 8 := 0; let s := up [.obj .trState 0 0 (.num 2), .pwr fun p => { p with floor := 1 }]; let r := writeReq o .trOpTarget 0 0 (.num v.toNat); s.Inv ∧ s.dev.admits r ∧ s.dev.num .trState = 2 ∧ v.toNat = s.dev.pwr.clkPoint) ∧
    (let p := 2; let mv : BitVec 16 := 715; let s := up [.obj .trState 0 0 (.num 1), .obj .trOpTarget 0 0 (.num 2), .pwr fun x => { x with moveTo := some 2, clkPoint := 2 }]; s.Inv ∧ s.dev.num .trState = 1 ∧ s.dev.pwr.moveTo = some p ∧ within15 p mv.toNat = true ∧ s.dev.pwr.moveCall = none ∧ s.dev.opActive = p) ∧
    (let p := 2; let c : Call := ⟨sec, 2, Obj.trOpTarget.index 0 0, 1⟩; let mv : BitVec 16 := 685; let s := up [.obj .trState 0 0 (.num 1), .um (pathKey .internal) fun u => { u with busy := [c] }, .pwr fun x => { x with moveTo := some 2, moveCall := some c, floor := 2 }]; s.Inv ∧ s.dev.num .trState = 1 ∧ s.dev.pwr.moveTo = some p ∧ within15 p mv.toNat = true ∧ s.dev.pwr.moveCall = some c ∧ s.dev.pwr.floor ≤ p) := by
  simp only [inv_iff, admits_iff]
  and_intros <;> decide +kernel

theorem meets_TightropeMoves_2 :
    (let p := 2; let mv : BitVec 16 := 716; let s := up [.obj .trState 0 0 (.num 1), .pwr fun x => { x with moveTo := some 2 }]; s.Inv ∧ s.dev.num .trState = 1 ∧ s.dev.pwr.moveTo = some p ∧ within15 p mv.toNat = false) ∧
    (let p := 2; let b := false; let mv : BitVec 16 := 700; let s := up [.obj .trState 0 0 (.num 1), .pwr fun x => { x with moveTo := some 2 }]; s.Inv ∧ s.dev.num .trState = 1 ∧ s.dev.pwr.moveTo = some p ∧ (within15 p mv.toNat && b) = false ∧ s.dev.pwr.moveCall = none) ∧
    (let s := up [.pwr fun p => { p with floor := 2 }]; s.dev.answers = true ∧ s.dev.inRun ∧ s.dev.pwr.floor < 3 ∧ s.dev.pwr.hot = false) ∧
    (let s := up [.pwr fun p => { p with hot := true }]; s.dev.answers = true ∧ s.dev.inRun ∧ s.dev.pwr.floor < 3 ∧ s.dev.pwr.hot = true) ∧
    (let s := up [.pwr fun p => { p with floor := 1, clkPoint := 1, voltPoint := 1, hot := true }]; s.dev.answers = true ∧ s.dev.num .pwrState ≤ 1 ∧ 0 < s.dev.pwr.floor) := by
  simp only [inv_iff, Dev.inRun]
  and_intros <;> decide +kernel

theorem meets_SleepAndWake :
    (let o := host; let s := up [.fn 0 fun y => { y with live := true, epoch := 1 }, .obj .dictGroupOwner 0 1 (.num 0x0100)]; s.Inv ∧ s.dev.hears ⟨o, 3, 0x2100, 2⟩ ∧ s.dev.codeOk ⟨o, 3, 0x2100, 2⟩ = true ∧ isHost o.code.toNat = true ∧ hostFn o.code.toNat = 0 ∧ s.dev.ownerLink 1 = some (hostLink o.code.toNat) ∧ s.dev.num .trState ≠ 1) ∧
    (let o := serial; let s := up []; let v : BitVec 8 := 1; let a := 0x0201; s.Inv ∧ s.dev.hears ⟨o, 3, 0x2100, 2⟩ ∧ s.dev.entryAbort ⟨o, 3, 0x2100, 2⟩ v.toNat = a ∧ a ≠ 0) ∧
    (let c : Call := ⟨host, 3, 0x2100, 2⟩; let k : Fin 60 := 51; let s := up [.um (pathKey host.path) fun u => { u with busy := [c] }, .pwr fun p => { p with req := some ⟨c, 1, []⟩ }, .clk fun c => { c with gates := [(44, 2), (51, 1)] }]; s.Inv ∧ SMap.get 0 s.dev.clk.gates k.val = 1 ∧ s.dev.pwr.req = some ⟨c, 1, []⟩ ∧ ((SMap.put 0 k.val 2 s.dev.clk.gates).all fun g => g.2 == 2) = true) ∧
    (let k : Fin 60 := 44; let s := up [.clk fun c => { c with gates := [(44, 1), (51, 1)] }]; SMap.get 0 s.dev.clk.gates k.val = 1 ∧ ((SMap.put 0 k.val 2 s.dev.clk.gates).all fun g => g.2 == 2) = false) ∧
    (let k : Fin 60 := 44; let s := up [.clk fun c => { c with gates := [(44, 1)] }]; SMap.get 0 s.dev.clk.gates k.val = 1 ∧ s.dev.pwr.req = none) ∧
    (let c : Call := ⟨host, 3, 0x2100, 2⟩; let k : Fin 60 := 44; let s := up [.um (pathKey host.path) fun u => { u with busy := [c] }, .pwr fun p => { p with req := some ⟨c, 1, []⟩ }, .clk fun c => { c with gates := [(44, 1)] }]; SMap.get 0 s.dev.clk.gates k.val = 1 ∧ s.dev.pwr.req.isSome = true) ∧
    (let c : Call := ⟨host, 3, 0x2100, 2⟩; let q : PwrReq := ⟨c, 2, [0]⟩; let s := up [.um (pathKey host.path) fun u => { u with busy := [c] }, .obj .actDozeState 0 0 (.num 1), .pwr fun p => { p with req := some q }]; s.dev.answers = true ∧ s.dev.pwr.req = some q ∧ q.waits ≠ []) ∧
    (let s := up [.obj .pwrState 0 0 (.num 1), .obj .actState 2 0 (.num 4), .obj .actHandle 2 0 (.num 7), .obj .pwrWakeMask 0 0 (.num 0x3FF), .clk fun c => { c with gates := [(44, 2)] }, .arm ⟨0, 4, 0, .frame 9, 0x300, false, [], [], 0⟩]; let k : Fin 60 := 44; let n : Fin 4 := 2; let m : Lemow := ⟨false, 7, 0, []⟩; s.Inv ∧ s.dev.num .pwrState = 1 ∧ s.dev.pwr.req = none ∧ s.dev.clk.devReset = false ∧ s.dev.clk.hrefLost = false ∧
    SMap.get 0 s.dev.clk.gates k.val = 2 ∧ bitOf (s.dev.num .pwrWakeMask) 3 = true ∧ s.dev.acts ≠ [] ∧ bitOf (s.dev.num .pwrWakeMask) 8 = true ∧
    bitOf (s.dev.num .pwrWakeMask) 6 = true ∧ s.dev.num .actState n.val = 4 ∧ m.body = [] ∧
      (m.addr.toNat = 0xFFFF ∨ m.addr.toNat = s.dev.num .actHandle n.val)) := by
  simp only [inv_iff, hears_iff]
  and_intros <;> decide +kernel

theorem meets_SleepAndWake_2 :
    (let s := up [.obj .pwrState 0 0 (.num 1), .obj .pwrWakeMask 0 0 (.num 3), .clk fun c => { c with gates := [(44, 2)] }]; let k : Fin 60 := 44; s.Inv ∧ s.dev.num .pwrState = 1 ∧ s.dev.pwr.req = none ∧ SMap.get 0 s.dev.clk.gates k.val = 2 ∧ bitOf (s.dev.num .pwrWakeMask) 3 = false ∧ s.dev.acts = []) ∧
    (let s := up [.obj .pwrState 0 0 (.num 3)]; (s.dev.num .pwrState = 3 ∨ s.dev.num .pwrState = 4) ∧ s.dev.pwr.req = none ∧ s.dev.clk.devReset = false ∧ s.dev.clk.hrefLost = false) ∧
    (let s := up [.obj .pwrState 0 0 (.num 4), .pwr fun p => { p with seen := 1 }]; s.Inv ∧ s.dev.pins.pwrreqN = false ∧ s.dev.pins.porstN = true ∧ s.dev.num .pwrState = 4) ∧
    (let s := up [.obj .pwrState 0 0 (.num 3), .obj .secBootSlot 0 0 (.num 128)]; let b := false; s.Inv ∧ s.dev.pins.pwrreqN = false ∧ s.dev.pins.porstN = true ∧ s.dev.num .pwrState = 3 ∧ s.dev.codeRetained b = false ∧ bitOf (s.dev.num .secBootSlot) 7 = true) := by
  simp only [inv_iff]
  and_intros <;> decide +kernel

theorem meets_DiscardsAndRepeats :
    (let s := up []; let m : UMsg := ⟨serial, 0x1000, 1, 1, false, true, 0, 0, 0, [], 15, true, 0, 0⟩; s.dev.answers = true ∧ m.wf = true ∧ m.o.path = .serial ∧
    (m.delivered < 16 ∨ pathMax m.o.path < m.delivered ∨ m.response = true ∨ m.checkOk = false ∨
      (m.o.path = .serial ∧ m.pec.toNat ≠ crc8 (BitVec.ofNat 8 s.dev.i2cAddr :: msgBytes m)) ∨
      (m.op.toNat = 4 ∧ m.delivered ≠ 16) ∨ (m.op.toNat ≠ 4 ∧ m.delivered ≠ 16 + m.length.toNat)) ∧ m.op = 1) ∧
    (let s := up []; let m : UMsg := ⟨⟨.mband 0 false, 0x0200, 1⟩, 0x1000, 1, 2, true, true, 0, 0, 0, [], 16, true, 0, 0⟩; let e : Outcomes := ⟨true, false, 0, [], []⟩; s.dev.answers = true ∧ m.wf = true ∧ m.o.path = .mband 0 false ∧ m.response = true ∧ m.op = 2 ∧ e.lost = 0) ∧
    (let s := up []; let m : UMsg := ⟨⟨.mband 0 false, 0x0200, 1⟩, 0x1000, 1, 3, true, true, 0, 0, 0, [], 16, true, 0, 0⟩; let e : Outcomes := ⟨true, false, 0, [], []⟩; s.dev.answers = true ∧ m.wf = true ∧ m.o.path = .mband 0 false ∧ m.response = true ∧ m.op = 3 ∧ e.lost = 0) ∧
    (let s := up []; let m : UMsg := ⟨⟨.mband 0 false, 0x0200, 1⟩, 0x1000, 1, 4, true, true, 0, 0, 0, [], 16, true, 0, 0⟩; let e : Outcomes := ⟨true, false, 0, [], []⟩; s.dev.answers = true ∧ m.wf = true ∧ m.o.path = .mband 0 false ∧ m.response = true ∧ m.op = 4 ∧ e.lost = 0) ∧
    (let s := up []; let m : UMsg := ⟨⟨.mband 0 false, 0x0200, 1⟩, 0x1000, 1, 5, true, true, 0, 0, 0, [], 16, true, 0, 0⟩; let e : Outcomes := ⟨true, false, 0, [], []⟩; s.dev.answers = true ∧ m.wf = true ∧ m.o.path = .mband 0 false ∧ m.response = true ∧ m.op = 5 ∧ e.lost = 0) ∧
    (let s := up []; let m : UMsg := ⟨⟨.mband 0 false, 0x0200, 1⟩, 0x1000, 1, 6, true, true, 0, 0, 0, [], 16, true, 0, 0⟩; let e : Outcomes := ⟨true, false, 0, [], []⟩; s.dev.answers = true ∧ m.wf = true ∧ m.o.path = .mband 0 false ∧ m.response = true ∧ m.op = 6 ∧ e.lost = 0) ∧
    (let s := up []; let l : Fin 4 := 0; let f : Fin 64 := 0; let n : Fin 16 := 1; let b : List Byte := zeros 7 ++ [8] ++ zeros 8; let w := (if b = [] then s.dev.slotBytes (fnKey l.val f.val) n.val else b); s.Inv ∧ s.dev.brings (.mailbox l f n) ∧ s.dev.inRun ∧ (bitOf (leNat (padTo 1 (slice w 7 1))) 3 = true ∨ 4080 < leNat (padTo 2 (slice w 10 2)))) ∧
    (let o : Origin := ⟨.mband 0 false, 0x0200, 1⟩; let c : Call := ⟨o, 1, 0x1000, 1⟩; let r : Resp := ⟨c, 0, true, 0, []⟩; let s := up [.um (pathKey o.path) fun u => { u with sent := [r] }]; let m : UMsg := ⟨o, 0x1000, 1, 1, false, true, 0, 0, 0, [], 16, true, 0, 0⟩; s.dev.answers = true ∧ s.dev.inRun ∧ m.wf = true ∧ s.dev.msgFaulty m = false ∧ m.o.path = .mband 0 false ∧ m.op = 1 ∧ (∀ y ∈ (s.dev.path m.o.path).busy, y.o.seq ≠ m.o.seq) ∧ (s.dev.path m.o.path).sent.find? (fun y => y.call.o.seq = m.o.seq) = some r) := by
  simp only [inv_iff, Dev.inRun, brings_iff]
  and_intros <;> decide +kernel

theorem meets_DiscardsAndRepeats_2 :
    (let o : Origin := ⟨.mband 0 false, 0x0200, 1⟩; let c : Call := ⟨o, 1, 0x1000, 1⟩; let s := up [.um (pathKey o.path) fun u => { u with busy := [c] }]; let m : UMsg := ⟨o, 0x1000, 1, 1, false, true, 0, 0, 0, [], 16, true, 0, 0⟩; s.dev.answers = true ∧ s.dev.inRun ∧ m.wf = true ∧ s.dev.msgFaulty m = false ∧ m.o.path = .mband 0 false ∧ m.op = 1 ∧ (∃ y ∈ (s.dev.path m.o.path).busy, y.o.seq = m.o.seq) ∧ s.dev.clk.held.contains (msgCall m) = false) ∧
    (let c : Call := ⟨serial, 1, 0x1000, 1⟩; let r : Resp := ⟨c, 0, true, 0, [1]⟩; let d := (up [.um (pathKey .serial) fun u => { u with busy := [c] }]).dev; SMap.wf UPathSt.none d.um = true ∧ r.call ∈ (d.path r.call.o.path).busy ∧ r.call.o.path = .serial) ∧
    (let c : Call := ⟨serial, 1, 0x1000, 1⟩; let r : Resp := ⟨c, 0, true, 0, [1]⟩; let rest : List Resp := []; let s := up [.i2c fun _ => [r]]; s.dev.answers = true ∧ s.dev.i2c = r :: rest) ∧
    (let s := up []; s.dev.answers = true ∧ s.dev.i2c = []) := by
  simp only [Dev.inRun]
  and_intros <;> decide +kernel

theorem meets_MessagesServed :
    (let s := up []; let m : UMsg := ⟨sec, 0x2000, 1, 1, false, true, 0, 0, 0, [], 16, true, 0, 0⟩; let x : Obj := .clkTimingChannel; let i := 0; let j := 0; s.Inv ∧ m.wf = true ∧ s.dev.brings m.o.path ∧ s.dev.msgFaulty m = false ∧ m.op = 1 ∧ msgTgt m = .elem x i j ∧ x ≠ .rstCauseSticky ∧ x ≠ .secChallenge ∧ x ≠ .portMacCounters ∧ s.dev.admits ⟨msgCall m, .elem x i j, msgPlain m && m.length == 0, .num 0⟩) ∧
    (let s := up []; let m : UMsg := ⟨sec, 0xA400, 8, 2, false, true, 0, 4, 0, [0, 0, 1, 2], 20, true, 0, 0⟩; let x : Obj := .evrRepeatWindow; let i := 0; let j := 0; let v : Val := .num 0x102; s.Inv ∧ m.wf = true ∧ s.dev.brings m.o.path ∧ s.dev.msgFaulty m = false ∧ m.op = 2 ∧ msgTgt m = .elem x i j ∧ dataVal m.o.path x.row.ty m.data = some v ∧ s.dev.admits ⟨msgCall m, .elem x i j, msgPlain m, v⟩ ∧ ownRange x j v (s.dev.taken (msgCall m)) = true ∧ ownState x j v (s.dev.taken (msgCall m)) = true ∧ s.dev.num .pwrState = 0 ∧ s.dev.pwr.req = none) ∧
    (let s := up []; let m : UMsg := ⟨sec, 0x2010, 5, 3, false, true, 0, 0, 0, [], 16, true, 0, 0⟩; s.Inv ∧ m.wf = true ∧ s.dev.brings m.o.path ∧ s.dev.msgFaulty m = false ∧ m.op = 3 ∧ msgPlain m = true ∧ s.dev.num .pwrState = 0 ∧ s.dev.pwr.req = none ∧ m.index = 0x2010 ∧ m.sub = 5 ∧ m.data = [] ∧ s.dev.admits (execReq m.o .rstDevice 0 0 true (.oct []))) ∧
    (let s := up []; let m : UMsg := ⟨sec, 0x1101, 1, 3, false, true, 0, 1, 0, [3], 17, true, 0, 0⟩; let g : BitVec 8 := 3; s.Inv ∧ m.wf = true ∧ s.dev.brings m.o.path ∧ s.dev.msgFaulty m = false ∧ m.op = 3 ∧ msgPlain m = true ∧ s.dev.num .pwrState = 0 ∧ s.dev.pwr.req = none ∧ m.index = 0x1101 ∧ m.sub = 1 ∧ m.data = [g]) ∧
    (let s := up []; let m : UMsg := ⟨sec, 0x9800, 6, 3, false, true, 0, 8, 0, [0, 0, 0, 0, 0, 0, 0, 5], 24, true, 0, 0⟩; let v : BitVec 64 := 5; s.Inv ∧ m.wf = true ∧ s.dev.brings m.o.path ∧ s.dev.msgFaulty m = false ∧ m.op = 3 ∧ msgPlain m = true ∧ s.dev.num .pwrState = 0 ∧ s.dev.pwr.req = none ∧ m.index = 0x9800 ∧ m.sub = 6 ∧ m.data.length = 8 ∧ argNum m.o.path m.data = v.toNat) ∧
    (let s := up []; let m : UMsg := ⟨sec, 0x2000, 1, 6, false, true, 0, 0, 0, [], 16, true, 0, 0⟩; let x : Obj := .clkTimingChannel; let i := 0; let j := 0; s.Inv ∧ m.wf = true ∧ s.dev.brings m.o.path ∧ s.dev.msgFaulty m = false ∧ (m.op = 0 ∨ 5 < m.op) ∧ msgTgt m = .elem x i j ∧ s.dev.hears (msgCall m)) ∧
    (let l : Fin 4 := 0; let f : Fin 64 := 0; let n : Fin 16 := 15; let b : List Byte := leBytes 2 0x0100 ++ leBytes 2 5 ++ leBytes 2 0x2000 ++ leBytes 1 1 ++ leBytes 1 0x16 ++ leBytes 2 0 ++ leBytes 2 0 ++ leBytes 4 0 ++ []; let s := up []; let t := (if b = [] ∨ s.dev.reaches l.val f.val = false ∨ s.dev.hostClosed l.val f.val = true then s else s.after [.fn (fnKey l.val f.val) fun y => { y with resp := SMap.put [] n.val (patch (s.dev.slotBytes (fnKey l.val f.val) n.val) 0 b) y.resp }]); let m := slotMsg (.mailbox l f n) (if b = [] then s.dev.slotBytes (fnKey l.val f.val) n.val else b); let x : Obj := .clkTimingChannel; let i := 0; let j := 0; t.Inv ∧ t.dev.brings (.mailbox l f n) ∧ t.dev.msgFaulty m = false ∧ m.op = 1 ∧ msgTgt m = .elem x i j ∧ x ≠ .rstCauseSticky ∧ x ≠ .secChallenge ∧ x ≠ .portMacCounters ∧
      t.dev.admits ⟨msgCall m, .elem x i j, msgPlain m && m.length == 0, .num 0⟩) ∧
    (let l : Fin 4 := 0; let f : Fin 64 := 0; let n : Fin 16 := 15; let b : List Byte := leBytes 2 0x0100 ++ leBytes 2 5 ++ leBytes 2 0x2000 ++ leBytes 1 1 ++ leBytes 1 0x26 ++ leBytes 2 0 ++ leBytes 2 1 ++ leBytes 4 0 ++ [0]; let s := up []; let m := slotMsg (.mailbox l f n) (if b = [] then s.dev.slotBytes (fnKey l.val f.val) n.val else b); m.op = 2 ∧ b ≠ [] ∧ s.dev.reaches l.val f.val = true ∧ s.dev.hostClosed l.val f.val = false) := by
  simp only [inv_iff, admits_iff, hears_iff, brings_iff]
  and_intros <;> decide +kernel

theorem meets_MessagesServed_2 :
    (let l : Fin 4 := 0; let f : Fin 64 := 0; let n : Fin 16 := 15; let b : List Byte := leBytes 2 0x0100 ++ leBytes 2 5 ++ leBytes 2 0x2010 ++ leBytes 1 5 ++ leBytes 1 0x36 ++ leBytes 2 0 ++ leBytes 2 0 ++ leBytes 4 0 ++ []; let s := up []; let m := slotMsg (.mailbox l f n) (if b = [] then s.dev.slotBytes (fnKey l.val f.val) n.val else b); m.op = 3) := by
  and_intros <;> decide +kernel

theorem meets_BlockTransfers :
    (let s := up [.obj .cfgStage 0 0 (.oct [1, 2, 3, 4, 5])]; let m : UMsg := ⟨sec, (BitVec.ofNat 16 (Obj.secStage1Hash.index 0 0)), (BitVec.ofNat 8 (Obj.secStage1Hash.subOf 0)), 4, false, true, 0, 20, 0, [], 16, true, 0, 0⟩; let x : Obj := .secStage1Hash; let i := 0; let j := 0; s.Inv ∧ m.wf = true ∧ s.dev.brings m.o.path ∧ s.dev.msgFaulty m = false ∧ m.op = 4 ∧ msgTgt m = .elem x i j ∧ x ≠ .rstCauseSticky ∧ x ≠ .secChallenge ∧ x ≠ .portMacCounters ∧ s.dev.admits ⟨msgCall m, .elem x i j, m.abort == 0, .num 0⟩ ∧ m.length.toNat ≤ pathData m.o.path ∧ m.offset = 0) ∧
    (let x : Obj := .secStage1Hash; let i := 0; let j := 0; let b : List Byte := zeros 48; let s := up [.bcs fun l => [⟨x.key i j, 0x0400, b⟩]]; let m : UMsg := ⟨sec, (BitVec.ofNat 16 (Obj.secStage1Hash.index 0 0)), (BitVec.ofNat 8 (Obj.secStage1Hash.subOf 0)), 4, false, true, 0, 20, 28, [], 16, true, 0, 0⟩; s.Inv ∧ m.wf = true ∧ s.dev.brings m.o.path ∧ s.dev.msgFaulty m = false ∧ m.op = 4 ∧ msgTgt m = .elem x i j ∧ x ≠ .rstCauseSticky ∧ x ≠ .secChallenge ∧ x ≠ .portMacCounters ∧ s.dev.admits ⟨msgCall m, .elem x i j, m.abort == 0, .num 0⟩ ∧ m.length.toNat ≤ pathData m.o.path ∧ m.offset ≠ 0 ∧ s.dev.copyOf (x.key i j) m.o.code.toNat = some b ∧ m.offset.toNat ≤ b.length) ∧
    (let x : Obj := .secStage1Hash; let i := 0; let j := 0; let s := up []; let m : UMsg := ⟨sec, (BitVec.ofNat 16 (Obj.secStage1Hash.index 0 0)), (BitVec.ofNat 8 (Obj.secStage1Hash.subOf 0)), 4, false, true, 0, 20, 28, [], 16, true, 0, 0⟩; s.Inv ∧ m.wf = true ∧ s.dev.brings m.o.path ∧ s.dev.msgFaulty m = false ∧ m.op = 4 ∧ msgTgt m = .elem x i j ∧ x ≠ .rstCauseSticky ∧ x ≠ .secChallenge ∧ x ≠ .portMacCounters ∧ s.dev.admits ⟨msgCall m, .elem x i j, m.abort == 0, .num 0⟩ ∧ m.length.toNat ≤ pathData m.o.path ∧ m.offset ≠ 0 ∧ s.dev.copyOf (x.key i j) m.o.code.toNat = none) ∧
    (let s := up []; let code := 0x0400; let m : UMsg := ⟨sec, (BitVec.ofNat 16 (Obj.cfgStage.index 0 0)), (BitVec.ofNat 8 (Obj.cfgStage.subOf 0)), 5, false, false, 0, 4, 0, [1, 2, 3, 4], 20, true, 0, 0⟩; let x : Obj := .cfgStage; let i := 0; let j := 0; s.Inv ∧ m.wf = true ∧ s.dev.brings m.o.path ∧ s.dev.msgFaulty m = false ∧ m.op = 5 ∧ msgTgt m = .elem x i j ∧ s.dev.admits ⟨msgCall m, .elem x i j, m.abort == 0, .num 0⟩ ∧ code = s.dev.codeOf m.o.path ∧ m.offset = 0 ∧ m.last = false ∧ m.data.length ≤ x.row.ty.size ∧ (s.dev.bws.any fun y => y.key == x.key i j && y.code != code) = false) ∧
    (let x : Obj := .cfgStage; let i := 0; let j := 0; let code := 0x0400; let b : List Byte := [9, 9]; let s := up [.bws fun l => [⟨x.key i j, code, 2, b⟩]]; let m : UMsg := ⟨sec, (BitVec.ofNat 16 (Obj.cfgStage.index 0 0)), (BitVec.ofNat 8 (Obj.cfgStage.subOf 0)), 5, false, true, 0, 4, 2, [1, 2, 3, 4], 20, true, 0, 0⟩; s.Inv ∧ m.wf = true ∧ s.dev.brings m.o.path ∧ s.dev.msgFaulty m = false ∧ m.op = 5 ∧ msgTgt m = .elem x i j ∧ s.dev.admits ⟨msgCall m, .elem x i j, m.abort == 0, .num 0⟩ ∧ code = s.dev.codeOf m.o.path ∧ x = .cfgStage ∧ m.offset ≠ 0 ∧ m.last = true ∧ s.dev.transfer (x.key i j) code m.offset.toNat = some b ∧ b.length + m.data.length ≤ 1048576) ∧
    (let x : Obj := .cfgStage; let i := 0; let j := 0; let code := 0x0400; let s := up []; let m : UMsg := ⟨sec, (BitVec.ofNat 16 (Obj.cfgStage.index 0 0)), (BitVec.ofNat 8 (Obj.cfgStage.subOf 0)), 5, false, true, 0, 4, 2, [1, 2, 3, 4], 20, true, 0, 0⟩; s.Inv ∧ m.wf = true ∧ s.dev.brings m.o.path ∧ s.dev.msgFaulty m = false ∧ m.op = 5 ∧ msgTgt m = .elem x i j ∧ s.dev.admits ⟨msgCall m, .elem x i j, m.abort == 0, .num 0⟩ ∧ code = s.dev.codeOf m.o.path ∧ s.dev.transfer (x.key i j) code m.offset.toNat = none) ∧
    (let x : Obj := .cfgStage; let i := 0; let j := 0; let y : BlockWrite := ⟨x.key i j, 0x0300, 2, [0, 0]⟩; let idx : BitVec 16 := BitVec.ofNat 16 (x.index i j); let sub : BitVec 8 := BitVec.ofNat 8 (x.subOf j); let s := up [.bws fun _ => [y]]; s.dev.answers = true ∧ target idx.toNat sub.toNat = .elem x i j ∧ s.dev.bws.filter (fun z => z.key == x.key i j) = [y]) ∧
    (let x : Obj := .secStage1Hash; let i := 0; let j := 0; let idx : BitVec 16 := BitVec.ofNat 16 (x.index i j); let sub : BitVec 8 := BitVec.ofNat 8 (x.subOf j); let s := up [.bcs fun _ => [⟨x.key i j, 0x0400, zeros 48⟩]]; s.dev.answers = true ∧ target idx.toNat sub.toNat = .elem x i j) := by
  simp only [inv_iff, admits_iff, brings_iff]
  and_intros <;> decide +kernel

theorem meets_OrderOfChecks :
    (let o := serial; let idx : BitVec 16 := 0xFFFF; let sub : BitVec 8 := 1; let s := up []; s.dev.hears ⟨o, 2, idx.toNat, sub.toNat⟩ ∧ target idx.toNat sub.toNat = .noIndex) ∧
    (let o := serial; let idx : BitVec 16 := 0x2000; let sub : BitVec 8 := 99; let s := up []; s.dev.hears ⟨o, 2, idx.toNat, sub.toNat⟩ ∧ target idx.toNat sub.toNat = .noSub) ∧
    (let o := ⟨.serial, 0x0400, 1⟩; let idx : BitVec 16 := 0x2000; let sub : BitVec 8 := 1; let s := up []; s.dev.hears ⟨o, 2, idx.toNat, sub.toNat⟩ ∧ target idx.toNat sub.toNat = .elem .clkTimingChannel 0 0 ∧ o.code.toNat ≠ s.dev.codeOf o.path) ∧
    (let o := sec; let idx : BitVec 16 := 0x2000; let sub : BitVec 8 := 3; let s := up []; s.dev.hears ⟨o, 2, idx.toNat, sub.toNat⟩ ∧ (∃ x ∈ Obj.all, target idx.toNat sub.toNat = .elem x 0 0 ∧ anyWriter (x.acc 0) = false) ∧ o.code.toNat = s.dev.codeOf o.path) ∧
    (let o := serial; let idx : BitVec 16 := 0x2000; let sub : BitVec 8 := 1; let s := up []; s.dev.hears ⟨o, 2, idx.toNat, sub.toNat⟩ ∧ target idx.toNat sub.toNat = .elem .clkTimingChannel 0 0 ∧ o.code.toNat = s.dev.codeOf o.path ∧ anyWriter (Obj.clkTimingChannel.acc 0) = true ∧ bitOf (lettersOf (Obj.clkTimingChannel.acc 0) o.code.toNat) 1 = false) ∧
    (let o := sec; let idx : BitVec 16 := 0x9800; let sub : BitVec 8 := 7; let v : Val := .num 1000000001; let s := up []; s.dev.hears ⟨o, 2, idx.toNat, sub.toNat⟩ ∧ target idx.toNat sub.toNat = .elem .timeStepThreshold 0 0 ∧ o.code.toNat = s.dev.codeOf o.path ∧ bitOf (lettersOf (Obj.timeStepThreshold.acc 0) o.code.toNat) 1 = true ∧ s.dev.ownershipPermits o.code.toNat 0x9800 = true ∧ lenOk Obj.timeStepThreshold.row.ty v = true ∧ v.b.length ≤ pathData o.path ∧ rngOk Obj.timeStepThreshold.row.ty Obj.timeStepThreshold.row.rng v.n = false) ∧
    (let o := sec; let idx : BitVec 16 := 0x9800; let sub : BitVec 8 := 7; let v : Val := .oct [1]; let s := up []; s.dev.hears ⟨o, 2, idx.toNat, sub.toNat⟩ ∧ target idx.toNat sub.toNat = .elem .timeStepThreshold 0 0 ∧ o.code.toNat = s.dev.codeOf o.path ∧ bitOf (lettersOf (Obj.timeStepThreshold.acc 0) o.code.toNat) 1 = true ∧ s.dev.ownershipPermits o.code.toNat 0x9800 = true ∧ lenOk Obj.timeStepThreshold.row.ty v = false) ∧
    (let o := sec; let idx : BitVec 16 := 0x9800; let sub : BitVec 8 := 7; let s := up [.arm ⟨0, 4, 0, .frame 9, 0x300, false, [Obj.timeStepThreshold.key 0 0], [], 0⟩]; s.dev.hears ⟨o, 2, idx.toNat, sub.toNat⟩ ∧ target idx.toNat sub.toNat = .elem .timeStepThreshold 0 0 ∧ o.code.toNat = s.dev.codeOf o.path ∧ bitOf (lettersOf (Obj.timeStepThreshold.acc 0) o.code.toNat) 1 = true ∧ s.dev.pathClosed o.path = 0 ∧ s.dev.acts.any (fun a => a.holds.contains (Obj.timeStepThreshold.key 0 0)) = true) := by
  simp only [hears_iff]
  and_intros <;> decide +kernel

theorem meets_OrderOfChecks_2 :
    (let o := sec; let idx : BitVec 16 := 0x9800; let sub : BitVec 8 := 7; let s := up [.clk fun c => { c with closed := [0x600] }]; s.dev.hears ⟨o, 2, idx.toNat, sub.toNat⟩ ∧ target idx.toNat sub.toNat = .elem .timeStepThreshold 0 0 ∧ o.code.toNat = s.dev.codeOf o.path ∧ bitOf (lettersOf (Obj.timeStepThreshold.acc 0) o.code.toNat) 1 = true ∧ s.dev.clk.closed.contains 0x600 = true) ∧
    (let o := sec; let idx : BitVec 16 := 0x9800; let sub : BitVec 8 := 7; let v : Val := .num 1000000000; let s := up []; let x : Obj := .timeStepThreshold; let i := 0; let j := 0; let r : Req := ⟨⟨o, 2, idx.toNat, sub.toNat⟩, .elem x i j, true, v⟩; let w := writeBeh r.call o.code.toNat true x i j v; s.dev.hears ⟨o, 2, idx.toNat, sub.toNat⟩ ∧ target idx.toNat sub.toNat = .elem x i j ∧ s.dev.admits r ∧ w.pre (s.dev.taken r.call) = 0 ∧ w.state (s.dev.taken r.call) = 0 ∧ ownRange x j v s.dev = true ∧ ownState x j v s.dev = true) := by
  simp only [admits_iff, hears_iff]
  and_intros <;> decide +kernel

theorem meets_GroupsAndImages :
    (let o := host; let g : BitVec 8 := 0x1C; let s := up [.fn 0 fun y => { y with live := true, epoch := 5 }]; s.Inv ∧ s.dev.admits (execReq o .dictGroupClaim 0 0 true (.num g.toNat)) ∧ 0x1B < g.toNat) ∧
    (let o := host; let g : BitVec 8 := 0x1B; let s := up [.fn 0 fun y => { y with live := true, epoch := 5 }]; s.Inv ∧ s.dev.admits (execReq o .dictGroupClaim 0 0 true (.num g.toNat)) ∧ g.toNat ≤ 0x1B ∧ (s.dev.fn (hostKey o.code.toNat)).live = true ∧ s.dev.ownerLink g.toNat = none) ∧
    (let o := host; let g : BitVec 8 := 0x1B; let s := up [.fn 0 fun y => { y with live := true, epoch := 5 }, .obj .dictGroupOwner 0 27 (.num 0x0101)]; s.Inv ∧ s.dev.admits (execReq o .dictGroupClaim 0 0 true (.num g.toNat)) ∧ g.toNat ≤ 0x1B ∧ (s.dev.fn (hostKey o.code.toNat)).live = true ∧ s.dev.ownerLink g.toNat = some (hostLink o.code.toNat)) ∧
    (let o := host; let g : BitVec 8 := 0x1B; let s := up [.fn 0 fun y => { y with live := true, epoch := 5 }, .obj .dictGroupOwner 0 27 (.num 0x0140)]; s.Inv ∧ s.dev.admits (execReq o .dictGroupClaim 0 0 true (.num g.toNat)) ∧ g.toNat ≤ 0x1B ∧ (s.dev.fn (hostKey o.code.toNat)).live = true ∧ s.dev.ownerLink g.toNat = some 1 ∧ 1 ≠ hostLink o.code.toNat) ∧
    (let o := host; let g : BitVec 8 := 0x1B; let s := up [.fn 0 fun y => { y with live := true, epoch := 5 }, .obj .dictGroupOwner 0 27 (.num 0x0101)]; s.Inv ∧ s.dev.admits (execReq o .dictGroupRelease 0 0 true (.num g.toNat)) ∧ g.toNat ≤ 0x1B ∧ s.dev.ownerLink g.toNat = some (hostLink o.code.toNat)) ∧
    (let o := host; let g : BitVec 8 := 0x1B; let s := up [.fn 0 fun y => { y with live := true, epoch := 5 }]; s.Inv ∧ s.dev.admits (execReq o .dictGroupRelease 0 0 true (.num g.toNat)) ∧ g.toNat ≤ 0x1B ∧ s.dev.ownerLink g.toNat ≠ some (hostLink o.code.toNat)) ∧
    (let im : List Byte := beBytes 4 0x4B594346 ++ beBytes 2 1 ++ [2, 64] ++ beBytes 4 76 ++ beBytes 4 1 ++ beBytes 8 1 ++ zeros 8 ++ zeros 32 ++ (beBytes 2 0xA400 ++ [8, 4] ++ beBytes 2 4 ++ [0, 0] ++ beBytes 4 77) ++ zeros 8; let o := sec; let k : BitVec 8 := 64; let s := up [.obj .cfgStage 0 0 (.oct im)]; let r := execReq o .cfgStageCommit 0 0 true (.num k.toNat); let es : List ImgEntry := [⟨0xA400, 8, 4, beBytes 4 77⟩]; let f := (s.dev.taken r.call).commitFault k.toNat (s.dev.oct .cfgStage); s.Inv ∧ s.dev.admits r ∧ imgEntries (s.dev.oct .cfgStage) = some es ∧ f.abort = 0) ∧
    (let im : List Byte := beBytes 4 0x4B594346 ++ beBytes 2 1 ++ [1, 0] ++ beBytes 4 76 ++ beBytes 4 1 ++ beBytes 8 1 ++ zeros 8 ++ zeros 32 ++ (beBytes 2 0xA400 ++ [8, 4] ++ beBytes 2 4 ++ [0, 0] ++ beBytes 4 77) ++ zeros 8; let o := sec; let k : BitVec 8 := 0; let s := up [.obj .cfgStage 0 0 (.oct im)]; let r := execReq o .cfgStageCommit 0 0 true (.num k.toNat); let es : List ImgEntry := [⟨0xA400, 8, 4, beBytes 4 77⟩]; let f := (s.dev.taken r.call).commitFault k.toNat (s.dev.oct .cfgStage); s.Inv ∧ s.dev.admits r ∧ imgEntries (s.dev.oct .cfgStage) = some es ∧ f.abort = 0) := by
  simp only [inv_iff, admits_iff]
  and_intros <;> decide +kernel

theorem meets_GroupsAndImages_2 :
    (let im : List Byte := beBytes 4 0x4B594346 ++ beBytes 2 1 ++ [2, 3] ++ beBytes 4 76 ++ beBytes 4 1 ++ beBytes 8 0 ++ zeros 8 ++ zeros 32 ++ (beBytes 2 0xA400 ++ [8, 4] ++ beBytes 2 4 ++ [0, 0] ++ beBytes 4 77) ++ zeros 8; let o := sec; let k : BitVec 8 := 3; let s := up [.obj .cfgStage 0 0 (.oct im)]; let r := execReq o .cfgStageCommit 0 0 true (.num k.toNat); let es : List ImgEntry := [⟨0xA400, 8, 4, beBytes 4 77⟩]; let f := (s.dev.taken r.call).commitFault k.toNat (s.dev.oct .cfgStage); s.Inv ∧ s.dev.admits r ∧ imgEntries (s.dev.oct .cfgStage) = some es ∧ f.abort ≠ 0) ∧
    (let o := sec; let b : List Byte := beBytes 1 0 ++ beBytes 1 2 ++ zeros 2 ++ beBytes 8 0 ++ zeros 10 ++ zeros 2; let r := execReq o .cfgApply 0 0 true (.oct b); let s := up []; s.Inv ∧ s.dev.admits r ∧ b.length = 24 ∧ 1 < beAt b 1 1) ∧
    (let o := sec; let b : List Byte := beBytes 1 0 ++ beBytes 1 0 ++ zeros 2 ++ beBytes 8 1 ++ zeros 10 ++ zeros 2; let r := execReq o .cfgApply 0 0 true (.oct b); let s := up [.arm ⟨0, 4, 0, .frame 9, 0x300, false, [], [], 0⟩]; let t : Trig := .now; s.Inv ∧ s.dev.admits r ∧ b.length = 24 ∧ beAt b 1 1 ≤ 1 ∧ beAt b 2 2 = 0 ∧ beAt b 22 2 = 0 ∧ parseTrig (beAt b 0 1) (slice b 12 10) = some t ∧ s.dev.trigAhead (s.dev.num .clkTimingChannel) t = true ∧ (s.dev.pendingOn 4 0).isSome = true) ∧
    (let o := sec; let b : List Byte := beBytes 1 2 ++ beBytes 1 0 ++ zeros 2 ++ beBytes 8 1 ++ (beBytes 6 9 ++ zeros 4) ++ zeros 2; let r := execReq o .cfgApply 0 0 true (.oct b); let s := up [.cfg fun c => { c with slots := SMap.put Image.empty 1 ⟨1, [], [], [⟨0xA400, 8, 4, beBytes 4 77⟩]⟩ c.slots }]; let t : Trig := .time 9 0; s.Inv ∧ s.dev.admits r ∧ b.length = 24 ∧ beAt b 1 1 ≤ 1 ∧ beAt b 2 2 = 0 ∧ beAt b 22 2 = 0 ∧ parseTrig (beAt b 0 1) (slice b 12 10) = some t ∧ s.dev.trigAhead (s.dev.num .clkTimingChannel) t = true ∧ (s.dev.pendingOn 4 0).isSome = false ∧ s.dev.applyConflict (beAt b 1 1 == 1) (beAt b 4 8) (some t) = false ∧ ((s.dev.taken r.call).changeFault (s.dev.changes (beAt b 1 1 == 1) (beAt b 4 8)) true).abort = 0 ∧ s.dev.acts.length < 256 ∧ t ≠ .now) ∧
    (let o := sec; let b : List Byte := beBytes 1 0 ++ beBytes 1 0 ++ zeros 2 ++ beBytes 8 1 ++ zeros 10 ++ zeros 2; let r := execReq o .cfgApply 0 0 true (.oct b); let s := up [.cfg fun c => { c with slots := SMap.put Image.empty 1 ⟨1, [], [], [⟨0xA400, 8, 4, beBytes 4 77⟩]⟩ c.slots }]; let t : Trig := .now; s.Inv ∧ s.dev.admits r ∧ b.length = 24 ∧ beAt b 1 1 ≤ 1 ∧ beAt b 2 2 = 0 ∧ beAt b 22 2 = 0 ∧ parseTrig (beAt b 0 1) (slice b 12 10) = some t ∧ s.dev.trigAhead (s.dev.num .clkTimingChannel) t = true ∧ (s.dev.pendingOn 4 0).isSome = false ∧ s.dev.applyConflict (beAt b 1 1 == 1) (beAt b 4 8) (some t) = false ∧ ((s.dev.taken r.call).changeFault (s.dev.changes (beAt b 1 1 == 1) (beAt b 4 8)) true).abort = 0 ∧ s.dev.acts.length < 256 ∧ t = .now) ∧
    (let a : Action := ⟨0, 4, 0, .time 0 5, 0x0400, true, [], [0, 1], 0⟩; let s := up [.tim fun t => { t with secs := 1, ticks := 9 }, .cfg fun c => { c with slots := SMap.put Image.empty 1 ⟨1, [], [], [⟨0xA400, 8, 4, beBytes 4 77⟩]⟩ c.slots }, .cfg fun x => { x with pendMask := 1 }, .arm a]; s.Inv ∧ s.dev.answers = true ∧ s.dev.pendingOn 4 0 = some { a with armed := 9 } ∧ s.dev.actTurn { a with armed := 9 } = true ∧ s.dev.cfg.pendCall = none ∧ (s.dev.changeFault (s.dev.changes s.dev.cfg.pendSwitch s.dev.cfg.pendMask) false).abort = 0 ∧ (s.dev.changes s.dev.cfg.pendSwitch s.dev.cfg.pendMask).length = 1) ∧
    (let a : Action := ⟨0, 4, 0, .time 0 5, 0x0400, true, [], [0, 0], 0⟩; let s := up [.tim fun t => { t with secs := 1, ticks := 9 }, .cfg fun x => { x with pendMask := 0 }, .arm a]; s.Inv ∧ s.dev.answers = true ∧ s.dev.pendingOn 4 0 = some { a with armed := 9 } ∧ s.dev.actTurn { a with armed := 9 } = true ∧ s.dev.cfg.pendCall = none ∧ s.dev.changes s.dev.cfg.pendSwitch s.dev.cfg.pendMask = []) := by
  simp only [inv_iff, admits_iff]
  and_intros <;> decide +kernel

theorem meets_HostPages :
    (let l : Fin 4 := 0; let f : Fin 64 := 0; let k : Nat := fnKey l.val f.val; let s := up [.fn 0 fun y => { y with live := true, epoch := 5 }]; let off : BitVec 21 := 0x4FFE; let n : Fin 17 := 4; s.dev.inRun ∧ s.dev.reaches l.val f.val = true ∧ s.dev.hostClosed l.val f.val = false ∧ n.val ≠ 0 ∧ s.dev.inBootWindow k off.toNat n.val = false ∧ bar0Fits off.toNat n.val = false) ∧
    (let l : Fin 4 := 0; let f : Fin 64 := 0; let k : Nat := fnKey l.val f.val; let s := up [.fn 0 fun y => { y with live := true, epoch := 5 }]; let off : BitVec 21 := 0x010; let n : Fin 17 := 4; s.dev.inRun ∧ s.dev.reaches l.val f.val = true ∧ s.dev.hostClosed l.val f.val = false ∧ n.val ≠ 0 ∧ s.dev.inBootWindow k off.toNat n.val = false ∧ bar0Fits off.toNat n.val = true ∧ bar0Kind off.toNat = 0) ∧
    (let l : Fin 4 := 0; let f : Fin 64 := 0; let k : Nat := fnKey l.val f.val; let s := up [.fn 0 fun y => { y with live := true, epoch := 5 }]; let off : BitVec 21 := 0x1FF8; let n : Fin 17 := 8; s.dev.inRun ∧ s.dev.reaches l.val f.val = true ∧ s.dev.hostClosed l.val f.val = false ∧ n.val ≠ 0 ∧ s.dev.inBootWindow k off.toNat n.val = false ∧ bar0Fits off.toNat n.val = true ∧ bar0Kind off.toNat = 1) ∧
    (let l : Fin 4 := 0; let f : Fin 64 := 0; let k : Nat := fnKey l.val f.val; let s := up [.fn 0 fun y => { y with live := true, epoch := 5 }]; let off : BitVec 21 := 0x010; let b : List Byte := [1, 0, 0, 0]; s.dev.inRun ∧ s.dev.reaches l.val f.val = true ∧ s.dev.hostClosed l.val f.val = false ∧ BarAcc.wf (.write0 off b) = true ∧ s.dev.inBootWindow k off.toNat b.length = false ∧ (bar0Fits off.toNat b.length = false ∨ (bar0Kind off.toNat ≠ 1 ∧ off.toNat ≠ 0x004 ∧ off.toNat ≠ 0x00C ∧ off.toNat ≠ 0x014))) ∧
    (let l : Fin 4 := 0; let f : Fin 64 := 0; let k : Nat := fnKey l.val f.val; let s := up [.fn 0 fun y => { y with live := true, epoch := 5 }]; let off : BitVec 21 := 0xFFFC; let b : List Byte := [1, 0, 0, 9]; s.dev.inRun ∧ s.dev.reaches l.val f.val = true ∧ s.dev.hostClosed l.val f.val = false ∧ BarAcc.wf (.write0 off b) = true ∧ s.dev.inBootWindow k off.toNat b.length = false ∧ bar0Fits off.toNat b.length = true ∧ bar0Kind off.toNat = 1) ∧
    (let l : Fin 4 := 0; let f : Fin 64 := 0; let k : Nat := fnKey l.val f.val; let s := up [.fn 0 fun y => { y with live := true, epoch := 5 }]; let off : BitVec 21 := 0x00C; let b : List Byte := [255, 255, 0, 128]; s.dev.inRun ∧ s.dev.reaches l.val f.val = true ∧ s.dev.hostClosed l.val f.val = false ∧ BarAcc.wf (.write0 off b) = true ∧ s.dev.inBootWindow k off.toNat b.length = false ∧ off.toNat = 0x00C ∧ b.length = 4) ∧
    (let l : Fin 4 := 0; let f : Fin 64 := 0; let s := up [.fn 0 fun y => { y with live := true, epoch := 5 }]; let off : BitVec 16 := 8; let b : List Byte := [1, 2, 3, 4]; s.dev.inRun ∧ s.dev.reaches l.val f.val = true ∧ s.dev.hostClosed l.val f.val = false ∧ off.toNat % 4 = 0 ∧ b.length = 4 ∧ off.toNat < 0x8000 ∧ off.toNat / 16 < s.dev.vectorsOf l.val f.val ∧ off.toNat % 16 = 8) ∧
    (let l : Fin 4 := 0; let f : Fin 64 := 0; let k : Nat := fnKey l.val f.val; let s := up [.fn 0 fun y => { y with live := true, epoch := 5 }]; let e : BitVec 32 := 5; s.dev.inRun ∧ s.dev.reaches l.val f.val = true ∧ s.dev.hostClosed l.val f.val = false ∧ (s.dev.fn k).epoch = e.toNat) := by
  simp only [Dev.inRun]
  and_intros <;> decide +kernel

theorem meets_HostPages_2 :
    (let l : Fin 4 := 0; let f : Fin 64 := 0; let k : Nat := fnKey l.val f.val; let s := up [.fn 0 fun y => { y with live := true, epoch := 5 }]; let e : BitVec 32 := 6; s.dev.inRun ∧ s.dev.reaches l.val f.val = true ∧ s.dev.hostClosed l.val f.val = false ∧ (s.dev.fn k).epoch ≠ e.toNat) ∧
    (let l : Fin 4 := 0; let f : Fin 64 := 0; let k : Nat := fnKey l.val f.val; let s := up [.fn 0 fun y => { y with live := true, epoch := 5 }, .ring 9 fun x => { x with state := 1, setup := (beBytes 2 9 ++ [1, 0, 6, 0] ++ beBytes 2 0 ++ beBytes 8 0x1000 ++ beBytes 8 8 ++ beBytes 2 0 ++ beBytes 2 1 ++ zeros 4) }]; let r : Fin 4096 := 9; let ix : BitVec 32 := 64; s.dev.inRun ∧ s.dev.reaches l.val f.val = true ∧ s.dev.hostClosed l.val f.val = false ∧ s.dev.linkOfRing r.val = l.val ∧ s.dev.ringFn r.val = k ∧ (s.dev.ringSt r.val).state = 1 ∧ ixDist ix.toNat (s.dev.ringSt r.val).hostIx < 2 ^ 31 ∧ (if (s.dev.ringSt r.val).kind = 5 then ixDist (s.dev.ringSt r.val).devIx ix.toNat else ixDist ix.toNat (s.dev.ringSt r.val).devIx) ≤ 2 ^ (s.dev.ringSt r.val).log2) ∧
    (let l : Fin 4 := 0; let f : Fin 64 := 0; let k : Nat := fnKey l.val f.val; let s := up [.fn 0 fun y => { y with live := true, epoch := 5 }, .ring 9 fun x => { x with state := 1, setup := (beBytes 2 9 ++ [1, 0, 6, 0] ++ beBytes 2 0 ++ beBytes 8 0x1000 ++ beBytes 8 8 ++ beBytes 2 0 ++ beBytes 2 1 ++ zeros 4) }]; let r : Fin 4096 := 9; let ix : BitVec 32 := 65; s.dev.inRun ∧ s.dev.reaches l.val f.val = true ∧ s.dev.hostClosed l.val f.val = false ∧ s.dev.linkOfRing r.val = l.val ∧ s.dev.ringFn r.val = k ∧ (s.dev.ringSt r.val).state = 1 ∧ (2 ^ 31 ≤ ixDist ix.toNat (s.dev.ringSt r.val).hostIx ∨ 2 ^ (s.dev.ringSt r.val).log2 < (if (s.dev.ringSt r.val).kind = 5 then ixDist (s.dev.ringSt r.val).devIx ix.toNat else ixDist ix.toNat (s.dev.ringSt r.val).devIx))) ∧
    (let l : Fin 4 := 0; let f : Fin 64 := 0; let k : Nat := fnKey l.val f.val; let s := up [.fn 0 fun y => { y with live := true, epoch := 5 }, .ring 9 fun x => { x with state := 2, setup := (beBytes 2 9 ++ [1, 0, 6, 0] ++ beBytes 2 0 ++ beBytes 8 0x1000 ++ beBytes 8 8 ++ beBytes 2 0 ++ beBytes 2 1 ++ zeros 4) }]; let r : Fin 4096 := 9; s.dev.inRun ∧ s.dev.reaches l.val f.val = true ∧ s.dev.hostClosed l.val f.val = false ∧ s.dev.linkOfRing r.val = l.val ∧ (s.dev.ringFn r.val ≠ k ∨ (s.dev.ringSt r.val).state = 0 ∨ (s.dev.ringSt r.val).state = 2)) ∧
    (let l : Fin 4 := 0; let f : Fin 64 := 0; let k : Nat := fnKey l.val f.val; let s := up [.fn 0 fun y => { y with live := true, epoch := 5 }, .ring 9 fun x => { x with state := 3, setup := (beBytes 2 9 ++ [1, 0, 6, 0] ++ beBytes 2 0 ++ beBytes 8 0x1000 ++ beBytes 8 8 ++ beBytes 2 0 ++ beBytes 2 1 ++ zeros 4) }]; let r : Fin 4096 := 9; s.dev.inRun ∧ s.dev.reaches l.val f.val = true ∧ s.dev.hostClosed l.val f.val = false ∧ s.dev.linkOfRing r.val = l.val ∧ s.dev.ringFn r.val = k ∧ (s.dev.ringSt r.val).state = 3) ∧
    (let l : Fin 4 := 0; let f : Fin 64 := 0; let k : Nat := fnKey l.val f.val; let s := up [.fn 0 fun y => { y with live := true, epoch := 5 }]; let n : Fin 1024 := 1023; s.dev.inRun ∧ s.dev.reaches l.val f.val = true ∧ s.dev.hostClosed l.val f.val = false ∧ s.dev.closedAbort (s.dev.dmapKey k n.val / 256) = 0 ∧ s.dev.dmapKey k n.val ≠ Obj.rstCauseSticky.key 0 0) ∧
    (let l : Fin 4 := 0; let f : Fin 64 := 0; let k : Nat := fnKey l.val f.val; let s := up [.fn 0 fun y => { y with live := true, epoch := 5 }]; let v : Fin 2048 := 1; s.dev.inRun ∧ s.dev.reaches l.val f.val = true ∧ s.dev.hostClosed l.val f.val = false ∧ v.val < s.dev.vectorsOf l.val f.val ∧ (SMap.get Vec.none s.dev.vecs (vecKey k v.val)).pend = false) ∧
    (let l : Fin 4 := 0; let f : Fin 64 := 0; let k : Nat := fnKey l.val f.val; let s := up [.fn 0 fun y => { y with live := true, epoch := 5 }, .fn 0 fun y => { y with msixOn := true }, .vec (vecKey 0 1) fun x => { x with pend := true }]; let v : Fin 2048 := 1; s.dev.inRun ∧ s.dev.reaches l.val f.val = true ∧ s.dev.hostClosed l.val f.val = false ∧ v.val < s.dev.vectorsOf l.val f.val ∧ (SMap.get Vec.none s.dev.vecs (vecKey k v.val)).pend = true ∧ s.dev.canSignal l.val f.val = true ∧ (s.dev.fn k).msixMask = false ∧ SMap.wf Vec.none s.dev.vecs = true) := by
  simp only [Dev.inRun]
  and_intros <;> decide +kernel

theorem meets_HostPages_3 :
    (let l : Fin 4 := 0; let f : Fin 64 := 0; let s := up [.clk fun c => { c with closed := [0x700] }]; s.dev.inRun ∧ s.dev.reaches l.val f.val = true ∧ s.dev.hostClosed l.val f.val = true) ∧
    (let s := up []; s.dev.inRun ∧ s.dev.reaches 0 0 = true ∧ s.dev.diagVisible 0x0100 = false) ∧
    (let s := up [.fn 0 fun y => { y with live := true, epoch := 5 }, .obj .secDebugState 0 0 (.num 0x82)]; s.dev.inRun ∧ s.dev.reaches 0 0 = true ∧ s.dev.diagVisible 0x0100 = true) ∧
    (let s := up []; let l : Fin 4 := 0; let f : Fin 64 := 0; s.dev.linkUsed l.val = true ∧ s.dev.num .hifLinkState l.val = 2 ∧ s.dev.clk.devReset = false ∧ f.val = 0) := by
  simp only [Dev.inRun]
  and_intros <;> decide +kernel

theorem meets_LinksAndLeases :
    (let s := up [.obj .hifLinkState 0 0 (.num 1), .link 0 fun x => { x with perstN := true }]; let l : Fin 4 := 0; let v : Fin 5 := 4; let w : Fin 17 := 8; s.dev.answers = true ∧ s.dev.linkUsed l.val = true ∧ (s.dev.lnk l.val).perstN = true ∧ v ≠ 0 ∧ w ≠ 0 ∧ w.val ≤ s.dev.widest) ∧
    (let s := up [.fn 0 fun y => { y with live := true, epoch := 5 }, .fn 3 fun y => { y with live := true, epoch := 9 }, .obj .hifNumVfs 0 0 (.num 4), .link 0 fun x => { x with vfEnable := true }, .ring 9 fun x => { x with state := 1, setup := (beBytes 2 9 ++ [1, 3, 6, 0] ++ beBytes 2 0 ++ beBytes 8 0x1000 ++ beBytes 8 8 ++ beBytes 2 0 ++ beBytes 2 1 ++ zeros 4) }]; let l : Fin 4 := 0; s.Inv ∧ s.dev.answers = true ∧ s.dev.linkUsed l.val = true ∧ s.dev.num .hifLinkState l.val = 2 ∧ s.dev.inRun) ∧
    (let s := up [.fn 0 fun y => { y with live := true, epoch := 5 }, .fn 3 fun y => { y with live := true, epoch := 9 }, .obj .hifNumVfs 0 0 (.num 4), .link 0 fun x => { x with vfEnable := true }, .ring 9 fun x => { x with state := 1, setup := (beBytes 2 9 ++ [1, 3, 6, 0] ++ beBytes 2 0 ++ beBytes 8 0x1000 ++ beBytes 8 8 ++ beBytes 2 0 ++ beBytes 2 1 ++ zeros 4) }]; let l : Fin 4 := 0; s.Inv ∧ s.dev.answers = true ∧ (s.dev.fn (fnKey l.val 0)).live = true) ∧
    (let s := up [.fn 0 fun y => { y with live := true, epoch := 5 }, .fn 3 fun y => { y with live := true, epoch := 9 }, .obj .hifNumVfs 0 0 (.num 4), .link 0 fun x => { x with vfEnable := true }, .ring 9 fun x => { x with state := 1, setup := (beBytes 2 9 ++ [1, 3, 6, 0] ++ beBytes 2 0 ++ beBytes 8 0x1000 ++ beBytes 8 8 ++ beBytes 2 0 ++ beBytes 2 1 ++ zeros 4) }]; let l : Fin 4 := 0; let f : Fin 64 := 3; s.Inv ∧ s.dev.answers = true ∧ f ≠ 0 ∧ (s.dev.fn (fnKey l.val f.val)).live = true) ∧
    (let s := up [.fn 0 fun y => { y with live := true, epoch := 5 }, .fn 3 fun y => { y with live := true, epoch := 9 }, .obj .hifNumVfs 0 0 (.num 4), .link 0 fun x => { x with vfEnable := true }, .ring 9 fun x => { x with state := 1, setup := (beBytes 2 9 ++ [1, 3, 6, 0] ++ beBytes 2 0 ++ beBytes 8 0x1000 ++ beBytes 8 8 ++ beBytes 2 0 ++ beBytes 2 1 ++ zeros 4) }]; let l : Fin 4 := 0; s.Inv ∧ s.dev.inRun ∧ s.dev.reaches l.val 0 = true ∧ (s.dev.lnk l.val).vfEnable = true) ∧
    (let s := up [.fn 0 fun y => { y with live := true, epoch := 5 }, .fn 3 fun y => { y with live := true, epoch := 9 }, .obj .hifNumVfs 0 0 (.num 4), .link 0 fun x => { x with vfEnable := true }, .ring 9 fun x => { x with state := 1, setup := (beBytes 2 9 ++ [1, 3, 6, 0] ++ beBytes 2 0 ++ beBytes 8 0x1000 ++ beBytes 8 8 ++ beBytes 2 0 ++ beBytes 2 1 ++ zeros 4) }]; let l : Fin 4 := 0; let f : Fin 64 := 0; s.Inv ∧ s.dev.inRun ∧ s.dev.reaches l.val f.val = true) ∧
    (let s := up [.fn 0 fun y => { y with live := true, epoch := 5 }, .fn 3 fun y => { y with live := true, epoch := 9 }, .obj .hifNumVfs 0 0 (.num 4), .link 0 fun x => { x with vfEnable := true }, .ring 9 fun x => { x with state := 1, setup := (beBytes 2 9 ++ [1, 3, 6, 0] ++ beBytes 2 0 ++ beBytes 8 0x1000 ++ beBytes 8 8 ++ beBytes 2 0 ++ beBytes 2 1 ++ zeros 4) }]; let l : Fin 4 := 0; let f : Fin 64 := 3; s.Inv ∧ s.dev.inRun ∧ s.dev.reaches l.val f.val = true) ∧
    (let s := up [.obj .hifMsixPfVectors 0 0 (.num 0), .obj .hifMsixVfVectors 0 0 (.num 16)]; let l : Fin 4 := 0; let n : Fin 64 := 63; s.dev.inRun ∧ s.dev.reaches l.val 0 = true ∧ (s.dev.lnk l.val).vfEnable = false ∧ n ≠ 0 ∧ s.dev.num .hifMsixPfVectors l.val + n.val * s.dev.vfShare l.val n.val ≤ s.dev.bifur.2.2) := by
  simp only [inv_iff, Dev.inRun]
  and_intros <;> decide +kernel

theorem meets_LinksAndLeases_2 :
    (let s := up [.obj .hifMsixPfVectors 0 0 (.num 1024), .obj .hifMsixVfVectors 0 0 (.num 16)]; let l : Fin 4 := 0; let n : Fin 64 := 63; s.dev.inRun ∧ s.dev.reaches l.val 0 = true ∧ (s.dev.lnk l.val).vfEnable = false ∧ n ≠ 0 ∧ s.dev.bifur.2.2 < s.dev.num .hifMsixPfVectors l.val + n.val * s.dev.vfShare l.val n.val) ∧
    (let s := up [.fn 0 fun y => { y with live := true, epoch := 5 }, .fn 3 fun y => { y with live := true, epoch := 9 }, .obj .hifNumVfs 0 0 (.num 4), .link 0 fun x => { x with vfEnable := true }, .ring 9 fun x => { x with state := 1, setup := (beBytes 2 9 ++ [1, 3, 6, 0] ++ beBytes 2 0 ++ beBytes 8 0x1000 ++ beBytes 8 8 ++ beBytes 2 0 ++ beBytes 2 1 ++ zeros 4) }]; let l : Fin 4 := 0; let f : Fin 64 := 3; s.dev.answers = true ∧ (s.dev.fn (fnKey l.val f.val)).live = true) ∧
    (let s := up [.fn 0 fun y => { y with live := true, epoch := 5 }, .fn 3 fun y => { y with live := true, epoch := 9 }, .obj .hifNumVfs 0 0 (.num 4), .link 0 fun x => { x with vfEnable := true }, .ring 9 fun x => { x with state := 1, setup := (beBytes 2 9 ++ [1, 3, 6, 0] ++ beBytes 2 0 ++ beBytes 8 0x1000 ++ beBytes 8 8 ++ beBytes 2 0 ++ beBytes 2 1 ++ zeros 4) }]; let l : Fin 4 := 0; s.dev.linkUsed l.val = true ∧ s.dev.answers = true ∧ s.dev.inRun) := by
  simp only [Dev.inRun]
  and_intros <;> decide +kernel

theorem meets_RingCommands :
    (let o : Origin := host; let l : Fin 4 := 0; let b : List Byte := (beBytes 2 0 ++ [1, 0, 5, 0] ++ beBytes 2 0 ++ beBytes 8 0x1000 ++ beBytes 8 8 ++ beBytes 2 0 ++ beBytes 2 1 ++ zeros 4); let g : Ring := { Ring.none with setup := b }; let r := execReq o .hifRingSetup l.val 0 true (.oct b); let s := up [.fn 0 fun y => { y with live := true, epoch := 5 }]; s.Inv ∧ b.length = 32 ∧ s.dev.admits r ∧ (g.kind = 0 ∨ 7 < g.kind ∨ g.base % 4096 ≠ 0 ∨ g.wb % 8 ≠ 0 ∨ g.log2 < 6)) ∧
    (let o : Origin := ⟨.mailbox 0 1 1, 0x0101, 1⟩; let l : Fin 4 := 0; let b : List Byte := (beBytes 2 16 ++ [1, 2, 16, 0] ++ beBytes 2 0 ++ beBytes 8 0x1000 ++ beBytes 8 8 ++ beBytes 2 1023 ++ beBytes 2 4096 ++ zeros 4); let g : Ring := { Ring.none with setup := b }; let r := execReq o .hifRingSetup l.val 0 true (.oct b); let s := up [.fn 0 fun y => { y with live := true, epoch := 5 }, .fn 1 fun y => { y with live := true, epoch := 3 }, .obj .hifNumVfs 0 0 (.num 2), .obj .hifVfRings 0 0 (.num (16 * 65536 + 4))]; s.Inv ∧ b.length = 32 ∧ s.dev.admits r ∧ 1 ≤ g.kind ∧ g.kind ≤ 7 ∧ g.func ≤ 63 ∧ 6 ≤ g.log2 ∧ g.log2 ≤ 16 ∧ g.sev ≤ 7 ∧ (g.kind ≠ 5 → g.sev = 0) ∧ bitsOf g.vector 11 4 = 0 ∧ g.itr ≤ 1023 ∧ 1 ≤ g.cnt ∧ g.cnt ≤ 4096 ∧ beAt b 28 4 = 0 ∧ s.dev.mayRing l.val (hostFn o.code.toNat) (beAt b 0 2) = true ∧ g.base % 4096 = 0 ∧ g.wb % 8 = 0 ∧ (bitOf g.vector 15 = true → g.vector % 2048 < s.dev.vectorsOf l.val g.func) ∧ hostFn o.code.toNat ≠ 0 ∧ g.func ≠ hostFn o.code.toNat) ∧
    (let o : Origin := host; let l : Fin 4 := 0; let b : List Byte := (beBytes 2 2047 ++ [1, 2, 6, 0] ++ beBytes 2 0 ++ beBytes 8 0x1000 ++ beBytes 8 8 ++ beBytes 2 0 ++ beBytes 2 1 ++ zeros 4); let g : Ring := { Ring.none with setup := b }; let r := execReq o .hifRingSetup l.val 0 true (.oct b); let s := up [.fn 0 fun y => { y with live := true, epoch := 5 }, .fn 1 fun y => { y with live := true, epoch := 3 }, .obj .hifNumVfs 0 0 (.num 2), .obj .hifVfRings 0 0 (.num (16 * 65536 + 4))]; s.Inv ∧ b.length = 32 ∧ s.dev.admits r ∧ 1 ≤ g.kind ∧ g.kind ≤ 7 ∧ g.func ≤ 63 ∧ 6 ≤ g.log2 ∧ g.log2 ≤ 16 ∧ g.sev ≤ 7 ∧ (g.kind ≠ 5 → g.sev = 0) ∧ bitsOf g.vector 11 4 = 0 ∧ g.itr ≤ 1023 ∧ 1 ≤ g.cnt ∧ g.cnt ≤ 4096 ∧ beAt b 28 4 = 0 ∧ s.dev.mayRing l.val (hostFn o.code.toNat) (beAt b 0 2) = true ∧ g.base % 4096 = 0 ∧ g.wb % 8 = 0 ∧ (bitOf g.vector 15 = true → g.vector % 2048 < s.dev.vectorsOf l.val g.func) ∧ (hostFn o.code.toNat = 0 ∨ g.func = hostFn o.code.toNat) ∧ (s.dev.fnEnabled l.val g.func = false ∨ (s.dev.fn (fnKey l.val g.func)).live = false ∨ (s.dev.fn (hostKey o.code.toNat)).live = false)) ∧
    (let o : Origin := host; let l : Fin 4 := 0; let b : List Byte := (beBytes 2 2047 ++ [1, 1, 6, 0] ++ beBytes 2 0 ++ beBytes 8 0x1000 ++ beBytes 8 8 ++ beBytes 2 0 ++ beBytes 2 1 ++ zeros 4); let g : Ring := { Ring.none with setup := b }; let r := execReq o .hifRingSetup l.val 0 true (.oct b); let s := up [.fn 0 fun y => { y with live := true, epoch := 5 }, .fn 1 fun y => { y with live := true, epoch := 3 }, .obj .hifNumVfs 0 0 (.num 2), .obj .hifVfRings 0 0 (.num (16 * 65536 + 4)), .ring 2047 fun x => { x with state := 3 }]; s.Inv ∧ b.length = 32 ∧ s.dev.admits r ∧ 1 ≤ g.kind ∧ g.kind ≤ 7 ∧ g.func ≤ 63 ∧ 6 ≤ g.log2 ∧ g.log2 ≤ 16 ∧ g.sev ≤ 7 ∧ (g.kind ≠ 5 → g.sev = 0) ∧ bitsOf g.vector 11 4 = 0 ∧ g.itr ≤ 1023 ∧ 1 ≤ g.cnt ∧ g.cnt ≤ 4096 ∧ beAt b 28 4 = 0 ∧ s.dev.mayRing l.val (hostFn o.code.toNat) (beAt b 0 2) = true ∧ g.base % 4096 = 0 ∧ g.wb % 8 = 0 ∧ (bitOf g.vector 15 = true → g.vector % 2048 < s.dev.vectorsOf l.val g.func) ∧ (hostFn o.code.toNat = 0 ∨ g.func = hostFn o.code.toNat) ∧ s.dev.fnEnabled l.val g.func = true ∧ (s.dev.fn (fnKey l.val g.func)).live = true ∧ (s.dev.fn (hostKey o.code.toNat)).live = true ∧ (s.dev.ringSt (beAt b 0 2)).state ≠ 0) ∧
    (let o : Origin := host; let l : Fin 4 := 0; let b : List Byte := (beBytes 2 2047 ++ [7, 1, 6, 0] ++ beBytes 2 0 ++ beBytes 8 0x1000 ++ beBytes 8 8 ++ beBytes 2 0 ++ beBytes 2 1 ++ zeros 4); let g : Ring := { Ring.none with setup := b }; let r := execReq o .hifRingSetup l.val 0 true (.oct b); let s := up [.fn 0 fun y => { y with live := true, epoch := 5 }, .fn 1 fun y => { y with live := true, epoch := 3 }, .obj .hifNumVfs 0 0 (.num 2), .obj .hifVfRings 0 0 (.num (16 * 65536 + 4))]; s.Inv ∧ b.length = 32 ∧ s.dev.admits r ∧ 1 ≤ g.kind ∧ g.kind ≤ 7 ∧ g.func ≤ 63 ∧ 6 ≤ g.log2 ∧ g.log2 ≤ 16 ∧ g.sev ≤ 7 ∧ (g.kind ≠ 5 → g.sev = 0) ∧ bitsOf g.vector 11 4 = 0 ∧ g.itr ≤ 1023 ∧ 1 ≤ g.cnt ∧ g.cnt ≤ 4096 ∧ beAt b 28 4 = 0 ∧ s.dev.mayRing l.val (hostFn o.code.toNat) (beAt b 0 2) = true ∧ g.base % 4096 = 0 ∧ g.wb % 8 = 0 ∧ (bitOf g.vector 15 = true → g.vector % 2048 < s.dev.vectorsOf l.val g.func) ∧ (hostFn o.code.toNat = 0 ∨ g.func = hostFn o.code.toNat) ∧ s.dev.fnEnabled l.val g.func = true ∧ (s.dev.fn (fnKey l.val g.func)).live = true ∧ (s.dev.fn (hostKey o.code.toNat)).live = true ∧ (s.dev.ringSt (beAt b 0 2)).state = 0) ∧
    (let o := host; let l : Fin 4 := 0; let r : BitVec 16 := 9; let s := up [.fn 0 fun y => { y with live := true, epoch := 5 }, .ring 9 fun x => { x with state := 2, setup := (beBytes 2 9 ++ [1, 0, 6, 0] ++ beBytes 2 0 ++ beBytes 8 0x1000 ++ beBytes 8 8 ++ beBytes 2 0 ++ beBytes 2 1 ++ zeros 4) }]; s.Inv ∧ s.dev.admits (execReq o .hifRingTeardown l.val 0 true (.num r.toNat)) ∧ s.dev.mayRing l.val (hostFn o.code.toNat) r.toNat = true ∧ s.dev.admits (execReq o .hifRingQuery l.val 0 true (.num r.toNat)) ∧ isHost o.code.toNat = true) ∧
    (let o := host; let l : Fin 4 := 0; let r : BitVec 16 := 2048; let s := up [.fn 0 fun y => { y with live := true, epoch := 5 }]; s.Inv ∧ s.dev.admits (execReq o .hifRingTeardown l.val 0 true (.num r.toNat)) ∧ s.dev.mayRing l.val (hostFn o.code.toNat) r.toNat = false) ∧
    (let o := host; let l : Fin 4 := 0; let v : BitVec 64 := 1023 * 2 ^ 32; let s := up [.fn 0 fun y => { y with live := true, epoch := 5 }]; s.Inv ∧ s.dev.admits (execReq o .hifDmapSet l.val 0 true (.num v.toNat)) ∧ v.toNat / 2 ^ 48 = 0 ∧ v.toNat % 256 = 0 ∧ bitsOf v.toNat 32 16 ≤ 1023 ∧ bitsOf v.toNat 16 16 = 0) := by
  simp only [inv_iff, admits_iff]
  and_intros <;> decide +kernel

theorem meets_RingCommands_2 :
    (let o := host; let l : Fin 4 := 0; let v : BitVec 64 := 1023 * 2 ^ 32 + 0x2000 * 2 ^ 16 + 2 ^ 8; let s := up [.fn 0 fun y => { y with live := true, epoch := 5 }]; let x : Obj := .clkTimingChannel; let i := 0; let j := 0; s.Inv ∧ s.dev.admits (execReq o .hifDmapSet l.val 0 true (.num v.toNat)) ∧ v.toNat / 2 ^ 48 = 0 ∧ v.toNat % 256 = 0 ∧ bitsOf v.toNat 32 16 ≤ 1023 ∧ bitsOf v.toNat 16 16 ≠ 0 ∧ target (bitsOf v.toNat 16 16) (bitsOf v.toNat 8 8) = .elem x i j ∧ s.dev.accessAbort (s.dev.codeOf o.path) 1 x i j = 0 ∧ isCounter x = false ∧ x.row.ty = .u 8) ∧
    (let r : Fin 4096 := 9; let x : Desc := ⟨0x5000, 64, 0, 0, 0, 7, 6, zeros 64, 0⟩; let rest : List Desc := []; let s := up [.fn 0 fun y => { y with live := true, epoch := 5 }, .ring 9 fun y => { y with state := 1, setup := (beBytes 2 9 ++ [2, 0, 6, 0] ++ beBytes 2 0 ++ beBytes 8 0x1000 ++ beBytes 8 8 ++ beBytes 2 0 ++ beBytes 2 1 ++ zeros 4), posted := [x], hostIx := 1 }, .obj .hifLinkState 0 0 (.num 2), .obj .tmIresShare 0 112 (.num 64)]; s.Inv ∧ s.dev.answers = true ∧ s.dev.inRun ∧ (s.dev.ringSt r.val).posted = x :: rest ∧ (s.dev.ringSt r.val).state = 1 ∧ (s.dev.ringSt r.val).kind = 2 ∧ bitOf x.ctrl.toNat 14 = false ∧ (s.dev.descFate r.val x = 2 ∨ s.dev.descFate r.val x = 3)) ∧
    (let r : Fin 4096 := 9; let x : Desc := ⟨0x5000, 13, 0, 0, 0, 7, 5, zeros 64, 0⟩; let rest : List Desc := []; let b : List Byte := x.buf.take (descSize x); let s := up [.fn 0 fun y => { y with live := true, epoch := 5 }, .ring 9 fun y => { y with state := 1, setup := (beBytes 2 9 ++ [2, 0, 6, 0] ++ beBytes 2 0 ++ beBytes 8 0x1000 ++ beBytes 8 8 ++ beBytes 2 0 ++ beBytes 2 1 ++ zeros 4), posted := [x], hostIx := 1 }, .obj .hifLinkState 0 0 (.num 2), .obj .tmIresShare 0 112 (.num 64)]; s.Inv ∧ s.dev.answers = true ∧ s.dev.inRun ∧ (s.dev.ringSt r.val).posted = x :: rest ∧ (s.dev.ringSt r.val).state = 1 ∧ (s.dev.ringSt r.val).kind = 2 ∧ bitOf x.ctrl.toNat 14 = false ∧ s.dev.descFate r.val x = 0 ∧ (b.length < 14 ∨ 16383 < b.length)) ∧
    (let r : Fin 4096 := 9; let x : Desc := ⟨0x5000, 14, 0, 0, 0, 7, 5, zeros 64, 0⟩; let rest : List Desc := []; let b : List Byte := x.buf.take (descSize x); let s := up [.fn 0 fun y => { y with live := true, epoch := 5 }, .ring 9 fun y => { y with state := 1, setup := (beBytes 2 9 ++ [2, 0, 6, 0] ++ beBytes 2 0 ++ beBytes 8 0x1000 ++ beBytes 8 8 ++ beBytes 2 0 ++ beBytes 2 1 ++ zeros 4), posted := [x], hostIx := 1 }, .obj .hifLinkState 0 0 (.num 2), .obj .tmIresShare 0 112 (.num 64)]; s.Inv ∧ s.dev.answers = true ∧ s.dev.inRun ∧ (s.dev.ringSt r.val).posted = x :: rest ∧ (s.dev.ringSt r.val).state = 1 ∧ (s.dev.ringSt r.val).kind = 2 ∧ bitOf x.ctrl.toNat 14 = false ∧ s.dev.descFate r.val x = 0 ∧ 14 ≤ b.length ∧ b.length ≤ 16383 ∧ bitOf x.metaw.toNat 27 = false ∧ s.dev.linkOfRing r.val < 4 ∧ s.dev.portClosed (112 + s.dev.linkOfRing r.val) = false ∧ s.dev.ingressCells (112 + s.dev.linkOfRing r.val) + cellsOf b ≤ s.dev.ingressShare (112 + s.dev.linkOfRing r.val)) ∧
    (let r : Fin 4096 := 9; let s := up [.fn 0 fun y => { y with live := true, epoch := 5 }, .fn 0 fun y => { y with msixOn := true, msixMask := false }, .vec (vecKey 0 3) fun v => { v with masked := false, addr := 0xFEE00000, data := 5 }, .ring 9 fun y => { y with state := 1, setup := (beBytes 2 9 ++ [1, 0, 6, 0] ++ beBytes 2 0 ++ beBytes 8 0x1000 ++ beBytes 8 8 ++ beBytes 2 0 ++ beBytes 2 1 ++ zeros 4), unsig := 2 }]; s.Inv ∧ s.dev.answers = true ∧ (s.dev.ringSt r.val).unsig ≠ 0 ∧ bitOf (s.dev.ringSt r.val).vector 15 = false) ∧
    (let r : Fin 4096 := 9; let s := up [.fn 0 fun y => { y with live := true, epoch := 5 }, .fn 0 fun y => { y with msixOn := true, msixMask := false }, .vec (vecKey 0 3) fun v => { v with masked := false, addr := 0xFEE00000, data := 5 }, .ring 9 fun y => { y with state := 1, setup := (beBytes 2 9 ++ [1, 0, 6, 0] ++ beBytes 2 0x8003 ++ beBytes 8 0x1000 ++ beBytes 8 8 ++ beBytes 2 0 ++ beBytes 2 1 ++ zeros 4), unsig := 2 }]; let k := fnKey (s.dev.linkOfRing r.val) (s.dev.ringSt r.val).func; let v := SMap.get Vec.none s.dev.vecs (vecKey k ((s.dev.ringSt r.val).vector % 2048)); s.Inv ∧ s.dev.answers = true ∧ (s.dev.ringSt r.val).unsig ≠ 0 ∧ bitOf (s.dev.ringSt r.val).vector 15 = true ∧ s.dev.canSignal (s.dev.linkOfRing r.val) (s.dev.ringSt r.val).func = true ∧ (s.dev.fn k).msixMask = false ∧ v.masked = false) ∧
    (let r : Fin 4096 := 9; let s := up [.fn 0 fun y => { y with live := true, epoch := 5 }, .fn 0 fun y => { y with msixOn := true, msixMask := true }, .vec (vecKey 0 3) fun v => { v with masked := false, addr := 0xFEE00000, data := 5 }, .ring 9 fun y => { y with state := 1, setup := (beBytes 2 9 ++ [1, 0, 6, 0] ++ beBytes 2 0x8003 ++ beBytes 8 0x1000 ++ beBytes 8 8 ++ beBytes 2 0 ++ beBytes 2 1 ++ zeros 4), unsig := 2 }]; let k := fnKey (s.dev.linkOfRing r.val) (s.dev.ringSt r.val).func; let v := SMap.get Vec.none s.dev.vecs (vecKey k ((s.dev.ringSt r.val).vector % 2048)); s.Inv ∧ s.dev.answers = true ∧ (s.dev.ringSt r.val).unsig ≠ 0 ∧ bitOf (s.dev.ringSt r.val).vector 15 = true ∧ s.dev.canSignal (s.dev.linkOfRing r.val) (s.dev.ringSt r.val).func = true ∧ ((s.dev.fn k).msixMask = true ∨ v.masked = true)) := by
  simp only [inv_iff, admits_iff, Dev.inRun]
  and_intros <;> decide +kernel

theorem meets_FrontEndRequests :
    (let o := sec; let n : Fin 4 := 3; let v : BitVec 8 := 1; let r := writeReq o .feEnable n.val 0 (.num v.toNat); let s := up [.obj .hvState 0 0 (.num 2)]; s.Inv ∧ s.dev.admits r ∧ v = 1 ∧ (s.dev.hvEnable = false ∨ s.dev.num .hvState ≠ 2)) ∧
    (let o := sec; let n : Fin 4 := 3; let v : BitVec 8 := 1; let a := true; let r := writeReq o .feEnable n.val 0 (.num v.toNat); let s := up [.obj .rstStraps 0 0 (.num 65), .obj .hvState 0 0 (.num 2)]; s.Inv ∧ s.dev.admits r ∧ v = 1 ∧ s.dev.hvEnable = true ∧ s.dev.num .hvState = 2 ∧ a = true ∧ s.dev.num .feEnable n.val = 0 ∧ s.dev.num .feState n.val = 0) ∧
    (let o := sec; let n : Fin 4 := 3; let v : BitVec 8 := 0; let a := true; let r := writeReq o .feEnable n.val 0 (.num v.toNat); let s := up [.obj .feEnable 3 0 (.num 1), .obj .feState 3 0 (.num 2), .obj .actState 3 0 (.num 4)]; s.Inv ∧ s.dev.admits r ∧ v = 0 ∧ a = true) ∧
    (let o := sec; let n : Fin 4 := 3; let v : BitVec 8 := 0; let a := false; let r := writeReq o .feEnable n.val 0 (.num v.toNat); let s := up []; s.Inv ∧ s.dev.admits r ∧ a = false ∧ (v = 0 ∨ (v = 1 ∧ s.dev.hvEnable = true ∧ s.dev.num .hvState = 2))) ∧
    (let o := sec; let n : Fin 4 := 3; let v : BitVec 32 := 30000; let r := writeReq o .feApdTarget n.val 0 (.num v.toNat); let s := up []; s.Inv ∧ s.dev.admits r ∧ v.toNat = 30000) ∧
    (let o := sec; let n : Fin 4 := 3; let b : List Byte := (List.replicate 32 [0x7F, 0xFF]).flatten ++ zeros 2; let r := writeReq o .feTxCoeff n.val 0 (.oct b); let s := up []; s.Inv ∧ s.dev.admits r ∧ (512 < coeffSum b ∨ coeffRange b = false ∨ meetsMask b = false)) ∧
    (let o := sec; let n : Fin 4 := 3; let r := execReq o .feLaserRelease n.val 0 true (.num 0); let s := up [.fch 3 fun c => { c with rogue := 0 }]; s.Inv ∧ s.dev.admits r ∧ (s.dev.ch n.val).rogue = 0) ∧
    (let o := sec; let n : Fin 4 := 3; let p := true; let r := execReq o .feLaserRelease n.val 0 true (.num 0); let s := up [.fch 3 fun c => { c with rogue := 1 }]; s.Inv ∧ s.dev.admits r ∧ (s.dev.ch n.val).rogue ≠ 0 ∧ p = true) := by
  simp only [inv_iff, admits_iff]
  and_intros <;> decide +kernel

theorem meets_FrontEndRequests_2 :
    (let o := sec; let n : Fin 4 := 3; let p := false; let a := true; let r := execReq o .feLaserRelease n.val 0 true (.num 0); let s := up [.fch 3 fun c => { c with rogue := 2 }]; s.Inv ∧ s.dev.admits r ∧ (s.dev.ch n.val).rogue ≠ 0 ∧ p = false ∧ a = true) ∧
    (let o := sec; let n : Fin 4 := 3; let p := false; let a := false; let r := execReq o .feLaserRelease n.val 0 true (.num 0); let s := up [.fch 3 fun c => { c with rogue := 1 }]; s.Inv ∧ s.dev.admits r ∧ (s.dev.ch n.val).rogue ≠ 0 ∧ p = false ∧ a = false) ∧
    (let o := sec; let r := execReq o .hvRearm 0 0 true (.num 0); let s := up [.obj .hvState 0 0 (.num 2)]; s.Inv ∧ s.dev.admits r ∧ s.dev.num .hvState = 2) ∧
    (let o := sec; let r := execReq o .hvRearm 0 0 true (.num 0); let s := up [.obj .hvState 0 0 (.num 3)]; s.Inv ∧ s.dev.admits r ∧ s.dev.num .hvState ≠ 2 ∧ s.dev.canRearm = false) ∧
    (let o := sec; let a := true; let r := execReq o .hvRearm 0 0 true (.num 0); let s := up [.obj .hvState 0 0 (.num 3), .obj .hvVin 0 0 (.num 10000), .obj .hvBoost 0 0 (.num 95000), .hv false true false, .obj .feEnable 1 0 (.num 1)]; s.Inv ∧ s.dev.admits r ∧ s.dev.canRearm = true ∧ a = true) ∧
    (let o := sec; let n : Fin 4 := 3; let v : BitVec 8 := 1; let r := writeReq o .feLaserForceOff n.val 0 (.num v.toNat); let s := up [.fch 3 fun c => { c with burstOn := true }]; s.Inv ∧ s.dev.admits r ∧ v = 1) := by
  simp only [inv_iff, admits_iff]
  and_intros <;> decide +kernel

theorem meets_HvDieEvents :
    (let n : Fin 4 := 3; let s := up [.obj .feState 3 0 (.num 1)]; s.Inv ∧ s.dev.answers = true ∧ s.dev.num .feState n.val = 1) ∧
    (let n : Fin 4 := 3; let s := up []; s.Inv ∧ s.dev.answers = true ∧ s.dev.num .feState n.val ≠ 1) ∧
    (let s := up []; s.Inv ∧ s.dev.answers = true) ∧
    (let n : Fin 4 := 3; let x : HvCmd := ⟨.feApdTarget, 31000, 0, ⟨sec, 2, Obj.feApdTarget.index 3 0, Obj.feApdTarget.subOf 0⟩⟩; let rest : List HvCmd := []; let s := up [.um (pathKey .internal) fun u => { u with busy := [x.call] }, .fch 3 fun f => { f with hvPend := [x] }]; s.Inv ∧ s.dev.answers = true ∧ (s.dev.ch n.val).hvPend = x :: rest ∧ x.obj = .feApdTarget ∧ x.sent < 2) ∧
    (let n : Fin 4 := 3; let x : HvCmd := ⟨.feApdTarget, 31000, 2, ⟨sec, 2, Obj.feApdTarget.index 3 0, Obj.feApdTarget.subOf 0⟩⟩; let rest : List HvCmd := []; let s := up [.um (pathKey .internal) fun u => { u with busy := [x.call] }, .fch 3 fun f => { f with hvPend := [x] }]; s.Inv ∧ s.dev.answers = true ∧ (s.dev.ch n.val).hvPend = x :: rest ∧ x.obj = .feApdTarget ∧ 2 ≤ x.sent) ∧
    (let s := up [.hv true false true]; s.dev.hvTrip = true) ∧
    (let s := up [.obj .hvState 0 0 (.num 2), .obj .feEnable 2 0 (.num 1), .obj .feState 2 0 (.num 2)]; s.Inv ∧ s.dev.num .hvState = 2) ∧
    (let s := up [.obj .rstStraps 0 0 (.num 65)]; s.dev.num .hvState = 0 ∧ s.dev.hvEnable = true) := by
  simp only [inv_iff]
  and_intros <;> decide +kernel

theorem meets_HvDieEvents_2 :
    (let s := up [.obj .hvState 0 0 (.num 1)]; s.Inv ∧ s.dev.num .hvState = 1 ∧ s.dev.hvUnder = false) ∧
    (let s := up [.obj .hvState 0 0 (.num 1), .hv true true false]; s.Inv ∧ s.dev.num .hvState = 1 ∧ s.dev.hvUnder = true) ∧
    (let n : Fin 4 := 3; let s := up [.obj .hvState 0 0 (.num 2)]; s.dev.num .hvState ≠ 0 ∧ (s.dev.ch n.val).rogue = 0 ∧ (s.dev.ch n.val).burstOn = false) ∧
    (let n : Fin 4 := 3; let s := up [.obj .hvState 0 0 (.num 2), .fch 3 fun c => { c with burstOn := true }]; s.dev.num .hvState ≠ 0 ∧ (s.dev.ch n.val).rogue = 0 ∧ (s.dev.ch n.val).burstOn = true ∧ s.dev.num .feRogueOnLimit n.val ≠ 0) := by
  simp only [inv_iff]
  and_intros <;> decide +kernel

theorem meets_DmtReceiver :
    (let n : Fin 4 := 3; let x : List Int := List.replicate 8320 1; let s := up [.obj .dmtState 3 0 (.num 1)]; s.Inv ∧ s.dev.answers = true ∧ s.dev.num .dmtState n.val = 1 ∧ correlates x.toArray (s.dev.num .dmtWindowAdvance n.val) (s.dev.num .dmtAcqThreshold n.val) = true) ∧
    (let n : Fin 4 := 3; let x : List Int := []; let s := up [.obj .dmtState 3 0 (.num 1)]; s.Inv ∧ s.dev.answers = true ∧ (s.dev.num .dmtState n.val ≠ 1 ∨ correlates x.toArray (s.dev.num .dmtWindowAdvance n.val) (s.dev.num .dmtAcqThreshold n.val) = false)) ∧
    (let n : Fin 4 := 3; let s := up [.obj .dmtState 3 0 (.num 2), .fch 3 fun c => { c with dmt := { DmtRx.none with run := [(0, true), (500, true), (0, false), (0, true), (0, true), (0, false), (9, true), (0, true)] } }]; s.Inv ∧ s.dev.answers = true ∧ s.dev.num .dmtState n.val = 2 ∧ (s.dev.ch n.val).dmt.locks = true) ∧
    (let n : Fin 4 := 3; let s := up [.obj .dmtState 3 0 (.num 2)]; s.Inv ∧ s.dev.answers = true ∧ (s.dev.num .dmtState n.val ≠ 2 ∨ (s.dev.ch n.val).dmt.locks = false)) ∧
    (let n : Fin 4 := 3; let s := up [.obj .dmtState 3 0 (.num 2), .fch 3 fun c => { c with refValid := true, burstOn := true, dmt := { c.dmt with fails := 200, taps := [⟨1, 2⟩] } }]; s.Inv ∧ s.dev.answers = true ∧ s.dev.num .dmtLossFrames n.val ≤ (s.dev.ch n.val).dmt.fails ∧ s.dev.num .dmtState n.val = 2) ∧
    (let n : Fin 4 := 3; let s := up [.obj .dmtState 3 0 (.num 3), .fch 3 fun c => { c with refValid := true, burstOn := true, dmt := { c.dmt with fails := 200, taps := [⟨1, 2⟩] } }]; s.Inv ∧ s.dev.answers = true ∧ s.dev.num .dmtLossFrames n.val ≤ (s.dev.ch n.val).dmt.fails ∧ s.dev.num .dmtState n.val = 3) ∧
    (let n : Fin 4 := 3; let s := up [.obj .dmtState 3 0 (.num 3)]; s.Inv ∧ s.dev.answers = true ∧ (s.dev.ch n.val).dmt.fails < s.dev.num .dmtLossFrames n.val) ∧
    (let n : Fin 4 := 3; let s := up [.obj .dmtState 3 0 (.num 2)]; s.Inv ∧ s.dev.answers = true ∧ s.dev.asleep n.val = false ∧ s.dev.num .dmtState n.val = 2) ∧
    (let n : Fin 4 := 3; let s := up [.obj .dmtState 3 0 (.num 3), .obj .dmtCwUncorrectable 3 0 (.num 9), .fch 3 fun c => { c with snrBase := 5, dmt := { c.dmt with frames := 1000, sig := [4096, 100], noise := [1, 50], pilot := (1000, 10) } }]; s.Inv ∧ s.dev.answers = true ∧ s.dev.num .dmtState n.val = 3 ∧ s.dev.num .dmtSnrFrames n.val ≤ (s.dev.ch n.val).dmt.frames ∧ s.dev.num .actQualityAuto n.val = 0) := by
  simp only [inv_iff]
  refine ⟨⟨?_, ?_, ?_, correlates_ones _ _ ?_⟩, ⟨?_, ?_, .inr (correlates_empty _ _)⟩, ?_⟩
  all_goals and_intros <;> decide +kernel

theorem meets_DmtProfiles :
    (let n : Fin 4 := 3; let p : Fin 8 := 0; let o := sec; let b : List Byte := []; let s := up []; s.Inv ∧ p = 0 ∧ s.dev.hears (writeReq o .dmtProfile n.val 0 (.oct b)).call ∧ o.code.toNat = s.dev.codeOf o.path) ∧
    (let n : Fin 4 := 3; let p : Fin 8 := 7; let o := sec; let b : List Byte := image 7 1; let s := up []; s.Inv ∧ p ≠ 0 ∧ s.dev.admits (writeReq o .dmtProfile n.val p.val (.oct b)) ∧ s.dev.clk.closed.contains (0x100 + n.val) = false ∧ beAt b 2 2 = 1936 ∧ beAt b 1 1 = 1 ∧ b.length = 1952 ∧ beAt b 12 4 = crc32c (b.drop 16) ∧ beAt b 0 1 = p.val ∧
        badEntry b = none ∧ 1 ≤ profileCodewords b ∧ profileCodewords b ≤ 744 ∧ s.dev.switchTarget n.val p.val = false ∧
        bitOf (s.dev.num .dmtProfileEnable n.val) p.val = false) ∧
    (let n : Fin 4 := 3; let p : Fin 8 := 1; let o := sec; let b : List Byte := image 1 2; let s := up []; s.Inv ∧ p ≠ 0 ∧ s.dev.admits (writeReq o .dmtProfile n.val p.val (.oct b)) ∧ s.dev.clk.closed.contains (0x100 + n.val) = false ∧ (let a := (if beAt b 2 2 ≠ 1936 ∨ beAt b 1 1 ≠ 1 ∨ b.length ≠ 1952 ∨ beAt b 12 4 ≠ crc32c (b.drop 16) then 0x0301
          else if beAt b 0 1 ≠ p.val ∨ badEntry b ≠ none ∨ profileCodewords b = 0 ∨ 744 < profileCodewords b then 0x0302
          else if s.dev.switchTarget n.val p.val then 0x0501
          else if bitOf (s.dev.num .dmtProfileEnable n.val) p.val then 0x0401 else 0); a ≠ 0)) ∧
    (let n : Fin 4 := 3; let p : Fin 8 := 2; let o := sec; let b : List Byte := image 3 1; let s := up []; s.Inv ∧ p ≠ 0 ∧ s.dev.admits (writeReq o .dmtProfile n.val p.val (.oct b)) ∧ s.dev.clk.closed.contains (0x100 + n.val) = false ∧ (let a := (if beAt b 2 2 ≠ 1936 ∨ beAt b 1 1 ≠ 1 ∨ b.length ≠ 1952 ∨ beAt b 12 4 ≠ crc32c (b.drop 16) then 0x0301
          else if beAt b 0 1 ≠ p.val ∨ badEntry b ≠ none ∨ profileCodewords b = 0 ∨ 744 < profileCodewords b then 0x0302
          else if s.dev.switchTarget n.val p.val then 0x0501
          else if bitOf (s.dev.num .dmtProfileEnable n.val) p.val then 0x0401 else 0); a ≠ 0)) ∧
    (let n : Fin 4 := 3; let p : Fin 8 := 3; let o := sec; let b : List Byte := image 3 1; let s := up [.arm ⟨0, 2, 3, .frame 9, 0, false, [], [3], 0⟩]; s.Inv ∧ p ≠ 0 ∧ s.dev.admits (writeReq o .dmtProfile n.val p.val (.oct b)) ∧ s.dev.clk.closed.contains (0x100 + n.val) = false ∧ (let a := (if beAt b 2 2 ≠ 1936 ∨ beAt b 1 1 ≠ 1 ∨ b.length ≠ 1952 ∨ beAt b 12 4 ≠ crc32c (b.drop 16) then 0x0301
          else if beAt b 0 1 ≠ p.val ∨ badEntry b ≠ none ∨ profileCodewords b = 0 ∨ 744 < profileCodewords b then 0x0302
          else if s.dev.switchTarget n.val p.val then 0x0501
          else if bitOf (s.dev.num .dmtProfileEnable n.val) p.val then 0x0401 else 0); a ≠ 0)) ∧
    (let n : Fin 4 := 3; let p : Fin 8 := 3; let o := sec; let b : List Byte := image 3 1; let s := up [.obj .dmtProfileEnable 3 0 (.num 9)]; s.Inv ∧ p ≠ 0 ∧ s.dev.admits (writeReq o .dmtProfile n.val p.val (.oct b)) ∧ s.dev.clk.closed.contains (0x100 + n.val) = false ∧ (let a := (if beAt b 2 2 ≠ 1936 ∨ beAt b 1 1 ≠ 1 ∨ b.length ≠ 1952 ∨ beAt b 12 4 ≠ crc32c (b.drop 16) then 0x0301
          else if beAt b 0 1 ≠ p.val ∨ badEntry b ≠ none ∨ profileCodewords b = 0 ∨ 744 < profileCodewords b then 0x0302
          else if s.dev.switchTarget n.val p.val then 0x0501
          else if bitOf (s.dev.num .dmtProfileEnable n.val) p.val then 0x0401 else 0); a ≠ 0)) ∧
    (let n : Fin 4 := 3; let o := sec; let v : BitVec 8 := 1; let s := up [.arm ⟨0, 2, 3, .frame 9, 0, false, [], [3], 0⟩]; s.Inv ∧ s.dev.admits (writeReq o .dmtProfileEnable n.val 0 (.num v.toNat)) ∧ (3 < 8 ∧ 3 ≠ 0 ∧ s.dev.switchTarget n.val 3 = true ∧ bitOf v.toNat 3 = false)) ∧
    ((up []).Inv ∧ (up []).dev.admits (writeReq (sec) .dmtProfileEnable (3 : Fin 4).val 0 (.num (9 : BitVec 8).toNat)) ∧ (∀ p, p < 8 → p ≠ 0 → (up []).dev.switchTarget (3 : Fin 4).val p = true → bitOf (9 : BitVec 8).toNat p = true) ∧ bitOf (9 : BitVec 8).toNat 3 = true ∧ (up []).dev.slotLoaded (3 : Fin 4).val 3 = false) ∧
    ((up [.obj .dmtProfileActive 3 0 (.num 3)]).Inv ∧ (up [.obj .dmtProfileActive 3 0 (.num 3)]).dev.admits (writeReq (sec) .dmtProfileEnable (3 : Fin 4).val 0 (.num (1 : BitVec 8).toNat)) ∧ (∀ p, p < 8 → p ≠ 0 → (up [.obj .dmtProfileActive 3 0 (.num 3)]).dev.switchTarget (3 : Fin 4).val p = true → bitOf (1 : BitVec 8).toNat p = true) ∧ (up [.obj .dmtProfileActive 3 0 (.num 3)]).dev.num .dmtProfileActive (3 : Fin 4).val ≠ 0 ∧ bitOf (1 : BitVec 8).toNat ((up [.obj .dmtProfileActive 3 0 (.num 3)]).dev.num .dmtProfileActive (3 : Fin 4).val) = false) ∧
    ((up [.obj .dmtProfileStatus 3 3 (.num (2 ^ 31 + 1))]).Inv ∧ (up [.obj .dmtProfileStatus 3 3 (.num (2 ^ 31 + 1))]).dev.admits (writeReq (sec) .dmtProfileEnable (3 : Fin 4).val 0 (.num (8 : BitVec 8).toNat)) ∧ (∀ p, p < 8 → p ≠ 0 → (up [.obj .dmtProfileStatus 3 3 (.num (2 ^ 31 + 1))]).dev.switchTarget (3 : Fin 4).val p = true → bitOf (8 : BitVec 8).toNat p = true) ∧ (∀ p, p < 8 → bitOf (8 : BitVec 8).toNat p = true → (up [.obj .dmtProfileStatus 3 3 (.num (2 ^ 31 + 1))]).dev.slotLoaded (3 : Fin 4).val p = true) ∧ ((up [.obj .dmtProfileStatus 3 3 (.num (2 ^ 31 + 1))]).dev.num .dmtProfileActive (3 : Fin 4).val = 0 ∨ bitOf (8 : BitVec 8).toNat ((up [.obj .dmtProfileStatus 3 3 (.num (2 ^ 31 + 1))]).dev.num .dmtProfileActive (3 : Fin 4).val) = true)) ∧
    (let n : Fin 4 := 3; let o := sec; let a : BitVec 64 := 33; let k := bitsOf a.toNat 56 3; let f := bitsOf a.toNat 0 51; let s := up []; s.Inv ∧ s.dev.admits (execReq o .dmtProfileSwitch n.val 0 true (.num a.toNat)) ∧ (a.toNat ≠ k * 2 ^ 56 + f ∨ f % 32 ≠ 0)) ∧
    (let n : Fin 4 := 3; let o := sec; let a : BitVec 64 := 64; let k := bitsOf a.toNat 56 3; let f := bitsOf a.toNat 0 51; let s := up []; s.Inv ∧ s.dev.admits (execReq o .dmtProfileSwitch n.val 0 true (.num a.toNat)) ∧ a.toNat = k * 2 ^ 56 + f ∧ f % 32 = 0 ∧ s.dev.num .frmAlignState n.val ≠ 2) ∧
    (let n : Fin 4 := 3; let o := sec; let a : BitVec 64 := 0 * 2 ^ 56 + 64; let k := bitsOf a.toNat 56 3; let f := bitsOf a.toNat 0 51; let s := up [.obj .frmAlignState 3 0 (.num 2), .obj .frmFrame 3 0 (.num 62), .obj .dmtProfileEnable 3 0 (.num 129)]; s.Inv ∧ s.dev.admits (execReq o .dmtProfileSwitch n.val 0 true (.num a.toNat)) ∧ a.toNat = k * 2 ^ 56 + f ∧ f % 32 = 0 ∧ s.dev.num .frmAlignState n.val = 2 ∧ s.dev.num .frmFrame n.val + 2 ≤ f ∧ s.dev.slotEnabled n.val k = true ∧ s.dev.armConflict 2 n.val [Obj.key .dmtProfileActive n.val 0] = false ∧ s.dev.acts.length < 256) ∧
    (let n : Fin 4 := 3; let o := sec; let a : BitVec 64 := 7 * 2 ^ 56 + 64; let k := bitsOf a.toNat 56 3; let f := bitsOf a.toNat 0 51; let s := up [.obj .frmAlignState 3 0 (.num 2), .obj .frmFrame 3 0 (.num 62), .obj .dmtProfileEnable 3 0 (.num 129)]; s.Inv ∧ s.dev.admits (execReq o .dmtProfileSwitch n.val 0 true (.num a.toNat)) ∧ a.toNat = k * 2 ^ 56 + f ∧ f % 32 = 0 ∧ s.dev.num .frmAlignState n.val = 2 ∧ s.dev.num .frmFrame n.val + 2 ≤ f ∧ s.dev.slotEnabled n.val k = true ∧ s.dev.armConflict 2 n.val [Obj.key .dmtProfileActive n.val 0] = false ∧ s.dev.acts.length < 256) ∧
    (let n : Fin 4 := 3; let a : Action := ⟨0, 2, 3, .frame 64, 0x0400, true, [], [3], 0⟩; let s := up [.obj .dmtProfileEnable 3 0 (.num 9), .arm a, .obj .frmFrame 3 0 (.num 64), .obj .frmAlignState 3 0 (.num 2), .fch 3 fun c => { c with marks := true }, .tim fun t => { t with ticks := 5 }]; s.dev.answers = true ∧ s.dev.pendingOn 2 n.val = some a ∧ s.dev.actTurn a = true ∧ s.dev.slotEnabled n.val (nth 0 a.arg 0) = true ∧ s.dev.actLate a = false) ∧
    (let n : Fin 4 := 3; let a : Action := ⟨0, 2, 3, .frame 64, 0x0400, true, [], [3], 0⟩; let s := up [.obj .dmtProfileEnable 3 0 (.num 1), .arm a, .obj .frmFrame 3 0 (.num 64), .obj .frmAlignState 3 0 (.num 2), .fch 3 fun c => { c with marks := true }, .tim fun t => { t with ticks := 5 }]; s.dev.answers = true ∧ s.dev.pendingOn 2 n.val = some a ∧ s.dev.actTurn a = true ∧ s.dev.slotEnabled n.val (nth 0 a.arg 0) = false) := by
  simp only [inv_iff, admits_iff, hears_iff]
  simp only [image_crc]
  and_intros <;> decide +kernel

theorem meets_ManagementReception :
    (let n : Fin 4 := 3; let p : Fin 3 := 2; let q : List (BitVec 16 × BitVec 16) := List.replicate 8 (0xFFFF, 5); let s := up []; s.dev.answers = true ∧ (s.dev.rxRuns n.val p.val = false ∨ s.dev.preamble n.val p.val q = false)) ∧
    (let n : Fin 4 := 3; let p : Fin 3 := 0; let q : List (BitVec 16 × BitVec 16) := List.replicate 8 (0xFFFF, 5); let s := up [.obj .feState 3 0 (.num 2), .fch 3 fun c => { c with slOn := true, cmOn := true, rx := [] }]; s.dev.answers = true ∧ s.dev.rxRuns n.val p.val = true ∧ s.dev.preamble n.val p.val q = true ∧ (s.dev.rxPath n.val p.val).cur = none) ∧
    (let n : Fin 4 := 3; let p : Fin 3 := 1; let q : List (BitVec 16 × BitVec 16) := List.replicate 8 (0xFFFF, 5); let s := up [.obj .feState 3 0 (.num 2), .fch 3 fun c => { c with slOn := true, cmOn := true, rx := [] }]; s.dev.answers = true ∧ s.dev.rxRuns n.val p.val = true ∧ s.dev.preamble n.val p.val q = true ∧ (s.dev.rxPath n.val p.val).cur = none) ∧
    (let n : Fin 4 := 3; let p : Fin 3 := 0; let q : List (BitVec 16 × BitVec 16) := List.replicate 8 (0xFFFF, 5); let v : BitVec 16 := 400; let c : Rx := ⟨300, 300, true, false, 0⟩; let s := up [.obj .feState 3 0 (.num 2), .fch 3 fun c => { c with slOn := true, cmOn := true, rx := [(0, ⟨some ⟨300, 300, true, false, 0⟩, none⟩)] }]; s.dev.answers = true ∧ s.dev.rxRuns n.val p.val = true ∧ s.dev.preamble n.val p.val q = true ∧ (s.dev.rxPath n.val p.val).cur = some c ∧ c.strength + 4 * s.dev.num .mgtCaptureMargin n.val ≤ v.toNat ∧ (s.dev.rxPath n.val p.val).standby = none) ∧
    (let n : Fin 4 := 3; let p : Fin 3 := 0; let q : List (BitVec 16 × BitVec 16) := List.replicate 8 (0xFFFF, 5); let v : BitVec 16 := 299; let c : Rx := ⟨300, 300, true, true, 0⟩; let s := up [.obj .feState 3 0 (.num 2), .fch 3 fun c => { c with slOn := true, cmOn := true, rx := [(0, ⟨some ⟨300, 300, true, true, 0⟩, none⟩)] }]; s.dev.answers = true ∧ s.dev.rxRuns n.val p.val = true ∧ s.dev.preamble n.val p.val q = true ∧ (s.dev.rxPath n.val p.val).cur = some c ∧ v.toNat < c.strength + 4 * s.dev.num .mgtCaptureMargin n.val ∧ c.passed = true) ∧
    (let n : Fin 4 := 3; let p : Fin 3 := 0; let q : List (BitVec 16 × BitVec 16) := List.replicate 8 (0xFFFF, 5); let v : BitVec 16 := 299; let c : Rx := ⟨300, 300, true, false, 0⟩; let s := up [.obj .feState 3 0 (.num 2), .fch 3 fun c => { c with slOn := true, cmOn := true, rx := [(0, ⟨some ⟨300, 300, true, false, 0⟩, none⟩)] }]; s.dev.answers = true ∧ s.dev.rxRuns n.val p.val = true ∧ s.dev.preamble n.val p.val q = true ∧ (s.dev.rxPath n.val p.val).cur = some c ∧ v.toNat < c.strength + 4 * s.dev.num .mgtCaptureMargin n.val ∧ c.passed = false ∧ (s.dev.rxPath n.val p.val).standby = none) ∧
    (let n : Fin 4 := 3; let p : Fin 3 := 0; let q : List (BitVec 16 × BitVec 16) := List.replicate 8 (0xFFFF, 5); let v : BitVec 16 := 299; let c : Rx := ⟨300, 300, true, false, 0⟩; let b : Rx := ⟨290, 290, false, false, 0⟩; let s := up [.obj .feState 3 0 (.num 2), .fch 3 fun c => { c with slOn := true, cmOn := true, rx := [(0, ⟨some ⟨300, 300, true, false, 0⟩, some ⟨290, 290, false, false, 0⟩⟩)] }]; s.dev.answers = true ∧ s.dev.rxRuns n.val p.val = true ∧ s.dev.preamble n.val p.val q = true ∧ (s.dev.rxPath n.val p.val).cur = some c ∧ v.toNat < c.strength + 4 * s.dev.num .mgtCaptureMargin n.val ∧ c.passed = false ∧ (s.dev.rxPath n.val p.val).standby = some b ∧ v.toNat < b.strength + 4 * s.dev.num .mgtCaptureMargin n.val) ∧
    (let p : Fin 3 := 0; let i : BitVec 8 := 32; let b : BitVec 16 := 0xE4B6; let s := up [.obj .feState 3 0 (.num 2), .fch 3 fun c => { c with slOn := true, cmOn := true, rx := [(0, ⟨some ⟨300, 300, false, false, 0⟩, none⟩)] }]; s.dev.answers = true ∧ isDelimiter p.val i.toNat b.toNat = true) := by
  and_intros <;> decide +kernel

theorem meets_ManagementReception_2 :
    (let p : Fin 3 := 1; let i : BitVec 8 := 17; let b : BitVec 16 := 15; let s := up [.obj .feState 3 0 (.num 2), .fch 3 fun c => { c with slOn := true, cmOn := true, rx := [(1, ⟨some ⟨300, 300, false, false, 0⟩, none⟩)] }]; s.dev.answers = true ∧ isDelimiter p.val i.toNat b.toNat = false) ∧
    (let n : Fin 4 := 3; let p : Fin 3 := 1; let c : Rx := ⟨300, 300, false, false, 0⟩; let s := up [.obj .feState 3 0 (.num 2), .fch 3 fun c => { c with slOn := true, cmOn := true, rx := [(1, ⟨some ⟨300, 300, false, false, 0⟩, none⟩)] }]; s.dev.answers = true ∧ (s.dev.rxPath n.val p.val).cur = some c ∧ c.delim = false) ∧
    (let n : Fin 4 := 3; let p : Fin 3 := 0; let c : Rx := ⟨300, 300, true, false, 0⟩; let b : BitVec 48 := 7; let s := up [.obj .feState 3 0 (.num 2), .fch 3 fun c => { c with slOn := true, cmOn := true, rx := [(0, ⟨some ⟨300, 300, true, false, 0⟩, none⟩)] }]; s.dev.answers = true ∧ (s.dev.rxPath n.val p.val).cur = some c ∧ c.delim = true ∧ c.passed = false ∧ crc16 (beBytes 4 (b.toNat / 65536)) ≠ b.toNat % 65536) ∧
    (let n : Fin 4 := 3; let p : Fin 3 := 0; let c : Rx := ⟨300, 300, true, false, 0⟩; let b : BitVec 48 := BitVec.ofNat 48 (1073741824 * 65536 + crc16 (beBytes 4 1073741824)); let s := up [.obj .feState 3 0 (.num 2), .fch 3 fun c => { c with slOn := true, cmOn := true, rx := [(0, ⟨some ⟨300, 300, true, false, 0⟩, none⟩)] }]; s.dev.answers = true ∧ (s.dev.rxPath n.val p.val).cur = some c ∧ c.delim = true ∧ c.passed = false ∧ crc16 (beBytes 4 (b.toNat / 65536)) = b.toNat % 65536 ∧ (hdrVersion (b.toNat / 65536) ≠ 0 ∨ 1 < hdrType (b.toNat / 65536) ∨ 1024 < hdrLength (b.toNat / 65536) ∨
          (0x1000 ≤ hdrAddress (b.toNat / 65536) ∧ hdrAddress (b.toNat / 65536) ≤ 0xFFFD))) ∧
    (let n : Fin 4 := 3; let p : Fin 3 := 0; let c : Rx := ⟨300, 300, true, false, 0⟩; let b : BitVec 48 := BitVec.ofNat 48 (268435456 * 65536 + crc16 (beBytes 4 268435456)); let s := up [.obj .feState 3 0 (.num 2), .fch 3 fun c => { c with slOn := true, cmOn := true, rx := [(0, ⟨some ⟨300, 300, true, false, 0⟩, none⟩)] }]; s.dev.answers = true ∧ (s.dev.rxPath n.val p.val).cur = some c ∧ c.delim = true ∧ c.passed = false ∧ crc16 (beBytes 4 (b.toNat / 65536)) = b.toNat % 65536 ∧ (hdrVersion (b.toNat / 65536) ≠ 0 ∨ 1 < hdrType (b.toNat / 65536) ∨ 1024 < hdrLength (b.toNat / 65536) ∨
          (0x1000 ≤ hdrAddress (b.toNat / 65536) ∧ hdrAddress (b.toNat / 65536) ≤ 0xFFFD))) ∧
    (let n : Fin 4 := 3; let p : Fin 3 := 0; let c : Rx := ⟨300, 300, true, false, 0⟩; let b : BitVec 48 := BitVec.ofNat 48 (67174400 * 65536 + crc16 (beBytes 4 67174400)); let s := up [.obj .feState 3 0 (.num 2), .fch 3 fun c => { c with slOn := true, cmOn := true, rx := [(0, ⟨some ⟨300, 300, true, false, 0⟩, none⟩)] }]; s.dev.answers = true ∧ (s.dev.rxPath n.val p.val).cur = some c ∧ c.delim = true ∧ c.passed = false ∧ crc16 (beBytes 4 (b.toNat / 65536)) = b.toNat % 65536 ∧ (hdrVersion (b.toNat / 65536) ≠ 0 ∨ 1 < hdrType (b.toNat / 65536) ∨ 1024 < hdrLength (b.toNat / 65536) ∨
          (0x1000 ≤ hdrAddress (b.toNat / 65536) ∧ hdrAddress (b.toNat / 65536) ≤ 0xFFFD))) ∧
    (let n : Fin 4 := 3; let p : Fin 3 := 0; let c : Rx := ⟨300, 300, true, false, 0⟩; let b : BitVec 48 := BitVec.ofNat 48 (4096 * 65536 + crc16 (beBytes 4 4096)); let s := up [.obj .feState 3 0 (.num 2), .fch 3 fun c => { c with slOn := true, cmOn := true, rx := [(0, ⟨some ⟨300, 300, true, false, 0⟩, none⟩)] }]; s.dev.answers = true ∧ (s.dev.rxPath n.val p.val).cur = some c ∧ c.delim = true ∧ c.passed = false ∧ crc16 (beBytes 4 (b.toNat / 65536)) = b.toNat % 65536 ∧ (hdrVersion (b.toNat / 65536) ≠ 0 ∨ 1 < hdrType (b.toNat / 65536) ∨ 1024 < hdrLength (b.toNat / 65536) ∨
          (0x1000 ≤ hdrAddress (b.toNat / 65536) ∧ hdrAddress (b.toNat / 65536) ≤ 0xFFFD))) ∧
    (let n : Fin 4 := 3; let p : Fin 3 := 0; let c : Rx := ⟨300, 300, true, false, 0⟩; let b : BitVec 48 := BitVec.ofNat 48 (65533 * 65536 + crc16 (beBytes 4 65533)); let s := up [.obj .feState 3 0 (.num 2), .fch 3 fun c => { c with slOn := true, cmOn := true, rx := [(0, ⟨some ⟨300, 300, true, false, 0⟩, none⟩)] }]; s.dev.answers = true ∧ (s.dev.rxPath n.val p.val).cur = some c ∧ c.delim = true ∧ c.passed = false ∧ crc16 (beBytes 4 (b.toNat / 65536)) = b.toNat % 65536 ∧ (hdrVersion (b.toNat / 65536) ≠ 0 ∨ 1 < hdrType (b.toNat / 65536) ∨ 1024 < hdrLength (b.toNat / 65536) ∨
          (0x1000 ≤ hdrAddress (b.toNat / 65536) ∧ hdrAddress (b.toNat / 65536) ≤ 0xFFFD))) := by
  and_intros <;> decide +kernel

theorem meets_ManagementReception_3 :
    (let n : Fin 4 := 3; let p : Fin 3 := 0; let c : Rx := ⟨300, 300, true, false, 0⟩; let b : BitVec 48 := BitVec.ofNat 48 (5 * 65536 + crc16 (beBytes 4 5)); let s := up [.obj .feState 3 0 (.num 2), .fch 3 fun c => { c with slOn := true, cmOn := true, rx := [(0, ⟨some ⟨300, 300, true, false, 0⟩, none⟩)] }]; s.dev.answers = true ∧ (s.dev.rxPath n.val p.val).cur = some c ∧ c.delim = true ∧ c.passed = false ∧ crc16 (beBytes 4 (b.toNat / 65536)) = b.toNat % 65536 ∧ hdrReserved (b.toNat / 65536) = false ∧ hdrAddress (b.toNat / 65536) ≠ 0xFFFF ∧ hdrAddress (b.toNat / 65536) ≠ s.dev.num .actHandle n.val ∧
            (hdrAddress (b.toNat / 65536) = 0xFFFE → s.dev.num .actHandle n.val ≠ 0xFFFF)) ∧
    (let n : Fin 4 := 3; let p : Fin 3 := 0; let c : Rx := ⟨300, 300, true, false, 0⟩; let b : BitVec 48 := BitVec.ofNat 48 (67174399 * 65536 + crc16 (beBytes 4 67174399)); let s := up [.obj .feState 3 0 (.num 2), .fch 3 fun c => { c with slOn := true, cmOn := true, rx := [(0, ⟨some ⟨300, 300, true, false, 0⟩, none⟩)] }]; s.dev.answers = true ∧ (s.dev.rxPath n.val p.val).cur = some c ∧ c.delim = true ∧ c.passed = false ∧ crc16 (beBytes 4 (b.toNat / 65536)) = b.toNat % 65536 ∧ hdrReserved (b.toNat / 65536) = false ∧ (hdrAddress (b.toNat / 65536) = 0xFFFF ∨ hdrAddress (b.toNat / 65536) = s.dev.num .actHandle n.val ∨
            (hdrAddress (b.toNat / 65536) = 0xFFFE ∧ s.dev.num .actHandle n.val = 0xFFFF))) ∧
    (let n : Fin 4 := 3; let p : Fin 3 := 0; let c : Rx := ⟨300, 300, true, false, 0⟩; let b : BitVec 48 := BitVec.ofNat 48 (65534 * 65536 + crc16 (beBytes 4 65534)); let s := up [.obj .feState 3 0 (.num 2), .fch 3 fun c => { c with slOn := true, cmOn := true, rx := [(0, ⟨some ⟨300, 300, true, false, 0⟩, some ⟨1, 1, false, false, 0⟩⟩)] }]; s.dev.answers = true ∧ (s.dev.rxPath n.val p.val).cur = some c ∧ c.delim = true ∧ c.passed = false ∧ crc16 (beBytes 4 (b.toNat / 65536)) = b.toNat % 65536 ∧ hdrReserved (b.toNat / 65536) = false ∧ (hdrAddress (b.toNat / 65536) = 0xFFFF ∨ hdrAddress (b.toNat / 65536) = s.dev.num .actHandle n.val ∨
            (hdrAddress (b.toNat / 65536) = 0xFFFE ∧ s.dev.num .actHandle n.val = 0xFFFF))) ∧
    (let n : Fin 4 := 3; let p : Fin 3 := 0; let c : Rx := ⟨300, 300, true, false, 0⟩; let s := up [.obj .feState 3 0 (.num 2), .fch 3 fun c => { c with slOn := true, cmOn := true, rx := [(0, ⟨some ⟨300, 300, true, false, 0⟩, some ⟨1, 1, false, false, 0⟩⟩)] }]; s.dev.answers = true ∧ (s.dev.rxPath n.val p.val).cur = some c ∧ c.passed = false ∧ (s.dev.rxPath n.val p.val).standby.isSome = true) ∧
    (let n : Fin 4 := 3; let p : Fin 3 := 0; let c : Rx := ⟨300, 300, true, true, 262144⟩; let b : List Byte := [1, 2]; let s := up [.obj .feState 3 0 (.num 2), .fch 3 fun c => { c with slOn := true, cmOn := true, rx := [(0, ⟨some ⟨300, 300, true, true, 262144⟩, some ⟨1, 1, false, false, 0⟩⟩)] }]; s.dev.answers = true ∧ (s.dev.rxPath n.val p.val).cur = some c ∧ c.passed = true ∧ hdrLength c.hdr ≠ 0 ∧ (b.length ≠ hdrLength c.hdr + 4 ∨ crcFcs (b.take (hdrLength c.hdr)) ≠ beNat (b.drop (hdrLength c.hdr)))) ∧
    (let n : Fin 4 := 3; let p : Fin 3 := 0; let c : Rx := ⟨300, 300, true, true, 0⟩; let s := up [.obj .feState 3 0 (.num 2), .fch 3 fun c => { c with slOn := true, cmOn := true, rx := [(0, ⟨some ⟨300, 300, true, true, 0⟩, some ⟨1, 1, false, false, 0⟩⟩)] }]; s.dev.answers = true ∧ (s.dev.rxPath n.val p.val).cur = some c ∧ c.passed = true ∧ hdrLength c.hdr = 0) ∧
    (let n : Fin 4 := 3; let p : Fin 3 := 0; let c : Rx := ⟨300, 300, true, true, 262144⟩; let b : List Byte := [15, 0, 0, 0] ++ beBytes 4 (crcFcs [15, 0, 0, 0]); let s := up [.obj .feState 3 0 (.num 2), .fch 3 fun c => { c with slOn := true, cmOn := true, rx := [(0, ⟨some ⟨300, 300, true, true, 262144⟩, some ⟨1, 1, false, false, 0⟩⟩)] }]; s.dev.answers = true ∧ (s.dev.rxPath n.val p.val).cur = some c ∧ c.passed = true ∧ hdrLength c.hdr ≠ 0 ∧ b.length = hdrLength c.hdr + 4 ∧ crcFcs (b.take (hdrLength c.hdr)) = beNat (b.drop (hdrLength c.hdr)) ∧ ((hdrType c.hdr = 0 ∧ lemowKnown (b.take (hdrLength c.hdr)) = true) ∨ (hdrType c.hdr = 1 ∧ umaniFits 1024 (b.take (hdrLength c.hdr)) = true))) ∧
    (let n : Fin 4 := 3; let p : Fin 3 := 0; let c : Rx := ⟨300, 300, true, true, 135266304⟩; let b : List Byte := (zeros 16) ++ beBytes 4 (crcFcs (zeros 16)); let s := up [.obj .feState 3 0 (.num 2), .fch 3 fun c => { c with slOn := true, cmOn := true, rx := [(0, ⟨some ⟨300, 300, true, true, 135266304⟩, some ⟨1, 1, false, false, 0⟩⟩)] }]; s.dev.answers = true ∧ (s.dev.rxPath n.val p.val).cur = some c ∧ c.passed = true ∧ hdrLength c.hdr ≠ 0 ∧ b.length = hdrLength c.hdr + 4 ∧ crcFcs (b.take (hdrLength c.hdr)) = beNat (b.drop (hdrLength c.hdr)) ∧ ((hdrType c.hdr = 0 ∧ lemowKnown (b.take (hdrLength c.hdr)) = true) ∨ (hdrType c.hdr = 1 ∧ umaniFits 1024 (b.take (hdrLength c.hdr)) = true))) := by
  and_intros <;> decide +kernel

theorem meets_ManagementReception_4 :
    (let n : Fin 4 := 3; let p : Fin 3 := 0; let c : Rx := ⟨300, 300, true, true, 262144⟩; let b : List Byte := [16, 0, 0, 0] ++ beBytes 4 (crcFcs [16, 0, 0, 0]); let s := up [.obj .feState 3 0 (.num 2), .fch 3 fun c => { c with slOn := true, cmOn := true, rx := [(0, ⟨some ⟨300, 300, true, true, 262144⟩, some ⟨1, 1, false, false, 0⟩⟩)] }]; s.dev.answers = true ∧ (s.dev.rxPath n.val p.val).cur = some c ∧ c.passed = true ∧ hdrLength c.hdr ≠ 0 ∧ b.length = hdrLength c.hdr + 4 ∧ crcFcs (b.take (hdrLength c.hdr)) = beNat (b.drop (hdrLength c.hdr)) ∧ hdrType c.hdr = 0 ∧ lemowKnown (b.take (hdrLength c.hdr)) = false) := by
  and_intros <;> decide +kernel

theorem meets_ManagementTransmission :
    (let n : Fin 4 := 3; let w : Window := ⟨2, 0, 0, 10, 100, 1000, 5⟩; let p : TxPkt := ⟨true, 2, zeros 1025⟩; let rest : List Window := []; let q : List TxPkt := []; let s := up [.obj .actState 3 0 (.num 4), .obj .mgtTxPhy 3 0 (.num 0), .obj .feState 3 0 (.num 2), .obj .hvState 0 0 (.num 2), .obj .clkFchState 0 3 (.num 2), .fch 3 fun c => { c with windows := [w], txq := [p], laserAge := 100 }]; let phy := (if p.phy = 2 then s.dev.num .mgtTxPhy n.val else p.phy); let sf := (if phy = 1 then s.dev.num .mgtCmSfTx n.val else 0); s.dev.answers = true ∧
    s.dev.nextWindow n.val 2 = some (w, rest) ∧ (s.dev.ch n.val).txq = p :: q ∧
    (s.dev.num .actState n.val = 3 ∨ s.dev.num .actState n.val = 4) ∧ (s.dev.ch n.val).onAir = none ∧ phy = w.phy ∧ sf = w.sf ∧
    s.dev.num .actDozeState n.val ≠ 3 ∧ s.dev.tooLong n.val phy sf p.data.length = true) ∧
    (let n : Fin 4 := 3; let w : Window := ⟨2, 0, 0, 10, 100, 100000000, 5⟩; let p : TxPkt := ⟨true, 2, zeros 6⟩; let rest : List Window := []; let q : List TxPkt := []; let s := up [.obj .actState 3 0 (.num 4), .obj .mgtTxPhy 3 0 (.num 0), .obj .feState 3 0 (.num 2), .obj .hvState 0 0 (.num 2), .obj .clkFchState 0 3 (.num 2), .fch 3 fun c => { c with windows := [w], txq := [p], laserAge := 100 }]; let phy := (if p.phy = 2 then s.dev.num .mgtTxPhy n.val else p.phy); let sf := (if phy = 1 then s.dev.num .mgtCmSfTx n.val else 0); s.dev.answers = true ∧
    s.dev.nextWindow n.val 2 = some (w, rest) ∧ (s.dev.ch n.val).txq = p :: q ∧
    (s.dev.num .actState n.val = 3 ∨ s.dev.num .actState n.val = 4) ∧ (s.dev.ch n.val).onAir = none ∧ phy = w.phy ∧ sf = w.sf ∧
    s.dev.num .actDozeState n.val ≠ 3 ∧ s.dev.tooLong n.val phy sf p.data.length = false ∧ s.dev.laserReady n.val = true ∧ s.dev.txUnits n.val phy sf p.data.length ≤ w.dur ∧
      s.dev.hitsBurst n.val (upPos w.frame w.unit (s.dev.windowEqd n.val w)) (s.dev.txUnits n.val phy sf p.data.length) = false ∧
      p.dozeEnd = false ∧ (s.dev.ch n.val).ldPend = false) ∧
    (let n : Fin 4 := 3; let t := 51000; let s := up [.fch 3 fun c => { c with onAir := some 51000, burstOn := true }]; s.dev.answers = true ∧ (s.dev.ch n.val).onAir = some t) := by
  and_intros <;> decide +kernel

theorem meets_FramerAlignment :
    (let n : Fin 4 := 3; let s := up [.obj .feState 3 0 (.num 1), .obj .frmAlignState 3 0 (.num 0), .fch 3 fun c => { c with  dmt := { c.dmt with dec := [⟨true, frameHeader 0 40 0 0 0, [], []⟩] } }]; s.Inv ∧ s.dev.answers = true ∧ s.dev.num .feState n.val ≠ 2) ∧
    (let n : Fin 4 := 3; let x : FrmFrame := ⟨true, 40⟩; let s := up [.obj .feState 3 0 (.num 2), .obj .frmAlignState 3 0 (.num 0), .fch 3 fun c => { c with  dmt := { c.dmt with dec := [⟨true, frameHeader 0 40 0 0 0, [], []⟩] } }]; let f := s.dev.frameIn n.val x; s.Inv ∧ s.dev.answers = true ∧ s.dev.num .feState n.val = 2 ∧ s.dev.num .frmAlignState n.val ≠ 2 ∧ hdrBad f.hdr f.pay.length = false ∧ s.dev.num .frmAlignState n.val = 0 ∧ hdrValid f = true) ∧
    (let n : Fin 4 := 3; let x : FrmFrame := ⟨false, 40⟩; let s := up [.obj .feState 3 0 (.num 2), .obj .frmAlignState 3 0 (.num 0), .fch 3 fun c => { c with  dmt := { c.dmt with dec := [⟨true, frameHeader 0 40 0 0 0, [], []⟩] } }]; let f := s.dev.frameIn n.val x; s.Inv ∧ s.dev.answers = true ∧ s.dev.num .feState n.val = 2 ∧ s.dev.num .frmAlignState n.val ≠ 2 ∧ hdrBad f.hdr f.pay.length = false ∧ s.dev.num .frmAlignState n.val = 0 ∧ f.found = false) ∧
    (let n : Fin 4 := 3; let x : FrmFrame := ⟨true, 40⟩; let s := up [.obj .feState 3 0 (.num 2), .obj .frmAlignState 3 0 (.num 1), .fch 3 fun c => { c with expected := 40, presync := 3, dmt := { c.dmt with dec := [⟨true, frameHeader 0 40 0 0 0, [], []⟩] } }]; let f := s.dev.frameIn n.val x; s.Inv ∧ s.dev.answers = true ∧ s.dev.num .feState n.val = 2 ∧ s.dev.num .frmAlignState n.val ≠ 2 ∧ hdrBad f.hdr f.pay.length = false ∧ s.dev.num .frmAlignState n.val = 1 ∧ hdrValid f = true ∧ hdrFrame f.hdr = (s.dev.ch n.val).expected) ∧
    (let n : Fin 4 := 3; let x : FrmFrame := ⟨true, 40⟩; let s := up [.obj .feState 3 0 (.num 2), .obj .frmAlignState 3 0 (.num 1), .fch 3 fun c => { c with expected := 41, presync := 2, dmt := { c.dmt with dec := [⟨true, frameHeader 0 40 0 0 0, [], []⟩] } }]; let f := s.dev.frameIn n.val x; s.Inv ∧ s.dev.answers = true ∧ s.dev.num .feState n.val = 2 ∧ s.dev.num .frmAlignState n.val ≠ 2 ∧ hdrBad f.hdr f.pay.length = false ∧ s.dev.num .frmAlignState n.val = 1 ∧ hdrValid f = true ∧ hdrFrame f.hdr ≠ (s.dev.ch n.val).expected) ∧
    (let n : Fin 4 := 3; let x : FrmFrame := ⟨true, 40⟩; let s := up [.obj .feState 3 0 (.num 2), .obj .frmAlignState 3 0 (.num 1), .fch 3 fun c => { c with expected := 40, presync := 2, dmt := { c.dmt with dec := [⟨false, frameHeader 0 40 0 0 0, [], []⟩] } }]; let f := s.dev.frameIn n.val x; s.Inv ∧ s.dev.answers = true ∧ s.dev.num .feState n.val = 2 ∧ s.dev.num .frmAlignState n.val ≠ 2 ∧ hdrBad f.hdr f.pay.length = false ∧ s.dev.num .frmAlignState n.val = 1 ∧ f.found = true ∧ hdrValid f = false) ∧
    (let n : Fin 4 := 3; let x : FrmFrame := ⟨false, 40⟩; let s := up [.obj .feState 3 0 (.num 2), .obj .frmAlignState 3 0 (.num 2), .fch 3 fun c => { c with expected := 40, pm := { c.pm with started := true }, chains := [⟨5, 0, 1, 0, 9, 0, 0, [1], 0, false⟩], dmt := { c.dmt with dec := [⟨true, frameHeader 0 40 0 0 0, [], []⟩] } }]; let f := s.dev.frameIn n.val x; s.Inv ∧ s.dev.answers = true ∧ s.dev.num .feState n.val = 2 ∧ s.dev.num .frmAlignState n.val = 2 ∧ f.found = false ∧ (s.dev.ch n.val).pm.started = true) ∧
    (let n : Fin 4 := 3; let x : FrmFrame := ⟨true, 40⟩; let s := up [.obj .feState 3 0 (.num 2), .obj .frmAlignState 3 0 (.num 2), .fch 3 fun c => { c with expected := 40, walked := false, chains := [⟨5, 0, 1, 0, 9, 0, 0, [1], 0, false⟩], dmt := { c.dmt with dec := [⟨true, frameHeader 0 40 1 0 0, scrambled 40 (beBytes 8 77 ++ zeros 16), []⟩] } }]; let f := s.dev.frameIn n.val x; s.Inv ∧ s.dev.answers = true ∧ s.dev.num .feState n.val = 2 ∧ s.dev.num .frmAlignState n.val = 2 ∧ hdrValid f = true ∧ hdrFrame f.hdr = (s.dev.ch n.val).expected ∧
        (s.dev.lead n.val = n.val ∨ f.lead = hdrFrame f.hdr) ∧ hdrBad f.hdr f.pay.length = false ∧
        f.bad = [] ∧ hdrAis f.hdr = false ∧ f.pay ≠ [] ∧
        (s.dev.ch n.val).cut = none ∧ (s.dev.ch n.val).skipCont = false ∧ hdrEnc f.hdr ≠ 0xFFFF ∧ (let m := 8 * hdrMaps f.hdr; let g := m + hdrMgmt f.hdr; let len := hdrLength (beAt f.pay m 4);
        hdrMgmt f.hdr = 0 ∨ (len ≠ 0 ∧ hdrMgmt f.hdr = 8 + 8 * ceilDiv len 8 ∧ g ≤ f.pay.length ∧
          beAt f.pay (m + 4) 2 = crc16 (slice f.pay m 4) ∧ hdrReserved (beAt f.pay m 4) = false ∧ hdrType (beAt f.pay m 4) = 0 ∧
          s.dev.addressed n.val (hdrAddress (beAt f.pay m 4)) = true ∧ lemowKnown (slice f.pay (m + 8) len) = true))) := by
  simp only [inv_iff]
  and_intros <;> decide +kernel

theorem meets_FramerAlignment_2 :
    (let n : Fin 4 := 3; let x : FrmFrame := ⟨true, 40⟩; let s := up [.obj .feState 3 0 (.num 2), .obj .frmAlignState 3 0 (.num 2), .fch 3 fun c => { c with expected := 40, walked := true, chains := [⟨5, 0, 1, 0, 9, 0, 0, [1], 0, false⟩], dmt := { c.dmt with dec := [⟨true, frameHeader 0 40 1 16 8, scrambled 40 (beBytes 8 77 ++ mgmtRecord 0xFFFF [15, 0, 0, 0] ++ zeros 16), []⟩] } }]; let f := s.dev.frameIn n.val x; s.Inv ∧ s.dev.answers = true ∧ s.dev.num .feState n.val = 2 ∧ s.dev.num .frmAlignState n.val = 2 ∧ hdrValid f = true ∧ hdrFrame f.hdr = (s.dev.ch n.val).expected ∧
        (s.dev.lead n.val = n.val ∨ f.lead = hdrFrame f.hdr) ∧ hdrBad f.hdr f.pay.length = false ∧
        f.bad = [] ∧ hdrAis f.hdr = false ∧ f.pay ≠ [] ∧
        (s.dev.ch n.val).cut = none ∧ (s.dev.ch n.val).skipCont = false ∧ hdrEnc f.hdr ≠ 0xFFFF ∧ (let m := 8 * hdrMaps f.hdr; let g := m + hdrMgmt f.hdr; let len := hdrLength (beAt f.pay m 4);
        hdrMgmt f.hdr = 0 ∨ (len ≠ 0 ∧ hdrMgmt f.hdr = 8 + 8 * ceilDiv len 8 ∧ g ≤ f.pay.length ∧
          beAt f.pay (m + 4) 2 = crc16 (slice f.pay m 4) ∧ hdrReserved (beAt f.pay m 4) = false ∧ hdrType (beAt f.pay m 4) = 0 ∧
          s.dev.addressed n.val (hdrAddress (beAt f.pay m 4)) = true ∧ lemowKnown (slice f.pay (m + 8) len) = true))) ∧
    (let n : Fin 4 := 3; let x : FrmFrame := ⟨true, 40⟩; let s := up [.obj .feState 3 0 (.num 2), .obj .frmAlignState 3 0 (.num 2), .fch 3 fun c => { c with expected := 40, walked := true, chains := [⟨5, 0, 1, 0, 9, 0, 0, [1], 0, false⟩], dmt := { c.dmt with dec := [⟨true, frameHeader 0 40 0 0 0, scrambled 40 (zeros 16), []⟩] } }]; let f := s.dev.frameIn n.val x; s.Inv ∧ s.dev.answers = true ∧ s.dev.num .feState n.val = 2 ∧ s.dev.num .frmAlignState n.val = 2 ∧ hdrValid f = true ∧ hdrFrame f.hdr = (s.dev.ch n.val).expected ∧
        (s.dev.lead n.val = n.val ∨ f.lead = hdrFrame f.hdr) ∧ hdrBad f.hdr f.pay.length = false ∧
        f.bad = [] ∧ hdrAis f.hdr = false ∧ f.pay ≠ [] ∧
        (s.dev.ch n.val).cut = none ∧ (s.dev.ch n.val).skipCont = false ∧ hdrEnc f.hdr ≠ 0xFFFF ∧ (let m := 8 * hdrMaps f.hdr; let g := m + hdrMgmt f.hdr; let len := hdrLength (beAt f.pay m 4);
        hdrMgmt f.hdr = 0 ∨ (len ≠ 0 ∧ hdrMgmt f.hdr = 8 + 8 * ceilDiv len 8 ∧ g ≤ f.pay.length ∧
          beAt f.pay (m + 4) 2 = crc16 (slice f.pay m 4) ∧ hdrReserved (beAt f.pay m 4) = false ∧ hdrType (beAt f.pay m 4) = 0 ∧
          s.dev.addressed n.val (hdrAddress (beAt f.pay m 4)) = true ∧ lemowKnown (slice f.pay (m + 8) len) = true))) ∧
    (let n : Fin 4 := 3; let third : Nat := 2 ^ 51 - 1; let s := up [.obj .feState 3 0 (.num 2), .obj .frmAlignState 3 0 (.num 1), .obj .actState 3 0 (.num 5), .obj .clkFchState 0 3 (.num 2), .obj .frmFrame 3 0 (.num 3), .obj .frmDefects 3 0 (.num 2), .fch 3 fun c => { c with presync := 3, expected := 0, marks := true, refValid := true }]; s.Inv ∧ s.dev.answers = true ∧ s.dev.num .frmAlignState n.val = 1 ∧ (s.dev.ch n.val).presync = 3 ∧ (third + 1) % 2 ^ 51 = (s.dev.ch n.val).expected ∧ third < 2 ^ 51) ∧
    (let n : Fin 4 := 3; let s := up [.obj .frmAlignState 3 0 (.num 1), .fch 3 fun c => { c with presync := 2 }]; s.Inv ∧ s.dev.answers = true ∧ (s.dev.num .frmAlignState n.val ≠ 1 ∨ (s.dev.ch n.val).presync ≠ 3)) ∧
    (let n : Fin 4 := 3; let s := up [.obj .frmAlignState 3 0 (.num 2), .obj .actState 3 0 (.num 4), .fch 3 fun c => { c with failRun := 4, chains := [⟨5, 0, 1, 0, 9, 0, 0, [1], 0, false⟩] }]; s.Inv ∧ s.dev.answers = true ∧ s.dev.num .frmAlignState n.val = 2 ∧ 4 ≤ (s.dev.ch n.val).failRun) ∧
    (let n : Fin 4 := 3; let s := up [.obj .frmAlignState 3 0 (.num 2), .fch 3 fun c => { c with failRun := 3 }]; s.Inv ∧ s.dev.answers = true ∧ (s.dev.num .frmAlignState n.val ≠ 2 ∨ (s.dev.ch n.val).failRun < 4)) := by
  simp only [inv_iff]
  and_intros <;> decide +kernel

theorem meets_FramerDefects :
    (let n : Fin 4 := 3; let s := up [.obj .feEnable 3 0 (.num 1), .obj .frmDefects 3 0 (.num 14), .obj .dmtState 3 0 (.num 3), .obj .actState 3 0 (.num 4), .fch 3 fun c => { c with refValid := true }]; s.Inv ∧ s.dev.answers = true ∧ s.dev.num .feEnable n.val = 1) ∧
    (let n : Fin 4 := 3; let s := up []; s.Inv ∧ s.dev.answers = true ∧ s.dev.num .feEnable n.val ≠ 1) ∧
    (let n : Fin 4 := 3; let s := up []; s.Inv ∧ s.dev.answers = true ∧ s.dev.num .feState n.val = 0) ∧
    (let n : Fin 4 := 3; let s := up [.obj .feState 3 0 (.num 1), .obj .frmDefects 3 0 (.num 9)]; s.Inv ∧ s.dev.answers = true ∧ s.dev.num .feState n.val ≠ 0) ∧
    (let n : Fin 4 := 3; let s := up [.obj .feState 3 0 (.num 2), .obj .frmDefects 3 0 (.num 12), .obj .actState 3 0 (.num 4), .fch 3 fun c => { c with outFrames := 24 }]; s.Inv ∧ s.dev.answers = true ∧ s.dev.num .feState n.val = 2 ∧ s.dev.num .frmAlignState n.val ≠ 2 ∧ 24 ≤ (s.dev.ch n.val).outFrames ∧ s.dev.defect n.val 0 = false) ∧
    (let n : Fin 4 := 3; let s := up [.obj .frmAlignState 3 0 (.num 2)]; s.Inv ∧ s.dev.answers = true ∧ s.dev.num .frmAlignState n.val = 2) ∧
    (let n : Fin 4 := 3; let s := up [.fch 3 fun c => { c with aisRun := 3 }]; s.Inv ∧ s.dev.answers = true ∧ 3 ≤ (s.dev.ch n.val).aisRun ∧ s.dev.defect n.val 0 = false ∧ s.dev.defect n.val 1 = false ∧ s.dev.defect n.val 2 = false) ∧
    (let n : Fin 4 := 3; let s := up [.obj .frmDefects 3 0 (.num 1), .fch 3 fun c => { c with aisRun := 3 }]; s.Inv ∧ s.dev.answers = true ∧ (s.dev.defect n.val 0 = true ∨ s.dev.defect n.val 1 = true ∨ (s.dev.ch n.val).aisRun < 3)) := by
  simp only [inv_iff]
  and_intros <;> decide +kernel

theorem meets_FramerDefects_2 :
    (let n : Fin 4 := 3; let s := up [.obj .frmDefects 3 0 (.num 4), .fch 3 fun c => { c with okRun := 3 }]; s.Inv ∧ s.dev.answers = true ∧ 3 ≤ (s.dev.ch n.val).okRun ∧ s.dev.defect n.val 2 = true) ∧
    (let n : Fin 4 := 3; let s := up [.obj .frmDefects 3 0 (.num 2), .fch 3 fun c => { c with fecCount := 5 }]; s.Inv ∧ s.dev.answers = true ∧ (s.dev.defect n.val 0 = true ∨ s.dev.defect n.val 1 = true)) ∧
    (let n : Fin 4 := 3; let s := up [.fch 3 fun c => { c with fecCount := 100000 }]; s.Inv ∧ s.dev.answers = true ∧ s.dev.defect n.val 0 = false ∧ s.dev.defect n.val 1 = false ∧ s.dev.num .frmFecDegThreshold n.val ≤ (s.dev.ch n.val).fecCount) ∧
    (let n : Fin 4 := 3; let s := up [.obj .frmDefects 3 0 (.num 8), .fch 3 fun c => { c with fecClear := 8 }]; s.Inv ∧ s.dev.answers = true ∧ s.dev.defect n.val 0 = false ∧ s.dev.defect n.val 1 = false ∧ (s.dev.ch n.val).fecCount < s.dev.num .frmFecDegThreshold n.val) ∧
    (let n : Fin 4 := 3; let s := up [.obj .frmDefects 3 0 (.num 8), .fch 3 fun c => { c with fecClear := 9 }]; s.Inv ∧ s.dev.answers = true ∧ s.dev.defect n.val 0 = false ∧ s.dev.defect n.val 1 = false ∧ (s.dev.ch n.val).fecCount < s.dev.num .frmFecDegThreshold n.val) := by
  simp only [inv_iff]
  and_intros <;> decide +kernel

theorem meets_EncapsulationWalk :
    (let n : Fin 4 := 3; let s := up []; s.Inv ∧ s.dev.answers = true ∧ (s.dev.ch n.val).area = []) ∧
    (let n : Fin 4 := 3; let s := up [.fch 3 fun c => { c with chains := [⟨5, 0, 1, 0, 9, 0, 0, [1], 0, false⟩], areaAt := 24, area := zeros 16 ++ encHeader 5 1 true 0 1 ++ zeros 8 ++ encHeader 0 0 false 0 0 }]; let a := (s.dev.ch n.val).area; s.Inv ∧ s.dev.answers = true ∧ a ≠ [] ∧ encOk a = false) ∧
    (let n : Fin 4 := 3; let s := up [.fch 3 fun c => { c with  areaAt := 24, area := encHeader 5 0 true 0 1 ++ zeros 8 }]; let a := (s.dev.ch n.val).area; let h := beAt a 0 8; s.Inv ∧ s.dev.answers = true ∧ a ≠ [] ∧ encOk a = true ∧ (encLength h = 0 ∨ (encStream h = 0xFFFFF ∧ 8 + 8 * ceilDiv (encLength h) 8 ≤ a.length))) ∧
    (let n : Fin 4 := 3; let s := up [.fch 3 fun c => { c with  areaAt := 24, area := encHeader 0xFFFFF 9 true 0 1 ++ zeros 16 }]; let a := (s.dev.ch n.val).area; let h := beAt a 0 8; s.Inv ∧ s.dev.answers = true ∧ a ≠ [] ∧ encOk a = true ∧ (encLength h = 0 ∨ (encStream h = 0xFFFFF ∧ 8 + 8 * ceilDiv (encLength h) 8 ≤ a.length))) ∧
    (let n : Fin 4 := 3; let s := up [.fch 3 fun c => { c with chains := [⟨5, 0, 1, 0, 9, 0, 0, [1], 0, false⟩], areaAt := 24, area := encHeader 5 9 true 0 1 ++ zeros 8 }]; let a := (s.dev.ch n.val).area; let h := beAt a 0 8; s.Inv ∧ s.dev.answers = true ∧ a ≠ [] ∧ encOk a = true ∧ encLength h ≠ 0 ∧ a.length < 8 + 8 * ceilDiv (encLength h) 8 ∧ encLast h = true) ∧
    (let n : Fin 4 := 3; let s := up [.fch 3 fun c => { c with areaBad := [0], chains := List.replicate 255 ⟨5, 0, 1, 0, 9, 0, 0, [1], 0, false⟩, areaAt := 24, area := encHeader 6 9 false 3 1 ++ zeros 24 }]; let a := (s.dev.ch n.val).area; let h := beAt a 0 8; s.Inv ∧ s.dev.answers = true ∧ a ≠ [] ∧ encOk a = true ∧ encLength h ≠ 0 ∧ encStream h ≠ 0xFFFFF ∧ encLast h = false ∧ (∀ y ∈ (s.dev.ch n.val).chains, y.stream ≠ encStream h) ∧ (s.dev.ch n.val).chains.length < 256) ∧
    (let n : Fin 4 := 3; let s := up [.fch 3 fun c => { c with areaBad := [0], chains := List.replicate 256 ⟨5, 0, 1, 0, 9, 0, 0, [1], 0, false⟩, areaAt := 24, area := encHeader 6 9 false 3 1 ++ zeros 8 }]; let a := (s.dev.ch n.val).area; let h := beAt a 0 8; s.Inv ∧ s.dev.answers = true ∧ a ≠ [] ∧ encOk a = true ∧ encLength h ≠ 0 ∧ encStream h ≠ 0xFFFFF ∧ encLast h = false ∧ (∀ y ∈ (s.dev.ch n.val).chains, y.stream ≠ encStream h) ∧ 256 ≤ (s.dev.ch n.val).chains.length) ∧
    (let n : Fin 4 := 3; let y : Chain := ⟨5, 0, 1, 0, 9, 0, 0, [1], 0, false⟩; let s := up [.fch 3 fun c => { c with areaBad := [0], chains := [⟨5, 0, 1, 0, 9, 0, 0, [1], 0, false⟩], areaAt := 24, area := encHeader 5 9 false 0 1 ++ zeros 8 }]; let a := (s.dev.ch n.val).area; let h := beAt a 0 8; s.Inv ∧ s.dev.answers = true ∧ a ≠ [] ∧ encOk a = true ∧ encLength h ≠ 0 ∧ encStream h ≠ 0xFFFFF ∧ encLast h = false ∧ (s.dev.ch n.val).chains.find? (fun y => y.stream = encStream h) = some y ∧ y.key = encKey h ∧ y.label = encLabel h ∧ y.data.length + ((a.drop 8).take (encLength h)).length ≤ 16383) := by
  simp only [inv_iff]
  and_intros <;> decide +kernel

theorem meets_EncapsulationWalk_2 :
    (let n : Fin 4 := 3; let y : Chain := ⟨5, 0, 1, 0, 9, 0, 0, [1], 0, false⟩; let s := up [.fch 3 fun c => { c with areaBad := [0], chains := [⟨5, 0, 1, 0, 9, 0, 0, [1], 0, false⟩], areaAt := 24, area := encHeader 5 9 false 0 2 ++ zeros 8 }]; let a := (s.dev.ch n.val).area; let h := beAt a 0 8; s.Inv ∧ s.dev.answers = true ∧ a ≠ [] ∧ encOk a = true ∧ encLength h ≠ 0 ∧ encStream h ≠ 0xFFFFF ∧ encLast h = false ∧ (s.dev.ch n.val).chains.find? (fun y => y.stream = encStream h) = some y ∧ (y.key ≠ encKey h ∨ y.label ≠ encLabel h ∨ 16383 < y.data.length + ((a.drop 8).take (encLength h)).length)) ∧
    (let s := up [.fch 3 fun c => { c with chains := [⟨5, 0, 1, 0, 9, 0, 0, [1], 0, false⟩, ⟨6, 0, 1, 0, 9, 0, 0, [1], 8, false⟩] }]; s.Inv ∧ s.dev.answers = true) := by
  simp only [inv_iff]
  and_intros <;> decide +kernel

theorem meets_DownstreamPackets :
    (let n : Fin 4 := 3; let data : List Byte := zeros 14; let s := up [.fch 3 fun c => { c with areaBad := [], areaFrame := 9, areaCfg := 3, areaTbl := 1, area := encHeader 5 data.length true 0 1 ++ data ++ zeros (8 * ceilDiv data.length 8 - data.length) }]; let a := (s.dev.ch n.val).area; let h := beAt a 0 8; let body : Option Nat := (if encStream h = 0 then none else s.dev.streamBody (s.dev.lead n.val) (encStream h)); s.Inv ∧ s.dev.answers = true ∧
    encOk a = true ∧ encLength h ≠ 0 ∧ encStream h ≠ 0xFFFFF ∧ encLast h = true ∧ 8 + 8 * ceilDiv (encLength h) 8 ≤ a.length ∧
    (∀ y ∈ (s.dev.ch n.val).chains, y.stream ≠ encStream h) ∧ data = slice a 8 (encLength h) ∧ encStream h ≠ 0 ∧ body = none) ∧
    (let n : Fin 4 := 3; let data : List Byte := zeros 14; let s := up [.fch 3 fun c => { c with areaBad := [], areaFrame := 9, areaCfg := 3, areaTbl := 1, area := encHeader 0 data.length true 0 1 ++ data ++ zeros (8 * ceilDiv data.length 8 - data.length) }]; let a := (s.dev.ch n.val).area; let h := beAt a 0 8; let body : Option Nat := (if encStream h = 0 then none else s.dev.streamBody (s.dev.lead n.val) (encStream h)); s.Inv ∧ s.dev.answers = true ∧
    encOk a = true ∧ encLength h ≠ 0 ∧ encStream h ≠ 0xFFFFF ∧ encLast h = true ∧ 8 + 8 * ceilDiv (encLength h) 8 ≤ a.length ∧
    (∀ y ∈ (s.dev.ch n.val).chains, y.stream ≠ encStream h) ∧ data = slice a 8 (encLength h) ∧ (encStream h = 0 ∨ body ≠ none) ∧ labelOk body (encLabel h) = false) ∧
    (let n : Fin 4 := 3; let data : List Byte := zeros 14; let s := up [.tbl (tblKey 6 0) (beBytes 8 ((3 * 2 ^ 20 + 5) * 2 ^ 40) ++ beBytes 8 (2 ^ 56)), .fch 3 fun c => { c with areaBad := [0], areaFrame := 9, areaCfg := 3, areaTbl := 1, area := encHeader 5 data.length true 0 1 ++ data ++ zeros (8 * ceilDiv data.length 8 - data.length) }]; let a := (s.dev.ch n.val).area; let h := beAt a 0 8; let bad := hitsBad (s.dev.ch n.val).areaBad ((s.dev.ch n.val).areaAt + 8) (encLength h); let body : Option Nat := (if encStream h = 0 then none else s.dev.streamBody (s.dev.lead n.val) (encStream h)); s.Inv ∧ s.dev.answers = true ∧
    encOk a = true ∧ encLength h ≠ 0 ∧ encStream h ≠ 0xFFFFF ∧ encLast h = true ∧ 8 + 8 * ceilDiv (encLength h) 8 ≤ a.length ∧
    (∀ y ∈ (s.dev.ch n.val).chains, y.stream ≠ encStream h) ∧ data = slice a 8 (encLength h) ∧ (encStream h = 0 ∨ body ≠ none) ∧ labelOk body (encLabel h) = true ∧ bad = true ∧ encLabel h ≠ 4) ∧
    (let n : Fin 4 := 3; let data : List Byte := zeros 14; let s := up [.tbl (tblKey 6 0) (beBytes 8 ((3 * 2 ^ 20 + 5) * 2 ^ 40) ++ beBytes 8 (2 ^ 63 + 2 ^ 56)), .fch 3 fun c => { c with areaBad := [], areaFrame := 9, areaCfg := 3, areaTbl := 1, area := encHeader 5 data.length true 0 1 ++ data ++ zeros (8 * ceilDiv data.length 8 - data.length) }]; let a := (s.dev.ch n.val).area; let h := beAt a 0 8; let bad := hitsBad (s.dev.ch n.val).areaBad ((s.dev.ch n.val).areaAt + 8) (encLength h); let body : Option Nat := (if encStream h = 0 then none else s.dev.streamBody (s.dev.lead n.val) (encStream h)); s.Inv ∧ s.dev.answers = true ∧
    encOk a = true ∧ encLength h ≠ 0 ∧ encStream h ≠ 0xFFFFF ∧ encLast h = true ∧ 8 + 8 * ceilDiv (encLength h) 8 ≤ a.length ∧
    (∀ y ∈ (s.dev.ch n.val).chains, y.stream ≠ encStream h) ∧ data = slice a 8 (encLength h) ∧ (encStream h = 0 ∨ body ≠ none) ∧ labelOk body (encLabel h) = true ∧ bad = false ∧ encKey h = 0 ∧ body = some (2 ^ 63 + 2 ^ 56) ∧ bitOf (2 ^ 63 + 2 ^ 56) 63 = true) ∧
    (let n : Fin 4 := 3; let data : List Byte := zeros 14; let s := up [.tbl (tblKey 6 0) (beBytes 8 ((3 * 2 ^ 20 + 5) * 2 ^ 40) ++ beBytes 8 (2 ^ 56)), .fch 3 fun c => { c with areaBad := [], areaFrame := 9, areaCfg := 3, areaTbl := 1, area := encHeader 5 data.length true 31 1 ++ data ++ zeros (8 * ceilDiv data.length 8 - data.length) }]; let a := (s.dev.ch n.val).area; let h := beAt a 0 8; let bad := hitsBad (s.dev.ch n.val).areaBad ((s.dev.ch n.val).areaAt + 8) (encLength h); let body : Option Nat := (if encStream h = 0 then none else s.dev.streamBody (s.dev.lead n.val) (encStream h)); s.Inv ∧ s.dev.answers = true ∧
    encOk a = true ∧ encLength h ≠ 0 ∧ encStream h ≠ 0xFFFFF ∧ encLast h = true ∧ 8 + 8 * ceilDiv (encLength h) 8 ≤ a.length ∧
    (∀ y ∈ (s.dev.ch n.val).chains, y.stream ≠ encStream h) ∧ data = slice a 8 (encLength h) ∧ (encStream h = 0 ∨ body ≠ none) ∧ labelOk body (encLabel h) = true ∧ bad = false ∧ encKey h ≠ 0 ∧ (data.length < 16 ∨ s.dev.ctxState (s.dev.lead n.val) 0 (encKey h) ≠ 1)) ∧
    (let n : Fin 4 := 3; let data : List Byte := zeros 14; let s := up [.tbl (tblKey 6 0) (beBytes 8 ((3 * 2 ^ 20 + 5) * 2 ^ 40) ++ beBytes 8 (63 * 2 ^ 56)), .fch 3 fun c => { c with areaBad := [], areaFrame := 9, areaCfg := 3, areaTbl := 1, area := encHeader 5 data.length true 0 1 ++ data ++ zeros (8 * ceilDiv data.length 8 - data.length) }]; let a := (s.dev.ch n.val).area; let h := beAt a 0 8; let bad := hitsBad (s.dev.ch n.val).areaBad ((s.dev.ch n.val).areaAt + 8) (encLength h); let body : Option Nat := (if encStream h = 0 then none else s.dev.streamBody (s.dev.lead n.val) (encStream h)); s.Inv ∧ s.dev.answers = true ∧
    encOk a = true ∧ encLength h ≠ 0 ∧ encStream h ≠ 0xFFFFF ∧ encLast h = true ∧ 8 + 8 * ceilDiv (encLength h) 8 ≤ a.length ∧
    (∀ y ∈ (s.dev.ch n.val).chains, y.stream ≠ encStream h) ∧ data = slice a 8 (encLength h) ∧ (encStream h = 0 ∨ body ≠ none) ∧ labelOk body (encLabel h) = true ∧ bad = false ∧ encKey h = 0 ∧ (body.all fun w => !bitOf w 63 && !bitOf w 62) = true ∧ encLabel h = 1 ∧ 14 ≤ data.length) ∧
    (let n : Fin 4 := 3; let data : List Byte := zeros 13; let s := up [.tbl (tblKey 6 0) (beBytes 8 ((3 * 2 ^ 20 + 5) * 2 ^ 40) ++ beBytes 8 (63 * 2 ^ 56)), .fch 3 fun c => { c with areaBad := [], areaFrame := 9, areaCfg := 3, areaTbl := 1, area := encHeader 5 data.length true 0 1 ++ data ++ zeros (8 * ceilDiv data.length 8 - data.length) }]; let a := (s.dev.ch n.val).area; let h := beAt a 0 8; let bad := hitsBad (s.dev.ch n.val).areaBad ((s.dev.ch n.val).areaAt + 8) (encLength h); let body : Option Nat := (if encStream h = 0 then none else s.dev.streamBody (s.dev.lead n.val) (encStream h)); s.Inv ∧ s.dev.answers = true ∧
    encOk a = true ∧ encLength h ≠ 0 ∧ encStream h ≠ 0xFFFFF ∧ encLast h = true ∧ 8 + 8 * ceilDiv (encLength h) 8 ≤ a.length ∧
    (∀ y ∈ (s.dev.ch n.val).chains, y.stream ≠ encStream h) ∧ data = slice a 8 (encLength h) ∧ (encStream h = 0 ∨ body ≠ none) ∧ labelOk body (encLabel h) = true ∧ bad = false ∧ encKey h = 0 ∧ (body.all fun w => !bitOf w 63 && !bitOf w 62) = true ∧ encLabel h = 1 ∧ data.length < 14) ∧
    (let n : Fin 4 := 3; let data : List Byte := zeros 14 ++ leBytes 4 (crcFcs (zeros 14)); let s := up [.tbl (tblKey 6 0) (beBytes 8 ((3 * 2 ^ 20 + 5) * 2 ^ 40) ++ beBytes 8 (63 * 2 ^ 56)), .fch 3 fun c => { c with areaBad := [], areaFrame := 9, areaCfg := 3, areaTbl := 1, area := encHeader 5 data.length true 0 2 ++ data ++ zeros (8 * ceilDiv data.length 8 - data.length) }]; let a := (s.dev.ch n.val).area; let h := beAt a 0 8; let bad := hitsBad (s.dev.ch n.val).areaBad ((s.dev.ch n.val).areaAt + 8) (encLength h); let body : Option Nat := (if encStream h = 0 then none else s.dev.streamBody (s.dev.lead n.val) (encStream h)); s.Inv ∧ s.dev.answers = true ∧
    encOk a = true ∧ encLength h ≠ 0 ∧ encStream h ≠ 0xFFFFF ∧ encLast h = true ∧ 8 + 8 * ceilDiv (encLength h) 8 ≤ a.length ∧
    (∀ y ∈ (s.dev.ch n.val).chains, y.stream ≠ encStream h) ∧ data = slice a 8 (encLength h) ∧ (encStream h = 0 ∨ body ≠ none) ∧ labelOk body (encLabel h) = true ∧ bad = false ∧ encKey h = 0 ∧ (body.all fun w => !bitOf w 63 && !bitOf w 62) = true ∧ encLabel h = 2 ∧ 18 ≤ data.length ∧ leNat (data.drop (data.length - 4)) = crcFcs (data.take (data.length - 4))) := by
  simp only [inv_iff]
  and_intros <;> decide +kernel

theorem meets_DownstreamPackets_2 :
    (let n : Fin 4 := 3; let data : List Byte := zeros 18; let s := up [.tbl (tblKey 6 0) (beBytes 8 ((3 * 2 ^ 20 + 5) * 2 ^ 40) ++ beBytes 8 (63 * 2 ^ 56)), .fch 3 fun c => { c with areaBad := [], areaFrame := 9, areaCfg := 3, areaTbl := 1, area := encHeader 5 data.length true 0 2 ++ data ++ zeros (8 * ceilDiv data.length 8 - data.length) }]; let a := (s.dev.ch n.val).area; let h := beAt a 0 8; let bad := hitsBad (s.dev.ch n.val).areaBad ((s.dev.ch n.val).areaAt + 8) (encLength h); let body : Option Nat := (if encStream h = 0 then none else s.dev.streamBody (s.dev.lead n.val) (encStream h)); s.Inv ∧ s.dev.answers = true ∧
    encOk a = true ∧ encLength h ≠ 0 ∧ encStream h ≠ 0xFFFFF ∧ encLast h = true ∧ 8 + 8 * ceilDiv (encLength h) 8 ≤ a.length ∧
    (∀ y ∈ (s.dev.ch n.val).chains, y.stream ≠ encStream h) ∧ data = slice a 8 (encLength h) ∧ (encStream h = 0 ∨ body ≠ none) ∧ labelOk body (encLabel h) = true ∧ bad = false ∧ encKey h = 0 ∧ (body.all fun w => !bitOf w 63 && !bitOf w 62) = true ∧ encLabel h = 2 ∧ 18 ≤ data.length ∧ leNat (data.drop (data.length - 4)) ≠ crcFcs (data.take (data.length - 4))) ∧
    (let n : Fin 4 := 3; let data : List Byte := [9]; let s := up [.tbl (tblKey 6 0) (beBytes 8 ((3 * 2 ^ 20 + 5) * 2 ^ 40) ++ beBytes 8 (63 * 2 ^ 56)), .fch 3 fun c => { c with areaBad := [], areaFrame := 9, areaCfg := 3, areaTbl := 1, area := encHeader 5 data.length true 0 4 ++ data ++ zeros (8 * ceilDiv data.length 8 - data.length) }]; let a := (s.dev.ch n.val).area; let h := beAt a 0 8; let bad := hitsBad (s.dev.ch n.val).areaBad ((s.dev.ch n.val).areaAt + 8) (encLength h); let body : Option Nat := (if encStream h = 0 then none else s.dev.streamBody (s.dev.lead n.val) (encStream h)); s.Inv ∧ s.dev.answers = true ∧
    encOk a = true ∧ encLength h ≠ 0 ∧ encStream h ≠ 0xFFFFF ∧ encLast h = true ∧ 8 + 8 * ceilDiv (encLength h) 8 ≤ a.length ∧
    (∀ y ∈ (s.dev.ch n.val).chains, y.stream ≠ encStream h) ∧ data = slice a 8 (encLength h) ∧ (encStream h = 0 ∨ body ≠ none) ∧ labelOk body (encLabel h) = true ∧ bad = false ∧ encKey h = 0 ∧ (body.all fun w => !bitOf w 63 && !bitOf w 62) = true ∧ encLabel h = 4) ∧
    (let n : Fin 4 := 3; let data : List Byte := [9]; let s := up [.fch 3 fun c => { c with areaBad := [], areaFrame := 9, areaCfg := 3, areaTbl := 1, area := encHeader 0 data.length true 0 5 ++ data ++ zeros (8 * ceilDiv data.length 8 - data.length) }]; let a := (s.dev.ch n.val).area; let h := beAt a 0 8; let bad := hitsBad (s.dev.ch n.val).areaBad ((s.dev.ch n.val).areaAt + 8) (encLength h); let body : Option Nat := (if encStream h = 0 then none else s.dev.streamBody (s.dev.lead n.val) (encStream h)); s.Inv ∧ s.dev.answers = true ∧
    encOk a = true ∧ encLength h ≠ 0 ∧ encStream h ≠ 0xFFFFF ∧ encLast h = true ∧ 8 + 8 * ceilDiv (encLength h) 8 ≤ a.length ∧
    (∀ y ∈ (s.dev.ch n.val).chains, y.stream ≠ encStream h) ∧ data = slice a 8 (encLength h) ∧ (encStream h = 0 ∨ body ≠ none) ∧ labelOk body (encLabel h) = true ∧ bad = false ∧ encKey h = 0 ∧ (body.all fun w => !bitOf w 63 && !bitOf w 62) = true ∧ (encLabel h = 5 ∨ (encLabel h = 3 ∧ umaniFits 4096 data = true)) ∧ s.dev.ingressCells 116 + ceilDiv data.length 256 ≤ s.dev.ingressShare 116) ∧
    (let n : Fin 4 := 3; let data : List Byte := zeros 16; let s := up [.tbl (tblKey 6 0) (beBytes 8 ((3 * 2 ^ 20 + 5) * 2 ^ 40) ++ beBytes 8 (63 * 2 ^ 56)), .fch 3 fun c => { c with areaBad := [], areaFrame := 9, areaCfg := 3, areaTbl := 1, area := encHeader 5 data.length true 0 3 ++ data ++ zeros (8 * ceilDiv data.length 8 - data.length) }]; let a := (s.dev.ch n.val).area; let h := beAt a 0 8; let bad := hitsBad (s.dev.ch n.val).areaBad ((s.dev.ch n.val).areaAt + 8) (encLength h); let body : Option Nat := (if encStream h = 0 then none else s.dev.streamBody (s.dev.lead n.val) (encStream h)); s.Inv ∧ s.dev.answers = true ∧
    encOk a = true ∧ encLength h ≠ 0 ∧ encStream h ≠ 0xFFFFF ∧ encLast h = true ∧ 8 + 8 * ceilDiv (encLength h) 8 ≤ a.length ∧
    (∀ y ∈ (s.dev.ch n.val).chains, y.stream ≠ encStream h) ∧ data = slice a 8 (encLength h) ∧ (encStream h = 0 ∨ body ≠ none) ∧ labelOk body (encLabel h) = true ∧ bad = false ∧ encKey h = 0 ∧ (body.all fun w => !bitOf w 63 && !bitOf w 62) = true ∧ (encLabel h = 5 ∨ (encLabel h = 3 ∧ umaniFits 4096 data = true)) ∧ s.dev.ingressCells 116 + ceilDiv data.length 256 ≤ s.dev.ingressShare 116) ∧
    (let n : Fin 4 := 3; let data : List Byte := [9]; let s := up [.obj .tmIresControl 0 0 (.num 0), .fch 3 fun c => { c with areaBad := [], areaFrame := 9, areaCfg := 3, areaTbl := 1, area := encHeader 0 data.length true 0 5 ++ data ++ zeros (8 * ceilDiv data.length 8 - data.length) }]; let a := (s.dev.ch n.val).area; let h := beAt a 0 8; let bad := hitsBad (s.dev.ch n.val).areaBad ((s.dev.ch n.val).areaAt + 8) (encLength h); let body : Option Nat := (if encStream h = 0 then none else s.dev.streamBody (s.dev.lead n.val) (encStream h)); s.Inv ∧ s.dev.answers = true ∧
    encOk a = true ∧ encLength h ≠ 0 ∧ encStream h ≠ 0xFFFFF ∧ encLast h = true ∧ 8 + 8 * ceilDiv (encLength h) 8 ≤ a.length ∧
    (∀ y ∈ (s.dev.ch n.val).chains, y.stream ≠ encStream h) ∧ data = slice a 8 (encLength h) ∧ (encStream h = 0 ∨ body ≠ none) ∧ labelOk body (encLabel h) = true ∧ bad = false ∧ encKey h = 0 ∧ (body.all fun w => !bitOf w 63 && !bitOf w 62) = true ∧ (encLabel h = 5 ∨ (encLabel h = 3 ∧ umaniFits 4096 data = true)) ∧ s.dev.ingressShare 116 < s.dev.ingressCells 116 + ceilDiv data.length 256) ∧
    (let n : Fin 4 := 3; let data : List Byte := [0x60]; let s := up [.tbl (tblKey 6 0) (beBytes 8 ((3 * 2 ^ 20 + 5) * 2 ^ 40) ++ beBytes 8 (63 * 2 ^ 56)), .fch 3 fun c => { c with areaBad := [], areaFrame := 9, areaCfg := 3, areaTbl := 1, area := encHeader 5 data.length true 0 6 ++ data ++ zeros (8 * ceilDiv data.length 8 - data.length) }]; let a := (s.dev.ch n.val).area; let h := beAt a 0 8; let bad := hitsBad (s.dev.ch n.val).areaBad ((s.dev.ch n.val).areaAt + 8) (encLength h); let body : Option Nat := (if encStream h = 0 then none else s.dev.streamBody (s.dev.lead n.val) (encStream h)); s.Inv ∧ s.dev.answers = true ∧
    encOk a = true ∧ encLength h ≠ 0 ∧ encStream h ≠ 0xFFFFF ∧ encLast h = true ∧ 8 + 8 * ceilDiv (encLength h) 8 ≤ a.length ∧
    (∀ y ∈ (s.dev.ch n.val).chains, y.stream ≠ encStream h) ∧ data = slice a 8 (encLength h) ∧ (encStream h = 0 ∨ body ≠ none) ∧ labelOk body (encLabel h) = true ∧ bad = false ∧ encKey h = 0 ∧ (body.all fun w => !bitOf w 63 && !bitOf w 62) = true ∧ encLabel h = 6 ∧ (beAt data 0 1 / 16 = 4 ∨ beAt data 0 1 / 16 = 6)) ∧
    (let n : Fin 4 := 3; let data : List Byte := [9]; let s := up [.tbl (tblKey 6 0) (beBytes 8 ((3 * 2 ^ 20 + 5) * 2 ^ 40) ++ beBytes 8 (63 * 2 ^ 56)), .fch 3 fun c => { c with areaBad := [], areaFrame := 9, areaCfg := 3, areaTbl := 1, area := encHeader 5 data.length true 0 254 ++ data ++ zeros (8 * ceilDiv data.length 8 - data.length) }]; let a := (s.dev.ch n.val).area; let h := beAt a 0 8; let bad := hitsBad (s.dev.ch n.val).areaBad ((s.dev.ch n.val).areaAt + 8) (encLength h); let body : Option Nat := (if encStream h = 0 then none else s.dev.streamBody (s.dev.lead n.val) (encStream h)); s.Inv ∧ s.dev.answers = true ∧
    encOk a = true ∧ encLength h ≠ 0 ∧ encStream h ≠ 0xFFFFF ∧ encLast h = true ∧ 8 + 8 * ceilDiv (encLength h) 8 ≤ a.length ∧
    (∀ y ∈ (s.dev.ch n.val).chains, y.stream ≠ encStream h) ∧ data = slice a 8 (encLength h) ∧ (encStream h = 0 ∨ body ≠ none) ∧ labelOk body (encLabel h) = true ∧ bad = false ∧ encKey h = 0 ∧ (body.all fun w => !bitOf w 63 && !bitOf w 62) = true ∧ encLabel h = 0xFE) ∧
    (let n : Fin 4 := 3; let data : List Byte := zeros 16; let s := up [.tbl (tblKey 6 0) (beBytes 8 ((3 * 2 ^ 20 + 5) * 2 ^ 40) ++ beBytes 8 (2 ^ 56)), .obj .ciphFchDsState 3 0 (.oct (List.replicate 32 1)), .fch 3 fun c => { c with areaBad := [], areaFrame := 9, areaCfg := 3, areaTbl := 1, area := encHeader 5 data.length true 31 1 ++ data ++ zeros (8 * ceilDiv data.length 8 - data.length) }]; let a := (s.dev.ch n.val).area; let h := beAt a 0 8; let bad := hitsBad (s.dev.ch n.val).areaBad ((s.dev.ch n.val).areaAt + 8) (encLength h); let body : Option Nat := (if encStream h = 0 then none else s.dev.streamBody (s.dev.lead n.val) (encStream h)); s.Inv ∧ s.dev.answers = true ∧
    encOk a = true ∧ encLength h ≠ 0 ∧ encStream h ≠ 0xFFFFF ∧ encLast h = true ∧ 8 + 8 * ceilDiv (encLength h) 8 ≤ a.length ∧
    (∀ y ∈ (s.dev.ch n.val).chains, y.stream ≠ encStream h) ∧ data = slice a 8 (encLength h) ∧ body ≠ none ∧ labelOk body (encLabel h) = true ∧ encLabel h = 1 ∧ bad = false ∧ encKey h ≠ 0 ∧ 16 ≤ data.length ∧ s.dev.ctxState (s.dev.lead n.val) 0 (encKey h) = 1) := by
  simp only [inv_iff]
  and_intros <;> decide +kernel

theorem meets_PerformanceSeconds :
    (let n : Fin 4 := 3; let p : Pm := ⟨false, 0, false, []⟩; let s := up [.fch 3 fun c => { c with pm := ⟨false, 0, false, []⟩ }]; s.Inv ∧ s.dev.answers = true ∧ p = (s.dev.ch n.val).pm ∧ (p.started = false ∨ 2 ≤ s.dev.num .pwrState)) ∧
    (let n : Fin 4 := 3; let p : Pm := ⟨true, 0, false, []⟩; let s := up [.obj .pwrState 0 0 (.num 2), .fch 3 fun c => { c with pm := ⟨true, 0, false, []⟩ }]; s.Inv ∧ s.dev.answers = true ∧ p = (s.dev.ch n.val).pm ∧ (p.started = false ∨ 2 ≤ s.dev.num .pwrState)) ∧
    (let n : Fin 4 := 3; let p : Pm := ⟨true, 5, false, List.replicate 9 (true, false)⟩; let s := up [.obj .frmPmAvailable 3 0 (.num 0), .fch 3 fun c => { c with pm := ⟨true, 5, false, List.replicate 9 (true, false)⟩ }]; s.Inv ∧ s.dev.answers = true ∧ p = (s.dev.ch n.val).pm ∧ p.started = true ∧ s.dev.num .pwrState < 2 ∧ s.dev.circOn (some n.val) = [] ∧ p.seconds.length ≤ 9) := by
  simp only [inv_iff]
  and_intros <;> decide +kernel

theorem meets_CircuitContainers :
    (let n : Fin 4 := 3; let st : BitVec 20 := 5; let s := up [.obj .circConfig 0 2 (.oct (beBytes 1 224 ++ beBytes 1 3 ++ beBytes 2 8 ++ beBytes 4 5 ++ beBytes 4 5 ++ beBytes 4 0 ++ beBytes 2 32 ++ beBytes 2 250 ++ beBytes 2 1 ++ zeros 10))]; s.Inv ∧ s.dev.answers = true ∧ labelOk (s.dev.streamBody (s.dev.lead n.val) st.toNat) 4 = false) ∧
    (let n : Fin 4 := 3; let st : BitVec 20 := 5; let c := 2; let data : List Byte := zeros 3; let s := up [.obj .circConfig 0 2 (.oct (beBytes 1 224 ++ beBytes 1 3 ++ beBytes 2 8 ++ beBytes 4 5 ++ beBytes 4 5 ++ beBytes 4 0 ++ beBytes 2 32 ++ beBytes 2 250 ++ beBytes 2 1 ++ zeros 10)), .tbl (tblKey 6 0) (beBytes 8 ((3 * 2 ^ 20 + 5) * 2 ^ 40) ++ beBytes 8 (2 ^ 59)), .obj .circStatus 0 2 (.num 0), .circ 2 fun x => { x with exp := 0 }]; let cfg := s.dev.circCfg c; c < 2080 ∧ ccDs cfg = true ∧ ccChannel cfg = n.val ∧ ccDsStream cfg = st.toNat ∧ (∀ e ∈ List.range (c), ccDs (s.dev.circCfg e) = true → ccChannel (s.dev.circCfg e) = n.val → ccDsStream (s.dev.circCfg e) ≠ st.toNat) ∧
      labelOk (s.dev.streamBody (s.dev.lead n.val) st.toNat) 4 = true ∧ data.length ≠ containerLen c cfg) ∧
    (let n : Fin 4 := 3; let st : BitVec 20 := 5; let c := 2; let data : List Byte := zeros 16; let s := up [.obj .circConfig 0 2 (.oct (beBytes 1 224 ++ beBytes 1 3 ++ beBytes 2 8 ++ beBytes 4 5 ++ beBytes 4 5 ++ beBytes 4 0 ++ beBytes 2 32 ++ beBytes 2 250 ++ beBytes 2 1 ++ zeros 10)), .tbl (tblKey 6 0) (beBytes 8 ((3 * 2 ^ 20 + 5) * 2 ^ 40) ++ beBytes 8 (2 ^ 59)), .obj .circStatus 0 2 (.num 0), .circ 2 fun x => { x with cont := some [] }]; let cfg := s.dev.circCfg c; let x := s.dev.crc c; c < 2080 ∧ ccDs cfg = true ∧ ccChannel cfg = n.val ∧ ccDsStream cfg = st.toNat ∧ (∀ e ∈ List.range (c), ccDs (s.dev.circCfg e) = true → ccChannel (s.dev.circCfg e) = n.val → ccDsStream (s.dev.circCfg e) ≠ st.toNat) ∧
      labelOk (s.dev.streamBody (s.dev.lead n.val) st.toNat) 4 = true ∧ data.length = containerLen c cfg ∧ x.cont.isSome = true) ∧
    (let n : Fin 4 := 3; let st : BitVec 20 := 5; let c := 2; let data : List Byte := beBytes 8 (15 * 2 ^ 60 + 2 ^ 56) ++ [1, 2, 3, 4, 5, 6, 7, 8]; let s := up [.obj .circConfig 0 2 (.oct (beBytes 1 224 ++ beBytes 1 3 ++ beBytes 2 8 ++ beBytes 4 5 ++ beBytes 4 5 ++ beBytes 4 0 ++ beBytes 2 32 ++ beBytes 2 250 ++ beBytes 2 1 ++ zeros 10)), .tbl (tblKey 6 0) (beBytes 8 ((3 * 2 ^ 20 + 5) * 2 ^ 40) ++ beBytes 8 (2 ^ 59)), .obj .circStatus 0 2 (.num 10), .circ 2 fun x => { x with exp := 15, aisRun := 2, noRdiRun := 2 }]; let cfg := s.dev.circCfg c; let x := s.dev.crc c; c < 2080 ∧ ccDs cfg = true ∧ ccChannel cfg = n.val ∧ ccDsStream cfg = st.toNat ∧ (∀ e ∈ List.range (c), ccDs (s.dev.circCfg e) = true → ccChannel (s.dev.circCfg e) = n.val → ccDsStream (s.dev.circCfg e) ≠ st.toNat) ∧
      labelOk (s.dev.streamBody (s.dev.lead n.val) st.toNat) 4 = true ∧ data.length = containerLen c cfg ∧ x.cont = none) ∧
    (let n : Fin 4 := 3; let st : BitVec 20 := 5; let c := 2; let data : List Byte := beBytes 8 (3 * 2 ^ 60) ++ [1, 2, 3, 4, 5, 6, 7, 8]; let s := up [.obj .circConfig 0 2 (.oct (beBytes 1 224 ++ beBytes 1 3 ++ beBytes 2 8 ++ beBytes 4 5 ++ beBytes 4 5 ++ beBytes 4 0 ++ beBytes 2 32 ++ beBytes 2 250 ++ beBytes 2 1 ++ zeros 10)), .tbl (tblKey 6 0) (beBytes 8 ((3 * 2 ^ 20 + 5) * 2 ^ 40) ++ beBytes 8 (2 ^ 59)), .obj .circStatus 0 2 (.num 10), .circ 2 fun x => { x with exp := 15, noAisRun := 2 }]; let cfg := s.dev.circCfg c; let x := s.dev.crc c; c < 2080 ∧ ccDs cfg = true ∧ ccChannel cfg = n.val ∧ ccDsStream cfg = st.toNat ∧ (∀ e ∈ List.range (c), ccDs (s.dev.circCfg e) = true → ccChannel (s.dev.circCfg e) = n.val → ccDsStream (s.dev.circCfg e) ≠ st.toNat) ∧
      labelOk (s.dev.streamBody (s.dev.lead n.val) st.toNat) 4 = true ∧ data.length = containerLen c cfg ∧ x.cont = none) ∧
    (let n : Fin 4 := 3; let st : BitVec 20 := 5; let c := 2; let data : List Byte := beBytes 8 (3 * 2 ^ 60) ++ [1, 2, 3, 4, 5, 6, 7, 8]; let s := up [.obj .circConfig 0 2 (.oct (beBytes 1 224 ++ beBytes 1 3 ++ beBytes 2 8 ++ beBytes 4 5 ++ beBytes 4 5 ++ beBytes 4 0 ++ beBytes 2 32 ++ beBytes 2 250 ++ beBytes 2 1 ++ zeros 10)), .tbl (tblKey 6 0) (beBytes 8 ((3 * 2 ^ 20 + 5) * 2 ^ 40) ++ beBytes 8 (2 ^ 59)), .obj .circStatus 0 2 (.num 10), .circ 2 fun x => { x with exp := 15, noAisRun := 2 }]; let cfg := s.dev.circCfg c; let x := s.dev.crc c; c < 2080 ∧ ccDs cfg = true ∧ ccChannel cfg = n.val ∧ ccDsStream cfg = st.toNat ∧ (∀ e ∈ List.range (c), ccDs (s.dev.circCfg e) = true → ccChannel (s.dev.circCfg e) = n.val → ccDsStream (s.dev.circCfg e) ≠ st.toNat) ∧
      labelOk (s.dev.streamBody (s.dev.lead n.val) st.toNat) 4 = true ∧ data.length = containerLen c cfg ∧ x.cont = none) := by
  simp only [inv_iff]
  and_intros <;> decide +kernel

theorem meets_Pseudowires :
    (let c : Fin 2080 := 2; let s := up [.obj .circConfig 0 2 (.oct (beBytes 1 224 ++ beBytes 1 3 ++ beBytes 2 8 ++ beBytes 4 5 ++ beBytes 4 5 ++ beBytes 4 0 ++ beBytes 2 32 ++ beBytes 2 250 ++ beBytes 2 1 ++ zeros 10)), .obj .circStatus 0 2 (.num 0), .circ 2 fun x => { x with gather := List.replicate 255 false }]; let cfg := s.dev.circCfg c.val; let x := s.dev.crc c.val; let n := ccPwBytes cfg; s.Inv ∧ s.dev.answers = true ∧ (ccDs cfg = false ∨ x.gather.length < 8 * n)) ∧
    (let c : Fin 2080 := 2; let s := up [.obj .circConfig 0 2 (.oct (beBytes 1 224 ++ beBytes 1 3 ++ beBytes 2 8 ++ beBytes 4 5 ++ beBytes 4 5 ++ beBytes 4 0 ++ beBytes 2 32 ++ beBytes 2 250 ++ beBytes 2 1 ++ zeros 10)), .obj .circStatus 0 2 (.num 0), .circ 2 fun x => { x with gather := List.replicate 257 false, pwSeq := 65535 }]; let cfg := s.dev.circCfg c.val; let x := s.dev.crc c.val; let n := ccPwBytes cfg; s.Inv ∧ s.dev.answers = true ∧ ccDs cfg = true ∧ 8 * n ≤ x.gather.length) ∧
    (let c : Fin 2080 := 2; let s := up [.obj .circConfig 0 2 (.oct (beBytes 1 224 ++ beBytes 1 3 ++ beBytes 2 8 ++ beBytes 4 5 ++ beBytes 4 5 ++ beBytes 4 0 ++ beBytes 2 60 ++ beBytes 2 250 ++ beBytes 2 1 ++ zeros 10)), .obj .circStatus 0 2 (.num 20), .circ 2 fun x => { x with gather := List.replicate 481 false, pwSeq := 65535 }]; let cfg := s.dev.circCfg c.val; let x := s.dev.crc c.val; let n := ccPwBytes cfg; s.Inv ∧ s.dev.answers = true ∧ ccDs cfg = true ∧ 8 * n ≤ x.gather.length) ∧
    (let c : Fin 2080 := 2; let s := up [.obj .circConfig 0 2 (.oct (beBytes 1 192 ++ beBytes 1 3 ++ beBytes 2 8 ++ beBytes 4 5 ++ beBytes 4 5 ++ beBytes 4 0 ++ beBytes 2 32 ++ beBytes 2 250 ++ beBytes 2 1 ++ zeros 10)), .obj .circStatus 0 2 (.num 0), .circ 2 fun x => { x with exp := 0 }]; let cfg := s.dev.circCfg c.val; s.Inv ∧ s.dev.answers = true ∧ ccUs cfg = false) ∧
    (let c : Fin 2080 := 2; let data : List Byte := zeros 35; let s := up [.obj .circConfig 0 2 (.oct (beBytes 1 224 ++ beBytes 1 3 ++ beBytes 2 8 ++ beBytes 4 5 ++ beBytes 4 5 ++ beBytes 4 0 ++ beBytes 2 32 ++ beBytes 2 32000 ++ beBytes 2 1 ++ zeros 10)), .circ 2 fun x => { x with pwExp := none, playout := [], playing := true }]; let cfg := s.dev.circCfg c.val; let x := s.dev.crc c.val; let n := ccPwBytes cfg; let w := beAt data 0 4; let ahead := (match x.pwExp with | some e => (w % 65536 + 65536 - e) % 65536 | none => 0); let gap := (if ahead ≤ 32 then ahead else 0); let fill := (if 32 < ahead then 0 else x.playout.length) + 8 * n * (gap + 1); s.Inv ∧ s.dev.answers = true ∧ ccUs cfg = true ∧ (data.length ≠ n + 4 ∨ 2 ^ 28 ≤ w ∨ 32768 ≤ ahead ∨ 2 * playTarget c.val cfg < fill)) ∧
    (let c : Fin 2080 := 2; let data : List Byte := [0x10] ++ zeros 35; let s := up [.obj .circConfig 0 2 (.oct (beBytes 1 224 ++ beBytes 1 3 ++ beBytes 2 8 ++ beBytes 4 5 ++ beBytes 4 5 ++ beBytes 4 0 ++ beBytes 2 32 ++ beBytes 2 32000 ++ beBytes 2 1 ++ zeros 10)), .circ 2 fun x => { x with pwExp := none, playout := [], playing := true }]; let cfg := s.dev.circCfg c.val; let x := s.dev.crc c.val; let n := ccPwBytes cfg; let w := beAt data 0 4; let ahead := (match x.pwExp with | some e => (w % 65536 + 65536 - e) % 65536 | none => 0); let gap := (if ahead ≤ 32 then ahead else 0); let fill := (if 32 < ahead then 0 else x.playout.length) + 8 * n * (gap + 1); s.Inv ∧ s.dev.answers = true ∧ ccUs cfg = true ∧ (data.length ≠ n + 4 ∨ 2 ^ 28 ≤ w ∨ 32768 ≤ ahead ∨ 2 * playTarget c.val cfg < fill)) ∧
    (let c : Fin 2080 := 2; let data : List Byte := zeros 36; let s := up [.obj .circConfig 0 2 (.oct (beBytes 1 224 ++ beBytes 1 3 ++ beBytes 2 8 ++ beBytes 4 5 ++ beBytes 4 5 ++ beBytes 4 0 ++ beBytes 2 32 ++ beBytes 2 32000 ++ beBytes 2 1 ++ zeros 10)), .circ 2 fun x => { x with pwExp := some 32768, playout := [], playing := true }]; let cfg := s.dev.circCfg c.val; let x := s.dev.crc c.val; let n := ccPwBytes cfg; let w := beAt data 0 4; let ahead := (match x.pwExp with | some e => (w % 65536 + 65536 - e) % 65536 | none => 0); let gap := (if ahead ≤ 32 then ahead else 0); let fill := (if 32 < ahead then 0 else x.playout.length) + 8 * n * (gap + 1); s.Inv ∧ s.dev.answers = true ∧ ccUs cfg = true ∧ (data.length ≠ n + 4 ∨ 2 ^ 28 ≤ w ∨ 32768 ≤ ahead ∨ 2 * playTarget c.val cfg < fill)) ∧
    (let c : Fin 2080 := 2; let data : List Byte := zeros 36; let s := up [.obj .circConfig 0 2 (.oct (beBytes 1 224 ++ beBytes 1 3 ++ beBytes 2 8 ++ beBytes 4 5 ++ beBytes 4 5 ++ beBytes 4 0 ++ beBytes 2 32 ++ beBytes 2 250 ++ beBytes 2 1 ++ zeros 10)), .circ 2 fun x => { x with pwExp := some 65504, playout := [], playing := true }]; let cfg := s.dev.circCfg c.val; let x := s.dev.crc c.val; let n := ccPwBytes cfg; let w := beAt data 0 4; let ahead := (match x.pwExp with | some e => (w % 65536 + 65536 - e) % 65536 | none => 0); let gap := (if ahead ≤ 32 then ahead else 0); let fill := (if 32 < ahead then 0 else x.playout.length) + 8 * n * (gap + 1); s.Inv ∧ s.dev.answers = true ∧ ccUs cfg = true ∧ (data.length ≠ n + 4 ∨ 2 ^ 28 ≤ w ∨ 32768 ≤ ahead ∨ 2 * playTarget c.val cfg < fill)) := by
  simp only [inv_iff]
  and_intros <;> decide +kernel

theorem meets_Pseudowires_2 :
    (let c : Fin 2080 := 2; let data : List Byte := zeros 36; let s := up [.obj .circConfig 0 2 (.oct (beBytes 1 224 ++ beBytes 1 3 ++ beBytes 2 8 ++ beBytes 4 5 ++ beBytes 4 5 ++ beBytes 4 0 ++ beBytes 2 32 ++ beBytes 2 32000 ++ beBytes 2 1 ++ zeros 10)), .circ 2 fun x => { x with pwExp := some 65504, playout := [true, false], playing := true }]; let cfg := s.dev.circCfg c.val; let x := s.dev.crc c.val; let n := ccPwBytes cfg; let w := beAt data 0 4; let ahead := (match x.pwExp with | some e => (w % 65536 + 65536 - e) % 65536 | none => 0); let gap := (if ahead ≤ 32 then ahead else 0); let fill := (if 32 < ahead then 0 else x.playout.length) + 8 * n * (gap + 1); s.Inv ∧ s.dev.answers = true ∧ ccUs cfg = true ∧ data.length = n + 4 ∧ w < 2 ^ 28 ∧ ahead < 32768 ∧ fill ≤ 2 * playTarget c.val cfg) ∧
    (let c : Fin 2080 := 2; let data : List Byte := [8, 0, 0, 9] ++ zeros 32; let s := up [.obj .circConfig 0 2 (.oct (beBytes 1 224 ++ beBytes 1 3 ++ beBytes 2 8 ++ beBytes 4 5 ++ beBytes 4 5 ++ beBytes 4 0 ++ beBytes 2 32 ++ beBytes 2 32000 ++ beBytes 2 1 ++ zeros 10)), .circ 2 fun x => { x with pwExp := some 9, playout := [true, false], playing := true }]; let cfg := s.dev.circCfg c.val; let x := s.dev.crc c.val; let n := ccPwBytes cfg; let w := beAt data 0 4; let ahead := (match x.pwExp with | some e => (w % 65536 + 65536 - e) % 65536 | none => 0); let gap := (if ahead ≤ 32 then ahead else 0); let fill := (if 32 < ahead then 0 else x.playout.length) + 8 * n * (gap + 1); s.Inv ∧ s.dev.answers = true ∧ ccUs cfg = true ∧ data.length = n + 4 ∧ w < 2 ^ 28 ∧ ahead < 32768 ∧ fill ≤ 2 * playTarget c.val cfg) ∧
    (let c : Fin 2080 := 2; let data : List Byte := [8, 0, 0, 9] ++ zeros 32; let s := up [.obj .circConfig 0 2 (.oct (beBytes 1 224 ++ beBytes 1 3 ++ beBytes 2 8 ++ beBytes 4 5 ++ beBytes 4 5 ++ beBytes 4 0 ++ beBytes 2 32 ++ beBytes 2 32000 ++ beBytes 2 1 ++ zeros 10)), .circ 2 fun x => { x with pwExp := some 65000, playout := [true, false], playing := true }]; let cfg := s.dev.circCfg c.val; let x := s.dev.crc c.val; let n := ccPwBytes cfg; let w := beAt data 0 4; let ahead := (match x.pwExp with | some e => (w % 65536 + 65536 - e) % 65536 | none => 0); let gap := (if ahead ≤ 32 then ahead else 0); let fill := (if 32 < ahead then 0 else x.playout.length) + 8 * n * (gap + 1); s.Inv ∧ s.dev.answers = true ∧ ccUs cfg = true ∧ data.length = n + 4 ∧ w < 2 ^ 28 ∧ ahead < 32768 ∧ fill ≤ 2 * playTarget c.val cfg) ∧
    (let c : Fin 2080 := 2; let data : List Byte := [8, 0, 0, 9] ++ zeros 32; let s := up [.obj .circConfig 0 2 (.oct (beBytes 1 224 ++ beBytes 1 3 ++ beBytes 2 8 ++ beBytes 4 5 ++ beBytes 4 5 ++ beBytes 4 0 ++ beBytes 2 32 ++ beBytes 2 32000 ++ beBytes 2 1 ++ zeros 10)), .circ 2 fun x => { x with pwExp := none, playout := [true, false], playing := true }]; let cfg := s.dev.circCfg c.val; let x := s.dev.crc c.val; let n := ccPwBytes cfg; let w := beAt data 0 4; let ahead := (match x.pwExp with | some e => (w % 65536 + 65536 - e) % 65536 | none => 0); let gap := (if ahead ≤ 32 then ahead else 0); let fill := (if 32 < ahead then 0 else x.playout.length) + 8 * n * (gap + 1); s.Inv ∧ s.dev.answers = true ∧ ccUs cfg = true ∧ data.length = n + 4 ∧ w < 2 ^ 28 ∧ ahead < 32768 ∧ fill ≤ 2 * playTarget c.val cfg) ∧
    (let c : Fin 2080 := 2; let s := up [.obj .circConfig 0 2 (.oct (beBytes 1 224 ++ beBytes 1 3 ++ beBytes 2 8 ++ beBytes 4 5 ++ beBytes 4 5 ++ beBytes 4 0 ++ beBytes 2 32 ++ beBytes 2 250 ++ beBytes 2 1 ++ zeros 10)), .obj .circStatus 0 2 (.num 7), .circ 2 fun x => { x with exp := 0 }]; let cfg := s.dev.circCfg c.val; let v := s.dev.num .circStatus 0 c.val; s.Inv ∧ s.dev.answers = true ∧ ccUs cfg = true ∧ bitOf v 4 = false ∧ bitOf v 2 = (bitOf v 0 || bitOf v 1)) ∧
    (let c : Fin 2080 := 2; let s := up [.obj .circConfig 0 2 (.oct (beBytes 1 224 ++ beBytes 1 3 ++ beBytes 2 8 ++ beBytes 4 5 ++ beBytes 4 5 ++ beBytes 4 0 ++ beBytes 2 32 ++ beBytes 2 250 ++ beBytes 2 1 ++ zeros 10)), .obj .circStatus 0 2 (.num 16), .circ 2 fun x => { x with exp := 0 }]; let cfg := s.dev.circCfg c.val; let v := s.dev.num .circStatus 0 c.val; s.Inv ∧ s.dev.answers = true ∧ (ccUs cfg = false ∨ bitOf v 4 = true)) := by
  simp only [inv_iff]
  and_intros <;> decide +kernel

theorem meets_CircuitConfiguration :
    (let o := sec; let c : Fin 2080 := 2; let b : List Byte := (beBytes 1 97 ++ beBytes 1 3 ++ beBytes 2 8 ++ beBytes 4 5 ++ beBytes 4 5 ++ beBytes 4 0 ++ beBytes 2 32 ++ beBytes 2 250 ++ beBytes 2 1 ++ zeros 10); let s := up [.obj .circConfig 0 2 (.oct (beBytes 1 96 ++ beBytes 1 3 ++ beBytes 2 8 ++ beBytes 4 5 ++ beBytes 4 5 ++ beBytes 4 0 ++ beBytes 2 32 ++ beBytes 2 250 ++ beBytes 2 1 ++ zeros 10)), .circ 2 fun x => { x with lost := false }]; s.Inv ∧ b.length = 32 ∧
    s.dev.admits (writeReq o .circConfig 0 c.val (.oct b)) ∧ circRange s.dev c.val b = true) ∧
    (let o := sec; let c : Fin 2080 := 2; let b : List Byte := (beBytes 1 224 ++ beBytes 1 3 ++ beBytes 2 9 ++ beBytes 4 5 ++ beBytes 4 5 ++ beBytes 4 0 ++ beBytes 2 32 ++ beBytes 2 250 ++ beBytes 2 1 ++ zeros 10); let s := up [.obj .circConfig 0 2 (.oct (beBytes 1 224 ++ beBytes 1 3 ++ beBytes 2 8 ++ beBytes 4 5 ++ beBytes 4 5 ++ beBytes 4 0 ++ beBytes 2 32 ++ beBytes 2 250 ++ beBytes 2 1 ++ zeros 10)), .circ 2 fun x => { x with lost := false }]; let old := s.dev.circCfg c.val; let kept := (patch b 0 (beBytes 1 (beAt b 0 1 % 128)) == patch old 0 (beBytes 1 (beAt old 0 1 % 128))); s.Inv ∧ b.length = 32 ∧
    s.dev.admits (writeReq o .circConfig 0 c.val (.oct b)) ∧ circRange s.dev c.val b = false ∧ ((ccOn old = true ∧ kept = false) ∨ (ccOn b = true ∧ s.dev.queueBound (ccQueue b) (ccChannel b) = false))) ∧
    (let o := sec; let c : Fin 2080 := 2; let b : List Byte := (beBytes 1 224 ++ beBytes 1 3 ++ beBytes 2 8 ++ beBytes 4 5 ++ beBytes 4 5 ++ beBytes 4 0 ++ beBytes 2 32 ++ beBytes 2 250 ++ beBytes 2 1 ++ zeros 10); let s := up [.obj .circConfig 0 2 (.oct (beBytes 1 96 ++ beBytes 1 3 ++ beBytes 2 8 ++ beBytes 4 5 ++ beBytes 4 5 ++ beBytes 4 0 ++ beBytes 2 32 ++ beBytes 2 250 ++ beBytes 2 1 ++ zeros 10)), .circ 2 fun x => { x with lost := false }]; let old := s.dev.circCfg c.val; let kept := (patch b 0 (beBytes 1 (beAt b 0 1 % 128)) == patch old 0 (beBytes 1 (beAt old 0 1 % 128))); s.Inv ∧ b.length = 32 ∧
    s.dev.admits (writeReq o .circConfig 0 c.val (.oct b)) ∧ circRange s.dev c.val b = false ∧ ((ccOn old = true ∧ kept = false) ∨ (ccOn b = true ∧ s.dev.queueBound (ccQueue b) (ccChannel b) = false))) ∧
    (let o := sec; let c : Fin 2080 := 2; let b : List Byte := (beBytes 1 96 ++ beBytes 1 3 ++ beBytes 2 9 ++ beBytes 4 5 ++ beBytes 4 5 ++ beBytes 4 0 ++ beBytes 2 32 ++ beBytes 2 250 ++ beBytes 2 1 ++ zeros 10); let s := up [.obj .circConfig 0 2 (.oct (beBytes 1 96 ++ beBytes 1 3 ++ beBytes 2 8 ++ beBytes 4 5 ++ beBytes 4 5 ++ beBytes 4 0 ++ beBytes 2 32 ++ beBytes 2 250 ++ beBytes 2 1 ++ zeros 10)), .circ 2 fun x => { x with lost := false }]; let old := s.dev.circCfg c.val; let kept := (patch b 0 (beBytes 1 (beAt b 0 1 % 128)) == patch old 0 (beBytes 1 (beAt old 0 1 % 128))); s.Inv ∧ b.length = 32 ∧
    s.dev.admits (writeReq o .circConfig 0 c.val (.oct b)) ∧ circRange s.dev c.val b = false ∧ ccOn old = ccOn b ∧ (ccOn old = true → kept = true) ∧ (ccOn b = true → s.dev.queueBound (ccQueue b) (ccChannel b) = true)) ∧
    (let o := sec; let c : Fin 2080 := 2; let b : List Byte := (beBytes 1 96 ++ beBytes 1 3 ++ beBytes 2 8 ++ beBytes 4 5 ++ beBytes 4 5 ++ beBytes 4 0 ++ beBytes 2 32 ++ beBytes 2 250 ++ beBytes 2 1 ++ zeros 10); let s := up [.obj .circStatus 0 2 (.num 5), .obj .circConfig 0 2 (.oct (beBytes 1 224 ++ beBytes 1 3 ++ beBytes 2 8 ++ beBytes 4 5 ++ beBytes 4 5 ++ beBytes 4 0 ++ beBytes 2 32 ++ beBytes 2 250 ++ beBytes 2 1 ++ zeros 10)), .circ 2 fun x => { x with gather := [true], usSeq := 3 }]; let old := s.dev.circCfg c.val; let kept := (patch b 0 (beBytes 1 (beAt b 0 1 % 128)) == patch old 0 (beBytes 1 (beAt old 0 1 % 128))); s.Inv ∧ b.length = 32 ∧
    s.dev.admits (writeReq o .circConfig 0 c.val (.oct b)) ∧ circRange s.dev c.val b = false ∧ ccOn old = true ∧ ccOn b = false ∧ kept = true) := by
  simp only [inv_iff, admits_iff]
  and_intros <;> decide +kernel

theorem meets_LemowMessages :
    (let n : Fin 4 := 3; let m : Lemow := ⟨false, 8, 7, []⟩; let s := up [.obj .actState 3 0 (.num 4), .obj .actHandle 3 0 (.num 9)]; let h := s.dev.num .actHandle n.val; let a := m.addr.toNat; s.Inv ∧ s.dev.answers = true ∧ a ≠ 0xFFFF ∧ a ≠ h ∧ (a = 0xFFFE → h ≠ 0xFFFF)) ∧
    (let n : Fin 4 := 3; let m : Lemow := ⟨false, 65535, 7, zeros 5⟩; let s := up [.obj .actState 3 0 (.num 4), .obj .actHandle 3 0 (.num 9)]; let h := s.dev.num .actHandle n.val; let a := m.addr.toNat; s.Inv ∧ s.dev.answers = true ∧ (a = 0xFFFF ∨ a = h ∨ (a = 0xFFFE ∧ h = 0xFFFF)) ∧ m.body.length = 5) ∧
    (let n : Fin 4 := 3; let m : Lemow := ⟨false, 9, 7, zeros 5⟩; let s := up [.obj .actState 3 0 (.num 4), .obj .actHandle 3 0 (.num 9)]; let h := s.dev.num .actHandle n.val; let a := m.addr.toNat; s.Inv ∧ s.dev.answers = true ∧ (a = 0xFFFF ∨ a = h ∨ (a = 0xFFFE ∧ h = 0xFFFF)) ∧ m.body.length = 5) ∧
    (let n : Fin 4 := 3; let m : Lemow := ⟨false, 65534, 7, zeros 5⟩; let s := up [.obj .actState 3 0 (.num 4), .obj .actHandle 3 0 (.num 65535)]; let h := s.dev.num .actHandle n.val; let a := m.addr.toNat; s.Inv ∧ s.dev.answers = true ∧ (a = 0xFFFF ∨ a = h ∨ (a = 0xFFFE ∧ h = 0xFFFF)) ∧ m.body.length = 5) ∧
    (let n : Fin 4 := 3; let m : Lemow := ⟨false, 9, 7, []⟩; let s := up [.obj .actState 3 0 (.num 2), .obj .actHandle 3 0 (.num 9)]; let h := s.dev.num .actHandle n.val; let a := m.addr.toNat; s.Inv ∧ s.dev.answers = true ∧ s.dev.num .actState n.val ≠ 4 ∧ a = h ∧ h ≠ 0xFFFF ∧ m.body = [] ∧ s.dev.num .actState n.val ≠ 3) ∧
    (let n : Fin 4 := 3; let m : Lemow := ⟨false, 65535, 7, []⟩; let s := up [.obj .actState 3 0 (.num 2), .obj .actHandle 3 0 (.num 9)]; let h := s.dev.num .actHandle n.val; let a := m.addr.toNat; s.Inv ∧ s.dev.answers = true ∧ s.dev.num .actState n.val ≠ 4 ∧ a = 0xFFFF ∧ h ≠ 0xFFFF ∧ m.body = []) ∧
    (let n : Fin 4 := 3; let m : Lemow := ⟨false, 9, 7, [1]⟩; let s := up [.obj .actState 3 0 (.num 4), .obj .actHandle 3 0 (.num 9), .obj .frmDefects 3 0 (.num 16)]; let h := s.dev.num .actHandle n.val; let a := m.addr.toNat; s.Inv ∧ s.dev.answers = true ∧ s.dev.num .actState n.val = 4 ∧ a = h ∧ h ≠ 0xFFFF ∧ (m.inband = true → (s.dev.ch n.val).inq.length < 16) ∧ (m.inband = false → (s.dev.ch n.val).txq.length < 16) ∧ m.body = [if true then 1 else 0] ∧ s.dev.defect n.val 4 = true) ∧
    (let n : Fin 4 := 3; let m : Lemow := ⟨true, 9, 7, [0]⟩; let s := up [.obj .actState 3 0 (.num 4), .obj .actHandle 3 0 (.num 9), .obj .frmDefects 3 0 (.num 16)]; let h := s.dev.num .actHandle n.val; let a := m.addr.toNat; s.Inv ∧ s.dev.answers = true ∧ s.dev.num .actState n.val = 4 ∧ a = h ∧ h ≠ 0xFFFF ∧ (m.inband = true → (s.dev.ch n.val).inq.length < 16) ∧ (m.inband = false → (s.dev.ch n.val).txq.length < 16) ∧ m.body = [if false then 1 else 0] ∧ s.dev.defect n.val 4 ≠ false) := by
  simp only [inv_iff]
  and_intros <;> decide +kernel

theorem meets_LemowMessages_2 :
    (let n : Fin 4 := 3; let m : Lemow := ⟨false, 9, 7, []⟩; let s := up [.obj .actState 3 0 (.num 4), .obj .actHandle 3 0 (.num 9)]; let h := s.dev.num .actHandle n.val; let a := m.addr.toNat; s.Inv ∧ s.dev.answers = true ∧ s.dev.num .actState n.val = 4 ∧ a = h ∧ h ≠ 0xFFFF ∧ (m.inband = true → (s.dev.ch n.val).inq.length < 16) ∧ (m.inband = false → (s.dev.ch n.val).txq.length < 16) ∧ m.body = [] ∧ s.dev.inRun) ∧
    (let n : Fin 4 := 3; let m : Lemow := ⟨false, 9, 7, [0, 32] ++ beBytes 2 32768 ++ beBytes 8 65536⟩; let s := up [.obj .actState 3 0 (.num 4), .obj .actHandle 3 0 (.num 9), .obj .actDozeState 3 0 (.num 1)]; let h := s.dev.num .actHandle n.val; let a := m.addr.toNat; s.Inv ∧ s.dev.answers = true ∧ s.dev.num .actState n.val = 4 ∧ a = h ∧ h ≠ 0xFFFF ∧ (m.inband = true → (s.dev.ch n.val).inq.length < 16) ∧ (m.inband = false → (s.dev.ch n.val).txq.length < 16) ∧ s.dev.num .actDozeState n.val = 1 ∧ s.dev.pwr.req = none ∧ m.body.length = 12 ∧
        4 ≤ beAt m.body 1 1 ∧ beAt m.body 1 1 ≤ 32 ∧ beAt m.body 2 2 % 32 = 0 ∧ 32 ≤ beAt m.body 2 2 ∧ beAt m.body 2 2 ≤ 32768 ∧
        beAt m.body 4 8 % 2 ^ 51 % beAt m.body 2 2 = 0 ∧ beAt m.body 0 1 = 0) ∧
    (let n : Fin 4 := 3; let m : Lemow := ⟨false, 9, 7, [1, 4] ++ beBytes 2 32 ++ beBytes 8 64⟩; let s := up [.obj .actState 3 0 (.num 4), .obj .actHandle 3 0 (.num 9), .obj .actDozeState 3 0 (.num 1)]; let h := s.dev.num .actHandle n.val; let a := m.addr.toNat; s.Inv ∧ s.dev.answers = true ∧ s.dev.num .actState n.val = 4 ∧ a = h ∧ h ≠ 0xFFFF ∧ (m.inband = true → (s.dev.ch n.val).inq.length < 16) ∧ (m.inband = false → (s.dev.ch n.val).txq.length < 16) ∧ s.dev.num .actDozeState n.val = 1 ∧ s.dev.pwr.req = none ∧ m.body.length = 12 ∧
        4 ≤ beAt m.body 1 1 ∧ beAt m.body 1 1 ≤ 32 ∧ beAt m.body 2 2 % 32 = 0 ∧ 32 ≤ beAt m.body 2 2 ∧ beAt m.body 2 2 ≤ 32768 ∧
        beAt m.body 4 8 % 2 ^ 51 % beAt m.body 2 2 = 0 ∧ beAt m.body 0 1 = 1) := by
  simp only [inv_iff, Dev.inRun]
  and_intros <;> decide +kernel

theorem meets_Registration :
    (let n : Fin 4 := 3; let m : Lemow := ⟨false, 65534, 7, beBytes 8 77 ++ beBytes 2 0x0FFF ++ zeros 2⟩; let s := up [.obj .actState 3 0 (.num 2), .obj .actHandle 3 0 (.num 65535), .obj .idTerminal 0 0 (.num 77), .fch 3 fun c => { c with retHandle := 8, retAllocs := [3], attempt := 4 }]; let h := s.dev.num .actHandle n.val; let st := s.dev.num .actState n.val; s.Inv ∧ s.dev.answers = true ∧ st = 2 ∧ h = 0xFFFF ∧ m.addr.toNat = 0xFFFE ∧ m.body.length = 12 ∧ beAt m.body 0 8 = s.dev.num .idTerminal ∧ beAt m.body 8 2 ≤ 0x0FFF ∧ (s.dev.ch n.val).retHandle ≠ beAt m.body 8 2) ∧
    (let n : Fin 4 := 3; let m : Lemow := ⟨false, 65534, 7, beBytes 8 78 ++ beBytes 2 0x0FFF ++ zeros 2⟩; let s := up [.obj .actState 3 0 (.num 2), .obj .actHandle 3 0 (.num 65535), .obj .idTerminal 0 0 (.num 77)]; let h := s.dev.num .actHandle n.val; let st := s.dev.num .actState n.val; s.Inv ∧ s.dev.answers = true ∧ st = 2 ∧ h = 0xFFFF ∧ m.addr.toNat = 0xFFFE ∧ m.body.length = 12 ∧ beAt m.body 0 8 ≠ s.dev.num .idTerminal ∧ beAt m.body 8 2 ≤ 0x0FFF) ∧
    (let n : Fin 4 := 3; let m : Lemow := ⟨false, 9, 7, beBytes 4 0xFFFFFFFF ++ [12, 0, 0, 0]⟩; let s := up [.obj .actState 3 0 (.num 3), .obj .actHandle 3 0 (.num 9)]; let h := s.dev.num .actHandle n.val; let st := s.dev.num .actState n.val; s.Inv ∧ s.dev.answers = true ∧ m.addr.toNat = h ∧ h ≠ 0xFFFF ∧ (m.inband = true → (s.dev.ch n.val).inq.length < 16) ∧ (m.inband = false → (s.dev.ch n.val).txq.length < 16) ∧ st = 3 ∧ m.body.length = 8 ∧ bitOf (beAt m.body 0 4) 27 = true ∧ 7 ≤ beAt m.body 4 1 ∧ beAt m.body 4 1 ≤ 12) ∧
    (let n : Fin 4 := 3; let m : Lemow := ⟨false, 9, 7, beBytes 4 (5 * 2 ^ 20) ++ beBytes 8 2⟩; let s := up [.obj .actState 3 0 (.num 3), .obj .actHandle 3 0 (.num 9), .fch 3 fun c => { c with select := some (5 * 2 ^ 20) }]; let h := s.dev.num .actHandle n.val; let st := s.dev.num .actState n.val; s.Inv ∧ s.dev.answers = true ∧ m.addr.toNat = h ∧ h ≠ 0xFFFF ∧ (m.inband = true → (s.dev.ch n.val).inq.length < 16) ∧ (m.inband = false → (s.dev.ch n.val).txq.length < 16) ∧ st = 3 ∧ m.body.length = 12 ∧ beAt m.body 0 4 < 3 * 2 ^ 30 ∧ (let mode := beAt m.body 0 4 / 2 ^ 20 * 2 ^ 20; let f := beAt m.body 4 8 % 2 ^ 51; (s.dev.ch n.val).select = some mode ∧ s.dev.num .frmFrame n.val + 2 ≤ f)) ∧
    (let n : Fin 4 := 3; let m : Lemow := ⟨true, 9, 7, beBytes 4 (5 * 2 ^ 20) ++ beBytes 8 1⟩; let s := up [.obj .actState 3 0 (.num 3), .obj .actHandle 3 0 (.num 9), .fch 3 fun c => { c with select := some (5 * 2 ^ 20) }]; let h := s.dev.num .actHandle n.val; let st := s.dev.num .actState n.val; s.Inv ∧ s.dev.answers = true ∧ m.addr.toNat = h ∧ h ≠ 0xFFFF ∧ (m.inband = true → (s.dev.ch n.val).inq.length < 16) ∧ (m.inband = false → (s.dev.ch n.val).txq.length < 16) ∧ st = 3 ∧ m.body.length = 12 ∧ beAt m.body 0 4 < 3 * 2 ^ 30 ∧ (let mode := beAt m.body 0 4 / 2 ^ 20 * 2 ^ 20; let f := beAt m.body 4 8 % 2 ^ 51; ((s.dev.ch n.val).select ≠ some mode ∨ f < s.dev.num .frmFrame n.val + 2))) ∧
    (let n : Fin 4 := 3; let m : Lemow := ⟨false, 9, 7, beBytes 4 0xFF000010⟩; let s := up [.obj .actState 3 0 (.num 4), .obj .actHandle 3 0 (.num 9), .obj .clkFchState 0 3 (.num 2)]; let h := s.dev.num .actHandle n.val; let st := s.dev.num .actState n.val; s.Inv ∧ s.dev.answers = true ∧ m.addr.toNat = h ∧ h ≠ 0xFFFF ∧ (m.inband = true → (s.dev.ch n.val).inq.length < 16) ∧ (m.inband = false → (s.dev.ch n.val).txq.length < 16) ∧ (st = 3 ∨ st = 4) ∧ m.body.length = 4) ∧
    (let n : Fin 4 := 3; let m : Lemow := ⟨false, 9, 7, [0, 0, 0, 5]⟩; let s := up [.obj .actState 3 0 (.num 5), .obj .actHandle 3 0 (.num 9), .obj .actAlloc 3 1023 (.num 32773)]; let h := s.dev.num .actHandle n.val; let a := m.addr.toNat; let st := s.dev.num .actState n.val; s.Inv ∧ s.dev.answers = true ∧ m.addr.toNat = h ∧ h ≠ 0xFFFF ∧ (m.inband = true → (s.dev.ch n.val).inq.length < 16) ∧ (m.inband = false → (s.dev.ch n.val).txq.length < 16) ∧ (st = 3 ∨ st = 4 ∨ st = 5) ∧ m.body.length = 4 ∧ (let a := beAt m.body 2 2 % 2 ^ 14; a ≠ 0x3FFF ∧ beAt m.body 0 1 ≤ 1 ∧ (s.dev.allocSlot n.val a).isSome = decide (beAt m.body 0 1 = 0))) ∧
    (let n : Fin 4 := 3; let m : Lemow := ⟨false, 9, 7, [1, 0, 0, 5]⟩; let s := up [.obj .actState 3 0 (.num 5), .obj .actHandle 3 0 (.num 9), .obj .actAlloc 3 1023 (.num 32774)]; let h := s.dev.num .actHandle n.val; let a := m.addr.toNat; let st := s.dev.num .actState n.val; s.Inv ∧ s.dev.answers = true ∧ m.addr.toNat = h ∧ h ≠ 0xFFFF ∧ (m.inband = true → (s.dev.ch n.val).inq.length < 16) ∧ (m.inband = false → (s.dev.ch n.val).txq.length < 16) ∧ (st = 3 ∨ st = 4 ∨ st = 5) ∧ m.body.length = 4 ∧ (let a := beAt m.body 2 2 % 2 ^ 14; a ≠ 0x3FFF ∧ beAt m.body 0 1 ≤ 1 ∧ (s.dev.allocSlot n.val a).isSome = decide (beAt m.body 0 1 = 0))) := by
  simp only [inv_iff]
  and_intros <;> decide +kernel

theorem meets_Registration_2 :
    (let n : Fin 4 := 3; let m : Lemow := ⟨false, 9, 7, [0, 0, 0, 5]⟩; let s := up [.obj .actState 3 0 (.num 5), .obj .actHandle 3 0 (.num 9), .obj .actAlloc 3 0 (.num (2 ^ 15 + 4))]; let h := s.dev.num .actHandle n.val; let a := m.addr.toNat; let st := s.dev.num .actState n.val; s.Inv ∧ s.dev.answers = true ∧ m.addr.toNat = h ∧ h ≠ 0xFFFF ∧ (m.inband = true → (s.dev.ch n.val).inq.length < 16) ∧ (m.inband = false → (s.dev.ch n.val).txq.length < 16) ∧ (st = 3 ∨ st = 4 ∨ st = 5) ∧ m.body.length = 4 ∧ (let a := beAt m.body 2 2 % 2 ^ 14; a ≠ 0x3FFF ∧ beAt m.body 0 1 = 0 ∧ s.dev.allocSlot n.val a = none ∧ bitOf (s.dev.num .actAlloc n.val 1) 15 = false ∧ bitOf (s.dev.num .actAlloc n.val 0) 15 = true)) ∧
    (let n : Fin 4 := 3; let m : Lemow := ⟨false, 9, 7, [1, 0, 0, 5]⟩; let s := up [.obj .actState 3 0 (.num 5), .obj .actHandle 3 0 (.num 9), .obj .actAlloc 3 0 (.num (2 ^ 15 + 4)), .obj .actAlloc 3 1 (.num (2 ^ 15 + 5))]; let h := s.dev.num .actHandle n.val; let a := m.addr.toNat; let st := s.dev.num .actState n.val; s.Inv ∧ s.dev.answers = true ∧ m.addr.toNat = h ∧ h ≠ 0xFFFF ∧ (m.inband = true → (s.dev.ch n.val).inq.length < 16) ∧ (m.inband = false → (s.dev.ch n.val).txq.length < 16) ∧ (st = 3 ∨ st = 4 ∨ st = 5) ∧ m.body.length = 4 ∧ (let a := beAt m.body 2 2 % 2 ^ 14; a ≠ 0x3FFF ∧ beAt m.body 0 1 = 1 ∧ s.dev.allocSlot n.val a = some 1)) ∧
    (let n : Fin 4 := 3; let m : Lemow := ⟨false, 9, 7, []⟩; let s := up [.obj .actState 3 0 (.num 3), .obj .actHandle 3 0 (.num 9), .fch 3 fun c => { c with eqdTaken := true }]; let h := s.dev.num .actHandle n.val; let st := s.dev.num .actState n.val; s.Inv ∧ s.dev.answers = true ∧ m.addr.toNat = h ∧ h ≠ 0xFFFF ∧ st = 3 ∧ m.body = [] ∧ (s.dev.ch n.val).eqdTaken = true) ∧
    (let n : Fin 4 := 3; let m : Lemow := ⟨false, 9, 7, []⟩; let s := up [.obj .actState 3 0 (.num 3), .obj .actHandle 3 0 (.num 9)]; let h := s.dev.num .actHandle n.val; let st := s.dev.num .actState n.val; s.Inv ∧ s.dev.answers = true ∧ m.addr.toNat = h ∧ h ≠ 0xFFFF ∧ st = 3 ∧ m.body = [] ∧ (s.dev.ch n.val).eqdTaken = false) ∧
    (let n : Fin 4 := 3; let m : Lemow := ⟨false, 9, 7, [0, 3, 0, 1]⟩; let s := up [.obj .actState 3 0 (.num 3), .obj .actHandle 3 0 (.num 9)]; let h := s.dev.num .actHandle n.val; let st := s.dev.num .actState n.val; s.Inv ∧ s.dev.answers = true ∧ m.addr.toNat = h ∧ h ≠ 0xFFFF ∧ st = 3 ∧ m.body.length = 4) ∧
    (let n : Fin 4 := 3; let m : Lemow := ⟨false, 65535, 7, []⟩; let s := up [.obj .actState 3 0 (.num 2), .obj .actHandle 3 0 (.num 65535)]; let h := s.dev.num .actHandle n.val; let st := s.dev.num .actState n.val; s.Inv ∧ s.dev.answers = true ∧ (m.addr.toNat = 0xFFFF ∨ (m.addr.toNat = h ∧ h ≠ 0xFFFF)) ∧ m.body = [] ∧ 2 ≤ st ∧ st ≤ 5) ∧
    (let n : Fin 4 := 3; let m : Lemow := ⟨false, 9, 7, []⟩; let s := up [.obj .actState 3 0 (.num 3), .obj .actHandle 3 0 (.num 9)]; let h := s.dev.num .actHandle n.val; let st := s.dev.num .actState n.val; s.Inv ∧ s.dev.answers = true ∧ (m.addr.toNat = 0xFFFF ∨ (m.addr.toNat = h ∧ h ≠ 0xFFFF)) ∧ m.body = [] ∧ 2 ≤ st ∧ st ≤ 5) ∧
    (let n : Fin 4 := 3; let m : Lemow := ⟨false, 9, 7, []⟩; let s := up [.obj .actState 3 0 (.num 4), .obj .actHandle 3 0 (.num 9)]; let h := s.dev.num .actHandle n.val; let st := s.dev.num .actState n.val; s.Inv ∧ s.dev.answers = true ∧ (m.addr.toNat = 0xFFFF ∨ (m.addr.toNat = h ∧ h ≠ 0xFFFF)) ∧ m.body = [] ∧ 2 ≤ st ∧ st ≤ 5) := by
  simp only [inv_iff]
  and_intros <;> decide +kernel

theorem meets_Registration_3 :
    (let n : Fin 4 := 3; let m : Lemow := ⟨false, 9, 7, []⟩; let s := up [.obj .actState 3 0 (.num 5), .obj .actHandle 3 0 (.num 9)]; let h := s.dev.num .actHandle n.val; let st := s.dev.num .actState n.val; s.Inv ∧ s.dev.answers = true ∧ (m.addr.toNat = 0xFFFF ∨ (m.addr.toNat = h ∧ h ≠ 0xFFFF)) ∧ m.body = [] ∧ 2 ≤ st ∧ st ≤ 5) ∧
    (let n : Fin 4 := 3; let m : Lemow := ⟨false, 65535, 7, beBytes 8 77⟩; let s := up [.obj .actState 3 0 (.num 1), .obj .actHandle 3 0 (.num 9), .obj .idTerminal 0 0 (.num 77)]; let h := s.dev.num .actHandle n.val; let st := s.dev.num .actState n.val; s.Inv ∧ s.dev.answers = true ∧ (m.addr.toNat = 0xFFFF ∨ (m.addr.toNat = 0xFFFE ∧ h = 0xFFFF)) ∧ m.body.length = 8 ∧ st ≠ 6 ∧ beAt m.body 0 8 = s.dev.num .idTerminal) ∧
    (let n : Fin 4 := 3; let m : Lemow := ⟨false, 65535, 7, beBytes 8 77⟩; let s := up [.obj .actState 3 0 (.num 4), .obj .actHandle 3 0 (.num 9), .obj .idTerminal 0 0 (.num 77)]; let h := s.dev.num .actHandle n.val; let st := s.dev.num .actState n.val; s.Inv ∧ s.dev.answers = true ∧ (m.addr.toNat = 0xFFFF ∨ (m.addr.toNat = 0xFFFE ∧ h = 0xFFFF)) ∧ m.body.length = 8 ∧ st ≠ 6 ∧ beAt m.body 0 8 = s.dev.num .idTerminal) ∧
    (let n : Fin 4 := 3; let m : Lemow := ⟨false, 65534, 7, beBytes 8 78⟩; let s := up [.obj .actState 3 0 (.num 1), .obj .actHandle 3 0 (.num 65535), .obj .idTerminal 0 0 (.num 77)]; let h := s.dev.num .actHandle n.val; s.Inv ∧ s.dev.answers = true ∧ (m.addr.toNat = 0xFFFF ∨ (m.addr.toNat = 0xFFFE ∧ h = 0xFFFF)) ∧ m.body.length = 8 ∧ beAt m.body 0 8 ≠ s.dev.num .idTerminal) ∧
    (let n : Fin 4 := 3; let m : Lemow := ⟨false, 65534, 7, beBytes 8 (2 ^ 64 - 1)⟩; let s := up [.obj .actState 3 0 (.num 6), .obj .actHandle 3 0 (.num 65535), .obj .idTerminal 0 0 (.num 77)]; let h := s.dev.num .actHandle n.val; let st := s.dev.num .actState n.val; s.Inv ∧ s.dev.answers = true ∧ (m.addr.toNat = 0xFFFF ∨ (m.addr.toNat = 0xFFFE ∧ h = 0xFFFF)) ∧ m.body.length = 8 ∧ st = 6 ∧ (beAt m.body 0 8 = s.dev.num .idTerminal ∨ beAt m.body 0 8 = 2 ^ 64 - 1) ∧ s.dev.num .feState n.val ≠ 2 ∧ (∀ q ∈ s.dev.busyQueues, s.dev.portOf q ≠ 108 + n.val)) ∧
    (let n : Fin 4 := 3; let s := up [.obj .actState 3 0 (.num 2), .obj .actHandle 3 0 (.num 9), .obj .tmSvcCfg 0 0 (.oct (beBytes 4 111 ++ zeros 12)), .tm fun t => { t with queues := [(5, [⟨zeros 60, zeros 60, false, [], none, 0, 0, none, none, 0, 0, false⟩])] }]; s.Inv ∧ s.dev.answers = true ∧ s.dev.num .actState n.val = 2) ∧
    (let n : Fin 4 := 3; let s := up [.obj .actState 3 0 (.num 3), .obj .actHandle 3 0 (.num 9), .obj .tmSvcCfg 0 0 (.oct (beBytes 4 111 ++ zeros 12)), .tm fun t => { t with queues := [(5, [⟨zeros 60, zeros 60, false, [], none, 0, 0, none, none, 0, 0, false⟩])] }]; s.Inv ∧ s.dev.answers = true ∧ s.dev.num .actState n.val = 3) ∧
    (let n : Fin 4 := 3; let s := up [.obj .actState 3 0 (.num 5), .obj .actHandle 3 0 (.num 9), .obj .tmSvcCfg 0 0 (.oct (beBytes 4 111 ++ zeros 12)), .tm fun t => { t with queues := [(5, [⟨zeros 60, zeros 60, false, [], none, 0, 0, none, none, 0, 0, false⟩])] }]; s.Inv ∧ s.dev.answers = true ∧ s.dev.num .actState n.val = 5) := by
  simp only [inv_iff]
  and_intros <;> decide +kernel

theorem meets_Registration_4 :
    (let n : Fin 4 := 3; let s := up []; s.Inv ∧ s.dev.answers = true ∧ s.dev.num .actState n.val ≠ 2 ∧ s.dev.num .actState n.val ≠ 3 ∧ s.dev.num .actState n.val ≠ 5) ∧
    (let n : Fin 4 := 3; let o : Origin := ⟨.mband 3 false, 0x0200, 1⟩; let v : BitVec 32 := 16; let s := up []; s.Inv ∧ s.dev.admits (writeReq o .actEqd n.val 0 (.num v.toNat))) ∧
    (let n : Fin 4 := 3; let o := sec; let s := up [.obj .actState 3 0 (.num 6), .obj .feState 3 0 (.num 2)]; s.Inv ∧ s.dev.admits (execReq o .actRestart n.val 0 true (.num 0)) ∧ s.dev.num .actState n.val = 6) ∧
    (let n : Fin 4 := 3; let o := sec; let s := up [.obj .actState 3 0 (.num 4), .obj .feState 3 0 (.num 2)]; s.Inv ∧ s.dev.admits (execReq o .actRestart n.val 0 true (.num 0)) ∧ s.dev.num .actState n.val ≠ 6) := by
  simp only [inv_iff, admits_iff]
  and_intros <;> decide +kernel

theorem meets_WindowTransmissions :
    (let n : Fin 4 := 3; let m : Lemow := ⟨false, 0xFFFF, 7, beBytes 1 0 ++ beBytes 1 0 ++ beBytes 1 0 ++ [0] ++ beBytes 8 2 ++ beBytes 2 49999 ++ [0, 0] ++ beBytes 4 70000 ++ beBytes 4 5⟩; let s := up [.obj .actState 3 0 (.num 1), .fch 3 fun c => { c with windows := [⟨0, 0, 0, 9, 0, 50000, 0⟩, ⟨0, 0, 0, 9, 0, 50000, 0⟩, ⟨0, 0, 0, 9, 0, 50000, 0⟩] }]; let st := s.dev.num .actState n.val; let w := msgWindow m; let live := (s.dev.ch n.val).windows.filter (fun x => !s.dev.windowOver n.val x); s.Inv ∧ s.dev.answers = true ∧ m.addr.toNat = 0xFFFF ∧ m.body.length = 24 ∧ w.bad = false ∧ w.kind = 0 ∧ (st = 1 ∨ st = 2) ∧ (st = 1 → (s.dev.ch n.val).holdoff = false) ∧ s.dev.num .frmFrame n.val + 2 ≤ w.frame ∧ capsHas (s.dev.caps n.val) w.phy w.sf = true ∧ s.dev.windowNeed n.val w ≤ w.dur ∧ live.length < 4) ∧
    (let n : Fin 4 := 3; let m : Lemow := ⟨false, 0xFFFF, 7, beBytes 1 0 ++ beBytes 1 0 ++ beBytes 1 0 ++ [0] ++ beBytes 8 2 ++ beBytes 2 49999 ++ [0, 0] ++ beBytes 4 70000 ++ beBytes 4 5⟩; let s := up [.obj .actState 3 0 (.num 2), .fch 3 fun c => { c with windows := [] }]; let st := s.dev.num .actState n.val; let w := msgWindow m; let live := (s.dev.ch n.val).windows.filter (fun x => !s.dev.windowOver n.val x); s.Inv ∧ s.dev.answers = true ∧ m.addr.toNat = 0xFFFF ∧ m.body.length = 24 ∧ w.bad = false ∧ w.kind = 0 ∧ (st = 1 ∨ st = 2) ∧ (st = 1 → (s.dev.ch n.val).holdoff = false) ∧ s.dev.num .frmFrame n.val + 2 ≤ w.frame ∧ capsHas (s.dev.caps n.val) w.phy w.sf = true ∧ s.dev.windowNeed n.val w ≤ w.dur ∧ live.length < 4) ∧
    (let n : Fin 4 := 3; let m : Lemow := ⟨false, 0xFFFF, 7, beBytes 1 0 ++ beBytes 1 0 ++ beBytes 1 0 ++ [0] ++ beBytes 8 1 ++ beBytes 2 49999 ++ [0, 0] ++ beBytes 4 70000 ++ beBytes 4 5⟩; let s := up [.obj .actState 3 0 (.num 1), .fch 3 fun c => { c with windows := [] }]; let st := s.dev.num .actState n.val; let w := msgWindow m; let live := (s.dev.ch n.val).windows.filter (fun x => !s.dev.windowOver n.val x); s.Inv ∧ s.dev.answers = true ∧ m.addr.toNat = 0xFFFF ∧ m.body.length = 24 ∧ w.bad = false ∧ w.kind = 0 ∧ (st = 1 ∨ st = 2) ∧ (st = 1 → (s.dev.ch n.val).holdoff = false) ∧ (w.frame < s.dev.num .frmFrame n.val + 2 ∨ capsHas (s.dev.caps n.val) w.phy w.sf = false ∨ w.dur < s.dev.windowNeed n.val w ∨ 4 ≤ live.length)) ∧
    (let n : Fin 4 := 3; let m : Lemow := ⟨false, 0xFFFF, 7, beBytes 1 0 ++ beBytes 1 0 ++ beBytes 1 0 ++ [0] ++ beBytes 8 2 ++ beBytes 2 49999 ++ [0, 0] ++ beBytes 4 1 ++ beBytes 4 5⟩; let s := up [.obj .actState 3 0 (.num 1), .fch 3 fun c => { c with windows := [] }]; let st := s.dev.num .actState n.val; let w := msgWindow m; let live := (s.dev.ch n.val).windows.filter (fun x => !s.dev.windowOver n.val x); s.Inv ∧ s.dev.answers = true ∧ m.addr.toNat = 0xFFFF ∧ m.body.length = 24 ∧ w.bad = false ∧ w.kind = 0 ∧ (st = 1 ∨ st = 2) ∧ (st = 1 → (s.dev.ch n.val).holdoff = false) ∧ (w.frame < s.dev.num .frmFrame n.val + 2 ∨ capsHas (s.dev.caps n.val) w.phy w.sf = false ∨ w.dur < s.dev.windowNeed n.val w ∨ 4 ≤ live.length)) ∧
    (let n : Fin 4 := 3; let m : Lemow := ⟨false, 0xFFFF, 7, beBytes 1 0 ++ beBytes 1 0 ++ beBytes 1 0 ++ [0] ++ beBytes 8 2 ++ beBytes 2 49999 ++ [0, 0] ++ beBytes 4 70000 ++ beBytes 4 5⟩; let s := up [.obj .actState 3 0 (.num 1), .fch 3 fun c => { c with windows := [⟨0, 0, 0, 9, 0, 50000, 0⟩, ⟨0, 0, 0, 9, 0, 50000, 0⟩, ⟨0, 0, 0, 9, 0, 50000, 0⟩, ⟨0, 0, 0, 9, 0, 50000, 0⟩] }]; let st := s.dev.num .actState n.val; let w := msgWindow m; let live := (s.dev.ch n.val).windows.filter (fun x => !s.dev.windowOver n.val x); s.Inv ∧ s.dev.answers = true ∧ m.addr.toNat = 0xFFFF ∧ m.body.length = 24 ∧ w.bad = false ∧ w.kind = 0 ∧ (st = 1 ∨ st = 2) ∧ (st = 1 → (s.dev.ch n.val).holdoff = false) ∧ (w.frame < s.dev.num .frmFrame n.val + 2 ∨ capsHas (s.dev.caps n.val) w.phy w.sf = false ∨ w.dur < s.dev.windowNeed n.val w ∨ 4 ≤ live.length)) ∧
    (let n : Fin 4 := 3; let s := up [.obj .frmFrame 3 0 (.num 99), .fch 3 fun c => { c with windows := [⟨0, 0, 0, 9, 0, 50000, 0⟩] }]; s.Inv ∧ s.dev.answers = true ∧ (∀ w ∈ (s.dev.ch n.val).windows, w.kind = 0 → s.dev.windowOver n.val w = true)) ∧
    (let n : Fin 4 := 3; let w : Window := ⟨0, 0, 0, 10, 100, 60000, 5⟩; let rest : List Window := []; let s := up [.obj .actState 3 0 (.num 2), .obj .feState 3 0 (.num 2), .obj .hvState 0 0 (.num 2), .obj .clkFchState 0 3 (.num 2), .fch 3 fun c => { c with windows := [w], laserAge := 100, skips := 2 }]; let st := s.dev.num .actState n.val; s.Inv ∧ s.dev.answers = true ∧ s.dev.nextWindow n.val 0 = some (w, rest) ∧ st = 2 ∧ 0 < (s.dev.ch n.val).skips) ∧
    (let n : Fin 4 := 3; let w : Window := ⟨0, 0, 0, 10, 100, 60000, 5⟩; let rest : List Window := []; let s := up [.obj .actState 3 0 (.num 2), .obj .feState 3 0 (.num 2), .obj .hvState 0 0 (.num 2), .obj .clkFchState 0 3 (.num 2), .fch 3 fun c => { c with windows := [w], laserAge := 100, attempt := 1 }]; let st := s.dev.num .actState n.val; s.Inv ∧ s.dev.answers = true ∧ s.dev.nextWindow n.val 0 = some (w, rest) ∧ st = 2 ∧ (s.dev.ch n.val).skips = 0 ∧ s.dev.tooLong n.val w.phy w.sf 20 = false ∧ s.dev.laserReady n.val = true ∧ (s.dev.ch n.val).onAir = none ∧ s.dev.sec.trngOff = false) := by
  simp only [inv_iff]
  and_intros <;> decide +kernel

theorem meets_WindowTransmissions_2 :
    (let n : Fin 4 := 3; let w : Window := ⟨1, 2, 0, 10, 100, 60000, 5⟩; let rest : List Window := []; let s := up [.obj .actState 3 0 (.num 3), .obj .feState 3 0 (.num 2), .obj .hvState 0 0 (.num 2), .obj .clkFchState 0 3 (.num 2), .fch 3 fun c => { c with windows := [w], laserAge := 100, burstOn := false }]; let st := s.dev.num .actState n.val; s.Inv ∧ s.dev.answers = true ∧ s.dev.nextWindow n.val 1 = some (w, rest) ∧ (st = 3 ∨ st = 4) ∧ w.phy = 2 ∧ s.dev.laserReady n.val = true ∧ (s.dev.ch n.val).onAir = none ∧ s.dev.num .actDozeState n.val ≠ 3 ∧ s.dev.hitsBurst n.val (upPos w.frame w.unit (s.dev.windowEqd n.val w)) (s.dev.windowNeed n.val w) = false ∧ (s.dev.ch n.val).ldPend = false) ∧
    (let n : Fin 4 := 3; let w : Window := ⟨1, 2, 0, 10, 100, 60000, 5⟩; let rest : List Window := []; let s := up [.obj .actState 3 0 (.num 4), .obj .feState 3 0 (.num 2), .obj .hvState 0 0 (.num 2), .obj .clkFchState 0 3 (.num 2), .fch 3 fun c => { c with windows := [w], laserAge := 100, burstOn := false }]; let st := s.dev.num .actState n.val; s.Inv ∧ s.dev.answers = true ∧ s.dev.nextWindow n.val 1 = some (w, rest) ∧ (st = 3 ∨ st = 4) ∧ w.phy = 2 ∧ s.dev.laserReady n.val = true ∧ (s.dev.ch n.val).onAir = none ∧ s.dev.num .actDozeState n.val ≠ 3 ∧ s.dev.hitsBurst n.val (upPos w.frame w.unit (s.dev.windowEqd n.val w)) (s.dev.windowNeed n.val w) = false ∧ (s.dev.ch n.val).ldPend = false) ∧
    (let n : Fin 4 := 3; let s := up []; s.Inv ∧ s.dev.answers = true ∧ (s.dev.ch n.val).modePend = none) ∧
    (let n : Fin 4 := 3; let mode := 5242880; let f := 9; let s := up [.obj .frmFrame 3 0 (.num 8), .fch 3 fun c => { c with modePend := some (5242880, 9) }]; s.Inv ∧ s.dev.answers = true ∧ (s.dev.ch n.val).modePend = some (mode, f) ∧ mode < 2 ^ 30 ∧ s.dev.num .actMode n.val < 2 ^ 30 ∧ s.dev.num .frmFrame n.val < f) ∧
    (let n : Fin 4 := 3; let mode := 935329792; let f := 8; let s := up [.obj .frmFrame 3 0 (.num 8), .fch 3 fun c => { c with modePend := some (935329792, 8) }]; s.Inv ∧ s.dev.answers = true ∧ (s.dev.ch n.val).modePend = some (mode, f) ∧ mode < 2 ^ 30 ∧ s.dev.num .actMode n.val < 2 ^ 30 ∧ f ≤ s.dev.num .frmFrame n.val) ∧
    (let n : Fin 4 := 3; let s := up [.obj .actDozeState 3 0 (.num 2), .obj .frmFrame 3 0 (.num 64), .fch 3 fun c => { c with dozeStart := 64 }]; s.Inv ∧ s.dev.answers = true ∧ s.dev.num .actDozeState n.val = 2 ∧ (s.dev.ch n.val).dozeStart ≤ s.dev.num .frmFrame n.val) ∧
    (let n : Fin 4 := 3; let s := up [.obj .actDozeState 3 0 (.num 2), .obj .frmFrame 3 0 (.num 63), .fch 3 fun c => { c with dozeStart := 64 }]; s.Inv ∧ s.dev.answers = true ∧ (s.dev.num .actDozeState n.val ≠ 2 ∨ s.dev.num .frmFrame n.val < (s.dev.ch n.val).dozeStart)) := by
  simp only [inv_iff]
  and_intros <;> decide +kernel

theorem meets_GrantsAndBursts :
    (let e : BitVec 64 := 7; let s := up [.obj .actState 3 0 (.num 4), .obj .actAlloc 3 7 (.num (2 ^ 15 + 5)), .fch 3 fun c => { c with grants := ⟨0, 0, 0, [], []⟩, bursts := [] }]; s.Inv ∧ s.dev.answers = true ∧ grantCheck e.toNat ≠ e.toNat % 2 ^ 14) ∧
    (let n : Fin 4 := 3; let fr : BitVec 51 := 9; let e : BitVec 64 := BitVec.ofNat 64 ((6 * 2 ^ 50 + 0 * 2 ^ 34 + 1000 * 2 ^ 18 + 0 * 2 ^ 17) + grantCheck (6 * 2 ^ 50 + 0 * 2 ^ 34 + 1000 * 2 ^ 18 + 0 * 2 ^ 17)); let s := up [.obj .actState 3 0 (.num 4), .obj .actAlloc 3 7 (.num (2 ^ 15 + 5)), .fch 3 fun c => { c with grants := ⟨0, 0, 0, [], []⟩, bursts := [] }]; let a := e.toNat / 2 ^ 50; s.Inv ∧ s.dev.answers = true ∧ grantCheck e.toNat = e.toNat % 2 ^ 14 ∧ s.dev.heldAt n.val a fr.toNat = false) ∧
    (let n : Fin 4 := 3; let fr : BitVec 51 := 9; let e : BitVec 64 := BitVec.ofNat 64 ((5 * 2 ^ 50 + 0 * 2 ^ 34 + 1000 * 2 ^ 18 + 0 * 2 ^ 17) + grantCheck (5 * 2 ^ 50 + 0 * 2 ^ 34 + 1000 * 2 ^ 18 + 0 * 2 ^ 17)); let s := up [.obj .actState 3 0 (.num 3), .obj .actAlloc 3 7 (.num (2 ^ 15 + 5)), .fch 3 fun c => { c with grants := ⟨0, 0, 0, [], []⟩, bursts := [] }]; let a := e.toNat / 2 ^ 50; s.Inv ∧ s.dev.answers = true ∧ grantCheck e.toNat = e.toNat % 2 ^ 14 ∧ s.dev.heldAt n.val a fr.toNat = true ∧ (s.dev.num .actState n.val ≠ 4 ∨ s.dev.num .actDozeState n.val = 3)) ∧
    (let n : Fin 4 := 3; let fr : BitVec 51 := 9; let e : BitVec 64 := BitVec.ofNat 64 ((5 * 2 ^ 50 + 50000 * 2 ^ 34 + 1000 * 2 ^ 18 + 0 * 2 ^ 17) + grantCheck (5 * 2 ^ 50 + 50000 * 2 ^ 34 + 1000 * 2 ^ 18 + 0 * 2 ^ 17)); let s := up [.obj .actState 3 0 (.num 4), .obj .actAlloc 3 7 (.num (2 ^ 15 + 5)), .fch 3 fun c => { c with grants := ⟨0, 0, 0, [], []⟩, bursts := [] }]; let a := e.toNat / 2 ^ 50; let st := e.toNat / 2 ^ 34 % 2 ^ 16; let want := e.toNat / 2 ^ 18 % 2 ^ 16; let uf : Nat := fr.toNat + 2; let g := (if (s.dev.ch n.val).grants.frame = uf then (s.dev.ch n.val).grants else ⟨uf, 0, s.dev.num .actEqd n.val, [], s.dev.bindings n.val⟩); s.Inv ∧ s.dev.answers = true ∧ grantCheck e.toNat = e.toNat % 2 ^ 14 ∧ s.dev.heldAt n.val a fr.toNat = true ∧ s.dev.num .actState n.val = 4 ∧ s.dev.num .actDozeState n.val ≠ 3 ∧ (50000 ≤ st ∨ want = 0 ∨ 64 ≤ g.num)) ∧
    (let n : Fin 4 := 3; let fr : BitVec 51 := 9; let e : BitVec 64 := BitVec.ofNat 64 ((5 * 2 ^ 50 + 0 * 2 ^ 34 + 0 * 2 ^ 18 + 0 * 2 ^ 17) + grantCheck (5 * 2 ^ 50 + 0 * 2 ^ 34 + 0 * 2 ^ 18 + 0 * 2 ^ 17)); let s := up [.obj .actState 3 0 (.num 4), .obj .actAlloc 3 7 (.num (2 ^ 15 + 5)), .fch 3 fun c => { c with grants := ⟨0, 0, 0, [], []⟩, bursts := [] }]; let a := e.toNat / 2 ^ 50; let st := e.toNat / 2 ^ 34 % 2 ^ 16; let want := e.toNat / 2 ^ 18 % 2 ^ 16; let uf : Nat := fr.toNat + 2; let g := (if (s.dev.ch n.val).grants.frame = uf then (s.dev.ch n.val).grants else ⟨uf, 0, s.dev.num .actEqd n.val, [], s.dev.bindings n.val⟩); s.Inv ∧ s.dev.answers = true ∧ grantCheck e.toNat = e.toNat % 2 ^ 14 ∧ s.dev.heldAt n.val a fr.toNat = true ∧ s.dev.num .actState n.val = 4 ∧ s.dev.num .actDozeState n.val ≠ 3 ∧ (50000 ≤ st ∨ want = 0 ∨ 64 ≤ g.num)) ∧
    (let n : Fin 4 := 3; let fr : BitVec 51 := 9; let e : BitVec 64 := BitVec.ofNat 64 ((5 * 2 ^ 50 + 0 * 2 ^ 34 + 1000 * 2 ^ 18 + 0 * 2 ^ 17) + grantCheck (5 * 2 ^ 50 + 0 * 2 ^ 34 + 1000 * 2 ^ 18 + 0 * 2 ^ 17)); let s := up [.obj .actState 3 0 (.num 4), .obj .actAlloc 3 7 (.num (2 ^ 15 + 5)), .fch 3 fun c => { c with grants := ⟨11, 64, 5, [(0, 3)], []⟩, bursts := [] }]; let a := e.toNat / 2 ^ 50; let st := e.toNat / 2 ^ 34 % 2 ^ 16; let want := e.toNat / 2 ^ 18 % 2 ^ 16; let uf : Nat := fr.toNat + 2; let g := (if (s.dev.ch n.val).grants.frame = uf then (s.dev.ch n.val).grants else ⟨uf, 0, s.dev.num .actEqd n.val, [], s.dev.bindings n.val⟩); s.Inv ∧ s.dev.answers = true ∧ grantCheck e.toNat = e.toNat % 2 ^ 14 ∧ s.dev.heldAt n.val a fr.toNat = true ∧ s.dev.num .actState n.val = 4 ∧ s.dev.num .actDozeState n.val ≠ 3 ∧ (50000 ≤ st ∨ want = 0 ∨ 64 ≤ g.num)) ∧
    (let n : Fin 4 := 3; let fr : BitVec 51 := 9; let e : BitVec 64 := BitVec.ofNat 64 ((5 * 2 ^ 50 + 49999 * 2 ^ 34 + 2 * 2 ^ 18 + 0 * 2 ^ 17) + grantCheck (5 * 2 ^ 50 + 49999 * 2 ^ 34 + 2 * 2 ^ 18 + 0 * 2 ^ 17)); let s := up [.obj .actState 3 0 (.num 4), .obj .actAlloc 3 7 (.num (2 ^ 15 + 5)), .fch 3 fun c => { c with grants := ⟨11, 63, 5, [(0, 50000)], []⟩, bursts := [] }]; let a := e.toNat / 2 ^ 50; let st := e.toNat / 2 ^ 34 % 2 ^ 16; let want := e.toNat / 2 ^ 18 % 2 ^ 16; let len := min want (50000 - st); let uf : Nat := fr.toNat + 2; let g := (if (s.dev.ch n.val).grants.frame = uf then (s.dev.ch n.val).grants else ⟨uf, 0, s.dev.num .actEqd n.val, [], s.dev.bindings n.val⟩); s.Inv ∧ s.dev.answers = true ∧ grantCheck e.toNat = e.toNat % 2 ^ 14 ∧ s.dev.heldAt n.val a fr.toNat = true ∧ s.dev.num .actState n.val = 4 ∧ s.dev.num .actDozeState n.val ≠ 3 ∧ st < 50000 ∧ want ≠ 0 ∧ g.num < 64 ∧ (∃ t ∈ g.taken, st < t.2 ∧ t.1 < st + len)) ∧
    (let n : Fin 4 := 3; let fr : BitVec 51 := 9; let e : BitVec 64 := BitVec.ofNat 64 ((5 * 2 ^ 50 + 49999 * 2 ^ 34 + 2 * 2 ^ 18 + 0 * 2 ^ 17) + grantCheck (5 * 2 ^ 50 + 49999 * 2 ^ 34 + 2 * 2 ^ 18 + 0 * 2 ^ 17)); let s := up [.obj .actState 3 0 (.num 4), .obj .actAlloc 3 7 (.num (2 ^ 15 + 5)), .fch 3 fun c => { c with grants := ⟨11, 63, 5, [(0, 49999)], []⟩, bursts := [] }]; let a := e.toNat / 2 ^ 50; let st := e.toNat / 2 ^ 34 % 2 ^ 16; let want := e.toNat / 2 ^ 18 % 2 ^ 16; let len := min want (50000 - st); let uf : Nat := fr.toNat + 2; let g := (if (s.dev.ch n.val).grants.frame = uf then (s.dev.ch n.val).grants else ⟨uf, 0, s.dev.num .actEqd n.val, [], s.dev.bindings n.val⟩); s.Inv ∧ s.dev.answers = true ∧ grantCheck e.toNat = e.toNat % 2 ^ 14 ∧ s.dev.heldAt n.val a fr.toNat = true ∧ s.dev.num .actState n.val = 4 ∧ s.dev.num .actDozeState n.val ≠ 3 ∧ st < 50000 ∧ want ≠ 0 ∧ g.num < 64 ∧ (∀ t ∈ g.taken, t.2 ≤ st ∨ st + len ≤ t.1) ∧ len < s.dev.burstShell n.val) := by
  simp only [inv_iff]
  and_intros <;> decide +kernel

theorem meets_GrantsAndBursts_2 :
    (let n : Fin 4 := 3; let fr : BitVec 51 := 9; let e : BitVec 64 := BitVec.ofNat 64 ((5 * 2 ^ 50 + 0 * 2 ^ 34 + 1000 * 2 ^ 18 + 1 * 2 ^ 17) + grantCheck (5 * 2 ^ 50 + 0 * 2 ^ 34 + 1000 * 2 ^ 18 + 1 * 2 ^ 17)); let s := up [.obj .actState 3 0 (.num 4), .obj .actAlloc 3 7 (.num (2 ^ 15 + 5)), .fch 3 fun c => { c with grants := ⟨11, 3, 5, [], [(5, 9)]⟩, bursts := [⟨9, 1, 0, 10, false, 0, none, true⟩] }]; let a := e.toNat / 2 ^ 50; let st := e.toNat / 2 ^ 34 % 2 ^ 16; let want := e.toNat / 2 ^ 18 % 2 ^ 16; let len := min want (50000 - st); let uf : Nat := fr.toNat + 2; let g := (if (s.dev.ch n.val).grants.frame = uf then (s.dev.ch n.val).grants else ⟨uf, 0, s.dev.num .actEqd n.val, [], s.dev.bindings n.val⟩); s.Inv ∧ s.dev.answers = true ∧ grantCheck e.toNat = e.toNat % 2 ^ 14 ∧ s.dev.heldAt n.val a fr.toNat = true ∧ s.dev.num .actState n.val = 4 ∧ s.dev.num .actDozeState n.val ≠ 3 ∧ st < 50000 ∧ want ≠ 0 ∧ g.num < 64 ∧ (∀ t ∈ g.taken, t.2 ≤ st ∨ st + len ≤ t.1) ∧ s.dev.burstShell n.val ≤ len ∧ s.dev.inRun) ∧
    (let n : Fin 4 := 3; let fr : BitVec 51 := 9; let e : BitVec 64 := BitVec.ofNat 64 ((5 * 2 ^ 50 + 100 * 2 ^ 34 + 1000 * 2 ^ 18 + 0 * 2 ^ 17) + grantCheck (5 * 2 ^ 50 + 100 * 2 ^ 34 + 1000 * 2 ^ 18 + 0 * 2 ^ 17)); let s := up [.obj .actState 3 0 (.num 4), .obj .actAlloc 3 7 (.num (2 ^ 15 + 5)), .fch 3 fun c => { c with grants := ⟨11, 3, 0, [], []⟩, bursts := [⟨10, 1, 49000, 1000, false, 7000, none, false⟩] }]; let a := e.toNat / 2 ^ 50; let st := e.toNat / 2 ^ 34 % 2 ^ 16; let want := e.toNat / 2 ^ 18 % 2 ^ 16; let len := min want (50000 - st); let uf : Nat := fr.toNat + 2; let g := (if (s.dev.ch n.val).grants.frame = uf then (s.dev.ch n.val).grants else ⟨uf, 0, s.dev.num .actEqd n.val, [], s.dev.bindings n.val⟩); s.Inv ∧ s.dev.answers = true ∧ grantCheck e.toNat = e.toNat % 2 ^ 14 ∧ s.dev.heldAt n.val a fr.toNat = true ∧ s.dev.num .actState n.val = 4 ∧ s.dev.num .actDozeState n.val ≠ 3 ∧ st < 50000 ∧ want ≠ 0 ∧ g.num < 64 ∧ (∀ t ∈ g.taken, t.2 ≤ st ∨ st + len ≤ t.1) ∧ s.dev.burstShell n.val ≤ len ∧ s.dev.inRun) ∧
    (let n : Fin 4 := 3; let s := up [.fch 3 fun c => { c with bursts := [⟨9, 1, 0, 10, false, 0, none, true⟩] }]; s.Inv ∧ (∀ b ∈ (s.dev.ch n.val).bursts, b.sent = true)) ∧
    (let n : Fin 4 := 3; let b : Burst := ⟨9, 5, 0, 1000, false, 0, none, false⟩; let s := up [.obj .actState 3 0 (.num 3), .obj .actMode 3 0 (.num 0), .obj .feState 3 0 (.num 2), .obj .hvState 0 0 (.num 2), .obj .clkFchState 0 3 (.num 2), .fch 3 fun c => { c with bursts := [⟨8, 1, 0, 10, false, 0, none, true⟩, b], laserAge := 100 }]; s.Inv ∧ s.dev.answers = true ∧ (s.dev.ch n.val).bursts.find? (fun x => !x.sent) = some b ∧ s.dev.pendingOn 3 (s.dev.lead n.val) = none ∧ (s.dev.num .actState n.val ≠ 4 ∨ s.dev.laserReady n.val = false ∨ s.dev.num .actDozeState n.val = 3)) ∧
    (let n : Fin 4 := 3; let b : Burst := ⟨9, 5, 0, 480, false, 0, none, false⟩; let s := up [.obj .actState 3 0 (.num 4), .obj .actMode 3 0 (.num 0), .obj .feState 3 0 (.num 2), .obj .hvState 0 0 (.num 2), .obj .clkFchState 0 3 (.num 2), .fch 3 fun c => { c with bursts := [⟨8, 1, 0, 10, false, 0, none, true⟩, b], laserAge := 100 }]; let cap := burstCapacity (bitOf (s.dev.num .actMode n.val) 29) (b.len - s.dev.burstShell n.val); s.Inv ∧ s.dev.answers = true ∧ (s.dev.ch n.val).bursts.find? (fun x => !x.sent) = some b ∧ s.dev.pendingOn 3 (s.dev.lead n.val) = none ∧ b.svc = none ∧ s.dev.boundSvc n.val b.alloc = none ∧ b.mgmt = false ∧ (s.dev.ch n.val).fecWas.1 ≤ b.frame ∧ s.dev.num .actState n.val = 4 ∧ s.dev.laserReady n.val = true ∧ (s.dev.ch n.val).onAir = none ∧ s.dev.num .actDozeState n.val ≠ 3 ∧ (s.dev.ch n.val).ldPend = false ∧ s.dev.num .pwrState = 0 ∧ (∀ p ∈ (s.dev.ch n.val).inq, p.dozeEnd = false) ∧ 8 ≤ cap) := by
  simp only [inv_iff, Dev.inRun]
  and_intros <;> decide +kernel

theorem meets_PortConfiguration :
    (let o := sec; let p : Fin 96 := 12; let v : BitVec 8 := 7; let s := up []; s.Inv ∧ s.dev.admits (writeReq o .portMode p.val 0 (.num v.toNat)) ∧ (6 < v.toNat ∨ (v = 5 ∧ p.val % 2 = 1) ∨ (v = 6 ∧ p.val % 4 ≠ 0))) ∧
    (let o := sec; let p : Fin 96 := 13; let v : BitVec 8 := 5; let s := up []; s.Inv ∧ s.dev.admits (writeReq o .portMode p.val 0 (.num v.toNat)) ∧ (6 < v.toNat ∨ (v = 5 ∧ p.val % 2 = 1) ∨ (v = 6 ∧ p.val % 4 ≠ 0))) ∧
    (let o := sec; let p : Fin 96 := 14; let v : BitVec 8 := 6; let s := up []; s.Inv ∧ s.dev.admits (writeReq o .portMode p.val 0 (.num v.toNat)) ∧ (6 < v.toNat ∨ (v = 5 ∧ p.val % 2 = 1) ∨ (v = 6 ∧ p.val % 4 ≠ 0))) ∧
    (let o := sec; let p : Fin 96 := 12; let v : BitVec 8 := 6; let s := up [.obj .portEnable 15 0 (.num 1)]; s.Inv ∧ s.dev.admits (writeReq o .portMode p.val 0 (.num v.toNat)) ∧ v.toNat ≤ 6 ∧ (s.dev.fabricGroup (p.val / 8) = true ∨ s.dev.absorbed p.val = true ∨ s.dev.num .portEnable p.val = 1 ∨ (∃ q ∈ List.range (96), absorbs p.val v.toNat q = true ∧ s.dev.num .portEnable q = 1))) ∧
    (let o := sec; let p : Fin 96 := 13; let v : BitVec 8 := 3; let s := up [.obj .portMode 12 0 (.num 6)]; s.Inv ∧ s.dev.admits (writeReq o .portMode p.val 0 (.num v.toNat)) ∧ v.toNat ≤ 6 ∧ (s.dev.fabricGroup (p.val / 8) = true ∨ s.dev.absorbed p.val = true ∨ s.dev.num .portEnable p.val = 1 ∨ (∃ q ∈ List.range (96), absorbs p.val v.toNat q = true ∧ s.dev.num .portEnable q = 1))) ∧
    (let o := sec; let p : Fin 96 := 12; let v : BitVec 8 := 3; let s := up [.obj .lgPersonality 1 0 (.num 1)]; s.Inv ∧ s.dev.admits (writeReq o .portMode p.val 0 (.num v.toNat)) ∧ v.toNat ≤ 6 ∧ (s.dev.fabricGroup (p.val / 8) = true ∨ s.dev.absorbed p.val = true ∨ s.dev.num .portEnable p.val = 1 ∨ (∃ q ∈ List.range (96), absorbs p.val v.toNat q = true ∧ s.dev.num .portEnable q = 1))) ∧
    (let o := sec; let p : Fin 96 := 12; let v : BitVec 8 := 3; let s := up [.obj .portEnable 12 0 (.num 1)]; s.Inv ∧ s.dev.admits (writeReq o .portMode p.val 0 (.num v.toNat)) ∧ v.toNat ≤ 6 ∧ (s.dev.fabricGroup (p.val / 8) = true ∨ s.dev.absorbed p.val = true ∨ s.dev.num .portEnable p.val = 1 ∨ (∃ q ∈ List.range (96), absorbs p.val v.toNat q = true ∧ s.dev.num .portEnable q = 1))) ∧
    (let o := sec; let p : Fin 96 := 12; let v : BitVec 8 := 6; let s := up [.obj .portEnable 11 0 (.num 1), .obj .portState 12 0 (.num 1)]; s.Inv ∧ s.dev.admits (writeReq o .portMode p.val 0 (.num v.toNat)) ∧ (v.toNat ≤ 6 ∧ s.dev.fabricGroup (p.val / 8) = false ∧ s.dev.absorbed p.val = false ∧ s.dev.num .portEnable p.val ≠ 1 ∧ (∀ q ∈ List.range (96), absorbs p.val v.toNat q = true → s.dev.num .portEnable q ≠ 1))) := by
  simp only [inv_iff, admits_iff]
  and_intros <;> decide +kernel

theorem meets_PortConfiguration_2 :
    (let o := sec; let p : Fin 96 := 12; let v : BitVec 8 := 0; let s := up []; s.Inv ∧ s.dev.admits (writeReq o .portMode p.val 0 (.num v.toNat)) ∧ (v.toNat ≤ 6 ∧ s.dev.fabricGroup (p.val / 8) = false ∧ s.dev.absorbed p.val = false ∧ s.dev.num .portEnable p.val ≠ 1 ∧ (∀ q ∈ List.range (96), absorbs p.val v.toNat q = true → s.dev.num .portEnable q ≠ 1))) ∧
    (let o := sec; let p : Fin 96 := 12; let v : BitVec 8 := 1; let s := up [.obj .portMacsecEnable 12 0 (.num 1)]; s.Inv ∧ s.dev.admits (writeReq o .portEnable p.val 0 (.num v.toNat)) ∧ v = 1 ∧ ¬(s.dev.num .portEnable p.val = 0 ∧ s.dev.num .portMacsecEnable p.val = 1 ∧ s.dev.macsecOver p.val = true) ∧ ¬(s.dev.num .portState p.val = 1 ∨ s.dev.familyClash p.val = true)) ∧
    (let o := sec; let p : Fin 96 := 12; let v : BitVec 8 := 1; let s := up [.obj .portEnable 16 0 (.num 1), .obj .portMode 16 0 (.num 6), .obj .portMacsecEnable 16 0 (.num 1), .obj .portEnable 20 0 (.num 1), .obj .portMode 20 0 (.num 6), .obj .portMacsecEnable 20 0 (.num 1), .obj .portEnable 24 0 (.num 1), .obj .portMode 24 0 (.num 6), .obj .portMacsecEnable 24 0 (.num 1), .obj .portEnable 28 0 (.num 1), .obj .portMode 28 0 (.num 6), .obj .portMacsecEnable 28 0 (.num 1), .obj .portEnable 32 0 (.num 1), .obj .portMode 32 0 (.num 6), .obj .portMacsecEnable 32 0 (.num 1), .obj .portEnable 36 0 (.num 1), .obj .portMode 36 0 (.num 6), .obj .portMacsecEnable 36 0 (.num 1), .obj .portEnable 40 0 (.num 1), .obj .portMode 40 0 (.num 6), .obj .portMacsecEnable 40 0 (.num 1), .obj .portEnable 44 0 (.num 1), .obj .portMode 44 0 (.num 6), .obj .portMacsecEnable 44 0 (.num 1), .obj .portMode 12 0 (.num 6), .obj .portMacsecEnable 12 0 (.num 1)]; s.Inv ∧ s.dev.admits (writeReq o .portEnable p.val 0 (.num v.toNat)) ∧ v = 1 ∧ (s.dev.num .portEnable p.val = 0 ∧ s.dev.num .portMacsecEnable p.val = 1 ∧ s.dev.macsecOver p.val = true)) ∧
    (let o := sec; let p : Fin 96 := 12; let v : BitVec 8 := 1; let s := up [.obj .portEnable 15 0 (.num 1), .obj .portMode 15 0 (.num 3)]; s.Inv ∧ s.dev.admits (writeReq o .portEnable p.val 0 (.num v.toNat)) ∧ v = 1 ∧ ¬(s.dev.num .portEnable p.val = 0 ∧ s.dev.num .portMacsecEnable p.val = 1 ∧ s.dev.macsecOver p.val = true) ∧ (s.dev.num .portState p.val = 1 ∨ s.dev.familyClash p.val = true)) ∧
    (let o := sec; let p : Fin 96 := 12; let v : BitVec 8 := 0; let s := up [.obj .portEnable 12 0 (.num 1), .obj .portState 12 0 (.num 4)]; s.Inv ∧ s.dev.admits (writeReq o .portEnable p.val 0 (.num v.toNat)) ∧ v = 0) ∧
    (let o := sec; let p : Fin 96 := 12; let s := up [.obj .portState 12 0 (.num 1)]; s.Inv ∧ s.dev.admits (execReq o .portRestart p.val 0 true (.oct [])) ∧ s.dev.num .portState p.val ≤ 1) ∧
    (let o := sec; let p : Fin 96 := 12; let s := up [.obj .portState 12 0 (.num 2)]; s.Inv ∧ s.dev.admits (execReq o .portRestart p.val 0 true (.oct [])) ∧ 2 ≤ s.dev.num .portState p.val) ∧
    (let o := sec; let p : Fin 96 := 12; let s := up [.obj .portState 12 0 (.num 4)]; s.Inv ∧ s.dev.admits (execReq o .portRestart p.val 0 true (.oct [])) ∧ 2 ≤ s.dev.num .portState p.val) := by
  simp only [inv_iff, admits_iff]
  and_intros <;> decide +kernel

theorem meets_PortConfiguration_3 :
    (let o := sec; let p : Fin 96 := 12; let s := up [.obj .portMacCounters 12 0 (.oct (patch (zeros 200) 8 [1, 2]))]; s.Inv ∧ s.dev.admits (readReq o .portMacCounters p.val 0 (.oct []))) ∧
    (let o := sec; let g : Fin 12 := 11; let v : BitVec 8 := 1; let s := up [.obj .lgPersonality 11 0 (.num 1)]; s.Inv ∧ s.dev.admits (writeReq o .lgPersonality g.val 0 (.num v.toNat)) ∧ s.dev.num .lgPersonality g.val = v.toNat) ∧
    (let o := sec; let g : Fin 12 := 11; let v : BitVec 8 := 1; let s := up [.obj .portState 88 0 (.num 4), .obj .portMode 92 0 (.num 6)]; s.Inv ∧ s.dev.admits (writeReq o .lgPersonality g.val 0 (.num v.toNat)) ∧ s.dev.num .lgPersonality g.val ≠ v.toNat) ∧
    (let o := sec; let g : Fin 12 := 11; let v : BitVec 8 := 0; let s := up [.obj .lgPersonality 11 0 (.num 1), .obj .portMode 92 0 (.num 6), .obj .portState 88 0 (.num 1), .obj .portState 89 0 (.num 1), .obj .portState 90 0 (.num 1), .obj .portState 91 0 (.num 1), .obj .portState 92 0 (.num 1), .obj .portState 93 0 (.num 1), .obj .portState 94 0 (.num 1), .obj .portState 95 0 (.num 1)]; s.Inv ∧ s.dev.admits (writeReq o .lgPersonality g.val 0 (.num v.toNat)) ∧ s.dev.num .lgPersonality g.val ≠ v.toNat) := by
  simp only [inv_iff, admits_iff]
  and_intros <;> decide +kernel

theorem meets_PortLinks :
    (let p : Fin 96 := 12; let modes : BitVec 16 := 0; let s := up [.obj .portState 12 0 (.num 2), .obj .portMedium 12 0 (.num 0)]; let st := s.dev.num .portState p.val; let md := s.dev.num .portMedium p.val; s.Inv ∧ 0 = commonMode (s.dev.abilities p.val) modes.toNat ∧ (st ≠ 2 ∨ md = 2 ∨ 0 = 0)) ∧
    (let p : Fin 96 := 12; let modes : BitVec 16 := 65535; let s := up [.obj .portState 12 0 (.num 2), .obj .portMedium 12 0 (.num 0), .obj .portMode 12 0 (.num 6), .obj .portAdvertise 12 0 (.num 126), .obj .portEeeEnable 12 0 (.num 1)]; let st := s.dev.num .portState p.val; let md := s.dev.num .portMedium p.val; s.Inv ∧ 6 = commonMode (s.dev.abilities p.val) modes.toNat ∧ s.dev.linksRun = true ∧ st = 2 ∧ md ≠ 2 ∧ 6 ≠ 0) ∧
    (let p : Fin 96 := 12; let modes : BitVec 16 := 14; let s := up [.obj .portState 12 0 (.num 2), .obj .portMedium 12 0 (.num 0), .obj .portAdvertise 12 0 (.num 126)]; let st := s.dev.num .portState p.val; let md := s.dev.num .portMedium p.val; s.Inv ∧ 3 = commonMode (s.dev.abilities p.val) modes.toNat ∧ s.dev.linksRun = true ∧ st = 2 ∧ md ≠ 2 ∧ 3 ≠ 0) ∧
    (let p : Fin 96 := 12; let modes : BitVec 16 := 2; let s := up [.obj .portState 12 0 (.num 2), .obj .portMedium 12 0 (.num 0), .obj .portAdvertise 12 0 (.num 126)]; let st := s.dev.num .portState p.val; let md := s.dev.num .portMedium p.val; s.Inv ∧ 1 = commonMode (s.dev.abilities p.val) modes.toNat ∧ s.dev.linksRun = true ∧ st = 2 ∧ md ≠ 2 ∧ 1 ≠ 0) ∧
    (let p : Fin 96 := 12; let s := up [.obj .portState 12 0 (.num 2), .obj .portMedium 12 0 (.num 2)]; let st := s.dev.num .portState p.val; let md := s.dev.num .portMedium p.val; s.Inv ∧ s.dev.linksRun = true ∧ st = 2 ∧ md = 2) ∧
    (let p : Fin 96 := 12; let s := up [.obj .portState 12 0 (.num 3), .obj .portMedium 12 0 (.num 0)]; let st := s.dev.num .portState p.val; s.Inv ∧ s.dev.linksRun = true ∧ st ≠ 2) ∧
    (let p : Fin 96 := 12; let lanes : List TrainLane := [⟨⟨100000, 1⟩, [(0, true), (2, false), (1, true)]⟩]; let steps : List SteerStep := [⟨[⟨64, 1⟩], true, [⟨64, 1⟩], true, [⟨64, 1⟩]⟩]; let nrz := true; let cs : List Nat := [0, 2]; let s := up [.obj .portState 12 0 (.num 3), .obj .portMedium 12 0 (.num 0), .obj .portResolved 12 0 (.num 50397184)]; let st := s.dev.num .portState p.val; s.Inv ∧ s.dev.linksRun = true ∧ st = 3 ∧ lanes.length = s.dev.resLanes p.val ∧ p.val % 8 + lanes.length ≤ 8 ∧ nrz = (modeFamily (s.dev.resMode p.val) == 1) ∧ cs = steerOrder (s.dev.resMode p.val) ∧ (steer cs steps cs false).2 = false) ∧
    (let p : Fin 96 := 12; let lanes : List TrainLane := [⟨⟨100000, 1⟩, [(0, true), (2, false), (1, true)]⟩]; let steps : List SteerStep := [⟨[⟨64, 1⟩], true, [⟨6400, 1⟩], true, [⟨64, 1⟩]⟩, ⟨[⟨64, 1⟩], true, [⟨64, 1⟩], true, [⟨64, 1⟩]⟩, ⟨[⟨64, 1⟩], false, [⟨64, 1⟩], false, [⟨64, 1⟩]⟩, ⟨[⟨64, 1⟩], false, [⟨64, 1⟩], true, [⟨6400, 1⟩]⟩, ⟨[⟨64, 1⟩], true, [⟨64, 1⟩], true, [⟨64, 1⟩]⟩, ⟨[⟨64, 1⟩], true, [⟨64, 1⟩], true, [⟨64, 1⟩]⟩]; let nrz := true; let cs : List Nat := [0, 2]; let s := up [.obj .portState 12 0 (.num 3), .obj .portMedium 12 0 (.num 0), .obj .portResolved 12 0 (.num 50397184)]; let st := s.dev.num .portState p.val; s.Inv ∧ s.dev.linksRun = true ∧ st = 3 ∧ lanes.length = s.dev.resLanes p.val ∧ p.val % 8 + lanes.length ≤ 8 ∧ nrz = (modeFamily (s.dev.resMode p.val) == 1) ∧ cs = steerOrder (s.dev.resMode p.val) ∧ (steer cs steps cs false).2 = true ∧ (∀ x ∈ lanes, s.dev.num .lgFomUp (p.val / 8) ≤ fomOf x.fom)) := by
  simp only [inv_iff]
  and_intros <;> decide +kernel

theorem meets_PortLinks_2 :
    (let p : Fin 96 := 12; let lanes : List TrainLane := [⟨⟨100000, 1⟩, []⟩, ⟨⟨100000, 0⟩, [(3, false)]⟩, ⟨⟨1, 1⟩, []⟩, ⟨⟨100000, 1⟩, []⟩]; let steps : List SteerStep := [⟨[⟨64, 1⟩], true, [⟨64, 1⟩], true, [⟨64, 1⟩]⟩, ⟨[⟨64, 1⟩], true, [⟨64, 1⟩], true, [⟨64, 1⟩]⟩, ⟨[⟨64, 1⟩], true, [⟨64, 1⟩], true, [⟨64, 1⟩]⟩]; let nrz := false; let cs : List Nat := [0, 2, 3]; let s := up [.obj .portState 12 0 (.num 3), .obj .portMedium 12 0 (.num 0), .obj .portResolved 12 0 (.num 100925440)]; let st := s.dev.num .portState p.val; s.Inv ∧ s.dev.linksRun = true ∧ st = 3 ∧ lanes.length = s.dev.resLanes p.val ∧ p.val % 8 + lanes.length ≤ 8 ∧ nrz = (modeFamily (s.dev.resMode p.val) == 1) ∧ cs = steerOrder (s.dev.resMode p.val) ∧ (steer cs steps cs false).2 = true ∧ (∃ x ∈ lanes, fomOf x.fom < s.dev.num .lgFomUp (p.val / 8))) ∧
    (let p : Fin 96 := 12; let s := up [.obj .portState 12 0 (.num 3), .obj .portMedium 12 0 (.num 0), .obj .portResolved 12 0 (.num 50397184)]; let st := s.dev.num .portState p.val; s.Inv ∧ s.dev.linksRun = true ∧ st = 3) ∧
    (let p : Fin 96 := 12; let s := up [.obj .portState 12 0 (.num 3), .obj .portMedium 12 0 (.num 0), .obj .portResolved 12 0 (.num 50397184)]; let st := s.dev.num .portState p.val; s.Inv ∧ s.dev.linksRun = true ∧ st = 3) ∧
    (let p : Fin 96 := 12; let s := up [.obj .portState 12 0 (.num 6), .obj .portMedium 12 0 (.num 0)]; let st := s.dev.num .portState p.val; s.Inv ∧ s.dev.linksRun = true ∧ st = 6) ∧
    (let p : Fin 96 := 12; let s := up [.obj .portState 12 0 (.num 5), .obj .portMedium 12 0 (.num 0)]; let st := s.dev.num .portState p.val; s.Inv ∧ s.dev.linksRun = true ∧ (st = 5 ∨ st = 6)) ∧
    (let p : Fin 96 := 12; let s := up [.obj .portState 12 0 (.num 6), .obj .portMedium 12 0 (.num 0)]; let st := s.dev.num .portState p.val; s.Inv ∧ s.dev.linksRun = true ∧ (st = 5 ∨ st = 6)) ∧
    (let p : Fin 96 := 12; let s := up [.obj .portState 12 0 (.num 4), .obj .portMedium 12 0 (.num 0), .port 12 fun x => { x with egress := [⟨zeros 60, zeros 60, false, [], none, 0, 1, none, none, 0, 0, false⟩] }, .obj .portEeeState 12 0 (.num 3)]; let st := s.dev.num .portState p.val; s.Inv ∧ s.dev.answers = true ∧ st = 4) ∧
    (let p : Fin 96 := 12; let s := up [.obj .portState 12 0 (.num 5), .obj .portMedium 12 0 (.num 0)]; let st := s.dev.num .portState p.val; s.Inv ∧ s.dev.answers = true ∧ st = 5) := by
  simp only [inv_iff]
  and_intros <;> decide +kernel

theorem meets_PortLinks_3 :
    (let p : Fin 96 := 12; let s := up [.obj .portState 12 0 (.num 6), .obj .portMedium 12 0 (.num 0)]; let st := s.dev.num .portState p.val; s.Inv ∧ s.dev.answers = true ∧ st = 6) ∧
    (let p : Fin 96 := 12; let f : Slicer := ⟨1, 1⟩; let s := up [.obj .portState 12 0 (.num 4), .obj .portMedium 12 0 (.num 0), .obj .lgFomRetrain 1 0 (.num 0)]; let st := s.dev.num .portState p.val; s.Inv ∧ s.dev.answers = true ∧ st = 4 ∧ bitOf (s.dev.num .portEeeState p.val) 0 = false ∧ (s.dev.num .lgFomRetrain (p.val / 8) = 0 ∨ s.dev.num .lgFomRetrain (p.val / 8) ≤ fomOf f)) ∧
    (let p : Fin 96 := 12; let f : Slicer := ⟨100000, 1⟩; let s := up [.obj .portState 12 0 (.num 4), .obj .portMedium 12 0 (.num 0), .obj .lgFomRetrain 1 0 (.num 8)]; let st := s.dev.num .portState p.val; s.Inv ∧ s.dev.answers = true ∧ st = 4 ∧ bitOf (s.dev.num .portEeeState p.val) 0 = false ∧ (s.dev.num .lgFomRetrain (p.val / 8) = 0 ∨ s.dev.num .lgFomRetrain (p.val / 8) ≤ fomOf f)) ∧
    (let p : Fin 96 := 12; let f : Slicer := ⟨1, 1⟩; let s := up [.obj .portState 12 0 (.num 4), .obj .portMedium 12 0 (.num 0), .obj .lgFomRetrain 1 0 (.num 8)]; let st := s.dev.num .portState p.val; s.Inv ∧ s.dev.answers = true ∧ st = 4 ∧ bitOf (s.dev.num .portEeeState p.val) 0 = false ∧ fomOf f < s.dev.num .lgFomRetrain (p.val / 8)) ∧
    (let p : Fin 96 := 12; let lane : Fin 8 := 7; let s := up [.obj .portState 12 0 (.num 4), .obj .portMedium 12 0 (.num 0), .obj .portResolved 12 0 (.num 100925440), .obj .portMode 12 0 (.num 6), .obj .lgFomAlarm 1 0 (.num 80), .port 12 fun x => { x with marginLow := false }]; let st := s.dev.num .portState p.val; s.Inv ∧ s.dev.answers = true ∧ st = 4 ∧ bitOf (s.dev.num .portEeeState p.val) 0 = false ∧ s.dev.laneLocked (p.val / 8) lane.val = true ∧ s.dev.portOfLane (p.val / 8) lane.val = p.val) ∧
    (let p : Fin 96 := 12; let lane : Fin 8 := 7; let s := up [.obj .portState 12 0 (.num 4), .obj .portMedium 12 0 (.num 0), .obj .portResolved 12 0 (.num 100925440), .obj .portMode 12 0 (.num 6), .obj .lgFomAlarm 1 0 (.num 80), .port 12 fun x => { x with marginLow := true }]; let st := s.dev.num .portState p.val; s.Inv ∧ s.dev.answers = true ∧ st = 4 ∧ bitOf (s.dev.num .portEeeState p.val) 0 = false ∧ s.dev.laneLocked (p.val / 8) lane.val = true ∧ s.dev.portOfLane (p.val / 8) lane.val = p.val) ∧
    (let p : Fin 96 := 12; let lane : Fin 8 := 7; let s := up [.obj .portState 12 0 (.num 4), .obj .portMedium 12 0 (.num 0), .obj .portResolved 12 0 (.num 100925440), .obj .portMode 12 0 (.num 6), .obj .lgFomAlarm 1 0 (.num 80), .port 12 fun x => { x with marginLow := true }]; let st := s.dev.num .portState p.val; s.Inv ∧ s.dev.answers = true ∧ st = 4 ∧ bitOf (s.dev.num .portEeeState p.val) 0 = false ∧ s.dev.laneLocked (p.val / 8) lane.val = true ∧ s.dev.portOfLane (p.val / 8) lane.val = p.val) ∧
    (let p : Fin 96 := 12; let q : Fin 2 := 1; let s := up [.obj .portState 12 0 (.num 2), .obj .portMedium 12 0 (.num 0)]; let st := s.dev.num .portState p.val; s.Inv ∧ s.dev.answers = true ∧ p.val / 4 % 2 = q.val ∧ 2 ≤ st) := by
  simp only [inv_iff]
  and_intros <;> decide +kernel

theorem meets_PortLinks_4 :
    (let p : Fin 96 := 12; let s := up [.obj .portState 12 0 (.num 4), .obj .portMedium 12 0 (.num 0), .obj .portResolved 12 0 (.num 50405376)]; let st := s.dev.num .portState p.val; s.Inv ∧ s.dev.answers = true ∧ st = 4 ∧ s.dev.resEee p.val = true ∧ bitOf (s.dev.num .portEeeState p.val) 1 = false ∧ s.dev.pickPort p.val none = none ∧
          s.dev.gateOpensWithin p.val (s.dev.eeeTw p.val * 1000) = false ∧ (s.dev.prt p.val).egress = []) ∧
    (let p : Fin 96 := 12; let s := up [.obj .portState 12 0 (.num 4), .obj .portMedium 12 0 (.num 0), .obj .portResolved 12 0 (.num 50405376), .port 12 fun x => { x with egress := [⟨zeros 60, zeros 60, false, [], none, 0, 1, none, none, 0, 0, false⟩] }]; let st := s.dev.num .portState p.val; s.Inv ∧ s.dev.answers = true ∧ st = 4 ∧ s.dev.resEee p.val = true ∧ ((s.dev.pickPort p.val none).isSome = true ∨ (s.dev.prt p.val).egress ≠ [])) ∧
    (let p : Fin 96 := 12; let s := up [.obj .portState 12 0 (.num 4), .obj .portMedium 12 0 (.num 0), .obj .portResolved 12 0 (.num 50405376), .tm fun t => { t with queues := [(96, [⟨zeros 60, zeros 60, false, [], none, 0, 1, none, none, 0, 0, false⟩])] }, .obj .portEeeState 12 0 (.num 2), .tim fun t => { t with secs := 1 }]; let st := s.dev.num .portState p.val; s.Inv ∧ s.dev.answers = true ∧ st = 4 ∧ s.dev.resEee p.val = true ∧ s.dev.num .pwrState = 0 ∧ bitOf (s.dev.num .portEeeState p.val) 1 = true ∧ (s.dev.pickPort p.val none).isSome = true) ∧
    (let p : Fin 96 := 12; let s := up [.obj .portState 12 0 (.num 4), .obj .portMedium 12 0 (.num 0), .obj .portResolved 12 0 (.num 50405376), .obj .portEeeState 12 0 (.num 2), .tim fun t => { t with secs := 1 }]; let st := s.dev.num .portState p.val; s.Inv ∧ s.dev.answers = true ∧ st = 4 ∧ s.dev.resEee p.val = true ∧ bitOf (s.dev.num .portEeeState p.val) 0 = false) ∧
    (let p : Fin 96 := 12; let s := up [.obj .portState 12 0 (.num 4), .obj .portMedium 12 0 (.num 0), .obj .portResolved 12 0 (.num 50405376), .obj .portEeeState 12 0 (.num 3), .tim fun t => { t with secs := 1 }]; let st := s.dev.num .portState p.val; s.Inv ∧ s.dev.answers = true ∧ st = 4 ∧ s.dev.resEee p.val = true ∧ bitOf (s.dev.num .portEeeState p.val) 0 = true) ∧
    (let p : Fin 96 := 12; let q : Nat := 96; let s := up [.obj .portState 12 0 (.num 4), .obj .portMedium 12 0 (.num 0), .obj .portLldpMode 12 0 (.num 1)]; let st := s.dev.num .portState p.val; s.Inv ∧ s.dev.answers = true ∧ s.dev.num .portLldpMode p.val = 1 ∧ st = 4 ∧ s.dev.portAccepts p.val = true ∧
        s.dev.defaultQueue p.val (s.dev.num .carPortTc 0 117 % 8) = some q ∧
        s.dev.admission q (cellsOf (s.dev.lldpFrame p.val)) 0 = (0, false)) ∧
    (let p : Fin 96 := 12; let s := up [.obj .portState 12 0 (.num 3), .obj .portMedium 12 0 (.num 0)]; let st := s.dev.num .portState p.val; s.Inv ∧ (s.dev.num .portLldpMode p.val ≠ 1 ∨ st ≠ 4)) := by
  simp only [inv_iff]
  and_intros <;> decide +kernel

theorem meets_MacFrames :
    (let p : Fin 96 := 95; let s := up [.obj .portState 95 0 (.num 3)]; s.Inv ∧ s.dev.num .portState p.val ≠ 4) ∧
    (let p : Fin 96 := 95; let s := up [.obj .portState 95 0 (.num 4), .obj .pwrState 0 0 (.num 2)]; s.Inv ∧ s.dev.answers = true ∧ s.dev.num .portState p.val = 4 ∧ s.dev.num .pwrState = 2) ∧
    (let p : Fin 96 := 95; let f : EthRx := ⟨zeros 63, 999, 65535⟩; let s := up [.obj .portState 95 0 (.num 4)]; let n := f.data.length; s.Inv ∧ s.dev.answers = true ∧ s.dev.num .portState p.val = 4 ∧ s.dev.num .pwrState ≠ 2 ∧ n < 64) ∧
    (let p : Fin 96 := 95; let f : EthRx := ⟨zeros 65, 999, 65535⟩; let s := up [.obj .portState 95 0 (.num 4), .obj .portMaxFrame 95 0 (.num 64)]; let n := f.data.length; s.Inv ∧ s.dev.answers = true ∧ s.dev.num .portState p.val = 4 ∧ s.dev.num .pwrState ≠ 2 ∧ 64 ≤ n ∧ s.dev.num .portMaxFrame p.val < n) ∧
    (let p : Fin 96 := 95; let f : EthRx := ⟨zeros 64, 999, 65535⟩; let s := up [.obj .portState 95 0 (.num 4)]; let n := f.data.length; let b := f.data.take (n - 4); s.Inv ∧ s.dev.answers = true ∧ s.dev.num .portState p.val = 4 ∧ s.dev.num .pwrState ≠ 2 ∧ 64 ≤ n ∧ n ≤ s.dev.num .portMaxFrame p.val ∧ leNat (f.data.drop (n - 4)) ≠ crcFcs b) ∧
    (let p : Fin 96 := 95; let f : EthRx := ⟨(([2, 0, 0, 0, 0, 9] ++ [2, 0, 0, 0, 0, 1] ++ [0x88, 8] ++ zeros 46) ++ leBytes 4 (crcFcs ([2, 0, 0, 0, 0, 9] ++ [2, 0, 0, 0, 0, 1] ++ [0x88, 8] ++ zeros 46))), 999, 65535⟩; let s := up [.obj .portState 95 0 (.num 4)]; let n := f.data.length; let b := f.data.take (n - 4); s.Inv ∧ s.dev.answers = true ∧ s.dev.num .portState p.val = 4 ∧ s.dev.num .pwrState ≠ 2 ∧ 64 ≤ n ∧ n ≤ s.dev.num .portMaxFrame p.val ∧ leNat (f.data.drop (n - 4)) = crcFcs b ∧ beAt b 12 2 = 0x8808) ∧
    (let p : Fin 96 := 95; let f : EthRx := ⟨(([2, 0, 0, 0, 0, 9] ++ [2, 0, 0, 0, 0, 1] ++ [8, 1] ++ zeros 46) ++ leBytes 4 (crcFcs ([2, 0, 0, 0, 0, 9] ++ [2, 0, 0, 0, 0, 1] ++ [8, 1] ++ zeros 46))), 999, 65535⟩; let s := up [.obj .portState 95 0 (.num 4), .obj .portMacCounters 95 0 (.oct (zeros 200))]; let n := f.data.length; let b := f.data.take (n - 4); s.Inv ∧ s.dev.answers = true ∧ s.dev.num .portState p.val = 4 ∧ s.dev.num .pwrState ≠ 2 ∧ 64 ≤ n ∧ n ≤ s.dev.num .portMaxFrame p.val ∧ leNat (f.data.drop (n - 4)) = crcFcs b ∧ beAt b 12 2 ≠ 0x8808 ∧ s.dev.num .portMacsecEnable p.val = 0 ∧ bitOf (s.dev.num .timePortPtp 0 p.val) 0 = false ∧
            s.dev.num .portLldpMode p.val = 0 ∧ s.dev.portPresent p.val = true ∧ s.dev.portClosed p.val = false ∧ s.dev.inRun ∧
            s.dev.ingressCells p.val + cellsOf b ≤ s.dev.ingressShare p.val) ∧
    (let p : Fin 96 := 95; let s := up [.obj .portState 95 0 (.num 4), .port 95 fun x => { x with egress := [] }]; s.Inv ∧ ((s.dev.prt p.val).egress = [] ∨ s.dev.num .portState p.val ≠ 4)) := by
  simp only [inv_iff, Dev.inRun]
  and_intros <;> decide +kernel

theorem meets_MacFrames_2 :
    (let p : Fin 96 := 95; let q : QPkt := ⟨zeros 60, zeros 10, false, [], none, 0, 1, none, none, 0, 0, false⟩; let s := up [.obj .portState 95 0 (.num 5), .port 95 fun x => { x with egress := [q] }]; s.Inv ∧ ((s.dev.prt p.val).egress = [] ∨ s.dev.num .portState p.val ≠ 4)) ∧
    (let p : Fin 96 := 95; let q : QPkt := ⟨zeros 60, zeros 61, false, [], none, 0, 1, none, none, 0, 0, false⟩; let rest : List QPkt := []; let s := up [.obj .portState 95 0 (.num 4), .obj .portMaxFrame 95 0 (.num 64), .port 95 fun x => { x with egress := [q] }]; s.Inv ∧ (s.dev.prt p.val).egress = q :: rest ∧ s.dev.answers = true ∧ s.dev.num .portState p.val = 4 ∧ s.dev.num .portMacsecEnable p.val = 0 ∧ s.dev.num .portMaxFrame p.val < max 60 q.out.length + 4) ∧
    (let p : Fin 96 := 95; let q : QPkt := ⟨zeros 60, zeros 10, false, [], none, 0, 1, none, none, 0, 0, true⟩; let rest : List QPkt := []; let s := up [.obj .portState 95 0 (.num 4), .obj .portMaxFrame 95 0 (.num 64), .port 95 fun x => { x with egress := [q] }]; s.Inv ∧ (s.dev.prt p.val).egress = q :: rest ∧ s.dev.answers = true ∧ s.dev.num .portState p.val = 4 ∧ s.dev.num .portMacsecEnable p.val = 0 ∧ max 60 q.out.length + 4 ≤ s.dev.num .portMaxFrame p.val ∧ q.bad = true) ∧
    (let p : Fin 96 := 95; let q : QPkt := ⟨zeros 60, zeros 10, false, [], none, 0, 1, none, none, 0, 0, false⟩; let rest : List QPkt := []; let s := up [.obj .portState 95 0 (.num 4), .obj .portMaxFrame 95 0 (.num 64), .port 95 fun x => { x with egress := [q] }]; s.Inv ∧ (s.dev.prt p.val).egress = q :: rest ∧ s.dev.answers = true ∧ s.dev.num .portState p.val = 4 ∧ s.dev.num .portMacsecEnable p.val = 0 ∧ max 60 q.out.length + 4 ≤ s.dev.num .portMaxFrame p.val ∧ q.bad = false ∧ s.dev.num .timePortPtp 0 p.val = 0) := by
  simp only [inv_iff]
  and_intros <;> decide +kernel

theorem meets_BundleStates :
    (let o := sec; let g : Fin 12 := 11; let v : BitVec 8 := 1; let s := up [.obj .lgPersonality 11 0 (.num 1), .obj .fabState 11 0 (.num 0), .obj .fabEnable 11 0 (.num 0)]; s.Inv ∧ s.dev.admits (writeReq o .fabEnable g.val 0 (.num v.toNat)) ∧ v.toNat ≤ 1) ∧
    (let o := sec; let g : Fin 12 := 11; let v : BitVec 8 := 0; let s := up [.obj .lgPersonality 11 0 (.num 1), .obj .fabState 11 0 (.num 4), .obj .fabEnable 11 0 (.num 1)]; s.Inv ∧ s.dev.admits (writeReq o .fabEnable g.val 0 (.num v.toNat)) ∧ v.toNat ≤ 1) ∧
    (let o := sec; let g : Fin 12 := 11; let v : BitVec 8 := 0; let s := up [.obj .lgPersonality 11 0 (.num 1), .obj .fabState 11 0 (.num 1), .obj .fabEnable 11 0 (.num 1)]; s.Inv ∧ s.dev.admits (writeReq o .fabEnable g.val 0 (.num v.toNat)) ∧ v.toNat ≤ 1) ∧
    (let o := sec; let g : Fin 12 := 11; let s := up [.obj .lgPersonality 11 0 (.num 1), .obj .fabState 11 0 (.num 1)]; s.Inv ∧ s.dev.admits (execReq o .fabRestart g.val 0 true (.oct [])) ∧ s.dev.num .fabState g.val ≤ 1) ∧
    (let o := sec; let g : Fin 12 := 11; let s := up [.obj .lgPersonality 11 0 (.num 1), .obj .fabState 11 0 (.num 4)]; s.Inv ∧ s.dev.admits (execReq o .fabRestart g.val 0 true (.oct [])) ∧ 2 ≤ s.dev.num .fabState g.val) ∧
    (let g : Fin 12 := 11; let lanes : List FabLane := [⟨[196605, 196606, 196607, 131072], ⟨100000, 1⟩⟩, ⟨[65534, 65535, 0, 1], ⟨100000, 1⟩⟩, ⟨[458751, 393216, 393217, 393218], ⟨100000, 1⟩⟩, ⟨[262144, 262145, 262146, 262147], ⟨100000, 1⟩⟩]; let s := up [.obj .lgPersonality 11 0 (.num 1), .obj .fabState 11 0 (.num 4), .fab 11 fun b => { b with epoch := 65535 }]; let st := s.dev.num .fabState g.val; s.Inv ∧ s.dev.answers = true ∧ 15 = laneMask (lanesAligned lanes) ∧ st ≠ 2 ∧ st ≠ 3 ∧ st ≠ 5) ∧
    (let g : Fin 12 := 11; let lanes : List FabLane := [⟨[196605, 196606, 196607, 131072], ⟨100000, 1⟩⟩, ⟨[65534, 65535, 0, 1], ⟨100000, 1⟩⟩, ⟨[458751, 393216, 393217, 393218], ⟨100000, 1⟩⟩, ⟨[262144, 262145, 262146, 262147], ⟨100000, 1⟩⟩]; let s := up [.obj .lgPersonality 11 0 (.num 1), .obj .fabState 11 0 (.num 2), .fab 11 fun b => { b with epoch := 65535 }]; let st := s.dev.num .fabState g.val; s.Inv ∧ s.dev.answers = true ∧ 15 = laneMask (lanesAligned lanes) ∧ (st = 2 ∨ st = 3 ∨ st = 5) ∧ st = 2 ∧ (15 % 16 = 15 ∨ 15 / 16 % 16 = 15)) ∧
    (let g : Fin 12 := 11; let lanes : List FabLane := [⟨[196605, 196606, 196607, 131072], ⟨100000, 1⟩⟩, ⟨[65534, 65535, 0, 1], ⟨100000, 1⟩⟩]; let s := up [.obj .lgPersonality 11 0 (.num 1), .obj .fabState 11 0 (.num 2), .fab 11 fun b => { b with epoch := 65535 }]; let st := s.dev.num .fabState g.val; s.Inv ∧ s.dev.answers = true ∧ 3 = laneMask (lanesAligned lanes) ∧ (st = 2 ∨ st = 3 ∨ st = 5) ∧ st = 2 ∧ 3 % 16 ≠ 15 ∧ 3 / 16 % 16 ≠ 15) := by
  simp only [inv_iff, admits_iff]
  and_intros <;> decide +kernel

theorem meets_BundleStates_2 :
    (let g : Fin 12 := 11; let lanes : List FabLane := [⟨[196605, 196606, 196607, 131072], ⟨100000, 1⟩⟩, ⟨[65534, 65535, 0, 1], ⟨100000, 1⟩⟩, ⟨[458751, 393216, 393217, 393218], ⟨100000, 1⟩⟩, ⟨[262144, 262145, 262146, 262147], ⟨100000, 1⟩⟩, ⟨[655361, 655362, 655363, 655364], ⟨100000, 1⟩⟩, ⟨[524290, 524291, 524292, 524293], ⟨100000, 1⟩⟩]; let s := up [.obj .lgPersonality 11 0 (.num 1), .obj .fabState 11 0 (.num 5), .fab 11 fun b => { b with epoch := 65535 }]; let st := s.dev.num .fabState g.val; s.Inv ∧ s.dev.answers = true ∧ 0 = laneMask (lanesAligned lanes) ∧ (st = 2 ∨ st = 3 ∨ st = 5) ∧ st ≠ 2) ∧
    (let g : Fin 12 := 11; let s := up [.obj .lgPersonality 11 0 (.num 1), .obj .fabState 11 0 (.num 2), .fab 11 fun b => { b with  }]; let st := s.dev.num .fabState g.val; s.Inv ∧ s.dev.answers = true ∧ st = 2) ∧
    (let g : Fin 12 := 11; let s := up [.obj .lgPersonality 11 0 (.num 1), .obj .fabState 11 0 (.num 4), .fab 11 fun b => { b with  }]; let st := s.dev.num .fabState g.val; s.Inv ∧ s.dev.answers = true ∧ st ≠ 2 ∧ st ≠ 3 ∧ st ≠ 5) ∧
    (let g : Fin 12 := 11; let s := up [.obj .lgPersonality 11 0 (.num 1), .obj .fabState 11 0 (.num 3), .fab 11 fun b => { b with  }]; let st := s.dev.num .fabState g.val; s.Inv ∧ s.dev.answers = true ∧ st = 3) ∧
    (let g : Fin 12 := 11; let s := up [.obj .lgPersonality 11 0 (.num 1), .obj .fabState 11 0 (.num 5), .fab 11 fun b => { b with opens := [(1, [7])], cells := [(1, 1)], held := [(1, 1)], tx := [(2, [[1]])] }]; let st := s.dev.num .fabState g.val; s.Inv ∧ s.dev.answers = true ∧ st = 5) ∧
    (let g : Fin 12 := 11; let lane : Fin 8 := 7; let s := up [.obj .lgPersonality 11 0 (.num 1), .obj .fabState 11 0 (.num 4), .obj .fabCounters 11 0 (.oct (zeros 96)), .obj .fabResolved 11 0 (.num (2 * 2 ^ 24)), .fab 11 fun b => { b with aligned := 255, route := [(1, 7)], opens := [(1, [7])], cells := [(1, 1)], held := [(1, 1)], tx := [(2, [[1]])] }]; let st := s.dev.num .fabState g.val; s.Inv ∧ s.dev.answers = true ∧ st = 4 ∧ bitOf (s.dev.fabLanes g.val) (s.dev.fabLaneId g.val lane.val) = true ∧ (s.dev.oct .fabCounters g.val).length = 96) ∧
    (let g : Fin 12 := 11; let lane : Fin 8 := 7; let s := up [.obj .lgPersonality 11 0 (.num 1), .obj .fabState 11 0 (.num 4), .fab 11 fun b => { b with aligned := 255 }]; let st := s.dev.num .fabState g.val; s.Inv ∧ s.dev.answers = true ∧ 2 ≤ st ∧ (st ≠ 4 ∨ bitOf (s.dev.fabLanes g.val) (s.dev.fabLaneId g.val lane.val) = false)) ∧
    (let g : Fin 12 := 11; let s := up [.obj .lgPersonality 11 0 (.num 1), .obj .fabState 11 0 (.num 5), .fab 11 fun b => { b with aligned := 255 }]; let st := s.dev.num .fabState g.val; s.Inv ∧ s.dev.answers = true ∧ 2 ≤ st ∧ st ≠ 4) := by
  simp only [inv_iff]
  and_intros <;> decide +kernel

theorem meets_BundleStates_3 :
    (let g : Fin 12 := 11; let s := up [.obj .lgPersonality 11 0 (.num 1), .obj .fabState 11 0 (.num 1), .fab 11 fun b => { b with  }]; let st := s.dev.num .fabState g.val; s.Inv ∧ s.dev.answers = true ∧ st ≤ 1) := by
  simp only [inv_iff]
  and_intros <;> decide +kernel

theorem meets_BundleCells :
    (let g : Fin 12 := 11; let s := up [.obj .lgPersonality 11 0 (.num 1), .obj .fabState 11 0 (.num 3), .fab 11 fun b => { b with aligned := 240, place := 1310719, epoch := 5 }]; let st := s.dev.num .fabState g.val; let b := s.dev.bnd g.val; s.Inv ∧ s.dev.answers = true ∧ (st = 3 ∨ st = 5) ∧ b.aligned ≠ 0) ∧
    (let g : Fin 12 := 11; let s := up [.obj .lgPersonality 11 0 (.num 1), .obj .fabState 11 0 (.num 5), .fab 11 fun b => { b with aligned := 240, place := 1310719, epoch := 5 }]; let st := s.dev.num .fabState g.val; let b := s.dev.bnd g.val; s.Inv ∧ s.dev.answers = true ∧ (st = 3 ∨ st = 5) ∧ b.aligned ≠ 0) ∧
    (let g : Fin 12 := 11; let s := up [.obj .lgPersonality 11 0 (.num 1), .obj .fabState 11 0 (.num 4), .fab 11 fun b => { b with  }]; let st := s.dev.num .fabState g.val; s.Inv ∧ s.dev.answers = true ∧ st ≠ 3 ∧ st ≠ 5) ∧
    (let g : Fin 12 := 11; let s := up [.obj .lgPersonality 11 0 (.num 1), .obj .fabState 11 0 (.num 4), .obj .fabResolved 11 0 (.num (255 * 2 ^ 24)), .fab 11 fun b => { b with sent := [(3, 70000)], freed := [(2, 9)], round := [2, 5] }]; let st := s.dev.num .fabState g.val; s.Inv ∧ s.dev.answers = true ∧ st = 4) ∧
    (let g : Fin 12 := 11; let s := up [.obj .lgPersonality 11 0 (.num 1), .obj .fabState 11 0 (.num 3), .fab 11 fun b => { b with  }]; let st := s.dev.num .fabState g.val; s.Inv ∧ s.dev.answers = true ∧ st ≠ 4) ∧
    (let g : Fin 12 := 11; let m : List Byte := [1, 0, 0, 9, 0, 0, 0, 0, 0, 0, 0, 7, 255, 0, 0, 100] ++ zeros 30 ++ [1, 0] ++ beBytes 2 6; let s := up [.obj .lgPersonality 11 0 (.num 1), .obj .fabState 11 0 (.num 3), .obj .lnFom 11 0 (.num 255), .obj .lnFom 11 1 (.num 255), .obj .lnFom 11 2 (.num 255), .obj .lnFom 11 3 (.num 255), .obj .lnFom 11 4 (.num 255), .obj .lnFom 11 5 (.num 255), .obj .lnFom 11 6 (.num 255), .obj .lnFom 11 7 (.num 255), .fab 11 fun b => { b with epoch := 5, aligned := 255 }]; let st := s.dev.num .fabState g.val; let b := s.dev.bnd g.val; s.Inv ∧ s.dev.answers = true ∧ m.length = 50 ∧ beAt m 0 1 = 1 ∧ (st = 3 ∨ st = 5) ∧ (beAt m 48 2 ≠ b.epoch ∨ s.dev.resolve g.val m = none)) ∧
    (let g : Fin 12 := 11; let m : List Byte := [1, 0, 0, 9, 0, 0, 0, 0, 0, 0, 0, 7, 255, 0, 0, 100] ++ zeros 30 ++ [1, 0] ++ beBytes 2 6; let s := up [.obj .lgPersonality 11 0 (.num 1), .obj .fabState 11 0 (.num 5), .obj .lnFom 11 0 (.num 255), .obj .lnFom 11 1 (.num 255), .obj .lnFom 11 2 (.num 255), .obj .lnFom 11 3 (.num 255), .obj .lnFom 11 4 (.num 255), .obj .lnFom 11 5 (.num 255), .obj .lnFom 11 6 (.num 255), .obj .lnFom 11 7 (.num 255), .fab 11 fun b => { b with epoch := 6, aligned := 119 }]; let st := s.dev.num .fabState g.val; let b := s.dev.bnd g.val; s.Inv ∧ s.dev.answers = true ∧ m.length = 50 ∧ beAt m 0 1 = 1 ∧ (st = 3 ∨ st = 5) ∧ (beAt m 48 2 ≠ b.epoch ∨ s.dev.resolve g.val m = none)) ∧
    (let g : Fin 12 := 11; let r : Nat × Nat := (255, 100); let m : List Byte := [1, 0, 0, 9, 0, 0, 0, 0, 0, 0, 0, 7, 255, 0, 0, 100] ++ zeros 30 ++ [1, 0] ++ beBytes 2 6; let s := up [.obj .lgPersonality 11 0 (.num 1), .obj .fabState 11 0 (.num 3), .obj .lnFom 11 0 (.num 255), .obj .lnFom 11 1 (.num 255), .obj .lnFom 11 2 (.num 255), .obj .lnFom 11 3 (.num 255), .obj .lnFom 11 4 (.num 255), .obj .lnFom 11 5 (.num 255), .obj .lnFom 11 6 (.num 255), .obj .lnFom 11 7 (.num 255), .fab 11 fun b => { b with epoch := 6, aligned := 255 }]; let st := s.dev.num .fabState g.val; let b := s.dev.bnd g.val; s.Inv ∧ s.dev.answers = true ∧ m.length = 50 ∧ beAt m 0 1 = 1 ∧ (st = 3 ∨ st = 5) ∧ beAt m 48 2 = b.epoch ∧ s.dev.resolve g.val m = some r) := by
  simp only [inv_iff]
  and_intros
  all_goals first
    | decide +kernel
    | exact crc_is _ 126 2325455984 664069344 _ (by decide +kernel) (by decide +kernel) (by decide +kernel)
    | exact crc_is _ 126 3880201988 3287453435 _ (by decide +kernel) (by decide +kernel) (by decide +kernel)
    | exact crc_is _ 126 2610467856 3525030310 _ (by decide +kernel) (by decide +kernel) (by decide +kernel)
    | exact crc_not _ 126 3880201988 3287453435 _ (by decide +kernel) (by decide +kernel) (by decide +kernel)

theorem meets_BundleCells_2 :
    (let g : Fin 12 := 11; let r : Nat × Nat := (240, 100); let m : List Byte := [1, 0, 0, 9, 0, 0, 0, 0, 0, 0, 0, 7, 255, 0, 0, 100] ++ zeros 30 ++ [1, 0] ++ beBytes 2 6; let s := up [.obj .lgPersonality 11 0 (.num 1), .obj .fabState 11 0 (.num 3), .obj .lnFom 11 0 (.num 255), .obj .lnFom 11 1 (.num 255), .obj .lnFom 11 2 (.num 255), .obj .lnFom 11 3 (.num 255), .obj .lnFom 11 4 (.num 255), .obj .lnFom 11 5 (.num 255), .obj .lnFom 11 6 (.num 255), .obj .lnFom 11 7 (.num 255), .fab 11 fun b => { b with epoch := 6, aligned := 240 }]; let st := s.dev.num .fabState g.val; let b := s.dev.bnd g.val; s.Inv ∧ s.dev.answers = true ∧ m.length = 50 ∧ beAt m 0 1 = 1 ∧ (st = 3 ∨ st = 5) ∧ beAt m 48 2 = b.epoch ∧ s.dev.resolve g.val m = some r) ∧
    (let g : Fin 12 := 11; let m : List Byte := [2, 0, 0, 9, 255, 0, 100, 0, 0, 0, 0, 0]; let r : Nat × Nat := (255, 100); let s := up [.obj .lgPersonality 11 0 (.num 1), .obj .fabState 11 0 (.num 3), .fab 11 fun b => { b with hello := [1, 0, 0, 9, 0, 0, 0, 0, 0, 0, 0, 0, 0, 0, 0, 0, 1, 0, 1, 0, 1, 0, 1, 0, 1, 0, 1, 0, 1, 0, 1, 0, 1, 0, 1, 0, 1, 0, 1, 0, 1, 0, 1, 0, 1, 0, 1, 0, 0, 6], resolved := some (255, 100) }]; let st := s.dev.num .fabState g.val; let b := s.dev.bnd g.val; s.Inv ∧ s.dev.answers = true ∧ m.length = 12 ∧ beAt m 0 1 = 2 ∧ (st = 3 ∨ st = 5) ∧ b.resolved = some r ∧ r = (beAt m 4 1, beAt m 5 2)) ∧
    (let g : Fin 12 := 11; let m : List Byte := [2, 0, 0, 9, 255, 0, 100, 0, 0, 0, 0, 0]; let r : Nat × Nat := (255, 100); let s := up [.obj .lgPersonality 11 0 (.num 1), .obj .fabState 11 0 (.num 5), .fab 11 fun b => { b with hello := [1, 0, 0, 9, 0, 0, 0, 0, 0, 0, 0, 0, 0, 0, 0, 0, 1, 0, 1, 0, 1, 0, 1, 0, 1, 0, 1, 0, 1, 0, 1, 0, 1, 0, 1, 0, 1, 0, 1, 0, 1, 0, 1, 0, 1, 0, 1, 0, 0, 6], resolved := some (255, 100) }]; let st := s.dev.num .fabState g.val; let b := s.dev.bnd g.val; s.Inv ∧ s.dev.answers = true ∧ m.length = 12 ∧ beAt m 0 1 = 2 ∧ (st = 3 ∨ st = 5) ∧ b.resolved = some r ∧ r = (beAt m 4 1, beAt m 5 2)) ∧
    (let g : Fin 12 := 11; let m : List Byte := [2, 0, 0, 9, 255, 0, 100, 0, 0, 0, 0, 0]; let r : Nat × Nat := (15, 100); let s := up [.obj .lgPersonality 11 0 (.num 1), .obj .fabState 11 0 (.num 5), .fab 11 fun b => { b with epoch := 65535, resolved := some (15, 100) }]; let st := s.dev.num .fabState g.val; let b := s.dev.bnd g.val; s.Inv ∧ s.dev.answers = true ∧ m.length = 12 ∧ beAt m 0 1 = 2 ∧ (st = 3 ∨ st = 5) ∧ b.resolved = some r ∧ r ≠ (beAt m 4 1, beAt m 5 2)) ∧
    (let g : Fin 12 := 11; let m : List Byte := [2, 0, 0, 9, 255, 0, 100, 0, 0, 0, 0, 0]; let s := up [.obj .lgPersonality 11 0 (.num 1), .obj .fabState 11 0 (.num 3), .fab 11 fun b => { b with  }]; let st := s.dev.num .fabState g.val; let b := s.dev.bnd g.val; s.Inv ∧ s.dev.answers = true ∧ m.length = 12 ∧ beAt m 0 1 = 2 ∧ (st = 3 ∨ st = 5) ∧ b.resolved = none) ∧
    (let g : Fin 12 := 11; let m : List Byte := [3, 0, 0, 9] ++ zeros 12 ++ (List.range 16).flatMap (fun c => beBytes 2 (65535 - c)); let s := up [.obj .lgPersonality 11 0 (.num 1), .obj .fabState 11 0 (.num 4), .fab 11 fun b => { b with inForce := 8 }]; let b := s.dev.bnd g.val; s.Inv ∧ s.dev.answers = true ∧ m.length = 48 ∧ beAt m 0 1 = 3 ∧ beAt m 2 2 ≠ b.inForce) ∧
    (let g : Fin 12 := 11; let m : List Byte := [3, 0, 0, 9] ++ zeros 12 ++ (List.range 16).flatMap (fun c => beBytes 2 (65535 - c)); let s := up [.obj .lgPersonality 11 0 (.num 1), .obj .fabState 11 0 (.num 4), .fab 11 fun b => { b with inForce := 9, rx := [(0, 65534), (15, 65521)] }]; let st := s.dev.num .fabState g.val; let b := s.dev.bnd g.val; s.Inv ∧ s.dev.answers = true ∧ m.length = 48 ∧ beAt m 0 1 = 3 ∧ beAt m 2 2 = b.inForce ∧ st = 4) ∧
    (let g : Fin 12 := 11; let x : List Byte := zeros 256; let s := up [.obj .lgPersonality 11 0 (.num 1), .obj .fabState 11 0 (.num 1), .fab 11 fun b => { b with  }]; let st := s.dev.num .fabState g.val; s.Inv ∧ s.dev.answers = true ∧ x.length = 256 ∧ st ≤ 1) := by
  simp only [inv_iff]
  and_intros
  all_goals first
    | decide +kernel
    | exact crc_is _ 126 2325455984 664069344 _ (by decide +kernel) (by decide +kernel) (by decide +kernel)
    | exact crc_is _ 126 3880201988 3287453435 _ (by decide +kernel) (by decide +kernel) (by decide +kernel)
    | exact crc_is _ 126 2610467856 3525030310 _ (by decide +kernel) (by decide +kernel) (by decide +kernel)
    | exact crc_not _ 126 3880201988 3287453435 _ (by decide +kernel) (by decide +kernel) (by decide +kernel)

theorem meets_BundleCells_3 :
    (let g : Fin 12 := 11; let x : List Byte := zeros 6 ++ [1, 2] ++ zeros 248; let s := up [.obj .lgPersonality 11 0 (.num 1), .obj .fabState 11 0 (.num 2), .fab 11 fun b => { b with  }]; let st := s.dev.num .fabState g.val; let h := beAt x 0 8; s.Inv ∧ s.dev.answers = true ∧ x.length = 256 ∧ 2 ≤ st ∧ h % 2 ^ 16 ≠ crc16 (x.take 6)) ∧
    (let g : Fin 12 := 11; let x : List Byte := (cell 52783269019648 0); let s := up [.obj .lgPersonality 11 0 (.num 1), .obj .fabState 11 0 (.num 4), .obj .fabTxCredits 11 3 (.num 256), .fab 11 fun b => { b with inForce := 25, adv := [(3, 256)] }]; let st := s.dev.num .fabState g.val; let b := s.dev.bnd g.val; let h := beAt x 0 8; let cc := h / 2 ^ 44 % 16; let cum := h / 2 ^ 32 % 4096; let new := s.dev.num .fabTxCredits g.val cc + (cum + 4096 - SMap.get 0 b.cum cc % 4096) % 4096; s.Inv ∧ s.dev.answers = true ∧ x.length = 256 ∧ st = 4 ∧ h % 2 ^ 16 = crc16 (x.take 6) ∧ SMap.get 0 b.adv cc < new) ∧
    (let g : Fin 12 := 11; let x : List Byte := (cell 52778974511104 0); let s := up [.obj .lgPersonality 11 0 (.num 1), .obj .fabState 11 0 (.num 4), .obj .fabTxCredits 11 3 (.num 255), .fab 11 fun b => { b with inForce := 25, adv := [(3, 256)], cum := [(3, 4095)] }]; let st := s.dev.num .fabState g.val; let b := s.dev.bnd g.val; let h := beAt x 0 8; let cc := h / 2 ^ 44 % 16; let cum := h / 2 ^ 32 % 4096; let new := s.dev.num .fabTxCredits g.val cc + (cum + 4096 - SMap.get 0 b.cum cc % 4096) % 4096; s.Inv ∧ s.dev.answers = true ∧ x.length = 256 ∧ st = 4 ∧ h % 2 ^ 16 = crc16 (x.take 6) ∧ new ≤ SMap.get 0 b.adv cc ∧ SMap.get [] b.tx cc = [] ∧ h / 2 ^ 62 = 0 ∧ cellReserved h = false ∧ h / 2 ^ 28 % 16 = b.inForce % 16) ∧
    (let g : Fin 12 := 11; let x : List Byte := (cell 334253950763008 0); let s := up [.obj .lgPersonality 11 0 (.num 1), .obj .fabState 11 0 (.num 4), .obj .fabTxCredits 11 3 (.num 255), .fab 11 fun b => { b with inForce := 25, adv := [(3, 256)], cum := [(3, 4095)] }]; let st := s.dev.num .fabState g.val; let b := s.dev.bnd g.val; let h := beAt x 0 8; let cc := h / 2 ^ 44 % 16; let cum := h / 2 ^ 32 % 4096; let new := s.dev.num .fabTxCredits g.val cc + (cum + 4096 - SMap.get 0 b.cum cc % 4096) % 4096; s.Inv ∧ s.dev.answers = true ∧ x.length = 256 ∧ st = 4 ∧ h % 2 ^ 16 = crc16 (x.take 6) ∧ new ≤ SMap.get 0 b.adv cc ∧ SMap.get [] b.tx cc = [] ∧ h / 2 ^ 62 = 0 ∧ (cellReserved h = true ∨ h / 2 ^ 28 % 16 ≠ b.inForce % 16)) ∧
    (let g : Fin 12 := 11; let x : List Byte := (cell 52778705616896 0); let s := up [.obj .lgPersonality 11 0 (.num 1), .obj .fabState 11 0 (.num 4), .obj .fabTxCredits 11 3 (.num 255), .fab 11 fun b => { b with inForce := 25, adv := [(3, 256)], cum := [(3, 4095)] }]; let st := s.dev.num .fabState g.val; let b := s.dev.bnd g.val; let h := beAt x 0 8; let cc := h / 2 ^ 44 % 16; let cum := h / 2 ^ 32 % 4096; let new := s.dev.num .fabTxCredits g.val cc + (cum + 4096 - SMap.get 0 b.cum cc % 4096) % 4096; s.Inv ∧ s.dev.answers = true ∧ x.length = 256 ∧ st = 4 ∧ h % 2 ^ 16 = crc16 (x.take 6) ∧ new ≤ SMap.get 0 b.adv cc ∧ SMap.get [] b.tx cc = [] ∧ h / 2 ^ 62 = 0 ∧ (cellReserved h = true ∨ h / 2 ^ 28 % 16 ≠ b.inForce % 16)) ∧
    (let g : Fin 12 := 11; let x : List Byte := (cell 6265685760553254912 3630897951); let s := up [.obj .lgPersonality 11 0 (.num 1), .obj .fabState 11 0 (.num 4), .obj .fabTxCredits 11 3 (.num 255), .obj .fabCounters 11 0 (.oct (zeros 96)), .fab 11 fun b => { b with inForce := 25, adv := [(3, 256)], cum := [(3, 4095)], cells := [(5, 1)], opens := [(5, [7])] }]; let st := s.dev.num .fabState g.val; let b := s.dev.bnd g.val; let h := beAt x 0 8; let cc := h / 2 ^ 44 % 16; let cum := h / 2 ^ 32 % 4096; let cls := h / 2 ^ 58 % 16; let new := s.dev.num .fabTxCredits g.val cc + (cum + 4096 - SMap.get 0 b.cum cc % 4096) % 4096; s.Inv ∧ s.dev.answers = true ∧ x.length = 256 ∧ st = 4 ∧ h % 2 ^ 16 = crc16 (x.take 6) ∧ new ≤ SMap.get 0 b.adv cc ∧ SMap.get [] b.tx cc = [] ∧ h / 2 ^ 62 = 1 ∧ cellReserved h = false ∧ h / 2 ^ 28 % 16 = b.inForce % 16 ∧ crc32c (x.take 252) = beAt x 252 4 ∧ (bitOf h 57 = decide (SMap.get 0 b.cells cls ≠ 0) ∨ SMap.get 0 b.cells cls = 68)) ∧
    (let g : Fin 12 := 11; let x : List Byte := (cell 6121570572477399040 1007513860); let s := up [.obj .lgPersonality 11 0 (.num 1), .obj .fabState 11 0 (.num 4), .obj .fabTxCredits 11 3 (.num 255), .obj .fabCounters 11 0 (.oct (zeros 96)), .fab 11 fun b => { b with inForce := 25, adv := [(3, 256)], cum := [(3, 4095)], cells := [], opens := [(5, [7])] }]; let st := s.dev.num .fabState g.val; let b := s.dev.bnd g.val; let h := beAt x 0 8; let cc := h / 2 ^ 44 % 16; let cum := h / 2 ^ 32 % 4096; let cls := h / 2 ^ 58 % 16; let new := s.dev.num .fabTxCredits g.val cc + (cum + 4096 - SMap.get 0 b.cum cc % 4096) % 4096; s.Inv ∧ s.dev.answers = true ∧ x.length = 256 ∧ st = 4 ∧ h % 2 ^ 16 = crc16 (x.take 6) ∧ new ≤ SMap.get 0 b.adv cc ∧ SMap.get [] b.tx cc = [] ∧ h / 2 ^ 62 = 1 ∧ cellReserved h = false ∧ h / 2 ^ 28 % 16 = b.inForce % 16 ∧ crc32c (x.take 252) = beAt x 252 4 ∧ (bitOf h 57 = decide (SMap.get 0 b.cells cls ≠ 0) ∨ SMap.get 0 b.cells cls = 68)) ∧
    (let g : Fin 12 := 11; let x : List Byte := (cell 6121570572477399040 1007513860); let s := up [.obj .lgPersonality 11 0 (.num 1), .obj .fabState 11 0 (.num 4), .obj .fabTxCredits 11 3 (.num 255), .obj .fabCounters 11 0 (.oct (zeros 96)), .fab 11 fun b => { b with inForce := 25, adv := [(3, 256)], cum := [(3, 4095)], cells := [(5, 68)], opens := [(5, [7])] }]; let st := s.dev.num .fabState g.val; let b := s.dev.bnd g.val; let h := beAt x 0 8; let cc := h / 2 ^ 44 % 16; let cum := h / 2 ^ 32 % 4096; let cls := h / 2 ^ 58 % 16; let new := s.dev.num .fabTxCredits g.val cc + (cum + 4096 - SMap.get 0 b.cum cc % 4096) % 4096; s.Inv ∧ s.dev.answers = true ∧ x.length = 256 ∧ st = 4 ∧ h % 2 ^ 16 = crc16 (x.take 6) ∧ new ≤ SMap.get 0 b.adv cc ∧ SMap.get [] b.tx cc = [] ∧ h / 2 ^ 62 = 1 ∧ cellReserved h = false ∧ h / 2 ^ 28 % 16 = b.inForce % 16 ∧ crc32c (x.take 252) = beAt x 252 4 ∧ (bitOf h 57 = decide (SMap.get 0 b.cells cls ≠ 0) ∨ SMap.get 0 b.cells cls = 68)) := by
  simp only [inv_iff]
  and_intros
  all_goals first
    | decide +kernel
    | exact crc_is _ 126 2325455984 664069344 _ (by decide +kernel) (by decide +kernel) (by decide +kernel)
    | exact crc_is _ 126 3880201988 3287453435 _ (by decide +kernel) (by decide +kernel) (by decide +kernel)
    | exact crc_is _ 126 2610467856 3525030310 _ (by decide +kernel) (by decide +kernel) (by decide +kernel)
    | exact crc_not _ 126 3880201988 3287453435 _ (by decide +kernel) (by decide +kernel) (by decide +kernel)

theorem meets_BundleCells_4 :
    (let g : Fin 12 := 11; let x : List Byte := (cell 6265685760553254912 3630897951); let s := up [.obj .lgPersonality 11 0 (.num 1), .obj .fabState 11 0 (.num 4), .obj .fabTxCredits 11 3 (.num 255), .fab 11 fun b => { b with inForce := 25, adv := [(3, 256)], cum := [(3, 4095)], cells := [] }]; let st := s.dev.num .fabState g.val; let b := s.dev.bnd g.val; let h := beAt x 0 8; let cc := h / 2 ^ 44 % 16; let cum := h / 2 ^ 32 % 4096; let cls := h / 2 ^ 58 % 16; let new := s.dev.num .fabTxCredits g.val cc + (cum + 4096 - SMap.get 0 b.cum cc % 4096) % 4096; s.Inv ∧ s.dev.answers = true ∧ x.length = 256 ∧ st = 4 ∧ h % 2 ^ 16 = crc16 (x.take 6) ∧ new ≤ SMap.get 0 b.adv cc ∧ SMap.get [] b.tx cc = [] ∧ h / 2 ^ 62 = 1 ∧ cellReserved h = false ∧ h / 2 ^ 28 % 16 = b.inForce % 16 ∧ crc32c (x.take 252) = beAt x 252 4 ∧ bitOf h 57 = decide (SMap.get 0 b.cells cls = 0) ∧ SMap.get 0 b.cells cls ≠ 68 ∧ bitOf h 56 = false) ∧
    (let g : Fin 12 := 11; let x : List Byte := (cell 6121570572477399040 1007513860); let s := up [.obj .lgPersonality 11 0 (.num 1), .obj .fabState 11 0 (.num 4), .obj .fabTxCredits 11 3 (.num 255), .fab 11 fun b => { b with inForce := 25, adv := [(3, 256)], cum := [(3, 4095)], cells := [(5, 67)] }]; let st := s.dev.num .fabState g.val; let b := s.dev.bnd g.val; let h := beAt x 0 8; let cc := h / 2 ^ 44 % 16; let cum := h / 2 ^ 32 % 4096; let cls := h / 2 ^ 58 % 16; let new := s.dev.num .fabTxCredits g.val cc + (cum + 4096 - SMap.get 0 b.cum cc % 4096) % 4096; s.Inv ∧ s.dev.answers = true ∧ x.length = 256 ∧ st = 4 ∧ h % 2 ^ 16 = crc16 (x.take 6) ∧ new ≤ SMap.get 0 b.adv cc ∧ SMap.get [] b.tx cc = [] ∧ h / 2 ^ 62 = 1 ∧ cellReserved h = false ∧ h / 2 ^ 28 % 16 = b.inForce % 16 ∧ crc32c (x.take 252) = beAt x 252 4 ∧ bitOf h 57 = decide (SMap.get 0 b.cells cls = 0) ∧ SMap.get 0 b.cells cls ≠ 68 ∧ bitOf h 56 = false) ∧
    (let g : Fin 12 := 11; let x : List Byte := (cell 6337743354591182848 769936985); let s := up [.obj .lgPersonality 11 0 (.num 1), .obj .fabState 11 0 (.num 4), .obj .fabTxCredits 11 3 (.num 255), .fab 11 fun b => { b with inForce := 25, adv := [(3, 256)], cum := [(3, 4095)] }]; let st := s.dev.num .fabState g.val; let b := s.dev.bnd g.val; let h := beAt x 0 8; let cc := h / 2 ^ 44 % 16; let cum := h / 2 ^ 32 % 4096; let cls := h / 2 ^ 58 % 16; let new := s.dev.num .fabTxCredits g.val cc + (cum + 4096 - SMap.get 0 b.cum cc % 4096) % 4096; s.Inv ∧ s.dev.answers = true ∧ x.length = 256 ∧ st = 4 ∧ h % 2 ^ 16 = crc16 (x.take 6) ∧ new ≤ SMap.get 0 b.adv cc ∧ SMap.get [] b.tx cc = [] ∧ h / 2 ^ 62 = 1 ∧ cellReserved h = false ∧ h / 2 ^ 28 % 16 = b.inForce % 16 ∧ crc32c (x.take 252) = beAt x 252 4 ∧ bitOf h 57 = true ∧ bitOf h 56 = true ∧ SMap.get 0 b.cells cls = 0 ∧ b.opens = [] ∧
                s.dev.portPresent (96 + g.val) = true ∧ s.dev.portClosed (96 + g.val) = false ∧ s.dev.inRun ∧
                s.dev.ingressCells (96 + g.val) + cellsOf (slice x 8 (h / 2 ^ 48 % 256)) ≤ s.dev.ingressShare (96 + g.val)) ∧
    (let g : Fin 12 := 11; let x : List Byte := (((cell 6121570572477399040 1007513860)).take 255 ++ [0]); let s := up [.obj .lgPersonality 11 0 (.num 1), .obj .fabState 11 0 (.num 4), .obj .fabTxCredits 11 3 (.num 255), .obj .fabCounters 11 0 (.oct (zeros 96)), .fab 11 fun b => { b with inForce := 25, adv := [(3, 256)], cum := [(3, 4095)], cells := [(5, 2)], opens := [(5, [7])] }]; let st := s.dev.num .fabState g.val; let b := s.dev.bnd g.val; let h := beAt x 0 8; let cc := h / 2 ^ 44 % 16; let cum := h / 2 ^ 32 % 4096; let new := s.dev.num .fabTxCredits g.val cc + (cum + 4096 - SMap.get 0 b.cum cc % 4096) % 4096; s.Inv ∧ s.dev.answers = true ∧ x.length = 256 ∧ st = 4 ∧ h % 2 ^ 16 = crc16 (x.take 6) ∧ new ≤ SMap.get 0 b.adv cc ∧ SMap.get [] b.tx cc = [] ∧ h / 2 ^ 62 = 1 ∧ cellReserved h = false ∧ h / 2 ^ 28 % 16 = b.inForce % 16 ∧ crc32c (x.take 252) ≠ beAt x 252 4) := by
  simp only [inv_iff, Dev.inRun]
  and_intros
  all_goals first
    | decide +kernel
    | exact crc_is _ 126 2325455984 664069344 _ (by decide +kernel) (by decide +kernel) (by decide +kernel)
    | exact crc_is _ 126 3880201988 3287453435 _ (by decide +kernel) (by decide +kernel) (by decide +kernel)
    | exact crc_is _ 126 2610467856 3525030310 _ (by decide +kernel) (by decide +kernel) (by decide +kernel)
    | exact crc_not _ 126 3880201988 3287453435 _ (by decide +kernel) (by decide +kernel) (by decide +kernel)

theorem meets_CarouselIntake :
    (let a : Arrival := ⟨95, 7, true, false, none, 5, 6, 2079, 0, 0, zeros 64⟩; let s := up [.obj .portState 95 0 (.num 1)]; let p := s.dev.entryPort a.port.val; s.Inv ∧ a.wf = true ∧ s.dev.answers = true ∧ s.dev.inRun ∧ s.dev.portPresent p = false) ∧
    (let a : Arrival := ⟨107, 7, true, false, none, 5, 6, 2079, 0, 15, zeros 64⟩; let s := up [.obj .lgPersonality 11 0 (.num 1), .obj .fabState 11 0 (.num 4), .fab 11 fun b => { b with held := [(15, 9)] }, .clk fun c => { c with closed := [0x20B] }]; let p := s.dev.entryPort a.port.val; s.Inv ∧ a.wf = true ∧ s.dev.answers = true ∧ s.dev.inRun ∧ s.dev.portPresent p = true ∧ s.dev.portClosed a.port.val = true) ∧
    (let a : Arrival := ⟨107, 7, true, false, none, 5, 6, 2079, 0, 15, zeros 64⟩; let s := up [.obj .lgPersonality 11 0 (.num 1), .obj .fabState 11 0 (.num 4), .fab 11 fun b => { b with held := [(15, 9)] }, .obj .tmIresShare 0 107 (.num 0)]; let p := s.dev.entryPort a.port.val; s.Inv ∧ a.wf = true ∧ s.dev.answers = true ∧ s.dev.inRun ∧ s.dev.portPresent p = true ∧ s.dev.portClosed a.port.val = false ∧ s.dev.ingressShare p < s.dev.ingressCells p + cellsOf a.data) ∧
    (let a : Arrival := ⟨107, 7, true, false, none, 5, 6, 2079, 0, 0, zeros 64⟩; let s := up [.obj .lgPersonality 11 0 (.num 1), .obj .fabState 11 0 (.num 4), .fab 11 fun b => { b with held := [(15, 9)] }]; let p := s.dev.entryPort a.port.val; s.Inv ∧ a.wf = true ∧ s.dev.answers = true ∧ s.dev.inRun ∧ s.dev.portPresent p = true ∧ s.dev.portClosed a.port.val = false ∧ s.dev.ingressCells p + cellsOf a.data ≤ s.dev.ingressShare p) ∧
    (let a : Arrival := ⟨117, 7, true, false, none, 5, 6, 2079, 0, 0, zeros 64⟩; let s := up []; let p := s.dev.entryPort a.port.val; s.Inv ∧ a.wf = true ∧ s.dev.answers = true ∧ s.dev.inRun ∧ s.dev.portPresent p = true ∧ s.dev.portClosed a.port.val = false ∧ s.dev.ingressCells p + cellsOf a.data ≤ s.dev.ingressShare p) ∧
    (let a : Arrival := ⟨110, 7, true, false, (some 0xFFFFF), 5, 6, 2079, 0, 0, zeros 64⟩; let s := up []; let p := s.dev.entryPort a.port.val; s.Inv ∧ a.wf = true ∧ s.dev.answers = true ∧ s.dev.inRun ∧ s.dev.portPresent p = true ∧ s.dev.portClosed a.port.val = false ∧ s.dev.ingressCells p + cellsOf a.data ≤ s.dev.ingressShare p) ∧
    (let a : Arrival := ⟨110, 7, true, false, (some 0xFFFFF), 5, 6, 2079, 0, 0, zeros 64⟩; let s := up [.obj .actMode 2 0 (.num (2 ^ 31))]; let p := s.dev.entryPort a.port.val; s.Inv ∧ a.wf = true ∧ s.dev.answers = true ∧ s.dev.inRun ∧ s.dev.portPresent p = true ∧ s.dev.portClosed a.port.val = false ∧ s.dev.ingressCells p + cellsOf a.data ≤ s.dev.ingressShare p) ∧
    (let p := 115; ((96 ≤ p ∧ p < 108) ∨ (112 ≤ p ∧ p < 116))) := by
  simp only [inv_iff, Dev.inRun]
  and_intros <;> decide +kernel

theorem meets_CarouselIntake_2 :
    (let d := (up [.obj .carPortTc 0 95 (.num 5)]).dev; let p := 95; (p < 96 ∨ (108 ≤ p ∧ p < 112) ∨ 116 ≤ p) ∧ d.num .carPortTc 0 p / 64 = 0) ∧
    (let d := (up [.obj .carPortTc 0 95 (.num 69)]).dev; let p := 95; let start := 0; let b : List Byte := zeros 12 ++ [0x81, 0, 0xC0, 5] ++ zeros 48; (p < 96 ∨ (108 ≤ p ∧ p < 112) ∨ 116 ≤ p) ∧ d.num .carPortTc 0 p / 64 = 1 ∧ (parse d.parseCfg start b).tags ≠ []) ∧
    (let d := (up [.obj .carPortTc 0 117 (.num 69)]).dev; let p := 117; let start := 0; let b : List Byte := zeros 64; (p < 96 ∨ (108 ≤ p ∧ p < 112) ∨ 116 ≤ p) ∧ d.num .carPortTc 0 p / 64 = 1 ∧ (parse d.parseCfg start b).tags = []) ∧
    (let s := up [.fwd fun f => { f with waiting := [] }]; let f : Fwd := s.dev.fwd; s.Inv ∧ s.dev.answers = true ∧ (f.waiting = [] ∨ s.dev.num .pwrState ≠ 0)) ∧
    (let s := up [.obj .pwrState 0 0 (.num 1), .fwd fun f => { f with waiting := [(⟨1, 5, 0, 0, 0, 0, 0, false, false, none, 0, 0, 0, zeros 64, none⟩ : Pkt)] }]; let f : Fwd := s.dev.fwd; s.Inv ∧ s.dev.answers = true ∧ (f.waiting = [] ∨ s.dev.num .pwrState ≠ 0)) ∧
    (let k := 0; let c := 3; let before : List Pkt := [(⟨1, 9, 0, 0, 0, 0, 0, false, false, none, 0, 0, 0, zeros 64, none⟩ : Pkt)]; let x : Pkt := (⟨2, 117, 0, 0, 0, 0, 0, false, false, none, 0, 0, 0, zeros 64, none⟩ : Pkt); let after : List Pkt := [(⟨3, 116, 0, 0, 0, 0, 0, false, false, none, 0, 0, 0, zeros 64, none⟩ : Pkt)]; let s := up [.fwd fun f => { f with waiting := before ++ x :: after, cluster := 3, turn := 9, turnLeft := 2 }]; let f : Fwd := s.dev.fwd; s.Inv ∧ s.dev.answers = true ∧ s.dev.num .pwrState = 0 ∧ k < 4 ∧ c = (f.cluster + k) % 4 ∧ s.dev.windowUsed c < 8192 ∧ k = 0 ∧ f.waiting = before ++ x :: after ∧ (∀ y ∈ before, y.port ≠ x.port ∧ (116 ≤ x.port → y.port < 116)) ∧ 116 ≤ x.port) ∧
    (let k := 0; let c := 0; let before : List Pkt := [(⟨1, 10, 0, 0, 0, 0, 0, false, false, none, 0, 0, 0, zeros 64, none⟩ : Pkt)]; let x : Pkt := (⟨2, 9, 2, 0, 0, 0, 0, false, false, none, 0, 0, 0, zeros 64, none⟩ : Pkt); let after : List Pkt := [(⟨3, 9, 0, 0, 0, 0, 0, false, false, none, 0, 0, 0, zeros 64, none⟩ : Pkt)]; let s := up [.fwd fun f => { f with waiting := before ++ x :: after, turn := 9, turnLeft := 1 }]; let f : Fwd := s.dev.fwd; s.Inv ∧ s.dev.answers = true ∧ s.dev.num .pwrState = 0 ∧ k < 4 ∧ c = (f.cluster + k) % 4 ∧ s.dev.windowUsed c < 8192 ∧ k = 0 ∧ f.waiting = before ++ x :: after ∧ (∀ y ∈ before, y.port ≠ x.port ∧ (116 ≤ x.port → y.port < 116)) ∧ x.port < 116 ∧ (∀ y ∈ f.waiting, y.port < 116) ∧ x.port = f.turn ∧ 0 < f.turnLeft) ∧
    (let q := 0; let k := 0; let c := 0; let before : List Pkt := []; let x : Pkt := (⟨2, 0, 0, 0, 0, 0, 0, false, false, none, 0, 0, 0, zeros 64, none⟩ : Pkt); let after : List Pkt := [(⟨3, 1, 0, 0, 0, 0, 0, false, false, none, 0, 0, 0, zeros 64, none⟩ : Pkt), (⟨4, 0, 0, 0, 0, 0, 0, false, false, none, 0, 0, 0, zeros 64, none⟩ : Pkt)]; let s := up [.obj .carPortWeight 0 0 (.num 1), .fwd fun f => { f with waiting := before ++ x :: after, turn := 115, turnLeft := 0, seqNext := [(0, 6)] }]; let f : Fwd := s.dev.fwd; s.Inv ∧ s.dev.answers = true ∧ s.dev.num .pwrState = 0 ∧ k < 4 ∧ c = (f.cluster + k) % 4 ∧ s.dev.windowUsed c < 8192 ∧ k = 0 ∧ f.waiting = before ++ x :: after ∧ (∀ y ∈ before, y.port ≠ x.port ∧ (116 ≤ x.port → y.port < 116)) ∧ x.port < 116 ∧ (∀ y ∈ f.waiting, y.port < 116) ∧ q < 116 ∧ (f.turnLeft = 0 ∨ (∀ y ∈ f.waiting, y.port ≠ f.turn)) ∧ x.port = (f.turn + 1 + q) % 116) := by
  simp only [inv_iff]
  and_intros <;> decide +kernel

theorem meets_CarouselIntake_3 :
    (let q := 1; let k := 0; let c := 0; let before : List Pkt := []; let x : Pkt := (⟨2, 0, 0, 0, 0, 0, 0, false, false, none, 0, 0, 0, zeros 64, none⟩ : Pkt); let after : List Pkt := [(⟨3, 1, 0, 0, 0, 0, 0, false, false, none, 0, 0, 0, zeros 64, none⟩ : Pkt), (⟨4, 0, 0, 0, 0, 0, 0, false, false, none, 0, 0, 0, zeros 64, none⟩ : Pkt)]; let s := up [.obj .carPortWeight 0 0 (.num 9), .fwd fun f => { f with waiting := before ++ x :: after, turn := 114, turnLeft := 3, seqNext := [(0, 6)] }]; let f : Fwd := s.dev.fwd; s.Inv ∧ s.dev.answers = true ∧ s.dev.num .pwrState = 0 ∧ k < 4 ∧ c = (f.cluster + k) % 4 ∧ s.dev.windowUsed c < 8192 ∧ k = 0 ∧ f.waiting = before ++ x :: after ∧ (∀ y ∈ before, y.port ≠ x.port ∧ (116 ≤ x.port → y.port < 116)) ∧ x.port < 116 ∧ (∀ y ∈ f.waiting, y.port < 116) ∧ q < 116 ∧ (f.turnLeft = 0 ∨ (∀ y ∈ f.waiting, y.port ≠ f.turn)) ∧ x.port = (f.turn + 1 + q) % 116 ∧ (∀ y ∈ f.waiting, y.port ≠ (f.turn + 1 + 0) % 116)) := by
  simp only [inv_iff]
  and_intros <;> decide +kernel

theorem meets_CarouselRelease :
    (let id := 4; let s := up [.fwd fun f => { f with flight := [(⟨4, 0, 0, 0, 0, 0, 0, false, false, none, 0, 0, 0, zeros 64, (some [])⟩ : Pkt)] }]; let f : Fwd := s.dev.fwd; s.Inv ∧ s.dev.answers = true ∧ (∀ y ∈ f.flight, y.id = id → y.done ≠ none)) ∧
    (let id := 4; let before : List Pkt := [(⟨3, 9, 0, 0, 0, 0, 0, false, false, none, 0, 0, 0, zeros 64, none⟩ : Pkt)]; let after : List Pkt := []; let p : Pkt := (⟨4, 95, 3, 8, 0, 0, 0, false, false, none, 0, 0, 0, zeros 10, none⟩ : Pkt); let fates : List Fate := []; let s := up [.obj .prsExcMap 0 2 (.num (1 * 256 + 3 * 64 + 63)), .fwd fun f => { f with flight := before ++ p :: after, relNext := [(763, 9)] }]; let f : Fwd := s.dev.fwd; let c : Dev := s.dev.asOf p.cfgEpoch; let r : Parsed := parse c.parseCfg p.start p.data; let nxt := SMap.get 0 f.relNext p.dom; s.Inv ∧ s.dev.answers = true ∧ f.flight = before ++ p :: after ∧ p.id = id ∧ p.done = none ∧ (∀ y ∈ before, y.id ≠ id) ∧ (∀ y ∈ f.flight, y.dom = p.dom → y.id ≠ id → y.done = none) ∧ (fates = [] ∨ nxt < p.seq) ∧ c.deciding r.excs = some 2 ∧ c.excDisp 2 = 1) ∧
    (let id := 4; let before : List Pkt := [(⟨3, 9, 0, 0, 0, 0, 0, false, false, none, 0, 0, 0, zeros 64, none⟩ : Pkt)]; let after : List Pkt := []; let p : Pkt := (⟨4, 117, 3, 8, 0, 0, 0, false, false, none, 0, 0, 0, zeros 10, none⟩ : Pkt); let fates : List Fate := []; let s := up [.obj .prsExcMap 0 2 (.num (0 * 256 + 3 * 64 + 63)), .fwd fun f => { f with flight := before ++ p :: after, relNext := [(939, 9)] }]; let f : Fwd := s.dev.fwd; let c : Dev := s.dev.asOf p.cfgEpoch; let r : Parsed := parse c.parseCfg p.start p.data; let nxt := SMap.get 0 f.relNext p.dom; s.Inv ∧ s.dev.answers = true ∧ f.flight = before ++ p :: after ∧ p.id = id ∧ p.done = none ∧ (∀ y ∈ before, y.id ≠ id) ∧ (∀ y ∈ f.flight, y.dom = p.dom → y.id ≠ id → y.done = none) ∧ (fates = [] ∨ nxt < p.seq) ∧ c.deciding r.excs = some 2 ∧ c.excDisp 2 = 0 ∧ ((112 ≤ p.port ∧ p.port ≤ 115) ∨ p.port = 117)) ∧
    (let id := 4; let before : List Pkt := [(⟨3, 9, 0, 0, 0, 0, 0, false, false, none, 0, 0, 0, zeros 64, none⟩ : Pkt)]; let after : List Pkt := []; let p : Pkt := (⟨4, 115, 3, 8, 0, 0, 0, false, false, none, 0, 0, 0, zeros 10, none⟩ : Pkt); let fates : List Fate := []; let s := up [.obj .prsExcMap 0 2 (.num (0 * 256 + 3 * 64 + 63)), .fwd fun f => { f with flight := before ++ p :: after, relNext := [(923, 9)] }]; let f : Fwd := s.dev.fwd; let c : Dev := s.dev.asOf p.cfgEpoch; let r : Parsed := parse c.parseCfg p.start p.data; let nxt := SMap.get 0 f.relNext p.dom; s.Inv ∧ s.dev.answers = true ∧ f.flight = before ++ p :: after ∧ p.id = id ∧ p.done = none ∧ (∀ y ∈ before, y.id ≠ id) ∧ (∀ y ∈ f.flight, y.dom = p.dom → y.id ≠ id → y.done = none) ∧ (fates = [] ∨ nxt < p.seq) ∧ c.deciding r.excs = some 2 ∧ c.excDisp 2 = 0 ∧ ((112 ≤ p.port ∧ p.port ≤ 115) ∨ p.port = 117)) ∧
    (let id := 4; let before : List Pkt := []; let after : List Pkt := []; let p : Pkt := (⟨4, 111, 3, 8, 0, 0, 0, false, false, (some (3, 0xFFFFF)), 0, 0, 0, zeros 10, none⟩ : Pkt); let fates : List Fate := [.host (bitsOf 255 6 2) (255 % 64) 3 (slowMeta p (255 % 64)) p.data]; let s := up [.obj .prsExcMap 0 2 (.num (0 * 256 + 3 * 64 + 63)), .fwd fun f => { f with flight := before ++ p :: after, relNext := [(891, 7)] }]; let f : Fwd := s.dev.fwd; let c : Dev := s.dev.asOf p.cfgEpoch; let r : Parsed := parse c.parseCfg p.start p.data; let nxt := SMap.get 0 f.relNext p.dom; s.Inv ∧ s.dev.answers = true ∧ f.flight = before ++ p :: after ∧ p.id = id ∧ p.done = none ∧ (∀ y ∈ before, y.id ≠ id) ∧ (∀ y ∈ f.flight, y.dom = p.dom → y.id ≠ id → y.done = none) ∧ (fates = [] ∨ nxt < p.seq) ∧ c.deciding r.excs = some 2 ∧ c.excDisp 2 = 0 ∧ p.port < 112 ∧ fates = [.host (bitsOf (c.num .prsExcMap 0 2) 6 2) (c.num .prsExcMap 0 2 % 64) p.tc (slowMeta p (c.num .prsExcMap 0 2 % 64)) p.data]) ∧
    (let id := 4; let before : List Pkt := []; let after : List Pkt := [(⟨5, 95, 3, 9, 0, 0, 0, false, false, none, 0, 0, 0, zeros 64, none⟩ : Pkt)]; let p : Pkt := (⟨4, 95, 3, 8, 0, 0, 0, false, false, none, 0, 0, 0, zeros 12 ++ [0x12, 0x34] ++ zeros 46, none⟩ : Pkt); let fates : List Fate := []; let s := up [.fwd fun f => { f with flight := before ++ p :: after, relNext := [(763, 8)] }]; let f : Fwd := s.dev.fwd; let c : Dev := s.dev.asOf p.cfgEpoch; let r : Parsed := parse c.parseCfg p.start p.data; let nxt := SMap.get 0 f.relNext p.dom; s.Inv ∧ s.dev.answers = true ∧ f.flight = before ++ p :: after ∧ p.id = id ∧ p.done = none ∧ (∀ y ∈ before, y.id ≠ id) ∧ (∀ y ∈ f.flight, y.dom = p.dom → y.id ≠ id → y.done = none) ∧ (fates = [] ∨ nxt < p.seq) ∧ r.excs = [] ∧ bitsOf (c.num .fwdPortCfg 0 p.port) 36 4 = 0 ∧ c.tcam p r = none) ∧
    (let id := 4; let before : List Pkt := []; let after : List Pkt := [(⟨5, 95, 3, 9, 0, 0, 0, false, false, none, 0, 0, 0, zeros 64, none⟩ : Pkt)]; let p : Pkt := (⟨4, 95, 3, 8, 0, 0, 0, false, false, none, 0, 0, 0, zeros 12 ++ [0x12, 0x34] ++ zeros 46, none⟩ : Pkt); let fates : List Fate := []; let s := up [.obj .clsProfileSelect 0 95 (.num 0), .fwd fun f => { f with flight := before ++ p :: after, relNext := [(763, 8)] }]; let f : Fwd := s.dev.fwd; let c : Dev := s.dev.asOf p.cfgEpoch; let r : Parsed := parse c.parseCfg p.start p.data; let nxt := SMap.get 0 f.relNext p.dom; s.Inv ∧ s.dev.answers = true ∧ f.flight = before ++ p :: after ∧ p.id = id ∧ p.done = none ∧ (∀ y ∈ before, y.id ≠ id) ∧ (∀ y ∈ f.flight, y.dom = p.dom → y.id ≠ id → y.done = none) ∧ (fates = [] ∨ nxt < p.seq) ∧ r.excs = [] ∧ bitsOf (c.num .fwdPortCfg 0 p.port) 36 4 = 0 ∧ c.tcam p r = some []) ∧
    (let id := 4; let before : List Pkt := []; let after : List Pkt := []; let p : Pkt := (⟨4, 100, 3, 8, 0, 0, 0, false, false, none, 0, 0, 5, zeros 12 ++ [0x12, 0x34] ++ zeros 46, none⟩ : Pkt); let fates : List Fate := []; let s := up [.obj .clsProfileSelect 0 100 (.num 0), .tbl (tblKey 7 512) (zeros 40 ++ zeros 40 ++ beBytes 4 (2 ^ 27) ++ zeros 28 ++ beBytes 4 (7 * 2 ^ 29) ++ zeros 12), .obj .clsBlockProfile 0 1 (.num 0), .fwd fun f => { f with flight := before ++ p :: after, relNext := [(803, 8)] }]; let f : Fwd := s.dev.fwd; let c : Dev := s.dev.asOf p.cfgEpoch; let r : Parsed := parse c.parseCfg p.start p.data; let nxt := SMap.get 0 f.relNext p.dom; s.Inv ∧ s.dev.answers = true ∧ f.flight = before ++ p :: after ∧ p.id = id ∧ p.done = none ∧ (∀ y ∈ before, y.id ≠ id) ∧ (∀ y ∈ f.flight, y.dom = p.dom → y.id ≠ id → y.done = none) ∧ (fates = [] ∨ nxt < p.seq) ∧ r.excs = [] ∧ bitsOf (c.num .fwdPortCfg 0 p.port) 36 4 = 0 ∧ c.tcam p r = some (2 ^ 27 :: List.replicate 7 0)) := by
  simp only [inv_iff]
  and_intros <;> decide +kernel

theorem meets_CarouselRelease_2 :
    (let id := 4; let before : List Pkt := []; let after : List Pkt := []; let p : Pkt := (⟨4, 95, 3, 8, 0, 0, 0, false, false, none, 0, 0, 0, zeros 12 ++ [0x12, 0x34] ++ zeros 46, none⟩ : Pkt); let fates : List Fate := [.port 94 p.tc (preColour p (parse State.reset.dev.parseCfg p.start p.data)) p.data p.data]; let s := up [.obj .clsProfileSelect 0 95 (.num 0), .tbl (tblKey 7 512) (zeros 40 ++ zeros 40 ++ beBytes 4 (4 * 2 ^ 27 + 94) ++ zeros 28 ++ beBytes 4 (7 * 2 ^ 29) ++ zeros 12), .obj .clsBlockProfile 0 1 (.num 0), .fwd fun f => { f with flight := before ++ p :: after, relNext := [(763, 7)] }]; let f : Fwd := s.dev.fwd; let c : Dev := s.dev.asOf p.cfgEpoch; let r : Parsed := parse c.parseCfg p.start p.data; let nxt := SMap.get 0 f.relNext p.dom; s.Inv ∧ s.dev.answers = true ∧ f.flight = before ++ p :: after ∧ p.id = id ∧ p.done = none ∧ (∀ y ∈ before, y.id ≠ id) ∧ (∀ y ∈ f.flight, y.dom = p.dom → y.id ≠ id → y.done = none) ∧ (fates = [] ∨ nxt < p.seq) ∧ r.excs = [] ∧ bitsOf (c.num .fwdPortCfg 0 p.port) 36 4 = 0 ∧ c.tcam p r = some ((4 * 2 ^ 27 + 94) :: List.replicate 7 0) ∧ fates = [.port 94 p.tc (preColour p r) p.data p.data]) ∧
    (let dom : Fin 1024 := 763; let s := up [.fwd fun f => { f with flight := [(⟨3, 95, 3, 7, 0, 0, 0, false, false, none, 0, 0, 0, zeros 64, none⟩ : Pkt)], relNext := [(763, 7)] }]; let f : Fwd := s.dev.fwd; s.Inv ∧ s.dev.answers = true ∧ (∀ y ∈ f.flight, y.dom = dom.val → y.done ≠ none → y.seq < SMap.get 0 f.relNext dom.val)) ∧
    (let dom : Fin 1024 := 763; let p : Pkt := (⟨4, 95, 3, 8, 0, 0, 0, false, false, none, 0, 0, 0, zeros 12 ++ [0x12, 0x34] ++ zeros 46, (some [])⟩ : Pkt); let s := up [.fwd fun f => { f with flight := [(⟨3, 95, 3, 7, 0, 0, 0, false, false, none, 0, 0, 0, zeros 64, none⟩ : Pkt), p], relNext := [(763, 7)] }]; let f : Fwd := s.dev.fwd; s.Inv ∧ s.dev.answers = true ∧ p.dom = dom.val ∧ p.done = some [] ∧ SMap.get 0 f.relNext dom.val ≤ p.seq ∧ p ∈ f.flight ∧ (∀ y ∈ f.flight, y.dom = dom.val → y.done ≠ none → y = p)) := by
  simp only [inv_iff]
  and_intros <;> decide +kernel

theorem meets_TableCommands :
    (let o := sec; let t : Fin 18 := 1; let c : List Byte := beBytes 1 1 ++ zeros 30; let op := 1; let s := up []; let r := execReq o (tblObj t.val) 0 0 true (.oct c); s.Inv ∧ (c.headD 0).toNat = op ∧ tblEntry t.val ≠ 0 ∧ s.dev.admits r ∧ c.length < 32) ∧
    (let o := sec; let t : Fin 18 := 17; let c : List Byte := beBytes 1 6 ++ beBytes 1 0 ++ beBytes 2 17 ++ beBytes 4 0 ++ [1, 2, 3, 4] ++ beBytes 4 0 ++ zeros 16 ++ []; let op := 6; let s := up []; let r := execReq o (tblObj t.val) 0 0 true (.oct c); let d := s.dev.taken r.call; let code := d.codeOf o.path; let st := d.tblRefuse code c; s.Inv ∧ (c.headD 0).toNat = op ∧ tblEntry t.val ≠ 0 ∧ s.dev.admits r ∧ 32 ≤ c.length ∧ beAt c 2 2 = t.val ∧ st = 6) ∧
    (let o := sec; let t : Fin 18 := 4; let c : List Byte := beBytes 1 3 ++ beBytes 1 0 ++ beBytes 2 4 ++ beBytes 4 262144 ++ [1, 2, 3, 4] ++ beBytes 4 0 ++ zeros 16 ++ zeros 32; let op := 3; let s := up []; let r := execReq o (tblObj t.val) 0 0 true (.oct c); let d := s.dev.taken r.call; let code := d.codeOf o.path; let st := d.tblRefuse code c; s.Inv ∧ (c.headD 0).toNat = op ∧ tblEntry t.val ≠ 0 ∧ s.dev.admits r ∧ 32 ≤ c.length ∧ beAt c 2 2 = t.val ∧ st ≠ 0 ∧ st ≠ 6) ∧
    (let o := sec; let t : Fin 18 := 4; let c : List Byte := beBytes 1 1 ++ beBytes 1 0 ++ beBytes 2 5 ++ beBytes 4 0 ++ [1, 2, 3, 4] ++ beBytes 4 0 ++ zeros 16 ++ []; let op := 1; let s := up []; let r := execReq o (tblObj t.val) 0 0 true (.oct c); s.Inv ∧ (c.headD 0).toNat = op ∧ tblEntry t.val ≠ 0 ∧ s.dev.admits r ∧ 32 ≤ c.length ∧ beAt c 2 2 ≠ t.val) := by
  simp only [inv_iff, admits_iff]
  and_intros <;> decide +kernel

theorem meets_TableCommands_2 :
    (let o := sec; let t : Fin 18 := 2; let c : List Byte := beBytes 1 1 ++ beBytes 1 0 ++ beBytes 2 2 ++ beBytes 4 0 ++ [1, 2, 3, 4] ++ beBytes 4 0 ++ zeros 16 ++ (beBytes 16 (10 * 2 ^ 24) ++ beBytes 2 4095 ++ [8, 4] ++ zeros 8 ++ beBytes 4 (3 * 2 ^ 29)); let op := 1; let s := up [.tbl (tblKey 2 1048575) (beBytes 16 (10 * 2 ^ 24) ++ beBytes 2 4095 ++ [8, 4] ++ beBytes 4 (2 ^ 30 + 4095) ++ zeros 4 ++ beBytes 4 (7 * 2 ^ 29))]; let r := execReq o (tblObj t.val) 0 0 true (.oct c); let d := s.dev.taken r.call; let code := d.codeOf o.path; let st := d.tblRefuse code c; let e := c.drop 32; s.Inv ∧ (c.headD 0).toNat = op ∧ tblEntry t.val ≠ 0 ∧ s.dev.admits r ∧ 32 ≤ c.length ∧ beAt c 2 2 = t.val ∧ st = 0 ∧ tblKeyed t.val = true ∧ d.rowSame t.val e = some (1048575, (beBytes 16 (10 * 2 ^ 24) ++ beBytes 2 4095 ++ [8, 4] ++ beBytes 4 (2 ^ 30 + 4095) ++ zeros 4 ++ beBytes 4 (7 * 2 ^ 29)))) ∧
    (let o := sec; let t : Fin 18 := 6; let c : List Byte := beBytes 1 1 ++ beBytes 1 0 ++ beBytes 2 6 ++ beBytes 4 0 ++ [1, 2, 3, 4] ++ beBytes 4 0 ++ zeros 16 ++ (beBytes 8 (5 * 2 ^ 40) ++ zeros 8); let op := 1; let s := up []; let r := execReq o (tblObj t.val) 0 0 true (.oct c); let d := s.dev.taken r.call; let code := d.codeOf o.path; let st := d.tblRefuse code c; let e := c.drop 32; s.Inv ∧ (c.headD 0).toNat = op ∧ tblEntry t.val ≠ 0 ∧ s.dev.admits r ∧ 32 ≤ c.length ∧ beAt c 2 2 = t.val ∧ st = 0 ∧ tblKeyed t.val = true ∧ d.rowSame t.val e = none) ∧
    (let o := sec; let t : Fin 18 := 5; let c : List Byte := beBytes 1 1 ++ beBytes 1 0 ++ beBytes 2 5 ++ beBytes 4 4095 ++ [1, 2, 3, 4] ++ beBytes 4 0 ++ zeros 16 ++ []; let op := 1; let s := up [.tbl (tblKey 5 4095) (beBytes 8 (2 ^ 63))]; let r := execReq o (tblObj t.val) 0 0 true (.oct c); let d := s.dev.taken r.call; let code := d.codeOf o.path; let st := d.tblRefuse code c; let n := beAt c 4 4; s.Inv ∧ (c.headD 0).toNat = op ∧ tblEntry t.val ≠ 0 ∧ s.dev.admits r ∧ 32 ≤ c.length ∧ beAt c 2 2 = t.val ∧ st = 0 ∧ t.val ∈ [4, 5, 7, 8] ∧ rowValid t.val (d.row t.val n) = true) ∧
    (let o := sec; let t : Fin 18 := 8; let c : List Byte := beBytes 1 1 ++ beBytes 1 0 ++ beBytes 2 8 ++ beBytes 4 16383 ++ [1, 2, 3, 4] ++ beBytes 4 0 ++ zeros 16 ++ []; let op := 1; let s := up []; let r := execReq o (tblObj t.val) 0 0 true (.oct c); let d := s.dev.taken r.call; let code := d.codeOf o.path; let st := d.tblRefuse code c; let n := beAt c 4 4; s.Inv ∧ (c.headD 0).toNat = op ∧ tblEntry t.val ≠ 0 ∧ s.dev.admits r ∧ 32 ≤ c.length ∧ beAt c 2 2 = t.val ∧ st = 0 ∧ t.val ∈ [4, 5, 7, 8] ∧ rowValid t.val (d.row t.val n) = false) := by
  simp only [inv_iff, admits_iff]
  and_intros <;> decide +kernel

theorem meets_TableCommands_3 :
    (let o := sec; let t : Fin 18 := 16; let c : List Byte := beBytes 1 1 ++ beBytes 1 0 ++ beBytes 2 16 ++ beBytes 4 1048575 ++ [1, 2, 3, 4] ++ beBytes 4 0 ++ zeros 16 ++ []; let op := 1; let s := up [.tbl (tblKey 16 1048575) (patch (zeros 32) 12 (beBytes 4 9)), .tm fun t => { t with meters := [(1048575, ⟨65537, 131072, 0⟩)] }]; let r := execReq o (tblObj t.val) 0 0 true (.oct c); let d := s.dev.taken r.call; let code := d.codeOf o.path; let st := d.tblRefuse code c; let n := beAt c 4 4; s.Inv ∧ (c.headD 0).toNat = op ∧ tblEntry t.val ≠ 0 ∧ s.dev.admits r ∧ 32 ≤ c.length ∧ beAt c 2 2 = t.val ∧ st = 0 ∧ t.val = 16 ∧ d.row 16 n ≠ []) ∧
    (let o := sec; let t : Fin 18 := 17; let c : List Byte := beBytes 1 1 ++ beBytes 1 0 ++ beBytes 2 17 ++ beBytes 4 2097151 ++ [1, 2, 3, 4] ++ beBytes 4 0 ++ zeros 16 ++ []; let op := 1; let s := up []; let r := execReq o (tblObj t.val) 0 0 true (.oct c); let d := s.dev.taken r.call; let code := d.codeOf o.path; let st := d.tblRefuse code c; s.Inv ∧ (c.headD 0).toNat = op ∧ tblEntry t.val ≠ 0 ∧ s.dev.admits r ∧ 32 ≤ c.length ∧ beAt c 2 2 = t.val ∧ st = 0 ∧ t.val = 17) ∧
    (let o := sec; let t : Fin 18 := 17; let c : List Byte := beBytes 1 2 ++ beBytes 1 0 ++ beBytes 2 17 ++ beBytes 4 4294967295 ++ [1, 2, 3, 4] ++ beBytes 4 0 ++ zeros 16 ++ []; let op := 2; let s := up []; let r := execReq o (tblObj t.val) 0 0 true (.oct c); let d := s.dev.taken r.call; let code := d.codeOf o.path; let st := d.tblRefuse code c; let n := beAt c 4 4; s.Inv ∧ (c.headD 0).toNat = op ∧ tblEntry t.val ≠ 0 ∧ s.dev.admits r ∧ 32 ≤ c.length ∧ beAt c 2 2 = t.val ∧ st = 0 ∧ t.val = 17 ∧ n = 0xFFFFFFFF) ∧
    (let o := sec; let t : Fin 18 := 17; let c : List Byte := beBytes 1 2 ++ beBytes 1 0 ++ beBytes 2 17 ++ beBytes 4 2097150 ++ [1, 2, 3, 4] ++ beBytes 4 0 ++ zeros 16 ++ []; let op := 2; let s := up []; let r := execReq o (tblObj t.val) 0 0 true (.oct c); let d := s.dev.taken r.call; let code := d.codeOf o.path; let st := d.tblRefuse code c; let n := beAt c 4 4; s.Inv ∧ (c.headD 0).toNat = op ∧ tblEntry t.val ≠ 0 ∧ s.dev.admits r ∧ 32 ≤ c.length ∧ beAt c 2 2 = t.val ∧ st = 0 ∧ t.val = 17 ∧ n ≠ 0xFFFFFFFF ∧ n + 1 < 2097152) := by
  simp only [inv_iff, admits_iff]
  and_intros <;> decide +kernel

theorem meets_TableCommands_4 :
    (let o := sec; let t : Fin 18 := 17; let c : List Byte := beBytes 1 2 ++ beBytes 1 0 ++ beBytes 2 17 ++ beBytes 4 2097151 ++ [1, 2, 3, 4] ++ beBytes 4 0 ++ zeros 16 ++ []; let op := 2; let s := up []; let r := execReq o (tblObj t.val) 0 0 true (.oct c); let d := s.dev.taken r.call; let code := d.codeOf o.path; let st := d.tblRefuse code c; let n := beAt c 4 4; s.Inv ∧ (c.headD 0).toNat = op ∧ tblEntry t.val ≠ 0 ∧ s.dev.admits r ∧ 32 ≤ c.length ∧ beAt c 2 2 = t.val ∧ st = 0 ∧ t.val = 17 ∧ n ≠ 0xFFFFFFFF ∧ 2097152 ≤ n + 1) ∧
    (let o := sec; let t : Fin 18 := 2; let c : List Byte := beBytes 1 2 ++ beBytes 1 0 ++ beBytes 2 2 ++ beBytes 4 5 ++ [1, 2, 3, 4] ++ beBytes 4 0 ++ zeros 16 ++ []; let op := 2; let s := up [.tbl (tblKey 2 5) (beBytes 16 (10 * 2 ^ 24) ++ beBytes 2 4095 ++ [8, 4] ++ zeros 8 ++ beBytes 4 (3 * 2 ^ 29)), .tbl (tblKey 2 6) (beBytes 16 (10 * 2 ^ 24) ++ beBytes 2 4095 ++ [8, 4] ++ beBytes 4 (2 ^ 30 + 4095) ++ zeros 4 ++ beBytes 4 (7 * 2 ^ 29))]; let r := execReq o (tblObj t.val) 0 0 true (.oct c); let d := s.dev.taken r.call; let code := d.codeOf o.path; let st := d.tblRefuse code c; let n := beAt c 4 4; s.Inv ∧ (c.headD 0).toNat = op ∧ tblEntry t.val ≠ 0 ∧ s.dev.admits r ∧ 32 ≤ c.length ∧ beAt c 2 2 = t.val ∧ st = 0 ∧ t.val < 16 ∧ d.rows t.val = [(5, (beBytes 16 (10 * 2 ^ 24) ++ beBytes 2 4095 ++ [8, 4] ++ zeros 8 ++ beBytes 4 (3 * 2 ^ 29)))] ++ (6, (beBytes 16 (10 * 2 ^ 24) ++ beBytes 2 4095 ++ [8, 4] ++ beBytes 4 (2 ^ 30 + 4095) ++ zeros 4 ++ beBytes 4 (7 * 2 ^ 29))) :: [] ∧ rowValid t.val (beBytes 16 (10 * 2 ^ 24) ++ beBytes 2 4095 ++ [8, 4] ++ beBytes 4 (2 ^ 30 + 4095) ++ zeros 4 ++ beBytes 4 (7 * 2 ^ 29)) = true ∧ (∀ z ∈ [(5, (beBytes 16 (10 * 2 ^ 24) ++ beBytes 2 4095 ++ [8, 4] ++ zeros 8 ++ beBytes 4 (3 * 2 ^ 29)))], rowValid t.val z.2 = false ∨ (n ≠ 0xFFFFFFFF ∧ z.1 ≤ n)) ∧ (n = 0xFFFFFFFF ∨ n < 6)) ∧
    (let o := sec; let t : Fin 18 := 2; let c : List Byte := beBytes 1 2 ++ beBytes 1 0 ++ beBytes 2 2 ++ beBytes 4 6 ++ [1, 2, 3, 4] ++ beBytes 4 0 ++ zeros 16 ++ []; let op := 2; let s := up [.tbl (tblKey 2 6) (beBytes 16 (10 * 2 ^ 24) ++ beBytes 2 4095 ++ [8, 4] ++ beBytes 4 (2 ^ 30 + 4095) ++ zeros 4 ++ beBytes 4 (7 * 2 ^ 29))]; let r := execReq o (tblObj t.val) 0 0 true (.oct c); let d := s.dev.taken r.call; let code := d.codeOf o.path; let st := d.tblRefuse code c; let n := beAt c 4 4; s.Inv ∧ (c.headD 0).toNat = op ∧ tblEntry t.val ≠ 0 ∧ s.dev.admits r ∧ 32 ≤ c.length ∧ beAt c 2 2 = t.val ∧ st = 0 ∧ t.val < 16 ∧ (∀ z ∈ d.rows t.val, rowValid t.val z.2 = false ∨ (n ≠ 0xFFFFFFFF ∧ z.1 ≤ n))) ∧
    (let o := sec; let t : Fin 18 := 4; let c : List Byte := beBytes 1 3 ++ beBytes 1 0 ++ beBytes 2 4 ++ beBytes 4 262143 ++ [1, 2, 3, 4] ++ beBytes 4 0 ++ zeros 16 ++ zeros 28 ++ beBytes 4 (2 ^ 31); let op := 3; let s := up []; let r := execReq o (tblObj t.val) 0 0 true (.oct c); let d := s.dev.taken r.call; let code := d.codeOf o.path; let st := d.tblRefuse code c; s.Inv ∧ (c.headD 0).toNat = op ∧ tblEntry t.val ≠ 0 ∧ s.dev.admits r ∧ 32 ≤ c.length ∧ beAt c 2 2 = t.val ∧ st = 0 ∧ t.val ∈ [4, 5, 7, 8]) := by
  simp only [inv_iff, admits_iff]
  and_intros <;> decide +kernel

theorem meets_TableCommands_5 :
    (let o := sec; let t : Fin 18 := 16; let c : List Byte := beBytes 1 3 ++ beBytes 1 0 ++ beBytes 2 16 ++ beBytes 4 1048575 ++ [1, 2, 3, 4] ++ beBytes 4 0 ++ zeros 16 ++ [0, 0, 192] ++ zeros 9 ++ beBytes 4 1 ++ zeros 16; let op := 3; let s := up []; let r := execReq o (tblObj t.val) 0 0 true (.oct c); let d := s.dev.taken r.call; let code := d.codeOf o.path; let st := d.tblRefuse code c; s.Inv ∧ (c.headD 0).toNat = op ∧ tblEntry t.val ≠ 0 ∧ s.dev.admits r ∧ 32 ≤ c.length ∧ beAt c 2 2 = t.val ∧ st = 0 ∧ t.val = 16) ∧
    (let o := sec; let t : Fin 18 := 17; let c : List Byte := beBytes 1 3 ++ beBytes 1 0 ++ beBytes 2 17 ++ beBytes 4 2097151 ++ [1, 2, 3, 4] ++ beBytes 4 0 ++ zeros 16 ++ zeros 15 ++ [1]; let op := 3; let s := up []; let r := execReq o (tblObj t.val) 0 0 true (.oct c); let d := s.dev.taken r.call; let code := d.codeOf o.path; let st := d.tblRefuse code c; s.Inv ∧ (c.headD 0).toNat = op ∧ tblEntry t.val ≠ 0 ∧ s.dev.admits r ∧ 32 ≤ c.length ∧ beAt c 2 2 = t.val ∧ st = 0 ∧ t.val = 17) ∧
    (let o := sec; let t : Fin 18 := 2; let c : List Byte := beBytes 1 3 ++ beBytes 1 0 ++ beBytes 2 2 ++ beBytes 4 0 ++ [1, 2, 3, 4] ++ beBytes 4 0 ++ zeros 16 ++ (beBytes 16 (10 * 2 ^ 24) ++ beBytes 2 4095 ++ [8, 4] ++ beBytes 4 (2 ^ 30 + 4095) ++ zeros 4 ++ beBytes 4 (7 * 2 ^ 29)); let op := 3; let s := up [.tbl (tblKey 2 7) (beBytes 16 (10 * 2 ^ 24) ++ beBytes 2 4095 ++ [8, 4] ++ zeros 8 ++ beBytes 4 (5 * 2 ^ 29))]; let r := execReq o (tblObj t.val) 0 0 true (.oct c); let d := s.dev.taken r.call; let code := d.codeOf o.path; let st := d.tblRefuse code c; let e := c.drop 32; s.Inv ∧ (c.headD 0).toNat = op ∧ tblEntry t.val ≠ 0 ∧ s.dev.admits r ∧ 32 ≤ c.length ∧ beAt c 2 2 = t.val ∧ st = 0 ∧ tblKeyed t.val = true ∧ d.rowClash t.val e = some (7, (beBytes 16 (10 * 2 ^ 24) ++ beBytes 2 4095 ++ [8, 4] ++ zeros 8 ++ beBytes 4 (5 * 2 ^ 29))) ∧ bitOf (beAt c 1 1) 7 = false) ∧
    (let o := sec; let t : Fin 18 := 2; let c : List Byte := beBytes 1 3 ++ beBytes 1 128 ++ beBytes 2 2 ++ beBytes 4 0 ++ [1, 2, 3, 4] ++ beBytes 4 0 ++ zeros 16 ++ (beBytes 16 (10 * 2 ^ 24) ++ beBytes 2 4095 ++ [8, 4] ++ beBytes 4 (2 ^ 30 + 4095) ++ zeros 4 ++ beBytes 4 (7 * 2 ^ 29)); let op := 3; let s := up [.tbl (tblKey 2 7) (beBytes 16 (10 * 2 ^ 24) ++ beBytes 2 4095 ++ [8, 4] ++ zeros 8 ++ beBytes 4 (5 * 2 ^ 29))]; let r := execReq o (tblObj t.val) 0 0 true (.oct c); let d := s.dev.taken r.call; let code := d.codeOf o.path; let st := d.tblRefuse code c; let e := c.drop 32; s.Inv ∧ (c.headD 0).toNat = op ∧ tblEntry t.val ≠ 0 ∧ s.dev.admits r ∧ 32 ≤ c.length ∧ beAt c 2 2 = t.val ∧ st = 0 ∧ (t.val = 2 ∨ t.val = 3) ∧ rowValid t.val e = true ∧ d.rowClash t.val e = some (7, (beBytes 16 (10 * 2 ^ 24) ++ beBytes 2 4095 ++ [8, 4] ++ zeros 8 ++ beBytes 4 (5 * 2 ^ 29))) ∧ bitOf (beAt c 1 1) 7 = true) := by
  simp only [inv_iff, admits_iff]
  and_intros <;> decide +kernel

theorem meets_TableCommands_6 :
    (let o := sec; let t : Fin 18 := 3; let c : List Byte := beBytes 1 3 ++ beBytes 1 0 ++ beBytes 2 3 ++ beBytes 4 0 ++ [1, 2, 3, 4] ++ beBytes 4 0 ++ zeros 16 ++ (beBytes 16 5 ++ beBytes 2 0 ++ [128, 6] ++ zeros 8 ++ beBytes 4 (7 * 2 ^ 29)); let op := 3; let s := up [.tbl (tblKey 3 0) (beBytes 16 (10 * 2 ^ 24) ++ beBytes 2 4095 ++ [8, 4] ++ zeros 8 ++ beBytes 4 (3 * 2 ^ 29)), .tbl (tblKey 3 2) (beBytes 16 (10 * 2 ^ 24) ++ beBytes 2 4095 ++ [8, 4] ++ zeros 8 ++ beBytes 4 (3 * 2 ^ 29))]; let r := execReq o (tblObj t.val) 0 0 true (.oct c); let d := s.dev.taken r.call; let code := d.codeOf o.path; let st := d.tblRefuse code c; let e := c.drop 32; s.Inv ∧ (c.headD 0).toNat = op ∧ tblEntry t.val ≠ 0 ∧ s.dev.admits r ∧ 32 ≤ c.length ∧ beAt c 2 2 = t.val ∧ st = 0 ∧ (t.val = 2 ∨ t.val = 3) ∧ rowValid t.val e = true ∧ d.rowClash t.val e = none ∧ (d.rows t.val).length < d.tblCap t.val ∧ d.row t.val 0 ≠ [] ∧ d.row t.val 1 = []) ∧
    (let o := sec; let t : Fin 18 := 6; let c : List Byte := beBytes 1 3 ++ beBytes 1 0 ++ beBytes 2 6 ++ beBytes 4 0 ++ [1, 2, 3, 4] ++ beBytes 4 0 ++ zeros 16 ++ (beBytes 8 (2 ^ 63 + 5 * 2 ^ 40) ++ zeros 8); let op := 3; let s := up []; let r := execReq o (tblObj t.val) 0 0 true (.oct c); let d := s.dev.taken r.call; let code := d.codeOf o.path; let st := d.tblRefuse code c; let e := c.drop 32; s.Inv ∧ (c.headD 0).toNat = op ∧ tblEntry t.val ≠ 0 ∧ s.dev.admits r ∧ 32 ≤ c.length ∧ beAt c 2 2 = t.val ∧ st = 0 ∧ t.val = 6 ∧ rowValid 6 e = true ∧ d.rowClash 6 e = none ∧ (d.rows 6).length < d.tblCap 6 ∧ d.row 6 0 = []) ∧
    (let o := sec; let t : Fin 18 := 1; let c : List Byte := beBytes 1 3 ++ beBytes 1 0 ++ beBytes 2 1 ++ beBytes 4 0 ++ [1, 2, 3, 4] ++ beBytes 4 0 ++ zeros 16 ++ (beBytes 16 (2 ^ 124 + 9 * 2 ^ 48 + 77) ++ zeros 12 ++ beBytes 4 (7 * 2 ^ 29 + 2 ^ 27 + 5 * 2 ^ 12)); let op := 3; let s := up [.tbl (tblKey 1 838276) (beBytes 16 (2 ^ 124 + 9 * 2 ^ 48 + 78) ++ zeros 12 ++ beBytes 4 (7 * 2 ^ 29)), .obj .fwdAgeNow 0 0 (.num 200)]; let r := execReq o (tblObj t.val) 0 0 true (.oct c); let d := s.dev.taken r.call; let code := d.codeOf o.path; let st := d.tblRefuse code c; let e := c.drop 32; s.Inv ∧ (c.headD 0).toNat = op ∧ tblEntry t.val ≠ 0 ∧ s.dev.admits r ∧ 32 ≤ c.length ∧ beAt c 2 2 = t.val ∧ st = 0 ∧ t.val = 1 ∧ rowValid 1 e = true ∧ d.rowClash 1 e = none ∧ d.fwd.stashHot = false ∧
          (∀ y ∈ d.rows 1, y.1 < 2 ^ 31) ∧ d.bucket 0 (e.take 16) = [838276] ++ 838277 :: [838278, 838279] ∧ d.row 1 838276 ≠ [] ∧ d.row 1 838277 = []) ∧
    (let o := sec; let t : Fin 18 := 6; let c : List Byte := beBytes 1 4 ++ beBytes 1 0 ++ beBytes 2 6 ++ beBytes 4 0 ++ [1, 2, 3, 4] ++ beBytes 4 0 ++ zeros 16 ++ (beBytes 8 (5 * 2 ^ 40) ++ zeros 8); let op := 4; let s := up [.tbl (tblKey 6 3) (beBytes 8 (2 ^ 63 + 5 * 2 ^ 40) ++ zeros 8)]; let r := execReq o (tblObj t.val) 0 0 true (.oct c); let d := s.dev.taken r.call; let code := d.codeOf o.path; let st := d.tblRefuse code c; let e := c.drop 32; s.Inv ∧ (c.headD 0).toNat = op ∧ tblEntry t.val ≠ 0 ∧ s.dev.admits r ∧ 32 ≤ c.length ∧ beAt c 2 2 = t.val ∧ st = 0 ∧ (t.val = 2 ∨ t.val = 3 ∨ t.val = 6) ∧ d.rowSame t.val e = some (3, (beBytes 8 (2 ^ 63 + 5 * 2 ^ 40) ++ zeros 8))) := by
  simp only [inv_iff, admits_iff]
  and_intros <;> decide +kernel

theorem meets_TableCommands_7 :
    (let o := sec; let t : Fin 18 := 2; let c : List Byte := beBytes 1 4 ++ beBytes 1 0 ++ beBytes 2 2 ++ beBytes 4 0 ++ [1, 2, 3, 4] ++ beBytes 4 0 ++ zeros 16 ++ (beBytes 16 (10 * 2 ^ 24) ++ beBytes 2 4095 ++ [8, 4] ++ zeros 8 ++ beBytes 4 (3 * 2 ^ 29)); let op := 4; let s := up [.tbl (tblKey 2 3) (beBytes 16 (10 * 2 ^ 24) ++ beBytes 2 4095 ++ [8, 4] ++ zeros 8 ++ beBytes 4 (5 * 2 ^ 29))]; let r := execReq o (tblObj t.val) 0 0 true (.oct c); let d := s.dev.taken r.call; let code := d.codeOf o.path; let st := d.tblRefuse code c; let e := c.drop 32; s.Inv ∧ (c.headD 0).toNat = op ∧ tblEntry t.val ≠ 0 ∧ s.dev.admits r ∧ 32 ≤ c.length ∧ beAt c 2 2 = t.val ∧ st = 0 ∧ (t.val = 2 ∨ t.val = 3 ∨ t.val = 6) ∧ d.rowSame t.val e = none) ∧
    (let o := sec; let t : Fin 18 := 1; let c : List Byte := beBytes 1 4 ++ beBytes 1 0 ++ beBytes 2 1 ++ beBytes 4 0 ++ [1, 2, 3, 4] ++ beBytes 4 0 ++ zeros 16 ++ (beBytes 16 (2 ^ 124 + 9 * 2 ^ 48 + 77) ++ zeros 12 ++ beBytes 4 (3 * 2 ^ 29)); let op := 4; let s := up [.tbl (tblKey 1 9) (beBytes 16 (2 ^ 124 + 9 * 2 ^ 48 + 77) ++ zeros 12 ++ beBytes 4 (7 * 2 ^ 29 + 2 ^ 27 + 5 * 2 ^ 12))]; let r := execReq o (tblObj t.val) 0 0 true (.oct c); let d := s.dev.taken r.call; let code := d.codeOf o.path; let st := d.tblRefuse code c; let e := c.drop 32; s.Inv ∧ (c.headD 0).toNat = op ∧ tblEntry t.val ≠ 0 ∧ s.dev.admits r ∧ 32 ≤ c.length ∧ beAt c 2 2 = t.val ∧ st = 0 ∧ t.val = 1 ∧ d.fwd.stashHot = false ∧ d.fwd.limitHot = [] ∧ (∀ y ∈ d.rows 1, y.1 < 2 ^ 31) ∧ d.num .fwdSubLearnLimit = 0 ∧ (∀ q ∈ List.range (128), d.num .fwdPortLearnLimit 0 q = 0) ∧ d.rowSame 1 e = some (9, (beBytes 16 (2 ^ 124 + 9 * 2 ^ 48 + 77) ++ zeros 12 ++ beBytes 4 (7 * 2 ^ 29 + 2 ^ 27 + 5 * 2 ^ 12)))) ∧
    (let o := sec; let t : Fin 18 := 1; let c : List Byte := beBytes 1 4 ++ beBytes 1 0 ++ beBytes 2 1 ++ beBytes 4 0 ++ [1, 2, 3, 4] ++ beBytes 4 0 ++ zeros 16 ++ (beBytes 16 (2 ^ 124 + 9 * 2 ^ 48 + 77) ++ zeros 12 ++ beBytes 4 (3 * 2 ^ 29)); let op := 4; let s := up []; let r := execReq o (tblObj t.val) 0 0 true (.oct c); let d := s.dev.taken r.call; let code := d.codeOf o.path; let st := d.tblRefuse code c; let e := c.drop 32; s.Inv ∧ (c.headD 0).toNat = op ∧ tblEntry t.val ≠ 0 ∧ s.dev.admits r ∧ 32 ≤ c.length ∧ beAt c 2 2 = t.val ∧ st = 0 ∧ t.val = 1 ∧ d.fwd.stashHot = false ∧ d.fwd.limitHot = [] ∧ (∀ y ∈ d.rows 1, y.1 < 2 ^ 31) ∧ d.num .fwdSubLearnLimit = 0 ∧ (∀ q ∈ List.range (128), d.num .fwdPortLearnLimit 0 q = 0) ∧ d.rowSame 1 e = none) ∧
    (let o := sec; let t : Fin 18 := 16; let c : List Byte := beBytes 1 4 ++ beBytes 1 0 ++ beBytes 2 16 ++ beBytes 4 1048575 ++ [1, 2, 3, 4] ++ beBytes 4 0 ++ zeros 16 ++ []; let op := 4; let s := up [.tbl (tblKey 16 1048575) (patch (zeros 32) 12 (beBytes 4 9))]; let r := execReq o (tblObj t.val) 0 0 true (.oct c); let d := s.dev.taken r.call; let code := d.codeOf o.path; let st := d.tblRefuse code c; let n := beAt c 4 4; s.Inv ∧ (c.headD 0).toNat = op ∧ tblEntry t.val ≠ 0 ∧ s.dev.admits r ∧ 32 ≤ c.length ∧ beAt c 2 2 = t.val ∧ st = 0 ∧ t.val ∈ [4, 5, 7, 8, 16, 17] ∧ rowValid t.val (d.row t.val n) = true) := by
  simp only [inv_iff, admits_iff]
  and_intros <;> decide +kernel

theorem meets_TableCommands_8 :
    (let o := sec; let t : Fin 18 := 7; let c : List Byte := beBytes 1 4 ++ beBytes 1 0 ++ beBytes 2 7 ++ beBytes 4 0 ++ [1, 2, 3, 4] ++ beBytes 4 0 ++ zeros 16 ++ []; let op := 4; let s := up []; let r := execReq o (tblObj t.val) 0 0 true (.oct c); let d := s.dev.taken r.call; let code := d.codeOf o.path; let st := d.tblRefuse code c; let n := beAt c 4 4; s.Inv ∧ (c.headD 0).toNat = op ∧ tblEntry t.val ≠ 0 ∧ s.dev.admits r ∧ 32 ≤ c.length ∧ beAt c 2 2 = t.val ∧ st = 0 ∧ t.val ∈ [4, 5, 7, 8, 16, 17] ∧ rowValid t.val (d.row t.val n) = false) ∧
    (let o := sec; let t : Fin 18 := 1; let c : List Byte := beBytes 1 5 ++ beBytes 1 64 ++ beBytes 2 1 ++ beBytes 4 0 ++ [1, 2, 3, 4] ++ beBytes 4 2147811328 ++ zeros 16 ++ []; let op := 5; let s := up [.tbl (tblKey 1 9) (beBytes 16 (2 ^ 124 + 9 * 2 ^ 48 + 77) ++ zeros 12 ++ beBytes 4 (7 * 2 ^ 29 + 2 ^ 27 + 5 * 2 ^ 12)), .tbl (tblKey 1 10) (beBytes 16 (2 ^ 124 + 9 * 2 ^ 48 + 77) ++ zeros 12 ++ beBytes 4 (7 * 2 ^ 29))]; let r := execReq o (tblObj t.val) 0 0 true (.oct c); let d := s.dev.taken r.call; let code := d.codeOf o.path; let st := d.tblRefuse code c; s.Inv ∧ (c.headD 0).toNat = op ∧ tblEntry t.val ≠ 0 ∧ s.dev.admits r ∧ 32 ≤ c.length ∧ beAt c 2 2 = t.val ∧ st = 0 ∧ d.fwd.stashHot = false ∧ d.fwd.limitHot = [] ∧ (∀ y ∈ d.rows 1, y.1 < 2 ^ 31) ∧ d.num .fwdSubLearnLimit = 0 ∧ (∀ q ∈ List.range (128), d.num .fwdPortLearnLimit 0 q = 0)) ∧
    (let o := host; let t : Fin 18 := 1; let c : List Byte := beBytes 1 6 ++ beBytes 1 0 ++ beBytes 2 1 ++ beBytes 4 0 ++ [1, 2, 3, 4] ++ beBytes 4 0 ++ zeros 16 ++ []; let op := 6; let s := up [.fn (fnKey 0 0) fun f => { f with live := true }]; let r := execReq o (tblObj t.val) 0 0 true (.oct c); let d := s.dev.taken r.call; let code := d.codeOf o.path; let st := d.tblRefuse code c; s.Inv ∧ (c.headD 0).toNat = op ∧ tblEntry t.val ≠ 0 ∧ s.dev.admits r ∧ 32 ≤ c.length ∧ beAt c 2 2 = t.val ∧ st = 0 ∧ op = 6) ∧
    (let o := host; let t : Fin 18 := 1; let c : List Byte := beBytes 1 7 ++ beBytes 1 0 ++ beBytes 2 1 ++ beBytes 4 0 ++ [1, 2, 3, 4] ++ beBytes 4 0 ++ zeros 16 ++ []; let op := 7; let s := up [.fn (fnKey 0 0) fun f => { f with live := true }, .fwd fun f => { f with locks := [(1, 257)] }]; let r := execReq o (tblObj t.val) 0 0 true (.oct c); let d := s.dev.taken r.call; let code := d.codeOf o.path; let st := d.tblRefuse code c; s.Inv ∧ (c.headD 0).toNat = op ∧ tblEntry t.val ≠ 0 ∧ s.dev.admits r ∧ 32 ≤ c.length ∧ beAt c 2 2 = t.val ∧ st = 0 ∧ op = 7) := by
  simp only [inv_iff, admits_iff]
  and_intros <;> decide +kernel

theorem meets_TableCommands_9 :
    (let r : Fin 4096 := 9; let s := up []; s.Inv ∧ ((s.dev.ringSt r.val).posted = [] ∨ s.dev.respRing r.val = none)) ∧
    (let r : Fin 4096 := 9; let q : Fin 4096 := 10; let cm : List Byte := beBytes 1 1 ++ beBytes 1 0 ++ beBytes 2 4 ++ beBytes 4 5 ++ [1, 2, 3, 4] ++ beBytes 4 0 ++ zeros 16 ++ []; let y : Desc := ⟨0, BitVec.ofNat 32 cm.length, 0, 0, 0, 0, 1, cm, 0⟩; let rest : List Desc := []; let s := up [.fn (fnKey 0 0) fun f => { f with live := true }, .ring 9 fun g => { g with state := 1, setup := beBytes 2 9 ++ [3, 0, 5] ++ zeros 27, posted := [y] }, .ring 10 fun g => { g with state := 1, setup := beBytes 2 10 ++ [4, 0, 5] ++ zeros 27, posted := [⟨0, 64, 0, 0, 0, 0, 1, [], 0⟩] }]; let c : List Byte := y.buf.take (descSize y); let code := 0x0100 + s.dev.ringFn r.val; s.Inv ∧ (s.dev.ringSt r.val).posted = y :: rest ∧ (s.dev.ringSt r.val).kind = 3 ∧ s.dev.ringLive r.val = true ∧ s.dev.descFate r.val y = 0 ∧
    s.dev.respRing r.val = some q.val ∧ (s.dev.ringSt q.val).posted ≠ [] ∧ (∀ f ∈ s.dev.fwd.flushes, f.src ≠ .ring r.val) ∧
    s.dev.tblRefuse code c = 0 ∧ beAt c 0 1 = 1) ∧
    (let r : Fin 4096 := 9; let q : Fin 4096 := 10; let cm : List Byte := beBytes 1 2 ++ beBytes 1 0 ++ beBytes 2 4 ++ beBytes 4 5 ++ [1, 2, 3, 4] ++ beBytes 4 0 ++ zeros 16 ++ []; let y : Desc := ⟨0, BitVec.ofNat 32 cm.length, 0, 0, 0, 0, 1, cm, 0⟩; let rest : List Desc := []; let s := up [.fn (fnKey 0 0) fun f => { f with live := true }, .ring 9 fun g => { g with state := 1, setup := beBytes 2 9 ++ [3, 0, 5] ++ zeros 27, posted := [y] }, .ring 10 fun g => { g with state := 1, setup := beBytes 2 10 ++ [4, 0, 5] ++ zeros 27, posted := [⟨0, 64, 0, 0, 0, 0, 1, [], 0⟩] }]; let c : List Byte := y.buf.take (descSize y); let code := 0x0100 + s.dev.ringFn r.val; s.Inv ∧ (s.dev.ringSt r.val).posted = y :: rest ∧ (s.dev.ringSt r.val).kind = 3 ∧ s.dev.ringLive r.val = true ∧ s.dev.descFate r.val y = 0 ∧
    s.dev.respRing r.val = some q.val ∧ (s.dev.ringSt q.val).posted ≠ [] ∧ (∀ f ∈ s.dev.fwd.flushes, f.src ≠ .ring r.val) ∧
    s.dev.tblRefuse code c = 0 ∧ beAt c 0 1 = 2) ∧
    (let r : Fin 4096 := 9; let q : Fin 4096 := 10; let cm : List Byte := beBytes 1 3 ++ beBytes 1 0 ++ beBytes 2 4 ++ beBytes 4 5 ++ [1, 2, 3, 4] ++ beBytes 4 0 ++ zeros 16 ++ zeros 28 ++ beBytes 4 (2 ^ 31); let y : Desc := ⟨0, BitVec.ofNat 32 cm.length, 0, 0, 0, 0, 1, cm, 0⟩; let rest : List Desc := []; let s := up [.fn (fnKey 0 0) fun f => { f with live := true }, .ring 9 fun g => { g with state := 1, setup := beBytes 2 9 ++ [3, 0, 5] ++ zeros 27, posted := [y] }, .ring 10 fun g => { g with state := 1, setup := beBytes 2 10 ++ [4, 0, 5] ++ zeros 27, posted := [⟨0, 64, 0, 0, 0, 0, 1, [], 0⟩] }]; let c : List Byte := y.buf.take (descSize y); let code := 0x0100 + s.dev.ringFn r.val; let t := beAt c 2 2; s.Inv ∧ (s.dev.ringSt r.val).posted = y :: rest ∧ (s.dev.ringSt r.val).kind = 3 ∧ s.dev.ringLive r.val = true ∧ s.dev.descFate r.val y = 0 ∧
    s.dev.respRing r.val = some q.val ∧ (s.dev.ringSt q.val).posted ≠ [] ∧ (∀ f ∈ s.dev.fwd.flushes, f.src ≠ .ring r.val) ∧
    s.dev.tblRefuse code c = 0 ∧ beAt c 0 1 = 3 ∧ t ∈ [4, 5, 7, 8]) := by
  simp only [inv_iff]
  and_intros <;> decide +kernel

theorem meets_TableCommands_10 :
    (let r : Fin 4096 := 9; let q : Fin 4096 := 10; let cm : List Byte := beBytes 1 4 ++ beBytes 1 0 ++ beBytes 2 17 ++ beBytes 4 5 ++ [1, 2, 3, 4] ++ beBytes 4 0 ++ zeros 16 ++ []; let y : Desc := ⟨0, BitVec.ofNat 32 cm.length, 0, 0, 0, 0, 1, cm, 0⟩; let rest : List Desc := []; let s := up [.fn (fnKey 0 0) fun f => { f with live := true }, .ring 9 fun g => { g with state := 1, setup := beBytes 2 9 ++ [3, 0, 5] ++ zeros 27, posted := [y] }, .ring 10 fun g => { g with state := 1, setup := beBytes 2 10 ++ [4, 0, 5] ++ zeros 27, posted := [⟨0, 64, 0, 0, 0, 0, 1, [], 0⟩] }, .tbl (tblKey 17 5) [1]]; let c : List Byte := y.buf.take (descSize y); let code := 0x0100 + s.dev.ringFn r.val; let t := beAt c 2 2; let n := beAt c 4 4; s.Inv ∧ (s.dev.ringSt r.val).posted = y :: rest ∧ (s.dev.ringSt r.val).kind = 3 ∧ s.dev.ringLive r.val = true ∧ s.dev.descFate r.val y = 0 ∧
    s.dev.respRing r.val = some q.val ∧ (s.dev.ringSt q.val).posted ≠ [] ∧ (∀ f ∈ s.dev.fwd.flushes, f.src ≠ .ring r.val) ∧
    s.dev.tblRefuse code c = 0 ∧ beAt c 0 1 = 4 ∧ t ∈ [4, 5, 7, 8, 16, 17] ∧ rowValid t (s.dev.row t n) = true) ∧
    (let r : Fin 4096 := 9; let q : Fin 4096 := 10; let cm : List Byte := beBytes 1 5 ++ beBytes 1 0 ++ beBytes 2 1 ++ beBytes 4 0 ++ [1, 2, 3, 4] ++ beBytes 4 1073741833 ++ zeros 16 ++ []; let y : Desc := ⟨0, BitVec.ofNat 32 cm.length, 0, 0, 0, 0, 1, cm, 0⟩; let rest : List Desc := []; let s := up [.fn (fnKey 0 0) fun f => { f with live := true }, .ring 9 fun g => { g with state := 1, setup := beBytes 2 9 ++ [3, 0, 5] ++ zeros 27, posted := [y] }, .ring 10 fun g => { g with state := 1, setup := beBytes 2 10 ++ [4, 0, 5] ++ zeros 27, posted := [⟨0, 64, 0, 0, 0, 0, 1, [], 0⟩] }, .tbl (tblKey 1 9) (beBytes 16 (2 ^ 124 + 9 * 2 ^ 48 + 77) ++ zeros 12 ++ beBytes 4 (7 * 2 ^ 29 + 2 ^ 27 + 5 * 2 ^ 12))]; let c : List Byte := y.buf.take (descSize y); let code := 0x0100 + s.dev.ringFn r.val; s.Inv ∧ (s.dev.ringSt r.val).posted = y :: rest ∧ (s.dev.ringSt r.val).kind = 3 ∧ s.dev.ringLive r.val = true ∧ s.dev.descFate r.val y = 0 ∧
    s.dev.respRing r.val = some q.val ∧ (s.dev.ringSt q.val).posted ≠ [] ∧ (∀ f ∈ s.dev.fwd.flushes, f.src ≠ .ring r.val) ∧
    s.dev.tblRefuse code c = 0 ∧ beAt c 0 1 = 5) ∧
    (let r : Fin 4096 := 9; let q : Fin 4096 := 10; let cm : List Byte := beBytes 1 6 ++ beBytes 1 0 ++ beBytes 2 1 ++ beBytes 4 0 ++ [1, 2, 3, 4] ++ beBytes 4 0 ++ zeros 16 ++ []; let y : Desc := ⟨0, BitVec.ofNat 32 cm.length, 0, 0, 0, 0, 1, cm, 0⟩; let rest : List Desc := []; let s := up [.fn (fnKey 0 0) fun f => { f with live := true }, .ring 9 fun g => { g with state := 1, setup := beBytes 2 9 ++ [3, 0, 5] ++ zeros 27, posted := [y] }, .ring 10 fun g => { g with state := 1, setup := beBytes 2 10 ++ [4, 0, 5] ++ zeros 27, posted := [⟨0, 64, 0, 0, 0, 0, 1, [], 0⟩] }]; let c : List Byte := y.buf.take (descSize y); let code := 0x0100 + s.dev.ringFn r.val; s.Inv ∧ (s.dev.ringSt r.val).posted = y :: rest ∧ (s.dev.ringSt r.val).kind = 3 ∧ s.dev.ringLive r.val = true ∧ s.dev.descFate r.val y = 0 ∧
    s.dev.respRing r.val = some q.val ∧ (s.dev.ringSt q.val).posted ≠ [] ∧ (∀ f ∈ s.dev.fwd.flushes, f.src ≠ .ring r.val) ∧
    s.dev.tblRefuse code c = 0 ∧ beAt c 0 1 = 6) ∧
    (let r : Fin 4096 := 9; let q : Fin 4096 := 10; let cm : List Byte := beBytes 1 7 ++ beBytes 1 0 ++ beBytes 2 1 ++ beBytes 4 0 ++ [1, 2, 3, 4] ++ beBytes 4 0 ++ zeros 16 ++ []; let y : Desc := ⟨0, BitVec.ofNat 32 cm.length, 0, 0, 0, 0, 1, cm, 0⟩; let rest : List Desc := []; let s := up [.fn (fnKey 0 0) fun f => { f with live := true }, .ring 9 fun g => { g with state := 1, setup := beBytes 2 9 ++ [3, 0, 5] ++ zeros 27, posted := [y] }, .ring 10 fun g => { g with state := 1, setup := beBytes 2 10 ++ [4, 0, 5] ++ zeros 27, posted := [⟨0, 64, 0, 0, 0, 0, 1, [], 0⟩] }, .fwd fun f => { f with locks := [(1, 257)] }]; let c : List Byte := y.buf.take (descSize y); let code := 0x0100 + s.dev.ringFn r.val; s.Inv ∧ (s.dev.ringSt r.val).posted = y :: rest ∧ (s.dev.ringSt r.val).kind = 3 ∧ s.dev.ringLive r.val = true ∧ s.dev.descFate r.val y = 0 ∧
    s.dev.respRing r.val = some q.val ∧ (s.dev.ringSt q.val).posted ≠ [] ∧ (∀ f ∈ s.dev.fwd.flushes, f.src ≠ .ring r.val) ∧
    s.dev.tblRefuse code c = 0 ∧ beAt c 0 1 = 7) := by
  simp only [inv_iff]
  and_intros <;> decide +kernel

theorem meets_TableCommands_11 :
    (let s := up []; s.Inv ∧ s.dev.answers = true ∧ s.dev.fwd.flushes = []) ∧
    (let c : Call := ⟨sec, 3, 0x7801, 1⟩; let cmd : List Byte := beBytes 1 5 ++ beBytes 1 0 ++ beBytes 2 1 ++ beBytes 4 0 ++ [1, 2, 3, 4] ++ beBytes 4 1073741833 ++ zeros 16 ++ []; let k := 3; let rest : List Flush := []; let s := up [.fwd fun f => { f with flushes := ⟨.call c, cmd, k⟩ :: rest }]; s.Inv ∧ s.dev.answers = true ∧ s.dev.fwd.flushes = ⟨.call c, cmd, k⟩ :: rest) := by
  simp only [inv_iff]
  and_intros <;> decide +kernel

theorem meets_TablesAlone :
    (let s := up []; s.Inv ∧ s.dev.answers = true ∧ s.dev.fwd.learns = []) ∧
    (let l : Learn := ⟨4095, 2 ^ 48 - 1, 111, 0⟩; let rest : List Learn := []; let s := up [.obj .fwdAgeNow 0 0 (.num 255), .fwd fun f => { f with learns := l :: rest }]; s.Inv ∧ s.dev.answers = true ∧ s.dev.fwd.learns = l :: rest ∧ bitOf (s.dev.num .fwdLearnNotify) 31 = false ∧ l.bd < 4096 ∧ l.mac < 2 ^ 48 ∧ l.port < 112) ∧
    (let l : Learn := ⟨9, 77, 95, 0⟩; let rest : List Learn := []; let s := up [.obj .fwdCarveState 0 0 (.num 1), .fwd fun f => { f with learns := l :: rest }]; s.Inv ∧ s.dev.answers = true ∧ s.dev.fwd.learns = l :: rest ∧ bitOf (s.dev.num .fwdLearnNotify) 31 = false ∧ s.dev.num .fwdCarveState = 1) ∧
    (let l : Learn := ⟨9, 77, 95, 0⟩; let rest : List Learn := []; let s := up [.fwd fun f => { f with learns := l :: rest, flushes := [⟨.ring 9, beBytes 12 0 ++ beBytes 4 (2 ^ 31 + 95 * 2 ^ 16) ++ zeros 16, 0⟩] }]; s.Inv ∧ s.dev.answers = true ∧ s.dev.fwd.learns = l :: rest ∧ bitOf (s.dev.num .fwdLearnNotify) 31 = false ∧ s.dev.num .fwdCarveState ≠ 1 ∧ s.dev.flushing l.port = true) ∧
    (let l : Learn := ⟨9, 77, 95, 0⟩; let rest : List Learn := []; let s := up [.obj .fwdPortLearnLimit 0 95 (.num 1), .tbl (tblKey 1 7) (beBytes 16 (2 ^ 124 + 9 * 2 ^ 48 + 78) ++ zeros 12 ++ beBytes 4 (7 * 2 ^ 29 + 2 ^ 27 + 95 * 2 ^ 12)), .fwd fun f => { f with learns := l :: rest, flushes := [⟨.ring 9, beBytes 12 0 ++ beBytes 4 (2 ^ 31 + 94 * 2 ^ 16) ++ zeros 16, 0⟩] }]; let x : Dev := s.dev.asOf l.cfgEpoch; s.Inv ∧ s.dev.answers = true ∧ s.dev.fwd.learns = l :: rest ∧ bitOf (s.dev.num .fwdLearnNotify) 31 = false ∧ s.dev.num .fwdCarveState ≠ 1 ∧ s.dev.flushing l.port = false ∧ (x.portLimited l.port = true ∨ x.subLimited l.bd = true)) ∧
    (let l : Learn := ⟨9, 77, 95, 0⟩; let rest : List Learn := []; let s := up [.tbl (tblKey 1 7) (beBytes 16 (2 ^ 124 + 9 * 2 ^ 48 + 77) ++ zeros 12 ++ beBytes 4 (5 * 2 ^ 29 + 2 ^ 27 + 95 * 2 ^ 12)), .fwd fun f => { f with learns := l :: rest }]; let x : Dev := s.dev.asOf l.cfgEpoch; let e : List Byte := learnedEntry l (s.dev.num .fwdAgeNow); s.Inv ∧ s.dev.answers = true ∧ s.dev.fwd.learns = l :: rest ∧ bitOf (s.dev.num .fwdLearnNotify) 31 = false ∧ s.dev.num .fwdCarveState ≠ 1 ∧ s.dev.flushing l.port = false ∧ x.portLimited l.port = false ∧ x.subLimited l.bd = false ∧ (s.dev.rowClash 1 e).isSome = true) ∧
    (let l : Learn := ⟨9, 77, 95, 0⟩; let rest : List Learn := []; let s := up [.fwd fun f => { f with learns := l :: rest }]; let x : Dev := s.dev.asOf l.cfgEpoch; let e : List Byte := learnedEntry l (s.dev.num .fwdAgeNow); s.Inv ∧ s.dev.answers = true ∧ s.dev.fwd.learns = l :: rest ∧ bitOf (s.dev.num .fwdLearnNotify) 31 = false ∧ s.dev.num .fwdCarveState ≠ 1 ∧ s.dev.flushing l.port = false ∧ x.portLimited l.port = false ∧ x.subLimited l.bd = false ∧ s.dev.rowClash 1 e = none ∧ s.dev.emPlace (e.take 16) = some (838276, []) ∧ s.dev.fwd.stashHot = false ∧
              (∀ y ∈ s.dev.rows 1, y.1 < 2 ^ 31) ∧ s.dev.fwd.limitHot = [] ∧ s.dev.num .fwdPortLearnLimit 0 l.port = 0 ∧
              s.dev.num .fwdSubLearnLimit = 0) ∧
    (let s := up [.obj .fwdAgeNow 0 0 (.num 255), .obj .fwdAgeLimit 0 0 (.num 0)]; let lim := s.dev.num .fwdAgeLimit; s.Inv ∧ s.dev.answers = true ∧ lim = 0) := by
  simp only [inv_iff]
  and_intros <;> decide +kernel

theorem meets_TablesAlone_2 :
    (let s := up [.obj .fwdAgeNow 0 0 (.num 255), .obj .fwdAgeLimit 0 0 (.num 2), .tbl (tblKey 1 7) (beBytes 16 (2 ^ 124 + 9 * 2 ^ 48 + 77) ++ zeros 12 ++ beBytes 4 (7 * 2 ^ 29 + 2 ^ 27 + 95 * 2 ^ 12)), .tbl (tblKey 1 9) (beBytes 16 (2 ^ 124 + 9 * 2 ^ 48 + 78) ++ zeros 12 ++ beBytes 4 (7 * 2 ^ 29 + 2 ^ 27 + 255 * 2 ^ 19 + 95 * 2 ^ 12)), .tbl (tblKey 1 10) (beBytes 16 (2 ^ 124 + 9 * 2 ^ 48 + 79) ++ zeros 12 ++ beBytes 4 (7 * 2 ^ 29 + 2 ^ 27 + 254 * 2 ^ 19 + 95 * 2 ^ 12))]; let lim := s.dev.num .fwdAgeLimit; s.Inv ∧ s.dev.answers = true ∧ lim ≠ 0 ∧ bitOf (s.dev.num .fwdLearnNotify) 31 = false ∧ s.dev.fwd.stashHot = false ∧ (∀ y ∈ s.dev.rows 1, y.1 < 2 ^ 31) ∧ s.dev.fwd.limitHot = [] ∧ s.dev.num .fwdSubLearnLimit = 0 ∧ (∀ q ∈ List.range (128), s.dev.num .fwdPortLearnLimit 0 q = 0)) ∧
    (let t : Fin 32 := 31; let place : BitVec 32 := 5; let s := up []; s.Inv ∧ s.dev.answers = true ∧ s.dev.row t.val place.toNat = []) ∧
    (let t : Fin 32 := 17; let place : BitVec 32 := 2097151; let s := up [.tbl (tblKey 17 2097151) [1]]; s.Inv ∧ s.dev.answers = true ∧ s.dev.row t.val place.toNat ≠ [] ∧ tblEntry t.val ≠ 0 ∧ t.val ≠ 1 ∧ bitOf (s.dev.num .fwdLearnNotify) 31 = false) ∧
    (let o := sec; let v : BitVec 8 := 4; let s := up []; let r := writeReq o .fwdCarving 0 0 (.num v.toNat); s.Inv ∧ s.dev.admits r ∧ 3 < v.toNat) ∧
    (let o := sec; let v : BitVec 8 := 3; let s := up [.obj .fwdCarving 0 0 (.num 3)]; let r := writeReq o .fwdCarving 0 0 (.num v.toNat); s.Inv ∧ s.dev.admits r ∧ v.toNat ≤ 3 ∧ v.toNat = s.dev.num .fwdCarving) ∧
    (let o := sec; let v : BitVec 8 := 2; let s := up [.obj .fwdCarveState 0 0 (.num 1)]; let r := writeReq o .fwdCarving 0 0 (.num v.toNat); s.Inv ∧ s.dev.admits r ∧ v.toNat ≤ 3 ∧ v.toNat ≠ s.dev.num .fwdCarving ∧ s.dev.num .fwdCarving ≠ 3 ∧ (s.dev.num .fwdCarveState = 1 ∨ (∃ k ∈ List.range (4), 1 ≤ k ∧ s.dev.tblLock k ≠ none))) ∧
    (let o := sec; let v : BitVec 8 := 2; let s := up [.fwd fun f => { f with locks := [(3, 257)] }]; let r := writeReq o .fwdCarving 0 0 (.num v.toNat); s.Inv ∧ s.dev.admits r ∧ v.toNat ≤ 3 ∧ v.toNat ≠ s.dev.num .fwdCarving ∧ s.dev.num .fwdCarving ≠ 3 ∧ (s.dev.num .fwdCarveState = 1 ∨ (∃ k ∈ List.range (4), 1 ≤ k ∧ s.dev.tblLock k ≠ none))) ∧
    (let o := sec; let v : BitVec 8 := 2; let s := up [.fwd (fun f => { f with locks := [(4, 257)], learns := [⟨9, 7, 3, 0⟩] }), .tbl (tblKey 1 7) (beBytes 16 (2 ^ 124 + 9 * 2 ^ 48 + 77) ++ zeros 12 ++ beBytes 4 (5 * 2 ^ 29 + 2 ^ 27 + 95 * 2 ^ 12)), .tbl (tblKey 4 7) (beBytes 16 (2 ^ 124 + 9 * 2 ^ 48 + 77) ++ zeros 12 ++ beBytes 4 (5 * 2 ^ 29 + 2 ^ 27 + 95 * 2 ^ 12))]; let r := writeReq o .fwdCarving 0 0 (.num v.toNat); s.Inv ∧ s.dev.admits r ∧ v.toNat ≤ 3 ∧ v.toNat ≠ s.dev.num .fwdCarving ∧ s.dev.num .fwdCarving ≠ 3 ∧ s.dev.num .fwdCarveState ≠ 1 ∧ (∀ k ∈ List.range (4), 1 ≤ k → s.dev.tblLock k = none)) := by
  simp only [inv_iff, admits_iff]
  and_intros <;> decide +kernel

theorem meets_TablesAlone_3 :
    (let s := up [.obj .fwdEpochStatus 0 0 (.num 0x03000000)]; s.Inv ∧ s.dev.answers = true ∧ s.dev.num .fwdCarveState ≠ 1 ∧ s.dev.num .fwdEpochStatus / 2 ^ 24 ≠ 2 ∧ s.dev.pendingOn 5 0 = none) ∧
    (let s := up [.obj .fwdCarveState 0 0 (.num 1)]; s.Inv ∧ s.dev.answers = true ∧ s.dev.num .fwdCarveState = 1) ∧
    (let s := up [.obj .fwdEpochStatus 0 0 (.num 0x02000000), .obj .fwdTableEpoch 0 0 (.num 6), .fwd fun f => { f with flight := [(⟨1, 5, 0, 0, 0, 0, 6, false, false, none, 0, 0, 0, [], none⟩ : Pkt), (⟨1, 5, 0, 0, 0, 0, 5, false, false, none, 0, 0, 0, [], none⟩ : Pkt)] }]; s.Inv ∧ s.dev.answers = true ∧ (s.dev.num .fwdEpochStatus / 2 ^ 24 ≠ 2 ∨ (∃ p ∈ s.dev.fwd.flight, p.tblEpoch < s.dev.num .fwdTableEpoch))) ∧
    (let s := up [.obj .fwdEpochStatus 0 0 (.num 0x02000000), .obj .fwdTableEpoch 0 0 (.num 6), .fwd fun f => { f with flight := [(⟨1, 5, 0, 0, 0, 0, 6, false, false, none, 0, 0, 0, [], none⟩ : Pkt)] }]; s.Inv ∧ s.dev.answers = true ∧ s.dev.num .fwdEpochStatus / 2 ^ 24 = 2 ∧ (∀ p ∈ s.dev.fwd.flight, s.dev.num .fwdTableEpoch ≤ p.tblEpoch)) ∧
    (let a : Action := ⟨255, 5, 0, .time 5 0, 0x0400, true, [Obj.fwdTableEpoch.key 0 0], [], 0⟩; let s := up [.arm ⟨255, 5, 0, .time 5 0, 0x0400, true, [Obj.fwdTableEpoch.key 0 0], [], 0⟩, .obj .fwdTableEpoch 0 0 (.num 0xFFFFFFFF), .tim fun t => { t with secs := 3, ticks := 9 }]; let a : Action := (s.dev.acts.headD a); s.Inv ∧ s.dev.answers = true ∧ s.dev.pendingOn 5 0 = some a ∧ s.dev.actTurn a = false) ∧
    (let a : Action := ⟨255, 5, 0, .now, 0x0400, true, [Obj.fwdTableEpoch.key 0 0], [], 0⟩; let s := up [.arm ⟨255, 5, 0, .now, 0x0400, true, [Obj.fwdTableEpoch.key 0 0], [], 0⟩, .obj .fwdTableEpoch 0 0 (.num 0xFFFFFFFF), .tim fun t => { t with secs := 3, ticks := 9 }]; let a : Action := (s.dev.acts.headD a); s.Inv ∧ s.dev.answers = true ∧ s.dev.pendingOn 5 0 = some a ∧ s.dev.actTurn a = true) ∧
    (let a : Action := ⟨255, 5, 0, .time 1 0, 0x0400, true, [Obj.fwdTableEpoch.key 0 0], [], 0⟩; let s := up [.arm ⟨255, 5, 0, .time 1 0, 0x0400, true, [Obj.fwdTableEpoch.key 0 0], [], 0⟩, .obj .fwdTableEpoch 0 0 (.num 0xFFFFFFFF), .tim fun t => { t with secs := 3, ticks := 9 }]; let a : Action := (s.dev.acts.headD a); s.Inv ∧ s.dev.answers = true ∧ s.dev.pendingOn 5 0 = some a ∧ s.dev.actTurn a = true) ∧
    (let o := sec; let arg : List Byte := [3] ++ zeros 11; let s := up []; let r := execReq o .fwdEpochSwitch 0 0 true (.oct arg); s.Inv ∧ arg.length = 12 ∧ s.dev.admits r ∧ (beAt arg 1 1 ≠ 0 ∨ 2 < beAt arg 0 1)) := by
  simp only [inv_iff, admits_iff]
  and_intros <;> decide +kernel

theorem meets_TablesAlone_4 :
    (let o := sec; let arg : List Byte := [0, 1] ++ zeros 10; let s := up []; let r := execReq o .fwdEpochSwitch 0 0 true (.oct arg); s.Inv ∧ arg.length = 12 ∧ s.dev.admits r ∧ (beAt arg 1 1 ≠ 0 ∨ 2 < beAt arg 0 1)) ∧
    (let o := sec; let arg : List Byte := [2, 0] ++ beBytes 6 1 ++ zeros 4; let t : Trig := (parseTrig (beAt arg 0 1) (arg.drop 2)).getD .now; let s := up [.tim fun t => { t with secs := 3 }]; let r := execReq o .fwdEpochSwitch 0 0 true (.oct arg); s.Inv ∧ arg.length = 12 ∧ s.dev.admits r ∧ beAt arg 1 1 = 0 ∧ parseTrig (beAt arg 0 1) (arg.drop 2) = some t ∧ s.dev.trigAhead (s.dev.num .clkTimingChannel) t = false) ∧
    (let o := sec; let arg : List Byte := zeros 12; let t : Trig := (parseTrig (beAt arg 0 1) (arg.drop 2)).getD .now; let s := up [.arm ⟨0, 5, 0, .now, 0x0400, true, [Obj.fwdTableEpoch.key 0 0], [], 0⟩]; let r := execReq o .fwdEpochSwitch 0 0 true (.oct arg); s.Inv ∧ arg.length = 12 ∧ s.dev.admits r ∧ beAt arg 1 1 = 0 ∧ parseTrig (beAt arg 0 1) (arg.drop 2) = some t ∧ s.dev.trigAhead (s.dev.num .clkTimingChannel) t = true ∧ s.dev.armConflict 5 0 [Obj.fwdTableEpoch.key 0 0] = true) ∧
    (let o := sec; let arg : List Byte := zeros 12; let t : Trig := (parseTrig (beAt arg 0 1) (arg.drop 2)).getD .now; let s := up [.obj .fwdEpochStatus 0 0 (.num 0x02000000)]; let r := execReq o .fwdEpochSwitch 0 0 true (.oct arg); s.Inv ∧ arg.length = 12 ∧ s.dev.admits r ∧ beAt arg 1 1 = 0 ∧ parseTrig (beAt arg 0 1) (arg.drop 2) = some t ∧ s.dev.trigAhead (s.dev.num .clkTimingChannel) t = true ∧ s.dev.armConflict 5 0 [Obj.fwdTableEpoch.key 0 0] = false ∧ s.dev.num .fwdEpochStatus / 2 ^ 24 = 2) ∧
    (let o := sec; let arg : List Byte := [1, 0] ++ zeros 2 ++ beBytes 8 0x0100; let t : Trig := (parseTrig (beAt arg 0 1) (arg.drop 2)).getD .now; let s := up []; let r := execReq o .fwdEpochSwitch 0 0 true (.oct arg); s.Inv ∧ arg.length = 12 ∧ s.dev.admits r ∧ beAt arg 1 1 = 0 ∧ parseTrig (beAt arg 0 1) (arg.drop 2) = some t ∧ s.dev.trigAhead (s.dev.num .clkTimingChannel) t = true ∧ s.dev.armConflict 5 0 [Obj.fwdTableEpoch.key 0 0] = false ∧ s.dev.num .fwdEpochStatus / 2 ^ 24 ≠ 2 ∧ s.dev.trigUnaligned (s.dev.num .clkTimingChannel) t = true) ∧
    (let o := sec; let arg : List Byte := zeros 12; let t : Trig := (parseTrig (beAt arg 0 1) (arg.drop 2)).getD .now; let s := up []; let r := execReq o .fwdEpochSwitch 0 0 true (.oct arg); s.Inv ∧ arg.length = 12 ∧ s.dev.admits r ∧ beAt arg 1 1 = 0 ∧ parseTrig (beAt arg 0 1) (arg.drop 2) = some t ∧ s.dev.trigAhead (s.dev.num .clkTimingChannel) t = true ∧ s.dev.armConflict 5 0 [Obj.fwdTableEpoch.key 0 0] = false ∧ s.dev.num .fwdEpochStatus / 2 ^ 24 ≠ 2 ∧ s.dev.trigUnaligned (s.dev.num .clkTimingChannel) t = false ∧ s.dev.acts.length < 256) ∧
    (let o := sec; let arg : List Byte := [2, 0] ++ beBytes 6 4 ++ zeros 4; let t : Trig := (parseTrig (beAt arg 0 1) (arg.drop 2)).getD .now; let s := up [.tim fun t => { t with secs := 3 }]; let r := execReq o .fwdEpochSwitch 0 0 true (.oct arg); s.Inv ∧ arg.length = 12 ∧ s.dev.admits r ∧ beAt arg 1 1 = 0 ∧ parseTrig (beAt arg 0 1) (arg.drop 2) = some t ∧ s.dev.trigAhead (s.dev.num .clkTimingChannel) t = true ∧ s.dev.armConflict 5 0 [Obj.fwdTableEpoch.key 0 0] = false ∧ s.dev.num .fwdEpochStatus / 2 ^ 24 ≠ 2 ∧ s.dev.trigUnaligned (s.dev.num .clkTimingChannel) t = false ∧ s.dev.acts.length < 256) := by
  simp only [inv_iff, admits_iff]
  and_intros <;> decide +kernel

theorem meets_QueuesAndNodes :
    (let o := sec; let q : Fin 131072 := 131071; let b : List Byte := (beBytes 4 32768 ++ beBytes 4 0 ++ beBytes 4 0 ++ [1, 0] ++ beBytes 2 0 ++ beBytes 2 0 ++ beBytes 2 0); let level := 0; let top := 32767; let s := up []; let ix := q.val; let r := writeReq o .tmQueueCfg 0 ix (.oct b); let rate := beAt b 4 4; let burst := beAt b 8 4; s.Inv ∧ s.dev.admits r ∧ (top < beAt b 0 4 ∨ (1 ≤ rate ∧ rate ≤ 7) ∨ 1600000000 < rate ∨ 16777216 < burst ∨ beAt b 12 1 = 0 ∨ beAt b 18 2 ≠ 0 ∨
      (level = 0 ∧ bitOf (beAt b 13 1) 6 = true ∧ (beAt b 16 2 < 16 ∨ 4096 < beAt b 16 2)) ∨
      (level = 2 ∧ bitOf (beAt b 14 2) 15 = true ∧ (beAt b 0 4 < 108 ∨ 111 < beAt b 0 4)))) ∧
    (let o := sec; let q : Fin 32768 := 32767; let b : List Byte := (beBytes 4 4096 ++ beBytes 4 0 ++ beBytes 4 0 ++ [1, 0] ++ beBytes 2 0 ++ beBytes 2 0 ++ beBytes 2 0); let level := 1; let top := 4095; let s := up []; let ix := q.val; let r := writeReq o .tmSubCfg 0 ix (.oct b); let rate := beAt b 4 4; let burst := beAt b 8 4; s.Inv ∧ s.dev.admits r ∧ (top < beAt b 0 4 ∨ (1 ≤ rate ∧ rate ≤ 7) ∨ 1600000000 < rate ∨ 16777216 < burst ∨ beAt b 12 1 = 0 ∨ beAt b 18 2 ≠ 0 ∨
      (level = 0 ∧ bitOf (beAt b 13 1) 6 = true ∧ (beAt b 16 2 < 16 ∨ 4096 < beAt b 16 2)) ∨
      (level = 2 ∧ bitOf (beAt b 14 2) 15 = true ∧ (beAt b 0 4 < 108 ∨ 111 < beAt b 0 4)))) ∧
    (let o := sec; let q : Fin 4096 := 4095; let b : List Byte := (beBytes 4 116 ++ beBytes 4 0 ++ beBytes 4 0 ++ [1, 0] ++ beBytes 2 0 ++ beBytes 2 0 ++ beBytes 2 0); let level := 2; let top := 115; let s := up []; let ix := q.val; let r := writeReq o .tmSvcCfg 0 ix (.oct b); let rate := beAt b 4 4; let burst := beAt b 8 4; s.Inv ∧ s.dev.admits r ∧ (top < beAt b 0 4 ∨ (1 ≤ rate ∧ rate ≤ 7) ∨ 1600000000 < rate ∨ 16777216 < burst ∨ beAt b 12 1 = 0 ∨ beAt b 18 2 ≠ 0 ∨
      (level = 0 ∧ bitOf (beAt b 13 1) 6 = true ∧ (beAt b 16 2 < 16 ∨ 4096 < beAt b 16 2)) ∨
      (level = 2 ∧ bitOf (beAt b 14 2) 15 = true ∧ (beAt b 0 4 < 108 ∨ 111 < beAt b 0 4)))) ∧
    (let o := sec; let q : Fin 131072 := 131071; let b : List Byte := (beBytes 4 0 ++ beBytes 4 0 ++ beBytes 4 0 ++ [1, 192] ++ beBytes 2 0 ++ beBytes 2 16 ++ beBytes 2 0); let level := 0; let s := up []; let ix := q.val; let r := writeReq o .tmQueueCfg 0 ix (.oct b); s.Inv ∧ s.dev.admits r ∧ nodeBad level b = false ∧ level = 0 ∧ bitOf (beAt b 13 1) 6 = true ∧ s.dev.dramCells = 0) := by
  simp only [inv_iff, admits_iff]
  and_intros <;> decide +kernel

theorem meets_QueuesAndNodes_2 :
    (let o := sec; let q : Fin 131072 := 131071; let b : List Byte := (beBytes 4 0 ++ beBytes 4 0 ++ beBytes 4 0 ++ [1, 136] ++ beBytes 2 0 ++ beBytes 2 0 ++ beBytes 2 0); let level := 0; let s := up [.tm fun t => { t with queues := [(131071, [⟨zeros 60, zeros 60, false, [], none, 0, 1, none, none, 0, 0, false⟩])] }]; let ix := q.val; let r := writeReq o .tmQueueCfg 0 ix (.oct b); let old := s.dev.oct .tmQueueCfg 0 ix; s.Inv ∧ s.dev.admits r ∧ nodeBad level b = false ∧ level = 0 ∧ s.dev.queue ix ≠ [] ∧ bitsOf (beAt b 13 1) 3 4 ≠ bitsOf (beAt old 13 1) 3 4) ∧
    (let o := sec; let q : Fin 4096 := 4095; let b : List Byte := (beBytes 4 111 ++ beBytes 4 0 ++ beBytes 4 0 ++ [1, 0] ++ beBytes 2 32777 ++ beBytes 2 0 ++ beBytes 2 0); let level := 2; let s := up [.obj .tmSvcCfg 0 7 (.oct (beBytes 4 111 ++ beBytes 4 0 ++ beBytes 4 0 ++ [1, 0] ++ beBytes 2 32777 ++ beBytes 2 0 ++ beBytes 2 0))]; let ix := q.val; let r := writeReq o .tmSvcCfg 0 ix (.oct b); s.Inv ∧ s.dev.admits r ∧ nodeBad level b = false ∧ level = 2 ∧ bitOf (beAt b 14 2) 15 = true ∧ 108 ≤ beAt b 0 4 ∧ beAt b 0 4 ≤ 111 ∧ beAt b 14 2 % 16384 ≠ 0x3FFF ∧
        7 < 4096 ∧ 7 ≠ ix ∧ nodeParent (s.dev.svcRec 7) = beAt b 0 4 ∧ bitOf (nodeExtra (s.dev.svcRec 7)) 15 = true ∧
        nodeExtra (s.dev.svcRec 7) % 16384 = beAt b 14 2 % 16384) ∧
    (let o := sec; let q : Fin 131072 := 131071; let b : List Byte := (beBytes 4 32767 ++ beBytes 4 8 ++ beBytes 4 16777216 ++ [255, 128] ++ beBytes 2 0 ++ beBytes 2 0 ++ beBytes 2 0); let s := up [.tm fun t => { t with deficits := [(131071 * 8 + 3, 5), ((0x100000 + 32767) * 8, 7), ((0x200000 + 4095) * 8 + 1, 7)] }, .obj .tmQueueCfg 0 131071 (.oct (beBytes 4 5 ++ beBytes 4 1600000000 ++ beBytes 4 64 ++ [1, 0] ++ beBytes 2 0 ++ beBytes 2 0 ++ beBytes 2 0))]; let ix := q.val; let r := writeReq o .tmQueueCfg 0 ix (.oct b); s.Inv ∧ s.dev.admits r ∧ nodeBad 0 b = false ∧ (bitOf (beAt b 13 1) 6 = true → s.dev.dramCells ≠ 0) ∧ s.dev.queue q.val = []) ∧
    (let o := sec; let q : Fin 32768 := 32767; let b : List Byte := (beBytes 4 4095 ++ beBytes 4 1600000000 ++ beBytes 4 0 ++ [1, 0] ++ beBytes 2 0 ++ beBytes 2 0 ++ beBytes 2 0); let s := up [.tm fun t => { t with deficits := [(131071 * 8 + 3, 5), ((0x100000 + 32767) * 8, 7), ((0x200000 + 4095) * 8 + 1, 7)] }]; let ix := q.val; let r := writeReq o .tmSubCfg 0 ix (.oct b); s.Inv ∧ s.dev.admits r ∧ nodeBad 1 b = false) := by
  simp only [inv_iff, admits_iff]
  and_intros <;> decide +kernel

theorem meets_QueuesAndNodes_3 :
    (let o := sec; let q : Fin 4096 := 4095; let b : List Byte := (beBytes 4 115 ++ beBytes 4 0 ++ beBytes 4 0 ++ [1, 0] ++ beBytes 2 0 ++ beBytes 2 0 ++ beBytes 2 0); let s := up [.tm fun t => { t with deficits := [(131071 * 8 + 3, 5), ((0x100000 + 32767) * 8, 7), ((0x200000 + 4095) * 8 + 1, 7)] }]; let ix := q.val; let r := writeReq o .tmSvcCfg 0 ix (.oct b); s.Inv ∧ s.dev.admits r ∧ nodeBad 2 b = false ∧ beAt b 14 2 = 0) ∧
    (let o := sec; let p : Fin 128 := 127; let b : List Byte := (beBytes 4 0 ++ beBytes 4 0 ++ [0, 0] ++ beBytes 2 0 ++ [1, 1, 1, 1, 1, 1, 1, 0] ++ beBytes 4 0xFFFFFFFF ++ beBytes 8 0); let s := up []; let r := writeReq o .tmPortCfg 0 p.val (.oct b); s.Inv ∧ s.dev.admits r ∧ ((∃ i ∈ List.range (20), 12 ≤ i ∧ i < b.length ∧ beAt b i 1 = 0) ∨ (65 ≤ beAt b 8 1 ∧ beAt b 8 1 ≤ 191) ∨ (131064 < beAt b 20 4 ∧ beAt b 20 4 ≠ 0xFFFFFFFF) ∨ (116 ≤ p.val ∧ beAt b 20 4 ≠ 0xFFFFFFFF))) ∧
    (let o := sec; let p : Fin 128 := 5; let b : List Byte := (beBytes 4 0 ++ beBytes 4 0 ++ [191, 0] ++ beBytes 2 0 ++ [1, 1, 1, 1, 1, 1, 1, 1] ++ beBytes 4 0xFFFFFFFF ++ beBytes 8 0); let s := up []; let r := writeReq o .tmPortCfg 0 p.val (.oct b); s.Inv ∧ s.dev.admits r ∧ ((∃ i ∈ List.range (20), 12 ≤ i ∧ i < b.length ∧ beAt b i 1 = 0) ∨ (65 ≤ beAt b 8 1 ∧ beAt b 8 1 ≤ 191) ∨ (131064 < beAt b 20 4 ∧ beAt b 20 4 ≠ 0xFFFFFFFF) ∨ (116 ≤ p.val ∧ beAt b 20 4 ≠ 0xFFFFFFFF))) ∧
    (let o := sec; let p : Fin 128 := 115; let b : List Byte := (beBytes 4 0 ++ beBytes 4 0 ++ [0, 0] ++ beBytes 2 0 ++ [1, 1, 1, 1, 1, 1, 1, 1] ++ beBytes 4 131065 ++ beBytes 8 0); let s := up []; let r := writeReq o .tmPortCfg 0 p.val (.oct b); s.Inv ∧ s.dev.admits r ∧ ((∃ i ∈ List.range (20), 12 ≤ i ∧ i < b.length ∧ beAt b i 1 = 0) ∨ (65 ≤ beAt b 8 1 ∧ beAt b 8 1 ≤ 191) ∨ (131064 < beAt b 20 4 ∧ beAt b 20 4 ≠ 0xFFFFFFFF) ∨ (116 ≤ p.val ∧ beAt b 20 4 ≠ 0xFFFFFFFF))) := by
  simp only [inv_iff, admits_iff]
  and_intros <;> decide +kernel

theorem meets_QueuesAndNodes_4 :
    (let o := sec; let p : Fin 128 := 116; let b : List Byte := (beBytes 4 0 ++ beBytes 4 0 ++ [0, 0] ++ beBytes 2 0 ++ [1, 1, 1, 1, 1, 1, 1, 1] ++ beBytes 4 0 ++ beBytes 8 0); let s := up []; let r := writeReq o .tmPortCfg 0 p.val (.oct b); s.Inv ∧ s.dev.admits r ∧ ((∃ i ∈ List.range (20), 12 ≤ i ∧ i < b.length ∧ beAt b i 1 = 0) ∨ (65 ≤ beAt b 8 1 ∧ beAt b 8 1 ≤ 191) ∨ (131064 < beAt b 20 4 ∧ beAt b 20 4 ≠ 0xFFFFFFFF) ∨ (116 ≤ p.val ∧ beAt b 20 4 ≠ 0xFFFFFFFF))) ∧
    (let o := sec; let p : Fin 128 := 115; let b : List Byte := (beBytes 4 0 ++ beBytes 4 16777216 ++ [64, 255] ++ beBytes 2 0 ++ [1, 1, 1, 1, 1, 1, 1, 1] ++ beBytes 4 131064 ++ beBytes 8 0); let s := up []; let r := writeReq o .tmPortCfg 0 p.val (.oct b); s.Inv ∧ s.dev.admits r ∧ beAt b 0 4 = 0 ∧ beAt b 4 4 ≤ 16777216 ∧ (beAt b 8 1 ≤ 64 ∨ 192 ≤ beAt b 8 1) ∧ beAt b 10 2 = 0 ∧ beAt b 24 8 = 0 ∧ b.length = 32 ∧
      (∀ i ∈ List.range (20), 12 ≤ i → beAt b i 1 ≠ 0) ∧ (beAt b 20 4 = 0xFFFFFFFF ∨ (beAt b 20 4 ≤ 131064 ∧ p.val < 116))) ∧
    (let o := sec; let p : Fin 128 := 127; let b : List Byte := (beBytes 4 0 ++ beBytes 4 0 ++ [192, 0] ++ beBytes 2 0 ++ [1, 1, 1, 1, 1, 1, 1, 1] ++ beBytes 4 0xFFFFFFFF ++ beBytes 8 0); let s := up []; let r := writeReq o .tmPortCfg 0 p.val (.oct b); s.Inv ∧ s.dev.admits r ∧ beAt b 0 4 = 0 ∧ beAt b 4 4 ≤ 16777216 ∧ (beAt b 8 1 ≤ 64 ∨ 192 ≤ beAt b 8 1) ∧ beAt b 10 2 = 0 ∧ beAt b 24 8 = 0 ∧ b.length = 32 ∧
      (∀ i ∈ List.range (20), 12 ≤ i → beAt b i 1 ≠ 0) ∧ (beAt b 20 4 = 0xFFFFFFFF ∨ (beAt b 20 4 ≤ 131064 ∧ p.val < 116))) ∧
    (let p : Fin 116 := 111; let s := up []; s.Inv ∧ 108 ≤ p.val ∧ p.val < 112) := by
  simp only [inv_iff, admits_iff]
  and_intros <;> decide +kernel

theorem meets_QueuesAndNodes_5 :
    (let p : Fin 116 := 12; let s := up [.tm fun t => { t with queues := [(96, [⟨zeros 60, zeros 60, false, [], none, 0, 1, none, none, 0, 0, false⟩]), (104, [⟨zeros 60, zeros 60, false, [], none, 0, 1, none, none, 0, 0, false⟩])], deficits := [(96 * 8, 5), (104 * 8, 6)] }]; s.Inv ∧ s.dev.answers = true ∧ s.dev.num .pwrState = 0 ∧ (p.val < 108 ∨ 112 ≤ p.val) ∧ (96 ≤ p.val ∨ bitOf (s.dev.num .portEeeState p.val) 1 = false) ∧ (∀ q ∈ s.dev.busyQueues, s.dev.portOf q = p.val → s.dev.eligible q = false)) ∧
    (let p : Fin 116 := 12; let q := 96; let x : QPkt := ⟨zeros 60, zeros 60, false, [], none, 0, 1, none, none, 0, 0, false⟩; let rest : List QPkt := []; let s := up [.tm fun t => { t with queues := [(q, x :: rest)] }, .obj .portState 12 0 (.num 4)]; s.Inv ∧ s.dev.answers = true ∧ s.dev.num .pwrState = 0 ∧ (p.val < 108 ∨ 112 ≤ p.val) ∧ (96 ≤ p.val ∨ bitOf (s.dev.num .portEeeState p.val) 1 = false) ∧ s.dev.tm.queues = [(q, x :: rest)] ∧ s.dev.portOf q = p.val ∧ s.dev.eligible q = true ∧ s.dev.egressRoom p.val x = true) ∧
    (let p : Fin 116 := 12; let q := 96; let x : QPkt := ⟨zeros 60, zeros 60, false, [], none, 0, 1, none, none, 0, 0, false⟩; let rest : List QPkt := [x]; let s := up [.tm fun t => { t with queues := [(q, x :: rest)] }, .obj .portState 12 0 (.num 4)]; s.Inv ∧ s.dev.answers = true ∧ s.dev.num .pwrState = 0 ∧ (p.val < 108 ∨ 112 ≤ p.val) ∧ (96 ≤ p.val ∨ bitOf (s.dev.num .portEeeState p.val) 1 = false) ∧ s.dev.tm.queues = [(q, x :: rest)] ∧ s.dev.portOf q = p.val ∧ s.dev.eligible q = true ∧ s.dev.egressRoom p.val x = true) ∧
    (let p : Fin 116 := 12; let q := 96; let x : QPkt := ⟨zeros 60, zeros 60, false, [], none, 0, 1, none, none, 0, 0, false⟩; let rest : List QPkt := []; let s := up [.tm fun t => { t with queues := [(q, x :: rest)] }, .obj .portState 12 0 (.num 4)]; s.Inv ∧ s.dev.answers = true ∧ s.dev.num .pwrState = 0 ∧ (p.val < 108 ∨ 112 ≤ p.val) ∧ (96 ≤ p.val ∨ bitOf (s.dev.num .portEeeState p.val) 1 = false) ∧ s.dev.tm.queues = [(q, x :: rest)] ∧ s.dev.portOf q = p.val ∧ s.dev.eligible q = true ∧ s.dev.egressRoom p.val x = true) := by
  simp only [inv_iff]
  and_intros <;> decide +kernel

theorem meets_QueuesAndNodes_6 :
    (let p : Fin 116 := 107; let q := 856; let x : QPkt := ⟨zeros 60, zeros 60, false, [], none, 0, 1, none, none, 0, 0, false⟩; let rest : List QPkt := [x]; let s := up [.tm fun t => { t with queues := [(q, x :: rest)] }, .obj .lgPersonality 11 0 (.num 1), .obj .fabState 11 0 (.num 4), .obj .fabTxCredits 11 0 (.num 3)]; s.Inv ∧ s.dev.answers = true ∧ s.dev.num .pwrState = 0 ∧ (p.val < 108 ∨ 112 ≤ p.val) ∧ (96 ≤ p.val ∨ bitOf (s.dev.num .portEeeState p.val) 1 = false) ∧ s.dev.tm.queues = [(q, x :: rest)] ∧ s.dev.portOf q = p.val ∧ s.dev.eligible q = true ∧ s.dev.egressRoom p.val x = true) ∧
    (let p : Fin 116 := 115; let q := 920; let x : QPkt := ⟨zeros 60, zeros 60, false, [], none, 0, 1, none, none, 0, 0, false⟩; let rest : List QPkt := []; let s := up [.tm fun t => { t with queues := [(q, x :: rest)] }, .obj .hifLinkState 3 0 (.num 2)]; s.Inv ∧ s.dev.answers = true ∧ s.dev.num .pwrState = 0 ∧ (p.val < 108 ∨ 112 ≤ p.val) ∧ (96 ≤ p.val ∨ bitOf (s.dev.num .portEeeState p.val) 1 = false) ∧ s.dev.tm.queues = [(q, x :: rest)] ∧ s.dev.portOf q = p.val ∧ s.dev.eligible q = true ∧ s.dev.egressRoom p.val x = true) ∧
    (let o := sec; let a : BitVec 32 := 131072; let s := up []; let r := execReq o .tmQueueFlush 0 0 true (.num a.toNat); s.Inv ∧ s.dev.admits r ∧ 131071 < a.toNat) ∧
    (let o := sec; let a : BitVec 32 := 96; let s := up []; let r := execReq o .tmQueueFlush 0 0 true (.num a.toNat); s.Inv ∧ s.dev.admits r ∧ a.toNat ≤ 131071 ∧ s.dev.queueOn a.toNat = true) := by
  simp only [inv_iff, admits_iff]
  and_intros <;> decide +kernel

theorem meets_QueuesAndNodes_7 :
    (let o := sec; let a : BitVec 32 := 131071; let l : List QPkt := [⟨zeros 60, zeros 60, false, [], none, 0, 1, none, none, 0, 0, false⟩, ⟨zeros 60, zeros 60, false, [], none, 0, 1, none, none, 0, 0, false⟩]; let s := up [.tm fun t => { t with queues := [(131071, l)] }]; let r := execReq o .tmQueueFlush 0 0 true (.num a.toNat); s.Inv ∧ s.dev.admits r ∧ a.toNat ≤ 131071 ∧ s.dev.queueOn a.toNat = false ∧ l ≠ [] ∧ s.dev.tm.queues = [(a.toNat, l)]) ∧
    (let q : Fin 131072 := 96; let x : QPkt := ⟨zeros 60, zeros 60, false, [], none, 0, 1, none, none, 0, 0, false⟩; let s := up [.obj .tmQueueCfg 0 96 (.oct (beBytes 4 12 ++ beBytes 4 0 ++ beBytes 4 0 ++ [1, 192] ++ beBytes 2 0 ++ beBytes 2 16 ++ beBytes 2 0)), .tm fun t => { t with queues := [(q.val, [x])] }]; s.Inv ∧ s.dev.answers = true ∧ s.dev.tm.queues = [(q.val, [x])] ∧ x.dram = false) ∧
    (let q : Fin 131072 := 96; let x : QPkt := ⟨zeros 60, zeros 60, true, [11], none, 0, 1, none, none, 0, 0, false⟩; let s := up [.obj .tmQueueCfg 0 96 (.oct (beBytes 4 12 ++ beBytes 4 0 ++ beBytes 4 0 ++ [1, 192] ++ beBytes 2 0 ++ beBytes 2 16 ++ beBytes 2 0)), .tm fun t => { t with queues := [(q.val, [x])] }, .obj .dramRepairPending 3 0 (.num 1)]; s.Inv ∧ s.dev.answers = true ∧ s.dev.tm.queues = [(q.val, [x])] ∧ x.dram = true ∧ s.dev.severed x = true) ∧
    (let q : Fin 131072 := 96; let x : QPkt := ⟨zeros 60, zeros 60, true, [11], (some 0), 0, 1, none, none, 0, 0, false⟩; let s := up [.obj .tmQueueCfg 0 96 (.oct (beBytes 4 12 ++ beBytes 4 0 ++ beBytes 4 0 ++ [1, 192] ++ beBytes 2 0 ++ beBytes 2 16 ++ beBytes 2 0)), .tm fun t => { t with queues := [(q.val, [x])] }]; s.Inv ∧ s.dev.answers = true ∧ s.dev.tm.queues = [(q.val, [x])] ∧ x.dram = true ∧ s.dev.severed x = false ∧ cellsOf x.data ≤ nodeHead (s.dev.queueRec q.val) ∧ cellsOf x.data ≤ s.dev.sharedFree ∧ x.need = some 0) := by
  simp only [inv_iff, admits_iff]
  and_intros <;> decide +kernel

theorem meets_QueuesAndNodes_8 :
    (let q : Fin 131072 := 96; let x : QPkt := ⟨zeros 60, zeros 60, true, [11], (some 2), 0, 1, none, none, 0, 0, false⟩; let s := up [.obj .tmQueueCfg 0 96 (.oct (beBytes 4 12 ++ beBytes 4 0 ++ beBytes 4 0 ++ [1, 192] ++ beBytes 2 0 ++ beBytes 2 16 ++ beBytes 2 0)), .tm fun t => { t with queues := [(q.val, [x])] }]; s.Inv ∧ s.dev.answers = true ∧ s.dev.tm.queues = [(q.val, [x])] ∧ x.dram = true ∧ s.dev.severed x = false ∧ cellsOf x.data ≤ nodeHead (s.dev.queueRec q.val) ∧ cellsOf x.data ≤ s.dev.sharedFree ∧ x.need = some (1 + 1) ∧ x.cells ≠ []) ∧
    (let q : Fin 131072 := 96; let x : QPkt := ⟨zeros 60, zeros 60, true, [11], none, 0, 1, none, none, 0, 0, false⟩; let s := up [.obj .tmQueueCfg 0 96 (.oct (beBytes 4 12 ++ beBytes 4 0 ++ beBytes 4 0 ++ [1, 192] ++ beBytes 2 0 ++ beBytes 2 16 ++ beBytes 2 0)), .tm fun t => { t with queues := [(q.val, [x])] }]; s.Inv ∧ s.dev.answers = true ∧ s.dev.tm.queues = [(q.val, [x])] ∧ x.dram = true ∧ s.dev.severed x = false ∧ cellsOf x.data ≤ nodeHead (s.dev.queueRec q.val) ∧ cellsOf x.data ≤ s.dev.sharedFree ∧ x.need = none ∧ x.cells ≠ []) ∧
    (let q : Fin 131072 := 96; let x : QPkt := ⟨zeros 60, zeros 60, true, [11], none, 0, 1, none, none, 0, 0, false⟩; let s := up [.obj .tmQueueCfg 0 96 (.oct (beBytes 4 12 ++ beBytes 4 0 ++ beBytes 4 0 ++ [1, 192] ++ beBytes 2 0 ++ beBytes 2 16 ++ beBytes 2 0)), .tm fun t => { t with queues := [(q.val, [x])] }, .obj .tmQueueCfg 0 96 (.oct (beBytes 4 12 ++ beBytes 4 0 ++ beBytes 4 0 ++ [1, 192] ++ beBytes 2 0 ++ beBytes 2 0 ++ beBytes 2 0))]; s.Inv ∧ s.dev.answers = true ∧ s.dev.tm.queues = [(q.val, [x])] ∧ x.dram = true ∧ s.dev.severed x = false ∧ (nodeHead (s.dev.queueRec q.val) < cellsOf x.data ∨ s.dev.sharedFree < cellsOf x.data)) := by
  simp only [inv_iff]
  and_intros <;> decide +kernel

theorem meets_GatesAndSnapshots :
    (let o := sec; let p : Fin 108 := 107; let b : List Byte := (beBytes 2 2 ++ zeros 2 ++ beBytes 4 1000 ++ beBytes 6 0 ++ beBytes 4 0 ++ zeros 6 ++ [1, 0, 0, 0] ++ beBytes 4 8); let s := up []; let r := writeReq o .tmGateAdmin p.val 0 (.oct b); s.Inv ∧ s.dev.admits r ∧ (b.length ≠ 24 + 8 * beAt b 0 2 ∨ 1024 < beAt b 0 2)) ∧
    (let o := sec; let p : Fin 108 := 107; let b : List Byte := (beBytes 2 0 ++ zeros 2 ++ beBytes 4 999 ++ beBytes 6 0 ++ beBytes 4 0 ++ zeros 6 ++ []); let s := up []; let r := writeReq o .tmGateAdmin p.val 0 (.oct b); s.Inv ∧ s.dev.admits r ∧ b.length = 24 + 8 * beAt b 0 2 ∧ beAt b 0 2 ≤ 1024 ∧ (beAt b 4 4 < 1000 ∨ 1000000000 < beAt b 4 4 ∨ (∃ i ∈ List.range (beAt b 0 2), beAt b (28 + 8 * i) 4 < 8))) ∧
    (let o := sec; let p : Fin 108 := 107; let b : List Byte := (beBytes 2 0 ++ zeros 2 ++ beBytes 4 1000 ++ beBytes 6 0 ++ beBytes 4 0 ++ zeros 6 ++ []); let s := up []; let r := writeReq o .tmGateAdmin p.val 0 (.oct b); s.Inv ∧ s.dev.admits r ∧ b.length = 24 + 8 * beAt b 0 2 ∧ beAt b 0 2 ≤ 1024 ∧ 1000 ≤ beAt b 4 4 ∧ beAt b 4 4 ≤ 1000000000 ∧ beAt b 2 2 = 0 ∧ beAt b 18 6 = 0 ∧ (∀ i ∈ List.range (beAt b 0 2), 8 ≤ beAt b (28 + 8 * i) 4 ∧ beAt b (25 + 8 * i) 3 = 0)) ∧
    (let o := sec; let p : Fin 108 := 107; let b : List Byte := (beBytes 2 2 ++ zeros 2 ++ beBytes 4 1000000000 ++ beBytes 6 0 ++ beBytes 4 0 ++ zeros 6 ++ [255, 0, 0, 0] ++ beBytes 4 8 ++ [1, 0, 0, 0] ++ beBytes 4 4294967295); let s := up []; let r := writeReq o .tmGateAdmin p.val 0 (.oct b); s.Inv ∧ s.dev.admits r ∧ b.length = 24 + 8 * beAt b 0 2 ∧ beAt b 0 2 ≤ 1024 ∧ 1000 ≤ beAt b 4 4 ∧ beAt b 4 4 ≤ 1000000000 ∧ beAt b 2 2 = 0 ∧ beAt b 18 6 = 0 ∧ (∀ i ∈ List.range (beAt b 0 2), 8 ≤ beAt b (28 + 8 * i) 4 ∧ beAt b (25 + 8 * i) 3 = 0)) ∧
    (let o := sec; let a : List Byte := [0, 108] ++ zeros 10; let p := beAt a 1 1; let s := up []; let r := execReq o .tmGateSwitch 0 0 true (.oct a); s.Inv ∧ a.length = 12 ∧ s.dev.admits r ∧ (107 < p ∨ 2 < beAt a 0 1)) ∧
    (let o := sec; let a : List Byte := [2, 107] ++ beBytes 6 1 ++ zeros 4; let p := beAt a 1 1; let t : Trig := (parseTrig (beAt a 0 1) (a.drop 2)).getD .now; let s := up [.tim fun t => { t with secs := 3 }]; let r := execReq o .tmGateSwitch 0 0 true (.oct a); s.Inv ∧ a.length = 12 ∧ s.dev.admits r ∧ p ≤ 107 ∧ parseTrig (beAt a 0 1) (a.drop 2) = some t ∧ s.dev.trigAhead (s.dev.num .clkTimingChannel) t = false) := by
  simp only [inv_iff, admits_iff]
  and_intros <;> decide +kernel

theorem meets_GatesAndSnapshots_2 :
    (let o := sec; let a : List Byte := [0, 107] ++ zeros 10; let p := beAt a 1 1; let h : List Nat := [Obj.tmGateAdmin.key p 0, Obj.tmGateOper.key p 0, Obj.tmGateState.key p 0]; let t : Trig := (parseTrig (beAt a 0 1) (a.drop 2)).getD .now; let s := up [.arm ⟨0, 6, 107, .time 9 0, 0x400, false, [Obj.tmGateAdmin.key 107 0, Obj.tmGateOper.key 107 0, Obj.tmGateState.key 107 0], [], 0⟩]; let r := execReq o .tmGateSwitch 0 0 true (.oct a); s.Inv ∧ a.length = 12 ∧ s.dev.admits r ∧ p ≤ 107 ∧ parseTrig (beAt a 0 1) (a.drop 2) = some t ∧ s.dev.trigAhead (s.dev.num .clkTimingChannel) t = true ∧ s.dev.armConflict 6 p h = true) ∧
    (let o := sec; let a : List Byte := [1, 107] ++ zeros 2 ++ beBytes 8 0x0100; let p := beAt a 1 1; let h : List Nat := [Obj.tmGateAdmin.key p 0, Obj.tmGateOper.key p 0, Obj.tmGateState.key p 0]; let t : Trig := (parseTrig (beAt a 0 1) (a.drop 2)).getD .now; let s := up []; let r := execReq o .tmGateSwitch 0 0 true (.oct a); s.Inv ∧ a.length = 12 ∧ s.dev.admits r ∧ p ≤ 107 ∧ parseTrig (beAt a 0 1) (a.drop 2) = some t ∧ s.dev.trigAhead (s.dev.num .clkTimingChannel) t = true ∧ s.dev.armConflict 6 p h = false ∧ s.dev.trigUnaligned (s.dev.num .clkTimingChannel) t = true) ∧
    (let o := sec; let a : List Byte := [0, 107] ++ zeros 10; let p := beAt a 1 1; let h : List Nat := [Obj.tmGateAdmin.key p 0, Obj.tmGateOper.key p 0, Obj.tmGateState.key p 0]; let t : Trig := (parseTrig (beAt a 0 1) (a.drop 2)).getD .now; let s := up [.tim fun t => { t with secs := 3 }]; let r := execReq o .tmGateSwitch 0 0 true (.oct a); s.Inv ∧ a.length = 12 ∧ s.dev.admits r ∧ p ≤ 107 ∧ parseTrig (beAt a 0 1) (a.drop 2) = some t ∧ s.dev.trigAhead (s.dev.num .clkTimingChannel) t = true ∧ s.dev.armConflict 6 p h = false ∧ s.dev.trigUnaligned (s.dev.num .clkTimingChannel) t = false ∧ s.dev.acts.length < 256) ∧
    (let o := sec; let a : List Byte := [2, 0] ++ beBytes 6 4 ++ zeros 4; let p := beAt a 1 1; let h : List Nat := [Obj.tmGateAdmin.key p 0, Obj.tmGateOper.key p 0, Obj.tmGateState.key p 0]; let t : Trig := (parseTrig (beAt a 0 1) (a.drop 2)).getD .now; let s := up [.tim fun t => { t with secs := 3 }]; let r := execReq o .tmGateSwitch 0 0 true (.oct a); s.Inv ∧ a.length = 12 ∧ s.dev.admits r ∧ p ≤ 107 ∧ parseTrig (beAt a 0 1) (a.drop 2) = some t ∧ s.dev.trigAhead (s.dev.num .clkTimingChannel) t = true ∧ s.dev.armConflict 6 p h = false ∧ s.dev.trigUnaligned (s.dev.num .clkTimingChannel) t = false ∧ s.dev.acts.length < 256) ∧
    (let p : Fin 108 := 107; let s := up []; s.Inv ∧ s.dev.answers = true ∧ s.dev.pendingOn 6 p.val = none) ∧
    (let p : Fin 108 := 107; let s := up [.arm ⟨0, 6, 107, .time 5 0, 0x400, true, [Obj.tmGateAdmin.key 107 0, Obj.tmGateOper.key 107 0, Obj.tmGateState.key 107 0], [], 0⟩, .obj .tmGateAdmin 107 0 (.oct (beBytes 2 2 ++ zeros 2 ++ beBytes 4 1000 ++ beBytes 6 0 ++ beBytes 4 0 ++ zeros 6 ++ [1, 0, 0, 0] ++ beBytes 4 600 ++ [254, 0, 0, 0] ++ beBytes 4 8)), .obj .tmGateState 107 0 (.num 255), .tim fun t => { t with secs := 3, ns := 600, ticks := 9 }]; let a : Action := s.dev.acts.headD ⟨0, 0, 0, .now, 0, true, [], [], 0⟩; s.Inv ∧ s.dev.answers = true ∧ s.dev.pendingOn 6 p.val = some a ∧ s.dev.actTurn a = false) := by
  simp only [inv_iff, admits_iff]
  and_intros <;> decide +kernel

theorem meets_GatesAndSnapshots_3 :
    (let p : Fin 108 := 107; let sending : Option (Fin 8) := none; let s := up [.arm ⟨0, 6, 107, .now, 0x400, true, [Obj.tmGateAdmin.key 107 0, Obj.tmGateOper.key 107 0, Obj.tmGateState.key 107 0], [], 0⟩, .obj .tmGateAdmin 107 0 (.oct (beBytes 2 2 ++ zeros 2 ++ beBytes 4 1000 ++ beBytes 6 0 ++ beBytes 4 0 ++ zeros 6 ++ [1, 0, 0, 0] ++ beBytes 4 600 ++ [254, 0, 0, 0] ++ beBytes 4 8)), .obj .tmGateState 107 0 (.num 255), .tim fun t => { t with secs := 3, ns := 600, ticks := 9 }]; let a : Action := s.dev.acts.headD ⟨0, 0, 0, .now, 0, true, [], [], 0⟩; let past : List Eff := []; s.Inv ∧ s.dev.answers = true ∧ s.dev.pendingOn 6 p.val = some a ∧ s.dev.actTurn a = true ∧ past = [] ∧ sending = none) ∧
    (let p : Fin 108 := 107; let s := up [.arm ⟨0, 6, 107, .now, 0x400, true, [Obj.tmGateAdmin.key 107 0, Obj.tmGateOper.key 107 0, Obj.tmGateState.key 107 0], [], 0⟩, .obj .tmGateAdmin 107 0 (.oct (beBytes 2 2 ++ zeros 2 ++ beBytes 4 1000 ++ beBytes 6 0 ++ beBytes 4 0 ++ zeros 6 ++ [1, 0, 0, 0] ++ beBytes 4 600 ++ [254, 0, 0, 0] ++ beBytes 4 8)), .obj .tmGateState 107 0 (.num 254), .tim fun t => { t with secs := 3, ns := 600, ticks := 9 }]; let a : Action := s.dev.acts.headD ⟨0, 0, 0, .now, 0, true, [], [], 0⟩; let past : List Eff := []; s.Inv ∧ s.dev.answers = true ∧ s.dev.pendingOn 6 p.val = some a ∧ s.dev.actTurn a = true ∧ past = [] ∧ bitOf (s.dev.num .tmGateState p.val) (0 : Fin 8).val = false) ∧
    (let p : Fin 108 := 107; let s := up [.arm ⟨0, 6, 107, .now, 0x400, true, [Obj.tmGateAdmin.key 107 0, Obj.tmGateOper.key 107 0, Obj.tmGateState.key 107 0], [], 0⟩, .obj .tmGateAdmin 107 0 (.oct (beBytes 2 2 ++ zeros 2 ++ beBytes 4 1000 ++ beBytes 6 0 ++ beBytes 4 0 ++ zeros 6 ++ [1, 0, 0, 0] ++ beBytes 4 600 ++ [254, 0, 0, 0] ++ beBytes 4 8)), .obj .tmGateState 107 0 (.num 255), .tim fun t => { t with secs := 3, ns := 600, ticks := 9 }]; let a : Action := s.dev.acts.headD ⟨0, 0, 0, .now, 0, true, [], [], 0⟩; let g : List Byte := s.dev.oct .tmGateAdmin p.val; let gates := gatesAt g s.dev.nowNs; let past : List Eff := []; s.Inv ∧ s.dev.answers = true ∧ s.dev.pendingOn 6 p.val = some a ∧ s.dev.actTurn a = true ∧ past = [] ∧ bitOf gates (1 : Fin 8).val = true) ∧
    (let p : Fin 108 := 107; let s := up [.arm ⟨0, 6, 107, .time 1 0, 0x400, true, [Obj.tmGateAdmin.key 107 0, Obj.tmGateOper.key 107 0, Obj.tmGateState.key 107 0], [], 0⟩, .obj .tmGateAdmin 107 0 (.oct (beBytes 2 2 ++ zeros 2 ++ beBytes 4 1000 ++ beBytes 6 0 ++ beBytes 4 0 ++ zeros 6 ++ [1, 0, 0, 0] ++ beBytes 4 600 ++ [254, 0, 0, 0] ++ beBytes 4 8)), .obj .tmGateState 107 0 (.num 255), .tim fun t => { t with secs := 3, ns := 600, ticks := 9 }]; let a : Action := s.dev.acts.headD ⟨0, 0, 0, .now, 0, true, [], [], 0⟩; let g : List Byte := s.dev.oct .tmGateAdmin p.val; let gates := gatesAt g s.dev.nowNs; s.Inv ∧ s.dev.answers = true ∧ s.dev.pendingOn 6 p.val = some a ∧ s.dev.actTurn a = true ∧ bitOf (s.dev.num .tmGateState p.val) (0 : Fin 8).val = true ∧ bitOf gates (0 : Fin 8).val = false) ∧
    (let p : Fin 108 := 0; let s := up [.obj .tmGateOper 0 0 (.oct (beBytes 2 0 ++ zeros 2 ++ beBytes 4 1000 ++ beBytes 6 0 ++ beBytes 4 0 ++ zeros 6 ++ [])), .tim fun t => { t with secs := 0, ns := 5 }]; let g : List Byte := s.dev.oct .tmGateOper p.val; let v := 255; s.Inv ∧ s.dev.answers = true ∧ beAt g 0 2 = 0 ∧ v = 0xFF) ∧
    (let p : Fin 108 := 0; let s := up [.obj .tmGateOper 0 0 (.oct (beBytes 2 1 ++ zeros 2 ++ beBytes 4 1000 ++ beBytes 6 1 ++ beBytes 4 0 ++ zeros 6 ++ [7, 0, 0, 0] ++ beBytes 4 8)), .tim fun t => { t with secs := 0, ns := 5 }]; let g : List Byte := s.dev.oct .tmGateOper p.val; let v := 7; s.Inv ∧ s.dev.answers = true ∧ beAt g 0 2 = 1 ∧ 0 < beAt g 4 4 ∧ v = beAt g 24 1) := by
  simp only [inv_iff]
  and_intros <;> decide +kernel

theorem meets_GatesAndSnapshots_4 :
    (let p : Fin 108 := 0; let s := up [.obj .tmGateOper 0 0 (.oct (beBytes 2 2 ++ zeros 2 ++ beBytes 4 1000 ++ beBytes 6 0 ++ beBytes 4 1 ++ zeros 6 ++ [7, 0, 0, 0] ++ beBytes 4 600 ++ [9, 0, 0, 0] ++ beBytes 4 8)), .tim fun t => { t with secs := 0, ns := 600 }]; let g : List Byte := s.dev.oct .tmGateOper p.val; let v := 7; let ph : Int := ((s.dev.nowNs : Int) - ((beAt g 8 6 * 1000000000 + beAt g 14 4 : Nat) : Int)) % (beAt g 4 4 : Int); s.Inv ∧ s.dev.answers = true ∧ beAt g 0 2 = 2 ∧ beAt g 28 4 < beAt g 4 4 ∧ ph < beAt g 28 4 ∧ v = beAt g 24 1) ∧
    (let p : Fin 108 := 0; let s := up [.obj .tmGateOper 0 0 (.oct (beBytes 2 2 ++ zeros 2 ++ beBytes 4 1000 ++ beBytes 6 0 ++ beBytes 4 1 ++ zeros 6 ++ [7, 0, 0, 0] ++ beBytes 4 600 ++ [9, 0, 0, 0] ++ beBytes 4 8)), .tim fun t => { t with secs := 0, ns := 601 }]; let g : List Byte := s.dev.oct .tmGateOper p.val; let v := 9; let ph : Int := ((s.dev.nowNs : Int) - ((beAt g 8 6 * 1000000000 + beAt g 14 4 : Nat) : Int)) % (beAt g 4 4 : Int); s.Inv ∧ s.dev.answers = true ∧ beAt g 0 2 = 2 ∧ beAt g 28 4 < beAt g 4 4 ∧ beAt g 28 4 ≤ ph ∧ v = beAt g 32 1) ∧
    (let o := sec; let a : List Byte := [0, 4, 0, 1] ++ zeros 12 ++ [5, 0] ++ beBytes 2 1 ++ beBytes 4 127; let k := beAt a 1 1; let n := beAt a 3 1; let sz := snapSize a; let s := up []; let r := execReq o .tmSnapRequest 0 0 true (.oct a); s.Inv ∧ a.length = 16 + 8 * n ∧ s.dev.admits r ∧ (3 < k ∨ 1 < beAt a 2 1 ∨ n = 0 ∨ 8 < n ∨ s.dev.num .tmSnapCells * 256 < sz)) ∧
    (let o := sec; let a : List Byte := [0, 3, 0, 1] ++ zeros 12 ++ [5, 0] ++ beBytes 2 1 ++ beBytes 4 127; let k := beAt a 1 1; let n := beAt a 3 1; let sz := snapSize a; let t : Trig := (parseTrig (beAt a 0 1) (slice a 4 10)).getD .now; let s := up [.obj .tmSnapCells 0 0 (.num 4096), .arm ⟨0, 1, 3, .time 9 0, 0x400, false, [], [], 0⟩]; let r := execReq o .tmSnapRequest 0 0 true (.oct a); s.Inv ∧ a.length = 16 + 8 * n ∧ s.dev.admits r ∧ k ≤ 3 ∧ 1 ≤ n ∧ n ≤ 8 ∧ ((beAt a 2 1 = 0 ∧ beAt a 14 2 = 0) ∨ beAt a 2 1 = 1) ∧ (∀ i ∈ List.range n, rangeOk a i = true) ∧ sz ≤ s.dev.num .tmSnapCells * 256 ∧ parseTrig (beAt a 0 1) (slice a 4 10) = some t ∧ s.dev.trigAhead (s.dev.num .clkTimingChannel) t = true ∧ s.dev.armConflict 1 k [] = true) ∧
    (let o := sec; let a : List Byte := [0, 3, 0, 1] ++ zeros 12 ++ [5, 0] ++ beBytes 2 1 ++ beBytes 4 127; let k := beAt a 1 1; let n := beAt a 3 1; let sz := snapSize a; let t : Trig := (parseTrig (beAt a 0 1) (slice a 4 10)).getD .now; let s := up [.obj .tmSnapCells 0 0 (.num 4096), .obj .tmSnapStatus 0 3 (.num 0x03000400)]; let r := execReq o .tmSnapRequest 0 0 true (.oct a); s.Inv ∧ a.length = 16 + 8 * n ∧ s.dev.admits r ∧ k ≤ 3 ∧ 1 ≤ n ∧ n ≤ 8 ∧ ((beAt a 2 1 = 0 ∧ beAt a 14 2 = 0) ∨ beAt a 2 1 = 1) ∧ (∀ i ∈ List.range n, rangeOk a i = true) ∧ sz ≤ s.dev.num .tmSnapCells * 256 ∧ parseTrig (beAt a 0 1) (slice a 4 10) = some t ∧ s.dev.trigAhead (s.dev.num .clkTimingChannel) t = true ∧ s.dev.armConflict 1 k [] = false ∧ (2 ≤ s.dev.snapState k ∨ s.dev.num .tmSnapCells < s.dev.snapReserved + ceilDiv sz 256)) ∧
    (let o := sec; let a : List Byte := [0, 3, 0, 1] ++ zeros 12 ++ [5, 0] ++ beBytes 2 1 ++ beBytes 4 127; let k := beAt a 1 1; let n := beAt a 3 1; let sz := snapSize a; let t : Trig := (parseTrig (beAt a 0 1) (slice a 4 10)).getD .now; let s := up [.obj .tmSnapCells 0 0 (.num 4096), .tm fun t => { t with snaps := [(0, ⟨0, [], 4096 * 256, []⟩)] }]; let r := execReq o .tmSnapRequest 0 0 true (.oct a); s.Inv ∧ a.length = 16 + 8 * n ∧ s.dev.admits r ∧ k ≤ 3 ∧ 1 ≤ n ∧ n ≤ 8 ∧ ((beAt a 2 1 = 0 ∧ beAt a 14 2 = 0) ∨ beAt a 2 1 = 1) ∧ (∀ i ∈ List.range n, rangeOk a i = true) ∧ sz ≤ s.dev.num .tmSnapCells * 256 ∧ parseTrig (beAt a 0 1) (slice a 4 10) = some t ∧ s.dev.trigAhead (s.dev.num .clkTimingChannel) t = true ∧ s.dev.armConflict 1 k [] = false ∧ (2 ≤ s.dev.snapState k ∨ s.dev.num .tmSnapCells < s.dev.snapReserved + ceilDiv sz 256)) := by
  simp only [inv_iff, admits_iff]
  and_intros <;> decide +kernel

theorem meets_GatesAndSnapshots_5 :
    (let o := sec; let a : List Byte := [1, 3, 0, 1] ++ zeros 2 ++ beBytes 8 0x0100 ++ zeros 2 ++ [5, 0] ++ beBytes 2 1 ++ beBytes 4 127; let k := beAt a 1 1; let n := beAt a 3 1; let sz := snapSize a; let t : Trig := (parseTrig (beAt a 0 1) (slice a 4 10)).getD .now; let s := up [.obj .tmSnapCells 0 0 (.num 4096)]; let r := execReq o .tmSnapRequest 0 0 true (.oct a); s.Inv ∧ a.length = 16 + 8 * n ∧ s.dev.admits r ∧ k ≤ 3 ∧ 1 ≤ n ∧ n ≤ 8 ∧ ((beAt a 2 1 = 0 ∧ beAt a 14 2 = 0) ∨ beAt a 2 1 = 1) ∧ (∀ i ∈ List.range n, rangeOk a i = true) ∧ sz ≤ s.dev.num .tmSnapCells * 256 ∧ parseTrig (beAt a 0 1) (slice a 4 10) = some t ∧ s.dev.trigAhead (s.dev.num .clkTimingChannel) t = true ∧ s.dev.armConflict 1 k [] = false ∧ s.dev.snapState k < 2 ∧ s.dev.snapReserved + ceilDiv sz 256 ≤ s.dev.num .tmSnapCells ∧ s.dev.trigUnaligned (s.dev.num .clkTimingChannel) t = true) ∧
    (let o := sec; let a : List Byte := [0, 3, 1, 1] ++ zeros 10 ++ [0, 9] ++ [5, 0] ++ beBytes 2 1 ++ beBytes 4 127; let k := beAt a 1 1; let n := beAt a 3 1; let sz := snapSize a; let t : Trig := (parseTrig (beAt a 0 1) (slice a 4 10)).getD .now; let s := up [.obj .tmSnapCells 0 0 (.num 4096)]; let r := execReq o .tmSnapRequest 0 0 true (.oct a); s.Inv ∧ a.length = 16 + 8 * n ∧ s.dev.admits r ∧ k ≤ 3 ∧ 1 ≤ n ∧ n ≤ 8 ∧ ((beAt a 2 1 = 0 ∧ beAt a 14 2 = 0) ∨ beAt a 2 1 = 1) ∧ (∀ i ∈ List.range n, rangeOk a i = true) ∧ sz ≤ s.dev.num .tmSnapCells * 256 ∧ parseTrig (beAt a 0 1) (slice a 4 10) = some t ∧ s.dev.trigAhead (s.dev.num .clkTimingChannel) t = true ∧ s.dev.armConflict 1 k [] = false ∧ s.dev.snapState k < 2 ∧ s.dev.snapReserved + ceilDiv sz 256 ≤ s.dev.num .tmSnapCells ∧ s.dev.trigUnaligned (s.dev.num .clkTimingChannel) t = false ∧ beAt a 2 1 = 1 ∧ ¬(isHost o.code.toNat = true ∧ (s.dev.ringSt (beAt a 14 2)).kind = 6 ∧ s.dev.ringFn (beAt a 14 2) = hostKey o.code.toNat ∧ s.dev.ringLive (beAt a 14 2) = true)) ∧
    (let o := sec; let a : List Byte := [0, 3, 0, 1] ++ zeros 12 ++ [5, 0] ++ beBytes 2 1 ++ beBytes 4 127; let k := beAt a 1 1; let n := beAt a 3 1; let sz := snapSize a; let t : Trig := (parseTrig (beAt a 0 1) (slice a 4 10)).getD .now; let s := up [.obj .tmSnapCells 0 0 (.num 4096)]; let r := execReq o .tmSnapRequest 0 0 true (.oct a); s.Inv ∧ a.length = 16 + 8 * n ∧ s.dev.admits r ∧ k ≤ 3 ∧ 1 ≤ n ∧ n ≤ 8 ∧ ((beAt a 2 1 = 0 ∧ beAt a 14 2 = 0) ∨ beAt a 2 1 = 1) ∧ (∀ i ∈ List.range n, rangeOk a i = true) ∧ sz ≤ s.dev.num .tmSnapCells * 256 ∧ parseTrig (beAt a 0 1) (slice a 4 10) = some t ∧ s.dev.trigAhead (s.dev.num .clkTimingChannel) t = true ∧ s.dev.armConflict 1 k [] = false ∧ s.dev.snapState k < 2 ∧ s.dev.snapReserved + ceilDiv sz 256 ≤ s.dev.num .tmSnapCells ∧ s.dev.trigUnaligned (s.dev.num .clkTimingChannel) t = false ∧ beAt a 2 1 = 0 ∧ s.dev.acts.length < 256) ∧
    (let o := host; let a : List Byte := [0, 3, 1, 1] ++ zeros 10 ++ [0, 9] ++ [5, 0] ++ beBytes 2 1 ++ beBytes 4 127; let k := beAt a 1 1; let n := beAt a 3 1; let sz := snapSize a; let t : Trig := (parseTrig (beAt a 0 1) (slice a 4 10)).getD .now; let s := up [.obj .tmSnapCells 0 0 (.num 4096), .fn (fnKey 0 0) fun f => { f with live := true }, .ring 9 fun g => { g with state := 1, setup := beBytes 2 9 ++ [6, 0, 5] ++ zeros 27, posted := [] }]; let r := execReq o .tmSnapRequest 0 0 true (.oct a); s.Inv ∧ a.length = 16 + 8 * n ∧ s.dev.admits r ∧ k ≤ 3 ∧ 1 ≤ n ∧ n ≤ 8 ∧ ((beAt a 2 1 = 0 ∧ beAt a 14 2 = 0) ∨ beAt a 2 1 = 1) ∧ (∀ i ∈ List.range n, rangeOk a i = true) ∧ sz ≤ s.dev.num .tmSnapCells * 256 ∧ parseTrig (beAt a 0 1) (slice a 4 10) = some t ∧ s.dev.trigAhead (s.dev.num .clkTimingChannel) t = true ∧ s.dev.armConflict 1 k [] = false ∧ s.dev.snapState k < 2 ∧ s.dev.snapReserved + ceilDiv sz 256 ≤ s.dev.num .tmSnapCells ∧ s.dev.trigUnaligned (s.dev.num .clkTimingChannel) t = false ∧ (isHost o.code.toNat = true ∧ (s.dev.ringSt (beAt a 14 2)).kind = 6 ∧ s.dev.ringFn (beAt a 14 2) = hostKey o.code.toNat ∧ s.dev.ringLive (beAt a 14 2) = true) ∧ s.dev.acts.length < 256) ∧
    (let k : Fin 4 := 3; let o := host; let v : BitVec 8 := 3; let s := up [.obj .tmSnapStatus 0 3 (.num 0x02000100)]; let r := execReq o .tmSnapRelease 0 0 true (.num v.toNat); s.Inv ∧ s.dev.answers = true ∧ v.toNat = k.val ∧ s.dev.admits r ∧ s.dev.snapState k.val ≠ 3) ∧
    (let k : Fin 4 := 3; let o := host; let v : BitVec 8 := 3; let s := up [.obj .tmSnapStatus 0 3 (.num 0x03000100), .obj .tmSnapData 3 0 (.oct [1]), .tm fun t => { t with snaps := [(3, ⟨5, [1], 3, [7]⟩)] }]; let r := execReq o .tmSnapRelease 0 0 true (.num v.toNat); s.Inv ∧ s.dev.answers = true ∧ v.toNat = k.val ∧ s.dev.admits r ∧ s.dev.snapState k.val = 3 ∧ (o.code.toNat = 0x0400 ∨ s.dev.num .tmSnapStatus 0 k.val % 65536 = o.code.toNat)) := by
  simp only [inv_iff, admits_iff]
  and_intros <;> decide +kernel

theorem meets_GatesAndSnapshots_6 :
    (let k : Fin 4 := 3; let o := sec; let v : BitVec 8 := 3; let s := up [.obj .tmSnapStatus 0 3 (.num 0x03000100), .obj .tmSnapData 3 0 (.oct [1]), .tm fun t => { t with snaps := [(3, ⟨5, [1], 3, [7]⟩)] }]; let r := execReq o .tmSnapRelease 0 0 true (.num v.toNat); s.Inv ∧ s.dev.answers = true ∧ v.toNat = k.val ∧ s.dev.admits r ∧ s.dev.snapState k.val = 3 ∧ (o.code.toNat = 0x0400 ∨ s.dev.num .tmSnapStatus 0 k.val % 65536 = o.code.toNat)) ∧
    (let k : Fin 4 := 3; let o := host; let v : BitVec 8 := 3; let s := up [.obj .tmSnapStatus 0 3 (.num 0x03000400)]; let r := execReq o .tmSnapRelease 0 0 true (.num v.toNat); s.Inv ∧ s.dev.answers = true ∧ v.toNat = k.val ∧ s.dev.admits r ∧ s.dev.snapState k.val = 3 ∧ o.code.toNat ≠ 0x0400 ∧ s.dev.num .tmSnapStatus 0 k.val % 65536 ≠ o.code.toNat) ∧
    (let k : Fin 4 := 3; let s := up []; s.Inv ∧ s.dev.answers = true ∧ s.dev.pendingOn 1 k.val = none ∧ s.dev.snapState k.val ≠ 2 ∧ s.dev.snapState k.val ≠ 4) ∧
    (let k : Fin 4 := 3; let s := up [.arm ⟨0, 1, 3, .time 5 0, 0x400, true, [], [], 0⟩, .obj .tmSnapStatus 0 3 (.num 0x01000100), .tim fun t => { t with secs := 3, ticks := 9 }, .tm fun t => { t with snaps := [(3, ⟨5, [0, 3, 0, 1] ++ zeros 12 ++ [5, 0] ++ beBytes 2 1 ++ beBytes 4 127, 64, []⟩)] }]; let a : Action := s.dev.acts.headD ⟨0, 0, 0, .now, 0, true, [], [], 0⟩; s.Inv ∧ s.dev.answers = true ∧ s.dev.pendingOn 1 k.val = some a ∧ s.dev.actTurn a = false) ∧
    (let k : Fin 4 := 3; let s := up [.arm ⟨0, 1, 3, .now, 0x400, true, [], [], 0⟩, .obj .tmSnapStatus 0 3 (.num 0x01000100), .tim fun t => { t with secs := 3, ticks := 9 }, .tm fun t => { t with snaps := [(3, ⟨5, [0, 3, 0, 1] ++ zeros 12 ++ [5, 0] ++ beBytes 2 1 ++ beBytes 4 127, 64, []⟩)] }]; let a : Action := s.dev.acts.headD ⟨0, 0, 0, .now, 0, true, [], [], 0⟩; s.Inv ∧ s.dev.answers = true ∧ s.dev.pendingOn 1 k.val = some a ∧ s.dev.actTurn a = true) ∧
    (let k : Fin 4 := 3; let s := up [.arm ⟨0, 1, 3, .time 1 0, 0x400, true, [], [], 0⟩, .obj .tmSnapStatus 0 3 (.num 0x01000100), .tim fun t => { t with secs := 3, ticks := 9 }, .tm fun t => { t with snaps := [(3, ⟨5, [0, 3, 0, 1] ++ zeros 12 ++ [5, 0] ++ beBytes 2 1 ++ beBytes 4 127, 64, []⟩)] }]; let a : Action := s.dev.acts.headD ⟨0, 0, 0, .now, 0, true, [], [], 0⟩; s.Inv ∧ s.dev.answers = true ∧ s.dev.pendingOn 1 k.val = some a ∧ s.dev.actTurn a = true) := by
  simp only [inv_iff, admits_iff]
  and_intros <;> decide +kernel

theorem meets_GatesAndSnapshots_7 :
    (let k : Fin 4 := 3; let s := up [.obj .tmSnapStatus 0 3 (.num 0x02000100), .tm fun t => { t with snaps := [(3, ⟨5, [0, 3, 0, 1] ++ zeros 12 ++ [5, 0] ++ beBytes 2 1 ++ beBytes 4 127, 64, [7]⟩)] }]; s.Inv ∧ s.dev.answers = true ∧ s.dev.snapState k.val = 2) ∧
    (let k : Fin 4 := 3; let s := up [.obj .tmSnapStatus 0 3 (.num 0x02000100), .tm fun t => { t with snaps := [(3, ⟨5, [0, 3, 1, 1] ++ zeros 10 ++ [0, 9] ++ [5, 0] ++ beBytes 2 1 ++ beBytes 4 127, 64, [7]⟩)] }]; s.Inv ∧ s.dev.answers = true ∧ s.dev.snapState k.val = 2) ∧
    (let k : Fin 4 := 3; let s := up [.obj .tmSnapStatus 0 3 (.num 0x04000100), .tm fun t => { t with snaps := [(3, ⟨5, [0, 3, 1, 1] ++ zeros 10 ++ [0, 9] ++ [5, 0] ++ beBytes 2 1 ++ beBytes 4 127, 64, [7, 8]⟩)] }]; s.Inv ∧ s.dev.answers = true ∧ s.dev.snapState k.val = 4 ∧ (s.dev.ringSt (beAt (s.dev.snap k.val).arg 14 2)).state ≠ 1) ∧
    (let k : Fin 4 := 3; let s := up [.obj .tmSnapStatus 0 3 (.num 0x04000100), .tm fun t => { t with snaps := [(3, ⟨5, [0, 3, 1, 1] ++ zeros 10 ++ [0, 9] ++ [5, 0] ++ beBytes 2 1 ++ beBytes 4 127, 64, [7, 8]⟩)] }, .fn (fnKey 0 0) fun f => { f with live := true }, .ring 9 fun g => { g with state := 1, setup := beBytes 2 9 ++ [6, 0, 5] ++ zeros 27, posted := [] }]; let x : Snap := s.dev.snap k.val; let r := beAt x.arg 14 2; s.Inv ∧ s.dev.answers = true ∧ s.dev.snapState k.val = 4 ∧ (s.dev.ringSt r).state = 1 ∧ (s.dev.ringSt r).posted = [] ∧ x.data ≠ []) ∧
    (let k : Fin 4 := 3; let s := up [.obj .tmSnapStatus 0 3 (.num 0x04000100), .tm fun t => { t with snaps := [(3, ⟨5, [0, 3, 1, 1] ++ zeros 10 ++ [0, 9] ++ [5, 0] ++ beBytes 2 1 ++ beBytes 4 127, 64, [7, 8]⟩)] }, .fn (fnKey 0 0) fun f => { f with live := true }, .ring 9 fun g => { g with state := 1, setup := beBytes 2 9 ++ [6, 0, 5] ++ zeros 27, posted := [⟨4096, 2, 0, 0, 0, 0, 1, [], 0⟩, ⟨4096, 2, 0, 0, 0, 0, 1, [], 0⟩] }]; let x : Snap := s.dev.snap k.val; let r := beAt x.arg 14 2; let y : Desc := ⟨4096, 2, 0, 0, 0, 0, 1, [], 0⟩; let rest : List Desc := [y]; s.Inv ∧ s.dev.answers = true ∧ s.dev.snapState k.val = 4 ∧ (s.dev.ringSt r).state = 1 ∧ (s.dev.ringSt r).posted = y :: rest ∧ s.dev.descFate r y = 0 ∧ (s.dev.ringSt r).kind = 6 ∧ x.data.length ≤ descSize y) := by
  simp only [inv_iff]
  and_intros <;> decide +kernel

theorem meets_DramChannels :
    (let c : Fin 8 := 7; let s := up []; let o := sec; let v : BitVec 8 := 0x81; let r := writeReq o .dramCfg c.val 0 (.num v.toNat); s.Inv ∧ s.dev.admits r ∧ v.toNat ∉ [0, 0x80, 0x88, 0x90, 0x40]) ∧
    (let c : Fin 8 := 7; let s := up [.obj .dramState 7 0 (.num 2)]; let st := s.dev.num .dramState c.val; let o := sec; let v : BitVec 8 := 0x80; let r := writeReq o .dramCfg c.val 0 (.num v.toNat); s.Inv ∧ s.dev.admits r ∧ v.toNat ∈ [0, 0x80, 0x88, 0x90, 0x40] ∧ 2 ≤ st) ∧
    (let c : Fin 8 := 0; let s := up []; let st := s.dev.num .dramState c.val; let o := sec; let v : BitVec 8 := 0x80; let r := writeReq o .dramCfg c.val 0 (.num v.toNat); let cap := 16777216; s.Inv ∧ s.dev.admits r ∧ v.toNat ∈ [0, 0x80, 0x88, 0x90, 0x40] ∧ st < 2 ∧ cap = (if v.toNat = 0 then 0 else if v.toNat = 0x80 then 16777216 else 33554432)) ∧
    (let c : Fin 8 := 0; let s := up [.obj .dramState 0 0 (.num 1)]; let st := s.dev.num .dramState c.val; let o := sec; let v : BitVec 8 := 0x40; let r := writeReq o .dramCfg c.val 0 (.num v.toNat); let cap := 33554432; s.Inv ∧ s.dev.admits r ∧ v.toNat ∈ [0, 0x80, 0x88, 0x90, 0x40] ∧ st < 2 ∧ cap = (if v.toNat = 0 then 0 else if v.toNat = 0x80 then 16777216 else 33554432)) ∧
    (let c : Fin 8 := 0; let s := up [.obj .dramState 0 0 (.num 1)]; let st := s.dev.num .dramState c.val; let o := sec; let v : BitVec 8 := 0; let r := writeReq o .dramCfg c.val 0 (.num v.toNat); let cap := 0; s.Inv ∧ s.dev.admits r ∧ v.toNat ∈ [0, 0x80, 0x88, 0x90, 0x40] ∧ st < 2 ∧ cap = (if v.toNat = 0 then 0 else if v.toNat = 0x80 then 16777216 else 33554432)) ∧
    (let s := up []; let o := sec; let v : BitVec 16 := 3201; let r := writeReq o .dramSpeed 0 0 (.num v.toNat); s.Inv ∧ s.dev.admits r ∧ v.toNat ∉ [3200, 4000, 4800, 5600, 6400]) ∧
    (let s := up [.obj .dramState 7 0 (.num 2)]; let o := sec; let v : BitVec 16 := 6400; let r := writeReq o .dramSpeed 0 0 (.num v.toNat); s.Inv ∧ s.dev.admits r ∧ v.toNat ∈ [3200, 4000, 4800, 5600, 6400] ∧ (∃ k ∈ List.range (8), 2 ≤ s.dev.num .dramState k)) ∧
    (let s := up [.obj .dramState 7 0 (.num 1)]; let o := sec; let v : BitVec 16 := 6400; let r := writeReq o .dramSpeed 0 0 (.num v.toNat); s.Inv ∧ s.dev.admits r ∧ v.toNat ∈ [3200, 4000, 4800, 5600, 6400] ∧ (∀ k ∈ List.range (8), s.dev.num .dramState k < 2)) := by
  simp only [inv_iff, admits_iff]
  and_intros <;> decide +kernel

theorem meets_DramChannels_2 :
    (let c : Fin 8 := 7; let s := up []; let st := s.dev.num .dramState c.val; let o := sec; let v : BitVec 8 := 1; let r := writeReq o .dramEnable c.val 0 (.num v.toNat); s.Inv ∧ s.dev.admits r ∧ v.toNat = 1 ∧ st = 0) ∧
    (let c : Fin 8 := 7; let s := up [.obj .dramState 7 0 (.num 6), .obj .dramRepairPending 7 0 (.num 1)]; let st := s.dev.num .dramState c.val; let o := sec; let v : BitVec 8 := 1; let r := writeReq o .dramEnable c.val 0 (.num v.toNat); s.Inv ∧ s.dev.admits r ∧ v.toNat = 1 ∧ st = 6 ∧ s.dev.num .dramRepairPending c.val = 1) ∧
    (let c : Fin 8 := 7; let s := up [.obj .dramState 7 0 (.num 1)]; let st := s.dev.num .dramState c.val; let o := sec; let v : BitVec 8 := 1; let r := writeReq o .dramEnable c.val 0 (.num v.toNat); s.Inv ∧ s.dev.admits r ∧ v.toNat = 1 ∧ (st = 1 ∨ (st = 6 ∧ s.dev.num .dramRepairPending c.val ≠ 1)) ∧ s.dev.sec.trngOff = false) ∧
    (let c : Fin 8 := 7; let s := up [.obj .dramState 7 0 (.num 6)]; let st := s.dev.num .dramState c.val; let o := sec; let v : BitVec 8 := 1; let r := writeReq o .dramEnable c.val 0 (.num v.toNat); s.Inv ∧ s.dev.admits r ∧ v.toNat = 1 ∧ (st = 1 ∨ (st = 6 ∧ s.dev.num .dramRepairPending c.val ≠ 1)) ∧ s.dev.sec.trngOff = false) ∧
    (let c : Fin 8 := 7; let s := up [.obj .dramState 7 0 (.num 4)]; let st := s.dev.num .dramState c.val; let o := sec; let v : BitVec 8 := 1; let r := writeReq o .dramEnable c.val 0 (.num v.toNat); s.Inv ∧ s.dev.admits r ∧ v.toNat = 1 ∧ st = 4) ∧
    (let c : Fin 8 := 7; let s := up [.obj .dramState 7 0 (.num 2)]; let st := s.dev.num .dramState c.val; let o := sec; let v : BitVec 8 := 1; let r := writeReq o .dramEnable c.val 0 (.num v.toNat); s.Inv ∧ s.dev.admits r ∧ v.toNat = 1 ∧ (st = 2 ∨ st = 3 ∨ st = 5)) ∧
    (let c : Fin 8 := 7; let s := up [.obj .dramState 7 0 (.num 3)]; let st := s.dev.num .dramState c.val; let o := sec; let v : BitVec 8 := 1; let r := writeReq o .dramEnable c.val 0 (.num v.toNat); s.Inv ∧ s.dev.admits r ∧ v.toNat = 1 ∧ (st = 2 ∨ st = 3 ∨ st = 5)) ∧
    (let c : Fin 8 := 7; let s := up [.obj .dramState 7 0 (.num 5)]; let st := s.dev.num .dramState c.val; let o := sec; let v : BitVec 8 := 1; let r := writeReq o .dramEnable c.val 0 (.num v.toNat); s.Inv ∧ s.dev.admits r ∧ v.toNat = 1 ∧ (st = 2 ∨ st = 3 ∨ st = 5)) := by
  simp only [inv_iff, admits_iff]
  and_intros <;> decide +kernel

theorem meets_DramChannels_3 :
    (let c : Fin 8 := 7; let s := up [.obj .dramState 7 0 (.num 3)]; let st := s.dev.num .dramState c.val; let o := sec; let v : BitVec 8 := 0; let r := writeReq o .dramEnable c.val 0 (.num v.toNat); s.Inv ∧ s.dev.admits r ∧ v.toNat = 0 ∧ st = 3) ∧
    (let c : Fin 8 := 7; let s := up [.obj .dramState 7 0 (.num 2), .key (dramKey 7) [1]]; let st := s.dev.num .dramState c.val; let o := sec; let v : BitVec 8 := 0; let r := writeReq o .dramEnable c.val 0 (.num v.toNat); s.Inv ∧ s.dev.admits r ∧ v.toNat = 0 ∧ st = 2) ∧
    (let c : Fin 8 := 7; let s := up [.obj .dramState 7 0 (.num 3)]; let st := s.dev.num .dramState c.val; s.Inv ∧ st ≠ 2) ∧
    (let c : Fin 8 := 7; let s := up [.obj .dramState 7 0 (.num 4), .tm fun t => { t with queues := [(96, [⟨zeros 60, zeros 60, true, [8 * 5 + 7], some 4, 0, 1, none, none, 0, 0, false⟩])] }]; let st := s.dev.num .dramState c.val; s.Inv ∧ (st ≠ 4 ∨ s.dev.chanHeld c.val ≠ 0)) ∧
    (let c : Fin 8 := 7; let s := up [.obj .dramState 7 0 (.num 4)]; let st := s.dev.num .dramState c.val; s.Inv ∧ st ≠ 3 ∧ s.dev.num .dramRepairPending c.val ≠ 1) ∧
    (let c : Fin 8 := 7; let s := up [.obj .dramState 7 0 (.num 2), .key (dramKey 7) [1]]; let st := s.dev.num .dramState c.val; s.Inv ∧ s.dev.answers = true ∧ st = 2 ∧ s.dev.dramHeld c.val = false) ∧
    (let c : Fin 8 := 7; let s := up [.obj .dramState 7 0 (.num 4), .key (dramKey 7) [1]]; let st := s.dev.num .dramState c.val; s.Inv ∧ s.dev.answers = true ∧ st = 4 ∧ s.dev.chanHeld c.val = 0) ∧
    (let c : Fin 8 := 7; let s := up [.obj .dramState 7 0 (.num 3)]; let st := s.dev.num .dramState c.val; s.Inv ∧ s.dev.answers = true ∧ st = 3) := by
  simp only [inv_iff, admits_iff]
  and_intros <;> decide +kernel

theorem meets_DramChannels_4 :
    (let c : Fin 8 := 7; let s := up [.obj .dramState 7 0 (.num 3), .obj .dramRefreshRate 7 0 (.num 1), .dram 7 fun y => { y with normals := 5 }]; let st := s.dev.num .dramState c.val; s.Inv ∧ s.dev.answers = true ∧ (st = 3 ∨ st = 4)) ∧
    (let c : Fin 8 := 7; let s := up [.obj .dramState 7 0 (.num 4), .obj .dramRefreshRate 7 0 (.num 1), .dram 7 fun y => { y with normals := 0 }]; let st := s.dev.num .dramState c.val; s.Inv ∧ s.dev.answers = true ∧ (st = 3 ∨ st = 4)) ∧
    (let c : Fin 8 := 7; let s := up [.obj .dramState 7 0 (.num 3), .obj .dramRefreshRate 7 0 (.num 2), .dram 7 fun y => { y with normals := 1 }]; let st := s.dev.num .dramState c.val; s.Inv ∧ s.dev.answers = true ∧ (st = 3 ∨ st = 4)) ∧
    (let c : Fin 8 := 7; let s := up [.obj .dramState 7 0 (.num 3), .obj .dramRefreshRate 7 0 (.num 2), .dram 7 fun y => { y with normals := 0 }]; let st := s.dev.num .dramState c.val; s.Inv ∧ s.dev.answers = true ∧ (st = 3 ∨ st = 4)) ∧
    (let c : Fin 8 := 7; let s := up [.obj .dramState 7 0 (.num 3), .obj .dramCfg 7 0 (.num 0x90), .obj .dramAddrOrder 7 0 (.num 0), .dram 7 fun y => { y with subs := [(1, ⟨[⟨false, 127, 0⟩], false, [((dramPlace 0x90 0 127).bank, (dramPlace 0x90 0 127).row + 1)], [], [3, 4]⟩)], postponed := [(64 + (dramPlace 0x90 0 127).bank, 3)] }]; let st := s.dev.num .dramState c.val; let x : DramCh := SMap.get DramCh.none s.dev.dram c.val; let sub : Fin 2 := 1; let bank : Fin 64 := ⟨(s.dev.place 7 127).bank % 64, Nat.mod_lt _ (by decide)⟩; let postpone : Bool := true; let k := 64 * sub.val + bank.val; let p := SMap.get 0 x.postponed k; s.Inv ∧ s.dev.answers = true ∧ (st = 3 ∨ st = 4) ∧ postpone = true ∧ p < 4 ∧ s.dev.bankHits c.val sub.val bank.val = true) ∧
    (let c : Fin 8 := 7; let s := up [.obj .dramState 7 0 (.num 3), .obj .dramCfg 7 0 (.num 0x90), .obj .dramAddrOrder 7 0 (.num 0), .dram 7 fun y => { y with subs := [(1, ⟨[⟨false, 127, 0⟩], false, [((dramPlace 0x90 0 127).bank, (dramPlace 0x90 0 127).row + 1)], [], [3, 4]⟩)], postponed := [(64 + (dramPlace 0x90 0 127).bank, 4)] }]; let st := s.dev.num .dramState c.val; let x : DramCh := SMap.get DramCh.none s.dev.dram c.val; let sub : Fin 2 := 1; let bank : Fin 64 := ⟨(s.dev.place 7 127).bank % 64, Nat.mod_lt _ (by decide)⟩; let postpone : Bool := true; let k := 64 * sub.val + bank.val; let p := SMap.get 0 x.postponed k; s.Inv ∧ s.dev.answers = true ∧ (st = 3 ∨ st = 4) ∧ (postpone = false ∨ 4 ≤ p ∨ s.dev.bankHits c.val sub.val bank.val = false)) ∧
    (let c : Fin 8 := 7; let s := up [.obj .dramState 7 0 (.num 3), .obj .dramCfg 7 0 (.num 0x90), .obj .dramAddrOrder 7 0 (.num 0), .dram 7 fun y => { y with subs := [(1, ⟨[⟨false, 127, 0⟩], false, [((dramPlace 0x90 0 127).bank, (dramPlace 0x90 0 127).row + 1)], [], [3, 4]⟩)], postponed := [(64 + (dramPlace 0x90 0 127).bank, 3)] }]; let st := s.dev.num .dramState c.val; let x : DramCh := SMap.get DramCh.none s.dev.dram c.val; let sub : Fin 2 := 1; let bank : Fin 64 := ⟨(s.dev.place 7 127).bank % 64, Nat.mod_lt _ (by decide)⟩; let postpone : Bool := false; let k := 64 * sub.val + bank.val; let p := SMap.get 0 x.postponed k; s.Inv ∧ s.dev.answers = true ∧ (st = 3 ∨ st = 4) ∧ (postpone = false ∨ 4 ≤ p ∨ s.dev.bankHits c.val sub.val bank.val = false)) ∧
    (let c : Fin 8 := 7; let s := up [.obj .dramState 7 0 (.num 3), .obj .dramCfg 7 0 (.num 0x90), .obj .dramAddrOrder 7 0 (.num 0)]; let st := s.dev.num .dramState c.val; let x : DramCh := SMap.get DramCh.none s.dev.dram c.val; let sub : Fin 2 := 1; let bank : Fin 64 := ⟨(s.dev.place 7 127).bank % 64, Nat.mod_lt _ (by decide)⟩; let postpone : Bool := true; let k := 64 * sub.val + bank.val; let p := SMap.get 0 x.postponed k; s.Inv ∧ s.dev.answers = true ∧ (st = 3 ∨ st = 4) ∧ (postpone = false ∨ 4 ≤ p ∨ s.dev.bankHits c.val sub.val bank.val = false)) := by
  simp only [inv_iff]
  and_intros <;> decide +kernel

theorem meets_DramChannels_5 :
    (let c : Fin 8 := 7; let s := up [.obj .dramState 7 0 (.num 4)]; let st := s.dev.num .dramState c.val; s.Inv ∧ s.dev.answers = true ∧ (st = 3 ∨ st = 4)) ∧
    (let c : Fin 8 := 7; let s := up [.obj .dramState 7 0 (.num 3), .dram 7 fun y => { y with falls := [(1, [5, 6])], subs := [(1, ⟨[], false, [], [], [3, 4]⟩)] }]; let st := s.dev.num .dramState c.val; s.Inv ∧ s.dev.answers = true ∧ (st = 3 ∨ st = 4)) ∧
    (let c : Fin 8 := 7; let s := up [.obj .dramState 7 0 (.num 3)]; let st := s.dev.num .dramState c.val; let k : Fin 2 := 1; s.Inv ∧ s.dev.answers = true ∧ (st < 3 ∨ 5 < st ∨ (s.dev.dsub c.val k.val).out = [])) ∧
    (let c : Fin 8 := 7; let s := up [.obj .dramState 7 0 (.num 5), .tm fun t => { t with queues := [(96, [⟨zeros 60, zeros 60, true, [8 * 5 + 7], some 4, 0, 1, none, none, 0, 0, false⟩])] }, .dram 7 fun y => { y with subs := [(1, ⟨[], false, [], [23, 30], []⟩)] }, .tim fun t => { t with secs := 7 }, .obj .dramCeAlarm 0 0 (.num 3)]; let st := s.dev.num .dramState c.val; let k : Fin 2 := 1; let rest : List Nat := [30]; let w := 23; s.Inv ∧ s.dev.answers = true ∧ 3 ≤ st ∧ st ≤ 5 ∧ (s.dev.dsub c.val k.val).out = w :: rest) ∧
    (let c : Fin 8 := 7; let s := up [.obj .dramState 7 0 (.num 3), .tm fun t => { t with queues := [(96, [⟨zeros 60, zeros 60, true, [8 * 5 + 7], some 4, 0, 1, none, none, 0, 0, false⟩])] }, .dram 7 fun y => { y with subs := [(1, ⟨[], false, [], [23, 30], []⟩)], ceSec := 7, ce := 3 }, .tim fun t => { t with secs := 7 }, .obj .dramCeAlarm 0 0 (.num 3)]; let st := s.dev.num .dramState c.val; let k : Fin 2 := 1; let rest : List Nat := [30]; let w := 23; s.Inv ∧ s.dev.answers = true ∧ 3 ≤ st ∧ st ≤ 5 ∧ (s.dev.dsub c.val k.val).out = w :: rest) ∧
    (let c : Fin 8 := 7; let s := up [.obj .dramState 7 0 (.num 4), .tm fun t => { t with queues := [(96, [⟨zeros 60, zeros 60, true, [8 * 5 + 7], some 4, 0, 1, none, none, 0, 0, false⟩])] }, .dram 7 fun y => { y with subs := [(1, ⟨[], false, [], [23, 30], []⟩)], unc := [6999000000] }, .tim fun t => { t with secs := 7 }, .obj .dramCeAlarm 0 0 (.num 3)]; let st := s.dev.num .dramState c.val; let k : Fin 2 := 1; let rest : List Nat := [30]; let w := 23; s.Inv ∧ s.dev.answers = true ∧ 3 ≤ st ∧ st ≤ 5 ∧ (s.dev.dsub c.val k.val).out = w :: rest) ∧
    (let c : Fin 8 := 7; let s := up [.obj .dramState 7 0 (.num 3), .tm fun t => { t with queues := [(96, [⟨zeros 60, zeros 60, true, [8 * 5 + 7], some 4, 0, 1, none, none, 0, 0, false⟩])] }, .dram 7 fun y => { y with subs := [(1, ⟨[], false, [], [23, 30], []⟩)], unc := List.replicate 300 7000000000 }, .tim fun t => { t with secs := 7 }, .obj .dramCeAlarm 0 0 (.num 3)]; let st := s.dev.num .dramState c.val; let x : DramCh := SMap.get DramCh.none s.dev.dram c.val; let k : Fin 2 := 1; let rest : List Nat := [30]; let w := 23; let l := (x.unc.filter fun t => decide (s.dev.nowNs ≤ t + 1000000)) ++ [s.dev.nowNs]; s.Inv ∧ s.dev.answers = true ∧ 3 ≤ st ∧ st ≤ 5 ∧ (s.dev.dsub c.val k.val).out = w :: rest ∧ s.dev.num .dramFailThreshold < l.length) ∧
    (let c : Fin 8 := 7; let s := up [.obj .dramRepairPending 7 0 (.num 1), .tm fun t => { t with queues := [(96, [⟨zeros 60, zeros 60, true, [8 * 5 + 7], some 4, 0, 1, none, none, 0, 0, false⟩, ⟨zeros 60, zeros 60, true, [8 * 5 + 6], some 4, 0, 1, none, none, 0, 0, false⟩])] }]; let q := 96; let l : List QPkt := [⟨zeros 60, zeros 60, true, [8 * 5 + 7], some 4, 0, 1, none, none, 0, 0, false⟩, ⟨zeros 60, zeros 60, true, [8 * 5 + 6], some 4, 0, 1, none, none, 0, 0, false⟩]; s.Inv ∧ s.dev.answers = true ∧ s.dev.num .dramRepairPending c.val = 1 ∧ s.dev.num .dramEnable c.val ≠ 1 ∧ s.dev.tm.queues = [(q, l)] ∧ l.any (fun p => p.onChan c.val) = true) := by
  simp only [inv_iff]
  and_intros <;> decide +kernel

theorem meets_CipherKeys :
    (let o := sec; let n : Fin 4 := 3; let b : List Byte := [2, 31, 0, 0] ++ beBytes 4 0 ++ List.replicate 32 7 ++ zeros 8; let s := up []; let dir := beAt b 0 1; let idx := beAt b 1 1; let wrap := beAt b 2 1; let kek := beAt b 3 1; let r := execReq o .ciphFchKeyLoad n.val 0 true (.oct b); s.Inv ∧ b.length = 48 ∧ s.dev.admits r ∧ (1 < dir ∨ idx = 0 ∨ 31 < idx ∨ 1 < wrap ∨ (wrap = 0 ∧ kek ≠ 0) ∨ beAt b 4 4 ≠ 0)) ∧
    (let o := sec; let n : Fin 4 := 3; let b : List Byte := [1, 0, 0, 0] ++ beBytes 4 0 ++ List.replicate 32 7 ++ zeros 8; let s := up []; let dir := beAt b 0 1; let idx := beAt b 1 1; let wrap := beAt b 2 1; let kek := beAt b 3 1; let r := execReq o .ciphFchKeyLoad n.val 0 true (.oct b); s.Inv ∧ b.length = 48 ∧ s.dev.admits r ∧ (1 < dir ∨ idx = 0 ∨ 31 < idx ∨ 1 < wrap ∨ (wrap = 0 ∧ kek ≠ 0) ∨ beAt b 4 4 ≠ 0)) ∧
    (let o := sec; let n : Fin 4 := 3; let b : List Byte := [1, 32, 0, 0] ++ beBytes 4 0 ++ List.replicate 32 7 ++ zeros 8; let s := up []; let dir := beAt b 0 1; let idx := beAt b 1 1; let wrap := beAt b 2 1; let kek := beAt b 3 1; let r := execReq o .ciphFchKeyLoad n.val 0 true (.oct b); s.Inv ∧ b.length = 48 ∧ s.dev.admits r ∧ (1 < dir ∨ idx = 0 ∨ 31 < idx ∨ 1 < wrap ∨ (wrap = 0 ∧ kek ≠ 0) ∨ beAt b 4 4 ≠ 0)) ∧
    (let o := sec; let n : Fin 4 := 3; let b : List Byte := [1, 31, 2, 0] ++ beBytes 4 0 ++ List.replicate 32 7 ++ zeros 8; let s := up []; let dir := beAt b 0 1; let idx := beAt b 1 1; let wrap := beAt b 2 1; let kek := beAt b 3 1; let r := execReq o .ciphFchKeyLoad n.val 0 true (.oct b); s.Inv ∧ b.length = 48 ∧ s.dev.admits r ∧ (1 < dir ∨ idx = 0 ∨ 31 < idx ∨ 1 < wrap ∨ (wrap = 0 ∧ kek ≠ 0) ∨ beAt b 4 4 ≠ 0)) ∧
    (let o := sec; let n : Fin 4 := 3; let b : List Byte := [1, 31, 0, 1] ++ beBytes 4 0 ++ List.replicate 32 7 ++ zeros 8; let s := up []; let dir := beAt b 0 1; let idx := beAt b 1 1; let wrap := beAt b 2 1; let kek := beAt b 3 1; let r := execReq o .ciphFchKeyLoad n.val 0 true (.oct b); s.Inv ∧ b.length = 48 ∧ s.dev.admits r ∧ (1 < dir ∨ idx = 0 ∨ 31 < idx ∨ 1 < wrap ∨ (wrap = 0 ∧ kek ≠ 0) ∨ beAt b 4 4 ≠ 0)) ∧
    (let o := sec; let n : Fin 4 := 3; let b : List Byte := [1, 31, 0, 0] ++ beBytes 4 1 ++ List.replicate 32 7 ++ zeros 8; let s := up []; let dir := beAt b 0 1; let idx := beAt b 1 1; let wrap := beAt b 2 1; let kek := beAt b 3 1; let r := execReq o .ciphFchKeyLoad n.val 0 true (.oct b); s.Inv ∧ b.length = 48 ∧ s.dev.admits r ∧ (1 < dir ∨ idx = 0 ∨ 31 < idx ∨ 1 < wrap ∨ (wrap = 0 ∧ kek ≠ 0) ∨ beAt b 4 4 ≠ 0)) ∧
    (let o := ⟨.mband 3 false, 0x0200, 1⟩; let n : Fin 4 := 3; let b : List Byte := [1, 31, 0, 0] ++ beBytes 4 0 ++ List.replicate 32 7 ++ zeros 8; let s := up []; let dir := beAt b 0 1; let idx := beAt b 1 1; let wrap := beAt b 2 1; let kek := beAt b 3 1; let r := execReq o .ciphFchKeyLoad n.val 0 true (.oct b); s.Inv ∧ b.length = 48 ∧ s.dev.admits r ∧ dir ≤ 1 ∧ 1 ≤ idx ∧ idx ≤ 31 ∧ beAt b 4 4 = 0 ∧ ((wrap = 0 ∧ kek = 0 ∧ beAt b 40 8 = 0) ∨ (wrap = 1 ∧ 1 ≤ kek ∧ kek ≤ 15)) ∧ wrap = 0 ∧ s.dev.codeOf o.path = 0x0200) ∧
    (let o := sec; let n : Fin 4 := 3; let b : List Byte := [1, 31, 0, 0] ++ beBytes 4 0 ++ List.replicate 32 7 ++ zeros 8; let s := up [.obj .actMode 3 0 (.num (1 * 2 ^ 30))]; let dir := beAt b 0 1; let idx := beAt b 1 1; let wrap := beAt b 2 1; let kek := beAt b 3 1; let r := execReq o .ciphFchKeyLoad n.val 0 true (.oct b); s.Inv ∧ b.length = 48 ∧ s.dev.admits r ∧ dir ≤ 1 ∧ 1 ≤ idx ∧ idx ≤ 31 ∧ beAt b 4 4 = 0 ∧ ((wrap = 0 ∧ kek = 0 ∧ beAt b 40 8 = 0) ∨ (wrap = 1 ∧ 1 ≤ kek ∧ kek ≤ 15)) ∧ (wrap = 1 ∨ s.dev.codeOf o.path ≠ 0x0200) ∧ (s.dev.lead n.val ≠ n.val ∨ (dir = 1 ∧ idx = s.dev.num .ciphFchUsActive n.val))) := by
  simp only [inv_iff, admits_iff]
  and_intros <;> decide +kernel

theorem meets_CipherKeys_2 :
    (let o := sec; let n : Fin 4 := 3; let b : List Byte := [1, 31, 0, 0] ++ beBytes 4 0 ++ List.replicate 32 7 ++ zeros 8; let s := up [.obj .ciphFchUsActive 3 0 (.num 31)]; let dir := beAt b 0 1; let idx := beAt b 1 1; let wrap := beAt b 2 1; let kek := beAt b 3 1; let r := execReq o .ciphFchKeyLoad n.val 0 true (.oct b); s.Inv ∧ b.length = 48 ∧ s.dev.admits r ∧ dir ≤ 1 ∧ 1 ≤ idx ∧ idx ≤ 31 ∧ beAt b 4 4 = 0 ∧ ((wrap = 0 ∧ kek = 0 ∧ beAt b 40 8 = 0) ∨ (wrap = 1 ∧ 1 ≤ kek ∧ kek ≤ 15)) ∧ (wrap = 1 ∨ s.dev.codeOf o.path ≠ 0x0200) ∧ (s.dev.lead n.val ≠ n.val ∨ (dir = 1 ∧ idx = s.dev.num .ciphFchUsActive n.val))) ∧
    (let o := sec; let n : Fin 4 := 3; let b : List Byte := [1, 31, 0, 0] ++ beBytes 4 0 ++ List.replicate 32 7 ++ zeros 8; let s := up [.arm ⟨0, 3, 3, .frame 9, 0x0400, true, [], [31], 0⟩]; let dir := beAt b 0 1; let idx := beAt b 1 1; let wrap := beAt b 2 1; let kek := beAt b 3 1; let r := execReq o .ciphFchKeyLoad n.val 0 true (.oct b); s.Inv ∧ b.length = 48 ∧ s.dev.admits r ∧ dir ≤ 1 ∧ 1 ≤ idx ∧ idx ≤ 31 ∧ beAt b 4 4 = 0 ∧ ((wrap = 0 ∧ kek = 0 ∧ beAt b 40 8 = 0) ∨ (wrap = 1 ∧ 1 ≤ kek ∧ kek ≤ 15)) ∧ (wrap = 1 ∨ s.dev.codeOf o.path ≠ 0x0200) ∧ s.dev.lead n.val = n.val ∧ (dir = 0 ∨ idx ≠ s.dev.num .ciphFchUsActive n.val) ∧ dir = 1 ∧ s.dev.pendingOn 3 n.val = some ⟨0, 3, 3, .frame 9, 0x0400, true, [], [31], 0⟩ ∧ nth 0 [31] 0 = idx) ∧
    (let o := sec; let n : Fin 4 := 3; let b : List Byte := [1, 31, 1, 15] ++ beBytes 4 0 ++ List.replicate 32 7 ++ zeros 8; let s := up []; let dir := beAt b 0 1; let idx := beAt b 1 1; let wrap := beAt b 2 1; let kek := beAt b 3 1; let r := execReq o .ciphFchKeyLoad n.val 0 true (.oct b); s.Inv ∧ b.length = 48 ∧ s.dev.admits r ∧ dir ≤ 1 ∧ 1 ≤ idx ∧ idx ≤ 31 ∧ beAt b 4 4 = 0 ∧ ((wrap = 0 ∧ kek = 0 ∧ beAt b 40 8 = 0) ∨ (wrap = 1 ∧ 1 ≤ kek ∧ kek ≤ 15)) ∧ (wrap = 1 ∨ s.dev.codeOf o.path ≠ 0x0200) ∧ s.dev.lead n.val = n.val ∧ (dir = 0 ∨ idx ≠ s.dev.num .ciphFchUsActive n.val) ∧ (dir = 0 ∨ s.dev.pendingOn 3 n.val = none) ∧ wrap = 1 ∧ s.dev.kekLoaded kek = false) ∧
    (let o := sec; let n : Fin 4 := 3; let b : List Byte := [0, 31, 0, 0] ++ beBytes 4 0 ++ List.replicate 32 7 ++ zeros 8; let s := up [.arm ⟨0, 3, 3, .frame 9, 0x0400, true, [], [31], 0⟩]; let dir := beAt b 0 1; let idx := beAt b 1 1; let wrap := beAt b 2 1; let kek := beAt b 3 1; let r := execReq o .ciphFchKeyLoad n.val 0 true (.oct b); s.Inv ∧ b.length = 48 ∧ s.dev.admits r ∧ dir ≤ 1 ∧ 1 ≤ idx ∧ idx ≤ 31 ∧ beAt b 4 4 = 0 ∧ ((wrap = 0 ∧ kek = 0 ∧ beAt b 40 8 = 0) ∨ (wrap = 1 ∧ 1 ≤ kek ∧ kek ≤ 15)) ∧ (wrap = 1 ∨ s.dev.codeOf o.path ≠ 0x0200) ∧ s.dev.lead n.val = n.val ∧ (dir = 0 ∨ idx ≠ s.dev.num .ciphFchUsActive n.val) ∧ (dir = 0 ∨ s.dev.pendingOn 3 n.val = none) ∧ wrap = 0) ∧
    (let o := sec; let n : Fin 4 := 3; let b : List Byte := [1, 31, 0, 0] ++ beBytes 4 0 ++ List.replicate 32 7 ++ zeros 8; let s := up []; let dir := beAt b 0 1; let idx := beAt b 1 1; let wrap := beAt b 2 1; let kek := beAt b 3 1; let r := execReq o .ciphFchKeyLoad n.val 0 true (.oct b); s.Inv ∧ b.length = 48 ∧ s.dev.admits r ∧ dir ≤ 1 ∧ 1 ≤ idx ∧ idx ≤ 31 ∧ beAt b 4 4 = 0 ∧ ((wrap = 0 ∧ kek = 0 ∧ beAt b 40 8 = 0) ∨ (wrap = 1 ∧ 1 ≤ kek ∧ kek ≤ 15)) ∧ (wrap = 1 ∨ s.dev.codeOf o.path ≠ 0x0200) ∧ s.dev.lead n.val = n.val ∧ (dir = 0 ∨ idx ≠ s.dev.num .ciphFchUsActive n.val) ∧ (dir = 0 ∨ s.dev.pendingOn 3 n.val = none) ∧ wrap = 0) ∧
    (let o := sec; let n : Fin 4 := 3; let v : BitVec 64 := 2 ^ 61 + 2 ^ 56 + 300; let s := up [.obj .frmAlignState 3 0 (.num 2), .obj .frmFrame 3 0 (.num 100), .obj .ciphFchUsState 3 0 (.oct (zeros 31 ++ [1]))]; let idx := bitsOf v.toNat 56 5; let f := v.toNat % 2 ^ 51; let r := execReq o .ciphFchUsKeySwitch n.val 0 true (.num v.toNat); s.Inv ∧ s.dev.admits r ∧ (v.toNat ≠ idx * 2 ^ 56 + f ∨ (s.dev.num .frmAlignState n.val = 2 ∧ f < s.dev.num .frmFrame n.val + 2))) ∧
    (let o := sec; let n : Fin 4 := 3; let v : BitVec 64 := 31 * 2 ^ 56 + 101; let s := up [.obj .frmAlignState 3 0 (.num 2), .obj .frmFrame 3 0 (.num 100), .obj .ciphFchUsState 3 0 (.oct (zeros 31 ++ [1]))]; let idx := bitsOf v.toNat 56 5; let f := v.toNat % 2 ^ 51; let r := execReq o .ciphFchUsKeySwitch n.val 0 true (.num v.toNat); s.Inv ∧ s.dev.admits r ∧ (v.toNat ≠ idx * 2 ^ 56 + f ∨ (s.dev.num .frmAlignState n.val = 2 ∧ f < s.dev.num .frmFrame n.val + 2))) ∧
    (let o := sec; let n : Fin 4 := 3; let v : BitVec 64 := 31 * 2 ^ 56 + 101; let s := up []; let idx := bitsOf v.toNat 56 5; let f := v.toNat % 2 ^ 51; let r := execReq o .ciphFchUsKeySwitch n.val 0 true (.num v.toNat); s.Inv ∧ s.dev.admits r ∧ v.toNat = idx * 2 ^ 56 + f ∧ s.dev.num .frmAlignState n.val ≠ 2) := by
  simp only [inv_iff, admits_iff]
  and_intros <;> decide +kernel

theorem meets_CipherKeys_3 :
    (let o := sec; let n : Fin 4 := 3; let v : BitVec 64 := 30 * 2 ^ 56 + 102; let s := up [.obj .frmAlignState 3 0 (.num 2), .obj .frmFrame 3 0 (.num 100), .obj .ciphFchUsState 3 0 (.oct (zeros 31 ++ [1]))]; let idx := bitsOf v.toNat 56 5; let f := v.toNat % 2 ^ 51; let r := execReq o .ciphFchUsKeySwitch n.val 0 true (.num v.toNat); s.Inv ∧ s.dev.admits r ∧ v.toNat = idx * 2 ^ 56 + f ∧ s.dev.num .frmAlignState n.val = 2 ∧ s.dev.num .frmFrame n.val + 2 ≤ f ∧ (s.dev.lead n.val ≠ n.val ∨ (idx ≠ 0 ∧ s.dev.ctxState n.val 1 idx ≠ 1))) ∧
    (let o := sec; let n : Fin 4 := 3; let v : BitVec 64 := 31 * 2 ^ 56 + 102; let s := up [.obj .frmAlignState 3 0 (.num 2), .obj .frmFrame 3 0 (.num 100), .obj .ciphFchUsState 3 0 (.oct (zeros 31 ++ [1])), .arm ⟨0, 3, 3, .frame 9, 0x0400, true, [], [31], 0⟩]; let idx := bitsOf v.toNat 56 5; let f := v.toNat % 2 ^ 51; let r := execReq o .ciphFchUsKeySwitch n.val 0 true (.num v.toNat); s.Inv ∧ s.dev.admits r ∧ v.toNat = idx * 2 ^ 56 + f ∧ s.dev.num .frmAlignState n.val = 2 ∧ s.dev.num .frmFrame n.val + 2 ≤ f ∧ s.dev.lead n.val = n.val ∧ (idx = 0 ∨ s.dev.ctxState n.val 1 idx = 1) ∧ s.dev.pendingOn 3 n.val ≠ none) ∧
    (let o := sec; let n : Fin 4 := 3; let v : BitVec 64 := 102; let s := up [.obj .frmAlignState 3 0 (.num 2), .obj .frmFrame 3 0 (.num 100), .obj .ciphFchUsState 3 0 (.oct (zeros 31 ++ [1]))]; let idx := bitsOf v.toNat 56 5; let f := v.toNat % 2 ^ 51; let r := execReq o .ciphFchUsKeySwitch n.val 0 true (.num v.toNat); s.Inv ∧ s.dev.admits r ∧ v.toNat = idx * 2 ^ 56 + f ∧ s.dev.num .frmAlignState n.val = 2 ∧ s.dev.num .frmFrame n.val + 2 ≤ f ∧ s.dev.lead n.val = n.val ∧ (idx = 0 ∨ s.dev.ctxState n.val 1 idx = 1) ∧ s.dev.pendingOn 3 n.val = none ∧ idx = s.dev.num .ciphFchUsActive n.val) ∧
    (let o := sec; let n : Fin 4 := 3; let v : BitVec 64 := 31 * 2 ^ 56 + 2 ^ 51 - 1; let s := up [.obj .frmAlignState 3 0 (.num 2), .obj .frmFrame 3 0 (.num 100), .obj .ciphFchUsState 3 0 (.oct (zeros 31 ++ [1]))]; let idx := bitsOf v.toNat 56 5; let f := v.toNat % 2 ^ 51; let r := execReq o .ciphFchUsKeySwitch n.val 0 true (.num v.toNat); s.Inv ∧ s.dev.admits r ∧ v.toNat = idx * 2 ^ 56 + f ∧ s.dev.num .frmAlignState n.val = 2 ∧ s.dev.num .frmFrame n.val + 2 ≤ f ∧ s.dev.lead n.val = n.val ∧ (idx = 0 ∨ s.dev.ctxState n.val 1 idx = 1) ∧ s.dev.pendingOn 3 n.val = none ∧ idx ≠ s.dev.num .ciphFchUsActive n.val ∧ s.dev.acts.length < 256) ∧
    (let n : Fin 4 := 3; let s := up [.obj .frmAlignState 3 0 (.num 2), .obj .frmFrame 3 0 (.num 100), .obj .ciphFchUsState 3 0 (.oct (zeros 31 ++ [1])), .fch 3 fun c => { c with bursts := [⟨8, 7, 9, 300, false, 0, none, true⟩, ⟨9, 7, 9, 300, false, 0, none, false⟩] }]; let g := s.dev.lead n.val; s.Inv ∧ s.dev.answers = true ∧ (s.dev.pendingOn 3 g = none ∨ s.dev.nextBurstFrame n.val = none)) ∧
    (let n : Fin 4 := 3; let s := up [.obj .frmAlignState 3 0 (.num 2), .obj .frmFrame 3 0 (.num 100), .obj .ciphFchUsState 3 0 (.oct (zeros 31 ++ [1])), .arm ⟨0, 3, 3, .frame 9, 0x0400, true, [], [31], 0⟩]; let g := s.dev.lead n.val; s.Inv ∧ s.dev.answers = true ∧ (s.dev.pendingOn 3 g = none ∨ s.dev.nextBurstFrame n.val = none)) ∧
    (let n : Fin 4 := 3; let s := up [.obj .frmAlignState 3 0 (.num 2), .obj .frmFrame 3 0 (.num 100), .obj .ciphFchUsState 3 0 (.oct (zeros 31 ++ [1])), .arm ⟨0, 3, 3, .frame 9, 0x0400, true, [], [31], 0⟩, .fch 3 fun c => { c with bursts := [⟨7, 7, 9, 300, false, 0, none, true⟩, ⟨8, 7, 9, 300, false, 0, none, false⟩] }]; let g := s.dev.lead n.val; let a : Action := ⟨0, 3, 3, .frame 9, 0x0400, true, [], [31], 0⟩; let idx := 31; let f := 8; let target := a.trig.frameNo; s.Inv ∧ s.dev.answers = true ∧ s.dev.pendingOn 3 g = some a ∧ idx = nth 0 a.arg 0 ∧ s.dev.nextBurstFrame n.val = some f ∧ f < target) ∧
    (let n : Fin 4 := 3; let s := up [.obj .frmAlignState 3 0 (.num 2), .obj .frmFrame 3 0 (.num 100), .obj .ciphFchUsState 3 0 (.oct (zeros 31 ++ [1])), .arm ⟨0, 3, 3, .frame 9, 0x0400, true, [], [30], 0⟩, .fch 3 fun c => { c with bursts := [⟨8, 7, 9, 300, false, 0, none, true⟩, ⟨9, 7, 9, 300, false, 0, none, false⟩] }]; let g := s.dev.lead n.val; let a : Action := ⟨0, 3, 3, .frame 9, 0x0400, true, [], [30], 0⟩; let idx := 30; let f := 9; let target := a.trig.frameNo; s.Inv ∧ s.dev.answers = true ∧ s.dev.pendingOn 3 g = some a ∧ idx = nth 0 a.arg 0 ∧ s.dev.nextBurstFrame n.val = some f ∧ target ≤ f ∧ idx ≠ 0 ∧ s.dev.ctxState g 1 idx ≠ 1) := by
  simp only [inv_iff, admits_iff]
  and_intros <;> decide +kernel

theorem meets_CipherKeys_4 :
    (let n : Fin 4 := 3; let s := up [.obj .frmAlignState 3 0 (.num 2), .obj .frmFrame 3 0 (.num 100), .obj .ciphFchUsState 3 0 (.oct (zeros 31 ++ [1])), .arm ⟨0, 3, 3, .frame 9, 0x0400, true, [], [31], 0⟩, .fch 3 fun c => { c with bursts := [⟨8, 7, 9, 300, false, 0, none, true⟩, ⟨9, 7, 9, 300, false, 0, none, false⟩] }]; let g := s.dev.lead n.val; let a : Action := ⟨0, 3, 3, .frame 9, 0x0400, true, [], [31], 0⟩; let idx := 31; let f := 9; let target := a.trig.frameNo; s.Inv ∧ s.dev.answers = true ∧ s.dev.pendingOn 3 g = some a ∧ idx = nth 0 a.arg 0 ∧ s.dev.nextBurstFrame n.val = some f ∧ target ≤ f ∧ (idx = 0 ∨ s.dev.ctxState g 1 idx = 1)) ∧
    (let n : Fin 4 := 3; let s := up [.obj .frmAlignState 3 0 (.num 2), .obj .frmFrame 3 0 (.num 100), .obj .ciphFchUsState 3 0 (.oct (zeros 31 ++ [1])), .arm ⟨0, 3, 3, .frame 9, 0x0400, true, [], [0], 0⟩, .fch 3 fun c => { c with bursts := [⟨9, 7, 9, 300, false, 0, none, true⟩, ⟨10, 7, 9, 300, false, 0, none, false⟩] }]; let g := s.dev.lead n.val; let a : Action := ⟨0, 3, 3, .frame 9, 0x0400, true, [], [0], 0⟩; let idx := 0; let f := 10; let target := a.trig.frameNo; s.Inv ∧ s.dev.answers = true ∧ s.dev.pendingOn 3 g = some a ∧ idx = nth 0 a.arg 0 ∧ s.dev.nextBurstFrame n.val = some f ∧ target ≤ f ∧ (idx = 0 ∨ s.dev.ctxState g 1 idx = 1)) ∧
    (let o := sec; let n : Fin 4 := 3; let v : BitVec 64 := 2 ^ 48; let s := up [.obj .actMode 3 0 (.num (1 * 2 ^ 30))]; let r := writeReq o .ciphFchKeyLimit n.val 0 (.num v.toNat); s.Inv ∧ s.dev.admits r ∧ 2 ^ 20 ≤ v.toNat ∧ v.toNat ≤ 2 ^ 48 ∧ s.dev.lead n.val ≠ n.val) ∧
    (let o := sec; let n : Fin 4 := 3; let v : BitVec 64 := 2 ^ 20; let s := up [.obj .frmAlignState 3 0 (.num 2), .obj .frmFrame 3 0 (.num 100), .obj .ciphFchUsState 3 0 (.oct (zeros 31 ++ [1])), .obj .ciphFchDsState 3 0 (.oct ([0, 1] ++ zeros 30)), .use (ctxKey 3 0 1) 1048577, .use (ctxKey 3 1 31) 1048576]; let r := writeReq o .ciphFchKeyLimit n.val 0 (.num v.toNat); s.Inv ∧ s.dev.admits r ∧ 2 ^ 20 ≤ v.toNat ∧ v.toNat ≤ 2 ^ 48 ∧ s.dev.lead n.val = n.val ∧ (s.dev.oct .ciphFchDsState n.val).length = 32 ∧ (s.dev.oct .ciphFchUsState n.val).length = 32) ∧
    (let o := sec; let b : List Byte := beBytes 2 4096 ++ [1, 0, 0] ++ beBytes 3 0 ++ beBytes 4 5 ++ List.replicate 12 3 ++ beBytes 8 18446744073709551615 ++ List.replicate 32 7 ++ beBytes 8 0; let s := up []; let a := beAt b 0 2; let r := execReq o .ciphMsSaLoad 0 0 true (.oct b); s.Inv ∧ b.length = 72 ∧ s.dev.admits r ∧ (4095 < a ∨ 1 < beAt b 2 1 ∨ 1 < beAt b 3 1 ∨ beAt b 24 8 = 0)) ∧
    (let o := sec; let b : List Byte := beBytes 2 4095 ++ [2, 0, 0] ++ beBytes 3 0 ++ beBytes 4 5 ++ List.replicate 12 3 ++ beBytes 8 18446744073709551615 ++ List.replicate 32 7 ++ beBytes 8 0; let s := up []; let a := beAt b 0 2; let r := execReq o .ciphMsSaLoad 0 0 true (.oct b); s.Inv ∧ b.length = 72 ∧ s.dev.admits r ∧ (4095 < a ∨ 1 < beAt b 2 1 ∨ 1 < beAt b 3 1 ∨ beAt b 24 8 = 0)) ∧
    (let o := sec; let b : List Byte := beBytes 2 4095 ++ [1, 2, 0] ++ beBytes 3 0 ++ beBytes 4 5 ++ List.replicate 12 3 ++ beBytes 8 18446744073709551615 ++ List.replicate 32 7 ++ beBytes 8 0; let s := up []; let a := beAt b 0 2; let r := execReq o .ciphMsSaLoad 0 0 true (.oct b); s.Inv ∧ b.length = 72 ∧ s.dev.admits r ∧ (4095 < a ∨ 1 < beAt b 2 1 ∨ 1 < beAt b 3 1 ∨ beAt b 24 8 = 0)) ∧
    (let o := sec; let b : List Byte := beBytes 2 4095 ++ [1, 0, 0] ++ beBytes 3 0 ++ beBytes 4 5 ++ List.replicate 12 3 ++ beBytes 8 0 ++ List.replicate 32 7 ++ beBytes 8 0; let s := up []; let a := beAt b 0 2; let r := execReq o .ciphMsSaLoad 0 0 true (.oct b); s.Inv ∧ b.length = 72 ∧ s.dev.admits r ∧ (4095 < a ∨ 1 < beAt b 2 1 ∨ 1 < beAt b 3 1 ∨ beAt b 24 8 = 0)) := by
  simp only [inv_iff, admits_iff]
  and_intros <;> decide +kernel

theorem meets_CipherKeys_5 :
    (let o := sec; let b : List Byte := beBytes 2 4095 ++ [1, 0, 0] ++ beBytes 3 0 ++ beBytes 4 5 ++ List.replicate 12 3 ++ beBytes 8 18446744073709551615 ++ List.replicate 32 7 ++ beBytes 8 0; let s := up [.obj .portEnable 95 0 (.num 1), .obj .portMacsecContext 95 0 (.num 4095), .obj .ciphMsContext 0 4095 (.oct ([0, 3] ++ zeros 18 ++ beBytes 4 0 ++ List.replicate 6 255 ++ beBytes 2 4095 ++ List.replicate 8 255 ++ zeros 8))]; let a := beAt b 0 2; let r := execReq o .ciphMsSaLoad 0 0 true (.oct b); s.Inv ∧ b.length = 72 ∧ s.dev.admits r ∧ a ≤ 4095 ∧ beAt b 2 1 ≤ 1 ∧ beAt b 3 1 = 0 ∧ beAt b 4 1 = 0 ∧ beAt b 5 3 = 0 ∧ beAt b 24 8 ≠ 0 ∧ beAt b 64 8 = 0 ∧ s.dev.codeOf o.path ≠ 0x0200 ∧ (∃ p ∈ List.range (96), s.dev.num .portEnable p = 1 ∧
          msTxSa (s.dev.oct .ciphMsContext 0 (s.dev.num .portMacsecContext p)) (msTxAn (s.dev.oct .ciphMsContext 0
            (s.dev.num .portMacsecContext p))) = a)) ∧
    (let o := sec; let b : List Byte := beBytes 2 4095 ++ [1, 0, 0] ++ beBytes 3 0 ++ beBytes 4 5 ++ List.replicate 12 3 ++ beBytes 8 18446744073709551615 ++ List.replicate 32 7 ++ beBytes 8 0; let s := up []; let a := beAt b 0 2; let r := execReq o .ciphMsSaLoad 0 0 true (.oct b); s.Inv ∧ b.length = 72 ∧ s.dev.admits r ∧ a ≤ 4095 ∧ beAt b 2 1 ≤ 1 ∧ beAt b 3 1 = 0 ∧ beAt b 4 1 = 0 ∧ beAt b 5 3 = 0 ∧ beAt b 24 8 ≠ 0 ∧ beAt b 64 8 = 0 ∧ s.dev.codeOf o.path ≠ 0x0200 ∧ (∀ p ∈ List.range (96), s.dev.num .portEnable p ≠ 1)) ∧
    (let o := sec; let b : List Byte := beBytes 2 4095 ++ [1, 1, 15] ++ beBytes 3 0 ++ beBytes 4 5 ++ List.replicate 12 3 ++ beBytes 8 18446744073709551615 ++ List.replicate 32 7 ++ beBytes 8 9; let s := up []; let a := beAt b 0 2; let kek := beAt b 4 1; let r := execReq o .ciphMsSaLoad 0 0 true (.oct b); s.Inv ∧ b.length = 72 ∧ s.dev.admits r ∧ a ≤ 4095 ∧ beAt b 2 1 ≤ 1 ∧ beAt b 3 1 = 1 ∧ 1 ≤ kek ∧ kek ≤ 15 ∧ beAt b 5 3 = 0 ∧ beAt b 24 8 ≠ 0 ∧ (∀ p ∈ List.range (96), s.dev.num .portEnable p ≠ 1) ∧ s.dev.kekLoaded kek = false) ∧
    (let o := sec; let c : Fin 4096 := 4095; let b : List Byte := [0, 0] ++ zeros 18 ++ beBytes 4 0 ++ beBytes 2 4096 ++ List.replicate 14 255 ++ zeros 8; let s := up []; let r := writeReq o .ciphMsContext 0 c.val (.oct b); s.Inv ∧ s.dev.admits r ∧ ((∃ k ∈ List.range (8), 4095 < beAt b (24 + 2 * k) 2 ∧ beAt b (24 + 2 * k) 2 ≠ 0xFFFF) ∨ 3 < beAt b 1 1 ∨ bitsOf (beAt b 0 1) 4 2 = 3 ∨ 1073741824 < beAt b 20 4)) ∧
    (let o := sec; let c : Fin 4096 := 4095; let b : List Byte := [0, 4] ++ zeros 18 ++ beBytes 4 0 ++ List.replicate 16 255 ++ zeros 8; let s := up []; let r := writeReq o .ciphMsContext 0 c.val (.oct b); s.Inv ∧ s.dev.admits r ∧ ((∃ k ∈ List.range (8), 4095 < beAt b (24 + 2 * k) 2 ∧ beAt b (24 + 2 * k) 2 ≠ 0xFFFF) ∨ 3 < beAt b 1 1 ∨ bitsOf (beAt b 0 1) 4 2 = 3 ∨ 1073741824 < beAt b 20 4)) ∧
    (let o := sec; let c : Fin 4096 := 4095; let b : List Byte := [48, 0] ++ zeros 18 ++ beBytes 4 0 ++ List.replicate 16 255 ++ zeros 8; let s := up []; let r := writeReq o .ciphMsContext 0 c.val (.oct b); s.Inv ∧ s.dev.admits r ∧ ((∃ k ∈ List.range (8), 4095 < beAt b (24 + 2 * k) 2 ∧ beAt b (24 + 2 * k) 2 ≠ 0xFFFF) ∨ 3 < beAt b 1 1 ∨ bitsOf (beAt b 0 1) 4 2 = 3 ∨ 1073741824 < beAt b 20 4)) ∧
    (let o := sec; let c : Fin 4096 := 4095; let b : List Byte := [0, 0] ++ zeros 18 ++ beBytes 4 1073741825 ++ List.replicate 16 255 ++ zeros 8; let s := up []; let r := writeReq o .ciphMsContext 0 c.val (.oct b); s.Inv ∧ s.dev.admits r ∧ ((∃ k ∈ List.range (8), 4095 < beAt b (24 + 2 * k) 2 ∧ beAt b (24 + 2 * k) 2 ≠ 0xFFFF) ∨ 3 < beAt b 1 1 ∨ bitsOf (beAt b 0 1) 4 2 = 3 ∨ 1073741824 < beAt b 20 4)) ∧
    (let o := sec; let c : Fin 4096 := 4095; let b : List Byte := [0, 0] ++ zeros 18 ++ beBytes 4 1073741824 ++ List.replicate 16 255 ++ zeros 8; let s := up [.obj .portEnable 95 0 (.num 1), .obj .portMacsecContext 95 0 (.num 4095), .obj .ciphMsContext 0 4095 (.oct ([0, 0] ++ zeros 18 ++ beBytes 4 0 ++ List.replicate 16 255 ++ zeros 8))]; let r := writeReq o .ciphMsContext 0 c.val (.oct b); s.Inv ∧ s.dev.admits r ∧ msContextBad b = false ∧ (∃ p ∈ List.range (96), s.dev.num .portEnable p = 1 ∧ s.dev.num .portMacsecContext p = c.val) ∧ patch (s.dev.oct .ciphMsContext 0 c.val) 1 [0] ≠ patch b 1 [0]) := by
  simp only [inv_iff, admits_iff]
  and_intros <;> decide +kernel

theorem meets_CipherKeys_6 :
    (let o := sec; let c : Fin 4096 := 4095; let b : List Byte := [0, 3] ++ zeros 18 ++ beBytes 4 0 ++ List.replicate 16 255 ++ zeros 8; let s := up [.obj .portEnable 95 0 (.num 1), .obj .portMacsecContext 95 0 (.num 4095), .obj .ciphMsContext 0 4095 (.oct ([0, 0] ++ zeros 18 ++ beBytes 4 0 ++ List.replicate 16 255 ++ zeros 8))]; let r := writeReq o .ciphMsContext 0 c.val (.oct b); s.Inv ∧ s.dev.admits r ∧ msContextBad b = false ∧ ((∀ p ∈ List.range (96), s.dev.num .portEnable p ≠ 1 ∨ s.dev.num .portMacsecContext p ≠ c.val) ∨ patch (s.dev.oct .ciphMsContext 0 c.val) 1 [0] = patch b 1 [0])) ∧
    (let o := sec; let c : Fin 4096 := 4095; let b : List Byte := [40, 0] ++ zeros 18 ++ beBytes 4 1073741824 ++ List.replicate 16 255 ++ zeros 8; let s := up []; let r := writeReq o .ciphMsContext 0 c.val (.oct b); s.Inv ∧ s.dev.admits r ∧ msContextBad b = false ∧ ((∀ p ∈ List.range (96), s.dev.num .portEnable p ≠ 1 ∨ s.dev.num .portMacsecContext p ≠ c.val) ∨ patch (s.dev.oct .ciphMsContext 0 c.val) 1 [0] = patch b 1 [0])) := by
  simp only [inv_iff, admits_iff]
  and_intros <;> decide +kernel

theorem meets_Lookaside :
    (let o := host; let b : List Byte := [3, 0, 0, 0] ++ beBytes 4 77 ++ beBytes 8 0 ++ List.replicate 16 5 ++ beBytes 24 0 ++ beBytes 8 0; let s := up [.fn (fnKey 0 0) fun f => { f with live := true }]; let r := execReq o .ciphLaOpen 0 0 true (.oct b); s.Inv ∧ b.length = 64 ∧ s.dev.admits r ∧ (beAt b 0 1 ≠ 1 ∧ beAt b 0 1 ≠ 2 ∨ 1 < beAt b 1 1 ∨ beAt b 3 1 ≠ 0 ∨ beAt b 8 8 ≠ 0 ∨ beAt b 56 8 ≠ 0)) ∧
    (let o := host; let b : List Byte := [1, 2, 0, 0] ++ beBytes 4 77 ++ beBytes 8 0 ++ List.replicate 16 5 ++ beBytes 24 0 ++ beBytes 8 0; let s := up [.fn (fnKey 0 0) fun f => { f with live := true }]; let r := execReq o .ciphLaOpen 0 0 true (.oct b); s.Inv ∧ b.length = 64 ∧ s.dev.admits r ∧ (beAt b 0 1 ≠ 1 ∧ beAt b 0 1 ≠ 2 ∨ 1 < beAt b 1 1 ∨ beAt b 3 1 ≠ 0 ∨ beAt b 8 8 ≠ 0 ∨ beAt b 56 8 ≠ 0)) ∧
    (let o := host; let b : List Byte := [1, 0, 0, 1] ++ beBytes 4 77 ++ beBytes 8 0 ++ List.replicate 16 5 ++ beBytes 24 0 ++ beBytes 8 0; let s := up [.fn (fnKey 0 0) fun f => { f with live := true }]; let r := execReq o .ciphLaOpen 0 0 true (.oct b); s.Inv ∧ b.length = 64 ∧ s.dev.admits r ∧ (beAt b 0 1 ≠ 1 ∧ beAt b 0 1 ≠ 2 ∨ 1 < beAt b 1 1 ∨ beAt b 3 1 ≠ 0 ∨ beAt b 8 8 ≠ 0 ∨ beAt b 56 8 ≠ 0)) ∧
    (let o := host; let b : List Byte := [1, 0, 0, 0] ++ beBytes 4 77 ++ beBytes 8 1 ++ List.replicate 16 5 ++ beBytes 24 0 ++ beBytes 8 0; let s := up [.fn (fnKey 0 0) fun f => { f with live := true }]; let r := execReq o .ciphLaOpen 0 0 true (.oct b); s.Inv ∧ b.length = 64 ∧ s.dev.admits r ∧ (beAt b 0 1 ≠ 1 ∧ beAt b 0 1 ≠ 2 ∨ 1 < beAt b 1 1 ∨ beAt b 3 1 ≠ 0 ∨ beAt b 8 8 ≠ 0 ∨ beAt b 56 8 ≠ 0)) ∧
    (let o := host; let b : List Byte := [1, 0, 0, 0] ++ beBytes 4 77 ++ beBytes 8 0 ++ List.replicate 16 5 ++ beBytes 24 0 ++ beBytes 8 1; let s := up [.fn (fnKey 0 0) fun f => { f with live := true }]; let r := execReq o .ciphLaOpen 0 0 true (.oct b); s.Inv ∧ b.length = 64 ∧ s.dev.admits r ∧ (beAt b 0 1 ≠ 1 ∧ beAt b 0 1 ≠ 2 ∨ 1 < beAt b 1 1 ∨ beAt b 3 1 ≠ 0 ∨ beAt b 8 8 ≠ 0 ∨ beAt b 56 8 ≠ 0)) ∧
    (let o := host; let b : List Byte := [1, 0, 0, 0] ++ beBytes 4 77 ++ beBytes 8 0 ++ List.replicate 16 5 ++ beBytes 24 0 ++ beBytes 8 0; let s := up []; let code := s.dev.codeOf o.path; let r := execReq o .ciphLaOpen 0 0 true (.oct b); let alg := beAt b 0 1; let kl := if alg = 1 then 16 else 32; let wrap := beAt b 1 1; let kek := beAt b 2 1; s.Inv ∧ b.length = 64 ∧ s.dev.admits r ∧ ((alg = 1 ∧ kl = 16) ∨ (alg = 2 ∧ kl = 32)) ∧ beAt b 3 1 = 0 ∧ beAt b 8 8 = 0 ∧ beAt b 56 8 = 0 ∧ ((wrap = 0 ∧ kek = 0 ∧ beAt b (16 + kl) (40 - kl) = 0) ∨ (wrap = 1 ∧ 1 ≤ kek ∧ kek ≤ 15 ∧ beAt b (24 + kl) (32 - kl) = 0)) ∧ (s.dev.fn (hostKey code)).live = false) ∧
    (let o := host; let b : List Byte := [2, 1, 15, 0] ++ beBytes 4 77 ++ beBytes 8 0 ++ List.replicate 40 5 ++ beBytes 0 0 ++ beBytes 8 0; let s := up [.fn (fnKey 0 0) fun f => { f with live := true }]; let code := s.dev.codeOf o.path; let r := execReq o .ciphLaOpen 0 0 true (.oct b); let alg := beAt b 0 1; let kl := if alg = 1 then 16 else 32; let wrap := beAt b 1 1; let kek := beAt b 2 1; let n := 0; s.Inv ∧ b.length = 64 ∧ s.dev.admits r ∧ ((alg = 1 ∧ kl = 16) ∨ (alg = 2 ∧ kl = 32)) ∧ beAt b 3 1 = 0 ∧ beAt b 8 8 = 0 ∧ beAt b 56 8 = 0 ∧ ((wrap = 0 ∧ kek = 0 ∧ beAt b (16 + kl) (40 - kl) = 0) ∨ (wrap = 1 ∧ 1 ≤ kek ∧ kek ≤ 15 ∧ beAt b (24 + kl) (32 - kl) = 0)) ∧ (s.dev.fn (hostKey code)).live = true ∧ n < 16384 ∧ (∀ m ∈ List.range (n), s.dev.sessionOpen m = true) ∧ s.dev.sessionOpen n = false ∧ wrap = 1 ∧ s.dev.kekLoaded kek = false) ∧
    (let o := host; let b : List Byte := [1, 0, 0, 0] ++ beBytes 4 77 ++ beBytes 8 0 ++ List.replicate 16 5 ++ beBytes 24 0 ++ beBytes 8 0; let s := up [.fn (fnKey 0 0) fun f => { f with live := true }]; let code := s.dev.codeOf o.path; let r := execReq o .ciphLaOpen 0 0 true (.oct b); let alg := beAt b 0 1; let kl := if alg = 1 then 16 else 32; let wrap := beAt b 1 1; let kek := beAt b 2 1; let n := 0; s.Inv ∧ b.length = 64 ∧ s.dev.admits r ∧ ((alg = 1 ∧ kl = 16) ∨ (alg = 2 ∧ kl = 32)) ∧ beAt b 3 1 = 0 ∧ beAt b 8 8 = 0 ∧ beAt b 56 8 = 0 ∧ ((wrap = 0 ∧ kek = 0 ∧ beAt b (16 + kl) (40 - kl) = 0) ∨ (wrap = 1 ∧ 1 ≤ kek ∧ kek ≤ 15 ∧ beAt b (24 + kl) (32 - kl) = 0)) ∧ (s.dev.fn (hostKey code)).live = true ∧ n < 16384 ∧ (∀ m ∈ List.range (n), s.dev.sessionOpen m = true) ∧ s.dev.sessionOpen n = false ∧ wrap = 0) := by
  simp only [inv_iff, admits_iff]
  and_intros <;> decide +kernel

theorem meets_Lookaside_2 :
    (let o := host; let b : List Byte := [2, 0, 0, 0] ++ beBytes 4 77 ++ beBytes 8 0 ++ List.replicate 32 5 ++ beBytes 8 0 ++ beBytes 8 0; let s := up [.fn (fnKey 0 0) fun f => { f with live := true }, .key (laKey 0) (beBytes 2 0x0100 ++ [2, 1, 9, 9, 9, 9] ++ List.replicate 32 7), .use (laKey 1) 9]; let code := s.dev.codeOf o.path; let r := execReq o .ciphLaOpen 0 0 true (.oct b); let alg := beAt b 0 1; let kl := if alg = 1 then 16 else 32; let wrap := beAt b 1 1; let kek := beAt b 2 1; let n := 1; s.Inv ∧ b.length = 64 ∧ s.dev.admits r ∧ ((alg = 1 ∧ kl = 16) ∨ (alg = 2 ∧ kl = 32)) ∧ beAt b 3 1 = 0 ∧ beAt b 8 8 = 0 ∧ beAt b 56 8 = 0 ∧ ((wrap = 0 ∧ kek = 0 ∧ beAt b (16 + kl) (40 - kl) = 0) ∨ (wrap = 1 ∧ 1 ≤ kek ∧ kek ≤ 15 ∧ beAt b (24 + kl) (32 - kl) = 0)) ∧ (s.dev.fn (hostKey code)).live = true ∧ n < 16384 ∧ (∀ m ∈ List.range (n), s.dev.sessionOpen m = true) ∧ s.dev.sessionOpen n = false ∧ wrap = 0) ∧
    (let o := host; let b : List Byte := beBytes 2 16384 ++ beBytes 2 256 ++ beBytes 4 0 ++ beBytes 8 64; let s := up [.key (laKey 16383) (beBytes 2 0x0100 ++ [2, 1, 9, 9, 9, 9] ++ List.replicate 32 7)]; let n := beAt b 0 2; let r := execReq o .ciphLaSubmit 0 0 true (.oct b); s.Inv ∧ b.length = 16 ∧ s.dev.admits r ∧ (16384 ≤ n ∨ s.dev.sessionOpen n = false ∨ s.dev.sessionOwner n ≠ s.dev.codeOf o.path)) ∧
    (let o := host; let b : List Byte := beBytes 2 5 ++ beBytes 2 256 ++ beBytes 4 0 ++ beBytes 8 64; let s := up [.key (laKey 16383) (beBytes 2 0x0100 ++ [2, 1, 9, 9, 9, 9] ++ List.replicate 32 7)]; let n := beAt b 0 2; let r := execReq o .ciphLaSubmit 0 0 true (.oct b); s.Inv ∧ b.length = 16 ∧ s.dev.admits r ∧ (16384 ≤ n ∨ s.dev.sessionOpen n = false ∨ s.dev.sessionOwner n ≠ s.dev.codeOf o.path)) ∧
    (let o := host; let b : List Byte := beBytes 2 16383 ++ beBytes 2 256 ++ beBytes 4 0 ++ beBytes 8 64; let s := up [.key (laKey 16383) (beBytes 2 0x0101 ++ [2, 1, 9, 9, 9, 9] ++ List.replicate 32 7)]; let n := beAt b 0 2; let r := execReq o .ciphLaSubmit 0 0 true (.oct b); s.Inv ∧ b.length = 16 ∧ s.dev.admits r ∧ (16384 ≤ n ∨ s.dev.sessionOpen n = false ∨ s.dev.sessionOwner n ≠ s.dev.codeOf o.path)) ∧
    (let o := host; let b : List Byte := beBytes 2 16383 ++ beBytes 2 0 ++ beBytes 4 0 ++ beBytes 8 64; let s := up [.key (laKey 16383) (beBytes 2 0x0100 ++ [2, 1, 9, 9, 9, 9] ++ List.replicate 32 7)]; let n := beAt b 0 2; let k := beAt b 2 2; let r := execReq o .ciphLaSubmit 0 0 true (.oct b); s.Inv ∧ b.length = 16 ∧ s.dev.admits r ∧ n < 16384 ∧ s.dev.sessionOpen n = true ∧ s.dev.sessionOwner n = s.dev.codeOf o.path ∧ (k = 0 ∨ 256 < k ∨ beAt b 4 4 ≠ 0 ∨ beAt b 8 8 % 64 ≠ 0)) ∧
    (let o := host; let b : List Byte := beBytes 2 16383 ++ beBytes 2 257 ++ beBytes 4 0 ++ beBytes 8 64; let s := up [.key (laKey 16383) (beBytes 2 0x0100 ++ [2, 1, 9, 9, 9, 9] ++ List.replicate 32 7)]; let n := beAt b 0 2; let k := beAt b 2 2; let r := execReq o .ciphLaSubmit 0 0 true (.oct b); s.Inv ∧ b.length = 16 ∧ s.dev.admits r ∧ n < 16384 ∧ s.dev.sessionOpen n = true ∧ s.dev.sessionOwner n = s.dev.codeOf o.path ∧ (k = 0 ∨ 256 < k ∨ beAt b 4 4 ≠ 0 ∨ beAt b 8 8 % 64 ≠ 0)) ∧
    (let o := host; let b : List Byte := beBytes 2 16383 ++ beBytes 2 256 ++ beBytes 4 1 ++ beBytes 8 64; let s := up [.key (laKey 16383) (beBytes 2 0x0100 ++ [2, 1, 9, 9, 9, 9] ++ List.replicate 32 7)]; let n := beAt b 0 2; let k := beAt b 2 2; let r := execReq o .ciphLaSubmit 0 0 true (.oct b); s.Inv ∧ b.length = 16 ∧ s.dev.admits r ∧ n < 16384 ∧ s.dev.sessionOpen n = true ∧ s.dev.sessionOwner n = s.dev.codeOf o.path ∧ (k = 0 ∨ 256 < k ∨ beAt b 4 4 ≠ 0 ∨ beAt b 8 8 % 64 ≠ 0)) ∧
    (let o := host; let b : List Byte := beBytes 2 16383 ++ beBytes 2 256 ++ beBytes 4 0 ++ beBytes 8 32; let s := up [.key (laKey 16383) (beBytes 2 0x0100 ++ [2, 1, 9, 9, 9, 9] ++ List.replicate 32 7)]; let n := beAt b 0 2; let k := beAt b 2 2; let r := execReq o .ciphLaSubmit 0 0 true (.oct b); s.Inv ∧ b.length = 16 ∧ s.dev.admits r ∧ n < 16384 ∧ s.dev.sessionOpen n = true ∧ s.dev.sessionOwner n = s.dev.codeOf o.path ∧ (k = 0 ∨ 256 < k ∨ beAt b 4 4 ≠ 0 ∨ beAt b 8 8 % 64 ≠ 0)) := by
  simp only [inv_iff, admits_iff]
  and_intros <;> decide +kernel

theorem meets_Lookaside_3 :
    (let o := host; let b : List Byte := beBytes 2 16383 ++ beBytes 2 2 ++ beBytes 4 0 ++ beBytes 8 64; let s := up [.key (laKey 16383) (beBytes 2 0x0100 ++ [2, 1, 9, 9, 9, 9] ++ List.replicate 32 7)]; let n := beAt b 0 2; let k := beAt b 2 2; let r := execReq o .ciphLaSubmit 0 0 true (.oct b); s.Inv ∧ b.length = 16 ∧ s.dev.admits r ∧ n < 16384 ∧ s.dev.sessionOpen n = true ∧ s.dev.sessionOwner n = s.dev.codeOf o.path ∧ 1 ≤ k ∧ k ≤ 256 ∧ beAt b 4 4 = 0 ∧ beAt b 8 8 % 64 = 0) ∧
    (let o := host; let b : List Byte := beBytes 2 16383 ++ beBytes 2 1 ++ beBytes 4 0 ++ beBytes 8 64; let s := up [.key (laKey 16383) (beBytes 2 0x0100 ++ [2, 1, 9, 9, 9, 9] ++ List.replicate 32 7)]; let n := beAt b 0 2; let k := beAt b 2 2; let r := execReq o .ciphLaSubmit 0 0 true (.oct b); s.Inv ∧ b.length = 16 ∧ s.dev.admits r ∧ n < 16384 ∧ s.dev.sessionOpen n = true ∧ s.dev.sessionOwner n = s.dev.codeOf o.path ∧ 1 ≤ k ∧ k ≤ 256 ∧ beAt b 4 4 = 0 ∧ beAt b 8 8 % 64 = 0) ∧
    (let s := up []; s.Inv ∧ (s.dev.answers = false ∨ s.dev.la.jobs = [])) ∧
    (let j : LaJob := ⟨16383, 4, 640, ([3, 0, 0, 0] ++ leBytes 4 4 ++ zeros 8 ++ leBytes 8 4096 ++ leBytes 4 8 ++ zeros 4 ++ zeros 12 ++ zeros 4 ++ zeros 16), List.replicate 12 1, 0, true, false, none⟩; let x : LaList := ⟨4, (execReq host .ciphLaSubmit 0 0 true (.oct (zeros 16))).call, 2, 0, 0⟩; let st := 3; let s := up [.key (laKey 16383) (beBytes 2 0x0100 ++ [2, 1, 9, 9, 9, 9] ++ List.replicate 32 7), .la fun l => { l with jobs := [j], lists := [x], next := 5 }]; s.Inv ∧ s.dev.answers = true ∧ s.dev.la.jobs = [j] ∧ s.dev.la.lists = [x] ∧ x.id = j.list ∧ (j.bad = true ∧ st = 3)) ∧
    (let j : LaJob := ⟨16383, 4, 640, ([1, 0, 0, 0] ++ leBytes 4 4 ++ zeros 8 ++ leBytes 8 4096 ++ leBytes 4 8 ++ zeros 4 ++ zeros 12 ++ zeros 4 ++ zeros 16), List.replicate 12 1, 2, true, false, none⟩; let x : LaList := ⟨4, (execReq host .ciphLaSubmit 0 0 true (.oct (zeros 16))).call, 1, 0, 0⟩; let st := 4; let s := up [.key (laKey 16383) (beBytes 2 0x0100 ++ [2, 1, 9, 9, 9, 9] ++ List.replicate 32 7), .la fun l => { l with jobs := [j], lists := [x], next := 5 }]; s.Inv ∧ s.dev.answers = true ∧ s.dev.la.jobs = [j] ∧ s.dev.la.lists = [x] ∧ x.id = j.list ∧ (j.bad = false ∧ j.dma ≠ 0 ∧ st = 4)) ∧
    (let j : LaJob := ⟨16383, 4, 640, ([1, 0, 0, 0] ++ leBytes 4 4 ++ zeros 8 ++ leBytes 8 4096 ++ leBytes 4 8 ++ zeros 4 ++ zeros 12 ++ zeros 4 ++ zeros 16), List.replicate 12 1, 0, true, false, none⟩; let x : LaList := ⟨4, (execReq host .ciphLaSubmit 0 0 true (.oct (zeros 16))).call, 2, 0, 0⟩; let st := 2; let s := up [.key (laKey 16383) (beBytes 2 0x0100 ++ [2, 1, 9, 9, 9, 9] ++ List.replicate 32 7), .la fun l => { l with jobs := [j], lists := [x], next := 5 }]; s.Inv ∧ s.dev.answers = true ∧ s.dev.la.jobs = [j] ∧ s.dev.la.lists = [x] ∧ x.id = j.list ∧ (j.bad = false ∧ j.dma = 0 ∧ j.op = 1 ∧ j.ctr = none ∧ st = 2)) ∧
    (let fault : Bool := true; let j : LaJob := ⟨16383, 4, 640, ([2, 0, 0, 0] ++ leBytes 4 4 ++ zeros 8 ++ leBytes 8 4096 ++ leBytes 4 8 ++ zeros 4 ++ zeros 12 ++ zeros 4 ++ zeros 16), List.replicate 12 1, 0, true, false, none⟩; let x : LaList := ⟨4, (execReq host .ciphLaSubmit 0 0 true (.oct (zeros 16))).call, 2, 0, 0⟩; let st := 5; let s := up [.key (laKey 16383) (beBytes 2 0x0100 ++ [2, 1, 9, 9, 9, 9] ++ List.replicate 32 7), .la fun l => { l with jobs := [j], lists := [x], next := 5 }]; s.Inv ∧ s.dev.answers = true ∧ s.dev.la.jobs = [j] ∧ s.dev.la.lists = [x] ∧ x.id = j.list ∧ (j.bad = false ∧ j.dma = 0 ∧ (j.op = 2 ∨ j.ctr ≠ none) ∧ fault = true ∧ s.dev.num .ciphCheckMode ≠ 2 ∧ st = 5)) ∧
    (let fault : Bool := false; let j : LaJob := ⟨16383, 4, 640, ([1, 0, 0, 0] ++ leBytes 4 4 ++ zeros 8 ++ leBytes 8 4096 ++ leBytes 4 8 ++ zeros 4 ++ zeros 12 ++ zeros 4 ++ zeros 16), List.replicate 12 1, 0, true, false, some (2 ^ 64 - 1)⟩; let x : LaList := ⟨4, (execReq host .ciphLaSubmit 0 0 true (.oct (zeros 16))).call, 1, 0, 0⟩; let st := 0; let s := up [.key (laKey 16383) (beBytes 2 0x0100 ++ [2, 1, 9, 9, 9, 9] ++ List.replicate 32 7), .la fun l => { l with jobs := [j], lists := [x], next := 5 }]; s.Inv ∧ s.dev.answers = true ∧ s.dev.la.jobs = [j] ∧ s.dev.la.lists = [x] ∧ x.id = j.list ∧ (j.bad = false ∧ j.dma = 0 ∧ j.op = 1 ∧ j.ctr ≠ none ∧ fault = false ∧ st = 0)) := by
  simp only [inv_iff, admits_iff]
  and_intros <;> decide +kernel

theorem meets_Lookaside_4 :
    (let o := host; let v : BitVec 16 := 16384; let s := up [.key (laKey 16383) (beBytes 2 0x0100 ++ [2, 1, 9, 9, 9, 9] ++ List.replicate 32 7)]; let r := execReq o .ciphLaClose 0 0 true (.num v.toNat); s.Inv ∧ s.dev.admits r ∧ (16384 ≤ v.toNat ∨ s.dev.sessionOpen v.toNat = false ∨ s.dev.sessionOwner v.toNat ≠ s.dev.codeOf o.path)) ∧
    (let o := host; let v : BitVec 16 := 5; let s := up [.key (laKey 16383) (beBytes 2 0x0100 ++ [2, 1, 9, 9, 9, 9] ++ List.replicate 32 7)]; let r := execReq o .ciphLaClose 0 0 true (.num v.toNat); s.Inv ∧ s.dev.admits r ∧ (16384 ≤ v.toNat ∨ s.dev.sessionOpen v.toNat = false ∨ s.dev.sessionOwner v.toNat ≠ s.dev.codeOf o.path)) ∧
    (let o := host; let v : BitVec 16 := 16383; let s := up [.key (laKey 16383) (beBytes 2 0x0100 ++ [2, 1, 9, 9, 9, 9] ++ List.replicate 32 7), .obj .ciphLaSessionsOpen 0 0 (.num 1)]; let r := execReq o .ciphLaClose 0 0 true (.num v.toNat); s.Inv ∧ s.dev.admits r ∧ v.toNat < 16384 ∧ s.dev.sessionOpen v.toNat = true ∧ s.dev.sessionOwner v.toNat = s.dev.codeOf o.path ∧ s.dev.la.jobs = []) ∧
    (let o := host; let v : BitVec 16 := 16383; let j : LaJob := ⟨16383, 4, 640, ([1, 0, 0, 0] ++ leBytes 4 4 ++ zeros 8 ++ leBytes 8 4096 ++ leBytes 4 8 ++ zeros 4 ++ zeros 12 ++ zeros 4 ++ zeros 16), List.replicate 12 1, 0, true, false, none⟩; let x : LaList := ⟨4, (execReq host .ciphLaSubmit 0 0 true (.oct (zeros 16))).call, 1, 0, 0⟩; let s := up [.key (laKey 16383) (beBytes 2 0x0100 ++ [2, 1, 9, 9, 9, 9] ++ List.replicate 32 7), .fn (fnKey 0 0) fun f => { f with live := true }, .la fun l => { l with jobs := [j], lists := [x], next := 5 }]; let r := execReq o .ciphLaClose 0 0 true (.num v.toNat); s.Inv ∧ s.dev.admits r ∧ v.toNat < 16384 ∧ s.dev.sessionOpen v.toNat = true ∧ s.dev.sessionOwner v.toNat = s.dev.codeOf o.path ∧ s.dev.la.jobs = [j] ∧ j.session = v.toNat ∧ s.dev.la.lists = [x] ∧ x.id = j.list) ∧
    (let o := host; let v : BitVec 16 := 16383; let j : LaJob := ⟨16383, 4, 640, ([1, 0, 0, 0] ++ leBytes 4 4 ++ zeros 8 ++ leBytes 8 4096 ++ leBytes 4 8 ++ zeros 4 ++ zeros 12 ++ zeros 4 ++ zeros 16), List.replicate 12 1, 0, true, false, none⟩; let x : LaList := ⟨4, (execReq host .ciphLaSubmit 0 0 true (.oct (zeros 16))).call, 2, 0, 0⟩; let s := up [.key (laKey 16383) (beBytes 2 0x0100 ++ [2, 1, 9, 9, 9, 9] ++ List.replicate 32 7), .fn (fnKey 0 0) fun f => { f with live := true }, .la fun l => { l with jobs := [j], lists := [x], next := 5 }]; let r := execReq o .ciphLaClose 0 0 true (.num v.toNat); s.Inv ∧ s.dev.admits r ∧ v.toNat < 16384 ∧ s.dev.sessionOpen v.toNat = true ∧ s.dev.sessionOwner v.toNat = s.dev.codeOf o.path ∧ s.dev.la.jobs = [j] ∧ j.session = v.toNat ∧ s.dev.la.lists = [x] ∧ x.id = j.list) := by
  simp only [inv_iff, admits_iff]
  and_intros <;> decide +kernel

theorem meets_TimeBase :
    (let s := State.reset; s.Inv ∧ s.dev.answers = false) ∧
    (let s := up []; let a : TimeSt := s.dev.tim; let r := 1000 * a.incNow * s.dev.num .timeSlewMax / 1000000; let z : Int := 0; let u : Int := a.units + 1000 * (a.incNow : Int) + z; let top : Int := (2 : Int) ^ 48 * 1000000000 * 2 ^ 40; s.Inv ∧ s.dev.answers = true ∧ ((z = 0 ∧ a.slew.natAbs ≤ r) ∨ (z = (r : Int) ∧ (r : Int) < a.slew) ∨ (z = -(r : Int) ∧ a.slew < -(r : Int))) ∧ 0 ≤ u ∧ u < top ∧ a.setPend = none ∧ a.stepPend = none) ∧
    (let s := up [.obj .timeSlewMax 0 0 (.num 100), .tim fun t => { t with secs := 4, ns := 999999999, slew := ((1000 * 1099511627776 * 100 / 1000000) + 1), incPend := some 549755813888, slewPend := none }, .obj .timeSyncoEnable 0 0 (.num 1), .fn (fnKey 0 0) fun f => { f with live := true, remain := 5 }, .fch 2 fun c => { c with burstOn := true, burstLeft := 1 }]; let a : TimeSt := s.dev.tim; let r := 1000 * a.incNow * s.dev.num .timeSlewMax / 1000000; let z : Int := (r : Int); let u : Int := a.units + 1000 * (a.incNow : Int) + z; let top : Int := (2 : Int) ^ 48 * 1000000000 * 2 ^ 40; s.Inv ∧ s.dev.answers = true ∧ ((z = 0 ∧ a.slew.natAbs ≤ r) ∨ (z = (r : Int) ∧ (r : Int) < a.slew) ∨ (z = -(r : Int) ∧ a.slew < -(r : Int))) ∧ 0 ≤ u ∧ u < top ∧ a.setPend = none ∧ a.stepPend = none) ∧
    (let s := up [.obj .timeSlewMax 0 0 (.num 100), .tim fun t => { t with secs := 4, ns := 999999999, slew := (-(1000 * 1099511627776 * 100 / 1000000) - 1), incPend := some 549755813888, slewPend := some 9 }, .obj .timeSyncoEnable 0 0 (.num 1), .fn (fnKey 0 0) fun f => { f with live := true, remain := 5 }, .fch 2 fun c => { c with burstOn := true, burstLeft := 1 }]; let a : TimeSt := s.dev.tim; let r := 1000 * a.incNow * s.dev.num .timeSlewMax / 1000000; let z : Int := -(r : Int); let u : Int := a.units + 1000 * (a.incNow : Int) + z; let top : Int := (2 : Int) ^ 48 * 1000000000 * 2 ^ 40; s.Inv ∧ s.dev.answers = true ∧ ((z = 0 ∧ a.slew.natAbs ≤ r) ∨ (z = (r : Int) ∧ (r : Int) < a.slew) ∨ (z = -(r : Int) ∧ a.slew < -(r : Int))) ∧ 0 ≤ u ∧ u < top ∧ a.setPend = none ∧ a.stepPend = none) ∧
    (let s := up [.tim fun t => { t with secs := 4, stepPend := some (-5), slewPend := some 7 }]; let a : TimeSt := s.dev.tim; let r := 1000 * a.incNow * s.dev.num .timeSlewMax / 1000000; let z : Int := 0; let u : Int := a.units + 1000 * (a.incNow : Int) + z; let top : Int := (2 : Int) ^ 48 * 1000000000 * 2 ^ 40; let x : Int := -5; s.Inv ∧ s.dev.answers = true ∧ ((z = 0 ∧ a.slew.natAbs ≤ r) ∨ (z = (r : Int) ∧ (r : Int) < a.slew) ∨ (z = -(r : Int) ∧ a.slew < -(r : Int))) ∧ 0 ≤ u ∧ u < top ∧ a.setPend = none ∧ a.stepPend = some x ∧ 0 ≤ u + x ∧ u + x < top) ∧
    (let s := up [.tim fun t => { t with setPend := some (2 ^ 48 - 1, 999999999, 65535), hostWrote := true }]; let a : TimeSt := s.dev.tim; let r := 1000 * a.incNow * s.dev.num .timeSlewMax / 1000000; let z : Int := 0; let u : Int := a.units + 1000 * (a.incNow : Int) + z; let top : Int := (2 : Int) ^ 48 * 1000000000 * 2 ^ 40; let S := 2 ^ 48 - 1; let N := 999999999; let F := 65535; s.Inv ∧ s.dev.answers = true ∧ ((z = 0 ∧ a.slew.natAbs ≤ r) ∨ (z = (r : Int) ∧ (r : Int) < a.slew) ∨ (z = -(r : Int) ∧ a.slew < -(r : Int))) ∧ 0 ≤ u ∧ u < top ∧ a.setPend = some (S, N, F) ∧ a.stepPend = none ∧ S < 2 ^ 48 ∧ N < 1000000000 ∧ F < 2 ^ 16) ∧
    (let s := State.reset; s.Inv ∧ s.dev.answers = false) ∧
    (let n : Fin 4 := 3; let s := up [.fch 3 fun c => { c with marks := true, refValid := false, pll := 700 }, .tim fun t => { t with secs := 5, ns := 999999500, sub := 77 }, .obj .frmFrame 3 0 (.num (2 ^ 51 - 1)), .obj .timeRxAdjust 0 0 (.num (2 ^ 32 - 800000)), .obj .clkTimingChannel 0 0 (.num 3), .obj .clkTimingState 0 0 (.num 3)]; s.Inv ∧ s.dev.answers = true ∧ s.dev.dissolves n.val = false ∧ s.dev.circOn none = [] ∧ (s.dev.ch n.val).marks = true ∧ (s.dev.num .clkFchState 0 n.val ≠ 0 ∨ (s.dev.num .clkTimingChannel = n.val ∧ s.dev.num .clkTimingState = 3))) := by
  simp only [inv_iff]
  and_intros <;> decide +kernel

theorem meets_TimeBase_2 :
    (let n : Fin 4 := 3; let s := up [.fch 3 fun c => { c with marks := true, refValid := true, pll := 700 }, .tim fun t => { t with secs := 5, ns := 999999500, sub := 77 }, .obj .frmFrame 3 0 (.num (2 ^ 51 - 1)), .obj .timeRxAdjust 0 0 (.num (2 ^ 32 - 800000)), .obj .clkFchState 0 3 (.num 2), .obj .dmtState 3 0 (.num 3), .obj .dmtFreqOffset 3 0 (.num 20000)]; s.Inv ∧ s.dev.answers = true ∧ s.dev.dissolves n.val = false ∧ s.dev.circOn none = [] ∧ (s.dev.ch n.val).refValid = true) ∧
    (let n : Fin 4 := 3; let s := up [.obj .clkFchState 0 3 (.num 2)]; s.Inv ∧ s.dev.answers = true ∧ s.dev.dissolves n.val = false ∧ ((s.dev.ch n.val).marks = false ∨ (s.dev.num .clkFchState 0 n.val = 0 ∧ (s.dev.num .clkTimingChannel ≠ n.val ∨ s.dev.num .clkTimingState ≠ 3)))) ∧
    (let n : Fin 4 := 3; let s := up [.fch 3 fun c => { c with marks := true, refValid := true, pll := 700 }, .tim fun t => { t with secs := 5, ns := 999999500, sub := 77 }, .obj .frmFrame 3 0 (.num (2 ^ 51 - 1)), .obj .timeRxAdjust 0 0 (.num (2 ^ 32 - 800000))]; s.Inv ∧ s.dev.answers = true ∧ s.dev.dissolves n.val = false ∧ ((s.dev.ch n.val).marks = false ∨ (s.dev.num .clkFchState 0 n.val = 0 ∧ (s.dev.num .clkTimingChannel ≠ n.val ∨ s.dev.num .clkTimingState ≠ 3)))) ∧
    (let o := sec; let b : List Byte := beBytes 6 (2 ^ 48 - 1) ++ beBytes 4 1000000000 ++ [1, 2]; let s := up []; let r := execReq o .timeSet 0 0 true (.oct b); s.Inv ∧ b.length = 12 ∧ s.dev.admits r ∧ 999999999 < beAt b 6 4) ∧
    (let o := sec; let b : List Byte := beBytes 6 (2 ^ 48 - 1) ++ beBytes 4 999999999 ++ [1, 2]; let s := up [.obj .timeStatus 0 0 (.num 1)]; let r := execReq o .timeSet 0 0 true (.oct b); s.Inv ∧ b.length = 12 ∧ s.dev.admits r ∧ beAt b 6 4 ≤ 999999999 ∧ s.dev.num .timeSource = 0 ∧ s.dev.synced = true) ∧
    (let o := sec; let b : List Byte := beBytes 6 (2 ^ 48 - 1) ++ beBytes 4 999999999 ++ [1, 2]; let s := up []; let r := execReq o .timeSet 0 0 true (.oct b); s.Inv ∧ b.length = 12 ∧ s.dev.admits r ∧ beAt b 6 4 ≤ 999999999 ∧ (s.dev.num .timeSource ≠ 0 ∨ s.dev.synced = false)) ∧
    (let o := sec; let b : List Byte := beBytes 6 (2 ^ 48 - 1) ++ beBytes 4 999999999 ++ [1, 2]; let s := up [.obj .timeStatus 0 0 (.num 1), .obj .timeSource 0 0 (.num 1)]; let r := execReq o .timeSet 0 0 true (.oct b); s.Inv ∧ b.length = 12 ∧ s.dev.admits r ∧ beAt b 6 4 ≤ 999999999 ∧ (s.dev.num .timeSource ≠ 0 ∨ s.dev.synced = false)) ∧
    (let o := sec; let ps : BitVec 64 := 5; let s := up [.obj .timeStatus 0 0 (.num 1)]; let r := execReq o .timeAdjust 0 0 true (.num ps.toNat); s.Inv ∧ s.dev.admits r ∧ s.dev.num .timeSource = 0 ∧ s.dev.synced = true) := by
  simp only [inv_iff, admits_iff]
  and_intros <;> decide +kernel

theorem meets_TimeBase_3 :
    (let o := sec; let ps : BitVec 64 := 101; let s := up [.obj .timeStepThreshold 0 0 (.num 100)]; let r := execReq o .timeAdjust 0 0 true (.num ps.toNat); s.Inv ∧ s.dev.admits r ∧ (s.dev.num .timeSource ≠ 0 ∨ s.dev.synced = false) ∧ s.dev.num .timeStepThreshold < ps.toInt.natAbs) ∧
    (let o := sec; let ps : BitVec 64 := -101; let s := up [.obj .timeStepThreshold 0 0 (.num 100)]; let r := execReq o .timeAdjust 0 0 true (.num ps.toNat); s.Inv ∧ s.dev.admits r ∧ (s.dev.num .timeSource ≠ 0 ∨ s.dev.synced = false) ∧ s.dev.num .timeStepThreshold < ps.toInt.natAbs) ∧
    (let o := sec; let ps : BitVec 64 := 2 ^ 63; let s := up [.obj .timeStepThreshold 0 0 (.num 100)]; let r := execReq o .timeAdjust 0 0 true (.num ps.toNat); s.Inv ∧ s.dev.admits r ∧ (s.dev.num .timeSource ≠ 0 ∨ s.dev.synced = false) ∧ s.dev.num .timeStepThreshold < ps.toInt.natAbs) ∧
    (let o := sec; let ps : BitVec 64 := 100; let s := up [.obj .timeStepThreshold 0 0 (.num 100)]; let r := execReq o .timeAdjust 0 0 true (.num ps.toNat); s.Inv ∧ s.dev.admits r ∧ (s.dev.num .timeSource ≠ 0 ∨ s.dev.synced = false) ∧ ps.toInt.natAbs ≤ s.dev.num .timeStepThreshold) ∧
    (let o := sec; let ps : BitVec 64 := -100; let s := up [.obj .timeStepThreshold 0 0 (.num 100)]; let r := execReq o .timeAdjust 0 0 true (.num ps.toNat); s.Inv ∧ s.dev.admits r ∧ (s.dev.num .timeSource ≠ 0 ∨ s.dev.synced = false) ∧ ps.toInt.natAbs ≤ s.dev.num .timeStepThreshold) ∧
    (let o := sec; let v : BitVec 8 := 1; let s := up [.obj .timeStatus 0 0 (.num 6)]; let r := writeReq o .timeSource 0 0 (.num v.toNat); s.Inv ∧ s.dev.admits r ∧ s.dev.synced = false) ∧
    (let o := sec; let v : BitVec 8 := 1; let s := up [.obj .timeStatus 0 0 (.num 5)]; let r := writeReq o .timeSource 0 0 (.num v.toNat); s.Inv ∧ s.dev.admits r ∧ s.dev.synced = true) ∧
    (let s := up [.obj .timeStatus 0 0 (.num 1)]; s.Inv ∧ s.dev.answers = true ∧ bitOf (s.dev.num .timeStatus) 4 = false) := by
  simp only [inv_iff, admits_iff]
  and_intros <;> decide +kernel

theorem meets_TimeBase_4 :
    (let s := up [.obj .timeStatus 0 0 (.num 17), .obj .timeSource 0 0 (.num 1)]; s.Inv ∧ s.dev.answers = true ∧ bitOf (s.dev.num .timeStatus) 4 = true ∧ (s.dev.num .timeSource ≠ 0 ∨ s.dev.synced = false)) ∧
    (let s := up [.obj .timeStatus 0 0 (.num 17)]; s.Inv ∧ s.dev.answers = true ∧ bitOf (s.dev.num .timeStatus) 4 = true ∧ s.dev.num .timeSource = 0 ∧ s.dev.synced = true) ∧
    (let s := up [.obj .timeSlewMax 0 0 (.num 100), .tim fun t => { t with secs := 4, slew := 0 }]; let r := 1000 * s.dev.tim.incNow * s.dev.num .timeSlewMax / 1000000; s.Inv ∧ s.dev.answers = true ∧ (s.dev.tim.slew = 0 ∨ r < s.dev.tim.slew.natAbs)) ∧
    (let s := up [.obj .timeSlewMax 0 0 (.num 100), .tim fun t => { t with secs := 4, slew := ((1000 * 1099511627776 * 100 / 1000000) + 1) }]; let r := 1000 * s.dev.tim.incNow * s.dev.num .timeSlewMax / 1000000; s.Inv ∧ s.dev.answers = true ∧ (s.dev.tim.slew = 0 ∨ r < s.dev.tim.slew.natAbs)) ∧
    (let s := up [.obj .timeSlewMax 0 0 (.num 100), .tim fun t => { t with secs := 4, slew := (1000 * 1099511627776 * 100 / 1000000) }]; let r := 1000 * s.dev.tim.incNow * s.dev.num .timeSlewMax / 1000000; s.Inv ∧ s.dev.answers = true ∧ s.dev.tim.slew ≠ 0 ∧ s.dev.tim.slew.natAbs ≤ r) ∧
    (let s := up [.obj .timeSlewMax 0 0 (.num 100), .tim fun t => { t with secs := 4, slew := (-(1000 * 1099511627776 * 100 / 1000000)) }]; let r := 1000 * s.dev.tim.incNow * s.dev.num .timeSlewMax / 1000000; s.Inv ∧ s.dev.answers = true ∧ s.dev.tim.slew ≠ 0 ∧ s.dev.tim.slew.natAbs ≤ r) := by
  simp only [inv_iff]
  and_intros <;> decide +kernel

theorem meets_TimingMessages :
    (let s := State.reset; s.Inv ∧ s.dev.num .timeSource ≤ 1 ∧ s.dev.answers = false) ∧
    (let n : Fin 4 := 3; let carried : BitVec 51 := 9000; let b : List Byte := [2, 224] ++ beBytes 2 37 ++ beBytes 8 1000 ++ beBytes 6 5 ++ beBytes 4 999999999 ++ beBytes 2 7 ++ beBytes 4 100000 ++ beBytes 4 2147483648 ++ beBytes 2 6 ++ beBytes 2 0; let s := up [.obj .clkTimingChannel 0 0 (.num 3), .obj .clkTimingState 0 0 (.num 2), .obj .actState 3 0 (.num 4), .obj .actEqd 3 0 (.num 200), .obj .timeFrameTs 3 0 (.oct (beBytes 8 1005 ++ beBytes 6 6 ++ beBytes 4 5000 ++ beBytes 2 9)), .obj .timeStepThreshold 0 0 (.num 1000000000)]; let f := beAt b 4 8; let q := beAt b 24 4; let eqd := s.dev.num .actEqd n.val; s.Inv ∧ s.dev.num .timeSource ≤ 1 ∧ s.dev.answers = true ∧ ¬(b.length = 36 ∧ beAt b 0 1 = 1 ∧ beAt b 1 1 % 32 = 0 ∧ f < 2 ^ 51 ∧ beAt b 34 2 = 0 ∧ beAt b 18 4 ≤ 999999999 ∧
      s.dev.num .clkTimingChannel = n.val ∧ s.dev.num .timeSource ≠ 1 ∧ s.dev.num .clkTimingState = 2 ∧ s.dev.num .actState n.val = 4 ∧
      f ≤ carried.toNat ∧ carried.toNat ≤ f + 8000 ∧ 35000 * 10000000 + eqd * 390625 < q * 10000000)) ∧
    (let n : Fin 4 := 3; let carried : BitVec 51 := 9001; let b : List Byte := [1, 224] ++ beBytes 2 37 ++ beBytes 8 1000 ++ beBytes 6 5 ++ beBytes 4 999999999 ++ beBytes 2 7 ++ beBytes 4 100000 ++ beBytes 4 2147483648 ++ beBytes 2 6 ++ beBytes 2 0; let s := up [.obj .clkTimingChannel 0 0 (.num 3), .obj .clkTimingState 0 0 (.num 2), .obj .actState 3 0 (.num 4), .obj .actEqd 3 0 (.num 200), .obj .timeFrameTs 3 0 (.oct (beBytes 8 1005 ++ beBytes 6 6 ++ beBytes 4 5000 ++ beBytes 2 9)), .obj .timeStepThreshold 0 0 (.num 1000000000)]; let f := beAt b 4 8; let q := beAt b 24 4; let eqd := s.dev.num .actEqd n.val; s.Inv ∧ s.dev.num .timeSource ≤ 1 ∧ s.dev.answers = true ∧ ¬(b.length = 36 ∧ beAt b 0 1 = 1 ∧ beAt b 1 1 % 32 = 0 ∧ f < 2 ^ 51 ∧ beAt b 34 2 = 0 ∧ beAt b 18 4 ≤ 999999999 ∧
      s.dev.num .clkTimingChannel = n.val ∧ s.dev.num .timeSource ≠ 1 ∧ s.dev.num .clkTimingState = 2 ∧ s.dev.num .actState n.val = 4 ∧
      f ≤ carried.toNat ∧ carried.toNat ≤ f + 8000 ∧ 35000 * 10000000 + eqd * 390625 < q * 10000000)) ∧
    (let n : Fin 4 := 3; let carried : BitVec 51 := 999; let b : List Byte := [1, 224] ++ beBytes 2 37 ++ beBytes 8 1000 ++ beBytes 6 5 ++ beBytes 4 999999999 ++ beBytes 2 7 ++ beBytes 4 100000 ++ beBytes 4 2147483648 ++ beBytes 2 6 ++ beBytes 2 0; let s := up [.obj .clkTimingChannel 0 0 (.num 3), .obj .clkTimingState 0 0 (.num 2), .obj .actState 3 0 (.num 4), .obj .actEqd 3 0 (.num 200), .obj .timeFrameTs 3 0 (.oct (beBytes 8 1005 ++ beBytes 6 6 ++ beBytes 4 5000 ++ beBytes 2 9)), .obj .timeStepThreshold 0 0 (.num 1000000000)]; let f := beAt b 4 8; let q := beAt b 24 4; let eqd := s.dev.num .actEqd n.val; s.Inv ∧ s.dev.num .timeSource ≤ 1 ∧ s.dev.answers = true ∧ ¬(b.length = 36 ∧ beAt b 0 1 = 1 ∧ beAt b 1 1 % 32 = 0 ∧ f < 2 ^ 51 ∧ beAt b 34 2 = 0 ∧ beAt b 18 4 ≤ 999999999 ∧
      s.dev.num .clkTimingChannel = n.val ∧ s.dev.num .timeSource ≠ 1 ∧ s.dev.num .clkTimingState = 2 ∧ s.dev.num .actState n.val = 4 ∧
      f ≤ carried.toNat ∧ carried.toNat ≤ f + 8000 ∧ 35000 * 10000000 + eqd * 390625 < q * 10000000)) ∧
    (let n : Fin 4 := 3; let carried : BitVec 51 := 9000; let b : List Byte := [1, 224] ++ beBytes 2 37 ++ beBytes 8 1000 ++ beBytes 6 5 ++ beBytes 4 1000000000 ++ beBytes 2 7 ++ beBytes 4 100000 ++ beBytes 4 2147483648 ++ beBytes 2 6 ++ beBytes 2 0; let s := up [.obj .clkTimingChannel 0 0 (.num 3), .obj .clkTimingState 0 0 (.num 2), .obj .actState 3 0 (.num 4), .obj .actEqd 3 0 (.num 200), .obj .timeFrameTs 3 0 (.oct (beBytes 8 1005 ++ beBytes 6 6 ++ beBytes 4 5000 ++ beBytes 2 9)), .obj .timeStepThreshold 0 0 (.num 1000000000)]; let f := beAt b 4 8; let q := beAt b 24 4; let eqd := s.dev.num .actEqd n.val; s.Inv ∧ s.dev.num .timeSource ≤ 1 ∧ s.dev.answers = true ∧ ¬(b.length = 36 ∧ beAt b 0 1 = 1 ∧ beAt b 1 1 % 32 = 0 ∧ f < 2 ^ 51 ∧ beAt b 34 2 = 0 ∧ beAt b 18 4 ≤ 999999999 ∧
      s.dev.num .clkTimingChannel = n.val ∧ s.dev.num .timeSource ≠ 1 ∧ s.dev.num .clkTimingState = 2 ∧ s.dev.num .actState n.val = 4 ∧
      f ≤ carried.toNat ∧ carried.toNat ≤ f + 8000 ∧ 35000 * 10000000 + eqd * 390625 < q * 10000000)) ∧
    (let n : Fin 4 := 3; let carried : BitVec 51 := 9000; let b : List Byte := [1, 224] ++ beBytes 2 37 ++ beBytes 8 1000 ++ beBytes 6 5 ++ beBytes 4 999999999 ++ beBytes 2 7 ++ beBytes 4 35007 ++ beBytes 4 2147483648 ++ beBytes 2 6 ++ beBytes 2 0; let s := up [.obj .clkTimingChannel 0 0 (.num 3), .obj .clkTimingState 0 0 (.num 2), .obj .actState 3 0 (.num 4), .obj .actEqd 3 0 (.num 200), .obj .timeFrameTs 3 0 (.oct (beBytes 8 1005 ++ beBytes 6 6 ++ beBytes 4 5000 ++ beBytes 2 9)), .obj .timeStepThreshold 0 0 (.num 1000000000)]; let f := beAt b 4 8; let q := beAt b 24 4; let eqd := s.dev.num .actEqd n.val; s.Inv ∧ s.dev.num .timeSource ≤ 1 ∧ s.dev.answers = true ∧ ¬(b.length = 36 ∧ beAt b 0 1 = 1 ∧ beAt b 1 1 % 32 = 0 ∧ f < 2 ^ 51 ∧ beAt b 34 2 = 0 ∧ beAt b 18 4 ≤ 999999999 ∧
      s.dev.num .clkTimingChannel = n.val ∧ s.dev.num .timeSource ≠ 1 ∧ s.dev.num .clkTimingState = 2 ∧ s.dev.num .actState n.val = 4 ∧
      f ≤ carried.toNat ∧ carried.toNat ≤ f + 8000 ∧ 35000 * 10000000 + eqd * 390625 < q * 10000000)) ∧
    (let n : Fin 4 := 2; let carried : BitVec 51 := 9000; let b : List Byte := [1, 224] ++ beBytes 2 37 ++ beBytes 8 1000 ++ beBytes 6 5 ++ beBytes 4 999999999 ++ beBytes 2 7 ++ beBytes 4 100000 ++ beBytes 4 2147483648 ++ beBytes 2 6 ++ beBytes 2 0; let s := up [.obj .clkTimingChannel 0 0 (.num 3), .obj .clkTimingState 0 0 (.num 2), .obj .actState 3 0 (.num 4), .obj .actEqd 3 0 (.num 200), .obj .timeFrameTs 3 0 (.oct (beBytes 8 1005 ++ beBytes 6 6 ++ beBytes 4 5000 ++ beBytes 2 9)), .obj .timeStepThreshold 0 0 (.num 1000000000), .tim fun t => { t with lastEvt := [(439, 1)] }]; let f := beAt b 4 8; let q := beAt b 24 4; let eqd := s.dev.num .actEqd n.val; s.Inv ∧ s.dev.num .timeSource ≤ 1 ∧ s.dev.answers = true ∧ ¬(b.length = 36 ∧ beAt b 0 1 = 1 ∧ beAt b 1 1 % 32 = 0 ∧ f < 2 ^ 51 ∧ beAt b 34 2 = 0 ∧ beAt b 18 4 ≤ 999999999 ∧
      s.dev.num .clkTimingChannel = n.val ∧ s.dev.num .timeSource ≠ 1 ∧ s.dev.num .clkTimingState = 2 ∧ s.dev.num .actState n.val = 4 ∧
      f ≤ carried.toNat ∧ carried.toNat ≤ f + 8000 ∧ 35000 * 10000000 + eqd * 390625 < q * 10000000)) ∧
    (let n : Fin 4 := 3; let carried : BitVec 51 := 9000; let b : List Byte := [1, 224] ++ beBytes 2 37 ++ beBytes 8 1000 ++ beBytes 6 5 ++ beBytes 4 999999999 ++ beBytes 2 7 ++ beBytes 4 100000 ++ beBytes 4 2147483648 ++ beBytes 2 6 ++ beBytes 2 0; let s := up [.obj .clkTimingChannel 0 0 (.num 3), .obj .clkTimingState 0 0 (.num 2), .obj .actState 3 0 (.num 4), .obj .actEqd 3 0 (.num 200), .obj .timeFrameTs 3 0 (.oct (beBytes 8 1005 ++ beBytes 6 6 ++ beBytes 4 5000 ++ beBytes 2 9)), .obj .timeStepThreshold 0 0 (.num 1000000000)]; let f := beAt b 4 8; let q := beAt b 24 4; let eqd := s.dev.num .actEqd n.val; s.Inv ∧ s.dev.num .timeSource ≤ 1 ∧ s.dev.answers = true ∧ (b.length = 36 ∧ beAt b 0 1 = 1 ∧ beAt b 1 1 % 32 = 0 ∧ f < 2 ^ 51 ∧ beAt b 34 2 = 0 ∧ beAt b 18 4 ≤ 999999999 ∧
      s.dev.num .clkTimingChannel = n.val ∧ s.dev.num .timeSource ≠ 1 ∧ s.dev.num .clkTimingState = 2 ∧ s.dev.num .actState n.val = 4 ∧
      f ≤ carried.toNat ∧ carried.toNat ≤ f + 8000 ∧ 35000 * 10000000 + eqd * 390625 < q * 10000000)) := by
  simp only [inv_iff]
  and_intros <;> decide +kernel

theorem meets_TimingMessages_2 :
    (let n : Fin 4 := 3; let carried : BitVec 51 := 1000; let b : List Byte := [1, 192] ++ beBytes 2 37 ++ beBytes 8 1000 ++ beBytes 6 5 ++ beBytes 4 999999999 ++ beBytes 2 7 ++ beBytes 4 35008 ++ beBytes 4 2147483648 ++ beBytes 2 6 ++ beBytes 2 0; let s := up [.obj .clkTimingChannel 0 0 (.num 3), .obj .clkTimingState 0 0 (.num 2), .obj .actState 3 0 (.num 4), .obj .actEqd 3 0 (.num 200), .obj .timeFrameTs 3 0 (.oct (beBytes 8 1005 ++ beBytes 6 6 ++ beBytes 4 5000 ++ beBytes 2 9)), .obj .timeStepThreshold 0 0 (.num 1000000000), .obj .timeStatus 0 0 (.num 5), .obj .timeUtcOffset 0 0 (.num 3)]; let f := beAt b 4 8; let q := beAt b 24 4; let eqd := s.dev.num .actEqd n.val; s.Inv ∧ s.dev.num .timeSource ≤ 1 ∧ s.dev.answers = true ∧ (b.length = 36 ∧ beAt b 0 1 = 1 ∧ beAt b 1 1 % 32 = 0 ∧ f < 2 ^ 51 ∧ beAt b 34 2 = 0 ∧ beAt b 18 4 ≤ 999999999 ∧
      s.dev.num .clkTimingChannel = n.val ∧ s.dev.num .timeSource ≠ 1 ∧ s.dev.num .clkTimingState = 2 ∧ s.dev.num .actState n.val = 4 ∧
      f ≤ carried.toNat ∧ carried.toNat ≤ f + 8000 ∧ 35000 * 10000000 + eqd * 390625 < q * 10000000)) ∧
    (let n : Fin 4 := 3; let carried : BitVec 51 := 1000; let b : List Byte := [1, 224] ++ beBytes 2 37 ++ beBytes 8 1000 ++ beBytes 6 140737488355328 ++ beBytes 4 999999999 ++ beBytes 2 7 ++ beBytes 4 100000 ++ beBytes 4 2147483648 ++ beBytes 2 6 ++ beBytes 2 0; let s := up [.obj .clkTimingChannel 0 0 (.num 3), .obj .clkTimingState 0 0 (.num 2), .obj .actState 3 0 (.num 4), .obj .actEqd 3 0 (.num 200), .obj .timeFrameTs 3 0 (.oct (beBytes 8 1005 ++ beBytes 6 6 ++ beBytes 4 5000 ++ beBytes 2 9)), .obj .timeStepThreshold 0 0 (.num 1000000000), .obj .timeStatus 0 0 (.num 1)]; let f := beAt b 4 8; let q := beAt b 24 4; let eqd := s.dev.num .actEqd n.val; s.Inv ∧ s.dev.num .timeSource ≤ 1 ∧ s.dev.answers = true ∧ (b.length = 36 ∧ beAt b 0 1 = 1 ∧ beAt b 1 1 % 32 = 0 ∧ f < 2 ^ 51 ∧ beAt b 34 2 = 0 ∧ beAt b 18 4 ≤ 999999999 ∧
      s.dev.num .clkTimingChannel = n.val ∧ s.dev.num .timeSource ≠ 1 ∧ s.dev.num .clkTimingState = 2 ∧ s.dev.num .actState n.val = 4 ∧
      f ≤ carried.toNat ∧ carried.toNat ≤ f + 8000 ∧ 35000 * 10000000 + eqd * 390625 < q * 10000000)) := by
  simp only [inv_iff]
  and_intros <;> decide +kernel

theorem meets_StampsAndPulses :
    (let o := sec; let k : BitVec 8 := 0; let s := up []; let r := execReq o .timeTsRead 0 0 true (.num k.toNat); s.Inv ∧ s.dev.admits r ∧ (k.toNat = 0 ∨ 127 < k.toNat)) ∧
    (let o := sec; let k : BitVec 8 := 128; let s := up []; let r := execReq o .timeTsRead 0 0 true (.num k.toNat); s.Inv ∧ s.dev.admits r ∧ (k.toNat = 0 ∨ 127 < k.toNat)) ∧
    (let o := sec; let k : BitVec 8 := 127; let s := up [.tim fun t => { t with tsq := [] }]; let r := execReq o .timeTsRead 0 0 true (.num k.toNat); s.Inv ∧ s.dev.admits r ∧ 1 ≤ k.toNat ∧ k.toNat ≤ 127) ∧
    (let o := sec; let k : BitVec 8 := 1; let s := up [.tim fun t => { t with tsq := [List.replicate 32 4, List.replicate 32 5] }]; let r := execReq o .timeTsRead 0 0 true (.num k.toNat); s.Inv ∧ s.dev.admits r ∧ 1 ≤ k.toNat ∧ k.toNat ≤ 127) ∧
    (let o := sec; let k : BitVec 8 := 2; let s := up [.tim fun t => { t with tsq := [List.replicate 32 4, List.replicate 32 5] }]; let r := execReq o .timeTsRead 0 0 true (.num k.toNat); s.Inv ∧ s.dev.admits r ∧ 1 ≤ k.toNat ∧ k.toNat ≤ 127) ∧
    (let o := serial; let k : BitVec 8 := 60; let s := up [.tim fun t => { t with tsq := List.replicate 61 (List.replicate 32 4) }]; let r := execReq o .timeTsRead 0 0 true (.num k.toNat); s.Inv ∧ s.dev.admits r ∧ 1 ≤ k.toNat ∧ k.toNat ≤ 127) ∧
    (let i : Fin 4 := 3; let rising : Bool := false; let s := up [.tim fun t => { t with secs := 5, ns := 999999500 }, .obj .timeTpiCfg 0 3 (.num 1)]; s.Inv ∧ s.dev.answers = true ∧ bitOf (s.dev.num .timeTpiCfg 0 i.val) (if rising then 0 else 1) = false) ∧
    (let i : Fin 4 := 3; let rising : Bool := true; let off : Fin 1000 := 999; let s := up [.tim fun t => { t with secs := 5, ns := 999999500 }, .obj .timeTpiCfg 0 3 (.num 1), .tim fun t => { t with tpiLast := [(3, 5999999501)] }]; let w : TimeSt := s.dev.tim.setUnits (s.dev.tim.units + off.val * 2 ^ 40); let now := w.secs * 1000000000 + w.ns; let last := SMap.get 0 s.dev.tim.tpiLast i.val; s.Inv ∧ s.dev.answers = true ∧ bitOf (s.dev.num .timeTpiCfg 0 i.val) (if rising then 0 else 1) = true ∧ last ≠ 0 ∧ now < last - 1 + 1000) := by
  simp only [inv_iff, admits_iff]
  and_intros <;> decide +kernel

theorem meets_StampsAndPulses_2 :
    (let i : Fin 4 := 3; let rising : Bool := true; let off : Fin 1000 := 999; let s := up [.tim fun t => { t with secs := 5, ns := 999999500 }, .obj .timeTpiCfg 0 3 (.num 1), .tim fun t => { t with tpiLast := [(3, 5999999501)], lastEvt := [(440, 6)] }]; let w : TimeSt := s.dev.tim.setUnits (s.dev.tim.units + off.val * 2 ^ 40); let now := w.secs * 1000000000 + w.ns; let last := SMap.get 0 s.dev.tim.tpiLast i.val; s.Inv ∧ s.dev.answers = true ∧ bitOf (s.dev.num .timeTpiCfg 0 i.val) (if rising then 0 else 1) = true ∧ last ≠ 0 ∧ now < last - 1 + 1000) ∧
    (let i : Fin 4 := 3; let rising : Bool := true; let off : Fin 1000 := 999; let s := up [.tim fun t => { t with secs := 5, ns := 999999500 }, .obj .timeTpiCfg 0 3 (.num 1), .tim fun t => { t with tpiLast := [(3, 5999999500)] }]; let w : TimeSt := s.dev.tim.setUnits (s.dev.tim.units + off.val * 2 ^ 40); let now := w.secs * 1000000000 + w.ns; let last := SMap.get 0 s.dev.tim.tpiLast i.val; s.Inv ∧ s.dev.answers = true ∧ bitOf (s.dev.num .timeTpiCfg 0 i.val) (if rising then 0 else 1) = true ∧ (last = 0 ∨ last - 1 + 1000 ≤ now)) ∧
    (let i : Fin 4 := 3; let rising : Bool := true; let off : Fin 1000 := 999; let s := up [.tim fun t => { t with secs := 5, ns := 999999500 }, .obj .timeTpiCfg 0 3 (.num 1), .tim fun t => { t with tsq := [List.replicate 32 255, List.replicate 32 255] }]; let w : TimeSt := s.dev.tim.setUnits (s.dev.tim.units + off.val * 2 ^ 40); let now := w.secs * 1000000000 + w.ns; let last := SMap.get 0 s.dev.tim.tpiLast i.val; s.Inv ∧ s.dev.answers = true ∧ bitOf (s.dev.num .timeTpiCfg 0 i.val) (if rising then 0 else 1) = true ∧ (last = 0 ∨ last - 1 + 1000 ≤ now)) ∧
    (let i : Fin 4 := 3; let rising : Bool := true; let off : Fin 1000 := 999; let s := up [.tim fun t => { t with secs := 5, ns := 999999500 }, .obj .timeTpiCfg 0 3 (.num 1), .tim fun t => { t with tsq := List.replicate 4096 [] }]; let w : TimeSt := s.dev.tim.setUnits (s.dev.tim.units + off.val * 2 ^ 40); let now := w.secs * 1000000000 + w.ns; let last := SMap.get 0 s.dev.tim.tpiLast i.val; s.Inv ∧ s.dev.answers = true ∧ bitOf (s.dev.num .timeTpiCfg 0 i.val) (if rising then 0 else 1) = true ∧ (last = 0 ∨ last - 1 + 1000 ≤ now)) ∧
    (let o := sec; let i : Fin 16 := 15; let b : List Byte := [96] ++ beBytes 3 0 ++ beBytes 4 4000000000 ++ beBytes 4 3999999980 ++ beBytes 4 0 ++ beBytes 16 0; let s := up []; let mode := bitsOf (beAt b 0 1) 5 2; let per := beAt b 4 4; let wid := beAt b 8 4; let r := writeReq o .timeTpoCfg 0 i.val (.oct b); s.Inv ∧ b.length = 32 ∧ s.dev.admits r ∧ (mode = 3 ∨ beAt b 0 1 % 16 ≠ 0 ∨ beAt b 1 3 ≠ 0 ∨ beAt b 16 16 ≠ 0 ∨
        (mode = 2 ∧ (per < 100 ∨ 4000000000 < per ∨ wid < 20 ∨ per - 20 < wid)) ∨ (mode = 1 ∧ (wid < 20 ∨ 4000000000 < wid)))) ∧
    (let o := sec; let i : Fin 16 := 15; let b : List Byte := [65] ++ beBytes 3 0 ++ beBytes 4 4000000000 ++ beBytes 4 3999999980 ++ beBytes 4 0 ++ beBytes 16 0; let s := up []; let mode := bitsOf (beAt b 0 1) 5 2; let per := beAt b 4 4; let wid := beAt b 8 4; let r := writeReq o .timeTpoCfg 0 i.val (.oct b); s.Inv ∧ b.length = 32 ∧ s.dev.admits r ∧ (mode = 3 ∨ beAt b 0 1 % 16 ≠ 0 ∨ beAt b 1 3 ≠ 0 ∨ beAt b 16 16 ≠ 0 ∨
        (mode = 2 ∧ (per < 100 ∨ 4000000000 < per ∨ wid < 20 ∨ per - 20 < wid)) ∨ (mode = 1 ∧ (wid < 20 ∨ 4000000000 < wid)))) ∧
    (let o := sec; let i : Fin 16 := 15; let b : List Byte := [64] ++ beBytes 3 1 ++ beBytes 4 4000000000 ++ beBytes 4 3999999980 ++ beBytes 4 0 ++ beBytes 16 0; let s := up []; let mode := bitsOf (beAt b 0 1) 5 2; let per := beAt b 4 4; let wid := beAt b 8 4; let r := writeReq o .timeTpoCfg 0 i.val (.oct b); s.Inv ∧ b.length = 32 ∧ s.dev.admits r ∧ (mode = 3 ∨ beAt b 0 1 % 16 ≠ 0 ∨ beAt b 1 3 ≠ 0 ∨ beAt b 16 16 ≠ 0 ∨
        (mode = 2 ∧ (per < 100 ∨ 4000000000 < per ∨ wid < 20 ∨ per - 20 < wid)) ∨ (mode = 1 ∧ (wid < 20 ∨ 4000000000 < wid)))) ∧
    (let o := sec; let i : Fin 16 := 15; let b : List Byte := [64] ++ beBytes 3 0 ++ beBytes 4 4000000000 ++ beBytes 4 3999999980 ++ beBytes 4 0 ++ beBytes 16 1; let s := up []; let mode := bitsOf (beAt b 0 1) 5 2; let per := beAt b 4 4; let wid := beAt b 8 4; let r := writeReq o .timeTpoCfg 0 i.val (.oct b); s.Inv ∧ b.length = 32 ∧ s.dev.admits r ∧ (mode = 3 ∨ beAt b 0 1 % 16 ≠ 0 ∨ beAt b 1 3 ≠ 0 ∨ beAt b 16 16 ≠ 0 ∨
        (mode = 2 ∧ (per < 100 ∨ 4000000000 < per ∨ wid < 20 ∨ per - 20 < wid)) ∨ (mode = 1 ∧ (wid < 20 ∨ 4000000000 < wid)))) := by
  simp only [inv_iff, admits_iff]
  and_intros <;> decide +kernel

theorem meets_StampsAndPulses_3 :
    (let o := sec; let i : Fin 16 := 15; let b : List Byte := [64] ++ beBytes 3 0 ++ beBytes 4 99 ++ beBytes 4 20 ++ beBytes 4 0 ++ beBytes 16 0; let s := up []; let mode := bitsOf (beAt b 0 1) 5 2; let per := beAt b 4 4; let wid := beAt b 8 4; let r := writeReq o .timeTpoCfg 0 i.val (.oct b); s.Inv ∧ b.length = 32 ∧ s.dev.admits r ∧ (mode = 3 ∨ beAt b 0 1 % 16 ≠ 0 ∨ beAt b 1 3 ≠ 0 ∨ beAt b 16 16 ≠ 0 ∨
        (mode = 2 ∧ (per < 100 ∨ 4000000000 < per ∨ wid < 20 ∨ per - 20 < wid)) ∨ (mode = 1 ∧ (wid < 20 ∨ 4000000000 < wid)))) ∧
    (let o := sec; let i : Fin 16 := 15; let b : List Byte := [64] ++ beBytes 3 0 ++ beBytes 4 4000000000 ++ beBytes 4 3999999981 ++ beBytes 4 0 ++ beBytes 16 0; let s := up []; let mode := bitsOf (beAt b 0 1) 5 2; let per := beAt b 4 4; let wid := beAt b 8 4; let r := writeReq o .timeTpoCfg 0 i.val (.oct b); s.Inv ∧ b.length = 32 ∧ s.dev.admits r ∧ (mode = 3 ∨ beAt b 0 1 % 16 ≠ 0 ∨ beAt b 1 3 ≠ 0 ∨ beAt b 16 16 ≠ 0 ∨
        (mode = 2 ∧ (per < 100 ∨ 4000000000 < per ∨ wid < 20 ∨ per - 20 < wid)) ∨ (mode = 1 ∧ (wid < 20 ∨ 4000000000 < wid)))) ∧
    (let o := sec; let i : Fin 16 := 15; let b : List Byte := [32] ++ beBytes 3 0 ++ beBytes 4 4000000000 ++ beBytes 4 19 ++ beBytes 4 0 ++ beBytes 16 0; let s := up []; let mode := bitsOf (beAt b 0 1) 5 2; let per := beAt b 4 4; let wid := beAt b 8 4; let r := writeReq o .timeTpoCfg 0 i.val (.oct b); s.Inv ∧ b.length = 32 ∧ s.dev.admits r ∧ (mode = 3 ∨ beAt b 0 1 % 16 ≠ 0 ∨ beAt b 1 3 ≠ 0 ∨ beAt b 16 16 ≠ 0 ∨
        (mode = 2 ∧ (per < 100 ∨ 4000000000 < per ∨ wid < 20 ∨ per - 20 < wid)) ∨ (mode = 1 ∧ (wid < 20 ∨ 4000000000 < wid)))) ∧
    (let o := sec; let i : Fin 16 := 15; let b : List Byte := [32] ++ beBytes 3 0 ++ beBytes 4 4000000000 ++ beBytes 4 4000000001 ++ beBytes 4 0 ++ beBytes 16 0; let s := up []; let mode := bitsOf (beAt b 0 1) 5 2; let per := beAt b 4 4; let wid := beAt b 8 4; let r := writeReq o .timeTpoCfg 0 i.val (.oct b); s.Inv ∧ b.length = 32 ∧ s.dev.admits r ∧ (mode = 3 ∨ beAt b 0 1 % 16 ≠ 0 ∨ beAt b 1 3 ≠ 0 ∨ beAt b 16 16 ≠ 0 ∨
        (mode = 2 ∧ (per < 100 ∨ 4000000000 < per ∨ wid < 20 ∨ per - 20 < wid)) ∨ (mode = 1 ∧ (wid < 20 ∨ 4000000000 < wid)))) ∧
    (let o := sec; let i : Fin 16 := 15; let b : List Byte := [64] ++ beBytes 3 0 ++ beBytes 4 4000000000 ++ beBytes 4 3999999980 ++ beBytes 4 0 ++ beBytes 16 0; let s := up [.tim fun t => { t with trains := [(15, ⟨true, 0, 1, true, false⟩)] }]; let mode := bitsOf (beAt b 0 1) 5 2; let per := beAt b 4 4; let wid := beAt b 8 4; let r := writeReq o .timeTpoCfg 0 i.val (.oct b); s.Inv ∧ b.length = 32 ∧ s.dev.admits r ∧ mode ≠ 3 ∧ beAt b 0 1 % 16 = 0 ∧ beAt b 1 3 = 0 ∧ beAt b 16 16 = 0 ∧
      (mode = 2 → 100 ≤ per ∧ per ≤ 4000000000 ∧ 20 ≤ wid ∧ wid + 20 ≤ per) ∧ (mode = 1 → 20 ≤ wid ∧ wid ≤ 4000000000) ∧ (s.dev.train i.val).running = true) ∧
    (let o := sec; let i : Fin 16 := 15; let b : List Byte := [64] ++ beBytes 3 0 ++ beBytes 4 4000000000 ++ beBytes 4 3999999980 ++ beBytes 4 0 ++ beBytes 16 0; let s := up [.arm ⟨0, 7, 15, .now, 0x0400, true, [], [], 0⟩]; let mode := bitsOf (beAt b 0 1) 5 2; let per := beAt b 4 4; let wid := beAt b 8 4; let r := writeReq o .timeTpoCfg 0 i.val (.oct b); s.Inv ∧ b.length = 32 ∧ s.dev.admits r ∧ mode ≠ 3 ∧ beAt b 0 1 % 16 = 0 ∧ beAt b 1 3 = 0 ∧ beAt b 16 16 = 0 ∧
      (mode = 2 → 100 ≤ per ∧ per ≤ 4000000000 ∧ 20 ≤ wid ∧ wid + 20 ≤ per) ∧ (mode = 1 → 20 ≤ wid ∧ wid ≤ 4000000000) ∧ (s.dev.train i.val).running = false ∧ s.dev.pendingOn 7 i.val ≠ none) ∧
    (let o := sec; let i : Fin 16 := 15; let b : List Byte := [64] ++ beBytes 3 0 ++ beBytes 4 4000000000 ++ beBytes 4 3999999980 ++ beBytes 4 0 ++ beBytes 16 0; let s := up []; let mode := bitsOf (beAt b 0 1) 5 2; let per := beAt b 4 4; let wid := beAt b 8 4; let r := writeReq o .timeTpoCfg 0 i.val (.oct b); s.Inv ∧ b.length = 32 ∧ s.dev.admits r ∧ mode ≠ 3 ∧ beAt b 0 1 % 16 = 0 ∧ beAt b 1 3 = 0 ∧ beAt b 16 16 = 0 ∧
      (mode = 2 → 100 ≤ per ∧ per ≤ 4000000000 ∧ 20 ≤ wid ∧ wid + 20 ≤ per) ∧ (mode = 1 → 20 ≤ wid ∧ wid ≤ 4000000000) ∧ (s.dev.train i.val).running = false ∧ s.dev.pendingOn 7 i.val = none) ∧
    (let o := sec; let i : Fin 16 := 15; let b : List Byte := [64] ++ beBytes 3 0 ++ beBytes 4 100 ++ beBytes 4 80 ++ beBytes 4 0 ++ beBytes 16 0; let s := up []; let mode := bitsOf (beAt b 0 1) 5 2; let per := beAt b 4 4; let wid := beAt b 8 4; let r := writeReq o .timeTpoCfg 0 i.val (.oct b); s.Inv ∧ b.length = 32 ∧ s.dev.admits r ∧ mode ≠ 3 ∧ beAt b 0 1 % 16 = 0 ∧ beAt b 1 3 = 0 ∧ beAt b 16 16 = 0 ∧
      (mode = 2 → 100 ≤ per ∧ per ≤ 4000000000 ∧ 20 ≤ wid ∧ wid + 20 ≤ per) ∧ (mode = 1 → 20 ≤ wid ∧ wid ≤ 4000000000) ∧ (s.dev.train i.val).running = false ∧ s.dev.pendingOn 7 i.val = none) := by
  simp only [inv_iff, admits_iff]
  and_intros <;> decide +kernel

theorem meets_StampsAndPulses_4 :
    (let o := sec; let i : Fin 16 := 15; let b : List Byte := [32] ++ beBytes 3 0 ++ beBytes 4 0 ++ beBytes 4 20 ++ beBytes 4 0 ++ beBytes 16 0; let s := up []; let mode := bitsOf (beAt b 0 1) 5 2; let per := beAt b 4 4; let wid := beAt b 8 4; let r := writeReq o .timeTpoCfg 0 i.val (.oct b); s.Inv ∧ b.length = 32 ∧ s.dev.admits r ∧ mode ≠ 3 ∧ beAt b 0 1 % 16 = 0 ∧ beAt b 1 3 = 0 ∧ beAt b 16 16 = 0 ∧
      (mode = 2 → 100 ≤ per ∧ per ≤ 4000000000 ∧ 20 ≤ wid ∧ wid + 20 ≤ per) ∧ (mode = 1 → 20 ≤ wid ∧ wid ≤ 4000000000) ∧ (s.dev.train i.val).running = false ∧ s.dev.pendingOn 7 i.val = none) ∧
    (let o := sec; let i : Fin 16 := 15; let b : List Byte := [16] ++ beBytes 3 0 ++ beBytes 4 0 ++ beBytes 4 0 ++ beBytes 4 0 ++ beBytes 16 0; let s := up []; let mode := bitsOf (beAt b 0 1) 5 2; let per := beAt b 4 4; let wid := beAt b 8 4; let r := writeReq o .timeTpoCfg 0 i.val (.oct b); s.Inv ∧ b.length = 32 ∧ s.dev.admits r ∧ mode ≠ 3 ∧ beAt b 0 1 % 16 = 0 ∧ beAt b 1 3 = 0 ∧ beAt b 16 16 = 0 ∧
      (mode = 2 → 100 ≤ per ∧ per ≤ 4000000000 ∧ 20 ≤ wid ∧ wid + 20 ≤ per) ∧ (mode = 1 → 20 ≤ wid ∧ wid ≤ 4000000000) ∧ (s.dev.train i.val).running = false ∧ s.dev.pendingOn 7 i.val = none) ∧
    (let o := sec; let b : List Byte := [0, 16] ++ zeros 10; let i := beAt b 1 1; let s := up [.obj .timeTpoCfg 0 15 (.oct ([64] ++ beBytes 3 0 ++ beBytes 4 4000000000 ++ beBytes 4 3999999980 ++ beBytes 4 0 ++ beBytes 16 0))]; let r := execReq o .timeTpoStart 0 0 true (.oct b); s.Inv ∧ b.length = 12 ∧ s.dev.admits r ∧ (15 < i ∨ 2 < beAt b 0 1)) ∧
    (let o := sec; let b : List Byte := [3, 15] ++ zeros 10; let i := beAt b 1 1; let s := up [.obj .timeTpoCfg 0 15 (.oct ([64] ++ beBytes 3 0 ++ beBytes 4 4000000000 ++ beBytes 4 3999999980 ++ beBytes 4 0 ++ beBytes 16 0))]; let r := execReq o .timeTpoStart 0 0 true (.oct b); s.Inv ∧ b.length = 12 ∧ s.dev.admits r ∧ (15 < i ∨ 2 < beAt b 0 1)) ∧
    (let o := sec; let b : List Byte := [0, 15] ++ beBytes 10 1; let i := beAt b 1 1; let s := up [.obj .timeTpoCfg 0 15 (.oct ([64] ++ beBytes 3 0 ++ beBytes 4 4000000000 ++ beBytes 4 3999999980 ++ beBytes 4 0 ++ beBytes 16 0))]; let r := execReq o .timeTpoStart 0 0 true (.oct b); s.Inv ∧ b.length = 12 ∧ s.dev.admits r ∧ i ≤ 15 ∧ parseTrig (beAt b 0 1) (b.drop 2) = none) ∧
    (let o := sec; let b : List Byte := [1, 15] ++ beBytes 10 2251799813685248; let i := beAt b 1 1; let s := up [.obj .timeTpoCfg 0 15 (.oct ([64] ++ beBytes 3 0 ++ beBytes 4 4000000000 ++ beBytes 4 3999999980 ++ beBytes 4 0 ++ beBytes 16 0))]; let r := execReq o .timeTpoStart 0 0 true (.oct b); s.Inv ∧ b.length = 12 ∧ s.dev.admits r ∧ i ≤ 15 ∧ parseTrig (beAt b 0 1) (b.drop 2) = none) ∧
    (let o := sec; let b : List Byte := [2, 15] ++ (beBytes 6 9 ++ beBytes 4 1000000000); let i := beAt b 1 1; let s := up [.obj .timeTpoCfg 0 15 (.oct ([64] ++ beBytes 3 0 ++ beBytes 4 4000000000 ++ beBytes 4 3999999980 ++ beBytes 4 0 ++ beBytes 16 0))]; let r := execReq o .timeTpoStart 0 0 true (.oct b); s.Inv ∧ b.length = 12 ∧ s.dev.admits r ∧ i ≤ 15 ∧ parseTrig (beAt b 0 1) (b.drop 2) = none) ∧
    (let o := sec; let b : List Byte := [0, 16] ++ zeros 10; let i := beAt b 1 1; let s := up [.obj .timeTpoCfg 0 15 (.oct ([64] ++ beBytes 3 0 ++ beBytes 4 4000000000 ++ beBytes 4 3999999980 ++ beBytes 4 0 ++ beBytes 16 0))]; let r := execReq o .timeTpoStop 0 0 true (.oct b); s.Inv ∧ b.length = 12 ∧ s.dev.admits r ∧ (15 < i ∨ 2 < beAt b 0 1)) := by
  simp only [inv_iff, admits_iff]
  and_intros <;> decide +kernel

theorem meets_StampsAndPulses_5 :
    (let o := sec; let b : List Byte := [3, 15] ++ zeros 10; let i := beAt b 1 1; let s := up [.obj .timeTpoCfg 0 15 (.oct ([64] ++ beBytes 3 0 ++ beBytes 4 4000000000 ++ beBytes 4 3999999980 ++ beBytes 4 0 ++ beBytes 16 0))]; let r := execReq o .timeTpoStop 0 0 true (.oct b); s.Inv ∧ b.length = 12 ∧ s.dev.admits r ∧ (15 < i ∨ 2 < beAt b 0 1)) ∧
    (let o := sec; let b : List Byte := [0, 15] ++ beBytes 10 1; let i := beAt b 1 1; let s := up [.obj .timeTpoCfg 0 15 (.oct ([64] ++ beBytes 3 0 ++ beBytes 4 4000000000 ++ beBytes 4 3999999980 ++ beBytes 4 0 ++ beBytes 16 0))]; let r := execReq o .timeTpoStop 0 0 true (.oct b); s.Inv ∧ b.length = 12 ∧ s.dev.admits r ∧ i ≤ 15 ∧ parseTrig (beAt b 0 1) (b.drop 2) = none) ∧
    (let o := sec; let b : List Byte := [1, 15] ++ beBytes 10 2251799813685248; let i := beAt b 1 1; let s := up [.obj .timeTpoCfg 0 15 (.oct ([64] ++ beBytes 3 0 ++ beBytes 4 4000000000 ++ beBytes 4 3999999980 ++ beBytes 4 0 ++ beBytes 16 0))]; let r := execReq o .timeTpoStop 0 0 true (.oct b); s.Inv ∧ b.length = 12 ∧ s.dev.admits r ∧ i ≤ 15 ∧ parseTrig (beAt b 0 1) (b.drop 2) = none) ∧
    (let o := sec; let b : List Byte := [2, 15] ++ (beBytes 6 9 ++ beBytes 4 1000000000); let i := beAt b 1 1; let s := up [.obj .timeTpoCfg 0 15 (.oct ([64] ++ beBytes 3 0 ++ beBytes 4 4000000000 ++ beBytes 4 3999999980 ++ beBytes 4 0 ++ beBytes 16 0))]; let r := execReq o .timeTpoStop 0 0 true (.oct b); s.Inv ∧ b.length = 12 ∧ s.dev.admits r ∧ i ≤ 15 ∧ parseTrig (beAt b 0 1) (b.drop 2) = none) ∧
    (let o := sec; let b : List Byte := [1, 15] ++ beBytes 10 100; let i := beAt b 1 1; let s := up [.obj .timeTpoCfg 0 15 (.oct ([64] ++ beBytes 3 0 ++ beBytes 4 4000000000 ++ beBytes 4 3999999980 ++ beBytes 4 0 ++ beBytes 16 0)), .obj .frmAlignState 0 0 (.num 2), .obj .frmFrame 0 0 (.num 100), .tim fun t => { t with secs := 5 }]; let r := execReq o .timeTpoStart 0 0 true (.oct b); s.Inv ∧ b.length = 12 ∧ s.dev.admits r ∧ i ≤ 15 ∧ parseTrig (beAt b 0 1) (b.drop 2) = some (.frame 100) ∧ s.dev.trigAhead (s.dev.num .clkTimingChannel) (.frame 100) = false) ∧
    (let o := sec; let b : List Byte := [2, 15] ++ (beBytes 6 5 ++ beBytes 4 100); let i := beAt b 1 1; let s := up [.obj .timeTpoCfg 0 15 (.oct ([64] ++ beBytes 3 0 ++ beBytes 4 4000000000 ++ beBytes 4 3999999980 ++ beBytes 4 0 ++ beBytes 16 0)), .obj .frmAlignState 0 0 (.num 2), .obj .frmFrame 0 0 (.num 100), .tim fun t => { t with secs := 5 }]; let r := execReq o .timeTpoStart 0 0 true (.oct b); s.Inv ∧ b.length = 12 ∧ s.dev.admits r ∧ i ≤ 15 ∧ parseTrig (beAt b 0 1) (b.drop 2) = some (.time 5 100) ∧ s.dev.trigAhead (s.dev.num .clkTimingChannel) (.time 5 100) = false) ∧
    (let o := sec; let b : List Byte := [1, 15] ++ beBytes 10 9999; let i := beAt b 1 1; let s := up [.obj .frmAlignState 0 0 (.num 2), .obj .frmFrame 0 0 (.num 100), .tim fun t => { t with secs := 5 }]; let r := execReq o .timeTpoStart 0 0 true (.oct b); s.Inv ∧ b.length = 12 ∧ s.dev.admits r ∧ i ≤ 15 ∧ parseTrig (beAt b 0 1) (b.drop 2) = some (.frame 9999) ∧ s.dev.trigAhead (s.dev.num .clkTimingChannel) (.frame 9999) = true ∧ (bitsOf (beAt (s.dev.oct .timeTpoCfg 0 i) 0 1) 5 2 = 0 ∨ (s.dev.train i).running = true)) ∧
    (let o := sec; let b : List Byte := [1, 15] ++ beBytes 10 9999; let i := beAt b 1 1; let s := up [.obj .frmAlignState 0 0 (.num 2), .obj .frmFrame 0 0 (.num 100), .tim fun t => { t with secs := 5 }, .obj .timeTpoCfg 0 15 (.oct ([64] ++ beBytes 3 0 ++ beBytes 4 4000000000 ++ beBytes 4 3999999980 ++ beBytes 4 0 ++ beBytes 16 0)), .arm ⟨0, 7, 15, .now, 0x0400, true, [], [], 0⟩]; let target := i; let r := execReq o .timeTpoStart 0 0 true (.oct b); s.Inv ∧ b.length = 12 ∧ s.dev.admits r ∧ i ≤ 15 ∧ parseTrig (beAt b 0 1) (b.drop 2) = some (.frame 9999) ∧ s.dev.trigAhead (s.dev.num .clkTimingChannel) (.frame 9999) = true ∧ ¬(bitsOf (beAt (s.dev.oct .timeTpoCfg 0 i) 0 1) 5 2 = 0 ∨ (s.dev.train i).running = true) ∧ s.dev.pendingOn 7 target ≠ none) := by
  simp only [inv_iff, admits_iff]
  and_intros <;> decide +kernel

theorem meets_StampsAndPulses_6 :
    (let o := sec; let b : List Byte := [1, 15] ++ beBytes 10 9999; let i := beAt b 1 1; let s := up [.obj .timeTpoCfg 0 15 (.oct ([64] ++ beBytes 3 0 ++ beBytes 4 4000000000 ++ beBytes 4 3999999980 ++ beBytes 4 0 ++ beBytes 16 0))]; let target := i; let r := execReq o .timeTpoStart 0 0 true (.oct b); s.Inv ∧ b.length = 12 ∧ s.dev.admits r ∧ i ≤ 15 ∧ parseTrig (beAt b 0 1) (b.drop 2) = some (.frame 9999) ∧ s.dev.trigAhead (s.dev.num .clkTimingChannel) (.frame 9999) = true ∧ ¬(bitsOf (beAt (s.dev.oct .timeTpoCfg 0 i) 0 1) 5 2 = 0 ∨ (s.dev.train i).running = true) ∧ s.dev.pendingOn 7 target = none ∧ s.dev.trigUnaligned (s.dev.num .clkTimingChannel) (.frame 9999) = true) ∧
    (let o := sec; let b : List Byte := [0, 15] ++ zeros 10; let i := beAt b 1 1; let s := up [.obj .frmAlignState 0 0 (.num 2), .obj .frmFrame 0 0 (.num 100), .tim fun t => { t with secs := 5 }, .obj .timeTpoCfg 0 15 (.oct ([64] ++ beBytes 3 0 ++ beBytes 4 4000000000 ++ beBytes 4 3999999980 ++ beBytes 4 0 ++ beBytes 16 0))]; let target := i; let r := execReq o .timeTpoStart 0 0 true (.oct b); s.Inv ∧ b.length = 12 ∧ s.dev.admits r ∧ i ≤ 15 ∧ parseTrig (beAt b 0 1) (b.drop 2) = some .now ∧ s.dev.trigAhead (s.dev.num .clkTimingChannel) .now = true ∧ ¬(bitsOf (beAt (s.dev.oct .timeTpoCfg 0 i) 0 1) 5 2 = 0 ∨ (s.dev.train i).running = true) ∧ s.dev.pendingOn 7 target = none ∧ s.dev.trigUnaligned (s.dev.num .clkTimingChannel) .now = false ∧ s.dev.acts.length < 256) ∧
    (let o := sec; let b : List Byte := [1, 15] ++ beBytes 10 9999; let i := beAt b 1 1; let s := up [.obj .frmAlignState 0 0 (.num 2), .obj .frmFrame 0 0 (.num 100), .tim fun t => { t with secs := 5 }, .obj .timeTpoCfg 0 15 (.oct ([64] ++ beBytes 3 0 ++ beBytes 4 4000000000 ++ beBytes 4 3999999980 ++ beBytes 4 0 ++ beBytes 16 0))]; let target := i; let r := execReq o .timeTpoStart 0 0 true (.oct b); s.Inv ∧ b.length = 12 ∧ s.dev.admits r ∧ i ≤ 15 ∧ parseTrig (beAt b 0 1) (b.drop 2) = some (.frame 9999) ∧ s.dev.trigAhead (s.dev.num .clkTimingChannel) (.frame 9999) = true ∧ ¬(bitsOf (beAt (s.dev.oct .timeTpoCfg 0 i) 0 1) 5 2 = 0 ∨ (s.dev.train i).running = true) ∧ s.dev.pendingOn 7 target = none ∧ s.dev.trigUnaligned (s.dev.num .clkTimingChannel) (.frame 9999) = false ∧ s.dev.acts.length < 256) ∧
    (let o := sec; let b : List Byte := [2, 15] ++ (beBytes 6 281474976710655 ++ beBytes 4 999999999); let i := beAt b 1 1; let s := up [.obj .frmAlignState 0 0 (.num 2), .obj .frmFrame 0 0 (.num 100), .tim fun t => { t with secs := 5 }, .obj .timeTpoCfg 0 15 (.oct ([64] ++ beBytes 3 0 ++ beBytes 4 4000000000 ++ beBytes 4 3999999980 ++ beBytes 4 0 ++ beBytes 16 0))]; let target := i; let r := execReq o .timeTpoStart 0 0 true (.oct b); s.Inv ∧ b.length = 12 ∧ s.dev.admits r ∧ i ≤ 15 ∧ parseTrig (beAt b 0 1) (b.drop 2) = some (.time (2 ^ 48 - 1) 999999999) ∧ s.dev.trigAhead (s.dev.num .clkTimingChannel) (.time (2 ^ 48 - 1) 999999999) = true ∧ ¬(bitsOf (beAt (s.dev.oct .timeTpoCfg 0 i) 0 1) 5 2 = 0 ∨ (s.dev.train i).running = true) ∧ s.dev.pendingOn 7 target = none ∧ s.dev.trigUnaligned (s.dev.num .clkTimingChannel) (.time (2 ^ 48 - 1) 999999999) = false ∧ s.dev.acts.length < 256) ∧
    (let o := sec; let b : List Byte := [1, 15] ++ beBytes 10 100; let i := beAt b 1 1; let s := up [.obj .timeTpoCfg 0 15 (.oct ([64] ++ beBytes 3 0 ++ beBytes 4 4000000000 ++ beBytes 4 3999999980 ++ beBytes 4 0 ++ beBytes 16 0)), .obj .frmAlignState 0 0 (.num 2), .obj .frmFrame 0 0 (.num 100), .tim fun t => { t with secs := 5 }]; let r := execReq o .timeTpoStop 0 0 true (.oct b); s.Inv ∧ b.length = 12 ∧ s.dev.admits r ∧ i ≤ 15 ∧ parseTrig (beAt b 0 1) (b.drop 2) = some (.frame 100) ∧ s.dev.trigAhead (s.dev.num .clkTimingChannel) (.frame 100) = false) ∧
    (let o := sec; let b : List Byte := [2, 15] ++ (beBytes 6 5 ++ beBytes 4 100); let i := beAt b 1 1; let s := up [.obj .timeTpoCfg 0 15 (.oct ([64] ++ beBytes 3 0 ++ beBytes 4 4000000000 ++ beBytes 4 3999999980 ++ beBytes 4 0 ++ beBytes 16 0)), .obj .frmAlignState 0 0 (.num 2), .obj .frmFrame 0 0 (.num 100), .tim fun t => { t with secs := 5 }]; let r := execReq o .timeTpoStop 0 0 true (.oct b); s.Inv ∧ b.length = 12 ∧ s.dev.admits r ∧ i ≤ 15 ∧ parseTrig (beAt b 0 1) (b.drop 2) = some (.time 5 100) ∧ s.dev.trigAhead (s.dev.num .clkTimingChannel) (.time 5 100) = false) ∧
    (let o := sec; let b : List Byte := [1, 15] ++ beBytes 10 9999; let i := beAt b 1 1; let s := up [.obj .frmAlignState 0 0 (.num 2), .obj .frmFrame 0 0 (.num 100), .tim fun t => { t with secs := 5 }]; let r := execReq o .timeTpoStop 0 0 true (.oct b); s.Inv ∧ b.length = 12 ∧ s.dev.admits r ∧ i ≤ 15 ∧ parseTrig (beAt b 0 1) (b.drop 2) = some (.frame 9999) ∧ s.dev.trigAhead (s.dev.num .clkTimingChannel) (.frame 9999) = true ∧ ((s.dev.train i).running = false ∧ s.dev.pendingOn 7 i = none)) ∧
    (let o := sec; let b : List Byte := [1, 15] ++ beBytes 10 9999; let i := beAt b 1 1; let s := up [.obj .frmAlignState 0 0 (.num 2), .obj .frmFrame 0 0 (.num 100), .tim fun t => { t with secs := 5 }, .tim fun t => { t with trains := [(15, ⟨true, 0, 1, true, false⟩)] }, .arm ⟨0, 7, 256 + 15, .now, 0x0400, true, [], [], 0⟩]; let target := 256 + i; let r := execReq o .timeTpoStop 0 0 true (.oct b); s.Inv ∧ b.length = 12 ∧ s.dev.admits r ∧ i ≤ 15 ∧ parseTrig (beAt b 0 1) (b.drop 2) = some (.frame 9999) ∧ s.dev.trigAhead (s.dev.num .clkTimingChannel) (.frame 9999) = true ∧ ¬((s.dev.train i).running = false ∧ s.dev.pendingOn 7 i = none) ∧ s.dev.pendingOn 7 target ≠ none) := by
  simp only [inv_iff, admits_iff]
  and_intros <;> decide +kernel

theorem meets_StampsAndPulses_7 :
    (let o := sec; let b : List Byte := [1, 15] ++ beBytes 10 9999; let i := beAt b 1 1; let s := up [.tim fun t => { t with trains := [(15, ⟨true, 0, 1, true, false⟩)] }]; let target := 256 + i; let r := execReq o .timeTpoStop 0 0 true (.oct b); s.Inv ∧ b.length = 12 ∧ s.dev.admits r ∧ i ≤ 15 ∧ parseTrig (beAt b 0 1) (b.drop 2) = some (.frame 9999) ∧ s.dev.trigAhead (s.dev.num .clkTimingChannel) (.frame 9999) = true ∧ ¬((s.dev.train i).running = false ∧ s.dev.pendingOn 7 i = none) ∧ s.dev.pendingOn 7 target = none ∧ s.dev.trigUnaligned (s.dev.num .clkTimingChannel) (.frame 9999) = true) ∧
    (let o := sec; let b : List Byte := [0, 15] ++ zeros 10; let i := beAt b 1 1; let s := up [.obj .frmAlignState 0 0 (.num 2), .obj .frmFrame 0 0 (.num 100), .tim fun t => { t with secs := 5 }, .tim fun t => { t with trains := [(15, ⟨true, 0, 1, true, false⟩)] }]; let target := 256 + i; let r := execReq o .timeTpoStop 0 0 true (.oct b); s.Inv ∧ b.length = 12 ∧ s.dev.admits r ∧ i ≤ 15 ∧ parseTrig (beAt b 0 1) (b.drop 2) = some .now ∧ s.dev.trigAhead (s.dev.num .clkTimingChannel) .now = true ∧ ¬((s.dev.train i).running = false ∧ s.dev.pendingOn 7 i = none) ∧ s.dev.pendingOn 7 target = none ∧ s.dev.trigUnaligned (s.dev.num .clkTimingChannel) .now = false ∧ s.dev.acts.length < 256) ∧
    (let o := sec; let b : List Byte := [1, 15] ++ beBytes 10 9999; let i := beAt b 1 1; let s := up [.obj .frmAlignState 0 0 (.num 2), .obj .frmFrame 0 0 (.num 100), .tim fun t => { t with secs := 5 }, .tim fun t => { t with trains := [(15, ⟨true, 0, 1, true, false⟩)] }]; let target := 256 + i; let r := execReq o .timeTpoStop 0 0 true (.oct b); s.Inv ∧ b.length = 12 ∧ s.dev.admits r ∧ i ≤ 15 ∧ parseTrig (beAt b 0 1) (b.drop 2) = some (.frame 9999) ∧ s.dev.trigAhead (s.dev.num .clkTimingChannel) (.frame 9999) = true ∧ ¬((s.dev.train i).running = false ∧ s.dev.pendingOn 7 i = none) ∧ s.dev.pendingOn 7 target = none ∧ s.dev.trigUnaligned (s.dev.num .clkTimingChannel) (.frame 9999) = false ∧ s.dev.acts.length < 256) ∧
    (let o := sec; let b : List Byte := [2, 15] ++ (beBytes 6 281474976710655 ++ beBytes 4 999999999); let i := beAt b 1 1; let s := up [.obj .frmAlignState 0 0 (.num 2), .obj .frmFrame 0 0 (.num 100), .tim fun t => { t with secs := 5 }, .tim fun t => { t with trains := [(15, ⟨true, 0, 1, true, false⟩)] }]; let target := 256 + i; let r := execReq o .timeTpoStop 0 0 true (.oct b); s.Inv ∧ b.length = 12 ∧ s.dev.admits r ∧ i ≤ 15 ∧ parseTrig (beAt b 0 1) (b.drop 2) = some (.time (2 ^ 48 - 1) 999999999) ∧ s.dev.trigAhead (s.dev.num .clkTimingChannel) (.time (2 ^ 48 - 1) 999999999) = true ∧ ¬((s.dev.train i).running = false ∧ s.dev.pendingOn 7 i = none) ∧ s.dev.pendingOn 7 target = none ∧ s.dev.trigUnaligned (s.dev.num .clkTimingChannel) (.time (2 ^ 48 - 1) 999999999) = false ∧ s.dev.acts.length < 256) ∧
    (let i : Fin 16 := 15; let s := up []; s.Inv ∧ s.dev.answers = true ∧ s.dev.pendingOn 7 i.val = none ∧ s.dev.pendingOn 7 (256 + i.val) = none) ∧
    (let i : Fin 16 := 15; let off : Fin 1000 := 500; let s := up [.tim fun t => { t with secs := 5, ns := 1000, ticks := 9 }, .arm ⟨0, 7, 15, .time 5 1509, 0x0400, true, [], [], 0⟩, .tim fun t => { t with ticks := t.ticks + 1 }]; let a : Action := s.dev.acts.headD ⟨0, 0, 0, .now, 0, true, [], [], 0⟩; s.Inv ∧ s.dev.answers = true ∧ s.dev.pendingOn 7 i.val = some a ∧ s.dev.pulseDue a off.val = false) ∧
    (let i : Fin 16 := 15; let off : Fin 1000 := 500; let s := up [.tim fun t => { t with secs := 5, ns := 1000, ticks := 9 }, .arm ⟨0, 7, 256 + 15, .time 5 1509, 0x0400, true, [], [], 0⟩, .tim fun t => { t with ticks := t.ticks + 1 }, .tim fun t => { t with trains := [(15, ⟨true, 0, 1, true, false⟩)] }]; let a : Action := s.dev.acts.headD ⟨0, 0, 0, .now, 0, true, [], [], 0⟩; s.Inv ∧ s.dev.answers = true ∧ s.dev.pendingOn 7 (256 + i.val) = some a ∧ s.dev.pulseDue a off.val = false) ∧
    (let i : Fin 16 := 15; let off : Fin 1000 := 500; let s := up [.tim fun t => { t with secs := 5, ns := 1000, ticks := 9 }, .arm ⟨0, 7, 256 + 15, .time 5 1509, 0x0400, true, [], [], 0⟩, .tim fun t => { t with ticks := t.ticks + 1 }, .tim fun t => { t with trains := [(15, ⟨true, 0, 1, false, false⟩)] }]; let a : Action := s.dev.acts.headD ⟨0, 0, 0, .now, 0, true, [], [], 0⟩; s.Inv ∧ s.dev.answers = true ∧ s.dev.pendingOn 7 (256 + i.val) = some a ∧ s.dev.pulseDue a off.val = false) := by
  simp only [inv_iff, admits_iff]
  and_intros <;> decide +kernel

theorem meets_StampsAndPulses_8 :
    (let i : Fin 16 := 15; let off : Fin 1000 := 500; let s := up [.tim fun t => { t with secs := 5, ns := 1000, ticks := 9 }, .arm ⟨0, 7, 256 + 15, .time 5 1509, 0x0400, true, [], [], 0⟩, .tim fun t => { t with ticks := t.ticks + 1 }]; let a : Action := s.dev.acts.headD ⟨0, 0, 0, .now, 0, true, [], [], 0⟩; s.Inv ∧ s.dev.answers = true ∧ s.dev.pendingOn 7 (256 + i.val) = some a ∧ s.dev.pulseDue a off.val = false) ∧
    (let i : Fin 16 := 15; let off : Fin 1000 := 500; let s := up [.tim fun t => { t with secs := 5, ns := 1000, ticks := 9 }, .arm ⟨0, 7, 15, .time 5 1508, 0x0400, true, [], [], 0⟩, .tim fun t => { t with ticks := t.ticks + 1 }]; let a : Action := s.dev.acts.headD ⟨0, 0, 0, .now, 0, true, [], [], 0⟩; s.Inv ∧ s.dev.answers = true ∧ s.dev.pendingOn 7 i.val = some a ∧ s.dev.pulseDue a off.val = true) ∧
    (let i : Fin 16 := 15; let off : Fin 1000 := 500; let s := up [.tim fun t => { t with secs := 5, ns := 1000, ticks := 9 }, .arm ⟨0, 7, 256 + 15, .time 5 1508, 0x0400, true, [], [], 0⟩, .tim fun t => { t with ticks := t.ticks + 1 }, .tim fun t => { t with trains := [(15, ⟨true, 0, 1, true, false⟩)] }]; let a : Action := s.dev.acts.headD ⟨0, 0, 0, .now, 0, true, [], [], 0⟩; s.Inv ∧ s.dev.answers = true ∧ s.dev.pendingOn 7 (256 + i.val) = some a ∧ s.dev.pulseDue a off.val = true) ∧
    (let i : Fin 16 := 15; let off : Fin 1000 := 500; let s := up [.tim fun t => { t with secs := 5, ns := 1000, ticks := 9 }, .arm ⟨0, 7, 256 + 15, .time 5 1508, 0x0400, true, [], [], 0⟩, .tim fun t => { t with ticks := t.ticks + 1 }, .tim fun t => { t with trains := [(15, ⟨true, 0, 1, false, false⟩)] }]; let a : Action := s.dev.acts.headD ⟨0, 0, 0, .now, 0, true, [], [], 0⟩; s.Inv ∧ s.dev.answers = true ∧ s.dev.pendingOn 7 (256 + i.val) = some a ∧ s.dev.pulseDue a off.val = true) ∧
    (let i : Fin 16 := 15; let off : Fin 1000 := 500; let s := up [.tim fun t => { t with secs := 5, ns := 1000, ticks := 9 }, .arm ⟨0, 7, 256 + 15, .time 5 1508, 0x0400, true, [], [], 0⟩, .tim fun t => { t with ticks := t.ticks + 1 }]; let a : Action := s.dev.acts.headD ⟨0, 0, 0, .now, 0, true, [], [], 0⟩; s.Inv ∧ s.dev.answers = true ∧ s.dev.pendingOn 7 (256 + i.val) = some a ∧ s.dev.pulseDue a off.val = true) ∧
    (let i : Fin 16 := 15; let off : Fin 1000 := 500; let s := up [.tim fun t => { t with secs := 5, ns := 1000, ticks := 9 }, .arm ⟨0, 7, 15, .time 4 0, 0x0400, true, [], [], 0⟩, .tim fun t => { t with ticks := t.ticks + 1 }]; let a : Action := s.dev.acts.headD ⟨0, 0, 0, .now, 0, true, [], [], 0⟩; s.Inv ∧ s.dev.answers = true ∧ s.dev.pendingOn 7 i.val = some a ∧ s.dev.pulseDue a off.val = true) ∧
    (let i : Fin 16 := 15; let off : Fin 1000 := 500; let s := up [.tim fun t => { t with secs := 5, ns := 1000, ticks := 9 }, .arm ⟨0, 7, 256 + 15, .time 4 0, 0x0400, true, [], [], 0⟩, .tim fun t => { t with ticks := t.ticks + 1 }, .tim fun t => { t with trains := [(15, ⟨true, 0, 1, true, false⟩)] }]; let a : Action := s.dev.acts.headD ⟨0, 0, 0, .now, 0, true, [], [], 0⟩; s.Inv ∧ s.dev.answers = true ∧ s.dev.pendingOn 7 (256 + i.val) = some a ∧ s.dev.pulseDue a off.val = true) ∧
    (let i : Fin 16 := 15; let off : Fin 1000 := 500; let s := up [.tim fun t => { t with secs := 5, ns := 1000, ticks := 9 }, .arm ⟨0, 7, 256 + 15, .time 4 0, 0x0400, true, [], [], 0⟩, .tim fun t => { t with ticks := t.ticks + 1 }, .tim fun t => { t with trains := [(15, ⟨true, 0, 1, false, false⟩)] }]; let a : Action := s.dev.acts.headD ⟨0, 0, 0, .now, 0, true, [], [], 0⟩; s.Inv ∧ s.dev.answers = true ∧ s.dev.pendingOn 7 (256 + i.val) = some a ∧ s.dev.pulseDue a off.val = true) := by
  simp only [inv_iff]
  and_intros <;> decide +kernel

theorem meets_StampsAndPulses_9 :
    (let i : Fin 16 := 15; let off : Fin 1000 := 500; let s := up [.tim fun t => { t with secs := 5, ns := 1000, ticks := 9 }, .arm ⟨0, 7, 256 + 15, .time 4 0, 0x0400, true, [], [], 0⟩, .tim fun t => { t with ticks := t.ticks + 1 }]; let a : Action := s.dev.acts.headD ⟨0, 0, 0, .now, 0, true, [], [], 0⟩; s.Inv ∧ s.dev.answers = true ∧ s.dev.pendingOn 7 (256 + i.val) = some a ∧ s.dev.pulseDue a off.val = true) ∧
    (let i : Fin 16 := 15; let off : Fin 1000 := 500; let s := up [.tim fun t => { t with secs := 5, ns := 1000, ticks := 9 }, .arm ⟨0, 7, 15, .now, 0x0400, true, [], [], 0⟩, .tim fun t => { t with ticks := t.ticks + 1 }]; let a : Action := s.dev.acts.headD ⟨0, 0, 0, .now, 0, true, [], [], 0⟩; s.Inv ∧ s.dev.answers = true ∧ s.dev.pendingOn 7 i.val = some a ∧ s.dev.pulseDue a off.val = true) ∧
    (let i : Fin 16 := 15; let off : Fin 1000 := 500; let s := up [.tim fun t => { t with secs := 5, ns := 1000, ticks := 9 }, .arm ⟨0, 7, 256 + 15, .now, 0x0400, true, [], [], 0⟩, .tim fun t => { t with ticks := t.ticks + 1 }, .tim fun t => { t with trains := [(15, ⟨true, 0, 1, true, false⟩)] }]; let a : Action := s.dev.acts.headD ⟨0, 0, 0, .now, 0, true, [], [], 0⟩; s.Inv ∧ s.dev.answers = true ∧ s.dev.pendingOn 7 (256 + i.val) = some a ∧ s.dev.pulseDue a off.val = true) ∧
    (let i : Fin 16 := 15; let off : Fin 1000 := 500; let s := up [.tim fun t => { t with secs := 5, ns := 1000, ticks := 9 }, .arm ⟨0, 7, 256 + 15, .now, 0x0400, true, [], [], 0⟩, .tim fun t => { t with ticks := t.ticks + 1 }, .tim fun t => { t with trains := [(15, ⟨true, 0, 1, false, false⟩)] }]; let a : Action := s.dev.acts.headD ⟨0, 0, 0, .now, 0, true, [], [], 0⟩; s.Inv ∧ s.dev.answers = true ∧ s.dev.pendingOn 7 (256 + i.val) = some a ∧ s.dev.pulseDue a off.val = true) ∧
    (let i : Fin 16 := 15; let off : Fin 1000 := 500; let s := up [.tim fun t => { t with secs := 5, ns := 1000, ticks := 9 }, .arm ⟨0, 7, 256 + 15, .now, 0x0400, true, [], [], 0⟩, .tim fun t => { t with ticks := t.ticks + 1 }]; let a : Action := s.dev.acts.headD ⟨0, 0, 0, .now, 0, true, [], [], 0⟩; s.Inv ∧ s.dev.answers = true ∧ s.dev.pendingOn 7 (256 + i.val) = some a ∧ s.dev.pulseDue a off.val = true) ∧
    (let i : Fin 16 := 15; let off : Fin 1000 := 500; let s := up [.tim fun t => { t with secs := 5, ns := 1000, ticks := 9 }, .obj .timeTpoCfg 0 15 (.oct (zeros 32))]; let t : PulseTrain := s.dev.train i.val; s.Inv ∧ s.dev.answers = true ∧ (t.running = false ∨ s.dev.unitsAt off.val + 8 * 2 ^ 40 < s.dev.nextEdge i.val)) ∧
    (let i : Fin 16 := 15; let off : Fin 1000 := 500; let s := up [.tim fun t => { t with secs := 5, ns := 1000, ticks := 9 }, .obj .timeTpoCfg 0 15 (.oct ([64] ++ beBytes 3 0 ++ beBytes 4 100 ++ beBytes 4 20 ++ beBytes 4 0 ++ beBytes 16 0)), .tim fun t => { t with trains := [(15, ⟨true, (5000001508 - 99) * 2 ^ 40, 1, false, false⟩)] }]; let t : PulseTrain := s.dev.train i.val; s.Inv ∧ s.dev.answers = true ∧ (t.running = false ∨ s.dev.unitsAt off.val + 8 * 2 ^ 40 < s.dev.nextEdge i.val)) ∧
    (let i : Fin 16 := 15; let off : Fin 1000 := 500; let s := up [.tim fun t => { t with secs := 5, ns := 1000, ticks := 9 }, .obj .timeTpoCfg 0 15 (.oct ([64] ++ beBytes 3 0 ++ beBytes 4 100 ++ beBytes 4 20 ++ beBytes 4 0 ++ beBytes 16 0)), .tim fun t => { t with trains := [(15, ⟨true, (5000001508 - 100) * 2 ^ 40, 1, false, false⟩)] }]; let t : PulseTrain := s.dev.train i.val; s.Inv ∧ s.dev.answers = true ∧ t.running = true ∧ s.dev.nextEdge i.val ≤ s.dev.unitsAt off.val + 8 * 2 ^ 40 ∧ t.high = false) := by
  simp only [inv_iff]
  and_intros <;> decide +kernel

theorem meets_StampsAndPulses_10 :
    (let i : Fin 16 := 15; let off : Fin 1000 := 500; let s := up [.tim fun t => { t with secs := 5, ns := 1000, ticks := 9 }, .obj .timeTpoCfg 0 15 (.oct ([64] ++ beBytes 3 0 ++ beBytes 4 100 ++ beBytes 4 20 ++ beBytes 4 0 ++ beBytes 16 0)), .tim fun t => { t with trains := [(15, ⟨true, (5000001508 - 20) * 2 ^ 40, 1, true, true⟩)] }]; let t : PulseTrain := s.dev.train i.val; let b : List Byte := s.dev.oct .timeTpoCfg 0 i.val; s.Inv ∧ s.dev.answers = true ∧ t.running = true ∧ s.dev.nextEdge i.val ≤ s.dev.unitsAt off.val + 8 * 2 ^ 40 ∧ t.high = true ∧ (t.stopping = true ∨ bitsOf (beAt b 0 1) 5 2 = 1 ∨ (beAt b 12 4 ≠ 0 ∧ beAt b 12 4 ≤ t.begun))) ∧
    (let i : Fin 16 := 15; let off : Fin 1000 := 500; let s := up [.tim fun t => { t with secs := 5, ns := 1000, ticks := 9 }, .obj .timeTpoCfg 0 15 (.oct ([32] ++ beBytes 3 0 ++ beBytes 4 4000000000 ++ beBytes 4 20 ++ beBytes 4 0 ++ beBytes 16 0)), .tim fun t => { t with trains := [(15, ⟨true, (5000001508 - 20) * 2 ^ 40, 1, true, false⟩)] }]; let t : PulseTrain := s.dev.train i.val; let b : List Byte := s.dev.oct .timeTpoCfg 0 i.val; s.Inv ∧ s.dev.answers = true ∧ t.running = true ∧ s.dev.nextEdge i.val ≤ s.dev.unitsAt off.val + 8 * 2 ^ 40 ∧ t.high = true ∧ (t.stopping = true ∨ bitsOf (beAt b 0 1) 5 2 = 1 ∨ (beAt b 12 4 ≠ 0 ∧ beAt b 12 4 ≤ t.begun))) ∧
    (let i : Fin 16 := 15; let off : Fin 1000 := 500; let s := up [.tim fun t => { t with secs := 5, ns := 1000, ticks := 9 }, .obj .timeTpoCfg 0 15 (.oct ([64] ++ beBytes 3 0 ++ beBytes 4 100 ++ beBytes 4 20 ++ beBytes 4 7 ++ beBytes 16 0)), .tim fun t => { t with trains := [(15, ⟨true, (5000001508 - 20) * 2 ^ 40, 7, true, false⟩)] }]; let t : PulseTrain := s.dev.train i.val; let b : List Byte := s.dev.oct .timeTpoCfg 0 i.val; s.Inv ∧ s.dev.answers = true ∧ t.running = true ∧ s.dev.nextEdge i.val ≤ s.dev.unitsAt off.val + 8 * 2 ^ 40 ∧ t.high = true ∧ (t.stopping = true ∨ bitsOf (beAt b 0 1) 5 2 = 1 ∨ (beAt b 12 4 ≠ 0 ∧ beAt b 12 4 ≤ t.begun))) ∧
    (let i : Fin 16 := 15; let off : Fin 1000 := 500; let s := up [.tim fun t => { t with secs := 5, ns := 1000, ticks := 9 }, .obj .timeTpoCfg 0 15 (.oct ([64] ++ beBytes 3 0 ++ beBytes 4 100 ++ beBytes 4 20 ++ beBytes 4 7 ++ beBytes 16 0)), .tim fun t => { t with trains := [(15, ⟨true, (5000001508 - 20) * 2 ^ 40, 6, true, false⟩)] }]; let t : PulseTrain := s.dev.train i.val; let b : List Byte := s.dev.oct .timeTpoCfg 0 i.val; s.Inv ∧ s.dev.answers = true ∧ t.running = true ∧ s.dev.nextEdge i.val ≤ s.dev.unitsAt off.val + 8 * 2 ^ 40 ∧ t.high = true ∧ t.stopping = false ∧ bitsOf (beAt b 0 1) 5 2 ≠ 1 ∧ (beAt b 12 4 = 0 ∨ t.begun < beAt b 12 4)) ∧
    (let i : Fin 16 := 15; let off : Fin 1000 := 500; let s := up [.tim fun t => { t with secs := 5, ns := 1000, ticks := 9 }, .obj .timeTpoCfg 0 15 (.oct ([64] ++ beBytes 3 0 ++ beBytes 4 100 ++ beBytes 4 20 ++ beBytes 4 0 ++ beBytes 16 0)), .tim fun t => { t with trains := [(15, ⟨true, (5000001508 - 20) * 2 ^ 40, 6, true, false⟩)] }]; let t : PulseTrain := s.dev.train i.val; let b : List Byte := s.dev.oct .timeTpoCfg 0 i.val; s.Inv ∧ s.dev.answers = true ∧ t.running = true ∧ s.dev.nextEdge i.val ≤ s.dev.unitsAt off.val + 8 * 2 ^ 40 ∧ t.high = true ∧ t.stopping = false ∧ bitsOf (beAt b 0 1) 5 2 ≠ 1 ∧ (beAt b 12 4 = 0 ∨ t.begun < beAt b 12 4)) ∧
    (let o := sec; let v : BitVec 32 := 1; let x : Obj := .timeSyncoEnable; let s := up []; let r := writeReq o x 0 0 (.num v.toNat); s.Inv ∧ s.dev.admits r) ∧
    (let o := sec; let v : BitVec 32 := 1000; let x : Obj := .timeSyncoFreq; let s := up []; let r := writeReq o x 0 0 (.num v.toNat); s.Inv ∧ s.dev.admits r) ∧
    (let o := sec; let v : BitVec 32 := 1; let x : Obj := .timeSyncoReference; let s := up []; let r := writeReq o x 0 0 (.num v.toNat); s.Inv ∧ s.dev.admits r) := by
  simp only [inv_iff, admits_iff]
  and_intros <;> decide +kernel

theorem meets_StampsAndPulses_11 :
    (let o := sec; let slot : BitVec 8 := 255; let s := up []; let a : Action := s.dev.acts.headD ⟨0, 0, 0, .now, 0, true, [], [], 0⟩; let r := execReq o .rmCancel 0 0 true (.num slot.toNat); s.Inv ∧ s.dev.admits r ∧ (∀ a ∈ s.dev.acts, a.slot ≠ slot.toNat)) ∧
    (let o := host; let slot : BitVec 8 := 0; let s := up [.tim fun t => { t with secs := 5, ns := 1000, ticks := 9 }, .arm ⟨0, 7, 3, .time 9 0, 0x0400, false, [], [], 0⟩]; let code := s.dev.codeOf o.path; let a : Action := s.dev.acts.headD ⟨0, 0, 0, .now, 0, true, [], [], 0⟩; let r := execReq o .rmCancel 0 0 true (.num slot.toNat); s.Inv ∧ s.dev.admits r ∧ a ∈ s.dev.acts ∧ a.slot = slot.toNat ∧ code ≠ 0x0400 ∧ code ≠ a.code ∧ (isHost code = false ∨ isHost a.code = false ∨ hostLink code ≠ hostLink a.code)) ∧
    (let o := sec; let slot : BitVec 8 := 0; let s := up [.tim fun t => { t with secs := 5, ns := 1000, ticks := 9 }, .arm ⟨0, 7, 3, .time 9 0, 0x0300, true, [], [], 0⟩]; let code := s.dev.codeOf o.path; let a : Action := s.dev.acts.headD ⟨0, 0, 0, .now, 0, true, [], [], 0⟩; let r := execReq o .rmCancel 0 0 true (.num slot.toNat); s.Inv ∧ s.dev.admits r ∧ a ∈ s.dev.acts ∧ a.slot = slot.toNat ∧ (code = 0x0400 ∨ code = a.code ∨ (isHost code = true ∧ isHost a.code = true ∧ hostLink code = hostLink a.code)) ∧ (a.committed = true ∨ s.dev.commitDue a = true)) ∧
    (let o := sec; let slot : BitVec 8 := 0; let s := up [.tim fun t => { t with secs := 5, ns := 1000, ticks := 9 }, .arm ⟨0, 7, 3, .time 5 101000, 0x0300, false, [], [], 0⟩]; let code := s.dev.codeOf o.path; let a : Action := s.dev.acts.headD ⟨0, 0, 0, .now, 0, true, [], [], 0⟩; let r := execReq o .rmCancel 0 0 true (.num slot.toNat); s.Inv ∧ s.dev.admits r ∧ a ∈ s.dev.acts ∧ a.slot = slot.toNat ∧ (code = 0x0400 ∨ code = a.code ∨ (isHost code = true ∧ isHost a.code = true ∧ hostLink code = hostLink a.code)) ∧ (a.committed = true ∨ s.dev.commitDue a = true)) ∧
    (let o := sec; let slot : BitVec 8 := 0; let s := up [.tim fun t => { t with secs := 5, ns := 1000, ticks := 9 }, .arm ⟨0, 7, 3, .time 5 101001, 0x0300, false, [], [], 0⟩]; let code := s.dev.codeOf o.path; let a : Action := s.dev.acts.headD ⟨0, 0, 0, .now, 0, true, [], [], 0⟩; let r := execReq o .rmCancel 0 0 true (.num slot.toNat); s.Inv ∧ s.dev.admits r ∧ a ∈ s.dev.acts ∧ a.slot = slot.toNat ∧ (code = 0x0400 ∨ code = a.code ∨ (isHost code = true ∧ isHost a.code = true ∧ hostLink code = hostLink a.code)) ∧ a.committed = false ∧ s.dev.commitDue a = false) ∧
    (let o := serial; let slot : BitVec 8 := 0; let s := up [.tim fun t => { t with secs := 5, ns := 1000, ticks := 9 }, .arm ⟨0, 7, 3, .time 5 101001, 0x0300, false, [], [], 0⟩]; let code := s.dev.codeOf o.path; let a : Action := s.dev.acts.headD ⟨0, 0, 0, .now, 0, true, [], [], 0⟩; let r := execReq o .rmCancel 0 0 true (.num slot.toNat); s.Inv ∧ s.dev.admits r ∧ a ∈ s.dev.acts ∧ a.slot = slot.toNat ∧ (code = 0x0400 ∨ code = a.code ∨ (isHost code = true ∧ isHost a.code = true ∧ hostLink code = hostLink a.code)) ∧ a.committed = false ∧ s.dev.commitDue a = false) ∧
    (let o := ⟨.mailbox 0 0 1, 0x0100, 1⟩; let slot : BitVec 8 := 0; let s := up [.tim fun t => { t with secs := 5, ns := 1000, ticks := 9 }, .arm ⟨0, 7, 3, .time 5 101001, 0x0101, false, [], [], 0⟩]; let code := s.dev.codeOf o.path; let a : Action := s.dev.acts.headD ⟨0, 0, 0, .now, 0, true, [], [], 0⟩; let r := execReq o .rmCancel 0 0 true (.num slot.toNat); s.Inv ∧ s.dev.admits r ∧ a ∈ s.dev.acts ∧ a.slot = slot.toNat ∧ (code = 0x0400 ∨ code = a.code ∨ (isHost code = true ∧ isHost a.code = true ∧ hostLink code = hostLink a.code)) ∧ a.committed = false ∧ s.dev.commitDue a = false) ∧
    (let slot : Fin 256 := 0; let s := up [.tim fun t => { t with secs := 5, ns := 1000, ticks := 9 }, .arm ⟨0, 7, 3, .time 5 101000, 0x0300, false, [], [], 0⟩]; let a : Action := s.dev.acts.headD ⟨0, 0, 0, .now, 0, true, [], [], 0⟩; s.Inv ∧ s.dev.answers = true ∧ a ∈ s.dev.acts ∧ a.slot = slot.val ∧ s.dev.commitDue a = true) := by
  simp only [inv_iff, admits_iff]
  and_intros <;> decide +kernel

theorem meets_StampsAndPulses_12 :
    (let slot : Fin 256 := 0; let s := up [.tim fun t => { t with secs := 5, ns := 1000, ticks := 9 }, .arm ⟨0, 7, 3, .time 5 101001, 0x0300, false, [], [], 0⟩]; let a : Action := s.dev.acts.headD ⟨0, 0, 0, .now, 0, true, [], [], 0⟩; s.Inv ∧ s.dev.answers = true ∧ (∀ a ∈ s.dev.acts, a.slot = slot.val → s.dev.commitDue a = false)) ∧
    (let slot : Fin 256 := 255; let s := up [.tim fun t => { t with secs := 5, ns := 1000, ticks := 9 }, .arm ⟨0, 7, 3, .time 5 101000, 0x0300, false, [], [], 0⟩]; let a : Action := s.dev.acts.headD ⟨0, 0, 0, .now, 0, true, [], [], 0⟩; s.Inv ∧ s.dev.answers = true ∧ (∀ a ∈ s.dev.acts, a.slot = slot.val → s.dev.commitDue a = false)) ∧
    (let s := State.reset; s.dev.answers = false) := by
  simp only [inv_iff]
  and_intros <;> decide +kernel

theorem meets_BootFlow :
    (let s := up [.obj .idBootProgress 0 0 (.num 6)]; s.Inv ∧ s.dev.pins.href = true ∧ (s.dev.clk.devReset = false ∨ s.dev.pins.porstN = false ∨ s.dev.clk.supplyHeld = true ∨ s.dev.pins.straps ≠ []) ∧ (s.dev.answers = false ∨ s.dev.pins.porstN = false ∨ s.dev.num .idBootProgress ≠ 0)) ∧
    (let self : Bool := false; let s := State.reset.after [.pins fun p => { p with porstN := true, aonOn := true, href := true }, .obj .rstStraps 0 0 (.num 1)]; s.Inv ∧ s.dev.pins.href = true ∧ s.dev.clk.devReset = true ∧ s.dev.pins.porstN = true ∧ s.dev.clk.supplyHeld = false ∧ s.dev.clk.hrefLost = false ∧ s.dev.pins.straps = [] ∧ s.dev.num .idBootProgress = 0 ∧ s.dev.num .pwrState < 3 ∧ (self = false ∨ bitOf (s.dev.num .rstStraps) 2 = true)) ∧
    (let self : Bool := true; let s := State.reset.after [.pins fun p => { p with porstN := true, aonOn := true, href := true }, .obj .rstStraps 0 0 (.num 5)]; s.Inv ∧ s.dev.pins.href = true ∧ s.dev.clk.devReset = true ∧ s.dev.pins.porstN = true ∧ s.dev.clk.supplyHeld = false ∧ s.dev.clk.hrefLost = false ∧ s.dev.pins.straps = [] ∧ s.dev.num .idBootProgress = 0 ∧ s.dev.num .pwrState < 3 ∧ (self = false ∨ bitOf (s.dev.num .rstStraps) 2 = true)) ∧
    (let self : Bool := false; let s := up [.pins fun p => { p with href := true }, .obj .idBootProgress 0 0 (.num 0), .obj .rstStraps 0 0 (.num 65)]; s.Inv ∧ s.dev.pins.href = true ∧ s.dev.answers = true ∧ s.dev.pins.porstN = true ∧ s.dev.num .idBootProgress = 0 ∧ self = false) ∧
    (let self : Bool := true; let s := up [.pins fun p => { p with href := true }, .obj .idBootProgress 0 0 (.num 0), .obj .rstStraps 0 0 (.num 5)]; s.Inv ∧ s.dev.pins.href = true ∧ s.dev.answers = true ∧ s.dev.pins.porstN = true ∧ s.dev.num .idBootProgress = 0 ∧ self = true ∧ bitOf (s.dev.num .rstStraps) 2 = true) ∧
    (let self : Bool := true; let s := up [.pins fun p => { p with href := true }, .obj .idBootProgress 0 0 (.num 0), .obj .rstStraps 0 0 (.num 1)]; let r1 : FlashSlot → Nat := fun f => s.dev.stageReason 1 0x100000 f.stage1 none; s.Inv ∧ s.dev.pins.href = true ∧ s.dev.answers = true ∧ s.dev.pins.porstN = true ∧ s.dev.num .idBootProgress = 0 ∧ self = true ∧ bitOf (s.dev.num .rstStraps) 2 = false ∧ r1 (s.dev.flashSlot s.dev.preferred) ≠ 0 ∧ r1 (s.dev.flashSlot (1 - s.dev.preferred)) ≠ 0) ∧
    (let self : Bool := true; let s := up [.pins fun p => { p with href := true }, .obj .idBootProgress 0 0 (.num 0), .obj .rstStraps 0 0 (.num 1), .sec fun x => { x with slotA := ⟨(beBytes 4 0x4B594657 ++ [0, 1, 1, 4] ++ beBytes 4 260 ++ zeros 248 ++ beBytes 4 96 ++ zeros 96 ++ beBytes 4 1 ++ [0]), [], []⟩, dir := directory 1 }]; let r1 : FlashSlot → Nat := fun f => s.dev.stageReason 1 0x100000 f.stage1 none; s.Inv ∧ s.dev.pins.href = true ∧ s.dev.answers = true ∧ s.dev.pins.porstN = true ∧ s.dev.num .idBootProgress = 0 ∧ self = true ∧ bitOf (s.dev.num .rstStraps) 2 = false ∧ r1 (s.dev.flashSlot s.dev.preferred) ≠ 0 ∧ r1 (s.dev.flashSlot (1 - s.dev.preferred)) ≠ 0) ∧
    (let s := up [.obj .hifLinkState 0 0 (.num 1)]; s.Inv ∧ s.dev.reaches 0 0 = false) := by
  simp only [inv_iff]
  and_intros <;> decide +kernel

theorem meets_BootFlow_2 :
    (let s := up []; s.Inv ∧ s.dev.reaches 0 0 = true ∧ s.dev.inRun ∧ s.dev.num .idBootProgress ∉ [0x10, 0x11, 0xE1, 0xE2]) ∧
    (let v : BitVec 32 := 0; let s := up [.obj .idBootProgress 0 0 (.num 0x10), .sec fun x => { x with blStatus := 1 * 2 ^ 24 }]; s.Inv ∧ s.dev.reaches 0 0 = true ∧ s.dev.inRun ∧ s.dev.num .idBootProgress ∈ [0x10, 0x11, 0xE1, 0xE2] ∧ (v ≠ 1 ∨ s.dev.sec.blStatus / 2 ^ 24 = 2)) ∧
    (let v : BitVec 32 := 1; let s := up [.obj .idBootProgress 0 0 (.num 0x10), .sec fun x => { x with blStatus := 2 * 2 ^ 24 }]; s.Inv ∧ s.dev.reaches 0 0 = true ∧ s.dev.inRun ∧ s.dev.num .idBootProgress ∈ [0x10, 0x11, 0xE1, 0xE2] ∧ (v ≠ 1 ∨ s.dev.sec.blStatus / 2 ^ 24 = 2)) ∧
    (let v : BitVec 32 := 1; let s := up [.obj .idBootProgress 0 0 (.num 0xE2), .sec fun x => { x with blStatus := 4 * 2 ^ 24 }]; s.Inv ∧ s.dev.reaches 0 0 = true ∧ s.dev.inRun ∧ s.dev.num .idBootProgress ∈ [0x10, 0x11, 0xE1, 0xE2] ∧ v = 1 ∧ s.dev.sec.blStatus / 2 ^ 24 ≠ 2) ∧
    (let s := up [.obj .idBootProgress 0 0 (.num 0x10), .sec fun x => { x with blStatus := 1 * 2 ^ 24 }]; s.Inv ∧ (s.dev.num .idBootProgress ∉ [0x10, 0x11, 0xE1, 0xE2] ∨ s.dev.answers = false ∨ s.dev.sec.blStatus / 2 ^ 24 ≠ 2)) ∧
    (let got : Bool := false; let s := up [.obj .idBootProgress 0 0 (.num 0xE1), .sec fun x => { x with blStatus := 2 * 2 ^ 24 }]; let kind := 1; s.Inv ∧ ((kind = 1 ∧ s.dev.num .idBootProgress ∈ [0x10, 0xE1]) ∨ (kind = 2 ∧ s.dev.num .idBootProgress ∈ [0x11, 0xE2])) ∧ s.dev.answers = true ∧ s.dev.sec.blStatus / 2 ^ 24 = 2 ∧ got = false) ∧
    (let got : Bool := true; let im : List Byte := [1, 2]; let s := up [.obj .idBootProgress 0 0 (.num 0x10), .sec fun x => { x with blStatus := 2 * 2 ^ 24, blLen := ([1, 2] : List Byte).length, run1 := (beBytes 4 0x4B594657 ++ [0, 1, 1, 0] ++ beBytes 4 260 ++ zeros 248 ++ beBytes 4 96 ++ zeros 96 ++ beBytes 4 1 ++ [0]) }]; let kind := 1; let r := s.dev.stageReason kind im.length im (if kind = 2 then some (flashNum s.dev.sec.run1 7 1) else none); s.Inv ∧ ((kind = 1 ∧ s.dev.num .idBootProgress ∈ [0x10, 0xE1]) ∨ (kind = 2 ∧ s.dev.num .idBootProgress ∈ [0x11, 0xE2])) ∧ s.dev.answers = true ∧ s.dev.sec.blStatus / 2 ^ 24 = 2 ∧ got = true ∧ im.length = s.dev.sec.blLen ∧ r ≠ 0) ∧
    (let got : Bool := true; let im : List Byte := (beBytes 4 0x4B594657 ++ [0, 1, 1, 4] ++ beBytes 4 260 ++ zeros 248 ++ beBytes 4 96 ++ zeros 96 ++ beBytes 4 1 ++ [0]); let s := up [.obj .idBootProgress 0 0 (.num 0xE1), .sec fun x => { x with blStatus := 2 * 2 ^ 24, blLen := ((beBytes 4 0x4B594657 ++ [0, 1, 1, 4] ++ beBytes 4 260 ++ zeros 248 ++ beBytes 4 96 ++ zeros 96 ++ beBytes 4 1 ++ [0]) : List Byte).length, run1 := (beBytes 4 0x4B594657 ++ [0, 1, 1, 0] ++ beBytes 4 260 ++ zeros 248 ++ beBytes 4 96 ++ zeros 96 ++ beBytes 4 1 ++ [0]) }]; let kind := 1; let r := s.dev.stageReason kind im.length im (if kind = 2 then some (flashNum s.dev.sec.run1 7 1) else none); s.Inv ∧ ((kind = 1 ∧ s.dev.num .idBootProgress ∈ [0x10, 0xE1]) ∨ (kind = 2 ∧ s.dev.num .idBootProgress ∈ [0x11, 0xE2])) ∧ s.dev.answers = true ∧ s.dev.sec.blStatus / 2 ^ 24 = 2 ∧ got = true ∧ im.length = s.dev.sec.blLen ∧ r ≠ 0) := by
  simp only [inv_iff, Dev.inRun]
  and_intros <;> decide +kernel

theorem meets_BootFlow_3 :
    (let got : Bool := true; let im : List Byte := (beBytes 4 0x4B594657 ++ [0, 1, 2, 1] ++ beBytes 4 260 ++ zeros 248 ++ beBytes 4 96 ++ zeros 96 ++ beBytes 4 1 ++ [0]); let s := up [.obj .idBootProgress 0 0 (.num 0x11), .sec fun x => { x with blStatus := 2 * 2 ^ 24, blLen := ((beBytes 4 0x4B594657 ++ [0, 1, 2, 1] ++ beBytes 4 260 ++ zeros 248 ++ beBytes 4 96 ++ zeros 96 ++ beBytes 4 1 ++ [0]) : List Byte).length, run1 := (beBytes 4 0x4B594657 ++ [0, 1, 1, 0] ++ beBytes 4 260 ++ zeros 248 ++ beBytes 4 96 ++ zeros 96 ++ beBytes 4 1 ++ [0]) }]; let kind := 2; let r := s.dev.stageReason kind im.length im (if kind = 2 then some (flashNum s.dev.sec.run1 7 1) else none); s.Inv ∧ ((kind = 1 ∧ s.dev.num .idBootProgress ∈ [0x10, 0xE1]) ∨ (kind = 2 ∧ s.dev.num .idBootProgress ∈ [0x11, 0xE2])) ∧ s.dev.answers = true ∧ s.dev.sec.blStatus / 2 ^ 24 = 2 ∧ got = true ∧ im.length = s.dev.sec.blLen ∧ r ≠ 0) ∧
    (let o := host; let b : List Byte := beBytes 8 65536 ++ beBytes 4 0x08000001 ++ [1] ++ beBytes 3 0; let s := up [.fn (fnKey 0 0) fun f => { f with live := true }]; let r := execReq o .secFlashProgram 0 0 true (.oct b); s.Inv ∧ b.length = 16 ∧ s.dev.admits r ∧ (0x08000000 < beAt b 8 4 ∨ 1 < beAt b 12 1 ∨ beAt b 13 3 ≠ 0)) ∧
    (let o := host; let b : List Byte := beBytes 8 65536 ++ beBytes 4 0x08000000 ++ [2] ++ beBytes 3 0; let s := up [.fn (fnKey 0 0) fun f => { f with live := true }]; let r := execReq o .secFlashProgram 0 0 true (.oct b); s.Inv ∧ b.length = 16 ∧ s.dev.admits r ∧ (0x08000000 < beAt b 8 4 ∨ 1 < beAt b 12 1 ∨ beAt b 13 3 ≠ 0)) ∧
    (let o := host; let b : List Byte := beBytes 8 65536 ++ beBytes 4 0x08000000 ++ [1] ++ beBytes 3 1; let s := up [.fn (fnKey 0 0) fun f => { f with live := true }]; let r := execReq o .secFlashProgram 0 0 true (.oct b); s.Inv ∧ b.length = 16 ∧ s.dev.admits r ∧ (0x08000000 < beAt b 8 4 ∨ 1 < beAt b 12 1 ∨ beAt b 13 3 ≠ 0)) ∧
    (let o := host; let b : List Byte := beBytes 8 65536 ++ beBytes 4 0x08000000 ++ [1] ++ beBytes 3 0; let s := up []; let code := o.code.toNat; let r := execReq o .secFlashProgram 0 0 true (.oct b); s.Inv ∧ b.length = 16 ∧ s.dev.admits r ∧ beAt b 8 4 ≤ 0x08000000 ∧ beAt b 12 1 ≤ 1 ∧ beAt b 13 3 = 0 ∧ (isHost code = false ∨ hostFn code ≠ 0 ∨ (s.dev.fn (hostKey code)).live = false ∨ s.dev.num .secBootSlot = beAt b 12 1)) ∧
    (let o := host; let b : List Byte := beBytes 8 65536 ++ beBytes 4 0x08000000 ++ [0] ++ beBytes 3 0; let s := up [.fn (fnKey 0 0) fun f => { f with live := true }]; let code := o.code.toNat; let r := execReq o .secFlashProgram 0 0 true (.oct b); s.Inv ∧ b.length = 16 ∧ s.dev.admits r ∧ beAt b 8 4 ≤ 0x08000000 ∧ beAt b 12 1 ≤ 1 ∧ beAt b 13 3 = 0 ∧ (isHost code = false ∨ hostFn code ≠ 0 ∨ (s.dev.fn (hostKey code)).live = false ∨ s.dev.num .secBootSlot = beAt b 12 1)) ∧
    (let o := host; let b : List Byte := beBytes 8 65536 ++ beBytes 4 0x08000000 ++ [1] ++ beBytes 3 0; let s := up [.fn (fnKey 0 0) fun f => { f with live := true }, .sec fun x => { x with prog := some ((execReq host .secFlashProgram 0 0 true (.oct (zeros 16))).call, 1, 9) }]; let code := o.code.toNat; let r := execReq o .secFlashProgram 0 0 true (.oct b); s.Inv ∧ b.length = 16 ∧ s.dev.admits r ∧ beAt b 8 4 ≤ 0x08000000 ∧ beAt b 12 1 ≤ 1 ∧ beAt b 13 3 = 0 ∧ isHost code = true ∧ hostFn code = 0 ∧ (s.dev.fn (hostKey code)).live = true ∧ s.dev.num .secBootSlot ≠ beAt b 12 1 ∧ s.dev.sec.prog ≠ none) ∧
    (let o := host; let b : List Byte := beBytes 8 65536 ++ beBytes 4 0x08000000 ++ [1] ++ beBytes 3 0; let s := up [.fn (fnKey 0 0) fun f => { f with live := true }]; let code := o.code.toNat; let r := execReq o .secFlashProgram 0 0 true (.oct b); s.Inv ∧ b.length = 16 ∧ s.dev.admits r ∧ beAt b 8 4 ≤ 0x08000000 ∧ beAt b 12 1 ≤ 1 ∧ beAt b 13 3 = 0 ∧ isHost code = true ∧ hostFn code = 0 ∧ (s.dev.fn (hostKey code)).live = true ∧ s.dev.num .secBootSlot ≠ beAt b 12 1 ∧ s.dev.sec.prog = none) := by
  simp only [inv_iff, admits_iff]
  and_intros <;> decide +kernel

theorem meets_BootFlow_4 :
    (let s := up []; s.Inv ∧ s.dev.answers = true ∧ s.dev.sec.prog = none) ∧
    (let im : List Byte := [1]; let got : Bool := true; let s := up [.sec fun x => { x with prog := some ((execReq host .secFlashProgram 0 0 true (.oct (zeros 16))).call, 1, 2) }]; let c : Call := (execReq host .secFlashProgram 0 0 true (.oct (zeros 16))).call; let slot := 1; let len := 2; s.Inv ∧ s.dev.answers = true ∧ s.dev.sec.prog = some (c, slot, len) ∧ got = true ∧ im.length ≠ len) ∧
    (let got : Bool := false; let s := up [.sec fun x => { x with prog := some ((execReq host .secFlashProgram 0 0 true (.oct (zeros 16))).call, 1, 2) }]; let c : Call := (execReq host .secFlashProgram 0 0 true (.oct (zeros 16))).call; let slot := 1; let len := 2; s.Inv ∧ s.dev.answers = true ∧ s.dev.sec.prog = some (c, slot, len) ∧ got = false) ∧
    (let im : List Byte := (beBytes 4 0x4B594657 ++ [0, 1, 1, 4] ++ beBytes 4 260 ++ zeros 248 ++ beBytes 4 96 ++ zeros 96 ++ beBytes 4 1 ++ [0]); let got : Bool := true; let s := up [.sec fun x => { x with prog := some ((execReq host .secFlashProgram 0 0 true (.oct (zeros 16))).call, 0, 365) }]; let c : Call := (execReq host .secFlashProgram 0 0 true (.oct (zeros 16))).call; let slot := 0; let len := 365; s.Inv ∧ s.dev.answers = true ∧ s.dev.sec.prog = some (c, slot, len) ∧ got = true ∧ im.length = len) ∧
    (let im : List Byte := (beBytes 4 0x4B594657 ++ [0, 1, 1, 4] ++ beBytes 4 260 ++ zeros 248 ++ beBytes 4 96 ++ zeros 96 ++ beBytes 4 1 ++ [0]); let got : Bool := true; let s := up [.sec fun x => { x with prog := some ((execReq host .secFlashProgram 0 0 true (.oct (zeros 16))).call, 1, 365) }]; let c : Call := (execReq host .secFlashProgram 0 0 true (.oct (zeros 16))).call; let slot := 1; let len := 365; s.Inv ∧ s.dev.answers = true ∧ s.dev.sec.prog = some (c, slot, len) ∧ got = true ∧ im.length = len) := by
  simp only [inv_iff]
  and_intros <;> decide +kernel

theorem meets_SecurityCommands :
    (let o := serial; let code := o.code.toNat; let s := up [.sec fun x => { x with stage := [(o.code.toNat, ([1, 1] ++ beBytes 2 0 ++ beBytes 4 0 ++ beBytes 8 0 ++ List.replicate 32 9 ++ List.replicate 96 1 ++ beBytes 4 5 ++ beBytes 4 4 ++ zeros 48 ++ beBytes 4 96 ++ zeros 96 ++ beBytes 4 1 ++ []))], chal := [(o.code.toNat, (beBytes 6 5 ++ beBytes 4 7 ++ List.replicate 32 9))] }, .burn (2 ^ (8 * 0x1E1 + 0))]; let b := SMap.get [] s.dev.sec.stage code; let r := execReq o .secOwnerEnrol 0 0 true (.oct []); s.Inv ∧ s.dev.admits r ∧ True ∧ ¬(304 ≤ b.length ∧ beAt b 200 4 = 96 ∧ 1 ≤ beAt b 300 4 ∧ beAt b 300 4 ≤ 9324 ∧ b.length = 304 + beAt b 300 4)) ∧
    (let o := serial; let code := o.code.toNat; let p := 1; let s := up [.sec fun x => { x with stage := [(o.code.toNat, ([1, 1] ++ beBytes 2 0 ++ beBytes 4 0 ++ beBytes 8 0 ++ List.replicate 32 9 ++ List.replicate 96 1 ++ beBytes 4 10 ++ beBytes 4 4 ++ zeros 48 ++ beBytes 4 96 ++ zeros 96 ++ beBytes 4 1 ++ [0]))], chal := [(o.code.toNat, (beBytes 6 5 ++ beBytes 4 7 ++ List.replicate 32 9))] }, .burn (2 ^ (8 * 0x1E1 + 0))]; let b := SMap.get [] s.dev.sec.stage code; let sign := beAt b 1 1; let lvl := beAt b 4 4; let r := execReq o .secOwnerEnrol 0 0 true (.oct []); s.Inv ∧ s.dev.admits r ∧ True ∧ (304 ≤ b.length ∧ beAt b 200 4 = 96 ∧ 1 ≤ beAt b 300 4 ∧ beAt b 300 4 ≤ 9324 ∧ b.length = 304 + beAt b 300 4) ∧ ¬(beAt b 0 1 = p ∧ (sign = 1 ∨ sign = 2) ∧ beAt b 2 2 = 0 ∧ lvl < (if p = 3 then 8 else 1) ∧ 5 ≤ beAt b 144 4 ∧
      beAt b 144 4 ≤ 9 ∧ 1 ≤ beAt b 148 4 ∧ beAt b 148 4 ≤ 4)) ∧
    (let o := serial; let code := o.code.toNat; let p := 1; let s := up [.sec fun x => { x with stage := [(o.code.toNat, ([1, 2] ++ beBytes 2 0 ++ beBytes 4 0 ++ beBytes 8 0 ++ List.replicate 32 9 ++ List.replicate 96 1 ++ beBytes 4 5 ++ beBytes 4 4 ++ zeros 48 ++ beBytes 4 96 ++ zeros 96 ++ beBytes 4 1 ++ [0]))], chal := [(o.code.toNat, (beBytes 6 5 ++ beBytes 4 7 ++ List.replicate 32 9))] }, .burn (2 ^ (8 * 0x1E1 + 0))]; let b := SMap.get [] s.dev.sec.stage code; let sign := beAt b 1 1; let lvl := beAt b 4 4; let l := s.dev.lifecycle; let r := execReq o .secOwnerEnrol 0 0 true (.oct []); s.Inv ∧ s.dev.admits r ∧ True ∧ (304 ≤ b.length ∧ beAt b 200 4 = 96 ∧ 1 ≤ beAt b 300 4 ∧ beAt b 300 4 ≤ 9324 ∧ b.length = 304 + beAt b 300 4) ∧ (beAt b 0 1 = p ∧ (sign = 1 ∨ sign = 2) ∧ beAt b 2 2 = 0 ∧ lvl < (if p = 3 then 8 else 1) ∧ 5 ≤ beAt b 144 4 ∧
      beAt b 144 4 ≤ 9 ∧ 1 ≤ beAt b 148 4 ∧ beAt b 148 4 ≤ 4) ∧ ¬((p = 1 ∧ sign = 1 ∧ (l = 1 ∨ (l = 2 ∧ s.dev.ownerEnrolled = false))) ∨
      (p = 2 ∧ sign = 1 ∧ l = 2 ∧ s.dev.ownerEnrolled = true ∧ s.dev.ownerLocked = false) ∨
      (p = 3 ∧ sign = 1 ∧ l = 2 ∧ s.dev.ownerEnrolled = true ∧ lvl < 4) ∨
      (p = 3 ∧ sign = 2 ∧ (l = 0 ∨ l = 3 ∨ (lvl < 4 ∧ (l = 1 ∨ (l = 2 ∧ s.dev.ownerEnrolled = false))))) ∨
      (p = 4 ∧ (l = 1 ∨ l = 2) ∧ sign = (if s.dev.ownerEnrolled then 1 else 2)) ∨
      (p = 5 ∧ sign = 1 ∧ s.dev.ownerLocked = true) ∨ (p = 6 ∧ sign = 2 ∧ l = 0))) ∧
    (let o := serial; let code := o.code.toNat; let p := 1; let s := up [.sec fun x => { x with stage := [(o.code.toNat, ([1, 1] ++ beBytes 2 0 ++ beBytes 4 0 ++ beBytes 8 1 ++ List.replicate 32 9 ++ List.replicate 96 1 ++ beBytes 4 5 ++ beBytes 4 4 ++ zeros 48 ++ beBytes 4 96 ++ zeros 96 ++ beBytes 4 1 ++ [0]))], chal := [(o.code.toNat, (beBytes 6 5 ++ beBytes 4 7 ++ List.replicate 32 9))] }, .burn (2 ^ (8 * 0x1E1 + 0))]; let b := SMap.get [] s.dev.sec.stage code; let ch := SMap.get [] s.dev.sec.chal code; let sign := beAt b 1 1; let lvl := beAt b 4 4; let l := s.dev.lifecycle; let r := execReq o .secOwnerEnrol 0 0 true (.oct []); s.Inv ∧ s.dev.admits r ∧ True ∧ (304 ≤ b.length ∧ beAt b 200 4 = 96 ∧ 1 ≤ beAt b 300 4 ∧ beAt b 300 4 ≤ 9324 ∧ b.length = 304 + beAt b 300 4) ∧ (beAt b 0 1 = p ∧ (sign = 1 ∨ sign = 2) ∧ beAt b 2 2 = 0 ∧ lvl < (if p = 3 then 8 else 1) ∧ 5 ≤ beAt b 144 4 ∧
      beAt b 144 4 ≤ 9 ∧ 1 ≤ beAt b 148 4 ∧ beAt b 148 4 ≤ 4) ∧ ((p = 1 ∧ sign = 1 ∧ (l = 1 ∨ (l = 2 ∧ s.dev.ownerEnrolled = false))) ∨
      (p = 2 ∧ sign = 1 ∧ l = 2 ∧ s.dev.ownerEnrolled = true ∧ s.dev.ownerLocked = false) ∨
      (p = 3 ∧ sign = 1 ∧ l = 2 ∧ s.dev.ownerEnrolled = true ∧ lvl < 4) ∨
      (p = 3 ∧ sign = 2 ∧ (l = 0 ∨ l = 3 ∨ (lvl < 4 ∧ (l = 1 ∨ (l = 2 ∧ s.dev.ownerEnrolled = false))))) ∨
      (p = 4 ∧ (l = 1 ∨ l = 2) ∧ sign = (if s.dev.ownerEnrolled then 1 else 2)) ∨
      (p = 5 ∧ sign = 1 ∧ s.dev.ownerLocked = true) ∨ (p = 6 ∧ sign = 2 ∧ l = 0)) ∧ (beAt b 8 8 ≠ s.dev.num .idTerminal ∨ s.dev.stillValid ch = false ∨ slice b 16 32 ≠ ch.drop 10)) ∧
    (let o := serial; let code := o.code.toNat; let s := up [.sec fun x => { x with stage := [(o.code.toNat, ([2, 1] ++ beBytes 2 0 ++ beBytes 4 0 ++ beBytes 8 0 ++ List.replicate 32 9 ++ List.replicate 96 1 ++ beBytes 4 5 ++ beBytes 4 4 ++ zeros 48 ++ beBytes 4 96 ++ zeros 96 ++ beBytes 4 1 ++ []))], chal := [(o.code.toNat, (beBytes 6 5 ++ beBytes 4 7 ++ List.replicate 32 9))] }, .burn (2 ^ (8 * 0x1E1 + 0)), .burn (2 ^ (8 * 0x1E1 + 1)), .burn (2 ^ (8 * 0x1E2 + 0))]; let b := SMap.get [] s.dev.sec.stage code; let r := execReq o .secOwnerLock 0 0 true (.oct []); s.Inv ∧ s.dev.admits r ∧ True ∧ ¬(304 ≤ b.length ∧ beAt b 200 4 = 96 ∧ 1 ≤ beAt b 300 4 ∧ beAt b 300 4 ≤ 9324 ∧ b.length = 304 + beAt b 300 4)) ∧
    (let o := serial; let code := o.code.toNat; let p := 2; let s := up [.sec fun x => { x with stage := [(o.code.toNat, ([2, 1] ++ beBytes 2 0 ++ beBytes 4 0 ++ beBytes 8 0 ++ List.replicate 32 9 ++ List.replicate 96 1 ++ beBytes 4 10 ++ beBytes 4 4 ++ zeros 48 ++ beBytes 4 96 ++ zeros 96 ++ beBytes 4 1 ++ [0]))], chal := [(o.code.toNat, (beBytes 6 5 ++ beBytes 4 7 ++ List.replicate 32 9))] }, .burn (2 ^ (8 * 0x1E1 + 0)), .burn (2 ^ (8 * 0x1E1 + 1)), .burn (2 ^ (8 * 0x1E2 + 0))]; let b := SMap.get [] s.dev.sec.stage code; let sign := beAt b 1 1; let lvl := beAt b 4 4; let r := execReq o .secOwnerLock 0 0 true (.oct []); s.Inv ∧ s.dev.admits r ∧ True ∧ (304 ≤ b.length ∧ beAt b 200 4 = 96 ∧ 1 ≤ beAt b 300 4 ∧ beAt b 300 4 ≤ 9324 ∧ b.length = 304 + beAt b 300 4) ∧ ¬(beAt b 0 1 = p ∧ (sign = 1 ∨ sign = 2) ∧ beAt b 2 2 = 0 ∧ lvl < (if p = 3 then 8 else 1) ∧ 5 ≤ beAt b 144 4 ∧
      beAt b 144 4 ≤ 9 ∧ 1 ≤ beAt b 148 4 ∧ beAt b 148 4 ≤ 4)) ∧
    (let o := serial; let code := o.code.toNat; let p := 2; let s := up [.sec fun x => { x with stage := [(o.code.toNat, ([2, 2] ++ beBytes 2 0 ++ beBytes 4 0 ++ beBytes 8 0 ++ List.replicate 32 9 ++ List.replicate 96 1 ++ beBytes 4 5 ++ beBytes 4 4 ++ zeros 48 ++ beBytes 4 96 ++ zeros 96 ++ beBytes 4 1 ++ [0]))], chal := [(o.code.toNat, (beBytes 6 5 ++ beBytes 4 7 ++ List.replicate 32 9))] }, .burn (2 ^ (8 * 0x1E1 + 0)), .burn (2 ^ (8 * 0x1E1 + 1)), .burn (2 ^ (8 * 0x1E2 + 0))]; let b := SMap.get [] s.dev.sec.stage code; let sign := beAt b 1 1; let lvl := beAt b 4 4; let l := s.dev.lifecycle; let r := execReq o .secOwnerLock 0 0 true (.oct []); s.Inv ∧ s.dev.admits r ∧ True ∧ (304 ≤ b.length ∧ beAt b 200 4 = 96 ∧ 1 ≤ beAt b 300 4 ∧ beAt b 300 4 ≤ 9324 ∧ b.length = 304 + beAt b 300 4) ∧ (beAt b 0 1 = p ∧ (sign = 1 ∨ sign = 2) ∧ beAt b 2 2 = 0 ∧ lvl < (if p = 3 then 8 else 1) ∧ 5 ≤ beAt b 144 4 ∧
      beAt b 144 4 ≤ 9 ∧ 1 ≤ beAt b 148 4 ∧ beAt b 148 4 ≤ 4) ∧ ¬((p = 1 ∧ sign = 1 ∧ (l = 1 ∨ (l = 2 ∧ s.dev.ownerEnrolled = false))) ∨
      (p = 2 ∧ sign = 1 ∧ l = 2 ∧ s.dev.ownerEnrolled = true ∧ s.dev.ownerLocked = false) ∨
      (p = 3 ∧ sign = 1 ∧ l = 2 ∧ s.dev.ownerEnrolled = true ∧ lvl < 4) ∨
      (p = 3 ∧ sign = 2 ∧ (l = 0 ∨ l = 3 ∨ (lvl < 4 ∧ (l = 1 ∨ (l = 2 ∧ s.dev.ownerEnrolled = false))))) ∨
      (p = 4 ∧ (l = 1 ∨ l = 2) ∧ sign = (if s.dev.ownerEnrolled then 1 else 2)) ∨
      (p = 5 ∧ sign = 1 ∧ s.dev.ownerLocked = true) ∨ (p = 6 ∧ sign = 2 ∧ l = 0))) ∧
    (let o := serial; let code := o.code.toNat; let p := 2; let s := up [.sec fun x => { x with stage := [(o.code.toNat, ([2, 1] ++ beBytes 2 0 ++ beBytes 4 0 ++ beBytes 8 0 ++ List.replicate 32 9 ++ List.replicate 96 1 ++ beBytes 4 5 ++ beBytes 4 4 ++ zeros 48 ++ beBytes 4 96 ++ zeros 96 ++ beBytes 4 1 ++ [0]))], chal := [(o.code.toNat, (beBytes 6 5 ++ beBytes 4 7 ++ List.replicate 32 9))] }, .burn (2 ^ (8 * 0x1E1 + 0)), .burn (2 ^ (8 * 0x1E1 + 1)), .burn (2 ^ (8 * 0x1E2 + 0)), .tim fun t => { t with secs := 5, ns := 8 }]; let b := SMap.get [] s.dev.sec.stage code; let ch := SMap.get [] s.dev.sec.chal code; let sign := beAt b 1 1; let lvl := beAt b 4 4; let l := s.dev.lifecycle; let r := execReq o .secOwnerLock 0 0 true (.oct []); s.Inv ∧ s.dev.admits r ∧ True ∧ (304 ≤ b.length ∧ beAt b 200 4 = 96 ∧ 1 ≤ beAt b 300 4 ∧ beAt b 300 4 ≤ 9324 ∧ b.length = 304 + beAt b 300 4) ∧ (beAt b 0 1 = p ∧ (sign = 1 ∨ sign = 2) ∧ beAt b 2 2 = 0 ∧ lvl < (if p = 3 then 8 else 1) ∧ 5 ≤ beAt b 144 4 ∧
      beAt b 144 4 ≤ 9 ∧ 1 ≤ beAt b 148 4 ∧ beAt b 148 4 ≤ 4) ∧ ((p = 1 ∧ sign = 1 ∧ (l = 1 ∨ (l = 2 ∧ s.dev.ownerEnrolled = false))) ∨
      (p = 2 ∧ sign = 1 ∧ l = 2 ∧ s.dev.ownerEnrolled = true ∧ s.dev.ownerLocked = false) ∨
      (p = 3 ∧ sign = 1 ∧ l = 2 ∧ s.dev.ownerEnrolled = true ∧ lvl < 4) ∨
      (p = 3 ∧ sign = 2 ∧ (l = 0 ∨ l = 3 ∨ (lvl < 4 ∧ (l = 1 ∨ (l = 2 ∧ s.dev.ownerEnrolled = false))))) ∨
      (p = 4 ∧ (l = 1 ∨ l = 2) ∧ sign = (if s.dev.ownerEnrolled then 1 else 2)) ∨
      (p = 5 ∧ sign = 1 ∧ s.dev.ownerLocked = true) ∨ (p = 6 ∧ sign = 2 ∧ l = 0)) ∧ (beAt b 8 8 ≠ s.dev.num .idTerminal ∨ s.dev.stillValid ch = false ∨ slice b 16 32 ≠ ch.drop 10)) := by
  simp only [inv_iff, admits_iff]
  and_intros <;> decide +kernel

theorem meets_SecurityCommands_2 :
    (let o := serial; let code := o.code.toNat; let s := up [.sec fun x => { x with stage := [(o.code.toNat, ([3, 1] ++ beBytes 2 0 ++ beBytes 4 0 ++ beBytes 8 0 ++ List.replicate 32 9 ++ List.replicate 96 1 ++ beBytes 4 5 ++ beBytes 4 4 ++ zeros 48 ++ beBytes 4 96 ++ zeros 96 ++ beBytes 4 1 ++ []))], chal := [(o.code.toNat, (beBytes 6 5 ++ beBytes 4 7 ++ List.replicate 32 9))] }, .burn (2 ^ (8 * 0x1E1 + 0)), .burn (2 ^ (8 * 0x1E1 + 1)), .burn (2 ^ (8 * 0x1E2 + 0)), .obj .rstStraps 0 0 (.num 9)]; let b := SMap.get [] s.dev.sec.stage code; let r := execReq o .secDebugUnlock 0 0 true (.oct []); s.Inv ∧ s.dev.admits r ∧ bitOf (s.dev.num .rstStraps) 3 = true ∧ ¬(304 ≤ b.length ∧ beAt b 200 4 = 96 ∧ 1 ≤ beAt b 300 4 ∧ beAt b 300 4 ≤ 9324 ∧ b.length = 304 + beAt b 300 4)) ∧
    (let o := serial; let code := o.code.toNat; let p := 3; let s := up [.sec fun x => { x with stage := [(o.code.toNat, ([3, 1] ++ beBytes 2 0 ++ beBytes 4 0 ++ beBytes 8 0 ++ List.replicate 32 9 ++ List.replicate 96 1 ++ beBytes 4 10 ++ beBytes 4 4 ++ zeros 48 ++ beBytes 4 96 ++ zeros 96 ++ beBytes 4 1 ++ [0]))], chal := [(o.code.toNat, (beBytes 6 5 ++ beBytes 4 7 ++ List.replicate 32 9))] }, .burn (2 ^ (8 * 0x1E1 + 0)), .burn (2 ^ (8 * 0x1E1 + 1)), .burn (2 ^ (8 * 0x1E2 + 0)), .obj .rstStraps 0 0 (.num 9)]; let b := SMap.get [] s.dev.sec.stage code; let sign := beAt b 1 1; let lvl := beAt b 4 4; let r := execReq o .secDebugUnlock 0 0 true (.oct []); s.Inv ∧ s.dev.admits r ∧ bitOf (s.dev.num .rstStraps) 3 = true ∧ (304 ≤ b.length ∧ beAt b 200 4 = 96 ∧ 1 ≤ beAt b 300 4 ∧ beAt b 300 4 ≤ 9324 ∧ b.length = 304 + beAt b 300 4) ∧ ¬(beAt b 0 1 = p ∧ (sign = 1 ∨ sign = 2) ∧ beAt b 2 2 = 0 ∧ lvl < (if p = 3 then 8 else 1) ∧ 5 ≤ beAt b 144 4 ∧
      beAt b 144 4 ≤ 9 ∧ 1 ≤ beAt b 148 4 ∧ beAt b 148 4 ≤ 4)) ∧
    (let o := serial; let code := o.code.toNat; let p := 3; let s := up [.sec fun x => { x with stage := [(o.code.toNat, ([3, 1] ++ beBytes 2 0 ++ beBytes 4 7 ++ beBytes 8 0 ++ List.replicate 32 9 ++ List.replicate 96 1 ++ beBytes 4 5 ++ beBytes 4 4 ++ zeros 48 ++ beBytes 4 96 ++ zeros 96 ++ beBytes 4 1 ++ [0]))], chal := [(o.code.toNat, (beBytes 6 5 ++ beBytes 4 7 ++ List.replicate 32 9))] }, .burn (2 ^ (8 * 0x1E1 + 0)), .burn (2 ^ (8 * 0x1E1 + 1)), .burn (2 ^ (8 * 0x1E2 + 0)), .obj .rstStraps 0 0 (.num 9)]; let b := SMap.get [] s.dev.sec.stage code; let sign := beAt b 1 1; let lvl := beAt b 4 4; let l := s.dev.lifecycle; let r := execReq o .secDebugUnlock 0 0 true (.oct []); s.Inv ∧ s.dev.admits r ∧ bitOf (s.dev.num .rstStraps) 3 = true ∧ (304 ≤ b.length ∧ beAt b 200 4 = 96 ∧ 1 ≤ beAt b 300 4 ∧ beAt b 300 4 ≤ 9324 ∧ b.length = 304 + beAt b 300 4) ∧ (beAt b 0 1 = p ∧ (sign = 1 ∨ sign = 2) ∧ beAt b 2 2 = 0 ∧ lvl < (if p = 3 then 8 else 1) ∧ 5 ≤ beAt b 144 4 ∧
      beAt b 144 4 ≤ 9 ∧ 1 ≤ beAt b 148 4 ∧ beAt b 148 4 ≤ 4) ∧ ¬((p = 1 ∧ sign = 1 ∧ (l = 1 ∨ (l = 2 ∧ s.dev.ownerEnrolled = false))) ∨
      (p = 2 ∧ sign = 1 ∧ l = 2 ∧ s.dev.ownerEnrolled = true ∧ s.dev.ownerLocked = false) ∨
      (p = 3 ∧ sign = 1 ∧ l = 2 ∧ s.dev.ownerEnrolled = true ∧ lvl < 4) ∨
      (p = 3 ∧ sign = 2 ∧ (l = 0 ∨ l = 3 ∨ (lvl < 4 ∧ (l = 1 ∨ (l = 2 ∧ s.dev.ownerEnrolled = false))))) ∨
      (p = 4 ∧ (l = 1 ∨ l = 2) ∧ sign = (if s.dev.ownerEnrolled then 1 else 2)) ∨
      (p = 5 ∧ sign = 1 ∧ s.dev.ownerLocked = true) ∨ (p = 6 ∧ sign = 2 ∧ l = 0))) ∧
    (let o := serial; let code := o.code.toNat; let p := 3; let s := up [.sec fun x => { x with stage := [(o.code.toNat, ([3, 1] ++ beBytes 2 0 ++ beBytes 4 0 ++ beBytes 8 1 ++ List.replicate 32 9 ++ List.replicate 96 1 ++ beBytes 4 5 ++ beBytes 4 4 ++ zeros 48 ++ beBytes 4 96 ++ zeros 96 ++ beBytes 4 1 ++ [0]))], chal := [(o.code.toNat, (beBytes 6 5 ++ beBytes 4 7 ++ List.replicate 32 9))] }, .burn (2 ^ (8 * 0x1E1 + 0)), .burn (2 ^ (8 * 0x1E1 + 1)), .burn (2 ^ (8 * 0x1E2 + 0)), .obj .rstStraps 0 0 (.num 9)]; let b := SMap.get [] s.dev.sec.stage code; let ch := SMap.get [] s.dev.sec.chal code; let sign := beAt b 1 1; let lvl := beAt b 4 4; let l := s.dev.lifecycle; let r := execReq o .secDebugUnlock 0 0 true (.oct []); s.Inv ∧ s.dev.admits r ∧ bitOf (s.dev.num .rstStraps) 3 = true ∧ (304 ≤ b.length ∧ beAt b 200 4 = 96 ∧ 1 ≤ beAt b 300 4 ∧ beAt b 300 4 ≤ 9324 ∧ b.length = 304 + beAt b 300 4) ∧ (beAt b 0 1 = p ∧ (sign = 1 ∨ sign = 2) ∧ beAt b 2 2 = 0 ∧ lvl < (if p = 3 then 8 else 1) ∧ 5 ≤ beAt b 144 4 ∧
      beAt b 144 4 ≤ 9 ∧ 1 ≤ beAt b 148 4 ∧ beAt b 148 4 ≤ 4) ∧ ((p = 1 ∧ sign = 1 ∧ (l = 1 ∨ (l = 2 ∧ s.dev.ownerEnrolled = false))) ∨
      (p = 2 ∧ sign = 1 ∧ l = 2 ∧ s.dev.ownerEnrolled = true ∧ s.dev.ownerLocked = false) ∨
      (p = 3 ∧ sign = 1 ∧ l = 2 ∧ s.dev.ownerEnrolled = true ∧ lvl < 4) ∨
      (p = 3 ∧ sign = 2 ∧ (l = 0 ∨ l = 3 ∨ (lvl < 4 ∧ (l = 1 ∨ (l = 2 ∧ s.dev.ownerEnrolled = false))))) ∨
      (p = 4 ∧ (l = 1 ∨ l = 2) ∧ sign = (if s.dev.ownerEnrolled then 1 else 2)) ∨
      (p = 5 ∧ sign = 1 ∧ s.dev.ownerLocked = true) ∨ (p = 6 ∧ sign = 2 ∧ l = 0)) ∧ (beAt b 8 8 ≠ s.dev.num .idTerminal ∨ s.dev.stillValid ch = false ∨ slice b 16 32 ≠ ch.drop 10)) ∧
    (let o := serial; let code := o.code.toNat; let s := up [.sec fun x => { x with stage := [(o.code.toNat, ([4, 1] ++ beBytes 2 0 ++ beBytes 4 0 ++ beBytes 8 0 ++ List.replicate 32 9 ++ List.replicate 96 1 ++ beBytes 4 5 ++ beBytes 4 4 ++ zeros 48 ++ beBytes 4 96 ++ zeros 96 ++ beBytes 4 1 ++ []))], chal := [(o.code.toNat, (beBytes 6 5 ++ beBytes 4 7 ++ List.replicate 32 9))] }, .burn (2 ^ (8 * 0x1E1 + 0)), .burn (2 ^ (8 * 0x1E1 + 1)), .burn (2 ^ (8 * 0x1E2 + 0))]; let b := SMap.get [] s.dev.sec.stage code; let l := s.dev.lifecycle; let r := execReq o .secLifecycleAdvance 0 0 true (.num 3); s.Inv ∧ s.dev.admits r ∧ l < 3 ∧ (∀ k ∈ List.range (16), beAt (s.dev.oct .secKekState) (3 * k) 1 ≠ 1) ∧ ¬(304 ≤ b.length ∧ beAt b 200 4 = 96 ∧ 1 ≤ beAt b 300 4 ∧ beAt b 300 4 ≤ 9324 ∧ b.length = 304 + beAt b 300 4)) ∧
    (let o := serial; let code := o.code.toNat; let p := 4; let s := up [.sec fun x => { x with stage := [(o.code.toNat, ([4, 1] ++ beBytes 2 0 ++ beBytes 4 0 ++ beBytes 8 0 ++ List.replicate 32 9 ++ List.replicate 96 1 ++ beBytes 4 10 ++ beBytes 4 4 ++ zeros 48 ++ beBytes 4 96 ++ zeros 96 ++ beBytes 4 1 ++ [0]))], chal := [(o.code.toNat, (beBytes 6 5 ++ beBytes 4 7 ++ List.replicate 32 9))] }, .burn (2 ^ (8 * 0x1E1 + 0)), .burn (2 ^ (8 * 0x1E1 + 1)), .burn (2 ^ (8 * 0x1E2 + 0))]; let b := SMap.get [] s.dev.sec.stage code; let sign := beAt b 1 1; let lvl := beAt b 4 4; let l := s.dev.lifecycle; let r := execReq o .secLifecycleAdvance 0 0 true (.num 3); s.Inv ∧ s.dev.admits r ∧ l < 3 ∧ (∀ k ∈ List.range (16), beAt (s.dev.oct .secKekState) (3 * k) 1 ≠ 1) ∧ (304 ≤ b.length ∧ beAt b 200 4 = 96 ∧ 1 ≤ beAt b 300 4 ∧ beAt b 300 4 ≤ 9324 ∧ b.length = 304 + beAt b 300 4) ∧ ¬(beAt b 0 1 = p ∧ (sign = 1 ∨ sign = 2) ∧ beAt b 2 2 = 0 ∧ lvl < (if p = 3 then 8 else 1) ∧ 5 ≤ beAt b 144 4 ∧
      beAt b 144 4 ≤ 9 ∧ 1 ≤ beAt b 148 4 ∧ beAt b 148 4 ≤ 4)) ∧
    (let o := serial; let code := o.code.toNat; let p := 4; let s := up [.sec fun x => { x with stage := [(o.code.toNat, ([4, 2] ++ beBytes 2 0 ++ beBytes 4 0 ++ beBytes 8 0 ++ List.replicate 32 9 ++ List.replicate 96 1 ++ beBytes 4 5 ++ beBytes 4 4 ++ zeros 48 ++ beBytes 4 96 ++ zeros 96 ++ beBytes 4 1 ++ [0]))], chal := [(o.code.toNat, (beBytes 6 5 ++ beBytes 4 7 ++ List.replicate 32 9))] }, .burn (2 ^ (8 * 0x1E1 + 0)), .burn (2 ^ (8 * 0x1E1 + 1)), .burn (2 ^ (8 * 0x1E2 + 0))]; let b := SMap.get [] s.dev.sec.stage code; let sign := beAt b 1 1; let lvl := beAt b 4 4; let l := s.dev.lifecycle; let r := execReq o .secLifecycleAdvance 0 0 true (.num 3); s.Inv ∧ s.dev.admits r ∧ l < 3 ∧ (∀ k ∈ List.range (16), beAt (s.dev.oct .secKekState) (3 * k) 1 ≠ 1) ∧ (304 ≤ b.length ∧ beAt b 200 4 = 96 ∧ 1 ≤ beAt b 300 4 ∧ beAt b 300 4 ≤ 9324 ∧ b.length = 304 + beAt b 300 4) ∧ (beAt b 0 1 = p ∧ (sign = 1 ∨ sign = 2) ∧ beAt b 2 2 = 0 ∧ lvl < (if p = 3 then 8 else 1) ∧ 5 ≤ beAt b 144 4 ∧
      beAt b 144 4 ≤ 9 ∧ 1 ≤ beAt b 148 4 ∧ beAt b 148 4 ≤ 4) ∧ ¬((p = 1 ∧ sign = 1 ∧ (l = 1 ∨ (l = 2 ∧ s.dev.ownerEnrolled = false))) ∨
      (p = 2 ∧ sign = 1 ∧ l = 2 ∧ s.dev.ownerEnrolled = true ∧ s.dev.ownerLocked = false) ∨
      (p = 3 ∧ sign = 1 ∧ l = 2 ∧ s.dev.ownerEnrolled = true ∧ lvl < 4) ∨
      (p = 3 ∧ sign = 2 ∧ (l = 0 ∨ l = 3 ∨ (lvl < 4 ∧ (l = 1 ∨ (l = 2 ∧ s.dev.ownerEnrolled = false))))) ∨
      (p = 4 ∧ (l = 1 ∨ l = 2) ∧ sign = (if s.dev.ownerEnrolled then 1 else 2)) ∨
      (p = 5 ∧ sign = 1 ∧ s.dev.ownerLocked = true) ∨ (p = 6 ∧ sign = 2 ∧ l = 0))) ∧
    (let o := serial; let code := o.code.toNat; let p := 4; let s := up [.sec fun x => { x with stage := [(o.code.toNat, ([4, 1] ++ beBytes 2 0 ++ beBytes 4 0 ++ beBytes 8 0 ++ List.replicate 32 9 ++ List.replicate 96 1 ++ beBytes 4 5 ++ beBytes 4 4 ++ zeros 48 ++ beBytes 4 96 ++ zeros 96 ++ beBytes 4 1 ++ [0]))], chal := [(o.code.toNat, (beBytes 6 5 ++ beBytes 4 7 ++ List.replicate 32 9))] }, .burn (2 ^ (8 * 0x1E1 + 0)), .burn (2 ^ (8 * 0x1E1 + 1)), .burn (2 ^ (8 * 0x1E2 + 0)), .tim fun t => { t with secs := 5, ns := 8 }]; let b := SMap.get [] s.dev.sec.stage code; let ch := SMap.get [] s.dev.sec.chal code; let sign := beAt b 1 1; let lvl := beAt b 4 4; let l := s.dev.lifecycle; let r := execReq o .secLifecycleAdvance 0 0 true (.num 3); s.Inv ∧ s.dev.admits r ∧ l < 3 ∧ (∀ k ∈ List.range (16), beAt (s.dev.oct .secKekState) (3 * k) 1 ≠ 1) ∧ (304 ≤ b.length ∧ beAt b 200 4 = 96 ∧ 1 ≤ beAt b 300 4 ∧ beAt b 300 4 ≤ 9324 ∧ b.length = 304 + beAt b 300 4) ∧ (beAt b 0 1 = p ∧ (sign = 1 ∨ sign = 2) ∧ beAt b 2 2 = 0 ∧ lvl < (if p = 3 then 8 else 1) ∧ 5 ≤ beAt b 144 4 ∧
      beAt b 144 4 ≤ 9 ∧ 1 ≤ beAt b 148 4 ∧ beAt b 148 4 ≤ 4) ∧ ((p = 1 ∧ sign = 1 ∧ (l = 1 ∨ (l = 2 ∧ s.dev.ownerEnrolled = false))) ∨
      (p = 2 ∧ sign = 1 ∧ l = 2 ∧ s.dev.ownerEnrolled = true ∧ s.dev.ownerLocked = false) ∨
      (p = 3 ∧ sign = 1 ∧ l = 2 ∧ s.dev.ownerEnrolled = true ∧ lvl < 4) ∨
      (p = 3 ∧ sign = 2 ∧ (l = 0 ∨ l = 3 ∨ (lvl < 4 ∧ (l = 1 ∨ (l = 2 ∧ s.dev.ownerEnrolled = false))))) ∨
      (p = 4 ∧ (l = 1 ∨ l = 2) ∧ sign = (if s.dev.ownerEnrolled then 1 else 2)) ∨
      (p = 5 ∧ sign = 1 ∧ s.dev.ownerLocked = true) ∨ (p = 6 ∧ sign = 2 ∧ l = 0)) ∧ (beAt b 8 8 ≠ s.dev.num .idTerminal ∨ s.dev.stillValid ch = false ∨ slice b 16 32 ≠ ch.drop 10)) := by
  simp only [inv_iff, admits_iff]
  and_intros <;> decide +kernel

theorem meets_SecurityCommands_3 :
    (let o := serial; let code := o.code.toNat; let s := up [.sec fun x => { x with stage := [(o.code.toNat, ([5, 1] ++ beBytes 2 0 ++ beBytes 4 0 ++ beBytes 8 0 ++ List.replicate 32 9 ++ List.replicate 96 1 ++ beBytes 4 5 ++ beBytes 4 4 ++ zeros 48 ++ beBytes 4 96 ++ zeros 96 ++ beBytes 4 1 ++ []))], chal := [(o.code.toNat, (beBytes 6 5 ++ beBytes 4 7 ++ List.replicate 32 9))] }, .burn (2 ^ (8 * 0x1E1 + 0)), .burn (2 ^ (8 * 0x1E1 + 1)), .burn (2 ^ (8 * 0x1E2 + 0)), .burn (2 ^ (8 * 0x1E2 + 1))]; let b := SMap.get [] s.dev.sec.stage code; let r := execReq o .secAuthIssue 0 0 true (.oct []); s.Inv ∧ s.dev.admits r ∧ s.dev.ownerLocked = true ∧ s.dev.sec.trngOff = false ∧ ¬(304 ≤ b.length ∧ beAt b 200 4 = 96 ∧ 1 ≤ beAt b 300 4 ∧ beAt b 300 4 ≤ 9324 ∧ b.length = 304 + beAt b 300 4)) ∧
    (let o := serial; let code := o.code.toNat; let p := 5; let s := up [.sec fun x => { x with stage := [(o.code.toNat, ([5, 1] ++ beBytes 2 0 ++ beBytes 4 0 ++ beBytes 8 0 ++ List.replicate 32 9 ++ List.replicate 96 1 ++ beBytes 4 10 ++ beBytes 4 4 ++ zeros 48 ++ beBytes 4 96 ++ zeros 96 ++ beBytes 4 1 ++ [0]))], chal := [(o.code.toNat, (beBytes 6 5 ++ beBytes 4 7 ++ List.replicate 32 9))] }, .burn (2 ^ (8 * 0x1E1 + 0)), .burn (2 ^ (8 * 0x1E1 + 1)), .burn (2 ^ (8 * 0x1E2 + 0)), .burn (2 ^ (8 * 0x1E2 + 1))]; let b := SMap.get [] s.dev.sec.stage code; let sign := beAt b 1 1; let lvl := beAt b 4 4; let r := execReq o .secAuthIssue 0 0 true (.oct []); s.Inv ∧ s.dev.admits r ∧ s.dev.ownerLocked = true ∧ s.dev.sec.trngOff = false ∧ (304 ≤ b.length ∧ beAt b 200 4 = 96 ∧ 1 ≤ beAt b 300 4 ∧ beAt b 300 4 ≤ 9324 ∧ b.length = 304 + beAt b 300 4) ∧ ¬(beAt b 0 1 = p ∧ (sign = 1 ∨ sign = 2) ∧ beAt b 2 2 = 0 ∧ lvl < (if p = 3 then 8 else 1) ∧ 5 ≤ beAt b 144 4 ∧
      beAt b 144 4 ≤ 9 ∧ 1 ≤ beAt b 148 4 ∧ beAt b 148 4 ≤ 4)) ∧
    (let o := serial; let code := o.code.toNat; let p := 5; let s := up [.sec fun x => { x with stage := [(o.code.toNat, ([5, 2] ++ beBytes 2 0 ++ beBytes 4 0 ++ beBytes 8 0 ++ List.replicate 32 9 ++ List.replicate 96 1 ++ beBytes 4 5 ++ beBytes 4 4 ++ zeros 48 ++ beBytes 4 96 ++ zeros 96 ++ beBytes 4 1 ++ [0]))], chal := [(o.code.toNat, (beBytes 6 5 ++ beBytes 4 7 ++ List.replicate 32 9))] }, .burn (2 ^ (8 * 0x1E1 + 0)), .burn (2 ^ (8 * 0x1E1 + 1)), .burn (2 ^ (8 * 0x1E2 + 0)), .burn (2 ^ (8 * 0x1E2 + 1))]; let b := SMap.get [] s.dev.sec.stage code; let sign := beAt b 1 1; let lvl := beAt b 4 4; let l := s.dev.lifecycle; let r := execReq o .secAuthIssue 0 0 true (.oct []); s.Inv ∧ s.dev.admits r ∧ s.dev.ownerLocked = true ∧ s.dev.sec.trngOff = false ∧ (304 ≤ b.length ∧ beAt b 200 4 = 96 ∧ 1 ≤ beAt b 300 4 ∧ beAt b 300 4 ≤ 9324 ∧ b.length = 304 + beAt b 300 4) ∧ (beAt b 0 1 = p ∧ (sign = 1 ∨ sign = 2) ∧ beAt b 2 2 = 0 ∧ lvl < (if p = 3 then 8 else 1) ∧ 5 ≤ beAt b 144 4 ∧
      beAt b 144 4 ≤ 9 ∧ 1 ≤ beAt b 148 4 ∧ beAt b 148 4 ≤ 4) ∧ ¬((p = 1 ∧ sign = 1 ∧ (l = 1 ∨ (l = 2 ∧ s.dev.ownerEnrolled = false))) ∨
      (p = 2 ∧ sign = 1 ∧ l = 2 ∧ s.dev.ownerEnrolled = true ∧ s.dev.ownerLocked = false) ∨
      (p = 3 ∧ sign = 1 ∧ l = 2 ∧ s.dev.ownerEnrolled = true ∧ lvl < 4) ∨
      (p = 3 ∧ sign = 2 ∧ (l = 0 ∨ l = 3 ∨ (lvl < 4 ∧ (l = 1 ∨ (l = 2 ∧ s.dev.ownerEnrolled = false))))) ∨
      (p = 4 ∧ (l = 1 ∨ l = 2) ∧ sign = (if s.dev.ownerEnrolled then 1 else 2)) ∨
      (p = 5 ∧ sign = 1 ∧ s.dev.ownerLocked = true) ∨ (p = 6 ∧ sign = 2 ∧ l = 0))) ∧
    (let o := serial; let code := o.code.toNat; let p := 5; let s := up [.sec fun x => { x with stage := [(o.code.toNat, ([5, 1] ++ beBytes 2 0 ++ beBytes 4 0 ++ beBytes 8 1 ++ List.replicate 32 9 ++ List.replicate 96 1 ++ beBytes 4 5 ++ beBytes 4 4 ++ zeros 48 ++ beBytes 4 96 ++ zeros 96 ++ beBytes 4 1 ++ [0]))], chal := [(o.code.toNat, (beBytes 6 5 ++ beBytes 4 7 ++ List.replicate 32 9))] }, .burn (2 ^ (8 * 0x1E1 + 0)), .burn (2 ^ (8 * 0x1E1 + 1)), .burn (2 ^ (8 * 0x1E2 + 0)), .burn (2 ^ (8 * 0x1E2 + 1))]; let b := SMap.get [] s.dev.sec.stage code; let ch := SMap.get [] s.dev.sec.chal code; let sign := beAt b 1 1; let lvl := beAt b 4 4; let l := s.dev.lifecycle; let r := execReq o .secAuthIssue 0 0 true (.oct []); s.Inv ∧ s.dev.admits r ∧ s.dev.ownerLocked = true ∧ s.dev.sec.trngOff = false ∧ (304 ≤ b.length ∧ beAt b 200 4 = 96 ∧ 1 ≤ beAt b 300 4 ∧ beAt b 300 4 ≤ 9324 ∧ b.length = 304 + beAt b 300 4) ∧ (beAt b 0 1 = p ∧ (sign = 1 ∨ sign = 2) ∧ beAt b 2 2 = 0 ∧ lvl < (if p = 3 then 8 else 1) ∧ 5 ≤ beAt b 144 4 ∧
      beAt b 144 4 ≤ 9 ∧ 1 ≤ beAt b 148 4 ∧ beAt b 148 4 ≤ 4) ∧ ((p = 1 ∧ sign = 1 ∧ (l = 1 ∨ (l = 2 ∧ s.dev.ownerEnrolled = false))) ∨
      (p = 2 ∧ sign = 1 ∧ l = 2 ∧ s.dev.ownerEnrolled = true ∧ s.dev.ownerLocked = false) ∨
      (p = 3 ∧ sign = 1 ∧ l = 2 ∧ s.dev.ownerEnrolled = true ∧ lvl < 4) ∨
      (p = 3 ∧ sign = 2 ∧ (l = 0 ∨ l = 3 ∨ (lvl < 4 ∧ (l = 1 ∨ (l = 2 ∧ s.dev.ownerEnrolled = false))))) ∨
      (p = 4 ∧ (l = 1 ∨ l = 2) ∧ sign = (if s.dev.ownerEnrolled then 1 else 2)) ∨
      (p = 5 ∧ sign = 1 ∧ s.dev.ownerLocked = true) ∨ (p = 6 ∧ sign = 2 ∧ l = 0)) ∧ (beAt b 8 8 ≠ s.dev.num .idTerminal ∨ s.dev.stillValid ch = false ∨ slice b 16 32 ≠ ch.drop 10)) ∧
    (let o := serial; let code := o.code.toNat; let s := up [.sec fun x => { x with stage := [(o.code.toNat, ([6, 2] ++ beBytes 2 0 ++ beBytes 4 0 ++ beBytes 8 0 ++ List.replicate 32 9 ++ List.replicate 96 1 ++ beBytes 4 5 ++ beBytes 4 4 ++ zeros 48 ++ beBytes 4 96 ++ zeros 96 ++ beBytes 4 1 ++ []))], chal := [(o.code.toNat, (beBytes 6 5 ++ beBytes 4 7 ++ List.replicate 32 9))] }]; let b := SMap.get [] s.dev.sec.stage code; let l := s.dev.lifecycle; let r := execReq o .secLifecycleAdvance 0 0 true (.num 1); s.Inv ∧ s.dev.admits r ∧ l = 0 ∧ ¬(304 ≤ b.length ∧ beAt b 200 4 = 96 ∧ 1 ≤ beAt b 300 4 ∧ beAt b 300 4 ≤ 9324 ∧ b.length = 304 + beAt b 300 4)) ∧
    (let o := serial; let code := o.code.toNat; let p := 6; let s := up [.sec fun x => { x with stage := [(o.code.toNat, ([6, 2] ++ beBytes 2 0 ++ beBytes 4 0 ++ beBytes 8 0 ++ List.replicate 32 9 ++ List.replicate 96 1 ++ beBytes 4 10 ++ beBytes 4 4 ++ zeros 48 ++ beBytes 4 96 ++ zeros 96 ++ beBytes 4 1 ++ [0]))], chal := [(o.code.toNat, (beBytes 6 5 ++ beBytes 4 7 ++ List.replicate 32 9))] }]; let b := SMap.get [] s.dev.sec.stage code; let sign := beAt b 1 1; let lvl := beAt b 4 4; let l := s.dev.lifecycle; let r := execReq o .secLifecycleAdvance 0 0 true (.num 1); s.Inv ∧ s.dev.admits r ∧ l = 0 ∧ (304 ≤ b.length ∧ beAt b 200 4 = 96 ∧ 1 ≤ beAt b 300 4 ∧ beAt b 300 4 ≤ 9324 ∧ b.length = 304 + beAt b 300 4) ∧ ¬(beAt b 0 1 = p ∧ (sign = 1 ∨ sign = 2) ∧ beAt b 2 2 = 0 ∧ lvl < (if p = 3 then 8 else 1) ∧ 5 ≤ beAt b 144 4 ∧
      beAt b 144 4 ≤ 9 ∧ 1 ≤ beAt b 148 4 ∧ beAt b 148 4 ≤ 4)) ∧
    (let o := serial; let code := o.code.toNat; let p := 6; let s := up [.sec fun x => { x with stage := [(o.code.toNat, ([6, 1] ++ beBytes 2 0 ++ beBytes 4 0 ++ beBytes 8 0 ++ List.replicate 32 9 ++ List.replicate 96 1 ++ beBytes 4 5 ++ beBytes 4 4 ++ zeros 48 ++ beBytes 4 96 ++ zeros 96 ++ beBytes 4 1 ++ [0]))], chal := [(o.code.toNat, (beBytes 6 5 ++ beBytes 4 7 ++ List.replicate 32 9))] }]; let b := SMap.get [] s.dev.sec.stage code; let sign := beAt b 1 1; let lvl := beAt b 4 4; let l := s.dev.lifecycle; let r := execReq o .secLifecycleAdvance 0 0 true (.num 1); s.Inv ∧ s.dev.admits r ∧ l = 0 ∧ (304 ≤ b.length ∧ beAt b 200 4 = 96 ∧ 1 ≤ beAt b 300 4 ∧ beAt b 300 4 ≤ 9324 ∧ b.length = 304 + beAt b 300 4) ∧ (beAt b 0 1 = p ∧ (sign = 1 ∨ sign = 2) ∧ beAt b 2 2 = 0 ∧ lvl < (if p = 3 then 8 else 1) ∧ 5 ≤ beAt b 144 4 ∧
      beAt b 144 4 ≤ 9 ∧ 1 ≤ beAt b 148 4 ∧ beAt b 148 4 ≤ 4) ∧ ¬((p = 1 ∧ sign = 1 ∧ (l = 1 ∨ (l = 2 ∧ s.dev.ownerEnrolled = false))) ∨
      (p = 2 ∧ sign = 1 ∧ l = 2 ∧ s.dev.ownerEnrolled = true ∧ s.dev.ownerLocked = false) ∨
      (p = 3 ∧ sign = 1 ∧ l = 2 ∧ s.dev.ownerEnrolled = true ∧ lvl < 4) ∨
      (p = 3 ∧ sign = 2 ∧ (l = 0 ∨ l = 3 ∨ (lvl < 4 ∧ (l = 1 ∨ (l = 2 ∧ s.dev.ownerEnrolled = false))))) ∨
      (p = 4 ∧ (l = 1 ∨ l = 2) ∧ sign = (if s.dev.ownerEnrolled then 1 else 2)) ∨
      (p = 5 ∧ sign = 1 ∧ s.dev.ownerLocked = true) ∨ (p = 6 ∧ sign = 2 ∧ l = 0))) ∧
    (let o := serial; let code := o.code.toNat; let p := 6; let s := up [.sec fun x => { x with stage := [(o.code.toNat, ([6, 2] ++ beBytes 2 0 ++ beBytes 4 0 ++ beBytes 8 0 ++ List.replicate 32 9 ++ List.replicate 96 1 ++ beBytes 4 5 ++ beBytes 4 4 ++ zeros 48 ++ beBytes 4 96 ++ zeros 96 ++ beBytes 4 1 ++ [0]))], chal := [(o.code.toNat, (beBytes 6 5 ++ beBytes 4 7 ++ List.replicate 32 9))] }, .tim fun t => { t with secs := 5, ns := 8 }]; let b := SMap.get [] s.dev.sec.stage code; let ch := SMap.get [] s.dev.sec.chal code; let sign := beAt b 1 1; let lvl := beAt b 4 4; let l := s.dev.lifecycle; let r := execReq o .secLifecycleAdvance 0 0 true (.num 1); s.Inv ∧ s.dev.admits r ∧ l = 0 ∧ (304 ≤ b.length ∧ beAt b 200 4 = 96 ∧ 1 ≤ beAt b 300 4 ∧ beAt b 300 4 ≤ 9324 ∧ b.length = 304 + beAt b 300 4) ∧ (beAt b 0 1 = p ∧ (sign = 1 ∨ sign = 2) ∧ beAt b 2 2 = 0 ∧ lvl < (if p = 3 then 8 else 1) ∧ 5 ≤ beAt b 144 4 ∧
      beAt b 144 4 ≤ 9 ∧ 1 ≤ beAt b 148 4 ∧ beAt b 148 4 ≤ 4) ∧ ((p = 1 ∧ sign = 1 ∧ (l = 1 ∨ (l = 2 ∧ s.dev.ownerEnrolled = false))) ∨
      (p = 2 ∧ sign = 1 ∧ l = 2 ∧ s.dev.ownerEnrolled = true ∧ s.dev.ownerLocked = false) ∨
      (p = 3 ∧ sign = 1 ∧ l = 2 ∧ s.dev.ownerEnrolled = true ∧ lvl < 4) ∨
      (p = 3 ∧ sign = 2 ∧ (l = 0 ∨ l = 3 ∨ (lvl < 4 ∧ (l = 1 ∨ (l = 2 ∧ s.dev.ownerEnrolled = false))))) ∨
      (p = 4 ∧ (l = 1 ∨ l = 2) ∧ sign = (if s.dev.ownerEnrolled then 1 else 2)) ∨
      (p = 5 ∧ sign = 1 ∧ s.dev.ownerLocked = true) ∨ (p = 6 ∧ sign = 2 ∧ l = 0)) ∧ (beAt b 8 8 ≠ s.dev.num .idTerminal ∨ s.dev.stillValid ch = false ∨ slice b 16 32 ≠ ch.drop 10)) := by
  simp only [inv_iff, admits_iff]
  and_intros <;> decide +kernel

theorem meets_SecurityCommands_4 :
    (let o := serial; let v : BitVec 8 := 4; let s := up []; let r := execReq o .secLifecycleAdvance 0 0 true (.num v.toNat); s.Inv ∧ s.dev.admits r ∧ 3 < v.toNat) ∧
    (let o := serial; let v : BitVec 8 := 2; let s := up [.burn (2 ^ (8 * 0x1E1 + 0)), .burn (2 ^ (8 * 0x1E1 + 1))]; let r := execReq o .secLifecycleAdvance 0 0 true (.num v.toNat); s.Inv ∧ s.dev.admits r ∧ v.toNat ≤ s.dev.lifecycle) ∧
    (let o := serial; let v : BitVec 8 := 2; let fails : List (BitVec 15) := [5]; let s := up [.burn (2 ^ (8 * 0x1E1 + 0))]; let r := execReq o .secLifecycleAdvance 0 0 true (.num v.toNat); s.Inv ∧ s.dev.admits r ∧ v.toNat = 2 ∧ s.dev.lifecycle = 1 ∧ (fails.all fun f => f.toNat != 8 * 0x1E1 + 1) = true) ∧
    (let o := serial; let v : BitVec 8 := 128; let s := up [.sec fun x => { x with run1 := zeros 20 ++ [128], run2 := zeros 20 ++ [127] }]; let r := execReq o .secRollbackCommit 0 0 true (.num v.toNat); s.Inv ∧ s.dev.admits r ∧ (flashNum s.dev.sec.run1 20 1 < v.toNat ∨ flashNum s.dev.sec.run2 20 1 < v.toNat)) ∧
    (let o := serial; let v : BitVec 8 := 126; let s := up [.sec fun x => { x with run1 := zeros 20 ++ [128], run2 := zeros 20 ++ [128] }, .burn ((2 ^ 126 - 1) * 2 ^ (8 * 0x1F0))]; let r := execReq o .secRollbackCommit 0 0 true (.num v.toNat); s.Inv ∧ s.dev.admits r ∧ v.toNat ≤ flashNum s.dev.sec.run1 20 1 ∧ v.toNat ≤ flashNum s.dev.sec.run2 20 1 ∧ v.toNat ≤ s.dev.rollback) ∧
    (let o := serial; let v : BitVec 8 := 128; let fails : List (BitVec 15) := []; let s := up [.sec fun x => { x with run1 := zeros 20 ++ [128], run2 := zeros 20 ++ [128] }, .burn ((2 ^ 126 - 1) * 2 ^ (8 * 0x1F0))]; let r := execReq o .secRollbackCommit 0 0 true (.num v.toNat); s.Inv ∧ s.dev.admits r ∧ v.toNat ≤ flashNum s.dev.sec.run1 20 1 ∧ v.toNat ≤ flashNum s.dev.sec.run2 20 1 ∧ s.dev.rollback < v.toNat ∧ v.toNat ≤ 128 ∧ fails = []) ∧
    (let o := host; let s := up [.sec fun x => { x with trngOff := true }]; let r := readReq o .secChallenge 0 0 (.num 0); s.Inv ∧ s.dev.admits r ∧ s.dev.sec.trngOff = true) ∧
    (let o := host; let s := up []; let r := readReq o .secChallenge 0 0 (.num 0); s.Inv ∧ s.dev.admits r ∧ s.dev.sec.trngOff = false) := by
  simp only [inv_iff, admits_iff]
  and_intros <;> decide +kernel

theorem meets_SecurityCommands_5 :
    (let o := sec; let s := up []; let code := o.code.toNat; let r := execReq o .secAuthIssue 0 0 true (.oct []); s.Inv ∧ s.dev.admits r ∧ s.dev.ownerLocked = false ∧ code = 0x0400) ∧
    (let o := serial; let s := up [.sec fun x => { x with trngOff := true }]; let code := o.code.toNat; let r := execReq o .secAuthIssue 0 0 true (.oct []); s.Inv ∧ s.dev.admits r ∧ s.dev.ownerLocked = false ∧ code ≠ 0x0400 ∧ s.dev.sec.trngOff = true) ∧
    (let o := serial; let s := up []; let code := o.code.toNat; let r := execReq o .secAuthIssue 0 0 true (.oct []); s.Inv ∧ s.dev.admits r ∧ s.dev.ownerLocked = false ∧ code ≠ 0x0400 ∧ s.dev.sec.trngOff = false) ∧
    (let o := serial; let s := up []; let r := execReq o .secDebugUnlock 0 0 true (.oct []); s.Inv ∧ s.dev.admits r ∧ bitOf (s.dev.num .rstStraps) 3 = false) ∧
    (let o := serial; let s := up []; let r := execReq o .secDebugEnd 0 0 true (.oct []); s.Inv ∧ s.dev.admits r ∧ bitOf (s.dev.num .secDebugState) 7 = false) ∧
    (let o := serial; let s := up [.obj .secDebugState 0 0 (.num 131)]; let r := execReq o .secDebugEnd 0 0 true (.oct []); s.Inv ∧ s.dev.admits r ∧ bitOf (s.dev.num .secDebugState) 7 = true) ∧
    (let o := host; let s := up []; let b : List Byte := [0] ++ beBytes 3 0 ++ List.replicate 96 4; let r := execReq o .secKekAgree 0 0 true (.oct b); let k := beAt b 0 1; s.Inv ∧ s.dev.admits r ∧ b.length = 100 ∧ (k = 0 ∨ 15 < k ∨ beAt b 1 3 ≠ 0)) ∧
    (let o := host; let s := up []; let b : List Byte := [16] ++ beBytes 3 0 ++ List.replicate 96 4; let r := execReq o .secKekAgree 0 0 true (.oct b); let k := beAt b 0 1; s.Inv ∧ s.dev.admits r ∧ b.length = 100 ∧ (k = 0 ∨ 15 < k ∨ beAt b 1 3 ≠ 0)) := by
  simp only [inv_iff, admits_iff]
  and_intros <;> decide +kernel

theorem meets_SecurityCommands_6 :
    (let o := host; let s := up []; let b : List Byte := [15] ++ beBytes 3 1 ++ List.replicate 96 4; let r := execReq o .secKekAgree 0 0 true (.oct b); let k := beAt b 0 1; s.Inv ∧ s.dev.admits r ∧ b.length = 100 ∧ (k = 0 ∨ 15 < k ∨ beAt b 1 3 ≠ 0)) ∧
    (let o := host; let s := up [.obj .secKekState 0 0 (.oct (zeros 45 ++ [1, 1, 0])), .key (kekKey 15) [1]]; let code := o.code.toNat; let v : BitVec 8 := 14; let r := execReq o .secKekClear 0 0 true (.num v.toNat); s.Inv ∧ s.dev.admits r ∧ code ≠ 0x0400 ∧ (beAt (s.dev.oct .secKekState) (3 * v.toNat) 1 ≠ 1 ∨ beAt (s.dev.oct .secKekState) (3 * v.toNat + 1) 2 ≠ code)) ∧
    (let o := host; let s := up [.obj .secKekState 0 0 (.oct (zeros 45 ++ [1, 1, 1])), .key (kekKey 15) [1]]; let code := o.code.toNat; let v : BitVec 8 := 15; let r := execReq o .secKekClear 0 0 true (.num v.toNat); s.Inv ∧ s.dev.admits r ∧ code ≠ 0x0400 ∧ (beAt (s.dev.oct .secKekState) (3 * v.toNat) 1 ≠ 1 ∨ beAt (s.dev.oct .secKekState) (3 * v.toNat + 1) 2 ≠ code)) ∧
    (let o := host; let s := up [.obj .secKekState 0 0 (.oct (zeros 45 ++ [1, 1, 0])), .key (kekKey 15) [1]]; let code := o.code.toNat; let v : BitVec 8 := 15; let r := execReq o .secKekClear 0 0 true (.num v.toNat); s.Inv ∧ s.dev.admits r ∧ v.toNat ≤ 15 ∧ (code = 0x0400 ∨ (beAt (s.dev.oct .secKekState) (3 * v.toNat) 1 = 1 ∧
        beAt (s.dev.oct .secKekState) (3 * v.toNat + 1) 2 = code))) ∧
    (let o := sec; let s := up [.obj .secKekState 0 0 (.oct (zeros 45 ++ [1, 1, 0])), .key (kekKey 15) [1]]; let code := o.code.toNat; let v : BitVec 8 := 15; let r := execReq o .secKekClear 0 0 true (.num v.toNat); s.Inv ∧ s.dev.admits r ∧ v.toNat ≤ 15 ∧ (code = 0x0400 ∨ (beAt (s.dev.oct .secKekState) (3 * v.toNat) 1 = 1 ∧
        beAt (s.dev.oct .secKekState) (3 * v.toNat + 1) 2 = code))) ∧
    (let o := sec; let s := up [.obj .secKekState 0 0 (.oct (zeros 45 ++ [1, 1, 0])), .key (kekKey 15) [1]]; let code := o.code.toNat; let v : BitVec 8 := 0; let r := execReq o .secKekClear 0 0 true (.num v.toNat); s.Inv ∧ s.dev.admits r ∧ v.toNat ≤ 15 ∧ (code = 0x0400 ∨ (beAt (s.dev.oct .secKekState) (3 * v.toNat) 1 = 1 ∧
        beAt (s.dev.oct .secKekState) (3 * v.toNat + 1) 2 = code))) ∧
    (let o := serial; let s := up []; let nonce : List Byte := List.replicate 32 6; let r := execReq o .secAttest 0 0 true (.oct nonce); s.Inv ∧ s.dev.admits r ∧ nonce.length = 32 ∧ (s.dev.lifecycle = 0 ∨ s.dev.lifecycle = 3 ∨ s.dev.secSuspended = true ∨ (∀ j ∈ List.range (1024), s.dev.otpBit 0x300 j = true))) ∧
    (let o := serial; let s := up [.burn (2 ^ (8 * 0x1E1 + 0)), .burn (2 ^ (8 * 0x1E1 + 1)), .burn ((2 ^ 1024 - 1) * 2 ^ (8 * 0x300))]; let nonce : List Byte := List.replicate 32 6; let r := execReq o .secAttest 0 0 true (.oct nonce); s.Inv ∧ s.dev.admits r ∧ nonce.length = 32 ∧ (s.dev.lifecycle = 0 ∨ s.dev.lifecycle = 3 ∨ s.dev.secSuspended = true ∨ (∀ j ∈ List.range (1024), s.dev.otpBit 0x300 j = true))) := by
  simp only [inv_iff, admits_iff]
  and_intros <;> decide +kernel

theorem meets_SecurityCommands_7 :
    (let o := serial; let s := up [.burn (2 ^ (8 * 0x1E1 + 0)), .sec fun x => { x with trngOff := true }]; let nonce : List Byte := List.replicate 32 6; let r := execReq o .secAttest 0 0 true (.oct nonce); s.Inv ∧ s.dev.admits r ∧ nonce.length = 32 ∧ (s.dev.lifecycle = 1 ∨ s.dev.lifecycle = 2) ∧ s.dev.secSuspended = false ∧ s.dev.otpBit 0x300 0 = false ∧ s.dev.sec.trngOff = true) ∧
    (let o := serial; let s := up [.burn (2 ^ (8 * 0x1E1 + 0)), .burn (2 ^ (8 * 0x1E1 + 1)), .obj .secLmsNext 0 0 (.num 1047552)]; let nonce : List Byte := List.replicate 32 6; let fails : List (BitVec 15) := [5]; let r := execReq o .secAttest 0 0 true (.oct nonce); let q := s.dev.num .secLmsNext; let k := q / 1024; s.Inv ∧ s.dev.admits r ∧ nonce.length = 32 ∧ (s.dev.lifecycle = 1 ∨ s.dev.lifecycle = 2) ∧ s.dev.secSuspended = false ∧ s.dev.otpBit 0x300 0 = false ∧ s.dev.sec.trngOff = false ∧ k < 1024 ∧ (s.dev.otpBit 0x300 k = true ∨ s.dev.otpBit 0x300 k = false ∧ (fails.all fun y => y.toNat != 8 * 0x300 + k) = true)) ∧
    (let o := serial; let s := up [.burn (2 ^ (8 * 0x1E1 + 0)), .burn (2 ^ (8 * 0x1E1 + 1)), .obj .secLmsNext 0 0 (.num 1032192)]; let nonce : List Byte := List.replicate 32 6; let fails : List (BitVec 15) := [5]; let r := execReq o .secAttest 0 0 true (.oct nonce); let q := s.dev.num .secLmsNext; let k := q / 1024; s.Inv ∧ s.dev.admits r ∧ nonce.length = 32 ∧ (s.dev.lifecycle = 1 ∨ s.dev.lifecycle = 2) ∧ s.dev.secSuspended = false ∧ s.dev.otpBit 0x300 0 = false ∧ s.dev.sec.trngOff = false ∧ k < 1024 ∧ (s.dev.otpBit 0x300 k = true ∨ s.dev.otpBit 0x300 k = false ∧ (fails.all fun y => y.toNat != 8 * 0x300 + k) = true)) ∧
    (let o := serial; let s := up [.burn (2 ^ (8 * 0x1E1 + 0)), .burn (2 ^ (8 * 0x1E1 + 1)), .burn (2 ^ (8 * 0x300 + 7)), .obj .secLmsNext 0 0 (.num 7173)]; let nonce : List Byte := List.replicate 32 6; let fails : List (BitVec 15) := [5]; let r := execReq o .secAttest 0 0 true (.oct nonce); let q := s.dev.num .secLmsNext; let k := q / 1024; s.Inv ∧ s.dev.admits r ∧ nonce.length = 32 ∧ (s.dev.lifecycle = 1 ∨ s.dev.lifecycle = 2) ∧ s.dev.secSuspended = false ∧ s.dev.otpBit 0x300 0 = false ∧ s.dev.sec.trngOff = false ∧ k < 1024 ∧ (s.dev.otpBit 0x300 k = true ∨ s.dev.otpBit 0x300 k = false ∧ (fails.all fun y => y.toNat != 8 * 0x300 + k) = true)) ∧
    (let s := up [.sec fun x => { x with trngOff := true }]; s.Inv ∧ (s.dev.answers = false ∨ s.dev.sec.trngOff = true)) ∧
    (let s := up []; s.Inv ∧ s.dev.answers = true ∧ s.dev.sec.trngOff = false) := by
  simp only [inv_iff, admits_iff]
  and_intros <;> decide +kernel

theorem meets_RecordsRead :
    (let o := serial; let b : List Byte := beBytes 4 0 ++ beBytes 2 0 ++ beBytes 2 0; let s0 : State := up []; let s : State := { s0 with dev := { s0.dev with recd := { s0.dev.recd with recs := [] } } }; let r := execReq o .evrRead 0 0 true (.oct b); s.Inv ∧ b.length = 8 ∧ s.dev.admits r ∧ (beAt b 4 2 = 0 ∨ 127 < beAt b 4 2 ∨ beAt b 6 2 ≠ 0)) ∧
    (let o := serial; let b : List Byte := beBytes 4 0 ++ beBytes 2 128 ++ beBytes 2 0; let s0 : State := up []; let s : State := { s0 with dev := { s0.dev with recd := { s0.dev.recd with recs := [] } } }; let r := execReq o .evrRead 0 0 true (.oct b); s.Inv ∧ b.length = 8 ∧ s.dev.admits r ∧ (beAt b 4 2 = 0 ∨ 127 < beAt b 4 2 ∨ beAt b 6 2 ≠ 0)) ∧
    (let o := serial; let b : List Byte := beBytes 4 0 ++ beBytes 2 1 ++ beBytes 2 1; let s0 : State := up []; let s : State := { s0 with dev := { s0.dev with recd := { s0.dev.recd with recs := [] } } }; let r := execReq o .evrRead 0 0 true (.oct b); s.Inv ∧ b.length = 8 ∧ s.dev.admits r ∧ (beAt b 4 2 = 0 ∨ 127 < beAt b 4 2 ∨ beAt b 6 2 ≠ 0)) ∧
    (let o := serial; let b : List Byte := beBytes 4 (2 ^ 32 - 1) ++ [0, 127, 0, 0]; let s0 : State := up []; let s : State := { s0 with dev := { s0.dev with recd := { s0.dev.recd with recs := [⟨3, 4, 9, 4294967294, 5, 6, 0, 0, 2, 7, 1, 2⟩, ⟨3, 4, 9, 4294967295, 5, 6, 0, 0, 2, 7, 1, 2⟩, ⟨3, 4, 9, 0, 5, 6, 0, 0, 2, 7, 1, 2⟩, ⟨3, 4, 9, 1, 5, 6, 0, 0, 2, 7, 1, 2⟩, ⟨3, 4, 9, 2, 5, 6, 0, 0, 2, 7, 1, 2⟩, ⟨3, 4, 9, 3, 5, 6, 0, 0, 2, 7, 1, 2⟩, ⟨3, 4, 9, 4, 5, 6, 0, 0, 2, 7, 1, 2⟩, ⟨3, 4, 9, 5, 5, 6, 0, 0, 2, 7, 1, 2⟩, ⟨3, 4, 9, 6, 5, 6, 0, 0, 2, 7, 1, 2⟩, ⟨3, 4, 9, 7, 5, 6, 0, 0, 2, 7, 1, 2⟩] } } }; let r := execReq o .evrRead 0 0 true (.oct b); s.Inv ∧ b.length = 8 ∧ s.dev.admits r ∧ 1 ≤ beAt b 4 2 ∧ beAt b 4 2 ≤ 127 ∧ beAt b 6 2 = 0) ∧
    (let o := host; let b : List Byte := beBytes 4 5 ++ [0, 1, 0, 0]; let s0 : State := up []; let s : State := { s0 with dev := { s0.dev with recd := { s0.dev.recd with recs := [⟨3, 4, 9, 5, 5, 6, 0, 0, 2, 7, 1, 2⟩, ⟨3, 4, 9, 6, 5, 6, 0, 0, 2, 7, 1, 2⟩] } } }; let r := execReq o .evrRead 0 0 true (.oct b); s.Inv ∧ b.length = 8 ∧ s.dev.admits r ∧ 1 ≤ beAt b 4 2 ∧ beAt b 4 2 ≤ 127 ∧ beAt b 6 2 = 0) := by
  simp only [inv_iff, admits_iff]
  and_intros <;> decide +kernel

theorem meets_RecorderAndMonitors :
    (let s := State.reset; s.Inv ∧ (s.dev.answers = false ∨ s.dev.occs = [])) ∧
    (let s := up []; s.Inv ∧ (s.dev.answers = false ∨ s.dev.occs = [])) ∧
    (let x : Occ := ⟨3, 2, 7, 1, 2, 5, 6, true⟩; let rest : List Occ := [x, x]; let s0 : State := up [.obj .evrSrcCfg 0 3 (.num 4)]; let s : State := { s0 with dev := { s0.dev with occs := x :: rest, recd := { s0.dev.recd with lastDrop := none } } }; s.Inv ∧ s.dev.answers = true ∧ s.dev.occs = x :: rest ∧ s.dev.rings = [] ∧ s.dev.inRun ∧ (∀ l ∈ List.range (4), bitOf (s.dev.num .hifEvtMap l x.src) 31 = false) ∧ x.src < 512 ∧ x.code < 256 ∧ x.inst < 2 ^ 24 ∧ x.arg0 < 2 ^ 32 ∧ x.arg1 < 2 ^ 32 ∧ bitOf (s.dev.num .evrSrcCfg 0 x.src) 7 = false) ∧
    (let x : Occ := ⟨3, 2, 7, 1, 2, 5, 6, true⟩; let rest : List Occ := List.replicate 300 x; let s0 : State := up [.obj .evrSrcCfg 0 3 (.num 4)]; let s : State := { s0 with dev := { s0.dev with occs := x :: rest, recd := { s0.dev.recd with lastDrop := none } } }; s.Inv ∧ s.dev.answers = true ∧ s.dev.occs = x :: rest ∧ s.dev.rings = [] ∧ s.dev.inRun ∧ (∀ l ∈ List.range (4), bitOf (s.dev.num .hifEvtMap l x.src) 31 = false) ∧ x.src < 512 ∧ x.code < 256 ∧ x.inst < 2 ^ 24 ∧ x.arg0 < 2 ^ 32 ∧ x.arg1 < 2 ^ 32 ∧ bitOf (s.dev.num .evrSrcCfg 0 x.src) 7 = false) ∧
    (let m : BitVec 16 := 0; let x : Occ := ⟨3, 2, 7, 1, 2, 5, 6, true⟩; let rest : List Occ := []; let s0 : State := up [.obj .evrRepeatWindow 0 0 (.num 5)]; let s : State := { s0 with dev := { s0.dev with occs := x :: rest, recd := { s0.dev.recd with recs := [⟨3, 4, 9, 1, 5, 6, 254, 0, 2, 7, 1, 2⟩] } } }; let k := min m.toNat (rest.filter x.like).length; let c := 1 + min k 255; let z : Record := ⟨3, 4, 9, 1, 5, 6, 254, 0, 2, 7, 1, 2⟩; let w := s.dev.num .evrRepeatWindow * 1000000; s.Inv ∧ s.dev.answers = true ∧ s.dev.occs = x :: rest ∧ s.dev.rings = [] ∧ s.dev.inRun ∧ (∀ l ∈ List.range (4), bitOf (s.dev.num .hifEvtMap l x.src) 31 = false) ∧ x.src < 512 ∧ x.code < 256 ∧ x.inst < 2 ^ 24 ∧ x.arg0 < 2 ^ 32 ∧ x.arg1 < 2 ^ 32 ∧ bitOf (s.dev.num .evrSrcCfg 0 x.src) 7 = true ∧ s.dev.recd.frozen = none ∧ s.dev.recd.recs.getLast? = some z ∧ 
        z.src = x.src ∧ z.code = x.code ∧ z.inst = x.inst ∧ z.rep + c ≤ 255 ∧ w ≠ 0 ∧ z.ns < 1000000000 ∧ x.ns < 1000000000 ∧
        z.secs * 1000000000 + z.ns ≤ x.secs * 1000000000 + x.ns ∧
        x.secs * 1000000000 + x.ns < z.secs * 1000000000 + z.ns + w) ∧
    (let m : BitVec 16 := 0; let x : Occ := ⟨3, 2, 7, 1, 2, 5, 4999998, true⟩; let rest : List Occ := []; let s0 : State := up [.obj .evrRepeatWindow 0 0 (.num 5)]; let s : State := { s0 with dev := { s0.dev with occs := x :: rest, recd := { s0.dev.recd with recs := [⟨3, 4, 9, 1, 4, 999999999, 3, 0, 2, 7, 1, 2⟩] } } }; let k := min m.toNat (rest.filter x.like).length; let c := 1 + min k 255; let z : Record := ⟨3, 4, 9, 1, 4, 999999999, 3, 0, 2, 7, 1, 2⟩; let w := s.dev.num .evrRepeatWindow * 1000000; s.Inv ∧ s.dev.answers = true ∧ s.dev.occs = x :: rest ∧ s.dev.rings = [] ∧ s.dev.inRun ∧ (∀ l ∈ List.range (4), bitOf (s.dev.num .hifEvtMap l x.src) 31 = false) ∧ x.src < 512 ∧ x.code < 256 ∧ x.inst < 2 ^ 24 ∧ x.arg0 < 2 ^ 32 ∧ x.arg1 < 2 ^ 32 ∧ bitOf (s.dev.num .evrSrcCfg 0 x.src) 7 = true ∧ s.dev.recd.frozen = none ∧ s.dev.recd.recs.getLast? = some z ∧ 
        z.src = x.src ∧ z.code = x.code ∧ z.inst = x.inst ∧ z.rep + c ≤ 255 ∧ w ≠ 0 ∧ z.ns < 1000000000 ∧ x.ns < 1000000000 ∧
        z.secs * 1000000000 + z.ns ≤ x.secs * 1000000000 + x.ns ∧
        x.secs * 1000000000 + x.ns < z.secs * 1000000000 + z.ns + w) ∧
    (let m : BitVec 16 := 1; let x : Occ := ⟨3, 2, 7, 1, 2, 5, 6, true⟩; let rest : List Occ := [⟨3, 2, 7, 1, 2, 5, 6, true⟩]; let s0 : State := up [.obj .evrNextSeq 0 0 (.num (2 ^ 32 - 1))]; let s : State := { s0 with dev := { s0.dev with occs := x :: rest, recd := { s0.dev.recd with recs := [] } } }; let k := min m.toNat (rest.filter x.like).length; let c := 1 + min k 255; s.Inv ∧ s.dev.answers = true ∧ s.dev.occs = x :: rest ∧ s.dev.rings = [] ∧ s.dev.inRun ∧ (∀ l ∈ List.range (4), bitOf (s.dev.num .hifEvtMap l x.src) 31 = false) ∧ x.src < 512 ∧ x.code < 256 ∧ x.inst < 2 ^ 24 ∧ x.arg0 < 2 ^ 32 ∧ x.arg1 < 2 ^ 32 ∧ bitOf (s.dev.num .evrSrcCfg 0 x.src) 7 = true ∧ s.dev.recd.frozen = none ∧ ((s.dev.recd.recs.getLast?).all fun z => decide (z.src ≠ x.src ∨ z.code ≠ x.code ∨ z.inst ≠ x.inst ∨ 255 < z.rep + c ∨
          s.dev.num .evrRepeatWindow = 0 ∨ x.secs < z.secs ∨ (x.secs = z.secs ∧ x.ns < z.ns))) = true ∧ s.dev.recd.recs.length < 32768) ∧
    (let m : BitVec 16 := 1; let x : Occ := ⟨3, 2, 7, 1, 2, 5, 6, true⟩; let rest : List Occ := [⟨3, 2, 7, 1, 2, 5, 6, true⟩]; let s0 : State := up [.obj .evrNextSeq 0 0 (.num (2 ^ 32 - 1))]; let s : State := { s0 with dev := { s0.dev with occs := x :: rest, recd := { s0.dev.recd with recs := [⟨3, 4, 9, 1, 5, 6, 255, 0, 2, 7, 1, 2⟩] } } }; let k := min m.toNat (rest.filter x.like).length; let c := 1 + min k 255; s.Inv ∧ s.dev.answers = true ∧ s.dev.occs = x :: rest ∧ s.dev.rings = [] ∧ s.dev.inRun ∧ (∀ l ∈ List.range (4), bitOf (s.dev.num .hifEvtMap l x.src) 31 = false) ∧ x.src < 512 ∧ x.code < 256 ∧ x.inst < 2 ^ 24 ∧ x.arg0 < 2 ^ 32 ∧ x.arg1 < 2 ^ 32 ∧ bitOf (s.dev.num .evrSrcCfg 0 x.src) 7 = true ∧ s.dev.recd.frozen = none ∧ ((s.dev.recd.recs.getLast?).all fun z => decide (z.src ≠ x.src ∨ z.code ≠ x.code ∨ z.inst ≠ x.inst ∨ 255 < z.rep + c ∨
          s.dev.num .evrRepeatWindow = 0 ∨ x.secs < z.secs ∨ (x.secs = z.secs ∧ x.ns < z.ns))) = true ∧ s.dev.recd.recs.length < 32768) := by
  simp only [inv_iff, Dev.inRun]
  and_intros <;> decide +kernel

theorem meets_RecorderAndMonitors_2 :
    (let m : BitVec 16 := 1; let x : Occ := ⟨3, 2, 7, 1, 2, 5, 6, true⟩; let rest : List Occ := [⟨3, 2, 7, 1, 2, 5, 6, true⟩]; let s0 : State := up [.obj .evrNextSeq 0 0 (.num (2 ^ 32 - 1))]; let s : State := { s0 with dev := { s0.dev with occs := x :: rest, recd := { s0.dev.recd with recs := [⟨3, 4, 9, 1, 5, 6, 0, 0, 2, 8, 1, 2⟩] } } }; let k := min m.toNat (rest.filter x.like).length; let c := 1 + min k 255; s.Inv ∧ s.dev.answers = true ∧ s.dev.occs = x :: rest ∧ s.dev.rings = [] ∧ s.dev.inRun ∧ (∀ l ∈ List.range (4), bitOf (s.dev.num .hifEvtMap l x.src) 31 = false) ∧ x.src < 512 ∧ x.code < 256 ∧ x.inst < 2 ^ 24 ∧ x.arg0 < 2 ^ 32 ∧ x.arg1 < 2 ^ 32 ∧ bitOf (s.dev.num .evrSrcCfg 0 x.src) 7 = true ∧ s.dev.recd.frozen = none ∧ ((s.dev.recd.recs.getLast?).all fun z => decide (z.src ≠ x.src ∨ z.code ≠ x.code ∨ z.inst ≠ x.inst ∨ 255 < z.rep + c ∨
          s.dev.num .evrRepeatWindow = 0 ∨ x.secs < z.secs ∨ (x.secs = z.secs ∧ x.ns < z.ns))) = true ∧ s.dev.recd.recs.length < 32768) ∧
    (let m : BitVec 16 := 2; let x : Occ := ⟨3, 2, 7, 1, 2, 5, 6, true⟩; let rest : List Occ := [⟨3, 2, 7, 1, 2, 5, 6, true⟩, ⟨3, 2, 9, 1, 2, 5, 6, true⟩, ⟨3, 2, 7, 1, 2, 5, 6, true⟩]; let s0 : State := up [.obj .evrSrcCfg 0 3 (.num 133)]; let s : State := { s0 with dev := { s0.dev with occs := x :: rest, recd := { s0.dev.recd with frozen := some 0x300 } } }; let k := min m.toNat (rest.filter x.like).length; let sat : Bool := decide (255 < k); let q : Record := ⟨x.src, s.dev.num .evrSrcCfg 0 x.src % 8, complexOf x.src, 0, x.secs, x.ns, min k 255, 128 * b2n x.unsync + 64 * b2n sat, x.code, x.inst, x.arg0, x.arg1⟩; let h := 0x300; s.Inv ∧ s.dev.answers = true ∧ s.dev.occs = x :: rest ∧ s.dev.rings = [] ∧ s.dev.inRun ∧ (∀ l ∈ List.range (4), bitOf (s.dev.num .hifEvtMap l x.src) 31 = false) ∧ x.src < 512 ∧ x.code < 256 ∧ x.inst < 2 ^ 24 ∧ x.arg0 < 2 ^ 32 ∧ x.arg1 < 2 ^ 32 ∧ bitOf (s.dev.num .evrSrcCfg 0 x.src) 7 = true ∧ s.dev.recd.frozen = some h ∧ q.sev < 6) ∧
    (let m : BitVec 16 := 0; let x : Occ := ⟨3, 2, 7, 1, 2, 5, 6, true⟩; let rest : List Occ := []; let s0 : State := up [.obj .evrSrcCfg 0 3 (.num 134)]; let s : State := { s0 with dev := { s0.dev with occs := x :: rest, recd := { s0.dev.recd with frozen := some 0x300, hold := List.replicate 63 ⟨3, 4, 9, 1, 5, 6, 0, 0, 2, 7, 1, 2⟩ } } }; let k := min m.toNat (rest.filter x.like).length; let sat : Bool := decide (255 < k); let q : Record := ⟨x.src, s.dev.num .evrSrcCfg 0 x.src % 8, complexOf x.src, 0, x.secs, x.ns, min k 255, 128 * b2n x.unsync + 64 * b2n sat, x.code, x.inst, x.arg0, x.arg1⟩; let h := 0x300; s.Inv ∧ s.dev.answers = true ∧ s.dev.occs = x :: rest ∧ s.dev.rings = [] ∧ s.dev.inRun ∧ (∀ l ∈ List.range (4), bitOf (s.dev.num .hifEvtMap l x.src) 31 = false) ∧ x.src < 512 ∧ x.code < 256 ∧ x.inst < 2 ^ 24 ∧ x.arg0 < 2 ^ 32 ∧ x.arg1 < 2 ^ 32 ∧ bitOf (s.dev.num .evrSrcCfg 0 x.src) 7 = true ∧ s.dev.recd.frozen = some h ∧ 6 ≤ q.sev ∧ s.dev.recd.hold.length < 64) ∧
    (let m : BitVec 16 := 0; let x : Occ := ⟨3, 2, 7, 1, 2, 5, 6, true⟩; let rest : List Occ := []; let s0 : State := up [.obj .evrSrcCfg 0 3 (.num 134)]; let s : State := { s0 with dev := { s0.dev with occs := x :: rest, recd := { s0.dev.recd with frozen := some 0x300, fullRaised := false, hold := List.replicate 64 ⟨3, 4, 9, 1, 5, 6, 0, 0, 2, 7, 1, 2⟩ } } }; let k := min m.toNat (rest.filter x.like).length; let sat : Bool := decide (255 < k); let q : Record := ⟨x.src, s.dev.num .evrSrcCfg 0 x.src % 8, complexOf x.src, 0, x.secs, x.ns, min k 255, 128 * b2n x.unsync + 64 * b2n sat, x.code, x.inst, x.arg0, x.arg1⟩; let h := 0x300; s.Inv ∧ s.dev.answers = true ∧ s.dev.occs = x :: rest ∧ s.dev.rings = [] ∧ s.dev.inRun ∧ (∀ l ∈ List.range (4), bitOf (s.dev.num .hifEvtMap l x.src) 31 = false) ∧ x.src < 512 ∧ x.code < 256 ∧ x.inst < 2 ^ 24 ∧ x.arg0 < 2 ^ 32 ∧ x.arg1 < 2 ^ 32 ∧ bitOf (s.dev.num .evrSrcCfg 0 x.src) 7 = true ∧ s.dev.recd.frozen = some h ∧ 6 ≤ q.sev ∧ s.dev.recd.hold.length = 64) ∧
    (let m : BitVec 16 := 0; let x : Occ := ⟨3, 2, 7, 1, 2, 5, 6, true⟩; let rest : List Occ := []; let s0 : State := up [.obj .evrSrcCfg 0 3 (.num 134)]; let s : State := { s0 with dev := { s0.dev with occs := x :: rest, recd := { s0.dev.recd with frozen := some 0x300, fullRaised := true, hold := List.replicate 64 ⟨3, 4, 9, 1, 5, 6, 0, 0, 2, 7, 1, 2⟩ } } }; let k := min m.toNat (rest.filter x.like).length; let sat : Bool := decide (255 < k); let q : Record := ⟨x.src, s.dev.num .evrSrcCfg 0 x.src % 8, complexOf x.src, 0, x.secs, x.ns, min k 255, 128 * b2n x.unsync + 64 * b2n sat, x.code, x.inst, x.arg0, x.arg1⟩; let h := 0x300; s.Inv ∧ s.dev.answers = true ∧ s.dev.occs = x :: rest ∧ s.dev.rings = [] ∧ s.dev.inRun ∧ (∀ l ∈ List.range (4), bitOf (s.dev.num .hifEvtMap l x.src) 31 = false) ∧ x.src < 512 ∧ x.code < 256 ∧ x.inst < 2 ^ 24 ∧ x.arg0 < 2 ^ 32 ∧ x.arg1 < 2 ^ 32 ∧ bitOf (s.dev.num .evrSrcCfg 0 x.src) 7 = true ∧ s.dev.recd.frozen = some h ∧ 6 ≤ q.sev ∧ s.dev.recd.hold.length = 64) ∧
    (let o := serial; let s0 : State := up [.obj .evrRepeatWindow 0 0 (.num 0)]; let s : State := { s0 with dev := { s0.dev with recd := { s0.dev.recd with frozen := some 0x100, recs := [⟨3, 4, 9, 0, 5, 6, 0, 0, 2, 7, 1, 2⟩], hold := [⟨3, 4, 9, 0, 5, 6, 0, 0, 2, 7, 1, 2⟩, ⟨3, 4, 9, 0, 5, 6, 0, 0, 2, 7, 1, 2⟩] } } }; let code := s.dev.codeOf o.path; let r := execReq o .evrFreeze 0 0 true (.num 1); s.Inv ∧ s.dev.rings = [] ∧ s.dev.inRun ∧ (∀ l ∈ List.range (4), bitOf (s.dev.num .hifEvtMap l 481) 31 = false) ∧ bitOf (s.dev.num .evrSrcCfg 0 481) 7 = true ∧ s.dev.num .evrRepeatWindow = 0 ∧ s.dev.admits r ∧ s.dev.recd.frozen = some 0x100 ∧ 0x100 ≠ code) ∧
    (let o := host; let s0 : State := up [.obj .evrRepeatWindow 0 0 (.num 0)]; let s : State := { s0 with dev := { s0.dev with recd := { s0.dev.recd with frozen := some 0x100, recs := [⟨3, 4, 9, 0, 5, 6, 0, 0, 2, 7, 1, 2⟩], hold := [⟨3, 4, 9, 0, 5, 6, 0, 0, 2, 7, 1, 2⟩, ⟨3, 4, 9, 0, 5, 6, 0, 0, 2, 7, 1, 2⟩] } } }; let code := s.dev.codeOf o.path; let r := execReq o .evrFreeze 0 0 true (.num 1); s.Inv ∧ s.dev.rings = [] ∧ s.dev.inRun ∧ (∀ l ∈ List.range (4), bitOf (s.dev.num .hifEvtMap l 481) 31 = false) ∧ bitOf (s.dev.num .evrSrcCfg 0 481) 7 = true ∧ s.dev.num .evrRepeatWindow = 0 ∧ s.dev.admits r ∧ s.dev.recd.frozen = some code) ∧
    (let o := serial; let s0 : State := up [.obj .evrRepeatWindow 0 0 (.num 0)]; let s : State := { s0 with dev := { s0.dev with recd := { s0.dev.recd with recs := [⟨3, 4, 9, 1, 5, 6, 0, 0, 2, 7, 1, 2⟩] } } }; let r := execReq o .evrFreeze 0 0 true (.num 1); s.Inv ∧ s.dev.rings = [] ∧ s.dev.inRun ∧ (∀ l ∈ List.range (4), bitOf (s.dev.num .hifEvtMap l 481) 31 = false) ∧ bitOf (s.dev.num .evrSrcCfg 0 481) 7 = true ∧ s.dev.num .evrRepeatWindow = 0 ∧ s.dev.admits r ∧ s.dev.recd.frozen = none ∧ s.dev.recd.recs.length < 32768) := by
  simp only [inv_iff, admits_iff, Dev.inRun]
  and_intros <;> decide +kernel

theorem meets_RecorderAndMonitors_3 :
    (let o := serial; let s0 : State := up [.obj .evrRepeatWindow 0 0 (.num 0)]; let s : State := { s0 with dev := { s0.dev with recd := { s0.dev.recd with frozen := some 0x100, recs := [⟨3, 4, 9, 0, 5, 6, 0, 0, 2, 7, 1, 2⟩], hold := [⟨3, 4, 9, 0, 5, 6, 0, 0, 2, 7, 1, 2⟩, ⟨3, 4, 9, 0, 5, 6, 0, 0, 2, 7, 1, 2⟩] } } }; let code := s.dev.codeOf o.path; let r := execReq o .evrFreeze 0 0 true (.num 0); s.Inv ∧ s.dev.rings = [] ∧ s.dev.inRun ∧ (∀ l ∈ List.range (4), bitOf (s.dev.num .hifEvtMap l 481) 31 = false) ∧ bitOf (s.dev.num .evrSrcCfg 0 481) 7 = true ∧ s.dev.num .evrRepeatWindow = 0 ∧ s.dev.admits r ∧ s.dev.recd.frozen = some 0x100 ∧ 0x100 ≠ code ∧ code ≠ 0x0400) ∧
    (let o := serial; let s0 : State := up [.obj .evrRepeatWindow 0 0 (.num 0)]; let s : State := { s0 with dev := { s0.dev with recd := { s0.dev.recd with recs := [] } } }; let r := execReq o .evrFreeze 0 0 true (.num 0); s.Inv ∧ s.dev.rings = [] ∧ s.dev.inRun ∧ (∀ l ∈ List.range (4), bitOf (s.dev.num .hifEvtMap l 481) 31 = false) ∧ bitOf (s.dev.num .evrSrcCfg 0 481) 7 = true ∧ s.dev.num .evrRepeatWindow = 0 ∧ s.dev.admits r ∧ s.dev.recd.frozen = none) ∧
    (let o := host; let s0 : State := up [.obj .evrRepeatWindow 0 0 (.num 0)]; let s : State := { s0 with dev := { s0.dev with recd := { s0.dev.recd with frozen := some 0x100, recs := [⟨3, 4, 9, 0, 5, 6, 0, 0, 2, 7, 1, 2⟩], hold := [⟨3, 4, 9, 0, 5, 6, 0, 0, 2, 7, 1, 2⟩, ⟨3, 4, 9, 0, 5, 6, 0, 0, 2, 7, 1, 2⟩] } } }; let code := s.dev.codeOf o.path; let r := execReq o .evrFreeze 0 0 true (.num 0); s.Inv ∧ s.dev.rings = [] ∧ s.dev.inRun ∧ (∀ l ∈ List.range (4), bitOf (s.dev.num .hifEvtMap l 481) 31 = false) ∧ bitOf (s.dev.num .evrSrcCfg 0 481) 7 = true ∧ s.dev.num .evrRepeatWindow = 0 ∧ s.dev.admits r ∧ s.dev.recd.frozen = some 0x100 ∧ (0x100 = code ∨ code = 0x0400) ∧ s.dev.recd.recs.length + s.dev.recd.hold.length < 32768) ∧
    (let o := sec; let s0 : State := up [.obj .evrRepeatWindow 0 0 (.num 0)]; let s : State := { s0 with dev := { s0.dev with recd := { s0.dev.recd with frozen := some 0x100, recs := [⟨3, 4, 9, 0, 5, 6, 0, 0, 2, 7, 1, 2⟩], hold := [⟨3, 4, 9, 0, 5, 6, 0, 0, 2, 7, 1, 2⟩, ⟨3, 4, 9, 0, 5, 6, 0, 0, 2, 7, 1, 2⟩] } } }; let code := s.dev.codeOf o.path; let r := execReq o .evrFreeze 0 0 true (.num 0); s.Inv ∧ s.dev.rings = [] ∧ s.dev.inRun ∧ (∀ l ∈ List.range (4), bitOf (s.dev.num .hifEvtMap l 481) 31 = false) ∧ bitOf (s.dev.num .evrSrcCfg 0 481) 7 = true ∧ s.dev.num .evrRepeatWindow = 0 ∧ s.dev.admits r ∧ s.dev.recd.frozen = some 0x100 ∧ (0x100 = code ∨ code = 0x0400) ∧ s.dev.recd.recs.length + s.dev.recd.hold.length < 32768) ∧
    (let s0 : State := up [.obj .evrRepeatWindow 0 0 (.num 0)]; let s : State := { s0 with dev := { s0.dev with recd := { s0.dev.recd with recs := [] } } }; s.Inv ∧ s.dev.recd.frozen = none) ∧
    (let s0 : State := up [.obj .evrRepeatWindow 0 0 (.num 0)]; let s : State := { s0 with dev := { s0.dev with recd := { s0.dev.recd with frozen := some 0x100, recs := [⟨3, 4, 9, 0, 5, 6, 0, 0, 2, 7, 1, 2⟩], hold := [⟨3, 4, 9, 0, 5, 6, 0, 0, 2, 7, 1, 2⟩, ⟨3, 4, 9, 0, 5, 6, 0, 0, 2, 7, 1, 2⟩] } } }; s.Inv ∧ s.dev.rings = [] ∧ s.dev.inRun ∧ (∀ l ∈ List.range (4), bitOf (s.dev.num .hifEvtMap l 481) 31 = false) ∧ bitOf (s.dev.num .evrSrcCfg 0 481) 7 = true ∧ s.dev.num .evrRepeatWindow = 0 ∧ s.dev.answers = true ∧ s.dev.recd.frozen = some 0x100 ∧ s.dev.recd.recs.length + s.dev.recd.hold.length < 32768) ∧
    (let o := serial; let tok : List Byte := List.replicate 16 5; let s0 : State := up []; let s : State := { s0 with dev := { s0.dev with recd := { s0.dev.recd with recs := [] } } }; let code := s.dev.codeOf o.path; let r := execReq o .evrClear 0 0 true (.oct tok); s.Inv ∧ tok.length = 16 ∧ s.dev.admits r ∧ s.dev.token code ≠ some tok) ∧
    (let o := serial; let tok : List Byte := List.replicate 16 5; let s0 : State := up [.sec fun y => { y with tokens := [(0x300, zeros 10 ++ List.replicate 16 5)] }, .tim fun t => { t with ns := 1 }]; let s : State := { s0 with dev := { s0.dev with recd := { s0.dev.recd with recs := [] } } }; let code := s.dev.codeOf o.path; let r := execReq o .evrClear 0 0 true (.oct tok); s.Inv ∧ tok.length = 16 ∧ s.dev.admits r ∧ s.dev.token code ≠ some tok) := by
  simp only [inv_iff, admits_iff, Dev.inRun]
  and_intros <;> decide +kernel

theorem meets_RecorderAndMonitors_4 :
    (let o := serial; let tok : List Byte := List.replicate 16 5; let s0 : State := up [.sec fun y => { y with tokens := [(0x300, zeros 10 ++ List.replicate 16 5)] }]; let s : State := { s0 with dev := { s0.dev with recd := { s0.dev.recd with frozen := some 0x100, recs := [⟨3, 4, 9, 0, 5, 6, 0, 0, 2, 7, 1, 2⟩], hold := [⟨3, 4, 9, 0, 5, 6, 0, 0, 2, 7, 1, 2⟩, ⟨3, 4, 9, 0, 5, 6, 0, 0, 2, 7, 1, 2⟩] } } }; let code := s.dev.codeOf o.path; let r := execReq o .evrClear 0 0 true (.oct tok); s.Inv ∧ tok.length = 16 ∧ s.dev.admits r ∧ s.dev.token code = some tok ∧ s.dev.recd.frozen = some 0x100 ∧ 0x100 ≠ code) ∧
    (let o := serial; let tok : List Byte := List.replicate 16 5; let s0 : State := up [.sec fun y => { y with tokens := [(0x300, zeros 10 ++ List.replicate 16 5)] }]; let s : State := { s0 with dev := { s0.dev with recd := { s0.dev.recd with recs := [⟨3, 4, 9, 1, 5, 6, 0, 0, 2, 7, 1, 2⟩, ⟨3, 4, 9, 1, 5, 6, 0, 0, 2, 7, 1, 2⟩] } } }; let code := s.dev.codeOf o.path; let r := execReq o .evrClear 0 0 true (.oct tok); s.Inv ∧ tok.length = 16 ∧ s.dev.admits r ∧ s.dev.token code = some tok ∧ (s.dev.recd.frozen = none ∨ s.dev.recd.frozen = some code) ∧ s.dev.rings = [] ∧ s.dev.inRun ∧
      (∀ l ∈ List.range (4), bitOf (s.dev.num .hifEvtMap l 483) 31 = false ∧ bitOf (s.dev.num .hifEvtMap l 481) 31 = false) ∧
      bitOf (s.dev.num .evrSrcCfg 0 483) 7 = true ∧ bitOf (s.dev.num .evrSrcCfg 0 481) 7 = true) ∧
    (let o := serial; let tok : List Byte := List.replicate 16 5; let s0 : State := up [.sec fun y => { y with tokens := [(0x300, zeros 10 ++ List.replicate 16 5)] }]; let s : State := { s0 with dev := { s0.dev with recd := { s0.dev.recd with frozen := some 0x300, recs := [⟨3, 4, 9, 0, 5, 6, 0, 0, 2, 7, 1, 2⟩], hold := [⟨3, 4, 9, 0, 5, 6, 0, 0, 2, 7, 1, 2⟩, ⟨3, 4, 9, 0, 5, 6, 0, 0, 2, 7, 1, 2⟩] } } }; let code := s.dev.codeOf o.path; let r := execReq o .evrClear 0 0 true (.oct tok); s.Inv ∧ tok.length = 16 ∧ s.dev.admits r ∧ s.dev.token code = some tok ∧ (s.dev.recd.frozen = none ∨ s.dev.recd.frozen = some code) ∧ s.dev.rings = [] ∧ s.dev.inRun ∧
      (∀ l ∈ List.range (4), bitOf (s.dev.num .hifEvtMap l 483) 31 = false ∧ bitOf (s.dev.num .hifEvtMap l 481) 31 = false) ∧
      bitOf (s.dev.num .evrSrcCfg 0 483) 7 = true ∧ bitOf (s.dev.num .evrSrcCfg 0 481) 7 = true) ∧
    (let s := State.reset; s.Inv) ∧
    (let s := up []; s.Inv) ∧
    (let s := up [.pins fun p => { p with thermN := false }]; s.Inv) ∧
    (let s := up [.obj .fltRailStatus 0 0 (.num 5)]; s.Inv) ∧
    (let s := up [.obj .fltRailStatus 0 0 (.num 5)]; s.Inv) := by
  simp only [inv_iff, admits_iff, Dev.inRun]
  and_intros <;> decide +kernel

end Sys2Proof.Tests
end

section
/-!
PROOFS of the invariant at reset (O5), of counting (O7) and of reception on the management band (O26).
-/
namespace Sys2Proof.Machine

/-! ## The state at reset -/

/-- At reset no store lists an entry, so each is canonical. -/
theorem Dev.reset_canonical : Dev.reset.Canonical :=
  ⟨rfl, rfl, rfl, rfl, rfl, rfl, rfl, rfl, rfl, rfl, rfl, rfl, rfl, rfl⟩

/-- At reset no record is held and no action is pending. -/
theorem Dev.reset_bounded : Dev.reset.Bounded where
  recs := Nat.zero_le _
  hold := Nat.zero_le _
  acts := Nat.zero_le _
  slots := .nil
  slotMax := fun _ h => nomatch h
  targets := rfl

/-- Settles O5: the stores, the recorder and the action list are empty at reset. -/
theorem resetHasInvariant : Obligations.ResetHasInvariant := ⟨Dev.reset_canonical, Dev.reset_bounded⟩

/-! ## Counting -/

/-- One more, or the largest value when it was reached already. -/
theorem satAdd_one {w v : Nat} (h : v < 2 ^ w) : satAdd w v 1 = if v = 2 ^ w - 1 then 2 ^ w - 1 else v + 1 := by
  unfold satAdd
  split <;> omega

theorem num_count {d : Dev} (h : SMap.wf none d.objs = true) (o : Obj) (i j : Nat) :
    ((count o i j).run d).num o i j = satAdd o.width (d.num o i j) 1 := Dev.num_put h o i j _

theorem Within.count (o : Obj) (i j : Nat) : Prog.Within (keysOf [(o, i, j)]) [] (count o i j) :=
  Within.eff (fun k hk => by simpa [Eff.keys, keysOf] using hk) fun _ h => nomatch h

/-- Settles O7: a count writes one object, with its number moved on by `satAdd`. -/
theorem countersSaturate : Obligations.CountersSaturate := by
  intro s o i j ⟨hc, _⟩ hn
  refine ⟨?_, (Within.count o i j s.dev hc.objs).2⟩
  rw [num_count hc.objs, satAdd_one hn]

/-! ## Programs a row runs while the device answers -/

theorem run_live {s : State} (ha : s.dev.answers = true) (p : Prog) : s.run (live p) = .next { s with dev := p.run s.dev } := by
  simp [State.run_eq, live, ha]

@[simp] theorem run_count (o : Obj) (i j : Nat) (d : Dev) : (count o i j).run d = (Eff.count o i j 1).apply d := rfl

@[simp] theorem run_raise (src inst code a0 a1 : Nat) (d : Dev) :
    (raise src inst code a0 a1).run d = (Eff.raise src code inst a0 a1).apply d := rfl

/-! ## Reception on the management band -/

/-- The effect by which a receive path changes. -/
def rxEff (n p : Nat) (f : RxPath → RxPath) : Eff := .fch n fun c => { c with rx := SMap.upd RxPath.none p f c.rx }

@[simp] theorem run_setRx (n p : Nat) (f : RxPath → RxPath) (d : Dev) : (setRx n p f).run d = (rxEff n p f).apply d := rfl

@[simp] theorem run_rxIgnored (n p : Nat) (d : Dev) :
    (rxIgnored n p).run d = (Eff.count (phyObj p .mgtSlRxIgnored .mgtCmRxIgnored) n 0 1).apply d := rfl

/-- The device after a reception was counted and ended, its standby taking its place. -/
def Dev.rxCounted (d : Dev) (n p : Nat) (o : Obj) : Dev := d.after [.count o n 0 1, rxEff n p fun r => ⟨r.standby, none⟩]

/-- The same once the receivers' settings have taken effect (R282). -/
def State.rxEnded (s : State) (n p : Nat) (o : Obj) : State := { s with dev := (mgtSettle n).run (s.dev.rxCounted n p o) }

/-- Ending a reception after it was counted. -/
theorem run_rxEnd_count (n p : Nat) (o : Obj) (d : Dev) :
    (rxEnd n p).run ((Eff.count o n 0 1).apply d) = (mgtSettle n).run (d.rxCounted n p o) := rfl

section
variable {s : State} {n : Fin 4} {p : Fin 3}

/-! ### Detections (R268, R273, R274) -/

section
variable {q : List (BitVec 16 × BitVec 16)} {v : BitVec 16}

/-- The reception that a detection of a strength would start. -/
def newRx (v : BitVec 16) : Rx := ⟨v.toNat, v.toNat, false, false, 0⟩

theorem exec_mgtPreambleDetect : exec (.mgtPreambleDetect n p q v) s = execMgtPreambleDetect n p q v s := rfl

theorem preambleDetect_unheard (ha : s.dev.answers = true) (h : s.dev.rxRuns n.val p.val = false ∨ s.dev.preamble n.val p.val q = false) :
    exec (.mgtPreambleDetect n p q v) s = .next s := by
  have hb : (s.dev.rxRuns n.val p.val && s.dev.preamble n.val p.val q) = false :=
    Bool.and_eq_false_iff.mpr h
  rw [exec_mgtPreambleDetect, execMgtPreambleDetect, run_live ha]
  simp [hb]

variable (ha : s.dev.answers = true) (hr : s.dev.rxRuns n.val p.val = true) (hp : s.dev.preamble n.val p.val q = true)
include ha hr hp

theorem preambleDetect_starts (hc : (s.dev.rxPath n.val p.val).cur = none) :
    exec (.mgtPreambleDetect n p q v) s = .next (s.after
      [.count (phyObj p.val .mgtSlRxDetects .mgtCmRxDetects) n.val 0 1,
       rxEff n.val p.val fun x => { x with cur := some (newRx v) }]) := by
  rw [exec_mgtPreambleDetect, execMgtPreambleDetect, run_live ha]
  simp [hr, hp, hc, State.after, newRx]

variable {c : Rx} (hc : (s.dev.rxPath n.val p.val).cur = some c)
include hc

theorem preambleDetect_captures (h : c.strength + 4 * s.dev.num .mgtCaptureMargin n.val ≤ v.toNat)
    (hs : (s.dev.rxPath n.val p.val).standby = none) :
    exec (.mgtPreambleDetect n p q v) s = .next (s.after
      [.count (phyObj p.val .mgtSlRxDetects .mgtCmRxDetects) n.val 0 1,
       .count (phyObj p.val .mgtSlRxCaptured .mgtCmRxCaptured) n.val 0 1,
       .raise (chEvt n.val 8) 0 n.val (top8 (if p.val = 0 then 0 else 1) + c.strength % 65536 * 256) (top16 v.toNat),
       rxEff n.val p.val fun x => ⟨some (newRx v), keepStandby (4 * s.dev.num .mgtCaptureMargin n.val) v.toNat x.standby⟩]) := by
  rw [exec_mgtPreambleDetect, execMgtPreambleDetect, run_live ha]
  simp [hr, hp, hc, h, hs, State.after, newRx]

theorem preambleDetect_ignored_passed (h : v.toNat < c.strength + 4 * s.dev.num .mgtCaptureMargin n.val) (hd : c.passed = true) :
    exec (.mgtPreambleDetect n p q v) s = .next (s.after
      [.count (phyObj p.val .mgtSlRxDetects .mgtCmRxDetects) n.val 0 1,
       .count (phyObj p.val .mgtSlRxIgnored .mgtCmRxIgnored) n.val 0 1]) := by
  rw [exec_mgtPreambleDetect, execMgtPreambleDetect, run_live ha]
  simp [hr, hp, hc, Nat.not_le.mpr h, hd, State.after]

theorem preambleDetect_waits (h : v.toNat < c.strength + 4 * s.dev.num .mgtCaptureMargin n.val) (hd : c.passed = false)
    (hs : (s.dev.rxPath n.val p.val).standby = none) :
    exec (.mgtPreambleDetect n p q v) s = .next (s.after
      [.count (phyObj p.val .mgtSlRxDetects .mgtCmRxDetects) n.val 0 1,
       rxEff n.val p.val fun x => { x with standby := some (newRx v) }]) := by
  rw [exec_mgtPreambleDetect, execMgtPreambleDetect, run_live ha]
  simp [hr, hp, hc, Nat.not_le.mpr h, hd, hs, State.after, newRx]

theorem preambleDetect_ignored_standby (h : v.toNat < c.strength + 4 * s.dev.num .mgtCaptureMargin n.val) (hd : c.passed = false)
    {b : Rx} (hs : (s.dev.rxPath n.val p.val).standby = some b) (hb : v.toNat < b.strength + 4 * s.dev.num .mgtCaptureMargin n.val) :
    exec (.mgtPreambleDetect n p q v) s = .next (s.after
      [.count (phyObj p.val .mgtSlRxDetects .mgtCmRxDetects) n.val 0 1,
       .count (phyObj p.val .mgtSlRxIgnored .mgtCmRxIgnored) n.val 0 1]) := by
  rw [exec_mgtPreambleDetect, execMgtPreambleDetect, run_live ha]
  simp [hr, hp, hc, Nat.not_le.mpr h, hd, hs, Nat.not_le.mpr hb, State.after]

end

/-! ### Delimiters (R270, R271) -/

theorem exec_mgtDelimiterFound {i : BitVec 8} {b v : BitVec 16} :
    exec (.mgtDelimiterFound n p i b v) s = execMgtDelimiterFound n p i b v s := rfl

theorem delimiterFound_refused {i : BitVec 8} {b v : BitVec 16} (ha : s.dev.answers = true)
    (h : isDelimiter p.val i.toNat b.toNat = false) : exec (.mgtDelimiterFound n p i b v) s = .next s := by
  rw [exec_mgtDelimiterFound, execMgtDelimiterFound, run_live ha, h]
  simp

/-- A path whose current reception has its delimiter, with its strength refined. -/
def markDelimiter (v : Nat) (r : RxPath) : RxPath :=
  match r.cur with
  | some c => { r with cur := some { c with delim := true, refined := v } }
  | none => r

theorem delimiterFound_marks {i : BitVec 8} {b v : BitVec 16} (ha : s.dev.answers = true)
    (h : isDelimiter p.val i.toNat b.toNat = true) :
    exec (.mgtDelimiterFound n p i b v) s = .next (s.after [rxEff n.val p.val (markDelimiter v.toNat)]) := by
  rw [exec_mgtDelimiterFound, execMgtDelimiterFound, run_live ha, h]
  rfl

/-! ### Headers (R270, R272, R275, R277) -/

theorem hdrReserved_iff (h : Nat) : hdrReserved h = true ↔
    hdrVersion h ≠ 0 ∨ 1 < hdrType h ∨ 1024 < hdrLength h ∨ (0x1000 ≤ hdrAddress h ∧ hdrAddress h ≤ 0xFFFD) := by
  simp [hdrReserved, or_assoc]

/-- An address is this terminal's when it is broadcast, its handle, or that of terminals without a handle while it has none. -/
theorem addressed_iff (d : Dev) (n a : Nat) : d.addressed n a = true ↔
    a = 0xFFFF ∨ a = d.num .actHandle n ∨ (a = 0xFFFE ∧ d.num .actHandle n = 0xFFFF) := by
  simp only [Dev.addressed, Bool.or_eq_true, Bool.and_eq_true, beq_iff_eq, bne_iff_ne]
  tauto

theorem addressed_eq_false {d : Dev} {n a : Nat} (h1 : a ≠ 0xFFFF) (h2 : a ≠ d.num .actHandle n)
    (h3 : a = 0xFFFE → d.num .actHandle n ≠ 0xFFFF) : d.addressed n a = false := by
  rw [← Bool.not_eq_true, addressed_iff]
  tauto

theorem exec_mgtFalseStart : exec (.mgtFalseStart n p) s = execMgtFalseStart n p s := rfl

theorem exec_mgtHeaderReceived {x : Bool} {b : BitVec 48} :
    exec (.mgtHeaderReceived n p x b) s = execMgtHeaderReceived n p x b s := rfl

theorem exec_mgtPacketReceived {b : List Byte} : exec (.mgtPacketReceived n p b) s = execMgtPacketReceived n p b s := rfl

section
variable (ha : s.dev.answers = true) {c : Rx} (hc : (s.dev.rxPath n.val p.val).cur = some c)
include ha hc

theorem falseStart_ends (hd : c.delim = false) :
    exec (.mgtFalseStart n p) s = .next (s.rxEnded n.val p.val (phyObj p.val .mgtSlRxFalseStarts .mgtCmRxFalseStarts)) := by
  rw [exec_mgtFalseStart, execMgtFalseStart, run_live ha]
  simp [hc, hd, run_rxEnd_count, State.rxEnded]

theorem standbyHeader_drops {b : BitVec 48} (hd : c.passed = false) (hs : (s.dev.rxPath n.val p.val).standby.isSome = true) :
    exec (.mgtHeaderReceived n p true b) s = .next (s.after
      [.count (phyObj p.val .mgtSlRxIgnored .mgtCmRxIgnored) n.val 0 1, rxEff n.val p.val fun x => { x with standby := none }]) := by
  rw [exec_mgtHeaderReceived, execMgtHeaderReceived, run_live ha]
  simp [hc, hd, hs, State.after]

section
variable {b : BitVec 48} (hd : c.delim = true) (hp : c.passed = false)
include hd hp

theorem header_crc_fails (hb : crc16 (beBytes 4 (b.toNat / 65536)) ≠ b.toNat % 65536) :
    exec (.mgtHeaderReceived n p false b) s =
      .next (s.rxEnded n.val p.val (phyObj p.val .mgtSlRxHdrFails .mgtCmRxHdrFails)) := by
  rw [exec_mgtHeaderReceived, execMgtHeaderReceived, run_live ha]
  simp [hc, hd, hp, hb, run_rxEnd_count, State.rxEnded]

variable (hb : crc16 (beBytes 4 (b.toNat / 65536)) = b.toNat % 65536)
include hb

theorem header_reserved (h : hdrReserved (b.toNat / 65536) = true) :
    exec (.mgtHeaderReceived n p false b) s =
      .next (s.rxEnded n.val p.val (phyObj p.val .mgtSlRxReserved .mgtCmRxReserved)) := by
  rw [exec_mgtHeaderReceived, execMgtHeaderReceived, run_live ha]
  simp [hc, hd, hp, hb, h, run_rxEnd_count, State.rxEnded]

variable (hr : hdrReserved (b.toNat / 65536) = false)
include hr

theorem header_addressed_elsewhere (h : s.dev.addressed n.val (hdrAddress (b.toNat / 65536)) = false) :
    exec (.mgtHeaderReceived n p false b) s =
      .next (s.rxEnded n.val p.val (phyObj p.val .mgtSlRxOther .mgtCmRxOther)) := by
  rw [exec_mgtHeaderReceived, execMgtHeaderReceived, run_live ha]
  simp [hc, hd, hp, hb, hr, h, run_rxEnd_count, State.rxEnded]

theorem header_passes (h : s.dev.addressed n.val (hdrAddress (b.toNat / 65536)) = true) :
    exec (.mgtHeaderReceived n p false b) s = .next (s.after
      ((if (s.dev.rxPath n.val p.val).standby.isSome
          then [.count (phyObj p.val .mgtSlRxIgnored .mgtCmRxIgnored) n.val 0 1] else []) ++
        [rxEff n.val p.val fun _ => ⟨some { c with passed := true, hdr := b.toNat / 65536 }, none⟩])) := by
  rw [exec_mgtHeaderReceived, execMgtHeaderReceived, run_live ha]
  cases hs : (s.dev.rxPath n.val p.val).standby.isSome <;> simp [hc, hd, hp, hb, hr, h, hs, State.after]

end

/-! ### Packets (R277, R278, R337) -/

section
variable {b : List Byte} (hp : c.passed = true)
include hp

theorem packet_probe (hl : hdrLength c.hdr = 0) :
    exec (.mgtPacketReceived n p b) s =
      (s.after [.count (phyObj p.val .mgtSlRxProbes .mgtCmRxProbes) n.val 0 1]).run
        (.all [rxAccepted n.val p.val c, rxEnd n.val p.val]) := by
  rw [exec_mgtPacketReceived, execMgtPacketReceived, run_live ha]
  simp [hc, hp, hl, State.run_eq, State.after]

variable (hl : hdrLength c.hdr ≠ 0)
include hl

theorem packet_fails
    (hb : b.length ≠ hdrLength c.hdr + 4 ∨ crcFcs (b.take (hdrLength c.hdr)) ≠ beNat (b.drop (hdrLength c.hdr))) :
    exec (.mgtPacketReceived n p b) s =
      .next (s.rxEnded n.val p.val (phyObj p.val .mgtSlRxCrcErrors .mgtCmRxCrcErrors)) := by
  rw [exec_mgtPacketReceived, execMgtPacketReceived, run_live ha]
  simp only [hc, hp, hl, Prog.run_ask, Prog.when_true, if_false, if_pos hb]
  simp [run_rxEnd_count, State.rxEnded]

variable (hn : b.length = hdrLength c.hdr + 4) (hb : crcFcs (b.take (hdrLength c.hdr)) = beNat (b.drop (hdrLength c.hdr)))
include hn hb

/-- A sound packet is counted and accepted; then its payload is discarded or handed on. -/
theorem packet_sound :
    exec (.mgtPacketReceived n p b) s =
      (s.after [.count (phyObj p.val .mgtSlRxPackets .mgtCmRxPackets) n.val 0 1]).run
        (.all [rxAccepted n.val p.val c,
          if hdrType c.hdr = 1 ∧ umaniFits 1024 (b.take (hdrLength c.hdr)) = false then count .umaniDiscards
          else if hdrType c.hdr = 0 ∧ lemowKnown (b.take (hdrLength c.hdr)) = false then count .actMsgDiscards n.val
          else send .handoff (hdrType c.hdr) (pathKey (.mband n (p.val != 0))) (b.take (hdrLength c.hdr)),
          rxEnd n.val p.val]) := by
  rw [exec_mgtPacketReceived, execMgtPacketReceived, run_live ha]
  simp [hc, hp, hl, hn, hb, State.run_eq, State.after]

theorem packet_handed_on
    (h : (hdrType c.hdr = 0 ∧ lemowKnown (b.take (hdrLength c.hdr)) = true) ∨
      (hdrType c.hdr = 1 ∧ umaniFits 1024 (b.take (hdrLength c.hdr)) = true)) :
    exec (.mgtPacketReceived n p b) s =
      (s.after [.count (phyObj p.val .mgtSlRxPackets .mgtCmRxPackets) n.val 0 1]).run
        (.all [rxAccepted n.val p.val c,
          send .handoff (hdrType c.hdr) (pathKey (.mband n (p.val != 0))) (b.take (hdrLength c.hdr)), rxEnd n.val p.val]) := by
  rw [packet_sound ha hc hp hl hn hb]
  obtain ⟨ht, hk⟩ | ⟨ht, hk⟩ := h <;> simp [ht, hk]

theorem packet_discarded (ht : hdrType c.hdr = 0) (hk : lemowKnown (b.take (hdrLength c.hdr)) = false) :
    exec (.mgtPacketReceived n p b) s =
      (s.after [.count (phyObj p.val .mgtSlRxPackets .mgtCmRxPackets) n.val 0 1]).run
        (.all [rxAccepted n.val p.val c, count .actMsgDiscards n.val, rxEnd n.val p.val]) := by
  rw [packet_sound ha hc hp hl hn hb]
  simp [ht, hk]

end
end
end

/-- Settles O26, by the branches of detection, delimiter, header and packet. -/
theorem managementReception : Obligations.ManagementReception := by
  refine ⟨fun s n p q v ha => ⟨preambleDetect_unheard ha, fun hr hp => ⟨preambleDetect_starts ha hr hp, fun c hc =>
      ⟨preambleDetect_captures ha hr hp hc, fun h => ⟨preambleDetect_ignored_passed ha hr hp hc h,
        preambleDetect_waits ha hr hp hc h, fun _ hd hs hb => preambleDetect_ignored_standby ha hr hp hc h hd hs hb⟩⟩⟩⟩,
    fun s n p i b v ha => ⟨delimiterFound_refused ha, delimiterFound_marks ha⟩, ?_⟩
  intro s n p c ha hc counted ended hcounted hended
  have he : ended = s.rxEnded n.val p.val := funext fun o => by rw [hended, hcounted]; rfl
  subst he
  exact ⟨falseStart_ends ha hc,
    fun b hd hp => ⟨header_crc_fails ha hc hd hp, fun hb =>
      ⟨fun h => header_reserved ha hc hd hp hb ((hdrReserved_iff _).mpr h), fun hr =>
        ⟨fun h1 h2 h3 => header_addressed_elsewhere ha hc hd hp hb hr (addressed_eq_false h1 h2 h3),
          fun h => header_passes ha hc hd hp hb hr ((addressed_iff _ _ _).mpr h)⟩⟩⟩,
    fun b => standbyHeader_drops ha hc,
    fun b hp hl => packet_fails ha hc hp hl,
    fun b hp hl => packet_probe ha hc hp hl,
    fun b hp hl hn hb => packet_handed_on ha hc hp hl hn hb,
    fun b hp hl hn hb => packet_discarded ha hc hp hl hn hb⟩

end Sys2Proof.Machine
end

section
/-!
PROOFS of the invariant over every step (O4).
-/
namespace Sys2Proof.Machine

/-! ## Effects keep the invariant -/

/-- A wipe leaves of each store a filtered part, a changed copy or nothing. -/
theorem Dev.wiped_canonical {d : Dev} (w : Wipe) (h : d.Canonical) : (d.wiped w).Canonical where
  objs := by simp only [Dev.wiped]; exact SMap.drop_wf h.objs
  um := rfl
  fns := by
    simp only [Dev.wiped]
    split
    · exact SMap.mapped_wf
    · rfl
  rings := rfl
  vecs := rfl
  links := by simp only [Dev.wiped]; exact SMap.mapped_wf
  fch := by
    simp only [Dev.wiped]
    split
    · exact SMap.mapped_wf
    · split
      · rfl
      · exact SMap.mapped_wf
  tbl := rfl
  keys := rfl
  uses := rfl
  circ := rfl
  ports := rfl
  fab := rfl
  dram := rfl

/-- Each effect writes a store by `put`, `upd` or `drop`, which keep its canonical form. -/
theorem Eff.apply_canonical (e : Eff) (d : Dev) (h : d.Canonical) : (e.apply d).Canonical := by
  cases e
  case obj => exact { h with objs := SMap.put_wf h.objs }
  case count => exact { h with objs := SMap.put_wf h.objs }
  case dropObjs => exact { h with objs := SMap.drop_wf h.objs }
  case um => exact { h with um := SMap.upd_wf h.um }
  case dropPaths => exact { h with um := SMap.drop_wf h.um }
  case fn => exact { h with fns := SMap.upd_wf h.fns }
  case ring => exact { h with rings := SMap.upd_wf h.rings }
  case dropRings => exact { h with rings := SMap.drop_wf h.rings }
  case vec => exact { h with vecs := SMap.upd_wf h.vecs }
  case dropVecs => exact { h with vecs := SMap.drop_wf h.vecs }
  case link => exact { h with links := SMap.upd_wf h.links }
  case fch => exact { h with fch := SMap.upd_wf h.fch }
  case tbl => exact { h with tbl := SMap.put_wf h.tbl }
  case dropTbl => exact { h with tbl := SMap.drop_wf h.tbl }
  case key => exact { h with keys := SMap.put_wf h.keys }
  case use => exact { h with uses := SMap.put_wf h.uses }
  case dropKeys => exact { h with keys := SMap.drop_wf h.keys, uses := SMap.drop_wf h.uses }
  case circ => exact { h with circ := SMap.upd_wf h.circ }
  case port => exact { h with ports := SMap.upd_wf h.ports }
  case fab => exact { h with fab := SMap.upd_wf h.fab }
  case dram => exact { h with dram := SMap.upd_wf h.dram }
  case wipe w => exact Dev.wiped_canonical w h
  case arm =>
    simp only [Eff.apply]
    split
    · exact { h with }
    · exact h
  all_goals exact { h with }

/-- A wipe empties the actions and the hold, and keeps the records or empties them. -/
theorem Dev.wiped_bounded {d : Dev} (w : Wipe) (h : d.Bounded) : (d.wiped w).Bounded where
  recs := by
    simp only [Dev.wiped]
    split
    · exact h.recs
    · exact Nat.zero_le _
  hold := by simp only [Dev.wiped]; split <;> exact Nat.zero_le _
  acts := Nat.zero_le _
  slots := .nil
  slotMax := fun _ h => nomatch h
  targets := rfl

/-- An action that is armed takes a free slot below 256 and a target of its own (R573). -/
theorem Eff.arm_bounded {d : Dev} (a : Action) (h : d.Bounded) : ((Eff.arm a).apply d).Bounded := by
  simp only [Eff.apply]
  split
  · rename_i hroom
    obtain ⟨hlen, hnew⟩ := hroom
    obtain ⟨hlt, hfree⟩ := freeSlot_spec (slot_free hlen)
    exact { h with
      acts := by rw [insertAction_length]; exact hlen
      slots := insertAction_pairwise hfree h.slots
      slotMax := fun x hx => (mem_insertAction.mp hx).elim (fun e => by subst e; simpa [actCap] using hlt) (h.slotMax x)
      targets := distinctTargets_insert hnew h.targets }
  · exact h

theorem Eff.disarm_bounded {d : Dev} (n : Nat) (h : d.Bounded) : ((Eff.disarm n).apply d).Bounded :=
  { h with
    acts := (List.length_filter_le _ _).trans h.acts
    slots := h.slots.filter _
    slotMax := fun x hx => h.slotMax x (List.mem_of_mem_filter hx)
    targets := distinctTargets_filter _ h.targets }

/-- An action marked committed when it stands in a slot. -/
def commitIn (n : Nat) (a : Action) : Action := if a.slot = n then { a with committed := true } else a

@[simp] theorem commitIn_slot (n : Nat) (a : Action) : (commitIn n a).slot = a.slot := by
  unfold commitIn; split <;> rfl

@[simp] theorem sameTarget_commitIn (n : Nat) (a b : Action) : sameTarget (commitIn n a) (commitIn n b) = sameTarget a b := by
  unfold commitIn; split <;> split <;> rfl

theorem Eff.commit_bounded {d : Dev} (n : Nat) (h : d.Bounded) : ((Eff.commit n).apply d).Bounded := by
  change Dev.Bounded { d with acts := d.acts.map (commitIn n) }
  exact { h with
    acts := by simpa using h.acts
    slots := by simpa [List.pairwise_map] using h.slots
    slotMax := by simpa using h.slotMax
    targets := distinctTargets_map (sameTarget_commitIn n) h.targets }

/-- Each effect keeps the bounds of the recorder (R617, R620) and of Ringmaster (R44, R573). -/
theorem Eff.apply_bounded (e : Eff) (d : Dev) (h : d.Bounded) : (e.apply d).Bounded := by
  cases e
  case recWrite r => exact { h with recs := writeRec_length h.recs }
  case recMerge => exact { h with recs := by simpa [Eff.apply] using h.recs }
  case recHold r =>
    refine { h with hold := ?_ }
    simp only [Eff.apply]
    split
    · rwa [List.length_append, List.length_singleton, Nat.succ_le_iff]
    · exact h.hold
  case recUnhold => exact { h with hold := by simp only [Eff.apply, List.length_tail]; exact (Nat.sub_le _ _).trans h.hold }
  case recClear => exact { h with recs := Nat.zero_le _, hold := Nat.zero_le _ }
  case arm a => exact Eff.arm_bounded a h
  case disarm n => exact Eff.disarm_bounded n h
  case commit n => exact Eff.commit_bounded n h
  case wipe w => exact Dev.wiped_bounded w h
  all_goals exact { h with }

/-! ## Every step -/

theorem Ran.inv {s t : State} (h : Ran s t) (hs : s.Inv) : t.Inv := by
  obtain ⟨p, rfl⟩ := h
  exact Prog.run_inv (P := fun d => d.Canonical ∧ d.Bounded)
    (fun e d ⟨hc, hb⟩ => ⟨e.apply_canonical d hc, e.apply_bounded d hb⟩) p s.dev hs

/-- Settles O4: a step idles or runs a program of effects, and every effect keeps the invariant. -/
theorem stepKeepsInvariant : Obligations.StepKeepsInvariant := by
  intro s t hs h
  unfold step at h
  split at h
  · cases h; exact hs
  · exact (exec_ran h).inv hs

end Sys2Proof.Machine
end

section
/-!
PROOFS of ingress and dispatch (O45).
-/
namespace Sys2Proof.Machine

/-! ## Finding the first -/

/-- The first index of a range at which a function answers. -/
theorem findSome?_range_of_first {α : Type} {f : Nat → Option α} {n q : Nat} {b : α} (hq : q < n) (hb : f q = some b)
    (hn : ∀ j < q, f j = none) : (List.range n).findSome? f = some b := by
  obtain ⟨r, rfl⟩ := Nat.exists_eq_add_of_le (Nat.succ_le_of_lt hq)
  rw [List.findSome?_eq_some_iff]
  refine ⟨List.range q, q, (List.range r).map (q + 1 + ·), ?_, hb, fun j hj => hn j (List.mem_range.mp hj)⟩
  rw [Nat.succ_eq_add_one, List.range_add, List.range_succ, List.append_assoc, List.singleton_append]

/-- The first element of a list that satisfies a test, written out between those before and after it. -/
theorem find?_append_cons {α : Type} {p : α → Bool} {before after : List α} {x : α} (hb : ∀ y ∈ before, p y = false)
    (hx : p x = true) : (before ++ x :: after).find? p = some x :=
  List.find?_eq_some_iff_append.mpr ⟨hx, before, after, rfl, fun y hy => by simp [hb y hy]⟩

/-! ## Ingress -/

/-- The effects by which the cells of a packet from a bundle are free again (R403). -/
def freeCellsEffs (p cls len : Nat) : List Eff :=
  if 96 ≤ p ∧ p < 108 then [.fab (p - 96) fun b => { b with
    freed := SMap.upd 0 cls (· + ceilDiv len 244) b.freed
    held := SMap.upd 0 cls (· - ceilDiv len 244) b.held }] else []

theorem run_freeCellsOf (p cls len : Nat) (d : Dev) : (freeCellsOf p cls len).run d = d.after (freeCellsEffs p cls len) := by
  unfold freeCellsOf freeCellsEffs
  by_cases h : 96 ≤ p ∧ p < 108
  · obtain ⟨h1, h2⟩ := h; simp [h1, h2]
  · rw [if_neg h, ← Bool.decide_and, decide_eq_false h]; rfl

theorem exec_packetIngress {a : Arrival} {s : State} (hw : a.wf = true) (ha : s.dev.answers = true) :
    exec (.packetIngress a) s = .next { s with dev := (ingress a).run s.dev } := by
  change s.runIf a.wf (live (ingress a)) = _
  rw [hw]
  exact run_live ha _

section
variable {a : Arrival} {s : State} (hw : a.wf = true) (ha : s.dev.answers = true)
include hw ha

theorem ingress_absent (hp : s.dev.portPresent (s.dev.entryPort a.port.val) = false) : exec (.packetIngress a) s = .next s := by
  rw [exec_packetIngress hw ha, ingress]
  simp [hp]

variable (hr : s.dev.inRun) (hp : s.dev.portPresent (s.dev.entryPort a.port.val) = true)
include hr hp

theorem ingress_closed (hc : s.dev.portClosed a.port.val = true) : exec (.packetIngress a) s =
    .next (s.after (freeCellsEffs (s.dev.entryPort a.port.val) a.cls.val a.data.length)) := by
  rw [exec_packetIngress hw ha, ingress]
  simp [hp, ha, wake_run hr.1 hr.2, hc, run_freeCellsOf, State.after]

variable (hc : s.dev.portClosed a.port.val = false)
include hc

theorem ingress_overruns
    (h : s.dev.ingressShare (s.dev.entryPort a.port.val) < s.dev.ingressCells (s.dev.entryPort a.port.val) + cellsOf a.data) :
    exec (.packetIngress a) s = .next (s.after
      ([.count .carIngressOverruns 0 (s.dev.entryPort a.port.val) 1, .raise 337 0 (s.dev.entryPort a.port.val) 0 0] ++
        freeCellsEffs (s.dev.entryPort a.port.val) a.cls.val a.data.length)) := by
  rw [exec_packetIngress hw ha, ingress]
  simp [hp, ha, wake_run hr.1 hr.2, hc, hr.1, h, run_freeCellsOf, State.after]

theorem ingress_stored
    (h : s.dev.ingressCells (s.dev.entryPort a.port.val) + cellsOf a.data ≤ s.dev.ingressShare (s.dev.entryPort a.port.val)) :
    exec (.packetIngress a) s = .next (s.after [.fwd fun f => { f with
      count := f.count + 1
      waiting := f.waiting ++ [⟨f.count, s.dev.entryPort a.port.val, a.tc.val, 0, 0, a.cfgEpoch.toNat, a.tblEpoch.toNat, a.ipBad,
        a.l4Bad, a.stream.map fun x => (s.dev.entryPort a.port.val - 108, x.toNat), a.circuit.val, a.start.val, a.cls.val,
        a.data, none⟩] }]) := by
  rw [exec_packetIngress hw ha, ingress]
  simp [hp, ha, wake_run hr.1 hr.2, hc, hr.1, Nat.not_lt.mpr h, State.after]

end

/-- Only a bonded member that is not its group's lowest enters under another port (R29). -/
theorem entryPort_self {d : Dev} {p : Nat} (h : p < 108 ∨ 112 ≤ p ∨ d.lead (p - 108) = p - 108) : d.entryPort p = p := by
  unfold Dev.entryPort
  split <;> omega

/-! ## Traffic class (Table 15.1) -/

section
variable {d : Dev} {p : Nat}

theorem ingressTc_given (tc start : Nat) (b : List Byte) (h : (96 ≤ p ∧ p < 108) ∨ (112 ≤ p ∧ p < 116)) :
    d.ingressTc p tc start b = tc := if_pos h

variable (tc : Nat) {start : Nat} {b : List Byte} (h : p < 96 ∨ (108 ≤ p ∧ p < 112) ∨ 116 ≤ p)
include h

theorem ingressTc_default (hm : d.num .carPortTc 0 p / 64 = 0) : d.ingressTc p tc start b = d.num .carPortTc 0 p % 8 := by
  rw [Dev.ingressTc, if_neg (by omega)]
  simp only [hm]

theorem ingressTc_tagged (hm : d.num .carPortTc 0 p / 64 = 1) {t : Hdr} {rest : List Hdr}
    (ht : (parse d.parseCfg start b).tags = t :: rest) : d.ingressTc p tc start b = beAt b t.off 2 / 8192 := by
  rw [Dev.ingressTc, if_neg (by omega)]
  simp only [hm, ht, Nat.reducePow]

theorem ingressTc_untagged (hm : d.num .carPortTc 0 p / 64 = 1) (ht : (parse d.parseCfg start b).tags = []) :
    d.ingressTc p tc start b = d.num .carPortTc 0 p % 8 := by
  rw [Dev.ingressTc, if_neg (by omega)]
  simp only [hm, ht]

end

/-! ## The packet served next (R38) -/

section
variable {d : Dev} {before after : List Pkt} {x : Pkt} (hw : d.fwd.waiting = before ++ x :: after)
include hw

theorem nextServed_control (hb : ∀ y ∈ before, y.port < 116) (hx : 116 ≤ x.port) :
    d.nextServed = some (x, d.fwd.turn, d.fwd.turnLeft) := by
  have hf : d.fwd.waiting.find? (fun y => decide (116 ≤ y.port)) = some x := by
    rw [hw]
    exact find?_append_cons (fun y hy => by simpa using hb y hy) (by simpa using hx)
  simp only [Dev.nextServed, hf]

variable (hb : ∀ y ∈ before, y.port ≠ x.port)
include hb

theorem firstOfPort : d.fwd.waiting.find? (fun y => y.port == x.port) = some x := by
  rw [hw]
  exact find?_append_cons (fun y hy => by simpa using hb y hy) (by simp)

variable (hl : ∀ y ∈ d.fwd.waiting, y.port < 116)
include hl

theorem nextServed_turn (ht : x.port = d.fwd.turn) (hk : 0 < d.fwd.turnLeft) :
    d.nextServed = some (x, d.fwd.turn, d.fwd.turnLeft - 1) := by
  have hc : d.fwd.waiting.find? (fun y => decide (116 ≤ y.port)) = none := by
    simpa [List.find?_eq_none] using hl
  simp only [Dev.nextServed, hc, ← ht, firstOfPort hw hb, hk, if_true]

theorem nextServed_fresh {q : Nat} (hq : q < 116) (ht : d.fwd.turnLeft = 0 ∨ ∀ y ∈ d.fwd.waiting, y.port ≠ d.fwd.turn)
    (hx : x.port = (d.fwd.turn + 1 + q) % 116) (hn : ∀ j < q, ∀ y ∈ d.fwd.waiting, y.port ≠ (d.fwd.turn + 1 + j) % 116) :
    d.nextServed = some (x, x.port, d.num .carPortWeight 0 x.port - 1) := by
  have hc : d.fwd.waiting.find? (fun y => decide (116 ≤ y.port)) = none := by
    simpa [List.find?_eq_none] using hl
  have hfresh : ((List.range 116).map fun k => (d.fwd.turn + 1 + k) % 116).findSome? (fun q =>
      (d.fwd.waiting.find? fun y => y.port == q).map fun y => (y, q, d.num .carPortWeight 0 q - 1)) =
      some (x, x.port, d.num .carPortWeight 0 x.port - 1) := by
    rw [List.findSome?_map]
    refine findSome?_range_of_first hq ?_ fun j hj => ?_
    · simp only [Function.comp_apply, ← hx, firstOfPort hw hb, Option.map_some]
    · simpa [List.find?_eq_none] using hn j hj
  simp only [Dev.nextServed, hc, hfresh]
  split
  · rename_i y hy
    obtain h0 | h0 := ht
    · simp [h0]
    · exact absurd (by simpa using List.find?_some hy) (h0 y (List.mem_of_find?_eq_some hy))
  · rfl

end

/-! ## Dispatch (R416, R418) -/

/-- The next cluster whose window has room. -/
def Dev.nextCluster (d : Dev) : Option Nat :=
  ((List.range 4).map fun k => (d.fwd.cluster + k) % 4).find? fun c => decide (d.windowUsed c < 8192)

theorem nextCluster_none {d : Dev} (h : ∀ c < 4, 8192 ≤ d.windowUsed c) : d.nextCluster = none := by
  simp only [Dev.nextCluster, List.find?_eq_none, List.mem_map, decide_eq_true_eq, Nat.not_lt]
  rintro c ⟨k, -, rfl⟩
  exact h _ (Nat.mod_lt _ (by decide))

theorem nextCluster_some {d : Dev} {k : Nat} (hk : k < 4) (hu : d.windowUsed ((d.fwd.cluster + k) % 4) < 8192)
    (hn : ∀ j < k, 8192 ≤ d.windowUsed ((d.fwd.cluster + j) % 4)) : d.nextCluster = some ((d.fwd.cluster + k) % 4) := by
  rw [Dev.nextCluster, List.find?_map,
    List.find?_range_eq_some.mpr ⟨decide_eq_true hu, List.mem_range.mpr hk, fun j hj => by simpa using hn j hj⟩]
  rfl

/-- The effect that deals a packet to a cluster: the traffic class and the epochs of the moment, or those of its stream. -/
def Dev.dealEff (d : Dev) (x : Pkt) (turn left c : Nat) : Eff :=
  let epoch := if x.stream.isSome then x.cfgEpoch else d.cfg.epoch
  let y : Pkt := { x with tc := (d.asOf epoch).ingressTc x.port x.tc x.start x.data }
  .fwd fun f => { f with
    waiting := f.waiting.filter fun z => z.id != x.id
    flight := f.flight ++ [{ y with
      seq := SMap.get 0 d.fwd.seqNext y.dom
      cluster := c
      cfgEpoch := epoch
      tblEpoch := if x.stream.isSome then x.tblEpoch else d.num .fwdTableEpoch }]
    cluster := (c + 1) % 4
    turn := turn
    turnLeft := left
    seqNext := SMap.put 0 y.dom (SMap.get 0 d.fwd.seqNext y.dom + 1) f.seqNext }

/-- What the dispatcher does with what is served next and the next cluster with room. -/
def dispatchProg (d : Dev) : Option (Pkt × Nat × Nat) → Option Nat → Prog
  | some (w, turn, left), some c => .when (d.num .pwrState == 0) [.eff (d.dealEff w turn left c)]
  | _, _ => .skip

theorem exec_carouselDispatch {s : State} (ha : s.dev.answers = true) : exec .carouselDispatch s =
    .next { s with dev := (dispatchProg s.dev s.dev.nextServed s.dev.nextCluster).run s.dev } := by
  change s.run (live _) = _
  rw [run_live ha, Prog.run_ask, ← Dev.nextCluster]
  rcases s.dev.nextServed with _ | ⟨w, turn, left⟩ <;> rcases s.dev.nextCluster with _ | c <;> rfl

theorem dispatch_idle {s : State} (ha : s.dev.answers = true)
    (h : s.dev.fwd.waiting = [] ∨ (∀ c < 4, 8192 ≤ s.dev.windowUsed c) ∨ s.dev.num .pwrState ≠ 0) :
    exec .carouselDispatch s = .next s := by
  rw [exec_carouselDispatch ha]
  obtain h | h | h := h
  · have : s.dev.nextServed = none := by simp [Dev.nextServed, h]
    rw [this]; rfl
  · rw [nextCluster_none h]
    cases s.dev.nextServed <;> rfl
  · rcases s.dev.nextServed with _ | ⟨w, turn, left⟩ <;> rcases s.dev.nextCluster with _ | c <;>
      simp [dispatchProg, beq_eq_false_iff_ne.mpr h]

theorem dispatch_deals {s : State} {x : Pkt} {turn left c : Nat} (ha : s.dev.answers = true) (hp : s.dev.num .pwrState = 0)
    (hx : s.dev.nextServed = some (x, turn, left)) (hc : s.dev.nextCluster = some c) :
    exec .carouselDispatch s = .next (s.after [s.dev.dealEff x turn left c]) := by
  rw [exec_carouselDispatch ha, hx, hc]
  simp [dispatchProg, hp, State.after]

/-- Settles O45, by the branches of ingress, of the traffic class, and of the service order. -/
theorem carouselIntake : Obligations.CarouselIntake := by
  refine ⟨?_, fun d p tc start b => ⟨ingressTc_given tc start b, fun h => ⟨ingressTc_default tc h,
    fun hm t rest => ingressTc_tagged tc h hm, ingressTc_untagged tc h⟩⟩, ?_⟩
  · intro s a p freed _ hw ha hr hp hfreed
    subst hp
    obtain rfl : freed = freeCellsEffs (s.dev.entryPort a.port.val) a.cls.val a.data.length := hfreed
    exact ⟨entryPort_self, ingress_absent hw ha, fun h => ⟨ingress_closed hw ha hr h,
      fun hc => ⟨ingress_overruns hw ha hr h hc, ingress_stored hw ha hr h hc⟩⟩⟩
  · intro s _ ha f deal hf hdeal
    subst hf
    obtain rfl : deal = s.dev.dealEff := by
      funext x turn left c
      exact hdeal x turn left c
    refine ⟨dispatch_idle ha, ?_⟩
    intro hp c k hk hc hu hn before x after hw hb
    subst hc
    have hcl := nextCluster_some hk hu hn
    have hport : ∀ y ∈ before, y.port ≠ x.port := fun y hy => (hb y hy).1
    exact ⟨fun hx => dispatch_deals ha hp (nextServed_control hw (fun y hy => (hb y hy).2 hx) hx) hcl,
      fun _ hl => ⟨fun ht hk => dispatch_deals ha hp (nextServed_turn hw hport hl ht hk) hcl,
        fun q hq ht hx hq' => dispatch_deals ha hp (nextServed_fresh hw hport hl hq ht hx hq') hcl⟩⟩

end Sys2Proof.Machine
end

section
/-!
PROOFS of timestamps, pulse trains, SYNCO, and Ringmaster's commands (O56).
-/
namespace Sys2Proof.Machine

/-! ## Requests taken up -/

section
variable (d : Dev) (c : Call)

@[simp] theorem Dev.taken_train (i : Nat) : (d.taken c).train i = d.train i := rfl
@[simp] theorem Dev.taken_pendingOn (k t : Nat) : (d.taken c).pendingOn k t = d.pendingOn k t := rfl
@[simp] theorem Dev.taken_trigAhead (n : Nat) (t : Trig) : (d.taken c).trigAhead n t = d.trigAhead n t := by cases t <;> rfl
@[simp] theorem Dev.taken_trigUnaligned (n : Nat) (t : Trig) : (d.taken c).trigUnaligned n t = d.trigUnaligned n t := by
  cases t <;> rfl
@[simp] theorem Dev.taken_actsFull : (d.taken c).actsFull = d.actsFull := rfl
@[simp] theorem Dev.taken_actIn (slot : Nat) : (d.taken c).actIn? slot = d.actIn? slot := rfl
@[simp] theorem Dev.taken_commitDue (a : Action) : (d.taken c).commitDue a = d.commitDue a := by
  unfold Dev.commitDue
  cases a.trig <;> rfl

end

/-- A request whose behaviour finds an abort before the crossings and held objects are looked at. -/
theorem serve_refused_pre {s : State} {r : Req} {pre state : Dev → Nat} {act : Dev → Reply} {a : Nat} (h : s.dev.admits r)
    (hp : pre (s.dev.taken r.call) = a) (ha : a ≠ 0) : s.run (serve r (beh pre state act)) = .next (s.refusedWith r.call [] a) :=
  served_abort h ha (.inl hp) fun _ _ => rfl

/-- The same for an abort of the state the request meets. -/
theorem serve_refused_state {s : State} {r : Req} {pre state : Dev → Nat} {act : Dev → Reply} {a : Nat} (h : s.dev.admits r)
    (hp : pre (s.dev.taken r.call) = 0) (hs : state (s.dev.taken r.call) = a) (ha : a ≠ 0) :
    s.run (serve r (beh pre state act)) = .next (s.refusedWith r.call [] a) :=
  served_abort h ha (.inr ⟨hp, hs⟩) fun _ _ => rfl

/-! ## The timestamp queue (R564, R565) -/

section
variable {s : State} {o : Origin} {k : BitVec 8}

theorem exec_timeTsRead : exec (.timeTsRead o k) s =
    s.run (serve (execReq o .timeTsRead 0 0 true (.num k.toNat)) (timeTsReadBeh o.path k.toNat)) := rfl

variable (h : s.dev.admits (execReq o .timeTsRead 0 0 true (.num k.toNat)))
include h

theorem tsRead_refused (hk : k.toNat = 0 ∨ 127 < k.toNat) : exec (.timeTsRead o k) s =
    .next (s.refusedWith (execReq o .timeTsRead 0 0 true (.num k.toNat)).call [] 0x0302) := by
  rw [exec_timeTsRead]
  exact serve_refused_pre h (if_neg (by omega)) (by decide)

theorem tsRead_answers (hs : s.Inv) (h1 : 1 ≤ k.toNat) (h2 : k.toNat ≤ 127) {m : Nat} (hm : m = min k.toNat (pathData o.path / 32)) :
    exec (.timeTsRead o k) s = .next (s.served (execReq o .timeTsRead 0 0 true (.num k.toNat)).call
      (.tim (fun t => { t with tsq := t.tsq.drop m }) :: if m < s.dev.tim.tsq.length then [.raise 437 0 0xFFFFFF 0 0] else [])
      (s.dev.tim.tsq.take m).flatten) := by
  subst hm
  rw [exec_timeTsRead]
  refine served_done hs h (if_pos ⟨h1, h2⟩) rfl rfl ?_
  by_cases hl : min k.toNat (pathData o.path / 32) < s.dev.tim.tsq.length <;> simp [hl, noInst]

end

/-! ## Capture inputs (R568) -/

/-- The effects of an event raised at most once a second. -/
def Dev.ratedEffs (d : Dev) (src inst : Nat) : List Eff :=
  if SMap.get 0 d.tim.lastEvt src = d.tim.secs + 1 then []
  else [.raise src 0 inst 0 0, .tim fun t => { t with lastEvt := SMap.put 0 src (d.tim.secs + 1) t.lastEvt }]

theorem run_raiseRated (src inst : Nat) (d : Dev) : (raiseRated src inst).run d = d.after (d.ratedEffs src inst) := by
  unfold raiseRated raiseFirst Dev.ratedEffs
  by_cases h : SMap.get 0 d.tim.lastEvt src = d.tim.secs + 1 <;> simp [h]

/-- The effects by which a record enters the timestamp queue. -/
def Dev.tsPushEffs (d : Dev) (rec : List Byte) : List Eff :=
  if 4096 ≤ d.tim.tsq.length then .count .timeTsOverflows 0 0 1 :: d.ratedEffs 438 0xFFFFFF
  else .tim (fun t => { t with tsq := tsInsert rec t.tsq }) :: if d.tim.tsq = [] then [.raise 437 0 0xFFFFFF 0 0] else []

theorem run_tsPush (rec : List Byte) (d : Dev) : (tsPush rec).run d = d.after (d.tsPushEffs rec) := by
  unfold tsPush Dev.tsPushEffs
  rw [Prog.run_ask]
  split
  · simp only [Prog.run_all_cons, Prog.all_nil, Prog.run_skip, run_raiseRated]; rfl
  · by_cases h : d.tim.tsq = [] <;> simp [h, noInst, List.isEmpty_eq_false_iff.mpr]

/-- The time base at an edge `off` ns into the present sub-tick. -/
def Dev.edgeTime (d : Dev) (off : Nat) : TimeSt := d.tim.setUnits (d.tim.units + off * nsUnits)

/-- The record of an edge of a capture input (Table 20.3). -/
def Dev.edgeRec (d : Dev) (i : Nat) (rising : Bool) (w : TimeSt) : List Byte :=
  beBytes 1 3 ++ beBytes 1 i ++ beBytes 1 (if rising then 1 else 2) ++ zeros 13 ++ beBytes 6 w.secs ++ beBytes 4 w.ns ++
    beBytes 2 (w.frac / 2 ^ 24) ++ beBytes 2 (if d.synced then 0 else 2 ^ 15) ++ [0, 0]

theorem tsRecord_edge (d : Dev) (i : Nat) (rising : Bool) (w : TimeSt) :
    tsRecord 3 i (if rising then 1 else 2) 0 0 [] w d.tsUnsync = d.edgeRec i rising w := by
  have hz : zeros 13 = beBytes 1 0 ++ (beBytes 2 0 ++ padTo 10 []) := by decide
  simp only [tsRecord, Dev.edgeRec, Dev.tsUnsync, hz, List.append_assoc]

/-- What a selected edge does that is not merged. -/
def Dev.stampEffs (d : Dev) (i : Nat) (rec : List Byte) (w : TimeSt) : List Eff :=
  [.tim (fun t => { t with tpiLast := SMap.put 0 i (w.secs * 1000000000 + w.ns + 1) t.tpiLast }),
    .obj .timeTpiLast 0 i (.oct (beBytes 6 w.secs ++ beBytes 4 w.ns ++ beBytes 2 (w.frac / 2 ^ 24)))] ++ d.tsPushEffs rec

section
variable {s : State} {i : Fin 4} {rising : Bool} {off : Fin 1000}

/-- Whether an input's configuration selects an edge. -/
def Dev.edgeSelected (d : Dev) (i : Nat) (rising : Bool) : Bool := bitOf (d.num .timeTpiCfg 0 i) (if rising then 0 else 1)

/-- An edge less than 1 µs after the last stamp of its input; 0 stands for no stamp. -/
def mergesAt (last now : Nat) : Prop := last ≠ 0 ∧ now < last - 1 + 1000

theorem exec_tpiCaptureEdge : exec (.tpiCaptureEdge i rising off) s = execTpiCaptureEdge i rising off s := rfl

theorem edge_unselected (ha : s.dev.answers = true) (h : s.dev.edgeSelected i.val rising = false) :
    exec (.tpiCaptureEdge i rising off) s = .next s := by
  rw [exec_tpiCaptureEdge, execTpiCaptureEdge, run_live ha]
  simp only [Dev.edgeSelected] at h
  simp [h]

variable (ha : s.dev.answers = true) (h : s.dev.edgeSelected i.val rising = true) {w : TimeSt} (hw : w = s.dev.edgeTime off.val)
include ha h hw

theorem edge_merged (hm : mergesAt (SMap.get 0 s.dev.tim.tpiLast i.val) (w.secs * 1000000000 + w.ns)) :
    exec (.tpiCaptureEdge i rising off) s =
      .next (s.after (.count .timeTpiMerged 0 i.val 1 :: s.dev.ratedEffs 440 i.val)) := by
  subst hw
  rw [exec_tpiCaptureEdge, execTpiCaptureEdge, run_live ha]
  simp only [Dev.edgeSelected] at h
  simp only [mergesAt, Dev.edgeTime] at hm
  simp only [h, Prog.run_ask, Prog.when_true, Prog.run_all_cons, Prog.all_nil, Prog.run_skip, if_pos hm, run_raiseRated]
  rfl

theorem edge_stamped (hm : ¬ mergesAt (SMap.get 0 s.dev.tim.tpiLast i.val) (w.secs * 1000000000 + w.ns)) :
    exec (.tpiCaptureEdge i rising off) s = .next (s.after (s.dev.stampEffs i.val (s.dev.edgeRec i.val rising w) w)) := by
  subst hw
  rw [exec_tpiCaptureEdge, execTpiCaptureEdge, run_live ha]
  simp only [Dev.edgeSelected] at h
  simp only [mergesAt, Dev.edgeTime] at hm
  simp only [h, Prog.run_ask, Prog.when_true, Prog.run_all_cons, Prog.all_nil, Prog.run_skip, if_neg hm, run_tsPush,
    tsRecord_edge]
  rfl

end

/-! ## Pulse outputs (R566, R567) -/

/-- The values of TIME_TPO_CFG that R566 refuses. -/
theorem tpoBad_iff (b : List Byte) : tpoBad b = true ↔
    tpoMode b = 3 ∨ beAt b 0 1 % 16 ≠ 0 ∨ beAt b 1 3 ≠ 0 ∨ beAt b 16 16 ≠ 0 ∨
      (tpoMode b = 2 ∧ (tpoPeriod b < 100 ∨ 4000000000 < tpoPeriod b ∨ tpoWidth b < 20 ∨ tpoPeriod b < tpoWidth b + 20)) ∨
      (tpoMode b = 1 ∧ (tpoWidth b < 20 ∨ 4000000000 < tpoWidth b)) := by
  simp only [tpoBad, Bool.or_eq_true, Bool.and_eq_true, beq_iff_eq, bne_iff_ne, decide_eq_true_eq, or_assoc]

section
variable {s : State} {o : Origin} {i : Fin 16} {b : List Byte}

theorem exec_timeTpoCfgWrite : exec (.timeTpoCfgWrite o i b) s =
    s.run (serve (writeReq o .timeTpoCfg 0 i.val (.oct b)) (tpoCfgBeh i.val b)) := rfl

variable (h : s.dev.admits (writeReq o .timeTpoCfg 0 i.val (.oct b)))
include h

theorem tpoCfg_bad (hb : tpoBad b = true) : exec (.timeTpoCfgWrite o i b) s =
    .next (s.refusedWith (writeReq o .timeTpoCfg 0 i.val (.oct b)).call [] 0x0302) := by
  rw [exec_timeTpoCfgWrite]
  exact serve_refused_pre h (if_pos hb) (by decide)

variable (hb : ¬ tpoBad b = true)
include hb

theorem tpoCfg_running (ht : (s.dev.train i.val).running = true) : exec (.timeTpoCfgWrite o i b) s =
    .next (s.refusedWith (writeReq o .timeTpoCfg 0 i.val (.oct b)).call [] 0x0401) := by
  rw [exec_timeTpoCfgWrite]
  exact serve_refused_state h (if_neg hb) (if_pos ht) (by decide)

variable (ht : (s.dev.train i.val).running = false)
include ht

theorem tpoCfg_held (hp : s.dev.pendingOn 7 i.val ≠ none) : exec (.timeTpoCfgWrite o i b) s =
    .next (s.refusedWith (writeReq o .timeTpoCfg 0 i.val (.oct b)).call [] 0x0501) := by
  rw [exec_timeTpoCfgWrite]
  exact serve_refused_state h (if_neg hb) (by simp [ht, Option.isSome_iff_ne_none.mpr hp]) (by decide)

theorem tpoCfg_stored (hs : s.Inv) (hp : s.dev.pendingOn 7 i.val = none) : exec (.timeTpoCfgWrite o i b) s =
    .next (s.served (writeReq o .timeTpoCfg 0 i.val (.oct b)).call [.obj .timeTpoCfg 0 i.val (.oct b)] []) := by
  rw [exec_timeTpoCfgWrite]
  exact served_done hs h (if_neg hb) (by simp [tpoCfgBeh, beh, ht, hp]) rfl rfl

end

/-- TIME_TPO_START or, for a stop, TIME_TPO_STOP: its meaning, object and target, and whether it has nothing to do. -/
def execTpo (stop : Bool) (o : Origin) (b : List Byte) (s : State) : Host.Outcome State Fault Refusal :=
  if stop then execTimeTpoStop o b s else execTimeTpoStart o b s
def tpoObj (stop : Bool) : Obj := if stop then .timeTpoStop else .timeTpoStart
def tpoTarget (stop : Bool) (i : Nat) : Nat := if stop then 256 + i else i
def Dev.tpoIdle (d : Dev) (stop : Bool) (i : Nat) : Bool :=
  if stop then !(d.train i).running && (d.pendingOn 7 i).isNone
  else tpoMode (d.oct .timeTpoCfg 0 i) == 0 || (d.train i).running

theorem tpoIdle_start {d : Dev} {i : Nat} :
    d.tpoIdle false i = true ↔ bitsOf (beAt (d.oct .timeTpoCfg 0 i) 0 1) 5 2 = 0 ∨ (d.train i).running = true := by
  simp [Dev.tpoIdle, tpoMode]

theorem tpoIdle_stop {d : Dev} {i : Nat} :
    d.tpoIdle true i = true ↔ (d.train i).running = false ∧ d.pendingOn 7 i = none := by
  simp [Dev.tpoIdle]

theorem execTpo_eq {s : State} {o : Origin} {b : List Byte} (stop : Bool) (hb : b.length = 12) : execTpo stop o b s =
    s.run (serve (execReq o (tpoObj stop) 0 0 true (.oct b)) (tpoBeh (s.dev.codeOf o.path) b stop)) := by
  have hl : (b.length == 12) = true := by simp [hb]
  cases stop
  · change s.run (.ask fun d => serveExec o .timeTpoStart 0 0 (b.length == 12) (.oct b) (tpoBeh (d.codeOf o.path) b false)) = _
    rw [hl]; rfl
  · change s.run (.ask fun d => serveExec o .timeTpoStop 0 0 (b.length == 12) (.oct b) (tpoBeh (d.codeOf o.path) b true)) = _
    rw [hl]; rfl

theorem parseTrig_reserved {code : Nat} {v : List Byte} (h : 2 < code) : parseTrig code v = none := by
  obtain ⟨n, rfl⟩ : ∃ n, code = n + 3 := ⟨code - 3, by omega⟩
  rfl

section
variable {d : Dev} {b : List Byte} {code : Nat} {stop : Bool} {t : Trig}

theorem tpoBeh_pre_none (ht : parseTrig (beAt b 0 1) (b.drop 2) = none) : (tpoBeh code b stop).pre d = 0x0302 := by
  simp only [tpoBeh, beh, ht]

variable (ht : parseTrig (beAt b 0 1) (b.drop 2) = some t)
include ht

theorem tpoBeh_pre : (tpoBeh code b stop).pre d =
    if 15 < beAt b 1 1 ∨ d.trigAhead (d.num .clkTimingChannel) t = false then 0x0302 else 0 := by
  simp only [tpoBeh, beh, ht, Bool.not_eq_true']

theorem tpoBeh_state : (tpoBeh code b stop).state d = firstAbort [
    (d.tpoIdle stop (beAt b 1 1), 0x0401), ((d.pendingOn 7 (tpoTarget stop (beAt b 1 1))).isSome, 0x0501),
    (d.trigUnaligned (d.num .clkTimingChannel) t, 0x0401), (d.actsFull, 0x0402)] := by
  simp only [tpoBeh, beh, ht]
  rfl

theorem tpoBeh_act : (tpoBeh code b stop).act d = .done (armAct 7 (tpoTarget stop (beAt b 1 1)) t code [] []) [] := by
  simp only [tpoBeh, beh, ht]
  rfl

end

@[simp] theorem taken_tpoIdle (d : Dev) (c : Call) (stop : Bool) (i : Nat) : (d.taken c).tpoIdle stop i = d.tpoIdle stop i := rfl

/-- A command that starts or stops a train, refused. -/
def State.tpoRefused (s : State) (stop : Bool) (o : Origin) (b : List Byte) (a : Nat) : State :=
  s.refusedWith (execReq o (tpoObj stop) 0 0 true (.oct b)).call [] a

section
variable {s : State} {o : Origin} {b : List Byte} {stop : Bool} (hb : b.length = 12)
  (h : s.dev.admits (execReq o (tpoObj stop) 0 0 true (.oct b)))
include hb h

theorem tpo_refused_pre {a : Nat} (ha : a ≠ 0)
    (hp : (tpoBeh (s.dev.codeOf o.path) b stop).pre (s.dev.taken (execReq o (tpoObj stop) 0 0 true (.oct b)).call) = a) :
    execTpo stop o b s = .next (s.tpoRefused stop o b a) := by
  rw [execTpo_eq stop hb]
  exact serve_refused_pre h hp ha

theorem tpo_reserved (ht : parseTrig (beAt b 0 1) (b.drop 2) = none) :
    execTpo stop o b s = .next (s.tpoRefused stop o b 0x0302) :=
  tpo_refused_pre hb h (by decide) (tpoBeh_pre_none ht)

theorem tpo_outOfRange (hi : 15 < beAt b 1 1 ∨ 2 < beAt b 0 1) :
    execTpo stop o b s = .next (s.tpoRefused stop o b 0x0302) := by
  cases ht : parseTrig (beAt b 0 1) (b.drop 2) with
  | none => exact tpo_reserved hb h ht
  | some t =>
    have hc : ¬ 2 < beAt b 0 1 := fun hc => by simp [parseTrig_reserved hc] at ht
    exact tpo_refused_pre hb h (by decide) (by rw [tpoBeh_pre ht, if_pos (.inl (hi.resolve_right hc))])

variable {t : Trig} (ht : parseTrig (beAt b 0 1) (b.drop 2) = some t)
include ht

theorem tpo_tooSoon (ha : s.dev.trigAhead (s.dev.num .clkTimingChannel) t = false) :
    execTpo stop o b s = .next (s.tpoRefused stop o b 0x0302) :=
  tpo_refused_pre hb h (by decide) (by rw [tpoBeh_pre ht]; simp [ha])

variable (hi : beAt b 1 1 ≤ 15) (ha : s.dev.trigAhead (s.dev.num .clkTimingChannel) t = true)
include hi ha

theorem tpo_refused_state {a : Nat} (h0 : a ≠ 0) (hst : firstAbort [
      (s.dev.tpoIdle stop (beAt b 1 1), 0x0401), ((s.dev.pendingOn 7 (tpoTarget stop (beAt b 1 1))).isSome, 0x0501),
      (s.dev.trigUnaligned (s.dev.num .clkTimingChannel) t, 0x0401), (s.dev.actsFull, 0x0402)] = a) :
    execTpo stop o b s = .next (s.tpoRefused stop o b a) := by
  rw [execTpo_eq stop hb]
  refine served_abort h h0 (.inr ⟨?_, ?_⟩) fun _ _ => rfl
  · rw [tpoBeh_pre ht]; simp [ha, Nat.not_lt.mpr hi]
  · rw [tpoBeh_state ht]; simpa using hst

theorem tpo_idle (hd : s.dev.tpoIdle stop (beAt b 1 1) = true) :
    execTpo stop o b s = .next (s.tpoRefused stop o b 0x0401) :=
  tpo_refused_state hb h ht hi ha (by decide) (by simp [firstAbort, hd])

variable (hd : s.dev.tpoIdle stop (beAt b 1 1) = false)
include hd

theorem tpo_conflict (hp : s.dev.pendingOn 7 (tpoTarget stop (beAt b 1 1)) ≠ none) :
    execTpo stop o b s = .next (s.tpoRefused stop o b 0x0501) :=
  tpo_refused_state hb h ht hi ha (by decide) (by simp [firstAbort, hd, Option.isSome_iff_ne_none.mpr hp])

variable (hp : s.dev.pendingOn 7 (tpoTarget stop (beAt b 1 1)) = none)
include hp

theorem tpo_unaligned (hu : s.dev.trigUnaligned (s.dev.num .clkTimingChannel) t = true) :
    execTpo stop o b s = .next (s.tpoRefused stop o b 0x0401) :=
  tpo_refused_state hb h ht hi ha (by decide) (by simp [firstAbort, hd, hp, hu])

theorem tpo_armed (hs : s.Inv) (hu : s.dev.trigUnaligned (s.dev.num .clkTimingChannel) t = false) (hl : s.dev.acts.length < 256) :
    execTpo stop o b s = .next (s.served (execReq o (tpoObj stop) 0 0 true (.oct b)).call
      [.arm ⟨0, 7, tpoTarget stop (beAt b 1 1), t, s.dev.codeOf o.path, t == .now, [], [], 0⟩] []) := by
  rw [execTpo_eq stop hb]
  refine served_done hs h ?_ ?_ (tpoBeh_act ht) rfl
  · rw [tpoBeh_pre ht]; simp [ha, Nat.not_lt.mpr hi]
  · have hf : s.dev.actsFull = false := decide_eq_false (by unfold actCap; omega)
    rw [tpoBeh_state ht]; simp [firstAbort, hd, hp, hu, hf]

end

/-! ## Instants of pulse trains (R44, R566, R574) -/

/-- The effect that gives a train its state. -/
def trainEff (i : Nat) (y : PulseTrain) : Eff := .tim fun u => { u with trains := SMap.put PulseTrain.none i y u.trains }

/-- The effects of an action that took effect late. -/
def Dev.lateEffs (d : Dev) (a : Action) : List Eff :=
  if d.actLate a then [.count .rmLate 0 0 1, .raise 435 0 a.slot (top8 a.kind) 0] else []

/-- The effects at a train's end. -/
def endTrainEffs (i : Nat) : List Eff := [trainEff i PulseTrain.none, .raise 441 0 i 0 0]

theorem run_lateAct (a : Action) (d e : Dev) : (lateAct a (d.actLate a)).run e = e.after (d.lateEffs a) := by
  unfold lateAct Dev.lateEffs
  cases d.actLate a <;> simp

theorem run_endTrain (i : Nat) (d : Dev) : (endTrain i).run d = d.after (endTrainEffs i) := rfl

/-- Changing a train that stands in a known state. -/
theorem run_setTrain {d : Dev} {i : Nat} {t : PulseTrain} {f : PulseTrain → PulseTrain} (h : d.train i = t) :
    (setTrain i f).run d = (trainEff i (f t)).apply d := by
  subst h; rfl

section
variable {s : State} {i : Fin 16} {off : Fin 1000}

theorem exec_pulseTrainStartFire : exec (.pulseTrainStartFire i off) s = execPulseTrainStartFire i off s := rfl
theorem exec_pulseTrainStopFire : exec (.pulseTrainStopFire i off) s = execPulseTrainStopFire i off s := rfl
theorem exec_pulseEdge : exec (.pulseEdge i off) s = execPulseEdge i off s := rfl

variable (ha : s.dev.answers = true)
include ha

theorem startFire_none (h : s.dev.pendingOn 7 i.val = none) : exec (.pulseTrainStartFire i off) s = .next s := by
  rw [exec_pulseTrainStartFire, execPulseTrainStartFire, run_live ha]
  simp [h]

theorem stopFire_none (h : s.dev.pendingOn 7 (256 + i.val) = none) : exec (.pulseTrainStopFire i off) s = .next s := by
  rw [exec_pulseTrainStopFire, execPulseTrainStopFire, run_live ha]
  simp [h]

section
variable {a : Action} (h : s.dev.pendingOn 7 i.val = some a)
include h

theorem startFire_early (hd : s.dev.pulseDue a off.val = false) : exec (.pulseTrainStartFire i off) s = .next s := by
  rw [exec_pulseTrainStartFire, execPulseTrainStartFire, run_live ha]
  simp [h, hd]

theorem startFire_begins (hd : s.dev.pulseDue a off.val = true) : exec (.pulseTrainStartFire i off) s = .next (s.after
    ([.disarm a.slot, trainEff i.val ⟨true, s.dev.pulseInstant a off.val, 1, true, false⟩] ++ s.dev.lateEffs a)) := by
  rw [exec_pulseTrainStartFire, execPulseTrainStartFire, run_live ha]
  simp only [h, hd, Prog.run_ask, Prog.when_true, Prog.run_all_cons, Prog.all_nil, Prog.run_skip, run_lateAct]
  rfl

end

section
variable {a : Action} (h : s.dev.pendingOn 7 (256 + i.val) = some a)
include h

theorem stopFire_early (hd : s.dev.pulseDue a off.val = false) : exec (.pulseTrainStopFire i off) s = .next s := by
  rw [exec_pulseTrainStopFire, execPulseTrainStopFire, run_live ha]
  simp [h, hd]

theorem stopFire_stops (hd : s.dev.pulseDue a off.val = true) {t : PulseTrain} (ht : t = s.dev.train i.val) :
    exec (.pulseTrainStopFire i off) s = .next (s.after (.disarm a.slot ::
      (if t.running = false then [] else if t.high = true then [trainEff i.val { t with stopping := true }]
        else endTrainEffs i.val) ++ s.dev.lateEffs a)) := by
  subst ht
  rw [exec_pulseTrainStopFire, execPulseTrainStopFire, run_live ha]
  have hset : ∀ f, (setTrain i.val f).run ((Eff.disarm a.slot).apply s.dev) =
      (trainEff i.val (f (s.dev.train i.val))).apply ((Eff.disarm a.slot).apply s.dev) := fun f => run_setTrain rfl
  cases hr : (s.dev.train i.val).running <;> cases hh : (s.dev.train i.val).high <;>
    simp [h, hd, hr, hh, run_lateAct, run_endTrain, hset, endTrainEffs, State.after]

end

section
variable {t : PulseTrain} (ht : t = s.dev.train i.val)
include ht

theorem pulseEdge_none (h : t.running = false ∨ s.dev.unitsAt off.val + 8 * nsUnits < s.dev.nextEdge i.val) :
    exec (.pulseEdge i off) s = .next s := by
  subst ht
  rw [exec_pulseEdge, execPulseEdge, run_live ha]
  have hb : ((s.dev.train i.val).running && decide (s.dev.nextEdge i.val ≤ s.dev.unitsAt off.val + 8 * nsUnits)) = false := by
    simpa only [Bool.and_eq_false_iff, decide_eq_false_iff_not, Int.not_le] using h
  simp only [Prog.run_ask, hb, Prog.when_false, Prog.run_skip]

variable (hr : t.running = true) (he : s.dev.nextEdge i.val ≤ s.dev.unitsAt off.val + 8 * nsUnits)
include hr he

theorem pulseEdge_rises (hh : t.high = false) : exec (.pulseEdge i off) s = .next (s.after
    [trainEff i.val { t with high := true, begun := t.begun + 1, at' := s.dev.nextEdge i.val }]) := by
  subst ht
  rw [exec_pulseEdge, execPulseEdge, run_live ha]
  simp [hr, he, hh, run_setTrain, State.after]

variable (hh : t.high = true) {b : List Byte} (hb : b = s.dev.oct .timeTpoCfg 0 i.val)
include hh hb

theorem pulseEdge_ends (hl : t.stopping = true ∨ tpoMode b = 1 ∨ (tpoCount b ≠ 0 ∧ tpoCount b ≤ t.begun)) :
    exec (.pulseEdge i off) s = .next (s.after (endTrainEffs i.val)) := by
  subst ht hb
  rw [exec_pulseEdge, execPulseEdge, run_live ha]
  simp only [Prog.run_ask, hr, he, hh, hl, decide_true, Bool.and_true, Bool.not_true, Bool.false_eq_true, if_false, if_true,
    Prog.when_true, Prog.run_all_cons, Prog.all_nil, Prog.run_skip, run_endTrain]
  rfl

theorem pulseEdge_falls (hl : ¬ (t.stopping = true ∨ tpoMode b = 1 ∨ (tpoCount b ≠ 0 ∧ tpoCount b ≤ t.begun))) :
    exec (.pulseEdge i off) s = .next (s.after [trainEff i.val { t with high := false }]) := by
  subst ht hb
  rw [exec_pulseEdge, execPulseEdge, run_live ha]
  simp only [Prog.run_ask, hr, he, hh, hl, decide_true, Bool.and_true, Bool.not_true, Bool.false_eq_true, if_false,
    Prog.when_true, Prog.run_all_cons, Prog.all_nil, Prog.run_skip, run_setTrain, State.after, Dev.after_cons, Dev.after_nil]

end
end

/-! ## SYNCO (R569) -/

theorem synco_stored {s : State} {o : Origin} {k : Fin 3} {v : BitVec 32} (hs : s.Inv)
    (h : s.dev.admits (writeReq o (syncoObj k.val) 0 0 (.num v.toNat))) : exec (.timeSyncoWrite o k v) s =
      .next (s.served (writeReq o (syncoObj k.val) 0 0 (.num v.toNat)).call [.obj (syncoObj k.val) 0 0 (.num v.toNat)] []) := by
  change s.run (serve (writeReq o (syncoObj k.val) 0 0 (.num v.toNat)) _) = _
  exact served_done hs h rfl rfl rfl rfl

/-! ## Cancelling and committing (R572) -/

/-- Slots rise through the list, so the action found in a slot is the only one there (R573). -/
theorem actIn_of_mem {d : Dev} (hb : d.Bounded) {a : Action} (ha : a ∈ d.acts) : d.actIn? a.slot = some a := by
  obtain ⟨l, r, hl⟩ := List.append_of_mem ha
  have hp := hb.slots
  rw [hl, List.pairwise_append] at hp
  rw [Dev.actIn?, hl, List.find?_eq_some_iff_append]
  refine ⟨by simp, l, r, rfl, fun x hx => ?_⟩
  have : x.slot < a.slot := hp.2.2 x hx a (by simp)
  simpa using Nat.ne_of_lt this

theorem actIn_none {d : Dev} {n : Nat} (h : ∀ a ∈ d.acts, a.slot ≠ n) : d.actIn? n = none := by
  simpa [Dev.actIn?, List.find?_eq_none] using h

theorem mayCancel_iff (code : Nat) (a : Action) : mayCancel code a = true ↔
    code = 0x0400 ∨ code = a.code ∨ (isHost code = true ∧ isHost a.code = true ∧ hostLink code = hostLink a.code) := by
  simp [mayCancel, or_assoc, and_assoc]

section
variable {s : State} {o : Origin} {slot : BitVec 8}

theorem exec_rmCancel : exec (.rmCancel o slot) s =
    s.run (serve (execReq o .rmCancel 0 0 true (.num slot.toNat)) (rmCancelBeh (s.dev.codeOf o.path) slot.toNat)) := rfl

variable (h : s.dev.admits (execReq o .rmCancel 0 0 true (.num slot.toNat)))
include h

theorem cancel_empty (hn : s.dev.actIn? slot.toNat = none) : exec (.rmCancel o slot) s =
    .next (s.refusedWith (execReq o .rmCancel 0 0 true (.num slot.toNat)).call [] 0x0302) := by
  rw [exec_rmCancel]
  exact serve_refused_pre h (by simp [hn]) (by decide)

variable {a : Action} (hf : s.dev.actIn? slot.toNat = some a)
include hf

theorem cancel_refused {x : Nat} (hx : x ≠ 0)
    (ha : firstAbort [(!mayCancel (s.dev.codeOf o.path) a, 0x0201), (a.committed || s.dev.commitDue a, 0x0401)] = x) :
    exec (.rmCancel o slot) s = .next (s.refusedWith (execReq o .rmCancel 0 0 true (.num slot.toNat)).call [] x) := by
  rw [exec_rmCancel]
  exact serve_refused_state h (by simp [hf]) (by simpa [hf] using ha) hx

theorem cancel_foreign (hm : mayCancel (s.dev.codeOf o.path) a = false) : exec (.rmCancel o slot) s =
    .next (s.refusedWith (execReq o .rmCancel 0 0 true (.num slot.toNat)).call [] 0x0201) :=
  cancel_refused h hf (by decide) (by simp [firstAbort, hm])

variable (hm : mayCancel (s.dev.codeOf o.path) a = true)
include hm

theorem cancel_committed (hc : a.committed = true ∨ s.dev.commitDue a = true) : exec (.rmCancel o slot) s =
    .next (s.refusedWith (execReq o .rmCancel 0 0 true (.num slot.toNat)).call [] 0x0401) :=
  cancel_refused h hf (by decide) (by simp [firstAbort, hm, hc])

theorem cancel_done (hs : s.Inv) (hc : a.committed = false) (hd : s.dev.commitDue a = false) : exec (.rmCancel o slot) s =
    .next (s.served (execReq o .rmCancel 0 0 true (.num slot.toNat)).call
      [.disarm a.slot, .count .rmCancelled 0 0 1, .raise 436 0 a.slot (top8 a.kind) 0] []) := by
  rw [exec_rmCancel]
  exact served_done (p := cancelAct a) hs h (by simp [rmCancelBeh, beh, hf]) (by simp [rmCancelBeh, beh, hf, firstAbort, hm, hc, hd])
    (by simp [rmCancelBeh, beh, hf]) rfl

end

section
variable {s : State} {slot : Fin 256}

theorem exec_actionCommit : exec (.actionCommit slot) s = execActionCommit slot s := rfl

variable (ha : s.dev.answers = true)
include ha

theorem commit_due {a : Action} (hf : s.dev.actIn? slot.val = some a) (hd : s.dev.commitDue a = true) :
    exec (.actionCommit slot) s = .next (s.after [.commit slot.val]) := by
  rw [exec_actionCommit, execActionCommit, run_live ha]
  simp [hf, hd, State.after]

theorem commit_notDue (h : ∀ a ∈ s.dev.acts, a.slot = slot.val → s.dev.commitDue a = false) :
    exec (.actionCommit slot) s = .next s := by
  rw [exec_actionCommit, execActionCommit, run_live ha]
  cases hf : s.dev.actIn? slot.val with
  | none => simp [hf]
  | some a =>
    have hd := h a (List.mem_of_find?_eq_some hf) (by simpa using List.find?_some hf)
    simp [hf, hd]

end

theorem run_live_unanswered {s : State} (ha : s.dev.answers = false) (p : Prog) : s.run (live p) = .next s := by
  simp [State.run_eq, live, ha]

/-- Settles O56, by the branches of each command and of each instant. -/
theorem stampsAndPulses : Obligations.StampsAndPulses := by
  refine ⟨?_, ?_, ?_, ?_, ?_, ?_, ?_, ?_, ?_, ?_⟩
  · rintro s o k r m hs rfl h hm
    exact ⟨tsRead_refused h, fun h1 h2 => tsRead_answers h hs h1 h2 hm⟩
  · rintro s i rising off w now last rec - ha hw rfl rfl rfl
    refine ⟨edge_unselected ha, fun h => ⟨fun h0 hn => edge_merged ha h hw ⟨h0, hn⟩, fun hn => edge_stamped ha h hw ?_⟩⟩
    rintro ⟨h0, h1⟩
    omega
  · rintro s o i b r mode per wid hs - rfl rfl rfl rfl h
    refine ⟨fun hb => tpoCfg_bad h ((tpoBad_iff b).mpr ?_), fun h3 hb1 hb2 hb3 hc ho => ?_⟩
    · simp only [tpoMode, tpoPeriod, tpoWidth]; omega
    · have hb : ¬ tpoBad b = true := by
        rw [tpoBad_iff]; simp only [tpoMode, tpoPeriod, tpoWidth]; omega
      exact ⟨tpoCfg_running h hb, fun ht => ⟨tpoCfg_held h hb ht, tpoCfg_stored h hb ht hs⟩⟩
  · rintro s o b c x r i target idle hs hb rfl hx rfl h
    obtain ⟨stop, rfl, hexec, rfl, hidle⟩ : ∃ stop, x = tpoObj stop ∧ exec c s = execTpo stop o b s ∧
        target = tpoTarget stop (beAt b 1 1) ∧ (idle ↔ s.dev.tpoIdle stop (beAt b 1 1) = true) := by
      obtain ⟨rfl, rfl, rfl, rfl⟩ | ⟨rfl, rfl, rfl, rfl⟩ := hx
      · exact ⟨false, rfl, rfl, rfl, tpoIdle_start.symm⟩
      · exact ⟨true, rfl, rfl, rfl, tpoIdle_stop.symm⟩
    rw [hexec, hidle, Bool.not_eq_true]
    exact ⟨tpo_outOfRange hb h, fun _ => tpo_reserved hb h, fun t hi ht => ⟨tpo_tooSoon hb h ht, fun ha =>
      ⟨tpo_idle hb h ht hi ha, fun hd => ⟨tpo_conflict hb h ht hi ha hd, fun hp =>
        ⟨tpo_unaligned hb h ht hi ha hd hp, tpo_armed hb h ht hi ha hd hp hs⟩⟩⟩⟩⟩
  · intro s o b t hs hb hi _ ht ha hu hl
    refine ⟨fun h hm hr hp => ?_, fun h hr hp => ?_⟩
    · exact tpo_armed (stop := false) hb h ht hi ha (by rw [← Bool.not_eq_true, tpoIdle_start]; simp [hm, hr]) hp hs hu hl
    · exact tpo_armed (stop := true) hb h ht hi ha (by rw [← Bool.not_eq_true, tpoIdle_stop]; simp [hr]) hp hs hu hl
  · rintro s i off t b set past late - ha ht hb hset hpast hlate
    obtain rfl : set = trainEff i.val := funext hset
    obtain rfl : past = endTrainEffs i.val := hpast
    obtain rfl : late = s.dev.lateEffs := funext hlate
    refine ⟨startFire_none ha, stopFire_none ha, fun a h => ⟨startFire_early ha h, startFire_begins ha h⟩,
      fun a h => ⟨stopFire_early ha h, fun hd => stopFire_stops ha h hd ht⟩, pulseEdge_none ha ht,
      fun hr he => ⟨pulseEdge_rises ha ht hr he, fun hh => ⟨pulseEdge_ends ha ht hr he hh hb,
        fun h1 h2 h3 => pulseEdge_falls ha ht hr he hh hb ?_⟩⟩⟩
    simp only [tpoMode, tpoCount, h1, Bool.false_eq_true, false_or]
    omega
  · rintro s o k v x r hs hk rfl h
    obtain rfl : x = syncoObj k.val := by
      obtain ⟨rfl, rfl⟩ | ⟨rfl, rfl⟩ | ⟨rfl, rfl⟩ := hk <;> rfl
    exact synco_stored hs h
  · rintro s o slot r code hs rfl rfl h
    refine ⟨fun hn => cancel_empty h (actIn_none hn), fun a hm hsl => ?_⟩
    have hf : s.dev.actIn? slot.toNat = some a := hsl ▸ actIn_of_mem hs.2 hm
    refine ⟨fun h1 h2 h3 => cancel_foreign h hf ?_, fun hc => ?_⟩
    · simp only [← Bool.not_eq_true] at h3
      rw [← Bool.not_eq_true, mayCancel_iff]
      tauto
    · have hmay := (mayCancel_iff _ a).mpr hc
      exact ⟨cancel_committed h hf hmay, cancel_done h hf hmay hs⟩
  · intro s slot hs ha
    exact ⟨fun a hm hsl => commit_due ha (hsl ▸ actIn_of_mem hs.2 hm), commit_notDue ha⟩
  · exact fun s ha => ⟨fun i off => ⟨run_live_unanswered ha _, run_live_unanswered ha _, run_live_unanswered ha _⟩,
      fun i r off => run_live_unanswered ha _, fun slot => run_live_unanswered ha _⟩

end Sys2Proof.Machine
end

section
/-!
PROOFS shared by what follows: programs whose effects all pass a test, and what the delivery of a response may change.
-/
namespace Sys2Proof.Machine

/-! ## Programs whose effects all pass a test -/

/-- Every effect that a program may run passes a test. -/
def Prog.Only (ok : Eff → Prop) : Prog → Prop
  | .skip => True
  | .eff e => ok e
  | .seq p q => p.Only ok ∧ q.Only ok
  | .ask f => ∀ d, (f d).Only ok

section
variable {ok : Eff → Prop}

theorem only_all {ps : List Prog} (h : ∀ p ∈ ps, p.Only ok) : (Prog.all ps).Only ok := by
  induction ps with
  | nil => trivial
  | cons p r ih => exact ⟨h p (by simp), ih fun q hq => h q (by simp [hq])⟩

theorem only_when {b : Bool} {ps : List Prog} (h : (Prog.all ps).Only ok) : (Prog.when b ps).Only ok := by
  cases b
  · trivial
  · exact h

theorem only_each {α : Type} {xs : List α} {f : α → Prog} (h : ∀ x, (f x).Only ok) : (Prog.each xs f).Only ok :=
  only_all (by simpa using fun x _ => h x)

theorem Prog.Only.mono {ok' : Eff → Prop} (hok : ∀ e, ok e → ok' e) : ∀ {p : Prog}, p.Only ok → p.Only ok'
  | .skip, _ => trivial
  | .eff e, h => hok e h
  | .seq _ _, h => ⟨Prog.Only.mono hok h.1, Prog.Only.mono hok h.2⟩
  | .ask _, h => fun d => Prog.Only.mono hok (h d)

end

/-! ## Effects inside a frame that take no occurrence away -/

/-- Whether an effect leaves every occurrence that waits for the recorder. -/
def Eff.keepsOccs : Eff → Bool
  | .takeOcc => false
  | .mergeOccs _ => false
  | .wipe _ => false
  | _ => true

theorem Eff.mem_occs {e : Eff} (h : e.keepsOccs = true) {d : Dev} {x : Occ} (hx : x ∈ d.occs) : x ∈ (e.apply d).occs := by
  cases e
  case takeOcc => simp [Eff.keepsOccs] at h
  case mergeOccs => simp [Eff.keepsOccs] at h
  case wipe => simp [Eff.keepsOccs] at h
  case raise => exact List.mem_append_left _ hx
  case arm => simp only [Eff.apply]; split <;> exact hx
  all_goals exact hx

/-- An effect changes only the listed objects and parts, and takes no occurrence away. -/
def Eff.adds (ks : Nat → Bool) (ps : List Part) (e : Eff) : Prop :=
  (∀ k, e.keys k = true → ks k = true) ∧ (∀ p ∈ e.parts, p ∈ ps) ∧ e.keepsOccs = true

section
variable {ks : Nat → Bool} {ps : List Part}

theorem adds_obj {o : Obj} {i j : Nat} {v : Val} : (Eff.obj o i j v).adds ks ps ↔ ks (o.key i j) = true := by
  simp [Eff.adds, Eff.keys, Eff.parts, Eff.keepsOccs]

theorem adds_count {o : Obj} {i j n : Nat} : (Eff.count o i j n).adds ks ps ↔ ks (o.key i j) = true := by
  simp [Eff.adds, Eff.keys, Eff.parts, Eff.keepsOccs]

/-- An effect on a single part. -/
theorem adds_part {e : Eff} {p : Part} (hk : ∀ k, e.keys k = false) (hp : e.parts = [p]) (ho : e.keepsOccs = true) (h : p ∈ ps) :
    e.adds ks ps := ⟨fun k hk' => by simp [hk k] at hk', by simpa [hp] using h, ho⟩

theorem Prog.Only.within : ∀ {p : Prog}, p.Only (Eff.adds ks ps) → p.Within ks ps
  | .skip, _ => Within.skip
  | .eff _, h => Within.eff h.1 h.2.1
  | .seq _ _, h => Within.seq h.1.within h.2.within
  | .ask _, h => Within.ask fun d => (h d).within

theorem Prog.Only.mem_occs {x : Occ} : ∀ {p : Prog} {d : Dev}, p.Only (Eff.adds ks ps) → x ∈ d.occs → x ∈ (p.run d).occs
  | .skip, _, _, hx => hx
  | .eff _, _, h, hx => Eff.mem_occs h.2.2 hx
  | .seq _ _, _, h, hx => h.2.mem_occs (h.1.mem_occs hx)
  | .ask _, d, h, hx => (h d).mem_occs hx

theorem Prog.Only.raisedEvent {p : Prog} {d : Dev} {src code inst : Nat} (hp : p.Only (Eff.adds ks ps))
    (h : d.raisedEvent src code inst) : (p.run d).raisedEvent src code inst := by
  obtain ⟨x, hx, h⟩ := h
  exact ⟨x, hp.mem_occs hx, h⟩

theorem Prog.Only.get {p : Prog} {d : Dev} {o : Obj} {i j : Nat} (hp : p.Only (Eff.adds ks ps)) (hd : SMap.wf none d.objs = true)
    (hk : ks (o.key i j) = false) : (p.run d).get o i j = d.get o i j := Within.get hp.within hd hk

theorem Prog.Only.num {p : Prog} {d : Dev} {o : Obj} {i j : Nat} (hp : p.Only (Eff.adds ks ps)) (hd : SMap.wf none d.objs = true)
    (hk : ks (o.key i j) = false) : (p.run d).num o i j = d.num o i j := Within.num hp.within hd hk

theorem Prog.Only.same {p : Prog} {d : Dev} {x : Part} (hp : p.Only (Eff.adds ks ps)) (hd : SMap.wf none d.objs = true)
    (hx : x ∉ ps) : x.same d (p.run d) := (hp.within d hd).2.2 x hx

end

/-- Programs keep the objects' store canonical. -/
theorem Prog.objs_wf (p : Prog) {d : Dev} (h : SMap.wf none d.objs = true) : SMap.wf none (p.run d).objs = true :=
  Prog.run_inv (P := fun d => SMap.wf none d.objs = true) (fun e d => e.objs_wf d) p d h

theorem after_canonical (es : List Eff) {d : Dev} (hd : d.Canonical) : (d.after es).Canonical := by
  induction es generalizing d with
  | nil => exact hd
  | cons e es ih => exact ih (e.apply_canonical d hd)

theorem after_bounded (es : List Eff) {d : Dev} (hd : d.Bounded) : (d.after es).Bounded := by
  induction es generalizing d with
  | nil => exact hd
  | cons e es ih => exact ih (e.apply_bounded d hd)

/-- An event that has just been raised. -/
theorem raisedEvent_raise (d : Dev) (src code inst a0 a1 : Nat) :
    ((Eff.raise src code inst a0 a1).apply d).raisedEvent src code inst :=
  ⟨_, List.mem_append_right _ (List.mem_singleton.mpr rfl), rfl, rfl, rfl⟩

/-! ## The delivery of a response (R142 to R146) -/

/-- The counters that a response may move: what its path discards or drops. -/
def replyKeys : Nat → Bool :=
  keysOf ((.umaniDiscards, 0, 0) :: (List.range 4).flatMap fun n => [(.mgtTxDrops, n, 0), (.actInbandDrops, n, 0)])

/-- The parts that a response may change. -/
def replyParts : List Part := [.um, .fns, .vecs, .rings, .outs, .occs, .fch, .i2c]

/-- Effects of the delivery of a response. -/
abbrev Eff.replies : Eff → Prop := Eff.adds replyKeys replyParts

section
theorem replies_out (o : Out) : (Eff.out o).replies := adds_part (p := .outs) (fun _ => rfl) rfl rfl (by decide)
theorem replies_raise (src code inst a0 a1 : Nat) : (Eff.raise src code inst a0 a1).replies :=
  adds_part (p := .occs) (fun _ => rfl) rfl rfl (by decide)
theorem replies_ring (r : Nat) (f : Ring → Ring) : (Eff.ring r f).replies := adds_part (p := .rings) (fun _ => rfl) rfl rfl (by decide)
theorem replies_vec (k : Nat) (f : Vec → Vec) : (Eff.vec k f).replies := adds_part (p := .vecs) (fun _ => rfl) rfl rfl (by decide)
theorem replies_fn (k : Nat) (f : Fn → Fn) : (Eff.fn k f).replies := adds_part (p := .fns) (fun _ => rfl) rfl rfl (by decide)
theorem replies_fch (n : Nat) (f : Fch → Fch) : (Eff.fch n f).replies := adds_part (p := .fch) (fun _ => rfl) rfl rfl (by decide)
theorem replies_um (k : Nat) (f : UPathSt → UPathSt) : (Eff.um k f).replies := adds_part (p := .um) (fun _ => rfl) rfl rfl (by decide)
theorem replies_i2c (f : List Resp → List Resp) : (Eff.i2c f).replies := adds_part (p := .i2c) (fun _ => rfl) rfl rfl (by decide)

theorem only_send (k : OutKind) (a b : Nat) (data : List Byte) : (send k a b data).Only Eff.replies := replies_out _

theorem only_assertVector (l f v : Nat) : (assertVector l f v).Only Eff.replies := fun d => by
  refine only_when ⟨?_, trivial⟩
  dsimp only
  split
  · exact replies_vec _ _
  · exact fun _ => only_send _ _ _ _

theorem only_ringVector (r : Nat) : (ringVector r).Only Eff.replies := fun _ =>
  ⟨replies_ring _ _, only_when ⟨only_assertVector _ _ _, trivial⟩, trivial⟩

theorem only_ringAdvance (r : Nat) : (ringAdvance r).Only Eff.replies :=
  ⟨replies_ring _ _, fun _ => ⟨only_when ⟨only_send _ _ _ _, trivial⟩, only_when ⟨only_ringVector r, trivial⟩, trivial⟩, trivial⟩

theorem only_ringError (r status : Nat) : (ringError r status).Only Eff.replies := fun _ =>
  ⟨replies_ring _ _, replies_raise _ _ _ _ _, trivial⟩

theorem only_ringComplete (r status len metaw : Nat) : (ringComplete r status len metaw).Only Eff.replies := fun d => by
  dsimp only
  split
  · trivial
  · exact ⟨only_send _ _ _ _, replies_ring _ _, only_ringAdvance r, only_when ⟨replies_raise _ _ _ _ _, trivial⟩,
      only_when ⟨only_ringError _ _, trivial⟩, trivial⟩

theorem only_ringFill (r metaw : Nat) (data : List Byte) : (ringFill r metaw data).Only Eff.replies := fun d => by
  dsimp only
  split
  · trivial
  · split
    · exact only_ringComplete _ _ _ _
    · exact ⟨only_send _ _ _ _, only_ringComplete _ _ _ _, trivial⟩

theorem replyKeys_discards : replyKeys (Obj.umaniDiscards.key 0 0) = true := by decide
theorem replyKeys_txDrops (n : Fin 4) : replyKeys (Obj.mgtTxDrops.key n.val 0) = true := by revert n; decide
theorem replyKeys_inbandDrops (n : Fin 4) : replyKeys (Obj.actInbandDrops.key n.val 0) = true := by revert n; decide

theorem only_txEnqueue (n : Fin 4) (p : TxPkt) : (txEnqueue n.val p).Only Eff.replies := fun d => by
  dsimp only
  split
  · exact replies_fch _ _
  · exact ⟨adds_count.mpr (replyKeys_txDrops n), replies_raise _ _ _ _ _, trivial⟩

theorem only_inbandEnqueue (n : Fin 4) (p : TxPkt) : (inbandEnqueue n.val p).Only Eff.replies := fun d => by
  dsimp only
  split
  · exact replies_fch _ _
  · exact adds_count.mpr (replyKeys_inbandDrops n)

theorem only_deliver (x : Resp) : (deliver x).Only Eff.replies := by
  unfold deliver
  split
  · exact ⟨replies_fn _ _, fun _ => only_when ⟨only_assertVector _ _ _, trivial⟩, trivial⟩
  · exact only_ringFill _ _ _
  · split
    · exact adds_count.mpr replyKeys_discards
    · exact only_inbandEnqueue _ _
  · exact only_txEnqueue _ _
  · exact replies_i2c _
  · exact only_send _ _ _ _

theorem only_respond (c : Call) (abort : Nat) (data : List Byte) : (respond c abort data).Only Eff.replies := fun _ =>
  only_when ⟨replies_um _ _, only_deliver _, trivial⟩

end

end Sys2Proof.Machine
end

section
/-!
PROOFS of completed downstream packets (O31).
-/
namespace Sys2Proof.Machine

/-! ## A whole packet of the walk (R297, R301) -/

/-- The packet that a whole fragment of the area is. -/
def Dev.wholePacket (d : Dev) (n h : Nat) : Chain :=
  ⟨encStream h, encKey h, encLabel h, SMap.get 0 (d.ch n).ords (encStream h), (d.ch n).areaFrame, (d.ch n).areaCfg, (d.ch n).areaTbl,
    slice (d.ch n).area 8 (encLength h), 0, hitsBad (d.ch n).areaBad ((d.ch n).areaAt + 8) (encLength h)⟩

/-- The effect by which a stream's next ORDINAL is taken. -/
def ordEff (n stream : Nat) : Eff :=
  .fch n fun c => { c with ords := SMap.put 0 stream (SMap.get 0 c.ords stream + 1) c.ords }

/-- The effect by which the walk moves on. -/
def walkEff (n k : Nat) : Eff :=
  .fch n fun c => { c with area := c.area.drop k, areaAt := c.areaAt + k, walked := decide (c.area.length ≤ k) }

/-- The device after a whole packet was dealt with by a program. -/
def Dev.afterPacket (d : Dev) (n h : Nat) (p : Prog) : Dev :=
  (walkEff n (encOcc (encLength h))).apply (p.run ((ordEff n (encStream h)).apply d))

/-- What a stream's entry says of a packet; stream 0 has none. -/
def Dev.accBody (d : Dev) (n stream : Nat) : Option Nat := if stream = 0 then none else d.streamBody (d.lead n) stream

theorem exec_encapFrame {s : State} {n : Fin 4} {fault : Bool} : exec (.encapFrame n fault) s = execEncapFrame n fault s := rfl

section
variable {s : State} {n : Fin 4} {h : Nat} (ha : s.dev.answers = true) (hh : h = beAt (s.dev.ch n.val).area 0 8)
  (hok : encOk (s.dev.ch n.val).area = true) (h0 : encLength h ≠ 0) (hi : encStream h ≠ 0xFFFFF) (hlast : encLast h = true)
  (hfit : encOcc (encLength h) ≤ (s.dev.ch n.val).area.length) (hnew : ∀ y ∈ (s.dev.ch n.val).chains, y.stream ≠ encStream h)
include ha hh hok h0 hi hlast hfit hnew

/-- A whole packet takes its ORDINAL, is filtered and delivered, and the walk moves on. -/
theorem encapFrame_whole : exec (.encapFrame n false) s =
    .next { s with dev := s.dev.afterPacket n.val h (downstreamPacket n.val (s.dev.wholePacket n.val h) false) } := by
  have harea : (s.dev.ch n.val).area.isEmpty = false := by
    rw [List.isEmpty_eq_false_iff]
    rintro he
    rw [he] at hok
    exact absurd hok (by decide)
  have hfind : (s.dev.ch n.val).chains.find? (fun x => decide (x.stream = encStream h)) = none := by
    simpa [List.find?_eq_none] using hnew
  have hwalk : ¬ (encLength h = 0 ∨ encStream h = idleStream ∧ encOcc (encLength h) ≤ (s.dev.ch n.val).area.length) := by
    rintro (h1 | ⟨h1, -⟩)
    · exact h0 h1
    · exact hi h1
  rw [exec_encapFrame, execEncapFrame, run_live ha]
  simp only [Prog.run_ask, harea, hok, ← hh, Bool.false_eq_true, if_false, Bool.not_true, if_neg hwalk, if_pos hfit,
    Prog.run_all_cons, Prog.all_nil, Prog.run_skip, fragment, hfind, hlast, if_true]
  rfl

end

/-! ## The filter (R302 to R305) -/

/-- What becomes of a packet whose stream is known. -/
def packetProg (n : Nat) (x : Chain) (fault : Bool) (acc : Option Nat) : Prog :=
  if !labelOk acc x.label then count .frmLabelDiscards n
  else if x.errored && x.label != 4 then count .frmErroredDiscards n
  else if x.key = 0 then
    if acc.any fun w => bitOf w 63 then count .frmKeyDiscards n else handleLabel n x acc x.data
  else decryptThen n x fault (handleLabel n x acc)

section
variable {n : Nat} {x : Chain} {fault : Bool} {d : Dev} {acc : Option Nat}

theorem run_packet_unknown (h0 : x.stream ≠ 0) (hb : d.accBody n x.stream = none) :
    (downstreamPacket n x fault).run d = (Eff.count .frmUnknownStream n 0 1).apply d := by
  simp only [Dev.accBody, if_neg h0] at hb
  simp [downstreamPacket, h0, hb]

theorem run_packet_known (h : x.stream = 0 ∨ d.accBody n x.stream ≠ none) :
    (downstreamPacket n x fault).run d = (packetProg n x fault (d.accBody n x.stream)).run d := by
  have hk : ¬ (x.stream ≠ 0 ∧ d.streamBody (d.lead n) x.stream = none) := by
    rintro ⟨h0, hb⟩
    simp [Dev.accBody, h0, hb] at h
  simp only [downstreamPacket, Prog.run_ask, if_neg hk]
  rfl

theorem packetProg_badLabel (h : labelOk acc x.label = false) : packetProg n x fault acc = count .frmLabelDiscards n := by
  simp [packetProg, h]

variable (hl : labelOk acc x.label = true)
include hl

theorem packetProg_errored (he : x.errored = true) (h4 : x.label ≠ 4) : packetProg n x fault acc = count .frmErroredDiscards n := by
  simp [packetProg, hl, he, h4]

variable (he : x.errored = false)
include he

theorem packetProg_clearRefused (hk : x.key = 0) {w : Nat} (hw : acc = some w) (h63 : bitOf w 63 = true) :
    packetProg n x fault acc = count .frmKeyDiscards n := by
  subst hw
  simp [packetProg, hl, he, hk, h63]

theorem packetProg_clear (hk : x.key = 0) (hw : ∀ w, acc = some w → bitOf w 63 = false) :
    packetProg n x fault acc = handleLabel n x acc x.data := by
  have ha : acc.any (fun w => bitOf w 63) = false := by
    cases acc with
    | none => rfl
    | some w => exact hw w rfl
  simp [packetProg, hl, he, hk, ha]

theorem packetProg_keyed (hk : x.key ≠ 0) : packetProg n x fault acc = decryptThen n x fault (handleLabel n x acc) := by
  simp [packetProg, hl, he, hk]

end

theorem run_decrypt_refused {n : Nat} {x : Chain} {fault : Bool} {next : List Byte → Prog} {d : Dev}
    (h : x.data.length < 16 ∨ d.ctxState (d.lead n) 0 x.key ≠ 1) :
    (decryptThen n x fault next).run d = (Eff.count .frmKeyDiscards n 0 1).apply d := by
  simp only [decryptThen, Prog.run_ask, if_pos h]
  rfl

/-! ## Delivery by label (R304, R306, Table 10.5) -/

/-- The effect by which a payload is handed on. -/
def Dev.handoffEff (d : Dev) (dest n : Nat) (x : Chain) (data : List Byte) : Eff :=
  .out ⟨.handoff, dest, if dest = 0x21 ∨ dest = 0x22 ∨ dest = 0x26 then d.lead n else n,
    beBytes 3 x.stream ++ beBytes 8 x.frame ++ beBytes 4 x.cfgEpoch ++ beBytes 4 x.tblEpoch ++ data⟩

theorem run_deliverTo (dest n : Nat) (x : Chain) (data : List Byte) (d : Dev) :
    (deliverTo dest n x data).run d = (d.handoffEff dest n x data).apply d := rfl

/-- A stream without a counter pair: its deliveries are counted in FRM_PAYLOADS only. -/
theorem run_delivered {n bytes : Nat} {acc : Option Nat} (hw : ∀ w, acc = some w → bitOf w 62 = false) (d : Dev) :
    (delivered n acc bytes).run d = (Eff.count .frmPayloads n 0 1).apply d := by
  cases acc with
  | none => rfl
  | some w => simp [delivered, hw w rfl]

theorem num_count_other {d : Dev} (hd : SMap.wf none d.objs = true) {o x : Obj} {i j k l m : Nat} (h : x.key k l ≠ o.key i j) :
    ((Eff.count o i j m).apply d).num x k l = d.num x k l := by
  simp only [Dev.num, Eff.apply, Dev.get_put_other hd _ h]

theorem lead_countPayload {d : Dev} (hd : SMap.wf none d.objs = true) (n m : Nat) :
    ((Eff.count .frmPayloads n 0 1).apply d).lead m = d.lead m := by
  unfold Dev.lead
  rw [num_count_other hd (by simp only [Obj.key, Obj.row]; omega)]

theorem handoff_countPayload {d : Dev} (hd : SMap.wf none d.objs = true) (n m dest : Nat) (x : Chain) (data : List Byte) :
    ((Eff.count .frmPayloads n 0 1).apply d).handoffEff dest m x data = d.handoffEff dest m x data := by
  simp only [Dev.handoffEff, lead_countPayload hd]

theorem share_countPayload {d : Dev} (hd : SMap.wf none d.objs = true) (n : Nat) :
    ((Eff.count .frmPayloads n 0 1).apply d).ingressShare 116 = d.ingressShare 116 := by
  simp only [Dev.ingressShare, Nat.le_refl, if_true]
  rw [num_count_other hd (by simp only [Obj.key, Obj.row]; omega)]

theorem cells_countPayload (d : Dev) (n p : Nat) : ((Eff.count .frmPayloads n 0 1).apply d).ingressCells p = d.ingressCells p := rfl

section
variable {n : Nat} {x : Chain} {acc : Option Nat} {data : List Byte} {d : Dev} (hd : SMap.wf none d.objs = true)
  (hw : ∀ w, acc = some w → bitOf w 62 = false)

/-- The effects of an accepted payload that is handed on. -/
def Dev.doneEffs (d : Dev) (dest n : Nat) (x : Chain) (data : List Byte) : List Eff :=
  [.count .frmPayloads n 0 1, d.handoffEff dest n x data]

include hw in
/-- A label whose payload draws from the separate ingress share (R38). -/
theorem run_label_control (h : x.label = 5 ∨ (x.label = 3 ∧ umaniFits 4096 data = true)) : (handleLabel n x acc data).run d =
    (controlShare n data.length (deliverTo (0x20 + x.label) n x data)).run ((Eff.count .frmPayloads n 0 1).apply d) := by
  obtain h | ⟨h, hu⟩ := h
  · simp only [handleLabel, h, Prog.run_all_cons, Prog.all_nil, Prog.run_skip, run_delivered hw]
  · simp only [handleLabel, h, hu, Prog.run_all_cons, Prog.all_nil, Prog.run_skip, run_delivered hw, if_true]

section
include hd hw

theorem run_handOn (dest bytes : Nat) : (Prog.all [delivered n acc bytes, deliverTo dest n x data]).run d =
    d.after (d.doneEffs dest n x data) := by
  simp only [Prog.run_all_cons, Prog.all_nil, Prog.run_skip, run_delivered hw, run_deliverTo, handoff_countPayload hd]
  rfl

theorem run_label_ethernet (h : x.label = 1) (hl : 14 ≤ data.length) :
    (handleLabel n x acc data).run d = d.after (d.doneEffs 0x21 n x data) := by
  simp only [handleLabel, h, if_neg (Nat.not_lt.mpr hl)]
  exact run_handOn hd hw _ _

theorem run_label_fcs (h : x.label = 2) (hl : 18 ≤ data.length)
    (hf : leNat (data.drop (data.length - 4)) = crcFcs (data.take (data.length - 4))) :
    (handleLabel n x acc data).run d = d.after (d.doneEffs 0x22 n x (data.take (data.length - 4))) := by
  simp only [handleLabel, h, if_neg (Nat.not_lt.mpr hl), if_neg (not_not.mpr hf)]
  exact run_handOn hd hw _ _

theorem run_label_circuit (h : x.label = 4) (he : x.errored = false) :
    (handleLabel n x acc data).run d = d.after (d.doneEffs 0x24 n x data) := by
  simp only [handleLabel, h, he]
  exact run_handOn hd hw _ _

theorem run_label_ip (h : x.label = 6) (hv : beAt data 0 1 / 16 = 4 ∨ beAt data 0 1 / 16 = 6) :
    (handleLabel n x acc data).run d = d.after (d.doneEffs 0x26 n x data) := by
  simp only [handleLabel, h, if_pos hv]
  exact run_handOn hd hw _ _

theorem run_label_control_fits (h : x.label = 5 ∨ (x.label = 3 ∧ umaniFits 4096 data = true))
    (hs : d.ingressCells 116 + ceilDiv data.length 256 ≤ d.ingressShare 116) :
    (handleLabel n x acc data).run d = d.after (d.doneEffs (0x20 + x.label) n x data) := by
  rw [run_label_control hw h, controlShare, Prog.run_ask, share_countPayload hd, cells_countPayload,
    if_neg (Nat.not_lt.mpr hs), run_deliverTo, handoff_countPayload hd]
  rfl

theorem run_label_control_overruns (h : x.label = 5 ∨ (x.label = 3 ∧ umaniFits 4096 data = true))
    (hs : d.ingressShare 116 < d.ingressCells 116 + ceilDiv data.length 256) : (handleLabel n x acc data).run d = d.after
      [.count .frmPayloads n 0 1, .count .carIngressOverruns 0 (108 + n) 1, .raise 337 0 (108 + n) 0 0] := by
  rw [run_label_control hw h, controlShare, Prog.run_ask, share_countPayload hd, cells_countPayload, if_pos hs]
  rfl

end

theorem run_label_short (h : x.label = 1) (hl : data.length < 14) :
    (handleLabel n x acc data).run d = (Eff.count .frmLabelDiscards n 0 1).apply d := by
  simp only [handleLabel, h, if_pos hl]
  rfl

theorem run_label_fcsWrong (h : x.label = 2) (hl : 18 ≤ data.length)
    (hf : leNat (data.drop (data.length - 4)) ≠ crcFcs (data.take (data.length - 4))) :
    (handleLabel n x acc data).run d = (Eff.count .frmFcsErrors n 0 1).apply d := by
  simp only [handleLabel, h, if_neg (Nat.not_lt.mpr hl), if_pos hf]
  rfl

theorem run_label_test (h : x.label = 0xFE) : (handleLabel n x acc data).run d =
    d.after [.count .frmTestPayloads n 0 1, .count .frmTestBytes n 0 data.length] := by
  simp only [handleLabel, h]
  rfl

end

/-! ## Decryption that fails (R305, R529, R530) -/

/-- A bundle of a fibre channel's state, changed. -/
theorem ch_fch_same {d : Dev} (hf : SMap.wf Fch.none d.fch = true) (n : Nat) (f : Fch → Fch) :
    ((Eff.fch n f).apply d).ch n = f (d.ch n) := SMap.get_put_same (b := 0) _ _ _ hf

theorem only_useCtx (g idx : Nat) : (useCtx g 0 idx).Only (Eff.adds (keysOf [(.ciphFchDsState, g, 0)]) [.uses, .occs]) := fun _ =>
  ⟨adds_part (p := .uses) (fun _ => rfl) rfl rfl (by decide), only_when ⟨fun _ => only_when
    ⟨fun _ => adds_obj.mpr (by simp [keysOf, ctxObj]), adds_part (p := .occs) (fun _ => rfl) rfl rfl (by decide), trivial⟩,
    trivial⟩, trivial⟩

theorem only_authFailed (n frame : Nat) :
    (authFailed n frame).Only (Eff.adds (keysOf [(.ciphFchCounters, n, 0)]) [.occs, .fch]) := fun _ =>
  ⟨fun _ => adds_obj.mpr (by simp [keysOf]), only_when ⟨adds_part (p := .occs) (fun _ => rfl) rfl rfl (by decide),
    adds_part (p := .fch) (fun _ => rfl) rfl rfl (by decide), trivial⟩, trivial⟩

theorem authFailed_epoch {d : Dev} (hf : SMap.wf Fch.none d.fch = true) (n frame : Nat) :
    (((authFailed n frame).run d).ch n).authEpoch = some (frame / 32) := by
  simp only [authFailed, Prog.run_ask, Prog.run_all_cons, Prog.all_nil, Prog.run_skip]
  by_cases h : (d.ch n).authEpoch = some (frame / 32)
  · simp only [h, ne_eq, not_true_eq_false, decide_false, Prog.when_false, Prog.run_skip]
    exact h
  · simp only [h, ne_eq, not_false_eq_true, decide_true, Prog.when_true, Prog.run_all_cons, Prog.all_nil, Prog.run_skip, Prog.run_eff]
    rw [ch_fch_same (show SMap.wf Fch.none ((raise 418 n).run ((countIn .ciphFchCounters n 0 8 8 1).run d)).fch = true from hf)]

theorem authFailed_raises {d : Dev} {n frame : Nat} (h : (d.ch n).authEpoch ≠ some (frame / 32)) :
    ((authFailed n frame).run d).raisedEvent 418 0 n := by
  simp only [authFailed, Prog.run_ask, Prog.run_all_cons, Prog.all_nil, Prog.run_skip, h, ne_eq, not_false_eq_true, decide_true,
    Prog.when_true, Prog.run_eff, run_raise]
  exact raisedEvent_raise _ _ _ _ _ _

/-- What opening a packet gives (R529, R530). -/
def Dev.opened (d : Dev) (n : Nat) (x : Chain) : Option (List Byte) :=
  Config.gcmOpen (SMap.get [] d.keys (ctxKey (d.lead n) 0 x.key)) (dsNonce x.frame n x.stream x.ord)
    (fibreAad x.stream x.key x.label) (x.data.take (x.data.length - 16)) (x.data.drop (x.data.length - 16))

/-- The device after an authentication failure. -/
def Dev.authFails (d : Dev) (n : Nat) (x : Chain) : Dev :=
  (authFailed n x.frame).run ((Eff.count .frmKeyDiscards n 0 1).apply ((useCtx (d.lead n) 0 x.key).run d))

section
variable {n : Nat} {x : Chain} {d : Dev}

theorem run_decrypt_fails {next : List Byte → Prog} (hl : 16 ≤ x.data.length) (hc : d.ctxState (d.lead n) 0 x.key = 1)
    (ho : d.opened n x = none) : (decryptThen n x false next).run d = d.authFails n x := by
  have hk : ¬ (x.data.length < 16 ∨ d.ctxState (d.lead n) 0 x.key ≠ 1) := by omega
  simp only [Dev.opened] at ho
  simp only [decryptThen, Prog.run_ask, if_neg hk, Prog.run_all_cons, Bool.false_eq_true, false_and, if_false, ho]
  rfl

theorem keysOf_singleton {o : Obj} {i j k : Nat} (h : k ≠ o.key i j) : keysOf [(o, i, j)] k = false := by
  simpa [keysOf] using h.symm

theorem keyDiscards_not_dsState (g : Nat) : keysOf [(.ciphFchDsState, g, 0)] (Obj.frmKeyDiscards.key n 0) = false :=
  keysOf_singleton (by simp only [Obj.key, Obj.row]; omega)

theorem keyDiscards_not_cipherCounters : keysOf [(.ciphFchCounters, n, 0)] (Obj.frmKeyDiscards.key n 0) = false :=
  keysOf_singleton (by simp only [Obj.key, Obj.row]; omega)

theorem payloads_not_dsState (g : Nat) : keysOf [(.ciphFchDsState, g, 0)] (Obj.frmPayloads.key n 0) = false :=
  keysOf_singleton (by simp only [Obj.key, Obj.row]; omega)

theorem payloads_not_cipherCounters : keysOf [(.ciphFchCounters, n, 0)] (Obj.frmPayloads.key n 0) = false :=
  keysOf_singleton (by simp only [Obj.key, Obj.row]; omega)

section
variable (hd : d.Canonical)
include hd

theorem authFails_outs : (d.authFails n x).outs = d.outs := by
  have h1 : ((useCtx (d.lead n) 0 x.key).run d).outs = d.outs := (only_useCtx _ _).same (x := .outs) hd.objs (by decide)
  exact ((only_authFailed n x.frame).same (x := .outs) (Eff.objs_wf _ _ (Prog.objs_wf _ hd.objs)) (by decide)).trans h1

theorem authFails_keyDiscards :
    (d.authFails n x).num .frmKeyDiscards n = satAdd 32 (d.num .frmKeyDiscards n) 1 := by
  have h1 := (only_useCtx (d.lead n) x.key).num hd.objs (keyDiscards_not_dsState (n := n) (d.lead n))
  have hw := Prog.objs_wf (useCtx (d.lead n) 0 x.key) hd.objs
  rw [Dev.authFails, (only_authFailed n x.frame).num (Eff.objs_wf _ _ hw) keyDiscards_not_cipherCounters, ← h1]
  exact num_count hw .frmKeyDiscards n 0

theorem authFails_payloads : (d.authFails n x).num .frmPayloads n = d.num .frmPayloads n := by
  have hw := Prog.objs_wf (useCtx (d.lead n) 0 x.key) hd.objs
  rw [Dev.authFails, (only_authFailed n x.frame).num (Eff.objs_wf _ _ hw) payloads_not_cipherCounters,
    num_count_other hw (by simp only [Obj.key, Obj.row]; omega), (only_useCtx _ _).num hd.objs (payloads_not_dsState _)]

theorem authFails_ch : ((Eff.count .frmKeyDiscards n 0 1).apply ((useCtx (d.lead n) 0 x.key).run d)).ch n = d.ch n := by
  have h : ((useCtx (d.lead n) 0 x.key).run d).fch = d.fch := (only_useCtx _ _).same (x := .fch) hd.objs (by decide)
  simp only [Dev.ch, Eff.apply, Dev.put, h]

theorem authFails_canonical : (d.authFails n x).Canonical :=
  Prog.run_inv (fun e d h => e.apply_canonical d h) (.seq (useCtx (d.lead n) 0 x.key)
    (.seq (.eff (.count .frmKeyDiscards n 0 1)) (authFailed n x.frame))) d hd

theorem authFails_epoch : ((d.authFails n x).ch n).authEpoch = some (x.frame / 32) :=
  authFailed_epoch (Prog.run_inv (fun e d h => e.apply_canonical d h) (.seq (useCtx (d.lead n) 0 x.key)
    (.eff (.count .frmKeyDiscards n 0 1))) d hd).fch n x.frame

theorem authFails_raises (h : (d.ch n).authEpoch ≠ some (x.frame / 32)) : (d.authFails n x).raisedEvent 418 0 n :=
  authFailed_raises (by rwa [authFails_ch hd])

end
end

/-! ## Every completed packet -/

section
variable {s : State} {n : Fin 4} {h : Nat} (hs : s.dev.Canonical) (ha : s.dev.answers = true)
  (hh : h = beAt (s.dev.ch n.val).area 0 8)
  (hok : encOk (s.dev.ch n.val).area = true) (h0 : encLength h ≠ 0) (hi : encStream h ≠ 0xFFFFF) (hlast : encLast h = true)
  (hfit : encOcc (encLength h) ≤ (s.dev.ch n.val).area.length) (hnew : ∀ y ∈ (s.dev.ch n.val).chains, y.stream ≠ encStream h)
include ha hh hok h0 hi hlast hfit hnew

/-- The state after a whole packet that did these effects. -/
def State.packetDid (s : State) (n h : Nat) (es : List Eff) : State :=
  s.after (ordEff n (encStream h) :: es ++ [walkEff n (encOcc (encLength h))])

/-- The device while a whole packet is dealt with. -/
def Dev.ordTaken (d : Dev) (n h : Nat) : Dev := (ordEff n (encStream h)).apply d

theorem encapFrame_did {es : List Eff} (he : (downstreamPacket n.val (s.dev.wholePacket n.val h) false).run
    (s.dev.ordTaken n.val h) = (s.dev.ordTaken n.val h).after es) :
    exec (.encapFrame n false) s = .next (s.packetDid n.val h es) := by
  rw [encapFrame_whole ha hh hok h0 hi hlast hfit hnew]
  simp only [Dev.afterPacket, State.packetDid, State.after, Dev.after, List.foldl_append, List.foldl_cons, List.foldl_nil]
  rw [← Dev.ordTaken, he]
  rfl

theorem encapFrame_known (hk : encStream h = 0 ∨ s.dev.accBody n.val (encStream h) ≠ none) {es : List Eff}
    (he : (packetProg n.val (s.dev.wholePacket n.val h) false (s.dev.accBody n.val (encStream h))).run (s.dev.ordTaken n.val h) =
      (s.dev.ordTaken n.val h).after es) : exec (.encapFrame n false) s = .next (s.packetDid n.val h es) :=
  encapFrame_did ha hh hok h0 hi hlast hfit hnew ((run_packet_known hk).trans he)

end

theorem ordTaken_canonical {d : Dev} (hd : d.Canonical) (n h : Nat) : (d.ordTaken n h).Canonical := Eff.apply_canonical _ _ hd

theorem ordTaken_authEpoch {d : Dev} (hd : d.Canonical) (n h : Nat) : ((d.ordTaken n h).ch n).authEpoch = (d.ch n).authEpoch := by
  rw [Dev.ordTaken, ordEff, ch_fch_same hd.fch]

theorem walk_authEpoch {d : Dev} (hd : d.Canonical) (n k : Nat) : (((walkEff n k).apply d).ch n).authEpoch = (d.ch n).authEpoch := by
  rw [walkEff, ch_fch_same hd.fch]

theorem walk_num (d : Dev) (n k m : Nat) (o : Obj) : ((walkEff n k).apply d).num o m = d.num o m := rfl

theorem walk_outs (d : Dev) (n k : Nat) : ((walkEff n k).apply d).outs = d.outs := rfl

theorem walk_raisedEvent (d : Dev) (n k src code inst : Nat) :
    ((walkEff n k).apply d).raisedEvent src code inst ↔ d.raisedEvent src code inst := .rfl

theorem ordTaken_num (d : Dev) (n h m : Nat) (o : Obj) : (d.ordTaken n h).num o m = d.num o m := rfl

/-- Settles O31, by the branches of the filter and of the labels. -/
theorem downstreamPackets : Obligations.DownstreamPackets := by
  rintro s n a data h hs ha rfl hh hok h0 hi hlast hfit hnew rfl ord on bad body rfl rfl rfl hbody drop done hdrop hdone
  change body = s.dev.accBody n.val (encStream h) at hbody
  subst hbody
  have hd := ordTaken_canonical hs.1 n.val h
  have hdrop' : ∀ x, .next (s.packetDid n.val h [.count x n.val 0 1]) = drop x := fun x => (hdrop x).symm
  have hdone' : ∀ dest out, .next (s.packetDid n.val h
      ((s.dev.ordTaken n.val h).doneEffs dest n.val (s.dev.wholePacket n.val h) out)) = done dest out :=
    fun dest out => (hdone dest out).symm
  clear hdrop hdone
  have did {es} := @encapFrame_did s n h ha hh hok h0 hi hlast hfit hnew es
  have known hk {es} := @encapFrame_known s n h ha hh hok h0 hi hlast hfit hnew hk es
  refine ⟨fun hst hb => ?_, fun hk => ⟨fun hl => ?_, fun hl hbad h4 => ?_,
    fun hl hgood => ⟨fun w hkey hw h63 => ?_, fun hkey hx => ?_, fun hkey hclear => ?_⟩⟩, fun hb hl h1 hgood hkey h16 hctx => ?_⟩
  · rw [← hdrop']
    exact did (run_packet_unknown hst hb)
  · rw [← hdrop']
    exact known hk (by rw [packetProg_badLabel hl]; rfl)
  · rw [← hdrop']
    exact known hk (by rw [packetProg_errored hl hbad h4]; rfl)
  · rw [← hdrop']
    exact known hk (by rw [packetProg_clearRefused hl hgood hkey hw h63]; rfl)
  · rw [← hdrop']
    exact known hk (by rw [packetProg_keyed hl hgood hkey]; exact run_decrypt_refused hx)
  · have clear {es} (he : (handleLabel n.val (s.dev.wholePacket n.val h) (s.dev.accBody n.val (encStream h))
        (slice (s.dev.ch n.val).area 8 (encLength h))).run (s.dev.ordTaken n.val h) = (s.dev.ordTaken n.val h).after es) :
        exec (.encapFrame n false) s = .next (s.packetDid n.val h es) :=
      known hk (by rw [packetProg_clear hl hgood hkey fun w hw => (hclear w hw).1]; exact he)
    have hw : ∀ w, s.dev.accBody n.val (encStream h) = some w → bitOf w 62 = false := fun w hw => (hclear w hw).2
    simp only [← hdrop', ← hdone']
    refine ⟨fun h1 hn => clear (run_label_ethernet hd.objs hw h1 hn), fun h1 hn => clear (run_label_short h1 hn), ?_,
      fun h4 => clear (run_label_circuit hd.objs hw h4 hgood),
      fun hc => ⟨fun hf => clear (run_label_control_fits hd.objs hw hc hf),
        fun ho => clear (run_label_control_overruns hd.objs hw hc ho)⟩,
      fun h6 hv => clear (run_label_ip hd.objs hw h6 hv), fun ht => clear (run_label_test ht)⟩
    rintro h2 hn k rfl
    exact ⟨fun hf => clear (run_label_fcs hd.objs hw h2 hn hf), fun hf => clear (run_label_fcsWrong h2 hn hf)⟩
  · refine ⟨_, encapFrame_whole ha hh hok h0 hi hlast hfit hnew, rfl, fun ho => ?_⟩
    have hrun : (downstreamPacket n.val (s.dev.wholePacket n.val h) false).run (s.dev.ordTaken n.val h) =
        (s.dev.ordTaken n.val h).authFails n.val (s.dev.wholePacket n.val h) := by
      rw [run_packet_known (.inr hb), packetProg_keyed hl hgood hkey]
      exact run_decrypt_fails h16 hctx (by rw [← h1] at ho; exact ho)
    simp only [Dev.afterPacket]
    rw [← Dev.ordTaken, hrun]
    simp only [walk_num, walk_outs, walk_raisedEvent, authFails_outs hd, authFails_keyDiscards hd, authFails_payloads hd, ordTaken_num]
    refine ⟨rfl, trivial, trivial, (walk_authEpoch (authFails_canonical hd) _ _).trans (authFails_epoch hd), fun he => ?_⟩
    rw [← ordTaken_authEpoch hs.1 n.val h] at he
    exact authFails_raises hd he

end Sys2Proof.Machine
end

section
/-!
PROOFS of the port configuration (O40).
-/
namespace Sys2Proof.Machine

/-! ## A write of PORT_ENABLE to a port that its mode leaves absent -/

/-- A booted device whose port 12 is configured out with PORT_MODE 0 while its PORT_STATE still reads Disabled, 0. -/
def portModeCleared : State := State.reset.after [
  .clk fun c => { c with devReset := false, closed := [] }, .pins fun p => { p with porstN := true, aonOn := true, pwrreqN := false },
  .obj .idBootProgress 0 0 (.num 6), .obj .rstStraps 0 0 (.num 1), .obj .portMode 12 0 (.num 0)]

/-- The security complex, as a requester. -/
def securityOrigin : Origin := ⟨.internal, 0x0400, 1⟩

/-- A write of 1 to PORT_ENABLE of port 12. -/
def portEnableReq : Req := writeReq securityOrigin .portEnable 12 0 (.num 1)

theorem portModeCleared_inv : portModeCleared.Inv := ⟨after_canonical _ resetHasInvariant.1, after_bounded _ resetHasInvariant.2⟩

theorem portModeCleared_admits : portModeCleared.dev.admits portEnableReq := by
  unfold Dev.admits Dev.hears
  decide +kernel

/-- The model refuses by the port's mode, whatever its PORT_STATE. -/
theorem portModeCleared_refuses : exec (.portEnableWrite securityOrigin 12 1) portModeCleared =
    .next (portModeCleared.refusedWith portEnableReq.call [] 0x0401) :=
  serve_refused_state portModeCleared_admits (by decide +kernel) (by decide +kernel) (by decide)

/-- Neither PORT_STATE nor the other ports of the quad stand in the way. -/
theorem portModeCleared_unbarred :
    ¬ (portModeCleared.dev.num .portState 12 = 1 ∨ portModeCleared.dev.familyClash 12 = true) := by decide +kernel

theorem portModeCleared_macsecOff : portModeCleared.dev.num .portMacsecEnable 12 = 0 := by decide +kernel

/-- Refutes O40: the statement bars the enabling of a port by PORT_STATE = Absent, the model by the port's mode and absorption
(`Dev.portAbsent`). With PORT_MODE 0 and PORT_STATE 0 on port 12 the statement stores PORT_ENABLE = 1, and the model answers 0x0401. -/
theorem not_portConfiguration : ¬ Obligations.PortConfiguration := by
  rintro ⟨-, henable, -, -⟩
  obtain ⟨-, -, hstored, -⟩ :=
    henable portModeCleared securityOrigin 12 1 portModeCleared_inv portModeCleared_admits _ _ rfl rfl
  have hpast : ¬ (portModeCleared.dev.num .portEnable 12 = 0 ∧ portModeCleared.dev.num .portMacsecEnable 12 = 1 ∧
      portModeCleared.dev.macsecOver 12 = true) := by simp [portModeCleared_macsecOff]
  have h := hstored rfl hpast portModeCleared_unbarred
  rw [portModeCleared_refuses, Host.Outcome.next.injEq] at h
  exact absurd (congrArg (fun t : State => t.dev.num .portEnable 12) h) (by decide +kernel)

end Sys2Proof.Machine
end

section
/-!
PROOFS of writes of CIRC_CONFIG (O35).
-/
namespace Sys2Proof.Machine

/-! ## What is refused and what is stored (R328) -/

theorem exec_circConfigWrite {s : State} {o : Origin} {c : Fin 2080} {b : List Byte} : exec (.circConfigWrite o c b) s =
    s.run (serve (writeReq o .circConfig 0 c.val (.oct b)) (circConfigBeh c.val b)) := rfl

/-- Whether two configurations agree in every field but ENABLE. -/
def ccSame (b old : List Byte) : Bool :=
  patch b 0 (beBytes 1 (beAt b 0 1 % 128)) == patch old 0 (beBytes 1 (beAt old 0 1 % 128))

/-- A configuration and both load figures are stored. -/
def Dev.circStored (d : Dev) (c : Nat) (b : List Byte) : List Eff :=
  [.obj .circConfig 0 c (.oct b), .obj .circLoadDs 0 0 (.num (d.circLoads c b ccDs)),
    .obj .circLoadUs 0 0 (.num (d.circLoads c b ccUs))]

/-- A circuit that is enabled or disabled starts afresh. -/
def circAfresh (c channel : Nat) (uas : Bool) : Prog :=
  .all [.each [0, 1, 3, 4, 5] fun k => circDefect c k false,
    .when uas [raise 196 c],
    circUpd c fun x => { Circ.none with lost := x.lost },
    putN .circStatus 0 c 0, circRdi channel, timingCheck]

theorem firstAbort_two (x y : Bool) (a : Nat) : firstAbort [(x, a), (y, a)] = if x || y then a else 0 := by
  cases x <;> rfl

section
variable {d : Dev} {c : Nat} {b : List Byte}

theorem circConfig_pre (hr : circRange d c b = false) : (circConfigBeh c b).pre d = 0 := if_neg (by rw [hr]; decide)

/-- What the state of the circuit and of its queue has against a write. -/
theorem circConfig_state : (circConfigBeh c b).state d =
    if (ccOn (d.circCfg c) && !ccSame b (d.circCfg c)) || (ccOn b && !d.queueBound (ccQueue b) (ccChannel b)) then 0x0401 else 0 :=
  firstAbort_two _ _ _

theorem circConfig_free (hk : ccOn (d.circCfg c) = true → ccSame b (d.circCfg c) = true)
    (hq : ccOn b = true → d.queueBound (ccQueue b) (ccChannel b) = true) : (circConfigBeh c b).state d = 0 := by
  rw [circConfig_state, if_neg]
  simpa [Bool.or_eq_true] using ⟨hk, hq⟩

theorem circConfig_barred (h : (ccOn (d.circCfg c) = true ∧ ccSame b (d.circCfg c) = false) ∨
    (ccOn b = true ∧ d.queueBound (ccQueue b) (ccChannel b) = false)) : (circConfigBeh c b).state d = 0x0401 := by
  rw [circConfig_state, if_pos]
  simpa [Bool.or_eq_true] using h

end

section
variable {s : State} {o : Origin} {c : Fin 2080} {b : List Byte} (hs : s.Inv)
  (h : s.dev.admits (writeReq o .circConfig 0 c.val (.oct b)))
include h

theorem circConfigWrite_outOfRange (hr : circRange s.dev c.val b = true) : exec (.circConfigWrite o c b) s =
    .next (s.refusedWith (writeReq o .circConfig 0 c.val (.oct b)).call [] 0x0302) := by
  rw [exec_circConfigWrite]
  exact serve_refused_pre h (if_pos hr) (by decide)

variable (hr : circRange s.dev c.val b = false)
include hr

theorem circConfigWrite_refused (hb : (ccOn (s.dev.circCfg c.val) = true ∧ ccSame b (s.dev.circCfg c.val) = false) ∨
    (ccOn b = true ∧ s.dev.queueBound (ccQueue b) (ccChannel b) = false)) : exec (.circConfigWrite o c b) s =
      .next (s.refusedWith (writeReq o .circConfig 0 c.val (.oct b)).call [] 0x0401) := by
  rw [exec_circConfigWrite]
  exact served_abort h (by decide) (.inr ⟨circConfig_pre hr, circConfig_barred hb⟩) fun _ _ => rfl

variable (hk : ccOn (s.dev.circCfg c.val) = true → ccSame b (s.dev.circCfg c.val) = true)
  (hq : ccOn b = true → s.dev.queueBound (ccQueue b) (ccChannel b) = true)
include hs hk hq

theorem circConfigWrite_stored (he : ccOn (s.dev.circCfg c.val) = ccOn b) : exec (.circConfigWrite o c b) s =
    .next (s.served (writeReq o .circConfig 0 c.val (.oct b)).call (s.dev.circStored c.val b) []) := by
  rw [exec_circConfigWrite]
  have hc : ((s.dev.taken (writeReq o .circConfig 0 c.val (.oct b)).call).circCfg c.val) = s.dev.circCfg c.val := rfl
  refine served_done hs h (circConfig_pre hr) (circConfig_free hk hq) rfl ?_
  simp only [hc, he, bne_self_eq_false, Prog.when_false]
  rfl

end

/-! ## What the disabling of a circuit leaves alone -/

/-- Every key but the listed ones. -/
def keysBut (l : List (Obj × Nat × Nat)) (k : Nat) : Bool := !keysOf l k

theorem keysBut_cons {x : Obj × Nat × Nat} {l : List (Obj × Nat × Nat)} {k : Nat} :
    keysBut (x :: l) k = true ↔ x.1.key x.2.1 x.2.2 ≠ k ∧ keysBut l k = true := by simp [keysBut, keysOf]

/-- A listed object is out of reach. -/
theorem keysBut_listed {l : List (Obj × Nat × Nat)} {o : Obj} {i j : Nat} (h : (o, i, j) ∈ l) : keysBut l (o.key i j) = false := by
  simp only [keysBut, keysOf, Bool.not_eq_false', List.any_eq_true]
  exact ⟨_, h, decide_eq_true rfl⟩

/-- What a write of CIRC_CONFIG stores. -/
def circHeld (c : Nat) : List (Obj × Nat × Nat) := [(.circConfig, 0, c), (.circLoadDs, 0, 0), (.circLoadUs, 0, 0)]

/-- Effects that leave what was stored alone, and take no event back. -/
abbrev Eff.leavesStored (c : Nat) : Eff → Prop := Eff.adds (keysBut (circHeld c)) [.circ, .occs]

/-- Effects that leave the circuit's status alone as well. -/
abbrev Eff.leavesStatus (c : Nat) : Eff → Prop := Eff.adds (keysBut ((.circStatus, 0, c) :: circHeld c)) [.circ, .occs]

theorem leavesStored_of_leavesStatus {c : Nat} {e : Eff} (h : e.leavesStatus c) : e.leavesStored c := by
  obtain ⟨hk, hp, ho⟩ := h
  exact ⟨fun k he => (keysBut_cons.mp (hk k he)).2, hp, ho⟩

theorem Prog.Only.stored {c : Nat} {p : Prog} (h : p.Only (Eff.leavesStatus c)) : p.Only (Eff.leavesStored c) :=
  h.mono fun _ => leavesStored_of_leavesStatus

section
variable {c : Nat} (hc : c < 2080)

theorem key_circConfig : Obj.circConfig.key 0 c = (0x5100 + c / 128) * 256 + 1 + c % 128 := rfl
theorem key_circStatus : Obj.circStatus.key 0 c = (0x5120 + c / 128) * 256 + 1 + c % 128 := rfl
theorem key_circLoadDs : Obj.circLoadDs.key 0 0 = 0x500004 := rfl
theorem key_circLoadUs : Obj.circLoadUs.key 0 0 = 0x500005 := rfl
theorem key_circTimingOffset : Obj.circTimingOffset.key 0 0 = 0x500003 := rfl
theorem key_frmDefects (n : Nat) : Obj.frmDefects.key n 0 = (0x4200 + 0x400 * n) * 256 + 3 := by
  change (0x4200 + 0x400 * n + 0 / 1) * 256 + 3 + 0 % 1 = _
  omega

theorem keysBut_circHeld {k : Nat} : keysBut (circHeld c) k = true ↔
    (0x5100 + c / 128) * 256 + 1 + c % 128 ≠ k ∧ 0x500004 ≠ k ∧ 0x500005 ≠ k := by
  simp only [circHeld, keysBut_cons, key_circConfig, key_circLoadDs, key_circLoadUs]
  simp [keysBut, keysOf]

theorem leavesStored_status (v : Val) : (Eff.obj .circStatus 0 c v).leavesStored c := by
  simp only [adds_obj, keysBut_circHeld, key_circStatus]
  omega

theorem leavesStatus_offset (v : Val) : (Eff.obj .circTimingOffset 0 0 v).leavesStatus c := by
  simp only [adds_obj, keysBut_cons, keysBut_circHeld, key_circStatus, key_circTimingOffset]
  omega

include hc in
theorem leavesStatus_defects (n : Nat) (v : Val) : (Eff.obj .frmDefects n 0 v).leavesStatus c := by
  simp only [adds_obj, keysBut_cons, keysBut_circHeld, key_circStatus, key_frmDefects]
  omega

theorem leavesStatus_raise (src code inst a0 a1 : Nat) : (Eff.raise src code inst a0 a1).leavesStatus c :=
  adds_part (p := .occs) (fun _ => rfl) rfl rfl (by decide)

theorem leavesStatus_circ (k : Nat) (f : Circ → Circ) : (Eff.circ k f).leavesStatus c :=
  adds_part (p := .circ) (fun _ => rfl) rfl rfl (by decide)

theorem leavesStored_raise (src code inst a0 a1 : Nat) : (Eff.raise src code inst a0 a1).leavesStored c :=
  leavesStored_of_leavesStatus (leavesStatus_raise _ _ _ _ _)

theorem leavesStored_circ (k : Nat) (f : Circ → Circ) : (Eff.circ k f).leavesStored c :=
  leavesStored_of_leavesStatus (leavesStatus_circ _ _)

theorem only_timingCheck : timingCheck.Only (Eff.leavesStatus c) := fun d => by
  dsimp only
  split
  · exact leavesStatus_offset _
  · split
    · exact ⟨leavesStatus_offset _, only_when ⟨leavesStatus_raise _ _ _ _ _, leavesStatus_circ _ _, trivial⟩, trivial⟩
    · exact leavesStatus_circ _ _

/-- IF of a circuit follows MISS and AIS_RX (Table 11.2). -/
def circIf (c : Nat) : Prog :=
  .ask fun e =>
    let v := e.num .circStatus 0 c
    let inf := bitOf v 0 || bitOf v 1
    .when (bitOf v 2 != inf) [
      setFlag .circStatus 0 c 2 inf, raise 192 c, circRdi (ccChannel (e.circCfg c)), timingCheck,
      .when inf [circUpd c fun x => { x with pm := { x.pm with defect := true } }]]

theorem circDefect_eq (c k : Nat) (b : Bool) : circDefect c k b = .ask fun d => .when (bitOf (d.num .circStatus 0 c) k != b)
    [setFlag .circStatus 0 c k b, .when (k == 1 || k == 3) [raise 192 c], circIf c] := rfl

include hc

theorem only_circRdi (n : Nat) : (circRdi n).Only (Eff.leavesStatus c) := fun _ _ => leavesStatus_defects hc _ _

theorem only_circIf : (circIf c).Only (Eff.leavesStored c) := fun _ =>
  only_when ⟨fun _ => leavesStored_status _, leavesStored_raise _ _ _ _ _, (only_circRdi hc _).stored, only_timingCheck.stored,
    only_when ⟨leavesStored_circ _ _, trivial⟩, trivial⟩

theorem only_circDefect (k : Nat) (b : Bool) : (circDefect c k b).Only (Eff.leavesStored c) := fun _ =>
  only_when ⟨fun _ => leavesStored_status _, only_when ⟨leavesStored_raise _ _ _ _ _, trivial⟩, only_circIf hc, trivial⟩

theorem only_circAfresh (channel : Nat) (uas : Bool) : (circAfresh c channel uas).Only (Eff.leavesStored c) :=
  ⟨only_each fun k => only_circDefect hc k false, only_when ⟨leavesStored_raise _ _ _ _ _, trivial⟩,
    leavesStored_circ _ _, leavesStored_status _, (only_circRdi hc _).stored, only_timingCheck.stored, trivial⟩

end

/-- The keys that a response may write lie below the circuits. -/
theorem replyKeys_lt {k : Nat} (h : replyKeys k = true) : k < 0x500000 := by
  have hall : ∀ x ∈ (Obj.umaniDiscards, 0, 0) ::
      (List.range 4).flatMap fun n => [(Obj.mgtTxDrops, n, 0), (Obj.actInbandDrops, n, 0)], x.1.key x.2.1 x.2.2 < 0x500000 := by decide
  obtain ⟨x, hx, hk⟩ := List.any_eq_true.mp h
  exact of_decide_eq_true hk ▸ hall x hx

/-! ## The circuit starts afresh (R326) -/

/-- A circuit that has just been configured: only whether it lost the timing reference is kept. -/
def Circ.afresh (x : Circ) : Prop := ∃ l, x = { Circ.none with lost := l }

section
variable {d : Dev} {c : Nat}

theorem crc_circ_same (hd : d.Canonical) (c : Nat) (f : Circ → Circ) : ((Eff.circ c f).apply d).crc c = f (d.crc c) :=
  SMap.get_put_same (b := 0) _ _ _ hd.circ

theorem setLost_afresh (hd : d.Canonical) (h : (d.crc c).afresh) (k : Nat) (l : Bool) :
    (((Eff.circ k fun x => { x with lost := l }).apply d).crc c).afresh := by
  by_cases hk : c = k
  · subst hk
    obtain ⟨m, hm⟩ := h
    rw [crc_circ_same hd, hm]
    exact ⟨l, rfl⟩
  · have : ((Eff.circ k fun x => { x with lost := l }).apply d).crc c = d.crc c := SMap.get_put_other (b := 0) _ _ hk hd.circ
    rwa [this]

/-- The check of the timing reference moves no more than `lost` of a circuit (R329). -/
theorem timingCheck_afresh (hd : d.Canonical) (h : (d.crc c).afresh) : ((timingCheck.run d).crc c).afresh := by
  simp only [timingCheck, Prog.run_ask]
  split
  · exact h
  · split
    · by_cases hl : (d.crc (d.num .circTimingSource)).lost = true
      · simp only [hl, Bool.not_true, Prog.when_false, Prog.run_all_cons, Prog.all_nil, Prog.run_skip]
        exact h
      · simp only [hl, Bool.not_false, Prog.when_true, Prog.run_all_cons, Prog.all_nil, Prog.run_skip, run_raise]
        refine setLost_afresh (Eff.apply_canonical _ _ (Eff.apply_canonical _ _ hd)) ?_ _ true
        exact h
    · exact setLost_afresh hd h _ false

/-- The device at the end of `circAfresh`, from where the circuit's state is replaced. -/
def Dev.circCleared (d : Dev) (c : Nat) : Dev :=
  (putN .circStatus 0 c 0).run ((circUpd c fun x => { Circ.none with lost := x.lost }).run d)

theorem run_canonical (p : Prog) (hd : d.Canonical) : (p.run d).Canonical := Prog.run_inv (fun e d h => e.apply_canonical d h) p d hd

theorem circAfresh_run (channel : Nat) (uas : Bool) : ∃ p : Prog, (circAfresh c channel uas).run d =
    timingCheck.run ((circRdi channel).run ((p.run d).circCleared c)) :=
  ⟨.seq (.each [0, 1, 3, 4, 5] fun k => circDefect c k false) (.when uas [raise 196 c]), rfl⟩

theorem circCleared_canonical (hd : d.Canonical) : (d.circCleared c).Canonical :=
  run_canonical (.seq (circUpd c fun x => { Circ.none with lost := x.lost }) (putN .circStatus 0 c 0)) hd

theorem circRdi_crc (n : Nat) : ((circRdi n).run d).crc c = d.crc c := rfl

theorem circCleared_afresh (hd : d.Canonical) : ((d.circCleared c).crc c).afresh :=
  ⟨(d.crc c).lost, crc_circ_same hd c fun x => { Circ.none with lost := x.lost }⟩

theorem circAfresh_crc (hd : d.Canonical) (channel : Nat) (uas : Bool) : (((circAfresh c channel uas).run d).crc c).afresh := by
  obtain ⟨p, hp⟩ := circAfresh_run (d := d) (c := c) channel uas
  have h := run_canonical p hd
  rw [hp]
  refine timingCheck_afresh (run_canonical (circRdi channel) (circCleared_canonical h)) ?_
  rw [circRdi_crc]
  exact circCleared_afresh h

theorem circAfresh_status (hc : c < 2080) (hd : d.Canonical) (channel : Nat) (uas : Bool) :
    ((circAfresh c channel uas).run d).num .circStatus 0 c = 0 := by
  obtain ⟨p, hp⟩ := circAfresh_run (d := d) (c := c) channel uas
  have hw := (circCleared_canonical (c := c) (run_canonical p hd)).objs
  have hk : keysBut ((.circStatus, 0, c) :: circHeld c) (Obj.circStatus.key 0 c) = false :=
    keysBut_listed (o := .circStatus) (i := 0) (j := c) List.mem_cons_self
  rw [hp, only_timingCheck.num (Prog.objs_wf _ hw) hk, (only_circRdi hc channel).num hw hk]
  exact Dev.num_put (run_canonical p hd).objs _ _ _ _

/-! ## Event 192 (Table 11.5) -/

theorem circIf_raises (hc : c < 2080)
    (h : bitOf (d.num .circStatus 0 c) 2 ≠ (bitOf (d.num .circStatus 0 c) 0 || bitOf (d.num .circStatus 0 c) 1)) :
    ((circIf c).run d).raisedEvent 192 0 c := by
  have hall := only_circIf hc d
  simp only [bne_iff_ne.mpr h, Prog.when_true] at hall
  obtain ⟨-, -, hrest⟩ := hall
  rw [circIf, Prog.run_ask]
  simp only [bne_iff_ne.mpr h, Prog.when_true]
  exact hrest.raisedEvent (raisedEvent_raise _ 192 0 c 0 0)

theorem circIf_quiet (h : bitOf (d.num .circStatus 0 c) 2 = (bitOf (d.num .circStatus 0 c) 0 || bitOf (d.num .circStatus 0 c) 1)) :
    (circIf c).run d = d := by
  simp only [circIf, Prog.run_ask, h, bne_self_eq_false, Prog.when_false, Prog.run_skip]

/-- The clearing of AIS_RX raises the event itself. -/
theorem circDefect_ais_raises (hc : c < 2080) (h : bitOf (d.num .circStatus 0 c) 1 = true) :
    ((circDefect c 1 false).run d).raisedEvent 192 0 c := by
  simp only [circDefect_eq, Prog.run_ask, h, Bool.true_bne, Bool.not_false, Prog.when_true, Prog.run_all_cons,
    beq_self_eq_true, Bool.true_or]
  exact (only_circIf hc).raisedEvent (raisedEvent_raise _ _ _ _ _ _)

theorem bitOf_clear_zero (v : Nat) : bitOf (putBit v 0 false) 0 = false ∧ bitOf (putBit v 0 false) 1 = bitOf v 1 ∧
    bitOf (putBit v 0 false) 2 = bitOf v 2 := by
  simp only [bitOf, putBit, putBits, bitsOf]
  grind

theorem circDefect_miss (h : bitOf (d.num .circStatus 0 c) 0 = true) : (circDefect c 0 false).run d =
    (circIf c).run ((setFlag .circStatus 0 c 0 false).run d) := by
  simp only [circDefect_eq, Prog.run_ask, h, Bool.true_bne, Bool.not_false, Prog.when_true, Prog.run_all_cons]
  rfl

theorem circDefect_miss_absent (h : bitOf (d.num .circStatus 0 c) 0 = false) : (circDefect c 0 false).run d = d := by
  simp only [circDefect_eq, Prog.run_ask, h, bne_self_eq_false, Prog.when_false, Prog.run_skip]

theorem status_clearMiss (hd : d.Canonical) :
    ((setFlag .circStatus 0 c 0 false).run d).num .circStatus 0 c = putBit (d.num .circStatus 0 c) 0 false :=
  Dev.num_put hd.objs _ _ _ _

/-- The clearing of MISS raises the event by IF, where AIS_RX does not hold IF up. -/
theorem circDefect_miss_raises (hc : c < 2080) (hd : d.Canonical) (h0 : bitOf (d.num .circStatus 0 c) 0 = true)
    (h1 : bitOf (d.num .circStatus 0 c) 1 = false) (h2 : bitOf (d.num .circStatus 0 c) 2 = true) :
    ((circDefect c 0 false).run d).raisedEvent 192 0 c := by
  obtain ⟨c0, c1, c2⟩ := bitOf_clear_zero (d.num .circStatus 0 c)
  rw [circDefect_miss h0]
  refine circIf_raises hc ?_
  rw [status_clearMiss hd, c0, c1, c2, h1, h2]
  decide

/-- The clearing of MISS leaves AIS_RX standing. -/
theorem circDefect_miss_ais (hd : d.Canonical) (h1 : bitOf (d.num .circStatus 0 c) 1 = true)
    (h2 : bitOf (d.num .circStatus 0 c) 2 = true) : bitOf (((circDefect c 0 false).run d).num .circStatus 0 c) 1 = true := by
  obtain ⟨c0, c1, c2⟩ := bitOf_clear_zero (d.num .circStatus 0 c)
  cases h0 : bitOf (d.num .circStatus 0 c) 0
  · rwa [circDefect_miss_absent h0]
  · rw [circDefect_miss h0, circIf_quiet (by rw [status_clearMiss hd, c0, c1, c2, h1, h2]; rfl), status_clearMiss hd, c1, h1]

theorem circAfresh_raises (hc : c < 2080) (hd : d.Canonical) (channel : Nat) (uas : Bool) (h2 : bitOf (d.num .circStatus 0 c) 2 = true)
    (h : bitOf (d.num .circStatus 0 c) 0 = true ∨ bitOf (d.num .circStatus 0 c) 1 = true) :
    ((circAfresh c channel uas).run d).raisedEvent 192 0 c := by
  have hrest := only_circAfresh hc channel uas
  obtain ⟨⟨-, h1, hmore⟩, hlast⟩ := hrest
  cases hais : bitOf (d.num .circStatus 0 c) 1 with
  | true =>
    have := circDefect_ais_raises hc (circDefect_miss_ais hd hais h2)
    have hend := hlast.raisedEvent (hmore.raisedEvent this)
    exact hend
  | false =>
    have := circDefect_miss_raises hc hd (h.resolve_right (by simp [hais])) hais h2
    have hend := hlast.raisedEvent (hmore.raisedEvent (h1.raisedEvent this))
    exact hend

end

/-! ## The disabling of a circuit -/

/-- The device after a configuration that enables or disables its circuit was stored, before the answer. -/
def Dev.circSwitched (d : Dev) (c : Nat) (b : List Byte) (uas : Bool) : Dev :=
  (circAfresh c (ccChannel b) uas).run (d.after (d.circStored c b))

section
variable {s : State} {o : Origin} {c : Fin 2080} {b : List Byte} (hs : s.Inv)
  (h : s.dev.admits (writeReq o .circConfig 0 c.val (.oct b))) (hr : circRange s.dev c.val b = false)
  (hk : ccOn (s.dev.circCfg c.val) = true → ccSame b (s.dev.circCfg c.val) = true)
  (hq : ccOn b = true → s.dev.queueBound (ccQueue b) (ccChannel b) = true)
include hs h hr hk hq

theorem circConfigWrite_switches (he : ccOn (s.dev.circCfg c.val) ≠ ccOn b) : ∃ uas, exec (.circConfigWrite o c b) s =
    .next { s with
      dev := (respond (writeReq o .circConfig 0 c.val (.oct b)).call 0 []).run
        ((s.dev.taken (writeReq o .circConfig 0 c.val (.oct b)).call).circSwitched c.val b uas) } := by
  have hc : ((s.dev.taken (writeReq o .circConfig 0 c.val (.oct b)).call).circCfg c.val) = s.dev.circCfg c.val := rfl
  refine ⟨bitOf (s.dev.num .circStatus 0 c.val) 6, ?_⟩
  rw [exec_circConfigWrite, State.run_eq, serve_run hs.1.um h (circConfig_pre hr) (circConfig_free hk hq)]
  simp only [circConfigBeh, beh, finish, Prog.run_seq, hc, bne_iff_ne.mpr he, Prog.when_true]
  rfl

end

section
variable {d : Dev} {c : Nat} {b : List Byte} (hc : c < 2080) (hd : d.Canonical) (uas : Bool) (x : Call) (abort : Nat)
  (data : List Byte)

/-- What lies at or above the circuits' objects is not written by an answer. -/
theorem respond_get (hd : d.Canonical) {o : Obj} {i j : Nat} (ho : 0x500000 ≤ o.key i j) :
    ((respond x abort data).run d).get o i j = d.get o i j := by
  refine (only_respond x abort data).get hd.objs ?_
  by_contra hk
  exact absurd (replyKeys_lt (eq_true_of_ne_false hk)) (by omega)

theorem taken_circLoads (x : Call) (c : Nat) (b : List Byte) (on : List Byte → Bool) :
    (d.taken x).circLoads c b on = d.circLoads c b on := rfl

theorem taken_canonical (hd : d.Canonical) (x : Call) : (d.taken x).Canonical := by
  refine { hd with um := ?_, fns := ?_ }
  · dsimp only [Dev.taken]
    exact SMap.upd_wf hd.um
  · dsimp only [Dev.taken]
    split
    · exact SMap.upd_wf hd.fns
    · exact hd.fns

include hd in
theorem circSwitched_canonical : (d.circSwitched c b uas).Canonical := run_canonical _ (after_canonical _ hd)

include hc hd in
/-- The three objects that a write stores stay as stored. -/
theorem circSwitched_get {o : Obj} {i j : Nat} (h : (o, i, j) ∈ circHeld c) :
    (d.circSwitched c b uas).get o i j = (d.after (d.circStored c b)).get o i j :=
  (only_circAfresh hc _ uas).get (after_canonical _ hd).objs (keysBut_listed h)

include hd in
theorem circStored_get : (d.after (d.circStored c b)).get .circConfig 0 c = .oct b ∧
    (d.after (d.circStored c b)).get .circLoadDs 0 0 = .num (d.circLoads c b ccDs) ∧
    (d.after (d.circStored c b)).get .circLoadUs 0 0 = .num (d.circLoads c b ccUs) := by
  have h1 := (Eff.apply_canonical (.obj .circConfig 0 c (.oct b)) d hd).objs
  have h2 := Eff.objs_wf (.obj .circLoadDs 0 0 (.num (d.circLoads c b ccDs))) _ h1
  refine ⟨?_, ?_, Dev.get_put h2 _ _ _ _⟩
  · exact (Dev.get_put_other h2 _ (by rw [key_circConfig, key_circLoadUs]; omega)).trans
      ((Dev.get_put_other h1 _ (by rw [key_circConfig, key_circLoadDs]; omega)).trans (Dev.get_put hd.objs _ _ _ _))
  · exact (Dev.get_put_other h2 _ (by rw [key_circLoadDs, key_circLoadUs]; omega)).trans (Dev.get_put h1 _ _ _ _)

include hd in
/-- Storing the configuration leaves CIRC_STATUS. -/
theorem circStored_status : (d.after (d.circStored c b)).num .circStatus 0 c = d.num .circStatus 0 c := by
  have h1 := (Eff.apply_canonical (.obj .circConfig 0 c (.oct b)) d hd).objs
  have h2 := Eff.objs_wf (.obj .circLoadDs 0 0 (.num (d.circLoads c b ccDs))) _ h1
  have h : (d.after (d.circStored c b)).get .circStatus 0 c = d.get .circStatus 0 c :=
    (Dev.get_put_other h2 _ (by rw [key_circStatus, key_circLoadUs]; omega)).trans
      ((Dev.get_put_other h1 _ (by rw [key_circStatus, key_circLoadDs]; omega)).trans
        (Dev.get_put_other hd.objs _ (by rw [key_circStatus, key_circConfig]; omega)))
  simp only [Dev.num, h]

theorem circSwitched_status (hc : c < 2080) (hd : d.Canonical) : (d.circSwitched c b uas).num .circStatus 0 c = 0 :=
  circAfresh_status hc (after_canonical _ hd) _ uas

theorem circSwitched_crc (hd : d.Canonical) : ((d.circSwitched c b uas).crc c).afresh := circAfresh_crc (after_canonical _ hd) _ uas

/-- An answer leaves the circuits' state. -/
theorem respond_crc (hd : d.Canonical) : ((respond x abort data).run d).crc c = d.crc c :=
  congrArg (fun m => SMap.get Circ.none m c) ((only_respond x abort data).same (x := .circ) hd.objs (by decide))

/-- The defects of a circuit that held IF are cleared with event 192 (Table 11.5). -/
theorem circSwitched_raises (hc : c < 2080) (hd : d.Canonical) (h2 : bitOf (d.num .circStatus 0 c) 2 = true)
    (h01 : bitOf (d.num .circStatus 0 c) 0 = true ∨ bitOf (d.num .circStatus 0 c) 1 = true) :
    (d.circSwitched c b uas).raisedEvent 192 0 c := by
  rw [← circStored_status (b := b) hd] at h2 h01
  exact circAfresh_raises hc (after_canonical _ hd) _ uas h2 h01

end

/-- Settles O35: the checks in their order; a disabling through what each of its programs leaves alone. -/
theorem circuitConfiguration : Obligations.CircuitConfiguration := by
  rintro s o c b old hs - rfl h range kept rfl hkept
  change kept = ccSame b (s.dev.circCfg c.val) at hkept
  subst hkept
  refine ⟨circConfigWrite_outOfRange h, circConfigWrite_refused h, fun hr he hk hq => circConfigWrite_stored hs h hr hk hq he,
    fun hr hon hoff hk => ?_⟩
  obtain ⟨uas, hexec⟩ := circConfigWrite_switches hs h hr (fun _ => hk) (fun hb => by simp [hoff] at hb) (by simp [hon, hoff])
  have hd := taken_canonical hs.1 (writeReq o .circConfig 0 c.val (.oct b)).call
  have hsw := circSwitched_canonical (c := c.val) (b := b) hd uas
  have get {x : Obj} {i j : Nat} (hx : (x, i, j) ∈ circHeld c.val) (hlow : 0x500000 ≤ x.key i j) :=
    (respond_get (writeReq o .circConfig 0 c.val (.oct b)).call 0 [] hsw hlow).trans (circSwitched_get c.isLt hd uas hx)
  obtain ⟨hcfg, hds, hus⟩ := circStored_get (c := c.val) (b := b) hd
  rw [taken_circLoads] at hds hus
  have hreply := only_respond (writeReq o .circConfig 0 c.val (.oct b)).call 0 []
  refine ⟨_, hexec, rfl, ?_, ?_, ?_, ?_, ?_, fun h2 h01 => ?_⟩
  · have hg := (get (by simp [circHeld]) (by rw [key_circConfig]; omega)).trans hcfg
    rw [Dev.circCfg, Dev.oct, hg, Val.b_oct]
  · have hg := respond_get (writeReq o .circConfig 0 c.val (.oct b)).call 0 [] hsw (o := .circStatus) (i := 0) (j := c.val)
      (by rw [key_circStatus]; omega)
    have h0 := circSwitched_status (b := b) uas c.isLt hd
    rw [Dev.num] at h0 ⊢
    rw [hg, h0]
  · have hg := (get (by simp [circHeld]) (by rw [key_circLoadDs]; omega)).trans hds
    rw [Dev.num, hg, Val.n_num]
  · have hg := (get (by simp [circHeld]) (by rw [key_circLoadUs]; omega)).trans hus
    rw [Dev.num, hg, Val.n_num]
  · obtain ⟨l, hl⟩ := circSwitched_crc (b := b) uas hd
    refine ⟨l, ?_⟩
    rw [← hl]
    dsimp only
    exact respond_crc _ _ _ hsw
  · rw [← Dev.taken_num s.dev (writeReq o .circConfig 0 c.val (.oct b)).call] at h2 h01
    have hraised := circSwitched_raises (b := b) uas c.isLt hd h2 h01
    dsimp only
    exact hreply.raisedEvent hraised

end Sys2Proof.Machine
end

section
/-!
PROOFS of how the device-wide resets begin (O8).
-/
namespace Sys2Proof.Machine

/-! ## RST_CAUSE (R90) -/

theorem bitOf_putBit_same (v i : Nat) : bitOf (putBit v i true) i = true := by
  have hp : 0 < 2 ^ i := Nat.two_pow_pos i
  have hb : v / 2 ^ i % 2 ≤ v / 2 ^ i := Nat.mod_le _ _
  have hdiv : putBit v i true / 2 ^ i = v / 2 ^ i - v / 2 ^ i % 2 + 1 := by
    simp only [putBit, putBits, bitsOf, if_true, Nat.pow_one, Nat.one_mod, Nat.one_mul, Nat.add_div_right _ hp]
    rw [Nat.mul_comm, Nat.sub_mul_div]
  simp only [bitOf, hdiv, beq_iff_eq]
  omega

/-- The causes that stay as a reset begins: AON_POWER, and every one while another reset is asserted. -/
def Dev.causesKept (d : Dev) : Nat :=
  if d.clk.devReset || d.clk.coreReset then d.num .rstCause else d.num .rstCause &&& 2

section
variable {d : Dev} (hd : d.Canonical)
include hd

theorem markCause_cause (bit : Nat) : ((markCause bit).run d).num .rstCause = putBit d.causesKept bit true := by
  have hw := Eff.objs_wf (.obj .rstCause 0 0 (.num (putBit d.causesKept bit true))) d hd.objs
  have h := Dev.get_put_other hw (o := .rstCauseSticky) (x := .rstCause) (i := 0) (j := 0) (k := 0) (l := 0)
    (.num (putBit (d.num .rstCauseSticky) bit true)) (by decide)
  exact (congrArg Val.n h).trans (Dev.num_put hd.objs _ _ _ _)

theorem markCause_sticky (bit : Nat) : ((markCause bit).run d).num .rstCauseSticky = putBit (d.num .rstCauseSticky) bit true :=
  Dev.num_put (Eff.objs_wf (.obj .rstCause 0 0 (.num (putBit d.causesKept bit true))) d hd.objs) _ _ _ _

end

/-! ## What a wipe leaves (Table 3.6) -/

/-- A key that is dropped reads as unlisted. -/
theorem SMap.get_drop_dropped {α : Type} [DecidableEq α] (z : α) {p : Nat → Bool} {k : Nat} (hp : p k = true) (m : SMap α) :
    SMap.get z (SMap.drop p m) k = z := by
  unfold SMap.drop
  induction m with
  | nil => rfl
  | cons e r ih =>
    rw [List.filter_cons]
    split
    · rename_i he
      have hne : e.1 ≠ k := by
        rintro rfl
        simp [hp] at he
      simp only [SMap.get, if_neg hne, ih, ite_self]
    · exact ih

/-- What holds of every changed value, and of an unlisted one, holds of whatever a changed store holds. -/
theorem SMap.get_mapped {α : Type} [DecidableEq α] {z : α} {f : α → α} {P : α → Prop} (hz : P z) (hf : ∀ v, P (f v)) (m : SMap α)
    (k : Nat) : P (SMap.get z (SMap.mapped z f m) k) := by
  suffices h : ∀ (l a : SMap α), SMap.wf z a = true → (∀ i, P (SMap.get z a i)) →
      ∀ i, P (SMap.get z (l.foldl (fun a e => SMap.put z e.1 (f e.2) a) a) i) from h m [] rfl (fun _ => hz) k
  intro l
  induction l with
  | nil => exact fun _ _ h => h
  | cons e r ih =>
    refine fun a ha h => ih _ (SMap.put_wf ha) fun i => ?_
    by_cases hi : i = e.1
    · rw [hi, SMap.get_put_same (b := 0) _ _ _ ha]
      exact hf _
    · rw [SMap.get_put_other (b := 0) _ _ hi ha]
      exact h i

/-- The resets of Table 3.6 with device-wide scope. -/
def Wipe.isReset (w : Wipe) : Prop := w = .powerOn ∨ w = .supply ∨ w = .logic

theorem Wipe.isReset_logic : Wipe.logic.isReset := .inr (.inr rfl)

theorem Wipe.keeps_cause (w : Wipe) : w.keeps (Obj.rstCause.key 0 0) = true := by cases w <;> decide

theorem Wipe.keeps_sticky (w : Wipe) : w.keeps (Obj.rstCauseSticky.key 0 0) = true := by cases w <;> decide

section
variable {d : Dev} {w : Wipe}

theorem wiped_num (hd : d.Canonical) {o : Obj} {i j : Nat} (h : w.keeps (o.key i j) = true) : (d.wiped w).num o i j = d.num o i j := by
  simp only [Dev.num, Dev.get, Dev.wiped]
  rw [SMap.get_drop (b := 0) none (by simp only [h, Bool.true_or, Bool.not_true]) hd.objs]

theorem disabledKey_eq_false {k : Nat} (h : ∀ n, k ≠ Obj.actState.key n 0) : d.disabledKey k = false := by
  simp only [Dev.disabledKey, List.any_eq_false, Bool.and_eq_true, decide_eq_true_eq, not_and]
  exact fun n _ hk => absurd hk.symm (h n)

theorem wiped_fch_latchOnly (hw : w.isReset) (n : Nat) : (d.wiped w).ch n = Fch.latchOnly ((d.wiped w).ch n) := by
  obtain rfl | rfl | rfl := hw
  · rfl
  · rfl
  · exact SMap.get_mapped (P := fun c => c = Fch.latchOnly c) rfl (fun _ => rfl) d.fch n

theorem wiped_objs {k : Nat} (hk : w.keeps k = false) (hn : ∀ n, k ≠ Obj.actState.key n 0) :
    SMap.get none (d.wiped w).objs k = none := by
  simp only [Dev.wiped]
  refine SMap.get_drop_dropped none ?_ _
  simp only [hk, disabledKey_eq_false hn, Bool.and_false, Bool.or_false, Bool.not_false]

theorem wiped_cleared (hw : w.isReset) : (d.wiped w).Cleared w where
  objs k hk hn := wiped_objs hk hn
  acts := rfl
  um := rfl
  transfers := ⟨rfl, rfl, rfl⟩
  host := ⟨by obtain rfl | rfl | rfl := hw <;> rfl, rfl, rfl⟩
  fch := wiped_fch_latchOnly hw
  time := ⟨rfl, by obtain rfl | rfl | rfl := hw <;> rfl, by obtain rfl | rfl | rfl := hw <;> rfl⟩
  crossings := ⟨by obtain rfl | rfl | rfl := hw <;> rfl, rfl, rfl, rfl⟩
  tables := ⟨rfl, rfl, rfl⟩
  packets := ⟨rfl, rfl⟩
  others := ⟨rfl, rfl, rfl, rfl, rfl⟩

/-- At power-on nothing but the two cause objects is kept. -/
theorem powerOn_keeps_iff {k : Nat} : Wipe.powerOn.keeps k = true ↔ k = Obj.rstCause.key 0 0 ∨ k = Obj.rstCauseSticky.key 0 0 := by
  have hdeep : (Wipe.powerOn == Wipe.deep) = false := rfl
  simp only [Wipe.keeps, keyOf, bne_self_eq_false, hdeep, Bool.false_and, Bool.or_false, List.any_cons, List.any_nil,
    Bool.or_eq_true, decide_eq_true_eq, @eq_comm _ k]

theorem wiped_powerOn_objs {k : Nat} (h1 : k ≠ Obj.rstCause.key 0 0) (h2 : k ≠ Obj.rstCauseSticky.key 0 0) :
    SMap.get none (d.wiped .powerOn).objs k = none := by
  have hk : Wipe.powerOn.keeps k = false := by
    rw [← Bool.not_eq_true, powerOn_keeps_iff]
    exact not_or.mpr ⟨h1, h2⟩
  simp only [Dev.wiped]
  exact SMap.get_drop_dropped none (by simp only [hk, bne_self_eq_false, Bool.false_and, Bool.or_false, Bool.not_false]) _

end

/-! ## The beginning of a device-wide reset (R90, R91) -/

/-- A device in which a reset that marked its bit has just begun. -/
structure Dev.Began (w : Wipe) (bit : Nat) (d : Dev) : Prop where
  cause : bitOf (d.num .rstCause) bit = true
  sticky : bitOf (d.num .rstCauseSticky) bit = true
  cleared : d.Cleared w
  asserted : d.clk.devReset = true
  commanded : d.clk.cmdReset = none
  unfrozen : d.recd.frozen = none
  hold : d.recd.hold = []

theorem wiped_began {d : Dev} (hd : d.Canonical) {w : Wipe} (hw : w.isReset) (bit : Nat) :
    (((markCause bit).run d).wiped w).Began w bit where
  cause := by rw [wiped_num (run_canonical _ hd) w.keeps_cause, markCause_cause hd, bitOf_putBit_same]
  sticky := by rw [wiped_num (run_canonical _ hd) w.keeps_sticky, markCause_sticky hd, bitOf_putBit_same]
  cleared := wiped_cleared hw
  asserted := by obtain rfl | rfl | rfl := hw <;> rfl
  commanded := rfl
  unfrozen := by obtain rfl | rfl | rfl := hw <;> rfl
  hold := by obtain rfl | rfl | rfl := hw <;> rfl

/-- What the recorder does before the wipe is a program, so that the wipe finds canonical stores. -/
theorem deviceReset_began {d : Dev} (hd : d.Canonical) {w : Wipe} (hw : w.isReset) (bit : Nat) :
    ((deviceReset w bit).run d).Began w bit :=
  wiped_began (run_canonical (.seq (.ask fun d => .when (bitOf (d.num .secDebugState) 7) [raise 456])
    (.seq recordAll (endFreeze 5))) hd) hw bit

theorem exec_powerOnReset (s : State) : exec .powerOnReset s = execPowerOnReset s := rfl
theorem exec_supplyFailure (s : State) : exec .supplyFailure s = execSupplyFailure s := rfl
theorem exec_hrefLossReset (s : State) : exec .hrefLossReset s = execHrefLossReset s := rfl
theorem exec_deviceCommandReset (s : State) : exec .deviceCommandReset s = execDeviceCommandReset s := rfl
theorem exec_secWatchdogExpiry (s : State) : exec .secWatchdogExpiry s = execSecWatchdogExpiry s := rfl
theorem exec_lifecycleViolation (s : State) : exec .lifecycleViolation s = execLifecycleViolation s := rfl

section
variable {s : State}

/-- PORST_N low. -/
def porstLow : Eff := .pins fun p => { p with porstN := false, aonOn := false, straps := [] }

theorem powerOnReset_runs : exec .powerOnReset s =
    .next { s with dev := ((markCause 2).run (porstLow.apply s.dev)).wiped .powerOn } := rfl

theorem supplyFailure_runs (hp : s.dev.pins.porstN = true) (hq : s.dev.num .pwrState < 3 ∨ s.dev.pins.pwrreqN = false) :
    exec .supplyFailure s = .next { s with dev := (Eff.clk fun c => { c with supplyHeld := true }).apply ((deviceReset .supply 3).run
      (s.dev.after [.pins fun p => { p with pgCore := false }, .raise 2 0 noInst 0 0])) } := by
  have hc : (s.dev.pins.porstN && !(decide (3 ≤ s.dev.num .pwrState) && s.dev.pins.pwrreqN)) = true := by
    rcases hq with hq | hq
    · simp [hp, Nat.not_le.mpr hq]
    · simp [hp, hq]
  rw [exec_supplyFailure, execSupplyFailure, State.run_eq, Prog.run_ask, hc]
  rfl

/-- What an HREF-loss reset does once it has begun. -/
def hrefBackEffs : List Eff :=
  [.pins fun p => { p with href := true, aonOn := true }, .clk fun c => { c with hrefLost := false }, .raise 0 0 noInst 0 0]

theorem hrefLossReset_runs (h : s.dev.clk.hrefLost = true) :
    exec .hrefLossReset s = .next { s with dev := ((deviceReset .logic 4).run s.dev).after hrefBackEffs } := by
  rw [exec_hrefLossReset, execHrefLossReset, State.run_eq, Prog.run_ask, h]
  rfl

theorem deviceCommandReset_runs (h : s.dev.clk.cmdReset.isSome = true) :
    exec .deviceCommandReset s = .next { s with dev := (deviceReset .logic 5).run s.dev } := by
  rw [exec_deviceCommandReset, execDeviceCommandReset, State.run_eq, Prog.run_ask, h]
  rfl

theorem escalate_run (cause : Nat) (d : Dev) :
    (escalate cause).run d = (Eff.raise 464 cause noInst 0 0).apply ((deviceReset .logic 7).run d) := rfl

variable (h : s.dev.clk.devReset = false)
include h

theorem secWatchdogExpiry_runs : exec .secWatchdogExpiry s = .next { s with dev := (escalate 1).run s.dev } := by
  rw [exec_secWatchdogExpiry, execSecWatchdogExpiry, State.run_eq, Prog.run_ask, h]
  rfl

theorem lifecycleViolation_runs : exec .lifecycleViolation s = .next { s with dev := (escalate 2).run s.dev } := by
  rw [exec_lifecycleViolation, execLifecycleViolation, State.run_eq, Prog.run_ask, h]
  rfl

end

theorem escalate_began {d : Dev} (hd : d.Canonical) (cause : Nat) : ((escalate cause).run d).Began .logic 7 := by
  have h := deviceReset_began hd Wipe.isReset_logic 7
  rw [escalate_run]
  exact { h with cleared := { h.cleared with } }

theorem escalate_raises (d : Dev) (cause : Nat) : ((escalate cause).run d).raisedEvent 464 cause noInst := by
  rw [escalate_run]
  exact raisedEvent_raise _ _ _ _ _ _

theorem hrefBack_began {d : Dev} (h : d.Began .logic 4) : (d.after hrefBackEffs).Began .logic 4 :=
  { h with cleared := { h.cleared with } }

/-- Settles O8: every reset but power-on marks its cause and wipes, and what it does after that leaves cause and wipe alone. -/
theorem deviceResetsBegin : Obligations.DeviceResetsBegin := by
  refine ⟨fun s hs => ?_, fun s hs hp hq => ?_, fun s hs h => ?_, fun s hs h => ?_, fun s hs h => ⟨?_, ?_⟩⟩
  · have hd : (porstLow.apply s.dev).Canonical := Eff.apply_canonical _ _ hs.1
    refine ⟨_, powerOnReset_runs, rfl, ?_, ?_, fun k => wiped_powerOn_objs, rfl, wiped_cleared (.inl rfl), rfl, rfl, rfl, rfl⟩
    · exact (wiped_num (run_canonical _ hd) (Wipe.keeps_cause _)).trans (markCause_cause hd 2)
    · exact (wiped_num (run_canonical _ hd) (Wipe.keeps_sticky _)).trans (markCause_sticky hd 2)
  · have h := deviceReset_began (after_canonical [.pins fun p => { p with pgCore := false }, .raise 2 0 noInst 0 0] hs.1)
      (w := .supply) (.inr (.inl rfl)) 3
    exact ⟨_, supplyFailure_runs hp hq, rfl, h.cause, h.sticky, { h.cleared with }, h.asserted, rfl, h.unfrozen, h.hold⟩
  · have hb := hrefBack_began (deviceReset_began hs.1 Wipe.isReset_logic 4)
    exact ⟨_, hrefLossReset_runs h, rfl, hb.cause, hb.sticky, hb.cleared, raisedEvent_raise _ _ _ _ _ _, hb.asserted, rfl, rfl⟩
  · have hb := deviceReset_began hs.1 Wipe.isReset_logic 5
    exact ⟨_, deviceCommandReset_runs h, rfl, hb.cause, hb.sticky, hb.cleared, hb.asserted, hb.commanded⟩
  · have hb := escalate_began hs.1 1
    exact ⟨_, secWatchdogExpiry_runs h, rfl, hb.cause, hb.cleared, hb.asserted, escalate_raises _ _⟩
  · have hb := escalate_began hs.1 2
    exact ⟨_, lifecycleViolation_runs h, rfl, hb.cause, hb.cleared, hb.asserted, escalate_raises _ _⟩

end Sys2Proof.Machine
end

section
/-!
PROOFS of how straps are taken and how resets end (O9).
-/
namespace Sys2Proof.Machine

/-! ## The release of the device-wide reset (R64, R72, R92) -/

/-- The keys of what the straps set up: all lie above the reset objects. -/
def strapKeys (k : Nat) : Bool := decide (0x300000 ≤ k)

theorem strapKeys_straps : strapKeys (Obj.rstStraps.key 0 0) = false := by decide

theorem strapKeys_setUp {i j : Nat} {o : Obj} (ho : o ∈ [Obj.hifLinkState, .lgPersonality, .fabState, .portState, .portMode]) :
    strapKeys (o.key i j) = true := by
  have hb : 0x3000 ≤ o.row.base := by revert o; decide
  refine decide_eq_true ?_
  rw [Obj.key]
  generalize j / o.row.per = q
  omega

theorem only_strapped : strapped.Only (Eff.adds strapKeys []) := fun _ =>
  ⟨only_each fun _ => adds_obj.mpr (strapKeys_setUp (by decide)),
    only_when ⟨only_each fun _ => ⟨adds_obj.mpr (strapKeys_setUp (by decide)), adds_obj.mpr (strapKeys_setUp (by decide)),
      only_each fun _ => ⟨adds_obj.mpr (strapKeys_setUp (by decide)), adds_obj.mpr (strapKeys_setUp (by decide)), trivial⟩,
      trivial⟩, trivial⟩, trivial⟩

section
variable {d : Dev}

/-- The reset is asserted and nothing keeps it so: the guard of `release`. -/
def Dev.releases (d : Dev) : Bool :=
  d.clk.devReset && d.pins.porstN && d.pins.href && d.pins.straps.isEmpty && !d.clk.supplyHeld && !d.clk.hrefLost

/-- The reset is released, and PWRREQ_N asserted again. -/
def releaseEffs : List Eff := [.clk fun c => { c with devReset := false }, .pins fun p => { p with pwrreqN := false }]

theorem release_idle (h : d.releases = false) : release.run d = d := by
  rw [release, Prog.run_ask]
  change (Prog.when d.releases _).run d = d
  rw [h]
  rfl

theorem release_run (h : d.releases = true) : release.run d =
    (Eff.raise 1 0 noInst (d.num .rstCause) 0).apply (strapped.run (d.after releaseEffs)) := by
  rw [release, Prog.run_ask]
  change (Prog.when d.releases _).run d = _
  rw [h]
  rfl

theorem release_raises (h : d.releases = true) : (release.run d).raisedEvent 1 0 noInst := by
  rw [release_run h]
  exact raisedEvent_raise _ _ _ _ _ _

theorem only_release : release.Only (Eff.adds strapKeys [.clk, .pins, .occs]) := fun _ =>
  only_when ⟨adds_part (p := .clk) (fun _ => rfl) rfl rfl (by decide), adds_part (p := .pins) (fun _ => rfl) rfl rfl (by decide),
    only_strapped.mono fun _ ⟨hk, hp, ho⟩ => ⟨hk, fun p h => absurd (hp p h) List.not_mem_nil, ho⟩,
    adds_part (p := .occs) (fun _ => rfl) rfl rfl (by decide), trivial⟩

variable (hd : d.Canonical)
include hd

theorem release_clk (h : d.releases = true) : (release.run d).clk = { d.clk with devReset := false } := by
  rw [release_run h]
  exact only_strapped.same (x := .clk) (after_canonical releaseEffs hd).objs List.not_mem_nil

theorem release_pins (h : d.releases = true) : (release.run d).pins = { d.pins with pwrreqN := false } := by
  rw [release_run h]
  exact only_strapped.same (x := .pins) (after_canonical releaseEffs hd).objs List.not_mem_nil

theorem release_href : (release.run d).pins.href = d.pins.href := by
  cases h : d.releases
  · rw [release_idle h]
  · rw [release_pins hd h]

theorem release_straps : (release.run d).pins.straps = d.pins.straps := by
  cases h : d.releases
  · rw [release_idle h]
  · rw [release_pins hd h]

end

/-! ## Straps (R60 to R64) -/

/-- A strap value is accepted and the samples go. -/
def strapEffs (v : Nat) : List Eff := [.obj .rstStraps 0 0 (.num v), .pins fun p => { p with straps := [] }]

theorem takeStraps_run (v : Nat) (d : Dev) : (takeStraps v).run d =
    (Prog.when (v % 4 == 3) [raise 3]).run (release.run (d.after (strapEffs v))) := rfl

theorem takeStraps_reserved (d : Dev) {v : Nat} (h : v % 4 = 3) : ((takeStraps v).run d).raisedEvent 3 0 noInst := by
  rw [takeStraps_run, beq_iff_eq.mpr h]
  exact raisedEvent_raise _ _ _ _ _ _

/-- Event 3, raised or not, changes only what waits for the recorder. -/
theorem only_reserved (v : Nat) : (Prog.when (v % 4 == 3) [raise 3]).Only (Eff.adds noKeys [.occs]) :=
  only_when ⟨adds_part (p := .occs) (fun _ => rfl) rfl rfl (by decide), trivial⟩

section
variable {d : Dev} (hd : d.Canonical) (v : Nat)
include hd

theorem takeStraps_same {x : Part} (hx : x ≠ .occs) : x.same (release.run (d.after (strapEffs v))) ((takeStraps v).run d) :=
  (only_reserved v).same (run_canonical _ (after_canonical _ hd)).objs (by simpa using hx)

theorem takeStraps_num : ((takeStraps v).run d).num .rstStraps = v := by
  have hw := after_canonical (strapEffs v) hd
  rw [takeStraps_run, (only_reserved v).num (run_canonical _ hw).objs rfl, only_release.num hw.objs strapKeys_straps]
  exact Dev.num_put hd.objs _ _ _ _

theorem takeStraps_straps : ((takeStraps v).run d).pins.straps = [] := by
  have h : ((takeStraps v).run d).pins = _ := takeStraps_same hd v (x := .pins) (by decide)
  rw [h, release_straps (after_canonical _ hd)]
  rfl

theorem takeStraps_href : ((takeStraps v).run d).pins.href = d.pins.href := by
  have h : ((takeStraps v).run d).pins = _ := takeStraps_same hd v (x := .pins) (by decide)
  rw [h, release_href (after_canonical _ hd)]
  rfl

variable {v} (h : (d.after (strapEffs v)).releases = true)
include h

theorem takeStraps_releases : ((takeStraps v).run d).clk.devReset = false ∧ ((takeStraps v).run d).raisedEvent 1 0 noInst ∧
    ((takeStraps v).run d).pins = { d.pins with straps := [], pwrreqN := false } := by
  have hw := after_canonical (strapEffs v) hd
  have hc : ((takeStraps v).run d).clk = _ := takeStraps_same hd v (x := .clk) (by decide)
  have hp : ((takeStraps v).run d).pins = _ := takeStraps_same hd v (x := .pins) (by decide)
  rw [hc, hp, release_clk hw h, release_pins hw h]
  exact ⟨rfl, (only_reserved v).raisedEvent (release_raises h), rfl⟩

end

/-! ## The commands of straps and releases -/

theorem exec_porstRelease {b : Bool} {ps : List (BitVec 8 × BitVec 8)} {s : State} :
    exec (.porstRelease b ps) s = execPorstRelease b ps s := rfl
theorem exec_strapUnstable (s : State) : exec .strapUnstable s = execStrapUnstable s := rfl
theorem exec_supplyFailureRelease (s : State) : exec .supplyFailureRelease s = execSupplyFailureRelease s := rfl
theorem exec_coreWatchdogResetRelease (s : State) : exec .coreWatchdogResetRelease s = execCoreWatchdogResetRelease s := rfl
theorem exec_instanceResetRelease (k n : BitVec 8) (s : State) :
    exec (.instanceResetRelease k n) s = execInstanceResetRelease k n s := rfl
theorem exec_crossingOpen (k n : BitVec 8) (s : State) : exec (.crossingOpen k n) s = execCrossingOpen k n s := rfl
theorem exec_hrefLoss (s : State) : exec .hrefLoss s = execHrefLoss s := rfl

/-- The judging of samples whose first agreeing pair is known. -/
theorem judgeStraps_takes {d : Dev} {v : Nat × Nat} (hp : d.pins.porstN = true) (hh : d.pins.href = true)
    (hf : d.pins.straps.find? (fun p => p.1 == p.2) = some v) : judgeStraps.run d = (takeStraps v.1).run d := by
  simp only [judgeStraps, Prog.run_ask, hp, hh, hf, Bool.and_self, Prog.when_true, Prog.run_all_cons, Prog.all_nil, Prog.run_skip]

theorem judgeStraps_waits {d : Dev} (h : d.pins.href = false ∨ d.pins.straps.find? (fun p => p.1 == p.2) = none) :
    judgeStraps.run d = d := by
  rw [judgeStraps, Prog.run_ask]
  rcases h with h | h
  · rw [h, Bool.and_false, Prog.when_false, Prog.run_skip]
  · cases d.pins.porstN && d.pins.href
    · rfl
    · rw [h]
      rfl

/-- The pairs of samples as the pins hold them. -/
def sampled (ps : List (BitVec 8 × BitVec 8)) : List (Nat × Nat) := ps.map fun x => (x.1.toNat, x.2.toNat)

/-- The first agreeing pair of the samples is that of the pairs. -/
theorem find_sampled (ps : List (BitVec 8 × BitVec 8)) : (sampled ps).find? (fun p => p.1 == p.2) =
    (ps.find? fun x => x.1 == x.2).map fun x => (x.1.toNat, x.2.toNat) := by
  have hp : ((fun p : Nat × Nat => p.1 == p.2) ∘ fun x : BitVec 8 × BitVec 8 => (x.1.toNat, x.2.toNat)) = fun x => x.1 == x.2 := by
    funext x
    rw [Function.comp_apply, Bool.eq_iff_iff, beq_iff_eq, beq_iff_eq, BitVec.toNat_inj]
  rw [sampled, List.find?_map, hp]

/-- PORST_N rises with the samples of the straps. -/
def porstHigh (b : Bool) (ps : List (BitVec 8 × BitVec 8)) : Eff :=
  .pins fun p => { p with porstN := true, href := b, aonOn := b, straps := sampled ps }

section
variable {s : State}

theorem porstRelease_runs {b : Bool} {ps : List (BitVec 8 × BitVec 8)} (hl : ps.length = 8) (hp : s.dev.pins.porstN = false) :
    exec (.porstRelease b ps) s = .next { s with dev := judgeStraps.run ((porstHigh b ps).apply s.dev) } := by
  rw [exec_porstRelease, execPorstRelease, beq_iff_eq.mpr hl]
  simp only [State.runIf, if_true, Prog.run_ask, hp, Bool.not_false, Prog.when_true]
  rfl

/-- HREF, where it was still, starts: the AON clock's first edge. -/
def hrefUp : Eff := .pins fun p => { p with href := true, aonOn := true }

theorem hrefStarts_idle {d : Dev} (hh : d.pins.href = true) : hrefStarts.run d = d := by
  rw [hrefStarts, Prog.run_ask, hh, Bool.not_true, Bool.and_false, Bool.false_and]
  rfl

theorem hrefStarts_judges {d : Dev} (hp : d.pins.porstN = true) (hh : d.pins.href = false) (hl : d.clk.hrefLost = false) :
    hrefStarts.run d = judgeStraps.run (hrefUp.apply d) := by
  rw [hrefStarts, Prog.run_ask, hp, hh, hl]
  rfl

/-- The second sample of the eighth pair is taken. -/
theorem strapUnstable_takes {p : Nat × Nat} (hp : s.dev.pins.porstN = true) (hh : s.dev.pins.href = true)
    (hl : s.dev.pins.straps.getLast? = some p) : exec .strapUnstable s =
      .next { s with dev := ((takeStraps p.2).run s.dev).after [.obj .rstStrapUnstable 0 0 (.num 1), .raise 4 0 noInst 0 0] } := by
  rw [exec_strapUnstable, execStrapUnstable, State.run_eq, Prog.run_seq, hrefStarts_idle hh, Prog.run_ask, hl]
  simp only [hp, hh, Bool.and_self, Prog.when_true]
  rfl

/-- HREF starts only now and a pair agrees: its value is accepted, and no sample is left to be unstable. -/
theorem strapUnstable_starts {v : Nat × Nat} (hs : s.Inv) (hp : s.dev.pins.porstN = true) (hh : s.dev.pins.href = false)
    (hl : s.dev.clk.hrefLost = false) (hf : s.dev.pins.straps.find? (fun p => p.1 == p.2) = some v) : exec .strapUnstable s =
      .next { s with dev := (takeStraps v.1).run (hrefUp.apply s.dev) } := by
  have hd := Eff.apply_canonical hrefUp _ hs.1
  rw [exec_strapUnstable, execStrapUnstable, State.run_eq, Prog.run_seq, hrefStarts_judges hp hh hl,
    judgeStraps_takes (d := hrefUp.apply s.dev) hp rfl hf, Prog.run_ask, takeStraps_straps hd]
  rfl

/-- PG_CORE is back. -/
def supplyBackEffs : List Eff := [.pins fun p => { p with pgCore := true }, .clk fun c => { c with supplyHeld := false }]

theorem supplyFailureRelease_runs (h : s.dev.clk.supplyHeld = true) (hh : s.dev.pins.href = true) (hl : s.dev.clk.hrefLost = false) :
    exec .supplyFailureRelease s = .next { s with dev := release.run (s.dev.after supplyBackEffs) } := by
  rw [exec_supplyFailureRelease, execSupplyFailureRelease, State.run_eq, Prog.run_ask, h, hh, hl]
  rfl

theorem supplyFailureRelease_idle (h : s.dev.pins.href = false ∨ s.dev.clk.hrefLost = true) :
    exec .supplyFailureRelease s = .next s := by
  have hc : (s.dev.clk.supplyHeld && s.dev.pins.href && !s.dev.clk.hrefLost) = false := by
    rcases h with h | h <;> simp [h]
  rw [exec_supplyFailureRelease, execSupplyFailureRelease, State.run_eq, Prog.run_ask, hc]
  rfl

theorem coreWatchdogResetRelease_runs (h : s.dev.clk.coreReset = true) : exec .coreWatchdogResetRelease s =
    .next (s.after [.clk fun c => { c with coreReset := false }, .clk (Clk.gatesClosed [1]), .raise 1 0 noInst (s.dev.num .rstCause) 0]) := by
  rw [exec_coreWatchdogResetRelease, execCoreWatchdogResetRelease, State.run_eq, Prog.run_ask, h]
  rfl

theorem crossingOpen_opens {k n : BitVec 8} (h : s.dev.sidesUp (k.toNat * 256 + n.toNat) = true) : exec (.crossingOpen k n) s =
    .next (s.after [.clk fun c => { c with closed := c.closed.erase (k.toNat * 256 + n.toNat) }]) := by
  rw [exec_crossingOpen, execCrossingOpen, State.run_eq, Prog.run_ask, h]
  rfl

theorem crossingOpen_idle {k n : BitVec 8} (h : s.dev.sidesUp (k.toNat * 256 + n.toNat) = false) :
    exec (.crossingOpen k n) s = .next s := by
  rw [exec_crossingOpen, execCrossingOpen, State.run_eq, Prog.run_ask, h]
  rfl

theorem hrefLoss_cuts (hq : s.dev.num .pwrState < 3) (hp : s.dev.pins.porstN = true) : exec .hrefLoss s = .next (s.after
    ([.pins fun p => { p with href := false, aonOn := false }, .clk fun c => { c with hrefLost := true }] ++
      (List.range 4).map fun n => .fch n fun c => { c with burstOn := false, onAir := none })) := by
  rw [exec_hrefLoss, execHrefLoss, State.run_eq, Prog.run_ask, decide_eq_true hq, hp]
  rfl

end

/-! ## The end of a reset by RST_INSTANCE (R95) -/

/-- The parts that INSTANCE_RESET_RELEASE may change beside the clocks. -/
def restartParts : List Part := [.occs, .fch, .tm, .keys, .free]

/-- Effects of a fibre complex or a DRAM channel that leaves reset. -/
abbrev Eff.restarts : Eff → Prop := Eff.adds (fun _ => true) restartParts

theorem restarts_obj (o : Obj) (i j : Nat) (v : Val) : (Eff.obj o i j v).restarts := adds_obj.mpr rfl
theorem restarts_count (o : Obj) (i j n : Nat) : (Eff.count o i j n).restarts := adds_count.mpr rfl
theorem restarts_raise (src code inst a0 a1 : Nat) : (Eff.raise src code inst a0 a1).restarts :=
  adds_part (p := .occs) (fun _ => rfl) rfl rfl (by decide)
theorem restarts_fch (n : Nat) (f : Fch → Fch) : (Eff.fch n f).restarts := adds_part (p := .fch) (fun _ => rfl) rfl rfl (by decide)
theorem restarts_tm (f : Tm → Tm) : (Eff.tm f).restarts := adds_part (p := .tm) (fun _ => rfl) rfl rfl (by decide)
theorem restarts_key (k : Nat) (b : List Byte) : (Eff.key k b).restarts := adds_part (p := .keys) (fun _ => rfl) rfl rfl (by decide)
theorem restarts_draw : Eff.draw.restarts := adds_part (p := .free) (fun _ => rfl) rfl rfl (by decide)

theorem only_poolCheck : poolCheck.Only Eff.restarts := fun _ =>
  ⟨only_when ⟨restarts_raise _ _ _ _ _, restarts_tm _, trivial⟩, only_when ⟨restarts_tm _, trivial⟩, trivial⟩

theorem only_flushPort (p reason : Nat) : (flushPort p reason).Only Eff.restarts := fun _ =>
  only_each fun _ _ => ⟨only_each fun _ => ⟨restarts_count _ _ _ _, restarts_tm _, trivial⟩, restarts_tm _, only_poolCheck, trivial⟩

theorem only_setSync (b : Bool) : (setSync b).Only Eff.restarts := fun _ =>
  only_when ⟨fun _ => restarts_obj _ _ _ _, restarts_raise _ _ _ _ _, trivial⟩

theorem only_actTo (n new cause : Nat) : (actTo n new cause).Only Eff.restarts := fun _ =>
  only_when ⟨restarts_obj _ _ _ _, restarts_raise _ _ _ _ _,
    only_when ⟨restarts_fch _ _, only_when ⟨only_setSync false, trivial⟩, trivial⟩,
    only_when ⟨only_flushPort _ _, trivial⟩, trivial⟩

theorem only_dramTo (c new cause : Nat) : (dramTo c new cause).Only Eff.restarts := fun _ =>
  only_when ⟨restarts_obj _ _ _ _, restarts_raise _ _ _ _ _, trivial⟩

theorem only_dramTrain (c : Nat) : (dramTrain c).Only Eff.restarts := fun d => by
  dsimp only
  split
  · exact ⟨only_when ⟨restarts_obj _ _ _ _, trivial⟩, only_dramTo _ _ _, restarts_obj _ _ _ _, restarts_obj _ _ _ _, trivial⟩
  · exact ⟨restarts_key _ _, restarts_draw, only_dramTo _ _ _, trivial⟩

theorem only_restartInstance (kind n : Nat) : (restartInstance kind n).Only Eff.restarts := fun d => by
  dsimp only
  split
  · exact only_when ⟨restarts_obj _ _ _ _, only_when ⟨only_actTo _ _ _, trivial⟩, trivial⟩
  · split
    · exact only_when ⟨only_dramTrain n, trivial⟩
    · trivial

theorem restartInstance_other {kind n : Nat} (h1 : kind ≠ 1) (h3 : kind ≠ 3) (d : Dev) : (restartInstance kind n).run d = d := by
  rw [restartInstance, Prog.run_ask, if_neg h1, if_neg h3, Prog.run_skip]

/-- An effect on other parts leaves resets, gates and crossings, also where the stores are not canonical. -/
theorem Eff.apply_clk {e : Eff} (h : Part.clk ∉ e.parts) (d : Dev) : (e.apply d).clk = d.clk := by
  cases e
  case clk => exact absurd (List.mem_singleton.mpr rfl) h
  case wipe => exact absurd (by simp [Eff.parts]) h
  case arm => simp only [Eff.apply]; split <;> rfl
  all_goals rfl

theorem Prog.Only.clk {ks : Nat → Bool} {ps : List Part} (hps : Part.clk ∉ ps) :
    ∀ {p : Prog}, p.Only (Eff.adds ks ps) → ∀ d : Dev, (p.run d).clk = d.clk
  | .skip, _, _ => rfl
  | .eff _, h, d => Eff.apply_clk (fun hc => hps (h.2.1 _ hc)) d
  | .seq _ _, h, _ => (h.2.clk hps _).trans (h.1.clk hps _)
  | .ask _, h, d => (h d).clk hps d

theorem restartInstance_clk (kind n : Nat) (d : Dev) : ((restartInstance kind n).run d).clk = d.clk :=
  (only_restartInstance kind n).clk (by decide) d

/-- What RST_INSTANCE reset is out of reset, and its gates are closed again. -/
def instanceOutEffs (k n : Nat) : List Eff :=
  [.clk fun c => { c with insts := c.insts.erase (k * 256 + n) }, .clk (Clk.gatesClosed (domainsOfInst k n))]

theorem instanceResetRelease_runs {s : State} {k n : BitVec 8} (h : s.dev.clk.insts.contains (k.toNat * 256 + n.toNat) = true) :
    exec (.instanceResetRelease k n) s =
      .next { s with dev := (restartInstance k.toNat n.toNat).run (s.dev.after (instanceOutEffs k.toNat n.toNat)) } := by
  rw [exec_instanceResetRelease, execInstanceResetRelease, State.run_eq, Prog.run_ask, h]
  rfl

/-- Settles O9: the straps through `takeStraps` and the release of the reset; INSTANCE_RESET_RELEASE
through what the restart leaves alone. -/
theorem resetsEnd : Obligations.ResetsEnd := by
  refine ⟨fun s ps v hs hl hf hp hr hsup hlost => ?_, fun s b ps hl hp hw => ?_, fun s v w hs hp hh hl => ?_,
    fun s v hs hp hh hl hf => ?_, fun s hs hsup hr hp hh hl hst => ?_, fun s _ h => supplyFailureRelease_idle h,
    fun s => coreWatchdogResetRelease_runs, fun s k n h => ⟨?_, fun h1 h3 => ?_⟩,
    fun s k n => ⟨crossingOpen_opens, crossingOpen_idle⟩, fun _ _ => rfl, fun s => hrefLoss_cuts⟩
  · have hd := Eff.apply_canonical (porstHigh true ps) _ hs.1
    have hs' : ((porstHigh true ps).apply s.dev).pins.straps.find? (fun p => p.1 == p.2) = some (v.toNat, v.toNat) :=
      (find_sampled ps).trans (by rw [hf]; rfl)
    have hrel : (((porstHigh true ps).apply s.dev).after (strapEffs v.toNat)).releases = true := by
      change (s.dev.clk.devReset && true && true && true && !s.dev.clk.supplyHeld && !s.dev.clk.hrefLost) = true
      rw [hr, hsup, hlost]
      rfl
    obtain ⟨hclk, h1, hpins⟩ := takeStraps_releases hd hrel
    refine ⟨_, porstRelease_runs hl hp, rfl, ?_⟩
    rw [judgeStraps_takes (d := (porstHigh true ps).apply s.dev) rfl rfl hs']
    exact ⟨hpins, takeStraps_num hd _, hclk, h1, takeStraps_reserved _⟩
  · have hw' : ((porstHigh b ps).apply s.dev).pins.href = false ∨
        ((porstHigh b ps).apply s.dev).pins.straps.find? (fun p => p.1 == p.2) = none :=
      hw.imp_right fun h => (find_sampled ps).trans (by rw [h]; rfl)
    rw [porstRelease_runs hl hp, judgeStraps_waits hw']
    rfl
  · have hw := run_canonical (takeStraps w) hs.1
    refine ⟨_, strapUnstable_takes hp hh hl, rfl, ?_, ?_, takeStraps_straps hs.1 w, raisedEvent_raise _ _ _ _ _ _⟩
    · exact (congrArg Val.n (Dev.get_put_other hw.objs (.num 1) (by decide))).trans (takeStraps_num hs.1 w)
    · exact Dev.num_put hw.objs _ _ _ _
  · have hd := Eff.apply_canonical hrefUp _ hs.1
    exact ⟨_, strapUnstable_starts hs hp hh hl hf, rfl, takeStraps_num hd v, takeStraps_href hd v, takeStraps_straps hd v⟩
  · have hd := after_canonical supplyBackEffs hs.1
    have hrel : (s.dev.after supplyBackEffs).releases = true := by
      change (s.dev.clk.devReset && s.dev.pins.porstN && s.dev.pins.href && s.dev.pins.straps.isEmpty && true && !s.dev.clk.hrefLost) = true
      rw [hr, hp, hh, hst, hl]
      rfl
    exact ⟨_, supplyFailureRelease_runs hsup hh hl, rfl, release_clk hd hrel, release_pins hd hrel, release_raises hrel⟩
  · exact ⟨_, instanceResetRelease_runs h, rfl, restartInstance_clk _ _ _⟩
  · rw [instanceResetRelease_runs h, restartInstance_other h1 h3]
    rfl

end Sys2Proof.Machine
end

section
/-!
PROOFS that OTP only grows (O6).
-/
namespace Sys2Proof.Machine

/-! ## Burned bits -/

theorem bitOf_eq_testBit (v i : Nat) : bitOf v i = v.testBit i := by
  rw [bitOf, Nat.testBit_eq_decide_div_mod_eq]
  rfl

/-- A bit set in a value is set in whatever the value is joined with. -/
theorem bitOf_lor {v i : Nat} (h : bitOf v i = true) (m : Nat) : bitOf (v ||| m) i = true := by
  rw [bitOf_eq_testBit] at h ⊢
  rw [Nat.testBit_or, h, Bool.true_or]

/-- Every bit of OTP burned in the first device is burned in the second. -/
def Dev.otpKept (d t : Dev) : Prop := ∀ i, bitOf d.otp i = true → bitOf t.otp i = true

/-- One effect writes OTP and it adds bits; a wipe, whatever its occasion, leaves OTP as it is (Table 3.6). -/
theorem Eff.otpKept (e : Eff) (d : Dev) : d.otpKept (e.apply d) := by
  cases e
  case burn m => exact fun _ h => bitOf_lor h m
  case wipe w => exact fun _ h => h
  case arm a =>
    simp only [Eff.apply]
    split <;> exact fun _ h => h
  all_goals exact fun _ h => h

theorem Ran.otpKept {s t : State} (h : Ran s t) : s.dev.otpKept t.dev := by
  obtain ⟨p, rfl⟩ := h
  exact Prog.run_keeps (R := Dev.otpKept) (fun _ _ h => h) (fun _ _ _ f g i h => g i (f i h)) Eff.otpKept p s.dev

/-- Settles O6: a step idles or runs a program of effects, and no effect clears a bit of OTP. -/
theorem otpOnlyGrows : Obligations.OtpOnlyGrows := by
  intro s t h
  unfold step at h
  split at h
  · cases h
    exact fun _ hb => hb
  · exact (exec_ran h).otpKept

end Sys2Proof.Machine
end

section
/-!
PROOFS shared by what follows: what programs keep, counts in any store, and frames of the operations that commands share.
-/
namespace Sys2Proof.Machine

/-! ## What programs keep -/

/-- A property that every effect a program may run keeps is kept by the program. -/
theorem Prog.Only.keeps {P : Dev → Prop} : ∀ {p : Prog} {d : Dev}, p.Only (fun e => ∀ d, P d → P (e.apply d)) → P d → P (p.run d)
  | .skip, _, _, hd => hd
  | .eff _, _, h, hd => h _ hd
  | .seq _ _, _, h, hd => h.2.keeps (h.1.keeps hd)
  | .ask _, d, h, hd => (h d).keeps hd

section
variable {ok : Eff → Prop}

@[simp] theorem only_skip_iff : Prog.skip.Only ok ↔ True := Iff.rfl
@[simp] theorem only_eff_iff {e : Eff} : (Prog.eff e).Only ok ↔ ok e := Iff.rfl
@[simp] theorem only_seq_iff {p q : Prog} : (Prog.seq p q).Only ok ↔ p.Only ok ∧ q.Only ok := Iff.rfl
@[simp] theorem only_ask_iff {f : Dev → Prog} : (Prog.ask f).Only ok ↔ ∀ d, (f d).Only ok := Iff.rfl
@[simp] theorem only_all_nil_iff : (Prog.all []).Only ok ↔ True := Iff.rfl
@[simp] theorem only_all_cons_iff {p : Prog} {ps : List Prog} : (Prog.all (p :: ps)).Only ok ↔ p.Only ok ∧ (Prog.all ps).Only ok := Iff.rfl

@[simp] theorem only_when_iff {b : Bool} {ps : List Prog} : (Prog.when b ps).Only ok ↔ (b = true → (Prog.all ps).Only ok) := by
  cases b <;> simp

theorem only_all_iff {ps : List Prog} : (Prog.all ps).Only ok ↔ ∀ p ∈ ps, p.Only ok := by
  induction ps with
  | nil => simp
  | cons p r ih => simp [ih]

@[simp] theorem only_each_iff {α : Type} {xs : List α} {f : α → Prog} : (Prog.each xs f).Only ok ↔ ∀ x ∈ xs, (f x).Only ok := by
  simp [Prog.each, only_all_iff]

end

@[simp] theorem run_putN (o : Obj) (i j n : Nat) (d : Dev) : (putN o i j n).run d = (Eff.obj o i j (.num n)).apply d := rfl

theorem run_setFlag (o : Obj) (i j k : Nat) (b : Bool) (d : Dev) :
    (setFlag o i j k b).run d = (Eff.obj o i j (.num (putBit (d.num o i j) k b))).apply d := rfl

theorem after_append (d : Dev) (es fs : List Eff) : d.after (es ++ fs) = (d.after es).after fs := by
  simp [Dev.after]

/-- A program for each of a list of effects runs them in order. -/
theorem run_each_eff {α : Type} (xs : List α) (f : α → Eff) (d : Dev) :
    (Prog.each xs fun x => .eff (f x)).run d = d.after (xs.map f) := by
  induction xs generalizing d with
  | nil => rfl
  | cons x xs ih => exact ih _

/-- An object that no effect of a list writes keeps its value. -/
theorem after_get {es : List Eff} : ∀ {d : Dev}, SMap.wf none d.objs = true → ∀ {o : Obj} {i j : Nat},
    (es.any fun e => e.keys (o.key i j)) = false → (d.after es).get o i j = d.get o i j := by
  induction es with
  | nil => exact fun _ _ _ _ _ => rfl
  | cons e es ih =>
    intro d hd o i j h
    rw [List.any_cons, Bool.or_eq_false_iff] at h
    rw [Dev.after_cons, ih (e.objs_wf d hd) h.2, Dev.get, Dev.get, (e.only d hd).1 _ h.1]

theorem after_num {es : List Eff} {d : Dev} (hd : SMap.wf none d.objs = true) {o : Obj} {i j : Nat}
    (h : (es.any fun e => e.keys (o.key i j)) = false) : (d.after es).num o i j = d.num o i j := congrArg Val.n (after_get hd h)

theorem live_run {d : Dev} (ha : d.answers = true) (p : Prog) : (live p).run d = p.run d := by
  simp [live, ha]

theorem live_idle {d : Dev} (ha : d.answers = false) (p : Prog) : (live p).run d = d := by
  simp [live, ha]

/-! ## Counts in any store -/

/-- A value that is listed takes no entry away, so that other keys read as before, also where the keys do not rise. -/
theorem SMap.get_put_listed {α : Type} [DecidableEq α] {d v : α} {i j : Nat} (hv : v ≠ d) (h : j ≠ i) :
    ∀ m : SMap α, SMap.get d (SMap.put d i v m) j = SMap.get d m j
  | [] => by
    simp only [SMap.put, if_neg hv, SMap.get, if_neg (Ne.symm h)]
    split <;> rfl
  | (k, w) :: r => by
    have ih := SMap.get_put_listed hv h r
    rcases lt_trichotomy k i with hk | hk | hk
    · simp only [SMap.put, if_pos hk, SMap.get, ih]
    · subst hk
      simp only [SMap.put, lt_irrefl, if_false, if_true, if_neg hv, SMap.get, if_neg (Ne.symm h)]
    · simp only [SMap.put, if_neg (Nat.not_lt.mpr hk.le), if_neg hk.ne', if_neg hv, SMap.get, if_neg (Ne.symm h)]
      rcases lt_or_gt_of_ne h with hj | hj
      · simp only [if_pos hj, if_neg (hj.trans hk).ne', if_pos (hj.trans hk)]
      · simp only [if_neg (Nat.not_lt.mpr hj.le)]

/-- A count of a counter that starts at 0 leaves every other object, in any store. -/
theorem get_count_other {d : Dev} {o x : Obj} {i j k l n : Nat} (h0 : o.dflt i j = .num 0) (hw : 0 < o.width) (hn : 0 < n)
    (hk : x.key k l ≠ o.key i j) : ((Eff.count o i j n).apply d).get x k l = d.get x k l := by
  have hp : 1 < 2 ^ o.width := Nat.one_lt_two_pow hw.ne'
  have hs : Val.num (satAdd o.width (d.num o i j) n) ≠ o.dflt i j := by
    rw [h0, Ne, Val.num.injEq, satAdd]
    omega
  simp only [Dev.get, Eff.apply, Dev.put, if_neg hs, SMap.get_put_listed (Option.some_ne_none _) hk]

/-- Whether the device answers depends on its clocks and its power state alone. -/
theorem answers_congr {d e : Dev} (hr : e.clk.devReset = d.clk.devReset) (hl : e.clk.hrefLost = d.clk.hrefLost)
    (hp : e.num .pwrState = d.num .pwrState) : e.answers = d.answers := by
  simp only [Dev.answers, hr, hl, hp]

theorem answers_iff {d : Dev} : d.answers = true ↔ d.clk.devReset = false ∧ d.clk.hrefLost = false ∧ d.num .pwrState < 3 := by
  simp [Dev.answers, and_assoc]

/-! ## Effects on one part -/

section
variable {ks : Nat → Bool} {ps : List Part}

theorem adds_raise (h : .occs ∈ ps) (src code inst a0 a1 : Nat) : (Eff.raise src code inst a0 a1).adds ks ps :=
  adds_part (p := .occs) (fun _ => rfl) rfl rfl h
theorem adds_fch (h : .fch ∈ ps) (n : Nat) (f : Fch → Fch) : (Eff.fch n f).adds ks ps := adds_part (p := .fch) (fun _ => rfl) rfl rfl h
theorem adds_clk (h : .clk ∈ ps) (f : Clk → Clk) : (Eff.clk f).adds ks ps := adds_part (p := .clk) (fun _ => rfl) rfl rfl h
theorem adds_pwr (h : .pwr ∈ ps) (f : Pwr → Pwr) : (Eff.pwr f).adds ks ps := adds_part (p := .pwr) (fun _ => rfl) rfl rfl h
theorem adds_tim (h : .tim ∈ ps) (f : TimeSt → TimeSt) : (Eff.tim f).adds ks ps := adds_part (p := .tim) (fun _ => rfl) rfl rfl h
theorem adds_tm (h : .tm ∈ ps) (f : Tm → Tm) : (Eff.tm f).adds ks ps := adds_part (p := .tm) (fun _ => rfl) rfl rfl h
theorem adds_out (h : .outs ∈ ps) (x : Out) : (Eff.out x).adds ks ps := adds_part (p := .outs) (fun _ => rfl) rfl rfl h
theorem adds_fn (h : .fns ∈ ps) (k : Nat) (f : Fn → Fn) : (Eff.fn k f).adds ks ps := adds_part (p := .fns) (fun _ => rfl) rfl rfl h

/-- A wider frame. -/
theorem Eff.adds.mono {ks' : Nat → Bool} {ps' : List Part} {e : Eff} (h : e.adds ks ps) (hk : ∀ k, ks k = true → ks' k = true)
    (hp : ∀ x ∈ ps, x ∈ ps') : e.adds ks' ps' := ⟨fun k he => hk k (h.1 k he), fun x hx => hp x (h.2.1 x hx), h.2.2⟩

/-! ## Frames of shared operations -/

theorem setSync_adds (ht : ks (Obj.timeStatus.key 0 0) = true) (ho : .occs ∈ ps) (b : Bool) : (setSync b).Only (Eff.adds ks ps) :=
  fun _ => only_when ⟨fun _ => adds_obj.mpr ht, adds_raise ho _ _ _ _ _, trivial⟩

/-- The keys of the timing PLL's objects. -/
def timingKeys : Nat → Bool := keysOf [(.clkTimingState, 0, 0), (.clkHrefOffset, 0, 0), (.clkTimingChannel, 0, 0), (.timeStatus, 0, 0)]

theorem timingTo_adds (new : Nat) : (timingTo new).Only (Eff.adds timingKeys ps) :=
  ⟨adds_obj.mpr (by decide), only_when ⟨adds_obj.mpr (by decide), trivial⟩, trivial⟩

theorem timingFallback_adds (ho : .occs ∈ ps) : timingFallback.Only (Eff.adds timingKeys ps) := fun d => by
  dsimp only
  split
  · exact only_when ⟨adds_obj.mpr (by decide), timingTo_adds 1, adds_raise ho _ _ _ _ _, trivial⟩
  · trivial

theorem timingHold_adds (hc : .clk ∈ ps) (t : Nat) : (timingHold t).Only (Eff.adds timingKeys ps) :=
  ⟨fun _ => adds_clk hc _, timingTo_adds 3, trivial⟩

theorem timingLost_adds (ho : .occs ∈ ps) (hc : .clk ∈ ps) (t : Nat) : (timingLost t).Only (Eff.adds timingKeys ps) :=
  ⟨timingHold_adds hc t, setSync_adds (by decide) ho false, timingFallback_adds ho, trivial⟩

end

end Sys2Proof.Machine
end

section
/-!
PROOFS of the clock sources and the crossings' monitors (O10).
-/
namespace Sys2Proof.Machine

/-! ## Loss and lock of a recovered reference (R80 to R83, R85) -/

theorem exec_recoveredRefLoss (n : Fin 4) (s : State) : exec (.recoveredRefLoss n) s = execRecoveredRefLoss n s := rfl
theorem exec_pllLocked (n : Fin 5) (s : State) : exec (.pllLocked n) s = execPllLocked n s := rfl
theorem exec_hrefOffsetAlarm (v : BitVec 32) (s : State) : exec (.hrefOffsetAlarm v) s = execHrefOffsetAlarm v s := rfl
theorem exec_xingResampleFailure (x : BitVec 8) (l : List (BitVec 32 × BitVec 32)) (s : State) :
    exec (.xingResampleFailure x l) s = execXingResampleFailure x l s := rfl
theorem exec_coreWatchdogExpiry (lost : BitVec 32) (s : State) :
    exec (.coreWatchdogExpiry lost) s = execCoreWatchdogExpiry lost s := rfl
theorem exec_crossingTimeout (x : XTimeout) (s : State) : exec (.crossingTimeout x) s = execCrossingTimeout x s := rfl

/-- The objects that a move between Operating, Holding and Ranging writes. -/
def holdKeys (n : Nat) : Nat → Bool := keysOf [(.actState, n, 0), (.timeStatus, 0, 0)]

theorem timingKeys_fchState (n : Fin 4) : timingKeys (Obj.clkFchState.key 0 n.val) = false := by revert n; decide
theorem holdKeys_fchState (n : Fin 4) : holdKeys n.val (Obj.clkFchState.key 0 n.val) = false := by revert n; decide
theorem holdKeys_actState (n : Nat) : holdKeys n (Obj.actState.key n 0) = true := by simp [holdKeys, keysOf]
theorem holdKeys_timeStatus (n : Nat) : holdKeys n (Obj.timeStatus.key 0 0) = true := by simp [holdKeys, keysOf]

/-- States that keep the queues of the port node (R479). -/
def keepsQueues (new : Nat) : Prop := (new == 0 || new == 1 || new == 6) = false

/-- What of a channel a change of the activation state leaves, whether or not it cuts a burst. -/
def Fch.sameButBurst (c x : Fch) : Prop := x = c ∨ x = { c with burstOn := false, onAir := .none, bursts := [] }

section
variable {d : Dev} (hd : d.Canonical)
include hd

theorem ch_fch (n : Nat) (f : Fch → Fch) : ((Eff.fch n f).apply d).ch n = f (d.ch n) := SMap.get_put_same (b := 0) _ _ _ hd.fch

omit hd in
theorem setSync_ch (b : Bool) (n : Nat) : ((setSync b).run d).ch n = d.ch n := by
  simp only [setSync, Prog.run_ask]
  cases d.synced != b <;> rfl

theorem actTo_ch {new : Nat} (hnew : keepsQueues new) (n cause : Nat) : (d.ch n).sameButBurst (((actTo n new cause).run d).ch n) := by
  have hc := after_canonical [.obj .actState n 0 (.num new),
    .raise (chEvt n 14) cause n (top8 (d.num .actState n) + new % 256 * 65536) 0] hd
  simp only [actTo, Prog.run_ask, show (new == 0 || new == 1 || new == 6) = false from hnew]
  cases d.num .actState n != new
  · exact .inl rfl
  · cases d.num .actState n == 4
    · exact .inl rfl
    · right
      cases d.num .timeSource == 0 && d.num .clkTimingChannel == n
      · exact ch_fch hc n _
      · exact (setSync_ch false n).trans (ch_fch hc n _)

end

section
variable {ps : List Part}

theorem actTo_adds (ho : .occs ∈ ps) (hf : .fch ∈ ps) {new : Nat} (hnew : keepsQueues new) (n cause : Nat) :
    (actTo n new cause).Only (Eff.adds (holdKeys n) ps) := fun d => by
  simp only [show (new == 0 || new == 1 || new == 6) = false from hnew]
  exact only_when ⟨adds_obj.mpr (holdKeys_actState n), adds_raise ho _ _ _ _ _,
    only_when ⟨adds_fch hf _ _, only_when ⟨setSync_adds (holdKeys_timeStatus n) ho false, trivial⟩, trivial⟩, trivial, trivial⟩

theorem toHolding_adds (ho : .occs ∈ ps) (hf : .fch ∈ ps) (n : Nat) : (toHolding n).Only (Eff.adds (holdKeys n) ps) :=
  fun _ => only_when ⟨actTo_adds ho hf (new := 5) rfl n 10, trivial⟩

theorem holdCheck_adds (ho : .occs ∈ ps) (hf : .fch ∈ ps) (n : Nat) : (holdCheck n).Only (Eff.adds (holdKeys n) ps) :=
  fun _ => only_when ⟨actTo_adds ho hf (new := 3) rfl n 12, adds_fch hf _ _, trivial⟩

end

section
variable {d : Dev} (hd : d.Canonical)
include hd

theorem toHolding_ch (n : Nat) : (d.ch n).sameButBurst (((toHolding n).run d).ch n) := by
  simp only [toHolding, Prog.run_ask]
  cases d.num .actState n == 4
  · exact .inl rfl
  · exact actTo_ch hd (new := 5) rfl n 10

theorem holdCheck_pll (n : Nat) : (((holdCheck n).run d).ch n).pll = (d.ch n).pll := by
  simp only [holdCheck, Prog.run_ask]
  cases d.num .actState n == 5 && d.num .frmAlignState n == 2 && d.num .clkFchState 0 n == 2
  · rfl
  · simp only [Prog.when_true, Prog.run_all_cons, Prog.all_nil, Prog.run_skip, Prog.run_eff]
    rw [ch_fch (run_canonical _ hd)]
    rcases actTo_ch hd (new := 3) rfl n 12 with h | h <;> rw [h]

end

/-- The burst is cut and the recovered reference is no longer valid. -/
def refCut (n : Nat) : Eff := .fch n fun c => { c with refValid := false, burstOn := false, onAir := none }

/-- The fibre PLL goes into Holdover. -/
def fibreHeld (d : Dev) (n : Nat) : Dev := d.after [refCut n, .obj .clkFchState 0 n (.num 3), .raise (8 + n) 0 n 0 0]

/-- The timing PLL follows, where it ran on the channel. -/
def timingFollows (d : Dev) (n : Nat) : Prog :=
  .when (d.num .clkTimingChannel == n && (d.num .clkTimingState == 1 || d.num .clkTimingState == 2)) [timingLost n]

/-- What the fibre PLL keeps in Holdover, and whether the channel must be ranged again (R82, R83). -/
def ratioKept (d : Dev) (n : Nat) : List Eff :=
  .fch n (fun c => { c with pll := holdRatio (d.num .clkFchState 0 n) c.pll c.ratios, ratios := [] }) ::
    if d.num .clkFchState 0 n = 2 then [.fch n fun c => { c with unranged := true, eqdTaken := false }] else []

theorem refLost_idle {d : Dev} {n : Nat} (h : d.num .clkFchState 0 n ≠ 1 ∧ d.num .clkFchState 0 n ≠ 2) :
    (refLost n).run d = (refCut n).apply d := by
  simp only [refLost, Prog.run_ask, beq_false_of_ne h.1, beq_false_of_ne h.2]
  rfl

theorem refLost_runs {d : Dev} {n : Nat} (h : d.num .clkFchState 0 n = 1 ∨ d.num .clkFchState 0 n = 2) :
    (refLost n).run d = (toHolding n).run (((timingFollows d n).run (fibreHeld d n)).after (ratioKept d n)) := by
  have hc : (d.num .clkFchState 0 n == 1 || d.num .clkFchState 0 n == 2) = true := by simpa using h
  simp only [refLost, Prog.run_ask, hc]
  by_cases h2 : d.num .clkFchState 0 n = 2
  · simp only [ratioKept, h2]
    rfl
  · simp only [ratioKept, if_neg h2, beq_false_of_ne h2]
    rfl

theorem timingFollows_adds (d : Dev) (n : Nat) : (timingFollows d n).Only (Eff.adds timingKeys [.occs, .clk]) :=
  only_when ⟨timingLost_adds (by decide) (by decide) n, trivial⟩

theorem ratioKept_adds (d : Dev) (n : Nat) : ∀ e ∈ ratioKept d n, e.adds (holdKeys n) [.occs, .fch] := by
  intro e he
  rcases List.mem_cons.mp he with rfl | he
  · exact adds_fch (by decide) _ _
  · split at he
    · obtain rfl := List.mem_singleton.mp he
      exact adds_fch (by decide) _ _
    · cases he

/-- Effects as a program. -/
def Prog.ofEffs (es : List Eff) : Prog := .each es .eff

theorem run_ofEffs (es : List Eff) (d : Dev) : (Prog.ofEffs es).run d = d.after es := by
  rw [Prog.ofEffs, run_each_eff es (fun e => e), List.map_id']

theorem ofEffs_only {ok : Eff → Prop} {es : List Eff} (h : ∀ e ∈ es, ok e) : (Prog.ofEffs es).Only ok :=
  only_all fun p hp => by
    obtain ⟨e, he, rfl⟩ := List.mem_map.mp hp
    exact h e he

section
variable {d : Dev} (hd : d.Canonical) (n : Fin 4) (h : d.num .clkFchState 0 n.val = 1 ∨ d.num .clkFchState 0 n.val = 2)
include hd

theorem fibreHeld_ch : (fibreHeld d n.val).ch n.val = { d.ch n.val with refValid := false, burstOn := false, onAir := none } := by
  change ((refCut n.val).apply d).ch n.val = _
  exact ch_fch hd _ _

theorem fibreHeld_state : (fibreHeld d n.val).num .clkFchState 0 n.val = 3 :=
  Dev.num_put (Eff.apply_canonical (refCut n.val) d hd).objs _ _ _ _

include h

/-- The channel after the loss: cut, on the ratio of R82, and from Locked to be ranged again. -/
theorem refLost_ch : Fch.sameButBurst
    { d.ch n.val with
      refValid := false, burstOn := false, onAir := none
      pll := holdRatio (d.num .clkFchState 0 n.val) (d.ch n.val).pll (d.ch n.val).ratios, ratios := []
      unranged := decide (d.num .clkFchState 0 n.val = 2) || (d.ch n.val).unranged
      eqdTaken := decide (d.num .clkFchState 0 n.val ≠ 2) && (d.ch n.val).eqdTaken }
    (((refLost n.val).run d).ch n.val) := by
  have hf : (fibreHeld d n.val).Canonical := after_canonical _ hd
  have ht := run_canonical (timingFollows d n.val) hf
  have hch : ((timingFollows d n.val).run (fibreHeld d n.val)).ch n.val = _ :=
    (congrArg (fun m => SMap.get Fch.none m n.val) ((timingFollows_adds d n.val).same hf.objs (x := .fch) (by decide))).trans
      (fibreHeld_ch hd n)
  have hk := toHolding_ch (after_canonical (ratioKept d n.val) ht) n.val
  rw [refLost_runs h]
  convert hk using 1
  by_cases h2 : d.num .clkFchState 0 n.val = 2
  · simp only [ratioKept, if_pos h2, Dev.after_cons, Dev.after_nil]
    rw [ch_fch (Eff.apply_canonical _ _ ht), ch_fch ht, hch]
    simp [h2]
  · simp only [ratioKept, if_neg h2, Dev.after_cons, Dev.after_nil]
    rw [ch_fch ht, hch]
    simp [h2]

theorem refLost_state : ((refLost n.val).run d).num .clkFchState 0 n.val = 3 := by
  have hf : (fibreHeld d n.val).Canonical := after_canonical _ hd
  have ht := run_canonical (timingFollows d n.val) hf
  rw [refLost_runs h, (toHolding_adds (ps := [.occs, .fch]) (by decide) (by decide) n.val).num (after_canonical _ ht).objs
    (holdKeys_fchState n), ← run_ofEffs, (ofEffs_only (ratioKept_adds d n.val)).num ht.objs (holdKeys_fchState n),
    (timingFollows_adds d n.val).num hf.objs (timingKeys_fchState n), fibreHeld_state hd]

omit hd in
theorem refLost_raises : ((refLost n.val).run d).raisedEvent (8 + n.val) 0 n.val := by
  rw [refLost_runs h, ← run_ofEffs]
  exact (toHolding_adds (ps := [.occs, .fch]) (by decide) (by decide) n.val).raisedEvent
    ((ofEffs_only (ratioKept_adds d n.val)).raisedEvent ((timingFollows_adds d n.val).raisedEvent (raisedEvent_raise _ _ _ _ _ _)))

end

/-! ## PLL_LOCKED and HREF_OFFSET_ALARM (R77, R80, R81) -/

/-- A fibre PLL that has reached its reference. -/
def fibreLocked (d : Dev) (n : Nat) : Dev :=
  d.after [.obj .clkFchState 0 n (.num 2), .fch n fun c => { c with pll := d.refOffset n }, .raise (12 + n) 0 n 0 0]

section
variable {s : State}

theorem pllLocked_fibre (ha : s.dev.answers = true) (n : Fin 5) (hn : n.val < 4) (h1 : s.dev.num .clkFchState 0 n.val = 1) :
    exec (.pllLocked n) s =
      .next { s with dev := (holdCheck n.val).run (timingFallback.run (fibreLocked s.dev n.val)) } := by
  simp only [exec_pllLocked, execPllLocked, State.run_eq, Prog.run_ask, if_neg hn.ne, ha, h1]
  rfl

theorem pllLocked_timing (ha : s.dev.answers = true) (h1 : s.dev.num .clkTimingState = 1) : exec (.pllLocked 4) s = .next (s.after
    [.obj .clkTimingState 0 0 (.num 2), .clk fun c => { c with timPll := s.dev.refOffset (s.dev.num .clkTimingChannel) }]) := by
  have h4 : (4 : Fin 5).val = 4 := rfl
  simp only [exec_pllLocked, execPllLocked, State.run_eq, Prog.run_ask, if_pos h4, ha, h1]
  rfl

theorem hrefOffsetAlarm_measures (ha : s.dev.answers = true) (h2 : s.dev.num .clkTimingState = 2) (v : BitVec 32) :
    exec (.hrefOffsetAlarm v) s = .next (s.after ([.obj .clkHrefOffset 0 0 (.num v.toNat)] ++
      if outside300 v.toNat = true ∧ outside300 (s.dev.num .clkHrefOffset) = false then [.raise 5 0 noInst 0 0] else [])) := by
  simp only [exec_hrefOffsetAlarm, execHrefOffsetAlarm, State.run_eq, Prog.run_ask, ha, h2]
  cases outside300 v.toNat <;> cases outside300 (s.dev.num .clkHrefOffset) <;> rfl

end

section
variable {d : Dev} (hd : d.Canonical) (n : Fin 4)
include hd

theorem fibreLocked_state : (fibreLocked d n.val).num .clkFchState 0 n.val = 2 := Dev.num_put hd.objs _ _ _ _

theorem fibreLocked_pll : ((fibreLocked d n.val).ch n.val).pll = d.refOffset n.val := by
  have h := ch_fch (Eff.apply_canonical (.obj .clkFchState 0 n.val (.num 2)) d hd) n.val fun c => { c with pll := d.refOffset n.val }
  exact congrArg Fch.pll h

/-- A PLL that has just locked stays so, whatever R89 and the end of Holding do. -/
theorem fibreLocked_settles : let t := (holdCheck n.val).run (timingFallback.run (fibreLocked d n.val))
    t.num .clkFchState 0 n.val = 2 ∧ (t.ch n.val).pll = d.refOffset n.val ∧ t.raisedEvent (12 + n.val) 0 n.val := by
  have hf : (fibreLocked d n.val).Canonical := after_canonical _ hd
  have ht := run_canonical timingFallback hf
  have hfall := timingFallback_adds (ps := [.occs]) (by decide)
  have hhold := holdCheck_adds (ps := [.occs, .fch]) (by decide) (by decide) n.val
  have hch : (timingFallback.run (fibreLocked d n.val)).ch n.val = (fibreLocked d n.val).ch n.val :=
    congrArg (fun m => SMap.get Fch.none m n.val) (hfall.same hf.objs (x := .fch) (by decide))
  refine ⟨?_, ?_, hhold.raisedEvent (hfall.raisedEvent (raisedEvent_raise _ _ _ _ _ _))⟩
  · rw [hhold.num ht.objs (holdKeys_fchState n), hfall.num hf.objs (timingKeys_fchState n), fibreLocked_state hd]
  · rw [holdCheck_pll ht, hch, fibreLocked_pll hd]

end

/-! ## Value crossings (R101) -/

/-- What a value crossing shows and how many pairs in a row have disagreed. -/
def crossed (x : Nat) (w : Nat × Nat) : Eff := .clk fun c => { c with values := SMap.put (0, 0) x w c.values }

section
variable {d : Dev} {x v r : Nat} (hv : SMap.get (0, 0) d.clk.values x = (v, r)) {p : Nat × Nat}
include hv

omit hv in
theorem samplePair_agrees (h : p.1 = p.2) : (samplePair x p).run d = (crossed x (p.1, 0)).apply d := by
  simp only [samplePair, Prog.run_ask, if_pos h]
  rfl

theorem samplePair_disagrees (h : p.1 ≠ p.2) (hr : r + 1 < 16) : (samplePair x p).run d = (crossed x (v, r + 1)).apply d := by
  simp only [samplePair, Prog.run_ask, if_neg h, hv, if_pos hr]
  rfl

theorem samplePair_fails (h : p.1 ≠ p.2) (hr : 16 ≤ r + 1) : (samplePair x p).run d =
    d.after [crossed x (v, 0), .count .xingResampleFailures 0 0 1] := by
  simp only [samplePair, Prog.run_ask, if_neg h, hv, if_neg (Nat.not_lt.mpr hr)]
  rfl

end

/-- A pair of samples leaves the device answering or silent. -/
theorem samplePair_answers (x : Nat) (p : Nat × Nat) (d : Dev) : ((samplePair x p).run d).answers = d.answers := by
  rcases hv : SMap.get (0, 0) d.clk.values x with ⟨v, r⟩
  by_cases hp : p.1 = p.2
  · rw [samplePair_agrees hp]
    rfl
  by_cases hr : r + 1 < 16
  · rw [samplePair_disagrees hv hp hr]
    rfl
  · rw [samplePair_fails hv hp (Nat.not_lt.mp hr)]
    exact answers_congr rfl rfl (congrArg Val.n (get_count_other (o := .xingResampleFailures) rfl (by decide) (by decide) (by decide)))

section
variable {s : State} (x : BitVec 8)

theorem xingResampleFailure_one (ha : s.dev.answers = true) (a b : BitVec 32) : exec (.xingResampleFailure x [(a, b)]) s =
    .next { s with dev := (samplePair x.toNat (a.toNat, b.toNat)).run s.dev } := by
  rw [exec_xingResampleFailure, execXingResampleFailure, run_live ha]
  rfl

/-- A list of pairs acts as its pairs one after another; a silent device does nothing at either. -/
theorem xingResampleFailure_cons (p : BitVec 32 × BitVec 32) (l : List (BitVec 32 × BitVec 32)) :
    ∃ t, exec (.xingResampleFailure x [p]) s = .next t ∧
      exec (.xingResampleFailure x (p :: l)) s = exec (.xingResampleFailure x l) t := by
  cases ha : s.dev.answers
  · refine ⟨s, ?_, ?_⟩ <;> simp only [exec_xingResampleFailure, execXingResampleFailure, run_live_unanswered ha]
  · refine ⟨_, xingResampleFailure_one x ha p.1 p.2, ?_⟩
    have ha' := (samplePair_answers x.toNat (p.1.toNat, p.2.toNat) s.dev).trans ha
    simp only [exec_xingResampleFailure, execXingResampleFailure]
    rw [run_live ha, run_live (s := { s with dev := (samplePair x.toNat (p.1.toNat, p.2.toNat)).run s.dev }) ha']
    rfl

end

/-! ## CORE_WATCHDOG_EXPIRY (R91, R92) -/

/-- What is lost with the dictionary server, but for the mailboxes. -/
def coreLossEffs (lost : Nat) : List Eff :=
  [.clk fun c => { c with coreReset := true, held := [] }, .clk (Clk.gatesOpened [1]),
    .clk fun c => { c with closed := if c.closed.contains 0x600 then c.closed else c.closed ++ [0x600] }] ++
  (if lost = 0 then [] else [.count .xingClosedDiscards 0 0 lost, .raise 16 0 noInst 0 0]) ++
  [.dropPaths fun _ => true, .bws fun _ => [], .bcs fun _ => [], .i2c fun _ => []]

/-- What the watchdog does once it has marked its cause, but for the mailboxes. -/
def coreStopEffs (lost : Nat) : List Eff := .raise 6 0 noInst 0 0 :: coreLossEffs lost

/-- No slot of a mailbox is busy any more. -/
def mailboxesFreed (d : Dev) : Prog := .each (d.fns.map (·.1)) fun k => .eff (.fn k fun y => { y with busy := 0 })

/-- The parts that the watchdog may change. -/
def coreParts : List Part := [.occs, .clk, .um, .bws, .bcs, .i2c, .fns]

/-- The objects that the watchdog may change. -/
def coreKeys : Nat → Bool := keysOf [(.rstCause, 0, 0), (.rstCauseSticky, 0, 0), (.xingClosedDiscards, 0, 0)]

theorem coreKeys_discards {k : Nat} (h : keysOf [(.xingClosedDiscards, 0, 0)] k = true) : coreKeys k = true := by
  simp only [coreKeys, keysOf, List.any_cons, List.any_nil, Bool.or_false] at h ⊢
  rw [h, Bool.or_true, Bool.or_true]

theorem markCause_adds : (markCause 6).Only (Eff.adds coreKeys coreParts) :=
  fun _ => ⟨adds_obj.mpr (by decide), adds_obj.mpr (by decide), trivial⟩

theorem coreLossEffs_adds (lost : Nat) : ∀ e ∈ coreLossEffs lost, e.adds (keysOf [(.xingClosedDiscards, 0, 0)]) coreParts := by
  have hc (f : Clk → Clk) : (Eff.clk f).adds (keysOf [(.xingClosedDiscards, 0, 0)]) coreParts := adds_clk (by decide) f
  have hr : (Eff.raise 16 0 noInst 0 0).adds (keysOf [(.xingClosedDiscards, 0, 0)]) coreParts := adds_raise (by decide) _ _ _ _ _
  have hlost : (Eff.count .xingClosedDiscards 0 0 lost).adds (keysOf [(.xingClosedDiscards, 0, 0)]) coreParts :=
    adds_count.mpr (by decide)
  have hs {e : Eff} {p : Part} (hk : ∀ k, e.keys k = false) (hp : e.parts = [p]) (ho : e.keepsOccs = true) (h : p ∈ coreParts) :
      e.adds (keysOf [(.xingClosedDiscards, 0, 0)]) coreParts := adds_part hk hp ho h
  have hu := hs (e := .dropPaths fun _ => true) (fun _ => rfl) rfl rfl (by decide)
  have hw := hs (e := .bws fun _ => []) (fun _ => rfl) rfl rfl (by decide)
  have hb := hs (e := .bcs fun _ => []) (fun _ => rfl) rfl rfl (by decide)
  have hi := hs (e := .i2c fun _ => []) (fun _ => rfl) rfl rfl (by decide)
  unfold coreLossEffs
  split <;> simp [hc, hr, hlost, hu, hw, hb, hi]

theorem coreStopEffs_adds (lost : Nat) : ∀ e ∈ coreStopEffs lost, e.adds (keysOf [(.xingClosedDiscards, 0, 0)]) coreParts :=
  List.forall_mem_cons.mpr ⟨adds_raise (by decide) _ _ _ _ _, coreLossEffs_adds lost⟩

theorem mailboxesFreed_adds {ks : Nat → Bool} {ps : List Part} (h : .fns ∈ ps) (d : Dev) : (mailboxesFreed d).Only (Eff.adds ks ps) :=
  only_each fun _ => adds_fn h _ _

theorem dropPaths_all (d : Dev) : ((Eff.dropPaths fun _ => true).apply d).um = [] := List.filter_false _

section
variable {s : State} (lost : BitVec 32)

/-- The device after CORE_WATCHDOG_EXPIRY. -/
def State.coreStopped (s : State) (lost : Nat) : Dev :=
  (mailboxesFreed s.dev).run (((markCause 6).run s.dev).after (coreStopEffs lost))

theorem coreWatchdogExpiry_runs (ha : s.dev.answers = true) (hc : s.dev.clk.coreReset = false) :
    exec (.coreWatchdogExpiry lost) s = .next { s with dev := s.coreStopped lost.toNat } := by
  simp only [exec_coreWatchdogExpiry, execCoreWatchdogExpiry, State.run_eq, Prog.run_ask, ha, hc]
  by_cases hl : lost.toNat = 0
  · simp only [State.coreStopped, coreStopEffs, coreLossEffs, hl]
    rfl
  · simp only [State.coreStopped, coreStopEffs, coreLossEffs, closeScope, bne_iff_ne.mpr hl, if_neg hl]
    rfl

variable (hs : s.Inv) (lost : Nat)
include hs

/-- Beside the objects and the functions, the device is as the effects before the mailboxes' leave it. -/
theorem coreStopped_same {x : Part} (hx : x ≠ .fns) :
    x.same (((markCause 6).run s.dev).after (coreStopEffs lost)) (s.coreStopped lost) :=
  (mailboxesFreed_adds (ks := noKeys) (ps := [.fns]) (by decide) s.dev).same (after_canonical _ (run_canonical _ hs.1)).objs
    (by simpa using hx)

theorem coreStopped_clk : (s.coreStopped lost).clk = { Clk.gatesOpened [1] { s.dev.clk with coreReset := true, held := [] } with
    closed := if s.dev.clk.closed.contains 0x600 then s.dev.clk.closed else s.dev.clk.closed ++ [0x600] } := by
  have h : (s.coreStopped lost).clk = _ := coreStopped_same hs lost (x := .clk) (by decide)
  rw [h]
  unfold coreStopEffs coreLossEffs
  split <;> rfl

theorem coreStopped_server : (s.coreStopped lost).um = [] ∧ (s.coreStopped lost).bws = [] ∧ (s.coreStopped lost).bcs = [] ∧
    (s.coreStopped lost).i2c = [] := by
  have hu : (s.coreStopped lost).um = _ := coreStopped_same hs lost (x := .um) (by decide)
  have hw : (s.coreStopped lost).bws = _ := coreStopped_same hs lost (x := .bws) (by decide)
  have hb : (s.coreStopped lost).bcs = _ := coreStopped_same hs lost (x := .bcs) (by decide)
  have hi : (s.coreStopped lost).i2c = _ := coreStopped_same hs lost (x := .i2c) (by decide)
  rw [hu, hw, hb, hi]
  unfold coreStopEffs coreLossEffs
  simp only [Dev.after_cons, after_append]
  exact ⟨dropPaths_all _, rfl, rfl, rfl⟩

theorem coreStopped_only : s.dev.only (keysOf [(.rstCause, 0, 0), (.rstCauseSticky, 0, 0), (.xingClosedDiscards, 0, 0)])
    [.occs, .clk, .um, .bws, .bcs, .i2c, .fns] (s.coreStopped lost) := by
  have h : (Prog.seq (.seq (markCause 6) (.ofEffs (coreStopEffs lost))) (mailboxesFreed s.dev)).Only (Eff.adds coreKeys coreParts) :=
    ⟨⟨markCause_adds, ofEffs_only fun e he => (coreStopEffs_adds lost e he).mono (fun _ => coreKeys_discards) fun _ hx => hx⟩,
      mailboxesFreed_adds (by decide) s.dev⟩
  have hrun := (h.within s.dev hs.1.objs).2
  rwa [Prog.run_seq, Prog.run_seq, run_ofEffs] at hrun

omit hs in
theorem coreStopped_raises : (s.coreStopped lost).raisedEvent 6 0 noInst := by
  refine (mailboxesFreed_adds (ks := noKeys) (ps := [.fns]) (by decide) s.dev).raisedEvent ?_
  rw [coreStopEffs, Dev.after_cons, ← run_ofEffs]
  exact (ofEffs_only (coreLossEffs_adds lost)).raisedEvent (raisedEvent_raise _ _ _ _ _ _)

theorem coreStopped_cause (ha : s.dev.answers = true) (hc : s.dev.clk.coreReset = false) :
    (s.coreStopped lost).num .rstCause = putBit (s.dev.num .rstCause &&& 2) 6 true := by
  have hkept : s.dev.causesKept = s.dev.num .rstCause &&& 2 := by
    simp only [Dev.causesKept, (answers_iff.mp ha).1, hc, Bool.or_self, Bool.false_eq_true, if_false]
  have hm : ((markCause 6).run s.dev).Canonical := run_canonical _ hs.1
  rw [State.coreStopped, (mailboxesFreed_adds (ks := noKeys) (ps := [.fns]) (by decide) s.dev).num (after_canonical _ hm).objs rfl,
    ← run_ofEffs, (ofEffs_only (coreStopEffs_adds lost)).num hm.objs (by decide), markCause_cause hs.1, hkept]

end

/-! ## CROSSING_TIMEOUT (R99, R105, Table 3.9) -/

/-- The effects of a transaction that has timed out. -/
def timedOutEffs : List Eff := [.count .xingTimeouts 0 0 1, .raise 17 0 noInst 0 0]

theorem timedOut_run (d : Dev) : timedOut.run d = d.after timedOutEffs := rfl

/-- A request that is not in progress arrives whatever the gates are. -/
theorem arriveIf_fresh {d : Dev} {c : Call} (h : (d.path c.o.path).busy.contains c = false) (clear : Dev → Bool) (p : Prog) :
    (arriveIf clear c p).run d = (arrive c p).run d := by
  simp only [arrive, arriveIf, Prog.run_ask, h, Bool.and_false, Bool.false_and]

theorem hears_fresh {d : Dev} {c : Call} (h : d.hears c) : (d.path c.o.path).busy.contains c = false := by
  obtain ⟨-, -, -, -, -, hb, -, -⟩ := h
  rw [List.contains_eq_any_beq, List.any_eq_false]
  exact fun x hx he => hb x hx (by rw [← eq_of_beq he])

/-- A request held at a gate goes on with nothing but its mark gone. -/
theorem arriveIf_held {d : Dev} {c : Call} (ha : d.answers = true) (hh : d.clk.held.contains c = true)
    (hb : (d.path c.o.path).busy.contains c = true) (p : Prog) :
    (arriveIf (fun _ => true) c p).run d = p.run ((Eff.clk fun k => { k with held := k.held.erase c }).apply d) := by
  simp only [arriveIf, Prog.run_ask, ha, hh, hb]
  rfl

theorem tlp_run {d : Dev} (hr : d.inRun) {l f : Nat} (h : d.reaches l f = true) (ps : List Prog) :
    (tlp l f ps).run d = (Prog.all ps).run d := by
  simp only [tlp, Prog.run_ask, h, Prog.when_true, Prog.run_all_cons, wake_run hr.1 hr.2]

/-- A ring's error once a transaction has timed out; the straps, by which the ring's link goes, are as they were. -/
theorem ringError_timedOut (r : Nat) (d : Dev) : (ringError r 5).run (d.after timedOutEffs) =
    d.after (timedOutEffs ++ [.ring r fun x => { x with state := 2, err := 5 }, .raise (64 + 16 * d.linkOfRing r + 8) 5 r 0 0]) := by
  have hl : (d.after timedOutEffs).linkOfRing r = d.linkOfRing r := by
    have hs : (d.after timedOutEffs).get .rstStraps 0 0 = d.get .rstStraps 0 0 :=
      get_count_other (o := .xingTimeouts) rfl (by decide) (by decide) (by decide)
    simp only [Dev.linkOfRing, Dev.bifur, Dev.num, hs]
  rw [after_append]
  simp only [ringError, Prog.run_ask, hl]
  rfl

section
variable {s : State} {o : Origin} {i : BitVec 16} {j : BitVec 8} {op : BitVec 4} (hi : ¬ (0x9010 ≤ i.toNat ∧ i.toNat < 0x9090))
include hi

/-- What becomes of a request that has timed out and names no DRAM channel. -/
theorem crossingTimeout_umani : exec (.crossingTimeout (.umani o i j op)) s = .next { s with dev :=
    (arriveIf (fun _ => true) ⟨o, op.toNat, i.toNat, j.toNat⟩
      (.seq timedOut (.seq .skip (.seq (respond ⟨o, op.toNat, i.toNat, j.toNat⟩ 0x0701 []) .skip)))).run s.dev } := by
  simp only [exec_crossingTimeout, execCrossingTimeout, State.run_eq, decide_eq_false hi]
  rfl

theorem crossingTimeout_arriving (h : s.dev.hears ⟨o, op.toNat, i.toNat, j.toNat⟩) :
    exec (.crossingTimeout (.umani o i j op)) s =
      .next (s.refusedWith ⟨o, op.toNat, i.toNat, j.toNat⟩ timedOutEffs 0x0701) := by
  rw [crossingTimeout_umani hi, arriveIf_fresh (hears_fresh h), arrive_run h]
  rfl

theorem crossingTimeout_held {c : Call} (hc : c = ⟨o, op.toNat, i.toNat, j.toNat⟩) (ha : s.dev.answers = true)
    (hh : s.dev.clk.held.contains c = true) (hb : (s.dev.path o.path).busy.contains c = true) :
    exec (.crossingTimeout (.umani o i j op)) s = .next { s with dev := (respond c 0x0701 []).run (s.dev.after
      (.clk (fun k => { k with held := k.held.erase c }) :: timedOutEffs)) } := by
  subst hc
  rw [crossingTimeout_umani hi, arriveIf_held ha hh hb]
  rfl

end

section
variable {s : State}

theorem crossingTimeout_barRead (hr : s.dev.inRun) {l : Fin 4} {f : Fin 64} (h : s.dev.reaches l.val f.val = true) :
    exec (.crossingTimeout (.barRead l f)) s = .next (s.after (timedOutEffs ++
      [.out ⟨.busError, fnKey l.val f.val, 0, List.replicate 4 255⟩, .raise (64 + 16 * l.val + 4) 0 l.val 0 0])) := by
  simp only [exec_crossingTimeout, execCrossingTimeout, State.run_eq, tlp_run hr h]
  rfl

theorem crossingTimeout_barWrite (hr : s.dev.inRun) {l : Fin 4} {f : Fin 64} (h : s.dev.reaches l.val f.val = true) :
    exec (.crossingTimeout (.barWrite l f)) s = .next (s.after (timedOutEffs ++
      [.count .xingClosedDiscards 0 0 1, .raise (64 + 16 * l.val + 4) 0 l.val 0 0])) := by
  simp only [exec_crossingTimeout, execCrossingTimeout, State.run_eq, tlp_run hr h]
  rfl

theorem crossingTimeout_dma (r : Fin 4096) (ha : s.dev.answers = true) (h : (s.dev.ringSt r.val).state = 1) :
    exec (.crossingTimeout (.dma r)) s = .next (s.after (timedOutEffs ++ [.ring r.val fun x => { x with state := 2, err := 5 },
      .raise (64 + 16 * s.dev.linkOfRing r.val + 8) 5 r.val 0 0])) := by
  simp only [exec_crossingTimeout, execCrossingTimeout, State.run_eq, Prog.run_ask, ha, h]
  exact congrArg (fun x => Host.Outcome.next { s with dev := x }) (ringError_timedOut r.val s.dev)

end

/-- Settles O10: a loss goes through `refLost`, a lock through `fibreLocked`; pairs of samples go one by one; the watchdog and the
timeouts run known effects. -/
theorem clockEvents : Obligations.ClockEvents := by
  refine ⟨fun s n hs ha => ?_, fun s n hs ha hn h1 => ?_, fun s => pllLocked_timing, fun s v ha h2 => hrefOffsetAlarm_measures ha h2 v,
    fun s x a b v r ha hv => ?_, fun s => xingResampleFailure_cons, fun s lost hs ha hc => ?_, fun s o i j op hi => ?_,
    fun s l f hr h => ⟨crossingTimeout_barRead hr h, crossingTimeout_barWrite hr h⟩, fun s r => crossingTimeout_dma r⟩
  · have hexec : exec (.recoveredRefLoss n) s = .next { s with dev := (refLost n.val).run s.dev } := run_live ha _
    by_cases h : s.dev.num .clkFchState 0 n.val = 1 ∨ s.dev.num .clkFchState 0 n.val = 2
    · have hstate := refLost_state hs.1 n h
      refine ⟨_, hexec, rfl, ?_, ?_, fun _ => ⟨hstate, refLost_raises n h, ?_⟩, fun h2 => ?_, fun h0 => ?_⟩
      · rcases refLost_ch hs.1 n h with hk | hk <;> simp [hk]
      · rcases refLost_ch hs.1 n h with hk | hk <;> simp [hk]
      · rcases refLost_ch hs.1 n h with hk | hk <;> simp [hk]
      · rcases refLost_ch hs.1 n h with hk | hk <;> simp [hk, h2]
      · omega
    · have hidle : (refLost n.val).run s.dev = (refCut n.val).apply s.dev := refLost_idle (not_or.mp h)
      have hch := ch_fch hs.1 n.val fun c => { c with refValid := false, burstOn := false, onAir := .none }
      refine ⟨_, hexec, rfl, ?_, ?_, fun h' => absurd h' h, fun h' => absurd (.inr h') h, fun _ => ?_⟩
      · simp only [hidle, refCut, hch]
      · simp only [hidle, refCut, hch]
      · rw [hidle]
        rfl
  · obtain ⟨hstate, hpll, hevent⟩ := fibreLocked_settles hs.1 ⟨n.val, hn⟩
    exact ⟨_, pllLocked_fibre ha n hn h1, rfl, hstate, hpll, hevent⟩
  · refine ⟨fun h => ?_, fun h hr => ?_, fun h hr => ?_⟩
    · rw [xingResampleFailure_one x ha, samplePair_agrees (congrArg BitVec.toNat h)]
      rfl
    · rw [xingResampleFailure_one x ha, samplePair_disagrees hv (mt BitVec.toNat_inj.mp h) hr]
      rfl
    · rw [xingResampleFailure_one x ha, samplePair_fails hv (mt BitVec.toNat_inj.mp h) hr]
      rfl
  · obtain ⟨hum, hbws, hbcs, hi2c⟩ := coreStopped_server hs lost.toNat
    exact ⟨_, coreWatchdogExpiry_runs lost ha hc, rfl, coreStopped_clk hs _, coreStopped_cause hs _ ha hc, coreStopped_raises _,
      hum, hbws, hbcs, hi2c, coreStopped_only hs _⟩
  · exact ⟨crossingTimeout_arriving hi, fun c hc ha => crossingTimeout_held hi hc ha⟩

end Sys2Proof.Machine
end

section
/-!
PROOFS of the requests for resets and of the causes (O11).
-/
namespace Sys2Proof.Machine

/-! ## RST_CAUSE_STICKY and RST_DEVICE (R90, R93) -/

theorem exec_rstCauseStickyRead (o : Origin) (s : State) : exec (.rstCauseStickyRead o) s =
    s.run (serve (readReq o .rstCauseSticky 0 0 (.num 0)) (stickyReadBeh o.path)) := rfl
theorem exec_rstCauseStickyWrite (o : Origin) (v : BitVec 32) (s : State) : exec (.rstCauseStickyWrite o v) s =
    s.run (serve (writeReq o .rstCauseSticky 0 0 (.num v.toNat)) (stickyWriteBeh v.toNat)) := rfl
theorem exec_rstDevice (o : Origin) (s : State) : exec (.rstDevice o) s = s.run (serve (execReq o .rstDevice 0 0 true (.oct []))
    (rstDeviceBeh (execReq o .rstDevice 0 0 true (.oct [])).call o.code.toNat)) := rfl
theorem exec_rstInstance (o : Origin) (arg : BitVec 16) (lost : BitVec 32) (s : State) : exec (.rstInstance o arg lost) s =
    s.run (serve (execReq o .rstInstance 0 0 true (.num arg.toNat)) (rstInstanceBeh o.code.toNat arg.toNat lost.toNat)) := rfl
theorem exec_clkTimingChannelWrite (o : Origin) (v : BitVec 8) (s : State) : exec (.clkTimingChannelWrite o v) s =
    s.run (serve (writeReq o .clkTimingChannel 0 0 (.num v.toNat)) (timingChannelBeh v.toNat)) := rfl

/-- The number another object holds after a write. -/
theorem Dev.num_put_other {d : Dev} (h : SMap.wf none d.objs = true) {o x : Obj} {i j k l : Nat} (v : Val)
    (hk : x.key k l ≠ o.key i j) : (d.put o i j v).num x k l = d.num x k l := congrArg Val.n (Dev.get_put_other h v hk)

/-- AON_POWER clears in both cause objects. -/
def Dev.aonCleared (d : Dev) : List Eff :=
  [.obj .rstCause 0 0 (.num (putBit (d.num .rstCause) 1 false)),
    .obj .rstCauseSticky 0 0 (.num (putBit (d.num .rstCauseSticky) 1 false))]

theorem clearAon_run {d : Dev} (hd : d.Canonical) : clearAon.run d = d.after d.aonCleared := by
  have h := Dev.num_put_other hd.objs (o := .rstCause) (x := .rstCauseSticky) (i := 0) (j := 0) (k := 0) (l := 0)
    (.num (putBit (d.num .rstCause) 1 false)) (by decide)
  simp only [clearAon, Prog.run_all_cons, Prog.all_nil, Prog.run_skip, run_setFlag, Dev.aonCleared, Dev.after_cons, Dev.after_nil]
  rw [show ((Eff.obj .rstCause 0 0 (.num (putBit (d.num .rstCause) 1 false))).apply d).num .rstCauseSticky =
    d.num .rstCauseSticky from h]

/-- AON_POWER clears in both, once RST_CAUSE_STICKY has taken a value. -/
theorem clearAon_written {d : Dev} (hd : d.Canonical) (w : Nat) :
    clearAon.run ((Eff.obj .rstCauseSticky 0 0 (.num w)).apply d) = d.after [.obj .rstCauseSticky 0 0 (.num w),
      .obj .rstCause 0 0 (.num (putBit (d.num .rstCause) 1 false)), .obj .rstCauseSticky 0 0 (.num (putBit w 1 false))] := by
  have hc : ((Eff.obj .rstCauseSticky 0 0 (.num w)).apply d).num .rstCause = d.num .rstCause :=
    Dev.num_put_other hd.objs _ (by decide)
  have hs : ((Eff.obj .rstCauseSticky 0 0 (.num w)).apply d).num .rstCauseSticky = w := Dev.num_put hd.objs _ _ _ _
  rw [clearAon_run (Eff.apply_canonical _ _ hd), Dev.aonCleared, hc, hs]
  rfl

section
variable {s : State} {o : Origin} (hs : s.Inv)
include hs

theorem stickyRead_served (h : s.dev.admits (readReq o .rstCauseSticky 0 0 (.num 0))) : exec (.rstCauseStickyRead o) s =
    .next (s.served (readReq o .rstCauseSticky 0 0 (.num 0)).call s.dev.aonCleared
      (pathBytes o.path 4 (s.dev.num .rstCauseSticky))) := by
  rw [exec_rstCauseStickyRead]
  exact served_done hs h rfl rfl rfl (clearAon_run (taken_canonical hs.1 _))

theorem stickyWrite_served {v : BitVec 32} (h : s.dev.admits (writeReq o .rstCauseSticky 0 0 (.num v.toNat)))
    (hm : v.toNat &&& 0xFE = v.toNat) : exec (.rstCauseStickyWrite o v) s =
      let w := (setBits 8 v.toNat).foldl (fun a k => putBit a k false) (s.dev.num .rstCauseSticky)
      .next (s.served (writeReq o .rstCauseSticky 0 0 (.num v.toNat)).call ([.obj .rstCauseSticky 0 0 (.num w)] ++
        if bitOf v.toNat 1 then [.obj .rstCause 0 0 (.num (putBit (s.dev.num .rstCause) 1 false)),
          .obj .rstCauseSticky 0 0 (.num (putBit w 1 false))] else []) []) := by
  rw [exec_rstCauseStickyWrite]
  refine served_done hs h (if_pos hm) rfl rfl ?_
  cases bitOf v.toNat 1
  · rfl
  · exact clearAon_written (taken_canonical hs.1 _) _

theorem rstDevice_served (h : s.dev.admits (execReq o .rstDevice 0 0 true (.oct []))) : exec (.rstDevice o) s =
    .next (s.served (execReq o .rstDevice 0 0 true (.oct [])).call
      [.clk fun x => { x with cmdReset := some (execReq o .rstDevice 0 0 true (.oct [])).call },
       .raise 7 0 noInst (top16 o.code.toNat) 0] []) := by
  rw [exec_rstDevice]
  exact served_done hs h rfl rfl rfl rfl

end

/-! ## What the reset of a unit leaves of the resets and the crossings (R94) -/

/-- Which units are in reset and which crossings are Closed stays. -/
def Eff.keepsResets (e : Eff) : Prop := ∀ d : Dev, (e.apply d).clk.insts = d.clk.insts ∧ (e.apply d).clk.closed = d.clk.closed

theorem Eff.keepsResets_of_parts {e : Eff} (h : e.parts.contains .clk = false) : e.keepsResets := fun d => by
  have hn : Part.clk ∉ e.parts := fun hm => by simp [hm] at h
  rw [Eff.apply_clk hn]
  exact ⟨rfl, rfl⟩

theorem keepsResets_timPll (f : Clk → Int) : (Eff.clk fun c => { c with timPll := f c }).keepsResets := fun _ => ⟨rfl, rfl⟩
theorem keepsResets_respond (c : Call) (abort : Nat) (data : List Byte) : (respond c abort data).Only Eff.keepsResets :=
  (only_respond c abort data).mono fun e h => Eff.keepsResets_of_parts (by
    have hn : Part.clk ∉ e.parts := fun hm => absurd (h.2.1 _ hm) (by decide)
    simpa using hn)

theorem keepsResets_flushPort (p reason : Nat) : (flushPort p reason).Only Eff.keepsResets := by
  simp [flushPort, flushQueue, tmDrop, poolCheck, count, raise, queueCount, Eff.keepsResets_of_parts, Eff.parts]

theorem keepsResets_actTo (n new cause : Nat) : (actTo n new cause).Only Eff.keepsResets := by
  simp [actTo, setSync, setFlag, putN, raise, keepsResets_flushPort, Eff.keepsResets_of_parts, Eff.parts]

theorem keepsResets_timingLost (t : Nat) : (timingLost t).Only Eff.keepsResets := by
  have hfall : timingFallback.Only Eff.keepsResets := fun d => by
    dsimp only
    split <;> simp [timingTo, putN, raise, Eff.keepsResets_of_parts, Eff.parts]
  simp [timingLost, timingHold, timingTo, setSync, setFlag, putN, raise, hfall, keepsResets_timPll, Eff.keepsResets_of_parts, Eff.parts]

theorem keepsResets_refLost (n : Nat) : (refLost n).Only Eff.keepsResets := by
  simp [refLost, toHolding, putN, raise, keepsResets_timingLost, keepsResets_actTo, Eff.keepsResets_of_parts, Eff.parts]

theorem keepsResets_resetFibre (n : Nat) : (resetFibre n).Only Eff.keepsResets := by
  simp [resetFibre, cancelAct, pllFree, dmtLeave, profilesOff, dropChains, clearCtxs, actInitial, dropParams, count, countBy, putN, putO,
    raise, keepsResets_refLost, keepsResets_actTo, Eff.keepsResets_of_parts, Eff.parts]

theorem keepsResets_portTo (p new reason : Nat) : (portTo p new reason).Only Eff.keepsResets := by
  simp [portTo, portSet, macCount, countIn, putN, putO, raise, keepsResets_flushPort, Eff.keepsResets_of_parts, Eff.parts]

theorem keepsResets_fabTo (g new cause lane : Nat) : (fabTo g new cause lane).Only Eff.keepsResets := by
  simp [fabTo, fabDiscard, fabCount, countIn, putN, putO, raise, keepsResets_flushPort, Eff.keepsResets_of_parts, Eff.parts]

theorem keepsResets_dramFail (c cause : Nat) (keep : Bool) : (dramFail c cause keep).Only Eff.keepsResets := by
  simp [dramFail, dramTo, putN, raise, Eff.keepsResets_of_parts, Eff.parts]

theorem keepsResets_laCount (list : Nat) (ok : Bool) : (laCount list ok).Only Eff.keepsResets := fun d => by
  dsimp only
  split
  · trivial
  · split <;> simp [keepsResets_respond, Eff.keepsResets_of_parts, Eff.parts]

theorem keepsResets_laKick (fuel : Nat) : (laKick fuel).Only Eff.keepsResets := by
  induction fuel with
  | zero => trivial
  | succ fuel ih =>
    refine fun d => ?_
    dsimp only
    split
    · trivial
    · split
      · trivial
      · split
        · exact Eff.keepsResets_of_parts rfl
        · refine ⟨fun d => ⟨?_, ?_, ?_, trivial⟩, ih⟩
          · simp [countIn, putO, Eff.keepsResets_of_parts, Eff.parts]
          · exact Eff.keepsResets_of_parts rfl
          · simp only [only_when_iff, only_all_cons_iff, only_all_nil_iff, and_true]
            intro _
            split <;> simp [raise, Eff.keepsResets_of_parts, Eff.parts]

theorem keepsResets_laEnd (n : Nat) : (laEnd n).Only Eff.keepsResets := by
  simp [laEnd, laZero, laStatus, send, putN, keepsResets_laCount, keepsResets_laKick, Eff.keepsResets_of_parts, Eff.parts]

theorem keepsResets_resetInstance (kind n : Nat) : (resetInstance kind n).Only Eff.keepsResets := by
  unfold resetInstance
  split
  · exact keepsResets_resetFibre n
  · simp [keepsResets_portTo, keepsResets_fabTo]
  · exact keepsResets_dramFail n 5 true
  · simp [restartCircuit, Eff.keepsResets_of_parts, Eff.parts]
  · simp [keepsResets_laEnd]
  · trivial

/-! ## RST_INSTANCE (R94, R96) -/

/-- What RST_INSTANCE does beside the reset of the unit itself. -/
def unitResetIn (code arg lost : Nat) : List Eff :=
  [.clk fun c => { c with insts := c.insts ++ [arg] }, .clk (Clk.gatesOpened (domainsOfInst (arg / 256) (arg % 256))),
    .clk fun c => { c with closed := if c.closed.contains arg then c.closed else c.closed ++ [arg] }] ++
  (if lost = 0 then [] else [.count .xingClosedDiscards 0 0 lost, .raise 16 0 noInst 0 0]) ++
  [.raise 7 0 noInst (code % 65536 * 65536 + arg) 0]

/-- A reset of a unit: the unit first, then its crossings and gates. -/
def Dev.unitReset (d : Dev) (code arg lost : Nat) : Dev :=
  ((resetInstance (arg / 256) (arg % 256)).run d).after (unitResetIn code arg lost)

theorem unitResetIn_run (code arg lost : Nat) (d : Dev) : (Prog.all [
      .eff (.clk fun c => { c with insts := c.insts ++ [arg] }), openGates (domainsOfInst (arg / 256) (arg % 256)),
      closeScope arg lost, raise 7 noInst 0 (code % 65536 * 65536 + arg)]).run d = d.after (unitResetIn code arg lost) := by
  by_cases hl : lost = 0
  · subst hl
    rfl
  · simp only [unitResetIn, closeScope, if_neg hl, bne_iff_ne.mpr hl]
    rfl

theorem unitResetIn_clk (code arg lost : Nat) (d : Dev) : (d.after (unitResetIn code arg lost)).clk =
    { Clk.gatesOpened (domainsOfInst (arg / 256) (arg % 256)) { d.clk with insts := d.clk.insts ++ [arg] } with
      closed := if d.clk.closed.contains arg then d.clk.closed else d.clk.closed ++ [arg] } := by
  unfold unitResetIn
  split <;> rfl

theorem unitResetIn_names (code arg lost : Nat) (d : Dev) :
    ∃ x ∈ (d.after (unitResetIn code arg lost)).occs, x.src = 7 ∧ x.arg0 = code % 65536 * 65536 + arg := by
  simp only [unitResetIn, after_append]
  exact ⟨_, List.mem_append_right _ (List.mem_singleton.mpr rfl), rfl, rfl⟩

theorem unitResetIn_loses (code arg : Nat) {lost : Nat} (hl : lost ≠ 0) (d : Dev) :
    (d.after (unitResetIn code arg lost)).raisedEvent 16 0 noInst := by
  simp only [unitResetIn, if_neg hl, after_append]
  exact ⟨_, List.mem_append_left _ (List.mem_append_right _ (List.mem_singleton.mpr rfl)), rfl, rfl, rfl⟩

/-- A program that keeps the resets and the crossings. -/
theorem keepsResets_run {p : Prog} (h : p.Only Eff.keepsResets) (d : Dev) :
    (p.run d).clk.insts = d.clk.insts ∧ (p.run d).clk.closed = d.clk.closed :=
  Prog.Only.keeps (P := fun e => e.clk.insts = d.clk.insts ∧ e.clk.closed = d.clk.closed)
    (h.mono fun e he x hx => by rwa [(he x).1, (he x).2]) ⟨rfl, rfl⟩

theorem unitReset_clk (d : Dev) (code arg lost : Nat) : (d.unitReset code arg lost).clk.insts = d.clk.insts ++ [arg] ∧
    (d.unitReset code arg lost).clk.closed = if d.clk.closed.contains arg then d.clk.closed else d.clk.closed ++ [arg] := by
  obtain ⟨hi, hc⟩ := keepsResets_run (keepsResets_resetInstance (arg / 256) (arg % 256)) d
  rw [Dev.unitReset, unitResetIn_clk]
  simp only [Clk.gatesOpened, hi, hc, and_self]

section
variable {s : State} (hs : s.Inv) {o : Origin} {arg : BitVec 16} (lost : BitVec 32)
  (h : s.dev.admits (execReq o .rstInstance 0 0 true (.num arg.toNat))) (hi : isInstance arg.toNat = true)
  (hg : arg.toNat / 256 = 2 → s.dev.gateSwitchOn (arg.toNat % 256) = false) (hc : s.dev.clk.insts.contains arg.toNat = false)
include hs h hi hg hc

theorem rstInstance_runs : exec (.rstInstance o arg lost) s = .next { s with
    dev := (respond (execReq o .rstInstance 0 0 true (.num arg.toNat)).call 0 []).run
      ((s.dev.taken (execReq o .rstInstance 0 0 true (.num arg.toNat)).call).unitReset o.code.toNat arg.toNat lost.toNat) } := by
  have hst : firstAbort [(arg.toNat / 256 == 2 && s.dev.gateSwitchOn (arg.toNat % 256), 0x0501),
      (s.dev.clk.insts.contains arg.toNat, 0x0402)] = 0 := by
    have h2 : (arg.toNat / 256 == 2 && s.dev.gateSwitchOn (arg.toNat % 256)) = false := by
      by_cases hk : arg.toNat / 256 = 2
      · rw [hg hk, Bool.and_false]
      · rw [beq_false_of_ne hk, Bool.false_and]
    simp only [firstAbort, h2, hc, Bool.false_eq_true, if_false]
  rw [exec_rstInstance, State.run_eq, serve_run hs.1.um h (if_pos hi) hst]
  simp only [rstInstanceBeh, beh, finish, Prog.run_seq, Prog.run_all_cons (resetInstance _ _)]
  rw [unitResetIn_run, Dev.unitReset]

/-- Where the reset of the unit itself finds nothing to do, the answer is known. -/
theorem rstInstance_served (hr : ∀ d : Dev, (d.circ = s.dev.circ ∧ d.sessions = s.dev.sessions) →
    (resetInstance (arg.toNat / 256) (arg.toNat % 256)).run d = d) : exec (.rstInstance o arg lost) s =
      .next (s.served (execReq o .rstInstance 0 0 true (.num arg.toNat)).call (unitResetIn o.code.toNat arg.toNat lost.toNat) []) := by
  rw [rstInstance_runs hs lost h hi hg hc, Dev.unitReset,
    hr (s.dev.taken (execReq o .rstInstance 0 0 true (.num arg.toNat)).call) ⟨rfl, rfl⟩]
  rfl

end

theorem resetInstance_circuits {d : Dev} (h : d.circ = []) (n : Nat) : (resetInstance 4 n).run d = d := by
  simp only [resetInstance, Prog.run_ask, h]
  rfl

theorem resetInstance_engine {d : Dev} (h : d.sessions = []) (n : Nat) : (resetInstance 5 n).run d = d := by
  simp only [resetInstance, Prog.run_ask, h]
  rfl

/-! ## CLK_TIMING_CHANNEL (R79) -/

section
variable {s : State} {o : Origin} {v : BitVec 8} (hs : s.Inv)
  (h : s.dev.admits (writeReq o .clkTimingChannel 0 0 (.num v.toNat))) (hv : v.toNat ≤ 3)
include h hv

theorem timingChannel_disabled (he : s.dev.num .feEnable v.toNat ≠ 1) : exec (.clkTimingChannelWrite o v) s =
    .next (s.refusedWith (writeReq o .clkTimingChannel 0 0 (.num v.toNat)).call [] 0x0401) := by
  rw [exec_clkTimingChannelWrite]
  exact served_abort h (by decide) (.inr ⟨if_neg (Nat.not_lt.mpr hv), if_pos he⟩) fun _ _ => rfl

variable (he : s.dev.num .feEnable v.toNat = 1)
include hs he

/-- An accepted write whose effects are known. -/
theorem timingChannel_served {es : List Eff} (hrun : ∀ p, ((timingChannelBeh v.toNat).act
      (s.dev.taken (writeReq o .clkTimingChannel 0 0 (.num v.toNat)).call)) = .done p [] →
      p.run (s.dev.taken (writeReq o .clkTimingChannel 0 0 (.num v.toNat)).call) =
        (s.dev.taken (writeReq o .clkTimingChannel 0 0 (.num v.toNat)).call).after es) :
    exec (.clkTimingChannelWrite o v) s = .next (s.served (writeReq o .clkTimingChannel 0 0 (.num v.toNat)).call es []) := by
  rw [exec_clkTimingChannelWrite]
  exact served_done hs h (if_neg (Nat.not_lt.mpr hv)) (if_neg (not_not.mpr he)) rfl (hrun _ rfl)

theorem timingChannel_same (hn : v.toNat = s.dev.num .clkTimingChannel) : exec (.clkTimingChannelWrite o v) s =
    .next (s.served (writeReq o .clkTimingChannel 0 0 (.num v.toNat)).call [] []) := by
  refine timingChannel_served hs h hv he ?_
  rintro p ⟨⟩
  have hne : (v.toNat != (s.dev.taken (writeReq o .clkTimingChannel 0 0 (.num v.toNat)).call).num .clkTimingChannel) = false :=
    bne_eq_false_iff_eq.mpr hn
  rw [hne]
  rfl

theorem timingChannel_valid (hn : v.toNat ≠ s.dev.num .clkTimingChannel) (hr : (s.dev.ch v.toNat).refValid = true) :
    exec (.clkTimingChannelWrite o v) s = .next (s.served (writeReq o .clkTimingChannel 0 0 (.num v.toNat)).call
      [.obj .clkTimingChannel 0 0 (.num v.toNat), .obj .clkTimingState 0 0 (.num 1), .obj .clkHrefOffset 0 0 (.num 0x80000000)] []) := by
  refine timingChannel_served hs h hv he ?_
  rintro p ⟨⟩
  simp only [Dev.taken_num, Dev.taken_ch, bne_iff_ne.mpr hn, hr]
  rfl

end

/-- The timing PLL holds over on the ratio it had on its channel. -/
def Dev.heldOver (d : Dev) : List Eff :=
  [.clk fun c => { c with timPll := holdRatio (d.num .clkTimingState) c.timPll (d.ch (d.num .clkTimingChannel)).ratios },
    .obj .clkTimingState 0 0 (.num 3), .obj .clkHrefOffset 0 0 (.num 0x80000000)]

/-- SYNC clears, with its event where it was set. -/
def Dev.syncLost (d : Dev) : List Eff :=
  if d.synced then [.obj .timeStatus 0 0 (.num (putBit (d.num .timeStatus) 0 false)), .raise 432 0 noInst 0 0] else []

theorem setSync_false_run (d : Dev) : (setSync false).run d = d.after d.syncLost := by
  simp only [setSync, Prog.run_ask, Dev.syncLost]
  cases d.synced <;> rfl

theorem timingHold_run (d : Dev) : (timingHold (d.num .clkTimingChannel)).run d = d.after d.heldOver := rfl

theorem heldOver_syncLost {d : Dev} (hd : d.Canonical) : (d.after d.heldOver).syncLost = d.syncLost := by
  have h : (d.after d.heldOver).num .timeStatus = d.num .timeStatus := after_num hd.objs (by
    simp only [Dev.heldOver, List.any_cons, List.any_nil, Eff.keys]
    decide)
  simp only [Dev.syncLost, Dev.synced, h]
  rfl

/-- Without CLK_TIMING_FALLBACK = 1 the timing PLL stays in Holdover. -/
theorem timingFallback_off {d : Dev} (h : d.num .clkTimingFallback ≠ 1) : timingFallback.run d = d := by
  simp only [timingFallback, Prog.run_ask, beq_false_of_ne h, Bool.false_and]
  split <;> rfl

/-- The timing channel moves to one without a valid reference: the timing PLL holds over on the old one's ratio, and SYNC clears. -/
theorem timingMoved_run {d : Dev} (hd : d.Canonical) (v : Nat) (h : d.num .clkTimingFallback ≠ 1) :
    (Prog.all [timingHold (d.num .clkTimingChannel), setSync false, putN .clkTimingChannel 0 0 v, timingFallback]).run d =
      d.after (d.heldOver ++ d.syncLost ++ [.obj .clkTimingChannel 0 0 (.num v)]) := by
  have hoff : (d.after (d.heldOver ++ d.syncLost ++ [.obj .clkTimingChannel 0 0 (.num v)])).num .clkTimingFallback ≠ 1 := by
    rw [after_num hd.objs]
    · exact h
    · simp only [Dev.syncLost]
      split <;> simp only [Dev.heldOver, List.any_append, List.any_cons, List.any_nil, Eff.keys] <;> decide
  simp only [Prog.run_all_cons, Prog.all_nil, Prog.run_skip, timingHold_run, setSync_false_run, run_putN, heldOver_syncLost hd]
  rw [after_append] at hoff ⊢
  rw [← after_append]
  exact timingFallback_off hoff

theorem timingChannel_invalid {s : State} {o : Origin} {v : BitVec 8} (hs : s.Inv)
    (h : s.dev.admits (writeReq o .clkTimingChannel 0 0 (.num v.toNat))) (hv : v.toNat ≤ 3)
    (he : s.dev.num .feEnable v.toNat = 1) (hn : v.toNat ≠ s.dev.num .clkTimingChannel)
    (hr : (s.dev.ch v.toNat).refValid = false) (hf : s.dev.num .clkTimingFallback ≠ 1) :
    exec (.clkTimingChannelWrite o v) s = .next (s.served (writeReq o .clkTimingChannel 0 0 (.num v.toNat)).call
      (s.dev.heldOver ++ s.dev.syncLost ++ [.obj .clkTimingChannel 0 0 (.num v.toNat)]) []) := by
  refine timingChannel_served hs h hv he ?_
  rintro p ⟨⟩
  simp only [Dev.taken_num, Dev.taken_ch, bne_iff_ne.mpr hn, hr]
  exact timingMoved_run (taken_canonical hs.1 _) v.toNat hf

/-- Settles O11: each request is served with known effects; of a reset unit only what `unitResetIn` does is claimed. -/
theorem resetRequests : Obligations.ResetRequests := by
  refine ⟨fun s o hs => stickyRead_served hs, fun s o v w hs h hm hw => hw ▸ stickyWrite_served hs h hm,
    fun s o hs => rstDevice_served hs, fun s o arg lost hs h hi hg hc => ⟨?_, fun hnone => ?_⟩, fun s o v hs h hv =>
    ⟨timingChannel_disabled h hv, fun he => ⟨timingChannel_same hs h hv he, timingChannel_valid hs h hv he,
      timingChannel_invalid hs h hv he⟩⟩⟩
  · have hclk : (((s.dev.taken (execReq o .rstInstance 0 0 true (.num arg.toNat)).call).unitReset o.code.toNat arg.toNat
        lost.toNat)).clk.insts = s.dev.clk.insts ++ [arg.toNat] ∧ _ :=
      unitReset_clk _ o.code.toNat arg.toNat lost.toNat
    have hreply := only_respond (execReq o .rstInstance 0 0 true (.num arg.toNat)).call 0 []
    obtain ⟨x, hx, hsrc, harg⟩ := unitResetIn_names o.code.toNat arg.toNat lost.toNat
      ((resetInstance (arg.toNat / 256) (arg.toNat % 256)).run (s.dev.taken (execReq o .rstInstance 0 0 true (.num arg.toNat)).call))
    refine ⟨_, rstInstance_runs hs lost h hi hg hc, rfl, ?_, ?_, ⟨x, hreply.mem_occs hx, hsrc, harg⟩, fun hl => ?_⟩
    · rw [hreply.clk (by decide)]
      exact hclk.1
    · rw [hreply.clk (by decide)]
      exact hclk.2
    · exact hreply.raisedEvent (unitResetIn_loses _ _ (fun h0 => hl (BitVec.toNat_inj.mp h0)) _)
  · have hl : (lost.toNat = 0) = (lost = 0) := propext (BitVec.toNat_inj (x := lost) (y := 0))
    have hserved := rstInstance_served hs lost h hi hg hc
    simp only [unitResetIn, hl] at hserved
    rcases hnone with ⟨rfl, hnone⟩ | ⟨rfl, hnone⟩
    · exact hserved fun d hd => resetInstance_circuits (hd.1.trans hnone) _
    · exact hserved fun d hd => resetInstance_engine (hd.2.trans hnone) _

end Sys2Proof.Machine
end

section
/-!
PROOFS of the way down from Run, of its ends, and of the ways back (O13).
-/
namespace Sys2Proof.Machine

theorem exec_pwrStateRequest (o : Origin) (v : BitVec 8) (s : State) :
    exec (.pwrStateRequest o v) s = s.run (powerRequest s.dev ⟨o, 3, 0x2100, 2⟩ true v.toNat) := rfl
theorem exec_gateDrainComplete (k : Fin 60) (s : State) : exec (.gateDrainComplete k) s = execGateDrainComplete k s := rfl
theorem exec_gateDrainTimeout (k : Fin 60) (s : State) : exec (.gateDrainTimeout k) s = execGateDrainTimeout k s := rfl
theorem exec_gateHeldAccess (k : Fin 60) (s : State) : exec (.gateHeldAccess k) s = execGateHeldAccess k s := rfl
theorem exec_dozeTimeout (s : State) : exec .dozeTimeout s = execDozeTimeout s := rfl
theorem exec_wakeNAssert (s : State) : exec .wakeNAssert s = execWakeNAssert s := rfl
theorem exec_ringmasterPrewake (s : State) : exec .ringmasterPrewake s = execRingmasterPrewake s := rfl
theorem exec_wake (n : Fin 4) (m : Lemow) (s : State) : exec (.wake n m) s = execWake n m s := rfl
theorem exec_railsRestored (b self : Bool) (e : Outcomes) (s : State) :
    exec (.railsRestored b self e) s = execRailsRestored b self e s := rfl

/-! ## The power request (R113, R114) -/

section
variable {s : State} {c : Call} (hs : s.Inv) (h : s.dev.hears c) (v : Nat)

include h in
theorem powerRequest_refused {a : Nat} (ha : s.dev.entryAbort c v = a) (h0 : a ≠ 0) :
    s.run (powerRequest s.dev c true v) = .next (s.refusedWith c [] a) := by
  rw [State.run_eq, powerRequest, arriveIf_fresh (hears_fresh h), arrive_run h]
  simp only [Bool.not_true, Bool.false_eq_true, if_false, ha, if_pos h0, Prog.run_ask]
  rfl

include hs h in
theorem powerRequest_starts (ha : s.dev.entryAbort c v = 0) (hv : v ≠ 0) :
    s.run (powerRequest s.dev c true v) = .next { s with dev := (startEntry c v).run (s.dev.taken c) } := by
  rw [State.run_eq, powerRequest, arriveIf_fresh (hears_fresh h), arrive_run h]
  simp only [Bool.not_true, Bool.false_eq_true, if_false, ha, ne_eq, not_true_eq_false, taken_not_full hs.1.um h, if_neg hv, Prog.run_ask]

/-- From Run, the checks of Table 4.2 let the PF of the link that owns the power group ask for Idle. -/
theorem entryAbort_idle {o : Origin} (h : s.dev.hears ⟨o, 3, 0x2100, 2⟩) (hc : s.dev.codeOk ⟨o, 3, 0x2100, 2⟩ = true)
    (hh : isHost o.code.toNat = true) (hf : hostFn o.code.toNat = 0) (hl : s.dev.ownerLink 1 = some (hostLink o.code.toNat))
    (ht : s.dev.num .trState ≠ 1) : s.dev.entryAbort ⟨o, 3, 0x2100, 2⟩ 1 = 0 := by
  obtain ⟨-, hp, hq, -⟩ := h
  have hcode : s.dev.codeOf o.path = o.code.toNat := (eq_of_beq hc).symm
  simp [Dev.entryAbort, firstAbort, hc, hcode, hh, hf, hl, hp, hq, ht]

end

/-! ## The ends of an entry (R103, R115, R116) -/

/-- An effect on other parts leaves the power state's part, also where the stores are not canonical. -/
theorem Eff.apply_pwr {e : Eff} (h : Part.pwr ∉ e.parts) (d : Dev) : (e.apply d).pwr = d.pwr := by
  cases e
  case pwr => exact absurd (List.mem_singleton.mpr rfl) h
  case wipe => exact absurd (by simp [Eff.parts]) h
  case arm => simp only [Eff.apply]; split <;> rfl
  all_goals rfl

theorem Prog.Only.pwr {ks : Nat → Bool} {ps : List Part} (hps : Part.pwr ∉ ps) :
    ∀ {p : Prog}, p.Only (Eff.adds ks ps) → ∀ d : Dev, (p.run d).pwr = d.pwr
  | .skip, _, _ => rfl
  | .eff _, h, d => Eff.apply_pwr (fun hc => hps (h.2.1 _ hc)) d
  | .seq _ _, h, _ => (h.2.pwr hps _).trans (h.1.pwr hps _)
  | .ask _, h, d => (h d).pwr hps d

theorem replies_obj_any {o : Obj} {i j : Nat} {v : Val} : (Eff.obj o i j v).adds (fun _ => true) replyParts := adds_obj.mpr rfl

theorem only_sendLemow (n : Fin 4) (code : Nat) (body : List Byte) : (sendLemow n.val code body).Only Eff.replies := fun d => by
  refine ⟨replies_fch _ _, ?_, trivial⟩
  split
  · split
    · exact only_inbandEnqueue _ _
    · exact only_txEnqueue _ _
  · exact only_txEnqueue _ _

/-- The frame of what ends an entry. -/
abbrev Eff.abandons : Eff → Prop := Eff.adds (fun _ => true) replyParts

theorem Eff.replies.abandons {e : Eff} (h : e.replies) : e.abandons := h.mono (fun _ _ => rfl) fun _ hx => hx

theorem only_withdrawDoze (n : Fin 4) : (withdrawDoze n.val).Only Eff.abandons := fun _ =>
  ⟨only_when ⟨replies_obj_any, (only_sendLemow n _ _).mono fun _ h => h.abandons, trivial⟩, only_when ⟨replies_obj_any, trivial⟩, trivial⟩

/-- What abandoning an entry does once the entry and its gates are gone. -/
def entryLost (c : Call) (abort : Nat) : Prog :=
  .all [.each (List.range 4) withdrawDoze, raise 23 noInst 0 (top16 abort), respond c abort []]

theorem only_entryLost (c : Call) (abort : Nat) : (entryLost c abort).Only Eff.abandons :=
  ⟨only_each_iff.mpr fun n hn => only_withdrawDoze ⟨n, List.mem_range.mp hn⟩, (replies_raise _ _ _ _ _).abandons,
    (only_respond c abort []).mono fun _ h => h.abandons, trivial⟩

theorem entryLost_raises (c : Call) (abort : Nat) (d : Dev) : ((entryLost c abort).run d).raisedEvent 23 0 noInst := by
  simp only [entryLost, Prog.run_all_cons, run_raise, Prog.all_nil, Prog.run_skip]
  exact (only_respond c abort []).raisedEvent (raisedEvent_raise _ _ _ _ _ _)

theorem abandonEntry_idle {d : Dev} (h : d.pwr.req = none) (abort : Nat) : (abandonEntry abort).run d = d := by
  simp only [abandonEntry, Prog.run_ask, h, Prog.run_skip]

theorem abandonEntry_run {d : Dev} {q : PwrReq} (h : d.pwr.req = some q) (abort : Nat) : (abandonEntry abort).run d =
    (entryLost q.call abort).run (d.after [.pwr fun p => { p with req := none }, .clk fun c => { c with gates := [] }]) := by
  simp only [abandonEntry, entryLost, Prog.run_ask, h, Prog.run_all_cons, Prog.run_eff, Dev.after_cons, Dev.after_nil]

/-- An entry ends: nothing is in progress, every gate is open, and event 23 joins what was raised. -/
structure Dev.entryEnded (d t : Dev) : Prop where
  req : t.pwr.req = none
  gates : t.clk.gates = []
  ends : t.raisedEvent 23 0 noInst
  keeps : ∀ src code inst, d.raisedEvent src code inst → t.raisedEvent src code inst

theorem abandonEntry_ends {d : Dev} (h : d.pwr.req.isSome = true) (abort : Nat) : d.entryEnded ((abandonEntry abort).run d) := by
  obtain ⟨q, hq⟩ := Option.isSome_iff_exists.mp h
  rw [abandonEntry_run hq]
  have hl := only_entryLost q.call abort
  exact ⟨by rw [hl.pwr (by decide)]; rfl, by rw [hl.clk (by decide)]; rfl, entryLost_raises _ _ _, fun _ _ _ he => hl.raisedEvent he⟩

/-! ## Gates (R102, R103) -/

section
variable {s : State} (k : Fin 60) (hg : SMap.get 0 s.dev.clk.gates k.val = 1)
include hg

/-- The gates once one of them is what it is. -/
def gateAt (k v : Nat) : Eff := .clk fun c => { c with gates := SMap.put 0 k v c.gates }

theorem gateDrainComplete_run : exec (.gateDrainComplete k) s = .next { s with
    dev := (Prog.when ((SMap.put 0 k.val 2 s.dev.clk.gates).all fun g => g.2 == 2) [finishEntry]).run
      ((gateAt k.val 2).apply s.dev) } := by
  simp only [exec_gateDrainComplete, execGateDrainComplete, State.run_eq, Prog.run_ask, beq_iff_eq.mpr hg, Prog.when_true,
    Prog.run_all_cons, Prog.run_eff, Prog.all_nil, Prog.run_skip]
  rfl

theorem gateDrainTimeout_run : exec (.gateDrainTimeout k) s = .next { s with
    dev := (abandonEntry 0x0402).run (s.dev.after [gateAt k.val 0, .count .gateDrainTimeouts 0 0 1, .raise 19 0 k.val 0 0]) } := by
  simp only [exec_gateDrainTimeout, execGateDrainTimeout, State.run_eq, Prog.run_ask, beq_iff_eq.mpr hg, Prog.when_true,
    Prog.run_all_cons, Prog.run_eff, Prog.all_nil, Prog.run_skip]
  rfl

end

/-- An entry to Idle completes (R116). -/
theorem finishEntry_idle {d : Dev} (hd : d.Canonical) {c : Call} (h : d.pwr.req = some ⟨c, 1, []⟩) :
    (finishEntry.run d).num .pwrState = 1 ∧ (finishEntry.run d).pwr.req = none ∧ (finishEntry.run d).raisedEvent 21 0 noInst := by
  have hr := only_respond c 0 []
  have hrun : finishEntry.run d = (Eff.obj .pwrState 0 0 (.num 1)).apply ((Eff.raise 21 0 noInst (top8 1) 0).apply
      ((respond c 0 []).run ((Eff.pwr fun p => { p with req := none }).apply d))) := by
    simp only [finishEntry, Prog.run_ask, h]
    rfl
  have hp : ((Eff.pwr fun p => { p with req := none }).apply d).Canonical := Eff.apply_canonical _ _ hd
  rw [hrun]
  refine ⟨Dev.num_put (run_canonical (respond c 0 []) hp).objs _ _ _ _, ?_, raisedEvent_raise _ 21 0 noInst _ _⟩
  exact congrArg Pwr.req (hr.pwr (by decide) _)

/-- An entry to Idle stops the domains of Table 4.1 and asks no channel to doze. -/
theorem startEntry_idle (c : Call) (d : Dev) : (startEntry c 1).run d = d.after
    [.pwr fun p => { p with req := some ⟨c, 1, []⟩ },
     .clk fun c => { c with gates := [(44, 1), (45, 1), (46, 1), (47, 1), (48, 1), (49, 1), (51, 1)] }] := by
  rfl

/-! ## DOZE_TIMEOUT (R115) -/

section
variable {s : State}

theorem dozeTimeout_idle (h : s.dev.pwr.req = none) : exec .dozeTimeout s = .next s := by
  rw [exec_dozeTimeout, execDozeTimeout, State.run_eq]
  cases ha : s.dev.answers
  · rw [live_idle ha]
  · rw [live_run ha, Prog.run_ask, h, Prog.run_skip]

theorem dozeTimeout_run (ha : s.dev.answers = true) {q : PwrReq} (hq : s.dev.pwr.req = some q) (hw : q.waits ≠ []) :
    exec .dozeTimeout s = .next { s with
      dev := (abandonEntry 0x0403).run (s.dev.after (q.waits.map fun n => .raise 24 0 n 0 0)) } := by
  have he : (!q.waits.isEmpty) = true := by simpa using hw
  rw [exec_dozeTimeout, execDozeTimeout, State.run_eq, live_run ha, Prog.run_ask, hq]
  simp only [he, Prog.when_true, Prog.run_all_cons, Prog.all_nil, Prog.run_skip]
  exact congrArg (fun x => Host.Outcome.next { s with dev := (abandonEntry 0x0403).run x }) (run_each_eff _ _ _)

end

/-- Events raised for a list of channels join the occurrences, and nothing else changes. -/
theorem raisedEach (l : List Nat) (d : Dev) : d.after (l.map fun n => .raise 24 0 n 0 0) =
    { d with occs := d.occs ++ l.map fun n => ⟨24, 0, n, 0, 0, d.tim.secs, d.tim.ns, !d.synced⟩ } := by
  induction l generalizing d with
  | nil => simp
  | cons n l ih =>
    rw [List.map_cons, Dev.after_cons, ih]
    simp only [Eff.apply, List.append_assoc, List.map_cons]
    rfl

/-! ## Wake sources (R105, R119, R120) -/

/-- The return from Idle to Run on a wake source. -/
def Dev.woken (d : Dev) (b : Nat) : List Eff :=
  [.pwr fun p => { p with seen := putBit p.seen b true }, .obj .pwrState 0 0 (.num 0),
    .obj .pwrWakeCause 0 0 (.num (putBit d.pwr.seen b true)),
    .raise 22 0 noInst (top16 (putBit d.pwr.seen b true)) 0, .pwr fun p => { p with seen := 0 },
    .clk fun c => { c with gates := [] }]

section
variable {d : Dev} (hq : d.pwr.req = none)
include hq

theorem wake_idle (h1 : d.num .pwrState = 1) {b : Nat} (hb : d.wakes 1 b = true) : (wake b).run d = d.after (d.woken b) := by
  have h2 : (((Eff.pwr fun p => { p with seen := putBit p.seen b true }).apply d).num .pwrState == 2) = false :=
    beq_false_of_ne (ne_of_eq_of_ne h1 (by decide))
  simp only [wake, Prog.run_ask, hq, h1, hb, Prog.when_true, Prog.run_all_cons, Prog.run_eff, true_or, if_true, exitToRun, h2]
  rfl

theorem wake_masked (h1 : d.num .pwrState = 1) {b : Nat} (hb : d.wakes 1 b = false) : (wake b).run d = d := by
  simp only [wake, Prog.run_ask, hq, h1, hb, Prog.when_false, Prog.run_skip]

theorem wake_deep (h1 : d.num .pwrState = 3 ∨ d.num .pwrState = 4) : (wake 0).run d = d.after
    [.pwr fun p => { p with seen := putBit p.seen 0 true }, .pins fun p => { p with pwrreqN := false }] := by
  rcases h1 with h1 | h1 <;> simp only [wake, Prog.run_ask, hq, h1] <;> rfl

end

section
variable {s : State} (hr : s.dev.clk.devReset = false) (hl : s.dev.clk.hrefLost = false)
include hr hl

theorem wakeNAssert_run : exec .wakeNAssert s = .next { s with dev := (wake 0).run s.dev } := by
  simp only [exec_wakeNAssert, execWakeNAssert, State.run_eq, Prog.run_ask, hr, hl]
  rfl

omit hr hl in
theorem gateHeldAccess_run (k : Fin 60) (hg : SMap.get 0 s.dev.clk.gates k.val = 2) :
    exec (.gateHeldAccess k) s = .next { s with dev := (wake 3).run s.dev } := by
  simp only [exec_gateHeldAccess, execGateHeldAccess, State.run_eq, Prog.run_ask, hg]
  rfl

omit hr hl in
theorem ringmasterPrewake_run (ha : s.dev.acts ≠ []) : exec .ringmasterPrewake s = .next { s with dev := (wake 8).run s.dev } := by
  have he : (!s.dev.acts.isEmpty) = true := by simpa using ha
  simp only [exec_ringmasterPrewake, execRingmasterPrewake, State.run_eq, Prog.run_ask, he]
  rfl

omit hr hl in
theorem ringmasterPrewake_idle (ha : s.dev.acts = []) : exec .ringmasterPrewake s = .next s := by
  simp only [exec_ringmasterPrewake, execRingmasterPrewake, State.run_eq, Prog.run_ask, ha]
  rfl

theorem lemowWake_run (h1 : s.dev.num .pwrState = 1) (n : Fin 4) (m : Lemow) (h4 : s.dev.num .actState n.val = 4) (hb : m.body = [])
    (ha : m.addr.toNat = 0xFFFF ∨ m.addr.toNat = s.dev.num .actHandle n.val) :
    exec (.wake n m) s = .next { s with dev := (wake 6).run s.dev } := by
  have hlive : s.dev.answers = true := answers_iff.mpr ⟨hr, hl, h1.trans_lt (by decide)⟩
  have hadr : s.dev.addressed n.val m.addr.toNat = true := (addressed_iff _ _ _).mpr (ha.imp_right .inl)
  rw [exec_wake, execWake, State.run_eq, live_run hlive]
  rcases ha with ha | ha <;> rw [ha] at hadr <;> simp [lemowIn, hadr, hb, ha, Dev.actIn, h4]

end

/-! ## The rails are back (R108 to R112, R124) -/

/-- The keys of what the straps set up, below the security block. -/
def setUpKeys (k : Nat) : Bool := decide (0x300000 ≤ k ∧ k < 0xA00000)

theorem bifur_le (d : Dev) : d.bifur.1 ≤ 4 := by
  unfold Dev.bifur
  split <;> decide

theorem strapped_adds : strapped.Only (Eff.adds setUpKeys []) := fun d => by
  refine ⟨only_each_iff.mpr fun n hn => adds_obj.mpr ?_, only_when ⟨only_each_iff.mpr fun g hg => ⟨adds_obj.mpr ?_, adds_obj.mpr ?_,
    only_each_iff.mpr fun k hk => ⟨adds_obj.mpr ?_, adds_obj.mpr ?_, trivial⟩, trivial⟩, trivial⟩, trivial⟩
  · have hb := bifur_le d
    have hn := List.mem_range.mp hn
    refine decide_eq_true ?_
    simp only [Obj.key, Obj.row]
    omega
  all_goals
    have hg := List.mem_range.mp hg
    refine decide_eq_true ?_
    simp only [Obj.key, Obj.row]
  · omega
  · omega
  all_goals
    have hk := List.mem_range.mp hk
    omega

/-- What the rails bring back first. -/
def Dev.restored (d : Dev) (b : Bool) : List Eff :=
  [.obj .pwrState 0 0 (.num 0), .obj .pwrWakeCause 0 0 (.num d.pwr.seen),
    .pins fun p => { p with pgCore := true, href := true, aonOn := true },
    .pwr fun p => { p with seen := 0, elapsedDue := true, setDue := true },
    .raise 22 (d.restoreWay b) noInst (top16 d.pwr.seen) 0]

/-- The device back in Run, before its firmware is restored. -/
def Dev.backInRun (d : Dev) (b : Bool) : Dev := elapsedUnknown.run (strapped.run (d.after (d.restored b)))

section
variable {s : State} (hs : s.Inv) (b self : Bool) (e : Outcomes)

theorem railsRestored_run (hw : s.dev.pins.pwrreqN = false) (hp : s.dev.pins.porstN = true) (h3 : 3 ≤ s.dev.num .pwrState) :
    exec (.railsRestored b self e) s = .next { s with dev :=
      (Prog.when (s.dev.num .pwrState == 3) [restoreFirmware b self e]).run (s.dev.backInRun b) } := by
  simp only [exec_railsRestored, execRailsRestored, State.run_eq, Prog.run_ask, hw, hp, h3, decide_true]
  rfl

end

section
variable {d : Dev} (hd : d.Canonical) (b : Bool)
include hd

/-- An object that neither the straps nor the return itself writes. -/
theorem backInRun_get {o : Obj} {i j : Nat} (ho : ((d.restored b).any fun e => e.keys (o.key i j)) = false)
    (hk : setUpKeys (o.key i j) = false) (he : o.key i j ≠ Obj.pwrElapsed.key 0 0) : (d.backInRun b).get o i j = d.get o i j := by
  have hc : (d.after (d.restored b)).Canonical := after_canonical _ hd
  have h := run_canonical strapped hc
  rw [Dev.backInRun, elapsedUnknown]
  refine (Dev.get_put_other h.objs _ he).trans ?_
  rw [strapped_adds.get hc.objs hk, after_get hd.objs ho]

theorem backInRun_pins : (d.backInRun b).pins = { d.pins with pgCore := true, href := true, aonOn := true } :=
  strapped_adds.same (x := .pins) (after_canonical (d.restored b) hd).objs List.not_mem_nil

theorem backInRun_sec : (d.backInRun b).sec = d.sec :=
  strapped_adds.same (x := .sec) (after_canonical (d.restored b) hd).objs List.not_mem_nil

theorem backInRun_awake : (d.backInRun b).num .pwrState = 0 ∧ (d.backInRun b).num .pwrWakeCause = d.pwr.seen ∧
    (d.backInRun b).num .pwrElapsed = 0xFFFFFFFFFFFFFFFF := by
  have hc : (d.after (d.restored b)).Canonical := after_canonical _ hd
  have h := run_canonical strapped hc
  have hk {o : Obj} (ho : o.key 0 0 ≠ Obj.pwrElapsed.key 0 0) (hs : setUpKeys (o.key 0 0) = false) :
      (d.backInRun b).num o = (d.after (d.restored b)).num o :=
    congrArg Val.n ((Dev.get_put_other h.objs _ ho).trans (strapped_adds.get hc.objs hs))
  refine ⟨(hk (by decide) (by decide)).trans ?_, (hk (by decide) (by decide)).trans ?_, Dev.num_put h.objs _ _ _ _⟩
  · have hw : ((Eff.obj .pwrState 0 0 (.num 0)).apply d).Canonical := Eff.apply_canonical _ _ hd
    exact (congrArg Val.n (Dev.get_put_other hw.objs _ (by decide))).trans (Dev.num_put hd.objs _ _ _ _)
  · exact Dev.num_put (Eff.apply_canonical (.obj .pwrState 0 0 (.num 0)) _ hd).objs _ _ _ _

omit hd in
theorem backInRun_raises : (∃ x ∈ (d.backInRun b).occs, x.src = 22) ∧ (d.backInRun b).raisedEvent 31 0 noInst := by
  refine ⟨⟨_, List.mem_append_left _ (strapped_adds.mem_occs (List.mem_append_right _ (List.mem_singleton.mpr rfl))), rfl⟩, ?_⟩
  exact raisedEvent_raise _ _ _ _ _ _

/-- The retained code is judged as before the rails came back, for the straps reach no object of the security block. -/
theorem backInRun_code : (d.backInRun b).codeRetained b = d.codeRetained b ∧
    (d.backInRun b).num .secBootSlot = d.num .secBootSlot := by
  have hsec := backInRun_sec hd b
  have hget {o : Obj} (ho : o ∈ [Obj.secStage1Hash, .secStage2Hash, .secBootSlot]) : (d.backInRun b).get o 0 0 = d.get o 0 0 := by
    refine backInRun_get hd b ?_ ?_ ?_
    · simp only [Dev.restored, List.any_cons, List.any_nil, Eff.keys]
      revert o; decide
    · revert o; decide
    · revert o; decide
  simp only [Dev.codeRetained, Dev.oct, Dev.num, hsec, hget (o := .secStage1Hash) (by decide), hget (o := .secStage2Hash) (by decide),
    hget (o := .secBootSlot) (by decide), and_self]

omit hd in
/-- Without retained code a device that its host loads waits for stage 1. -/
theorem restoreFirmware_waits (hc : d.codeRetained b = false) (h : bitOf (d.num .secBootSlot) 7 = true) (self : Bool) (e : Outcomes) :
    (restoreFirmware b self e).run d = d.after [.obj .idBootProgress 0 0 (.num 0x10), .sec fun x => { x with blStatus := 0 }] := by
  simp only [restoreFirmware, Prog.run_ask, hc, h]
  rfl

omit hd in
/-- A failed self-test halts the security engine. -/
theorem restoreFirmware_halts (hc : d.codeRetained b = false) (h : bitOf (d.num .secBootSlot) 7 = false) (e : Outcomes) :
    (restoreFirmware b false e).run d = d.after [.obj .idBootProgress 0 0 (.num 0xE0)] := by
  simp only [restoreFirmware, Prog.run_ask, hc, h]
  rfl

end

/-- Settles O13: entries end through `abandonEntry` or `finishEntry`, and every wake source comes down to `wake`. -/
theorem sleepAndWake : Obligations.SleepAndWake := by
  refine ⟨fun s o hs h => ⟨fun hc hh hf hl ht => ?_, fun v a => powerRequest_refused h v.toNat⟩, fun s k c hs hg hq hall => ?_,
    fun s k hg hall => ?_, fun s k hg => ⟨fun hq => ?_, fun hq => ?_⟩, fun s => dozeTimeout_idle, fun s q ha hq hw => ?_,
    fun s woken hs h1 hq hr hl hwoken => ?_, fun s h34 hq hr hl => ?_, fun s b self e hs hw hp => ⟨fun h4 => ?_, fun h3 hc => ?_⟩⟩
  · rw [exec_pwrStateRequest]
    exact powerRequest_starts hs h 1 (entryAbort_idle h hc hh hf hl ht) one_ne_zero
  · rw [gateDrainComplete_run k hg, hall]
    exact ⟨_, rfl, rfl, finishEntry_idle (Eff.apply_canonical (gateAt k.val 2) _ hs.1) hq⟩
  · rw [gateDrainComplete_run k hg, hall]
    rfl
  · rw [gateDrainTimeout_run k hg, abandonEntry_idle (by exact hq)]
    rfl
  · obtain ⟨hreq, hgates, hends, hkeeps⟩ := abandonEntry_ends
      (d := s.dev.after [gateAt k.val 0, .count .gateDrainTimeouts 0 0 1, .raise 19 0 k.val 0 0]) hq 0x0402
    exact ⟨_, gateDrainTimeout_run k hg, rfl, hreq, hgates, hkeeps _ _ _ (raisedEvent_raise _ _ _ _ _ _), hends⟩
  · have heach := raisedEach q.waits s.dev
    obtain ⟨hreq, hgates, hends, hkeeps⟩ := abandonEntry_ends (d := s.dev.after (q.waits.map fun n => .raise 24 0 n 0 0))
      (by rw [heach]; exact Option.isSome_iff_exists.mpr ⟨q, hq⟩) 0x0403
    refine ⟨_, dozeTimeout_run ha hq hw, rfl, hreq, fun n hn => hkeeps _ _ _ ?_, hends, hgates⟩
    rw [heach]
    exact ⟨_, List.mem_append_right _ (List.mem_map_of_mem hn), rfl, rfl, rfl⟩
  · have hwake {b : Nat} (hb : s.dev.wakes 1 b = true) : { s with dev := (wake b).run s.dev } = woken b := by
      rw [wake_idle hq h1 hb, hwoken]
      rfl
    refine ⟨?_, fun k hg hm => ?_, fun ha hm => ?_, fun n m hm h4 hb ha => ?_, fun k hg hm => ?_, ringmasterPrewake_idle⟩
    · rw [wakeNAssert_run hr hl]
      exact congrArg _ (hwake rfl)
    · rw [gateHeldAccess_run k hg]
      exact congrArg _ (hwake (by simp [Dev.wakes, wakeSources, hm]))
    · rw [ringmasterPrewake_run ha]
      exact congrArg _ (hwake (by simp [Dev.wakes, wakeSources, hm]))
    · rw [lemowWake_run hr hl h1 n m h4 hb ha]
      exact congrArg _ (hwake (by simp [Dev.wakes, wakeSources, hm]))
    · rw [gateHeldAccess_run k hg, wake_masked hq h1 (by simp [Dev.wakes, hm])]
  · rw [wakeNAssert_run hr hl, wake_deep hq h34]
    rfl
  · obtain ⟨hst, hwc, hel⟩ := backInRun_awake hs.1 b
    obtain ⟨h22, h31⟩ := backInRun_raises (d := s.dev) b
    have hrun := railsRestored_run b self e hw hp (h4.ge.trans' (by decide))
    rw [h4] at hrun
    exact ⟨_, hrun, rfl, hst, hwc, backInRun_pins hs.1 b, h22, h31, hel⟩
  · obtain ⟨hst, -, -⟩ := backInRun_awake hs.1 b
    obtain ⟨hcode, hslot⟩ := backInRun_code hs.1 b
    have hcan : (s.dev.backInRun b).Canonical := run_canonical _ (run_canonical _ (after_canonical _ hs.1))
    have hrun := railsRestored_run b self e hw hp h3.ge
    rw [h3] at hrun
    have hboot (v : Nat) : ((s.dev.backInRun b).put .idBootProgress 0 0 (.num v)).num .pwrState = 0 ∧
        ((s.dev.backInRun b).put .idBootProgress 0 0 (.num v)).num .idBootProgress = v :=
      ⟨(congrArg Val.n (Dev.get_put_other hcan.objs _ (by decide))).trans hst, Dev.num_put hcan.objs _ _ _ _⟩
    refine ⟨_, hrun, rfl, fun h7 => ?_, fun h7 hself => ?_⟩
    · rw [← hslot] at h7
      simp only [beq_self_eq_true, Prog.when_true, Prog.run_all_cons, Prog.all_nil, Prog.run_skip,
        restoreFirmware_waits b (hcode.trans hc) h7]
      exact hboot 0x10
    · rw [← hslot] at h7
      subst hself
      simp only [beq_self_eq_true, Prog.when_true, Prog.run_all_cons, Prog.all_nil, Prog.run_skip,
        restoreFirmware_halts b (hcode.trans hc) h7]
      exact hboot 0xE0

end Sys2Proof.Machine
end

section
/-!
PROOFS about the activation states: downstream messages that are acted on, and what a change of state leaves as it was.
-/
namespace Sys2Proof.Machine

/-! ## Downstream messages (R154, R337) -/

section
variable {d : Dev} {n : Nat} {m : Lemow} {rule : Dev → LemowRule} {act : Prog}

/-- A message reaches the terminal: its address is one that the kind takes. -/
def Dev.takes (d : Dev) (n : Nat) (m : Lemow) (r : LemowRule) : Prop :=
  (r.toHandle = true ∧ m.addr.toNat = d.num .actHandle n ∧ m.addr.toNat ≠ 0xFFFF) ∨
    (r.toNone = true ∧ m.addr.toNat = 0xFFFE ∧ d.num .actHandle n = 0xFFFF) ∨ (r.toAll = true ∧ m.addr.toNat = 0xFFFF)

theorem Dev.takes.addressed {r : LemowRule} (h : d.takes n m r) : d.addressed n m.addr.toNat = true := by
  rw [addressed_iff]
  rcases h with ⟨-, h, -⟩ | ⟨-, h⟩ | ⟨-, h⟩
  · exact .inr (.inl h)
  · exact .inr (.inr h)
  · exact .inl h

theorem Dev.takes.mine {r : LemowRule} (h : d.takes n m r) :
    ((r.toHandle && m.addr.toNat == d.num .actHandle n && m.addr.toNat != 0xFFFF) ||
      (r.toNone && m.addr.toNat == 0xFFFE && d.num .actHandle n == 0xFFFF) || (r.toAll && m.addr.toNat == 0xFFFF)) = true := by
  simp only [Bool.or_eq_true, Bool.and_eq_true, beq_iff_eq, bne_iff_ne, or_assoc, and_assoc]
  exact h

variable (ht : d.takes n m (rule d)) (hl : m.body.length = (rule d).len) (hb : (rule d).bad = false)
include ht hl hb

theorem lemow_acts (hn : (rule d).named ≠ some false) (hg : (rule d).legal = true) : (lemowIn n m rule act).run d = act.run d := by
  have hw : ¬(m.body.length ≠ (rule d).len ∨ (rule d).bad = true) := by rw [hb]; simpa using hl
  have hn' : ((rule d).named == some false) = false := beq_false_of_ne hn
  simp only [lemowIn, Prog.run_ask, ht.addressed, ht.mine, if_neg hw, hn', hg]
  rfl

theorem lemow_other (hn : (rule d).named = some false) : (lemowIn n m rule act).run d = d := by
  have hw : ¬(m.body.length ≠ (rule d).len ∨ (rule d).bad = true) := by rw [hb]; simpa using hl
  simp only [lemowIn, Prog.run_ask, ht.addressed, ht.mine, if_neg hw, hn]
  rfl

theorem lemow_illegal (hn : (rule d).named = none) (hg : (rule d).legal = false)
    (hh : m.addr.toNat = d.num .actHandle n ∧ m.addr.toNat ≠ 0xFFFF) :
    (lemowIn n m rule act).run d = (Eff.count .actMsgIllegal n 0 1).apply d := by
  have hw : ¬(m.body.length ≠ (rule d).len ∨ (rule d).bad = true) := by rw [hb]; simpa using hl
  have hc : (m.addr.toNat == d.num .actHandle n && m.addr.toNat != 0xFFFF) = true := by simpa using hh
  simp only [lemowIn, Prog.run_ask, ht.addressed, ht.mine, if_neg hw, hn, hg, hc]
  rfl

end

/-- An answer on the path that carried the message (R340). -/
def answerEff (n : Nat) (m : Lemow) (code : Nat) (body : List Byte) : Eff := .fch n fun c =>
  let p : List Byte := lemowMsg code m.seq.toNat body
  if m.inband then { c with inq := c.inq ++ [⟨true, 0, p⟩] }
  else { c with txq := c.txq.filter (·.lemow) ++ [⟨true, 2, p⟩] ++ c.txq.filter (!·.lemow) }

/-- The queue of the answer has room. -/
def Fch.room (c : Fch) (m : Lemow) : Prop := (m.inband = true → c.inq.length < 16) ∧ (m.inband = false → c.txq.length < 16)

theorem answerLemow_run {d : Dev} {n : Nat} {m : Lemow} (h : (d.ch n).room m) (code : Nat) (body : List Byte) :
    (answerLemow n m.inband code m.seq.toNat body).run d = (answerEff n m code body).apply d := by
  obtain ⟨hi, ht⟩ := h
  cases hb : m.inband
  · have he : answerEff n m code body = .fch n fun c =>
        { c with txq := c.txq.filter (·.lemow) ++ [⟨true, 2, lemowMsg code m.seq.toNat body⟩] ++ c.txq.filter (!·.lemow) } := by
      simp only [answerEff, hb, Bool.false_eq_true, if_false]
    simp only [answerLemow, Bool.false_eq_true, if_false, txEnqueue, Prog.run_ask, if_pos (ht hb), he]
    rfl
  · have he : answerEff n m code body = .fch n fun c => { c with inq := c.inq ++ [⟨true, 0, lemowMsg code m.seq.toNat body⟩] } := by
      simp only [answerEff, hb, if_true]
    simp only [answerLemow, if_true, inbandEnqueue, Prog.run_ask, if_pos (hi hb), he, Prog.run_eff]

theorem ack_run {d : Dev} {n : Nat} {m : Lemow} (h : (d.ch n).room m) (code result : Nat) :
    (ack n m code result).run d = (answerEff n m 0x43 (beBytes 1 code ++ beBytes 1 result ++ [0, 0])).apply d :=
  answerLemow_run h _ _

/-! ## Changes of the activation state (Table 12.7) -/

/-- What leaving a state does beside the change itself. -/
def Dev.leaves (d : Dev) (n new : Nat) : Prog :=
  .all [.when (d.num .actState n == 4) [
      .eff (.fch n fun c => { c with burstOn := false, onAir := none, bursts := [] }),
      .when (d.num .timeSource == 0 && d.num .clkTimingChannel == n) [setSync false]],
    .when (new == 0 || new == 1 || new == 6) [flushPort (108 + n) 8]]

/-- The change itself, with its event. -/
def Dev.moved (d : Dev) (n new cause : Nat) : List Eff :=
  [.obj .actState n 0 (.num new), .raise (128 + 16 * n + 14) cause n (top8 (d.num .actState n) + new % 256 * 65536) 0]

/-- The counter of what a discard under a reason drops. -/
def dropKeys (reason : Nat) : Nat → Bool := keysOf [(.tmDrops, 0, reason - 1)]

theorem flushQueue_adds (q reason : Nat) : (flushQueue q reason).Only (Eff.adds (dropKeys reason) [.occs, .tm]) := fun d =>
  ⟨only_each fun _ => ⟨adds_count.mpr (by simp [dropKeys, keysOf]), adds_tm (by decide) _, trivial⟩, adds_tm (by decide) _, fun d =>
    ⟨only_when ⟨adds_raise (by decide) _ _ _ _ _, adds_tm (by decide) _, trivial⟩, only_when ⟨adds_tm (by decide) _, trivial⟩, trivial⟩,
    trivial⟩

theorem flushPort_adds (p reason : Nat) : (flushPort p reason).Only (Eff.adds (dropKeys reason) [.occs, .tm]) := fun _ =>
  only_each fun q => flushQueue_adds q reason

/-- The objects that leaving a state may write. -/
def leaveKeys : Nat → Bool := keysOf [(.timeStatus, 0, 0), (.tmDrops, 0, 7)]

theorem leaveKeys_state (n : Fin 4) : leaveKeys (Obj.actState.key n.val 0) = false := by revert n; decide

theorem leaves_adds (d : Dev) (n new : Nat) : (d.leaves n new).Only (Eff.adds leaveKeys [.occs, .fch, .tm]) :=
  ⟨only_when ⟨adds_fch (by decide) _ _, only_when ⟨setSync_adds (by decide) (by decide) false, trivial⟩, trivial⟩,
    only_when ⟨(flushPort_adds _ 8).mono fun _ h => h.mono (fun k hk => by
      simp only [dropKeys, leaveKeys, keysOf, List.any_cons, List.any_nil, Bool.or_false, Bool.or_eq_true] at hk ⊢
      exact .inr hk) (by decide), trivial⟩, trivial⟩

section
variable {d : Dev} {n new : Nat} (cause : Nat)

theorem actTo_same (h : d.num .actState n = new) : (actTo n new cause).run d = d := by
  simp only [actTo, Prog.run_ask, h, bne_self_eq_false, Prog.when_false, Prog.run_skip]

variable (h : d.num .actState n ≠ new)
include h

theorem actTo_run : (actTo n new cause).run d = (d.leaves n new).run (d.after (d.moved n new cause)) := by
  simp only [actTo, Prog.run_ask, bne_iff_ne.mpr h]
  rfl

theorem actTo_plain (h4 : d.num .actState n ≠ 4) (hn : keepsQueues new) : (actTo n new cause).run d = d.after (d.moved n new cause) := by
  have hnew : (new == 0 || new == 1 || new == 6) = false := hn
  rw [actTo_run cause h, Dev.leaves, beq_false_of_ne h4, hnew]
  rfl

theorem actTo_raises : ((actTo n new cause).run d).raisedEvent (128 + 16 * n + 14) cause n := by
  rw [actTo_run cause h]
  exact (leaves_adds d n new).raisedEvent (raisedEvent_raise _ _ _ _ _ _)

end

section
variable {d : Dev} (hd : d.Canonical)
include hd

theorem moved_state (n : Fin 4) (new cause : Nat) : (d.after (d.moved n.val new cause)).num .actState n.val = new := Dev.num_put hd.objs _ _ _ _

/-- Another object than those of an activation state stays. -/
theorem actTo_num {o : Obj} {i j : Nat} (n new cause : Nat) (h : o.key i j ≠ Obj.actState.key n 0) (hk : leaveKeys (o.key i j) = false) :
    ((actTo n new cause).run d).num o i j = d.num o i j := by
  by_cases hs : d.num .actState n = new
  · rw [actTo_same cause hs]
  · rw [actTo_run cause hs, (leaves_adds d n new).num (after_canonical _ hd).objs hk]
    exact congrArg Val.n (Dev.get_put_other hd.objs _ h)

theorem actTo_state (n : Fin 4) (new cause : Nat) : ((actTo n.val new cause).run d).num .actState n.val = new := by
  by_cases hs : d.num .actState n.val = new
  · rw [actTo_same cause hs, hs]
  · rw [actTo_run cause hs, (leaves_adds d n.val new).num (after_canonical _ hd).objs (leaveKeys_state n), moved_state hd]

end

/-! ## Handle, allocations and delay dropped -/

/-- The effects of dropping allocations, and what hangs on a registration. -/
def unregistered (n : Nat) : List Eff := [.dropObjs (isAllocKey n), .fch n fun c => { c with
  unranged := true, eqdTaken := false, bursts := [], cuts := [], select := none, modePend := none }]

/-- The effects of dropping the parameters. -/
def dropEffs (n : Nat) : List Eff := .obj .actHandle n 0 (.num 0xFFFF) :: .obj .actEqd n 0 (.num 0) :: unregistered n

theorem dropParams_run (n : Nat) (d : Dev) : (dropParams n).run d = d.after (dropEffs n) := rfl

theorem unregistered_keys (n k : Nat) : ((unregistered n).any fun e => e.keys k) = isAllocKey n k := by
  simp [unregistered, Eff.keys]

theorem isAllocKey_eqd (n : Fin 4) : isAllocKey n.val (Obj.actEqd.key n.val 0) = false := by revert n; decide
theorem isAllocKey_handle (n : Fin 4) : isAllocKey n.val (Obj.actHandle.key n.val 0) = false := by revert n; decide
theorem handle_ne_eqd (n : Fin 4) : Obj.actHandle.key n.val 0 ≠ Obj.actEqd.key n.val 0 := by revert n; decide

section
variable {d : Dev} (hd : d.Canonical) (n : Fin 4)
include hd

theorem dropEffs_eqd : (d.after (dropEffs n.val)).num .actEqd n.val = 0 := by
  have hc := Eff.apply_canonical (.obj .actHandle n.val 0 (.num 0xFFFF)) d hd
  rw [dropEffs, Dev.after_cons, Dev.after_cons, after_num (Eff.apply_canonical _ _ hc).objs
    ((unregistered_keys _ _).trans (isAllocKey_eqd n))]
  exact Dev.num_put hc.objs _ _ _ _

theorem dropEffs_handle : (d.after (dropEffs n.val)).num .actHandle n.val = 0xFFFF := by
  have hc := Eff.apply_canonical (.obj .actHandle n.val 0 (.num 0xFFFF)) d hd
  rw [dropEffs, Dev.after_cons, Dev.after_cons, after_num (Eff.apply_canonical _ _ hc).objs
    ((unregistered_keys _ _).trans (isAllocKey_handle n))]
  exact (congrArg Val.n (Dev.get_put_other hc.objs _ (handle_ne_eqd n))).trans (Dev.num_put hd.objs _ _ _ _)

theorem dropEffs_num {o : Obj} {i j : Nat} (h : ((dropEffs n.val).any fun e => e.keys (o.key i j)) = false) :
    (d.after (dropEffs n.val)).num o i j = d.num o i j := after_num hd.objs h

end

end Sys2Proof.Machine
end

section
/-!
PROOFS of registration: the messages that register a terminal, what sends it back to Listening, and its restart (O37).
-/
namespace Sys2Proof.Machine

theorem exec_assign (n : Fin 4) (m : Lemow) (s : State) : exec (.assign n m) s = execAssign n m s := rfl
theorem exec_offer (n : Fin 4) (m : Lemow) (s : State) : exec (.offer n m) s = execOffer n m s := rfl
theorem exec_confirm (n : Fin 4) (m : Lemow) (s : State) : exec (.confirm n m) s = execConfirm n m s := rfl
theorem exec_eqd (n : Fin 4) (m : Lemow) (s : State) : exec (.eqd n m) s = execEqd n m s := rfl
theorem exec_alloc (n : Fin 4) (m : Lemow) (s : State) : exec (.alloc n m) s = execAlloc n m s := rfl
theorem exec_activate (n : Fin 4) (m : Lemow) (s : State) : exec (.activate n m) s = execActivate n m s := rfl
theorem exec_refuse (n : Fin 4) (m : Lemow) (s : State) : exec (.refuse n m) s = execRefuse n m s := rfl
theorem exec_deactivate (n : Fin 4) (m : Lemow) (s : State) : exec (.deactivate n m) s = execDeactivate n m s := rfl
theorem exec_disable (n : Fin 4) (m : Lemow) (s : State) : exec (.disable n m) s = execDisable n m s := rfl
theorem exec_enable (n : Fin 4) (m : Lemow) (s : State) : exec (.enable n m) s = execEnable n m s := rfl
theorem exec_announceTimeout (n : Fin 4) (s : State) : exec (.announceTimeout n) s = execAnnounceTimeout n s := rfl
theorem exec_rangeTimeout (n : Fin 4) (s : State) : exec (.rangeTimeout n) s = execRangeTimeout n s := rfl
theorem exec_holdTimeout (n : Fin 4) (s : State) : exec (.holdTimeout n) s = execHoldTimeout n s := rfl
theorem exec_refuseHoldoffEnd (n : Fin 4) (s : State) : exec (.refuseHoldoffEnd n) s = execRefuseHoldoffEnd n s := rfl
theorem exec_actEqdWrite (o : Origin) (n : Fin 4) (v : BitVec 32) (s : State) :
    exec (.actEqdWrite o n v) s = s.run (serve (writeReq o .actEqd n.val 0 (.num v.toNat)) (actEqdBeh n.val v.toNat)) := rfl
theorem exec_actRestart (o : Origin) (n : Fin 4) (s : State) :
    exec (.actRestart o n) s = s.run (serve (execReq o .actRestart n.val 0 true (.num 0)) (actRestartBeh n.val)) := rfl

theorem msgAt_eq (m : Lemow) (off len : Nat) : msgAt m off len = beAt m.body off len := rfl

/-! ## ASSIGN (R347) -/

theorem handle_ne_state (n : Fin 4) : Obj.actHandle.key n.val 0 ≠ Obj.actState.key n.val 0 := by revert n; decide

section
variable {s : State} {n : Fin 4} {m : Lemow} (ha : s.dev.answers = true)

theorem actIn_of {d : Dev} {n : Nat} {l : List Nat} (h : d.num .actState n ∈ l) : d.actIn n l = true := List.contains_iff_mem.mpr h

include ha in
theorem assign_taken (hs : s.Inv) (h2 : s.dev.num .actState n.val = 2) (hh : s.dev.num .actHandle n.val = 0xFFFF)
    (hm : m.addr.toNat = 0xFFFE) (hl : m.body.length = 12) (hid : beAt m.body 0 8 = s.dev.num .idTerminal)
    (hn : beAt m.body 8 2 ≤ 0x0FFF) (hr : (s.dev.ch n.val).retHandle ≠ beAt m.body 8 2) : exec (.assign n m) s = .next (s.after
      ([.obj .actHandle n.val 0 (.num (beAt m.body 8 2))] ++ s.dev.moved n.val 3 6 ++
        [.fch n.val fun c => { c with
          retHandle := 0xFFFF, retAllocs := [], retEqd := 0, unranged := true, eqdTaken := false, windows := []
          attempt := 0, skips := 0 }])) := by
  have hst : ((Eff.obj .actHandle n.val 0 (.num (beAt m.body 8 2))).apply s.dev).num .actState n.val = 2 :=
    (congrArg Val.n (Dev.get_put_other hs.1.objs _ (handle_ne_state n).symm)).trans h2
  have hmv : (actTo n.val 3 6).run ((Eff.obj .actHandle n.val 0 (.num (beAt m.body 8 2))).apply s.dev) =
      ((Eff.obj .actHandle n.val 0 (.num (beAt m.body 8 2))).apply s.dev).after (s.dev.moved n.val 3 6) := by
    rw [actTo_plain (new := 3) 6 (by rw [hst]; decide) (by rw [hst]; decide) rfl, Dev.moved, hst, Dev.moved, h2]
  have hsame : ((s.dev.ch n.val).retHandle == beAt m.body 8 2) = false := beq_false_of_ne hr
  rw [exec_assign, execAssign, State.run_eq, live_run ha, lemow_acts (n := n.val)]
  · simp only [Prog.run_ask, hsame, Prog.when_false, Prog.run_all_cons, Prog.run_skip, Prog.all_nil, run_putN, Prog.run_eff, msgAt, hmv]
    rfl
  · exact .inr (.inl ⟨rfl, hm, hh⟩)
  · exact hl
  · exact decide_eq_false (Nat.not_lt.mpr hn)
  · simp [msgAt, hid]
  · exact actIn_of (by simp [h2])

include ha in
theorem assign_other (hh : s.dev.num .actHandle n.val = 0xFFFF)
    (hm : m.addr.toNat = 0xFFFE) (hl : m.body.length = 12) (hid : beAt m.body 0 8 ≠ s.dev.num .idTerminal)
    (hn : beAt m.body 8 2 ≤ 0x0FFF) : exec (.assign n m) s = .next s := by
  rw [exec_assign, execAssign, State.run_eq, live_run ha, lemow_other (n := n.val)]
  · exact .inr (.inl ⟨rfl, hm, hh⟩)
  · exact hl
  · exact decide_eq_false (Nat.not_lt.mpr hn)
  · simp [msgAt, hid]

end

/-! ## Messages to the handle -/

/-- A message to this terminal's handle, of the length its kind has. -/
structure Dev.toHandle (d : Dev) (n : Nat) (m : Lemow) (len : Nat) : Prop where
  addr : m.addr.toNat = d.num .actHandle n
  handle : d.num .actHandle n ≠ 0xFFFF
  length : m.body.length = len

section
variable {s : State} {n : Fin 4} {m : Lemow} (ha : s.dev.answers = true)

theorem toHandle_acts {d : Dev} {n : Nat} {m : Lemow} {len : Nat} (h : d.toHandle n m len) {bad legal : Dev → Bool} {act : Prog}
    (hb : bad d = false) (hg : legal d = true) : (lemowIn n m (fun d => toHandleRule len (bad d) (legal d)) act).run d = act.run d :=
  lemow_acts (.inl ⟨rfl, h.addr, fun he => h.handle (h.addr.symm.trans he)⟩) h.length hb (fun hn => nomatch hn) hg

theorem toHandle_illegal {d : Dev} {n : Nat} {m : Lemow} {len : Nat} (h : d.toHandle n m len) {bad legal : Dev → Bool} {act : Prog}
    (hb : bad d = false) (hg : legal d = false) :
    (lemowIn n m (fun d => toHandleRule len (bad d) (legal d)) act).run d = (Eff.count .actMsgIllegal n 0 1).apply d :=
  have hne : m.addr.toNat ≠ 0xFFFF := fun he => h.handle (h.addr.symm.trans he)
  lemow_illegal (.inl ⟨rfl, h.addr, hne⟩) h.length hb rfl hg ⟨h.addr, hne⟩

/-- Changes of other fields leave the answer's room. -/
theorem room_fch {d : Dev} (hd : d.Canonical) {n : Nat} {m : Lemow} {f : Fch → Fch} (hi : ∀ c, (f c).inq = c.inq)
    (ht : ∀ c, (f c).txq = c.txq) (h : (d.ch n).room m) : (((Eff.fch n f).apply d).ch n).room m := by
  rw [ch_fch hd, Fch.room, hi, ht]
  exact h

variable (hs : s.Inv) (hroom : (s.dev.ch n.val).room m)
include ha hs hroom

theorem offer_run (h : s.dev.toHandle n.val m 8) (h3 : s.dev.num .actState n.val = 3) (hb : bitOf (beAt m.body 0 4) 27 = true)
    (h7 : 7 ≤ beAt m.body 4 1) (h12 : beAt m.body 4 1 ≤ 12) : exec (.offer n m) s = .next (s.after
      [.fch n.val (fun c => { c with select := some (s.dev.bestMode n.val (beAt m.body 0 4) (beAt m.body 4 1) (beAt m.body 5 1)) }),
        answerEff n.val m 0x42 (beBytes 4 (s.dev.bestMode n.val (beAt m.body 0 4) (beAt m.body 4 1) (beAt m.body 5 1)))]) := by
  have hbad : (!bitOf (msgAt m 0 4) 27 || decide (msgAt m 4 1 < 7) || decide (12 < msgAt m 4 1)) = false := by
    change (!bitOf (beAt m.body 0 4) 27 || decide (beAt m.body 4 1 < 7) || decide (12 < beAt m.body 4 1)) = false
    simp [hb, h7, h12]
  rw [exec_offer, execOffer, State.run_eq, live_run ha,
    toHandle_acts h (bad := fun _ => _) (legal := fun d => d.actIn n.val [3]) hbad (actIn_of (by simp [h3]))]
  have hr := room_fch hs.1 (f := fun c => { c with
    select := some (s.dev.bestMode n.val (beAt m.body 0 4) (beAt m.body 4 1) (beAt m.body 5 1)) }) (fun _ => rfl) (fun _ => rfl) hroom
  simp only [Prog.run_ask, msgAt, Prog.run_all_cons, Prog.run_eff, Prog.all_nil, Prog.run_skip, answerLemow_run hr]
  rfl

omit ha hs hroom in
theorem modeBond_ok {v : Nat} (h : v < 3 * 2 ^ 30) : (modeBond v == 3) = false := by
  refine beq_false_of_ne ?_
  simp only [modeBond, bitsOf]
  omega

theorem confirm_run (h : s.dev.toHandle n.val m 12) (h3 : s.dev.num .actState n.val = 3) (hb : beAt m.body 0 4 < 3 * 2 ^ 30)
    (mode f : Nat) (hm : mode = beAt m.body 0 4 / 2 ^ 20 * 2 ^ 20) (hf : f = beAt m.body 4 8 % 2 ^ 51) :
    ((s.dev.ch n.val).select = some mode → s.dev.num .frmFrame n.val + 2 ≤ f → exec (.confirm n m) s = .next (s.after
      [.fch n.val (fun c => { c with modePend := some (mode, f) }), answerEff n.val m 0x43 [0x04, 0, 0, 0]])) ∧
    ((s.dev.ch n.val).select ≠ some mode ∨ f < s.dev.num .frmFrame n.val + 2 →
      exec (.confirm n m) s = .next (s.after [answerEff n.val m 0x43 [0x04, 1, 0, 0]])) := by
  subst hm hf
  have hbad : (modeBond (msgAt m 0 4) == 3) = false := modeBond_ok hb
  rw [exec_confirm, execConfirm, State.run_eq, live_run ha,
    toHandle_acts h (bad := fun _ => _) (legal := fun d => d.actIn n.val [3]) hbad (actIn_of (by simp [h3]))]
  refine ⟨fun hsel hf => ?_, fun hno => ?_⟩
  · have hr := room_fch hs.1 (f := fun c => { c with
      modePend := some (msgAt m 0 4 / 2 ^ 20 * 2 ^ 20, msgAt m 4 8 % 2 ^ 51) }) (fun _ => rfl) (fun _ => rfl) hroom
    have hc : (s.dev.ch n.val).select = some (msgAt m 0 4 / 2 ^ 20 * 2 ^ 20) ∧
        s.dev.num .frmFrame n.val + 2 ≤ msgAt m 4 8 % 2 ^ 51 := ⟨hsel, hf⟩
    simp only [Prog.run_ask, if_pos hc, Prog.run_all_cons, Prog.run_eff, Prog.all_nil, Prog.run_skip, ack_run hr]
    rfl
  · have hc : ¬((s.dev.ch n.val).select = some (msgAt m 0 4 / 2 ^ 20 * 2 ^ 20) ∧
        s.dev.num .frmFrame n.val + 2 ≤ msgAt m 4 8 % 2 ^ 51) := fun ⟨h1, h2⟩ =>
      hno.elim (fun h => h h1) (fun h => absurd h2 (Nat.not_le.mpr h))
    simp only [Prog.run_ask, if_neg hc, ack_run hroom]
    rfl

/-- A new delay. -/
def eqdEffs (d : Dev) (n v : Nat) : List Eff := [.obj .actEqd n 0 (.num v), .fch n fun c => { c with
  unranged := !(d.num .clkFchState 0 n == 2), eqdTaken := d.num .clkFchState 0 n == 2 }]

omit ha hs hroom in
theorem takeEqd_run (n v : Nat) (d : Dev) : (takeEqd n v).run d = d.after (eqdEffs d n v) := rfl

theorem eqd_run (h : s.dev.toHandle n.val m 4) (h34 : s.dev.num .actState n.val = 3 ∨ s.dev.num .actState n.val = 4) :
    exec (.eqd n m) s = .next (s.after (eqdEffs s.dev n.val (beAt m.body 0 4 % 2 ^ 24) ++ [answerEff n.val m 0x43 [0x05, 0, 0, 0]])) := by
  have hc := Eff.apply_canonical (.obj .actEqd n.val 0 (.num (beAt m.body 0 4 % 2 ^ 24))) s.dev hs.1
  rw [exec_eqd, execEqd, State.run_eq, live_run ha,
    toHandle_acts h (bad := fun _ => false) (legal := fun d => d.actIn n.val [3, 4]) rfl (actIn_of (by simpa using h34))]
  have hr : ((s.dev.after (eqdEffs s.dev n.val (beAt m.body 0 4 % 2 ^ 24))).ch n.val).room m :=
    room_fch hc (fun _ => rfl) (fun _ => rfl) hroom
  simp only [Prog.run_all_cons, takeEqd_run, Prog.all_nil, Prog.run_skip, msgAt, ack_run hr]
  rfl

end


/-! ## ALLOC (R352) -/

/-- What a change of a slot does: the slot, and the grants still to come. -/
def allocEffs (n slot a : Nat) (add : Bool) (first : Nat) : List Eff :=
  [.obj .actAlloc n slot (.num (if add then 2 ^ 15 + a else 0)), .fch n fun c => { c with
    allocPend := (c.allocPend.filter fun x => decide (first ≤ x.2.2 + 2)) ++ [(a, add, first)],
    cuts := if add then c.cuts else SMap.put [] a [] c.cuts }]

theorem setAlloc_run (n slot a : Nat) (add : Bool) (first : Nat) (d : Dev) :
    (setAlloc n slot a add first).run d = d.after (allocEffs n slot a add first) := rfl

/-- Slots of a channel lie apart. -/
theorem allocKey_ne (n : Nat) {i j : Nat} (h : i ≠ j) : Obj.actAlloc.key n i ≠ Obj.actAlloc.key n j := by
  simp only [Obj.key, Obj.row]
  omega

section
variable {d : Dev} (hd : d.Canonical) {n : Nat} {m : Lemow} (a : Nat) (add : Bool) (first : Nat) (body : List Byte)
include hd

/-- A slot has changed and the change is acknowledged. -/
def Dev.allocated (d : Dev) (n : Nat) (m : Lemow) (slot a : Nat) (add : Bool) (first : Nat) (body : List Byte) : Dev :=
  (d.after (allocEffs n slot a add first)).after [answerEff n m 0x43 body]

theorem allocated_slot (i : Nat) : (d.allocated n m i a add first body).num .actAlloc n i = if add then 2 ^ 15 + a else 0 :=
  Dev.num_put hd.objs _ _ _ _

theorem allocated_other {i j : Nat} (h : j ≠ i) : (d.allocated n m i a add first body).num .actAlloc n j = d.num .actAlloc n j :=
  congrArg Val.n (Dev.get_put_other hd.objs _ (allocKey_ne n h))

theorem allocated_only (i : Nat) : d.only (keysOf [(.actAlloc, n, i)]) [.fch] (d.allocated n m i a add first body) := by
  rw [Dev.allocated, ← after_append, ← run_ofEffs]
  refine ((ofEffs_only (ok := Eff.adds (keysOf [(.actAlloc, n, i)]) [.fch]) fun e he => ?_).within d hd.objs).2
  simp only [allocEffs, List.cons_append, List.nil_append, List.mem_cons, List.not_mem_nil, or_false] at he
  rcases he with rfl | rfl | rfl
  · exact adds_obj.mpr (by simp [keysOf])
  · exact adds_fch (by decide) _ _
  · exact adds_fch (by decide) _ _

end

/-- A slot that holds an allocation shows it and its number. -/
theorem slotWord {a : Nat} (h : a < 2 ^ 14) : bitOf (2 ^ 15 + a) 15 = true ∧ (2 ^ 15 + a) % 2 ^ 14 = a := by
  have hd : (2 ^ 15 + a) / 2 ^ 15 = 1 := by omega
  exact ⟨by rw [bitOf, hd]; rfl, by omega⟩

/-- A slot holds an allocation. -/
def Dev.holdsAlloc (d : Dev) (n a i : Nat) : Bool := bitOf (d.num .actAlloc n i) 15 && d.num .actAlloc n i % 2 ^ 14 == a

theorem allocSlot_eq (d : Dev) (n a : Nat) : d.allocSlot n a = (List.range 1024).find? (d.holdsAlloc n a) := by
  rw [Dev.allocSlot, Dev.allocSlots, List.find?_filter]
  refine congrArg (fun f => List.find? f (List.range 1024)) (funext fun i => ?_)
  simp only [Dev.holdsAlloc, Bool.decide_and, Bool.decide_eq_true]

theorem allocSlot_none_iff {d : Dev} {n a : Nat} : d.allocSlot n a = none ↔ ∀ j < 1024, d.holdsAlloc n a j = false := by
  simp [allocSlot_eq]

/-- The slot that an allocation has entered is the one that holds it. -/
theorem allocated_found {d : Dev} (hd : d.Canonical) {n i a : Nat} (m : Lemow) (hi : i < 1024) (ha : a < 2 ^ 14) (h : d.allocSlot n a = none)
    (first : Nat) (body : List Byte) : (d.allocated n m i a true first body).allocSlot n a = some i := by
  have hs : (d.allocated n m i a true first body).num .actAlloc n i = 2 ^ 15 + a := allocated_slot hd a true first body i
  obtain ⟨hb, hv⟩ := slotWord ha
  rw [allocSlot_eq, List.find?_range_eq_some]
  refine ⟨by simp only [Dev.holdsAlloc, hs, hb, hv, beq_self_eq_true, Bool.and_self], List.mem_range.mpr hi, fun j hj => ?_⟩
  have hold := allocSlot_none_iff.mp h j (hj.trans hi)
  rw [Dev.holdsAlloc] at hold ⊢
  rw [allocated_other hd a true first body (Nat.ne_of_lt hj), hold]
  rfl

section
variable {s : State} {n : Fin 4} {m : Lemow} (ha : s.dev.answers = true) (hs : s.Inv) (hroom : (s.dev.ch n.val).room m)
  (h : s.dev.toHandle n.val m 4) (h345 : s.dev.num .actState n.val = 3 ∨ s.dev.num .actState n.val = 4 ∨ s.dev.num .actState n.val = 5)
  (ha2 : beAt m.body 2 2 % 2 ^ 14 ≠ 0x3FFF)
include ha hroom h h345 ha2

omit hroom in
theorem alloc_admitted (hk : beAt m.body 0 1 ≤ 1) (act : Prog) : (live (lemowIn n.val m
    (fun d => toHandleRule 4 (decide (2 < msgAt m 0 1) || msgAt m 2 2 % 2 ^ 14 == 0x3FFF) (d.actIn n.val [3, 4, 5])) act)).run s.dev =
      act.run s.dev := by
  have hbad : (decide (2 < msgAt m 0 1) || msgAt m 2 2 % 2 ^ 14 == 0x3FFF) = false :=
    Bool.or_eq_false_iff.mpr ⟨decide_eq_false (Nat.not_lt.mpr (hk.trans (by decide))), beq_false_of_ne ha2⟩
  rw [live_run ha, toHandle_acts h (bad := fun _ => _) (legal := fun d => d.actIn n.val [3, 4, 5]) hbad (actIn_of (by simpa using h345))]

theorem alloc_done (hk : beAt m.body 0 1 ≤ 1) (hd : (s.dev.allocSlot n.val (beAt m.body 2 2 % 2 ^ 14)).isSome = decide (beAt m.body 0 1 = 0)) :
    exec (.alloc n m) s = .next (s.after [answerEff n.val m 0x43 [0x06, 0, 0, 0]]) := by
  rw [exec_alloc, execAlloc, State.run_eq, alloc_admitted ha h h345 ha2 hk]
  rcases Nat.le_one_iff_eq_zero_or_eq_one.mp hk with h0 | h1
  · simp only [h0, decide_true] at hd
    simp only [Prog.run_ask, msgAt_eq, h0, hd, if_true, ack_run hroom]
    rfl
  · have hn : s.dev.allocSlot n.val (beAt m.body 2 2 % 2 ^ 14) = none := by simpa [h1] using hd
    simp only [Prog.run_ask, msgAt_eq, h1, hn, Prog.run_all_cons, Prog.run_skip, Prog.all_nil, ack_run hroom]
    rfl

theorem alloc_full (h0 : beAt m.body 0 1 = 0) (hn : s.dev.allocSlot n.val (beAt m.body 2 2 % 2 ^ 14) = none)
    (hf : ∀ i < 1024, bitOf (s.dev.num .actAlloc n.val i) 15 = true) :
    exec (.alloc n m) s = .next (s.after [answerEff n.val m 0x43 [0x06, 2, 0, 0]]) := by
  have hnone : ((List.range 1024).find? fun i => !bitOf (s.dev.num .actAlloc n.val i) 15) = none := by
    simpa using hf
  rw [exec_alloc, execAlloc, State.run_eq, alloc_admitted ha h h345 ha2 (by omega)]
  simp only [Prog.run_ask, msgAt_eq, h0, hn, hnone, Option.isSome_none, Bool.false_eq_true, if_false, ack_run hroom]
  rfl

include hs

omit ha h h345 ha2 in
/-- The answer finds its room after a change of the allocations. -/
theorem room_alloc (i a : Nat) (add : Bool) (first : Nat) : ((s.dev.after (allocEffs n.val i a add first)).ch n.val).room m :=
  room_fch (Eff.apply_canonical _ _ hs.1) (fun _ => rfl) (fun _ => rfl) hroom

theorem alloc_adds {i : Nat} (hi : i < 1024) (h0 : beAt m.body 0 1 = 0) (hn : s.dev.allocSlot n.val (beAt m.body 2 2 % 2 ^ 14) = none)
    (hb : bitOf (s.dev.num .actAlloc n.val i) 15 = false) (hj : ∀ j < i, bitOf (s.dev.num .actAlloc n.val j) 15 = true) :
    exec (.alloc n m) s = .next { s with
      dev := s.dev.allocated n.val m i (beAt m.body 2 2 % 2 ^ 14) true (s.dev.allocFrom n.val m.inband) [0x06, 0, 0, 0] } := by
  have hfree : ((List.range 1024).find? fun i => !bitOf (s.dev.num .actAlloc n.val i) 15) = some i := by
    rw [List.find?_range_eq_some]
    exact ⟨by rw [hb]; rfl, List.mem_range.mpr hi, fun j h => by rw [hj j h]; rfl⟩
  rw [exec_alloc, execAlloc, State.run_eq, alloc_admitted ha h h345 ha2 (by omega)]
  simp only [Prog.run_ask, msgAt_eq, h0, hn, hfree, Option.isSome_none, Bool.false_eq_true, if_false, Prog.run_all_cons, Prog.all_nil, Prog.run_skip,
    setAlloc_run, ack_run (room_alloc hs hroom i _ true _)]
  rfl

theorem alloc_removes {i : Nat} (h1 : beAt m.body 0 1 = 1) (hn : s.dev.allocSlot n.val (beAt m.body 2 2 % 2 ^ 14) = some i) :
    exec (.alloc n m) s = .next { s with
      dev := s.dev.allocated n.val m i (beAt m.body 2 2 % 2 ^ 14) false (s.dev.allocFrom n.val m.inband) [0x06, 0, 0, 0] } := by
  rw [exec_alloc, execAlloc, State.run_eq, alloc_admitted ha h h345 ha2 (by omega)]
  simp only [Prog.run_ask, msgAt_eq, h1, hn, Prog.run_all_cons, Prog.all_nil, Prog.run_skip, setAlloc_run,
    ack_run (room_alloc hs hroom i _ false _)]
  rfl

end


/-! ## ACTIVATE -/

section
variable {s : State} {n : Fin 4} {m : Lemow} (ha : s.dev.answers = true) (h : s.dev.toHandle n.val m 0) (h3 : s.dev.num .actState n.val = 3)
include ha h h3

theorem activate_operates (he : (s.dev.ch n.val).eqdTaken = true) : exec (.activate n m) s = .next (s.after (s.dev.moved n.val 4 8)) := by
  have hin : s.dev.actIn n.val [3] = true := actIn_of (by simp [h3])
  rw [exec_activate, execActivate, State.run_eq, live_run ha,
    toHandle_acts h (bad := fun _ => false) (legal := fun d => d.actIn n.val [3] && (d.ch n.val).eqdTaken) rfl (by rw [hin, he]; rfl),
    actTo_plain (new := 4) 8 (by rw [h3]; decide) (by rw [h3]; decide) rfl]
  rfl

omit h3 in
theorem activate_illegal (he : (s.dev.ch n.val).eqdTaken = false) :
    exec (.activate n m) s = .next (s.after [.count .actMsgIllegal n.val 0 1]) := by
  rw [exec_activate, execActivate, State.run_eq, live_run ha,
    toHandle_illegal h (bad := fun _ => false) (legal := fun d => d.actIn n.val [3] && (d.ch n.val).eqdTaken) rfl (by rw [he, Bool.and_false])]
  rfl

end

/-! ## Returns to Listening (Table 12.7) -/

/-- The windows and the announcing of a channel start afresh. -/
def afresh (n : Nat) : Eff := .fch n fun c => { c with windows := [], attempt := 0, skips := 0 }

theorem actListening_run (n cause : Nat) (drop : Bool) (d : Dev) : (actListening n cause drop).run d =
    (afresh n).apply (((actTo n 1 cause).run d).after (if drop then dropEffs n else [])) := by
  cases drop <;> rfl

/-- An object that dropping the parameters does not reach. -/
def undropped (n k : Nat) : Bool := !(dropEffs n).any fun e => e.keys k

theorem state_ne_drops (n : Fin 4) : Obj.actState.key n.val 0 ≠ Obj.tmDrops.key 0 7 := by revert n; decide
theorem undropped_drops (n : Fin 4) : undropped n.val (Obj.tmDrops.key 0 7) = true := by revert n; decide
theorem undropped_state (n : Fin 4) : undropped n.val (Obj.actState.key n.val 0) = true := by revert n; decide

section
variable {d : Dev} (hd : d.Canonical) (n : Fin 4) (cause : Nat) (drop : Bool)
include hd

theorem undropped_num {o : Obj} {i j : Nat} (h : undropped n.val (o.key i j) = true) :
    (d.after (if drop then dropEffs n.val else [])).num o i j = d.num o i j := by
  cases drop
  · rfl
  · exact dropEffs_num hd n (by simpa [undropped] using h)

theorem actListening_state : ((actListening n.val cause drop).run d).num .actState n.val = 1 := by
  rw [actListening_run]
  exact (undropped_num (run_canonical _ hd) n drop (undropped_state n)).trans (actTo_state hd n 1 cause)

theorem actListening_handle : ((actListening n.val cause drop).run d).num .actHandle n.val =
    if drop then 0xFFFF else d.num .actHandle n.val := by
  rw [actListening_run]
  cases drop
  · exact actTo_num hd n.val 1 cause (handle_ne_state n) (by revert n; decide)
  · exact dropEffs_handle (run_canonical _ hd) n

theorem actListening_eqd : ((actListening n.val cause true).run d).num .actEqd n.val = 0 := by
  rw [actListening_run]
  exact dropEffs_eqd (run_canonical _ hd) n

theorem actListening_num {o : Obj} {i j : Nat} (h : o.key i j ≠ Obj.actState.key n.val 0) (hk : leaveKeys (o.key i j) = false)
    (hu : undropped n.val (o.key i j) = true) : ((actListening n.val cause drop).run d).num o i j = d.num o i j := by
  rw [actListening_run]
  exact (undropped_num (run_canonical _ hd) n drop hu).trans (actTo_num hd n.val 1 cause h hk)

omit hd in
theorem actListening_raises (h : d.num .actState n.val ≠ 1) :
    ((actListening n.val cause drop).run d).raisedEvent (128 + 16 * n.val + 14) cause n.val := by
  obtain ⟨x, hx, hxs⟩ := actTo_raises (n := n.val) cause h
  rw [actListening_run]
  refine ⟨x, ?_, hxs⟩
  cases drop
  · exact hx
  · exact hx

end

/-- Discarding the queues of a port node leaves the channels. -/
theorem actTo_ch_quiet {d : Dev} (hd : d.Canonical) {n new : Nat} (cause : Nat) (h4 : d.num .actState n ≠ 4) (k : Nat) :
    ((actTo n new cause).run d).ch k = d.ch k := by
  by_cases hs : d.num .actState n = new
  · rw [actTo_same cause hs]
  · rw [actTo_run cause hs, Dev.leaves, beq_false_of_ne h4]
    have hq : (Prog.when (new == 0 || new == 1 || new == 6) [flushPort (108 + n) 8]).Only (Eff.adds (dropKeys 8) [.occs, .tm]) :=
      only_when ⟨flushPort_adds _ 8, trivial⟩
    exact congrArg (fun m => SMap.get Fch.none m k) (hq.same (x := .fch) (after_canonical (d.moved n new cause) hd).objs (by decide))

/-- The channel after a return to Listening from a state that had nothing on air. -/
theorem actListening_holdoff {d : Dev} (hd : d.Canonical) (n : Fin 4) (cause : Nat) (h4 : d.num .actState n.val ≠ 4) :
    (((actListening n.val cause true).run d).ch n.val).holdoff = (d.ch n.val).holdoff := by
  have ht := run_canonical (actTo n.val 1 cause) hd
  have hdrop := after_canonical [.obj .actHandle n.val 0 (.num 0xFFFF), .obj .actEqd n.val 0 (.num 0), .dropObjs (isAllocKey n.val)] ht
  rw [actListening_run, afresh, ch_fch (after_canonical _ ht)]
  have hq : (((actTo n.val 1 cause).run d).ch n.val).holdoff = (d.ch n.val).holdoff := by rw [actTo_ch_quiet hd cause h4]
  exact (congrArg Fch.holdoff (ch_fch hdrop n.val _)).trans hq

/-! ### The queues of the port node (R479) -/

/-- One discard after another moves the counter of their reason. -/
theorem dropped_count (q : Nat) : ∀ {l : List QPkt} {d : Dev}, d.Canonical → l ≠ [] →
    ((Prog.each l fun _ => tmDrop 8 (some q)).run d).num .tmDrops 0 7 = satAdd 64 (d.num .tmDrops 0 7) l.length
  | [], _, _, h => absurd rfl h
  | _ :: l, d, hd, _ => by
    have h1 : ((tmDrop 8 (some q)).run d).num .tmDrops 0 7 = satAdd 64 (d.num .tmDrops 0 7) 1 := Dev.num_put hd.objs _ _ _ _
    by_cases hl : l = []
    · subst hl
      exact h1
    · refine (dropped_count q (run_canonical (tmDrop 8 (some q)) hd) hl).trans ?_
      rw [h1, List.length_cons]
      simp only [satAdd]
      omega

/-- Effects that leave what the queues hold. -/
def Eff.keepsQueues (e : Eff) : Prop := ∀ (Q : SMap (List QPkt)) (d : Dev), d.tm.queues = Q → (e.apply d).tm.queues = Q

theorem keepsQueues_run {p : Prog} (h : p.Only Eff.keepsQueues) (d : Dev) : (p.run d).tm.queues = d.tm.queues :=
  Prog.Only.keeps (P := fun e => e.tm.queues = d.tm.queues) (h.mono fun _ he => he _) rfl

theorem tmDrop_queues (reason q : Nat) : (tmDrop reason (some q)).Only Eff.keepsQueues :=
  ⟨fun _ _ h => h, fun _ _ h => h, trivial⟩

theorem poolCheck_queues : poolCheck.Only Eff.keepsQueues := fun _ =>
  ⟨only_when ⟨fun _ _ h => h, fun _ _ h => h, trivial⟩, only_when ⟨fun _ _ h => h, trivial⟩, trivial⟩

theorem poolCheck_adds {ps : List Part} (ho : .occs ∈ ps) (ht : .tm ∈ ps) : poolCheck.Only (Eff.adds noKeys ps) := fun _ =>
  ⟨only_when ⟨adds_raise ho _ _ _ _ _, adds_tm ht _, trivial⟩, only_when ⟨adds_tm ht _, trivial⟩, trivial⟩

section
variable {d : Dev} (hd : d.Canonical) {q p : Nat} {l : List QPkt} (hl : l ≠ []) (hq : d.tm.queues = [(q, l)]) (hp : d.portOf q = p)
include hq hp

theorem flushPort_only : (flushPort p 8).run d = (flushQueue q 8).run d := by
  have hb : d.busyQueues.filter (fun q => d.portOf q == p) = [q] := by simp [Dev.busyQueues, hq, hp]
  simp only [flushPort, Prog.run_ask, hb]
  rfl

include hd hl

/-- The one queue of a port node is discarded under reason 8, counted packet by packet. -/
theorem flushPort_discards : ((flushPort p 8).run d).tm.queues = [] ∧
    ((flushPort p 8).run d).num .tmDrops 0 7 = satAdd 64 (d.num .tmDrops 0 7) l.length := by
  have hl' : d.queue q = l := by simp [Dev.queue, hq, SMap.get]
  have hdrop := run_canonical (Prog.each l fun _ => tmDrop 8 (some q)) hd
  have hqs : ((Prog.each l fun _ => tmDrop 8 (some q)).run d).tm.queues = [(q, l)] :=
    (keepsQueues_run (only_each fun _ => tmDrop_queues 8 q) d).trans hq
  have hrun : (flushPort p 8).run d = poolCheck.run ((Eff.tm fun t => { t with queues := SMap.put [] q [] t.queues }).apply
      ((Prog.each l fun _ => tmDrop 8 (some q)).run d)) := by
    rw [flushPort_only hq hp, flushQueue, Prog.run_ask, hl']
    rfl
  rw [hrun]
  refine ⟨(keepsQueues_run poolCheck_queues _).trans ?_, ?_⟩
  · change SMap.put [] q [] ((Prog.each l fun _ => tmDrop 8 (some q)).run d).tm.queues = []
    rw [hqs]
    simp [SMap.put]
  · rw [(poolCheck_adds (ps := [.occs, .tm]) (by decide) (by decide)).num (Eff.apply_canonical _ _ hdrop).objs rfl]
    exact dropped_count q hd hl

end


/-- Where a queue's packets go does not hang on the activation state. -/
theorem portOf_moved {d : Dev} (hd : d.Canonical) (n : Fin 4) (new cause q : Nat) :
    (d.after (d.moved n.val new cause)).portOf q = d.portOf q := by
  have hput {o : Obj} (ho : o = .tmQueueCfg ∨ o = .tmSubCfg ∨ o = .tmSvcCfg) (j : Nat) :
      (d.after (d.moved n.val new cause)).oct o 0 j = d.oct o 0 j := by
    refine congrArg Val.b (Dev.get_put_other hd.objs _ ?_)
    have hn := n.isLt
    rcases ho with rfl | rfl | rfl
    all_goals
      simp only [Obj.key, Obj.row]
      omega
  simp only [Dev.portOf, Dev.svcOf, Dev.subOf, Dev.queueRec, Dev.subRec, Dev.svcRec, hput (.inl rfl), hput (.inr (.inl rfl)),
    hput (.inr (.inr rfl))]

/-- Without a queue on the port node there is nothing to discard. -/
theorem flushPort_empty {d : Dev} {p : Nat} (h : ∀ q ∈ d.busyQueues, d.portOf q ≠ p) (reason : Nat) : (flushPort p reason).run d = d := by
  have hb : d.busyQueues.filter (fun q => d.portOf q == p) = [] := by simpa using h
  simp only [flushPort, Prog.run_ask, hb]
  rfl

section
variable {d : Dev} (hd : d.Canonical) (n : Fin 4) (cause : Nat) (drop : Bool)
include hd

omit hd in
theorem actListening_tm : ((actListening n.val cause drop).run d).tm = ((actTo n.val 1 cause).run d).tm := by
  rw [actListening_run]
  cases drop <;> rfl

theorem actListening_discards (h1 : d.num .actState n.val ≠ 1) (h4 : d.num .actState n.val ≠ 4) {q : Nat} {l : List QPkt} (hl : l ≠ [])
    (hq : d.tm.queues = [(q, l)]) (hp : d.portOf q = 108 + n.val) : ((actListening n.val cause drop).run d).tm.queues = [] ∧
    ((actListening n.val cause drop).run d).num .tmDrops 0 7 = satAdd 64 (d.num .tmDrops 0 7) l.length := by
  have hrun : (actTo n.val 1 cause).run d = (flushPort (108 + n.val) 8).run (d.after (d.moved n.val 1 cause)) := by
    rw [actTo_run cause h1, Dev.leaves, beq_false_of_ne h4]
    rfl
  have hm : (d.after (d.moved n.val 1 cause)).num .tmDrops 0 7 = d.num .tmDrops 0 7 :=
    congrArg Val.n (Dev.get_put_other hd.objs _ (state_ne_drops n).symm)
  obtain ⟨hqueues, hdrops⟩ := flushPort_discards (after_canonical (d.moved n.val 1 cause) hd) hl hq ((portOf_moved hd n 1 cause q).trans hp)
  refine ⟨by rw [actListening_tm, hrun, hqueues], ?_⟩
  rw [actListening_run]
  refine (undropped_num (run_canonical _ hd) n drop (undropped_drops n)).trans ?_
  rw [hrun, hdrops, hm]

end

/-! ## REFUSE, DEACTIVATE, DISABLE and ENABLE -/

/-- What REFUSE leaves of itself. -/
def refuseEffs (n : Nat) (m : Lemow) : List Eff :=
  [.count .actRefusals n 0 1, .obj .actLastRefusal n 0 (.num (beAt m.body 0 2)), .fch n fun c => { c with holdoff := beAt m.body 2 2 != 0 }]

section
variable {s : State} {n : Fin 4} {m : Lemow} (ha : s.dev.answers = true)
include ha

theorem refuse_run (h : s.dev.toHandle n.val m 4) (h3 : s.dev.num .actState n.val = 3) : exec (.refuse n m) s =
    .next { s with dev := (actListening n.val 9 true).run (s.dev.after (refuseEffs n.val m)) } := by
  rw [exec_refuse, execRefuse, State.run_eq, live_run ha,
    toHandle_acts h (bad := fun _ => false) (legal := fun d => d.actIn n.val [3]) rfl (actIn_of (by simp [h3]))]
  rfl

/-- The cause that DEACTIVATE and the timeouts name, by the state left. -/
theorem deactivate_run (hm : m.addr.toNat = 0xFFFF ∨ (m.addr.toNat = s.dev.num .actHandle n.val ∧ s.dev.num .actHandle n.val ≠ 0xFFFF))
    (hb : m.body = []) (h2 : 2 ≤ s.dev.num .actState n.val) (h5 : s.dev.num .actState n.val ≤ 5) : exec (.deactivate n m) s =
    .next { s with dev := (actListening n.val (if s.dev.num .actState n.val = 2 then 7 else 2 * s.dev.num .actState n.val + 3)
      (decide (s.dev.num .actState n.val ≠ 2))).run s.dev } := by
  rw [exec_deactivate, execDeactivate, State.run_eq, live_run ha, lemow_acts (n := n.val)]
  · have hst : s.dev.num .actState n.val = 2 ∨ s.dev.num .actState n.val = 3 ∨ s.dev.num .actState n.val = 4 ∨
        s.dev.num .actState n.val = 5 := by omega
    rcases hst with h | h | h | h <;> simp only [Prog.run_ask, h] <;> rfl
  · rcases hm with h | ⟨h, hh⟩
    · exact .inr (.inr ⟨rfl, h⟩)
    · exact .inl ⟨rfl, h, fun he => hh (h.symm.trans he)⟩
  · rw [hb]; rfl
  · rfl
  · exact fun hn => nomatch hn
  · refine actIn_of ?_
    simp only [List.mem_cons, List.not_mem_nil, or_false]
    omega

section
variable (hm : m.addr.toNat = 0xFFFF ∨ (m.addr.toNat = 0xFFFE ∧ s.dev.num .actHandle n.val = 0xFFFF)) (hl : m.body.length = 8)
include hm hl

omit ha hl in
theorem takes_named {len : Nat} {bad legal : Bool} {named : Option Bool} :
    s.dev.takes n.val m ⟨len, bad, false, true, true, named, legal⟩ := by
  rcases hm with h | ⟨h, hh⟩
  · exact .inr (.inr ⟨rfl, h⟩)
  · exact .inr (.inl ⟨rfl, h, hh⟩)

/-- Windows, attempts and what was retained are gone. -/
def forgotten (n : Nat) : Eff := .fch n fun c => { c with
  windows := [], attempt := 0, skips := 0, holdoff := false, retHandle := 0xFFFF, retAllocs := [], retEqd := 0 }

theorem disable_run (h6 : s.dev.num .actState n.val ≠ 6) (hid : beAt m.body 0 8 = s.dev.num .idTerminal) : exec (.disable n m) s =
    .next { s with dev := (forgotten n.val).apply (((actTo n.val 6 1).run s.dev).after (dropEffs n.val)) } := by
  rw [exec_disable, execDisable, State.run_eq, live_run ha, lemow_acts (n := n.val)]
  · rfl
  · exact takes_named hm
  · exact hl
  · rfl
  · simp [msgAt, hid]
  · simpa using h6

theorem disable_other (hid : beAt m.body 0 8 ≠ s.dev.num .idTerminal) : exec (.disable n m) s = .next s := by
  rw [exec_disable, execDisable, State.run_eq, live_run ha, lemow_other (n := n.val)]
  · exact takes_named hm
  · exact hl
  · rfl
  · simp [msgAt, hid]

theorem enable_run (hs : s.Inv) (h6 : s.dev.num .actState n.val = 6)
    (hid : beAt m.body 0 8 = s.dev.num .idTerminal ∨ beAt m.body 0 8 = 2 ^ 64 - 1) (hf : s.dev.num .feState n.val ≠ 2)
    (hq : ∀ q ∈ s.dev.busyQueues, s.dev.portOf q ≠ 108 + n.val) : exec (.enable n m) s = .next (s.after (s.dev.moved n.val 0 3)) := by
  have hto : (actTo n.val 0 3).run s.dev = s.dev.after (s.dev.moved n.val 0 3) := by
    rw [actTo_run 3 (by rw [h6]; decide), Dev.leaves, h6]
    exact flushPort_empty (fun q hb => ne_of_eq_of_ne (portOf_moved hs.1 n 0 3 q) (hq q hb)) 8
  have hfe : ((s.dev.after (s.dev.moved n.val 0 3)).num .feState n.val == 2) = false := by
    refine beq_false_of_ne (ne_of_eq_of_ne (congrArg Val.n (Dev.get_put_other hs.1.objs _ ?_)) hf)
    clear * -
    revert n; decide
  have hchk : (initialCheck n.val).run (s.dev.after (s.dev.moved n.val 0 3)) = s.dev.after (s.dev.moved n.val 0 3) := by
    simp only [initialCheck, Prog.run_ask, hfe, Bool.and_false, Prog.when_false, Prog.run_skip]
  rw [exec_enable, execEnable, State.run_eq, live_run ha, lemow_acts (n := n.val)]
  · simp only [Prog.run_all_cons, hto, hchk]
    rfl
  · exact takes_named hm
  · exact hl
  · rfl
  · rcases hid with h | h
    · have h' : msgAt m 0 8 = s.dev.num .idTerminal := h
      dsimp only
      split <;> simp [h']
    · have h' : msgAt m 0 8 = 2 ^ 64 - 1 := h
      simp only [if_pos h']
      exact fun hn => nomatch hn
  · exact actIn_of (by simp [h6])

end

/-! ## Timeouts and restart -/

theorem announceTimeout_run : exec (.announceTimeout n) s = .next { s with
    dev := (Prog.when (s.dev.actIn n.val [2]) [actListening n.val 7 false]).run s.dev } := by
  rw [exec_announceTimeout, execAnnounceTimeout, State.run_eq, live_run ha, Prog.run_ask]

theorem rangeTimeout_run : exec (.rangeTimeout n) s = .next { s with
    dev := (Prog.when (s.dev.actIn n.val [3]) [actListening n.val 9 true]).run s.dev } := by
  rw [exec_rangeTimeout, execRangeTimeout, State.run_eq, live_run ha, Prog.run_ask]

theorem holdTimeout_run : exec (.holdTimeout n) s = .next { s with
    dev := (Prog.when (s.dev.actIn n.val [5]) [actListening n.val 13 true]).run s.dev } := by
  rw [exec_holdTimeout, execHoldTimeout, State.run_eq, live_run ha, Prog.run_ask]

end

theorem actIn_single {d : Dev} {n k : Nat} : d.actIn n [k] = (d.num .actState n == k) := by
  simp [Dev.actIn, beq_eq_decide]

/-- The device after a restart of activation that does not go on at once. -/
def Dev.restarted (d : Dev) (n : Nat) : Dev :=
  (((actTo n 0 2).run d).after (dropEffs n)).after [.obj .mgtCmSfRx n 0 (.num 12), .obj .mgtCmSfTx n 0 (.num 12),
    .fch n fun c => { c with cmSfNow := 12, windows := [], attempt := 0, skips := 0, holdoff := false }]

theorem actInitial_run {d : Dev} {n : Nat} (h : d.num .actState n ≠ 6) : (actInitial n).run d = d.restarted n := by
  simp only [actInitial, Prog.run_ask, bne_iff_ne.mpr h]
  rfl


/-- The objects that a restart writes after the parameters are dropped. -/
def restartKeys (n : Nat) : Nat → Bool := keysOf [(.mgtCmSfRx, n, 0), (.mgtCmSfTx, n, 0)]

section
variable {d : Dev} (hd : d.Canonical) (n : Fin 4)
include hd

theorem restarted_num {o : Obj} {i j : Nat} (h : restartKeys n.val (o.key i j) = false) :
    (d.restarted n.val).num o i j = (((actTo n.val 0 2).run d).after (dropEffs n.val)).num o i j := by
  refine after_num (after_canonical _ (run_canonical _ hd)).objs ?_
  simpa [restartKeys, keysOf, Eff.keys] using h

theorem restarted_state : (d.restarted n.val).num .actState n.val = 0 :=
  (restarted_num hd n (by revert n; decide)).trans ((dropEffs_num (run_canonical _ hd) n (by
    simpa [undropped] using undropped_state n)).trans (actTo_state hd n 0 2))

theorem restarted_handle : (d.restarted n.val).num .actHandle n.val = 0xFFFF :=
  (restarted_num hd n (by revert n; decide)).trans (dropEffs_handle (run_canonical _ hd) n)

theorem restarted_eqd : (d.restarted n.val).num .actEqd n.val = 0 :=
  (restarted_num hd n (by revert n; decide)).trans (dropEffs_eqd (run_canonical _ hd) n)

omit hd in
theorem undropped_feState (n : Fin 4) : undropped n.val (Obj.feState.key n.val 0) = true := by revert n; decide

theorem restarted_feState : (d.restarted n.val).num .feState n.val = d.num .feState n.val :=
  (restarted_num hd n (by revert n; decide)).trans ((dropEffs_num (run_canonical _ hd) n (by
    simpa [undropped] using undropped_feState n)).trans (actTo_num hd n.val 0 2 (by revert n; decide) (by revert n; decide)))

theorem restarted_canonical : (d.restarted n.val).Canonical := after_canonical _ (after_canonical _ (run_canonical _ hd))

omit hd in
theorem initialCheck_run {n : Nat} (h0 : d.num .actState n = 0) :
    (initialCheck n).run d = if d.num .feState n = 2 then (actTo n 1 4).run d else d := by
  by_cases h2 : d.num .feState n = 2
  · simp only [initialCheck, Prog.run_ask, h0, h2, if_true]
    rfl
  · simp only [initialCheck, Prog.run_ask, beq_false_of_ne h2, Bool.and_false, Prog.when_false, Prog.run_skip, if_neg h2]

/-- A restart: Initial, or Listening where FE_STATE is 2 already, with the parameters dropped. -/
theorem restart_settles : let t := (initialCheck n.val).run (d.restarted n.val)
    t.num .actState n.val = (if d.num .feState n.val = 2 then 1 else 0) ∧ t.num .actHandle n.val = 0xFFFF ∧ t.num .actEqd n.val = 0 := by
  have hr := restarted_canonical hd n
  rw [initialCheck_run (restarted_state hd n), restarted_feState hd n]
  split
  · exact ⟨actTo_state hr n 1 4, (actTo_num hr n.val 1 4 (handle_ne_state n) (by clear * -; revert n; decide)).trans (restarted_handle hd n),
      (actTo_num hr n.val 1 4 (by clear * -; revert n; decide) (by clear * -; revert n; decide)).trans (restarted_eqd hd n)⟩
  · exact ⟨restarted_state hd n, restarted_handle hd n, restarted_eqd hd n⟩

end

section
variable {s : State} {n : Fin 4} {o : Origin} (hs : s.Inv) (h : s.dev.admits (execReq o .actRestart n.val 0 true (.num 0)))
include hs h

omit hs in
theorem actRestart_disabled (h6 : s.dev.num .actState n.val = 6) : exec (.actRestart o n) s =
    .next (s.refusedWith (execReq o .actRestart n.val 0 true (.num 0)).call [] 0x0401) := by
  rw [exec_actRestart]
  exact served_abort h (by decide) (.inr ⟨rfl, if_pos h6⟩) fun _ _ => rfl

theorem actRestart_run (h6 : s.dev.num .actState n.val ≠ 6) : exec (.actRestart o n) s = .next { s with
    dev := (respond (execReq o .actRestart n.val 0 true (.num 0)).call 0 []).run ((initialCheck n.val).run
      ((s.dev.taken (execReq o .actRestart n.val 0 true (.num 0)).call).restarted n.val)) } := by
  have hi : (actInitial n.val).run (s.dev.taken (execReq o .actRestart n.val 0 true (.num 0)).call) =
      (s.dev.taken (execReq o .actRestart n.val 0 true (.num 0)).call).restarted n.val := actInitial_run h6
  rw [exec_actRestart, State.run_eq, serve_run hs.1.um h rfl (if_neg h6)]
  simp only [actRestartBeh, beh, finish, Prog.run_seq, Prog.run_all_cons, Prog.all_nil, Prog.run_skip, hi]

end

theorem actEqdWrite_run {s : State} {o : Origin} {n : Fin 4} {v : BitVec 32} (hs : s.Inv)
    (h : s.dev.admits (writeReq o .actEqd n.val 0 (.num v.toNat))) : exec (.actEqdWrite o n v) s =
      .next (s.served (writeReq o .actEqd n.val 0 (.num v.toNat)).call (eqdEffs s.dev n.val v.toNat) []) := by
  rw [exec_actEqdWrite]
  exact served_done hs h rfl rfl rfl (takeEqd_run _ _ _)

/-- The timeouts' claim: Listening, with the queue of the port node discarded. -/
theorem listeningAgain {s : State} (hs : s.Inv) (n : Fin 4) (row : Nat) (drop : Bool) (h1 : s.dev.num .actState n.val ≠ 1)
    (h4 : s.dev.num .actState n.val ≠ 4) : let t := (actListening n.val row drop).run s.dev
    t.num .actState n.val = 1 ∧ t.num .actHandle n.val = (if drop then 0xFFFF else s.dev.num .actHandle n.val) ∧
      t.raisedEvent (128 + 16 * n.val + 14) row n.val ∧
      ∀ q l, l ≠ [] → s.dev.tm.queues = [(q, l)] → s.dev.portOf q = 108 + n.val → t.tm.queues = [] ∧
        t.num .tmDrops 0 7 = satAdd 64 (s.dev.num .tmDrops 0 7) l.length :=
  ⟨actListening_state hs.1 n row drop, actListening_handle hs.1 n row drop, actListening_raises n row drop h1,
    fun _ _ hl hq hp => actListening_discards hs.1 n row drop h1 h4 hl hq hp⟩


theorem refuseEffs_num {d : Dev} (hd : d.Canonical) (n : Fin 4) (m : Lemow) :
    (d.after (refuseEffs n.val m)).num .actRefusals n.val = satAdd 32 (d.num .actRefusals n.val) 1 ∧
    (d.after (refuseEffs n.val m)).num .actLastRefusal n.val = beAt m.body 0 2 ∧
    (d.after (refuseEffs n.val m)).num .actState n.val = d.num .actState n.val := by
  have hc := Eff.apply_canonical (.count .actRefusals n.val 0 1) d hd
  have hlast {o : Obj} (h : o.key n.val 0 ≠ Obj.actLastRefusal.key n.val 0) : (d.after (refuseEffs n.val m)).num o n.val =
      ((Eff.count .actRefusals n.val 0 1).apply d).num o n.val := congrArg Val.n (Dev.get_put_other hc.objs _ h)
  refine ⟨(hlast ?_).trans (Dev.num_put hd.objs _ _ _ _), Dev.num_put hc.objs _ _ _ _,
    (hlast ?_).trans (congrArg Val.n (Dev.get_put_other hd.objs _ ?_))⟩ <;> clear * - <;> revert n <;> decide

theorem refuseEffs_holdoff {d : Dev} (hd : d.Canonical) (n : Fin 4) (m : Lemow) :
    ((d.after (refuseEffs n.val m)).ch n.val).holdoff = (beAt m.body 2 2 != 0) :=
  congrArg Fch.holdoff (ch_fch (after_canonical [.count .actRefusals n.val 0 1, .obj .actLastRefusal n.val 0 (.num (beAt m.body 0 2))] hd) _ _)

/-- A refusal: back to Listening with its reason kept. -/
theorem refused {d : Dev} (hd : d.Canonical) (n : Fin 4) (m : Lemow) (h3 : d.num .actState n.val = 3) :
    let t := (actListening n.val 9 true).run (d.after (refuseEffs n.val m))
    t.num .actState n.val = 1 ∧ t.num .actHandle n.val = 0xFFFF ∧ t.num .actEqd n.val = 0 ∧
      t.num .actLastRefusal n.val = beAt m.body 0 2 ∧ t.num .actRefusals n.val = satAdd 32 (d.num .actRefusals n.val) 1 ∧
      (t.ch n.val).holdoff = (beAt m.body 2 2 != 0) ∧ t.raisedEvent (128 + 16 * n.val + 14) 9 n.val := by
  have hc : (d.after (refuseEffs n.val m)).Canonical := after_canonical _ hd
  obtain ⟨hcount, hlast, hst⟩ := refuseEffs_num hd n m
  have h3' := hst.trans h3
  refine ⟨actListening_state hc n 9 true, actListening_handle hc n 9 true, actListening_eqd hc n 9, ?_, ?_, ?_, ?_⟩
  · rw [← hlast]
    refine actListening_num hc n 9 true ?_ ?_ ?_ <;> clear * - <;> revert n <;> decide
  · rw [← hcount]
    refine actListening_num hc n 9 true ?_ ?_ ?_ <;> clear * - <;> revert n <;> decide
  · exact (actListening_holdoff hc n 9 (by rw [h3']; decide)).trans (refuseEffs_holdoff hd n m)
  · exact actListening_raises n 9 true (by rw [h3']; decide)

/-- The answer of a request leaves a channel's registration. -/
theorem respond_registration {d : Dev} (hd : d.Canonical) (n : Fin 4) (c : Call) :
    ((respond c 0 []).run d).num .actState n.val = d.num .actState n.val ∧
    ((respond c 0 []).run d).num .actHandle n.val = d.num .actHandle n.val ∧
    ((respond c 0 []).run d).num .actEqd n.val = d.num .actEqd n.val := by
  have hr := only_respond c 0 []
  refine ⟨hr.num hd.objs ?_, hr.num hd.objs ?_, hr.num hd.objs ?_⟩ <;> clear * - <;> revert n <;> decide

/-- Settles O37: every message that is acted on runs known effects, and every return to Listening is `actListening`. -/
theorem registration : Obligations.Registration := by
  refine ⟨fun s n m hs ha h st reply moved hh hst hreply hmoved => ?_, fun s n hs ha listening hlist => ?_,
    fun s o n v hs => ⟨actEqdWrite_run hs, fun hadm => ⟨actRestart_disabled hadm, fun h6 => ?_⟩⟩⟩
  · obtain rfl : reply = answerEff n.val m := funext fun code => funext fun body => (hreply code body).trans rfl
    subst hh hst
    obtain rfl : moved = s.dev.moved n.val := funext fun new => funext fun row => (hmoved new row).trans rfl
    refine ⟨assign_taken ha hs, fun _ => assign_other ha, fun hm hne => ⟨fun hi ht => ?_, fun h3 hb => ?_, fun h3 hb => ?_, fun h3 hl => ?_⟩,
      fun hm hb h2 h5 => ?_, fun hm hl => ⟨fun h6 hid => ?_, disable_other ha hm hl, fun h6 hid hf hq => enable_run ha hm hl hs h6 hid hf hq⟩⟩
    · have hroom : (s.dev.ch n.val).room m := ⟨hi, ht⟩
      refine ⟨fun h3 hl hb h7 h12 mode hmode => ?_, fun h3 hl hb mode f => confirm_run ha hs hroom ⟨hm, hne, hl⟩ h3 hb mode f,
        fun h34 hl => eqd_run ha hs hroom ⟨hm, hne, hl⟩ h34, fun h345 hl a haa hna => ?_⟩
      · subst hmode
        exact offer_run ha hs hroom ⟨hm, hne, hl⟩ h3 hb h7 h12
      · subst haa
        have hto : s.dev.toHandle n.val m 4 := ⟨hm, hne, hl⟩
        refine ⟨alloc_done ha hroom hto h345 hna, alloc_full ha hroom hto h345 hna, fun i hi h0 hnone hb hj => ?_, fun i h1 hsome => ?_⟩
        · exact ⟨_, alloc_adds ha hs hroom hto h345 hna hi h0 hnone hb hj, rfl, allocated_slot hs.1 _ true _ _ i,
            allocated_found hs.1 m hi (Nat.mod_lt _ (by decide)) hnone _ _, allocated_only hs.1 _ true _ _ i⟩
        · exact ⟨_, alloc_removes ha hs hroom hto h345 hna h1 hsome, rfl, allocated_slot hs.1 _ false _ _ i,
            allocated_only hs.1 _ false _ _ i⟩
    · exact activate_operates ha ⟨hm, hne, by rw [hb]; rfl⟩ h3
    · exact activate_illegal ha ⟨hm, hne, by rw [hb]; rfl⟩
    · exact ⟨_, refuse_run ha ⟨hm, hne, hl⟩ h3, rfl, refused hs.1 n m h3⟩
    · refine ⟨_, deactivate_run ha hm hb h2 h5, rfl, actListening_state hs.1 n _ _, fun hn => ?_, fun he => ?_,
        actListening_raises n _ _ (by omega)⟩
      · rw [decide_eq_true hn]
        exact ⟨actListening_handle hs.1 n _ true, actListening_eqd hs.1 n _⟩
      · rw [decide_eq_false (not_not.mpr he)]
        exact actListening_handle hs.1 n _ false
    · have ht := run_canonical (actTo n.val 6 1) hs.1
      obtain ⟨x, hx, hxs⟩ := actTo_raises (n := n.val) 1 h6
      exact ⟨_, disable_run ha hm hl h6 hid, rfl,
        (dropEffs_num ht n (by simpa [undropped] using undropped_state n)).trans (actTo_state hs.1 n 6 1), dropEffs_handle ht n, x, hx, hxs⟩
  · have hrun (row : Nat) (drop : Bool) (h1 : s.dev.num .actState n.val ≠ 1) (h4 : s.dev.num .actState n.val ≠ 4) :
        listening { s with dev := (actListening n.val row drop).run s.dev } row (if drop then 0xFFFF else s.dev.num .actHandle n.val) :=
      (hlist _ _ _).mpr ⟨rfl, listeningAgain hs n row drop h1 h4⟩
    simp only [announceTimeout_run ha, rangeTimeout_run ha, holdTimeout_run ha, actIn_single]
    refine ⟨fun h2 => ⟨_, rfl, ?_⟩, fun h3 => ⟨_, rfl, ?_⟩, fun h5 => ⟨_, rfl, ?_⟩, fun h2 => ?_, fun h3 => ?_, fun h5 => ?_, ?_⟩
    · rw [h2]
      exact hrun 7 false (by rw [h2]; decide) (by rw [h2]; decide)
    · rw [h3]
      exact hrun 9 true (by rw [h3]; decide) (by rw [h3]; decide)
    · rw [h5]
      exact hrun 13 true (by rw [h5]; decide) (by rw [h5]; decide)
    · rw [beq_false_of_ne h2]
      rfl
    · rw [beq_false_of_ne h3]
      rfl
    · rw [beq_false_of_ne h5]
      rfl
    · rw [exec_refuseHoldoffEnd, execRefuseHoldoffEnd, State.run_eq, live_run ha]
      rfl
  · have ht := taken_canonical hs.1 (execReq o .actRestart n.val 0 true (.num 0)).call
    have hc := run_canonical (initialCheck n.val) (restarted_canonical ht n)
    have hr := restart_settles ht n
    simp only [Dev.taken_num] at hr
    obtain ⟨hst, hh, he⟩ := hr
    obtain ⟨rst, rh, re⟩ := respond_registration hc n (execReq o .actRestart n.val 0 true (.num 0)).call
    refine ⟨_, actRestart_run hs hadm h6, rfl, ?_⟩
    rw [rst, rh, re, hst, hh, he]
    exact ⟨rfl, rfl, rfl⟩

end Sys2Proof.Machine
end

section
/-!
PROOFS of links and leases (O20): the statement fails where the answer owed for a list of the lookaside engine leaves by the mailbox of another
function than the one that owns the session.
-/
namespace Sys2Proof.Machine

/-! ## A list whose answer another function awaits -/

/-- A request in progress on a slot of VF 2 of link 0. -/
def strayCall : Call := ⟨⟨.mailbox 0 2 1, 0x0102, 1⟩, 3, 0x9500, 1⟩

/-- VF 1 of link 0 holds a live lease and owns session 0, whose one job is the last of a list that VF 2's request submitted. -/
def strayDev : Dev := { Dev.reset with
  clk := { Dev.reset.clk with devReset := false }
  fns := [(1, { Fn.none with live := true })]
  um := [(2, { UPathSt.none with busy := [strayCall] })]
  keys := [(laKey 0, [1, 1])]
  la := ⟨[⟨0, 7, 0, [], [], 0, true, false, .none⟩], [⟨7, strayCall, 1, 0, 0⟩], 8⟩ }

def strayState : State := { pending := [], dev := strayDev }

theorem strayState_inv : strayState.Inv where
  left := ⟨rfl, rfl, rfl, rfl, rfl, rfl, rfl, rfl, rfl, rfl, rfl, rfl, rfl, rfl⟩
  right := { Dev.reset_bounded with }

/-- The end of VF 1's session ends the list, and its answer sets DONE of VF 2's slot 1. -/
theorem revoke_answers_stray : (((revoke 0 1).run strayDev).fn 2).done = 2 := by decide

theorem leaseExpiry_stray : exec (.leaseExpiry 0 1) strayState = .next { strayState with dev := (revoke 0 1).run strayDev } := by
  have hl : (strayState.dev.fn (fnKey 0 1)).live = true := by decide
  have ha : strayState.dev.answers = true := by decide
  change strayState.run (live (.ask fun d => .when (d.fn (fnKey 0 1)).live [if (1 : Nat) = 0 then revokeAll 0 else revoke 0 1])) = _
  rw [run_live ha, Prog.run_ask, hl]
  rfl

/-- Refutes O20: an expiry of a VF's lease changes another function's mailbox where the answer owed for a list of the lookaside engine is that
function's, which no state of a run shows (R544) but nothing in the statement excludes. -/
theorem not_linksAndLeases : ¬ Obligations.LinksAndLeases := by
  rintro ⟨-, -, -, hexpiry, -⟩
  obtain ⟨t, ht, -, -, hothers⟩ := hexpiry strayState 0 1 strayState_inv (by decide) (by decide) (by decide)
  rw [leaseExpiry_stray] at ht
  obtain rfl : { strayState with dev := (revoke 0 1).run strayDev } = t := by injection ht
  have hdone := congrArg Fn.done (hothers 2 (by decide))
  rw [revoke_answers_stray] at hdone
  exact absurd hdone (by decide)

end Sys2Proof.Machine
end

section
/-!
PROOFS of the recorder and the monitors (O60): the statement fails where the store of tokens lists a requester twice, so that taking its token away
shows another.
-/
namespace Sys2Proof.Machine

/-! ## A requester listed twice -/

/-- The security complex on its internal path. -/
def clearOrigin : Origin := ⟨.internal, 0x0400, 1⟩

/-- EVR_CLEAR with a token of zeros. -/
def clearReq : Req := execReq clearOrigin .evrClear 0 0 true (.oct (zeros 16))

/-- A device that answers, with two tokens of one requester in its store; the stores that the invariant speaks of are canonical. -/
def twoTokens : Dev := { Dev.reset with
  clk := { Dev.reset.clk with devReset := false, closed := [] }
  sec := { Dev.reset.sec with tokens := [(0x400, zeros 26), (0x400, zeros 26)] } }

def twoTokensState : State := { pending := [], dev := twoTokens }

theorem twoTokensState_inv : twoTokensState.Inv where
  left := { Dev.reset_canonical with }
  right := { Dev.reset_bounded with }

theorem twoTokens_admits : twoTokens.admits clearReq :=
  ⟨⟨by decide, by decide, by decide, by decide, by decide, by decide, by decide, by decide⟩, by decide, by decide⟩

/-- The device after the clear. -/
def tokenTaken : Dev := (serve clearReq (evrClearBeh 0x400 (zeros 16))).run twoTokens

theorem evrClear_twoTokens : exec (.evrClear clearOrigin (zeros 16)) twoTokensState = .next { twoTokensState with dev := tokenTaken } := rfl

/-- The second token stands where the first was. -/
theorem tokenTaken_token : tokenTaken.token 0x400 = some (zeros 16) := by decide

/-- Refutes O60: an accepted EVR_CLEAR removes one of two tokens that the store lists for its requester, and the other is valid still. No state of a
run lists two, but the invariant in the statement does not speak of this store. -/
theorem not_recorderAndMonitors : ¬ Obligations.RecorderAndMonitors := by
  rintro ⟨-, -, -, hclear, -⟩
  obtain ⟨-, -, haccepted⟩ := hclear twoTokensState clearOrigin (zeros 16) clearReq 0x400 _ twoTokensState_inv (by decide) (by decide) rfl
    twoTokens_admits fun _ => Iff.rfl
  obtain ⟨t, z, rest, ht, -, -, -, -, -, -, -, -, -, htoken, -⟩ :=
    haccepted (by decide) (.inl rfl) rfl ⟨by decide, rfl⟩ (by decide) (by decide) (by decide)
  rw [evrClear_twoTokens] at ht
  obtain rfl : { twoTokensState with dev := tokenTaken } = t := by injection ht
  exact absurd (tokenTaken_token.symm.trans htoken) (by decide)

end Sys2Proof.Machine
end

section
/-!
PROOFS: accesses of a host to its functions (R174 to R194). An access in the Run state is its own part of the model alone; a closed crossing
answers a read with ones and discards a write.
-/
namespace Sys2Proof.Machine

theorem exec_barReservedAccess (l : Fin 4) (f : Fin 64) (x : BarAcc) (s : State) :
    exec (.barReservedAccess l f x) s = execBarReservedAccess l f x s := rfl
theorem exec_mbxDoneClear (l : Fin 4) (f : Fin 64) (v : BitVec 32) (s : State) :
    exec (.mbxDoneClear l f v) s = s.run (barWrite l.val f.val [mbxDoneClear (fnKey l.val f.val) v.toNat]) := rfl
theorem exec_leaseRenew (l : Fin 4) (f : Fin 64) (v : BitVec 32) (s : State) :
    exec (.leaseRenew l f v) s = s.run (barWrite l.val f.val [leaseRenew l.val f.val v.toNat]) := rfl
theorem exec_hostIndexWrite (l : Fin 4) (f : Fin 64) (r : Fin 4096) (ix : BitVec 32) (ds : List Desc) (s : State) :
    exec (.hostIndexWrite l f r ix ds) s = execHostIndexWrite l f r ix ds s := rfl
theorem exec_dmapSlotRead (l : Fin 4) (f : Fin 64) (n : Fin 1024) (s : State) :
    exec (.dmapSlotRead l f n) s = s.run (tlp l.val f.val [dmapRead l.val f.val n.val 0 16]) := rfl
theorem exec_msixVectorUnmask (l : Fin 4) (f : Fin 64) (v : Fin 2048) (s : State) : exec (.msixVectorUnmask l f v) s = s.run (barWrite l.val f.val
    [.ask fun d => .when (decide (v.val < d.vectorsOf l.val f.val)) [vectorUnmask l.val f.val v.val]]) := rfl
theorem exec_bar2Access (w : Bool) (a : BitVec 28) (s : State) : exec (.bar2Access w a) s = execBar2Access w a s := rfl
theorem exec_pcieConfigRequest (l : Fin 4) (f : Fin 64) (b : Bool) (q : CfgReq) (s : State) :
    exec (.pcieConfigRequest l f b q) s = execPcieConfigRequest l f b q s := rfl

/-! ## Accesses in the Run state -/

section
variable {d : Dev} (hr : d.inRun)
include hr

theorem alsoSeen_run (bit : Nat) : (alsoSeen bit).run d = d := by
  simp [alsoSeen, hr.1, Dev.wakes, wakeSources]

variable {l f : Nat} (hf : d.reaches l f = true)
include hf

theorem barWrite_open (ho : d.hostClosed l f = false) (ps : List Prog) : (barWrite l f ps).run d = (Prog.all ps).run d := by
  simp [barWrite, tlp_run hr hf, ho]

theorem barRead_open (ho : d.hostClosed l f = false) (off size : Nat) (ps : List Prog) :
    (barRead l f off size ps).run d = (Prog.all ps).run d := by
  simp [barRead, tlp_run hr hf, ho]

/-- A write through a Closed crossing is discarded, counted and reported (Table 3.9). -/
theorem barWrite_closed (ho : d.hostClosed l f = true) (ps : List Prog) :
    (barWrite l f ps).run d = d.after [.count .xingClosedDiscards 0 0 1, .raise (64 + 16 * l + 4) 0 l 0 0] := by
  simp only [barWrite, tlp_run hr hf, Prog.run_all_cons, Prog.run_ask, ho, if_true]
  rfl

end

/-! ## BAR0 (R179, Table 6.3) -/

section
variable {s : State} {l : Fin 4} {f : Fin 64} (hr : s.dev.inRun) (hf : s.dev.reaches l.val f.val = true)
  (ho : s.dev.hostClosed l.val f.val = false)
include hr hf ho

section
variable (off : BitVec 21) (n : Fin 17) (hn : n.val ≠ 0)
include hn

theorem read0_run : exec (.barReservedAccess l f (.read0 off n)) s =
    .next { s with dev := (bar0Read l.val f.val off.toNat n.val).run s.dev } := by
  have hwf : BarAcc.wf (.read0 off n) = true := by simpa [BarAcc.wf] using hn
  simp only [exec_barReservedAccess, execBarReservedAccess, State.runIf, hwf, if_true, barRead_open hr hf ho]
  rfl

variable (hw : s.dev.inBootWindow (fnKey l.val f.val) off.toNat n.val = false)
include hw

theorem read0_misfit (h : bar0Fits off.toNat n.val = false) : exec (.barReservedAccess l f (.read0 off n)) s =
    .next (s.after [.out ⟨.busRead, fnKey l.val f.val, off.toNat, zeros n.val⟩]) := by
  simp only [read0_run hr hf ho off n hn, bar0Read, Prog.run_ask, hw, h]
  rfl

theorem read0_register (h : bar0Fits off.toNat n.val = true) (hk : bar0Kind off.toNat = 0) :
    exec (.barReservedAccess l f (.read0 off n)) s =
      .next (s.after [.out ⟨.busRead, fnKey l.val f.val, off.toNat, leBytes 4 (s.dev.bar0Reg (fnKey l.val f.val) off.toNat)⟩]) := by
  simp only [read0_run hr hf ho off n hn, bar0Read, Prog.run_ask, hw, h, hk]
  rfl

theorem read0_mailbox (h : bar0Fits off.toNat n.val = true) (hk : bar0Kind off.toNat = 1) :
    exec (.barReservedAccess l f (.read0 off n)) s = .next (s.after [.out ⟨.busRead, fnKey l.val f.val, off.toNat,
      slice (s.dev.slotBytes (fnKey l.val f.val) (off.toNat / 4096)) (off.toNat % 4096) n.val⟩]) := by
  simp only [read0_run hr hf ho off n hn, bar0Read, Prog.run_ask, hw, h, hk]
  rfl

end

section
variable (off : BitVec 21) (b : List Byte) (hwf : BarAcc.wf (.write0 off b) = true)
include hwf

theorem write0_run : exec (.barReservedAccess l f (.write0 off b)) s =
    .next { s with dev := (bar0Write l.val f.val off.toNat b).run s.dev } := by
  simp only [exec_barReservedAccess, execBarReservedAccess, State.runIf, hwf, if_true, barWrite_open hr hf ho]
  rfl

variable (hw : s.dev.inBootWindow (fnKey l.val f.val) off.toNat b.length = false)
include hw

theorem write0_discarded (h : bar0Fits off.toNat b.length = false ∨
      (bar0Kind off.toNat ≠ 1 ∧ off.toNat ≠ 0x004 ∧ off.toNat ≠ 0x00C ∧ off.toNat ≠ 0x014)) :
    exec (.barReservedAccess l f (.write0 off b)) s = .next (s.after [.count .hifBadAccesses l.val 0 1]) := by
  simp only [write0_run hr hf ho off b hwf, bar0Write, Prog.run_ask, hw]
  rcases h with h | ⟨hk, h4, hC, h14⟩
  · simp only [h]
    rfl
  · cases bar0Fits off.toNat b.length
    · rfl
    · simp only [Bool.not_true, Bool.false_eq_true, if_false, if_neg hk]
      rfl

theorem write0_mailbox (h : bar0Fits off.toNat b.length = true) (hk : bar0Kind off.toNat = 1) :
    exec (.barReservedAccess l f (.write0 off b)) s = .next (s.after [.fn (fnKey l.val f.val) fun y => { y with
      resp := SMap.put [] (off.toNat / 4096) (patch (s.dev.slotBytes (fnKey l.val f.val) (off.toNat / 4096)) (off.toNat % 4096) b) y.resp }]) := by
  simp only [write0_run hr hf ho off b hwf, bar0Write, Prog.run_ask, hw, h, hk]
  rfl

theorem write0_irq (ha : off.toNat = 0x00C) (h4 : b.length = 4) : exec (.barReservedAccess l f (.write0 off b)) s =
    .next (s.after [.fn (fnKey l.val f.val) fun y => { y with irq := leNat b / 2 ^ 31 % 2 * 2 ^ 31 + leNat b % 2048 }]) := by
  rw [ha, h4] at hw
  simp only [write0_run hr hf ho off b hwf, bar0Write, Prog.run_ask, ha, h4, hw]
  rfl

end

/-! ## BAR4 (R194, Table 6.2) -/

theorem read4_dword (off : BitVec 16) (h4 : off.toNat % 4 = 0) : exec (.barReservedAccess l f (.read4 off 4)) s =
    .next (s.after [.out ⟨.busRead, fnKey l.val f.val, off.toNat, leBytes 4 (s.dev.bar4Dword l.val f.val off.toNat)⟩]) := by
  simp only [exec_barReservedAccess, execBarReservedAccess, State.runIf, barRead_open hr hf ho, Prog.run_all_cons, Prog.run_ask, h4]
  rfl

theorem write4_data (off : BitVec 16) (h4 : off.toNat % 4 = 0) (b : List Byte) (hb : b.length = 4) (hlow : off.toNat < 0x8000)
    (hv : off.toNat / 16 < s.dev.vectorsOf l.val f.val) (h8 : off.toNat % 16 = 8) : exec (.barReservedAccess l f (.write4 off b)) s =
      .next (s.after [.vec (vecKey (fnKey l.val f.val) (off.toNat / 16)) fun x => { x with data := leNat b }]) := by
  have hwf : BarAcc.wf (.write4 off b) = true := by simp [BarAcc.wf, hb]
  simp only [exec_barReservedAccess, execBarReservedAccess, State.runIf, hwf, if_true, barWrite_open hr hf ho, Prog.run_all_cons, hb, h4,
    and_self, bar4Write, Prog.run_ask, hlow, hv, decide_true, Bool.and_self, h8]
  rfl

/-! ## Mailbox, lease and doorbells (R180, R183, R184, R197) -/

theorem mbxDoneClear_open (v : BitVec 32) : exec (.mbxDoneClear l f v) s = .next (s.after
    [.fn (fnKey l.val f.val) fun y => { y with done := (setBits 32 v.toNat).foldl (fun a b => putBit a b false) y.done }]) := by
  rw [exec_mbxDoneClear, State.run_eq, barWrite_open hr hf ho]
  rfl

theorem leaseRenew_present {e : BitVec 32} (he : (s.dev.fn (fnKey l.val f.val)).epoch = e.toNat) : exec (.leaseRenew l f e) s =
    .next (s.after [.fn (fnKey l.val f.val) fun y => { y with
      live := true, remain := 1000 * s.dev.num .hifLeasePeriod l.val, period := s.dev.num .hifLeasePeriod l.val }]) := by
  simp only [exec_leaseRenew, State.run_eq, barWrite_open hr hf ho, leaseRenew, Prog.run_all_cons, Prog.run_ask, he, if_true]
  rfl

theorem leaseRenew_stale {e : BitVec 32} (he : (s.dev.fn (fnKey l.val f.val)).epoch ≠ e.toNat) : exec (.leaseRenew l f e) s =
    .next (s.after [.count .hifBadAccesses l.val 0 1, .raise (64 + 16 * l.val + 9) 0 f.val 0 0]) := by
  simp only [exec_leaseRenew, State.run_eq, barWrite_open hr hf ho, leaseRenew, Prog.run_all_cons, Prog.run_ask, if_neg he]
  rfl

section
variable (r : Fin 4096) (ix : BitVec 32) (ds : List Desc)

/-- The distance a doorbell is ahead of what its ring has finished. -/
def Ring.ahead (g : Ring) (ix : Nat) : Nat := if g.kind = 5 then ixDist g.devIx ix else ixDist ix g.devIx

theorem hostIndexWrite_open : exec (.hostIndexWrite l f r ix ds) s = .next { s with dev :=
    (if (s.dev.ringSt r.val).state = 0 ∨ s.dev.ringFn r.val ≠ fnKey l.val f.val ∨ s.dev.linkOfRing r.val ≠ l.val then badAccess l.val
      else if (s.dev.ringSt r.val).state ≠ 1 then
        .all [badAccess l.val, .when ((s.dev.ringSt r.val).state == 3) [raise (64 + 16 * l.val + 9) r.val]]
      else if 2 ^ 31 ≤ ixDist ix.toNat (s.dev.ringSt r.val).hostIx ∨
          2 ^ (s.dev.ringSt r.val).log2 < (s.dev.ringSt r.val).ahead ix.toNat then ringError r.val 3
      else .eff (.ring r.val fun x => { x with
        hostIx := ix.toNat
        posted := if x.kind = 5 then [] else x.posted ++ ds.take (ixDist ix.toNat (s.dev.ringSt r.val).hostIx) }) : Prog).run s.dev } := by
  simp only [exec_hostIndexWrite, execHostIndexWrite, State.run_eq, Prog.run_all_cons, Prog.run_ask, hf, Prog.when_true, alsoSeen_run hr,
    Prog.all_nil, Prog.run_skip, barWrite_open hr hf ho, wake_run hr.1 hr.2]
  rfl

theorem hostIndexWrite_foreign (h : s.dev.ringFn r.val ≠ fnKey l.val f.val ∨ (s.dev.ringSt r.val).state = 0 ∨ (s.dev.ringSt r.val).state = 2) :
    exec (.hostIndexWrite l f r ix ds) s = .next (s.after [.count .hifBadAccesses l.val 0 1]) := by
  rw [hostIndexWrite_open hr hf ho]
  by_cases h0 : (s.dev.ringSt r.val).state = 0 ∨ s.dev.ringFn r.val ≠ fnKey l.val f.val ∨ s.dev.linkOfRing r.val ≠ l.val
  · rw [if_pos h0]
    rfl
  · have h2 : (s.dev.ringSt r.val).state = 2 := by
      obtain ⟨hs, hk, -⟩ : _ ∧ _ ∧ _ := by simpa only [not_or] using h0
      exact h.resolve_left hk |>.resolve_left hs
    rw [if_neg h0, h2]
    rfl

variable (hl : s.dev.linkOfRing r.val = l.val) (hk : s.dev.ringFn r.val = fnKey l.val f.val)
include hl hk

theorem hostIndexWrite_held (h0 : (s.dev.ringSt r.val).state ≠ 0) : exec (.hostIndexWrite l f r ix ds) s = .next { s with dev :=
    (if (s.dev.ringSt r.val).state ≠ 1 then
        .all [badAccess l.val, .when ((s.dev.ringSt r.val).state == 3) [raise (64 + 16 * l.val + 9) r.val]]
      else if 2 ^ 31 ≤ ixDist ix.toNat (s.dev.ringSt r.val).hostIx ∨
          2 ^ (s.dev.ringSt r.val).log2 < (s.dev.ringSt r.val).ahead ix.toNat then ringError r.val 3
      else .eff (.ring r.val fun x => { x with
        hostIx := ix.toNat
        posted := if x.kind = 5 then [] else x.posted ++ ds.take (ixDist ix.toNat (s.dev.ringSt r.val).hostIx) }) : Prog).run s.dev } := by
  rw [hostIndexWrite_open hr hf ho, if_neg]
  simp only [h0, hk, hl, ne_eq, not_true, or_self, not_false_eq_true]

theorem hostIndexWrite_accepted (h1 : (s.dev.ringSt r.val).state = 1) (hn : ixDist ix.toNat (s.dev.ringSt r.val).hostIx < 2 ^ 31)
    (ha : (s.dev.ringSt r.val).ahead ix.toNat ≤ 2 ^ (s.dev.ringSt r.val).log2) : exec (.hostIndexWrite l f r ix ds) s =
      .next (s.after [.ring r.val fun x => { x with
        hostIx := ix.toNat
        posted := if x.kind = 5 then [] else x.posted ++ ds.take (ixDist ix.toNat (s.dev.ringSt r.val).hostIx) }]) := by
  rw [hostIndexWrite_held hr hf ho r ix ds hl hk (by omega), if_neg (not_not.mpr h1), if_neg (by omega)]
  rfl

theorem hostIndexWrite_refused (h1 : (s.dev.ringSt r.val).state = 1) (h : 2 ^ 31 ≤ ixDist ix.toNat (s.dev.ringSt r.val).hostIx ∨
      2 ^ (s.dev.ringSt r.val).log2 < (s.dev.ringSt r.val).ahead ix.toNat) : exec (.hostIndexWrite l f r ix ds) s =
    .next (s.after [.ring r.val fun x => { x with state := 2, err := 3 }, .raise (64 + 16 * l.val + 8) 3 r.val 0 0]) := by
  rw [hostIndexWrite_held hr hf ho r ix ds hl hk (by omega), if_neg (not_not.mpr h1), if_pos h, ringError, Prog.run_ask, hl]
  rfl

theorem hostIndexWrite_revoked (h3 : (s.dev.ringSt r.val).state = 3) : exec (.hostIndexWrite l f r ix ds) s =
    .next (s.after [.count .hifBadAccesses l.val 0 1, .raise (64 + 16 * l.val + 9) 0 r.val 0 0]) := by
  rw [hostIndexWrite_held hr hf ho r ix ds hl hk (by omega), h3]
  rfl

end

/-! ## Direct-mapped slots and vectors (R182, R194) -/

theorem dmapSlotRead_open (n : Fin 1024) (hc : s.dev.closedAbort (s.dev.dmapKey (fnKey l.val f.val) n.val / 256) = 0)
    (hk : s.dev.dmapKey (fnKey l.val f.val) n.val ≠ Obj.rstCauseSticky.key 0 0) : exec (.dmapSlotRead l f n) s = .next (s.after
      [.out ⟨.busRead, fnKey l.val f.val, 0x10000 + 16 * n.val, slice (s.dev.dmapValue (fnKey l.val f.val) n.val) 0 16⟩]) := by
  simp only [exec_dmapSlotRead, State.run_eq, tlp_run hr hf, Prog.run_all_cons, dmapRead, Prog.run_ask, ho, hc, Bool.false_eq_true, false_or,
    ne_eq, not_true, and_false, if_false, beq_eq_false_iff_ne.mpr hk]
  rfl

omit hr hf ho

/-- A vector's entry is unmasked and its message no longer pending. -/
def messageFreed (k : Nat) : List Eff := [.vec k fun x => { x with masked := false }, .vec k fun x => { x with pend := false }]

/-- The message that an entry sends. -/
def vecMessage (x : Vec) : List Byte := leBytes 8 x.addr ++ leBytes 4 x.data

theorem messageFreed_entry {d : Dev} (hw : SMap.wf Vec.none d.vecs = true) (k : Nat) :
    SMap.get Vec.none (d.after (messageFreed k)).vecs k = { SMap.get Vec.none d.vecs k with masked := false, pend := false } := by
  have hupd {m : SMap Vec} (h : SMap.wf Vec.none m = true) (g : Vec → Vec) :
      SMap.get Vec.none (SMap.upd Vec.none k g m) k = g (SMap.get Vec.none m k) := SMap.get_put_same (b := 0) _ _ _ h
  simp only [messageFreed, Dev.after_cons, Dev.after_nil, Eff.apply, hupd (SMap.upd_wf hw), hupd hw]

include hr hf ho

section
variable (v : Fin 2048) (hv : v.val < s.dev.vectorsOf l.val f.val)
include hv

theorem msixVectorUnmask_run : exec (.msixVectorUnmask l f v) s =
    .next { s with dev := (vectorUnmask l.val f.val v.val).run s.dev } := by
  simp only [exec_msixVectorUnmask, State.run_eq, barWrite_open hr hf ho, Prog.run_all_cons, Prog.run_ask, hv, decide_true, Prog.when_true,
    Prog.all_nil, Prog.run_skip]

theorem msixVectorUnmask_quiet (hp : (SMap.get Vec.none s.dev.vecs (vecKey (fnKey l.val f.val) v.val)).pend = false) :
    exec (.msixVectorUnmask l f v) s =
      .next (s.after [.vec (vecKey (fnKey l.val f.val) v.val) fun x => { x with masked := false }]) := by
  simp only [msixVectorUnmask_run hr hf ho v hv, vectorUnmask, Prog.run_ask, hp]
  rfl

/-- A pending message leaves with the address and the data that its entry had. -/
theorem msixVectorUnmask_pending (hp : (SMap.get Vec.none s.dev.vecs (vecKey (fnKey l.val f.val) v.val)).pend = true)
    (hs : s.dev.canSignal l.val f.val = true) (hm : (s.dev.fn (fnKey l.val f.val)).msixMask = false)
    (hw : SMap.wf Vec.none s.dev.vecs = true) : exec (.msixVectorUnmask l f v) s = .next (s.after
      [.vec (vecKey (fnKey l.val f.val) v.val) fun x => { x with masked := false },
       .vec (vecKey (fnKey l.val f.val) v.val) fun x => { x with pend := false },
       .out ⟨.msix, fnKey l.val f.val, v.val, leBytes 8 (SMap.get Vec.none s.dev.vecs (vecKey (fnKey l.val f.val) v.val)).addr ++
         leBytes 4 (SMap.get Vec.none s.dev.vecs (vecKey (fnKey l.val f.val) v.val)).data⟩]) := by
  simp only [msixVectorUnmask_run hr hf ho v hv, vectorUnmask, Prog.run_ask, hp, hs, hm, Bool.and_self, Bool.not_false, Prog.when_true,
    Prog.run_all_cons, sendVector]
  change Host.Outcome.next (s.after (messageFreed (vecKey (fnKey l.val f.val) v.val) ++
    [.out ⟨.msix, fnKey l.val f.val, v.val, vecMessage (SMap.get Vec.none
      (s.dev.after (messageFreed (vecKey (fnKey l.val f.val) v.val))).vecs (vecKey (fnKey l.val f.val) v.val))⟩])) = _
  rw [messageFreed_entry hw]
  rfl

end
end

/-! ## A Closed crossing (Table 3.9) -/

section
variable {s : State} {l : Fin 4} {f : Fin 64} (hr : s.dev.inRun) (hf : s.dev.reaches l.val f.val = true)
  (ho : s.dev.hostClosed l.val f.val = true)
include hr hf ho

theorem hostIndexWrite_closed (r : Fin 4096) (ix : BitVec 32) (ds : List Desc) : exec (.hostIndexWrite l f r ix ds) s =
    .next (s.after [.count .xingClosedDiscards 0 0 1, .raise (64 + 16 * l.val + 4) 0 l.val 0 0]) := by
  simp only [exec_hostIndexWrite, execHostIndexWrite, State.run_eq, Prog.run_all_cons, Prog.run_ask, hf, Prog.when_true, alsoSeen_run hr,
    Prog.all_nil, Prog.run_skip, barWrite_closed hr hf ho]
  rfl

theorem dmapSlotRead_closed (n : Fin 1024) : exec (.dmapSlotRead l f n) s = .next (s.after
    [.out ⟨.busError, fnKey l.val f.val, 0x10000 + 16 * n.val, List.replicate 16 255⟩, .raise (64 + 16 * l.val + 4) 0 l.val 0 0]) := by
  simp only [exec_dmapSlotRead, State.run_eq, tlp_run hr hf, Prog.run_all_cons, dmapRead, Prog.run_ask, ho, true_or, if_true]
  rfl

end

/-! ## BAR2 (R177) -/

section
variable {s : State} (hf : s.dev.reaches 0 0 = true) (a : BitVec 28)
include hf

theorem bar2Access_hidden (hr : s.dev.inRun) (h : s.dev.diagVisible 0x0100 = false) (w : Bool) : exec (.bar2Access w a) s =
    .next (s.after [if w then .count .hifBadAccesses 0 0 1 else .out ⟨.busRead, 0, a.toNat, zeros 4⟩]) := by
  simp only [exec_bar2Access, execBar2Access, h, Bool.and_false, Bool.false_eq_true, if_false, State.run_eq, tlp_run hr hf]
  cases w <;> rfl

theorem bar2Access_open (h : s.dev.diagVisible 0x0100 = true) (w : Bool) : exec (.bar2Access w a) s = .refused .diagnosticsUndescribed := by
  simp only [exec_bar2Access, execBar2Access, h, hf, Bool.and_self, if_true]

end

/-! ## Configuration space (R174, R175, Table 6.2) -/

section
variable {s : State} {l : Fin 4} {f : Fin 64} (hu : s.dev.linkUsed l.val = true) (h2 : s.dev.num .hifLinkState l.val = 2)
  (hd : s.dev.clk.devReset = false)
include hu h2 hd

theorem configured : (s.dev.linkUsed l.val && s.dev.num .hifLinkState l.val == 2 && !s.dev.clk.devReset) = true := by
  simp [hu, h2, hd]

theorem pcieConfigRequest_early (q : CfgReq) : exec (.pcieConfigRequest l f false q) s =
    .next (s.after [.out ⟨.busError, fnKey l.val f.val, 2, []⟩]) := by
  simp only [exec_pcieConfigRequest, execPcieConfigRequest, State.run_eq, Prog.run_ask, configured hu h2 hd]
  rfl

theorem pcieConfigRequest_read (off : BitVec 12) : exec (.pcieConfigRequest l f true (.read off)) s =
    .next (s.after [.out ⟨.busRead, fnKey l.val f.val, off.toNat, leBytes 4 (s.dev.cfgDword l.val f.val (off.toNat / 4 * 4))⟩]) := by
  simp only [exec_pcieConfigRequest, execPcieConfigRequest, State.run_eq, Prog.run_ask, configured hu h2 hd]
  rfl

/-- A write of the PF's Command register does nothing but keep its writable bits. -/
theorem pcieConfigRequest_command (hf : f.val = 0) (v : BitVec 32) : exec (.pcieConfigRequest l f true (.write 4 v)) s =
    .next (s.after [.fn (fnKey l.val 0) fun y => { y with
      cfg := SMap.put 0 4 (cfgMerge 0x0546 (s.dev.cfgDword l.val 0 4) v.toNat + 1) y.cfg }]) := by
  simp only [exec_pcieConfigRequest, execPcieConfigRequest, State.run_eq, Prog.run_ask, configured hu h2 hd, hf]
  rfl

theorem pcieConfigRequest_msixOff (m : Bool) : exec (.pcieConfigRequest l f true (.msix false m)) s =
    .next (s.after [.fn (fnKey l.val f.val) fun y => { y with msixOn := false, msixMask := m }]) := by
  simp only [exec_pcieConfigRequest, execPcieConfigRequest, State.run_eq, Prog.run_ask, configured hu h2 hd]
  rfl

end

theorem cfgMerge_none (a b : Nat) : cfgMerge 0 a b = a := by
  simp [cfgMerge]

/-- A dword whose bits are all fixed shows the fixed value. -/
theorem cfgMerge_all {a b : Nat} (ha : a < 2 ^ 32) (hb : b < 2 ^ 32) : cfgMerge 0xFFFFFFFF a b = b := by
  have hand {x : Nat} (h : x < 2 ^ 32) : x &&& 0xFFFFFFFF = x :=
    (Nat.and_two_pow_sub_one_eq_mod x 32).trans (Nat.mod_eq_of_lt h)
  simp [cfgMerge, hand ha, hand hb]

theorem cfgWritable_ident (l f : Nat) : cfgWritable l f 0 = 0 ∧ cfgWritable l f 8 = 0 := by
  constructor <;> (unfold cfgWritable; split <;> rfl)

theorem cfgDword_ident (d : Dev) (l f : Nat) :
    d.cfgDword l f 0 = (if f = 0 then 0x9640 else 0x9641) * 65536 + Config.vendorId % 65536 := by
  have hv : (if f = 0 then 0x9640 else 0x9641) * 65536 + Config.vendorId % 65536 < 2 ^ 32 := by split <;> omega
  simp only [Dev.cfgDword, (cfgWritable_ident l f).1, cfgMerge_none]
  exact cfgMerge_all (Nat.mod_lt _ (by decide)) hv

theorem cfgDword_class (d : Dev) (l f : Nat) : d.cfgDword l f 8 = 0x02800021 := by
  simp only [Dev.cfgDword, (cfgWritable_ident l f).2, cfgMerge_none]
  exact cfgMerge_all (Nat.mod_lt _ (by decide)) (b := 0x02800021) (by decide)

/-- Settles O19: an access in Run is its own part of the model, by the equations above. -/
theorem hostPages : Obligations.HostPages := by
  refine ⟨fun s l f hr hf ho k hk => ?_, fun s l f hr hf ho e he => ?_, fun s a hr hf => ?_, fun s l f hu h2 hd => ?_⟩
  · subst hk
    refine ⟨fun off n hn hw => ⟨read0_misfit hr hf ho off n hn hw, read0_register hr hf ho off n hn hw, read0_mailbox hr hf ho off n hn hw⟩,
      fun off b hwf hw => ⟨write0_discarded hr hf ho off b hwf hw, write0_mailbox hr hf ho off b hwf hw, write0_irq hr hf ho off b hwf hw⟩,
      fun off h4 => ⟨read4_dword hr hf ho off h4, fun b => write4_data hr hf ho off h4 b⟩,
      mbxDoneClear_open hr hf ho, fun e => leaseRenew_present hr hf ho, fun e => leaseRenew_stale hr hf ho,
      fun r ix ds hl => ⟨fun hk h1 ahead ha => ?_, hostIndexWrite_foreign hr hf ho r ix ds, hostIndexWrite_revoked hr hf ho r ix ds hl⟩,
      dmapSlotRead_open hr hf ho, fun v hv => ⟨msixVectorUnmask_quiet hr hf ho v hv, msixVectorUnmask_pending hr hf ho v hv⟩⟩
    subst ha
    exact ⟨hostIndexWrite_accepted hr hf ho r ix ds hl hk h1, hostIndexWrite_refused hr hf ho r ix ds hl hk h1⟩
  · subst he
    refine ⟨fun v => ⟨?_, ?_⟩, hostIndexWrite_closed hr hf ho, fun v => ?_, dmapSlotRead_closed hr hf ho⟩
    · rw [exec_mbxDoneClear, State.run_eq, barWrite_closed hr hf ho, State.after]
    · rw [exec_leaseRenew, State.run_eq, barWrite_closed hr hf ho, State.after]
    · rw [exec_msixVectorUnmask, State.run_eq, barWrite_closed hr hf ho, State.after]
  · exact ⟨fun h => ⟨bar2Access_hidden hf a hr h false, bar2Access_hidden hf a hr h true⟩, bar2Access_open hf a⟩
  · exact ⟨pcieConfigRequest_early hu h2 hd, pcieConfigRequest_read hu h2 hd, cfgDword_ident _ _ _, cfgDword_class _ _ _,
      pcieConfigRequest_command hu h2 hd, pcieConfigRequest_msixOff hu h2 hd⟩

end Sys2Proof.Machine
end

section
/-!
PROOFS about the sub-tick (R554, R557): the time, then what waited, then the leases, the lasers, DRAM and the bundles.
-/
namespace Sys2Proof.Machine

/-! ## The time in units (R554) -/

section
variable {t : TimeSt}

/-- The largest time that 48 bits of seconds hold, in units. -/
def topUnits : Int := 2 ^ 48 * 1000000000 * 2 ^ 40

theorem setUnits_lt (u : Int) : (t.setUnits u).ns < 1000000000 ∧ (t.setUnits u).frac < 2 ^ 40 := by
  simp only [TimeSt.setUnits, nsUnits]
  omega

theorem setUnits_secs {u : Int} (h0 : 0 ≤ u) (h : u < topUnits) : ((t.setUnits u).secs : Int) = u / 2 ^ 40 / 1000000000 := by
  simp only [TimeSt.setUnits, nsUnits]
  simp only [topUnits] at h
  omega

theorem units_setUnits {u : Int} (h0 : 0 ≤ u) (h : u < topUnits) : (t.setUnits u).units = u := by
  have hs := setUnits_secs (t := t) h0 h
  simp only [TimeSt.units, timeUnits, nsUnits, Nat.cast_add, Nat.cast_mul]
  rw [hs]
  simp only [TimeSt.setUnits, nsUnits]
  omega

theorem timeUnits_bounds {S N F : Nat} (hS : S < 2 ^ 48) (hN : N < 1000000000) (hF : F < 2 ^ 16) :
    0 ≤ timeUnits S N (F * 2 ^ 24) ∧ timeUnits S N (F * 2 ^ 24) < topUnits := by
  simp only [timeUnits, nsUnits, topUnits]
  omega

/-! ## What waits for a sub-tick (R557) -/

/-- The time stepped to a value: a slew ends. -/
def TimeSt.stepped (t : TimeSt) (u : Int) : TimeSt := { t.setUnits u with slew := 0 }

/-- A new increment taken up. -/
def TimeSt.incTaken (t : TimeSt) : TimeSt := t.incPend.elim t fun v => { t with incPend := none, incNow := v }

/-- A TIME_SET taken up. -/
def TimeSt.setTaken (t : TimeSt) : TimeSt :=
  t.setPend.elim t fun x => TimeSt.stepped { t with setPend := none } (timeUnits x.1 x.2.1 (x.2.2 * 2 ^ 24))

/-- A step taken up. -/
def TimeSt.stepTaken (t : TimeSt) : TimeSt :=
  t.stepPend.elim t fun x => TimeSt.stepped { t with stepPend := none } (max 0 (t.units + x))

/-- A slew begun. -/
def TimeSt.slewTaken (t : TimeSt) : TimeSt := t.slewPend.elim t fun x => { t with slewPend := none, slew := x }

theorem stepped_stepPend (t : TimeSt) (u : Int) : (t.stepped u).stepPend = t.stepPend := rfl

theorem setTaken_stepPend (t : TimeSt) : t.setTaken.stepPend = t.stepPend := by
  unfold TimeSt.setTaken
  cases t.setPend
  · rfl
  · rw [Option.elim_some, stepped_stepPend]

/-- What waited has taken effect. -/
def TimeSt.settled (t : TimeSt) : TimeSt := t.incTaken.setTaken.stepTaken.slewTaken

/-- Nothing waits any more, and what does not wait stays. -/
theorem settled_fields (t : TimeSt) : t.settled.incPend = none ∧ t.settled.setPend = none ∧ t.settled.stepPend = none ∧
    t.settled.slewPend = none ∧ t.settled.incNow = t.incPend.getD t.incNow ∧ t.settled.sub = t.sub ∧ t.settled.ticks = t.ticks ∧
    t.settled.synco = t.synco := by
  rcases t with ⟨secs, ns, frac, slew, _ | p, _ | q, _ | w, _ | v, rest⟩ <;> exact ⟨rfl, rfl, rfl, rfl, rfl, rfl, rfl, rfl⟩

/-- Nanoseconds and fraction lie in their ranges. -/
def TimeSt.inRange (t : TimeSt) : Prop := t.ns < 1000000000 ∧ t.frac < 2 ^ 40

theorem settled_inRange (h : t.inRange) : t.settled.inRange := by
  have hinc {a : TimeSt} (h : a.inRange) : a.incTaken.inRange := by
    unfold TimeSt.incTaken
    cases a.incPend <;> exact h
  have hset {a : TimeSt} (h : a.inRange) : a.setTaken.inRange := by
    unfold TimeSt.setTaken
    cases a.setPend
    · exact h
    · exact setUnits_lt (t := { a with setPend := none }) _
  have hstep {a : TimeSt} (h : a.inRange) : a.stepTaken.inRange := by
    unfold TimeSt.stepTaken
    cases a.stepPend
    · exact h
    · exact setUnits_lt (t := { a with stepPend := none }) _
  have hslew {a : TimeSt} (h : a.inRange) : a.slewTaken.inRange := by
    unfold TimeSt.slewTaken
    cases a.slewPend <;> exact h
  exact hslew (hstep (hset (hinc h)))

/-- With neither a TIME_SET nor a step the time goes on and a slew that waits begins. -/
theorem settled_plain (h : t.setPend = none) (h' : t.stepPend = none) :
    t.settled.units = t.units ∧ t.settled.slew = t.slewPend.getD t.slew := by
  rcases t with ⟨secs, ns, frac, slew, sp, st, _ | w, _ | v, rest⟩ <;> cases h <;> cases h' <;> exact ⟨rfl, rfl⟩

theorem settled_step (h : t.setPend = none) {x : Int} (h' : t.stepPend = some x) :
    t.settled.units = (t.setUnits (max 0 (t.units + x))).units ∧ t.settled.slew = t.slewPend.getD 0 := by
  rcases t with ⟨secs, ns, frac, slew, sp, st, _ | w, _ | v, rest⟩ <;> cases h <;> cases h' <;> exact ⟨rfl, rfl⟩

theorem settled_set {x : Nat × Nat × Nat} (h : t.setPend = some x) (h' : t.stepPend = none) :
    t.settled.units = (t.setUnits (timeUnits x.1 x.2.1 (x.2.2 * 2 ^ 24))).units ∧ t.settled.slew = t.slewPend.getD 0 := by
  rcases t with ⟨secs, ns, frac, slew, sp, st, _ | w, _ | v, rest⟩ <;> cases h <;> cases h' <;> exact ⟨rfl, rfl⟩

end

/-! ## The programs of a sub-tick -/

/-- The device with another time. -/
def Dev.withTim (d : Dev) (t : TimeSt) : Dev := { d with tim := t }

@[simp] theorem withTim_tim (d : Dev) (t : TimeSt) : (d.withTim t).tim = t := rfl
@[simp] theorem withTim_withTim (d : Dev) (t a : TimeSt) : (d.withTim t).withTim a = d.withTim a := rfl
@[simp] theorem withTim_num (d : Dev) (t : TimeSt) (o : Obj) (i j : Nat) : (d.withTim t).num o i j = d.num o i j := rfl
@[simp] theorem withTim_occs (d : Dev) (t : TimeSt) : (d.withTim t).occs = d.occs := rfl

/-- The slew correction of a sub-tick (R557). -/
def Dev.slewPart (d : Dev) : Int := if d.tim.slew.natAbs ≤ d.slewRate.toNat then 0 else if 0 < d.tim.slew then d.slewRate else -d.slewRate

/-- The time a sub-tick later, in units. -/
def Dev.tickUnits (d : Dev) : Int := d.tim.units + 1000 * (d.tim.incNow : Int) + d.slewPart

/-- The time has moved on by a sub-tick. -/
def Dev.advanced (d : Dev) : TimeSt := { d.tim.setUnits d.tickUnits with
  slew := d.tim.slew - d.slewPart, sub := d.tim.sub + 1, ticks := d.tim.ticks + 1 }

/-- A waiting setting of SYNCO is taken up in a new second (R569). -/
def Dev.ticked (d : Dev) : TimeSt := { d.advanced with
  synco := if d.advanced.secs = d.tim.secs then d.tim.synco
    else if d.num .timeSyncoEnable = 1 then some (d.num .timeSyncoFreq, d.num .timeSyncoReference) else none }

/-- The time moves on (R554). -/
def tickOn : Prog := .ask fun d => .all [
  .eff (.tim fun t => { t.setUnits d.tickUnits with slew := t.slew - d.slewPart, sub := t.sub + 1, ticks := t.ticks + 1 }),
  .ask fun e => .when (e.tim.secs != d.tim.secs) [syncoSecond]]

/-- A new increment is in force (R554). -/
def takeInc : Prog := .ask fun d => match d.tim.incPend with
  | some v => .eff (.tim fun t => { t with incPend := none, incNow := v })
  | none => .skip

/-- A TIME_SET takes effect (R556). -/
def takeSet : Prog := .ask fun d => match d.tim.setPend with
  | some x => .all [
      .eff (.tim fun t => { t with setPend := none }),
      stepTime (timeUnits x.1 x.2.1 (x.2.2 * 2 ^ 24)), setSync true, setFlag .timeStatus 0 0 2 true]
  | none => .skip

/-- A step takes effect (R557). -/
def takeStep : Prog := .ask fun d => match d.tim.stepPend with
  | some x => .all [.eff (.tim fun t => { t with stepPend := none }), stepTime (max 0 (d.tim.units + x))]
  | none => .skip

/-- A slew begins (R557). -/
def takeSlew : Prog := .ask fun d => match d.tim.slewPend with
  | some x => .eff (.tim fun t => { t with slewPend := none, slew := x })
  | none => .skip

/-- What waits for a sub-tick takes effect. -/
def settle : Prog := .all [takeInc, takeSet, takeStep, takeSlew]

/-- The live leases have 1 µs less. -/
def leaseTicks : Prog :=
  .ask fun d => .each (d.fns.filter fun f => f.2.live) fun f => .eff (.fn f.1 fun y => { y with remain := y.remain - 1 })

theorem exec_subTick (s : State) : exec .subTick s = s.run (.ask fun d => .when d.answers [tickOn, takeInc, takeSet, takeStep, takeSlew,
    leaseTicks, .each (List.range 4) laserTick, .each (List.range 8) dramTick, .each (List.range 12) fabTick]) := rfl

theorem subTick_run {s : State} (ha : s.dev.answers = true) : exec .subTick s = .next { s with dev := (Prog.all [tickOn, settle, leaseTicks,
    .each (List.range 4) laserTick, .each (List.range 8) dramTick, .each (List.range 12) fabTick]).run s.dev } := by
  simp only [exec_subTick, State.run_eq, Prog.run_ask, ha, Prog.when_true, settle, Prog.run_all_cons, Prog.all_nil, Prog.run_skip]

theorem subTick_silent {s : State} (ha : s.dev.answers = false) : exec .subTick s = .next s := by
  simp only [exec_subTick, State.run_eq, Prog.run_ask, ha, Prog.when_false, Prog.run_skip]

theorem tickOn_run (d : Dev) : tickOn.run d = d.withTim d.ticked := by
  by_cases h : d.advanced.secs = d.tim.secs
  · have hb : ((d.tim.setUnits d.tickUnits).secs != d.tim.secs) = false := bne_eq_false_iff_eq.mpr h
    simp only [tickOn, Prog.run_ask, Prog.run_all_cons, Prog.run_eff, Eff.apply, hb, Dev.ticked, if_pos h]
    rfl
  · have hb : ((d.tim.setUnits d.tickUnits).secs != d.tim.secs) = true := bne_iff_ne.mpr h
    simp only [tickOn, Prog.run_ask, Prog.run_all_cons, Prog.run_eff, Eff.apply, hb, Dev.ticked, if_neg h]
    rfl

/-! ## Frames -/

section
variable {ks : Nat → Bool} {ps : List Part}

/-- The objects that a step or a TIME_SET changes. -/
def settleKeys : Nat → Bool := keysOf [(.timeStatus, 0, 0), (.timeSteps, 0, 0)]

theorem stepTime_adds (u : Int) : (stepTime u).Only (Eff.adds settleKeys [.tim, .occs]) := fun _ =>
  ⟨adds_tim (by decide) _, adds_count.mpr (by decide), adds_raise (by decide) _ _ _ _ _, trivial⟩

theorem takeSet_adds : takeSet.Only (Eff.adds settleKeys [.tim, .occs]) := fun d => by
  dsimp only
  split
  · exact ⟨adds_tim (by decide) _, stepTime_adds _, setSync_adds (by decide) (by decide) _, fun _ => adds_obj.mpr (by decide), trivial⟩
  · trivial

theorem takeStep_adds : takeStep.Only (Eff.adds settleKeys [.tim, .occs]) := fun d => by
  dsimp only
  split
  · exact ⟨adds_tim (by decide) _, stepTime_adds _, trivial⟩
  · trivial

theorem takeInc_adds : takeInc.Only (Eff.adds settleKeys [.tim, .occs]) := fun d => by
  dsimp only
  split
  · exact adds_tim (by decide) _
  · trivial

theorem takeSlew_adds : takeSlew.Only (Eff.adds settleKeys [.tim, .occs]) := fun d => by
  dsimp only
  split
  · exact adds_tim (by decide) _
  · trivial

theorem settle_adds : settle.Only (Eff.adds settleKeys [.tim, .occs]) := ⟨takeInc_adds, takeSet_adds, takeStep_adds, takeSlew_adds, trivial⟩

theorem tickOn_adds : tickOn.Only (Eff.adds noKeys [.tim]) := fun _ =>
  ⟨adds_tim (by decide) _, fun _ => only_when ⟨fun _ => adds_tim (by decide) _, trivial⟩, trivial⟩

theorem leaseTicks_adds : leaseTicks.Only (Eff.adds noKeys [.fns]) := fun _ => only_each fun _ => adds_fn (by decide) _ _

theorem laserTicks_adds (l : List Nat) : (Prog.each l laserTick).Only (Eff.adds noKeys [.fch]) :=
  only_each fun _ _ => adds_fch (by decide) _ _

theorem countIn_adds {o : Obj} {i j off size n : Nat} (h : ks (o.key i j) = true) : (countIn o i j off size n).Only (Eff.adds ks ps) :=
  fun _ => adds_obj.mpr h

theorem serveSub_adds {c : Nat} (hk : ks (Obj.dramCounters.key c 0) = true) (hd : .dram ∈ ps) (ht : .tm ∈ ps) (ho : .outs ∈ ps) (s : Nat) :
    ∀ n, (serveSub c s n).Only (Eff.adds ks ps)
  | 0 => trivial
  | n + 1 => fun d => by
    have hsub (f : DramSub → DramSub) : (subUpd c s f).Only (Eff.adds ks ps) := adds_part (p := .dram) (fun _ => rfl) rfl rfl hd
    have ih := serveSub_adds hk hd ht ho s n
    dsimp only
    split
    · trivial
    · exact ⟨hsub _, countIn_adds hk, adds_tm ht _, ih, trivial⟩
    · exact ⟨hsub _, only_when ⟨countIn_adds hk, trivial⟩, adds_out ho _, ih, trivial⟩

/-- The keys of the counters of the DRAM channels. -/
def dramTickKeys (k : Nat) : Bool := (List.range 8).any fun c => decide (Obj.dramCounters.key c 0 = k)

theorem dramTick_adds {c : Nat} (hc : c < 8) : (dramTick c).Only (Eff.adds dramTickKeys [.dram, .tm, .outs]) := fun _ =>
  only_when ⟨only_each fun s => serveSub_adds (by simpa [dramTickKeys] using ⟨c, hc, rfl⟩) (by decide) (by decide) (by decide) s _, trivial⟩

/-- The keys of the counters and the credits of the bundles. -/
def fabTickKeys (k : Nat) : Bool := (List.range 12).any fun g => decide (Obj.fabCounters.key g 0 = k) ||
  (List.range 16).any fun c => decide (Obj.fabTxCredits.key g c = k)

theorem fabTickKeys_counters {g : Nat} (hg : g < 12) : fabTickKeys (Obj.fabCounters.key g 0) = true :=
  List.any_eq_true.mpr ⟨g, List.mem_range.mpr hg, by simp⟩

theorem fabTickKeys_credits {g c : Nat} (hg : g < 12) (hc : c < 16) : fabTickKeys (Obj.fabTxCredits.key g c) = true :=
  List.any_eq_true.mpr ⟨g, List.mem_range.mpr hg, by simpa using .inr ⟨c, hc, rfl⟩⟩

theorem adds_fab (h : .fab ∈ ps) (g : Nat) (f : Bundle → Bundle) : (Eff.fab g f).adds ks ps := adds_part (p := .fab) (fun _ => rfl) rfl rfl h

theorem sendCell_adds (hf : .fab ∈ ps) (ho : .outs ∈ ps) (g lanes kind cls : Nat) (sop eop : Bool) (b : List Byte) :
    (sendCell g lanes kind cls sop eop b).Only (Eff.adds ks ps) := fun _ => ⟨adds_out ho _, adds_fab hf _ _, trivial⟩

theorem fabDrain_adds {g c : Nat} (hg : g < 12) (hc : c < 16) : ∀ l, (fabDrain g c l).Only (Eff.adds fabTickKeys [.fab, .outs])
  | [] => trivial
  | _ :: l => fun _ => only_when ⟨adds_obj.mpr (fabTickKeys_credits hg hc), adds_fab (by decide) _ _, countIn_adds (fabTickKeys_counters hg),
      only_when ⟨countIn_adds (fabTickKeys_counters hg), trivial⟩, sendCell_adds (by decide) (by decide) _ _ _ _ _ _ _,
      fabDrain_adds hg hc l, trivial⟩

theorem fabTick_adds {g : Nat} (hg : g < 12) : (fabTick g).Only (Eff.adds fabTickKeys [.fab, .outs]) := fun _ =>
  only_when ⟨adds_fab (by decide) _ _,
    only_each_iff.mpr fun _ hc _ => fabDrain_adds hg (List.mem_range.mp hc) _,
    only_each fun _ => sendCell_adds (by decide) (by decide) _ _ _ _ _ _ _, trivial⟩

theorem dramTicks_adds : (Prog.each (List.range 8) dramTick).Only (Eff.adds dramTickKeys [.dram, .tm, .outs]) :=
  only_each_iff.mpr fun _ hc => dramTick_adds (List.mem_range.mp hc)

theorem fabTicks_adds : (Prog.each (List.range 12) fabTick).Only (Eff.adds fabTickKeys [.fab, .outs]) :=
  only_each_iff.mpr fun _ hg => fabTick_adds (List.mem_range.mp hg)

end

/-! ## What waits takes effect -/

theorem takeInc_run (d : Dev) : takeInc.run d = d.withTim d.tim.incTaken := by
  simp only [takeInc, Prog.run_ask, TimeSt.incTaken]
  cases d.tim.incPend <;> rfl

theorem takeSlew_run (d : Dev) : takeSlew.run d = d.withTim d.tim.slewTaken := by
  simp only [takeSlew, Prog.run_ask, TimeSt.slewTaken]
  cases d.tim.slewPend <;> rfl

theorem takeSet_none {d : Dev} (h : d.tim.setPend = none) : takeSet.run d = d := by
  simp only [takeSet, Prog.run_ask, h, Prog.run_skip]

theorem takeStep_none {d : Dev} (h : d.tim.stepPend = none) : takeStep.run d = d := by
  simp only [takeStep, Prog.run_ask, h, Prog.run_skip]

/-- The device stepped to a time. -/
def Dev.steppedTo (d : Dev) (u : Int) : Dev := (stepTime u).run d

theorem takeStep_some {d : Dev} {x : Int} (h : d.tim.stepPend = some x) : takeStep.run d =
    (d.withTim { d.tim with stepPend := none }).steppedTo (max 0 (d.tim.units + x)) := by
  simp only [takeStep, Prog.run_ask, h]
  rfl

/-- SYNC and HOST_SET are set (Table 20.1). -/
def markSet : Prog := .seq (setSync true) (setFlag .timeStatus 0 0 2 true)

theorem takeSet_some {d : Dev} {x : Nat × Nat × Nat} (h : d.tim.setPend = some x) {u : Int} (hu : timeUnits x.1 x.2.1 (x.2.2 * 2 ^ 24) = u) :
    takeSet.run d = markSet.run ((d.withTim { d.tim with setPend := none }).steppedTo u) := by
  simp only [takeSet, Prog.run_ask, h, hu]
  rfl

theorem settle_run (d : Dev) : settle.run d = takeSlew.run (takeStep.run (takeSet.run (takeInc.run d))) := rfl

theorem setSync_tim (b : Bool) (d : Dev) : ((setSync b).run d).tim = d.tim := by
  simp only [setSync, Prog.run_ask]
  cases d.synced != b <;> rfl

theorem takeSet_tim (d : Dev) : (takeSet.run d).tim = d.tim.setTaken := by
  rcases h : d.tim.setPend with _ | x
  · rw [takeSet_none h, TimeSt.setTaken, h, Option.elim_none]
  · rw [takeSet_some h rfl, TimeSt.setTaken, h, Option.elim_some]
    exact setSync_tim true _

theorem takeStep_tim (d : Dev) : (takeStep.run d).tim = d.tim.stepTaken := by
  rcases h : d.tim.stepPend with _ | x
  · rw [takeStep_none h, TimeSt.stepTaken, h, Option.elim_none]
  · rw [takeStep_some h, TimeSt.stepTaken, h, Option.elim_some]
    rfl

theorem settle_tim (d : Dev) : (settle.run d).tim = d.tim.settled := by
  rw [settle_run, takeSlew_run, takeInc_run, takeStep_tim, takeSet_tim, TimeSt.settled, withTim_tim, withTim_tim]

/-- With neither a TIME_SET nor a step only the time changes. -/
theorem settle_plain {d : Dev} (h : d.tim.setPend = none) (h' : d.tim.stepPend = none) : settle.run d = d.withTim d.tim.settled := by
  obtain ⟨hp, hq⟩ : d.tim.incTaken.setPend = none ∧ d.tim.incTaken.stepPend = none := by
    simp only [TimeSt.incTaken]
    cases d.tim.incPend <;> exact ⟨h, h'⟩
  have hs : d.tim.settled = d.tim.incTaken.slewTaken := by
    simp only [TimeSt.settled, TimeSt.setTaken, TimeSt.stepTaken, hp, hq, Option.elim_none]
  rw [settle_run, takeSlew_run, takeInc_run, takeSet_none (d := d.withTim d.tim.incTaken) hp, takeStep_none (d := d.withTim d.tim.incTaken) hq, hs,
    withTim_tim, withTim_withTim]

/-! ## A step (R557, Table 22.9) -/

/-- A step by an offset, in units, has been recorded. -/
def Dev.recordsStep (d : Dev) (p : Int) : Prop :=
  ∃ o ∈ d.occs, o.src = 433 ∧ o.inst = 0xFFFFFF ∧ o.arg0 * 2 ^ 32 + o.arg1 = ofInt 64 (clampInt 64 (toPs p))

theorem Prog.Only.recordsStep {ks : Nat → Bool} {ps : List Part} {p : Prog} {d : Dev} {x : Int} (hp : p.Only (Eff.adds ks ps))
    (h : d.recordsStep x) : (p.run d).recordsStep x := by
  obtain ⟨o, ho, h⟩ := h
  exact ⟨o, hp.mem_occs ho, h⟩

theorem raise64_args {v : Nat} (h : v < 2 ^ 64) : v / 2 ^ 32 % 2 ^ 32 * 2 ^ 32 + v % 2 ^ 32 = v := by omega

theorem ofInt_lt (i : Int) : ofInt 64 i < 2 ^ 64 := by
  unfold ofInt
  omega

section
variable {d : Dev} (u : Int)

theorem steppedTo_records {p : Int} (h : u - d.tim.units = p) : (d.steppedTo u).recordsStep p := h ▸
  ⟨_, List.mem_append_right _ (List.mem_singleton.mpr rfl), rfl, rfl, raise64_args (ofInt_lt _)⟩

theorem steppedTo_steps (hd : d.Canonical) : (d.steppedTo u).num .timeSteps = satAdd 32 (d.num .timeSteps) 1 := Dev.num_put hd.objs _ _ _ _

theorem steppedTo_status (hd : d.Canonical) : (d.steppedTo u).num .timeStatus = d.num .timeStatus :=
  Dev.num_put_other (o := .timeSteps) hd.objs _ (by decide)

end

section
variable {d : Dev} (hd : d.Canonical)
include hd

theorem withTim_canonical (t : TimeSt) : (d.withTim t).Canonical := (Eff.tim fun _ => t).apply_canonical d hd

/-- A step moves the time by its offset (R557). -/
theorem settle_steps (h : d.tim.setPend = none) {x : Int} (h' : d.tim.stepPend = some x) (h0 : 0 ≤ d.tim.units + x) :
    (settle.run d).num .timeSteps = satAdd 32 (d.num .timeSteps) 1 ∧ (settle.run d).num .timeStatus = d.num .timeStatus ∧
      (settle.run d).recordsStep x := by
  obtain ⟨hp, hq, hu⟩ : d.tim.incTaken.setPend = none ∧ d.tim.incTaken.stepPend = some x ∧ d.tim.incTaken.units = d.tim.units := by
    simp only [TimeSt.incTaken]
    cases d.tim.incPend <;> exact ⟨h, h', rfl⟩
  have hrun : settle.run d = takeSlew.run ((d.withTim { d.tim.incTaken with stepPend := none }).steppedTo
      (max 0 (d.tim.incTaken.units + x))) := by
    rw [settle_run, takeInc_run, takeSet_none (d := d.withTim d.tim.incTaken) hp, takeStep_some (d := d.withTim d.tim.incTaken) hq]
    rfl
  have hc := withTim_canonical hd { d.tim.incTaken with stepPend := none }
  rw [hrun, takeSlew_run]
  exact ⟨steppedTo_steps _ hc, steppedTo_status _ hc,
    steppedTo_records _ (show max 0 (d.tim.incTaken.units + x) - d.tim.incTaken.units = x by omega)⟩

omit hd

theorem putBit_of_bitOf {v i : Nat} (h : bitOf v i = true) : putBit v i true = v := by
  simp only [bitOf, beq_iff_eq] at h
  have hle : 2 ^ i ≤ v := by
    by_contra hlt
    rw [Nat.div_eq_of_lt (by omega)] at h
    omega
  simp only [putBit, putBits, bitsOf, if_true, Nat.pow_one, h]
  omega

theorem setSync_status (hd : SMap.wf none d.objs = true) : ((setSync true).run d).num .timeStatus = putBit (d.num .timeStatus) 0 true ∧
    (d.synced = false → ((setSync true).run d).raisedEvent 432 0 0xFFFFFF) := by
  rcases h : d.synced with _ | _
  · simp only [setSync, Prog.run_ask, h]
    exact ⟨Dev.num_put hd _ _ _ _, fun _ => raisedEvent_raise _ _ _ _ _ _⟩
  · simp only [setSync, Prog.run_ask, h]
    exact ⟨(putBit_of_bitOf h).symm, fun h => absurd h (by decide)⟩

include hd

theorem markSet_marks : (markSet.run d).num .timeSteps = d.num .timeSteps ∧
    (markSet.run d).num .timeStatus = putBit (putBit (d.num .timeStatus) 0 true) 2 true ∧
    (d.synced = false → (markSet.run d).raisedEvent 432 0 0xFFFFFF) := by
  have hsync : ((setSync true).run d).Canonical := run_canonical (setSync true) hd
  obtain ⟨hstatus, hraised⟩ := setSync_status (d := d) hd.objs
  rw [markSet, Prog.run_seq, run_setFlag, hstatus]
  refine ⟨?_, Dev.num_put hsync.objs _ _ _ _, hraised⟩
  exact (Dev.num_put_other hsync.objs _ (by decide)).trans
    ((setSync_adds (ks := keysOf [(.timeStatus, 0, 0)]) (ps := [.occs]) (by decide) (by decide) true).num hd.objs (by decide))

omit hd

theorem markSet_adds : markSet.Only (Eff.adds settleKeys [.occs]) :=
  ⟨setSync_adds (by decide) (by decide) true, fun _ => adds_obj.mpr (by decide)⟩

include hd

/-- A TIME_SET sets the time, SYNC and HOST_SET (Table 20.1). -/
theorem settle_sets {x : Nat × Nat × Nat} (h : d.tim.setPend = some x) (h' : d.tim.stepPend = none) {p : Int}
    (hu : timeUnits x.1 x.2.1 (x.2.2 * 2 ^ 24) - d.tim.units = p) :
    (settle.run d).num .timeSteps = satAdd 32 (d.num .timeSteps) 1 ∧
      (settle.run d).num .timeStatus = putBit (putBit (d.num .timeStatus) 0 true) 2 true ∧
      (d.synced = false → (settle.run d).raisedEvent 432 0 0xFFFFFF) ∧ (settle.run d).recordsStep p := by
  obtain ⟨hp, hq, hi⟩ : d.tim.incTaken.setPend = some x ∧ d.tim.incTaken.stepPend = none ∧ d.tim.incTaken.units = d.tim.units := by
    simp only [TimeSt.incTaken]
    cases d.tim.incPend <;> exact ⟨h, h', rfl⟩
  generalize ht : timeUnits x.1 x.2.1 (x.2.2 * 2 ^ 24) = u at hu
  obtain ⟨e, he⟩ : ∃ e, e = d.withTim { d.tim.incTaken with setPend := none } := ⟨_, rfl⟩
  have hc : e.Canonical := he ▸ withTim_canonical hd _
  have hset : takeSet.run (d.withTim d.tim.incTaken) = markSet.run (e.steppedTo u) := by
    rw [takeSet_some (d := d.withTim d.tim.incTaken) hp ht, he]
    rfl
  have htim : (markSet.run (e.steppedTo u)).tim.stepPend = none := by
    rw [← hset, takeSet_tim, withTim_tim, setTaken_stepPend, hq]
  have hnum (o : Obj) : e.num o = d.num o := by rw [he, withTim_num]
  have hunits : u - e.tim.units = p := by
    rw [he, withTim_tim, ← hu, ← hi]
    rfl
  obtain ⟨hsteps, hstatus, hraised⟩ := markSet_marks (d := e.steppedTo u) (run_canonical (stepTime u) hc)
  rw [settle_run, takeInc_run, hset, takeStep_none htim, takeSlew_run]
  refine ⟨?_, ?_, fun hs => hraised ?_, markSet_adds.recordsStep (steppedTo_records u hunits)⟩
  · rw [withTim_num, hsteps, steppedTo_steps u hc, hnum]
  · rw [withTim_num, hstatus, steppedTo_status u hc, hnum]
  · rw [Dev.synced, steppedTo_status u hc, hnum]
    exact hs

end

/-! ## Leases, lasers, DRAM and bundles -/

/-- The effects of a sub-tick on the live leases of a store. -/
def leaseEffs (l : SMap Fn) : List Eff := (l.filter fun f => f.2.live).map fun f => .fn f.1 fun y => { y with remain := y.remain - 1 }

theorem fn_fn {d : Dev} (hd : d.Canonical) (k : Nat) (f : Fn → Fn) : ((Eff.fn k f).apply d).fn k = f (d.fn k) :=
  SMap.get_put_same (b := 0) _ _ _ hd.fns

theorem fn_fn_other {d : Dev} (hd : d.Canonical) {k j : Nat} (h : j ≠ k) (f : Fn → Fn) : ((Eff.fn k f).apply d).fn j = d.fn j :=
  SMap.get_put_other (b := 0) _ _ h hd.fns

/-- Each lease that a store lists as live has its sub-tick once, as the store's keys rise. -/
theorem leaseEffs_fn {d : Dev} (hd : d.Canonical) (k : Nat) : ∀ {l : SMap Fn} {b : Nat}, SMap.wfFrom Fn.none b l = true →
    (d.after (leaseEffs l)).fn k =
      if (SMap.get Fn.none l k).live then { d.fn k with remain := (d.fn k).remain - 1 } else d.fn k := by
  intro l
  induction l generalizing d with
  | nil => exact fun _ => rfl
  | cons e r ih =>
    obtain ⟨i, v⟩ := e
    intro b hw
    simp only [SMap.wfFrom, Bool.and_eq_true, decide_eq_true_eq] at hw
    have hlow {j : Nat} (hj : j ≤ i) : SMap.get Fn.none r j = Fn.none := SMap.get_of_wfFrom _ hw.2 (by omega)
    have hget : SMap.get Fn.none ((i, v) :: r) k = if i = k then v else SMap.get Fn.none r k := by
      by_cases hlt : k < i
      · simp only [SMap.get, hlt, if_true, hlow hlt.le]
      · simp only [SMap.get, hlt, if_false]
    rw [hget]
    cases hv : v.live
    · have hskip : leaseEffs ((i, v) :: r) = leaseEffs r := by simp [leaseEffs, hv]
      rw [hskip, ih hd hw.2]
      by_cases hk : i = k
      · simp only [if_pos hk, hv, hlow hk.ge]
        rfl
      · simp only [if_neg hk]
    · have hcons : leaseEffs ((i, v) :: r) = .fn i (fun y => { y with remain := y.remain - 1 }) :: leaseEffs r := by simp [leaseEffs, hv]
      rw [hcons, Dev.after_cons, ih ((Eff.fn i _).apply_canonical d hd) hw.2]
      by_cases hk : i = k
      · subst hk
        simp only [if_true, hv, hlow le_rfl, fn_fn hd]
        rfl
      · simp only [if_neg hk, fn_fn_other hd (Ne.symm hk)]

theorem leaseTicks_fn {d : Dev} (hd : d.Canonical) (k : Nat) : (leaseTicks.run d).fn k =
    if (d.fn k).live then { d.fn k with remain := (d.fn k).remain - 1 } else d.fn k := by
  have hrun : leaseTicks.run d = d.after (leaseEffs d.fns) := run_each_eff _ _ d
  rw [hrun, leaseEffs_fn hd k hd.fns, Dev.fn]

/-- The objects of the laser's conditions (Table 7.6). -/
def laserObjs (n : Nat) : List (Obj × Nat × Nat) :=
  [(.feState, n, 0), (.hvState, 0, 0), (.clkFchState, 0, n), (.feLaserForceOff, n, 0), (.actState, n, 0), (.pwrState, 0, 0)]

theorem laserOn_congr {d e : Dev} {n : Nat} (ho : ∀ x ∈ laserObjs n, e.num x.1 x.2.1 x.2.2 = d.num x.1 x.2.1 x.2.2) (hc : e.clk = d.clk)
    (hr : (e.ch n).rogue = (d.ch n).rogue) : e.laserOn n = d.laserOn n := by
  simp only [laserObjs, List.forall_mem_cons] at ho
  obtain ⟨h1, h2, h3, h4, h5, h6, -⟩ := ho
  simp only [Dev.laserOn, Dev.laserConds, Dev.fibreInReset, h1, h2, h3, h4, h5, h6, hc, hr]

/-- A channel's laser a sub-tick later (R219, R220). -/
def Fch.laserTicked (on : Bool) (c : Fch) : Fch := { c with
  laserAge := if on then min 100 (c.laserAge + 1) else 0
  burstLeft := c.burstLeft - 1
  burstOn := c.burstOn && !(c.burstLeft == 1 && c.onAir.isNone) }

theorem laserTick_run (n : Nat) (d : Dev) : (laserTick n).run d = (Eff.fch n (Fch.laserTicked (d.laserOn n))).apply d := rfl

theorem ch_fch_other {d : Dev} (hd : d.Canonical) {n m : Nat} (h : m ≠ n) (f : Fch → Fch) : ((Eff.fch n f).apply d).ch m = d.ch m :=
  SMap.get_put_other (b := 0) _ _ h hd.fch

theorem laserTicks_ch {n : Nat} : ∀ {l : List Nat}, l.Nodup → ∀ {d : Dev}, d.Canonical → ((Prog.each l laserTick).run d).ch n =
    if n ∈ l then (d.ch n).laserTicked (d.laserOn n) else d.ch n
  | [], _, _, _ => rfl
  | m :: l, hl, d, hd => by
    obtain ⟨hm, hl⟩ := List.nodup_cons.mp hl
    have hch : ((laserTick m).run d).ch n = if n = m then (d.ch n).laserTicked (d.laserOn n) else d.ch n := by
      rw [laserTick_run]
      split
      · next h => rw [h, ch_fch hd]
      · next h => rw [ch_fch_other hd h]
    have hon : ((laserTick m).run d).laserOn n = d.laserOn n := by
      refine laserOn_congr (fun _ _ => rfl) rfl ?_
      rw [hch]
      split <;> rfl
    have ih := laserTicks_ch (n := n) hl (run_canonical (laserTick m) hd)
    rw [hch, hon] at ih
    refine Eq.trans (b := ((Prog.each l laserTick).run ((laserTick m).run d)).ch n) rfl (ih.trans ?_)
    by_cases h : n = m
    · subst h
      simp only [if_neg hm, if_true, List.mem_cons, true_or]
    · simp only [List.mem_cons, h, false_or, if_false]

theorem run_each_same {α : Type} {d : Dev} {f : α → Prog} : ∀ {l : List α}, (∀ x ∈ l, (f x).run d = d) → (Prog.each l f).run d = d
  | [], _ => rfl
  | x :: l, h => by
    have ih := run_each_same fun y hy => h y (List.mem_cons_of_mem x hy)
    refine Eq.trans (b := (Prog.each l f).run ((f x).run d)) rfl ?_
    rw [h x List.mem_cons_self, ih]

theorem settleKeys_laserObjs (n : Fin 4) : ∀ x ∈ laserObjs n.val, settleKeys (x.1.key x.2.1 x.2.2) = false := by
  revert n
  decide

theorem settleKeys_dramState (c : Fin 8) : settleKeys (Obj.dramState.key c.val 0) = false := by
  revert c
  decide

theorem settleKeys_fabState (g : Fin 12) : settleKeys (Obj.fabState.key g.val 0) = false := by
  revert g
  decide

theorem dramTicks_idle {d : Dev} (h : ∀ c < 8, d.num .dramState c ≠ 3 ∧ d.num .dramState c ≠ 4) :
    (Prog.each (List.range 8) dramTick).run d = d := by
  have hone {c : Nat} (hc : c < 8) : (dramTick c).run d = d := by
    obtain ⟨h3, h4⟩ := h c hc
    simp only [dramTick, Prog.run_ask, beq_eq_false_iff_ne.mpr h3, beq_eq_false_iff_ne.mpr h4, Bool.or_self, Prog.when_false, Prog.run_skip]
  exact run_each_same fun c hc => hone (List.mem_range.mp hc)

theorem fabTicks_idle {d : Dev} (h : ∀ g < 12, d.num .fabState g ≠ 4) : (Prog.each (List.range 12) fabTick).run d = d := by
  have hone {g : Nat} (hg : g < 12) : (fabTick g).run d = d := by
    simp only [fabTick, Prog.run_ask, beq_eq_false_iff_ne.mpr (h g hg), Prog.when_false, Prog.run_skip]
  exact run_each_same fun g hg => hone (List.mem_range.mp hg)

/-! ## The work of a sub-tick beside the time's -/

/-- DRAM and the bundles have their sub-tick. -/
def memTicks : Prog := .seq (.each (List.range 8) dramTick) (.each (List.range 12) fabTick)

/-- The lasers, too. -/
def lineTicks : Prog := .seq (.each (List.range 4) laserTick) memTicks

/-- The leases, too: all a sub-tick does beside the time's part. -/
def tickWork : Prog := .seq leaseTicks lineTicks

theorem subTick_works {s : State} (ha : s.dev.answers = true) :
    exec .subTick s = .next { s with dev := tickWork.run (settle.run (tickOn.run s.dev)) } := by
  simp only [subTick_run ha, Prog.run_all_cons, Prog.all_nil, Prog.run_skip, tickWork, lineTicks, memTicks, Prog.run_seq]

/-- The objects that this work may change. -/
def tickWorkKeys (k : Nat) : Bool := dramTickKeys k || fabTickKeys k

theorem memTicks_adds : memTicks.Only (Eff.adds tickWorkKeys [.dram, .tm, .outs, .fab]) :=
  ⟨dramTicks_adds.mono fun _ h => h.mono (fun _ hk => by simp [tickWorkKeys, hk]) (by simp),
    fabTicks_adds.mono fun _ h => h.mono (fun _ hk => by simp [tickWorkKeys, hk]) (by simp)⟩

theorem lineTicks_adds : lineTicks.Only (Eff.adds tickWorkKeys [.fch, .dram, .tm, .outs, .fab]) :=
  ⟨(laserTicks_adds _).mono fun _ h => h.mono (by simp [noKeys]) (by simp),
    memTicks_adds.mono fun _ h => h.mono (fun _ => id) (by simp)⟩

theorem tickWork_adds : tickWork.Only (Eff.adds tickWorkKeys [.fch, .fns, .dram, .tm, .outs, .fab]) :=
  ⟨leaseTicks_adds.mono fun _ h => h.mono (by simp [noKeys]) (by simp),
    lineTicks_adds.mono fun _ h => h.mono (fun _ => id) (by simp)⟩

section
variable {d : Dev} (hd : d.Canonical)
include hd

theorem tickWork_num {o : Obj} {i j : Nat} (h : tickWorkKeys (o.key i j) = false) : (tickWork.run d).num o i j = d.num o i j :=
  tickWork_adds.num hd.objs h

theorem tickWork_tim : (tickWork.run d).tim = d.tim := tickWork_adds.same (x := .tim) hd.objs (by decide)
theorem tickWork_occs : (tickWork.run d).occs = d.occs := tickWork_adds.same (x := .occs) hd.objs (by decide)

theorem tickWork_fn (k : Nat) : (tickWork.run d).fn k =
    if (d.fn k).live then { d.fn k with remain := (d.fn k).remain - 1 } else d.fn k := by
  have hfns : (lineTicks.run (leaseTicks.run d)).fns = (leaseTicks.run d).fns :=
    lineTicks_adds.same (x := .fns) (Prog.objs_wf leaseTicks hd.objs) (by decide)
  rw [← leaseTicks_fn hd k, tickWork, Prog.run_seq, Dev.fn, Dev.fn, hfns]

theorem leaseTicks_same {x : Part} (h : x ∉ [Part.fns]) : x.same d (leaseTicks.run d) := leaseTicks_adds.same hd.objs h

theorem leaseTicks_num (o : Obj) (i j : Nat) : (leaseTicks.run d).num o i j = d.num o i j := leaseTicks_adds.num hd.objs rfl

theorem tickWork_ch {n : Nat} (hn : n < 4) : (tickWork.run d).ch n = (d.ch n).laserTicked (d.laserOn n) := by
  have hl : (leaseTicks.run d).Canonical := run_canonical leaseTicks hd
  have hch : (leaseTicks.run d).ch n = d.ch n := congrArg (SMap.get Fch.none · n) (leaseTicks_same hd (x := .fch) (by decide))
  have hon : (leaseTicks.run d).laserOn n = d.laserOn n :=
    laserOn_congr (fun _ _ => leaseTicks_num hd _ _ _) (leaseTicks_same hd (x := .clk) (by decide)) (by rw [hch])
  have hfch : (memTicks.run ((Prog.each (List.range 4) laserTick).run (leaseTicks.run d))).fch = ((Prog.each (List.range 4) laserTick).run (leaseTicks.run d)).fch :=
    memTicks_adds.same (x := .fch) (Prog.objs_wf _ hl.objs) (by decide)
  have hlaser := laserTicks_ch (n := n) (List.nodup_range (n := 4)) hl
  rw [if_pos (List.mem_range.mpr hn), hch, hon] at hlaser
  rw [← hlaser, tickWork, lineTicks, Prog.run_seq, Prog.run_seq, Dev.ch, Dev.ch, hfch]

/-- Without a channel that serves, DRAM and the packets that wait for it stay. -/
theorem tickWork_dram (h : ∀ c < 8, d.num .dramState c ≠ 3 ∧ d.num .dramState c ≠ 4) :
    (tickWork.run d).dram = d.dram ∧ (tickWork.run d).tm = d.tm := by
  have hl : (leaseTicks.run d).Canonical := run_canonical leaseTicks hd
  have hidle : tickWork.run d = (Prog.each (List.range 12) fabTick).run ((Prog.each (List.range 4) laserTick).run (leaseTicks.run d)) := by
    simp only [tickWork, lineTicks, memTicks, Prog.run_seq]
    rw [dramTicks_idle fun c hc => ?_]
    simp only [(laserTicks_adds _).num hl.objs rfl, leaseTicks_num hd]
    exact h c hc
  have hfab {x : Part} (hx : x ∉ [Part.fab, .outs]) := fabTicks_adds.same (x := x) (Prog.objs_wf (.each (List.range 4) laserTick) hl.objs) hx
  have hlaser {x : Part} (hx : x ∉ [Part.fch]) := (laserTicks_adds (List.range 4)).same (x := x) hl.objs hx
  rw [hidle]
  exact ⟨(hfab (x := .dram) (by decide)).trans ((hlaser (x := .dram) (by decide)).trans (leaseTicks_same hd (x := .dram) (by decide))),
    (hfab (x := .tm) (by decide)).trans ((hlaser (x := .tm) (by decide)).trans (leaseTicks_same hd (x := .tm) (by decide)))⟩

omit hd in
theorem dramTickKeys_fabState (g : Fin 12) : dramTickKeys (Obj.fabState.key g.val 0) = false := by
  revert g
  decide

/-- Without a bundle that is Up, the bundles stay. -/
theorem tickWork_fab (h : ∀ g < 12, d.num .fabState g ≠ 4) : (tickWork.run d).fab = d.fab := by
  have hl : (leaseTicks.run d).Canonical := run_canonical leaseTicks hd
  have hline := Prog.objs_wf (.each (List.range 4) laserTick) hl.objs
  have hidle : tickWork.run d = (Prog.each (List.range 8) dramTick).run ((Prog.each (List.range 4) laserTick).run (leaseTicks.run d)) := by
    simp only [tickWork, lineTicks, memTicks, Prog.run_seq]
    rw [fabTicks_idle fun g hg => ?_]
    rw [dramTicks_adds.num hline (dramTickKeys_fabState ⟨g, hg⟩), (laserTicks_adds _).num hl.objs rfl, leaseTicks_num hd]
    exact h g hg
  rw [hidle]
  exact (dramTicks_adds.same (x := .fab) hline (by decide)).trans
    (((laserTicks_adds (List.range 4)).same (x := .fab) hl.objs (by decide)).trans (leaseTicks_same hd (x := .fab) (by decide)))

end

end Sys2Proof.Machine
end

section
/-!
PROOFS about the frame mark (R44, R82, R561, R646): the analog work, the PLLs, and the frame number with its stamp.
-/
namespace Sys2Proof.Machine

/-! ## Circuits that are off -/

/-- The circuits that are on depend on their configurations alone. -/
theorem circOn_congr {d e : Dev} (h : ∀ c < 2080, e.circCfg c = d.circCfg c) (n : Option Nat) : e.circOn n = d.circOn n :=
  List.filter_congr fun c hc => by rw [h c (List.mem_range.mp hc)]

theorem circOn_channel {d : Dev} (h : d.circOn none = []) (n : Nat) : d.circOn (some n) = [] := by
  simp only [Dev.circOn, List.filter_eq_nil_iff, Bool.and_eq_true, not_and] at h ⊢
  exact fun c hc ho => absurd rfl (h c hc ho)

theorem circuitMarks_idle {d : Dev} (h : d.circOn none = []) (n : Nat) : (circuitMarks n).run d = d := by
  simp only [circuitMarks, Prog.run_ask, h, circOn_channel h, Prog.run_all_cons]
  cases d.num .clkTimingChannel == n <;> rfl

/-- The objects that the mark of a channel may change, beside those of circuits. -/
def markKeys (n : Nat) : Nat → Bool :=
  keysOf [(.feAdcClips, n, 0), (.feLdMon, n, 0), (.feLdBias, n, 0), (.frmFrame, n, 0), (.timeFrameTs, n, 0)]

/-- The configurations of the circuits stand together, apart from what a mark changes. -/
theorem markKeys_circConfig (n : Fin 4) {c : Nat} (hc : c < 2080) : markKeys n.val (Obj.circConfig.key 0 c) = false := by
  have hlow : 0x510000 ≤ Obj.circConfig.key 0 c ∧ Obj.circConfig.key 0 c < 0x512000 := by
    simp only [Obj.key, Obj.row]
    omega
  have hkeys : ∀ x ∈ [(Obj.feAdcClips, n.val, 0), (.feLdMon, n.val, 0), (.feLdBias, n.val, 0), (.frmFrame, n.val, 0), (.timeFrameTs, n.val, 0)],
      ¬ (0x510000 ≤ x.1.key x.2.1 x.2.2 ∧ x.1.key x.2.1 x.2.2 < 0x512000) := by
    clear * -
    revert n
    decide
  rw [markKeys, keysOf, List.any_eq_false]
  intro x hx he
  rw [decide_eq_true_eq] at he
  exact hkeys x hx (by rw [he]; exact hlow)

/-! ## The analog work and the PLLs -/

/-- What the analog work of a frame keeps of a channel. -/
def Fch.sameLine (c e : Fch) : Prop := e.pll = c.pll ∧ e.ratios = c.ratios ∧ e.refValid = c.refValid

/-- The objects of the analog work. -/
def analogKeys (n : Nat) : Nat → Bool := keysOf [(.feAdcClips, n, 0), (.feLdMon, n, 0), (.feLdBias, n, 0)]

theorem analogKeys_own (n : Nat) : analogKeys n (Obj.feAdcClips.key n 0) = true ∧ analogKeys n (Obj.feLdMon.key n 0) = true ∧
    analogKeys n (Obj.feLdBias.key n 0) = true := by
  simp [analogKeys, keysOf]

theorem frameAnalog_adds (n : Nat) (m : FrameMeas) : (frameAnalog n m).Only (Eff.adds (analogKeys n) [.fch, .occs]) := by
  obtain ⟨hc, hm, hb⟩ := analogKeys_own n
  exact fun _ => ⟨only_when ⟨adds_count.mpr hc, trivial⟩, fun _ => adds_fch (by decide) _ _,
    fun _ => ⟨only_when ⟨adds_obj.mpr hm, trivial⟩, only_when ⟨⟨adds_obj.mpr hb, only_when ⟨adds_raise (by decide) _ _ _ _ _, trivial⟩,
      adds_fch (by decide) _ _, trivial⟩, trivial⟩, trivial⟩, adds_fch (by decide) _ _, trivial⟩

theorem pllFrame_adds (n : Nat) : (pllFrame n).Only (Eff.adds noKeys [.fch, .clk]) := fun _ =>
  only_when ⟨adds_fch (by decide) _ _, only_when ⟨adds_clk (by decide) _, trivial⟩, trivial⟩

section
variable {d : Dev} (hd : d.Canonical)
include hd

theorem frameAnalog_line (n : Nat) (m : FrameMeas) : (d.ch n).sameLine (((frameAnalog n m).run d).ch n) := by
  let P (e : Dev) : Prop := e.Canonical ∧ (d.ch n).sameLine (e.ch n)
  have hput (o : Obj) (i j : Nat) (v : Val) (e : Dev) (he : P e) : P ((Eff.obj o i j v).apply e) :=
    ⟨(Eff.obj o i j v).apply_canonical e he.1, he.2⟩
  have hraise (src code inst a b : Nat) (e : Dev) (he : P e) : P ((Eff.raise src code inst a b).apply e) :=
    ⟨(Eff.raise src code inst a b).apply_canonical e he.1, he.2⟩
  have hcount (o : Obj) (i j k : Nat) (e : Dev) (he : P e) : P ((Eff.count o i j k).apply e) :=
    ⟨(Eff.count o i j k).apply_canonical e he.1, he.2⟩
  have hfch (f : Fch → Fch) (hf : ∀ c, Fch.sameLine c (f c)) (e : Dev) (he : P e) : P ((Eff.fch n f).apply e) := by
    refine ⟨(Eff.fch n f).apply_canonical e he.1, ?_⟩
    obtain ⟨hp, hr, hv⟩ := hf (e.ch n)
    rw [ch_fch he.1]
    exact ⟨hp.trans he.2.1, hr.trans he.2.2.1, hv.trans he.2.2.2⟩
  have honly : (frameAnalog n m).Only fun e => ∀ x, P x → P (e.apply x) :=
    fun _ => ⟨only_when ⟨hcount _ _ _ _, trivial⟩, fun _ => hfch _ fun _ => ⟨rfl, rfl, rfl⟩,
      fun _ => ⟨only_when ⟨hput _ _ _ _, trivial⟩, only_when ⟨⟨hput _ _ _ _, only_when ⟨hraise _ _ _ _ _, trivial⟩,
        hfch _ fun _ => ⟨rfl, rfl, rfl⟩, trivial⟩, trivial⟩, trivial⟩, hfch _ fun _ => ⟨rfl, rfl, rfl⟩, trivial⟩
  exact (honly.keeps ⟨hd, rfl, rfl, rfl⟩).2

/-- A channel whose reference had an offset in a frame, its PLL in a state (R81, R82). -/
def Fch.followed (o : Int) (state : Nat) (c : Fch) : Fch := { c with
  pll := if state = 2 then o else if state = 1 then slewStep c.pll o else c.pll
  ratios := (o :: c.ratios).take 1000 }

theorem pllFrame_ch {n : Nat} (h : (d.ch n).refValid = true) :
    ((pllFrame n).run d).ch n = (d.ch n).followed (d.refOffset n) (d.num .clkFchState 0 n) := by
  rw [← ch_fch hd n (Fch.followed (d.refOffset n) (d.num .clkFchState 0 n))]
  simp only [pllFrame, Prog.run_ask, h, Prog.when_true, Prog.run_all_cons]
  cases d.num .clkTimingChannel == n <;> rfl

end

theorem refOffset_congr {d e : Dev} {n : Nat} (hs : e.num .clkFchState 0 n = d.num .clkFchState 0 n)
    (ho : e.num .dmtFreqOffset n = d.num .dmtFreqOffset n) (hp : (e.ch n).pll = (d.ch n).pll) : e.refOffset n = d.refOffset n := by
  simp only [Dev.refOffset, hs, ho, hp]

/-! ## The frame mark (R44, R561) -/

/-- The device once the analog work and the PLLs have had their frame. -/
def Dev.framed (d : Dev) (n : Nat) (m : FrameMeas) : Dev := (pllFrame n).run ((frameAnalog n m).run d)

/-- Whether the mark of a channel carries the frame number forward (R79, R83). -/
def Dev.numbersFrames (d : Dev) (n : Nat) : Bool := (d.ch n).marks && (d.num .clkFchState 0 n != 0
  || (d.num .clkTimingChannel == n && d.num .clkTimingState == 3))

/-- A frame's number, its stamp, and on the timing channel the sub-tick count. -/
def numberFrame (n f off : Nat) (timing : Bool) : Prog :=
  .all [putN .frmFrame n 0 f, frameStamp n f off, .when timing [.eff (.tim fun t => { t with sub := 0 })]]

/-- The device once a frame has its number, too. -/
def Dev.numbered (d : Dev) (n : Nat) (m : FrameMeas) (off : Nat) : Dev :=
  (numberFrame n ((d.num .frmFrame n + 1) % 2 ^ 51) off (d.num .clkTimingChannel == n)).run (d.framed n m)

section
variable {s : State} {n : Fin 4} {off : Fin 1000} {m : FrameMeas} (ha : s.dev.answers = true) (hv : s.dev.dissolves n.val = false)

theorem frameMark_silent (ha : s.dev.answers = false) : exec (.frameMark n off m) s = .next s := by
  change execFrameMark n off m s = _
  simp only [execFrameMark, State.run_eq, Prog.run_ask, ha, Prog.when_false, Prog.run_skip]

include ha hv

theorem frameMark_plain (h : s.dev.numbersFrames n.val = false) :
    exec (.frameMark n off m) s = .next { s with dev := s.dev.framed n.val m } := by
  simp only [Dev.numbersFrames] at h
  change execFrameMark n off m s = _
  simp only [execFrameMark, State.run_eq, Prog.run_ask, ha, hv, h, Prog.when_true, Prog.when_false, Prog.run_all_cons, Prog.all_nil,
    Prog.run_skip, Dev.framed]

theorem frameMark_numbers (h : s.dev.numbersFrames n.val = true) : 
    exec (.frameMark n off m) s = .next { s with dev := (circuitMarks n.val).run (s.dev.numbered n.val m off.val) } := by
  simp only [Dev.numbersFrames] at h
  change execFrameMark n off m s = _
  simp only [execFrameMark, State.run_eq, Prog.run_ask, ha, hv, h, Prog.when_true, Prog.when_false, Prog.run_all_cons, Prog.all_nil,
    Prog.run_skip, Dev.framed, Dev.numbered, numberFrame]

end

section
variable {d : Dev} (hd : d.Canonical) (n : Fin 4) (m : FrameMeas)

theorem markKeys_own : markKeys n.val (Obj.frmFrame.key n.val 0) = true ∧ markKeys n.val (Obj.timeFrameTs.key n.val 0) = true := by
  simp [markKeys, keysOf]

theorem markKeys_analog {k : Nat} (h : analogKeys n.val k = true) : markKeys n.val k = true := by
  have hsplit : markKeys n.val k = (analogKeys n.val k || keysOf [(.frmFrame, n.val, 0), (.timeFrameTs, n.val, 0)] k) := by
    simp only [markKeys, analogKeys, keysOf, List.any_cons, List.any_nil, Bool.or_assoc, Bool.or_false]
  rw [hsplit, h, Bool.true_or]

theorem numberFrame_adds (f off : Nat) (timing : Bool) : (numberFrame n.val f off timing).Only (Eff.adds (markKeys n.val) [.tim]) :=
  ⟨adds_obj.mpr (markKeys_own n).1, fun _ => adds_obj.mpr (markKeys_own n).2, only_when ⟨adds_tim (by decide) _, trivial⟩, trivial⟩

include hd

theorem framed_canonical : (d.framed n.val m).Canonical := run_canonical (pllFrame n.val) (run_canonical (frameAnalog n.val m) hd)

theorem framed_get {o : Obj} {i j : Nat} (h : analogKeys n.val (o.key i j) = false) : (d.framed n.val m).get o i j = d.get o i j :=
  ((pllFrame_adds n.val).get (run_canonical (frameAnalog n.val m) hd).objs rfl).trans ((frameAnalog_adds n.val m).get hd.objs h)

theorem framed_tim : (d.framed n.val m).tim = d.tim :=
  ((pllFrame_adds n.val).same (x := .tim) (run_canonical (frameAnalog n.val m) hd).objs (by decide)).trans
    ((frameAnalog_adds n.val m).same (x := .tim) hd.objs (by decide))

/-- A frame of a valid reference (R81, R82). -/
theorem framed_ch (h : (d.ch n.val).refValid = true) :
    ((d.framed n.val m).ch n.val).ratios = (d.refOffset n.val :: (d.ch n.val).ratios).take 1000 ∧
      (d.num .clkFchState 0 n.val = 2 → ((d.framed n.val m).ch n.val).pll = d.refOffset n.val) ∧
      (d.num .clkFchState 0 n.val = 1 → ((d.framed n.val m).ch n.val).pll = slewStep (d.ch n.val).pll (d.refOffset n.val)) := by
  obtain ⟨hp, hr, hv⟩ := frameAnalog_line hd n.val m
  have hc : ((frameAnalog n.val m).run d).Canonical := run_canonical (frameAnalog n.val m) hd
  have hkeys : analogKeys n.val (Obj.clkFchState.key 0 n.val) = false ∧ analogKeys n.val (Obj.dmtFreqOffset.key n.val 0) = false := by
    clear * -
    revert n
    decide
  have hstate := (frameAnalog_adds n.val m).num hd.objs hkeys.1
  have hoff := refOffset_congr hstate ((frameAnalog_adds n.val m).num hd.objs hkeys.2) hp
  have hch := pllFrame_ch hc (hv.trans h)
  rw [hstate, hoff] at hch
  rw [Dev.framed, hch, Fch.followed, hr, hp]
  exact ⟨rfl, fun h2 => if_pos h2, fun h1 => by rw [h1]; rfl⟩

/-- Circuits that were off are off at their part of the mark. -/
theorem circuitMarks_off (h : d.circOn none = []) (off : Nat) :
    (circuitMarks n.val).run (d.numbered n.val m off) = d.numbered n.val m off := by
  refine circuitMarks_idle ((circOn_congr (fun c hc => ?_) none).trans h) n.val
  have hk := markKeys_circConfig n hc
  have ha : analogKeys n.val (Obj.circConfig.key 0 c) = false := by
    by_contra hne
    rw [markKeys_analog n (Bool.not_eq_false _ ▸ hne)] at hk
    exact absurd hk (by decide)
  exact congrArg Val.b (((numberFrame_adds n _ off _).get (framed_canonical hd n m).objs hk).trans (framed_get hd n m ha))

end

section
variable {d : Dev} (hd : d.Canonical) (n : Fin 4)

/-- The bytes of a frame's stamp (R561). -/
def stampBytes (f : Nat) (w : TimeSt) : List Byte := beBytes 8 f ++ beBytes 6 w.secs ++ beBytes 4 w.ns ++ beBytes 2 (w.frac / 2 ^ 24)

/-- The time of a frame boundary in a sub-tick (R561). -/
def Dev.boundary (d : Dev) (off : Nat) : TimeSt :=
  d.tim.setUnits (max 0 (d.tim.units + off * nsUnits + psUnits (toInt 32 (d.num .timeRxAdjust))))

theorem frameStamp_run (n f off : Nat) (d : Dev) :
    (frameStamp n f off).run d = (Eff.obj .timeFrameTs n 0 (.oct (stampBytes f (d.boundary off)))).apply d := rfl

theorem frmFrame_keys : Obj.frmFrame.key n.val 0 ≠ Obj.timeFrameTs.key n.val 0 ∧ Obj.timeRxAdjust.key 0 0 ≠ Obj.frmFrame.key n.val 0 := by
  revert n
  decide

include hd

theorem numberFrame_numbers (f off : Nat) (timing : Bool) : ((numberFrame n.val f off timing).run d).num .frmFrame n.val = f ∧
    ((numberFrame n.val f off timing).run d).oct .timeFrameTs n.val = stampBytes f (d.boundary off) ∧
    ((numberFrame n.val f off timing).run d).tim = if timing then { d.tim with sub := 0 } else d.tim := by
  let e := (Eff.obj .frmFrame n.val 0 (.num f)).apply d
  have he : e.Canonical := (Eff.obj .frmFrame n.val 0 (.num f)).apply_canonical d hd
  have hbound : e.boundary off = d.boundary off := by
    have hadj : e.num .timeRxAdjust = d.num .timeRxAdjust := Dev.num_put_other hd.objs _ (frmFrame_keys n).2
    simp only [Dev.boundary, hadj]
    rfl
  have hrun : (numberFrame n.val f off timing).run d = (Prog.when timing [.eff (.tim fun t => { t with sub := 0 })]).run
      ((Eff.obj .timeFrameTs n.val 0 (.oct (stampBytes f (d.boundary off)))).apply e) := by
    rw [← hbound, ← frameStamp_run]
    rfl
  have hframe := (Dev.num_put_other he.objs (.oct (stampBytes f (d.boundary off))) (frmFrame_keys n).1).trans
    (Dev.num_put hd.objs .frmFrame n.val 0 f)
  have hstamp := congrArg Val.b (Dev.get_put he.objs .timeFrameTs n.val 0 (.oct (stampBytes f (d.boundary off))))
  rw [hrun]
  cases timing
  · exact ⟨hframe, hstamp, rfl⟩
  · exact ⟨hframe, hstamp, rfl⟩

end

section
variable {s : State} (hd : s.dev.Canonical) (n : Fin 4) (off : Fin 1000) (m : FrameMeas) (ha : s.dev.answers = true) (hv : s.dev.dissolves n.val = false)
include hd ha hv

/-- A mark of a numbered channel (R79, R83, R291, R561). -/
theorem frameMark_stamps (ho : s.dev.circOn none = []) (h : s.dev.numbersFrames n.val = true) :
    ∃ t, exec (.frameMark n off m) s = .next t ∧ t.pending = s.pending ∧
      t.dev.num .frmFrame n.val = (s.dev.num .frmFrame n.val + 1) % 2 ^ 51 ∧
      t.dev.oct .timeFrameTs n.val = stampBytes ((s.dev.num .frmFrame n.val + 1) % 2 ^ 51) (s.dev.boundary off.val) ∧
      t.dev.tim = if s.dev.num .clkTimingChannel = n.val then { s.dev.tim with sub := 0 } else s.dev.tim := by
  have hc := framed_canonical hd n m
  have hadj : analogKeys n.val (Obj.timeRxAdjust.key 0 0) = false := by
    clear * -
    revert n
    decide
  have hb : (s.dev.framed n.val m).boundary off.val = s.dev.boundary off.val := by
    rw [Dev.boundary, Dev.boundary, framed_tim hd n m, Dev.num, Dev.num, framed_get hd n m hadj]
  obtain ⟨hf, ht, hm⟩ := numberFrame_numbers hc n ((s.dev.num .frmFrame n.val + 1) % 2 ^ 51) off.val (s.dev.num .clkTimingChannel == n.val)
  rw [hb] at ht
  rw [framed_tim hd n m] at hm
  rw [frameMark_numbers ha hv h, circuitMarks_off hd n m ho]
  exact ⟨_, rfl, rfl, hf, ht, hm.trans (by simp only [beq_iff_eq])⟩

theorem frameMark_follows (ho : s.dev.circOn none = []) (h : (s.dev.ch n.val).refValid = true) :
    ∃ t, exec (.frameMark n off m) s = .next t ∧
      (t.dev.ch n.val).ratios = (s.dev.refOffset n.val :: (s.dev.ch n.val).ratios).take 1000 ∧
      (s.dev.num .clkFchState 0 n.val = 2 → (t.dev.ch n.val).pll = s.dev.refOffset n.val) ∧
      (s.dev.num .clkFchState 0 n.val = 1 → (t.dev.ch n.val).pll = slewStep (s.dev.ch n.val).pll (s.dev.refOffset n.val)) := by
  have hch := framed_ch hd n m h
  cases hn : s.dev.numbersFrames n.val
  · rw [frameMark_plain ha hv hn]
    generalize s.dev.framed n.val m = e at hch ⊢
    exact ⟨_, rfl, hch⟩
  · have hsame : (s.dev.numbered n.val m off.val).ch n.val = (s.dev.framed n.val m).ch n.val := congrArg (SMap.get Fch.none · n.val)
      ((numberFrame_adds n _ off.val _).same (x := .fch) (framed_canonical hd n m).objs (by decide))
    rw [frameMark_numbers ha hv hn, circuitMarks_off hd n m ho]
    rw [← hsame] at hch
    exact ⟨_, rfl, hch⟩

theorem frameMark_unnumbered (h : s.dev.numbersFrames n.val = false) :
    ∃ t, exec (.frameMark n off m) s = .next t ∧ t.pending = s.pending ∧ t.dev.num .frmFrame n.val = s.dev.num .frmFrame n.val ∧
      t.dev.oct .timeFrameTs n.val = s.dev.oct .timeFrameTs n.val ∧ t.dev.tim = s.dev.tim := by
  have hk : analogKeys n.val (Obj.frmFrame.key n.val 0) = false ∧ analogKeys n.val (Obj.timeFrameTs.key n.val 0) = false := by
    clear * -
    revert n
    decide
  have hf : (s.dev.framed n.val m).num .frmFrame n.val = s.dev.num .frmFrame n.val := congrArg Val.n (framed_get hd n m hk.1)
  have ht : (s.dev.framed n.val m).oct .timeFrameTs n.val = s.dev.oct .timeFrameTs n.val := congrArg Val.b (framed_get hd n m hk.2)
  have htim := framed_tim hd n m
  rw [frameMark_plain ha hv h]
  generalize s.dev.framed n.val m = e at hf ht htim ⊢
  exact ⟨_, rfl, rfl, hf, ht, htim⟩

end

end Sys2Proof.Machine
end

section
/-!
PROOFS of the time base (O54): the whole sub-tick, the frame mark, and the commands that set and adjust the time.
-/
namespace Sys2Proof.Machine

/-! ## The whole sub-tick (R554, R557) -/

/-- The device once the time has moved on and what waited has taken effect. -/
def Dev.settledTick (d : Dev) : Dev := settle.run (d.withTim d.ticked)

section
variable {d : Dev} (hd : d.Canonical)

theorem ticked_inRange : d.ticked.inRange := setUnits_lt (t := d.tim) d.tickUnits

theorem ticked_units (h0 : 0 ≤ d.tickUnits) (h : d.tickUnits < topUnits) : d.ticked.units = d.tickUnits := units_setUnits (t := d.tim) h0 h

theorem ticked_synco (h0 : 0 ≤ d.tickUnits) (h : d.tickUnits < topUnits) : d.ticked.synco =
    if d.tickUnits / 2 ^ 40 / 1000000000 = (d.tim.secs : Int) then d.tim.synco
    else if d.num .timeSyncoEnable = 1 then some (d.num .timeSyncoFreq, d.num .timeSyncoReference) else none := by
  have hs : d.tickUnits / 2 ^ 40 / 1000000000 = (d.tim.secs : Int) ↔ d.advanced.secs = d.tim.secs := by
    rw [← setUnits_secs (t := d.tim) h0 h, Nat.cast_inj]
    rfl
  simp only [Dev.ticked, hs]

theorem slewPart_eq {r : Nat} {z : Int} (hr : r = 1000 * d.tim.incNow * d.num .timeSlewMax / 1000000)
    (hz : (z = 0 ∧ d.tim.slew.natAbs ≤ r) ∨ (z = (r : Int) ∧ (r : Int) < d.tim.slew) ∨ (z = -(r : Int) ∧ d.tim.slew < -(r : Int))) :
    d.slewPart = z := by
  have hrate : d.slewRate = (r : Int) := congrArg Nat.cast hr.symm
  simp only [Dev.slewPart, hrate, Int.toNat_natCast]
  split_ifs <;> omega

theorem settledTick_tim : d.settledTick.tim = d.ticked.settled := settle_tim _

include hd

theorem settledTick_canonical : d.settledTick.Canonical := run_canonical settle (withTim_canonical hd _)

theorem settledTick_num {o : Obj} {i j : Nat} (h : settleKeys (o.key i j) = false) : d.settledTick.num o i j = d.num o i j :=
  settle_adds.num (d := d.withTim d.ticked) hd.objs h

theorem settledTick_same {x : Part} (h : x ∉ [Part.tim, .occs]) : x.same (d.withTim d.ticked) d.settledTick :=
  settle_adds.same (d := d.withTim d.ticked) hd.objs h

/-- The device a sub-tick later. -/
def Dev.tickLater (d : Dev) : Dev := tickWork.run d.settledTick

omit hd in
theorem subTick_next {s : State} (ha : s.dev.answers = true) : exec .subTick s = .next { s with dev := s.dev.tickLater } := by
  rw [subTick_works ha, tickOn_run]
  rfl

theorem tickLater_tim : d.tickLater.tim = d.ticked.settled := (tickWork_tim (settledTick_canonical hd)).trans settledTick_tim

theorem tickLater_occs : d.tickLater.occs = d.settledTick.occs := tickWork_occs (settledTick_canonical hd)

theorem tickLater_status : d.tickLater.num .timeStatus = d.settledTick.num .timeStatus :=
  tickWork_num (settledTick_canonical hd) (by decide)

theorem tickLater_steps : d.tickLater.num .timeSteps = d.settledTick.num .timeSteps :=
  tickWork_num (settledTick_canonical hd) (by decide)

/-- The objects that a sub-tick may change. -/
def tickKeys (k : Nat) : Bool := settleKeys k || dramTickKeys k || fabTickKeys k

theorem tickLater_only : d.only tickKeys [.tim, .occs, .fch, .fns, .dram, .tm, .outs, .fab] d.tickLater := by
  have hon : tickOn.Only (Eff.adds tickKeys [.tim, .occs, .fch, .fns, .dram, .tm, .outs, .fab]) :=
    tickOn_adds.mono fun _ h => h.mono (by simp [noKeys]) (by simp)
  have hset : settle.Only (Eff.adds tickKeys [.tim, .occs, .fch, .fns, .dram, .tm, .outs, .fab]) :=
    settle_adds.mono fun _ h => h.mono (fun _ hk => by simp [tickKeys, hk]) (by simp)
  have hwork : tickWork.Only (Eff.adds tickKeys [.tim, .occs, .fch, .fns, .dram, .tm, .outs, .fab]) :=
    tickWork_adds.mono fun _ h => h.mono (fun _ hk => by
      rw [tickWorkKeys, Bool.or_eq_true] at hk
      rcases hk with hk | hk <;> simp [tickKeys, hk]) (by simp)
  have hall := (Prog.Only.within (p := .seq tickOn (.seq settle tickWork)) ⟨hon, hset, hwork⟩ d hd.objs).2
  rwa [Prog.run_seq, Prog.run_seq, tickOn_run] at hall

theorem tickLater_fn (k : Nat) : d.tickLater.fn k = if (d.fn k).live then { d.fn k with remain := (d.fn k).remain - 1 } else d.fn k := by
  have hfn : d.settledTick.fn k = d.fn k := congrArg (SMap.get Fn.none · k) (settledTick_same hd (x := .fns) (by decide))
  rw [Dev.tickLater, tickWork_fn (settledTick_canonical hd), hfn]

theorem tickLater_ch {n : Nat} (hn : n < 4) : d.tickLater.ch n = (d.ch n).laserTicked (d.laserOn n) := by
  have hch : d.settledTick.ch n = d.ch n := congrArg (SMap.get Fch.none · n) (settledTick_same hd (x := .fch) (by decide))
  have hon : d.settledTick.laserOn n = d.laserOn n := laserOn_congr
    (fun x hx => settledTick_num hd (settleKeys_laserObjs ⟨n, hn⟩ x hx)) (settledTick_same hd (x := .clk) (by decide)) (by rw [hch])
  rw [Dev.tickLater, tickWork_ch (settledTick_canonical hd) hn, hch, hon]

theorem tickLater_dram (h : ∀ c < 8, d.num .dramState c ≠ 3 ∧ d.num .dramState c ≠ 4) :
    d.tickLater.dram = d.dram ∧ d.tickLater.tm = d.tm := by
  have hs (c : Nat) (hc : c < 8) : d.settledTick.num .dramState c = d.num .dramState c := settledTick_num hd (settleKeys_dramState ⟨c, hc⟩)
  obtain ⟨hdram, htm⟩ := tickWork_dram (settledTick_canonical hd) fun c hc => by rw [hs c hc]; exact h c hc
  exact ⟨hdram.trans (settledTick_same hd (x := .dram) (by decide)), htm.trans (settledTick_same hd (x := .tm) (by decide))⟩

theorem tickLater_fab (h : ∀ g < 12, d.num .fabState g ≠ 4) : d.tickLater.fab = d.fab := by
  have hs (g : Nat) (hg : g < 12) : d.settledTick.num .fabState g = d.num .fabState g := settledTick_num hd (settleKeys_fabState ⟨g, hg⟩)
  exact (tickWork_fab (settledTick_canonical hd) fun g hg => by rw [hs g hg]; exact h g hg).trans
    (settledTick_same hd (x := .fab) (by decide))

section
variable (h0 : 0 ≤ d.tickUnits) (hu : d.tickUnits < topUnits)
include h0 hu

/-- With neither a TIME_SET nor a step nothing but the time changes with it. -/
theorem tickLater_plain (h : d.tim.setPend = none) (h' : d.tim.stepPend = none) :
    d.tickLater.tim.units = d.tickUnits ∧ d.tickLater.tim.slew = d.tim.slewPend.getD (d.tim.slew - d.slewPart) ∧
      d.tickLater.occs = d.occs ∧ d.tickLater.num .timeStatus = d.num .timeStatus ∧ d.tickLater.num .timeSteps = d.num .timeSteps := by
  have hrun : d.settledTick = (d.withTim d.ticked).withTim d.ticked.settled := settle_plain (d := d.withTim d.ticked) h h'
  obtain ⟨hunits, hslew⟩ := settled_plain (t := d.ticked) h h'
  rw [tickLater_tim hd, tickLater_occs hd, tickLater_status hd, tickLater_steps hd, hrun, hunits, ticked_units h0 hu]
  exact ⟨rfl, hslew, rfl, rfl, rfl⟩

theorem tickLater_step {x : Int} (h : d.tim.setPend = none) (h' : d.tim.stepPend = some x) (hx : 0 ≤ d.tickUnits + x)
    (ht : d.tickUnits + x < topUnits) : d.tickLater.tim.units = d.tickUnits + x ∧ d.tickLater.tim.slew = d.tim.slewPend.getD 0 ∧
      d.tickLater.num .timeSteps = satAdd 32 (d.num .timeSteps) 1 ∧ d.tickLater.num .timeStatus = d.num .timeStatus ∧
      d.tickLater.recordsStep x := by
  have hT := ticked_units (d := d) h0 hu
  obtain ⟨hunits, hslew⟩ := settled_step (t := d.ticked) h h'
  obtain ⟨hsteps, hstatus, hrec⟩ := settle_steps (d := d.withTim d.ticked) (withTim_canonical hd _) h h' (by rw [withTim_tim, hT]; exact hx)
  rw [hT, max_eq_right hx, units_setUnits hx ht] at hunits
  rw [tickLater_tim hd, tickLater_status hd, tickLater_steps hd]
  exact ⟨hunits, hslew, hsteps, hstatus, tickWork_adds.recordsStep hrec⟩

omit hd h0 hu in
theorem synced_marked {e : Dev} {v : Nat} (h : e.num .timeStatus = putBit (putBit v 0 true) 2 true) : e.synced = true := by
  rw [Dev.synced, h]
  have hbit := bitOf_putBit_same v 0
  simp only [bitOf, putBit, putBits, bitsOf, if_true, beq_iff_eq] at hbit ⊢
  omega

theorem tickLater_set {S N F : Nat} (h : d.tim.setPend = some (S, N, F)) (h' : d.tim.stepPend = none) (hS : S < 2 ^ 48)
    (hN : N < 1000000000) (hF : F < 2 ^ 16) :
    d.tickLater.tim.units = timeUnits S N (F * 2 ^ 24) ∧ d.tickLater.tim.slew = d.tim.slewPend.getD 0 ∧
      d.tickLater.num .timeSteps = satAdd 32 (d.num .timeSteps) 1 ∧ d.tickLater.synced = true ∧
      d.tickLater.num .timeStatus = putBit (putBit (d.num .timeStatus) 0 true) 2 true ∧
      (d.synced = false → d.tickLater.raisedEvent 432 0 0xFFFFFF) ∧
      d.tickLater.recordsStep (timeUnits S N (F * 2 ^ 24) - d.tickUnits) := by
  obtain ⟨hlow, htop⟩ := timeUnits_bounds hS hN hF
  obtain ⟨hunits, hslew⟩ := settled_set (t := d.ticked) h h'
  rw [units_setUnits hlow htop] at hunits
  obtain ⟨hsteps, hstatus, hraised, hrec⟩ := settle_sets (d := d.withTim d.ticked) (withTim_canonical hd _) h h'
    (p := timeUnits S N (F * 2 ^ 24) - d.tickUnits) (by rw [withTim_tim, ticked_units h0 hu])
  rw [tickLater_tim hd, tickLater_status hd, tickLater_steps hd]
  exact ⟨hunits, hslew, hsteps, synced_marked ((tickLater_status hd).trans hstatus), hstatus, fun hs => tickWork_adds.raisedEvent (hraised hs), tickWork_adds.recordsStep hrec⟩

end

end

/-! ## Setting and adjusting the time (R556, R557) -/

section
variable {s : State} {o : Origin}

theorem exec_timeSet {b : List Byte} (hb : b.length = 12) : exec (.timeSet o b) s =
    s.run (serve (execReq o .timeSet 0 0 true (.oct b)) (timeSetBeh b)) := by
  have hform : (b.length == 12) = true := by simp [hb]
  change s.run (serve (execReq o .timeSet 0 0 (b.length == 12) (.oct b)) (timeSetBeh b)) = _
  rw [hform]

theorem exec_timeAdjust (ps : BitVec 64) : exec (.timeAdjust o ps) s =
    s.run (serve (execReq o .timeAdjust 0 0 true (.num ps.toNat)) (timeAdjustBeh ps.toNat)) := rfl

theorem exec_timeSourceWrite (v : BitVec 8) : exec (.timeSourceWrite o v) s =
    s.run (serve (writeReq o .timeSource 0 0 (.num v.toNat)) (timeSourceBeh v.toNat)) := rfl

/-- Under TIME_SOURCE 0 a host may not set the time while SYNC is set. -/
theorem hostTime_refused (c : Call) (h0 : s.dev.num .timeSource = 0) (h : s.dev.synced = true) : (s.dev.taken c).hostTimeAbort = 0x0401 :=
  if_pos ⟨h0, h⟩

theorem hostTime_free (c : Call) (h : s.dev.num .timeSource ≠ 0 ∨ s.dev.synced = false) : (s.dev.taken c).hostTimeAbort = 0 := by
  refine if_neg fun hn => ?_
  obtain ⟨h0, hy⟩ := hn
  rcases h with h | h
  · exact h h0
  · exact absurd (hy.symm.trans h) (by decide)

section
variable {b : List Byte} (hb : b.length = 12) (h : s.dev.admits (execReq o .timeSet 0 0 true (.oct b)))
include hb h

theorem timeSet_range (hn : 999999999 < beAt b 6 4) : exec (.timeSet o b) s =
    .next (s.refusedWith (execReq o .timeSet 0 0 true (.oct b)).call [] 0x0302) := by
  rw [exec_timeSet hb]
  exact served_abort h (by decide) (.inl (if_pos hn)) fun _ _ => rfl

theorem timeSet_synced (hn : beAt b 6 4 ≤ 999999999) (h0 : s.dev.num .timeSource = 0) (hy : s.dev.synced = true) :
    exec (.timeSet o b) s = .next (s.refusedWith (execReq o .timeSet 0 0 true (.oct b)).call [] 0x0401) := by
  rw [exec_timeSet hb]
  exact served_abort h (by decide) (.inr ⟨if_neg (Nat.not_lt.mpr hn), hostTime_refused _ h0 hy⟩) fun _ _ => rfl

theorem timeSet_served (hs : s.Inv) (hn : beAt b 6 4 ≤ 999999999) (hf : s.dev.num .timeSource ≠ 0 ∨ s.dev.synced = false) :
    exec (.timeSet o b) s = .next (s.served (execReq o .timeSet 0 0 true (.oct b)).call [.tim fun t => { t with
      setPend := some (beAt b 0 6, beAt b 6 4, beAt b 10 2), stepPend := none, slewPend := none, hostWrote := true }] []) := by
  rw [exec_timeSet hb]
  exact served_done hs h (if_neg (Nat.not_lt.mpr hn)) (hostTime_free _ hf) rfl rfl

end

/-- Picoseconds in units: a longer adjustment has more units than a shorter. -/
theorem psUnits_lt (T : Nat) (x : Int) : psUnits T < ((psUnits x).natAbs : Int) ↔ T < x.natAbs := by
  have hT : psUnits T = ((T * 2 ^ 40 / 1000 : Nat) : Int) := by
    rw [psUnits, Int.tdiv_eq_ediv_of_nonneg (by positivity)]
    norm_cast
  have hx : (psUnits x).natAbs = x.natAbs * 2 ^ 40 / 1000 := by
    rw [psUnits, Int.natAbs_tdiv, Int.natAbs_mul]
    rfl
  rw [hT, hx, Nat.cast_lt]
  omega

theorem toInt_toNat (ps : BitVec 64) : toInt 64 ps.toNat = ps.toInt := by
  rw [BitVec.toInt_eq_toNat_cond, toInt]
  split_ifs <;> omega

/-- An adjustment steps above TIME_STEP_THRESHOLD and slews otherwise (R557). -/
theorem adjustTime_run (x : Int) (d : Dev) : (adjustTime (psUnits x)).run d = d.after
    [if d.num .timeStepThreshold < x.natAbs then .tim fun t => { t with stepPend := some (psUnits x), slewPend := none }
      else .tim fun t => { t with slewPend := some (psUnits x) }] := by
  simp only [adjustTime, Prog.run_ask, psUnits_lt]
  split <;> rfl

section
variable {ps : BitVec 64} (h : s.dev.admits (execReq o .timeAdjust 0 0 true (.num ps.toNat)))
include h

theorem timeAdjust_synced (h0 : s.dev.num .timeSource = 0) (hy : s.dev.synced = true) : exec (.timeAdjust o ps) s =
    .next (s.refusedWith (execReq o .timeAdjust 0 0 true (.num ps.toNat)).call [] 0x0401) := by
  rw [exec_timeAdjust]
  exact served_abort h (by decide) (.inr ⟨rfl, hostTime_refused _ h0 hy⟩) fun _ _ => rfl

theorem timeAdjust_served (hs : s.Inv) (hf : s.dev.num .timeSource ≠ 0 ∨ s.dev.synced = false) : exec (.timeAdjust o ps) s =
    .next (s.served (execReq o .timeAdjust 0 0 true (.num ps.toNat)).call
      [if s.dev.num .timeStepThreshold < ps.toInt.natAbs then .tim fun t => { t with stepPend := some (psUnits ps.toInt), slewPend := none }
        else .tim fun t => { t with slewPend := some (psUnits ps.toInt) }] []) := by
  have hrun := adjustTime_run (toInt 64 ps.toNat) (s.dev.taken (execReq o .timeAdjust 0 0 true (.num ps.toNat)).call)
  rw [exec_timeAdjust, ← toInt_toNat]
  exact served_done hs h rfl (hostTime_free _ hf) rfl hrun

end

/-- What a write of TIME_SOURCE changes. -/
def Dev.sourceTaken (d : Dev) (v : Nat) : List Eff :=
  .obj .timeSource 0 0 (.num v) :: d.syncLost ++
    [.obj .timeStatus 0 0 (.num (putBit (if d.synced then putBit (d.num .timeStatus) 0 false else d.num .timeStatus) 2 false))]

theorem sourceTaken_run {d : Dev} (hd : d.Canonical) (v : Nat) :
    (Prog.all [putN .timeSource 0 0 v, setSync false, setFlag .timeStatus 0 0 2 false]).run d = d.after (d.sourceTaken v) := by
  have hstatus : ((Eff.obj .timeSource 0 0 (.num v)).apply d).num .timeStatus = d.num .timeStatus := Dev.num_put_other hd.objs _ (by decide)
  have hsync : ((Eff.obj .timeSource 0 0 (.num v)).apply d).synced = d.synced := by rw [Dev.synced, hstatus, Dev.synced]
  have hlost : ((Eff.obj .timeSource 0 0 (.num v)).apply d).syncLost = d.syncLost := by rw [Dev.syncLost, hsync, hstatus, Dev.syncLost]
  have hc : ((Eff.obj .timeSource 0 0 (.num v)).apply d).Canonical := Eff.apply_canonical _ d hd
  simp only [Prog.run_all_cons, Prog.all_nil, Prog.run_skip, run_putN, setSync_false_run, hlost, run_setFlag, Dev.sourceTaken,
    List.cons_append, Dev.after_cons, after_append]
  cases h : d.synced
  · simp only [Dev.syncLost, h]
    exact congrArg (fun x => (Eff.obj .timeStatus 0 0 (.num (putBit x 2 false))).apply _) hstatus
  · simp only [Dev.syncLost, h]
    exact congrArg (fun x => (Eff.obj .timeStatus 0 0 (.num (putBit x 2 false))).apply _) (Dev.num_put hc.objs _ _ _ _)

theorem timeSource_served {v : BitVec 8} (hs : s.Inv) (h : s.dev.admits (writeReq o .timeSource 0 0 (.num v.toNat))) :
    exec (.timeSourceWrite o v) s = .next (s.served (writeReq o .timeSource 0 0 (.num v.toNat)).call (s.dev.sourceTaken v.toNat) []) := by
  rw [exec_timeSourceWrite]
  exact served_done hs h rfl rfl rfl (sourceTaken_run (taken_canonical hs.1 _) _)

end

/-! ## The timers of the time base -/

section
variable {s : State} (ha : s.dev.answers = true)
include ha

theorem sourceValidTimeout_run : exec .sourceValidTimeout s = .next { s with dev := (Prog.when (bitOf (s.dev.num .timeStatus) 4)
    [setFlag .timeStatus 0 0 4 false, .when (s.dev.num .timeSource == 0) [setSync false]]).run s.dev } := run_live ha _

theorem slewComplete_run : exec .slewComplete s = .next { s with dev :=
    (Prog.when (s.dev.tim.slew != 0 && decide (s.dev.tim.slew.natAbs ≤ s.dev.slewRate.toNat))
      [.eff (.tim fun t => { t.setUnits (t.units + t.slew) with slew := 0 })]).run s.dev } := run_live ha _

theorem sourceValidTimeout_idle (h : bitOf (s.dev.num .timeStatus) 4 = false) : exec .sourceValidTimeout s = .next s := by
  rw [sourceValidTimeout_run ha, h, Prog.when_false, Prog.run_skip]

omit ha in
theorem synced_validCleared {d : Dev} (hd : SMap.wf none d.objs = true) :
    ((Eff.obj .timeStatus 0 0 (.num (putBit (d.num .timeStatus) 4 false))).apply d).num .timeStatus = putBit (d.num .timeStatus) 4 false ∧
    ((Eff.obj .timeStatus 0 0 (.num (putBit (d.num .timeStatus) 4 false))).apply d).synced = d.synced := by
  have hnum : ((Eff.obj .timeStatus 0 0 (.num (putBit (d.num .timeStatus) 4 false))).apply d).num .timeStatus =
    putBit (d.num .timeStatus) 4 false := Dev.num_put hd _ _ _ _
  refine ⟨hnum, ?_⟩
  rw [Dev.synced, hnum, Dev.synced]
  simp only [bitOf, putBit, putBits, bitsOf]
  congr 1
  omega

/-- After 10 s without a timing message SOURCE_VALID clears, and SYNC with it under TIME_SOURCE 0 (Table 20.1). -/
theorem sourceValidTimeout_clears (hs : s.Inv) (h : bitOf (s.dev.num .timeStatus) 4 = true) : exec .sourceValidTimeout s =
    .next (s.after (.obj .timeStatus 0 0 (.num (putBit (s.dev.num .timeStatus) 4 false)) ::
      if s.dev.num .timeSource = 0 ∧ s.dev.synced = true then
        [.obj .timeStatus 0 0 (.num (putBit (putBit (s.dev.num .timeStatus) 4 false) 0 false)), .raise 432 0 0xFFFFFF 0 0] else [])) := by
  obtain ⟨hnum, hsync⟩ := synced_validCleared hs.1.objs
  rw [sourceValidTimeout_run ha, h]
  simp only [Prog.when_true, Prog.run_all_cons, Prog.all_nil, Prog.run_skip, run_setFlag]
  by_cases h0 : s.dev.num .timeSource = 0
  · simp only [h0, beq_self_eq_true, Prog.when_true, Prog.run_all_cons, Prog.all_nil, Prog.run_skip, setSync_false_run, Dev.syncLost, hnum,
      hsync, true_and]
    cases s.dev.synced <;> rfl
  · simp only [h0, beq_eq_false_iff_ne.mpr h0, Prog.when_false, Prog.run_skip, false_and, if_false]
    rfl

section
variable {r : Nat} (hr : r = 1000 * s.dev.tim.incNow * s.dev.num .timeSlewMax / 1000000)
include hr

theorem slewComplete_idle (h : s.dev.tim.slew = 0 ∨ r < s.dev.tim.slew.natAbs) : exec .slewComplete s = .next s := by
  have hrate : s.dev.slewRate.toNat = r := hr.symm
  have hcond : (s.dev.tim.slew != 0 && decide (s.dev.tim.slew.natAbs ≤ s.dev.slewRate.toNat)) = false := by
    rw [hrate, Bool.and_eq_false_iff, bne_eq_false_iff_eq, decide_eq_false_iff_not]
    exact h.imp_right Nat.not_le.mpr
  rw [slewComplete_run ha, hcond, Prog.when_false, Prog.run_skip]

theorem slewComplete_absorbs (h0 : s.dev.tim.slew ≠ 0) (h : s.dev.tim.slew.natAbs ≤ r) : exec .slewComplete s =
    .next (s.after [.tim fun t => { t.setUnits (t.units + t.slew) with slew := 0 }]) := by
  have hrate : s.dev.slewRate.toNat = r := hr.symm
  have hcond : (s.dev.tim.slew != 0 && decide (s.dev.tim.slew.natAbs ≤ s.dev.slewRate.toNat)) = true := by
    rw [hrate, decide_eq_true h, Bool.and_true]
    exact bne_iff_ne.mpr h0
  rw [slewComplete_run ha, hcond, Prog.when_true]
  rfl

end

end

theorem numbersFrames_iff {d : Dev} {n : Nat} : d.numbersFrames n = true ↔ (d.ch n).marks = true ∧
    (d.num .clkFchState 0 n ≠ 0 ∨ (d.num .clkTimingChannel = n ∧ d.num .clkTimingState = 3)) := by
  simp [Dev.numbersFrames]

/-- Settles O54: the sub-tick is `tickLater`, the mark its frame's number after the PLLs, and the commands one effect each. -/
theorem timeBase : Obligations.TimeBase := by
  refine ⟨fun s _ => subTick_silent, fun s a r z u top hs ha hA hr htop hz hu h0 ht => ?_, fun s n off m hs => ⟨frameMark_silent, ?_, ?_, ?_⟩,
    fun s o b r hs hb hr h => ?_, fun s o ps r hs hr h => ?_, fun s o v r hs hr h => ?_, fun s hs ha => ?_⟩
  · subst hA htop
    have hd := hs.1
    have hzs : s.dev.slewPart = z := slewPart_eq hr hz
    have hus : s.dev.tickUnits = u := by rw [hu, ← hzs, Dev.tickUnits]
    rw [← hus] at h0 ht
    have htim := tickLater_tim hd
    obtain ⟨hinc, hset, hstep, hslew, hnow, hsub, hticks, hsynco⟩ := settled_fields s.dev.ticked
    have hrange := settled_inRange (ticked_inRange (d := s.dev))
    have hsec := ticked_synco h0 ht
    rw [← htim] at hinc hset hstep hslew hnow hsub hticks hsynco hrange
    rw [hus] at hsec
    have hplain := tickLater_plain hd h0 ht
    have hsteps {x : Int} := tickLater_step (x := x) hd h0 ht
    have hsets {S N F : Nat} := tickLater_set (S := S) (N := N) (F := F) hd h0 ht
    rw [hus] at hplain hsteps hsets
    rw [hzs] at hplain
    obtain ⟨hns, hfrac⟩ := hrange
    have honly := tickLater_only hd
    have hdram := tickLater_dram hd
    have hfab := tickLater_fab hd
    have hfn := tickLater_fn hd
    have hch (n : Nat) (hn : n < 4) := tickLater_ch hd hn
    rw [hsec] at hsynco
    rw [subTick_next ha]
    clear htim
    generalize s.dev.tickLater = e at *
    exact ⟨_, rfl, rfl, hns, hfrac, hsub, hticks, hnow, hinc, hset, hstep, hslew, honly, hdram, hfab, hfn, hch, hsynco, hplain,
      fun x => hsteps, fun S N F => hsets⟩
  · exact fun f w ha hv ho hm hn hf hw => by
      subst hf hw
      exact frameMark_stamps hs.1 n off m ha hv ho (numbersFrames_iff.mpr ⟨hm, hn⟩)
  · exact fun ha hv ho hr => frameMark_follows hs.1 n off m ha hv ho hr
  · refine fun ha hv hn => frameMark_unnumbered hs.1 n off m ha hv ?_
    rw [← Bool.not_eq_true, numbersFrames_iff, not_and_or, not_or, not_and_or, not_not, Bool.not_eq_true]
    exact hn
  · subst hr
    exact ⟨timeSet_range hb h, fun hn => ⟨timeSet_synced hb h hn, timeSet_served hb h hs hn⟩⟩
  · subst hr
    refine ⟨timeAdjust_synced h, fun hf => ⟨fun hT => ?_, fun hT => ?_⟩⟩
    · rw [timeAdjust_served h hs hf, if_pos hT]
    · rw [timeAdjust_served h hs hf, if_neg (Nat.not_lt.mpr hT)]
  · subst hr
    refine ⟨fun hy => ?_, fun hy => ?_⟩
    · rw [timeSource_served hs h, Dev.sourceTaken, Dev.syncLost, hy]
      rfl
    · rw [timeSource_served hs h, Dev.sourceTaken, Dev.syncLost, hy]
      rfl
  · refine ⟨sourceValidTimeout_idle ha, fun h hf => ?_, fun h h0 hy => ?_, fun r hr => ⟨slewComplete_idle ha hr, slewComplete_absorbs ha hr⟩⟩
    · rw [sourceValidTimeout_clears ha hs h, if_neg]
      rintro ⟨h0, hy⟩
      rcases hf with hf | hf
      · exact hf h0
      · exact absurd (hy.symm.trans hf) (by decide)
    · rw [sourceValidTimeout_clears ha hs h, if_pos ⟨h0, hy⟩]

end Sys2Proof.Machine
end

section
/-!
PROOFS of Tightrope (O12): moves, their ends and the thermal floor.
-/
namespace Sys2Proof.Machine

/-- A write of TR_OP_TARGET. -/
abbrev opTargetReq (o : Origin) (v : BitVec 8) : Req := writeReq o .trOpTarget 0 0 (.num v.toNat)

theorem exec_trOpTargetWrite (o : Origin) (v : BitVec 8) (s : State) : exec (.trOpTargetWrite o v) s =
    s.run (serve (opTargetReq o v) (opTargetBeh (opTargetReq o v).call v.toNat)) := rfl
theorem exec_regulatorSettled (mv : BitVec 16) (s : State) : exec (.regulatorSettled mv) s = execRegulatorSettled mv s := rfl
theorem exec_trSettleTimeout (mv : BitVec 16) (b : Bool) (s : State) :
    exec (.trSettleTimeout mv b) s = execTrSettleTimeout mv b s := rfl
theorem exec_thermalLimitExceeded (s : State) : exec .thermalLimitExceeded s = execThermalLimitExceeded s := rfl
theorem exec_thermalFloorRaise (s : State) : exec .thermalFloorRaise s = execThermalFloorRaise s := rfl
theorem exec_thermalFloorLower (s : State) : exec .thermalFloorLower s = execThermalFloorLower s := rfl

/-! ## Moves (R126, R128) -/

theorem startMove_run (d : Dev) (p : Nat) (c : Option Call) : (startMove p c).run d = d.after (d.moveEffs p c) := by
  by_cases h : p = d.pwr.clkPoint ∧ p = d.pwr.voltPoint
  · simp [startMove, Dev.moveEffs, ← h.1, ← h.2]
  · have hne : (p != d.pwr.clkPoint || p != d.pwr.voltPoint) = true := by simpa [or_iff_not_and_not] using h
    rw [startMove, Prog.run_ask, hne, Dev.moveEffs, if_neg h]
    rfl

/-- No move is needed to a point that clocks and voltage have. -/
theorem moveEffs_reached {d : Dev} {p : Nat} (hc : p = d.pwr.clkPoint) (hv : p = d.pwr.voltPoint) (c : Option Call) :
    d.moveEffs p c = [] := if_pos ⟨hc, hv⟩

/-- The move that the point in force needs, when Tightrope is stable. -/
theorem retarget_run {d : Dev} (hp : d.num .pwrState ≤ 1) :
    retarget.run d = d.after (if d.num .trState = 0 then d.moveEffs d.opActive none else []) := by
  rw [retarget, Prog.run_ask, decide_eq_true hp, Bool.and_true]
  by_cases h : d.num .trState = 0
  · rw [beq_iff_eq.mpr h, if_pos h]
    exact startMove_run d _ none
  · rw [beq_false_of_ne h, if_neg h]
    rfl

/-- After effects that leave the present point, the move counts from where the device was. -/
theorem retarget_after {d : Dev} {es : List Eff} (hp : (d.after es).num .pwrState ≤ 1)
    (hc : (d.after es).pwr.clkPoint = d.pwr.clkPoint) (hv : (d.after es).pwr.voltPoint = d.pwr.voltPoint) :
    retarget.run (d.after es) =
      d.after (es ++ if (d.after es).num .trState = 0 then d.moveEffs (d.after es).opActive none else []) := by
  rw [retarget_run hp, after_append, Dev.moveEffs, Dev.moveEffs, hc, hv]

theorem retarget_reached {d : Dev} (hc : d.opActive = d.pwr.clkPoint) (hv : d.opActive = d.pwr.voltPoint) : retarget.run d = d := by
  rw [retarget, Prog.run_ask]
  cases d.num .trState == 0 && decide (d.num .pwrState ≤ 1)
  · rfl
  · exact (startMove_run d _ none).trans (by rw [moveEffs_reached hc hv, Dev.after_nil])

/-! ## TR_OP_TARGET (R128 to R130) -/

/-- A target is stored while Tightrope is stable, or becomes so with it: the move is the one to the point then in force. -/
theorem retarget_stored {d : Dev} {es : List Eff} {v : Nat} (hp : (d.after es).num .pwrState = 0) (h0 : (d.after es).num .trState = 0)
    (hv : (d.after es).num .trOpTarget = v) (hw : (d.after es).pwr = d.pwr) :
    retarget.run (d.after es) = d.after (es ++ d.moveEffs (max v d.pwr.floor) none) := by
  rw [retarget_after (hp.trans_le (by decide)) (congrArg _ hw) (congrArg _ hw), if_pos h0, Dev.opActive, hv, hw]

section
variable {s : State} {o : Origin} {v : BitVec 8} (h : s.dev.admits (opTargetReq o v))
include h

theorem opTarget_awake : s.dev.num .pwrState = 0 := by
  obtain ⟨⟨-, hp, -⟩, -⟩ := h
  exact hp

theorem opTarget_moving (h1 : s.dev.num .trState = 1) : exec (.trOpTargetWrite o v) s =
    .next (s.refusedWith (opTargetReq o v).call [] 0x0402) := by
  rw [exec_trOpTargetWrite]
  exact served_abort h (by decide) (.inr ⟨rfl, by simp [opTargetBeh, beh, firstAbort, h1]⟩) fun _ _ => rfl

theorem opTarget_faulty (h2 : s.dev.num .trState = 2) (hv : v.toNat ≠ s.dev.pwr.clkPoint) : exec (.trOpTargetWrite o v) s =
    .next (s.refusedWith (opTargetReq o v).call [] 0x0401) := by
  rw [exec_trOpTargetWrite]
  exact served_abort h (by decide) (.inr ⟨rfl, by simp [opTargetBeh, beh, firstAbort, h2, hv]⟩) fun _ _ => rfl

variable (hs : s.Inv)
include hs

theorem opTarget_moves (h0 : s.dev.num .trState = 0) (hv : v.toNat = max v.toNat s.dev.pwr.floor)
    (hne : v.toNat ≠ s.dev.pwr.clkPoint ∨ v.toNat ≠ s.dev.pwr.voltPoint) : exec (.trOpTargetWrite o v) s =
    .next (s.owing (opTargetReq o v).call
      (s.dev.moveEffs v.toNat (some (opTargetReq o v).call))) := by
  have h2 : s.dev.num .trState ≠ 2 := ne_of_eq_of_ne h0 (by decide)
  have hp : s.dev.num .pwrState ≤ 1 := (opTarget_awake h).trans_le (by decide)
  rw [exec_trOpTargetWrite]
  refine served_later hs h rfl (by simp [opTargetBeh, beh, firstAbort, h0])
    ((if_neg h2).trans (if_pos ⟨hp, hv, by rwa [Dev.taken_pwr, ← hv]⟩)) ?_
  rw [Dev.taken_pwr, ← hv]
  exact startMove_run _ _ _

theorem opTarget_stored (h0 : s.dev.num .trState = 0)
    (hv : v.toNat < max v.toNat s.dev.pwr.floor ∨ v.toNat = s.dev.pwr.clkPoint ∧ v.toNat = s.dev.pwr.voltPoint) :
    exec (.trOpTargetWrite o v) s = .next (s.served (opTargetReq o v).call
      (.obj .trOpTarget 0 0 (.num v.toNat) :: s.dev.moveEffs (max v.toNat s.dev.pwr.floor) none) []) := by
  have hd := (taken_canonical hs.1 (opTargetReq o v).call).objs
  have h2 : s.dev.num .trState ≠ 2 := ne_of_eq_of_ne h0 (by decide)
  rw [exec_trOpTargetWrite]
  refine served_done hs h rfl (by simp [opTargetBeh, beh, firstAbort, h0]) ((if_neg h2).trans (if_neg ?_))
    (retarget_stored (es := [.obj .trOpTarget 0 0 (.num v.toNat)]) ((Dev.num_put_other hd _ (by decide)).trans (opTarget_awake h))
      ((Dev.num_put_other hd _ (by decide)).trans h0) (Dev.num_put hd _ _ _ _) rfl)
  rintro ⟨-, he, hne⟩
  rcases hv with hv | ⟨hc, hp⟩
  · exact hv.ne he
  · exact hne.elim (fun hne => hne (he.symm.trans hc)) fun hne => hne (he.symm.trans hp)

theorem opTarget_clears (h2 : s.dev.num .trState = 2) (hv : v.toNat = s.dev.pwr.clkPoint) :
    exec (.trOpTargetWrite o v) s = .next (s.served (opTargetReq o v).call
      ([Eff.obj .trOpTarget 0 0 (.num v.toNat), Eff.obj .trState 0 0 (.num 0)] ++ s.dev.moveEffs (max v.toNat s.dev.pwr.floor) none) []) := by
  have hd := (taken_canonical hs.1 (opTargetReq o v).call).objs
  have hd' := Eff.objs_wf (.obj .trOpTarget 0 0 (.num v.toNat)) _ hd
  rw [exec_trOpTargetWrite]
  exact served_done hs h rfl (by simp [opTargetBeh, beh, firstAbort, h2, hv]) (if_pos h2)
    (retarget_stored (es := [.obj .trOpTarget 0 0 (.num v.toNat), .obj .trState 0 0 (.num 0)])
      ((Dev.num_put_other hd' _ (by decide)).trans ((Dev.num_put_other hd _ (by decide)).trans (opTarget_awake h))) (Dev.num_put hd' _ _ _ _)
      ((Dev.num_put_other hd' _ (by decide)).trans (Dev.num_put hd _ _ _ _)) rfl)

end

/-! ## The end of a move (R128, R129) -/

/-- No move is in progress, and no answer is owed for one. -/
def moveOver : Eff := .pwr fun x => { x with moveTo := none, moveCall := none }

theorem moveAnswer_unowed {d : Dev} (h : d.pwr.moveCall = none) (abort : Nat) : (moveAnswer abort).run d = moveOver.apply d := by
  rw [moveAnswer, Prog.run_ask, h]
  rfl

theorem moveAnswer_owed {d : Dev} {c : Call} (h : d.pwr.moveCall = some c) (abort : Nat) :
    (moveAnswer abort).run d = (respond c abort []).run (moveOver.apply d) := by
  rw [moveAnswer, Prog.run_ask, h]
  rfl

/-- What a confirmed move to a point leaves, before its answer. -/
def settledEffs (p mv : Nat) : List Eff :=
  [.obj .trVcoreMeasured 0 0 (.num mv), .pwr fun x => { x with clkPoint := p, voltPoint := p }, .obj .trState 0 0 (.num 0),
    .raise 25 0 noInst 0 0]

/-- The same where an answer is owed: the point becomes the target. -/
def storedEffs (p mv : Nat) : List Eff := settledEffs p mv ++ [Eff.obj .trOpTarget 0 0 (.num p), moveOver]

theorem run_when_decide (c : Prop) [Decidable c] (e : Eff) (d : Dev) :
    (Prog.when (decide c) [.eff e]).run d = d.after (if c then [e] else []) := by
  by_cases h : c <;> simp [h]

theorem run_when_bne (a b : Bool) (e : Eff) (d : Dev) : (Prog.when (a != b) [.eff e]).run d = d.after (if a = b then [] else [e]) := by
  cases a <;> cases b <;> rfl

/-- What a move that is not confirmed in time leaves, before its answer. -/
def Dev.failedEffs (d : Dev) (p mv : Nat) (b : Bool) : List Eff :=
  [Eff.obj .trVcoreMeasured 0 0 (.num mv)] ++
    (if d.pwr.voltPoint < p then [Eff.out ⟨.avs, 0, pointMv d.pwr.voltPoint, []⟩] else []) ++
    [Eff.obj .trState 0 0 (.num 2), Eff.raise 26 0 noInst 0 0] ++ if within15 p mv = b then [] else [Eff.raise 27 0 noInst 0 0]

/-- The failure itself says nothing of the answer. -/
theorem failedEffs_moveCall (d : Dev) (p mv : Nat) (b : Bool) : (d.after (d.failedEffs p mv b)).pwr.moveCall = d.pwr.moveCall := by
  simp only [Dev.failedEffs, after_append, Dev.after_cons, Dev.after_nil]
  split <;> split <;> simp only [Dev.after_cons, Dev.after_nil, Eff.apply, Dev.put]

theorem settled_target {p mv : Nat} :
    ((settledEffs p mv ++ [moveOver]).any fun e => e.keys (Obj.trOpTarget.key 0 0)) = false := by
  simp only [settledEffs, moveOver, List.cons_append, List.nil_append, List.any_cons, List.any_nil, Eff.keys]
  decide

section
variable {s : State} {mv : BitVec 16} {p : Nat} (hs : s.Inv) (h1 : s.dev.num .trState = 1) (hm : s.dev.pwr.moveTo = some p)
include hs h1 hm

/-- What is measured leaves the move in progress. -/
theorem moving_measured : (((Eff.obj .trVcoreMeasured 0 0 (.num mv.toNat)).apply s.dev).num .trState == 1) = true ∧
    ((Eff.obj .trVcoreMeasured 0 0 (.num mv.toNat)).apply s.dev).pwr.moveTo = some p :=
  ⟨beq_iff_eq.mpr ((Dev.num_put_other hs.1.objs _ (by decide)).trans h1), hm⟩

theorem regulatorSettled_off (hw : within15 p mv.toNat = false) :
    exec (.regulatorSettled mv) s = .next (s.after [.obj .trVcoreMeasured 0 0 (.num mv.toNat)]) := by
  obtain ⟨-, hto⟩ := moving_measured (mv := mv) hs h1 hm
  rw [exec_regulatorSettled, execRegulatorSettled, State.run_eq, Prog.run_all_cons, run_putN, Prog.run_all_cons, Prog.run_ask, hto]
  simp only [hw, Bool.and_false, Prog.when_false]
  rfl

theorem regulatorSettled_runs (hw : within15 p mv.toNat = true) : exec (.regulatorSettled mv) s = .next { s with
    dev := retarget.run ((moveAnswer 0).run ((Prog.when s.dev.pwr.moveCall.isSome [putN .trOpTarget 0 0 p]).run
      (s.dev.after (settledEffs p mv.toNat)))) } := by
  obtain ⟨hst, hto⟩ := moving_measured (mv := mv) hs h1 hm
  rw [exec_regulatorSettled, execRegulatorSettled, State.run_eq, Prog.run_all_cons, run_putN, Prog.run_all_cons, Prog.run_ask, hto]
  simp only [hw, hst, Bool.and_true, Prog.when_true]
  rfl

theorem regulatorSettled_unowed (hw : within15 p mv.toNat = true) (hc : s.dev.pwr.moveCall = none) (ha : s.dev.opActive = p) :
    exec (.regulatorSettled mv) s = .next (s.after (settledEffs p mv.toNat ++ [moveOver])) := by
  have hop : (s.dev.after (settledEffs p mv.toNat ++ [moveOver])).opActive = p := by
    rw [Dev.opActive, after_num hs.1.objs settled_target]
    exact ha
  rw [regulatorSettled_runs hs h1 hm hw, hc]
  simp only [Option.isSome_none, Prog.when_false, Prog.run_skip]
  rw [moveAnswer_unowed (d := s.dev.after (settledEffs p mv.toNat)) hc]
  exact congrArg (fun d => Host.Outcome.next { s with dev := d }) (retarget_reached hop hop)

theorem regulatorSettled_owed {c : Call} (hw : within15 p mv.toNat = true) (hc : s.dev.pwr.moveCall = some c) (hf : s.dev.pwr.floor ≤ p) :
    exec (.regulatorSettled mv) s = .next { s with
      dev := (respond c 0 []).run (s.dev.after (storedEffs p mv.toNat)) } := by
  have hd := (after_canonical (settledEffs p mv.toNat) hs.1).objs
  have hr := only_respond c 0 []
  have hpwr : ((respond c 0 []).run (s.dev.after (storedEffs p mv.toNat))).pwr =
      { s.dev.pwr with clkPoint := p, voltPoint := p, moveTo := none, moveCall := none } := hr.pwr (by decide) _
  have hop : ((respond c 0 []).run (s.dev.after (storedEffs p mv.toNat))).opActive = p := by
    rw [Dev.opActive, hpwr, hr.num (after_canonical _ hs.1).objs (by decide), storedEffs, after_append]
    exact (congrArg (max · _) (Dev.num_put hd _ _ _ _)).trans (max_eq_left hf)
  rw [regulatorSettled_runs hs h1 hm hw, hc]
  simp only [Option.isSome_some, Prog.when_true, Prog.run_all_cons, Prog.all_nil, Prog.run_skip, run_putN]
  rw [moveAnswer_owed (d := (Eff.obj .trOpTarget 0 0 (.num p)).apply (s.dev.after (settledEffs p mv.toNat))) hc]
  exact congrArg (fun d => Host.Outcome.next { s with dev := d })
    (retarget_reached (hop.trans (congrArg Pwr.clkPoint hpwr).symm) (hop.trans (congrArg Pwr.voltPoint hpwr).symm))

theorem trSettleTimeout_runs {b : Bool} (hw : (within15 p mv.toNat && b) = false) : exec (.trSettleTimeout mv b) s =
    .next { s with dev := (moveAnswer 0x0701).run (s.dev.after (s.dev.failedEffs p mv.toNat b)) } := by
  obtain ⟨hst, hto⟩ := moving_measured (mv := mv) hs h1 hm
  have hvolt : ((Eff.obj .trVcoreMeasured 0 0 (.num mv.toNat)).apply s.dev).pwr.voltPoint = s.dev.pwr.voltPoint := rfl
  rw [exec_trSettleTimeout, execTrSettleTimeout, State.run_eq, Prog.run_all_cons, run_putN, Prog.run_all_cons, Prog.run_ask, hto]
  simp only [hw, hst, hvolt, Bool.not_false, Bool.and_true, Prog.when_true, Prog.run_all_cons, Prog.all_nil, Prog.run_skip]
  simp only [sendTarget, send, putN, raise, run_when_decide, run_when_bne, Prog.run_eff, Dev.failedEffs, after_append, Dev.after_cons,
    Dev.after_nil]

theorem trSettleTimeout_unowed {b : Bool} (hw : (within15 p mv.toNat && b) = false) (hc : s.dev.pwr.moveCall = none) :
    exec (.trSettleTimeout mv b) s = .next (s.after (s.dev.failedEffs p mv.toNat b ++ [moveOver])) := by
  rw [trSettleTimeout_runs hs h1 hm hw, moveAnswer_unowed ((failedEffs_moveCall _ _ _ _).trans hc), State.after, after_append]
  rfl

end

/-! ## The thermal floor (R127) -/

/-- Once the floor alone has changed, the move is the one to the point then in force. -/
theorem retarget_refloored {d : Dev} {es : List Eff} {f : Nat} (hp : d.num .pwrState ≤ 1) (ho : (d.after es).objs = d.objs)
    (hc : (d.after es).pwr.clkPoint = d.pwr.clkPoint) (hv : (d.after es).pwr.voltPoint = d.pwr.voltPoint)
    (hf : (d.after es).pwr.floor = f) : retarget.run (d.after es) =
      d.after (es ++ if d.num .trState = 0 then d.moveEffs (max (d.num .trOpTarget) f) none else []) := by
  have hn : ∀ o, (d.after es).num o = d.num o := fun o => by rw [Dev.num, Dev.get, ho, Dev.num, Dev.get]
  rw [retarget_after ((hn _).trans_le hp) hc hv, Dev.opActive, hn, hn, hf]

/-- The floor one point higher, and the move that it needs when Tightrope is stable. -/
def Dev.floorRaised (d : Dev) : List Eff :=
  [Eff.pwr fun p => { p with floor := p.floor + 1 }, Eff.raise 28 0 noInst 0 0] ++
    if d.num .trState = 0 then d.moveEffs (max (d.num .trOpTarget) (d.pwr.floor + 1)) none else []

theorem raiseFloor_run {d : Dev} (hp : d.num .pwrState ≤ 1) (hf : d.pwr.floor < 3) : raiseFloor.run d = d.after d.floorRaised := by
  rw [raiseFloor, Prog.run_ask, decide_eq_true hf]
  exact retarget_refloored (es := [.pwr fun p => { p with floor := p.floor + 1 }, .raise 28 0 noInst 0 0]) hp rfl rfl rfl rfl

section
variable {s : State} (ha : s.dev.answers = true)
include ha

theorem thermalLimitExceeded_run (hr : s.dev.inRun) : exec .thermalLimitExceeded s = .next { s with
    dev := (Prog.when (!s.dev.pwr.hot) [.eff (.pwr fun p => { p with hot := true }), raiseFloor]).run s.dev } := by
  rw [exec_thermalLimitExceeded, execThermalLimitExceeded, State.run_eq, Prog.run_ask, ha, Prog.when_true, Prog.run_all_cons,
    wake_run hr.1 hr.2]
  rfl

theorem thermalFloorRaise_run (hr : s.dev.inRun) (hh : s.dev.pwr.hot = true) (hf : s.dev.pwr.floor < 3) :
    exec .thermalFloorRaise s = .next (s.after s.dev.floorRaised) := by
  rw [exec_thermalFloorRaise, execThermalFloorRaise, State.run_eq, Prog.run_ask, ha, hh, Bool.and_self, Prog.when_true, Prog.run_all_cons,
    wake_run hr.1 hr.2]
  exact congrArg (fun d => Host.Outcome.next { s with dev := d }) (raiseFloor_run (hr.1.trans_le (by decide)) hf)

theorem thermalLimitExceeded_hot (hr : s.dev.inRun) (hh : s.dev.pwr.hot = true) : exec .thermalLimitExceeded s = .next s := by
  rw [thermalLimitExceeded_run ha hr, hh]
  rfl

theorem thermalLimitExceeded_raises (hr : s.dev.inRun) (hh : s.dev.pwr.hot = false) (hf : s.dev.pwr.floor < 3) :
    exec .thermalLimitExceeded s = .next (s.after (.pwr (fun p => { p with hot := true }) :: s.dev.floorRaised)) := by
  rw [thermalLimitExceeded_run ha hr, hh]
  exact congrArg (fun d => Host.Outcome.next { s with dev := d })
    (raiseFloor_run (d := (Eff.pwr fun p => { p with hot := true }).apply s.dev) (hr.1.trans_le (by decide)) hf)

theorem thermalFloorLower_run (hp : s.dev.num .pwrState ≤ 1) (hf : 0 < s.dev.pwr.floor) : exec .thermalFloorLower s = .next (s.after
    ([Eff.pwr fun p => { p with hot := false }, Eff.pwr fun p => { p with floor := p.floor - 1 }] ++
      (if s.dev.pwr.floor = 1 then [Eff.raise 29 0 noInst 0 0] else []) ++
      if s.dev.num .trState = 0 then s.dev.moveEffs (max (s.dev.num .trOpTarget) (s.dev.pwr.floor - 1)) none else [])) := by
  rw [exec_thermalFloorLower, execThermalFloorLower, State.run_eq, Prog.run_ask, ha, decide_eq_true hf]
  by_cases h1 : s.dev.pwr.floor = 1
  · rw [beq_iff_eq.mpr h1, if_pos h1]
    exact congrArg (fun d => Host.Outcome.next { s with dev := d }) (retarget_refloored (es := [.pwr fun p => { p with hot := false },
      .pwr fun p => { p with floor := p.floor - 1 }, .raise 29 0 noInst 0 0]) hp rfl rfl rfl rfl)
  · rw [beq_false_of_ne h1, if_neg h1]
    exact congrArg (fun d => Host.Outcome.next { s with dev := d }) (retarget_refloored (es := [.pwr fun p => { p with hot := false },
      .pwr fun p => { p with floor := p.floor - 1 }]) hp rfl rfl rfl rfl)

end

/-- Settles O12: a write of TR_OP_TARGET by the state of Tightrope, the end of a move by what is measured, and the thermal floor, each as a list of
effects. -/
theorem tightropeMoves : Obligations.TightropeMoves := by
  refine ⟨?_, fun s mv p hs h1 hm => ⟨regulatorSettled_unowed hs h1 hm, fun c => regulatorSettled_owed hs h1 hm,
    regulatorSettled_off hs h1 hm, fun b => trSettleTimeout_unowed hs h1 hm⟩, ?_, fun s ha hp hf => thermalFloorLower_run ha hp hf⟩
  · rintro s o v _ _ hs rfl h rfl
    exact ⟨fun h0 => ⟨opTarget_moves h hs h0, opTarget_stored h hs h0⟩, opTarget_moving h,
      fun h2 => ⟨opTarget_faulty h h2, opTarget_clears h hs h2⟩⟩
  · rintro s ha hr hf _ rfl
    exact ⟨fun hh => thermalLimitExceeded_raises ha hr hh hf,
      fun hh => ⟨thermalLimitExceeded_hot ha hr hh, thermalFloorRaise_run ha hr hh hf⟩⟩

end Sys2Proof.Machine
end

section
/-!
PROOFS of a second of performance data (O32): the statement fails where a counter holds more than its 32 bits take.
-/
namespace Sys2Proof.Machine

/-! ## A counter past its width -/

/-- A channel 0 that counts, with nine clear seconds known and FRM_PM_UAS at 2^32. The stores are canonical, which is all that the invariant
asks of them. -/
def uasPastWidth : State := State.reset.after [.clk fun c => { c with devReset := false }, .obj .frmPmUas 0 0 (.num (2 ^ 32)),
  .fch 0 fun c => { c with pm := ⟨true, 0, false, List.replicate 9 (false, false)⟩ }]

theorem uasPastWidth_inv : uasPastWidth.Inv := ⟨after_canonical _ resetHasInvariant.1, after_bounded _ resetHasInvariant.2⟩

theorem uasPastWidth_answers : uasPastWidth.dev.answers = true := by decide

theorem uasPastWidth_noCircuit : uasPastWidth.dev.circOn (some 0) = [] := by decide +kernel

/-- The second is clear and the channel available, so the commit changes the channel's own data alone. -/
theorem uasPastWidth_commit : exec (.pmSecondCommit 0) uasPastWidth =
    .next (uasPastWidth.after [.fch 0 fun c => { c with pm := pmNext c.pm false }]) := by
  change uasPastWidth.run (live (.ask _)) = _
  rw [run_live uasPastWidth_answers, Prog.run_ask]
  simp only [Fin.val_zero, uasPastWidth_noCircuit]
  rfl

/-- Refutes O32: the statement has an available second leave FRM_PM_UAS at its value held to 32 bits, and the model does not touch it. The two
differ at 2^32, past the counter's width: no count reaches such a value, but the invariant in the statement does not exclude it. -/
theorem not_performanceSeconds : ¬ Obligations.PerformanceSeconds := by
  intro h
  obtain ⟨-, hcommit⟩ := h uasPastWidth 0 uasPastWidth_inv uasPastWidth_answers _ rfl
  obtain ⟨t, ht, -, -, -, hcounts⟩ :=
    hcommit (by decide) (by decide) uasPastWidth_noCircuit (by decide) _ _ _ rfl rfl rfl
  obtain ⟨-, huas, -, -⟩ := hcounts (false, false) _ rfl rfl (by decide)
  rw [uasPastWidth_commit, Host.Outcome.next.injEq] at ht
  subst ht
  exact absurd huas (by decide +kernel)

end Sys2Proof.Machine
end

section
/-!
PROOFS of the Lemow messages (O36): messages that are not acted on, and the plain answers of an Operating terminal.
-/
namespace Sys2Proof.Machine

/-! ## Messages for others, and bodies of another length (R154, R337) -/

section
variable {d : Dev} {n : Nat} {m : Lemow} {rule : Dev → LemowRule} {act : Prog}

theorem lemow_elsewhere (h : d.addressed n m.addr.toNat = false) : (lemowIn n m rule act).run d = d := by
  simp only [lemowIn, Prog.run_ask, h]
  rfl

theorem lemow_discarded (h : d.addressed n m.addr.toNat = true) (hl : m.body.length ≠ (rule d).len) :
    (lemowIn n m rule act).run d = (Eff.count .actMsgDiscards n 0 1).apply d := by
  have hw : m.body.length ≠ (rule d).len ∨ (rule d).bad = true := .inl hl
  simp only [lemowIn, Prog.run_ask, h, if_pos hw]
  rfl

/-- A message that is legal in no present state and went to all is ignored. -/
theorem lemow_broadcast_ignored (ht : d.takes n m (rule d)) (hl : m.body.length = (rule d).len) (hb : (rule d).bad = false)
    (hn : (rule d).named = none) (hg : (rule d).legal = false) (hm : m.addr.toNat = 0xFFFF) : (lemowIn n m rule act).run d = d := by
  have hw : ¬(m.body.length ≠ (rule d).len ∨ (rule d).bad = true) := by rw [hb]; simpa using hl
  have hc : (m.addr.toNat == d.num .actHandle n && m.addr.toNat != 0xFFFF) = false := by simp [hm]
  simp only [lemowIn, Prog.run_ask, ht.addressed, ht.mine, if_neg hw, hn, hg, hc]
  rfl

end

/-- A command hands a message of a kind whose body has `len` bytes (Table 12.2) to the terminal. -/
def HandsLemow (c : Instr) (n : Nat) (m : Lemow) (len : Nat) : Prop :=
  ∃ (rule : Dev → LemowRule) (act : Prog), (∀ d, (rule d).len = len) ∧ ∀ s, exec c s = s.run (live (lemowIn n m rule act))

/-- The downstream messages with the lengths of their bodies (Table 12.2). -/
def lemowKinds (n : Fin 4) (m : Lemow) : List (Instr × Nat) :=
  [(.window n m, 24), (.assign n m, 12), (.offer n m, 8), (.confirm n m, 12), (.eqd n m, 4), (.alloc n m, 4), (.activate n m, 0),
    (.refuse n m, 4), (.deactivate n m, 0), (.disable n m, 8), (.enable n m, 8), (.rdi n m, 1), (.dozeReply n m, 12), (.wake n m, 0),
    (.qualityRequest n m, 0)]

theorem lemowKinds_hands (n : Fin 4) (m : Lemow) : ∀ x ∈ lemowKinds n m, HandsLemow x.1 n.val m x.2 := by
  intro x hx
  unfold lemowKinds at hx
  fin_cases hx <;> exact ⟨_, _, fun _ => rfl, fun _ => rfl⟩

section
variable {s : State} {c : Instr} {n len : Nat} {m : Lemow} (hc : HandsLemow c n m len) (ha : s.dev.answers = true)
include hc ha

theorem HandsLemow.elsewhere (h : s.dev.addressed n m.addr.toNat = false) : exec c s = .next s := by
  obtain ⟨rule, act, -, hrun⟩ := hc
  rw [hrun, State.run_eq, live_run ha, lemow_elsewhere h]

theorem HandsLemow.discarded (h : s.dev.addressed n m.addr.toNat = true) (hl : m.body.length ≠ len) :
    exec c s = .next (s.after [.count .actMsgDiscards n 0 1]) := by
  obtain ⟨rule, act, hlen, hrun⟩ := hc
  rw [hrun, State.run_eq, live_run ha, lemow_discarded h (by rwa [hlen])]
  rfl

end

/-! ## Messages that no present state admits -/

theorem exec_rdi (n : Fin 4) (m : Lemow) (s : State) : exec (.rdi n m) s = execRdi n m s := rfl
theorem exec_qualityRequest (n : Fin 4) (m : Lemow) (s : State) : exec (.qualityRequest n m) s = execQualityRequest n m s := rfl
theorem exec_dozeReply (n : Fin 4) (m : Lemow) (s : State) : exec (.dozeReply n m) s = execDozeReply n m s := rfl

theorem actIn_eq_false {d : Dev} {n : Nat} {l : List Nat} (h : d.num .actState n ∉ l) : d.actIn n l = false := by
  simpa [Dev.actIn] using h

section
variable {s : State} {n : Fin 4} {m : Lemow} (ha : s.dev.answers = true)
include ha

theorem wake_illegal (h : s.dev.toHandle n.val m 0) (h4 : s.dev.num .actState n.val ≠ 4) :
    exec (.wake n m) s = .next (s.after [.count .actMsgIllegal n.val 0 1]) := by
  have hne : m.addr.toNat ≠ 0xFFFF := fun he => h.handle (h.addr.symm.trans he)
  rw [exec_wake, execWake, State.run_eq, live_run ha,
    lemow_illegal (.inl ⟨rfl, h.addr, hne⟩) h.length rfl rfl (actIn_eq_false (by simpa using h4)) ⟨h.addr, hne⟩]
  rfl

theorem wake_broadcast_ignored (hm : m.addr.toNat = 0xFFFF) (hb : m.body = []) (h4 : s.dev.num .actState n.val ≠ 4) :
    exec (.wake n m) s = .next s := by
  rw [exec_wake, execWake, State.run_eq, live_run ha, lemow_broadcast_ignored (n := n.val) (.inr (.inr ⟨rfl, hm⟩))
    (congrArg List.length hb) rfl rfl (actIn_eq_false (by simpa using h4)) hm]

theorem qualityRequest_illegal (h : s.dev.toHandle n.val m 0) (h34 : s.dev.num .actState n.val ∉ [3, 4]) :
    exec (.qualityRequest n m) s = .next (s.after [.count .actMsgIllegal n.val 0 1]) := by
  rw [exec_qualityRequest, execQualityRequest, State.run_eq, live_run ha,
    toHandle_illegal h (bad := fun _ => false) (legal := fun d => d.actIn n.val [3, 4]) rfl (actIn_eq_false h34)]
  rfl

theorem activate_illegal_state (h : s.dev.toHandle n.val m 0) (h3 : s.dev.num .actState n.val ≠ 3) :
    exec (.activate n m) s = .next (s.after [.count .actMsgIllegal n.val 0 1]) := by
  have hin : s.dev.actIn n.val [3] = false := actIn_eq_false (by simpa using h3)
  rw [exec_activate, execActivate, State.run_eq, live_run ha,
    toHandle_illegal h (bad := fun _ => false) (legal := fun d => d.actIn n.val [3] && (d.ch n.val).eqdTaken) rfl (by rw [hin, Bool.false_and])]
  rfl

end

/-! ## The plain answers in Operating -/

/-- A defect bit of FRM_DEFECTS above the first three takes another value: the bit and its event (Table 10.8). -/
theorem setDefect_changes {d : Dev} {n bit : Nat} {b : Bool} (h3 : 3 ≤ bit) (h : d.defect n bit ≠ b) : (setDefect n bit b).run d =
    d.after [.obj .frmDefects n 0 (.num (putBit (d.num .frmDefects n) bit b)), .raise (128 + 16 * n + 13) 0 n (top8 bit) 0] := by
  have hne : (bitOf (d.num .frmDefects n) bit != b) = true := bne_iff_ne.mpr h
  have h0 : bit ≠ 0 := by omega
  have h1 : bit ≠ 1 := by omega
  have hpm : (b && decide (bit < 3)) = false := by simp [Nat.not_lt.mpr h3]
  simp only [setDefect, Prog.run_ask, hne, if_neg h0, if_neg h1, if_neg (Nat.not_lt.mpr ((by decide : 2 ≤ 3).trans h3)), hpm]
  rfl

theorem setDefect_same {d : Dev} {n bit : Nat} {b : Bool} (h : d.defect n bit = b) : (setDefect n bit b).run d = d := by
  have he : (bitOf (d.num .frmDefects n) bit != b) = false := bne_eq_false_iff_eq.mpr h
  simp only [setDefect, Prog.run_ask, he]
  rfl

theorem dozeAnswer_idle {d : Dev} (h : d.pwr.req = none) (n : Nat) (accept : Bool) : (dozeAnswer n accept).run d = d := by
  simp only [dozeAnswer, Prog.run_ask, h]
  rfl

section
variable {s : State} {n : Fin 4} {m : Lemow} (ha : s.dev.answers = true) (h4 : s.dev.num .actState n.val = 4)
include ha h4

theorem wake_operating (ht : m.addr.toNat = s.dev.num .actHandle n.val) (hh : s.dev.num .actHandle n.val ≠ 0xFFFF) (hb : m.body = [])
    (hr : s.dev.inRun) : exec (.wake n m) s = .next s := by
  rw [exec_wake, execWake, State.run_eq, live_run ha, lemow_acts (n := n.val), wake_run hr.1 hr.2]
  · exact .inl ⟨rfl, ht, ht ▸ hh⟩
  · exact congrArg List.length hb
  · rfl
  · exact fun hn => nomatch hn
  · exact actIn_of (by simp [h4])

/-- RDI takes the defect's new value and acknowledges it. -/
theorem rdi_acts (h : s.dev.toHandle n.val m 1) {b : Bool} (hb : msgAt m 0 1 = b2n b) : exec (.rdi n m) s = .next { s with
    dev := (ack n.val m 0x0C 0).run ((setDefect n.val 4 b).run s.dev) } := by
  have hbad : decide (1 < msgAt m 0 1) = false := by rw [hb]; cases b <;> rfl
  have hv : (msgAt m 0 1 == 1) = b := by rw [hb]; cases b <;> rfl
  rw [exec_rdi, execRdi, State.run_eq, live_run ha,
    toHandle_acts h (bad := fun _ => _) (legal := fun d => d.actIn n.val [4]) hbad (actIn_of (by simp [h4])), hv]
  rfl

variable (hroom : (s.dev.ch n.val).room m)
include hroom

theorem qualityRequest_run (h : s.dev.toHandle n.val m 0) :
    exec (.qualityRequest n m) s = .next (s.after [answerEff n.val m 0x46 (s.dev.quality n.val)]) := by
  rw [exec_qualityRequest, execQualityRequest, State.run_eq, live_run ha,
    toHandle_acts h (bad := fun _ => false) (legal := fun d => d.actIn n.val [3, 4]) rfl (actIn_of (by simp [h4])), Prog.run_ask,
    answerLemow_run hroom]
  rfl

theorem rdi_same (h : s.dev.toHandle n.val m 1) {b : Bool} (hb : msgAt m 0 1 = b2n b) (hd : s.dev.defect n.val 4 = b) :
    exec (.rdi n m) s = .next (s.after [answerEff n.val m 0x43 [0x0C, 0, 0, 0]]) := by
  rw [rdi_acts ha h4 h hb, setDefect_same hd, ack_run hroom]
  rfl

theorem rdi_changes (h : s.dev.toHandle n.val m 1) {b : Bool} (hb : msgAt m 0 1 = b2n b) (hd : s.dev.defect n.val 4 ≠ b) :
    exec (.rdi n m) s = .next (s.after [.obj .frmDefects n.val 0 (.num (putBit (s.dev.num .frmDefects n.val) 4 b)),
      .raise (128 + 16 * n.val + 13) 0 n.val (top8 4) 0, answerEff n.val m 0x43 [0x0C, 0, 0, 0]]) := by
  rw [rdi_acts ha h4 h hb, setDefect_changes (by decide) hd, ack_run (by exact hroom)]
  rfl

end

/-! ## DOZE_REPLY (R362) -/

/-- The body of a DOZE_REPLY holds no reserved value (Table 12.2): whether it accepts, the frames awake, the cycle and the frame of its start. -/
structure DozeBody (m : Lemow) : Prop where
  answer : beAt m.body 0 1 ≤ 1
  awake : 4 ≤ beAt m.body 1 1 ∧ beAt m.body 1 1 ≤ 32
  cycle : beAt m.body 2 2 % 32 = 0 ∧ 32 ≤ beAt m.body 2 2 ∧ beAt m.body 2 2 ≤ 32768
  start : beAt m.body 4 8 % 2 ^ 51 % beAt m.body 2 2 = 0

/-- What a DOZE_REPLY to an open request does: it is acknowledged, its figures are taken, and an entry into Sleep is told (R115). -/
def dozeTaken (n : Nat) (m : Lemow) : Prog := .all [
  ack n m 0x0D 0,
  if msgAt m 0 1 = 1 then .all [
    putN .actDozeState n 0 2,
    .eff (.fch n fun c => { c with dozeAwake := msgAt m 1 1, dozeCycle := msgAt m 2 2, dozeStart := msgAt m 4 8 % 2 ^ 51 })]
  else putN .actDozeState n 0 0,
  dozeAnswer n (msgAt m 0 1 == 1)]

section
variable {s : State} {n : Fin 4} {m : Lemow} (ha : s.dev.answers = true) (h4 : s.dev.num .actState n.val = 4)
  (h1 : s.dev.num .actDozeState n.val = 1) (hq : s.dev.pwr.req = none) (h : s.dev.toHandle n.val m 12) (hm : DozeBody m)
  (hroom : (s.dev.ch n.val).room m)
include ha h4 h1 h hm

theorem dozeReply_acts : exec (.dozeReply n m) s = .next { s with dev := (dozeTaken n.val m).run s.dev } := by
  obtain ⟨hans, ⟨hlo, hhi⟩, ⟨h32, hcl, hch⟩, hst⟩ := hm
  have hbad : (decide (1 < msgAt m 0 1) || decide (msgAt m 1 1 < 4) || decide (32 < msgAt m 1 1) || msgAt m 2 2 % 32 != 0
      || decide (msgAt m 2 2 < 32) || decide (32768 < msgAt m 2 2) || msgAt m 4 8 % 2 ^ 51 % msgAt m 2 2 != 0) = false := by
    simp only [msgAt_eq, hst, h32, Nat.not_lt.mpr hans, Nat.not_lt.mpr hlo, Nat.not_lt.mpr hhi, Nat.not_lt.mpr hcl, Nat.not_lt.mpr hch]
    rfl
  have hlegal : (s.dev.actIn n.val [4] && s.dev.num .actDozeState n.val == 1) = true := by
    rw [actIn_of (by simp [h4]), h1]
    rfl
  rw [exec_dozeReply, execDozeReply, State.run_eq, live_run ha, toHandle_acts h (bad := fun _ => _)
    (legal := fun d => d.actIn n.val [4] && d.num .actDozeState n.val == 1) hbad hlegal]
  rfl

include hq hroom

theorem dozeReply_refused (h0 : beAt m.body 0 1 = 0) : exec (.dozeReply n m) s =
    .next (s.after [answerEff n.val m 0x43 [0x0D, 0, 0, 0], .obj .actDozeState n.val 0 (.num 0)]) := by
  rw [dozeReply_acts ha h4 h1 h hm, dozeTaken, msgAt_eq, h0, if_neg (by decide), Prog.run_all_cons, ack_run hroom, Prog.run_all_cons, run_putN,
    Prog.run_all_cons, dozeAnswer_idle (by exact hq)]
  rfl

theorem dozeReply_accepted (he : beAt m.body 0 1 = 1) : exec (.dozeReply n m) s = .next (s.after
    [answerEff n.val m 0x43 [0x0D, 0, 0, 0], .obj .actDozeState n.val 0 (.num 2), .fch n.val fun c => { c with
      dozeAwake := beAt m.body 1 1, dozeCycle := beAt m.body 2 2, dozeStart := beAt m.body 4 8 % 2 ^ 51 }]) := by
  rw [dozeReply_acts ha h4 h1 h hm, dozeTaken, msgAt_eq, he, if_pos rfl, Prog.run_all_cons, ack_run hroom, Prog.run_all_cons, Prog.run_all_cons,
    dozeAnswer_idle (by exact hq)]
  rfl

end

/-- Settles O36: every kind is handed over by `lemowIn`, which looks at the address, the length, and what the state admits, in this order. -/
theorem lemowMessages : Obligations.LemowMessages := by
  intro s n m _ ha all h a reply hall hh haddr hreply
  obtain rfl : reply = answerEff n.val m := funext fun code => funext fun body => (hreply code body).trans rfl
  obtain rfl : all = lemowKinds n m := hall
  subst hh haddr
  refine ⟨fun h1 h2 h3 x hx => ?_, fun h x hx => ?_, fun h4 => ⟨fun hm hne hb h3 => ?_, fun hm _ hb => wake_broadcast_ignored ha hm hb h4⟩,
    fun h4 hm hne hi ht => ?_⟩
  · exact (lemowKinds_hands n m x hx).elsewhere ha (addressed_eq_false h1 h2 h3)
  · exact (lemowKinds_hands n m x hx).discarded ha ((addressed_iff _ _ _).mpr h)
  · have hto : s.dev.toHandle n.val m 0 := ⟨hm, hne, congrArg List.length hb⟩
    simp only [List.forall_mem_cons]
    exact ⟨wake_illegal ha hto h4, qualityRequest_illegal ha hto (by simp [h3, h4]), activate_illegal_state ha hto h3,
      List.forall_mem_nil _⟩
  · have hroom : (s.dev.ch n.val).room m := ⟨hi, ht⟩
    refine ⟨fun b hb => ?_, fun hb => qualityRequest_run ha h4 hroom ⟨hm, hne, congrArg List.length hb⟩,
      fun hb => wake_operating ha h4 hm hne hb, fun h1 hq hl ha1 ha2 hc1 hc2 hc3 hst => ?_⟩
    · have hto : s.dev.toHandle n.val m 1 := ⟨hm, hne, congrArg List.length hb⟩
      have hv : msgAt m 0 1 = b2n b := by rw [msgAt_eq, hb]; cases b <;> rfl
      exact ⟨rdi_same ha h4 hroom hto hv, rdi_changes ha h4 hroom hto hv⟩
    · have hto : s.dev.toHandle n.val m 12 := ⟨hm, hne, hl⟩
      exact ⟨fun h0 => dozeReply_refused ha h4 h1 hq hto ⟨by omega, ⟨ha1, ha2⟩, ⟨hc1, hc2, hc3⟩, hst⟩ hroom h0,
        fun he => dozeReply_accepted ha h4 h1 hq hto ⟨by omega, ⟨ha1, ha2⟩, ⟨hc1, hc2, hc3⟩, hst⟩ hroom he⟩

end Sys2Proof.Machine
end

section
/-!
PROOFS shared by what follows: Umani messages on their transports (R140 to R150, R180).
-/
namespace Sys2Proof.Machine

/-! ## Commands that carry a message -/

theorem exec_umaniRead (m : UMsg) (s : State) :
    exec (.umaniRead m) s = s.runIf (m.wf && m.op.toNat == 1) (umaniRun m (umaniRead m)) := rfl
theorem exec_umaniWrite (m : UMsg) (e : Outcomes) (s : State) :
    exec (.umaniWrite m e) s = s.runIf (m.wf && m.op.toNat == 2) (umaniRun m (umaniWrite m e)) := rfl
theorem exec_umaniExecute (m : UMsg) (e : Outcomes) (s : State) :
    exec (.umaniExecute m e) s = s.runIf (m.wf && m.op.toNat == 3) (umaniRun m (umaniExecute s.dev m e)) := rfl
theorem exec_umaniBlockRead (m : UMsg) (s : State) :
    exec (.umaniBlockRead m) s = s.runIf (m.wf && m.op.toNat == 4) (umaniRun m (umaniBlockRead m)) := rfl
theorem exec_umaniBlockWrite (m : UMsg) (s : State) :
    exec (.umaniBlockWrite m) s = s.runIf (m.wf && m.op.toNat == 5) (umaniRun m (umaniBlockWrite m)) := rfl
theorem exec_umaniReservedOperation (m : UMsg) (s : State) : exec (.umaniReservedOperation m) s =
    s.runIf (m.wf && (m.op.toNat == 0 || decide (5 < m.op.toNat))) (umaniRun m (umaniOther m)) := rfl

/-- A command is the one of a message's operation (Table 5.5). -/
def Carries (c : Instr) (m : UMsg) (e : Outcomes) : Prop :=
  (c = .umaniRead m ∧ m.op = 1) ∨ (c = .umaniWrite m e ∧ m.op = 2) ∨ (c = .umaniExecute m e ∧ m.op = 3) ∨
    (c = .umaniBlockRead m ∧ m.op = 4) ∨ (c = .umaniBlockWrite m ∧ m.op = 5) ∨
    (c = .umaniReservedOperation m ∧ (m.op = 0 ∨ 5 < m.op))

/-- The request of a message, by its operation. -/
def msgRun (d0 : Dev) (m : UMsg) (e : Outcomes) : Prog :=
  match m.op.toNat with
  | 1 => umaniRead m
  | 2 => umaniWrite m e
  | 3 => umaniExecute d0 m e
  | 4 => umaniBlockRead m
  | 5 => umaniBlockWrite m
  | _ => umaniOther m

section
variable {d : Dev} {m : UMsg} {e : Outcomes}

theorem msgRun_read (ho : m.op = 1) : msgRun d m e = umaniRead m := by
  rw [msgRun, ho]
  rfl

theorem msgRun_write (ho : m.op = 2) : msgRun d m e = umaniWrite m e := by
  rw [msgRun, ho]
  rfl

theorem msgRun_execute (ho : m.op = 3) : msgRun d m e = umaniExecute d m e := by
  rw [msgRun, ho]
  rfl

theorem msgRun_blockRead (ho : m.op = 4) : msgRun d m e = umaniBlockRead m := by
  rw [msgRun, ho]
  rfl

theorem msgRun_blockWrite (ho : m.op = 5) : msgRun d m e = umaniBlockWrite m := by
  rw [msgRun, ho]
  rfl

theorem op_reserved_iff : (m.op = 0 ∨ 5 < m.op) ↔ (m.op.toNat == 0 || decide (5 < m.op.toNat)) = true := by
  have h0 : m.op = 0 ↔ m.op.toNat = 0 := by bv_omega
  have h5 : 5 < m.op ↔ 5 < m.op.toNat := by bv_omega
  rw [Bool.or_eq_true, beq_iff_eq, decide_eq_true_iff, h0, h5]

theorem msgRun_reserved (ho : m.op = 0 ∨ 5 < m.op) : msgRun d m e = umaniOther m := by
  have hop : m.op.toNat = 0 ∨ 5 < m.op.toNat := by simpa using op_reserved_iff.mp ho
  unfold msgRun
  split
  case h_6 => rfl
  all_goals omega

/-- Every message runs in its transport. -/
theorem Carries.run {c : Instr} (h : Carries c m e) (hw : m.wf = true) (s : State) : exec c s = s.run (umaniRun m (msgRun s.dev m e)) := by
  rcases h with ⟨rfl, ho⟩ | ⟨rfl, ho⟩ | ⟨rfl, ho⟩ | ⟨rfl, ho⟩ | ⟨rfl, ho⟩ | ⟨rfl, ho⟩
  · rw [exec_umaniRead, hw, msgRun_read ho, ho]; rfl
  · rw [exec_umaniWrite, hw, msgRun_write ho, ho]; rfl
  · rw [exec_umaniExecute, hw, msgRun_execute ho, ho]; rfl
  · rw [exec_umaniBlockRead, hw, msgRun_blockRead ho, ho]; rfl
  · rw [exec_umaniBlockWrite, hw, msgRun_blockWrite ho, ho]; rfl
  · rw [exec_umaniReservedOperation, hw, msgRun_reserved ho, op_reserved_iff.mp ho]; rfl

end

/-- A program takes up a message's request before anything else. -/
def Prog.TakesUp (p : Prog) (m : UMsg) : Prop := ∃ (clear : Dev → Bool) (q : Prog), p = arriveIf clear (msgCall m) q

theorem umaniOther_takesUp (m : UMsg) : (umaniOther m).TakesUp m := by
  unfold umaniOther
  split <;> exact ⟨_, _, rfl⟩

/-- An element is served, PWR_STATE_REQUEST in its own order; what is no element goes the common way. -/
theorem msgRun_takesUp (d : Dev) (m : UMsg) (e : Outcomes) : (msgRun d m e).TakesUp m := by
  have hother := umaniOther_takesUp m
  unfold msgRun
  split
  · unfold umaniRead; split; exacts [⟨_, _, rfl⟩, hother]
  · unfold umaniWrite; split; exacts [⟨_, _, rfl⟩, hother]
  · unfold umaniExecute; split; exacts [⟨_, _, rfl⟩, ⟨_, _, rfl⟩, hother]
  · unfold umaniBlockRead; split; exacts [⟨_, _, rfl⟩, hother]
  · unfold umaniBlockWrite; split; exacts [⟨_, _, rfl⟩, hother]
  · exact hother

/-! ## Transports -/

/-- A path whose transport hands over every message while the device answers: all but the mailboxes and rings of a host. -/
def UPathPlain (p : UPath) : Prop := p = .serial ∨ (∃ n z, p = .inband n z) ∨ (∃ n z, p = .mband n z)

theorem transport_plain {d : Dev} {p : UPath} (hp : UPathPlain p) (ha : d.answers = true) (q : Prog) : (transport p q).run d = q.run d := by
  rcases hp with rfl | ⟨n, z, rfl⟩ | ⟨n, z, rfl⟩ <;> simp [transport, ha]

theorem transport_ring {d : Dev} {r : Fin 4096} (h : d.brings (.ring r)) (q : Prog) : (transport (.ring r) q).run d = q.run d := by
  obtain ⟨x, rest, hx, hk, hl, hb, hf⟩ := h
  simp [transport, hx, hk, hl, hb, hf]

theorem transport_mailbox {d : Dev} {l : Fin 4} {f : Fin 64} {n : Fin 16} (h : d.brings (.mailbox l f n)) (hr : d.inRun) (q : Prog) :
    (transport (.mailbox l f n) q).run d = q.run d := by
  obtain ⟨hreach, hopen, hn, hbusy⟩ := h
  rw [transport, barWrite_open hr hreach hopen]
  simp [hn, hbusy]

/-- In the Run state a message that its transport brings goes on. -/
theorem transport_run {d : Dev} {p : UPath} (h : d.brings p) (hr : d.inRun) (q : Prog) : (transport p q).run d = q.run d := by
  cases p with
  | mailbox l f n => exact transport_mailbox h hr q
  | ring r => exact transport_ring h q
  | inband n z => exact transport_plain (.inr (.inl ⟨n, z, rfl⟩)) h q
  | mband n z => exact transport_plain (.inr (.inr ⟨n, z, rfl⟩)) h q
  | serial => exact transport_plain (.inl rfl) h q
  | internal =>
    have ha : d.answers = true := h
    simp [transport, ha]

theorem umaniRun_faulty {d : Dev} {m : UMsg} (ht : ∀ q, (transport m.o.path q).run d = q.run d) (hf : d.msgFaulty m = true) (q : Prog) :
    (umaniRun m q).run d = (discardMsg m.o.path).run d := by
  simp [umaniRun, ht, hf]

theorem umaniRun_sound {d : Dev} {m : UMsg} (ht : ∀ q, (transport m.o.path q).run d = q.run d) (hf : d.msgFaulty m = false) (q : Prog) :
    (umaniRun m q).run d = q.run d := by
  simp [umaniRun, ht, hf]

/-- A sound message comes out of its transport in the Run state. -/
structure Brought (d : Dev) (m : UMsg) : Prop where
  brings : d.brings m.o.path
  run : d.inRun
  sound : d.msgFaulty m = false

theorem hears_inRun {d : Dev} {c : Call} (h : d.hears c) : d.inRun := ⟨h.2.1, h.2.2.1⟩

section
variable {s : State} {m : UMsg} (hm : Brought s.dev m)
include hm

theorem Brought.run_msg (q : Prog) : s.run (umaniRun m q) = s.run q := by
  rw [State.run_eq, State.run_eq, umaniRun_sound (transport_run hm.brings hm.run) hm.sound]

theorem Brought.runIf_msg {ok : Bool} (hok : ok = true) (q : Prog) : s.runIf ok (umaniRun m q) = s.run q := by
  rw [hok]
  exact hm.run_msg q

end

/-! ## A mailbox slot is submitted (R180) -/

/-- Bytes enter a mailbox slot. -/
def slotFill (d : Dev) (k n : Nat) (b : List Byte) : Eff :=
  .fn k fun y => { y with resp := SMap.put [] n (patch (d.slotBytes k n) 0 b) y.resp }

/-- The state once a submission's bytes, if there are any and they arrive, have entered the slot. -/
def State.slotFilled (s : State) (l : Fin 4) (f : Fin 64) (n : Fin 16) (b : List Byte) : State :=
  if b = [] ∨ s.dev.reaches l.val f.val = false ∨ s.dev.hostClosed l.val f.val = true then s
  else s.after [slotFill s.dev (fnKey l.val f.val) n.val b]

/-- The message that a submission leaves in the slot. -/
def Dev.slotText (d : Dev) (l : Fin 4) (f : Fin 64) (n : Fin 16) (b : List Byte) : List Byte :=
  if b = [] then d.slotBytes (fnKey l.val f.val) n.val else b

section
variable (s : State) (l : Fin 4) (f : Fin 64) (n : Fin 16) (b : List Byte) (e : Outcomes)

theorem mbxSubmit_run : exec (.mbxSubmit l f n b e) s = (s.slotFilled l f n b).run
    (umaniRun (slotMsg (.mailbox l f n) (s.dev.slotText l f n b)) (msgRun s.dev (slotMsg (.mailbox l f n) (s.dev.slotText l f n b)) e)) := by
  have hx : exec (.mbxSubmit l f n b e) s = execMbxSubmit l f n b e s := rfl
  have htext : (if b.isEmpty = true then s.dev.slotBytes (fnKey l.val f.val) n.val else b) = s.dev.slotText l f n b := by
    simp only [Dev.slotText, List.isEmpty_iff]
  have hfill : (Prog.when (!b.isEmpty && s.dev.reaches l.val f.val && !s.dev.hostClosed l.val f.val)
      [slotWrite (fnKey l.val f.val) n.val 0 b]).run s.dev = (s.slotFilled l f n b).dev := by
    unfold State.slotFilled
    split
    · rename_i h
      have : (!b.isEmpty && s.dev.reaches l.val f.val && !s.dev.hostClosed l.val f.val) = false := by
        rcases h with rfl | h | h <;> simp [*]
      rw [this]
      rfl
    · rename_i h
      simp only [not_or, Bool.not_eq_false, Bool.not_eq_true] at h
      obtain ⟨hb, hr, ho⟩ := h
      have : (!b.isEmpty && s.dev.reaches l.val f.val && !s.dev.hostClosed l.val f.val) = true := by simp [hb, hr, ho]
      rw [this]
      rfl
  have hq : (s.slotFilled l f n b).pending = s.pending := by
    unfold State.slotFilled
    split <;> rfl
  rw [hx, execMbxSubmit, State.run_eq, State.run_eq, Prog.run_all_cons, hfill, htext, hq]
  rfl

variable {s l f n b}

theorem slotFilled_written (hr : s.dev.reaches l.val f.val = true) (ho : s.dev.hostClosed l.val f.val = false) :
    s.slotFilled l f n b = s.after (if b = [] then [] else [slotFill s.dev (fnKey l.val f.val) n.val b]) := by
  unfold State.slotFilled
  by_cases hb : b = [] <;> simp [hb, hr, ho, State.after]

theorem slotFilled_inv (hs : s.Inv) : (s.slotFilled l f n b).Inv := by
  unfold State.slotFilled
  split
  · exact hs
  · exact ⟨after_canonical _ hs.1, after_bounded _ hs.2⟩

/-- The bytes of a submission change nothing that its transport looks at. -/
theorem slotFilled_brings (hs : s.Inv) (h : s.dev.brings (.mailbox l f n)) : (s.slotFilled l f n b).dev.brings (.mailbox l f n) := by
  unfold State.slotFilled
  split
  · exact h
  · obtain ⟨hr, ho, hn, hb⟩ := h
    refine ⟨hr, ho, hn, ?_⟩
    have hf : ((s.after [slotFill s.dev (fnKey l.val f.val) n.val b]).dev.fn (fnKey l.val f.val)).busy = (s.dev.fn (fnKey l.val f.val)).busy :=
      by simp only [State.after, Dev.after_cons, Dev.after_nil, slotFill, fn_fn hs.1]
    rw [hf, hb]

theorem slotFilled_inRun (h : s.dev.inRun) : (s.slotFilled l f n b).dev.inRun := by
  unfold State.slotFilled
  split
  · exact h
  · exact h

end

end Sys2Proof.Machine
end

section
/-!
PROOFS of faulty and repeated messages and of the local serial port (O14).
-/
namespace Sys2Proof.Machine

/-! ## Discards (R143, R181) -/

/-- A message whose length, direction or check is at fault, on a path that says how many bytes it delivered (R143). -/
def Dev.Faulty (d : Dev) (m : UMsg) : Prop :=
  m.delivered < 16 ∨ pathMax m.o.path < m.delivered ∨ m.response = true ∨ m.checkOk = false ∨
    (m.o.path = .serial ∧ m.pec.toNat ≠ crc8 (BitVec.ofNat 8 d.i2cAddr :: msgBytes m)) ∨
    (m.op.toNat = 4 ∧ m.delivered ≠ 16) ∨ (m.op.toNat ≠ 4 ∧ m.delivered ≠ 16 + m.length.toNat)

theorem msgFaulty_of_faulty {d : Dev} {m : UMsg} (hp : UPathPlain m.o.path) (h : d.Faulty m) : d.msgFaulty m = true := by
  have hlen : (m.op.toNat = 4 ∧ m.delivered ≠ 16) ∨ (m.op.toNat ≠ 4 ∧ m.delivered ≠ 16 + m.length.toNat) →
      (m.delivered != if m.op.toNat = 4 then 16 else 16 + m.length.toNat) = true := by
    rintro (⟨h4, h⟩ | ⟨h4, h⟩)
    · simpa [h4] using h
    · simpa [h4] using h
  have hmatch : d.msgFaulty m = (decide (m.delivered < 16) || decide (pathMax m.o.path < m.delivered) || m.response || d.checkFails m ||
      m.delivered != if m.op.toNat = 4 then 16 else 16 + m.length.toNat) := by
    rcases hp with hp | ⟨n, z, hp⟩ | ⟨n, z, hp⟩ <;> simp only [Dev.msgFaulty, hp]
  rw [hmatch]
  rcases h with h | h | h | h | ⟨h, h'⟩ | h
  · simp [h]
  · simp [h]
  · simp [h]
  · simp [Dev.checkFails, h]
  · simp [Dev.checkFails, h, h']
  · simp [hlen h]

theorem faulty_discarded {s : State} {m : UMsg} {e : Outcomes} {c : Instr} (hc : Carries c m e) (hw : m.wf = true)
    (hp : UPathPlain m.o.path) (ha : s.dev.answers = true) (h : s.dev.Faulty m) :
    exec c s = .next (s.after [.count .umaniDiscards 0 0 1]) := by
  rw [hc.run hw, State.run_eq, umaniRun_faulty (transport_plain hp ha) (msgFaulty_of_faulty hp h)]
  rcases hp with hp | ⟨n, z, hp⟩ | ⟨n, z, hp⟩ <;> rw [hp] <;> rfl

/-- A slot's message that is itself a response, or longer than the slot, is at fault. -/
theorem slotMsg_faulty {d : Dev} {l : Fin 4} {f : Fin 64} {n : Fin 16} {w : List Byte}
    (h : bitOf (leNat (padTo 1 (slice w 7 1))) 3 = true ∨ 4080 < leNat (padTo 2 (slice w 10 2))) :
    d.msgFaulty (slotMsg (.mailbox l f n) w) = true := by
  rcases h with h | h
  · have hr : (slotMsg (.mailbox l f n) w).response = true := h
    simp [Dev.msgFaulty, hr]
  · have hd : decide (pathMax (slotMsg (.mailbox l f n) w).o.path < (slotMsg (.mailbox l f n) w).delivered) = true :=
      decide_eq_true (show 4096 < 16 + leNat (padTo 2 (slice w 10 2)) by omega)
    simp only [Dev.msgFaulty, hd, Bool.or_true, Bool.true_or]

theorem slot_discarded {s : State} {l : Fin 4} {f : Fin 64} {n : Fin 16} {b : List Byte} (e : Outcomes) (hs : s.Inv)
    (hb : s.dev.brings (.mailbox l f n)) (hr : s.dev.inRun)
    (h : bitOf (leNat (padTo 1 (slice (s.dev.slotText l f n b) 7 1))) 3 = true ∨ 4080 < leNat (padTo 2 (slice (s.dev.slotText l f n b) 10 2))) :
    exec (.mbxSubmit l f n b e) s = .next (s.after ((if b = [] then [] else [slotFill s.dev (fnKey l.val f.val) n.val b]) ++
      [.fn (fnKey l.val f.val) fun y => { y with busy := putBit y.busy n.val false, done := putBit y.done n.val false },
       .count .umaniDiscards 0 0 1])) := by
  have hfill := slotFilled_written (b := b) (n := n) hb.1 hb.2.1
  rw [mbxSubmit_run, State.run_eq,
    umaniRun_faulty (m := slotMsg (.mailbox l f n) _) (transport_run (slotFilled_brings hs hb) (slotFilled_inRun hr)) (slotMsg_faulty h),
    hfill]
  simp only [State.after, after_append]
  rfl

/-! ## Repeats (R146) -/

section
variable {d : Dev} {c : Call} {clear : Dev → Bool} {p : Prog} (ha : d.answers = true)
include ha

/-- A repeat of an answered request: the kept response goes out again where the repeat came. -/
theorem arriveIf_answered {x : Resp} (hb : ∀ y ∈ (d.path c.o.path).busy, y.o.seq ≠ c.o.seq)
    (hx : (d.path c.o.path).sent.find? (fun y => y.call.o.seq = c.o.seq) = some x) : (arriveIf clear c p).run d =
      (wake 3).run ((deliver { x with call := { x.call with o := c.o } }).run
        ((Eff.count .umaniDuplicates 0 0 1).apply ((slotTaken c.o.path true).run d))) := by
  have h2 : (d.path c.o.path).busy.any (fun x => decide (x.o.seq = c.o.seq)) = false := by simpa using hb
  have h4 : (d.path c.o.path).busy.contains c = false := by
    rw [List.contains_eq_any_beq, List.any_eq_false]
    intro y hy he
    exact hb y hy (by rw [← eq_of_beq he])
  simp only [arriveIf, Prog.run_ask, ha, h2, h4, hx]
  simp

/-- A repeat of a request in progress is counted. -/
theorem arriveIf_in_progress (hb : ∃ y ∈ (d.path c.o.path).busy, y.o.seq = c.o.seq) (hh : d.clk.held.contains c = false) :
    (arriveIf clear c p).run d = (wake 3).run ((Eff.count .umaniDuplicates 0 0 1).apply ((slotTaken c.o.path false).run d)) := by
  have h2 : (d.path c.o.path).busy.any (fun x => decide (x.o.seq = c.o.seq)) = true := by simpa using hb
  simp only [arriveIf, Prog.run_ask, ha, h2, hh]
  simp

end

theorem count_inRun {d : Dev} {o : Obj} {i j n : Nat} (h0 : o.dflt i j = .num 0) (hw : 0 < o.width) (hn : 0 < n)
    (hk : Obj.pwrState.key 0 0 ≠ o.key i j) (h : d.inRun) : ((Eff.count o i j n).apply d).inRun :=
  ⟨(congrArg Val.n (get_count_other h0 hw hn hk)).trans h.1, h.2⟩

theorem duplicates_inRun {d : Dev} (h : d.inRun) : ((Eff.count .umaniDuplicates 0 0 1).apply d).inRun :=
  count_inRun rfl (by decide) (by decide) (by decide) h

theorem txEnqueue_inRun {d : Dev} (n : Fin 4) (p : TxPkt) (h : d.inRun) : ((txEnqueue n.val p).run d).inRun := by
  simp only [txEnqueue, Prog.run_ask]
  split
  · exact h
  · exact count_inRun (o := .mgtTxDrops) (i := n.val) (j := 0) rfl (by decide) (by decide) (by clear * -; revert n; decide) h

/-- The response on the serial path or the management band leaves the power state. -/
theorem deliver_inRun {d : Dev} {x : Resp} (hp : x.call.o.path = .serial ∨ ∃ n z, x.call.o.path = .mband n z) (h : d.inRun) :
    ((deliver x).run d).inRun := by
  rcases hp with hp | ⟨n, z, hp⟩
  · simp only [deliver, hp]
    exact h
  · simp only [deliver, hp]
    exact txEnqueue_inRun n _ h

theorem slotTaken_off {p : UPath} (hp : p = .serial ∨ ∃ n z, p = .mband n z) (b : Bool) (d : Dev) : (slotTaken p b).run d = d := by
  rcases hp with rfl | ⟨n, z, rfl⟩ <;> rfl

section
variable {s : State} {m : UMsg} {e : Outcomes} {c : Instr} (hc : Carries c m e) (hw : m.wf = true) (ha : s.dev.answers = true)
  (hf : s.dev.msgFaulty m = false) (hp : m.o.path = .serial ∨ ∃ n z, m.o.path = .mband n z)
include hc hw ha hf hp

/-- A sound message comes to its request's arrival. -/
theorem Carries.arrives : ∃ (clear : Dev → Bool) (q : Prog), exec c s = .next { s with dev := (arriveIf clear (msgCall m) q).run s.dev } := by
  obtain ⟨clear, q, htake⟩ := msgRun_takesUp s.dev m e
  exact ⟨clear, q, by rw [hc.run hw, State.run_eq, umaniRun_sound (transport_plain (hp.imp_right .inr) ha) hf, htake]⟩

variable (hr : s.dev.inRun)
include hr

theorem repeat_answered {r : Resp} (hb : ∀ y ∈ (s.dev.path m.o.path).busy, y.o.seq ≠ m.o.seq)
    (hx : (s.dev.path m.o.path).sent.find? (fun y => y.call.o.seq = m.o.seq) = some r) : exec c s = .next
      { s with dev := (deliver { r with call := { r.call with o := m.o } }).run (s.dev.after [.count .umaniDuplicates 0 0 1]) } := by
  obtain ⟨clear, q, hrun⟩ := hc.arrives hw ha hf hp
  have hrun' := deliver_inRun (x := { r with call := { r.call with o := m.o } }) hp (duplicates_inRun hr)
  rw [hrun, arriveIf_answered (c := msgCall m) ha hb hx]
  dsimp only [msgCall]
  rw [slotTaken_off hp, wake_run hrun'.1 hrun'.2]
  rfl

theorem repeat_in_progress (hb : ∃ y ∈ (s.dev.path m.o.path).busy, y.o.seq = m.o.seq) (hh : s.dev.clk.held.contains (msgCall m) = false) :
    exec c s = .next (s.after [.count .umaniDuplicates 0 0 1]) := by
  obtain ⟨clear, q, hrun⟩ := hc.arrives hw ha hf hp
  have hrun' := duplicates_inRun hr
  rw [hrun, arriveIf_in_progress (c := msgCall m) ha hb hh]
  dsimp only [msgCall]
  rw [slotTaken_off hp, wake_run hrun'.1 hrun'.2]
  rfl

end

/-! ## The responses kept, and the serial port (R146, R150) -/

/-- A response on the serial path is kept first among the last 16 and waits to be read. -/
theorem respondWith_serial {d : Dev} {r : Resp} (hw : SMap.wf UPathSt.none d.um = true) (hb : r.call ∈ (d.path r.call.o.path).busy)
    (hp : r.call.o.path = .serial) : (((respondWith r).run d).path .serial).sent = r :: (d.path .serial).sent.take 15 ∧
      ((respondWith r).run d).i2c = d.i2c ++ [r] := by
  have hin : (d.path r.call.o.path).busy.contains r.call = true := List.contains_iff_mem.mpr hb
  rw [hp] at hin
  simp only [respondWith, Prog.run_ask, hp, hin, Prog.when_true, Prog.run_all_cons, deliver]
  refine ⟨?_, rfl⟩
  exact congrArg UPathSt.sent (SMap.get_put_same (b := 0) _ _ _ hw)

theorem i2cResponseRead_run {s : State} (ha : s.dev.answers = true) {r : Resp} {rest : List Resp} (hi : s.dev.i2c = r :: rest) :
    exec .i2cResponseRead s = .next (s.after
      [.out ⟨.response, pathKey .serial, 0, 1 :: respBytes r ++ [BitVec.ofNat 8 (crc8 (s.dev.i2cRead :: 1 :: respBytes r))]⟩,
       .i2c fun _ => rest, .um (pathKey .serial) fun u => { u with busy := u.busy.erase r.call }]) := by
  have hx : exec .i2cResponseRead s = execI2cResponseRead s := rfl
  rw [hx, execI2cResponseRead, State.run_eq, Prog.run_ask, ha, hi]
  rfl

theorem i2cResponseRead_idle {s : State} (ha : s.dev.answers = true) (hi : s.dev.i2c = []) : exec .i2cResponseRead s =
    .next (s.after [.out ⟨.response, pathKey .serial, 0, [0, BitVec.ofNat 8 (crc8 [s.dev.i2cRead, 0])]⟩]) := by
  have hx : exec .i2cResponseRead s = execI2cResponseRead s := rfl
  rw [hx, execI2cResponseRead, State.run_eq, Prog.run_ask, ha, hi]
  rfl

/-- Settles O14: a message is looked at in its transport, then for its faults, then at its arrival for a repeat. -/
theorem discardsAndRepeats : Obligations.DiscardsAndRepeats := by
  refine ⟨fun s m e c ha hw hp hf hc => faulty_discarded hc hw hp ha hf, fun s l f n b w e hs hb hr hw h => ?_,
    fun s m e c ha hr hw hf hp hc => ⟨fun r => repeat_answered hc hw ha hf hp hr, repeat_in_progress hc hw ha hf hp hr⟩,
    fun d r => respondWith_serial, fun s r rest ha => i2cResponseRead_run ha, fun s ha => i2cResponseRead_idle ha⟩
  subst hw
  exact slot_discarded e hs hb hr h

end Sys2Proof.Machine
end

section
/-!
PROOFS of Umani's operations (O15): reads, writes, executes and reserved operations, and the submission of a mailbox slot.
-/
namespace Sys2Proof.Machine

/-! ## Reads (R139) -/

/-- What an object reads as does not change with a request's arrival. -/
@[simp] theorem Dev.taken_readVal (d : Dev) (c : Call) (p : UPath) (x : Obj) (i j : Nat) : (d.taken c).readVal p x i j = d.readVal p x i j := by
  cases x <;> rfl

theorem readBeh_plain {p : UPath} {code : Nat} {x : Obj} {i j : Nat} (h1 : x ≠ .rstCauseSticky) (h2 : x ≠ .secChallenge)
    (h3 : x ≠ .portMacCounters) : readBeh p code x i j = .read p x i j := by
  unfold readBeh
  split
  · exact absurd rfl h1
  · exact absurd rfl h2
  · exact absurd rfl h3
  · rfl

section
variable {s : State} {m : UMsg} {x : Obj} {i j : Nat} (hs : s.Inv) (ht : msgTgt m = .elem x i j)
include hs ht

theorem read_served (h1 : x ≠ .rstCauseSticky) (h2 : x ≠ .secChallenge) (h3 : x ≠ .portMacCounters)
    (h : s.dev.admits ⟨msgCall m, .elem x i j, msgPlain m && m.length == 0, .num 0⟩) : s.run (umaniRead m) =
      .next (s.served (msgCall m) [] (valBytes m.o.path x.row.ty (s.dev.readVal m.o.path x i j))) := by
  simp only [umaniRead, ht, readBeh_plain h1 h2 h3]
  rw [served_done (es := []) hs h rfl rfl rfl rfl, Dev.taken_readVal]

end

/-! ## Writes -/

theorem exec_dictObjectWrite {o : Origin} {idx : BitVec 16} {sub : BitVec 8} {x : Obj} {i j : Nat} (ht : target idx.toNat sub.toNat = .elem x i j)
    (v : Val) (b : Bool) (s : State) : exec (.dictObjectWrite o idx sub v b) s =
      s.run (serve ⟨⟨o, 2, idx.toNat, sub.toNat⟩, .elem x i j, true, v⟩ (writeBeh ⟨o, 2, idx.toNat, sub.toNat⟩ o.code.toNat b x i j v)) := by
  have hx : exec (.dictObjectWrite o idx sub v b) s = execDictObjectWrite o idx sub v b s := rfl
  rw [hx, execDictObjectWrite]
  simp only [ht]

section
variable {m : UMsg} {x : Obj} {i j : Nat} (ht : msgTgt m = .elem x i j)
include ht

theorem umaniWrite_elem {v : Val} (hv : dataVal m.o.path x.row.ty m.data = some v) (e : Outcomes) : umaniWrite m e =
    serve ⟨msgCall m, .elem x i j, msgPlain m, v⟩ (writeBeh (msgCall m) m.o.code.toNat e.acked x i j v) := by
  simp only [umaniWrite, ht, hv, Option.isSome_some, Option.getD_some, Bool.and_true]

/-- A write of an object that only stores, in its range and its state. -/
theorem write_stored {s : State} (hs : s.Inv) {v : Val} (hv : dataVal m.o.path x.row.ty m.data = some v) (e : Outcomes)
    (hb : writeBeh (msgCall m) m.o.code.toNat e.acked x i j v = storeBeh x i j v)
    (h : s.dev.admits ⟨msgCall m, .elem x i j, msgPlain m, v⟩) (hr : ownRange x j v (s.dev.taken (msgCall m)) = true)
    (hst : ownState x j v (s.dev.taken (msgCall m)) = true) :
    s.run (umaniWrite m e) = .next (s.served (msgCall m) [.obj x i j (keptValue x v)] []) := by
  rw [umaniWrite_elem ht hv, hb]
  exact served_done hs h (if_pos hr) (if_pos hst) rfl rfl

/-- A plain write has the effect of DICT_OBJECT_WRITE. -/
theorem write_is_row {s : State} {v : Val} (ho : m.op = 2) (hp : msgPlain m = true) (hv : dataVal m.o.path x.row.ty m.data = some v)
    (e : Outcomes) : s.run (umaniWrite m e) = exec (.dictObjectWrite m.o m.index m.sub v e.acked) s := by
  have hc : msgCall m = ⟨m.o, 2, m.index.toNat, m.sub.toNat⟩ := by rw [msgCall, ho]; rfl
  rw [umaniWrite_elem ht hv, exec_dictObjectWrite ht, hp, hc]

end

/-! ## Executes -/

theorem pathData_least (p : UPath) : 240 ≤ pathData p := by
  cases p <;> simp [pathData, pathMax]

/-- The argument of a command counts for the checks by its length alone, and every path carries 240 bytes. -/
theorem early_argument {d : Dev} {c : Call} {x : Obj} {i j : Nat} {form : Bool} {v w : Val} (ho : c.op = 3) (hv : v.b.length ≤ 240)
    (hw : w.b.length ≤ 240) : d.early ⟨c, .elem x i j, form, v⟩ = d.early ⟨c, .elem x i j, form, w⟩ := by
  have hfits (v : Val) (h : v.b.length ≤ 240) : ¬pathData c.o.path < v.b.length := Nat.not_lt.mpr (h.trans (pathData_least _))
  simp [Dev.early, Dev.formAbort, rangeAbort, ho, hfits v hv, hfits w hw]

theorem serve_argument {c : Call} {x : Obj} {i j : Nat} {form : Bool} {v w : Val} (ho : c.op = 3) (hv : v.b.length ≤ 240)
    (hw : w.b.length ≤ 240) (b : Beh) : serve ⟨c, .elem x i j, form, v⟩ b = serve ⟨c, .elem x i j, form, w⟩ b := by
  have hl (d : Dev) : d.later ⟨c, .elem x i j, form, v⟩ = d.later ⟨c, .elem x i j, form, w⟩ := rfl
  simp only [serve, Dev.refusal, Dev.ownRefusal, early_argument ho hv hw, hl]

/-- A plain execute of a command at (0, 0) is the request of the command's own row. -/
theorem execute_is_row {d : Dev} {m : UMsg} {e : Outcomes} {x : Obj} {b : Beh} (ho : m.op = 3) (hp : msgPlain m = true)
    (ht : msgTgt m = .elem x 0 0) (hx : x ≠ .pwrStateRequest) (hi : m.index.toNat = x.index 0 0) (hj : m.sub.toNat = x.subOf 0)
    (hl : m.data.length ≤ 240) (hb : execBeh ⟨m.o, 3, x.index 0 0, x.subOf 0⟩ m.o.code.toNat e x 0 m.data = (true, b)) {arg : Val}
    (ha : arg.b.length ≤ 240) : umaniExecute d m e = serve (execReq m.o x 0 0 true arg) b := by
  have hc : msgCall m = ⟨m.o, 3, x.index 0 0, x.subOf 0⟩ := by rw [msgCall, ho, hi, hj]; rfl
  have hexec : umaniExecute d m e = serve ⟨msgCall m, .elem x 0 0, msgPlain m && (execBeh (msgCall m) m.o.code.toNat e x 0 m.data).1, .oct m.data⟩
      (execBeh (msgCall m) m.o.code.toNat e x 0 m.data).2 := by
    unfold umaniExecute
    rw [ht]
    split
    · rename_i h
      injection h with h
      exact absurd h hx
    · rename_i h
      injection h with h1 h2 h3
      subst h1 h2 h3
      rfl
    · rename_i h
      exact absurd rfl (h x 0 0)
  rw [hexec, hc, hb, hp]
  exact serve_argument (v := .oct m.data) rfl hl ha b

theorem argNum_byte (p : UPath) (g : BitVec 8) : argNum p [g] = g.toNat := by
  unfold argNum
  split <;> simp [leNat, beNat]

section
variable {s : State} {m : UMsg} (e : Outcomes) (ho : m.op = 3) (hp : msgPlain m = true)
include ho hp

theorem execute_rstDevice (hi : m.index = 0x2010) (hj : m.sub = 5) (hd : m.data = []) :
    s.run (umaniExecute s.dev m e) = exec (.rstDevice m.o) s := by
  have ht : msgTgt m = .elem .rstDevice 0 0 := by rw [msgTgt, hi, hj]; decide +kernel
  rw [execute_is_row ho hp ht (by decide) (by rw [hi]; rfl) (by rw [hj]; rfl) (by simp [hd]) (by rw [hd]; rfl) (arg := .oct []) (Nat.zero_le _)]
  rfl

theorem execute_groupClaim {g : BitVec 8} (hi : m.index = 0x1101) (hj : m.sub = 1) (hd : m.data = [g]) :
    s.run (umaniExecute s.dev m e) = exec (.dictGroupClaim m.o g) s := by
  have ht : msgTgt m = .elem .dictGroupClaim 0 0 := by rw [msgTgt, hi, hj]; decide +kernel
  rw [execute_is_row ho hp ht (by decide) (by rw [hi]; rfl) (by rw [hj]; rfl) (by simp [hd])
    (by rw [hd]; exact congrArg (fun v => (true, groupClaimBeh m.o.code.toNat v)) (argNum_byte m.o.path g)) (arg := .num g.toNat) (Nat.zero_le _)]
  rfl

theorem execute_timeAdjust {v : BitVec 64} (hi : m.index = 0x9800) (hj : m.sub = 6) (hd : m.data.length = 8)
    (hv : argNum m.o.path m.data = v.toNat) : s.run (umaniExecute s.dev m e) = exec (.timeAdjust m.o v) s := by
  have ht : msgTgt m = .elem .timeAdjust 0 0 := by rw [msgTgt, hi, hj]; decide +kernel
  rw [execute_is_row ho hp ht (by decide) (by rw [hi]; rfl) (by rw [hj]; rfl) (by simp [hd])
    (by simp only [execBeh, hv, hd]; rfl) (arg := .num v.toNat) (Nat.zero_le _)]
  rfl

end

/-! ## Reserved operations (R141, R152) -/

theorem reserved_refused {s : State} {m : UMsg} {x : Obj} {i j : Nat} (ho : m.op = 0 ∨ 5 < m.op) (ht : msgTgt m = .elem x i j)
    (h : s.dev.hears (msgCall m)) : s.run (umaniOther m) = .next (s.refusedWith (msgCall m) [] 0x0301) := by
  have hop : m.op.toNat = 0 ∨ 5 < m.op.toNat := by simpa using op_reserved_iff.mp ho
  have hother : umaniOther m = serve ⟨msgCall m, .elem x i j, msgPlain m, .num 0⟩ (.plain fun _ => .done .skip []) := by
    simp only [umaniOther, ht]
  have he : (s.dev.taken (msgCall m)).refusal ⟨msgCall m, .elem x i j, msgPlain m, .num 0⟩ (.plain fun _ => .done .skip []) = 0x0301 := by
    have hearly : (s.dev.taken (msgCall m)).early ⟨msgCall m, .elem x i j, msgPlain m, .num 0⟩ = 0x0301 := if_pos hop
    rw [Dev.refusal, hearly]
    rfl
  rw [hother, State.run_eq, serve_abort h he (by decide)]
  rfl

/-- Settles O15: a message that its transport brings runs its request, which is served as its object's behaviour says. -/
theorem messagesServed : Obligations.MessagesServed := by
  refine ⟨fun s m hs hw hb hf => ⟨fun x i j ho ht h1 h2 h3 h => ?_, fun x i j v e ho ht hv hbeh h hr hst => ?_,
    fun x i j v e ho ht hv hp h0 hq => ?_, fun e ho hp h0 hq => ?_, fun x i j ho ht h => ?_⟩, fun s t l f n b e m hm htt => ?_⟩
  · rw [exec_umaniRead, Brought.runIf_msg ⟨hb, hears_inRun h.1, hf⟩ (by rw [hw, ho]; rfl)]
    exact read_served hs ht h1 h2 h3 h
  · rw [exec_umaniWrite, Brought.runIf_msg ⟨hb, hears_inRun h.1, hf⟩ (by rw [hw, ho]; rfl)]
    exact write_stored ht hs hv e hbeh h hr hst
  · rw [exec_umaniWrite, Brought.runIf_msg ⟨hb, ⟨h0, hq⟩, hf⟩ (by rw [hw, ho]; rfl)]
    exact write_is_row ht ho hp hv e
  · have hrun : exec (.umaniExecute m e) s = s.run (umaniExecute s.dev m e) := by
      rw [exec_umaniExecute, Brought.runIf_msg ⟨hb, ⟨h0, hq⟩, hf⟩ (by rw [hw, ho]; rfl)]
    refine ⟨fun hi hj hd h => ?_, fun g hi hj hd => hrun.trans (execute_groupClaim e ho hp hi hj hd),
      fun v hi hj hd hv => hrun.trans (execute_timeAdjust e ho hp hi hj hd hv)⟩
    have hrow := hrun.trans (execute_rstDevice e ho hp hi hj hd)
    exact ⟨hrow, hrow.trans (rstDevice_served hs h)⟩
  · rw [exec_umaniReservedOperation, Brought.runIf_msg ⟨hb, hears_inRun h, hf⟩ (by rw [hw, op_reserved_iff.mp ho]; rfl)]
    exact reserved_refused ho ht h
  · have hsub : exec (.mbxSubmit l f n b e) s = t.run (umaniRun m (msgRun s.dev m e)) := by
      subst hm htt
      exact mbxSubmit_run s l f n b e
    have hpath : m.o.path = .mailbox l f n := by rw [hm]; rfl
    rw [hsub]
    refine ⟨fun ho => by rw [msgRun_read ho], fun ho => by rw [msgRun_write ho], fun ho => by rw [msgRun_execute ho],
      fun x i j ht hb hf ho htgt h1 h2 h3 h => ?_⟩
    rw [Brought.run_msg ⟨hpath ▸ hb, hears_inRun h.1, hf⟩, msgRun_read ho]
    exact read_served ht htgt h1 h2 h3 h

end Sys2Proof.Machine
end

section
/-!
PROOFS of block transfers (O16).
-/
namespace Sys2Proof.Machine

theorem exec_blockWriteAbandon (idx : BitVec 16) (sub : BitVec 8) (s : State) :
    exec (.blockWriteAbandon idx sub) s = execBlockWriteAbandon idx sub s := rfl
theorem exec_blockReadCopyRelease (idx : BitVec 16) (sub : BitVec 8) (code : BitVec 16) (s : State) :
    exec (.blockReadCopyRelease idx sub code) s = execBlockReadCopyRelease idx sub code s := rfl

/-! ## Requests that note a refusal, and answers with a segment -/

/-- A refusal by an object's own checks, with what the object notes of it. -/
theorem served_refused {s : State} {r : Req} {b : Beh} {a : Nat} {es : List Eff} (h : s.dev.admits r) (ha : a ≠ 0)
    (hp : b.pre (s.dev.taken r.call) = a ∨ b.pre (s.dev.taken r.call) = 0 ∧ b.state (s.dev.taken r.call) = a)
    (hn : (b.note (s.dev.taken r.call) true a).run (s.dev.taken r.call) = (s.dev.taken r.call).after es) :
    s.run (serve r b) = .next (s.refusedWith r.call es a) := by
  obtain ⟨h1, he, hl⟩ := h
  have href : (s.dev.taken r.call).refusal r b = a := by
    rcases hp with hp | ⟨hp, hq⟩
    · simp [Dev.refusal, he, hp, ha]
    · simp [Dev.refusal, he, hp, hl, hq, ha]
  have hown : (s.dev.taken r.call).ownRefusal r b = true := by
    rcases hp with hp | ⟨hp, hq⟩
    · simp [Dev.ownRefusal, he, hp, ha]
    · simp [Dev.ownRefusal, he, hp, hl, hq, ha]
  rw [State.run_eq, serve_abort h1 href ha, hown, hn]
  rfl

/-! ## Block reads (R149) -/

/-- A segment of a copy: the copy is held again while more remains. -/
def segmentEffs (key code off want : Nat) (b : List Byte) : List Eff :=
  [.bcs fun l => l.filter fun y => !(y.key == key && y.code == code)] ++
    if b.length ≤ off + want then [] else [.bcs fun l => l ++ [⟨key, code, b⟩]]

theorem sendSegment_run (c : Call) (key code off want : Nat) (b : List Byte) (d : Dev) : (sendSegment c key code off want b).run d =
    (respondWith ⟨c, 0, decide (b.length ≤ off + want), off, slice b off want⟩).run (d.after (segmentEffs key code off want b)) := by
  by_cases h : b.length ≤ off + want
  · simp only [sendSegment, segmentEffs, h, decide_true, if_true]
    rfl
  · simp only [sendSegment, segmentEffs, h, decide_false, if_false]
    rfl

section
variable {s : State} {m : UMsg} {x : Obj} {i j : Nat} (ht : msgTgt m = .elem x i j)

/-- The block read of an object whose reads change nothing. -/
def blockReadOf (m : UMsg) (x : Obj) (i j : Nat) : Beh :=
  blockReadBeh (msgCall m) m.o.code.toNat (x.key i j) m.offset.toNat m.length.toNat (.read m.o.path x i j)

include ht in
theorem umaniBlockRead_elem (h1 : x ≠ .rstCauseSticky) (h2 : x ≠ .secChallenge) (h3 : x ≠ .portMacCounters) : umaniBlockRead m =
    serve ⟨msgCall m, .elem x i j, m.abort == 0, .num 0⟩ (blockReadOf m x i j) := by
  simp only [umaniBlockRead, ht, readBeh_plain h1 h2 h3]
  rfl

variable (hl : m.length.toNat ≤ pathData m.o.path)
include hl

theorem blockRead_pre {d : Dev} (h : m.offset.toNat ≠ 0 → ∀ b, d.copyOf (x.key i j) m.o.code.toNat = some b → m.offset.toNat ≤ b.length) :
    (blockReadOf m x i j).pre d = 0 := by
  have hfit : ¬pathData (msgCall m).o.path < m.length.toNat := Nat.not_lt.mpr hl
  simp only [blockReadOf, blockReadBeh, beh, if_neg hfit]
  split
  · rename_i b hb
    exact if_neg fun ⟨h0, hlt⟩ => absurd (h h0 b hb) (Nat.not_le.mpr hlt)
  · rfl

variable (h : s.dev.admits ⟨msgCall m, .elem x i j, m.abort == 0, .num 0⟩)
include h

/-- At OFFSET 0 the object is read afresh. -/
theorem blockRead_first (hs : s.Inv) (h0 : m.offset.toNat = 0) {b : List Byte}
    (hb : b = valBytes m.o.path x.row.ty (s.dev.readVal m.o.path x i j)) :
    s.run (serve ⟨msgCall m, .elem x i j, m.abort == 0, .num 0⟩ (blockReadOf m x i j)) = .next (s.answered
      ⟨msgCall m, 0, decide (b.length ≤ m.length.toNat), 0, b.take m.length.toNat⟩
      (segmentEffs (x.key i j) m.o.code.toNat 0 m.length.toNat b)) := by
  have hact : (blockReadOf m x i j).act (s.dev.taken (msgCall m)) =
      .later (.seq .skip (sendSegment (msgCall m) (x.key i j) m.o.code.toNat 0 m.length.toNat b)) := by
    simp [blockReadOf, blockReadBeh, beh, h0, Beh.read, Beh.plain, hb]
  have hst : (blockReadOf m x i j).state (s.dev.taken (msgCall m)) = 0 := by
    simp [blockReadOf, blockReadBeh, beh, h0, Beh.read, Beh.plain]
  rw [State.run_eq, serve_run hs.1.um h (blockRead_pre hl fun hne => absurd h0 hne) hst, hact, finish, Prog.run_seq, Prog.run_skip,
    sendSegment_run, Nat.zero_add]
  rfl

/-- At another OFFSET the copy held is read on. -/
theorem blockRead_next (hs : s.Inv) (h0 : m.offset.toNat ≠ 0) {b : List Byte} (hb : s.dev.copyOf (x.key i j) m.o.code.toNat = some b)
    (hle : m.offset.toNat ≤ b.length) :
    s.run (serve ⟨msgCall m, .elem x i j, m.abort == 0, .num 0⟩ (blockReadOf m x i j)) = .next (s.answered
      ⟨msgCall m, 0, decide (b.length ≤ m.offset.toNat + m.length.toNat), m.offset.toNat, slice b m.offset.toNat m.length.toNat⟩
      (segmentEffs (x.key i j) m.o.code.toNat m.offset.toNat m.length.toNat b)) := by
  have hcopy : (s.dev.taken (msgCall m)).copyOf (x.key i j) m.o.code.toNat = some b := hb
  have hpre : (blockReadOf m x i j).pre (s.dev.taken (msgCall m)) = 0 :=
    blockRead_pre hl fun _ y hy => by
      rw [hcopy, Option.some.injEq] at hy
      exact hy ▸ hle
  have hst : (blockReadOf m x i j).state (s.dev.taken (msgCall m)) = 0 := by
    simp [blockReadOf, blockReadBeh, beh, hcopy, h0]
  have hact : (blockReadOf m x i j).act (s.dev.taken (msgCall m)) =
      .later (sendSegment (msgCall m) (x.key i j) m.o.code.toNat m.offset.toNat m.length.toNat b) := by
    simp [blockReadOf, blockReadBeh, beh, hcopy, h0]
  rw [State.run_eq, serve_run hs.1.um h hpre hst, hact, finish, sendSegment_run]
  rfl

/-- Without a copy there is nothing to read on. -/
theorem blockRead_refused (h0 : m.offset.toNat ≠ 0) (hb : s.dev.copyOf (x.key i j) m.o.code.toNat = none) :
    s.run (serve ⟨msgCall m, .elem x i j, m.abort == 0, .num 0⟩ (blockReadOf m x i j)) = .next (s.refusedWith (msgCall m) [] 0x0401) := by
  have hcopy : (s.dev.taken (msgCall m)).copyOf (x.key i j) m.o.code.toNat = none := hb
  have hpre : (blockReadOf m x i j).pre (s.dev.taken (msgCall m)) = 0 :=
    blockRead_pre hl fun _ y hy => by rw [hcopy] at hy; exact nomatch hy
  refine served_abort h (by decide) (.inr ⟨hpre, ?_⟩) fun _ _ => rfl
  simp [blockReadOf, blockReadBeh, beh, hcopy, h0]

end

/-! ## Block writes (R147, R148) -/

/-- A requester's transfer to an object ends. -/
def transferEnd (key code : Nat) : Eff := .bws fun l => l.filter fun y => !(y.key == key && y.code == code)

theorem endTransfer_run (key code : Nat) (d : Dev) : (endTransfer key code).run d = (transferEnd key code).apply d := rfl

/-- A requester's code does not change with a request's arrival. -/
theorem taken_codeOf (d : Dev) (c : Call) (p : UPath) : (d.taken c).codeOf p = d.codeOf p := by cases p <;> rfl

theorem taken_transfer (d : Dev) (c : Call) (key code off : Nat) : (d.taken c).transfer key code off = d.transfer key code off := rfl

/-- The block write of an object. -/
def blockWriteOf (m : UMsg) (x : Obj) (i j : Nat) : Beh :=
  blockWriteBeh (msgCall m) (x.key i j) x.row.ty m.offset.toNat m.last m.data (writeBeh (msgCall m) m.o.code.toNat true x i j)

theorem umaniBlockWrite_elem {m : UMsg} {x : Obj} {i j : Nat} (ht : msgTgt m = .elem x i j) : umaniBlockWrite m =
    serve ⟨msgCall m, .elem x i j, m.abort == 0, .num 0⟩ (blockWriteOf m x i j) := by
  simp only [umaniBlockWrite, ht]
  rfl

section
variable {s : State} {m : UMsg} {x : Obj} {i j : Nat} (h : s.dev.admits ⟨msgCall m, .elem x i j, m.abort == 0, .num 0⟩)
include h

/-- A first segment is held when no other requester's transfer is open. -/
theorem blockWrite_first (hs : s.Inv) (h0 : m.offset.toNat = 0) (hlast : m.last = false) (hsize : m.data.length ≤ x.row.ty.size)
    (hopen : (s.dev.bws.any fun y => y.key == x.key i j && y.code != s.dev.codeOf m.o.path) = false) :
    s.run (serve ⟨msgCall m, .elem x i j, m.abort == 0, .num 0⟩ (blockWriteOf m x i j)) = .next (s.served (msgCall m)
      [transferEnd (x.key i j) (s.dev.codeOf m.o.path),
       .bws fun l => l ++ [⟨x.key i j, s.dev.codeOf m.o.path, m.data.length, m.data⟩]] []) := by
  have hcode : (s.dev.taken (msgCall m)).codeOf (msgCall m).o.path = s.dev.codeOf m.o.path := taken_codeOf _ _ _
  have htr (code : Nat) : (s.dev.taken (msgCall m)).transfer (x.key i j) code m.offset.toNat = some [] := if_pos h0
  have hopen' : ((s.dev.taken (msgCall m)).bws.any fun y => y.key == x.key i j && y.code != s.dev.codeOf m.o.path) = false := hopen
  refine served_done hs h (p := .all [endTransfer (x.key i j) (s.dev.codeOf m.o.path),
    .eff (.bws fun l => l ++ [⟨x.key i j, s.dev.codeOf m.o.path, m.data.length, m.data⟩])]) ?_ ?_ ?_ rfl
  · simp [blockWriteOf, blockWriteBeh, hcode, htr, hlast, Nat.not_lt.mpr hsize]
  · simp only [blockWriteOf, blockWriteBeh, hcode, htr, hlast, hopen', firstAbort, Bool.false_and, Bool.and_false]
    rfl
  · have htr0 := htr (s.dev.codeOf m.o.path)
    rw [h0] at htr0
    simp [blockWriteOf, blockWriteBeh, hcode, hlast, h0, htr0]

/-- A segment that continues no transfer ends the requester's. -/
theorem blockWrite_unplaced (htr : s.dev.transfer (x.key i j) (s.dev.codeOf m.o.path) m.offset.toNat = none) :
    s.run (serve ⟨msgCall m, .elem x i j, m.abort == 0, .num 0⟩ (blockWriteOf m x i j)) = .next (s.refusedWith (msgCall m)
      [transferEnd (x.key i j) (s.dev.codeOf m.o.path)] 0x0301) := by
  have hcode : (s.dev.taken (msgCall m)).codeOf (msgCall m).o.path = s.dev.codeOf m.o.path := taken_codeOf _ _ _
  refine served_refused h (by decide) (.inl ?_) ?_
  · simp [blockWriteOf, blockWriteBeh, hcode, taken_transfer, htr]
  · simp only [blockWriteOf, blockWriteBeh, hcode]
    rfl

end

/-- The last segment of a CFG_STAGE transfer writes the whole value. -/
theorem blockWrite_stage {s : State} {m : UMsg} {i j : Nat} (hs : s.Inv)
    (h : s.dev.admits ⟨msgCall m, .elem .cfgStage i j, m.abort == 0, .num 0⟩) (h0 : m.offset.toNat ≠ 0) (hlast : m.last = true) {b : List Byte}
    (htr : s.dev.transfer (Obj.cfgStage.key i j) (s.dev.codeOf m.o.path) m.offset.toNat = some b) (hsize : b.length + m.data.length ≤ 1048576) :
    s.run (serve ⟨msgCall m, .elem .cfgStage i j, m.abort == 0, .num 0⟩ (blockWriteOf m .cfgStage i j)) = .next (s.served (msgCall m)
      [transferEnd (Obj.cfgStage.key i j) (s.dev.codeOf m.o.path), .obj .cfgStage i j (.oct (b ++ m.data))] []) := by
  have hcode : (s.dev.taken (msgCall m)).codeOf (msgCall m).o.path = s.dev.codeOf m.o.path := taken_codeOf _ _ _
  have hty : Obj.cfgStage.row.ty = .octMax 1048576 := rfl
  have hwb (v : Val) : writeBeh (msgCall m) m.o.code.toNat true .cfgStage i j v = storeBeh .cfgStage i j v := rfl
  have hlen : (b ++ m.data).length ≤ 1048576 := by rwa [List.length_append]
  refine served_done hs h (p := .seq (endTransfer (Obj.cfgStage.key i j) (s.dev.codeOf m.o.path))
    (.eff (.obj .cfgStage i j (.oct (b ++ m.data))))) ?_ ?_ ?_ rfl
  · simp only [blockWriteOf, blockWriteBeh, hcode, taken_transfer, htr, hlast, hty, hwb, Option.isNone_some, Bool.false_eq_true, if_false,
      Option.getD_some, Ty.size, if_neg (Nat.not_lt.mpr hlen), lenOk, decide_eq_true hlen]
    rfl
  · simp only [blockWriteOf, blockWriteBeh, hcode, taken_transfer, htr, hlast, hwb, beq_false_of_ne h0, Option.getD_some]
    rfl
  · simp only [blockWriteOf, blockWriteBeh, hcode, taken_transfer, htr, hlast, hwb, Option.getD_some]
    rfl

/-! ## Ends by time -/

section
variable {s : State} {idx : BitVec 16} {sub : BitVec 8} {x : Obj} {i j : Nat} (ha : s.dev.answers = true)
  (ht : target idx.toNat sub.toNat = .elem x i j)
include ha ht

theorem blockWriteAbandon_run {y : BlockWrite} (hy : s.dev.bws.filter (fun z => z.key == x.key i j) = [y]) :
    exec (.blockWriteAbandon idx sub) s = .next (s.after [transferEnd (x.key i j) y.code, .count .umaniBlocksAbandoned 0 0 1]) := by
  have hkey : y.key = x.key i j := by
    have hmem : y ∈ s.dev.bws.filter (fun z => z.key == x.key i j) := by rw [hy]; exact List.mem_singleton.mpr rfl
    simpa using (List.mem_filter.mp hmem).2
  rw [exec_blockWriteAbandon, execBlockWriteAbandon, State.run_eq, live_run ha, ht]
  simp only [Prog.run_ask, hy, hkey, Prog.each, List.map_cons, List.map_nil]
  rfl

theorem blockReadCopyRelease_run (code : BitVec 16) : exec (.blockReadCopyRelease idx sub code) s =
    .next (s.after [.bcs fun l => l.filter fun y => !(y.key == x.key i j && y.code == code.toNat)]) := by
  rw [exec_blockReadCopyRelease, execBlockReadCopyRelease, State.run_eq, live_run ha, ht]
  rfl

end

theorem offset_zero_iff {m : UMsg} : m.offset = 0 ↔ m.offset.toNat = 0 := by bv_omega

/-- Settles O16. -/
theorem blockTransfers : Obligations.BlockTransfers := by
  refine ⟨fun s m x i j hs hw hb hf ho ht h1 h2 h3 h hl => ?_, fun s m x i j code hs hw hb hf ho ht h hcode => ?_,
    fun s idx sub x i j ha ht => ⟨fun y => blockWriteAbandon_run ha ht, blockReadCopyRelease_run ha ht⟩⟩
  · rw [exec_umaniBlockRead, Brought.runIf_msg ⟨hb, hears_inRun h.1, hf⟩ (by rw [hw, ho]; rfl), umaniBlockRead_elem ht h1 h2 h3]
    refine ⟨fun b h0 hval => ?_, fun b h0 => blockRead_next hl h hs (mt offset_zero_iff.mpr h0),
      fun h0 => blockRead_refused hl h (mt offset_zero_iff.mpr h0)⟩
    rw [blockRead_first hl h hs (offset_zero_iff.mp h0) hval, segmentEffs, Nat.zero_add]
  · subst hcode
    rw [exec_umaniBlockWrite, Brought.runIf_msg ⟨hb, hears_inRun h.1, hf⟩ (by rw [hw, ho]; rfl), umaniBlockWrite_elem ht]
    refine ⟨fun h0 => blockWrite_first h hs (offset_zero_iff.mp h0), fun b hx h0 hlast htr hsize => ?_, blockWrite_unplaced h⟩
    subst hx
    exact blockWrite_stage hs h (mt offset_zero_iff.mpr h0) hlast htr hsize

end Sys2Proof.Machine
end

section
/-!
PROOFS of group ownership and of configuration images and their application (O18).
-/
namespace Sys2Proof.Machine

theorem exec_dictGroupClaim (o : Origin) (g : BitVec 8) (s : State) : exec (.dictGroupClaim o g) s =
    s.run (serve (execReq o .dictGroupClaim 0 0 true (.num g.toNat)) (groupClaimBeh o.code.toNat g.toNat)) := rfl
theorem exec_dictGroupRelease (o : Origin) (g : BitVec 8) (s : State) : exec (.dictGroupRelease o g) s =
    s.run (serve (execReq o .dictGroupRelease 0 0 true (.num g.toNat)) (groupReleaseBeh o.code.toNat g.toNat)) := rfl
theorem exec_cfgStageCommit (o : Origin) (k : BitVec 8) (s : State) : exec (.cfgStageCommit o k) s =
    s.run (serve (execReq o .cfgStageCommit 0 0 true (.num k.toNat)) (commitBeh k.toNat)) := rfl
theorem exec_cfgApply {o : Origin} {b : List Byte} (hl : b.length = 24) (s : State) : exec (.cfgApply o b) s =
    s.run (serve (execReq o .cfgApply 0 0 true (.oct b)) (cfgApplyBeh (execReq o .cfgApply 0 0 true (.oct b)).call o.code.toNat b)) := by
  have hx : exec (.cfgApply o b) s = execCfgApply o b s := rfl
  rw [hx, execCfgApply, hl]
  rfl
theorem exec_overlayApply (k : Bool) (s : State) : exec (.overlayApply k) s = execOverlayApply k s := rfl

/-! ## Ownership (R157) -/

@[simp] theorem Dev.taken_ownerLink (d : Dev) (c : Call) (g : Nat) : (d.taken c).ownerLink g = d.ownerLink g := rfl

/-- A request's arrival leaves the leases. -/
theorem taken_live {d : Dev} (hd : d.Canonical) (c : Call) (k : Nat) : ((d.taken c).fn k).live = (d.fn k).live := by
  obtain ⟨⟨p, code, seq⟩, op, idx, sub⟩ := c
  cases p with
  | mailbox l f n =>
    simp only [Dev.taken, Dev.fn, SMap.upd]
    by_cases hk : k = fnKey l.val f.val
    · subst hk
      rw [SMap.get_put_same (b := 0) _ _ _ hd.fns]
    · rw [SMap.get_put_other (b := 0) _ _ hk hd.fns]
  | _ => rfl

section
variable {s : State} {o : Origin} {g : BitVec 8}

section
variable (h : s.dev.admits (execReq o .dictGroupClaim 0 0 true (.num g.toNat)))
include h

theorem groupClaim_reserved (hg : 0x1B < g.toNat) : exec (.dictGroupClaim o g) s =
    .next (s.refusedWith (execReq o .dictGroupClaim 0 0 true (.num g.toNat)).call [] 0x0302) := by
  rw [exec_dictGroupClaim]
  exact serve_refused_pre h (if_pos hg) (by decide)

variable (hs : s.Inv) (hg : g.toNat ≤ 0x1B) (hl : (s.dev.fn (hostKey o.code.toNat)).live = true)
include hs hg hl

/-- A claim of a group that no other link owns. -/
theorem groupClaim_served (ho : (s.dev.ownerLink g.toNat).any (fun l => l != hostLink o.code.toNat) = false) : exec (.dictGroupClaim o g) s =
    .next (s.served (execReq o .dictGroupClaim 0 0 true (.num g.toNat)).call
      (if s.dev.ownerLink g.toNat = none then [.obj .dictGroupOwner 0 g.toNat (.num o.code.toNat)] else []) []) := by
  have hlive : ((s.dev.taken (execReq o .dictGroupClaim 0 0 true (.num g.toNat)).call).fn (hostKey o.code.toNat)).live = true :=
    (taken_live hs.1 _ _).trans hl
  rw [exec_dictGroupClaim]
  refine served_done hs h (if_neg (Nat.not_lt.mpr hg)) ?_ rfl ?_
  · simp only [groupClaimBeh, beh, hlive, Dev.taken_ownerLink, ho]
    rfl
  · rw [Dev.taken_ownerLink]
    cases s.dev.ownerLink g.toNat <;> rfl

theorem groupClaim_owned {l : Nat} (ho : s.dev.ownerLink g.toNat = some l) (hne : l ≠ hostLink o.code.toNat) : exec (.dictGroupClaim o g) s =
    .next (s.refusedWith (execReq o .dictGroupClaim 0 0 true (.num g.toNat)).call [] 0x0402) := by
  have hlive : ((s.dev.taken (execReq o .dictGroupClaim 0 0 true (.num g.toNat)).call).fn (hostKey o.code.toNat)).live = true :=
    (taken_live hs.1 _ _).trans hl
  rw [exec_dictGroupClaim]
  refine serve_refused_state h (if_neg (Nat.not_lt.mpr hg)) ?_ (by decide)
  have hany : (s.dev.ownerLink g.toNat).any (fun l => l != hostLink o.code.toNat) = true := by simpa [ho] using hne
  simp only [hlive, Dev.taken_ownerLink, hany]
  rfl

end

section
variable (h : s.dev.admits (execReq o .dictGroupRelease 0 0 true (.num g.toNat))) (hg : g.toNat ≤ 0x1B)
include h hg

theorem groupRelease_served (hs : s.Inv) (ho : s.dev.ownerLink g.toNat = some (hostLink o.code.toNat)) : exec (.dictGroupRelease o g) s =
    .next (s.served (execReq o .dictGroupRelease 0 0 true (.num g.toNat)).call [.obj .dictGroupOwner 0 g.toNat (.num 0)] []) := by
  rw [exec_dictGroupRelease]
  exact served_done hs h (if_neg (Nat.not_lt.mpr hg)) (if_pos ho) rfl rfl

theorem groupRelease_refused (ho : s.dev.ownerLink g.toNat ≠ some (hostLink o.code.toNat)) : exec (.dictGroupRelease o g) s =
    .next (s.refusedWith (execReq o .dictGroupRelease 0 0 true (.num g.toNat)).call [] 0x0401) := by
  rw [exec_dictGroupRelease]
  exact serve_refused_state h (if_neg (Nat.not_lt.mpr hg)) (if_neg ho) (by decide)

end

end

/-! ## Commit (Table 5.13) -/

/-- CFG_LAST_ERROR takes a fault. -/
def CfgFault.noted (f : CfgFault) : Eff := .obj .cfgLastError 0 0 (.num (f.entry * 2 ^ 40 + f.index * 2 ^ 24 + f.sub * 2 ^ 16 + f.abort))

theorem noteFault_run {f : CfgFault} (h : f.abort ≠ 0) (d : Dev) : (noteFault f).run d = f.noted.apply d := by
  have hb : (f.abort != 0) = true := bne_iff_ne.mpr h
  rw [noteFault, hb]
  rfl

section
variable {s : State} {o : Origin} {k : BitVec 8} (h : s.dev.admits (execReq o .cfgStageCommit 0 0 true (.num k.toNat))) {f : CfgFault}
  (hf : f = (s.dev.taken (execReq o .cfgStageCommit 0 0 true (.num k.toNat)).call).commitFault k.toNat (s.dev.oct .cfgStage))
include h hf

theorem stageCommit_served (hs : s.Inv) {es : List ImgEntry} (he : imgEntries (s.dev.oct .cfgStage) = some es) (h0 : f.abort = 0) :
    exec (.cfgStageCommit o k) s = .next (s.served (execReq o .cfgStageCommit 0 0 true (.num k.toNat)).call
      [.cfg fun c => if k.toNat = 0 then { c with standby := imgOf (s.dev.oct .cfgStage) es }
        else { c with slots := SMap.put Image.empty k.toNat (imgOf (s.dev.oct .cfgStage) es) c.slots }] []) := by
  subst hf
  rw [exec_cfgStageCommit]
  refine served_done hs h rfl h0 rfl ?_
  simp only [commitImage, Dev.taken_oct, he, Option.getD_some]
  rfl

theorem stageCommit_refused (h0 : f.abort ≠ 0) : exec (.cfgStageCommit o k) s =
    .next (s.refusedWith (execReq o .cfgStageCommit 0 0 true (.num k.toNat)).call [f.noted] f.abort) := by
  subst hf
  rw [exec_cfgStageCommit]
  exact served_refused h h0 (.inr ⟨rfl, rfl⟩) (noteFault_run h0 _)

end

/-! ## CFG_APPLY (R166, R167) -/

@[simp] theorem Dev.taken_changes (d : Dev) (c : Call) (switch : Bool) (mask : Nat) : (d.taken c).changes switch mask = d.changes switch mask := rfl

@[simp] theorem Dev.taken_applyConflict (d : Dev) (c : Call) (switch : Bool) (mask : Nat) (t : Option Trig) :
    (d.taken c).applyConflict switch mask t = d.applyConflict switch mask t := by
  rcases t with _ | (_ | _ | _) <;> rfl

/-- The action that an application arms, with the objects that it will change. -/
def Dev.applyAction (d : Dev) (code : Nat) (switch : Bool) (mask : Nat) (t : Trig) : Action :=
  ⟨0, 4, 0, t, code, t == .now, (d.changes switch mask).map fun c => c.o.key c.i c.j, [b2n switch, mask], 0⟩

/-- What an application keeps until its instant: its mask, whether it switches the base, and the answer owed. -/
def applyPending (switch : Bool) (mask : Nat) (call : Option Call) : Eff :=
  .cfg fun x => { x with pendMask := mask, pendSwitch := switch, pendCall := call }

section
variable {s : State} {o : Origin} {b : List Byte} (h : s.dev.admits (execReq o .cfgApply 0 0 true (.oct b))) (hl : b.length = 24)

include h hl in
theorem cfgApply_reserved (hsw : 1 < beAt b 1 1) : exec (.cfgApply o b) s =
    .next (s.refusedWith (execReq o .cfgApply 0 0 true (.oct b)).call [] 0x0302) := by
  rw [exec_cfgApply hl]
  refine served_abort h (by decide) (.inl ?_) fun d x => ?_
  · simp [cfgApplyBeh, hsw]
  · simp [cfgApplyBeh, hsw]

variable {t : Trig} (hsw : beAt b 1 1 ≤ 1) (h2 : beAt b 2 2 = 0) (h22 : beAt b 22 2 = 0)
  (ht : parseTrig (beAt b 0 1) (slice b 12 10) = some t) (hahead : s.dev.trigAhead (s.dev.num .clkTimingChannel) t = true)
include hsw h2 h22 ht hahead

theorem cfgApply_pre (c c' : Call) : (cfgApplyBeh c o.code.toNat b).pre (s.dev.taken c') = 0 := by
  simp [cfgApplyBeh, Nat.not_lt.mpr hsw, h2, h22, ht, hahead]

include h hl

theorem cfgApply_second (hp : (s.dev.pendingOn 4 0).isSome = true) : exec (.cfgApply o b) s =
    .next (s.refusedWith (execReq o .cfgApply 0 0 true (.oct b)).call [] 0x0501) := by
  rw [exec_cfgApply hl]
  refine served_refused h (by decide) (.inr ⟨cfgApply_pre hsw h2 h22 ht hahead _ _, ?_⟩) ?_
  · simp [cfgApplyBeh, hp, firstAbort]
  · simp [cfgApplyBeh, hp, firstAbort]

variable (hs : s.Inv) (hp : (s.dev.pendingOn 4 0).isSome = false)
  (hcf : s.dev.applyConflict (beAt b 1 1 == 1) (beAt b 4 8) (some t) = false)
  (hch : ((s.dev.taken (execReq o .cfgApply 0 0 true (.oct b)).call).changeFault (s.dev.changes (beAt b 1 1 == 1) (beAt b 4 8)) true).abort = 0)
  (hroom : s.dev.acts.length < 256)
include hp hcf hch hroom

omit h hl hsw h2 h22 hahead in
theorem cfgApply_state : (cfgApplyBeh (execReq o .cfgApply 0 0 true (.oct b)).call o.code.toNat b).state
    (s.dev.taken (execReq o .cfgApply 0 0 true (.oct b)).call) = 0 := by
  have hfull : s.dev.actsFull = false := decide_eq_false (Nat.not_le.mpr hroom)
  simp [cfgApplyBeh, firstAbort, ht, hp, hcf, hch, hfull]

include hs

/-- An application with a later trigger is armed and answered. -/
theorem cfgApply_armed (hn : t ≠ .now) : exec (.cfgApply o b) s = .next (s.served (execReq o .cfgApply 0 0 true (.oct b)).call
    [.arm (s.dev.applyAction o.code.toNat (beAt b 1 1 == 1) (beAt b 4 8) t), applyPending (beAt b 1 1 == 1) (beAt b 4 8) none] []) := by
  have hact : (cfgApplyBeh (execReq o .cfgApply 0 0 true (.oct b)).call o.code.toNat b).act
      (s.dev.taken (execReq o .cfgApply 0 0 true (.oct b)).call) =
        .done (.all [.eff (.arm (s.dev.applyAction o.code.toNat (beAt b 1 1 == 1) (beAt b 4 8) t)),
          .eff (applyPending (beAt b 1 1 == 1) (beAt b 4 8) none)]) [] := by
    simp only [cfgApplyBeh, ht, Option.some.injEq, if_neg hn, Option.getD_some, Dev.taken_changes]
    rfl
  rw [exec_cfgApply hl]
  exact served_done hs h (cfgApply_pre hsw h2 h22 ht hahead _ _) (cfgApply_state ht hp hcf hch hroom) hact rfl

/-- An immediate application owes its answer. -/
theorem cfgApply_owed (hn : t = .now) : exec (.cfgApply o b) s = .next (s.owing (execReq o .cfgApply 0 0 true (.oct b)).call
    [.arm (s.dev.applyAction o.code.toNat (beAt b 1 1 == 1) (beAt b 4 8) t),
     applyPending (beAt b 1 1 == 1) (beAt b 4 8) (some (execReq o .cfgApply 0 0 true (.oct b)).call)]) := by
  subst hn
  have hact : (cfgApplyBeh (execReq o .cfgApply 0 0 true (.oct b)).call o.code.toNat b).act
      (s.dev.taken (execReq o .cfgApply 0 0 true (.oct b)).call) =
        .later (.all [.eff (.arm (s.dev.applyAction o.code.toNat (beAt b 1 1 == 1) (beAt b 4 8) .now)),
          .eff (applyPending (beAt b 1 1 == 1) (beAt b 4 8) (some (execReq o .cfgApply 0 0 true (.oct b)).call))]) := by
    simp only [cfgApplyBeh, ht, if_true, Option.getD_some, Dev.taken_changes]
    rfl
  rw [exec_cfgApply hl]
  exact served_later hs h (cfgApply_pre hsw h2 h22 ht hahead _ _) (cfgApply_state ht hp hcf hch hroom) hact rfl

end

/-! ## OVERLAY_APPLY (R168) -/

theorem applyAnswer_idle {d : Dev} (h : d.cfg.pendCall = none) (abort : Nat) : (applyAnswer abort).run d = d := by
  simp only [applyAnswer, Prog.run_ask, h]
  rfl

theorem applyAnswer_owed {d : Dev} {c : Call} (h : d.cfg.pendCall = some c) (abort : Nat) : (applyAnswer abort).run d =
    (respond c abort []).run ((Eff.cfg fun x => { x with pendCall := none }).apply d) := by
  simp only [applyAnswer, Prog.run_ask, h]
  rfl

/-- The answer owed is given, and no more of the configuration changes. -/
theorem applyAnswer_cfg {d : Dev} (hd : SMap.wf none d.objs = true) (abort : Nat) :
    ((applyAnswer abort).run d).cfg = { d.cfg with pendCall := none } := by
  cases hc : d.cfg.pendCall with
  | none =>
    rw [applyAnswer_idle hc, ← hc]
  | some c =>
    rw [applyAnswer_owed hc]
    exact (only_respond c abort []).same (x := .cfg) (d := (Eff.cfg fun x => { x with pendCall := none }).apply d) hd (by decide)

theorem applyAnswer_status {d : Dev} (hd : SMap.wf none d.objs = true) (abort : Nat) :
    ((applyAnswer abort).run d).num .cfgApplyStatus = d.num .cfgApplyStatus := by
  cases hc : d.cfg.pendCall with
  | none => rw [applyAnswer_idle hc]
  | some c =>
    rw [applyAnswer_owed hc]
    exact (only_respond c abort []).num (d := (Eff.cfg fun x => { x with pendCall := none }).apply d) hd (by decide)

theorem lateEffs_cfg (d e : Dev) (a : Action) : (e.after (d.lateEffs a)).cfg = e.cfg := by
  unfold Dev.lateEffs
  split <;> rfl

theorem lateEffs_get {e : Dev} (he : SMap.wf none e.objs = true) (d : Dev) (a : Action) {o : Obj} {i j : Nat}
    (h : o.key i j ≠ Obj.rmLate.key 0 0) : (e.after (d.lateEffs a)).get o i j = e.get o i j := by
  refine after_get he ?_
  unfold Dev.lateEffs
  split
  · simpa [Eff.keys] using Ne.symm h
  · rfl

/-- The values of a set of changes are taken: what stops a unit first, and what starts one last. -/
def changesProg (acked : Bool) (cs : List Change) : Prog := .all [
  .each (cs.filter Change.stops) (applyChange acked),
  .each (cs.filter fun c => !startsUnit c.o) (applyChange acked),
  .each (cs.filter Change.starts) (applyChange acked)]

/-- The values that changes replace. -/
def Dev.oldValues (d : Dev) (cs : List Change) : SMap (Option Val) :=
  cs.foldl (fun m c => SMap.put none (c.o.key c.i c.j) (some (d.get c.o c.i c.j)) m) []

/-- The images take their places. -/
def imagesApplied (switch : Bool) (mask : Nat) (old : SMap (Option Val)) : Eff := .cfg fun x => { x with
  base := if switch then x.standby else x.base
  standby := if switch then Image.empty else x.standby
  mask := mask, epoch := x.epoch + 1, past := SMap.put [] x.epoch old x.past }

theorem applyChanges_run (switch : Bool) (mask : Nat) (acked : Bool) (d : Dev) : (applyChanges switch mask acked).run d =
    (imagesApplied switch mask (d.oldValues (d.changes switch mask))).apply ((changesProg acked (d.changes switch mask)).run d) := rfl

theorem changesProg_none (acked : Bool) (d : Dev) : (changesProg acked []).run d = d := rfl

/-- A change of one object that only stores. -/
theorem changesProg_store {acked : Bool} {c : Change} (hu : startsUnit c.o = false)
    (hb : entryBeh acked c.e c.o c.i c.j c.v = storeBeh c.o c.i c.j c.v) (d : Dev) :
    (changesProg acked [c]).run d = (Eff.obj c.o c.i c.j (keptValue c.o c.v)).apply d := by
  have hstop : c.stops = false := by rw [Change.stops, hu, Bool.false_and]
  have hstart : c.starts = false := by rw [Change.starts, hu, Bool.false_and]
  have hone : (applyChange acked c).run d = (Eff.obj c.o c.i c.j (keptValue c.o c.v)).apply d := by
    simp only [applyChange, Prog.run_ask, hb]
    rfl
  simp only [changesProg, List.filter_cons, List.filter_nil, hstop, hstart, hu, Bool.not_false, if_true, Bool.false_eq_true, if_false, Prog.each,
    List.map_cons, List.map_nil, Prog.run_all_cons, Prog.all_nil, Prog.run_skip, hone]

/-- The device once the values and the images are in place. -/
def Dev.applied (d : Dev) (acked : Bool) (a : Action) : Dev :=
  (imagesApplied d.cfg.pendSwitch d.cfg.pendMask (d.oldValues (d.changes d.cfg.pendSwitch d.cfg.pendMask))).apply
    ((changesProg acked (d.changes d.cfg.pendSwitch d.cfg.pendMask)).run ((Eff.disarm a.slot).apply d))

/-- CFG_APPLY_STATUS of an application that was made: its low half keeps the last failure's abort. -/
def Dev.appliedStatus (d : Dev) : Nat := 2 * 2 ^ 24 + d.num .cfgApplyStatus % 2 ^ 16

section
variable {s : State} {a : Action} {k : Bool} (ha : s.dev.answers = true) (hp : s.dev.pendingOn 4 0 = some a) (ht : s.dev.actTurn a = true)
include ha hp ht

theorem overlay_fails {f : CfgFault} (hf : f = s.dev.changeFault (s.dev.changes s.dev.cfg.pendSwitch s.dev.cfg.pendMask) false)
    (h0 : f.abort ≠ 0) (hc : s.dev.cfg.pendCall = none) : exec (.overlayApply k) s = .next (s.after
      [.disarm a.slot, .count .rmFailures 0 0 1, .raise 434 0 a.slot (top8 a.kind + f.abort % 65536 * 256) 0, f.noted,
       .obj .cfgApplyStatus 0 0 (.num (3 * 2 ^ 24 + f.abort))]) := by
  subst hf
  rw [exec_overlayApply, execOverlayApply, State.run_eq, live_run ha, Prog.run_ask, hp]
  simp only [ht, Prog.when_true, Prog.run_all_cons, if_pos h0, noteFault_run h0]
  rw [applyAnswer_idle (by exact hc)]
  rfl

variable (h0 : (s.dev.changeFault (s.dev.changes s.dev.cfg.pendSwitch s.dev.cfg.pendMask) false).abort = 0)
include h0

theorem overlay_succeeds : exec (.overlayApply k) s = .next { s with
    dev := (applyAnswer 0).run (((Eff.obj .cfgApplyStatus 0 0 (.num (s.dev.applied k a).appliedStatus)).apply (s.dev.applied k a)).after
      (s.dev.lateEffs a)) } := by
  have hif : ¬(s.dev.changeFault (s.dev.changes s.dev.cfg.pendSwitch s.dev.cfg.pendMask) false).abort ≠ 0 := not_not.mpr h0
  rw [exec_overlayApply, execOverlayApply, State.run_eq, live_run ha, Prog.run_ask, hp]
  simp only [ht, Prog.when_true, Prog.run_all_cons, if_neg hif, Prog.run_eff, applyChanges_run, run_lateAct]
  rfl

end

theorem applied_canonical {d : Dev} (hd : d.Canonical) (k : Bool) (a : Action) : (d.applied k a).Canonical :=
  Eff.apply_canonical _ _ (run_canonical _ (Eff.apply_canonical _ _ hd))

theorem appliedStatus_state (d : Dev) : d.appliedStatus / 2 ^ 24 = 2 := by
  unfold Dev.appliedStatus
  omega

theorem status_ne_late : Obj.cfgApplyStatus.key 0 0 ≠ Obj.rmLate.key 0 0 := by decide

/-- The status that an application sets stays to the end of the command. -/
theorem appliedStatus_stays {e : Dev} (he : e.Canonical) (d : Dev) (a : Action) :
    (((Eff.obj .cfgApplyStatus 0 0 (.num e.appliedStatus)).apply e).after (d.lateEffs a)).num .cfgApplyStatus = e.appliedStatus :=
  (congrArg Val.n (lateEffs_get (Eff.apply_canonical _ _ he).objs d a status_ne_late)).trans (Dev.num_put he.objs _ _ _ _)

section
variable {s : State} {a : Action} {k : Bool} (ha : s.dev.answers = true) (hp : s.dev.pendingOn 4 0 = some a) (ht : s.dev.actTurn a = true)
  (h0 : (s.dev.changeFault (s.dev.changes s.dev.cfg.pendSwitch s.dev.cfg.pendMask) false).abort = 0)
include ha hp ht h0

theorem overlay_applies (hs : s.Inv) : ∃ t, exec (.overlayApply k) s = .next t ∧ t.pending = s.pending ∧
    t.dev.num .cfgApplyStatus / 2 ^ 24 = 2 ∧ t.dev.cfg.mask = s.dev.cfg.pendMask ∧
    (s.dev.cfg.pendSwitch = true → t.dev.cfg.standby = Image.empty) := by
  have he := applied_canonical hs.1 k a
  have hl := after_canonical (s.dev.lateEffs a)
    (Eff.apply_canonical (.obj .cfgApplyStatus 0 0 (.num (s.dev.applied k a).appliedStatus)) _ he)
  have hcfg := (applyAnswer_cfg hl.objs 0).trans (congrArg (fun c => { c with pendCall := none }) (lateEffs_cfg s.dev _ a))
  refine ⟨_, overlay_succeeds ha hp ht h0, rfl, ?_, ?_, fun hsw => ?_⟩
  · rw [applyAnswer_status hl.objs, appliedStatus_stays he, appliedStatus_state]
  · rw [hcfg]
    rfl
  · rw [hcfg]
    exact if_pos hsw

/-- With no answer owed the command ends with what it notes of being late. -/
theorem overlay_unowed (hc : (s.dev.applied k a).cfg.pendCall = none) : exec (.overlayApply k) s = .next { s with
    dev := ((Eff.obj .cfgApplyStatus 0 0 (.num (s.dev.applied k a).appliedStatus)).apply (s.dev.applied k a)).after (s.dev.lateEffs a) } := by
  have hl := (congrArg Cfg.pendCall (lateEffs_cfg s.dev
    ((Eff.obj .cfgApplyStatus 0 0 (.num (s.dev.applied k a).appliedStatus)).apply (s.dev.applied k a)) a)).trans hc
  rw [overlay_succeeds ha hp ht h0, applyAnswer_idle hl]

variable (hc : s.dev.cfg.pendCall = none)
include hc

/-- With nothing to change the images alone take their places. -/
theorem overlay_empty (hcs : s.dev.changes s.dev.cfg.pendSwitch s.dev.cfg.pendMask = []) : exec (.overlayApply k) s = .next (s.after
    ([.disarm a.slot, imagesApplied s.dev.cfg.pendSwitch s.dev.cfg.pendMask [],
      .obj .cfgApplyStatus 0 0 (.num s.dev.appliedStatus)] ++ s.dev.lateEffs a)) := by
  have happ : s.dev.applied k a = s.dev.after [.disarm a.slot, imagesApplied s.dev.cfg.pendSwitch s.dev.cfg.pendMask []] := by
    rw [Dev.applied, hcs]
    rfl
  rw [overlay_unowed ha hp ht h0 (by rw [happ]; exact hc), happ, State.after, after_append]
  rfl

/-- One object that only stores changes: it has its configured value, and the status keeps the last failure's abort. -/
theorem overlay_one (hs : s.Inv) {c : Change} (hcs : s.dev.changes s.dev.cfg.pendSwitch s.dev.cfg.pendMask = [c]) (hu : startsUnit c.o = false)
    (hb : entryBeh k c.e c.o c.i c.j c.v = storeBeh c.o c.i c.j c.v) (hk : c.o.key c.i c.j ≠ Obj.cfgApplyStatus.key 0 0)
    (hl : c.o.key c.i c.j ≠ Obj.rmLate.key 0 0) : ∃ t, exec (.overlayApply k) s = .next t ∧ t.pending = s.pending ∧
      t.dev.get c.o c.i c.j = keptValue c.o c.v ∧ t.dev.num .cfgApplyStatus = s.dev.appliedStatus ∧
      t.dev.cfg.mask = s.dev.cfg.pendMask ∧ t.dev.cfg.base = (if s.dev.cfg.pendSwitch then s.dev.cfg.standby else s.dev.cfg.base) := by
  have happ : s.dev.applied k a = s.dev.after [.disarm a.slot, .obj c.o c.i c.j (keptValue c.o c.v),
      imagesApplied s.dev.cfg.pendSwitch s.dev.cfg.pendMask (s.dev.oldValues [c])] := by
    rw [Dev.applied, hcs, changesProg_store hu hb]
    rfl
  have he : (s.dev.applied k a).Canonical := applied_canonical hs.1 k a
  have hstat : (s.dev.applied k a).appliedStatus = s.dev.appliedStatus := by
    have hn : (s.dev.applied k a).num .cfgApplyStatus = s.dev.num .cfgApplyStatus := by
      rw [happ]
      exact congrArg Val.n (Dev.get_put_other hs.1.objs _ hk.symm)
    rw [Dev.appliedStatus, hn, Dev.appliedStatus]
  have hval : (s.dev.applied k a).get c.o c.i c.j = keptValue c.o c.v := by
    rw [happ]
    exact Dev.get_put hs.1.objs _ _ _ _
  refine ⟨_, overlay_unowed ha hp ht h0 (by rw [happ]; exact hc), rfl, ?_, ?_, ?_, ?_⟩
  · exact (lateEffs_get (Eff.apply_canonical _ _ he).objs s.dev a hl).trans ((Dev.get_put_other he.objs _ hk).trans hval)
  · exact (appliedStatus_stays he s.dev a).trans hstat
  · exact (congrArg Cfg.mask (lateEffs_cfg s.dev _ a)).trans (by rw [happ]; rfl)
  · exact (congrArg Cfg.base (lateEffs_cfg s.dev _ a)).trans (by rw [happ]; rfl)

end

/-- Settles O18: the requests are served by their behaviours, and an application sets its values, then the images, then its status. -/
theorem groupsAndImages : Obligations.GroupsAndImages := by
  refine ⟨fun s o g hs h => ⟨groupClaim_reserved h, fun hg hl => ⟨fun hn => ?_, fun ho => ?_, fun l => groupClaim_owned h hs hg hl⟩⟩,
    fun s o g hs h hg => ⟨groupRelease_served h hg hs, groupRelease_refused h hg⟩,
    fun s o k hs h es f he hf => ⟨stageCommit_served h hf hs he, stageCommit_refused h hf⟩,
    fun s o b hs h hl => ⟨cfgApply_reserved h hl, fun t hsw h2 h22 ht hahead => ⟨cfgApply_second h hl hsw h2 h22 ht hahead,
      fun hp hcf hch hroom => ⟨fun hn => ?_, fun hn => ?_⟩⟩⟩,
    fun s a k hs ha hp ht => ⟨fun f hf => overlay_fails ha hp ht hf, fun h0 hc => ⟨overlay_applies ha hp ht h0 hs,
      overlay_empty ha hp ht h0 hc, fun c hcs hu hb hk hl => overlay_one ha hp ht h0 hc hs hcs hu hb hk hl⟩⟩⟩
  · rw [groupClaim_served h hs hg hl (by rw [hn]; rfl), if_pos hn]
  · rw [groupClaim_served h hs hg hl (by simp [ho]), if_neg (by simp [ho])]
  · rw [cfgApply_armed h hl hsw h2 h22 ht hahead hs hp hcf hch hroom hn, Dev.applyAction, beq_false_of_ne hn]
    rfl
  · rw [cfgApply_owed h hl hsw h2 h22 ht hahead hs hp hcf hch hroom hn, Dev.applyAction, hn]
    rfl

end Sys2Proof.Machine
end

section
/-!
PROOF that only operands no row admits, or the vendor diagnostic space, stop a run (O3).
-/
namespace Sys2Proof.Machine

/-- Every command but BAR2_ACCESS runs one program when a row admits its operands, and is ill-formed otherwise (log entry 94). -/
theorem exec_eq_runIf_wf {c : Instr} (hc : ∀ w a, c ≠ .bar2Access w a) (s : State) : ∃ p, exec c s = s.runIf c.wf p := by
  cases c with
  | bar2Access w a => exact absurd rfl (hc w a)
  | _ => exact ⟨_, rfl⟩

/-- A command other than BAR2_ACCESS answers a next state or faults. -/
theorem exec_next_or_illFormed {c : Instr} (hc : ∀ w a, c ≠ .bar2Access w a) (s : State) :
    (∃ t, exec c s = .next t) ∨ exec c s = .fault .illFormed := by
  obtain ⟨p, hp⟩ := exec_eq_runIf_wf hc s
  rw [hp, State.runIf]
  split
  · exact .inl ⟨_, rfl⟩
  · exact .inr rfl

/-- BAR2_ACCESS is refused only where a debug session makes the diagnostic space visible (R177, R133, log entry 95). -/
theorem bar2Access_next_or_refused (w : Bool) (a : BitVec 28) (s : State) : (∃ t, exec (.bar2Access w a) s = .next t) ∨
    (exec (.bar2Access w a) s = .refused .diagnosticsUndescribed ∧ s.dev.diagVisible 0x0100 = true) := by
  rw [exec_bar2Access, execBar2Access]
  split
  · rename_i h
    exact .inr ⟨rfl, (Bool.and_eq_true_iff.mp h).2⟩
  · exact .inl ⟨_, rfl⟩

/-- Settles O3: BAR2_ACCESS by the visibility of its space, every other command by whether a row admits its operands. -/
theorem onlyIllFormedStops : Obligations.OnlyIllFormedStops := by
  intro c s
  by_cases hc : ∃ w a, c = .bar2Access w a
  · obtain ⟨w, a, rfl⟩ := hc
    obtain hn | hr := bar2Access_next_or_refused w a s
    · exact .inl hn
    · exact .inr (.inr ⟨⟨w, a, rfl⟩, hr⟩)
  · obtain hn | hf := exec_next_or_illFormed (fun w a he => hc ⟨w, a, he⟩) s
    · exact .inl hn
    · exact .inr (.inl hf)

end Sys2Proof.Machine
end

section
/-!
PROOFS of the commands of rings and of the direct mapping, of packets from the host, and of the vector that a ring's timer raises (O21).
-/
namespace Sys2Proof.Machine

theorem exec_hifRingSetup {b : List Byte} (hl : b.length = 32) (o : Origin) (l : Fin 4) (s : State) : exec (.hifRingSetup o l b) s =
    s.run (serve (execReq o .hifRingSetup l.val 0 true (.oct b)) (ringSetupBeh o.code.toNat l.val b)) := by
  have hx : exec (.hifRingSetup o l b) s = execHifRingSetup o l b s := rfl
  rw [hx, execHifRingSetup, hl]
  rfl
theorem exec_hifRingTeardown (o : Origin) (l : Fin 4) (r : BitVec 16) (s : State) : exec (.hifRingTeardown o l r) s =
    s.run (serve (execReq o .hifRingTeardown l.val 0 true (.num r.toNat)) (ringTeardownBeh o.code.toNat l.val r.toNat)) := rfl
theorem exec_hifRingQuery (o : Origin) (l : Fin 4) (r : BitVec 16) (s : State) : exec (.hifRingQuery o l r) s =
    s.run (serve (execReq o .hifRingQuery l.val 0 true (.num r.toNat)) (ringQueryBeh o.path o.code.toNat l.val r.toNat)) := rfl
theorem exec_hifDmapSet (o : Origin) (l : Fin 4) (v : BitVec 64) (s : State) : exec (.hifDmapSet o l v) s =
    s.run (serve (execReq o .hifDmapSet l.val 0 true (.num v.toNat)) (dmapSetBeh o.path l.val v.toNat)) := rfl
theorem exec_hostTxDescriptor (r : Fin 4096) (s : State) : exec (.hostTxDescriptor r) s = execHostTxDescriptor r s := rfl
theorem exec_ringItrExpiry (r : Fin 4096) (s : State) : exec (.ringItrExpiry r) s = execRingItrExpiry r s := rfl

/-! ## HIF_RING_SETUP (R190, Table 6.10) -/

/-- What a setup argument is refused for with 0x0302, for a requester with a code. -/
def Dev.badSetup (d : Dev) (code link : Nat) (b : List Byte) (g : Ring) : Bool :=
  g.kind == 0 || decide (7 < g.kind) || decide (63 < g.func) || decide (g.log2 < 6) || decide (16 < g.log2) || decide (7 < g.sev)
    || (g.kind != 5 && g.sev != 0) || bitsOf g.vector 11 4 != 0 || decide (1023 < g.itr) || g.cnt == 0 || decide (4096 < g.cnt)
    || beAt b 28 4 != 0 || !d.mayRing link (hostFn code) (beAt b 0 2) || g.base % 4096 != 0 || g.wb % 8 != 0
    || (bitOf g.vector 15 && decide (d.vectorsOf link g.func ≤ g.vector % 2048))

/-- A setup argument whose every field is one that Table 6.10 admits, for a ring that the requester may set up. -/
structure Dev.GoodSetup (d : Dev) (code link : Nat) (b : List Byte) (g : Ring) : Prop where
  kind : 1 ≤ g.kind ∧ g.kind ≤ 7
  func : g.func ≤ 63
  size : 6 ≤ g.log2 ∧ g.log2 ≤ 16
  sev : g.sev ≤ 7 ∧ (g.kind ≠ 5 → g.sev = 0)
  vector : bitsOf g.vector 11 4 = 0 ∧ (bitOf g.vector 15 = true → g.vector % 2048 < d.vectorsOf link g.func)
  moderation : g.itr ≤ 1023 ∧ 1 ≤ g.cnt ∧ g.cnt ≤ 4096
  reserved : beAt b 28 4 = 0
  granted : d.mayRing link (hostFn code) (beAt b 0 2) = true
  aligned : g.base % 4096 = 0 ∧ g.wb % 8 = 0

theorem badSetup_eq_false_iff {d : Dev} {code link : Nat} {b : List Byte} {g : Ring} :
    d.badSetup code link b g = false ↔ d.GoodSetup code link b g := by
  simp only [Dev.badSetup, Bool.or_eq_false_iff, Bool.and_eq_false_imp, decide_eq_false_iff_not, beq_eq_false_iff_ne, bne_eq_false_iff_eq,
    bne_iff_ne, Bool.not_eq_false', Nat.not_lt, Nat.not_le, and_assoc]
  constructor
  · rintro ⟨hk0, hk, hf, hs0, hs, hv, hv5, hx, hi, hc0, hc, hr, hm, hb, hw, hx15⟩
    exact ⟨⟨Nat.pos_of_ne_zero hk0, hk⟩, hf, ⟨hs0, hs⟩, ⟨hv, hv5⟩, ⟨hx, hx15⟩, ⟨hi, Nat.pos_of_ne_zero hc0, hc⟩, hr, hm, hb, hw⟩
  · rintro ⟨⟨hk0, hk⟩, hf, ⟨hs0, hs⟩, ⟨hv, hv5⟩, ⟨hx, hx15⟩, ⟨hi, hc0, hc⟩, hr, hm, hb, hw⟩
    exact ⟨Nat.ne_of_gt hk0, hk, hf, hs0, hs, hv, hv5, hx, hi, Nat.ne_of_gt hc0, hc, hr, hm, hb, hw, hx15⟩

/-- A field of a setup argument outside Table 6.10, or a ring that is not the requester's to set up, makes the argument bad. -/
theorem badSetup_of {d : Dev} {code link : Nat} {b : List Byte} {g : Ring} (h : g.kind = 0 ∨ 7 < g.kind ∨ g.base % 4096 ≠ 0 ∨ g.wb % 8 ≠ 0 ∨
    g.log2 < 6 ∨ 16 < g.log2 ∨ g.cnt = 0 ∨ 4096 < g.cnt ∨ 1023 < g.itr ∨ d.mayRing link (hostFn code) (beAt b 0 2) = false) :
    d.badSetup code link b g = true := by
  refine eq_true_of_ne_false fun hb => ?_
  obtain ⟨hk, -, hs, -, -, hm, -, hr, ha⟩ := badSetup_eq_false_iff.mp hb
  rw [hr] at h
  simp only [Bool.true_eq_false, or_false] at h
  omega

theorem ringSetupBeh_pre {code link : Nat} {b : List Byte} {g : Ring} (hg : g = { Ring.none with setup := b }) (d : Dev) :
    (ringSetupBeh code link b).pre d = firstAbort [(d.badSetup code link b g, 0x0302), (hostFn code != 0 && g.func != hostFn code, 0x0201)] := by
  subst hg
  rfl

/-- A good argument for the requester's own function, or any function of the PF's link, leaves the state alone to be looked at. -/
theorem ringSetup_pre {d : Dev} {code link : Nat} {b : List Byte} {g : Ring} (hg : g = { Ring.none with setup := b })
    (hb : d.badSetup code link b g = false) (hf : hostFn code = 0 ∨ g.func = hostFn code) : (ringSetupBeh code link b).pre d = 0 := by
  refine (ringSetupBeh_pre hg d).trans ((if_neg (ne_true_of_eq_false hb)).trans (if_neg ?_))
  rw [Bool.and_eq_true_iff, bne_iff_ne, bne_iff_ne]
  tauto

theorem ringSetup_state {d : Dev} (hd : d.Canonical) {code link : Nat} {b : List Byte} {g : Ring} (hg : g = { Ring.none with setup := b })
    (c : Call) : (ringSetupBeh code link b).state (d.taken c) =
      firstAbort [(!d.fnEnabled link g.func || !(d.fn (fnKey link g.func)).live || !(d.fn (hostKey code)).live, 0x0401),
        ((d.ringSt (beAt b 0 2)).state != 0, 0x0402)] := by
  subst hg
  rw [← taken_live hd c, ← taken_live hd c]
  rfl

section
variable {s : State} {o : Origin} {l : Fin 4} {b : List Byte} {g : Ring} (hg : g = { Ring.none with setup := b }) (hl : b.length = 32)
  (h : s.dev.admits (execReq o .hifRingSetup l.val 0 true (.oct b)))
include hg hl h

theorem ringSetup_bad (hb : s.dev.badSetup o.code.toNat l.val b g = true) : exec (.hifRingSetup o l b) s =
    .next (s.refusedWith (execReq o .hifRingSetup l.val 0 true (.oct b)).call [] 0x0302) := by
  rw [exec_hifRingSetup hl]
  exact serve_refused_pre h ((ringSetupBeh_pre hg _).trans (if_pos hb)) (by decide)

variable (hb : s.dev.badSetup o.code.toNat l.val b g = false)
include hb

theorem ringSetup_foreign (h0 : hostFn o.code.toNat ≠ 0) (hf : g.func ≠ hostFn o.code.toNat) : exec (.hifRingSetup o l b) s =
    .next (s.refusedWith (execReq o .hifRingSetup l.val 0 true (.oct b)).call [] 0x0201) := by
  rw [exec_hifRingSetup hl]
  refine serve_refused_pre h ((ringSetupBeh_pre hg _).trans ((if_neg (ne_true_of_eq_false hb)).trans (if_pos ?_))) (by decide)
  rw [bne_iff_ne.mpr h0, bne_iff_ne.mpr hf]
  rfl

variable (hf : hostFn o.code.toNat = 0 ∨ g.func = hostFn o.code.toNat) (hs : s.Inv)
include hf hs

theorem ringSetup_dead (hd : s.dev.fnEnabled l.val g.func = false ∨ (s.dev.fn (fnKey l.val g.func)).live = false ∨
    (s.dev.fn (hostKey o.code.toNat)).live = false) : exec (.hifRingSetup o l b) s =
      .next (s.refusedWith (execReq o .hifRingSetup l.val 0 true (.oct b)).call [] 0x0401) := by
  rw [exec_hifRingSetup hl]
  refine serve_refused_state h (ringSetup_pre (d := s.dev.taken _) hg hb hf) ((ringSetup_state hs.1 hg _).trans (if_pos ?_)) (by decide)
  simpa [or_assoc] using hd

variable (he : s.dev.fnEnabled l.val g.func = true) (hlf : (s.dev.fn (fnKey l.val g.func)).live = true)
  (hlo : (s.dev.fn (hostKey o.code.toNat)).live = true)
include he hlf hlo

theorem ringSetup_held (hr : (s.dev.ringSt (beAt b 0 2)).state ≠ 0) : exec (.hifRingSetup o l b) s =
    .next (s.refusedWith (execReq o .hifRingSetup l.val 0 true (.oct b)).call [] 0x0402) := by
  rw [exec_hifRingSetup hl]
  refine serve_refused_state h (ringSetup_pre (d := s.dev.taken _) hg hb hf) ((ringSetup_state hs.1 hg _).trans ?_) (by decide)
  rw [he, hlf, hlo, bne_iff_ne.mpr hr]
  rfl

theorem ringSetup_served (hr : (s.dev.ringSt (beAt b 0 2)).state = 0) : exec (.hifRingSetup o l b) s =
    .next (s.served (execReq o .hifRingSetup l.val 0 true (.oct b)).call
      [.ring (beAt b 0 2) fun _ => { Ring.none with state := 1, setup := b }] []) := by
  rw [exec_hifRingSetup hl]
  refine served_done hs h (ringSetup_pre (d := s.dev.taken _) hg hb hf) ((ringSetup_state hs.1 hg _).trans ?_) rfl rfl
  rw [he, hlf, hlo, hr]
  rfl

end

/-! ## HIF_RING_TEARDOWN and HIF_RING_QUERY (R190, Table 6.16) -/

section
variable {s : State} {o : Origin} {l : Fin 4} {r : BitVec 16}

theorem ringTeardown_served (hs : s.Inv) (h : s.dev.admits (execReq o .hifRingTeardown l.val 0 true (.num r.toNat)))
    (hm : s.dev.mayRing l.val (hostFn o.code.toNat) r.toNat = true) : exec (.hifRingTeardown o l r) s =
      .next (s.served (execReq o .hifRingTeardown l.val 0 true (.num r.toNat)).call
        [.dropRings (· == r.toNat), .dropPaths (· == 0x1000 + r.toNat),
         .clk fun c => { c with held := c.held.filter fun x => !([0x1000 + r.toNat] : List Nat).contains (pathKey x.o.path) }] []) := by
  rw [exec_hifRingTeardown]
  exact served_done hs h (if_pos hm) rfl rfl rfl

theorem ringTeardown_refused (h : s.dev.admits (execReq o .hifRingTeardown l.val 0 true (.num r.toNat)))
    (hm : s.dev.mayRing l.val (hostFn o.code.toNat) r.toNat = false) : exec (.hifRingTeardown o l r) s =
      .next (s.refusedWith (execReq o .hifRingTeardown l.val 0 true (.num r.toNat)).call [] 0x0302) := by
  rw [exec_hifRingTeardown]
  exact serve_refused_pre h (if_neg (ne_true_of_eq_false hm)) (by decide)

theorem ringQuery_served (hs : s.Inv) (h : s.dev.admits (execReq o .hifRingQuery l.val 0 true (.num r.toNat)))
    (ho : isHost o.code.toNat = true) (hm : s.dev.mayRing l.val (hostFn o.code.toNat) r.toNat = true) : exec (.hifRingQuery o l r) s =
      .next (s.served (execReq o .hifRingQuery l.val 0 true (.num r.toNat)).call []
        (padTo 32 (s.dev.ringSt r.toNat).setup ++ pathBytes o.path 4 (s.dev.ringSt r.toNat).status)) := by
  have hq : s.dev.mayRing l.val (if isHost o.code.toNat then hostFn o.code.toNat else 0) r.toNat = true := by rw [if_pos ho, hm]
  rw [exec_hifRingQuery]
  exact served_done hs h (if_pos hq) rfl rfl rfl

end

/-! ## HIF_DMAP_SET (R182) -/

/-- Whether an object may be read depends on the requester alone. -/
theorem accessAbort_read (d e : Dev) (code : Nat) (x : Obj) (i j : Nat) : d.accessAbort code 1 x i j = e.accessAbort code 1 x i j := by
  simp [Dev.accessAbort, letterOf]

section
variable {s : State} {o : Origin} {l : Fin 4} {v : BitVec 64} (hs : s.Inv)
  (h : s.dev.admits (execReq o .hifDmapSet l.val 0 true (.num v.toNat))) (h48 : v.toNat / 2 ^ 48 = 0) (h8 : v.toNat % 256 = 0)
  (h1023 : bitsOf v.toNat 32 16 ≤ 1023)
include hs h h48 h8 h1023

theorem dmapSet_cleared (h0 : bitsOf v.toNat 16 16 = 0) : exec (.hifDmapSet o l v) s =
    .next (s.served (execReq o .hifDmapSet l.val 0 true (.num v.toNat)).call
      [.fn (fnKey l.val (hostFn (s.dev.codeOf o.path))) fun y => { y with dmap := SMap.put 0 (bitsOf v.toNat 32 16) 0 y.dmap }] []) := by
  rw [exec_hifDmapSet, ← taken_codeOf s.dev (execReq o .hifDmapSet l.val 0 true (.num v.toNat)).call]
  refine served_done hs h ?_ rfl rfl ?_
  · refine (if_pos h0).trans (if_neg ?_)
    omega
  · rw [h0]
    rfl

theorem dmapSet_placed {x : Obj} {i j : Nat} (h0 : bitsOf v.toNat 16 16 ≠ 0)
    (ht : target (bitsOf v.toNat 16 16) (bitsOf v.toNat 8 8) = .elem x i j) (ha : s.dev.accessAbort (s.dev.codeOf o.path) 1 x i j = 0)
    (hc : isCounter x = false) (hy : x.row.ty = .bool ∨ (∃ w, x.row.ty = .u w ∨ x.row.ty = .s w) ∨ (∃ n, n ≤ 16 ∧ x.row.ty = .oct n)) :
    exec (.hifDmapSet o l v) s = .next (s.served (execReq o .hifDmapSet l.val 0 true (.num v.toNat)).call
      [.fn (fnKey l.val (hostFn (s.dev.codeOf o.path))) fun y => { y with
        dmap := SMap.put 0 (bitsOf v.toNat 32 16) (bitsOf v.toNat 16 16 * 256 + bitsOf v.toNat 8 8) y.dmap }] []) := by
  rw [exec_hifDmapSet]
  rw [← taken_codeOf s.dev (execReq o .hifDmapSet l.val 0 true (.num v.toNat)).call] at ha ⊢
  rw [accessAbort_read _ (s.dev.taken (execReq o .hifDmapSet l.val 0 true (.num v.toNat)).call)] at ha
  refine served_done hs h ?_ rfl rfl ?_
  · have h16 : ¬1023 < bitsOf v.toNat 32 16 := Nat.not_lt.mpr h1023
    simp only [dmapSetBeh, beh, if_neg h0, ht, ha, hc, h48, h8, decide_eq_false h16]
    obtain hy | ⟨w, hy | hy⟩ | ⟨n, hn, hy⟩ := hy
    all_goals simp only [hy]
    · rfl
    · rfl
    · rfl
    · rw [decide_eq_false (Nat.not_lt.mpr hn)]
      rfl
  · rw [if_neg h0]
    rfl

end

/-! ## An entry of a ring is finished (R185, R186, R191) -/

/-- The item that a finished descriptor is written back as. -/
def Dev.wroteBack (d : Dev) (r : Nat) (x : Desc) (len status metaw : Nat) : Out :=
  ⟨.dma, d.ringFn r, (d.ringSt r).base + 32 * ((d.ringSt r).devIx % 2 ^ (d.ringSt r).log2), descWriteBack x len status metaw false⟩

/-- A ring has these descriptors posted and this DEVICE_INDEX, and an item has been put out. -/
structure Dev.RingAt (d : Dev) (r : Nat) (posted : List Desc) (ix : Nat) (w : Out) : Prop where
  wf : SMap.wf Ring.none d.rings = true
  posted : (d.ringSt r).posted = posted
  ix : (d.ringSt r).devIx = ix
  out : w ∈ d.outs

section
variable {r ix : Nat} {ps : List Desc} {w : Out}

theorem ringSt_ring {d : Dev} (hw : SMap.wf Ring.none d.rings = true) (r : Nat) (f : Ring → Ring) :
    ((Eff.ring r f).apply d).ringSt r = f (d.ringSt r) := SMap.get_put_same (b := 0) _ _ _ hw

/-- A change of the ring that is known on its descriptors and its index. -/
theorem Dev.RingAt.ring {d : Dev} (h : d.RingAt r ps ix w) {f : Ring → Ring} {qs : List Desc} {jx : Nat} (hp : (f (d.ringSt r)).posted = qs)
    (hi : (f (d.ringSt r)).devIx = jx) : ((Eff.ring r f).apply d).RingAt r qs jx w where
  wf := SMap.upd_wf h.wf
  posted := by rw [ringSt_ring h.wf, hp]
  ix := by rw [ringSt_ring h.wf, hi]
  out := h.out

/-- An effect that leaves a ring's descriptors, its index and what was put out. -/
abbrev Eff.leavesRing (r ix : Nat) (ps : List Desc) (w : Out) (e : Eff) : Prop := ∀ d : Dev, d.RingAt r ps ix w → (e.apply d).RingAt r ps ix w

theorem leavesRing_out (o : Out) : (Eff.out o).leavesRing r ix ps w := fun _ h => { h with out := List.mem_cons_of_mem _ h.out }
theorem leavesRing_raise (src code inst a0 a1 : Nat) : (Eff.raise src code inst a0 a1).leavesRing r ix ps w := fun _ h => { h with }
theorem leavesRing_vec (k : Nat) (f : Vec → Vec) : (Eff.vec k f).leavesRing r ix ps w := fun _ h => { h with }
theorem leavesRing_ring {f : Ring → Ring} (hp : ∀ x, (f x).posted = x.posted) (hi : ∀ x, (f x).devIx = x.devIx) :
    (Eff.ring r f).leavesRing r ix ps w := fun _ h => h.ring ((hp _).trans h.posted) ((hi _).trans h.ix)

theorem assertVector_leavesRing (l f v : Nat) : (assertVector l f v).Only (Eff.leavesRing r ix ps w) := fun d => by
  refine only_when ⟨?_, trivial⟩
  dsimp only
  split
  · exact leavesRing_vec _ _
  · exact fun _ => leavesRing_out _

theorem ringVector_leavesRing : (ringVector r).Only (Eff.leavesRing r ix ps w) := fun _ =>
  ⟨leavesRing_ring (fun _ => rfl) fun _ => rfl, only_when ⟨assertVector_leavesRing _ _ _, trivial⟩, trivial⟩

theorem ringError_leavesRing (status : Nat) : (ringError r status).Only (Eff.leavesRing r ix ps w) := fun _ =>
  ⟨leavesRing_ring (fun _ => rfl) fun _ => rfl, leavesRing_raise _ _ _ _ _, trivial⟩

/-- What a finished entry is followed by: DEVICE_INDEX is written back and the vector is raised. -/
theorem ringAdvance_ringAt {d : Dev} (h : d.RingAt r ps ix w) : ((ringAdvance r).run d).RingAt r ps ((ix + 1) % 2 ^ 32) w := by
  have h1 : ((Eff.ring r fun x => { x with devIx := (x.devIx + 1) % 2 ^ 32, unsig := x.unsig + 1 }).apply d).RingAt r ps ((ix + 1) % 2 ^ 32) w :=
    h.ring h.posted (by rw [h.ix])
  rw [ringAdvance, Prog.run_all_cons, Prog.run_eff]
  refine Prog.Only.keeps (P := fun e => e.RingAt r ps ((ix + 1) % 2 ^ 32) w) ⟨fun e => ?_, trivial⟩ h1
  exact ⟨only_when ⟨leavesRing_out _, trivial⟩, only_when ⟨ringVector_leavesRing, trivial⟩, trivial⟩

end

section
variable {d : Dev} {r : Nat} {x : Desc} {rest : List Desc} (hp : (d.ringSt r).posted = x :: rest)
include hp

theorem ringComplete_run (status len metaw : Nat) : (ringComplete r status len metaw).run d = (Prog.all [
    ringAdvance r, .when (status == 2) [raise (64 + 16 * d.linkOfRing r + 9) r],
    .when (status == 4 || status == 5) [ringError r status]]).run
      (d.after [.out (d.wroteBack r x len status metaw), .ring r fun y => { y with posted := y.posted.tail }]) := by
  simp only [ringComplete, ringPart, Prog.run_ask, hp]
  rfl

/-- The oldest descriptor goes, DEVICE_INDEX moves on, and the descriptor has been written back. -/
theorem ringComplete_ringAt (hw : SMap.wf Ring.none d.rings = true) (status len metaw : Nat) :
    ((ringComplete r status len metaw).run d).RingAt r rest (((d.ringSt r).devIx + 1) % 2 ^ 32) (d.wroteBack r x len status metaw) := by
  have hout : ((Eff.out (d.wroteBack r x len status metaw)).apply d).RingAt r (x :: rest) (d.ringSt r).devIx (d.wroteBack r x len status metaw) :=
    ⟨hw, hp, rfl, List.mem_cons_self⟩
  have htail : (d.after [.out (d.wroteBack r x len status metaw), .ring r fun y => { y with posted := y.posted.tail }]).RingAt r rest
      (d.ringSt r).devIx (d.wroteBack r x len status metaw) := hout.ring (congrArg List.tail hp) rfl
  rw [ringComplete_run hp, Prog.run_all_cons]
  refine Prog.Only.keeps (P := fun e => e.RingAt r rest (((d.ringSt r).devIx + 1) % 2 ^ 32) _) ⟨?_, ?_, trivial⟩ (ringAdvance_ringAt htail)
  · exact only_when ⟨leavesRing_raise _ _ _ _ _, trivial⟩
  · exact only_when ⟨ringError_leavesRing _, trivial⟩

/-- A stale descriptor raises event 64 + 16n + 9 (R195). -/
theorem ringComplete_stale (len metaw : Nat) :
    ((ringComplete r 2 len metaw).run d).raisedEvent (64 + 16 * d.linkOfRing r + 9) 0 r := by
  rw [ringComplete_run hp]
  exact raisedEvent_raise _ _ _ _ _ _

end

section
variable {d : Dev} (hd : d.Canonical) (r status len metaw : Nat)
include hd

theorem ringComplete_fwd : ((ringComplete r status len metaw).run d).fwd = d.fwd :=
  (only_ringComplete r status len metaw).same (x := .fwd) hd.objs (by decide)

theorem ringComplete_clk : ((ringComplete r status len metaw).run d).clk = d.clk :=
  (only_ringComplete r status len metaw).same (x := .clk) hd.objs (by decide)

theorem ringComplete_pwr : ((ringComplete r status len metaw).run d).pwr = d.pwr :=
  (only_ringComplete r status len metaw).same (x := .pwr) hd.objs (by decide)

theorem ringComplete_share (p : Nat) : ((ringComplete r status len metaw).run d).ingressShare p = d.ingressShare p := by
  have hnum {o : Obj} {i j : Nat} (hk : 0x500000 ≤ o.key i j) :
      ((ringComplete r status len metaw).run d).num o i j = d.num o i j := (only_ringComplete r status len metaw).num hd.objs
    (eq_false_of_ne_true fun h => absurd (replyKeys_lt h) (Nat.not_lt.mpr hk))
  simp only [Dev.ingressShare]
  split
  · exact hnum (by decide)
  · refine hnum ?_
    simp only [Obj.key, Obj.row]
    omega

theorem ringComplete_pwrState : ((ringComplete r status len metaw).run d).num .pwrState = d.num .pwrState :=
  (only_ringComplete r status len metaw).num hd.objs (by decide)

end

/-! ## HOST_TX_DESCRIPTOR (R187, R43) -/

/-- The packet of a descriptor from a host: it enters from port 112 + n with the traffic class that META names. -/
def hostArrival (link metaw : Nat) (b : List Byte) : Arrival :=
  ⟨Fin.ofNat 118 (112 + link), Fin.ofNat 8 (bitsOf metaw 48 3), false, false, none, 0, 0, 0, 0, 0, b⟩

theorem hostArrival_port {link : Nat} (h : link < 4) (metaw : Nat) (b : List Byte) : (hostArrival link metaw b).port.val = 112 + link :=
  Nat.mod_eq_of_lt (by omega)

theorem hostArrival_wf {link : Nat} (h : link < 4) (metaw : Nat) {b : List Byte} (h14 : 14 ≤ b.length) (hmax : b.length ≤ 16383) :
    (hostArrival link metaw b).wf = true := by
  have hp := hostArrival_port h metaw b
  have hd : (hostArrival link metaw b).data = b := rfl
  have hf : ¬112 + link ≤ 111 := by omega
  have h116 : ¬112 + link = 116 := by omega
  have h1 : 1 ≤ b.length := by omega
  simp only [Arrival.wf, hp, hd, decide_eq_true h1, decide_eq_true hmax, decide_eq_false hf, Bool.and_false, beq_false_of_ne h116]
  rfl

/-- A packet of one descriptor is that descriptor. -/
theorem txChain_single {x : Desc} (h : bitOf x.ctrl.toNat 14 = false) (rest : List Desc) : txChain (x :: rest) = some [x] := by
  simp [txChain, h]

section
variable {s : State} {r : Fin 4096} {x : Desc} {rest : List Desc} (ha : s.dev.answers = true)
  (hp : (s.dev.ringSt r.val).posted = x :: rest) (h1 : (s.dev.ringSt r.val).state = 1) (h2 : (s.dev.ringSt r.val).kind = 2)
  (hm : bitOf x.ctrl.toNat 14 = false)
include ha hp h1 h2 hm

/-- A stale or malformed descriptor ends the packet with its own status. -/
theorem hostTx_discarded (hf : s.dev.descFate r.val x = 2 ∨ s.dev.descFate r.val x = 3) : exec (.hostTxDescriptor r) s =
    .next { s with dev := (ringComplete r.val (s.dev.descFate r.val x) (descSize x) x.metaw.toNat).run s.dev } := by
  rw [exec_hostTxDescriptor, execHostTxDescriptor, State.run_eq]
  simp only [Prog.run_ask, hp, txChain_single hm, h1, h2, ha]
  obtain hf | hf := hf
  · simp [hf, finishDescs, Prog.each]
  · simp [hf, finishDescs, Prog.each]

variable (hf : s.dev.descFate r.val x = 0) {b : List Byte} (hb : b = x.buf.take (descSize x))
include hf hb

/-- Bytes that are no frame end the packet with status 3. -/
theorem hostTx_unframed (hl : b.length < 14 ∨ 16383 < b.length) : exec (.hostTxDescriptor r) s =
    .next { s with dev := (ringComplete r.val 3 (descSize x) x.metaw.toNat).run s.dev } := by
  rw [exec_hostTxDescriptor, execHostTxDescriptor, State.run_eq]
  simp only [Prog.run_ask, hp, txChain_single hm, h1, h2, ha, List.map_cons, List.map_nil, hf, List.flatMap_singleton, ← hb]
  have hl' : 16 < [x].length ∨ b.length < 14 ∨ 16383 < b.length ∨ [0].contains 3 = true := .inr (hl.imp_right .inl)
  rw [if_pos hl']
  rfl

/-- A packet for the Carousel ends with status 0 and enters. -/
theorem hostTx_entered (h14 : 14 ≤ b.length) (hmax : b.length ≤ 16383) (h27 : bitOf x.metaw.toNat 27 = false)
    (hroom : s.dev.ingressCells (112 + s.dev.linkOfRing r.val) + cellsOf b ≤ s.dev.ingressShare (112 + s.dev.linkOfRing r.val)) :
    exec (.hostTxDescriptor r) s = .next { s with
      dev := (ingress (hostArrival (s.dev.linkOfRing r.val) x.metaw.toNat b)).run
        ((ringComplete r.val 0 (descSize x) x.metaw.toNat).run s.dev) } := by
  rw [exec_hostTxDescriptor, execHostTxDescriptor, State.run_eq]
  simp only [Prog.run_ask, hp, txChain_single hm, h1, h2, ha, List.map_cons, List.map_nil, hf, List.flatMap_singleton, ← hb]
  have hl : ¬(16 < [x].length ∨ b.length < 14 ∨ 16383 < b.length ∨ [0].contains 3 = true) := by
    simp [h14, hmax]
  have h27' : ¬bitOf ([x].headD ⟨0, 0, 0, 0, 0, 0, 0, [], 0⟩).metaw.toNat 27 = true := by simp [h27]
  rw [if_neg hl, if_neg h27', if_neg (Nat.not_lt.mpr hroom)]
  rfl

end

/-- A packet that finds room enters behind those that wait, from the port of its host. -/
theorem ingress_hostArrival {e : Dev} {link metaw : Nat} {b : List Byte} (ha : e.answers = true) (hr : e.inRun) (hk : link < 4)
    (h14 : 14 ≤ b.length) (hmax : b.length ≤ 16383) (hc : e.portClosed (112 + link) = false)
    (hroom : e.ingressCells (112 + link) + cellsOf b ≤ e.ingressShare (112 + link)) :
    ((ingress (hostArrival link metaw b)).run e).rings = e.rings ∧ ((ingress (hostArrival link metaw b)).run e).outs = e.outs ∧
      ∃ p : Pkt, ((ingress (hostArrival link metaw b)).run e).fwd.waiting = e.fwd.waiting ++ [p] ∧ p.port = 112 + link ∧ p.data = b := by
  have hw := hostArrival_wf hk metaw h14 hmax
  have hport := hostArrival_port hk metaw b
  have hentry : e.entryPort (hostArrival link metaw b).port.val = 112 + link :=
    (congrArg e.entryPort hport).trans (entryPort_self (.inr (.inl (by omega))))
  have hpresent : e.portPresent (112 + link) = true := by
    rw [Dev.portPresent, if_neg (by omega), if_neg (by omega)]
    exact decide_eq_true (by omega)
  have hstored := (exec_packetIngress (s := ⟨[], e⟩) hw ha).symm.trans
    (ingress_stored hw ha hr (by rw [hentry]; exact hpresent) (by rw [hport]; exact hc) (by rw [hentry]; exact hroom))
  have hrun := congrArg State.dev (Host.Outcome.next.inj hstored)
  dsimp only at hrun
  rw [hrun]
  exact ⟨rfl, rfl, _, rfl, hentry, rfl⟩

section
variable {s : State} {r : Fin 4096} {x : Desc} {rest : List Desc} (hs : s.Inv) (ha : s.dev.answers = true)
  (hp : (s.dev.ringSt r.val).posted = x :: rest) (h1 : (s.dev.ringSt r.val).state = 1) (h2 : (s.dev.ringSt r.val).kind = 2)
  (hm : bitOf x.ctrl.toNat 14 = false) (hf : s.dev.descFate r.val x = 0) {b : List Byte} (hb : b = x.buf.take (descSize x))
  (h14 : 14 ≤ b.length) (hmax : b.length ≤ 16383) (h27 : bitOf x.metaw.toNat 27 = false)
include hs ha hp h1 h2 hm hf hb h14 hmax h27

theorem hostTx_stored (hr : s.dev.inRun) (hk : s.dev.linkOfRing r.val < 4)
    (hc : s.dev.portClosed (112 + s.dev.linkOfRing r.val) = false)
    (hroom : s.dev.ingressCells (112 + s.dev.linkOfRing r.val) + cellsOf b ≤ s.dev.ingressShare (112 + s.dev.linkOfRing r.val)) :
    ∃ t, exec (.hostTxDescriptor r) s = .next t ∧ t.pending = s.pending ∧ (t.dev.ringSt r.val).posted = rest ∧
      (∃ p : Pkt, t.dev.fwd.waiting = s.dev.fwd.waiting ++ [p] ∧ p.port = 112 + s.dev.linkOfRing r.val ∧ p.data = b) ∧
      s.dev.wroteBack r.val x (descSize x) 0 x.metaw.toNat ∈ t.dev.outs := by
  have hring := ringComplete_ringAt hp hs.1.rings 0 (descSize x) x.metaw.toNat
  have hclk := ringComplete_clk hs.1 r.val 0 (descSize x) x.metaw.toNat
  have hpwr := ringComplete_pwr hs.1 r.val 0 (descSize x) x.metaw.toNat
  have hst := ringComplete_pwrState hs.1 r.val 0 (descSize x) x.metaw.toNat
  have hfwd := ringComplete_fwd hs.1 r.val 0 (descSize x) x.metaw.toNat
  have hshare := ringComplete_share hs.1 r.val 0 (descSize x) x.metaw.toNat (112 + s.dev.linkOfRing r.val)
  have hrun := hostTx_entered ha hp h1 h2 hm hf hb h14 hmax h27 hroom
  generalize (ringComplete r.val 0 (descSize x) x.metaw.toNat).run s.dev = e at *
  obtain ⟨hrings, houts, p, hwait, hport, hdata⟩ := ingress_hostArrival (metaw := x.metaw.toNat)
    ((answers_congr (by rw [hclk]) (by rw [hclk]) hst).trans ha) ⟨hst.trans hr.1, (congrArg Pwr.req hpwr).trans hr.2⟩ hk h14 hmax
    (by rw [Dev.portClosed, hclk]; exact hc) (by rw [hshare, Dev.ingressCells, hfwd]; exact hroom)
  refine ⟨_, hrun, rfl, ?_, ⟨p, by rw [← hfwd]; exact hwait, hport, hdata⟩, by rw [houts]; exact hring.out⟩
  rw [Dev.ringSt, hrings]
  exact hring.posted

end

/-! ## RING_ITR_EXPIRY (R191, R194) -/

section
variable {d : Dev} {l f v : Nat} (hc : d.canSignal l f = true)
include hc

theorem assertVector_sent (hm : (d.fn (fnKey l f)).msixMask = false) (hv : (SMap.get Vec.none d.vecs (vecKey (fnKey l f) v)).masked = false) :
    (assertVector l f v).run d = (Eff.out ⟨.msix, fnKey l f, v, leBytes 8 (SMap.get Vec.none d.vecs (vecKey (fnKey l f) v)).addr ++
      leBytes 4 (SMap.get Vec.none d.vecs (vecKey (fnKey l f) v)).data⟩).apply d := by
  simp only [assertVector, Prog.run_ask, hc, Prog.when_true, hm, hv]
  rfl

theorem assertVector_pending (h : (d.fn (fnKey l f)).msixMask = true ∨ (SMap.get Vec.none d.vecs (vecKey (fnKey l f) v)).masked = true) :
    (assertVector l f v).run d = (Eff.vec (vecKey (fnKey l f) v) fun x => { x with pend := true }).apply d := by
  simp only [assertVector, Prog.run_ask, hc, Prog.when_true, Bool.or_eq_true, if_pos h]
  rfl

end

section
variable {s : State} {r : Fin 4096} (ha : s.dev.answers = true) (hu : (s.dev.ringSt r.val).unsig ≠ 0)
include ha hu

theorem itrExpiry_run : exec (.ringItrExpiry r) s = .next { s with dev := (ringVector r.val).run s.dev } := by
  simp only [exec_ringItrExpiry, execRingItrExpiry, State.run_eq, Prog.run_ask, ha, bne_iff_ne.mpr hu, Bool.and_self, Prog.when_true]
  rfl

theorem itrExpiry_silent (hv : bitOf (s.dev.ringSt r.val).vector 15 = false) : exec (.ringItrExpiry r) s =
    .next (s.after [.ring r.val fun x => { x with unsig := 0 }]) := by
  simp only [itrExpiry_run ha hu, ringVector, Prog.run_ask, hv, Prog.when_false]
  rfl

variable (hv : bitOf (s.dev.ringSt r.val).vector 15 = true)
include hv

theorem itrExpiry_asserts : exec (.ringItrExpiry r) s = .next { s with
    dev := (assertVector (s.dev.linkOfRing r.val) (s.dev.ringSt r.val).func ((s.dev.ringSt r.val).vector % 2048)).run
      ((Eff.ring r.val fun x => { x with unsig := 0 }).apply s.dev) } := by
  simp only [itrExpiry_run ha hu, ringVector, Prog.run_ask, hv, Prog.when_true]
  rfl

variable (hc : s.dev.canSignal (s.dev.linkOfRing r.val) (s.dev.ringSt r.val).func = true) {k : Nat} {v : Vec}
  (hk : k = fnKey (s.dev.linkOfRing r.val) (s.dev.ringSt r.val).func)
  (he : v = SMap.get Vec.none s.dev.vecs (vecKey k ((s.dev.ringSt r.val).vector % 2048)))
include hc hk he

theorem itrExpiry_sent (hm : (s.dev.fn k).msixMask = false) (hmv : v.masked = false) : exec (.ringItrExpiry r) s =
    .next (s.after [.ring r.val fun x => { x with unsig := 0 },
      .out ⟨.msix, k, (s.dev.ringSt r.val).vector % 2048, leBytes 8 v.addr ++ leBytes 4 v.data⟩]) := by
  subst hk he
  rw [itrExpiry_asserts ha hu hv, assertVector_sent (d := (Eff.ring r.val _).apply s.dev) hc hm hmv]
  rfl

theorem itrExpiry_pending (hm : (s.dev.fn k).msixMask = true ∨ v.masked = true) : exec (.ringItrExpiry r) s =
    .next (s.after [.ring r.val fun x => { x with unsig := 0 },
      .vec (vecKey k ((s.dev.ringSt r.val).vector % 2048)) fun y => { y with pend := true }]) := by
  subst hk he
  rw [itrExpiry_asserts ha hu hv, assertVector_pending (d := (Eff.ring r.val _).apply s.dev) hc hm]
  rfl

end

/-- Settles O21: the requests are served by their behaviours; a descriptor is finished by `ringComplete`, after which its packet enters; a ring's
timer asserts its vector. -/
theorem ringCommands : Obligations.RingCommands := by
  refine ⟨fun s o l b g hs hg hl h => ⟨fun hbad => ringSetup_bad hg hl h (badSetup_of hbad), ?_⟩,
    fun s o l r hs => ⟨fun h => ringTeardown_served hs h, fun h => ringTeardown_refused h, fun h => ringQuery_served hs h⟩,
    fun s o l v hs h h48 h8 h1023 => ⟨dmapSet_cleared hs h h48 h8 h1023, fun x i j => dmapSet_placed hs h h48 h8 h1023⟩,
    fun s r x rest hs ha hr hp h1 h2 hm b wb hb hwb => ?_,
    fun s r hs ha hu => ⟨itrExpiry_silent ha hu, fun k v hk he hv hc => ⟨itrExpiry_sent ha hu hv hc hk he, itrExpiry_pending ha hu hv hc hk he⟩⟩⟩
  · intro hk0 hk hf hs0 hs' hv hv5 hx hi hc0 hc hres hm hbase hw hx15
    have hb : s.dev.badSetup o.code.toNat l.val b g = false := badSetup_eq_false_iff.mpr
      ⟨⟨hk0, hk⟩, hf, ⟨hs0, hs'⟩, ⟨hv, hv5⟩, ⟨hx, hx15⟩, ⟨hi, hc0, hc⟩, hres, hm, hbase, hw⟩
    exact ⟨ringSetup_foreign hg hl h hb, fun hfn => ⟨ringSetup_dead hg hl h hb hfn hs, fun he hlf hlo =>
      ⟨ringSetup_held hg hl h hb hfn hs he hlf hlo, ringSetup_served hg hl h hb hfn hs he hlf hlo⟩⟩⟩
  · have hfwd (st : Nat) := ringComplete_fwd hs.1 r.val st (descSize x) x.metaw.toNat
    have hring (st : Nat) := ringComplete_ringAt hp hs.1.rings st (descSize x) x.metaw.toNat
    subst hwb
    refine ⟨fun hf => ⟨_, hostTx_discarded ha hp h1 h2 hm hf, rfl, (hring _).posted, (hring _).ix, hfwd _, (hring _).out, fun h => ?_⟩,
      fun hf hbl => ⟨_, hostTx_unframed ha hp h1 h2 hm hf hb hbl, rfl, (hring _).posted, hfwd _, (hring _).out⟩,
      fun hf h14 hmax h27 hk hc hroom => hostTx_stored hs ha hp h1 h2 hm hf hb h14 hmax h27 hr hk hc hroom⟩
    rw [h]
    exact ringComplete_stale hp _ _

end Sys2Proof.Machine
end

section
/-!
PROOFS shared by what follows: effects in a row, what a new FE_STATE writes, and a burst-enable that stays low.
-/
namespace Sys2Proof.Machine

/-! ## Effects in a row -/

/-- An object that one effect of a list writes and no later one does. -/
theorem after_obj_num {es : List Eff} {d : Dev} (hd : d.Canonical) {o : Obj} {i j v : Nat}
    (h : (es.any fun e => e.keys (o.key i j)) = false) : (d.after (.obj o i j (.num v) :: es)).num o i j = v :=
  (after_num (Eff.apply_canonical _ d hd).objs h).trans (Dev.num_put hd.objs _ _ _ _)

/-- Effects that take no occurrence away leave an event raised. -/
theorem after_raisedEvent {es : List Eff} (h : ∀ e ∈ es, e.keepsOccs = true) {d : Dev} {src code inst : Nat}
    (hr : d.raisedEvent src code inst) : (d.after es).raisedEvent src code inst := by
  induction es generalizing d with
  | nil => exact hr
  | cons e es ih =>
    obtain ⟨x, hx, hs⟩ := hr
    exact ih (fun f hf => h f (by simp [hf])) ⟨x, Eff.mem_occs (h e (by simp)) hx, hs⟩

/-! ## FE_STATE (Table 7.7) -/

/-- What a new FE_STATE brings with it beside its own value. -/
def Dev.feFollows (d : Dev) (n new : Nat) : Prog := .all [
  .when (new == 2 && d.num .feState n != 2) [
    raise (chEvt n 0) n,
    putN .dmtState n 0 1, profilesOff n, putN .frmAlignState n 0 0,
    .eff (.fch n fun c => { c with presync := 0, failRun := 0, outFrames := 0 }),
    .ask fun e => .when (e.num .actState n == 0) [actTo n 1 4]],
  .when (new != 2 && d.num .feState n == 2) [
    dmtLeave n 0 3,
    .eff (.fch n fun c => { c with rx := [] })]]

theorem feTo_run (n new : Nat) (d : Dev) :
    (feTo n new).run d = (d.feFollows n new).run ((Eff.obj .feState n 0 (.num new)).apply d) := rfl

/-- The objects that the loss of a recovered reference may write. -/
def refKeys (n : Nat) : Nat → Bool := fun k => timingKeys k || holdKeys n k || keysOf [(.clkFchState, 0, n)] k

/-- The objects that a new FE_STATE may write beside its own. -/
def feKeys (n : Nat) : Nat → Bool := fun k => refKeys n k || leaveKeys k ||
  keysOf [(.dmtState, n, 0), (.dmtProfileActive, n, 0), (.dmtProfileEnable, n, 0), (.frmAlignState, n, 0)] k

/-- The parts that a new FE_STATE may change. -/
def feParts : List Part := [.occs, .fch, .tm, .clk]

theorem feKeys_ref {n k : Nat} (h : refKeys n k = true) : feKeys n k = true := by simp [feKeys, h]
theorem feKeys_leave {n k : Nat} (h : leaveKeys k = true) : feKeys n k = true := by simp [feKeys, h]
theorem feKeys_state (n : Nat) : feKeys n (Obj.actState.key n 0) = true := feKeys_ref (by simp [refKeys, holdKeys_actState])
theorem feKeys_own {n : Nat} {o : Obj}
    (h : o ∈ [Obj.dmtState, .dmtProfileActive, .dmtProfileEnable, .frmAlignState]) : feKeys n (o.key n 0) = true := by
  simp only [List.mem_cons, List.not_mem_nil, or_false] at h
  rcases h with rfl | rfl | rfl | rfl <;> simp [feKeys, keysOf]

theorem refLost_adds (n : Nat) : (refLost n).Only (Eff.adds (refKeys n) feParts) := fun d =>
  ⟨adds_fch (by decide) _ _, only_when ⟨adds_obj.mpr (by simp [refKeys, keysOf]), adds_raise (by decide) _ _ _ _ _,
    only_when ⟨(timingLost_adds (ps := feParts) (by decide) (by decide) n).mono fun _ h =>
      h.mono (fun k hk => by simp [refKeys, hk]) fun _ hp => hp, trivial⟩,
    adds_fch (by decide) _ _, only_when ⟨adds_fch (by decide) _ _, trivial⟩,
    (toHolding_adds (ps := feParts) (by decide) (by decide) n).mono fun _ h => h.mono (fun k hk => by simp [refKeys, hk]) fun _ hp => hp,
    trivial⟩, trivial⟩

theorem refLost_adds_fe (n : Nat) : (refLost n).Only (Eff.adds (feKeys n) feParts) :=
  (refLost_adds n).mono fun _ h => h.mono (fun _ => feKeys_ref) fun _ hp => hp

/-- The objects that a change of the activation state may write. -/
def moveKeys (n : Nat) : Nat → Bool := fun k => leaveKeys k || keysOf [(.actState, n, 0)] k

theorem actTo_adds_move (n new cause : Nat) : (actTo n new cause).Only (Eff.adds (moveKeys n) feParts) := fun d =>
  only_when ⟨adds_obj.mpr (by simp [moveKeys, keysOf]), adds_raise (by decide) _ _ _ _ _,
    (leaves_adds d n new).mono fun _ h => h.mono (fun _ hk => by simp [moveKeys, hk]) (by decide)⟩

theorem actTo_adds_fe (n new cause : Nat) : (actTo n new cause).Only (Eff.adds (feKeys n) feParts) :=
  (actTo_adds_move n new cause).mono fun _ h => h.mono (fun _ hk => by
    rcases Bool.or_eq_true_iff.mp hk with hk | hk
    · exact feKeys_leave hk
    · obtain rfl : Obj.actState.key n 0 = _ := by simpa [keysOf] using hk
      exact feKeys_state n) fun _ hp => hp

theorem dmtLeave_adds (n dest cause : Nat) : (dmtLeave n dest cause).Only (Eff.adds (feKeys n) feParts) := fun _ =>
  ⟨only_when ⟨adds_raise (by decide) _ _ _ _ _, refLost_adds_fe n, trivial⟩, adds_fch (by decide) _ _,
    adds_obj.mpr (feKeys_own (by simp)), trivial⟩

theorem feFollows_adds (d : Dev) (n new : Nat) : (d.feFollows n new).Only (Eff.adds (feKeys n) feParts) :=
  ⟨only_when ⟨adds_raise (by decide) _ _ _ _ _, adds_obj.mpr (feKeys_own (by simp)),
      ⟨adds_obj.mpr (feKeys_own (by simp)), adds_obj.mpr (feKeys_own (by simp)), trivial⟩, adds_obj.mpr (feKeys_own (by simp)),
      adds_fch (by decide) _ _, fun _ => only_when ⟨actTo_adds_fe n 1 4, trivial⟩, trivial⟩,
    only_when ⟨dmtLeave_adds n 0 3, adds_fch (by decide) _ _, trivial⟩, trivial⟩

theorem feKeys_feState (n k : Fin 4) : feKeys n.val (Obj.feState.key k.val 0) = false := by revert n k; decide

section
variable {d : Dev} (hd : d.Canonical)
include hd

theorem feTo_state (n : Fin 4) (new : Nat) : ((feTo n.val new).run d).num .feState n.val = new := by
  rw [feTo_run, (feFollows_adds d n.val new).num (Eff.apply_canonical _ _ hd).objs (feKeys_feState n n)]
  exact Dev.num_put hd.objs _ _ _ _

theorem feTo_num (n new : Nat) {o : Obj} {i j : Nat} (h : o.key i j ≠ Obj.feState.key n 0) (hk : feKeys n (o.key i j) = false) :
    ((feTo n new).run d).num o i j = d.num o i j := by
  rw [feTo_run, (feFollows_adds d n new).num (Eff.apply_canonical _ _ hd).objs hk]
  exact Dev.num_put_other hd.objs _ h

theorem feTo_same (n new : Nat) {x : Part} (h : x ∉ feParts) : x.same d ((feTo n new).run d) := by
  have hsame := (feFollows_adds d n new).same (Eff.apply_canonical (.obj .feState n 0 (.num new)) d hd).objs h
  cases x <;> exact hsame

end

/-! ### A new FE_STATE on every enabled channel -/

/-- FE_STATE takes a value on each of some channels that is enabled. -/
def Dev.feAll (d : Dev) (l : List Nat) (new : Nat) : Prog := .each l fun n => .when (d.num .feEnable n == 1) [feTo n new]

section
variable (d : Dev) (new : Nat)

theorem feAll_run_cons (n : Nat) (l : List Nat) (e : Dev) :
    (d.feAll (n :: l) new).run e = (d.feAll l new).run (if d.num .feEnable n = 1 then (feTo n new).run e else e) := by
  by_cases h : d.num .feEnable n = 1
  · simp [Dev.feAll, Prog.each, h]
  · simp [Dev.feAll, Prog.each, h, beq_false_of_ne h]

theorem feAll_num {o : Obj} {i j : Nat} : ∀ {l : List Nat} {e : Dev}, e.Canonical →
    (∀ n ∈ l, o.key i j ≠ Obj.feState.key n 0 ∧ feKeys n (o.key i j) = false) → ((d.feAll l new).run e).num o i j = e.num o i j
  | [], _, _, _ => rfl
  | n :: l, e, he, h => by
    obtain ⟨hne, hk⟩ := h n (by simp)
    have ih {e : Dev} (he : e.Canonical) := feAll_num (l := l) he fun m hm => h m (by simp [hm])
    rw [feAll_run_cons]
    split
    · rw [ih (run_canonical _ he), feTo_num he n new hne hk]
    · exact ih he

theorem feAll_same {x : Part} (hx : x ∉ feParts) : ∀ {l : List Nat} {e : Dev}, e.Canonical → x.same e ((d.feAll l new).run e)
  | [], _, _ => by cases x <;> rfl
  | n :: l, e, he => by
    rw [feAll_run_cons]
    split
    · have h1 := feTo_same he n new hx
      have h2 := feAll_same hx (l := l) (run_canonical (feTo n new) he)
      cases x <;> exact h2.trans h1
    · exact feAll_same hx he

theorem feAll_raisedEvent {src code inst : Nat} : ∀ {l : List Nat} {e : Dev}, e.raisedEvent src code inst →
    ((d.feAll l new).run e).raisedEvent src code inst
  | [], _, h => h
  | n :: l, e, h => by
    rw [feAll_run_cons]
    split
    · exact feAll_raisedEvent ((feFollows_adds e n new).raisedEvent h)
    · exact feAll_raisedEvent h

theorem feAll_state {k : Nat} (hk : k < 4) : ∀ {l : List Nat} {e : Dev}, e.Canonical → (∀ n ∈ l, n < 4) →
    ((d.feAll l new).run e).num .feState k = if k ∈ l ∧ d.num .feEnable k = 1 then new else e.num .feState k
  | [], _, _, _ => by simp [Dev.feAll, Prog.each]
  | n :: l, e, he, h => by
    have ih {e : Dev} (he : e.Canonical) := feAll_state hk (l := l) he fun m hm => h m (by simp [hm])
    have hn : n < 4 := h n (by simp)
    rw [feAll_run_cons]
    by_cases hnk : n = k
    · subst hnk
      by_cases hp : d.num .feEnable n = 1
      · rw [if_pos hp, ih (run_canonical _ he), feTo_state he ⟨n, hn⟩]
        simp [hp]
      · rw [if_neg hp, ih he]
        simp [hp]
    · have hother : ((feTo n new).run e).num .feState k = e.num .feState k := by
        refine feTo_num he n new ?_ (feKeys_feState ⟨n, hn⟩ ⟨k, hk⟩)
        simp only [Obj.key, Obj.row]
        omega
      have hmem : k ∈ n :: l ↔ k ∈ l := by simp [Ne.symm hnk]
      simp only [hmem]
      split
      · rw [ih (run_canonical _ he), hother]
      · exact ih he

end

/-! ## What stays true of a channel -/

/-- A channel has a property. -/
structure Dev.Chan (d : Dev) (n : Nat) (P : Fch → Prop) : Prop where
  wf : SMap.wf Fch.none d.fch = true
  has : P (d.ch n)

/-- An effect that leaves a channel the property. -/
abbrev Eff.keepsChan (n : Nat) (P : Fch → Prop) (e : Eff) : Prop := ∀ d : Dev, d.Chan n P → (e.apply d).Chan n P

theorem Eff.apply_fch {e : Eff} (h : e.parts.contains .fch = false) (d : Dev) : (e.apply d).fch = d.fch := by
  have hn : Part.fch ∉ e.parts := fun hm => by simp [hm] at h
  cases e
  case fch => exact absurd (List.mem_singleton.mpr rfl) hn
  case wipe => exact absurd (by simp [Eff.parts]) hn
  case arm => simp only [Eff.apply]; split <;> rfl
  all_goals rfl

section
variable {n : Nat} {P : Fch → Prop}

theorem keepsChan_of_parts {e : Eff} (h : e.parts.contains .fch = false) : e.keepsChan n P := fun d hd =>
  ⟨by rw [Eff.apply_fch h]; exact hd.wf, by rw [Dev.ch, Eff.apply_fch h]; exact hd.has⟩

/-- A change of a channel that has one property gives it another. -/
theorem Dev.Chan.fch {d : Dev} {Q : Fch → Prop} (h : d.Chan n P) {f : Fch → Fch} (hf : ∀ c, P c → Q (f c)) :
    ((Eff.fch n f).apply d).Chan n Q := by
  refine ⟨SMap.upd_wf h.wf, ?_⟩
  have hc : ((Eff.fch n f).apply d).ch n = f (d.ch n) := SMap.get_put_same (b := 0) _ _ _ h.wf
  rw [hc]
  exact hf _ h.has

/-- A change of any channel that leaves the property. -/
theorem keepsChan_fch (m : Nat) {f : Fch → Fch} (hf : ∀ c, P c → P (f c)) : (Eff.fch m f).keepsChan n P := fun d hd => by
  by_cases hm : n = m
  · subst hm
    exact hd.fch hf
  · have hc : ((Eff.fch m f).apply d).ch n = d.ch n := SMap.get_put_other (b := 0) _ _ hm hd.wf
    refine ⟨SMap.upd_wf hd.wf, ?_⟩
    rw [hc]
    exact hd.has

theorem Prog.Only.chan {p : Prog} (h : p.Only (Eff.keepsChan n P)) {d : Dev} (hd : d.Chan n P) : (p.run d).Chan n P :=
  Prog.Only.keeps (P := fun e => e.Chan n P) h hd

end

/-! ### A burst-enable that stays low -/

/-- Burst-enable is low. -/
def Fch.dark (c : Fch) : Prop := c.burstOn = false

/-- An effect that leaves a low burst-enable low. -/
abbrev Eff.staysDark (n : Nat) : Eff → Prop := Eff.keepsChan n Fch.dark

section
variable (n : Nat)

theorem staysDark_flushPort (p reason : Nat) : (flushPort p reason).Only (Eff.staysDark n) :=
  (flushPort_adds p reason).mono fun e h => keepsChan_of_parts (by
    have hn : Part.fch ∉ e.parts := fun hm => absurd (h.2.1 _ hm) (by decide)
    simpa using hn)

theorem staysDark_setSync (b : Bool) : (setSync b).Only (Eff.staysDark n) := fun _ =>
  only_when ⟨fun _ => keepsChan_of_parts rfl, keepsChan_of_parts rfl, trivial⟩

theorem staysDark_actTo (m new cause : Nat) : (actTo m new cause).Only (Eff.staysDark n) := fun _ =>
  only_when ⟨keepsChan_of_parts rfl, keepsChan_of_parts rfl,
    only_when ⟨keepsChan_fch m fun _ _ => rfl, only_when ⟨staysDark_setSync n false, trivial⟩, trivial⟩,
    only_when ⟨staysDark_flushPort n _ _, trivial⟩, trivial⟩

theorem staysDark_actInitial (m : Nat) : (actInitial m).Only (Eff.staysDark n) := fun _ =>
  only_when ⟨staysDark_actTo n m 0 2,
    ⟨keepsChan_of_parts rfl, keepsChan_of_parts rfl, keepsChan_of_parts rfl, keepsChan_fch m fun _ h => h, trivial⟩,
    keepsChan_of_parts rfl, keepsChan_of_parts rfl, keepsChan_fch m fun _ h => h, trivial⟩

theorem staysDark_assertVector (l f v : Nat) : (assertVector l f v).Only (Eff.staysDark n) := fun d => by
  refine only_when ⟨?_, trivial⟩
  dsimp only
  split
  · exact keepsChan_of_parts rfl
  · exact fun _ => keepsChan_of_parts rfl

theorem staysDark_ringError (r status : Nat) : (ringError r status).Only (Eff.staysDark n) := fun _ =>
  ⟨keepsChan_of_parts rfl, keepsChan_of_parts rfl, trivial⟩

theorem staysDark_ringAdvance (r : Nat) : (ringAdvance r).Only (Eff.staysDark n) :=
  ⟨keepsChan_of_parts rfl, fun _ => ⟨only_when ⟨keepsChan_of_parts rfl, trivial⟩,
    only_when ⟨fun _ => ⟨keepsChan_of_parts rfl, only_when ⟨staysDark_assertVector n _ _ _, trivial⟩, trivial⟩, trivial⟩, trivial⟩, trivial⟩

theorem staysDark_ringComplete (r status len metaw : Nat) : (ringComplete r status len metaw).Only (Eff.staysDark n) := fun d => by
  dsimp only
  split
  · trivial
  · exact ⟨keepsChan_of_parts rfl, keepsChan_of_parts rfl, staysDark_ringAdvance n r, only_when ⟨keepsChan_of_parts rfl, trivial⟩,
      only_when ⟨staysDark_ringError n _ _, trivial⟩, trivial⟩

theorem staysDark_ringFill (r metaw : Nat) (data : List Byte) : (ringFill r metaw data).Only (Eff.staysDark n) := fun d => by
  dsimp only
  split
  · trivial
  · split
    · exact staysDark_ringComplete n _ _ _ _
    · exact ⟨keepsChan_of_parts rfl, staysDark_ringComplete n _ _ _ _, trivial⟩

theorem staysDark_txEnqueue (m : Nat) (p : TxPkt) : (txEnqueue m p).Only (Eff.staysDark n) := fun d => by
  dsimp only
  split
  · exact keepsChan_fch m fun _ h => h
  · exact ⟨keepsChan_of_parts rfl, keepsChan_of_parts rfl, trivial⟩

theorem staysDark_inbandEnqueue (m : Nat) (p : TxPkt) : (inbandEnqueue m p).Only (Eff.staysDark n) := fun d => by
  dsimp only
  split
  · exact keepsChan_fch m fun _ h => h
  · exact keepsChan_of_parts rfl

theorem staysDark_deliver (x : Resp) : (deliver x).Only (Eff.staysDark n) := by
  unfold deliver
  split
  · exact ⟨keepsChan_of_parts rfl, fun _ => only_when ⟨staysDark_assertVector n _ _ _, trivial⟩, trivial⟩
  · exact staysDark_ringFill n _ _ _
  · split
    · exact keepsChan_of_parts rfl
    · exact staysDark_inbandEnqueue n _ _
  · exact staysDark_txEnqueue n _ _
  · exact keepsChan_of_parts rfl
  · exact keepsChan_of_parts rfl

theorem staysDark_respond (c : Call) (abort : Nat) (data : List Byte) : (respond c abort data).Only (Eff.staysDark n) := fun _ =>
  only_when ⟨keepsChan_of_parts rfl, staysDark_deliver n _, trivial⟩

end

end Sys2Proof.Machine
end

section
/-!
PROOFS of the front end's writes and commands (O22).
-/
namespace Sys2Proof.Machine

theorem exec_feEnableWrite (o : Origin) (n : Fin 4) (v : BitVec 8) (a : Bool) (s : State) : exec (.feEnableWrite o n v a) s =
    s.run (serve (writeReq o .feEnable n.val 0 (.num v.toNat))
      (feEnableBeh (writeReq o .feEnable n.val 0 (.num v.toNat)).call n.val v.toNat a)) := rfl
theorem exec_feApdTargetWrite (o : Origin) (n : Fin 4) (v : BitVec 32) (a : Bool) (s : State) : exec (.feApdTargetWrite o n v a) s =
    s.run (serve (writeReq o .feApdTarget n.val 0 (.num v.toNat))
      (.plain fun _ => hvReply n.val a (writeReq o .feApdTarget n.val 0 (.num v.toNat)).call .feApdTarget v.toNat)) := rfl
theorem exec_feTxCoeffWrite (o : Origin) (n : Fin 4) (b : List Byte) (s : State) : exec (.feTxCoeffWrite o n b) s =
    s.run (serve (writeReq o .feTxCoeff n.val 0 (.oct b)) (feTxCoeffBeh n.val b)) := rfl
theorem exec_feLaserRelease (o : Origin) (n : Fin 4) (p a : Bool) (s : State) : exec (.feLaserRelease o n p a) s =
    s.run (serve (execReq o .feLaserRelease n.val 0 true (.num 0))
      (feLaserReleaseBeh (execReq o .feLaserRelease n.val 0 true (.num 0)).call n.val p a)) := rfl
theorem exec_hvRearm (o : Origin) (a : Bool) (s : State) : exec (.hvRearm o a) s =
    s.run (serve (execReq o .hvRearm 0 0 true (.num 0)) (hvRearmBeh (execReq o .hvRearm 0 0 true (.num 0)).call a)) := rfl
theorem exec_feLaserForceOffWrite (o : Origin) (n : Fin 4) (v : BitVec 8) (s : State) : exec (.feLaserForceOffWrite o n v) s =
    s.run (serve (writeReq o .feLaserForceOff n.val 0 (.num v.toNat)) (feLaserForceOffBeh n.val v.toNat)) := rfl

/-- A command that waits for the HV die's acknowledgement (R210). -/
def hvWaits (n : Nat) (c : Call) (x : Obj) (v : Nat) : Eff := .fch n fun f => { f with hvPend := f.hvPend ++ [⟨x, v, 0, c⟩] }

/-- A request that finds nothing against it and whose command the HV die does not acknowledge is owed its answer. -/
theorem hvReply_owed {s : State} {r : Req} {b : Beh} {n v : Nat} {x : Obj} (hs : s.Inv) (h : s.dev.admits r)
    (hp : b.pre (s.dev.taken r.call) = 0) (hst : b.state (s.dev.taken r.call) = 0)
    (ha : b.act (s.dev.taken r.call) = hvReply n false r.call x v) :
    s.run (serve r b) = .next (s.owing r.call [hvWaits n r.call x v]) :=
  served_later hs h hp hst ha rfl

/-! ## FE_ENABLE (R214) -/

section
variable {s : State} {o : Origin} {n : Fin 4} {v : BitVec 8} {a : Bool}
  (h : s.dev.admits (writeReq o .feEnable n.val 0 (.num v.toNat)))
include h

theorem feEnable_unarmed (hv : v = 1) (hu : s.dev.hvEnable = false ∨ s.dev.num .hvState ≠ 2) : exec (.feEnableWrite o n v a) s =
    .next (s.refusedWith (writeReq o .feEnable n.val 0 (.num v.toNat)).call [] 0x0401) := by
  have hc : v.toNat = 1 ∧ ¬(s.dev.hvEnable = true ∧ s.dev.num .hvState = 2) :=
    ⟨by rw [hv]; rfl, fun ⟨he, hst⟩ => hu.elim (fun hf => by simp [hf] at he) (fun hn => hn hst)⟩
  rw [exec_feEnableWrite]
  exact serve_refused_state h rfl (if_pos hc) (by decide)

variable (hs : s.Inv)
include hs

theorem feEnable_owed (hv : v = 0 ∨ (v = 1 ∧ s.dev.hvEnable = true ∧ s.dev.num .hvState = 2)) : exec (.feEnableWrite o n v false) s =
    .next (s.owing (writeReq o .feEnable n.val 0 (.num v.toNat)).call
      [hvWaits n.val (writeReq o .feEnable n.val 0 (.num v.toNat)).call .feEnable v.toNat]) := by
  have hc : ¬(v.toNat = 1 ∧ ¬(s.dev.hvEnable = true ∧ s.dev.num .hvState = 2)) := by
    rintro ⟨h1, hn⟩
    rcases hv with rfl | ⟨-, hv⟩
    · exact absurd h1 (by decide)
    · exact hn hv
  rw [exec_feEnableWrite]
  exact hvReply_owed hs h rfl (if_neg hc) rfl

end

theorem feEnable_ne_feState (n : Fin 4) : Obj.feEnable.key n.val 0 ≠ Obj.feState.key n.val 0 := by revert n; decide

/-- From disabled, FE_ENABLE = 1 with an Armed die starts the ramp. -/
theorem feEnableEff_ramps {d : Dev} (hd : d.Canonical) (n : Fin 4) (he : d.num .feEnable n.val = 0) (hst : d.num .feState n.val = 0)
    (hv : d.num .hvState = 2) :
    (feEnableEff n.val 1).run d = d.after [.obj .feEnable n.val 0 (.num 1), .obj .feState n.val 0 (.num 1)] := by
  have hst' : ((Eff.obj .feEnable n.val 0 (.num 1)).apply d).num .feState n.val = 0 :=
    (Dev.num_put_other hd.objs _ (feEnable_ne_feState n).symm).trans hst
  simp only [feEnableEff, Prog.run_ask, he, hv, if_true, Prog.run_all_cons, run_putN, beq_self_eq_true, Bool.and_self, Prog.when_true,
    Prog.all_nil, Prog.run_skip, feTo_run, Dev.feFollows, hst']
  rfl

theorem feEnable_ramps {s : State} {o : Origin} {n : Fin 4} {v : BitVec 8} (hs : s.Inv)
    (h : s.dev.admits (writeReq o .feEnable n.val 0 (.num v.toNat))) (hv : v = 1) (he : s.dev.hvEnable = true)
    (harm : s.dev.num .hvState = 2) (hoff : s.dev.num .feEnable n.val = 0) (hst : s.dev.num .feState n.val = 0) :
    exec (.feEnableWrite o n v true) s = .next (s.served (writeReq o .feEnable n.val 0 (.num v.toNat)).call
      [.obj .feEnable n.val 0 (.num 1), .obj .feState n.val 0 (.num 1)] []) := by
  have h1 : v.toNat = 1 := by rw [hv]; rfl
  have hc : ¬(v.toNat = 1 ∧ ¬(s.dev.hvEnable = true ∧ s.dev.num .hvState = 2)) := fun hn => hn.2 ⟨he, harm⟩
  rw [exec_feEnableWrite]
  refine served_done hs h rfl (if_neg hc) rfl ?_
  rw [h1]
  exact feEnableEff_ramps (taken_canonical hs.1 _) n hoff hst harm

/-! ### The front end is disabled -/

/-- The defects are cleared with their events, and the readings return to what a disabled channel shows. -/
def feSettled (n : Nat) : Prog := .all [
  .each [0, 1, 2, 3, 4, 6] fun b => setDefect n b false,
  putN .frmDefects n 0 0, putN .frmPmAvailable n 0 1,
  .eff (.fch n fun c => { c with losRaw := true, pm := { c.pm with started := false }, burstOn := false })]

/-- The laser drops, the receiver is disabled, the PLL is freed, the contexts go and the current reads 0. -/
def Dev.feStopped (d : Dev) (n : Nat) : Dev :=
  (Eff.obj .feApdCurrent n 0 (.num 0)).apply ((clearCtxs n).run ((pllFree n).run ((feTo n 0).run
    ((Eff.obj .feEnable n 0 (.num 0)).apply d))))

theorem feEnableEff_stops (n : Nat) (d : Dev) :
    (feEnableEff n 0).run d = (actInitial n).run ((feSettled n).run (d.feStopped n)) := by
  have h01 : ((0 : Nat) == 1) = false := rfl
  simp only [feEnableEff, feSettled, Dev.feStopped, Prog.run_ask, h01, Bool.false_and, Prog.when_false, beq_self_eq_true, Prog.when_true,
    Prog.run_all_cons, Prog.all_nil, Prog.run_skip, run_putN, Prog.run_eff]

/-- The objects that a restart of activation in Initial may write. -/
def initialKeys (n : Nat) : Nat → Bool := fun k => moveKeys n k || isAllocKey n k ||
  keysOf [(.actHandle, n, 0), (.actEqd, n, 0), (.mgtCmSfRx, n, 0), (.mgtCmSfTx, n, 0)] k

theorem adds_dropAllocs {ks : Nat → Bool} {ps : List Part} {n : Nat} (h : ∀ k, isAllocKey n k = true → ks k = true) :
    (Eff.dropObjs (isAllocKey n)).adds ks ps := ⟨h, fun _ hp => (List.not_mem_nil hp).elim, rfl⟩

theorem actInitial_adds (n : Nat) : (actInitial n).Only (Eff.adds (initialKeys n) feParts) := fun _ =>
  only_when ⟨(actTo_adds_move n 0 2).mono fun _ h => h.mono (fun k hk => by simp [initialKeys, hk]) fun _ hp => hp,
    ⟨adds_obj.mpr (by simp [initialKeys, keysOf]), adds_obj.mpr (by simp [initialKeys, keysOf]),
      adds_dropAllocs fun k hk => by simp [initialKeys, hk], adds_fch (by decide) _ _, trivial⟩,
    adds_obj.mpr (by simp [initialKeys, keysOf]), adds_obj.mpr (by simp [initialKeys, keysOf]), adds_fch (by decide) _ _, trivial⟩

theorem setDefect_adds (n bit : Nat) (b : Bool) : (setDefect n bit b).Only (Eff.adds (keysOf [(.frmDefects, n, 0)]) feParts) := fun _ =>
  only_when ⟨fun _ => adds_obj.mpr (by simp [keysOf]), adds_raise (by decide) _ _ _ _ _,
    only_when ⟨adds_fch (by decide) _ _, trivial⟩, trivial⟩

/-- The objects of `feSettled`. -/
def settledKeys (n : Nat) : Nat → Bool := keysOf [(.frmDefects, n, 0), (.frmPmAvailable, n, 0)]

theorem feSettled_adds (n : Nat) : (feSettled n).Only (Eff.adds (settledKeys n) feParts) :=
  ⟨only_each fun b => (setDefect_adds n b false).mono fun _ h => h.mono (fun k hk => by
      simp only [settledKeys, keysOf, List.any_cons, List.any_nil, Bool.or_false] at hk ⊢
      simp [hk]) fun _ hp => hp,
    adds_obj.mpr (by simp [settledKeys, keysOf]), adds_obj.mpr (by simp [settledKeys, keysOf]), adds_fch (by decide) _ _, trivial⟩

/-- The objects of the contexts of a channel. -/
def ctxObjs (n : Nat) : Nat → Bool := keysOf [(.ciphFchDsState, n, 0), (.ciphFchUsState, n, 0), (.ciphFchUsActive, n, 0)]

theorem clearCtxs_adds (n : Nat) : (clearCtxs n).Only (Eff.adds (ctxObjs n) [.keys, .uses]) :=
  ⟨adds_obj.mpr (by simp [ctxObjs, keysOf]), adds_obj.mpr (by simp [ctxObjs, keysOf]), adds_obj.mpr (by simp [ctxObjs, keysOf]),
    ⟨fun _ hk => (Bool.false_ne_true hk).elim, fun _ hp => hp, rfl⟩, trivial⟩

/-! ### Disabled stays Disabled, and no other activation state becomes it -/

/-- A program that neither reaches Disabled nor leaves it. -/
def Prog.KeepsDisabled (n : Nat) (p : Prog) : Prop :=
  ∀ d : Dev, d.Canonical → ((p.run d).num .actState n = 6 ↔ d.num .actState n = 6)

section
variable {n : Nat}

theorem Prog.KeepsDisabled.seq {p q : Prog} (hp : p.KeepsDisabled n) (hq : q.KeepsDisabled n) : (Prog.seq p q).KeepsDisabled n := fun d hd =>
  (hq _ (run_canonical p hd)).trans (hp d hd)

theorem Prog.KeepsDisabled.nil : (Prog.all []).KeepsDisabled n := fun _ _ => Iff.rfl

theorem Prog.KeepsDisabled.cons {p : Prog} {l : List Prog} (hp : p.KeepsDisabled n) (hl : (Prog.all l).KeepsDisabled n) :
    (Prog.all (p :: l)).KeepsDisabled n := hp.seq hl

theorem Prog.KeepsDisabled.when {b : Bool} {l : List Prog} (h : (Prog.all l).KeepsDisabled n) : (Prog.when b l).KeepsDisabled n := by
  cases b
  · exact Prog.KeepsDisabled.nil
  · exact h

theorem Prog.KeepsDisabled.ask {f : Dev → Prog} (h : ∀ d, (f d).KeepsDisabled n) : (Prog.ask f).KeepsDisabled n := fun d hd => h d d hd

theorem Prog.KeepsDisabled.of_adds {ks : Nat → Bool} {ps : List Part} {p : Prog} (h : p.Only (Eff.adds ks ps))
    (hk : ks (Obj.actState.key n 0) = false) : p.KeepsDisabled n := fun d hd => by rw [h.num hd.objs hk]

theorem Prog.KeepsDisabled.eff {e : Eff} (h : e.keys (Obj.actState.key n 0) = false) : (Prog.eff e).KeepsDisabled n := fun d hd => by
  rw [Prog.run_eff, Dev.num, Dev.num, Dev.get, Dev.get, (e.only d hd.objs).1 _ h]

end

section
variable (n : Fin 4)

theorem toHolding_keepsDisabled : (toHolding n.val).KeepsDisabled n.val := fun d hd => by
  simp only [toHolding, Prog.run_ask]
  by_cases h4 : d.num .actState n.val = 4
  · simp [h4, actTo_state hd]
  · simp [beq_false_of_ne h4]

theorem fchState_keepsDisabled (v : Nat) : (putN .clkFchState 0 n.val v).KeepsDisabled n.val :=
  Prog.KeepsDisabled.eff (by revert n; simp only [Eff.keys]; decide)

theorem refLost_keepsDisabled : (refLost n.val).KeepsDisabled n.val := .ask fun _ =>
  .cons (.eff rfl) (.cons (.when (.cons (fchState_keepsDisabled n 3) (.cons (.eff rfl)
    (.cons (.when (.cons (.of_adds (timingLost_adds (ps := [.occs, .clk]) (by decide) (by decide) n.val) (by revert n; decide)) .nil))
    (.cons (.eff rfl) (.cons (.when (.cons (.eff rfl) .nil)) (.cons (toHolding_keepsDisabled n) .nil))))))) .nil)

theorem dmtLeave_keepsDisabled (cause : Nat) : (dmtLeave n.val 0 cause).KeepsDisabled n.val := .ask fun _ =>
  .cons (.when (.cons (.eff rfl) (.cons (refLost_keepsDisabled n) .nil))) (.cons (.eff rfl)
    (.cons (.eff (by revert n; simp only [Eff.keys]; decide)) .nil))

theorem feTo_keepsDisabled : (feTo n.val 0).KeepsDisabled n.val := .ask fun d =>
  .cons (.eff (by revert n; simp only [Eff.keys]; decide)) (.cons Prog.KeepsDisabled.nil
    (.cons (.when (.cons (dmtLeave_keepsDisabled n 3) (.cons (.eff rfl) .nil))) .nil))

theorem pllFree_keepsDisabled : (pllFree n.val).KeepsDisabled n.val :=
  .cons (refLost_keepsDisabled n) (.cons (fchState_keepsDisabled n 0) (.cons (.eff rfl) .nil))

end

/-! ### The channel once it is disabled -/

theorem pllFree_adds (n : Nat) : (pllFree n).Only (Eff.adds (refKeys n) feParts) :=
  ⟨refLost_adds n, adds_obj.mpr (by simp [refKeys, keysOf]), adds_fch (by decide) _ _, trivial⟩

/-- The device after FE_ENABLE = 0 has taken effect. -/
def Dev.feOff (d : Dev) (n : Nat) : Dev := (actInitial n).run ((feSettled n).run (d.feStopped n))

section
variable {d : Dev} (hd : d.Canonical) (n : Fin 4)
include hd

theorem feEnabled_canonical : ((Eff.obj .feEnable n.val 0 (.num 0)).apply d).Canonical := Eff.apply_canonical _ d hd

theorem pllFreed_canonical : ((pllFree n.val).run ((feTo n.val 0).run ((Eff.obj .feEnable n.val 0 (.num 0)).apply d))).Canonical :=
  run_canonical _ (run_canonical _ (feEnabled_canonical hd n))

theorem feStopped_canonical : (d.feStopped n.val).Canonical :=
  Eff.apply_canonical _ _ (run_canonical _ (pllFreed_canonical hd n))

/-- What the end of the disabling leaves of an object. -/
theorem feOff_num {o : Obj} {i j : Nat} (hi : initialKeys n.val (o.key i j) = false) (hk : settledKeys n.val (o.key i j) = false) :
    (d.feOff n.val).num o i j = (d.feStopped n.val).num o i j := by
  have hs := feStopped_canonical hd n
  rw [Dev.feOff, (actInitial_adds n.val).num (run_canonical _ hs).objs hi, (feSettled_adds n.val).num hs.objs hk]

theorem feStopped_num {o : Obj} {i j : Nat} (ha : o.key i j ≠ Obj.feApdCurrent.key n.val 0) (hc : ctxObjs n.val (o.key i j) = false) :
    (d.feStopped n.val).num o i j =
      ((pllFree n.val).run ((feTo n.val 0).run ((Eff.obj .feEnable n.val 0 (.num 0)).apply d))).num o i j := by
  have hp := pllFreed_canonical hd n
  rw [show (d.feStopped n.val).num o i j = _ from Dev.num_put_other (run_canonical _ hp).objs _ ha, (clearCtxs_adds n.val).num hp.objs hc]

theorem feOff_feEnable : (d.feOff n.val).num .feEnable n.val = 0 := by
  have he := feEnabled_canonical hd n
  rw [feOff_num hd n, feStopped_num hd n, (pllFree_adds n.val).num (run_canonical _ he).objs, feTo_num he n.val 0 (feEnable_ne_feState n)]
  · exact Dev.num_put hd.objs _ _ _ _
  all_goals clear * -; revert n; decide

theorem feOff_feState : (d.feOff n.val).num .feState n.val = 0 := by
  have he := feEnabled_canonical hd n
  rw [feOff_num hd n, feStopped_num hd n, (pllFree_adds n.val).num (run_canonical _ he).objs, feTo_state he]
  all_goals clear * -; revert n; decide

omit n in
theorem pllFree_state (n : Nat) : ((pllFree n).run d).num .clkFchState 0 n = 0 := by
  have hp := Dev.num_put (run_canonical (refLost n) hd).objs .clkFchState 0 n 0
  simp only [pllFree, Prog.run_all_cons, Prog.all_nil, Prog.run_skip, run_putN, Prog.run_eff]
  exact hp

theorem feOff_pll : (d.feOff n.val).num .clkFchState 0 n.val = 0 := by
  have he := run_canonical (feTo n.val 0) (feEnabled_canonical hd n)
  rw [feOff_num hd n, feStopped_num hd n]
  · exact pllFree_state he n.val
  all_goals clear * -; revert n; decide

theorem feOff_apdCurrent : (d.feOff n.val).num .feApdCurrent n.val = 0 := by
  rw [feOff_num hd n]
  · exact Dev.num_put (run_canonical _ (pllFreed_canonical hd n)).objs _ _ _ _
  all_goals clear * -; revert n; decide

/-- The device after the bits of FRM_DEFECTS have been cleared one by one. -/
theorem defectsCleared_canonical :
    ((Prog.each [0, 1, 2, 3, 4, 6] fun b => setDefect n.val b false).run (d.feStopped n.val)).Canonical :=
  run_canonical _ (feStopped_canonical hd n)

theorem feOff_defects : (d.feOff n.val).num .frmDefects n.val = 0 := by
  have hc := defectsCleared_canonical hd n
  rw [Dev.feOff, (actInitial_adds n.val).num (run_canonical _ (feStopped_canonical hd n)).objs]
  · exact (Dev.num_put_other (Eff.apply_canonical (.obj .frmDefects n.val 0 (.num 0)) _ hc).objs (o := .frmPmAvailable) _ (by
      clear * -; revert n; decide)).trans (Dev.num_put hc.objs _ _ _ _)
  · clear * -; revert n; decide

theorem feOff_actState : (d.feOff n.val).num .actState n.val = if d.num .actState n.val = 6 then 6 else 0 := by
  have hs := feStopped_canonical hd n
  have hiff : ((feSettled n.val).run (d.feStopped n.val)).num .actState n.val = 6 ↔ d.num .actState n.val = 6 := by
    rw [(feSettled_adds n.val).num hs.objs (by clear * -; revert n; decide),
      feStopped_num hd n (by clear * -; revert n; decide) (by clear * -; revert n; decide),
      pllFree_keepsDisabled n _ (run_canonical _ (feEnabled_canonical hd n)), feTo_keepsDisabled n _ (feEnabled_canonical hd n),
      show ((Eff.obj .feEnable n.val 0 (.num 0)).apply d).num .actState n.val = _ from
        Dev.num_put_other hd.objs _ (by clear * -; revert n; decide)]
  rw [Dev.feOff]
  by_cases h6 : d.num .actState n.val = 6
  · rw [if_pos h6]
    simp only [actInitial, Prog.run_ask, hiff.mpr h6, bne_self_eq_false, Prog.when_false, Prog.run_skip]
  · rw [if_neg h6, actInitial_run (mt hiff.mp h6)]
    exact restarted_state (run_canonical _ hs) n

theorem feOff_dark : (d.feOff n.val).Chan n.val Fch.dark := by
  have hp := Eff.apply_canonical (.obj .frmPmAvailable n.val 0 (.num 1)) _
    (Eff.apply_canonical (.obj .frmDefects n.val 0 (.num 0)) _ (defectsCleared_canonical hd n))
  have hlow : ((feSettled n.val).run (d.feStopped n.val)).Chan n.val Fch.dark := by
    refine ⟨(run_canonical _ (feStopped_canonical hd n)).fch, ?_⟩
    simp only [feSettled, Prog.run_all_cons, Prog.all_nil, Prog.run_skip, Prog.run_eff, run_putN, ch_fch hp, Fch.dark]
  exact (staysDark_actInitial n.val n.val).chan hlow

end

theorem feEnable_stops {s : State} {o : Origin} {n : Fin 4} {v : BitVec 8} (hs : s.Inv)
    (h : s.dev.admits (writeReq o .feEnable n.val 0 (.num v.toNat))) (hv : v = 0) : exec (.feEnableWrite o n v true) s = .next { s with
      dev := (respond (writeReq o .feEnable n.val 0 (.num v.toNat)).call 0 []).run
        ((s.dev.taken (writeReq o .feEnable n.val 0 (.num v.toNat)).call).feOff n.val) } := by
  have h0 : v.toNat = 0 := by rw [hv]; rfl
  have hc : ¬(v.toNat = 1 ∧ ¬(s.dev.hvEnable = true ∧ s.dev.num .hvState = 2)) := fun hn => by omega
  have ha (c : Call) (d : Dev) : (feEnableBeh c n.val v.toNat true).act d = .done (feEnableEff n.val 0) [] := by
    rw [h0]
    rfl
  rw [exec_feEnableWrite, State.run_eq, serve_run hs.1.um h rfl (if_neg hc), ha]
  simp only [finish, Prog.run_seq, feEnableEff_stops, Dev.feOff]

/-- A channel that is off stays so when the request is answered. -/
theorem feOff_answered {d : Dev} (hd : d.Canonical) (n : Fin 4) (c : Call) : let t := (respond c 0 []).run (d.feOff n.val)
    t.num .feEnable n.val = 0 ∧ t.num .feState n.val = 0 ∧ t.num .clkFchState 0 n.val = 0 ∧ t.num .frmDefects n.val = 0 ∧
      t.num .feApdCurrent n.val = 0 ∧ (t.ch n.val).burstOn = false ∧
      t.num .actState n.val = (if d.num .actState n.val = 6 then 6 else 0) := by
  have hc : (d.feOff n.val).Canonical := run_canonical _ (run_canonical _ (feStopped_canonical hd n))
  have keep {o : Obj} {i j : Nat} (hk : replyKeys (o.key i j) = false) := (only_respond c 0 []).num hc.objs hk
  refine ⟨(keep ?_).trans (feOff_feEnable hd n), (keep ?_).trans (feOff_feState hd n), (keep ?_).trans (feOff_pll hd n),
    (keep ?_).trans (feOff_defects hd n), (keep ?_).trans (feOff_apdCurrent hd n),
    ((staysDark_respond n.val c 0 []).chan (feOff_dark hd n)).has, (keep ?_).trans (feOff_actState hd n)⟩
  all_goals clear * -; revert n; decide

/-! ## FE_APD_TARGET, FE_TX_COEFF and FE_LASER_FORCE_OFF (R207, R214, R218) -/

section
variable {s : State} {o : Origin} {n : Fin 4} (hs : s.Inv)
include hs

theorem feApdTarget_served {v : BitVec 32} (h : s.dev.admits (writeReq o .feApdTarget n.val 0 (.num v.toNat))) :
    exec (.feApdTargetWrite o n v true) s = .next (s.served (writeReq o .feApdTarget n.val 0 (.num v.toNat)).call
      [.obj .feApdTarget n.val 0 (.num v.toNat)] []) := by
  rw [exec_feApdTargetWrite]
  exact served_done hs h rfl rfl rfl rfl

theorem feApdTarget_owed {v : BitVec 32} (h : s.dev.admits (writeReq o .feApdTarget n.val 0 (.num v.toNat))) :
    exec (.feApdTargetWrite o n v false) s = .next (s.owing (writeReq o .feApdTarget n.val 0 (.num v.toNat)).call
      [hvWaits n.val (writeReq o .feApdTarget n.val 0 (.num v.toNat)).call .feApdTarget v.toNat]) := by
  rw [exec_feApdTargetWrite]
  exact hvReply_owed hs h rfl rfl rfl

theorem feTxCoeff_stored {b : List Byte} (h : s.dev.admits (writeReq o .feTxCoeff n.val 0 (.oct b))) (hb : coeffOk b = true) :
    exec (.feTxCoeffWrite o n b) s =
      .next (s.served (writeReq o .feTxCoeff n.val 0 (.oct b)).call [.obj .feTxCoeff n.val 0 (.oct b)] []) := by
  rw [exec_feTxCoeffWrite]
  exact served_done hs h (if_pos hb) rfl rfl rfl

omit hs in
theorem coeffOk_eq_false {b : List Byte} (hb : 512 < coeffSum b ∨ coeffRange b = false ∨ meetsMask b = false) : coeffOk b = false := by
  rcases hb with hb | hb | hb
  · simp [coeffOk, Nat.not_le.mpr hb]
  · simp [coeffOk, hb]
  · simp [coeffOk, hb]

omit hs in
theorem feTxCoeff_refused {b : List Byte} (h : s.dev.admits (writeReq o .feTxCoeff n.val 0 (.oct b)))
    (hb : 512 < coeffSum b ∨ coeffRange b = false ∨ meetsMask b = false) :
    exec (.feTxCoeffWrite o n b) s = .next (s.refusedWith (writeReq o .feTxCoeff n.val 0 (.oct b)).call [] 0x0302) := by
  rw [exec_feTxCoeffWrite]
  exact serve_refused_pre h (if_neg (by simp [coeffOk_eq_false hb])) (by decide)

theorem feLaserForceOff_served {v : BitVec 8} (h : s.dev.admits (writeReq o .feLaserForceOff n.val 0 (.num v.toNat))) :
    exec (.feLaserForceOffWrite o n v) s = .next (s.served (writeReq o .feLaserForceOff n.val 0 (.num v.toNat)).call
      ([.obj .feLaserForceOff n.val 0 (.num v.toNat)] ++
        if v = 1 then [.fch n.val fun c => { c with burstOn := false }] else []) []) := by
  rw [exec_feLaserForceOffWrite]
  refine served_done hs h rfl rfl rfl ?_
  by_cases hv : v = 1
  · rw [if_pos hv, hv]
    rfl
  · have h1 : (v.toNat == 1) = false := beq_false_of_ne fun he => hv (BitVec.eq_of_toNat_eq he)
    rw [if_neg hv, h1]
    rfl

end

/-! ## FE_LASER_RELEASE (R222) -/

section
variable {s : State} {o : Origin} {n : Fin 4} {p : Bool} (h : s.dev.admits (execReq o .feLaserRelease n.val 0 true (.num 0)))
include h

theorem feLaserRelease_refused (a : Bool) (hr : (s.dev.ch n.val).rogue ≠ 0) (hp : p = true) : exec (.feLaserRelease o n p a) s =
    .next (s.refusedWith (execReq o .feLaserRelease n.val 0 true (.num 0)).call [] 0x0401) := by
  rw [exec_feLaserRelease]
  exact serve_refused_state h rfl (if_pos ⟨hr, hp⟩) (by decide)

variable (hs : s.Inv)
include hs

theorem feLaserRelease_unlatched (a : Bool) (hr : (s.dev.ch n.val).rogue = 0) : exec (.feLaserRelease o n p a) s =
    .next (s.served (execReq o .feLaserRelease n.val 0 true (.num 0)).call [] []) := by
  rw [exec_feLaserRelease]
  exact served_done hs h rfl (if_neg fun hn => hn.1 hr) (if_pos hr) rfl

variable (hr : (s.dev.ch n.val).rogue ≠ 0) (hp : p = false)
include hr hp

omit h hs in
/-- A latch whose cause is gone is released by the HV die. -/
theorem feLaserRelease_free {c : Call} {a : Bool} : (feLaserReleaseBeh c n.val p a).state
      (s.dev.taken (execReq o .feLaserRelease n.val 0 true (.num 0)).call) = 0 ∧
    (feLaserReleaseBeh c n.val p a).act (s.dev.taken (execReq o .feLaserRelease n.val 0 true (.num 0)).call) =
      hvReply n.val a c .feLaserRelease 0 :=
  ⟨if_neg fun hn => by simp [hp] at hn, if_neg hr⟩

theorem feLaserRelease_clears : exec (.feLaserRelease o n p true) s =
    .next (s.served (execReq o .feLaserRelease n.val 0 true (.num 0)).call [.fch n.val fun c => { c with rogue := 0 }] []) := by
  obtain ⟨hst, hact⟩ := feLaserRelease_free (o := o) hr hp
  rw [exec_feLaserRelease]
  exact served_done hs h rfl hst hact rfl

theorem feLaserRelease_owed : exec (.feLaserRelease o n p false) s =
    .next (s.owing (execReq o .feLaserRelease n.val 0 true (.num 0)).call
      [hvWaits n.val (execReq o .feLaserRelease n.val 0 true (.num 0)).call .feLaserRelease 0]) := by
  obtain ⟨hst, hact⟩ := feLaserRelease_free (o := o) hr hp
  rw [exec_feLaserRelease]
  exact hvReply_owed hs h rfl hst hact

end

/-! ## HV_REARM (R212, R214) -/

/-- The die is Armed again and every enabled channel ramps. -/
def Dev.rearmed (d : Dev) : Dev :=
  (d.feAll (List.range 4) 1).run (d.after [.obj .hvState 0 0 (.num 2), .raise 504 0 noInst 0 0])

theorem rearmEff_run {d : Dev} (h : d.num .hvState = 3) : rearmEff.run d = d.rearmed := by
  simp only [rearmEff, Prog.run_ask, h, beq_self_eq_true, Prog.when_true, Prog.run_all_cons, Prog.all_nil, Prog.run_skip, run_putN, run_raise]
  rfl

theorem canRearm_safe {d : Dev} (h : d.canRearm = true) : d.num .hvState = 3 := by
  simp only [Dev.canRearm, Bool.and_eq_true, beq_iff_eq] at h
  obtain ⟨⟨⟨⟨⟨⟨hst, -⟩, -⟩, -⟩, -⟩, -⟩, -⟩ := h
  exact hst

/-- No new FE_STATE writes HV_STATE. -/
theorem hvState_unwritten {n : Nat} (hn : n ∈ List.range 4) :
    Obj.hvState.key 0 0 ≠ Obj.feState.key n 0 ∧ feKeys n (Obj.hvState.key 0 0) = false := by
  revert n
  decide

/-- The die's state, the event and the ramps, once the request has been answered too. -/
theorem rearmed_answered {d : Dev} (hd : d.Canonical) (c : Call) : let t := (respond c 0 []).run d.rearmed
    t.num .hvState = 2 ∧ t.raisedEvent 504 0 noInst ∧ ∀ n, n < 4 → d.num .feEnable n = 1 → t.num .feState n = 1 := by
  have ha : (d.after [.obj .hvState 0 0 (.num 2), .raise 504 0 noInst 0 0]).Canonical := after_canonical _ hd
  have hr : d.rearmed.Canonical := run_canonical _ ha
  have hreply := only_respond c 0 []
  refine ⟨?_, hreply.raisedEvent (feAll_raisedEvent d 1 (raisedEvent_raise _ _ _ _ _ _)), fun n hn he => ?_⟩
  · rw [hreply.num hr.objs (by decide), Dev.rearmed, feAll_num d 1 ha fun n hn => hvState_unwritten hn]
    exact Dev.num_put hd.objs _ _ _ _
  · have hk : replyKeys (Obj.feState.key n 0) = false := by
      clear * - hn
      revert n
      decide
    rw [hreply.num hr.objs hk, Dev.rearmed, feAll_state d 1 hn ha fun m hm => List.mem_range.mp hm,
      if_pos ⟨List.mem_range.mpr hn, he⟩]

section
variable {s : State} {o : Origin} (h : s.dev.admits (execReq o .hvRearm 0 0 true (.num 0)))
include h

theorem hvRearm_refused (a : Bool) (h2 : s.dev.num .hvState ≠ 2) (hc : s.dev.canRearm = false) : exec (.hvRearm o a) s =
    .next (s.refusedWith (execReq o .hvRearm 0 0 true (.num 0)).call [] 0x0401) := by
  have hn : ¬(s.dev.num .hvState = 2 ∨ s.dev.canRearm = true) := by simp [h2, hc]
  rw [exec_hvRearm]
  exact serve_refused_state h rfl (if_neg hn) (by decide)

variable (hs : s.Inv)
include hs

theorem hvRearm_armed (a : Bool) (h2 : s.dev.num .hvState = 2) : exec (.hvRearm o a) s =
    .next (s.served (execReq o .hvRearm 0 0 true (.num 0)).call [] []) := by
  rw [exec_hvRearm]
  exact served_done hs h rfl (if_pos (.inl h2)) (if_pos h2) rfl

theorem hvRearm_run (hc : s.dev.canRearm = true) : exec (.hvRearm o true) s = .next { s with
    dev := (respond (execReq o .hvRearm 0 0 true (.num 0)).call 0 []).run
      (s.dev.taken (execReq o .hvRearm 0 0 true (.num 0)).call).rearmed } := by
  have h3 := canRearm_safe hc
  have h2 : ¬s.dev.num .hvState = 2 := by omega
  have ha (c : Call) : (hvRearmBeh c true).act (s.dev.taken (execReq o .hvRearm 0 0 true (.num 0)).call) = .done rearmEff [] := if_neg h2
  rw [exec_hvRearm, State.run_eq, serve_run hs.1.um h rfl (if_pos (.inr hc)), ha, finish, Prog.run_seq,
    rearmEff_run (d := s.dev.taken (execReq o .hvRearm 0 0 true (.num 0)).call) h3]

end

/-- Settles O22: each request is served by its own checks and effects; what FE_ENABLE = 0 and HV_REARM do is read off object by object. -/
theorem frontEndRequests : Obligations.FrontEndRequests := by
  refine ⟨fun s o n v a hs h => ⟨feEnable_unarmed h, fun hv he h2 ha hoff hst => ?_, fun hv ha => ?_, fun ha hv => ?_⟩,
    fun s o n v hs h => ⟨feApdTarget_served hs h, feApdTarget_owed hs h⟩,
    fun s o n b hs h => ⟨feTxCoeff_stored hs h, feTxCoeff_refused h⟩,
    fun s o n p a hs h => ⟨feLaserRelease_unlatched h hs a, feLaserRelease_refused h a, fun hr hp ha => ?_, fun hr hp ha => ?_⟩,
    fun s o a hs h => ⟨hvRearm_armed h hs a, hvRearm_refused h a, fun hc ha => ?_⟩,
    fun s o n v hs h => feLaserForceOff_served hs h⟩
  · subst ha
    exact feEnable_ramps hs h hv he h2 hoff hst
  · subst ha
    have hans := feOff_answered (taken_canonical hs.1 (writeReq o .feEnable n.val 0 (.num v.toNat)).call) n
      (writeReq o .feEnable n.val 0 (.num v.toNat)).call
    rw [Dev.taken_num] at hans
    refine ⟨_, feEnable_stops hs h hv, rfl, ?_⟩
    dsimp only at hans ⊢
    exact hans
  · subst ha
    exact feEnable_owed h hs hv
  · subst ha
    exact feLaserRelease_clears h hs hr hp
  · subst ha
    exact feLaserRelease_owed h hs hr hp
  · subst ha
    exact ⟨_, hvRearm_run h hs hc, rfl, rearmed_answered (taken_canonical hs.1 _) _⟩

end Sys2Proof.Machine
end

section
/-!
PROOFS of the events of the front end and of the HV die (O23).
-/
namespace Sys2Proof.Machine

theorem exec_apdBiasAtTarget (n : Fin 4) (s : State) : exec (.apdBiasAtTarget n) s = execApdBiasAtTarget n s := rfl
theorem exec_apdCurrentLimit (n : Fin 4) (s : State) : exec (.apdCurrentLimit n) s = execApdCurrentLimit n s := rfl
theorem exec_hvControlMessage (b : Bool) (m : HvMsg) (s : State) : exec (.hvControlMessage b m) s = execHvControlMessage b m s := rfl
theorem exec_hvCommandResend (n : Fin 4) (a : Bool) (s : State) : exec (.hvCommandResend n a) s = execHvCommandResend n a s := rfl
theorem exec_hvHeartbeat (b : Bool) (s : State) : exec (.hvHeartbeat b) s = execHvHeartbeat b s := rfl
theorem exec_hvWatchdogExpiry (s : State) : exec .hvWatchdogExpiry s = execHvWatchdogExpiry s := rfl
theorem exec_boostOutOfRange (s : State) : exec .boostOutOfRange s = execBoostOutOfRange s := rfl
theorem exec_hvOvertemp (s : State) : exec .hvOvertemp s = execHvOvertemp s := rfl
theorem exec_hvinUndervoltage (s : State) : exec .hvinUndervoltage s = execHvinUndervoltage s := rfl
theorem exec_hvinRecovery (s : State) : exec .hvinRecovery s = execHvinRecovery s := rfl
theorem exec_boostInRegulation (s : State) : exec .boostInRegulation s = execBoostInRegulation s := rfl
theorem exec_rogueMonitorLatch (n : Fin 4) (s : State) : exec (.rogueMonitorLatch n) s = execRogueMonitorLatch n s := rfl
theorem exec_rogueOnLimitLatch (n : Fin 4) (s : State) : exec (.rogueOnLimitLatch n) s = execRogueOnLimitLatch n s := rfl

/-! ## The APD generator (R214, R215) -/

/-- The receiver and the framer start afresh. -/
def searchEffs (n : Nat) : List Eff :=
  [.obj .dmtState n 0 (.num 1), .obj .dmtProfileActive n 0 (.num 0), .obj .dmtProfileEnable n 0 (.num 1), .obj .frmAlignState n 0 (.num 0),
    .fch n fun c => { c with presync := 0, failRun := 0, outFrames := 0 }]

/-- FE_STATE 2 is reached: the event, and Search and Hunt begin. -/
def Dev.feReady (d : Dev) (n : Nat) : Dev :=
  (d.after [.obj .feState n 0 (.num 2), .raise (128 + 16 * n) 0 n 0 0]).after (searchEffs n)

/-- An Initial activation goes on to Listening. -/
def Dev.feListening (d : Dev) (n : Nat) : Dev :=
  if d.num .actState n = 0 then (actTo n 1 4).run d else d

theorem feTo_reached {d : Dev} {n : Nat} (h : d.num .feState n ≠ 2) : (feTo n 2).run d = (d.feReady n).feListening n := by
  have hne : (d.num .feState n != 2) = true := bne_iff_ne.mpr h
  have hend : (feTo n 2).run d = (Prog.when ((d.feReady n).num .actState n == 0) [actTo n 1 4]).run (d.feReady n) := by
    simp only [feTo_run, Dev.feFollows, hne, beq_self_eq_true, bne_self_eq_false, Bool.true_and, Bool.false_and, Prog.when_true,
      Prog.when_false, Prog.run_all_cons, Prog.all_nil, Prog.run_skip, Prog.run_ask, run_raise, run_putN, profilesOff, Prog.run_eff]
    rfl
  rw [hend, Dev.feListening]
  by_cases h0 : (d.feReady n).num .actState n = 0
  · rw [if_pos h0, h0]
    rfl
  · rw [if_neg h0, beq_false_of_ne h0]
    rfl

theorem searchEffs_dmtState {d : Dev} (hd : d.Canonical) (n : Fin 4) : (d.after (searchEffs n.val)).num .dmtState n.val = 1 := by
  refine after_obj_num hd ?_
  clear * -
  revert n
  simp only [List.any_cons, List.any_nil, Eff.keys]
  decide

theorem searchEffs_alignState {d : Dev} (hd : d.Canonical) (n : Nat) : (d.after (searchEffs n)).num .frmAlignState n = 0 := by
  have h3 := after_canonical [.obj .dmtState n 0 (.num 1), .obj .dmtProfileActive n 0 (.num 0), .obj .dmtProfileEnable n 0 (.num 1)] hd
  rw [searchEffs, Dev.after_cons, Dev.after_cons, Dev.after_cons]
  exact after_obj_num h3 rfl

theorem searchEffs_state (n : Fin 4) : ((searchEffs n.val).any fun e => e.keys (Obj.actState.key n.val 0)) = false := by
  revert n
  simp only [searchEffs, List.any_cons, List.any_nil, Eff.keys]
  decide

section
variable {d : Dev} (hd : d.Canonical) (n : Fin 4)
include hd

theorem feReady_objs : (d.feReady n.val).num .dmtState n.val = 1 ∧ (d.feReady n.val).num .frmAlignState n.val = 0 ∧
    (d.feReady n.val).num .actState n.val = d.num .actState n.val := by
  have hc := after_canonical [.obj .feState n.val 0 (.num 2), .raise (128 + 16 * n.val) 0 n.val 0 0] hd
  refine ⟨searchEffs_dmtState hc n, searchEffs_alignState hc n.val, (after_num hc.objs (searchEffs_state n)).trans ?_⟩
  exact Dev.num_put_other hd.objs _ (by clear * -; revert n; decide)

theorem feListening_objs : (d.feListening n.val).num .dmtState n.val = d.num .dmtState n.val ∧
    (d.feListening n.val).num .frmAlignState n.val = d.num .frmAlignState n.val ∧
    (d.feListening n.val).num .actState n.val = if d.num .actState n.val = 0 then 1 else d.num .actState n.val := by
  unfold Dev.feListening
  split
  · refine ⟨actTo_num hd n.val 1 4 ?_ ?_, actTo_num hd n.val 1 4 ?_ ?_, actTo_state hd n 1 4⟩ <;> clear * - <;> revert n <;> decide
  · exact ⟨rfl, rfl, rfl⟩

theorem feTo_ready (h : d.num .feState n.val = 1) : let t := (feTo n.val 2).run d
    t.num .feState n.val = 2 ∧ t.raisedEvent (128 + 16 * n.val) 0 n.val ∧ t.num .dmtState n.val = 1 ∧ t.num .frmAlignState n.val = 0 ∧
      t.num .actState n.val = if d.num .actState n.val = 0 then 1 else d.num .actState n.val := by
  have hr : (d.feReady n.val).Canonical := after_canonical _ (after_canonical _ hd)
  obtain ⟨hdmt, hfrm, hact⟩ := feReady_objs hd n
  obtain ⟨ldmt, lfrm, lact⟩ := feListening_objs (d := d.feReady n.val) hr n
  rw [hdmt] at ldmt
  rw [hfrm] at lfrm
  rw [hact] at lact
  have hraised : (d.feReady n.val).raisedEvent (128 + 16 * n.val) 0 n.val :=
    after_raisedEvent (by simp [searchEffs, Eff.keepsOccs]) (raisedEvent_raise _ _ _ _ _ _)
  have hev : ((d.feReady n.val).feListening n.val).raisedEvent (128 + 16 * n.val) 0 n.val := by
    unfold Dev.feListening
    split
    · exact (actTo_adds_move n.val 1 4).raisedEvent hraised
    · exact hraised
  refine ⟨feTo_state hd n 2, ?_⟩
  rw [feTo_reached (by rw [h]; decide)]
  exact ⟨hev, ldmt, lfrm, lact⟩

end

section
variable {s : State} {n : Fin 4} (ha : s.dev.answers = true)
include ha

theorem apdBias_ramping (h : s.dev.num .feState n.val = 1) :
    exec (.apdBiasAtTarget n) s = .next { s with dev := (feTo n.val 2).run s.dev } := by
  rw [exec_apdBiasAtTarget, execApdBiasAtTarget, run_live ha, Prog.run_ask, h]
  rfl

theorem apdBias_idle (h : s.dev.num .feState n.val ≠ 1) : exec (.apdBiasAtTarget n) s = .next s := by
  rw [exec_apdBiasAtTarget, execApdBiasAtTarget, run_live ha, Prog.run_ask, beq_false_of_ne h]
  rfl

theorem apdLimit_run (h : s.dev.num .feState n.val ≠ 0) : exec (.apdCurrentLimit n) s =
    .next (s.after [.count .feApdLimitEvents n.val 0 1, .raise (128 + 16 * n.val + 1) 0 n.val 0 0]) := by
  rw [exec_apdCurrentLimit, execApdCurrentLimit, run_live ha, Prog.run_ask, bne_iff_ne.mpr h]
  rfl

/-! ## The control link (R210) -/

theorem hvMessage_bad (m : HvMsg) : exec (.hvControlMessage false m) s =
    .next (s.after [.count .hvLinkErrors 0 0 1, .raise 509 0 noInst 0 0]) := by
  rw [exec_hvControlMessage, execHvControlMessage.eq_def, run_live ha]
  rfl

theorem hvMessage_die (a b c : BitVec 32) : exec (.hvControlMessage true (.die a b c)) s = .next (s.after
    [.obj .hvVin 0 0 (.num a.toNat), .obj .hvBoost 0 0 (.num b.toNat), .obj .hvTemp 0 0 (.num c.toNat)]) := by
  rw [exec_hvControlMessage, execHvControlMessage.eq_def, run_live ha]
  rfl

theorem hvMessage_channel (a b c : BitVec 32) : exec (.hvControlMessage true (.channel n a b c)) s = .next (s.after
    [.obj .feApdVoltage n.val 0 (.num a.toNat),
     .obj .feApdCurrent n.val 0 (.num (if s.dev.num .feState n.val = 0 then 0 else b.toNat)), .obj .feLdMon n.val 0 (.num c.toNat)]) := by
  rw [exec_hvControlMessage, execHvControlMessage.eq_def, run_live ha]
  rfl

theorem hvMessage_ack : exec (.hvControlMessage true (.ack n)) s = .next { s with dev := (hvAck n.val).run s.dev } := by
  rw [exec_hvControlMessage, execHvControlMessage.eq_def, run_live ha]
  rfl

theorem hvResend_acked : exec (.hvCommandResend n true) s = .next { s with dev := (hvAck n.val).run s.dev } := by
  rw [exec_hvCommandResend, execHvCommandResend, run_live ha]
  rfl

variable {x : HvCmd} {rest : List HvCmd} (hx : (s.dev.ch n.val).hvPend = x :: rest)
include hx

omit ha in
/-- The oldest command was to set FE_APD_TARGET: it takes effect and its write is done. -/
theorem hvAck_target (ho : x.obj = .feApdTarget) : (hvAck n.val).run s.dev = (respond x.call 0 []).run (s.dev.after
    [.fch n.val fun f => { f with hvPend := f.hvPend.tail }, .obj .feApdTarget n.val 0 (.num x.value)]) := by
  simp only [hvAck, Prog.run_ask, hx, ho]
  rfl

theorem hvResend_failed (h2 : 2 ≤ x.sent) : exec (.hvCommandResend n false) s = .next { s with
    dev := (respond x.call 0x0701 []).run (s.dev.after [.fch n.val fun f => { f with hvPend := f.hvPend.tail }]) } := by
  rw [exec_hvCommandResend, execHvCommandResend, run_live ha]
  simp only [Bool.false_eq_true, if_false, Prog.run_ask, hx, if_neg (Nat.not_lt.mpr h2)]
  rfl

/-- One more attempt is counted on the oldest command. -/
def hvRetried (n : Nat) : Eff := .fch n fun f => { f with
  hvPend := match f.hvPend with | [] => [] | y :: r => { y with sent := y.sent + 1 } :: r }

theorem hvResend_waits (h2 : x.sent < 2) : exec (.hvCommandResend n false) s = .next (s.after [hvRetried n.val]) := by
  rw [exec_hvCommandResend, execHvCommandResend, run_live ha]
  simp only [Bool.false_eq_true, if_false, Prog.run_ask, hx, if_pos h2]
  rfl

omit ha in
theorem hvRetried_only (hs : s.Inv) : ((s.after [hvRetried n.val]).dev.ch n.val).hvPend = { x with sent := x.sent + 1 } :: rest ∧
    s.dev.only noKeys [.fch] (s.after [hvRetried n.val]).dev := by
  have hch : (s.after [hvRetried n.val]).dev.ch n.val = _ := ch_fch hs.1 n.val _
  rw [hch]
  dsimp only
  rw [hx]
  exact ⟨rfl, (hvRetried n.val).only s.dev hs.1.objs⟩

end

/-! ## The die's states (Tables 7.3 and 7.4, R212, R213) -/

theorem hvHeartbeat_run (s : State) (b : Bool) : exec (.hvHeartbeat b) s = .next (s.after
    ((if s.dev.hvTrip then [.count .hvWatchdogTrips 0 0 1, .raise 505 0 noInst 0 0] else []) ++ [.hv s.dev.hvUnder b false])) := by
  rw [exec_hvHeartbeat, execHvHeartbeat, State.run_eq, Prog.run_ask]
  cases s.dev.hvTrip <;> rfl

/-- The HV die is in Safe, every enabled channel reads FE_STATE 3 and every other what it read. -/
def Dev.feSafe (d t : Dev) : Prop := t.num .hvState = 3 ∧
  ∀ n, n < 4 → t.num .feState n = if d.num .feEnable n = 1 then 3 else d.num .feState n

theorem Dev.feSafe.of_objs {d t u : Dev} (h : d.feSafe t) (ho : u.objs = t.objs) : d.feSafe u := by
  simpa only [Dev.feSafe, Dev.num, Dev.get, ho] using h

theorem Dev.feSafe.hv {d t : Dev} (h : d.feSafe t) (under beat trip : Bool) : d.feSafe ((Eff.hv under beat trip).apply t) := h.of_objs rfl

theorem Dev.feSafe.raise {d t : Dev} (h : d.feSafe t) (src code inst a0 a1 : Nat) :
    d.feSafe ((Eff.raise src code inst a0 a1).apply t) := h.of_objs rfl

theorem hvSafe_run (d : Dev) : hvSafe.run d = (d.feAll (List.range 4) 3).run ((Eff.obj .hvState 0 0 (.num 3)).apply d) := rfl

section
variable {d : Dev} (hd : d.Canonical)
include hd

omit hd in
theorem feState_ne_hvState {n : Nat} (hn : n < 4) : Obj.feState.key n 0 ≠ Obj.hvState.key 0 0 := by
  revert n
  decide

theorem hvSafe_safe : d.feSafe (hvSafe.run d) := by
  have hc := Eff.apply_canonical (.obj .hvState 0 0 (.num 3)) d hd
  rw [hvSafe_run]
  refine ⟨?_, fun n hn => ?_⟩
  · rw [feAll_num d 3 hc fun n hn => hvState_unwritten hn]
    exact Dev.num_put hd.objs _ _ _ _
  · have hother : ((Eff.obj .hvState 0 0 (.num 3)).apply d).num .feState n = d.num .feState n :=
      Dev.num_put_other hd.objs _ (feState_ne_hvState hn)
    rw [feAll_state d 3 hn hc fun m hm => List.mem_range.mp hm, hother]
    simp only [List.mem_range.mpr hn, true_and]

theorem hvSafe_same {x : Part} (hx : x ∉ feParts) : x.same d (hvSafe.run d) := by
  have h := feAll_same d 3 hx (l := List.range 4) (Eff.apply_canonical (.obj .hvState 0 0 (.num 3)) d hd)
  rw [hvSafe_run]
  cases x <;> exact h

end

section
variable {s : State}

theorem watchdogExpiry_run (h : s.dev.num .hvState ≠ 0) :
    exec .hvWatchdogExpiry s = .next { s with dev := (Eff.hv false false true).apply (hvSafe.run s.dev) } := by
  rw [exec_hvWatchdogExpiry, execHvWatchdogExpiry, State.run_eq, Prog.run_ask, bne_iff_ne.mpr h]
  simp only [Prog.when_true, Prog.run_all_cons, Prog.all_nil, Prog.run_skip, Prog.run_eff]

theorem boostOutOfRange_run (h : s.dev.num .hvState = 2 ∨ s.dev.num .hvState = 3) :
    exec .boostOutOfRange s = .next { s with dev := (Eff.raise 507 0 noInst 0 0).apply (hvSafe.run s.dev) } := by
  have hb : (s.dev.num .hvState == 2 || s.dev.num .hvState == 3) = true := by simpa using h
  rw [exec_boostOutOfRange, execBoostOutOfRange, State.run_eq, Prog.run_ask, hb]
  simp only [Prog.when_true, Prog.run_all_cons, Prog.all_nil, Prog.run_skip, run_raise]

theorem hvOvertemp_run (h : s.dev.num .hvState ≠ 0) : exec .hvOvertemp s = .next { s with
    dev := (hvSafe.run s.dev).after [.hv false s.dev.hvBeat s.dev.hvTrip, .raise 508 0 noInst 0 0] } := by
  rw [exec_hvOvertemp, execHvOvertemp, State.run_eq, Prog.run_ask, bne_iff_ne.mpr h]
  simp only [Prog.when_true, Prog.run_all_cons, Prog.all_nil, Prog.run_skip, Prog.run_eff, run_raise, Dev.after_cons, Dev.after_nil]

/-- HVIN falls. -/
def hvinLow : Eff := .pins fun p => { p with hvin := false }

/-- The die is Off after an undervoltage. -/
def Dev.hvOff (d : Dev) : Dev := (hvSafe.run (hvinLow.apply d)).after
  [.obj .hvState 0 0 (.num 0), .raise 506 0 noInst 0 0, .hv true d.hvBeat d.hvTrip]

theorem hvinUndervoltage_run (h : s.dev.num .hvState ≠ 0) : exec .hvinUndervoltage s = .next { s with dev := s.dev.hvOff } := by
  rw [exec_hvinUndervoltage, execHvinUndervoltage, State.run_eq, Prog.run_ask, bne_iff_ne.mpr h]
  simp only [Prog.when_true, Prog.run_all_cons, Prog.all_nil, Prog.run_skip, Prog.run_eff, run_raise, run_putN, Dev.after_cons,
    Dev.after_nil, hvinLow, Dev.hvOff]

theorem hvOff_state {d : Dev} (hd : d.Canonical) : d.hvOff.num .hvState = 0 ∧ d.hvOff.hvUnder = true ∧ d.hvOff.pins.hvin = false ∧
    d.hvOff.raisedEvent 506 0 noInst ∧ ∀ n, n < 4 → d.num .feEnable n = 1 → d.hvOff.num .feState n = 3 := by
  have hp := Eff.apply_canonical hvinLow d hd
  have hc := run_canonical hvSafe hp
  obtain ⟨-, hfe⟩ := hvSafe_safe hp
  have hpins : (hvSafe.run (hvinLow.apply d)).pins = (hvinLow.apply d).pins := hvSafe_same hp (x := .pins) (by decide)
  refine ⟨Dev.num_put hc.objs _ _ _ _, rfl, congrArg Pins.hvin hpins, raisedEvent_raise _ _ _ _ _ _, fun n hn he => ?_⟩
  have hother : ((Eff.obj .hvState 0 0 (.num 0)).apply (hvSafe.run (hvinLow.apply d))).num .feState n =
      (hvSafe.run (hvinLow.apply d)).num .feState n := Dev.num_put_other hc.objs _ (feState_ne_hvState hn)
  exact hother.trans ((hfe n hn).trans (if_pos he))

theorem hvinRecovery_run (h0 : s.dev.num .hvState = 0) (he : s.dev.hvEnable = true) :
    exec .hvinRecovery s = .next (s.after [.pins fun p => { p with hvin := true }, .obj .hvState 0 0 (.num 1)]) := by
  rw [exec_hvinRecovery, execHvinRecovery, State.run_eq, Prog.run_ask, h0, he]
  rfl

variable (h1 : s.dev.num .hvState = 1)
include h1

theorem boostInRegulation_arms (hu : s.dev.hvUnder = false) :
    exec .boostInRegulation s = .next (s.after [.obj .hvState 0 0 (.num 2), .raise 504 0 noInst 0 0]) := by
  rw [exec_boostInRegulation, execBoostInRegulation, State.run_eq, Prog.run_ask, h1, hu]
  rfl

theorem boostInRegulation_safe (hu : s.dev.hvUnder = true) : exec .boostInRegulation s = .next { s with
    dev := (Eff.hv false s.dev.hvBeat s.dev.hvTrip).apply (hvSafe.run s.dev) } := by
  rw [exec_boostInRegulation, execBoostInRegulation, State.run_eq, Prog.run_ask, h1, hu]
  simp only [beq_self_eq_true, Prog.when_true, if_true, Prog.run_all_cons, Prog.all_nil, Prog.run_skip, Prog.run_eff]

end

/-! ## The rogue latch (R222) -/

section
variable {s : State} {n : Fin 4} (h : s.dev.num .hvState ≠ 0) (hr : (s.dev.ch n.val).rogue = 0)
include h hr

theorem rogueMonitor_latches (hb : (s.dev.ch n.val).burstOn = false) : exec (.rogueMonitorLatch n) s = .next (s.after
    [.fch n.val fun c => { c with rogue := 1 }, .count .feRogueTrips n.val 0 1, .raise (128 + 16 * n.val + 2) 1 n.val 0 0]) := by
  rw [exec_rogueMonitorLatch, execRogueMonitorLatch, State.run_eq, Prog.run_ask, bne_iff_ne.mpr h, hr, hb]
  rfl

theorem rogueOnLimit_latches (hb : (s.dev.ch n.val).burstOn = true) (hl : s.dev.num .feRogueOnLimit n.val ≠ 0) :
    exec (.rogueOnLimitLatch n) s = .next (s.after
      [.fch n.val fun c => { c with rogue := 2 }, .count .feRogueTrips n.val 0 1, .raise (128 + 16 * n.val + 2) 2 n.val 0 0]) := by
  rw [exec_rogueOnLimitLatch, execRogueOnLimitLatch, State.run_eq, Prog.run_ask, bne_iff_ne.mpr h, hr, hb, bne_iff_ne.mpr hl]
  rfl

end

/-- Settles O23: a ramp that ends is `feTo_ready`; every entry into Safe is `hvSafe`; the rest are known effects. -/
theorem hvDieEvents : Obligations.HvDieEvents := by
  refine ⟨fun s n hs ha => ⟨fun h1 => ?_, apdBias_idle ha, apdLimit_run ha⟩,
    fun s hs ha => ⟨hvMessage_bad ha, hvMessage_die ha, fun n => hvMessage_channel ha, fun n x rest hx ho => ⟨?_, ?_⟩,
      fun n x rest hx => ⟨fun h2 => ?_, hvResend_failed ha hx⟩⟩,
    hvHeartbeat_run, fun s hs safe hsafe => ?_, fun s hs h => ?_, fun s => hvinRecovery_run,
    fun s hs h1 => ⟨boostInRegulation_arms h1, fun hu => ?_⟩, fun s n h hr => ⟨rogueMonitor_latches h hr, rogueOnLimit_latches h hr⟩⟩
  · have hready := feTo_ready hs.1 n h1
    dsimp only at hready
    exact ⟨_, apdBias_ramping ha h1, rfl, hready⟩
  · rw [hvMessage_ack ha, hvAck_target hx ho]
  · rw [hvMessage_ack ha, hvResend_acked ha]
  · exact ⟨_, hvResend_waits ha hx h2, rfl, hvRetried_only hx hs⟩
  · have hsettles {u : Dev} (h : s.dev.feSafe u) : safe { s with dev := u } := by
      subst hsafe
      exact ⟨rfl, h⟩
    have hfe := hvSafe_safe hs.1
    exact ⟨fun h => ⟨_, watchdogExpiry_run h, hsettles (hfe.hv _ _ _), rfl, rfl, rfl⟩,
      fun h => ⟨_, boostOutOfRange_run h, hsettles (hfe.raise _ _ _ _ _), raisedEvent_raise _ _ _ _ _ _⟩,
      fun h => ⟨_, hvOvertemp_run h, hsettles ((hfe.hv _ _ _).raise _ _ _ _ _), raisedEvent_raise _ _ _ _ _ _, rfl⟩⟩
  · exact ⟨_, hvinUndervoltage_run h, rfl, hvOff_state hs.1⟩
  · exact ⟨_, boostInRegulation_safe h1 hu, rfl, ((hvSafe_safe hs.1).hv _ _ _).1, rfl⟩

end Sys2Proof.Machine
end

section
/-!
PROOFS of transmission on the management band (O27).
-/
namespace Sys2Proof.Machine

theorem exec_mgtTxStart (n : Fin 4) (s : State) : exec (.mgtTxStart n) s = execMgtTxStart n s := rfl
theorem exec_mgtTxComplete (n : Fin 4) (s : State) : exec (.mgtTxComplete n) s = execMgtTxComplete n s := rfl

/-! ## A channel whose entry is listed, in any store -/

/-- A read of a key that has just been given a listed value, also where the keys do not rise. -/
theorem SMap.get_put_same_listed {α : Type} [DecidableEq α] {d v : α} {i : Nat} (hv : v ≠ d) :
    ∀ m : SMap α, SMap.get d (SMap.put d i v m) i = v
  | [] => by simp [SMap.put, hv, SMap.get]
  | (k, w) :: r => by
    have ih := SMap.get_put_same_listed (i := i) hv r
    rcases lt_trichotomy k i with hk | hk | hk
    · simp [SMap.put, hk, SMap.get, ih, hk.ne, Nat.not_lt.mpr hk.le]
    · simp [SMap.put, hk, hv, SMap.get]
    · simp [SMap.put, hv, SMap.get, Nat.not_lt.mpr hk.le, hk.ne']

/-- A channel with windows pending is listed, so that it holds what it was given. -/
theorem ch_fch_windows {d : Dev} {n : Nat} {f : Fch → Fch} (h : (f (d.ch n)).windows ≠ []) :
    ((Eff.fch n f).apply d).ch n = f (d.ch n) :=
  SMap.get_put_same_listed (fun he => h (by rw [show f (d.ch n) = Fch.none from he]; rfl)) _

/-! ## What goes on air (R219, R281) -/

section
variable {d : Dev} {n : Nat} (h : (d.ch n).ldPend = false)
include h

/-- With no bias setting waiting, only the transmit settings take effect. -/
theorem burstSettings_run : (burstSettings n).run d = d.after [.fch n fun c => { c with txSet := c.txNext }] := by
  simp only [burstSettings, Prog.run_ask, h, Prog.when_false, Prog.run_all_cons, Prog.all_nil, Prog.run_skip, Prog.run_eff, Dev.after_cons,
    Dev.after_nil]

/-- The item that a management packet puts out. -/
def Dev.mgtOut (d : Dev) (n phy sf type : Nat) (data : List Byte) (frame unit eqd : Nat) : Out :=
  ⟨.mgmt, n, d.num .mgtTxLevel n, beBytes 8 frame ++ beBytes 4 unit ++ beBytes 4 eqd ++ beBytes 1 phy ++ beBytes 1 sf ++ d.leadLag n ++
    mgtWave (phy == 1) sf type (if d.num .actHandle n = 0xFFFF then 0xFFFE else d.num .actHandle n) data⟩

theorem mgtStart_run (phy sf type : Nat) (data : List Byte) (frame unit eqd : Nat) :
    (mgtStart n phy sf type data frame unit eqd).run d = d.after
      [.fch n fun c => { c with txSet := c.txNext },
       .fch n fun c => { c with onAir := some (airTime (phy == 1) sf data.length), burstOn := true, burstLeft := 0 },
       .out (d.mgtOut n phy sf type data frame unit eqd)] := by
  simp only [mgtStart, Prog.run_ask, Prog.run_all_cons, Prog.all_nil, Prog.run_skip, burstSettings_run h]
  rfl

end

theorem mgtRefused_run (n : Nat) (d : Dev) :
    (mgtRefused n).run d = d.after [.count .actMgtRefused n 0 1, .raise (128 + 16 * n + 15) 6 n 0 0] := rfl

/-! ## A management window (R279, R280, R348) -/

/-- A window from which some units have been used. -/
def Window.used (w : Window) (units : Nat) : Window := { w with unit := w.unit + units, dur := w.dur - units }

/-- What becomes of a head packet that is on a window's PHY and factor. -/
def Dev.mgtTurn (d : Dev) (n : Nat) (w : Window) (rest : List Window) (p : TxPkt) (q : List TxPkt) (phy sf : Nat) : Prog :=
  let need := d.txUnits n phy sf p.data.length
  if d.tooLong n phy sf p.data.length then .all [.eff (.fch n fun c => { c with txq := q }), mgtRefused n]
  else .when (d.laserReady n && decide (need ≤ w.dur) && !d.hitsBurst n (upPos w.frame w.unit (d.windowEqd n w)) need) [
    .eff (.fch n fun c => { c with txq := q }),
    setWindows n (w.used need :: rest),
    mgtStart n phy sf (if p.lemow then 0 else 1) p.data w.frame w.unit (d.windowEqd n w),
    .when p.dozeEnd [putN .actDozeState n 0 0]]

section
variable {d : Dev} {n : Nat} {w : Window} {rest : List Window} {p : TxPkt} {q : List TxPkt} {phy sf : Nat}

theorem mgtTurn_refused (hl : d.tooLong n phy sf p.data.length = true) : (d.mgtTurn n w rest p q phy sf).run d = d.after
    [.fch n fun c => { c with txq := q }, .count .actMgtRefused n 0 1, .raise (128 + 16 * n + 15) 6 n 0 0] := by
  rw [Dev.mgtTurn, if_pos hl]
  rfl

theorem mgtTurn_sent (hw : d.nextWindow n 2 = some (w, rest)) (hl : d.tooLong n phy sf p.data.length = false) (hr : d.laserReady n = true)
    (hfit : d.txUnits n phy sf p.data.length ≤ w.dur)
    (hfree : d.hitsBurst n (upPos w.frame w.unit (d.windowEqd n w)) (d.txUnits n phy sf p.data.length) = false)
    (hend : p.dozeEnd = false) (hld : (d.ch n).ldPend = false) : (d.mgtTurn n w rest p q phy sf).run d = d.after
      [.fch n fun c => { c with txq := q },
       .fch n fun c => { c with windows := w.used (d.txUnits n phy sf p.data.length) :: rest },
       .fch n fun c => { c with txSet := c.txNext },
       .fch n fun c => { c with onAir := some (airTime (phy == 1) sf p.data.length), burstOn := true, burstLeft := 0 },
       .out (d.mgtOut n phy sf (if p.lemow then 0 else 1) p.data w.frame w.unit (d.windowEqd n w))] := by
  have hpend : (d.ch n).windows ≠ [] := fun h0 => by simp [Dev.nextWindow, h0] at hw
  have htaken : ((Eff.fch n fun c => { c with txq := q }).apply d).ch n = { d.ch n with txq := q } := ch_fch_windows hpend
  have hld' : (((Eff.fch n fun c => { c with windows := w.used (d.txUnits n phy sf p.data.length) :: rest }).apply
      ((Eff.fch n fun c => { c with txq := q }).apply d)).ch n).ldPend = false := by
    rw [ch_fch_windows (List.cons_ne_nil _ _), htaken]
    exact hld
  simp only [Dev.mgtTurn, hl, hr, decide_eq_true hfit, hfree, hend, Bool.false_eq_true, if_false, Bool.not_false, Bool.and_self,
    Prog.when_true, Prog.when_false, Prog.run_all_cons, Prog.all_nil, Prog.run_skip, Prog.run_eff, setWindows, mgtStart_run hld']
  rfl

end

section
variable {s : State} {n : Fin 4} {w : Window} {rest : List Window} {p : TxPkt} {q : List TxPkt} {phy sf : Nat}
  (ha : s.dev.answers = true) (hw : s.dev.nextWindow n.val 2 = some (w, rest)) (hq : (s.dev.ch n.val).txq = p :: q)
  (hphy : phy = (if p.phy = 2 then s.dev.num .mgtTxPhy n.val else p.phy)) (hsf : sf = (if phy = 1 then s.dev.num .mgtCmSfTx n.val else 0))
  (hst : s.dev.num .actState n.val = 3 ∨ s.dev.num .actState n.val = 4) (hair : (s.dev.ch n.val).onAir = none) (hwp : phy = w.phy)
  (hws : sf = w.sf) (hdz : s.dev.num .actDozeState n.val ≠ 3)
include ha hw hq hphy hsf hst hair hwp hws hdz

theorem mgtTxStart_meets : exec (.mgtTxStart n) s = .next { s with dev := (s.dev.mgtTurn n.val w rest p q phy sf).run s.dev } := by
  have hin : s.dev.actIn n.val [3, 4] = true := actIn_of (by simpa using hst)
  have hc : (s.dev.actIn n.val [3, 4] && (s.dev.ch n.val).onAir.isNone && phy == w.phy && sf == w.sf &&
      s.dev.num .actDozeState n.val != 3) = true := by
    rw [hin, hair, ← hwp, ← hws, bne_iff_ne.mpr hdz, beq_self_eq_true, beq_self_eq_true]
    rfl
  rw [exec_mgtTxStart, execMgtTxStart, run_live ha]
  simp only [Prog.run_ask, hw, hq, ← hphy, ← hsf, hc, Prog.when_true, Prog.run_all_cons, Prog.all_nil, Prog.run_skip]
  rfl

end

theorem mgtTxComplete_run {s : State} {n : Fin 4} {t : Nat} (ha : s.dev.answers = true) (ht : (s.dev.ch n.val).onAir = some t) :
    exec (.mgtTxComplete n) s = .next (s.after [.count .mgtTxPackets n.val 0 1, .obj .mgtTxLastAirtime n.val 0 (.num t),
      .fch n.val fun c => { c with onAir := none, burstOn := false }]) := by
  rw [exec_mgtTxComplete, execMgtTxComplete, run_live ha]
  simp only [Prog.run_ask, ht]
  rfl

/-! ## Air time (R267) -/

theorem airTime_starlight (s l : Nat) : airTime false s 0 = 51000 ∧ airTime false s (l + 1) = (102 + (8 * (l + 1) + 38)) * 500 := ⟨rfl, rfl⟩

theorem airTime_comet (s l : Nat) : airTime true s 0 = (20 + ceilDiv 108 s) * 2 ^ s * 10 ∧
    airTime true s (l + 1) = (20 + ceilDiv 108 s + ceilDiv (16 * (l + 1) + 76) s) * 2 ^ s * 10 := ⟨rfl, rfl⟩

/-- Settles O27: a window that the head packet meets is `mgtTxStart_meets`; the air times are the sums of R267. -/
theorem managementTransmission : Obligations.ManagementTransmission := by
  refine ⟨fun s n w rest p q phy sf ha hw hq hphy hsf hst hair hwp hws hdz => ⟨?_, ?_⟩, fun s n t => mgtTxComplete_run,
    fun s l => ⟨(airTime_starlight s l).1, (airTime_starlight s l).2, fun _ => airTime_comet s l⟩⟩
  · intro hl
    rw [mgtTxStart_meets ha hw hq hphy hsf hst hair hwp hws hdz, mgtTurn_refused hl]
    rfl
  · intro hl hr hfit hfree hend hld
    rw [mgtTxStart_meets ha hw hq hphy hsf hst hair hwp hws hdz, mgtTurn_sent hw hl hr hfit hfree hend hld]
    rfl

end Sys2Proof.Machine
end

section
/-!
PROOFS of windows and what is sent in them, of modes and of the beginning of doze (O38).
-/
namespace Sys2Proof.Machine

theorem exec_window (n : Fin 4) (m : Lemow) (s : State) : exec (.window n m) s = execWindow n m s := rfl
theorem exec_announce (n : Fin 4) (off : BitVec 32) (back : BitVec 4) (s : State) :
    exec (.announce n off back) s = execAnnounce n off back s := rfl
theorem exec_rangingBurst (n : Fin 4) (s : State) : exec (.rangingBurst n) s = execRangingBurst n s := rfl
theorem exec_modeApply (n : Fin 4) (s : State) : exec (.modeApply n) s = execModeApply n s := rfl
theorem exec_dozeStart (n : Fin 4) (s : State) : exec (.dozeStart n) s = execDozeStart n s := rfl

/-! ## WINDOW (R344) -/

/-- The windows of a channel that have not ended. -/
def Dev.liveWindows (d : Dev) (n : Nat) : List Window := (d.ch n).windows.filter fun x => !d.windowOver n x

/-- What a discovery window that is delivered comes to. -/
def Dev.windowTurn (d : Dev) (n : Nat) (w : Window) : Prog :=
  if d.windowUsable n w ∧ (d.liveWindows n).length < 4 then .all [
    .eff (.fch n fun c => { c with windows := d.liveWindows n ++ [w] }),
    .when (w.kind == 0 && d.num .actState n == 1) [actTo n 2 5]]
  else .all [
    .eff (.fch n fun c => { c with windows := d.liveWindows n, skips := c.skips }),
    count .actWindowSkips n]

theorem windowUsable_iff {d : Dev} {n : Nat} {w : Window} : d.windowUsable n w = true ↔
    d.num .frmFrame n + 2 ≤ w.frame ∧ capsHas (d.caps n) w.phy w.sf = true ∧ d.windowNeed n w ≤ w.dur := by
  simp [Dev.windowUsable, and_assoc]

section
variable {s : State} {n : Fin 4} {m : Lemow} (ha : s.dev.answers = true) (hm : m.addr.toNat = 0xFFFF) (hl : m.body.length = 24)
  (hb : (msgWindow m).bad = false) (hk : (msgWindow m).kind = 0)
  (hst : s.dev.num .actState n.val = 1 ∨ s.dev.num .actState n.val = 2)
  (hh : s.dev.num .actState n.val = 1 → (s.dev.ch n.val).holdoff = false)
include ha hm hl hb hk hst hh

theorem window_turn : exec (.window n m) s = .next { s with dev := (s.dev.windowTurn n.val (msgWindow m)).run s.dev } := by
  have hk0 : msgAt m 0 1 = 0 := hk
  have hc : (!(s.dev.num .actState n.val == 1 && (s.dev.ch n.val).holdoff)) = true := by
    by_cases h1 : s.dev.num .actState n.val = 1
    · rw [hh h1, Bool.and_false]
      rfl
    · rw [beq_false_of_ne h1]
      rfl
  rw [exec_window, execWindow, State.run_eq, live_run ha, lemow_acts (n := n.val)]
  · simp only [Prog.run_ask, hc, Prog.when_true, Prog.run_all_cons, Prog.all_nil, Prog.run_skip]
    rfl
  · refine .inr (.inr ⟨?_, hm⟩)
    dsimp only
    rw [hk0]
    rfl
  · exact hl
  · exact hb
  · exact fun hn => nomatch hn
  · dsimp only
    rw [if_pos hk0]
    exact actIn_of (by simpa using hst)

theorem window_skipped (h : (msgWindow m).frame < s.dev.num .frmFrame n.val + 2 ∨
      capsHas (s.dev.caps n.val) (msgWindow m).phy (msgWindow m).sf = false ∨ (msgWindow m).dur < s.dev.windowNeed n.val (msgWindow m) ∨
      4 ≤ (s.dev.liveWindows n.val).length) : exec (.window n m) s = .next (s.after
    [.fch n.val (fun c => { c with windows := s.dev.liveWindows n.val }), .count .actWindowSkips n.val 0 1]) := by
  have hc : ¬(s.dev.windowUsable n.val (msgWindow m) ∧ (s.dev.liveWindows n.val).length < 4) := by
    rw [windowUsable_iff]
    rintro ⟨⟨hf, hcaps, hneed⟩, hlen⟩
    rcases h with h | h | h | h
    · omega
    · simp [h] at hcaps
    · omega
    · omega
  rw [window_turn ha hm hl hb hk hst hh, Dev.windowTurn, if_neg hc]
  rfl

theorem window_held (hf : s.dev.num .frmFrame n.val + 2 ≤ (msgWindow m).frame)
    (hcaps : capsHas (s.dev.caps n.val) (msgWindow m).phy (msgWindow m).sf = true)
    (hneed : s.dev.windowNeed n.val (msgWindow m) ≤ (msgWindow m).dur) (hlen : (s.dev.liveWindows n.val).length < 4) :
    exec (.window n m) s = .next (s.after ([.fch n.val fun c => { c with windows := s.dev.liveWindows n.val ++ [msgWindow m] }] ++
      if s.dev.num .actState n.val = 1 then [.obj .actState n.val 0 (.num 2), .raise (128 + 16 * n.val + 14) 5 n.val (top8 1 + 2 * 65536) 0]
      else [])) := by
  have hc : s.dev.windowUsable n.val (msgWindow m) ∧ (s.dev.liveWindows n.val).length < 4 :=
    ⟨windowUsable_iff.mpr ⟨hf, hcaps, hneed⟩, hlen⟩
  rw [window_turn ha hm hl hb hk hst hh, Dev.windowTurn, if_pos hc, hk]
  rcases hst with h1 | h2
  · have h1' (f : Fch → Fch) : ((Eff.fch n.val f).apply s.dev).num .actState n.val = 1 := h1
    have hto (f : Fch → Fch) := actTo_plain (d := (Eff.fch n.val f).apply s.dev) (n := n.val) (new := 2) 5 (by rw [h1']; decide)
      (by rw [h1']; decide) rfl
    rw [if_pos h1, h1]
    simp only [beq_self_eq_true, Bool.and_self, Prog.when_true, Prog.run_all_cons, Prog.all_nil, Prog.run_skip, Prog.run_eff, hto, Dev.moved,
      h1']
    rfl
  · rw [if_neg (by omega), h2]
    rfl

end

/-! ## ANNOUNCE (R345) -/

theorem nextWindow_none {d : Dev} {n kind : Nat} (h : ∀ w ∈ (d.ch n).windows, w.kind = kind → d.windowOver n w = true) :
    d.nextWindow n kind = none := by
  simp only [Dev.nextWindow, Option.map_eq_none_iff, List.find?_eq_none, List.mem_filter, beq_iff_eq]
  rintro w ⟨hw, hlive⟩ hk
  simp [h w hw hk] at hlive

theorem beBytes_length (v : Nat) : ∀ n, (beBytes n v).length = n
  | 0 => rfl
  | n + 1 => by rw [beBytes, List.length_cons, beBytes_length v n]

/-- The place of an item on the timeline stands in front of it. -/
theorem mgtOut_place (d : Dev) (n phy sf type : Nat) (data : List Byte) (frame unit eqd : Nat) :
    (d.mgtOut n phy sf type data frame unit eqd).data.take 16 = beBytes 8 frame ++ beBytes 4 unit ++ beBytes 4 eqd := by
  have hlen : (beBytes 8 frame ++ beBytes 4 unit ++ beBytes 4 eqd).length = 16 := by simp only [List.length_append, beBytes_length]
  have hdata : (d.mgtOut n phy sf type data frame unit eqd).data = beBytes 8 frame ++ beBytes 4 unit ++ beBytes 4 eqd ++
      (beBytes 1 phy ++ (beBytes 1 sf ++ (d.leadLag n ++
        mgtWave (phy == 1) sf type (if d.num .actHandle n = 0xFFFF then 0xFFFE else d.num .actHandle n) data))) := by
    simp only [Dev.mgtOut, List.append_assoc]
  rw [hdata, ← hlen, List.take_left]

theorem burstSettings_adds (n : Nat) : (burstSettings n).Only (Eff.adds (keysOf [(.feLdBias, n, 0)]) [.fch]) := fun _ =>
  ⟨only_when ⟨fun _ => ⟨adds_obj.mpr (by simp [keysOf]), adds_fch (by decide) _ _, trivial⟩, trivial⟩, adds_fch (by decide) _ _, trivial⟩

section
variable (n phy sf type : Nat) (data : List Byte) (frame unit eqd : Nat)

theorem mgtStart_num {d : Dev} (hd : d.Canonical) {o : Obj} {i j : Nat} (h : o.key i j ≠ Obj.feLdBias.key n 0) :
    ((mgtStart n phy sf type data frame unit eqd).run d).num o i j = d.num o i j := by
  have hk := (burstSettings_adds n).num hd.objs (o := o) (i := i) (j := j) (by simpa [keysOf] using Ne.symm h)
  simp only [mgtStart, Prog.run_ask, Prog.run_all_cons, Prog.all_nil, Prog.run_skip]
  exact hk

theorem mgtStart_outs {d : Dev} (hd : d.Canonical) :
    ((mgtStart n phy sf type data frame unit eqd).run d).outs = d.mgtOut n phy sf type data frame unit eqd :: d.outs := by
  have hs : ((burstSettings n).run d).outs = d.outs := (burstSettings_adds n).same (x := .outs) hd.objs (by decide)
  rw [← hs]
  rfl

/-- A transmission leaves the attempts. -/
theorem mgtStart_keepsAttempt (k : Nat) :
    (mgtStart n phy sf type data frame unit eqd).Only (Eff.keepsChan n fun c => c.attempt = k) := fun _ =>
  ⟨fun _ => ⟨only_when ⟨fun _ => ⟨keepsChan_of_parts rfl, keepsChan_fch n fun _ h => h, trivial⟩, trivial⟩, keepsChan_fch n fun _ h => h,
    trivial⟩, keepsChan_fch n fun _ h => h, keepsChan_of_parts rfl, trivial⟩

end

/-- A channel with the windows that are still pending. -/
def Fch.holding (rest : List Window) (c : Fch) : Fch := { c with windows := rest }

/-- The attempt is counted, and the windows to skip next are drawn. -/
def Fch.announced (back : Nat) (c : Fch) : Fch :=
  { c with attempt := c.attempt + 1, skips := back % 2 ^ min (c.attempt + 1) 4, seqNo := (c.seqNo + 1) % 65536 }

/-- ANNOUNCE is about to go out: its window is gone and it is counted. -/
def Dev.announcing (d : Dev) (n : Nat) (rest : List Window) : Dev := d.after [.fch n (Fch.holding rest), .count .actAnnounces n 0 1]

/-- ANNOUNCE is on air at a place in its window. -/
def Dev.announceAir (d : Dev) (n : Nat) (w : Window) (rest : List Window) (data : List Byte) (k : Nat) : Dev :=
  (mgtStart n w.phy w.sf 0 data w.frame (w.unit + k) (d.windowEqd n w)).run (d.announcing n rest)

/-- ANNOUNCE is on air, and the backoff is drawn. -/
def Dev.announceSent (d : Dev) (n back : Nat) (w : Window) (rest : List Window) (data : List Byte) (k : Nat) : Dev :=
  (Eff.fch n (Fch.announced back)).apply (d.announceAir n w rest data k)

section
variable {s : State} {n : Fin 4} (ha : s.dev.answers = true) (off : BitVec 32) (back : BitVec 4)
include ha

theorem announce_idle (h : ∀ w ∈ (s.dev.ch n.val).windows, w.kind = 0 → s.dev.windowOver n.val w = true) :
    exec (.announce n off back) s = .next s := by
  rw [exec_announce, execAnnounce, run_live ha]
  simp only [Prog.run_ask, nextWindow_none h, Prog.run_skip]

variable {w : Window} {rest : List Window} (hw : s.dev.nextWindow n.val 0 = some (w, rest)) (h2 : s.dev.num .actState n.val = 2)
include hw h2

theorem announce_backsOff (hk : 0 < (s.dev.ch n.val).skips) : exec (.announce n off back) s = .next (s.after
    [.fch n.val (fun c => { c with windows := rest }), .fch n.val fun c => { c with skips := c.skips - 1 }]) := by
  have hin : s.dev.actIn n.val [2] = true := actIn_of (by simp [h2])
  rw [exec_announce, execAnnounce, run_live ha]
  simp only [Prog.run_ask, hw, hin, Prog.when_true, Prog.run_all_cons, Prog.all_nil, Prog.run_skip, if_pos hk]
  rfl

theorem announce_sends (hk : (s.dev.ch n.val).skips = 0) (hl : s.dev.tooLong n.val w.phy w.sf 20 = false)
    (hr : s.dev.laserReady n.val = true) (hair : (s.dev.ch n.val).onAir = none) (ht : s.dev.sec.trngOff = false) :
    ∃ data k, (s.dev.windowNeed n.val w ≤ w.dur → k + s.dev.windowNeed n.val w ≤ w.dur) ∧
      exec (.announce n off back) s = .next { s with dev := s.dev.announceSent n.val back.toNat w rest data k } := by
  have hin : s.dev.actIn n.val [2] = true := actIn_of (by simp [h2])
  have hk' : ¬0 < (s.dev.ch n.val).skips := by omega
  have hoff : off.toNat % (w.dur - s.dev.windowNeed n.val w + 1) < w.dur - s.dev.windowNeed n.val w + 1 := Nat.mod_lt _ (Nat.succ_pos _)
  refine ⟨lemowMsg 0x41 (s.dev.ch n.val).seqNo (s.dev.announceBody n.val), off.toNat % (w.dur - s.dev.windowNeed n.val w + 1),
    fun _ => by omega, ?_⟩
  rw [exec_announce, execAnnounce, run_live ha]
  simp only [Prog.run_ask, hw, hin, Prog.when_true, Prog.run_all_cons, Prog.all_nil, Prog.run_skip, if_neg hk', hl, Bool.false_eq_true,
    if_false, hr, hair, ht, Option.isNone_none, Bool.not_false, Bool.and_self]
  rfl

end

theorem bias_ne_announces (n : Fin 4) : Obj.actAnnounces.key n.val 0 ≠ Obj.feLdBias.key n.val 0 := by revert n; decide

section
variable {d : Dev} (hd : d.Canonical) (n : Fin 4) (rest : List Window)
include hd

theorem announcing_canonical : (d.announcing n.val rest).Canonical := after_canonical _ hd

theorem announcing_attempt : ((d.announcing n.val rest).ch n.val).attempt = (d.ch n.val).attempt :=
  (congrArg Fch.attempt (ch_fch hd n.val (Fch.holding rest)) : _)

theorem announcing_announces : (d.announcing n.val rest).num .actAnnounces n.val = satAdd 32 (d.num .actAnnounces n.val) 1 :=
  Dev.num_put (Eff.apply_canonical (.fch n.val (Fch.holding rest)) d hd).objs _ _ _ _

variable (back : Nat) (w : Window) (data : List Byte) (k : Nat)

theorem announceAir_canonical : (d.announceAir n.val w rest data k).Canonical := by
  rw [Dev.announceAir]
  exact run_canonical _ (announcing_canonical hd n rest)

theorem announceAir_outs : (d.announceAir n.val w rest data k).outs =
    (d.announcing n.val rest).mgtOut n.val w.phy w.sf 0 data w.frame (w.unit + k) (d.windowEqd n.val w) :: d.outs := by
  rw [Dev.announceAir, mgtStart_outs _ _ _ _ _ _ _ _ (announcing_canonical hd n rest)]
  rfl

theorem announceAir_announces : (d.announceAir n.val w rest data k).num .actAnnounces n.val = satAdd 32 (d.num .actAnnounces n.val) 1 := by
  rw [Dev.announceAir, mgtStart_num _ _ _ _ _ _ _ _ (announcing_canonical hd n rest) (bias_ne_announces n), announcing_announces hd]

/-- A transmission leaves the attempts. -/
theorem announceAir_attempt : ((d.announceAir n.val w rest data k).ch n.val).attempt = (d.ch n.val).attempt := by
  have hkept : (d.announcing n.val rest).Chan n.val fun c => c.attempt = (d.ch n.val).attempt :=
    ⟨(announcing_canonical hd n rest).fch, announcing_attempt hd n rest⟩
  rw [Dev.announceAir]
  exact ((mgtStart_keepsAttempt _ _ _ _ _ _ _ _ _).chan hkept).has

theorem announceSent_ch : (d.announceSent n.val back w rest data k).ch n.val =
    ((d.announceAir n.val w rest data k).ch n.val).announced back := by
  rw [Dev.announceSent, ch_fch (announceAir_canonical hd n rest w data k)]

theorem announceSent_attempt : ((d.announceSent n.val back w rest data k).ch n.val).attempt = (d.ch n.val).attempt + 1 := by
  rw [announceSent_ch hd, ← announceAir_attempt hd n rest w data k]
  rfl

theorem announceSent_skips : ((d.announceSent n.val back w rest data k).ch n.val).skips ≤ 2 ^ min ((d.ch n.val).attempt + 1) 4 - 1 := by
  rw [announceSent_ch hd, ← announceAir_attempt hd n rest w data k]
  exact Nat.le_sub_one_of_lt (Nat.mod_lt _ (Nat.two_pow_pos _))

end

/-! ## The ranging transmission (R355, R631) -/

/-- The item that a ranging burst puts out. -/
def Dev.rangingOut (d : Dev) (n : Nat) (w : Window) : Out :=
  ⟨.burst, n, 0x3FFF, beBytes 8 w.frame ++ beBytes 4 w.unit ++ beBytes 4 (d.windowEqd n w) ++ beBytes 1 (d.num .actUsPreamble n) ++
    d.leadLag n ++ burstHeader (d.num .actHandle n) 0x3FFF (bitOf (d.defects n) 5)⟩

theorem rangingBurst_sends {s : State} {n : Fin 4} (hs : s.Inv) (ha : s.dev.answers = true) {w : Window} {rest : List Window}
    (hw : s.dev.nextWindow n.val 1 = some (w, rest)) (hst : s.dev.num .actState n.val = 3 ∨ s.dev.num .actState n.val = 4) (hp : w.phy = 2)
    (hr : s.dev.laserReady n.val = true) (hair : (s.dev.ch n.val).onAir = none) (hz : s.dev.num .actDozeState n.val ≠ 3)
    (hfree : s.dev.hitsBurst n.val (upPos w.frame w.unit (s.dev.windowEqd n.val w)) (s.dev.windowNeed n.val w) = false)
    (hld : (s.dev.ch n.val).ldPend = false) : exec (.rangingBurst n) s = .next (s.after
      [.fch n.val (fun c => { c with windows := rest }), .fch n.val (fun c => { c with txSet := c.txNext }),
       .fch n.val (fun c => { c with burstOn := true, burstLeft := ceilDiv (s.dev.windowNeed n.val w * 5) 2000 }),
       .out (s.dev.rangingOut n.val w)]) := by
  have hin : s.dev.actIn n.val [3, 4] = true := actIn_of (by simpa using hst)
  have hld' : (((Eff.fch n.val fun c => { c with windows := rest }).apply s.dev).ch n.val).ldPend = false := by
    rw [ch_fch hs.1]
    exact hld
  rw [exec_rangingBurst, execRangingBurst, run_live ha]
  simp only [Prog.run_ask, hw, hin, Prog.when_true, Prog.run_all_cons, Prog.all_nil, Prog.run_skip, setWindows, Prog.run_eff, if_pos hp, hr,
    hair, Option.isNone_none, bne_iff_ne.mpr hz, hfree, Bool.not_false, Bool.and_self, burstSettings_run hld']
  rfl

/-! ## Modes (R351) -/

theorem modeBond_single {m : Nat} (h : m < 2 ^ 30) : modeBond m = 0 := by
  rw [modeBond, bitsOf, Nat.div_eq_of_lt h, Nat.zero_mod]

theorem modeMembers_single (n : Nat) {m : Nat} (h : m < 2 ^ 30) : modeMembers n m = [n] := by
  simp only [modeMembers, modeBond_single h]

theorem mgtSettle_adds (n : Nat) : (mgtSettle n).Only (Eff.adds noKeys [.fch]) := fun _ => adds_fch (by decide) _ _

/-- The settings of the receivers leave a pending mode. -/
theorem mgtSettle_keepsModePend (n : Nat) : (mgtSettle n).Only (Eff.keepsChan n fun c => c.modePend = none) := fun _ =>
  keepsChan_fch n fun _ h => h

/-- A channel whose pending mode has taken effect. -/
def Fch.modeTaken (f : Nat) (fecOff : Bool) (c : Fch) : Fch := { c with modePend := Option.none, fecWas := (f, fecOff) }

/-- Objects of one channel that take numbers. -/
def puts (n : Nat) (l : List (Obj × Nat)) : List Eff := l.map fun x => .obj x.1 n 0 (.num x.2)

theorem puts_keys {n : Nat} {o : Obj} {l : List (Obj × Nat)} (h : o.key n 0 ∉ l.map fun x => x.1.key n 0) :
    ((puts n l).any fun e => e.keys (o.key n 0)) = false := by
  simp only [List.mem_map, not_exists, not_and] at h
  simp only [puts, List.any_map, List.any_eq_false, Function.comp_apply, Eff.keys, decide_eq_true_eq]
  exact h

/-- Each of some distinct objects holds the number that it takes. -/
theorem after_puts_num {n : Nat} : ∀ {l : List (Obj × Nat)} {d : Dev}, d.Canonical → (l.map fun x => x.1.key n 0).Nodup →
    ∀ x ∈ l, (d.after (puts n l)).num x.1 n = x.2
  | [], _, _, _, _, hx => absurd hx (List.not_mem_nil)
  | y :: l, d, hd, hl, x, hx => by
    obtain ⟨hy, hl⟩ := List.nodup_cons.mp hl
    rcases List.mem_cons.mp hx with rfl | hx
    · exact after_obj_num hd (puts_keys hy)
    · exact after_puts_num (Eff.apply_canonical (.obj y.1 n 0 (.num y.2)) d hd) hl x hx

/-- The mode and the settings that it names. -/
def modePuts (mode : Nat) : List (Obj × Nat) :=
  [(.actMode, mode), (.mgtTxPhy, bitsOf mode 28 1), (.mgtCmSfRx, bitsOf mode 24 4), (.mgtCmSfTx, bitsOf mode 20 4)]

/-- What a mode writes on a channel before its receivers settle. -/
def Dev.modeEffs (d : Dev) (n mode f : Nat) : List Eff :=
  .fch n (Fch.modeTaken f (bitOf (d.num .actMode n) 29)) :: puts n (modePuts mode)

theorem applyMode_run (n mode f : Nat) (d : Dev) :
    (applyMode n mode f).run d = (mgtSettle n).run (d.after (d.modeEffs n mode f)) := by
  simp only [applyMode, Prog.run_ask, Prog.run_all_cons, Prog.all_nil, Prog.run_skip]
  rfl

section
variable {d : Dev} (hd : d.Canonical) (n : Fin 4) (mode f : Nat)
include hd

theorem modeEffs_nums : (d.after (d.modeEffs n.val mode f)).num .actMode n.val = mode ∧
    (d.after (d.modeEffs n.val mode f)).num .mgtTxPhy n.val = bitsOf mode 28 1 ∧
    (d.after (d.modeEffs n.val mode f)).num .mgtCmSfRx n.val = bitsOf mode 24 4 ∧
    (d.after (d.modeEffs n.val mode f)).num .mgtCmSfTx n.val = bitsOf mode 20 4 := by
  have hkeys : ([Obj.actMode, .mgtTxPhy, .mgtCmSfRx, .mgtCmSfTx].map fun o => o.key n.val 0).Nodup := by
    clear * -
    revert n
    decide
  have hput := after_puts_num (n := n.val) (l := modePuts mode)
    (Eff.apply_canonical (.fch n.val (Fch.modeTaken f (bitOf (d.num .actMode n.val) 29))) d hd) hkeys
  simp only [modePuts, List.forall_mem_cons] at hput
  obtain ⟨hmode, hphy, hrx, htx, -⟩ := hput
  rw [Dev.modeEffs, Dev.after_cons]
  exact ⟨hmode, hphy, hrx, htx⟩

theorem modeEffs_modePend : ((d.after (d.modeEffs n.val mode f)).ch n.val).modePend = none := by
  have h1 := ch_fch hd n.val (Fch.modeTaken f (bitOf (d.num .actMode n.val) 29))
  rw [Dev.modeEffs, Dev.after_cons]
  exact congrArg Fch.modePend h1

theorem applyMode_state : ((applyMode n.val mode f).run d).num .actMode n.val = mode ∧
    ((applyMode n.val mode f).run d).num .mgtTxPhy n.val = bitsOf mode 28 1 ∧
    ((applyMode n.val mode f).run d).num .mgtCmSfRx n.val = bitsOf mode 24 4 ∧
    ((applyMode n.val mode f).run d).num .mgtCmSfTx n.val = bitsOf mode 20 4 ∧
    (((applyMode n.val mode f).run d).ch n.val).modePend = none := by
  have hc := after_canonical (d.modeEffs n.val mode f) hd
  have hnum (o : Obj) : ((mgtSettle n.val).run (d.after (d.modeEffs n.val mode f))).num o n.val =
    (d.after (d.modeEffs n.val mode f)).num o n.val := (mgtSettle_adds n.val).num hc.objs rfl
  have hpend := (mgtSettle_keepsModePend n.val).chan ⟨hc.fch, modeEffs_modePend hd n mode f⟩
  obtain ⟨hmode, hphy, hrx, htx⟩ := modeEffs_nums hd n mode f
  rw [applyMode_run, hnum, hnum, hnum, hnum]
  exact ⟨hmode, hphy, hrx, htx, hpend.has⟩

end

section
variable {s : State} {n : Fin 4} (ha : s.dev.answers = true)
include ha

theorem modeApply_none (h : (s.dev.ch n.val).modePend = none) : exec (.modeApply n) s = .next s := by
  rw [exec_modeApply, execModeApply, run_live ha]
  simp only [Prog.run_ask, h, Prog.run_skip]

variable {mode f : Nat} (h : (s.dev.ch n.val).modePend = some (mode, f))
include h

theorem modeApply_early (hf : s.dev.num .frmFrame n.val < f) : exec (.modeApply n) s = .next s := by
  rw [exec_modeApply, execModeApply, run_live ha]
  simp only [Prog.run_ask, h, decide_eq_false (Nat.not_le.mpr hf), Prog.when_false, Prog.run_skip]

theorem modeApply_takes (hm : mode < 2 ^ 30) (hold : s.dev.num .actMode n.val < 2 ^ 30) (hf : f ≤ s.dev.num .frmFrame n.val) :
    exec (.modeApply n) s = .next { s with dev := (applyMode n.val mode f).run s.dev } := by
  rw [exec_modeApply, execModeApply, run_live ha]
  simp only [Prog.run_ask, h, decide_eq_true hf, Prog.when_true, Prog.run_all_cons, Prog.all_nil, Prog.run_skip, modeMembers_single n.val hm,
    List.all_cons, List.all_nil, Option.any_some, beq_self_eq_true, Bool.and_self, if_true, Prog.each, List.map_cons, List.map_nil,
    modeBond_single hold, bne_self_eq_false, Bool.false_and, Prog.when_false]

end

/-! ## The beginning of doze (R362) -/

section
variable {s : State} {n : Fin 4} (ha : s.dev.answers = true)
include ha

theorem dozeStart_begins (hz : s.dev.num .actDozeState n.val = 2) (hf : (s.dev.ch n.val).dozeStart ≤ s.dev.num .frmFrame n.val) :
    exec (.dozeStart n) s = .next (s.after [.obj .actDozeState n.val 0 (.num 3)]) := by
  rw [exec_dozeStart, execDozeStart, run_live ha]
  simp only [Prog.run_ask, hz, decide_eq_true hf, beq_self_eq_true, Bool.and_self, Prog.when_true, Prog.run_all_cons, Prog.all_nil,
    Prog.run_skip, run_putN]
  rfl

theorem dozeStart_waits (h : s.dev.num .actDozeState n.val ≠ 2 ∨ s.dev.num .frmFrame n.val < (s.dev.ch n.val).dozeStart) :
    exec (.dozeStart n) s = .next s := by
  have hc : (s.dev.num .actDozeState n.val == 2 && decide ((s.dev.ch n.val).dozeStart ≤ s.dev.num .frmFrame n.val)) = false := by
    rw [Bool.and_eq_false_iff, beq_eq_false_iff_ne, decide_eq_false_iff_not, Nat.not_le]
    exact h
  rw [exec_dozeStart, execDozeStart, run_live ha]
  simp only [Prog.run_ask, hc, Prog.when_false, Prog.run_skip]

end

/-- Settles O38, by the transmission of each kind of window, the frame mark of a mode and the frame of a doze. -/
theorem windowTransmissions : Obligations.WindowTransmissions := by
  rintro s n hs ha st rfl
  refine ⟨?_, fun off back => ⟨announce_idle ha off back, fun w rest hw h2 => ⟨announce_backsOff ha off back hw h2, ?_⟩⟩,
    fun w rest => rangingBurst_sends hs ha, modeApply_none ha, fun mode f h hm hold => ⟨modeApply_early ha h, fun hf => ?_⟩,
    dozeStart_begins ha, dozeStart_waits ha⟩
  · rintro m w live rfl rfl hm hl hb hk hst hh
    exact ⟨window_held ha hm hl hb hk hst hh, window_skipped ha hm hl hb hk hst hh⟩
  · intro hk hl hr hair ht
    obtain ⟨data, k, hfits, hsent⟩ := announce_sends ha off back hw h2 hk hl hr hair ht
    exact ⟨_, _, k, hsent, rfl, announceAir_outs hs.1 n rest w data k, announceAir_announces hs.1 n rest w data k,
      announceSent_attempt hs.1 n rest _ w data k, announceSent_skips hs.1 n rest _ w data k, hfits, rfl, mgtOut_place ..⟩
  · obtain ⟨hmode, hphy, hrx, htx, hpend⟩ := applyMode_state hs.1 n mode f
    exact ⟨_, modeApply_takes ha h hm hold hf, rfl, hmode, hphy, hrx, htx, hpend⟩

end Sys2Proof.Machine
end

section
/-!
PROOFS of grants (O39).
-/
namespace Sys2Proof.Machine

theorem exec_grantEntry (n : Fin 4) (fr : BitVec 51) (e : BitVec 64) (s : State) :
    exec (.grantEntry n fr e) s = execGrantEntry n fr e s := rfl

/-! ## What a grant writes (R354) -/

/-- The grants of a frame take one more entry. -/
def grantTook (n : Nat) (g : Grants) (t : List (Nat × Nat)) : Eff :=
  .fch n fun c => { c with grants := { g with num := g.num + 1, taken := t } }

/-- A grant is counted with its event. -/
def grantBad (n alloc : Nat) (o : Obj) (cause : Nat) : List Eff :=
  [.count o n 0 1, .raise (128 + 16 * n + 15) cause n (top16 alloc) 0]

/-- The objects that a grant on its way to a burst may write. -/
def grantKeys (n : Nat) : Nat → Bool :=
  keysOf [(.actGrantsClipped, n, 0), (.actGrants, n, 0), (.actGrantsIdle, n, 0), (.actBurstsEqdDropped, n, 0)]

/-- An effect of a grant on its way to a burst. -/
abbrev Eff.ofGrant (n : Nat) (e : Eff) : Prop := e.adds (grantKeys n) [.fch, .occs]

theorem grantTook_ofGrant (n : Nat) (g : Grants) (t : List (Nat × Nat)) : (grantTook n g t).ofGrant n := adds_fch (by decide) _ _

theorem took_bursts {d : Dev} (hd : d.Canonical) (n : Nat) (g : Grants) (t : List (Nat × Nat)) :
    (((grantTook n g t).apply d).ch n).bursts = (d.ch n).bursts := by
  rw [grantTook, ch_fch hd]

theorem grantBad_ofGrant {n : Nat} {o : Obj} (h : o ∈ [Obj.actGrantsClipped, .actGrantsIdle, .actBurstsEqdDropped]) (alloc cause : Nat) :
    ∀ e ∈ grantBad n alloc o cause, e.ofGrant n := by
  simp only [grantBad, List.forall_mem_cons, List.not_mem_nil, false_implies, implies_true, and_true]
  refine ⟨adds_count.mpr ?_, adds_raise (by decide) _ _ _ _ _⟩
  simp only [List.mem_cons, List.not_mem_nil, or_false] at h
  rcases h with rfl | rfl | rfl <;> simp [grantKeys, keysOf]

section
variable {d : Dev} (hd : d.Canonical) {n : Fin 4} {es : List Eff} (h : ∀ e ∈ es, e.ofGrant n.val)
include hd h

theorem ofGrant_num {o : Obj} {i j : Nat} (hk : grantKeys n.val (o.key i j) = false) : (d.after es).num o i j = d.num o i j := by
  rw [← run_ofEffs]
  exact (ofEffs_only h).num hd.objs hk

theorem ofGrant_inRun (hrun : d.inRun) : (d.after es).inRun := by
  obtain ⟨hp, hq⟩ := hrun
  have hpwr : (d.after es).pwr = d.pwr := by
    rw [← run_ofEffs]
    exact (ofEffs_only h).same (x := .pwr) hd.objs (by decide)
  refine ⟨(ofGrant_num hd h ?_).trans hp, by rw [hpwr]; exact hq⟩
  clear * -
  revert n
  decide

theorem ofGrant_burstShell : (d.after es).burstShell n.val = d.burstShell n.val := by
  have hkeys (n : Fin 4) : grantKeys n.val (Obj.feLdLead.key n.val 0) = false ∧ grantKeys n.val (Obj.feLdLag.key n.val 0) = false ∧
      grantKeys n.val (Obj.actUsPreamble.key n.val 0) = false := by
    clear * -
    revert n
    decide
  obtain ⟨hlead, hlag, hpre⟩ := hkeys n
  simp only [Dev.burstShell, ofGrant_num hd h hlead, ofGrant_num hd h hlag, ofGrant_num hd h hpre]

end

/-! ## Steps 7 to 9 -/

/-- The burst of a grant. -/
def Grants.burst (g : Grants) (up e len : Nat) : Burst :=
  ⟨up, grantAlloc e, grantStart e, len, grantMgmt e, g.eqd, grantSvc g (grantAlloc e), false⟩

/-- A channel with one more burst, without those that are past. -/
def Fch.scheduling (up e : Nat) (b : Burst) (c : Fch) : Fch := { c with
  bursts := (c.bursts.filter fun x => !x.sent || decide (up ≤ x.frame + 1)) ++ [b]
  mgmtAt := if grantMgmt e then some (up - 2) else c.mgmtAt }

/-- What a grant that is long enough writes: it is counted, and its burst is scheduled or dropped. -/
def Dev.grantScheduled (d : Dev) (n up e len : Nat) (g : Grants) : List Eff :=
  (if (grantSvc g (grantAlloc e)).isSome then [.count .actGrants n 0 1] else grantBad n (grantAlloc e) .actGrantsIdle 4) ++
    if d.hitsBurst n (upPos up (grantStart e) g.eqd) len then grantBad n (grantAlloc e) .actBurstsEqdDropped 5
    else [.fch n (Fch.scheduling up e (g.burst up e len))]

theorem grantScheduled_ofGrant (d : Dev) (n up e len : Nat) (g : Grants) : ∀ x ∈ d.grantScheduled n up e len g, x.ofGrant n := by
  rw [Dev.grantScheduled, List.forall_mem_append]
  constructor
  · split
    · simpa using adds_count.mpr (by simp [grantKeys, keysOf])
    · exact grantBad_ofGrant (by simp) _ _
  · split
    · exact grantBad_ofGrant (by simp) _ _
    · simpa using adds_fch (by decide) _ _

section
variable {d : Dev} {n : Fin 4} {up e len : Nat} {g : Grants}

theorem scheduleGrant_short (h : len < d.burstShell n.val) :
    (scheduleGrant n.val up e len g).run d = d.after [.count .actGrantsShort n.val 0 1] := by
  simp only [scheduleGrant, Prog.run_ask, if_pos h]
  rfl

theorem scheduleGrant_run (hd : d.Canonical) (h : d.burstShell n.val ≤ len) (hrun : d.inRun) :
    (scheduleGrant n.val up e len g).run d = d.after (d.grantScheduled n.val up e len g) := by
  have hstay := ofGrant_inRun hd (grantScheduled_ofGrant d n.val up e len g) hrun
  have hends : (scheduleGrant n.val up e len g).run d = (wake 5).run (d.after (d.grantScheduled n.val up e len g)) := by
    simp only [scheduleGrant, Prog.run_ask, if_neg (Nat.not_lt.mpr h), Dev.grantScheduled, after_append, Prog.run_all_cons, Prog.all_nil,
      Prog.run_skip]
    rcases hs : grantSvc g (grantAlloc e) with _ | v <;> cases d.hitsBurst n.val (upPos up (grantStart e) g.eqd) len <;>
      simp only [Grants.burst, hs] <;> rfl
  rw [hends, wake_run hstay.1 hstay.2]

end

/-! ## An entry that is held in Operating (steps 3 to 6) -/

/-- The units that a grant keeps within its frame. -/
def grantFits (e : Nat) : Nat := min (grantLen e) (50000 - grantStart e)

/-- A clipped grant is counted with its event. -/
def grantClip (n e : Nat) : List Eff := if 50000 < grantStart e + grantLen e then grantBad n (grantAlloc e) .actGrantsClipped 2 else []

theorem grantClip_ofGrant (n e : Nat) : ∀ x ∈ grantClip n e, x.ofGrant n := by
  rw [grantClip]
  split
  · exact grantBad_ofGrant (by simp) _ _
  · simp

/-- Whether a grant meets one that its frame has taken. -/
def Grants.meets (g : Grants) (st len : Nat) : Bool := g.taken.any fun t => decide (st < t.2) && decide (t.1 < st + len)

theorem meets_iff {g : Grants} {st len : Nat} : g.meets st len = true ↔ ∃ t ∈ g.taken, st < t.2 ∧ t.1 < st + len := by
  simp [Grants.meets]

theorem not_meets {g : Grants} {st len : Nat} (h : ∀ t ∈ g.taken, t.2 ≤ st ∨ st + len ≤ t.1) : g.meets st len = false := by
  rw [Bool.eq_false_iff, Ne, meets_iff]
  rintro ⟨t, ht, h1, h2⟩
  have := h t ht
  omega

/-- What an entry of an allocation that is held comes to in Operating. -/
def grantTurn (n up e : Nat) (g : Grants) : Prog :=
  if 50000 ≤ grantStart e ∨ grantLen e = 0 ∨ 64 ≤ g.num then
    .all [.eff (grantTook n g g.taken), count .actGrantsInvalid n, grantEvent n 1 (grantAlloc e)]
  else .all [
    .when (decide (grantFits e < grantLen e)) [count .actGrantsClipped n, grantEvent n 2 (grantAlloc e)],
    if g.meets (grantStart e) (grantFits e) then
      .all [.eff (grantTook n g g.taken), count .actGrantsOverlap n, grantEvent n 3 (grantAlloc e)]
    else .all [.eff (grantTook n g (g.taken ++ [(grantStart e, grantStart e + grantFits e)])), scheduleGrant n up e (grantFits e) g]]

section
variable {d : Dev} {n : Fin 4} {up e : Nat} {g : Grants}

theorem grantTurn_invalid (h : 50000 ≤ grantStart e ∨ grantLen e = 0 ∨ 64 ≤ g.num) : (grantTurn n.val up e g).run d =
    d.after ([grantTook n.val g g.taken] ++ grantBad n.val (grantAlloc e) .actGrantsInvalid 1) := by
  rw [grantTurn, if_pos h]
  rfl

variable (hst : grantStart e < 50000) (hlen : grantLen e ≠ 0) (hnum : g.num < 64)
include hst hlen hnum

theorem grantTurn_valid : (grantTurn n.val up e g).run d = (if g.meets (grantStart e) (grantFits e) then
      Prog.all [.eff (grantTook n.val g g.taken), count .actGrantsOverlap n.val, grantEvent n.val 3 (grantAlloc e)]
    else .all [.eff (grantTook n.val g (g.taken ++ [(grantStart e, grantStart e + grantFits e)])),
      scheduleGrant n.val up e (grantFits e) g]).run (d.after (grantClip n.val e)) := by
  have hv : ¬(50000 ≤ grantStart e ∨ grantLen e = 0 ∨ 64 ≤ g.num) := by omega
  rw [grantTurn, if_neg hv, Prog.run_all_cons, Prog.run_all_cons, Prog.all_nil, Prog.run_skip]
  congr 1
  rw [grantClip]
  by_cases hc : 50000 < grantStart e + grantLen e
  · rw [if_pos hc, decide_eq_true (by rw [grantFits]; omega)]
    rfl
  · rw [if_neg hc, decide_eq_false (by rw [grantFits]; omega)]
    rfl

theorem grantTurn_overlaps (h : g.meets (grantStart e) (grantFits e) = true) : (grantTurn n.val up e g).run d =
    d.after (grantClip n.val e ++ [grantTook n.val g g.taken] ++ grantBad n.val (grantAlloc e) .actGrantsOverlap 3) := by
  rw [grantTurn_valid hst hlen hnum, if_pos h, after_append, after_append]
  rfl

/-- The grants that the entry joins. -/
def grantJoin (n e : Nat) (g : Grants) : List Eff :=
  grantClip n e ++ [grantTook n g (g.taken ++ [(grantStart e, grantStart e + grantFits e)])]

omit hst hlen hnum in
theorem grantJoin_ofGrant (n e : Nat) (g : Grants) : ∀ x ∈ grantJoin n e g, x.ofGrant n := by
  rw [grantJoin, List.forall_mem_append]
  exact ⟨grantClip_ofGrant n e, by simpa using grantTook_ofGrant n g _⟩

theorem grantTurn_joins (h : g.meets (grantStart e) (grantFits e) = false) : (grantTurn n.val up e g).run d =
    (scheduleGrant n.val up e (grantFits e) g).run (d.after (grantJoin n.val e g)) := by
  rw [grantTurn_valid hst hlen hnum, h, grantJoin, after_append]
  rfl

variable (hd : d.Canonical) (h : g.meets (grantStart e) (grantFits e) = false)
include hd h

theorem grantTurn_short (hs : grantFits e < d.burstShell n.val) : (grantTurn n.val up e g).run d =
    d.after (grantJoin n.val e g ++ [.count .actGrantsShort n.val 0 1]) := by
  have hshell := ofGrant_burstShell hd (grantJoin_ofGrant n.val e g)
  rw [grantTurn_joins hst hlen hnum h, scheduleGrant_short (by rw [hshell]; exact hs), after_append]

omit hst hlen hnum h in
/-- The grants of a frame are not its bursts. -/
theorem grantJoin_hitsBurst (at' len : Nat) : (d.after (grantJoin n.val e g)).hitsBurst n.val at' len = d.hitsBurst n.val at' len := by
  have hc := after_canonical (grantClip n.val e) hd
  have hclip : ((d.after (grantClip n.val e)).ch n.val).bursts = (d.ch n.val).bursts := by
    rw [grantClip]
    split <;> rfl
  have hbursts : ((d.after (grantJoin n.val e g)).ch n.val).bursts = (d.ch n.val).bursts := by
    rw [grantJoin, after_append, ← hclip]
    exact took_bursts hc n.val g _
  simp only [Dev.hitsBurst, hbursts]

theorem grantTurn_scheduled (hs : d.burstShell n.val ≤ grantFits e) (hrun : d.inRun) : (grantTurn n.val up e g).run d =
    d.after (grantJoin n.val e g ++ d.grantScheduled n.val up e (grantFits e) g) := by
  have hjoin := grantJoin_ofGrant n.val e g
  have hshell := ofGrant_burstShell hd hjoin
  have hsame : (d.after (grantJoin n.val e g)).grantScheduled n.val up e (grantFits e) g = d.grantScheduled n.val up e (grantFits e) g := by
    simp only [Dev.grantScheduled, grantJoin_hitsBurst hd]
  rw [grantTurn_joins hst hlen hnum h,
    scheduleGrant_run (after_canonical _ hd) (by rw [hshell]; exact hs) (ofGrant_inRun hd hjoin hrun), hsame, after_append]

end

/-! ## An entry of the map (steps 1 and 2) -/

section
variable {s : State} {n : Fin 4} {fr : BitVec 51} {e : BitVec 64} (ha : s.dev.answers = true)
include ha

theorem grantEntry_fails (h : grantCheck e.toNat ≠ e.toNat % 2 ^ 14) :
    exec (.grantEntry n fr e) s = .next (s.after [.count .actGrantCheckFails n.val 0 1]) := by
  rw [exec_grantEntry, execGrantEntry, run_live ha]
  simp only [Prog.run_ask, if_pos h]
  rfl

variable (hc : grantCheck e.toNat = e.toNat % 2 ^ 14)
include hc

theorem grantEntry_notHeld (h : s.dev.heldAt n.val (grantAlloc e.toNat) fr.toNat = false) : exec (.grantEntry n fr e) s = .next s := by
  rw [exec_grantEntry, execGrantEntry, run_live ha]
  simp only [Prog.run_ask, if_neg (not_not.mpr hc), h, Bool.not_false, if_true, Prog.run_skip]

variable (h : s.dev.heldAt n.val (grantAlloc e.toNat) fr.toNat = true)
include h

theorem grantEntry_ignored (hi : s.dev.num .actState n.val ≠ 4 ∨ s.dev.num .actDozeState n.val = 3) :
    exec (.grantEntry n fr e) s = .next (s.after [.count .actGrantsIgnored n.val 0 1]) := by
  rw [exec_grantEntry, execGrantEntry, run_live ha]
  simp only [Prog.run_ask, if_neg (not_not.mpr hc), h, Bool.not_true, Bool.false_eq_true, if_false, if_pos hi]
  rfl

theorem grantEntry_turn (h4 : s.dev.num .actState n.val = 4) (hz : s.dev.num .actDozeState n.val ≠ 3) : exec (.grantEntry n fr e) s =
    .next { s with dev := (grantTurn n.val (fr.toNat + 2) e.toNat (s.dev.grantsFor n.val (fr.toNat + 2))).run s.dev } := by
  have hi : ¬(s.dev.num .actState n.val ≠ 4 ∨ s.dev.num .actDozeState n.val = 3) := by omega
  rw [exec_grantEntry, execGrantEntry, run_live ha]
  simp only [Prog.run_ask, if_neg (not_not.mpr hc), h, Bool.not_true, Bool.false_eq_true, if_false, if_neg hi]
  rfl

end

end Sys2Proof.Machine
end

section
/-!
PROOFS of bursts (O39).
-/
namespace Sys2Proof.Machine

theorem exec_burstStart (n : Fin 4) (fault : Bool) (read : Fin 3) (s : State) :
    exec (.burstStart n fault read) s = execBurstStart n fault read s := rfl
theorem exec_usKeySwitchFire (n : Fin 4) (s : State) : exec (.usKeySwitchFire n) s = execUsKeySwitchFire n s := rfl

/-! ## No burst to send -/

theorem run_live_of_id {s : State} {p : Prog} (h : p.run s.dev = s.dev) : s.run (live p) = .next s := by
  cases ha : s.dev.answers
  · exact run_live_unanswered ha p
  · rw [run_live ha, h]

section
variable {s : State} {n : Fin 4} (h : ∀ b ∈ (s.dev.ch n.val).bursts, b.sent = true)
include h

theorem bursts_allSent : ((s.dev.ch n.val).bursts.find? fun b => !b.sent) = none :=
  List.find?_eq_none.mpr fun b hb => by simp [h b hb]

theorem nextBurstFrame_none : s.dev.nextBurstFrame n.val = none := by
  rw [Dev.nextBurstFrame, bursts_allSent h, Option.map_none]

theorem burstStart_nothing (fault : Bool) (read : Fin 3) : exec (.burstStart n fault read) s = .next s := by
  rw [exec_burstStart, execBurstStart]
  refine run_live_of_id ?_
  simp only [Prog.run_all_cons, Prog.all_nil, Prog.run_skip, Prog.run_ask, nextBurstFrame_none h, bursts_allSent h]

theorem usKeySwitchFire_nothing : exec (.usKeySwitchFire n) s = .next s := by
  rw [exec_usKeySwitchFire, execUsKeySwitchFire]
  refine run_live_of_id ?_
  simp only [Prog.run_ask, nextBurstFrame_none h, Prog.run_skip]

end

/-! ## The next burst -/

theorem usKeyFire_none {d : Dev} {n : Nat} (h : d.pendingOn 3 (d.lead n) = none) (frame : Nat) : (usKeyFire n frame).run d = d := by
  simp only [usKeyFire, Prog.run_ask, h, Prog.run_skip]

/-- A channel in which a burst has had its turn. -/
def Fch.turned (b : Burst) (c : Fch) : Fch := { c with bursts := c.bursts.map fun x => if x = b then { x with sent := true } else x }

section
variable {s : State} {n : Fin 4} {b : Burst} (ha : s.dev.answers = true)
  (hb : (s.dev.ch n.val).bursts.find? (fun x => !x.sent) = some b) (hp : s.dev.pendingOn 3 (s.dev.lead n.val) = none)
  (fault : Bool) (read : Fin 3)
include ha hb hp

omit ha hp in
theorem nextBurstFrame_some : s.dev.nextBurstFrame n.val = some b.frame := by
  rw [Dev.nextBurstFrame, hb, Option.map_some]

theorem burstStart_skipped (h : s.dev.num .actState n.val ≠ 4 ∨ s.dev.laserReady n.val = false ∨ s.dev.num .actDozeState n.val = 3) :
    exec (.burstStart n fault read) s = .next (s.after [.fch n.val (Fch.turned b)]) := by
  have hc : (s.dev.num .actState n.val == 4 && s.dev.laserReady n.val && (s.dev.ch n.val).onAir.isNone &&
      s.dev.num .actDozeState n.val != 3) = false := by
    rcases h with h | h | h <;> simp [h]
  rw [exec_burstStart, execBurstStart, run_live ha]
  simp only [Prog.run_all_cons, Prog.all_nil, Prog.run_skip, Prog.run_ask, nextBurstFrame_some hb, usKeyFire_none hp, hb, hc,
    Prog.when_false]
  rfl

end

/-! ## A burst filled with idle (R355 to R358) -/

/-- The item that a burst filled with idle puts out: its information begins with backlog 0 and goes on with idle headers. -/
def Dev.idleBurstOut (d : Dev) (n : Nat) (b : Burst) (cap : Nat) : Out :=
  ⟨.burst, n, b.alloc, beBytes 8 b.frame ++ beBytes 4 b.start ++ beBytes 4 b.eqd ++ beBytes 1 (d.num .actUsPreamble n) ++ d.leadLag n ++
    burstHeader (d.num .actHandle n) b.alloc (bitOf (d.defects n) 5) ++
    burstBits (bitOf (d.num .actMode n) 29) b.frame (b.len - d.burstShell n)
      ([0, 0, 0, 0, 0, 0] ++ beBytes 2 (crc16 [0, 0, 0, 0, 0, 0]) ++ idleFill (cap - 8))⟩

/-- BACKLOG and the length of the management records, both 0. -/
theorem idleHead : beBytes 4 0 ++ beBytes 2 0 = [0, 0, 0, 0, 0, 0] := rfl

/-- A channel whose transmit settings have taken effect. -/
def Fch.settled (c : Fch) : Fch := { c with txSet := c.txNext }

/-- A channel with burst-enable up for some units. -/
def Fch.bursting (units : Nat) (c : Fch) : Fch := { c with burstOn := true, burstLeft := ceilDiv (units * 5) 2000 }

/-- A channel with an in-band queue. -/
def Fch.queuing (q : List TxPkt) (c : Fch) : Fch := { c with inq := q }

/-- What the start of a burst filled with idle writes. -/
def Dev.idleBurst (d : Dev) (n : Nat) (b : Burst) (cap : Nat) : List Eff :=
  [.fch n (Fch.turned b), .fch n Fch.settled, .fch n (Fch.bursting b.len), .fch n (Fch.queuing (d.ch n).inq),
   .fch n (Fch.queuing (d.ch n).inq), .out (d.idleBurstOut n b cap)]

section
variable {s : State} {n : Fin 4} {b : Burst} (hs : s.Inv) (ha : s.dev.answers = true)
  (hb : (s.dev.ch n.val).bursts.find? (fun x => !x.sent) = some b) (hp : s.dev.pendingOn 3 (s.dev.lead n.val) = none)
  (hsvc : b.svc = none) (hbound : s.dev.boundSvc n.val b.alloc = none) (hm : b.mgmt = false) (hfec : (s.dev.ch n.val).fecWas.1 ≤ b.frame)
  (h4 : s.dev.num .actState n.val = 4) (hr : s.dev.laserReady n.val = true) (hair : (s.dev.ch n.val).onAir = none)
  (hz : s.dev.num .actDozeState n.val ≠ 3) (hld : (s.dev.ch n.val).ldPend = false) (hrun : s.dev.num .pwrState = 0)
  (hend : ∀ p ∈ (s.dev.ch n.val).inq, p.dozeEnd = false)
include hs ha hb hp hsvc hbound hm hfec h4 hr hair hz hld hrun hend

theorem burstStart_idle (fault : Bool) (read : Fin 3) {cap : Nat}
    (hcap : cap = burstCapacity (bitOf (s.dev.num .actMode n.val) 29) (b.len - s.dev.burstShell n.val)) (h8 : 8 ≤ cap) :
    exec (.burstStart n fault read) s = .next (s.after (s.dev.idleBurst n.val b cap)) := by
  have hgo : (s.dev.num .actState n.val == 4 && s.dev.laserReady n.val && (s.dev.ch n.val).onAir.isNone &&
      s.dev.num .actDozeState n.val != 3) = true := by
    simp [h4, hr, hair, hz]
  have hnot : ((s.dev.ch n.val).inq.any fun p => p.dozeEnd) = false := List.any_eq_false.mpr fun p hp => by simp [hend p hp]
  have hld' : (((Eff.fch n.val (Fch.turned b)).apply s.dev).ch n.val).ldPend = false := by
    rw [ch_fch hs.1]
    exact hld
  rw [exec_burstStart, execBurstStart, run_live ha]
  simp only [Prog.run_all_cons, Prog.all_nil, Prog.run_skip, Prog.run_ask, nextBurstFrame_some hb, usKeyFire_none hp, hb, hgo, Prog.when_true,
    Prog.run_eff, hsvc, hbound, hm, hrun, hnot, ← hcap, Nat.not_lt.mpr hfec, Nat.not_lt.mpr h8, Bool.false_eq_true, false_and,
    if_false, Bool.false_and, Prog.when_false, ite_self, Option.or_none, Nat.reduceBEq, List.length_nil,
    Nat.sub_zero, List.append_nil, idleHead, burstUp, send]
  rw [burstSettings_run (by exact hld')]
  rfl

end

/-- A channel whose burst is on air. -/
def Fch.onBurst (units : Nat) (l : List Burst) (c : Fch) : Prop :=
  c.burstOn = true ∧ c.burstLeft = ceilDiv (units * 5) 2000 ∧ c.bursts = l

/-- Changes of one channel, then an item of output. -/
theorem after_fch_out (n : Nat) (o : Out) : ∀ (fs : List (Fch → Fch)) (d : Dev), (d.after (fs.map (Eff.fch n) ++ [.out o])).outs = o :: d.outs
  | [], _ => rfl
  | f :: fs, d => after_fch_out n o fs ((Eff.fch n f).apply d)

section
variable {d : Dev} (hd : d.Canonical) (n : Nat) (b : Burst) (cap : Nat)
include hd

theorem idleBurst_ch : ((d.after (d.idleBurst n b cap)).ch n).onBurst b.len
    ((d.ch n).bursts.map fun x => if x = b then { x with sent := true } else x) := by
  have h0 : d.Chan n fun c => c = d.ch n := ⟨hd.fch, rfl⟩
  have h1 := h0.fch (f := Fch.turned b)
    (Q := fun c => c.bursts = (d.ch n).bursts.map fun x => if x = b then { x with sent := true } else x) fun c hc => by rw [hc]; rfl
  have h2 := h1.fch (f := Fch.settled) (Q := fun c => c.bursts = _) fun _ h => h
  have h3 := h2.fch (f := Fch.bursting b.len) (Q := Fch.onBurst b.len _) fun _ h => ⟨rfl, rfl, h⟩
  have h4 := h3.fch (f := Fch.queuing (d.ch n).inq) (Q := Fch.onBurst b.len _) fun _ h => h
  have h5 := h4.fch (f := Fch.queuing (d.ch n).inq) (Q := Fch.onBurst b.len _) fun _ h => h
  have h6 := keepsChan_of_parts (e := .out (d.idleBurstOut n b cap)) rfl _ h5
  simp only [Dev.idleBurst, Dev.after_cons, Dev.after_nil]
  exact h6.has

omit hd in
theorem idleBurst_outs : (d.after (d.idleBurst n b cap)).outs = d.idleBurstOut n b cap :: d.outs :=
  after_fch_out n _ [Fch.turned b, Fch.settled, Fch.bursting b.len, Fch.queuing (d.ch n).inq, Fch.queuing (d.ch n).inq] d

theorem idleBurst_only : d.only noKeys [.fch, .outs] (d.after (d.idleBurst n b cap)) := by
  have hadds : ∀ e ∈ d.idleBurst n b cap, e.adds noKeys [.fch, .outs] := by
    simp only [Dev.idleBurst, List.forall_mem_cons, List.not_mem_nil, false_implies, implies_true, and_true]
    exact ⟨adds_fch (by decide) _ _, adds_fch (by decide) _ _, adds_fch (by decide) _ _, adds_fch (by decide) _ _, adds_fch (by decide) _ _,
      adds_out (by decide) _⟩
  rw [← run_ofEffs]
  exact ((ofEffs_only hadds).within d hd.objs).2

end

/-! ## Grants and bursts -/

theorem grantAlloc_eq (e : BitVec 64) : grantAlloc e.toNat = e.toNat / 2 ^ 50 := by
  rw [grantAlloc, bitsOf, Nat.mod_eq_of_lt]
  have he := e.isLt
  omega

/-- Settles O39, by the steps of R354 in their order, and by the turn of the next burst. -/
theorem grantsAndBursts : Obligations.GrantsAndBursts := by
  refine fun s n hs => ⟨?_, fun fault read h => ⟨burstStart_nothing h fault read, usKeySwitchFire_nothing h⟩, ?_⟩
  · rintro ha fr e a st want len up g hA rfl rfl rfl rfl hg took bad ht hbad
    obtain rfl : a = grantAlloc e.toNat := hA.trans (grantAlloc_eq e).symm
    obtain rfl : g = s.dev.grantsFor n.val (fr.toNat + 2) := hg
    obtain rfl : took = grantTook n.val (s.dev.grantsFor n.val (fr.toNat + 2)) := funext ht
    obtain rfl : bad = grantBad n.val (grantAlloc e.toNat) := funext fun o => funext (hbad o)
    refine ⟨grantEntry_fails ha, fun hc => ⟨grantEntry_notHeld ha hc, fun hheld => ⟨grantEntry_ignored ha hc hheld, fun h4 hz => ?_⟩⟩⟩
    rw [grantEntry_turn ha hc hheld h4 hz]
    refine ⟨fun hi => ?_, fun hst hlen hnum clip hclip => ?_⟩
    · rw [grantTurn_invalid hi]
      rfl
    · obtain rfl : clip = grantClip n.val e.toNat := hclip
      refine ⟨fun h => ?_, fun h => ⟨fun hshort => ?_, fun hfits hrun => ?_⟩⟩
      · rw [grantTurn_overlaps hst hlen hnum (meets_iff.mpr h)]
        rfl
      · rw [grantTurn_short hst hlen hnum hs.1 (not_meets h) hshort]
        rw [grantJoin, List.append_assoc]
        rfl
      · rw [grantTurn_scheduled hst hlen hnum hs.1 (not_meets h) hfits hrun]
        rw [Dev.grantScheduled, ← List.append_assoc]
        rfl
  · intro ha fault read b cap hb hp hcap
    refine ⟨burstStart_skipped ha hb hp fault read, fun hsvc hbound hm hfec h4 hr hair hz hld hrun hend h8 => ?_⟩
    obtain ⟨hon, hleft, hbursts⟩ := idleBurst_ch hs.1 n.val b cap
    have hsent := burstStart_idle hs ha hb hp hsvc hbound hm hfec h4 hr hair hz hld hrun hend fault read hcap h8
    have hout := idleBurst_outs (d := s.dev) n.val b cap
    have honly := idleBurst_only hs.1 n.val b cap
    generalize s.dev.idleBurst n.val b cap = es at hsent hout hon hleft hbursts honly
    exact ⟨_, hsent, rfl, hout, hon, hleft, hbursts, honly⟩

end Sys2Proof.Machine
end

section
/-!
PROOFS of the DMT receiver (O24): the statement fails where a counter holds more than its 32 bits take.
-/
namespace Sys2Proof.Machine

/-! ## A counter past its width -/

theorem exec_dmtFrameDecode (n : Fin 4) (f : DmtFrame) (s : State) : exec (.dmtFrameDecode n f) s = execDmtFrameDecode n f s := rfl

/-- Channel 0 in Locked with no taps, which DMT_EQ_FREEZE holds, and DMT_PROFILE_MISMATCHES at 2^32. -/
def mismatchesPastWidth : State := State.reset.after [.clk fun c => { c with devReset := false }, .obj .dmtState 0 0 (.num 3),
  .obj .dmtEqFreeze 0 0 (.num 1), .obj .dmtProfileMismatches 0 0 (.num (2 ^ 32))]

theorem mismatchesPastWidth_inv : mismatchesPastWidth.Inv :=
  ⟨after_canonical _ resetHasInvariant.1, after_bounded _ resetHasInvariant.2⟩

theorem mismatchesPastWidth_answers : mismatchesPastWidth.dev.answers = true := by decide

/-- A frame without samples. -/
def noSamples : DmtFrame := ⟨[], none⟩

/-- Without taps a symbol has no values. -/
theorem symbol_noTaps {r : DmtRx} (h : r.taps = []) (f : DmtFrame) (k : Nat) : r.symbol f k = [] := by
  rw [DmtRx.symbol, symbolValues, h, List.zipWith_nil_right]
  rfl

/-- A word of zeros passes every check. -/
theorem holds_zeros (q : QcCode) (n : Nat) : q.holds (Array.replicate n false) = true := by
  have hsum (c : List Nat) : c.foldl (fun a k => a != (Array.replicate n false).getD k false) false = false := by
    induction c with
    | nil => rfl
    | cons k c ih =>
      have hk : (Array.replicate n false).getD k false = false := by
        rw [Array.getD_eq_getD_getElem?, Array.getElem?_replicate]
        split <;> rfl
      rw [List.foldl_cons, hk]
      exact ih
  simp only [QcCode.holds, hsum, Bool.not_false, List.all_eq_true, implies_true]

/-- A header codeword of zeros, whose first syndrome is zero. -/
def zeroWord : Decoded := ⟨1, true, true, List.replicate 3872 false, 0⟩

/-- Without soft bits the header codeword is zeros. -/
theorem headerWord_empty (m : Nat) : headerWord m [] = zeroWord := by
  have hs : symbolBits (List.replicate 1936 0x28) [] = [] := by
    rw [symbolBits, show dataOf ([] : List Cx) = [] from rfl, List.zipWith_nil_right, List.flatten_nil]
  have hb : hardBits (Array.replicate 3872 0) = Array.replicate 3872 false := by simp [hardBits]
  rw [headerWord, hs, show placed 3872 [] = Array.replicate 3872 0 from rfl, QcCode.decode]
  simp only [hb, holds_zeros, if_true, Array.toList_replicate, zeroWord]

/-- A header of zeros lacks the synchronisation word. -/
theorem hdrChecks_zeros : hdrChecks (infoBytes headCode zeroWord) = false := by
  have hw : beAt (infoBytes headCode zeroWord) 0 4 = 0 := by decide +kernel
  rw [hdrChecks, hw]
  exact Bool.and_false _

/-- The counters of codewords, and DMT_FREQ_OFFSET. -/
def frameKeys (n : Nat) : Nat → Bool := keysOf [(.dmtFreqOffset, n, 0), (.dmtHdrUncorrectable, n, 0), (.dmtCwTotal, n, 0),
  (.dmtCwCorrected, n, 0), (.dmtCwUncorrectable, n, 0), (.dmtBitsCorrected, n, 0), (.dmtIterHist, n, 0)]

theorem frameKeys_own {n : Nat} {o : Obj} (h : o ∈ [Obj.dmtFreqOffset, .dmtHdrUncorrectable, .dmtCwTotal, .dmtCwCorrected,
    .dmtCwUncorrectable, .dmtBitsCorrected, .dmtIterHist]) : frameKeys n (o.key n 0) = true := by
  simp only [List.mem_cons, List.not_mem_nil, or_false] at h
  rcases h with rfl | rfl | rfl | rfl | rfl | rfl | rfl <;> simp [frameKeys, keysOf]

theorem countCodewords_adds (n : Nat) (l : List Decoded) : (countCodewords n l).Only (Eff.adds (frameKeys n) [.fch]) :=
  ⟨adds_count.mpr (frameKeys_own (by simp)), adds_count.mpr (frameKeys_own (by simp)), adds_count.mpr (frameKeys_own (by simp)),
    only_each fun _ => countIn_adds (frameKeys_own (by simp)), trivial⟩

/-- Where the header is not checked the frame has the active profile, and none is counted as a mismatch. -/
theorem decodeData_unnamed {head : Decoded} (h : hdrChecks (infoBytes headCode head) = false) (n : Nat) (r : DmtRx) (f : DmtFrame) :
    (decodeData n head r f).Only (Eff.adds (frameKeys n) [.fch]) := fun d => by
  simp only [h, Bool.and_false, Bool.false_and, Bool.false_eq_true, if_false, bne_self_eq_false]
  exact ⟨trivial, countCodewords_adds n _, adds_count.mpr (frameKeys_own (by simp)), adds_fch (by decide) _ _, trivial⟩

/-- A frame in Locked whose header is not checked is decoded under the active profile: beside the channel its counters move, and no other object. -/
theorem dmtFrameDecode_unnamed {s : State} {n : Fin 4} {f : DmtFrame} (ha : s.dev.answers = true) (h3 : s.dev.num .dmtState n.val = 3)
    (hz : s.dev.asleep n.val = false) (hc : hdrChecks (infoBytes headCode
      (headerWord (s.dev.num .dmtLdpcMaxIter n.val) ((s.dev.dmtTrained n.val f).symbol f 2))) = false) :
    ∃ p : Prog, p.Only (Eff.adds (frameKeys n.val) [.fch]) ∧ exec (.dmtFrameDecode n f) s = .next { s with dev := p.run s.dev } := by
  rw [exec_dmtFrameDecode, execDmtFrameDecode, run_live ha, Prog.run_ask]
  refine ⟨_, ?_, rfl⟩
  simp only [h3, hz]
  exact ⟨⟨adds_fch (by decide) _ _, only_when ⟨adds_obj.mpr (frameKeys_own (by simp)), trivial⟩, countCodewords_adds _ _,
    only_when ⟨adds_count.mpr (frameKeys_own (by simp)), trivial⟩, decodeData_unnamed hc _ _ _, trivial⟩, trivial⟩

/-- Refutes O24: the statement has a frame under the active profile leave DMT_PROFILE_MISMATCHES at its value held to 32 bits, and the model does
not touch it. The two differ at 2^32, past the counter's width: no count reaches such a value, but the invariant in the statement does not
exclude it. -/
theorem not_dmtReceiver : ¬ Obligations.DmtReceiver := by
  intro h
  have hz : mismatchesPastWidth.dev.asleep (0 : Fin 4).val = false := by decide
  have h3 : mismatchesPastWidth.dev.num .dmtState (0 : Fin 4).val = 3 := by decide
  have hhead : zeroWord = headerWord (mismatchesPastWidth.dev.num .dmtLdpcMaxIter (0 : Fin 4).val)
      ((mismatchesPastWidth.dev.dmtTrained (0 : Fin 4).val noSamples).symbol noSamples 2) := by
    rw [symbol_noTaps rfl, headerWord_empty]
  obtain ⟨-, hdecode, -⟩ := h
  obtain ⟨-, -, hdata⟩ := hdecode _ 0 noSamples mismatchesPastWidth_inv mismatchesPastWidth_answers hz _ zeroWord _ rfl hhead rfl
  obtain ⟨t, ht, -, -, -, hmiss, -, -⟩ := hdata 0 _ h3 (by rw [hdrChecks_zeros, Bool.and_false]; decide)
    (fun _ hn => absurd hn (by rw [hdrChecks_zeros]; decide)) rfl
  obtain ⟨p, hp, hrun⟩ := dmtFrameDecode_unnamed mismatchesPastWidth_answers h3 hz (hhead ▸ hdrChecks_zeros)
  rw [hrun, Host.Outcome.next.injEq] at ht
  subst ht
  rw [hp.num mismatchesPastWidth_inv.1.objs (by decide)] at hmiss
  exact absurd hmiss (by decide)

end Sys2Proof.Machine
end

section
/-!
PROOFS of the DMT profiles: images, the enable mask and switches (O25).
-/
namespace Sys2Proof.Machine

theorem exec_dmtProfileWrite (o : Origin) (n : Fin 4) (p : Fin 8) (b : List Byte) (s : State) : exec (.dmtProfileWrite o n p b) s =
    s.run (serve (writeReq o .dmtProfile n.val p.val (.oct b)) (dmtProfileBeh n.val p.val b)) := rfl
theorem exec_dmtProfileEnableWrite (o : Origin) (n : Fin 4) (v : BitVec 8) (s : State) : exec (.dmtProfileEnableWrite o n v) s =
    s.run (serve (writeReq o .dmtProfileEnable n.val 0 (.num v.toNat)) (dmtProfileEnableBeh n.val v.toNat)) := rfl
theorem exec_dmtProfileSwitch (o : Origin) (n : Fin 4) (a : BitVec 64) (s : State) : exec (.dmtProfileSwitch o n a) s =
    s.run (serve (execReq o .dmtProfileSwitch n.val 0 true (.num a.toNat))
      (dmtProfileSwitchBeh (elemReq o 3 .dmtProfileSwitch n.val 0 (.num a.toNat)).call n.val a.toNat)) := rfl
theorem exec_profileSwitchFire (n : Fin 4) (s : State) : exec (.profileSwitchFire n) s = execProfileSwitchFire n s := rfl

@[simp] theorem Dev.taken_switchTarget (d : Dev) (c : Call) (n p : Nat) : (d.taken c).switchTarget n p = d.switchTarget n p := rfl
@[simp] theorem Dev.taken_slotLoaded (d : Dev) (c : Call) (n p : Nat) : (d.taken c).slotLoaded n p = d.slotLoaded n p := rfl
@[simp] theorem Dev.taken_slotEnabled (d : Dev) (c : Call) (n p : Nat) : (d.taken c).slotEnabled n p = d.slotEnabled n p := rfl

/-- The crossing of the object of an admitted request is not Closed. -/
theorem admits_open {d : Dev} {r : Req} {o : Obj} {i j : Nat} (h : d.admits r) (ht : r.tgt = .elem o i j) :
    (d.taken r.call).closedAbort (o.index i j) = 0 := by
  obtain ⟨-, -, hl⟩ := h
  simp only [Dev.later, ht] at hl
  split at hl
  · contradiction
  · split at hl
    · contradiction
    · exact hl

/-! ## Profile images (R243) -/

/-- What R243 refuses an image with 0x0301 for: its form. -/
def imageMalformed (b : List Byte) : Prop := beAt b 2 2 ≠ 1936 ∨ beAt b 1 1 ≠ 1 ∨ b.length ≠ 1952 ∨ beAt b 12 4 ≠ crc32c (b.drop 16)

/-- What it refuses one for slot `p` with 0x0302 for: its content. -/
def imageBad (p : Nat) (b : List Byte) : Prop :=
  beAt b 0 1 ≠ p ∨ badEntry b ≠ none ∨ profileCodewords b = 0 ∨ 744 < profileCodewords b

theorem profileAbort_malformed {p : Nat} {b : List Byte} (h : imageMalformed b) : profileAbort p b = 0x0301 :=
  if_pos (by simpa [imageMalformed, or_assoc] using h)

theorem profileAbort_wellFormed {p : Nat} {b : List Byte} (h : ¬imageMalformed b) :
    profileAbort p b = firstAbort [(beAt b 0 1 != p || (badEntry b).isSome || profileCodewords b == 0
      || decide (744 < profileCodewords b), 0x0302)] :=
  if_neg (by simpa [imageMalformed, or_assoc] using h)

theorem profileAbort_bad {p : Nat} {b : List Byte} (hf : ¬imageMalformed b) (h : imageBad p b) : profileAbort p b = 0x0302 :=
  (profileAbort_wellFormed hf).trans (if_pos (by simpa [imageBad, or_assoc, Option.isSome_iff_ne_none] using h))

theorem profileAbort_good {p : Nat} {b : List Byte} (hf : ¬imageMalformed b) (h : ¬imageBad p b) : profileAbort p b = 0 :=
  (profileAbort_wellFormed hf).trans (if_neg (by simpa [imageBad, or_assoc, Option.isSome_iff_ne_none] using h))

section
variable {s : State} {o : Origin} {n : Fin 4} {p : Fin 8} {b : List Byte}

/-- No requester has a letter to write slot 0 with (R241). -/
theorem accessAbort_builtin (d : Dev) (code i : Nat) : d.accessAbort code 2 .dmtProfile i 0 = 0x0202 := by
  have hl : bitOf (lettersOf (Obj.dmtProfile.acc 0) code) (letterOf 2) = false := by
    unfold lettersOf
    split
    · split <;> rfl
    all_goals rfl
  simp only [Dev.accessAbort, hl]
  rfl

theorem profileWrite_builtin (hp : p = 0) (h : s.dev.hears (writeReq o .dmtProfile n.val 0 (.oct b)).call)
    (hc : o.code.toNat = s.dev.codeOf o.path) : exec (.dmtProfileWrite o n p b) s =
      .next (s.refusedWith (writeReq o .dmtProfile n.val 0 (.oct b)).call [] 0x0202) := by
  subst hp
  have he : (s.dev.taken (writeReq o .dmtProfile n.val 0 (.oct b)).call).early (writeReq o .dmtProfile n.val 0 (.oct b)) = 0x0202 := by
    have hcode : (s.dev.taken (writeReq o .dmtProfile n.val 0 (.oct b)).call).codeOk (writeReq o .dmtProfile n.val 0 (.oct b)).call = true :=
      beq_iff_eq.mpr (hc.trans (taken_codeOf _ _ _).symm)
    simp only [Dev.early, writeReq, elemReq] at hcode ⊢
    simp only [hcode, accessAbort_builtin]
    rfl
  have hr : (s.dev.taken (writeReq o .dmtProfile n.val 0 (.oct b)).call).refusal (writeReq o .dmtProfile n.val 0 (.oct b))
      (dmtProfileBeh n.val 0 b) = 0x0202 := by
    rw [Dev.refusal, if_pos (by rw [he]; decide), he]
  rw [exec_dmtProfileWrite, State.run_eq, Fin.val_zero, serve_abort h hr (by decide)]
  rfl

variable (hp : p ≠ 0) (h : s.dev.admits (writeReq o .dmtProfile n.val p.val (.oct b)))
include h

theorem profileWrite_stored (hs : s.Inv) (hf : ¬imageMalformed b) (hb : ¬imageBad p.val b) (ht : s.dev.switchTarget n.val p.val = false)
    (he : bitOf (s.dev.num .dmtProfileEnable n.val) p.val = false) : exec (.dmtProfileWrite o n p b) s =
      .next (s.served (writeReq o .dmtProfile n.val p.val (.oct b)).call
        [.obj .dmtProfile n.val p.val (.oct b), .obj .dmtProfileStatus n.val p.val (.num (2 ^ 31 + profileCodewords b))] []) := by
  have hne : b.isEmpty = false := by
    cases b
    · exact absurd (.inr (.inr (.inl (by decide)))) hf
    · rfl
  rw [exec_dmtProfileWrite]
  refine served_done hs h (profileAbort_good hf hb) ?_ rfl ?_
  · exact (if_neg (by simp [ht])).trans (if_neg (by simp [he]))
  · simp only [hne]
    rfl

include hp

/-- A refusal of the object's own checks, which DMT_LAST_ERROR names. -/
theorem profileWrite_noted {a : Nat} (ha : a = 0x0301 ∨ a = 0x0302 ∨ a = 0x0401 ∨ a = 0x0501)
    (hr : profileAbort p.val b = a ∨ profileAbort p.val b = 0 ∧
      firstAbort [(s.dev.switchTarget n.val p.val, 0x0501), (bitOf (s.dev.num .dmtProfileEnable n.val) p.val, 0x0401)] = a) :
    exec (.dmtProfileWrite o n p b) s = .next (s.refusedWith (writeReq o .dmtProfile n.val p.val (.oct b)).call
      [.obj .dmtLastError n.val 0 (.num (p.val * 2 ^ 29 +
        (if a = 0x0302 ∧ beAt b 0 1 = p.val then (badEntry b).getD 0x1FFF else 0x1FFF) * 2 ^ 16 + a))] a) := by
  have hopen : (s.dev.taken (writeReq o .dmtProfile n.val p.val (.oct b)).call).closedAbort (Obj.dmtProfile.index n.val p.val) = 0 :=
    admits_open h rfl
  have h0 : (p.val != 0) = true := bne_iff_ne.mpr (Fin.val_ne_zero_iff.mpr hp)
  have hcode : (a == 0x0301 || a == 0x0302 || a == 0x0401 || a == 0x0501) = true := by simpa [or_assoc] using ha
  rw [exec_dmtProfileWrite]
  refine served_refused h (by omega) hr ?_
  simp only [dmtProfileBeh, hopen, h0, hcode]
  rfl

/-- The first of R243's aborts that applies. -/
theorem profileWrite_refused (a : Nat) (ha : a = if beAt b 2 2 ≠ 1936 ∨ beAt b 1 1 ≠ 1 ∨ b.length ≠ 1952 ∨ beAt b 12 4 ≠ crc32c (b.drop 16)
      then 0x0301
      else if beAt b 0 1 ≠ p.val ∨ badEntry b ≠ none ∨ profileCodewords b = 0 ∨ 744 < profileCodewords b then 0x0302
      else if s.dev.switchTarget n.val p.val then 0x0501
      else if bitOf (s.dev.num .dmtProfileEnable n.val) p.val then 0x0401 else 0) (h0 : a ≠ 0) :
    exec (.dmtProfileWrite o n p b) s = .next (s.refusedWith (writeReq o .dmtProfile n.val p.val (.oct b)).call
      [.obj .dmtLastError n.val 0 (.num (p.val * 2 ^ 29 +
        (if a = 0x0302 ∧ beAt b 0 1 = p.val then (badEntry b).getD 0x1FFF else 0x1FFF) * 2 ^ 16 + a))] a) := by
  by_cases hf : imageMalformed b
  · obtain rfl : a = 0x0301 := ha.trans (if_pos hf)
    exact profileWrite_noted hp h (.inl rfl) (.inl (profileAbort_malformed hf))
  · by_cases hb : imageBad p.val b
    · obtain rfl : a = 0x0302 := ha.trans ((if_neg hf).trans (if_pos hb))
      exact profileWrite_noted hp h (.inr (.inl rfl)) (.inl (profileAbort_bad hf hb))
    · have hheld := ha.trans ((if_neg hf).trans (if_neg hb))
      have hnoted hcode := profileWrite_noted hp h hcode (.inr ⟨profileAbort_good hf hb, hheld.symm⟩)
      by_cases ht : s.dev.switchTarget n.val p.val = true
      · exact hnoted (.inr (.inr (.inr (hheld.trans (if_pos ht)))))
      · by_cases he : bitOf (s.dev.num .dmtProfileEnable n.val) p.val = true
        · exact hnoted (.inr (.inr (.inl (hheld.trans ((if_neg ht).trans (if_pos he))))))
        · exact absurd (hheld.trans ((if_neg ht).trans (if_neg he))) h0

end

/-! ## DMT_PROFILE_ENABLE (R244) -/

/-- The mask leaves out the slot that a pending switch names. -/
def Dev.dropsTarget (d : Dev) (n v : Nat) : Bool := (List.range 8).any fun p => d.switchTarget n p && p != 0 && !bitOf v p

/-- The mask enables a slot that is not loaded, or disables the active one. -/
def Dev.badMask (d : Dev) (n v : Nat) : Bool := (List.range 8).any (fun p => bitOf v p && !d.slotLoaded n p)
  || (d.num .dmtProfileActive n != 0 && !bitOf v (d.num .dmtProfileActive n))

theorem dropsTarget_iff {d : Dev} {n v : Nat} :
    d.dropsTarget n v = true ↔ ∃ p, p < 8 ∧ p ≠ 0 ∧ d.switchTarget n p = true ∧ bitOf v p = false := by
  simp only [Dev.dropsTarget, List.any_eq_true, List.mem_range, Bool.and_eq_true, bne_iff_ne, Bool.not_eq_true']
  exact exists_congr fun p => by tauto

theorem badMask_iff {d : Dev} {n v : Nat} : d.badMask n v = true ↔ (∃ p, p < 8 ∧ bitOf v p = true ∧ d.slotLoaded n p = false) ∨
    (d.num .dmtProfileActive n ≠ 0 ∧ bitOf v (d.num .dmtProfileActive n) = false) := by
  simp only [Dev.badMask, Bool.or_eq_true, List.any_eq_true, List.mem_range, Bool.and_eq_true, bne_iff_ne, Bool.not_eq_true']

theorem profileEnable_state (d : Dev) (n v : Nat) :
    (dmtProfileEnableBeh n v).state d = if d.dropsTarget n v then 0x0501 else if d.badMask n v then 0x0401 else 0 := rfl

section
variable {s : State} {o : Origin} {n : Fin 4} {v : BitVec 8}
  (h : s.dev.admits (writeReq o .dmtProfileEnable n.val 0 (.num v.toNat)))
include h

theorem profileEnable_target (ht : s.dev.dropsTarget n.val v.toNat = true) : exec (.dmtProfileEnableWrite o n v) s =
    .next (s.refusedWith (writeReq o .dmtProfileEnable n.val 0 (.num v.toNat)).call [] 0x0501) := by
  rw [exec_dmtProfileEnableWrite]
  exact serve_refused_state h rfl ((profileEnable_state s.dev _ _).trans (if_pos ht)) (by decide)

variable (ht : s.dev.dropsTarget n.val v.toNat = false)
include ht

theorem profileEnable_refused (hb : s.dev.badMask n.val v.toNat = true) : exec (.dmtProfileEnableWrite o n v) s =
    .next (s.refusedWith (writeReq o .dmtProfileEnable n.val 0 (.num v.toNat)).call [] 0x0401) := by
  rw [exec_dmtProfileEnableWrite]
  exact serve_refused_state h rfl ((profileEnable_state s.dev _ _).trans ((if_neg (ne_true_of_eq_false ht)).trans (if_pos hb))) (by decide)

theorem profileEnable_stored (hs : s.Inv) (hb : s.dev.badMask n.val v.toNat = false) : exec (.dmtProfileEnableWrite o n v) s =
    .next (s.served (writeReq o .dmtProfileEnable n.val 0 (.num v.toNat)).call
      [.obj .dmtProfileEnable n.val 0 (.num (putBit v.toNat 0 true))] []) := by
  rw [exec_dmtProfileEnableWrite]
  exact served_done hs h rfl
    ((profileEnable_state s.dev _ _).trans ((if_neg (ne_true_of_eq_false ht)).trans (if_neg (ne_true_of_eq_false hb)))) rfl rfl

end

/-! ## DMT_PROFILE_SWITCH (R246, R649) -/

section
variable {s : State} {o : Origin} {n : Fin 4} {a : BitVec 64} {k f : Nat} (hk : k = bitsOf a.toNat 56 3) (hf : f = bitsOf a.toNat 0 51)
  (h : s.dev.admits (execReq o .dmtProfileSwitch n.val 0 true (.num a.toNat)))
include hk hf h

theorem profileSwitch_reserved (hb : a.toNat ≠ k * 2 ^ 56 + f ∨ f % 32 ≠ 0) : exec (.dmtProfileSwitch o n a) s =
    .next (s.refusedWith (execReq o .dmtProfileSwitch n.val 0 true (.num a.toNat)).call [] 0x0302) := by
  subst hk hf
  rw [exec_dmtProfileSwitch]
  refine serve_refused_pre h (if_pos ?_) (by decide)
  simp only [Bool.or_eq_true, bne_iff_ne]
  exact .inl hb

variable (hform : a.toNat = k * 2 ^ 56 + f) (h32 : f % 32 = 0)
include hform h32

omit h in
/-- An argument without reserved bits for a frame far enough ahead, where frames are counted. -/
theorem profileSwitch_pre {d : Dev} (hd : d.frameAhead n.val f = true) :
    (dmtProfileSwitchBeh (elemReq o 3 .dmtProfileSwitch n.val 0 (.num a.toNat)).call n.val a.toNat).pre d = 0 := by
  subst hk hf
  refine if_neg ?_
  simp only [Bool.or_eq_true, bne_iff_ne, Bool.not_eq_true', not_or, not_not]
  exact ⟨⟨hform, h32⟩, ne_false_of_eq_true hd⟩

theorem profileSwitch_unaligned (hu : s.dev.num .frmAlignState n.val ≠ 2) : exec (.dmtProfileSwitch o n a) s =
    .next (s.refusedWith (execReq o .dmtProfileSwitch n.val 0 true (.num a.toNat)).call [] 0x0401) := by
  have hal : s.dev.alignedOn n.val = false := beq_false_of_ne hu
  rw [exec_dmtProfileSwitch]
  refine serve_refused_state h ?_ (if_pos ?_) (by decide)
  · exact profileSwitch_pre hk hf hform h32 (Bool.or_eq_true_iff.mpr (.inl (congrArg not hal))) (o := o)
  · exact Bool.or_eq_true_iff.mpr (.inr (congrArg not hal))

variable (hs : s.Inv) (h2 : s.dev.num .frmAlignState n.val = 2) (hahead : s.dev.num .frmFrame n.val + 2 ≤ f)
  (he : s.dev.slotEnabled n.val k = true) (hc : s.dev.armConflict 2 n.val [Obj.key .dmtProfileActive n.val 0] = false)
  (hl : s.dev.acts.length < 256)
include hs h2 hahead he hc hl

/-- A switch that passes its checks arms one action; one to the active slot arms none. -/
theorem profileSwitch_armed : exec (.dmtProfileSwitch o n a) s =
    .next (s.served (execReq o .dmtProfileSwitch n.val 0 true (.num a.toNat)).call
      (if k = s.dev.num .dmtProfileActive n.val then []
       else [.arm ⟨0, 2, n.val, .frame f, o.code.toNat, false, [Obj.key .dmtProfileActive n.val 0], [k], 0⟩]) []) := by
  have hroom : s.dev.actsFull = false := decide_eq_false (Nat.not_le.mpr hl)
  have hal : s.dev.alignedOn n.val = true := beq_iff_eq.mpr h2
  rw [exec_dmtProfileSwitch]
  refine served_done hs h ?_ ?_ rfl ?_
  · exact profileSwitch_pre hk hf hform h32 (Bool.or_eq_true_iff.mpr (.inr (decide_eq_true hahead))) (o := o)
  · subst hk
    refine (if_neg ?_).trans ((if_neg (ne_true_of_eq_false hc)).trans (if_neg ?_))
    · simp only [Dev.taken_slotEnabled, Bool.or_eq_true, Bool.not_eq_true', not_or]
      exact ⟨ne_false_of_eq_true he, ne_false_of_eq_true hal⟩
    · simp only [Dev.taken_actsFull, hroom, Bool.false_and]
      decide
  · subst hk hf
    simp only [switchSlot, switchFrame, Dev.taken_num]
    split
    · rename_i hsame
      rw [bne_eq_false_iff_eq.mpr hsame]
      rfl
    · rename_i hne
      rw [bne_iff_ne.mpr hne]
      rfl

end

/-! ## The switch at its instant (R246, R575) -/

section
variable {s : State} {n : Fin 4} {a : Action} (ha : s.dev.answers = true) (hp : s.dev.pendingOn 2 n.val = some a)
  (ht : s.dev.actTurn a = true)
include ha hp ht

theorem profileSwitchFire_switches (he : s.dev.slotEnabled n.val (nth 0 a.arg 0) = true) (hl : s.dev.actLate a = false) :
    exec (.profileSwitchFire n) s = .next (s.after
      [.disarm a.slot, .obj .dmtProfileActive n.val 0 (.num (nth 0 a.arg 0)),
       .raise (128 + 16 * n.val + 6) 0 n.val (top8 (s.dev.num .dmtProfileActive n.val) + nth 0 a.arg 0 * 65536) 0]) := by
  rw [exec_profileSwitchFire, execProfileSwitchFire, run_live ha]
  simp only [Prog.run_ask, hp, ht, he, hl, if_true]
  rfl

theorem profileSwitchFire_fails (he : s.dev.slotEnabled n.val (nth 0 a.arg 0) = false) :
    exec (.profileSwitchFire n) s = .next (s.after
      [.disarm a.slot, .count .rmFailures 0 0 1, .raise 434 0 a.slot (top8 a.kind + 0x0401 * 256) 0]) := by
  rw [exec_profileSwitchFire, execProfileSwitchFire, run_live ha]
  simp only [Prog.run_ask, hp, ht, he]
  rfl

end

/-- Settles O25: each request is served by its own checks and effects, and the pending switch is checked again at its instant. -/
theorem dmtProfiles : Obligations.DmtProfiles := by
  refine ⟨fun s o n p b hs => ⟨profileWrite_builtin, fun hp h _ => ⟨fun h1 h2 h3 h4 h5 h6 h7 h8 ht he => ?_, profileWrite_refused hp h⟩⟩,
    fun s o n v hs h => ⟨fun ht => profileEnable_target h (dropsTarget_iff.mpr ht), fun ht => ?_⟩,
    fun s o n a k f hs hk hf h => ⟨profileSwitch_reserved hk hf h, profileSwitch_unaligned hk hf h,
      fun hform h32 h2 hahead he hc hl => profileSwitch_armed hk hf h hform h32 hs h2 hahead he hc hl⟩,
    fun s n a ha hp ht => ⟨profileSwitchFire_switches ha hp ht, profileSwitchFire_fails ha hp ht⟩⟩
  · exact profileWrite_stored h hs (by simp [imageMalformed, h1, h2, h3, h4]) (by simp [imageBad, h5, h6]; omega) ht he
  · have hd : s.dev.dropsTarget n.val v.toNat = false := by
      refine eq_false_of_ne_true fun hd => ?_
      obtain ⟨p, hp, h0, hs, hb⟩ := dropsTarget_iff.mp hd
      rw [ht p hp h0 hs] at hb
      exact absurd hb (by decide)
    refine ⟨fun hb => profileEnable_refused h hd (badMask_iff.mpr hb), fun hall hact => profileEnable_stored h hd hs ?_⟩
    refine eq_false_of_ne_true fun hb => ?_
    rcases badMask_iff.mp hb with ⟨p, hp, hv, hu⟩ | ⟨hne, hu⟩
    · rw [hall p hp hv] at hu
      exact absurd hu (by decide)
    · rw [hact.resolve_left hne] at hu
      exact absurd hu (by decide)

end Sys2Proof.Machine
end

section
/-!
PROOFS of the framer's defects: LOS, LOF, AIS and FEC_DEG (O29).
-/
namespace Sys2Proof.Machine

theorem exec_losDeclare (n : Fin 4) (s : State) : exec (.losDeclare n) s = execLosDeclare n s := rfl
theorem exec_losClear (n : Fin 4) (s : State) : exec (.losClear n) s = execLosClear n s := rfl
theorem exec_lofDeclare (n : Fin 4) (s : State) : exec (.lofDeclare n) s = execLofDeclare n s := rfl
theorem exec_aisDeclare (n : Fin 4) (s : State) : exec (.aisDeclare n) s = execAisDeclare n s := rfl
theorem exec_aisClear (n : Fin 4) (s : State) : exec (.aisClear n) s = execAisClear n s := rfl
theorem exec_fecDegWindowEnd (n : Fin 4) (s : State) : exec (.fecDegWindowEnd n) s = execFecDegWindowEnd n s := rfl

/-! ## A bit of FRM_DEFECTS takes a value (R308, Table 10.8) -/

/-- A number with one bit replaced, split at that bit. -/
theorem putBit_split (v i : Nat) (b : Bool) : putBit v i b = 2 ^ i * (2 * (v / 2 ^ i / 2) + b.toNat) + v % 2 ^ i := by
  have hv := Nat.div_add_mod v (2 ^ i)
  have hh := Nat.div_add_mod (v / 2 ^ i) 2
  have hb : (if b then 1 else 0) % 2 ^ 1 = b.toNat := by cases b <;> rfl
  have hm : 2 ^ i * (v / 2 ^ i) = 2 ^ i * (2 * (v / 2 ^ i / 2)) + v / 2 ^ i % 2 * 2 ^ i := by
    conv_lhs => rw [← hh]
    ring
  rw [putBit, putBits, bitsOf, hb, Nat.pow_one, Nat.mul_add, Nat.mul_comm _ b.toNat]
  omega

theorem bitOf_putBit (v i j : Nat) (b : Bool) : bitOf (putBit v i b) j = if j = i then b else bitOf v j := by
  have hlow := Nat.mod_lt v (Nat.two_pow_pos i)
  rw [putBit_split, bitOf_eq_testBit, bitOf_eq_testBit, Nat.testBit_two_pow_mul_add _ hlow]
  rcases lt_trichotomy j i with hj | rfl | hj
  · rw [if_pos hj, if_neg hj.ne, Nat.testBit_mod_two_pow, decide_eq_true hj, Bool.true_and]
  · rw [if_neg (lt_irrefl _), if_pos rfl, Nat.sub_self, Nat.testBit_zero]
    cases b <;> simp [Nat.add_mod]
  · obtain ⟨k, rfl⟩ := Nat.exists_eq_add_of_lt hj
    rw [if_neg (by omega), if_neg (by omega), show i + k + 1 - i = k + 1 by omega, Nat.testBit_succ,
      show (2 * (v / 2 ^ i / 2) + b.toNat) / 2 = v / 2 ^ i / 2 by have := b.toNat_lt; omega, ← Nat.testBit_succ,
      Nat.testBit_div_two_pow]
    congr 1
    omega

/-- What a change of a defect bit does. -/
def Dev.defectSet (d : Dev) (n bit : Nat) (b : Bool) : List Eff :=
  [.obj .frmDefects n 0 (.num (putBit (d.num .frmDefects n) bit b)),
    .raise (chEvt n (if bit = 0 then 12 else if bit = 1 then 11 else 13)) 0 n (if bit < 2 then 0 else top8 bit) 0] ++
  if b && decide (bit < 3) then [.fch n fun c => { c with pm := { c.pm with defect := true } }] else []

section
variable {d : Dev} {n bit : Nat} {b : Bool}

theorem setDefect_run (h : d.defect n bit ≠ b) : (setDefect n bit b).run d = d.after (d.defectSet n bit b) := by
  have hne : (bitOf (d.num .frmDefects n) bit != b) = true := bne_iff_ne.mpr h
  simp only [setDefect, Prog.run_ask, hne, Dev.defectSet]
  cases b && decide (bit < 3) <;> rfl

theorem setDefect_raises (h : d.defect n bit ≠ b) :
    ((setDefect n bit b).run d).raisedEvent (chEvt n (if bit = 0 then 12 else if bit = 1 then 11 else 13)) 0 n := by
  rw [setDefect_run h, Dev.defectSet, after_append]
  refine after_raisedEvent (fun e he => ?_) (raisedEvent_raise _ _ _ _ _ _)
  split at he
  · obtain rfl := List.mem_singleton.mp he
    rfl
  · cases he

theorem setDefect_defect (hd : d.Canonical) (j : Nat) : ((setDefect n bit b).run d).defect n j = if j = bit then b else d.defect n j := by
  by_cases h : d.defect n bit = b
  · rw [setDefect_same h]
    split
    · subst_vars
      rfl
    · rfl
  · have hnum : (d.after (d.defectSet n bit b)).num .frmDefects n = putBit (d.num .frmDefects n) bit b := by
      refine after_obj_num hd ?_
      cases b && decide (bit < 3) <;> simp [Eff.keys]
    rw [setDefect_run h, Dev.defect, hnum, bitOf_putBit]
    rfl

/-- A bit above the first three leaves the channel: it makes no defect second (R311). -/
theorem setDefect_ch (h : 3 ≤ bit) (k : Nat) : ((setDefect n bit b).run d).ch k = d.ch k := by
  by_cases hb : d.defect n bit = b
  · rw [setDefect_same hb]
  · rw [setDefect_changes h hb]
    rfl

theorem setDefect_within {ps : List Part} (ho : .occs ∈ ps) (hf : .fch ∈ ps) (n bit : Nat) (b : Bool) :
    (setDefect n bit b).Only (Eff.adds (keysOf [(.frmDefects, n, 0)]) ps) := fun _ =>
  only_when ⟨fun _ => adds_obj.mpr (by simp [keysOf]), adds_raise ho _ _ _ _ _, only_when ⟨adds_fch hf _ _, trivial⟩, trivial⟩

/-- Programs that do not write FRM_DEFECTS leave the defects. -/
theorem Prog.Only.defect {ks : Nat → Bool} {ps : List Part} {p : Prog} (hp : p.Only (Eff.adds ks ps)) (hd : SMap.wf none d.objs = true)
    (hk : ks (Obj.frmDefects.key n 0) = false) (j : Nat) : (p.run d).defect n j = d.defect n j :=
  congrArg (bitOf · j) (hp.num hd hk)

end

/-! ## Masking (R309) -/

theorem maskDefects_adds (n : Nat) (lof : Bool) : (maskDefects n lof).Only (Eff.adds (keysOf [(.frmDefects, n, 0)]) feParts) :=
  ⟨only_when ⟨setDefect_adds n 1 false, trivial⟩, setDefect_adds n 2 false, setDefect_adds n 3 false, adds_fch (by decide) _ _, trivial⟩

theorem maskDefects_defect {d : Dev} (hd : d.Canonical) (n : Nat) (lof : Bool) (j : Nat) : ((maskDefects n lof).run d).defect n j =
    if j = 2 ∨ j = 3 ∨ (lof = true ∧ j = 1) then false else d.defect n j := by
  have hlof : ((Prog.when lof [setDefect n 1 false]).run d).defect n j = if lof = true ∧ j = 1 then false else d.defect n j := by
    cases lof
    · simp
    · simp [setDefect_defect hd]
  have hc := run_canonical (Prog.when lof [setDefect n 1 false]) hd
  change ((setDefect n 3 false).run ((setDefect n 2 false).run ((Prog.when lof [setDefect n 1 false]).run d))).defect n j = _
  rw [setDefect_defect (run_canonical _ hc), setDefect_defect hc, hlof]
  grind

/-! ## Operating becomes Holding (row 10 of Table 12.7) -/

/-- An activation state stays, or goes from Operating to Holding. -/
def mayHold (a b : Nat) : Prop := b = a ∨ a = 4 ∧ b = 5

theorem mayHold.held {a b : Nat} (h : mayHold a b) : (if b = 4 then 5 else b) = if a = 4 then 5 else a := by
  rcases h with rfl | ⟨rfl, rfl⟩ <;> rfl

section
variable {d : Dev} (hd : d.Canonical) (n : Fin 4)
include hd

theorem toHolding_state : ((toHolding n.val).run d).num .actState n.val = if d.num .actState n.val = 4 then 5 else d.num .actState n.val := by
  simp only [toHolding, Prog.run_ask]
  by_cases h4 : d.num .actState n.val = 4
  · rw [if_pos h4, h4]
    exact actTo_state hd n 5 10
  · rw [if_neg h4, beq_false_of_ne h4]
    rfl

theorem toHolding_mayHold : mayHold (d.num .actState n.val) (((toHolding n.val).run d).num .actState n.val) := by
  rw [toHolding_state hd]
  split
  · exact .inr ⟨‹_›, rfl⟩
  · exact .inl rfl

theorem toHolding_num {o : Obj} {i j : Nat} (hk : holdKeys n.val (o.key i j) = false) :
    ((toHolding n.val).run d).num o i j = d.num o i j :=
  (toHolding_adds (ps := [.occs, .fch]) (by decide) (by decide) n.val).num hd.objs hk

/-! ## The receiver leaves Locked (R233) -/

/-- Of the activation state the loss of the reference changes at most Operating, to Holding. -/
theorem refLost_mayHold : mayHold (d.num .actState n.val) (((refLost n.val).run d).num .actState n.val) := by
  by_cases hrun : d.num .clkFchState 0 n.val = 1 ∨ d.num .clkFchState 0 n.val = 2
  · have hf : (fibreHeld d n.val).Canonical := after_canonical _ hd
    have ht := run_canonical (timingFollows d n.val) hf
    have hratio : ((ratioKept d n.val).any fun e => e.keys (Obj.actState.key n.val 0)) = false := by
      unfold ratioKept
      split <;> rfl
    have hnum : (((timingFollows d n.val).run (fibreHeld d n.val)).after (ratioKept d n.val)).num .actState n.val =
        d.num .actState n.val := by
      rw [after_num ht.objs hratio, (timingFollows_adds d n.val).num hf.objs (by clear * -; revert n; decide)]
      refine after_num hd.objs ?_
      clear * -
      revert n
      simp only [List.any_cons, List.any_nil, Eff.keys, refCut]
      decide
    rw [refLost_runs hrun, ← hnum]
    exact toHolding_mayHold (after_canonical _ ht) n
  · rw [not_or] at hrun
    rw [refLost_idle hrun]
    exact .inl rfl

/-- The lost reference is no longer valid, and the burst is cut. -/
theorem refLost_cut : (((refLost n.val).run d).ch n.val).refValid = false ∧ (((refLost n.val).run d).ch n.val).burstOn = false := by
  by_cases hrun : d.num .clkFchState 0 n.val = 1 ∨ d.num .clkFchState 0 n.val = 2
  · rcases refLost_ch hd n hrun with h | h <;> rw [h] <;> exact ⟨rfl, rfl⟩
  · rw [not_or] at hrun
    rw [refLost_idle hrun, refCut, ch_fch hd]
    exact ⟨rfl, rfl⟩

end

/-- The receiver starts afresh in a state. -/
def dmtAfresh (n dest : Nat) : List Eff :=
  [.fch n fun c => { c with dmt := { DmtRx.none with adv := c.dmt.adv, dec := if dest = 0 then [] else c.dmt.dec } },
    .obj .dmtState n 0 (.num dest)]

theorem dmtLeave_locked {d : Dev} {n : Nat} (h : d.num .dmtState n = 3) (dest cause : Nat) : (dmtLeave n dest cause).run d =
    ((refLost n).run ((Eff.raise (chEvt n 5) cause n 0 0).apply d)).after (dmtAfresh n dest) := by
  simp only [dmtLeave, Prog.run_ask, h]
  rfl

theorem dmtLeave_unlocked {d : Dev} {n : Nat} (h : d.num .dmtState n ≠ 3) (dest cause : Nat) : (dmtLeave n dest cause).run d =
    d.after (dmtAfresh n dest) := by
  simp only [dmtLeave, Prog.run_ask, beq_false_of_ne h]
  rfl

section
variable {d : Dev} (hd : d.Canonical) (n : Fin 4) (dest cause : Nat)
include hd

omit n in
theorem dmtAfresh_state (n : Nat) : (d.after (dmtAfresh n dest)).num .dmtState n = dest :=
  Dev.num_put (Eff.apply_canonical (.fch n _) d hd).objs _ _ _ _

theorem dmtAfresh_act : (d.after (dmtAfresh n.val dest)).num .actState n.val = d.num .actState n.val := by
  refine after_num hd.objs ?_
  clear * -
  simp only [dmtAfresh, List.any_cons, List.any_nil, Eff.keys]
  revert n
  decide

theorem dmtLeave_state : ((dmtLeave n.val dest cause).run d).num .dmtState n.val = dest := by
  by_cases h : d.num .dmtState n.val = 3
  · rw [dmtLeave_locked h, dmtAfresh_state (run_canonical _ (Eff.apply_canonical _ d hd))]
  · rw [dmtLeave_unlocked h, dmtAfresh_state hd]

theorem dmtLeave_mayHold : mayHold (d.num .actState n.val) (((dmtLeave n.val dest cause).run d).num .actState n.val) := by
  by_cases h : d.num .dmtState n.val = 3
  · have hr := Eff.apply_canonical (.raise (chEvt n.val 5) cause n.val 0 0) d hd
    rw [dmtLeave_locked h, dmtAfresh_act (run_canonical _ hr)]
    exact refLost_mayHold hr n
  · rw [dmtLeave_unlocked h, dmtAfresh_act hd]
    exact .inl rfl

/-- From Locked the event tells the cause, and the valid flag is withdrawn. -/
theorem dmtLeave_withdraws (h : d.num .dmtState n.val = 3) : ((dmtLeave n.val dest cause).run d).raisedEvent (chEvt n.val 5) cause n.val ∧
    (((dmtLeave n.val dest cause).run d).ch n.val).refValid = false := by
  have hr := Eff.apply_canonical (.raise (chEvt n.val 5) cause n.val 0 0) d hd
  have hch := ch_fch (run_canonical (refLost n.val) hr) n.val
    fun c => { c with dmt := { DmtRx.none with adv := c.dmt.adv, dec := if dest = 0 then [] else c.dmt.dec } }
  rw [dmtLeave_locked h]
  refine ⟨after_raisedEvent (by simp [dmtAfresh, Eff.keepsOccs]) ((refLost_adds n.val).raisedEvent (raisedEvent_raise _ _ _ _ _ _)), ?_⟩
  exact (congrArg Fch.refValid hch).trans (refLost_cut hr n).1

end

/-! ## LOS (R308, R309) -/

/-- LOS is set and masks the others. -/
def Dev.losMasked (d : Dev) (n : Nat) : Dev :=
  (maskDefects n true).run ((setDefect n 0 true).run ((Eff.fch n fun c => { c with losRaw := true }).apply d))

/-- The receiver leaves Acquire or Locked, as it was when LOS came. -/
def Dev.losLeaves (d : Dev) (n : Nat) : Prog := .when (d.num .dmtState n == 2 || d.num .dmtState n == 3) [dmtLeave n 1 2]

/-- The device once LOS is declared. -/
def Dev.losDeclared (d : Dev) (n : Nat) : Dev := (toHolding n).run ((d.losLeaves n).run (d.losMasked n))

theorem losLeaves_adds (d : Dev) (n : Nat) : (d.losLeaves n).Only (Eff.adds (feKeys n) feParts) := only_when ⟨dmtLeave_adds n 1 2, trivial⟩

section
variable {d : Dev} (hd : d.Canonical) (n : Fin 4)
include hd

omit n in
theorem losRaw_canonical (n : Nat) : ((Eff.fch n fun c => { c with losRaw := true }).apply d).Canonical := Eff.apply_canonical _ d hd

omit n in
theorem losMasked_canonical (n : Nat) : (d.losMasked n).Canonical := run_canonical _ (run_canonical _ (losRaw_canonical hd n))

omit n in
theorem losMasked_defect (n : Nat) {b : Nat} (hb : b < 4) : (d.losMasked n).defect n b = decide (b = 0) := by
  have hc := losRaw_canonical hd n
  rw [Dev.losMasked, maskDefects_defect (run_canonical _ hc), setDefect_defect hc]
  interval_cases b <;> rfl

omit n in
theorem losMasked_num (n : Nat) {o : Obj} {i j : Nat} (hk : keysOf [(.frmDefects, n, 0)] (o.key i j) = false) :
    (d.losMasked n).num o i j = d.num o i j := by
  have hc := losRaw_canonical hd n
  rw [Dev.losMasked, (maskDefects_adds n true).num (run_canonical _ hc).objs hk, (setDefect_adds n 0 true).num hc.objs hk]
  rfl

theorem losDeclared_defect {b : Nat} (hb : b < 4) : (d.losDeclared n.val).defect n.val b = decide (b = 0) := by
  have hm := losMasked_canonical hd n.val
  rw [Dev.losDeclared, (toHolding_adds (ps := [.occs, .fch]) (by decide) (by decide) n.val).defect (run_canonical _ hm).objs
    (by clear * -; revert n; decide), (losLeaves_adds d n.val).defect hm.objs (by clear * -; revert n; decide), losMasked_defect hd n.val hb]

omit hd in
theorem losDeclared_raises (h : d.defect n.val 0 = false) : (d.losDeclared n.val).raisedEvent (128 + 16 * n.val + 12) 0 n.val := by
  have hne : ((Eff.fch n.val fun c => { c with losRaw := true }).apply d).defect n.val 0 ≠ true := ne_true_of_eq_false h
  exact (toHolding_adds (ps := [.occs, .fch]) (by decide) (by decide) n.val).raisedEvent ((losLeaves_adds d n.val).raisedEvent
    ((maskDefects_adds n.val true).raisedEvent (setDefect_raises hne)))

theorem losDeclared_receiver : (d.losDeclared n.val).num .dmtState n.val =
    if d.num .dmtState n.val = 2 ∨ d.num .dmtState n.val = 3 then 1 else d.num .dmtState n.val := by
  have hm := losMasked_canonical hd n.val
  rw [Dev.losDeclared, toHolding_num (run_canonical _ hm) n (by clear * -; revert n; decide), Dev.losLeaves]
  by_cases h : d.num .dmtState n.val = 2 ∨ d.num .dmtState n.val = 3
  · have hb : (d.num .dmtState n.val == 2 || d.num .dmtState n.val == 3) = true := by simpa using h
    rw [if_pos h, hb]
    exact dmtLeave_state hm n 1 2
  · have hb : (d.num .dmtState n.val == 2 || d.num .dmtState n.val == 3) = false := by simpa using h
    rw [if_neg h, hb]
    exact losMasked_num hd n.val (by clear * -; revert n; decide)

theorem losDeclared_act : (d.losDeclared n.val).num .actState n.val = if d.num .actState n.val = 4 then 5 else d.num .actState n.val := by
  have hm := losMasked_canonical hd n.val
  have hnum : (d.losMasked n.val).num .actState n.val = d.num .actState n.val := losMasked_num hd n.val (by clear * -; revert n; decide)
  rw [Dev.losDeclared, toHolding_state (run_canonical _ hm), Dev.losLeaves, ← hnum]
  cases d.num .dmtState n.val == 2 || d.num .dmtState n.val == 3
  · rfl
  · exact (dmtLeave_mayHold hm n 1 2).held

theorem losDeclared_withdraws (h : d.num .dmtState n.val = 3) :
    (d.losDeclared n.val).raisedEvent (128 + 16 * n.val + 5) 2 n.val ∧ ((d.losDeclared n.val).ch n.val).refValid = false := by
  have hm := losMasked_canonical hd n.val
  have hnum : (d.losMasked n.val).num .dmtState n.val = d.num .dmtState n.val := losMasked_num hd n.val (by clear * -; revert n; decide)
  obtain ⟨hraised, hvalid⟩ := dmtLeave_withdraws hm n 1 2 (hnum.trans h)
  have hleave : (d.losLeaves n.val).run (d.losMasked n.val) = (dmtLeave n.val 1 2).run (d.losMasked n.val) := by
    simp only [Dev.losLeaves, h]
    rfl
  rw [Dev.losDeclared, hleave]
  refine ⟨(toHolding_adds (ps := [.occs, .fch]) (by decide) (by decide) n.val).raisedEvent hraised, ?_⟩
  rcases toHolding_ch (run_canonical (dmtLeave n.val 1 2) hm) n.val with hch | hch <;> rw [hch] <;> exact hvalid

end

/-- LOS is cleared, and the comparator is no longer low. -/
def losCleared (n : Nat) : Prog := .all [.eff (.fch n fun c => { c with losRaw := false }), setDefect n 0 false]

section
variable {s : State} {n : Fin 4} (ha : s.dev.answers = true)
include ha

theorem losDeclare_run (h : s.dev.num .feEnable n.val = 1) :
    exec (.losDeclare n) s = .next { s with dev := s.dev.losDeclared n.val } := by
  rw [exec_losDeclare, execLosDeclare, run_live ha, Prog.run_ask, h]
  rfl

theorem losDeclare_idle (h : s.dev.num .feEnable n.val ≠ 1) : exec (.losDeclare n) s = .next s := by
  rw [exec_losDeclare, execLosDeclare, run_live ha, Prog.run_ask, beq_false_of_ne h]
  rfl

theorem losClear_idle (h : s.dev.num .feState n.val = 0) : exec (.losClear n) s = .next s := by
  rw [exec_losClear, execLosClear, run_live ha, Prog.run_ask, h]
  rfl

theorem losClear_run (h : s.dev.num .feState n.val ≠ 0) :
    exec (.losClear n) s = .next { s with dev := (losCleared n.val).run s.dev } := by
  rw [exec_losClear, execLosClear, run_live ha, Prog.run_ask, bne_iff_ne.mpr h]
  rfl

end

theorem losCleared_adds (n : Nat) : (losCleared n).Only (Eff.adds (keysOf [(.frmDefects, n, 0)]) [.fch, .occs]) :=
  ⟨adds_fch (by decide) _ _, setDefect_within (by decide) (by decide) n 0 false, trivial⟩

theorem losCleared_defect {d : Dev} (hd : d.Canonical) (n j : Nat) : ((losCleared n).run d).defect n j = if j = 0 then false else d.defect n j :=
  setDefect_defect (d := (Eff.fch n fun c => { c with losRaw := false }).apply d) (Eff.apply_canonical _ d hd) j

theorem losCleared_raises {d : Dev} {n : Nat} (h : d.defect n 0 = true) :
    ((losCleared n).run d).raisedEvent (128 + 16 * n + 12) 0 n :=
  setDefect_raises (d := (Eff.fch n fun c => { c with losRaw := false }).apply d) (ne_false_of_eq_true h)

/-! ## LOF (R308) -/

/-- The device once LOF is declared. -/
def Dev.lofDeclared (d : Dev) (n : Nat) : Dev := (toHolding n).run ((maskDefects n false).run ((setDefect n 1 true).run d))

section
variable {d : Dev} (hd : d.Canonical) (n : Fin 4)
include hd

theorem lofDeclared_defect {j : Nat} (hj : 1 ≤ j ∧ j ≤ 3) : (d.lofDeclared n.val).defect n.val j = decide (j = 1) := by
  have hs := run_canonical (setDefect n.val 1 true) hd
  obtain ⟨h1, h3⟩ := hj
  rw [Dev.lofDeclared, (toHolding_adds (ps := [.occs, .fch]) (by decide) (by decide) n.val).defect (run_canonical _ hs).objs
    (by clear * -; revert n; decide), maskDefects_defect hs, setDefect_defect hd]
  interval_cases j <;> rfl

omit hd in
theorem lofDeclared_raises (h : d.defect n.val 1 = false) : (d.lofDeclared n.val).raisedEvent (128 + 16 * n.val + 11) 0 n.val :=
  (toHolding_adds (ps := [.occs, .fch]) (by decide) (by decide) n.val).raisedEvent
    ((maskDefects_adds n.val false).raisedEvent (setDefect_raises (ne_true_of_eq_false h)))

theorem lofDeclared_act : (d.lofDeclared n.val).num .actState n.val = if d.num .actState n.val = 4 then 5 else d.num .actState n.val := by
  have hs := run_canonical (setDefect n.val 1 true) hd
  have hk : keysOf [(.frmDefects, n.val, 0)] (Obj.actState.key n.val 0) = false := by clear * -; revert n; decide
  rw [Dev.lofDeclared, toHolding_state (run_canonical _ hs), (maskDefects_adds n.val false).num hs.objs hk,
    (setDefect_adds n.val 1 true).num hd.objs hk]

end

section
variable {s : State} {n : Fin 4} (ha : s.dev.answers = true)
include ha

theorem lofDeclare_run (h2 : s.dev.num .feState n.val = 2) (hu : s.dev.num .frmAlignState n.val ≠ 2)
    (h24 : 24 ≤ (s.dev.ch n.val).outFrames) (h0 : s.dev.defect n.val 0 = false) :
    exec (.lofDeclare n) s = .next { s with dev := s.dev.lofDeclared n.val } := by
  rw [exec_lofDeclare, execLofDeclare, run_live ha, Prog.run_ask, h2, bne_iff_ne.mpr hu, decide_eq_true h24]
  simp only [beq_self_eq_true, Bool.and_self, Prog.when_true, Prog.run_all_cons, Prog.all_nil, Prog.run_skip, declareLof, Prog.run_ask, h0]
  rfl

theorem lofDeclare_idle (h2 : s.dev.num .frmAlignState n.val = 2) : exec (.lofDeclare n) s = .next s := by
  rw [exec_lofDeclare, execLofDeclare, run_live ha, Prog.run_ask, h2, bne_self_eq_false, Bool.and_false, Bool.false_and]
  rfl

/-! ## AIS (R308) -/

theorem aisDeclare_run (h3 : 3 ≤ (s.dev.ch n.val).aisRun) (h0 : s.dev.defect n.val 0 = false) (h1 : s.dev.defect n.val 1 = false)
    (h2 : s.dev.defect n.val 2 = false) : exec (.aisDeclare n) s = .next (s.after
      [.obj .frmDefects n.val 0 (.num (putBit (s.dev.num .frmDefects n.val) 2 true)), .raise (128 + 16 * n.val + 13) 0 n.val (top8 2) 0,
       .fch n.val fun c => { c with pm := { c.pm with defect := true } }]) := by
  rw [exec_aisDeclare, execAisDeclare, run_live ha, Prog.run_ask, h0, h1, decide_eq_true h3]
  simp only [Bool.not_false, Bool.and_self, Prog.when_true, Prog.run_all_cons, Prog.all_nil, Prog.run_skip,
    setDefect_run (ne_true_of_eq_false h2)]
  rfl

theorem aisDeclare_idle (h : s.dev.defect n.val 0 = true ∨ s.dev.defect n.val 1 = true ∨ (s.dev.ch n.val).aisRun < 3) :
    exec (.aisDeclare n) s = .next s := by
  have hc : (decide (3 ≤ (s.dev.ch n.val).aisRun) && !s.dev.defect n.val 0 && !s.dev.defect n.val 1) = false := by
    rcases h with h | h | h
    · simp [h]
    · simp [h]
    · simp [Nat.not_le.mpr h]
  rw [exec_aisDeclare, execAisDeclare, run_live ha, Prog.run_ask, hc]
  rfl

theorem aisClear_run (h3 : 3 ≤ (s.dev.ch n.val).okRun) (h2 : s.dev.defect n.val 2 = true) : exec (.aisClear n) s = .next (s.after
    [.obj .frmDefects n.val 0 (.num (putBit (s.dev.num .frmDefects n.val) 2 false)),
     .raise (128 + 16 * n.val + 13) 0 n.val (top8 2) 0]) := by
  rw [exec_aisClear, execAisClear, run_live ha, Prog.run_ask, decide_eq_true h3]
  simp only [Prog.when_true, Prog.run_all_cons, Prog.all_nil, Prog.run_skip, setDefect_run (ne_false_of_eq_true h2)]
  rfl

end

/-! ## FEC_DEG (R308) -/

/-- FEC_DEG is cleared where nine windows before were clear. -/
def fecCleared (d : Dev) (n : Nat) : Prog := .when (decide (9 ≤ (d.ch n).fecClear)) [setDefect n 3 false]

/-- A window ends, and the count of clear ones in a row takes a value from its last one. -/
def fecWindow (n : Nat) (clear : Nat → Nat) : Eff := .fch n fun c => { c with fecCount := 0, fecClear := clear c.fecClear }

section
variable {s : State} {n : Fin 4} (ha : s.dev.answers = true)
include ha

theorem fecDeg_masked (h : s.dev.defect n.val 0 = true ∨ s.dev.defect n.val 1 = true) : exec (.fecDegWindowEnd n) s = .next (s.after
    [.fch n.val fun c => { c with fecCount := 0, fecClear := 0 }]) := by
  have hc : (s.dev.defect n.val 0 || s.dev.defect n.val 1) = true := Bool.or_eq_true_iff.mpr h
  rw [exec_fecDegWindowEnd, execFecDegWindowEnd, run_live ha]
  simp only [Prog.run_ask, hc, if_true]
  rfl

variable (h0 : s.dev.defect n.val 0 = false) (h1 : s.dev.defect n.val 1 = false)
include h0 h1

theorem fecDeg_declares (h : s.dev.num .frmFecDegThreshold n.val ≤ (s.dev.ch n.val).fecCount) : exec (.fecDegWindowEnd n) s =
    .next { s with dev := (fecWindow n.val fun _ => 0).apply ((setDefect n.val 3 true).run s.dev) } := by
  rw [exec_fecDegWindowEnd, execFecDegWindowEnd, run_live ha]
  simp only [Prog.run_ask, h0, h1, Bool.or_self, Bool.false_eq_true, if_false, if_pos h]
  rfl

theorem fecDeg_counts (h : (s.dev.ch n.val).fecCount < s.dev.num .frmFecDegThreshold n.val) : exec (.fecDegWindowEnd n) s =
    .next { s with dev := (fecWindow n.val fun k => min 10 (k + 1)).apply ((fecCleared s.dev n.val).run s.dev) } := by
  rw [exec_fecDegWindowEnd, execFecDegWindowEnd, run_live ha]
  simp only [Prog.run_ask, h0, h1, Bool.or_self, Bool.false_eq_true, if_false, if_neg (Nat.not_le.mpr h)]
  rfl

end

section
variable {d : Dev} (hd : d.Canonical) (n : Nat)
include hd

theorem fecWindow_ch (clear : Nat → Nat) : (((fecWindow n clear).apply d).ch n).fecClear = clear (d.ch n).fecClear ∧
    (((fecWindow n clear).apply d).ch n).fecCount = 0 := by
  rw [fecWindow, ch_fch hd]
  exact ⟨rfl, rfl⟩

omit hd in
theorem fecCleared_ch : ((fecCleared d n).run d).ch n = d.ch n := by
  unfold fecCleared
  cases decide (9 ≤ (d.ch n).fecClear)
  · rfl
  · exact setDefect_ch (by decide) n

theorem fecCleared_defect : ((fecCleared d n).run d).defect n 3 = (d.defect n 3 && decide ((d.ch n).fecClear < 9)) := by
  by_cases h : 9 ≤ (d.ch n).fecClear
  · simp [fecCleared, h, setDefect_defect hd, Nat.not_lt.mpr h]
  · simp [fecCleared, h, Nat.not_le.mp h]

omit hd in
theorem fecDeg_names (h : d.defect n 3 = false) :
    ∃ x ∈ ((setDefect n 3 true).run d).occs, x.src = 128 + 16 * n + 13 ∧ x.arg0 = top8 3 := by
  rw [setDefect_changes (by decide) (ne_true_of_eq_false h)]
  exact ⟨_, List.mem_append_right _ (List.mem_singleton.mpr rfl), rfl, rfl⟩

end

/-- Settles O29: a bit of FRM_DEFECTS takes its value by `setDefect`; the masks, the receiver and the activation state follow. -/
theorem framerDefects : Obligations.FramerDefects := by
  intro s n hs ha
  refine ⟨fun h => ?_, losDeclare_idle ha, losClear_idle ha, fun h => ?_, fun h2 hu h24 h0 => ?_, lofDeclare_idle ha, aisDeclare_run ha,
    aisDeclare_idle ha, aisClear_run ha, fecDeg_masked ha, fun h0 h1 => ⟨fun h => ?_, fun h => ?_⟩⟩
  · exact ⟨_, losDeclare_run ha h, rfl, fun b hb => losDeclared_defect hs.1 n hb, losDeclared_raises n, losDeclared_receiver hs.1 n,
      losDeclared_withdraws hs.1 n, losDeclared_act hs.1 n⟩
  · have hdef := losCleared_defect hs.1 n.val
    exact ⟨_, losClear_run ha h, rfl, hdef 0, fun b hb => (hdef b).trans (if_neg hb), losCleared_raises,
      ((losCleared_adds n.val).within s.dev hs.1.objs).2⟩
  · have hdef {j : Nat} := lofDeclared_defect hs.1 n (j := j)
    exact ⟨_, lofDeclare_run ha h2 hu h24 h0, rfl, hdef (by decide), hdef (by decide), hdef (by decide), lofDeclared_raises n,
      lofDeclared_act hs.1 n⟩
  · obtain ⟨hclear, hcount⟩ := fecWindow_ch (run_canonical (setDefect n.val 3 true) hs.1) n.val fun _ => 0
    exact ⟨_, fecDeg_declares ha h0 h1 h, rfl, setDefect_defect hs.1 3, hclear, hcount, fecDeg_names n.val⟩
  · have hclear := (fecWindow_ch (run_canonical (fecCleared s.dev n.val) hs.1) n.val fun k => min 10 (k + 1)).1
    rw [fecCleared_ch] at hclear
    exact ⟨_, fecDeg_counts ha h0 h1 h, rfl, hclear, fecCleared_defect hs.1 n.val⟩

end Sys2Proof.Machine
end
